-- ==== Sys2Proof/Word.lean ====
section
/-! DEFINITION. The words of the HX9's register space and the shape of a register-table row.
Registers are 32 bits (R539), memory is addressed in bytes, GTIME has 64 bits (R41). -/

namespace Sys2Proof

/-- A 32-bit register word (R539). -/
abbrev Word := BitVec 32

/-- A byte of memory. -/
abbrev Byte := BitVec 8

/-- A field of a register page: the register's offset in the page, the field's lowest bit, its width (R18, R21). -/
structure Fld where
  off : Nat
  lo : Nat
  width : Nat
deriving DecidableEq, Repr

/-- Register `i` of a numbered array of registers that stand four bytes apart. -/
def Fld.idx (f : Fld) (i : Nat) : Fld := { f with off := f.off + 4 * i }

/-- Register `i` of a numbered array of registers that stand `n` bytes apart. -/
def Fld.step (f : Fld) (n i : Nat) : Fld := { f with off := f.off + n * i }

/-- One row of a page type's register table: offset, how many registers, distance, value after power-on reset (R24),
and the bits that software may write (RW and RWS), keep across warm reset (RWS), write only (WO), clear (W1C)
and set (W1S) as R22 gives the access types. All other bits are RO or reserved. -/
structure RegRow where
  off : Nat
  count : Nat
  stride : Nat
  reset : Nat
  rw : Nat
  rws : Nat
  wo : Nat
  w1c : Nat
  w1s : Nat
deriving DecidableEq, Repr

end Sys2Proof
end

