-- ==== Sys2Proof/Syntax.lean ====
section
/-! DEFINITION. The commands of the HX9 (spec/opcode_table.json): one constructor for each row, with the row's operands. An
operand is what the sender gives, or what the physical world shows and no register of the machine tells: a sample, the outcome
of a decoder, a pin. -/

namespace Sys2Proof

/-- Who makes a register access (R43, R545). -/
inductive Requester where
  | app (core : Fin 4)
  | rt (pair : Fin 2)
  | host
  | debug
  | mgmt
deriving DecidableEq, Repr

/-- The words of a task's descriptor but for OPC, which the row fixes (R59): TAG, FLAGS and TW_D1 to TW_D7. -/
structure TaskOp where
  tag : BitVec 16 := 0
  flags : BitVec 8 := 0
  d1 : Word := 0
  d2 : Word := 0
  d3 : Word := 0
  d4 : Word := 0
  d5 : Word := 0
  d6 : Word := 0
  d7 : Word := 0
deriving DecidableEq, Repr

/-- What a parameter page states (R186): geometry, and the largest read, program and erase times in Grains. -/
structure Geom where
  pagesPerBlock : Nat
  planesLog2 : Nat
  pageBytes : Nat
  spareBytes : Nat
  lunsPerCe : Nat
  blocksPerLun : Nat
  blockBits : Nat
  pageBits : Nat
  rowCycles : Nat
  colCycles : Nat
  tR : Nat
  tProg : Nat
  tBers : Nat
deriving DecidableEq, Repr

/-- One copy of a parameter page: is its signature right, its 256 bytes, what they state (R186). -/
structure ParamCopy where
  signature : Bool
  bytes : List Byte
  geom : Geom
deriving DecidableEq, Repr

/-- A target as the steps of R186 find it: channel of the bay, chip enable, how many µs after power-good its RB_N rises (`none`:
never), its maker and device from READ_ID at 00h, the bytes of READ_ID at 20h, and the copies of its parameter page. -/
structure Target where
  chan : Fin 4
  ce : Fin 4
  rbUs : Option Nat
  mfr : Nat
  dev : Nat
  id20 : List Byte
  copies : List ParamCopy
deriving DecidableEq, Repr

/-- What a formatted magazine's newest bay map states (R229): whether it is the one this bay held last, width, stripe
slots per group, free stripes, dies lost and read-only, learned retry entries by die, whether the commit areas are prepared. -/
structure Magazine where
  same : Bool
  width : Nat
  kSets : Nat
  freeStripes : Nat
  dead : Nat
  ro : Nat
  learned : List (Nat × Nat) := []
  areasReady : Bool
deriving DecidableEq, Repr

/-- A cluster that has passed the head (R271, R274, R305): the address that its first address unit gives, the flywheel's number of its first
frame, the interpolated value of each channel bit from the first frame sync on, the ranges of channel bits (first, length) in defects, the
uncorrectable and corrected words of its stream region, and whether its data write failed. -/
structure ClusterObs where
  addr : Nat
  first : Nat := 0
  values : List Int := []
  defects : List (Nat × Nat) := []
  uncorr : Nat := 0
  corr : Nat := 0
  destFault : Bool := false
deriving DecidableEq, Repr

/-- A level of the laser that a pulse line drives (R318). -/
inductive Light where
  | pw | pm | ps | pc
deriving DecidableEq, Repr

/-- A place on a disc (R314): ADIP word, unit, wobble period, and channel bits beyond the start of that period. -/
structure Place where
  word : Nat
  unit : Nat
  wob : Nat
  bit : Int := 0
deriving DecidableEq, Repr

/-- The source of a fast inhibit (R322): the shock comparator, or a tracking or focus error sample in sampler LSB. -/
inductive FastSource where
  | shock
  | track (v : Int)
  | focus (v : Int)
deriving DecidableEq, Repr

/-- What an optical port shows in a Grain (R297, R339, R359): four sets of ten 12-bit samples, the mean and the lowest envelope, the tilt
metric if a pilot wedge ended, whether a driver fault's cause is present, and for how many of the Grain's 4,000 ns each pulse line, 0 to 3,
spent high (R499). -/
structure PortIn where
  pd : List (List (BitVec 12)) := []
  env : BitVec 8 := 0
  envMin : BitVec 8 := 0
  tilt : Option (BitVec 16) := none
  cause : Bool := false
  high : List (BitVec 12) := []
deriving DecidableEq, Repr

/-- What a motor channel shows in a Grain (R385, R400): peak and mean DC-link current in mA, in a soft window the second
sample's mean and whether the incoming phase was the longer one, whether a sample had to be held, and whether a gate
fault's cause is present. -/
structure MotorIn where
  peak : BitVec 16 := 0
  mean : BitVec 16 := 0
  soft : Option (BitVec 16 × Bool) := none
  held : Bool := false
  cause : Bool := false
deriving DecidableEq, Repr


/-- Who reads or writes an array (R471, R545): a requester of the register bus, a data-path engine with its page, or the
scrubber. -/
inductive MemUser where
  | soft (r : Requester)
  | engine (page : Nat)
  | scrub
deriving DecidableEq, Repr

/-- The item of the always-on SRAM in which a parity error lies (R463, R470). -/
inductive AonItem where
  | capEsr
  | carry
  | mark (slot : Fin 16)
  | other
deriving DecidableEq, Repr

/-- Bits of a failed mask written 0 (R484): FTH_ADC.FAILED of a read channel, ELL_STAT.LANE_FAILED of a servo engine. -/
inductive FailedMask where
  | adc (chan : Fin 5) (mask : BitVec 5)
  | lanes (engine : Fin 2) (mask : BitVec 8)
deriving DecidableEq, Repr

/-- What a calibration step has measured (R491, R494): for an input's offset nothing but the samples it took; the eye in percent of
the bit time and the eye centre; the drift since the last step in 1/1,024 UI; a sampler's gain error in 1/10,000 and offset in mV, with what
the three bandgaps read in microvolts; what a die's three temperature sensors read in 1/100 °C; the shunt's offset and those of the four
comparators of each phase in microvolts; a bridge's zero current in microamperes. -/
inductive CalValue where
  | offset
  | phy (eye : Nat) (centre : Int)
  | drift (v : Nat)
  | sampler (gain offset : Int) (r0 r1 r2 : Nat)
  | sensors (t0 t1 t2 : Int)
  | motor (shunt : Int) (a b c : List Int)
  | bridge (v : Int)
deriving DecidableEq, Repr

/-- How a request of the PCIe endpoint failed (R518). -/
inductive CplError where
  | timeout
  | poisoned
  | unsupported
  | abort
deriving DecidableEq, Repr

/-- A CAN frame (R525): bytes 0 to 3 and 4 of its buffer, and its data. -/
structure CanFrame where
  ident : Word
  ctl : Byte := 0
  data : List Byte := []
deriving DecidableEq, Repr

/-- What a fuse word holds, for a word that cannot be corrected (R564): the sealing key, the boot key digest, the identifiers,
repair entry `n`, or another. -/
inductive FuseItem where
  | sealKey
  | bootKey
  | serial
  | pci
  | repair (n : Nat)
  | other
deriving DecidableEq, Repr

/-- The fuse words as read (R564, R577, R580): serial number, PCIe identifiers, boot key digest in eight words, SECURE and
DBG_EN, key identifier, public key and sealing key, did its integrity check and the self-test signature pass, was a word
corrected, and the words that could not be. -/
structure FuseWords where
  serial : BitVec 64
  pci : Word
  bootKey : List Word
  secure : Bool
  dbgEn : Bool
  keyId : Word
  pubKey : List Word
  sealKey : BitVec 256
  keyOk : Bool
  corrected : Bool
  bad : List FuseItem
deriving DecidableEq, Repr

/-- A firmware image (R565): its header and its body. -/
structure FwImage where
  header : List Byte
  body : List Byte
deriving DecidableEq, Repr

/-- What a Grain edge captures (R31, R35): the optical ports, the motor channels, the highest VMOT sample and the mean chopper
current of the Grain in mV and mA, the latest VHOLD and VMOT samples if any, encoder transitions, loads of the sleds, the
targets that hold RB_N low (bit 4 k + chip enable), the digital gain of each read channel in quarter dB, the GPIO inputs, and, of the Grain
that ends, how many consumer words the ingest mover has completed in each staging FIFO (R142) and how many elements the memory has let the
utility DMA move (R439). -/
structure GrainIn where
  ports : List PortIn := []
  motors : List MotorIn := []
  vmax : BitVec 16 := 0
  brk : BitVec 16 := 0
  vhold : Option (BitVec 16) := none
  vmot : Option (BitVec 16) := none
  enc : List Int := []
  loads : List Byte := []
  rbLow : Nat := 0
  gains : List Int := []
  pins : Word := 0
  fills : List (Fin 64 × Nat) := []
  moved : Nat := 0
deriving DecidableEq, Repr

/-- What the management plane meets at a Stone edge: the lowest, highest and last VHOLD sample of the Stone in mV (R109, R113),
the ageing measures 0x00 to 0x0C that were taken (R498), the least slack of the fresh replicas in ps (R508), and the MR4 refresh-rate
field that the LPDDR5 devices answered (R256, R260). -/
structure StoneIn where
  vholdLow : BitVec 16
  vholdHigh : BitVec 16
  vholdLast : BitVec 16
  ages : List (Option Int) := []
  slack : Option Int := none
  mr4 : Option Byte := none
deriving DecidableEq, Repr

/-- The commands, in the order of the table. -/
inductive Instr where
  /-- GRAIN_EDGE (R32). At each Grain edge the HX9 commits everything staged in the previous output phase, captures
    arrivals, and runs the input, decision, timer and output phases of the new Grain. -/
  | grainEdge (i : GrainIn)
  /-- GRAIN_OVERRUN (R37). An engine that has not finished its decision work by cycle 2,799 discards its staged outputs,
    carries its events forward and writes a GRAIN_OVR record. -/
  | grainOverrun (page : Word) (slice : Option (Fin 156))
  /-- STONE_EDGE (R39). At the edge where GTIME[7:0] is 0 a Stone begins and every engine copies its statistics counters
    into its Stone snapshot registers. -/
  | stoneEdge (i : GrainIn) (z : StoneIn)
  /-- DIE_LINK_LOSS (R28). When the die link has been out of lock for more than 2 Grains, the power die releases every motor
    bridge, zeroes the actuators and de-energises the sleds. -/
  | dieLinkLoss (grains : Nat) (frames : List (Option Nat))
  /-- DIE_LINK_RETURN (R28). When the die link returns, the logic die writes a DIE_LINK record and sets DEGRADED in the
    servo, commutation and motion pages. -/
  | dieLinkReturn
  /-- VAON_POWER_UP (R41). When VAON powers up, GTIME starts at 0, EPOCH_LOST is set and the bridge carry is cleared. -/
  | vaonPowerUp
  /-- VAON_LOSS (R568). Loss of VAON clears every on-chip state, including GTIME, the always-on SRAM and SCR. -/
  | vaonLoss
  /-- TB_GTIME_LO_READ (R43). A read of TB_GTIME_LO returns GTIME[31:0] and latches GTIME[63:32] for the same requester. -/
  | tbGtimeLoRead (r : Requester)
  /-- TB_WALL_OFS_HI_WRITE (R46). A write of TB_WALL_OFS_HI commits both halves of the wall offset at the next edge. -/
  | tbWallOfsHiWrite (v : Word)
  /-- REGISTER_WRITE (R36). A write to a register without behaviour of its own is captured like any other arrival and takes
    effect at the following edge. -/
  | registerWrite (r : Requester) (addr : Word) (v : Word)
  /-- REGISTER_ACCESS_ERROR (R539). An access that is not one naturally aligned 32-bit access, or that names an address
    holding no page, ends in a bus error and is recorded as NARROW or UNMAPPED. -/
  | registerAccessError (r : Requester) (addr : Word) (size : Nat)
  /-- POWERED_DOWN_ACCESS (R547). An access to a page whose domain is not ON is answered from the PD02 shadow for PG_ID and
    PG_STAT, and otherwise ends in a bus error recorded as POWERED_DOWN. -/
  | poweredDownAccess (r : Requester) (addr : Word) (w : Option Word)
  /-- OPEN_LANE (R72). Task OPEN_LANE binds a lane to a context and puts the context in OPENING when the checks of R65 pass. -/
  | openLane (w : Fin 64) (r : Requester) (t : TaskOp)
  /-- APPEND (R73). Task APPEND promises FIFO space, charges the reserve, takes an LSN and starts the fetch of its payload. -/
  | append (w : Fin 64) (r : Requester) (t : TaskOp)
  /-- READ (R75). Task READ waits for overlapping lower-LSN APPENDs to settle and then copies a lane range to ADDR. -/
  | read (w : Fin 64) (r : Requester) (t : TaskOp)
  /-- SEAL (R76). Task SEAL puts the context in SEALING and queues the lane for signing. -/
  | seal (w : Fin 64) (r : Requester) (t : TaskOp)
  /-- FLUSH (R95). Task FLUSH completes when every lower-LSN task in its scope is settled. -/
  | flush (w : Fin 64) (r : Requester) (t : TaskOp)
  /-- ABORT (R91). Task ABORT finds its target by tag and either aborts it or reports TOO_LATE, NOT_ABORTABLE or NO_TARGET. -/
  | abort (w : Fin 64) (r : Requester) (t : TaskOp)
  /-- MARK (R96). Task MARK places a hold on a lane range with a class and an expiry. -/
  | mark (w : Fin 64) (r : Requester) (t : TaskOp)
  /-- RELEASE (R97). Task RELEASE removes a hold, or with RECLAIM moves an archived, unheld lane to RECLAIMING. -/
  | release (w : Fin 64) (r : Requester) (t : TaskOp)
  /-- QUERY (R77). Task QUERY writes a 64-byte lane status record to ADDR. -/
  | query (w : Fin 64) (r : Requester) (t : TaskOp)
  /-- DOORBELL_BUSY_WRITE (R62). A write to the descriptor or the doorbell while STATE is PENDING is ignored and records
    DOORBELL_BUSY. -/
  | doorbellBusyWrite (w : Fin 64) (r : Requester) (off : Fin 9)
  /-- OPEN_LANE_COMPLETE (R72). When the lane descriptor has been checked, the OPEN_LANE completes OK and opens the context,
    or completes LANE_IN_USE and frees it. -/
  | openLaneComplete (lsn : Nat)
  /-- APPEND_COMPLETE (R152). The ingest mover reports the payload in staging once the CV unit has stored the context and
    the end record has been accepted, and the APPEND completion is staged. -/
  | appendComplete (lsn : Nat)
  /-- READ_COMPLETE (R75). A READ completes with RANGE, UNRECOVERABLE, DEST_FAULT, VOID or OK and a RESULT counting the
    bytes delivered. -/
  | readComplete (lsn : Nat) (fail : Option Nat)
  /-- SEAL_COMPLETE (R76). When the seal record is Settled, the SEAL completes, the context becomes FREE and the descriptor
    SEALED. -/
  | sealComplete (lsn : Nat)
  /-- MARK_COMPLETE (R71). A MARK completes when the hold is in force and its record is Held. -/
  | markComplete (lsn : Nat)
  /-- RELEASE_COMPLETE (R71). A RELEASE completes when its release record is Held. -/
  | releaseComplete (lsn : Nat)
  /-- QUERY_COMPLETE (R77). A QUERY completes once its status record has been written to ADDR. -/
  | queryComplete (lsn : Nat) (fail : Bool)
  /-- INGEST_SOURCE_ERROR (R74). An error, poisoned or failed completion of the APPEND source stops the fetch, and the rest
    of the entry is marked void with an LDG_VOID record. -/
  | ingestSourceError (lsn : Nat) (good : Nat)
  /-- COMPLETION_POSTING (R88). Staged completions are posted from the edge in LSN order per window, followed by the
    TW_CQ_PROD update and the interrupt, up to 64 per window and 256 per Grain. -/
  | completionPosting
  /-- TW_CQ_CONS_WRITE (R86). A consumer-index write consumes entries, retires their journal entries and decrements the
    outstanding count, or is ignored with CONS_RANGE. -/
  | twCqConsWrite (w : Fin 64) (r : Requester) (v : BitVec 16)
  /-- RING_ARM (R101). A write of TW_CQ_CFG with ARMED set starts a new incarnation and re-posts every unconsumed met
    completion. -/
  | ringArm (w : Fin 64) (r : Requester) (v : Word)
  /-- RING_DISARM (R64). A write of TW_CQ_CFG with ARMED 0 disarms the ring, holds staged postings in the journal and writes
    an LDG_HOST_EVENT record. -/
  | ringDisarm (w : Fin 64) (r : Requester) (v : Word)
  /-- HOLD_LAPSE (R97). In the timer phase of the first Grain at or past a hold's expiry, the hold lapses and a lapse record
    is written. -/
  | holdLapse (id : Nat)
  /-- FUNCTION_LEVEL_RESET (R100). A PCIe function-level reset discards undecided doorbells, disarms every host-owned
    window, stops host writes and records LDG_HOST_EVENT. -/
  | functionLevelReset (goods : List (Nat × Nat))
  /-- HOT_RESET (R100). A PCIe hot reset acts on every host-owned window as a host event under R100. -/
  | hotReset (goods : List (Nat × Nat))
  /-- LINK_LOSS (R100). A loss of the data link, including surprise removal, acts on every host-owned window and ends
    outstanding endpoint requests with an error. -/
  | linkLoss (goods : List (Nat × Nat))
  /-- PERST_ASSERT (R517). PCIE_PERST_N sampled low for two cycles is reported to the ledger as a host event. -/
  | perstAssert (goods : List (Nat × Nat))
  /-- ACTIVATE_SET (R102). A write of LDG_CTL.ACTIVATE = 1 refuses every submission with ACTIVATION and starts the drain. -/
  | activateSet
  /-- ACTIVATION_QUIESCED (R102). When every accepted task is staged and settled, the ledger clears DRAINING and sets
    QUIESCED. -/
  | activationQuiesced
  /-- ACTIVATE_CLEAR (R102). A write of LDG_CTL.ACTIVATE = 0 clears QUIESCED, and acceptance resumes from the next Grain. -/
  | activateClear
  /-- ACCEPT_EN_WRITE (R104). A write of LDG_CTL.ACCEPT_EN enables or disables acceptance, and is ignored while RESTORED is
    0 or a region is not placed. -/
  | acceptEnWrite (r : Requester) (on : Bool)
  /-- LEDGER_RESTORE (R132). At power-up the ledger waits for the bays, restores the newest valid commit, replays Held
    items, erases the other commit area and then sets RESTORED. -/
  | ledgerRestore (corrupt : List (Nat × Nat)) (lost : List Nat) (fails : List Nat)
  /-- LDG_NEXT_LSN_LO_READ (R107). A read of LDG_NEXT_LSN_LO latches the high half for the requester. -/
  | ldgNextLsnLoRead (r : Requester)
  /-- LDG_LSN_LIMIT_LO_READ (R107). A read of LDG_LSN_LIMIT_LO latches the high half for the requester. -/
  | ldgLsnLimitLoRead (r : Requester)
  /-- RSV_COMMIT_SEQ_LO_READ (R135). A read of RSV_COMMIT_SEQ_LO latches the high half for the requester. -/
  | rsvCommitSeqLoRead (r : Requester)
  /-- MEAS_GO (R109). A write of 1 to BANK_CTL.MEAS_GO requests a bank measurement. -/
  | measGo
  /-- MEAS_PERIOD_EXPIRY (R109). While MEAS_AUTO is 1, a measurement is requested every PERIOD_STONES Stones. -/
  | measPeriodExpiry
  /-- MEAS_START (R109). At the first Stone edge at which stability, headroom and supply allow, the measurement starts and
    drives HOLD_CHG_EN low. -/
  | measStart
  /-- MEAS_RESULT (R111). At the end of the measurement the C and ESR are computed and judged as failure, adoption or
    candidate. -/
  | measResult (v0 : Nat) (v1 : Nat) (v2 : Nat) (v3 : Nat)
  /-- POWER_FAIL_ASSERT (R121). The power-fail line asserts when VMOT_SNS has stayed below VMOT_FAIL_MV for DEBOUNCE_US. -/
  | powerFailAssert (mv : Nat) (us : Nat)
  /-- SUPPLY_LOSS_CAPTURE (R11). A captured main-supply loss refuses every submission with RESERVE from its Grain onward and
    freezes the Held set. -/
  | supplyLossCapture (goods : List (Nat × Nat))
  /-- COMMIT_SEQUENCE (R125). At the edge after the loss the HX9 sheds loads, drops queued flash commands and begins the
    power-loss commit in every writable bay. -/
  | commitSequence
  /-- CLOSE_RECORD_WRITE (R128). A bay issues its close record once its items and ledger state have reported good program
    status. -/
  | closeRecordWrite (b : Fin 4) (mv : BitVec 16) (fails : List (Nat × Nat))
  /-- COMMIT_FLOOR_REACHED (R130). If VHOLD reaches V_FLOOR_MV before a bay's close record is programmed, that bay's commit
    is incomplete. -/
  | commitFloorReached (mv : BitVec 16)
  /-- COMMIT_END (R130). When every writable bay has finished or failed its close record, the HX9 powers off the commit
    domains and starts a power-on reset or enters OFF. -/
  | commitEnd (mv : Nat)
  /-- PACKET_FIRST_WORD (R151). At the FIRST word of a packet the CV unit loads the context's running value into the FIFO's
    working register. -/
  | packetFirstWord (k : Fin 64)
  /-- PACKET_LAST_WORD (R151). At the LAST word of a packet the CV unit stores the running value and writes the end record
    to the check trail. -/
  | packetLastWord (k : Fin 64)
  /-- FK_CFG_WRITE (R138). A write of FK_CFG takes effect at the next edge if it fits, overlaps nothing and the FIFO holds
    nothing, and is otherwise ignored. -/
  | fkCfgWrite (k : Fin 64) (r : Requester) (v : Word)
  /-- FK_FLUSH (R145). A write of FK_CTL.FLUSH resets every pointer to W at the next edge when the FIFO holds nothing, and
    otherwise is ignored with FLUSH_HELD. -/
  | fkFlush (k : Fin 64) (r : Requester)
  /-- FK_DIAG_EN_WRITE (R145). A write of FK_CTL.DIAG_EN reserves or frees the FIFO for the diagnostic port when the FIFO
    holds nothing. -/
  | fkDiagEnWrite (k : Fin 64) (r : Requester) (on : Bool)
  /-- FK_DIAG_HI_WRITE (R162). A write of FK_DIAG_HI pushes the diagnostic word, or is discarded and sets OVERRUN when the
    FIFO is full. -/
  | fkDiagHiWrite (k : Fin 64) (v : Word)
  /-- FK_DIAG_END_WRITE (R162). A write of FK_DIAG_END closes the diagnostic packet with its VALID value. -/
  | fkDiagEndWrite (k : Fin 64) (v : Word)
  /-- FK_DIAG_LO_READ (R162). A read of FK_DIAG_LO pops the next 64-bit part of the word at D, or sets UNDERRUN when the
    FIFO is empty. -/
  | fkDiagLoRead (k : Fin 64) (r : Requester)
  /-- FK_POINTER_FAILURE (R146). An overrun or underrun by the data path stops the FIFO's drain, writes FK_OVERRUN or
    FK_UNDERRUN and remaps the staging logic. -/
  | fkPointerFailure (k : Fin 64) (ovr : Bool)
  /-- CV_RUN_LO_READ (R154). A read of CV_RUN_LO returns the low half of the selected context's running value and latches
    the high half. -/
  | cvRunLoRead (k : Fin 8) (r : Requester)
  /-- CV_RUN_LO_WRITE (R154). A write of CV_RUN_LO is held in the page's write latch for the requester. -/
  | cvRunLoWrite (k : Fin 8) (r : Requester) (v : Word)
  /-- CV_RUN_HI_WRITE (R154). A write of CV_RUN_HI commits the running value at the next edge, or is ignored with CTX_BUSY. -/
  | cvRunHiWrite (k : Fin 8) (r : Requester) (v : Word)
  /-- SHA_BLOCK_ABSORB (R156). A compression core absorbs a 64-byte block of a lane and advances pointer H. -/
  | shaBlockAbsorb (k : Fin 64)
  /-- SEAL_SIGN_START (R159). A SEAL starts signing in the first Grain in which its lane's lower-LSN APPENDs are Settled and
    the seal engine is free. -/
  | sealSignStart
  /-- SEAL_SIGN_DONE (R159). At the end of signing the manifest becomes the Held seal record and is copied to ADDR if LENGTH
    is not 0. -/
  | sealSignDone (bad : Bool) (copyFails : Bool)
  /-- FLASH_BUS_ITEM (R175). The sequencer runs a planned bus item from its start or a resumption up to its next YIELD or
    END. -/
  | flashBusItem (k : Fin 17)
  /-- RCP_END (R172). Recipe instruction END completes the operation. -/
  | rcpEnd (k : Fin 17)
  /-- RCP_CMD (R172). Recipe instruction CMD emits one command cycle. -/
  | rcpCmd (k : Fin 17)
  /-- RCP_ADDR (R172). Recipe instruction ADDR emits column, row or immediate address cycles. -/
  | rcpAddr (k : Fin 17)
  /-- RCP_DIN (R172). Recipe instruction DIN emits a data-input burst from the data stream or the manual buffer. -/
  | rcpDin (k : Fin 17)
  /-- RCP_DOUT (R172). Recipe instruction DOUT takes a data-output burst to the decoder or the manual buffer. -/
  | rcpDout (k : Fin 17) (data : List Byte)
  /-- RCP_WAIT (R172). Recipe instruction WAIT holds the bus idle for a timing parameter plus added time. -/
  | rcpWait (k : Fin 17)
  /-- RCP_YIELD (R172). Recipe instruction YIELD ends the bus item, and the recipe resumes later as a poll item. -/
  | rcpYield (k : Fin 17)
  /-- RCP_STATUS (R172). Recipe instruction STATUS reads the status byte, yields again if not ready and fails with STATUS on
    a fail bit. -/
  | rcpStatus (k : Fin 17) (b : Byte)
  /-- RCP_DATA (R172). Recipe instruction DATA emits one data-input cycle of an immediate byte. -/
  | rcpData (k : Fin 17)
  /-- RCP_PLANE (R172). Recipe instruction PLANE emits a command byte and loops to the next plane of the set. -/
  | rcpPlane (k : Fin 17)
  /-- RCP_RTDATA (R172). Recipe instruction RTDATA emits a byte of the read-retry entry in force. -/
  | rcpRtdata (k : Fin 17)
  /-- RCP_NOP (R172). Recipe instruction NOP does nothing. -/
  | rcpNop (k : Fin 17)
  /-- RCP_BAD_OP (R172). A reserved op ends the recipe with failure code BAD_RECIPE. -/
  | rcpBadOp (k : Fin 17)
  /-- LUN_POLL (R177). A yielded LUN is polled with slot 8 once its expected time has passed, and its recipe resumes when it
    is ready. -/
  | lunPoll (k : Fin 17) (b : Byte)
  /-- ARRAY_TIMEOUT (R180). An operation busy past its FCH_ATO limit is reported failed with TIMEOUT, its LUN is reset and
    FCH_TIMEOUT is recorded. -/
  | arrayTimeout (k : Fin 17) (id : Nat)
  /-- SUSPEND_WAIT_EXPIRY (R184). When a class 3 read has waited SUSP_WAIT_G Grains, the program or erase on its LUN is
    suspended if allowed. -/
  | suspendWaitExpiry (k : Fin 17) (id : Nat)
  /-- SUSPEND_TIMEOUT (R185). A suspend not ready within TSUSP_G is treated as a finished status or as a time-out. -/
  | suspendTimeout (k : Fin 17) (id : Nat) (b : Byte)
  /-- OPERATION_RESUME (R184). When no read to the suspended LUN is waiting, the resume is planned in class 1. -/
  | operationResume (k : Fin 17) (id : Nat)
  /-- PHY_TRAIN (R168). The PHY trains DQ deskew and DQS and RE phases on entry to a DDR rate or a rate change. -/
  | phyTrain (k : Fin 17) (wr : Byte) (rd : Byte) (ph : Byte)
  /-- BAY_IDENTIFY (R186). Each channel of a bay resets, reads ID and parameter pages, loads the geometry and timing and
    trains. -/
  | bayIdentify (b : Fin 4) (ts : List Target) (m : Option Magazine)
  /-- BAY_PRESENCE_LOW (R190). BAYb_PRES_N going low moves an EMPTY bay to INSERTING. -/
  | bayPresenceLow (b : Fin 4)
  /-- BAY_PRESENCE_HIGH (R190). BAYb_PRES_N going high returns an INSERTING bay to EMPTY and starts the removal debounce. -/
  | bayPresenceHigh (b : Fin 4)
  /-- INSERT_DEBOUNCE_EXPIRY (R190). After INS_DEB_G Grains of presence with ARM 1, the bay goes to POWERING and raises
    BAYb_PWREN. -/
  | insertDebounceExpiry (b : Fin 4)
  /-- BAY_PGOOD (R190). BAYb_PGOOD going high starts the settle time of a powering bay. -/
  | bayPgood (b : Fin 4)
  /-- BAY_SETTLE_EXPIRY (R190). When SETTLE_G Grains have passed after power-good, the bay goes to IDENTIFYING. -/
  | baySettleExpiry (b : Fin 4)
  /-- BAY_PG_TIMEOUT (R190). A bay without power-good within PG_TO_G Grains goes to FAULT. -/
  | bayPgTimeout (b : Fin 4)
  /-- BAY_WRITE_EN_WRITE (R190). A write of BAY_CTL.WRITE_EN makes a prepared READY bay WRITABLE, starts formatting of a
    blank bay, or moves a WRITABLE bay to RELEASING. -/
  | bayWriteEnWrite (b : Fin 4) (on : Bool)
  /-- BAY_RELEASE (R194). A write of BAY_CTL.RELEASE = 1 stops new binding to the bay and rebinds its open lanes. -/
  | bayRelease (b : Fin 4)
  /-- BAY_ARM_WRITE (R190). A write of BAY_CTL.ARM permits or holds the bring-up of an inserted magazine. -/
  | bayArmWrite (b : Fin 4) (on : Bool)
  /-- BAY_RELEASING_DONE (R190). A RELEASING bay with no Held data, no operation and closed stripes goes to RELEASED or
    READY. -/
  | bayReleasingDone (b : Fin 4)
  /-- BAY_REMOVAL_DEBOUNCE (R190). After REM_DEB_G Grains without presence, the bay goes to EMPTY. -/
  | bayRemovalDebounce (b : Fin 4)
  /-- BAY_BECOMES_WRITABLE (R191). At the first edge at which a bay becomes writable, items waiting with no writable bay are
    bound. -/
  | bayBecomesWritable (b : Fin 4)
  /-- BAY_RCP_DATA_WRITE (R174). A write of BAY_RCP_DATA stores the word into the recipe memories of the bay's channels and
    FCH16's bank and increments ADDR. -/
  | bayRcpDataWrite (b : Fin 4) (r : Requester) (v : Word)
  /-- SEQUENCER_FAIL (R197). A failing sequencer slice has its plan discarded, is isolated at the next edge, and FCH16 takes
    the channel's PHY settings. -/
  | sequencerFail (k : Fin 17)
  /-- SPARE_TAKEOVER (R197). FCH16 plans from the 25th Grain after the finding, first polling every LUN of the channel. -/
  | spareTakeover (k : Fin 17)
  /-- MANUAL_GO (R200). A write of SEQ_CTL.GO plans one manual recipe slot in class 3, or is ignored with MANUAL_STATE. -/
  | manualGo (k : Fin 17) (r : Requester) (v : Word)
  /-- MANUAL_OP_END (R200). A manual operation ends with DONE or FAIL, and on FCH16 returns the PHY to its channel at the
    next edge. -/
  | manualOpEnd (k : Fin 17)
  /-- CODEWORD_READ (R210). A codeword read escalates through learned entry, retry walk, soft decode, parity rebuild and
    unrecoverable delivery. -/
  | codewordRead (c : Fin 16) (met : Option (Nat × Nat))
  /-- PROGRAM_VERIFY (R215). Each element page programmed is read back and decoded, and a failure or metadata mismatch
    counts as a failed program. -/
  | programVerify (b : Fin 4) (st : Nat) (r : Nat) (e : Nat) (cws : List (Option (Nat × Nat × List Byte)))
  /-- ROW_CLOSE_EXPIRY (R219). A row not full ROW_CLOSE_G Grains after its first codeword is closed with PAD codewords. -/
  | rowCloseExpiry (b : Fin 4) (st : Nat) (r : Nat)
  /-- PARITY_PROGRAM (R219). The parity page of a row is programmed after the last data page of the row has been verified. -/
  | parityProgram (b : Fin 4) (st : Nat) (r : Nat)
  /-- ENTRY_SETTLE (R220). At the edge after its codewords, record codeword and parity are verified, an entry is Settled and
    its report reaches the ledger. -/
  | entrySettle (lsn : Nat)
  /-- BALE_GATHER (R221). The background copies a complete bale into the open bale stripe, and the mapping entry names it at
    the edge after verification. -/
  | baleGather (b : Fin 4) (lane : Nat) (bale : Nat)
  /-- STRIPE_RECLAIM (R222). A stripe whose live share is low is rewritten, gathered and carried forward, and its block sets
    are erased. -/
  | stripeReclaim (b : Fin 4) (st : Nat)
  /-- STALE_RECORD_WRITE (R222). After a release record has Settled, the background writes the stale record, and the lane
    becomes FREE when it Settles. -/
  | staleRecordWrite (lane : Nat)
  /-- DIE_LOST (R225). A die is declared lost, its work stops, DIE_LOST is recorded and its open row is closed. -/
  | dieLost (b : Fin 4) (x : Fin 64)
  /-- FSTR_DIE_FAIL_GO (R225). A write of FSTR_DIE_FAIL.GO declares the named die lost. -/
  | fstrDieFailGo (b : Fin 4) (v : Word)
  /-- DIE_REBUILD (R227). The rebuild starts in the Grain after a die loss and rebuilds the lost element stripe by stripe
    into spare block sets. -/
  | dieRebuild (b : Fin 4)
  /-- REBUILD_STRIPE_DONE (R227). stripe_table is changed at the edge after a rebuilt block set has been verified. -/
  | rebuildStripeDone (b : Fin 4)
  /-- REBUILD_COMPLETE (R227). When the rebuild ends, REBUILT is set and the fault is no longer outstanding. -/
  | rebuildComplete (b : Fin 4)
  /-- BAY_FORMAT (R229). Formatting of a blank bay marks factory-bad blocks, places commit areas, sets aside spares and
    writes the bay map. -/
  | bayFormat (b : Fin 4) (bad : List (Nat × Nat))
  /-- COMMIT_AREA_PREPARE (R224). Commit area block sets are erased in SLC mode and the preparation is recorded in the bay
    map. -/
  | commitAreaPrepare (b : Fin 4) (a : Fin 2) (ok : Bool)
  /-- WEAR_LEVEL (R231). When the erase-count spread exceeds WL_SPREAD, the background reclaims the coldest stripe. -/
  | wearLevel (b : Fin 4)
  /-- SCRUB_READ (R232). Each Settled page is read at least once every SCRUB_H hours, and a weak codeword causes its stripe
    to be reclaimed. -/
  | scrubRead (b : Fin 4) (st : Nat) (r : Nat) (e : Nat) (cw : Nat)
  /-- CACHE_REQUEST (R240). A request to Peck hits, waits for the fill, or misses and stalls until the outstanding fill is
    installed. -/
  | cacheRequest (st : Fin 32) (a : Nat) (write : Bool)
  /-- CACHE_FILL (R240). A demand miss fill returns from the line store or LPDDR5 and is installed in a victim way. -/
  | cacheFill (line : Nat) (e : Option Bool)
  /-- LINE_STORE_WRITEBACK (R247). Dirty lines in the line store are written to LPDDR5 in address order within each bank. -/
  | lineStoreWriteback
  /-- MC_PRELOAD_GO (R246). A write of MC_PRE_CTL.GO starts a preload of lines into the chosen ways, or is ignored with
    PRE_WAYS. -/
  | mcPreloadGo (r : Requester) (v : Word)
  /-- MC_PRELOAD_DONE (R246). When every line is loaded or counted as missed, DONE is set. -/
  | mcPreloadDone
  /-- MC_DISABLE (R249). A write of MC_CTL.ENABLE = 0 starts a drain of the dirty lines. -/
  | mcDisable (v : Word)
  /-- MC_DRAIN_END (R249). When the last dirty line has been accepted, ENABLE reads 0 and DRAINING clears. -/
  | mcDrainEnd
  /-- MC_LOCK_WRITE (R244). A write of MC_LOCK changes locked and STORE ways, and is ignored during a preload or drain, or
    when it would clear a ledger STORE way. -/
  | mcLockWrite (v : Word)
  /-- MAP_EXTENT_WRITE (R253). The mapping unit writes an entry's extents before settlement, and holds the report while the
    pool is empty. -/
  | mapExtentWrite (lsn : Nat)
  /-- MAP_CHECKPOINT (R254). After MAP_CKPT.DELTAS deltas, the background writes a map checkpoint. -/
  | mapCheckpoint (b : Fin 4)
  /-- DDR_TRAIN (R257). The controller runs ZQ, command bus, WCK2CK, read and write training, and retries at a lower rate on
    a small eye. -/
  | ddrTrain (eyes : List (List Nat))
  /-- ADC_ROTATION_STEP (R268). The fifth slice takes an active slice's phase and the freed slice is calibrated and handed
    back. -/
  | adcRotationStep (k : Fin 5) (offset : Int) (gain : Int) (skew : Int)
  /-- ADC_SLICE_FAIL (R270). A slice that fails two calibrations or BIST is replaced by the fifth slice and FTH_SLICE is
    recorded. -/
  | adcSliceFail (k : Fin 5) (sl : Fin 5) (bist : Bool)
  /-- DEFECT_BEGIN (R274). A defect begins when the envelope stays below the threshold for DEF_MIN_CB channel bits, and
    adaptation is held. -/
  | defectBegin (k : Fin 5) (env : Nat) (mean : Nat) (bits : Nat)
  /-- DEFECT_END (R274). A defect ends when the envelope stays at or above the threshold for DEF_MIN_CB channel bits. -/
  | defectEnd (k : Fin 5) (env : Nat) (mean : Nat) (bits : Nat)
  /-- SYNC_LOCK (R277). The sync detector enters lock after LOCK_N syncs at consecutive expected places. -/
  | syncLock (k : Fin 5) (expected : Bool) (gap : Nat)
  /-- SYNC_ACCEPT (R278). A sync within ±2 channel bits of its expected place sets the frame boundary. -/
  | syncAccept (k : Fin 5) (off : Int) (idOk : Bool) (place : Option Nat)
  /-- SYNC_INSERT (R279). A missing sync is inserted by the flywheel, and after LOSE_N insertions lock is lost. -/
  | syncInsert (k : Fin 5)
  /-- SYNC_SLIP (R280). A sync at offset 3 to SLIP_MAX is held as a candidate and re-phases the frame on confirmation. -/
  | syncSlip (k : Fin 5) (off : Int)
  /-- CLUSTER_FIRST_PASS (R286). After a cluster has passed, BIS, hints, LDC and EDC (or LDPC and CRC) are decoded within
    100 Grains. -/
  | clusterFirstPass (k : Fin 5) (o : ClusterObs)
  /-- ITER_RETAIN (R290). A first-pass failure retains the cluster in the free slot, or gets RETAIN_BUSY. -/
  | iterRetain (k : Fin 5)
  /-- OUTER_ITERATION (R292). The iteration engine runs BCJR, demodulation and decoders with a priori feedback over the
    retained cluster. -/
  | outerIteration (uncorr : Bool) (destFault : Bool)
  /-- ITER_BUDGET_EXPIRY (R293). Iteration ends with BUDGET when ITER_BUDGET_G Grains have passed since retention. -/
  | iterBudgetExpiry
  /-- WOBBLE_LOCK (R295). Wobble lock is set after 8 consecutive ADIP unit syncs, and cleared after 8 misses. -/
  | wobbleLock (k : Fin 5) (hit : Bool) (adip : Option Nat) (khz : BitVec 16) (since : BitVec 16)
  /-- FTH_JOB_GO (R298). A write of FTH_JOB_CTL.GO starts a read job, or is ignored with JOB_STATE. -/
  | fthJobGo (k : Fin 5) (r : Requester) (v : Word)
  /-- FTH_JOB_ABORT (R298). A write of FTH_JOB_CTL.ABORT, or of RUN = 0, ends the active job as ABORT. -/
  | fthJobAbort (k : Fin 5) (stop : Bool)
  /-- FTH_SYNC_TIMEOUT (R298). With no sync lock within SYNC_TO_G Grains, the job ends NO_SYNC. -/
  | fthSyncTimeout (k : Fin 5)
  /-- FTH_START_TIMEOUT (R298). With no start within ADDR_TO_G Grains of GO, the job ends NOT_FOUND. -/
  | fthStartTimeout (k : Fin 5)
  /-- CLUSTER_RECORD_POST (R300). A cluster's record is posted to the result ring after its data writes are complete, in
    cluster order. -/
  | clusterRecordPost (k : Fin 5)
  /-- FTH_RES_CONS_WRITE (R300). A write of FTH_RES_CONS consumes result entries, or is ignored with CONS_RANGE. -/
  | fthResConsWrite (k : Fin 5) (r : Requester) (v : BitVec 16)
  /-- FTH_RES_CFG_WRITE (R308). A write of FTH_RES_CFG sets the ring size and zeroes the ring counts. -/
  | fthResCfgWrite (k : Fin 5) (v : Word)
  /-- FTH_MAP_WRITE (R308). A write of FTH_MAP.PORT maps a channel to a port, or is ignored with MAP_BUSY. -/
  | fthMapWrite (k : Fin 5) (r : Requester) (v : Word)
  /-- READ_CHANNEL_FAIL (R304). A failing read channel is replaced by FTH4, which takes the port, settings and job and
    relocks within 50 Grains. -/
  | readChannelFail (k : Fin 5)
  /-- ENC_GO (R310). A write of ENC_CTL.GO starts an encode request of COUNT clusters, or is ignored with ALIGN. -/
  | encGo (v : Word)
  /-- ENC_CLUSTER_DONE (R310). Each cluster is encoded into its codeword image within 25 Grains, or the request ends with
    SRC_FAULT or DST_FAULT. -/
  | encClusterDone (err : Fin 3)
  /-- BURN_JOB_GO (R327). A write of WP_JOB_CTL.GO starts a burn job, or is ignored with JOB_STATE. -/
  | burnJobGo (p : Fin 4) (r : Requester) (v : Word)
  /-- BURN_JOB_ABORT (R326). A write of WP_JOB_CTL.ABORT drives the lines low, interrupts the cluster and ends the job
    ABORT. -/
  | burnJobAbort (p : Fin 4) (frame : Option Nat)
  /-- RECORDING_START (R315). At the resume point the modulator starts a continuous recording placed by ADIP. -/
  | recordingStart (p : Fin 4) (x : Place)
  /-- CLUSTER_BURNED (R315). A cluster counts as burned once its last data frame has been written, and its BURN record is
    posted. -/
  | clusterBurned (p : Fin 4)
  /-- LEVEL_SPI_SEND (R320). A level code is sent to the laser driver as one SPI frame at the edge after it changes. -/
  | levelSpiSend (p : Fin 4) (i : Fin 5) (on : Option Light)
  /-- POWER_CLAMP_LIMIT (R321). A level clamped for LIMIT_G consecutive Grains raises the POWER cause and writes WP_POWER. -/
  | powerClampLimit (p : Fin 4)
  /-- FAST_INHIBIT (R323). A shock, tracking or focus fast comparator drives the pulse lines low within 0.5 µs and
    interrupts the cluster. -/
  | fastInhibit (p : Fin 4) (src : FastSource) (frame : Option Nat)
  /-- GRAIN_INHIBIT (R323). A Grain-path cause drives the pulse lines low one Grain after its capture. -/
  | grainInhibit (p : Fin 4) (frame : Option Nat)
  /-- IMMEDIATE_INHIBIT (R323). Missing image data or an image read bus error drives the pulse lines low within 2 channel
    bits. -/
  | immediateInhibit (p : Fin 4) (bus : Bool) (frame : Option Nat)
  /-- BURN_REARM (R325). A job rearms after RESUME_G cause-free Grains with wobble lock. -/
  | burnRearm (p : Fin 4)
  /-- POSITION_TIMEOUT (R325). A job that does not reach its resume point within POS_TO_G Grains ends POSITION_TO. -/
  | positionTimeout (p : Fin 4)
  /-- VERIFY_COMPARE (R328). The compare unit checks each delivered cluster against its source and margins and posts a
    VERIFY record. -/
  | verifyCompare (p : Fin 4)
  /-- AR_OPEN (R330). AR_CMD OPEN moves a REQUESTED ticket of a sealed lane to OPEN and fills its lengths. -/
  | arOpen (i : Fin 4096)
  /-- AR_COMMIT (R332). AR_CMD COMMIT on a VERIFIED ticket hands a charged archive record to the ledger. -/
  | arCommit (i : Fin 4096)
  /-- AR_CANCEL (R330). AR_CMD CANCEL returns an OPEN, VERIFIED or FAILED ticket to FREE. -/
  | arCancel (i : Fin 4096)
  /-- ARCHIVE_RECORD_SETTLE (R332). At the edge after the archive delta is Settled, the lane becomes ARCHIVED and the ticket
    DONE. -/
  | archiveRecordSettle (lane : Nat)
  /-- ELL_SLOT_SEL_WRITE (R351). A write of ELL_SLOT_SEL loads the shadow from the named slot's values. -/
  | ellSlotSelWrite (e : Fin 2) (v : Word)
  /-- SLOT_COMMIT (R351). A write of SLOT_COMMIT.GO copies the shadow into the slot at the next edge, clearing the states
    with CLR_STATE. -/
  | slotCommit (e : Fin 2) (v : Word)
  /-- OPS_LOOP_WRITE (R349). A write of OPS_LOOP opens or closes the TILT, LASER, SPINDLE or SLED loops at the next edge. -/
  | opsLoopWrite (p : Fin 4) (v : Word)
  /-- ELL_FF_DATA_WRITE (R364). A write of ELL_FF_DATA sets a feed-forward entry, or is ignored with FF_BUSY. -/
  | ellFfDataWrite (e : Fin 2) (r : Requester) (v : Word)
  /-- FOLLOWING_ERROR (R355). A slot whose input stays outside its window for FE_TIMER_G Grains raises FOLLOW and takes its
    SAFE action. -/
  | followingError (e : Fin 2) (i : Fin 64)
  /-- FOCUS_LOSS (R358). Row 7 below SUM_LOSS for FL_G Grains declares a focus loss and takes FL_ACTION. -/
  | focusLoss (p : Fin 4)
  /-- DRIVER_FAULT (R359). An overcurrent or VDRV undervoltage switches a bridge off and puts the port in SAFE. -/
  | driverFault (p : Fin 4)
  /-- OPS_STOP (R367). Command STOP puts the port in IDLE at the next edge and clears SAFE and a gone driver fault. -/
  | opsStop (p : Fin 4) (arg : BitVec 8)
  /-- FOCUS_ON (R368). Command FOCUS_ON starts a focus search sweep. -/
  | focusOn (p : Fin 4) (arg : BitVec 8)
  /-- TRACK_ON (R367). Command TRACK_ON closes the tracking loop and reports TRACKING after TOK_G Grains in the window. -/
  | trackOn (p : Fin 4) (arg : BitVec 8)
  /-- TRACK_OFF (R367). Command TRACK_OFF returns to FOCUSED with the tracking drive at 0. -/
  | trackOff (p : Fin 4) (arg : BitVec 8)
  /-- JUMP (R370). Command JUMP kicks and brakes the tracking actuator over a counted number of tracks. -/
  | jump (p : Fin 4) (arg : BitVec 8)
  /-- LAYER (R369). Command LAYER moves the focus one layer at a time to the target layer. -/
  | layer (p : Fin 4) (arg : BitVec 8)
  /-- LENS_HOLD (R367). Command LENS_HOLD opens tracking and closes the lens loop. -/
  | lensHold (p : Fin 4) (arg : BitVec 8)
  /-- S_CURVE_CROSSING (R368). A zero crossing of fast row 0 with row 7 at least SUM_ON counts an S-curve and may close the
    focus loop. -/
  | sCurveCrossing (p : Fin 4)
  /-- SEARCH_SWEEP_END (R368). A sweep reaching FS_END without closing runs back once, then ends SEARCH_FAIL. -/
  | searchSweepEnd (p : Fin 4)
  /-- FOCUS_SETTLED (R368). After FOK_G consecutive Grains in the window the state becomes FOCUSED. -/
  | focusSettled (p : Fin 4)
  /-- TRACK_CROSSING_COUNT (R370). A counted zero crossing of fast row 1 switches a jump from kick to brake and closes it. -/
  | trackCrossingCount (p : Fin 4)
  /-- TRACKING_SETTLED (R370). After TOK_G consecutive Grains in the window the state becomes TRACKING. -/
  | trackingSettled (p : Fin 4)
  /-- JUMP_TIMEOUT (R370). A jump not closed within JUMP_TO_G Grains ends JUMP_FAIL in FOCUSED. -/
  | jumpTimeout (p : Fin 4)
  /-- LAYER_JUMP_TIMEOUT (R369). A layer jump not closed within LJ_TO_G Grains ends LAYER_FAIL and takes FL_ACTION. -/
  | layerJumpTimeout (p : Fin 4)
  /-- LAYER_KICK_END (R369). After LJ_KICK_G Grains the layer kick ends and the focus drive coasts. -/
  | layerKickEnd (p : Fin 4)
  /-- LAYER_BRAKE_END (R369). A layer brake ends at LJ_BRAKE_G Grains or at the first S-curve. -/
  | layerBrakeEnd (p : Fin 4)
  /-- SERVO_LANE_FAIL (R373). A failing servo lane is replaced by the spare from the next edge and ELL_LANE is recorded. -/
  | servoLaneFail (e : Fin 2) (lane : Fin 8)
  /-- CMT_COAST (R401). Command COAST releases the bridges and sets the channel OFF. -/
  | cmtCoast (c : Fin 6)
  /-- CMT_START (R387). Command START runs align, ramp and observer handover, or Hall commutation. -/
  | cmtStart (c : Fin 6)
  /-- CMT_BRAKE (R401). Command BRAKE brakes at full strength by short circuit or regeneration until the motor is stopped. -/
  | cmtBrake (c : Fin 6)
  /-- CMT_CLEAR (R401). Command CLEAR returns a FAULT channel to OFF when the cause is absent. -/
  | cmtClear (c : Fin 6)
  /-- ALIGN_END (R387). After ALIGN_G Grains the channel begins the open-loop ramp. -/
  | alignEnd (c : Fin 6)
  /-- RAMP_END (R387). A ramp that ends without handover releases the bridges and retries, or enters FAULT START_FAIL. -/
  | rampEnd (c : Fin 6)
  /-- OBSERVER_HANDOVER (R387). Six consecutive valid crossings hand commutation to the observer and enter RUN. -/
  | observerHandover (c : Fin 6)
  /-- BEMF_CROSSING (R388). A valid back-EMF crossing updates the period estimate and plans the next commutation. -/
  | bemfCrossing (c : Fin 6) (at_ : Fin 400) (rising : Bool) (clear : Bool)
  /-- COMMUTATION (R388). At its planned instant the sector advances, softened over the soft window. -/
  | commutation (c : Fin 6)
  /-- CROSSING_WINDOW_MISS (R390). A window that ends without a valid crossing commutates as a flywheel and counts a missed
    sector. -/
  | crossingWindowMiss (c : Fin 6)
  /-- ROTOR_LOST (R390). After MISS_MAX missed sectors the gates are released and the channel enters CATCH. -/
  | rotorLost (c : Fin 6)
  /-- CATCH_SUCCESS (R391). Six consistent forward crossings at enough speed set the sector and re-enter RUN with matched
    duty. -/
  | catchSuccess (c : Fin 6) (forward : Bool) (period : Nat) (sector : Fin 6)
  /-- CATCH_FAIL (R391). Reverse rotation, low speed or CATCH_G Grains without success fails the catch and starts braking. -/
  | catchFail (c : Fin 6) (obs : Option (Bool × Nat))
  /-- BRAKE_STOPPED (R392). A braking channel below STOP_RPM is stopped and goes OFF or restarts. -/
  | brakeStopped (c : Fin 6)
  /-- BRAKE_SPEED_WINDOW (R392). The brake is released for 2 Grains in every 64 so that the speed can be measured. -/
  | brakeSpeedWindow (c : Fin 6) (rpm : BitVec 16)
  /-- BRAKE_TIMEOUT (R392). A brake that has not stopped the motor within BRAKE_MAX_S Stones ends in FAULT LOCKED. -/
  | brakeTimeout (c : Fin 6)
  /-- LOCKED_ROTOR (R393). No commutation event for LOCK_G Grains at positive duty releases the bridges and enters FAULT
    LOCKED. -/
  | lockedRotor (c : Fin 6)
  /-- HALL_EDGE (R394). A Hall edge sets the sector two edges later, or raises a Hall fault on an invalid code or step. -/
  | hallEdge (c : Fin 6) (code : BitVec 3) (at_ : Fin 400)
  /-- CURRENT_LIMIT (R386). A shunt current above ILIM_MA turns the high side off for the rest of the PWM period. -/
  | currentLimit (c : Fin 6) (at_ : Fin 400) (ma : BitVec 16)
  /-- CHOPPER_ON (R397). BRK_GATE rises within 2 µs of a VMOT sample at or above CHOP_ON_MV. -/
  | chopperOn (mv : BitVec 16)
  /-- CHOPPER_OFF (R397). BRK_GATE falls within 2 µs of a VMOT sample at or below CHOP_OFF_MV. -/
  | chopperOff (mv : BitVec 16)
  /-- CHOPPER_FAULT (R398). Low chopper current while on, or current while off, inhibits regeneration and writes CMT_CHOP. -/
  | chopperFault (ma : BitVec 16) (us : BitVec 16)
  /-- VMOT_LIMIT (R399). VMOT at or above LIMIT_MV for OV_G Grains releases every bridge and enters FAULT OV. -/
  | vmotLimit
  /-- VMOT_ABSOLUTE (R399). A VMOT sample at or above ABS_MV makes the power die release every bridge within 2 µs. -/
  | vmotAbsolute (mv : BitVec 16)
  /-- GATE_FAULT (R400). A VDS, overcurrent, bootstrap, gate supply or thermal event releases the channel's gates and enters
    FAULT. -/
  | gateFault (c : Fin 6) (cause : Fin 5)
  /-- CHN_ENABLE (R427). Command ENABLE energises the sled at IHOLD or raises AXn_EN. -/
  | chnEnable (n : Fin 12)
  /-- CHN_DISABLE (R427). Command DISABLE de-energises the axis and clears REF for sleds. -/
  | chnDisable (n : Fin 12)
  /-- MOVE_ABS (R427). Command MOVE_ABS starts or retargets a move to CHN_TARGET. -/
  | moveAbs (n : Fin 12)
  /-- MOVE_REL (R427). Command MOVE_REL starts or retargets a move to pos + CHN_TARGET. -/
  | moveRel (n : Fin 12)
  /-- CHN_STOP (R427). Command STOP decelerates the axis at DEC_USE. -/
  | chnStop (n : Fin 12)
  /-- HALT (R427). Command HALT commits velocity 0 at the next edge. -/
  | halt (n : Fin 12)
  /-- HOME (R426). Command HOME moves the axis at HOME_V towards the home switch. -/
  | home (n : Fin 12)
  /-- SET_POS (R427). Command SET_POS sets pos to CHN_TARGET and sets REF. -/
  | setPos (n : Fin 12)
  /-- GEAR_ON (R423). Command GEAR_ON makes a general axis follow its master encoder. -/
  | gearOn (n : Fin 12)
  /-- CHN_CLEAR (R427). Command CLEAR returns a FAULT axis to IDLE if the cause is gone. -/
  | chnClear (n : Fin 12)
  /-- MOVE_TARGET_REACHED (R413). The step that reaches the target is captured and the move ends IDLE with RESULT OK. -/
  | moveTargetReached (n : Fin 12)
  /-- SLED_STALL (R418). LOAD at or above 240 at IMAX for STALL_G Grains stops the sled in FAULT STALL. -/
  | sledStall (n : Fin 4)
  /-- SLED_MOVE_REQUEST (R419). A servo sled request starts a relative move of an IDLE sled axis, and is dropped otherwise. -/
  | sledMoveRequest (k : Fin 4)
  /-- ENCODER_ILLEGAL (R421). A quadrature transition with A and B changing together sets CENC_ERR and writes CHN_ENC. -/
  | encoderIllegal (e : Fin 8)
  /-- ENCODER_INDEX (R421). With INDEX_CLR set, the first index pulse after an illegal transition zeroes the count and
    clears the bit. -/
  | encoderIndex (e : Fin 8) (n : BitVec 16)
  /-- DEVIATION_STALL (R422). A deviation outside DEV_WIN for DEV_G Grains stops the general axis in FAULT STALL. -/
  | deviationStall (n : Fin 12)
  /-- GEAR_ARM (R424). A write of CHN_STEP_CFG.ARM arms a ratio change at GEAR_POS. -/
  | gearArm (n : Fin 12) (v : Word)
  /-- GEAR_SWITCH (R424). When the master count crosses GEAR_POS, the counts are split between the two ratios and NEXT
    becomes RATIO. -/
  | gearSwitch (n : Fin 12)
  /-- SOFT_LIMIT_REACHED (R425). A geared axis that reaches a soft limit or the position range enters FAULT LIMIT. -/
  | softLimitReached (n : Fin 12)
  /-- HOME_INPUT (R426). The first active home sample latches the position and the axis stops and references. -/
  | homeInput (n : Fin 12) (clk : Fin 500)
  /-- HOME_TIMEOUT (R426). A home input not seen within HOME_TO_S Stones stops the axis in FAULT HOME. -/
  | homeTimeout (n : Fin 12)
  /-- CENC_POS_WRITE (R431). A write of CENC_POSn sets the count at the next edge unless a geared axis uses the encoder. -/
  | cencPosWrite (e : Fin 8) (v : Word)
  /-- UD_START (R435). A write of UD_CTL.START requests a run or arms the channel after the checks of R434. -/
  | udStart (c : Fin 32) (r : Requester)
  /-- UD_STOP (R435). A write of UD_CTL.STOP disarms the channel and drops any pending request. -/
  | udStop (c : Fin 32)
  /-- UD_TIMER_FIRE (R436). A Grain timer fires at edges where its period and phase match, and requests runs of its
    channels. -/
  | udTimerFire (t : Fin 16)
  /-- UD_RUN_BEGIN (R438). At an edge at which the engine is free, the earliest pending run begins. -/
  | udRunBegin
  /-- UD_RUN_COMPLETE (R438). The end of a run's last write is captured, DONE and the count are set and chained requests are
    raised. -/
  | udRunComplete
  /-- UD_BUS_ERROR (R441). A bus error ends the run at its element and writes UD_BUS. -/
  | udBusError (write : Bool)
  /-- PWR_GO (R448). A write of PWR_CTL.GO starts a power-state entry by staging PREPARE for step 1. -/
  | pwrGo (r : Requester) (v : Word)
  /-- PWR_ANSWER (R448). A page's answer in PG_PWR_RESP is captured, and all AGREEs gate the step and prepare the next. -/
  | pwrAnswer (who : Nat) (busy : Bool)
  /-- PWR_COMMIT (R448). At the edge carrying COMMIT every domain enters its condition and DCLK stops. -/
  | pwrCommit
  /-- PWR_NO_ANSWER (R449). A page that has not answered by the 64th Grain aborts the entry with NO_ANSWER. -/
  | pwrNoAnswer
  /-- PWR_DELAY_LIMIT (R449). A page that has answered DELAY for more than DELAY_MAX_G Grains aborts the entry. -/
  | pwrDelayLimit
  /-- PWR_RETRY (R450). After RETRY_S Stones an aborted entry is started again from step 1. -/
  | pwrRetry
  /-- ROLLBACK_STEP (R447). After its rollback delay, each stopped step of an aborted entry is re-woken in turn. -/
  | rollbackStep
  /-- WAKE (R454). An enabled wake source restarts DCLK, bridges GTIME and starts the wake steps. -/
  | wake (sources : BitVec 10) (t : Nat)
  /-- WAKE_STEP (R447). After its wake delay, the next step's domains are brought up. -/
  | wakeStep
  /-- WAKE_COMPLETE (R455). The last wake step ends in RUN or IDLE and sets WOKEN. -/
  | wakeComplete
  /-- WAKE_TIMER_EXPIRY (R454). When PWR_WAKE_TMR AON ticks have passed since COMMIT, the TIMER wake source fires. -/
  | wakeTimerExpiry (t : Nat)
  /-- SLEEP_SUPPLY_LOSS (R453). A supply loss in SLEEP or DEEP wakes only the ledger and flash domains and writes a commit
    without Held items. -/
  | sleepSupplyLoss (t : Nat)
  /-- OFF_ENTRY (R456). An entry with TARGET OFF writes the ledger state as an orderly stop and enters OFF. -/
  | offEntry (mv : BitVec 16) (failed : BitVec 4)
  /-- OFF_EXIT (R456). WAKE_N leaves OFF through a power-on reset with GTIME unbridged and PWR_UNBRIDGED recorded. -/
  | offExit
  /-- SENTINEL_PERIOD (R460). Every 32 AON ticks Scruple samples its signals, updates its filters and evaluates its 32
    rules. -/
  | sentinelPeriod (x : BitVec 16) (y : BitVec 16) (z : BitVec 16) (ign : Bool) (vmot : BitVec 16) (vhold : BitVec 16) (tl : BitVec 16) (tp : BitVec 16) (cycles : Option Nat)
  /-- SCR_RULE_WRITE (R460). A write of SCR_RULE_A or SCR_RULE_B re-arms the selected rule. -/
  | scrRuleWrite (b : Bool) (v : Word)
  /-- SCR_FILT_WRITE (R459). A write of SCR_FILTn resets the filter state to 0. -/
  | scrFiltWrite (f : Fin 8) (v : Word)
  /-- SCR_LANE_DATA_WRITE (R465). A write of SCR_LANE_DATA sets a lane table entry and clears its stamp ring. -/
  | scrLaneDataWrite (v : Word)
  /-- MINUTE_STAMP (R462). At each edge where GTIME mod 15,000,000 is 0, the ledger writes a stamp for each valid lane table
    entry. -/
  | minuteStamp
  /-- MARK_RESOLVE (R462). A mark slot is resolved at the first running Grain by finding each lane's length at the marked
    minute. -/
  | markResolve (q : Fin 16)
  /-- SCR_MARK_ACK_WRITE (R462). A write of 1 to a bit of SCR_MARK_ACK frees that mark slot. -/
  | scrMarkAckWrite (v : Word)
  /-- SCR_OUT_CLEAR (R461). A write of 1 to a bit of SCR_OUT lowers SCR_OUT0 or SCR_OUT1. -/
  | scrOutClear (v : Word)
  /-- PWR_BRIDGE_LO_READ (R464). A read of PWR_BRIDGE_LO latches the high half for the requester. -/
  | pwrBridgeLoRead (r : Requester)
  /-- PWR_AON_T_LO_READ (R464). A read of PWR_AON_T_LO latches PWR_AON_T_HI for the requester. -/
  | pwrAonTLoRead (r : Requester)
  /-- MEM_READ_CORR (R471). A read with a correctable error delivers the corrected value and counts it. -/
  | memReadCorr (a : Fin 11) (w : Nat) (b : Nat)
  /-- MEM_READ_UNCORR (R471). A read with an uncorrectable error returns a bus error, writes MEM_UNCORR and puts the array
    in recovery. -/
  | memReadUncorr (a : Fin 11) (w : Nat) (u : MemUser) (endBad : Bool) (lsn : Nat)
  /-- MEM_NARROW_WRITE (R467). A narrow write to a word-coded array ends in a bus error and records NARROW. -/
  | memNarrowWrite (a : Fin 11) (page : Nat) (r : Requester) (addr : BitVec 56)
  /-- AON_PARITY_ERROR (R470). A parity error in the always-on SRAM returns a bus error and treats the affected item as
    absent. -/
  | aonParityError (item : AonItem) (addr : BitVec 16) (u : MemUser)
  /-- SCRUB_STEP (R472). The scrubber reads SCRUB_WPG words of each array per Grain and writes corrected words back. -/
  | scrubStep (a : Fin 11) (found : List (Nat × Nat)) (bad : List Nat)
  /-- SOFT_REPAIR (R477). A spare row or column is taken and dual-written, and the copy is started. -/
  | softRepair (a : Fin 11) (w : Nat) (b : Nat) (rowErr : Nat) (colErr : Nat)
  /-- REPAIR_COPY_DONE (R477). At the edge after the copy ends, reads come from the spare and MEM_SOFT_REPAIR is recorded. -/
  | repairCopyDone (a : Fin 11) (unit : Nat)
  /-- MEMORY_MARCH (R478). At power-on every macro is march-tested, repaired and filled with zero words. -/
  | memoryMarch (fails : List (Fin 11 × Nat × Nat × Bool))
  /-- MEM_TEST_DATA_LO_READ (R475). A read of MEM_TEST_DATA_LO loads the raw data and check bits of the test word. -/
  | memTestDataLoRead (r : Requester) (data : BitVec 64) (chk : BitVec 40)
  /-- MEM_TEST_CHK_WRITE (R475). A write of MEM_TEST_CHK stores the test data and check bits exactly as written. -/
  | memTestChkWrite (v : Word)
  /-- MEM_TEST_EN_WRITE (R475). A write that sets TEST_EN takes effect only for allowed arrays in a maintenance window, and
    otherwise records TEST_DENIED. -/
  | memTestEnWrite (r : Requester) (v : Word)
  /-- LBIST_TEST_START (R480). The scheduler starts a slice test when its condition holds, within the concurrency and
    stagger limits. -/
  | lbistTestStart
  /-- LBIST_TEST_RESULT (R481). A test's signature is compared, repeated on a mismatch, and the slice is found failing or
    transient. -/
  | lbistTestResult (i : Fin 156) (ok : Bool) (again : Bool)
  /-- SLICE_FAILING (R482). A failing slice is remapped to its spare or disabled, BIST_FAIL is recorded and the remap is
    pending. -/
  | sliceFailing (i : Fin 156)
  /-- MAINT_OPEN (R484). A write of FUSE_CTL.MAINT = 1 opens the maintenance window when its conditions hold. -/
  | maintOpen (r : Requester) (tLogic : Int) (tPower : Int)
  /-- MAINT_CLOSE (R484). A write of FUSE_CTL.MAINT = 0 closes the maintenance window. -/
  | maintClose
  /-- FUSE_BURN (R485). A write of FUSE_CTL.BURN burns the pending repairs one entry at a time. -/
  | fuseBurn
  /-- FUSE_BURN_INTERRUPT (R485). A power-fail assertion stops the burn within 1 µs and leaves the entry invalid. -/
  | fuseBurnInterrupt (done : Nat)
  /-- FAILED_BIT_CLEAR (R484). A write of 0 to FTH_ADC.FAILED or ELL_STAT.LANE_FAILED undoes a pending remap in a
    maintenance window. -/
  | failedBitClear (m : FailedMask)
  /-- CAL_STEP (R492). A calibration step measures a path element and commits its new value at the edge after it ends. -/
  | calStep (path : Fin 7) (e : Nat) (v : Option CalValue)
  /-- CAL_STEP_ABANDON (R497). A step whose condition ends within it is abandoned at that edge. -/
  | calStepAbandon (path : Fin 7) (e : Nat)
  /-- REVIEW (R500). At a Stone edge that is a multiple of REVIEW_S, every measure is copied into AGE_VAL and the sums are
    cleared. -/
  | review
  /-- BASELINE (R500). A write of MP_CTL.BASELINE copies every fresh AGE_VAL into AGE_REF at the next edge. -/
  | baseline
  /-- PLAN_SUBMIT (R503). A write of MP_CTL.SUBMIT reads and checks the plan, and refuses it as a whole on any failure. -/
  | planSubmit (r : Requester) (v : Word) (bad : Option (Fin 256))
  /-- PLAN_APPLY (R504). A checked plan is applied at the next Stone edge in kind order. -/
  | planApply
  /-- HELD_ITEM_APPLY (R505). A held-back plan item takes effect at the first edge at which its condition ends. -/
  | heldItemApply
  /-- PCIE_LINK_UP (R581). The link reaches DL_Active after training that begins at PERST_N release and the end of fuse
    load. -/
  | pcieLinkUp (speed : BitVec 4) (width : BitVec 4)
  /-- PERST_RELEASE (R581). PCIE_PERST_N rising starts link training, or wakes the device in SLEEP or DEEP. -/
  | perstRelease (t : Nat)
  /-- COMPLETION_ERROR (R518). A completion time-out, poisoned, UR or CA completion to an endpoint request is counted and
    ends an APPEND fetch with an error. -/
  | completionError (k : CplError) (lsn : Option Nat) (good : Nat)
  /-- WAKE_HOST (R519). A write of PCIE_CTL.WAKE_HOST drives PCIE_WAKE_N low until the link reaches DL_Active. -/
  | wakeHost
  /-- FAULT_VECTOR (R516). MSI-X vector 64 is sent at the edge after a fault record, at most once per Stone. -/
  | faultVector
  /-- BAR2_WRITE (R551). A host write through BAR2 changes nothing and records HOST_WRITE. -/
  | bar2Write (o : BitVec 16) (v : Word)
  /-- BAR_UNALIGNED_ACCESS (R516). A BAR0 or BAR2 access that is not one aligned dword completes as Unsupported Request. -/
  | barUnalignedAccess
  /-- ETH_FRAME_RECEIVE (R520). A received frame is checked, filtered, timestamped and written into the next receive
    descriptor, or dropped. -/
  | ethFrameReceive (frame : List Byte) (good : Bool) (back : Nat) (cycle : BitVec 12) (fails : Bool) (t : Nat)
  /-- ETH_FRAME_TRANSMIT (R521). A filled transmit descriptor is sent, and its length, status and timestamp are written
    back. -/
  | ethFrameTransmit (back : Nat) (cycle : BitVec 12) (fails : Bool)
  /-- ETH_RING_CFG_WRITE (R537). A write of ETH_RING_CFG sets the ring sizes and zeroes the four counts. -/
  | ethRingCfgWrite (v : Word)
  /-- CAN_FRAME_RECEIVE (R525). A received frame passing a filter is written into the receive ring, or counted lost. -/
  | canFrameReceive (n : Fin 2) (fr : CanFrame) (back : Nat) (cycle : BitVec 12) (tec : Byte) (rec : Byte)
  /-- CAN_FRAME_TRANSMIT (R525). A requested transmit buffer is sent in identifier order and marked done. -/
  | canFrameTransmit (n : Fin 2) (tec : Byte) (rec : Byte)
  /-- CAN_BUS_OFF (R526). Entry into bus-off sets BUS_OFF and writes CAN_BUS_OFF. -/
  | canBusOff (n : Fin 2)
  /-- CAN_BUS_OFF_REJOIN (R526). After 128 occurrences of 11 recessive bits, or a write of RUN in manual mode, the
    controller rejoins the bus. -/
  | canBusOffRejoin (n : Fin 2) (run : Bool)
  /-- ACC_READ (R527). The sensor SPI controller reads X, Y and Z from the accelerometer at its periodic rate. -/
  | accRead (x : BitVec 16) (y : BitVec 16) (z : BitVec 16) (int : Bool)
  /-- ACC_RAW_TRANSFER (R527). A write of ACC_XFER_CTL.GO places a raw transfer between two periodic reads. -/
  | accRawTransfer (v : Word) (rx : Word)
  /-- PMBUS_REQUEST (R531). A VCORE request writes VOUT_COMMAND, waits, reads back and retries, or sets FAULT. -/
  | pmbusRequest (got : List (Option Nat))
  /-- PMBUS_ALERT (R531). PMB_ALERT_N low makes the controller read STATUS_WORD and send CLEAR_FAULTS. -/
  | pmbusAlert (status : BitVec 16)
  /-- PMBUS_VOUT_MODE_READ (R530). At start-up the controller reads VOUT_MODE and faults on a mode other than linear. -/
  | pmbusVoutModeRead (mode : Byte)
  /-- IGNITION_CHANGE (R532). A debounced change of IGN_SNS updates GPIO_IGN and sets IGN in RUN and IDLE. -/
  | ignitionChange (on : Bool)
  /-- EVT_IN_EDGE (R534). A rising edge on GPIO1 latches GTIME and the DCLK cycle into GPIO_EVT. -/
  | evtInEdge (cycle : BitVec 12)
  /-- GPIO_EVT_CYC_READ (R534). A read of GPIO_EVT_CYC clears EVT_LOST. -/
  | gpioEvtCycRead
  /-- PPS_SECOND (R534). At each whole second of wall time GPIO0 goes high for 100 ms while WALL_VALID is 1. -/
  | ppsSecond
  /-- PG_SOFT_RESET (R542). A write of PG_CTL.SOFT_RESET resets the block at the next edge, or is denied on groups 0x00 to
    0x05. -/
  | pgSoftReset (page : Word) (r : Requester) (freeze : Bool) (enable : Bool)
  /-- PG_CTL_DENIED_WRITE (R542). A write of FREEZE or ENABLE 0 to a protected page is denied and counted per field. -/
  | pgCtlDeniedWrite (page : Word) (r : Requester) (v : Word)
  /-- PG_IRQ_CLR_WRITE (R544). A write of 1 to PG_IRQ_CLR clears the raw bit at the next edge. -/
  | pgIrqClrWrite (page : Word) (v : Word)
  /-- PG_ERR_INFO_CLEAR (R545). A write of 1 to PG_ERR_INFO.VALID clears the error capture. -/
  | pgErrInfoClear (page : Word)
  /-- IRQ_SW_SET (R553). A write to IRQ_SW_SET sets software interrupt lines. -/
  | irqSwSet (hi : Bool) (v : Word)
  /-- IRQ_SW_CLR (R553). A write to IRQ_SW_CLR clears software interrupt lines. -/
  | irqSwClr (hi : Bool) (v : Word)
  /-- FAULT_RECORD_COMMIT (R556). Staged fault records are committed to the journal, at most 16 per edge, and the rest wait
    in a queue of 64 or are dropped. -/
  | faultRecordCommit
  /-- POWER_ON_RESET (R562). A supply, PLL or SYS_PGOOD condition asserts a power-on reset, and start-up begins when it
    clears. -/
  | powerOnReset (clock : Bool)
  /-- START_UP (R563). Start-up runs crystal and PLL, fuse load, die-link calibration, memory march, boot ROM and device
    firmware in order. -/
  | startUp (locks : BitVec 5)
  /-- FUSE_LOAD (R564). The fuse words are loaded with SECDED, repairs are applied and the sealing key is checked. -/
  | fuseLoad (w : FuseWords)
  /-- DIE_LINK_CALIBRATE (R48). Start-up calibration aligns the Grain strobe on the power die to the logic-die edge within
    ±8 ns. -/
  | dieLinkCalibrate
  /-- BOOT_ROM (R566). The boot ROM authenticates the stage images of slots A and B and runs the one with the higher
    rollback index. -/
  | bootRom (a : Option FwImage) (b : Option FwImage)
  /-- AUTH (R566). The ROM's AUTH service applies R565 to a later image named by device firmware. -/
  | auth (i : FwImage)
  /-- FM_ROLLBACK_INC (R580). A write of FM_ROLLBACK.INC burns the next rollback counter fuse in a maintenance window. -/
  | fmRollbackInc (r : Requester)
  /-- WARM_RESET (R569). A warm reset takes effect at the next edge, keeps the retained state and resumes the cores at step
    5. -/
  | warmReset
  /-- RST_CTL_WARM (R579). A write of RST_CTL.WARM with key 0xA5 requests a warm reset. -/
  | rstCtlWarm (key : Byte)
  /-- RST_CTL_APP (R579). A write of RST_CTL.APP with key 0xA5 resets the application cores. -/
  | rstCtlApp (key : Byte)
  /-- RST_N_LOW (R568). RST_N held low for at least 1 µs causes a warm reset. -/
  | rstNLow (ns : Nat)
  /-- LOCKSTEP_MISMATCH (R568). A compare mismatch in a lockstep real-time pair causes a warm reset. -/
  | lockstepMismatch (_pair : Fin 2)
  /-- DEBUG_RESET_REQUEST (R568). A debug-port request causes a warm reset. -/
  | debugResetRequest
  /-- TIMING_LOCK (R271). FTH_TR.LOCKED is set when the rms phase error of the timing loop has stayed below 0.1 channel bit
    over 4,096 channel bits, and cleared when it no longer holds. -/
  | timingLock (k : Fin 5) (on : Bool) (kbps : Nat)
  /-- PME_TURN_OFF (R515). A PME_Turn_Off message from the host is answered with PME_TO_Ack and the link enters L2/L3 Ready,
    setting PCIE_STAT.L2_READY. -/
  | pmeTurnOff
  /-- ACC_INT_HIGH (R528). With ACC_CFG.INT_SHOCK set, ACC_INT going high drives the shock output high within 0.1 µs and
    raises the SHOCK cause. -/
  | accIntHigh
  /-- PWR_HOLD_RISE (R561). After VAON powers up, PWR_HOLD rises once VMOT_SNS has been at or above 6,000 mV for 20 µs,
    enabling the main rails. -/
  | pwrHoldRise (mv : Nat) (us : Nat)
  /-- SGMII_LINK_CHANGE (R520). The SGMII link comes up or goes down, and ETH_STAT.LINK and SPEED follow the auto-
    negotiation word. -/
  | sgmiiLinkChange (up : Bool) (speed : Fin 3)
  /-- LAYER_COAST_END (R369). During a layer jump, once row 7 has fallen below SUM_ON and risen above it again, coasting
    ends and the brake is applied. -/
  | layerCoastEnd (p : Fin 4)
  /-- START_RETRY (R387). After a ramp ends without handover, the pause of ALIGN_G Grains expires and the start is tried
    again from align. -/
  | startRetry (c : Fin 6)
  /-- MANIFEST_VERIFY_DONE (R331). The seal engine finishes verifying the manifest signature of an archive ticket, within 60
    Grains, and the ticket becomes VERIFIED or FAILED. -/
  | manifestVerifyDone (i : Fin 4096)
  /-- FUSE_BURN_END (R485). The fuse burn of the pending list ends, BURN clears, FUSE_STAT.RESULT is set and BURN_DONE or
    BURN_FAIL is raised. -/
  | fuseBurnEnd
deriving DecidableEq, Repr

end Sys2Proof
end

