-- ==== Sys2Proof/Machine/RegNames.lean ====
section
/-! DEFINITION. The names of every register and every register field of the spec's register tables
(spec/01 to spec/19, each under the rule that its group below cites), as places `Fld` within a page:
the register's offset, the field's lowest bit and its width. `NAME` is a whole register, `NAME_FIELD` one
field, `NAME_IRQ_BIT` one block bit of PG_IRQ_RAW. A numbered array of registers is named once, by its
register 0 (`Fld.idx` and `Fld.step` reach the others). -/

namespace Sys2Proof.Machine

open Sys2Proof

/-! ### Page type TB (R46) -/

abbrev TB_GTIME_LO : Fld := ⟨0x040, 0, 32⟩
abbrev TB_GTIME_LO_GTIME_LO : Fld := ⟨0x040, 0, 32⟩
abbrev TB_GTIME_HI : Fld := ⟨0x044, 0, 32⟩
abbrev TB_GTIME_HI_GTIME_HI : Fld := ⟨0x044, 0, 32⟩
abbrev TB_CTL : Fld := ⟨0x048, 0, 32⟩
abbrev TB_CTL_WALL_VALID : Fld := ⟨0x048, 0, 1⟩
abbrev TB_STAT : Fld := ⟨0x04C, 0, 32⟩
abbrev TB_STAT_BRIDGED : Fld := ⟨0x04C, 2, 1⟩
abbrev TB_STAT_OVR : Fld := ⟨0x04C, 1, 1⟩
abbrev TB_STAT_EPOCH_LOST : Fld := ⟨0x04C, 0, 1⟩
abbrev TB_WALL_OFS_LO : Fld := ⟨0x050, 0, 32⟩
abbrev TB_WALL_OFS_LO_OFS : Fld := ⟨0x050, 0, 32⟩
abbrev TB_WALL_OFS_HI : Fld := ⟨0x054, 0, 32⟩
abbrev TB_WALL_OFS_HI_OFS : Fld := ⟨0x054, 0, 32⟩
abbrev TB_WALL_RATE : Fld := ⟨0x058, 0, 32⟩
abbrev TB_WALL_RATE_RATE_PPB : Fld := ⟨0x058, 0, 32⟩
abbrev TB_OVR_COUNT : Fld := ⟨0x05C, 0, 32⟩
abbrev TB_OVR_COUNT_COUNT : Fld := ⟨0x05C, 0, 32⟩
abbrev TB_OVR_SRC : Fld := ⟨0x060, 0, 32⟩
abbrev TB_OVR_SRC_PAGE_ID : Fld := ⟨0x060, 0, 32⟩

/-! ### Page type TW (R63, R106) -/

abbrev TW_DOORBELL : Fld := ⟨0x060, 0, 32⟩
abbrev TW_DOORBELL_GO : Fld := ⟨0x060, 0, 1⟩
abbrev TW_RESULT : Fld := ⟨0x064, 0, 32⟩
abbrev TW_RESULT_TAG : Fld := ⟨0x064, 16, 16⟩
abbrev TW_RESULT_REASON : Fld := ⟨0x064, 8, 8⟩
abbrev TW_RESULT_STATE : Fld := ⟨0x064, 0, 2⟩
abbrev TW_LSN_LO : Fld := ⟨0x068, 0, 32⟩
abbrev TW_LSN_LO_LSN : Fld := ⟨0x068, 0, 32⟩
abbrev TW_LSN_HI : Fld := ⟨0x06C, 0, 32⟩
abbrev TW_LSN_HI_LSN : Fld := ⟨0x06C, 0, 32⟩
abbrev TW_CQ_BASE_LO : Fld := ⟨0x070, 0, 32⟩
abbrev TW_CQ_BASE_LO_BASE : Fld := ⟨0x070, 5, 27⟩
abbrev TW_CQ_BASE_HI : Fld := ⟨0x074, 0, 32⟩
abbrev TW_CQ_BASE_HI_BASE_HI : Fld := ⟨0x074, 0, 32⟩
abbrev TW_CQ_CFG : Fld := ⟨0x078, 0, 32⟩
abbrev TW_CQ_CFG_ARMED : Fld := ⟨0x078, 31, 1⟩
abbrev TW_CQ_CFG_QUOTA : Fld := ⟨0x078, 16, 13⟩
abbrev TW_CQ_CFG_SIZE_LOG2 : Fld := ⟨0x078, 0, 4⟩
abbrev TW_CQ_PROD : Fld := ⟨0x07C, 0, 32⟩
abbrev TW_CQ_PROD_PHASE : Fld := ⟨0x07C, 16, 1⟩
abbrev TW_CQ_PROD_PROD : Fld := ⟨0x07C, 0, 16⟩
abbrev TW_CQ_CONS : Fld := ⟨0x080, 0, 32⟩
abbrev TW_CQ_CONS_CONS : Fld := ⟨0x080, 0, 16⟩
abbrev TW_CQ_INC : Fld := ⟨0x084, 0, 32⟩
abbrev TW_CQ_INC_INC : Fld := ⟨0x084, 0, 16⟩
abbrev TW_OUTST : Fld := ⟨0x088, 0, 32⟩
abbrev TW_OUTST_UNPOSTED : Fld := ⟨0x088, 16, 13⟩
abbrev TW_OUTST_OUTSTANDING : Fld := ⟨0x088, 0, 13⟩
abbrev TW_REFUSALS : Fld := ⟨0x08C, 0, 32⟩
abbrev TW_REFUSALS_COUNT : Fld := ⟨0x08C, 0, 32⟩
abbrev TW_IRQ_REFUSED : Fld := ⟨0x010, 1, 1⟩
abbrev TW_IRQ_POSTED : Fld := ⟨0x010, 0, 1⟩
abbrev TW_D : Fld := ⟨0x040, 0, 32⟩
abbrev TW_D_WORD : Fld := ⟨0x040, 0, 32⟩

/-! ### Page type LDG (R107) -/

abbrev LDG_CTL : Fld := ⟨0x040, 0, 32⟩
abbrev LDG_CTL_ACTIVATE : Fld := ⟨0x040, 1, 1⟩
abbrev LDG_CTL_ACCEPT_EN : Fld := ⟨0x040, 0, 1⟩
abbrev LDG_STAT : Fld := ⟨0x044, 0, 32⟩
abbrev LDG_STAT_RESTORED : Fld := ⟨0x044, 3, 1⟩
abbrev LDG_STAT_QUIESCED : Fld := ⟨0x044, 2, 1⟩
abbrev LDG_STAT_DRAINING : Fld := ⟨0x044, 1, 1⟩
abbrev LDG_STAT_ACCEPTING : Fld := ⟨0x044, 0, 1⟩
abbrev LDG_OWNER_LO : Fld := ⟨0x048, 0, 32⟩
abbrev LDG_OWNER_LO_OWNER : Fld := ⟨0x048, 0, 32⟩
abbrev LDG_OWNER_HI : Fld := ⟨0x04C, 0, 32⟩
abbrev LDG_OWNER_HI_OWNER : Fld := ⟨0x04C, 0, 32⟩
abbrev LDG_NEXT_LSN_LO : Fld := ⟨0x050, 0, 32⟩
abbrev LDG_NEXT_LSN_LO_NEXT : Fld := ⟨0x050, 0, 32⟩
abbrev LDG_NEXT_LSN_HI : Fld := ⟨0x054, 0, 32⟩
abbrev LDG_NEXT_LSN_HI_NEXT : Fld := ⟨0x054, 0, 32⟩
abbrev LDG_LSN_LIMIT_LO : Fld := ⟨0x058, 0, 32⟩
abbrev LDG_LSN_LIMIT_LO_LIMIT : Fld := ⟨0x058, 0, 32⟩
abbrev LDG_LSN_LIMIT_HI : Fld := ⟨0x05C, 0, 32⟩
abbrev LDG_LSN_LIMIT_HI_LIMIT : Fld := ⟨0x05C, 0, 32⟩
abbrev LDG_JRNL : Fld := ⟨0x060, 0, 32⟩
abbrev LDG_JRNL_FREE : Fld := ⟨0x060, 16, 13⟩
abbrev LDG_JRNL_USED : Fld := ⟨0x060, 0, 13⟩
abbrev LDG_CTX_OPEN : Fld := ⟨0x064, 0, 32⟩
abbrev LDG_CTX_OPEN_COUNT : Fld := ⟨0x064, 0, 17⟩
abbrev LDG_HOLDS : Fld := ⟨0x068, 0, 32⟩
abbrev LDG_HOLDS_COUNT : Fld := ⟨0x068, 0, 15⟩
abbrev LDG_IRQ_JRNL_HIGH : Fld := ⟨0x010, 2, 1⟩
abbrev LDG_IRQ_HOST_EVENT : Fld := ⟨0x010, 1, 1⟩
abbrev LDG_IRQ_QUIESCED : Fld := ⟨0x010, 0, 1⟩

/-! ### Page type RSV (R135) -/

abbrev RSV_AVAIL : Fld := ⟨0x040, 0, 32⟩
abbrev RSV_AVAIL_AVAIL : Fld := ⟨0x040, 0, 32⟩
abbrev RSV_PROMISED : Fld := ⟨0x044, 0, 32⟩
abbrev RSV_PROMISED_PROMISED : Fld := ⟨0x044, 0, 32⟩
abbrev RSV_HELD : Fld := ⟨0x048, 0, 32⟩
abbrev RSV_HELD_HELD_REC : Fld := ⟨0x048, 16, 13⟩
abbrev RSV_HELD_HELD_CW : Fld := ⟨0x048, 0, 16⟩
abbrev RSV_E_FIXED : Fld := ⟨0x04C, 0, 32⟩
abbrev RSV_E_FIXED_E_FIXED : Fld := ⟨0x04C, 0, 32⟩
abbrev RSV_E_UNIT : Fld := ⟨0x050, 0, 32⟩
abbrev RSV_E_UNIT_E_REC : Fld := ⟨0x050, 16, 16⟩
abbrev RSV_E_UNIT_E_CW : Fld := ⟨0x050, 0, 16⟩
abbrev RSV_MIN : Fld := ⟨0x054, 0, 32⟩
abbrev RSV_MIN_MIN_CW : Fld := ⟨0x054, 0, 16⟩
abbrev RSV_FACTORS : Fld := ⟨0x058, 0, 32⟩
abbrev RSV_FACTORS_DERATE_PM : Fld := ⟨0x058, 16, 10⟩
abbrev RSV_FACTORS_ETA_PM : Fld := ⟨0x058, 0, 10⟩
abbrev RSV_FLOOR : Fld := ⟨0x05C, 0, 32⟩
abbrev RSV_FLOOR_I_FLOOR_MA : Fld := ⟨0x05C, 16, 16⟩
abbrev RSV_FLOOR_V_FLOOR_MV : Fld := ⟨0x05C, 0, 16⟩
abbrev RSV_STAT : Fld := ⟨0x060, 0, 32⟩
abbrev RSV_STAT_PF : Fld := ⟨0x060, 3, 1⟩
abbrev RSV_STAT_DEFICIT : Fld := ⟨0x060, 2, 1⟩
abbrev RSV_STAT_BELOW_MIN : Fld := ⟨0x060, 1, 1⟩
abbrev RSV_STAT_VALID : Fld := ⟨0x060, 0, 1⟩
abbrev RSV_REFUSALS : Fld := ⟨0x064, 0, 32⟩
abbrev RSV_REFUSALS_COUNT : Fld := ⟨0x064, 0, 32⟩
abbrev RSV_COMMIT_SEQ_LO : Fld := ⟨0x068, 0, 32⟩
abbrev RSV_COMMIT_SEQ_LO_SEQ : Fld := ⟨0x068, 0, 32⟩
abbrev RSV_COMMIT_SEQ_HI : Fld := ⟨0x06C, 0, 32⟩
abbrev RSV_COMMIT_SEQ_HI_SEQ : Fld := ⟨0x06C, 0, 32⟩
abbrev RSV_COMMIT_INFO : Fld := ⟨0x070, 0, 32⟩
abbrev RSV_COMMIT_INFO_VEND_MV : Fld := ⟨0x070, 16, 16⟩
abbrev RSV_COMMIT_INFO_GRAINS : Fld := ⟨0x070, 0, 16⟩
abbrev RSV_IRQ_COMMIT_REPORT : Fld := ⟨0x010, 3, 1⟩
abbrev RSV_IRQ_INCOMPLETE : Fld := ⟨0x010, 2, 1⟩
abbrev RSV_IRQ_DEFICIT : Fld := ⟨0x010, 1, 1⟩
abbrev RSV_IRQ_BELOW_MIN : Fld := ⟨0x010, 0, 1⟩

/-! ### Page type BANK (R136) -/

abbrev BANK_CTL : Fld := ⟨0x040, 0, 32⟩
abbrev BANK_CTL_CHG_EN : Fld := ⟨0x040, 2, 1⟩
abbrev BANK_CTL_MEAS_AUTO : Fld := ⟨0x040, 1, 1⟩
abbrev BANK_CTL_MEAS_GO : Fld := ⟨0x040, 0, 1⟩
abbrev BANK_MEAS_CFG : Fld := ⟨0x044, 0, 32⟩
abbrev BANK_MEAS_CFG_PERIOD_STONES : Fld := ⟨0x044, 16, 16⟩
abbrev BANK_MEAS_CFG_PULSE_GRAINS : Fld := ⟨0x044, 8, 8⟩
abbrev BANK_MEAS_CFG_I_PULSE : Fld := ⟨0x044, 0, 7⟩
abbrev BANK_C : Fld := ⟨0x048, 0, 32⟩
abbrev BANK_C_C_NF : Fld := ⟨0x048, 0, 32⟩
abbrev BANK_ESR : Fld := ⟨0x04C, 0, 32⟩
abbrev BANK_ESR_MEAS_FAILS : Fld := ⟨0x04C, 16, 2⟩
abbrev BANK_ESR_ESR_MOHM : Fld := ⟨0x04C, 0, 16⟩
abbrev BANK_V : Fld := ⟨0x050, 0, 32⟩
abbrev BANK_V_VHOLD_MIN_MV : Fld := ⟨0x050, 16, 16⟩
abbrev BANK_V_VHOLD_MV : Fld := ⟨0x050, 0, 16⟩
abbrev BANK_VMOT : Fld := ⟨0x054, 0, 32⟩
abbrev BANK_VMOT_VMOT_MV : Fld := ⟨0x054, 0, 16⟩
abbrev BANK_PF_CFG : Fld := ⟨0x058, 0, 32⟩
abbrev BANK_PF_CFG_VMOT_FAIL_MV : Fld := ⟨0x058, 16, 16⟩
abbrev BANK_PF_CFG_DEBOUNCE_US : Fld := ⟨0x058, 8, 8⟩
abbrev BANK_PLAUS : Fld := ⟨0x05C, 0, 32⟩
abbrev BANK_PLAUS_C_MIN_UF : Fld := ⟨0x05C, 16, 16⟩
abbrev BANK_PLAUS_ESR_MAX_MOHM : Fld := ⟨0x05C, 0, 16⟩
abbrev BANK_STAT : Fld := ⟨0x060, 0, 32⟩
abbrev BANK_STAT_PF_LINE : Fld := ⟨0x060, 3, 1⟩
abbrev BANK_STAT_MEAS_BUSY : Fld := ⟨0x060, 2, 1⟩
abbrev BANK_STAT_MEAS_VALID : Fld := ⟨0x060, 1, 1⟩
abbrev BANK_STAT_STABLE : Fld := ⟨0x060, 0, 1⟩
abbrev BANK_IRQ_MEAS_FAIL : Fld := ⟨0x010, 1, 1⟩
abbrev BANK_IRQ_MEAS_DONE : Fld := ⟨0x010, 0, 1⟩

/-! ### Page type FK (R163) -/

abbrev FK_CFG : Fld := ⟨0x040, 0, 32⟩
abbrev FK_CFG_BASE_4K : Fld := ⟨0x040, 16, 9⟩
abbrev FK_CFG_CUT_4K : Fld := ⟨0x040, 10, 6⟩
abbrev FK_CFG_SIZE_4K : Fld := ⟨0x040, 0, 10⟩
abbrev FK_CTL : Fld := ⟨0x044, 0, 32⟩
abbrev FK_CTL_DIAG_EN : Fld := ⟨0x044, 1, 1⟩
abbrev FK_CTL_FLUSH : Fld := ⟨0x044, 0, 1⟩
abbrev FK_STAT : Fld := ⟨0x048, 0, 32⟩
abbrev FK_STAT_HELD : Fld := ⟨0x048, 5, 1⟩
abbrev FK_STAT_DIAG : Fld := ⟨0x048, 4, 1⟩
abbrev FK_STAT_UNDERRUN : Fld := ⟨0x048, 3, 1⟩
abbrev FK_STAT_EMPTY : Fld := ⟨0x048, 2, 1⟩
abbrev FK_STAT_OVERRUN : Fld := ⟨0x048, 1, 1⟩
abbrev FK_STAT_FULL : Fld := ⟨0x048, 0, 1⟩
abbrev FK_LEVEL : Fld := ⟨0x04C, 0, 32⟩
abbrev FK_LEVEL_PROMISED_W : Fld := ⟨0x04C, 16, 16⟩
abbrev FK_LEVEL_STORED_W : Fld := ⟨0x04C, 0, 16⟩
abbrev FK_FREE : Fld := ⟨0x050, 0, 32⟩
abbrev FK_FREE_FREE_W : Fld := ⟨0x050, 0, 16⟩
abbrev FK_ECC : Fld := ⟨0x054, 0, 32⟩
abbrev FK_ECC_UNCORR : Fld := ⟨0x054, 16, 16⟩
abbrev FK_ECC_CORR : Fld := ⟨0x054, 0, 16⟩
abbrev FK_DIAG_LO : Fld := ⟨0x058, 0, 32⟩
abbrev FK_DIAG_LO_DATA : Fld := ⟨0x058, 0, 32⟩
abbrev FK_DIAG_HI : Fld := ⟨0x05C, 0, 32⟩
abbrev FK_DIAG_HI_DATA : Fld := ⟨0x05C, 0, 32⟩
abbrev FK_DIAG_END : Fld := ⟨0x060, 0, 32⟩
abbrev FK_DIAG_END_VALID : Fld := ⟨0x060, 0, 6⟩
abbrev FK_IRQ_UNCORR : Fld := ⟨0x010, 2, 1⟩
abbrev FK_IRQ_UNDERRUN : Fld := ⟨0x010, 1, 1⟩
abbrev FK_IRQ_OVERRUN : Fld := ⟨0x010, 0, 1⟩

/-! ### Page type CV (R163) -/

abbrev CV_CTX_SEL : Fld := ⟨0x040, 0, 32⟩
abbrev CV_CTX_SEL_CTX : Fld := ⟨0x040, 0, 16⟩
abbrev CV_RUN_LO : Fld := ⟨0x044, 0, 32⟩
abbrev CV_RUN_LO_RUN : Fld := ⟨0x044, 0, 32⟩
abbrev CV_RUN_HI : Fld := ⟨0x048, 0, 32⟩
abbrev CV_RUN_HI_RUN : Fld := ⟨0x048, 0, 32⟩
abbrev CV_STAT : Fld := ⟨0x04C, 0, 32⟩
abbrev CV_STAT_ACTIVE : Fld := ⟨0x04C, 0, 8⟩
abbrev CV_RECOV : Fld := ⟨0x050, 0, 32⟩
abbrev CV_RECOV_COUNT : Fld := ⟨0x050, 0, 32⟩

/-! ### Page type CHK (R163) -/

abbrev CHK_SHA_BASE_LO : Fld := ⟨0x040, 0, 32⟩
abbrev CHK_SHA_BASE_LO_BASE : Fld := ⟨0x040, 0, 32⟩
abbrev CHK_SHA_BASE_HI : Fld := ⟨0x044, 0, 32⟩
abbrev CHK_SHA_BASE_HI_BASE : Fld := ⟨0x044, 0, 32⟩
abbrev CHK_TRAIL_BASE_LO : Fld := ⟨0x048, 0, 32⟩
abbrev CHK_TRAIL_BASE_LO_BASE : Fld := ⟨0x048, 0, 32⟩
abbrev CHK_TRAIL_BASE_HI : Fld := ⟨0x04C, 0, 32⟩
abbrev CHK_TRAIL_BASE_HI_BASE : Fld := ⟨0x04C, 0, 32⟩
abbrev CHK_SEAL_STAT : Fld := ⟨0x050, 0, 32⟩
abbrev CHK_SEAL_STAT_QUEUED : Fld := ⟨0x050, 16, 16⟩
abbrev CHK_SEAL_STAT_SIGNING : Fld := ⟨0x050, 2, 1⟩
abbrev CHK_SEAL_STAT_KEY_FAULT : Fld := ⟨0x050, 1, 1⟩
abbrev CHK_SEAL_STAT_KEY_OK : Fld := ⟨0x050, 0, 1⟩
abbrev CHK_SEAL_COUNT : Fld := ⟨0x054, 0, 32⟩
abbrev CHK_SEAL_COUNT_COUNT : Fld := ⟨0x054, 0, 32⟩
abbrev CHK_KEY_ID : Fld := ⟨0x058, 0, 32⟩
abbrev CHK_KEY_ID_KEY_ID : Fld := ⟨0x058, 0, 32⟩
abbrev CHK_PUBKEY : Fld := ⟨0x060, 0, 32⟩
abbrev CHK_PUBKEY_PUBKEY : Fld := ⟨0x060, 0, 32⟩
abbrev CHK_IRQ_KEY_FAULT : Fld := ⟨0x010, 1, 1⟩
abbrev CHK_IRQ_CV_LOST : Fld := ⟨0x010, 0, 1⟩

/-! ### Page type FCH (R201) -/

abbrev FCH_PHY_CFG : Fld := ⟨0x040, 0, 32⟩
abbrev FCH_PHY_CFG_RATE : Fld := ⟨0x040, 16, 4⟩
abbrev FCH_PHY_CFG_MODE : Fld := ⟨0x040, 12, 2⟩
abbrev FCH_PHY_CFG_DRV : Fld := ⟨0x040, 8, 4⟩
abbrev FCH_PHY_CFG_ODT : Fld := ⟨0x040, 4, 4⟩
abbrev FCH_PHY_CFG_RE_DIFF : Fld := ⟨0x040, 3, 1⟩
abbrev FCH_PHY_CFG_DQS_DIFF : Fld := ⟨0x040, 2, 1⟩
abbrev FCH_TIM0 : Fld := ⟨0x044, 0, 32⟩
abbrev FCH_TIM0_TADL_NS : Fld := ⟨0x044, 20, 10⟩
abbrev FCH_TIM0_TWHR_NS : Fld := ⟨0x044, 10, 10⟩
abbrev FCH_TIM0_TCCS_NS : Fld := ⟨0x044, 0, 10⟩
abbrev FCH_TIM1 : Fld := ⟨0x048, 0, 32⟩
abbrev FCH_TIM1_TRHW_NS : Fld := ⟨0x048, 20, 10⟩
abbrev FCH_TIM1_TWB_NS : Fld := ⟨0x048, 10, 10⟩
abbrev FCH_TIM1_TRR_NS : Fld := ⟨0x048, 0, 10⟩
abbrev FCH_TIM2 : Fld := ⟨0x04C, 0, 32⟩
abbrev FCH_TIM2_TCS_NS : Fld := ⟨0x04C, 8, 8⟩
abbrev FCH_TIM2_TPRE_CK : Fld := ⟨0x04C, 0, 8⟩
abbrev FCH_ATO0 : Fld := ⟨0x050, 0, 32⟩
abbrev FCH_ATO0_TBERS_G : Fld := ⟨0x050, 16, 16⟩
abbrev FCH_ATO0_TPROG_G : Fld := ⟨0x050, 0, 16⟩
abbrev FCH_ATO1 : Fld := ⟨0x054, 0, 32⟩
abbrev FCH_ATO1_TSUSP_G : Fld := ⟨0x054, 16, 16⟩
abbrev FCH_ATO1_TR_G : Fld := ⟨0x054, 0, 16⟩
abbrev FCH_TGT : Fld := ⟨0x058, 0, 32⟩
abbrev FCH_TGT_LUN_EN : Fld := ⟨0x058, 16, 16⟩
abbrev FCH_TGT_CE_PRES : Fld := ⟨0x058, 0, 4⟩
abbrev SEQ_CTL : Fld := ⟨0x05C, 0, 32⟩
abbrev SEQ_CTL_SLOT : Fld := ⟨0x05C, 16, 5⟩
abbrev SEQ_CTL_MANUAL : Fld := ⟨0x05C, 1, 1⟩
abbrev SEQ_CTL_GO : Fld := ⟨0x05C, 0, 1⟩
abbrev SEQ_ARG_LO : Fld := ⟨0x060, 0, 32⟩
abbrev SEQ_ARG_LO_VALUE : Fld := ⟨0x060, 0, 32⟩
abbrev SEQ_ARG_HI : Fld := ⟨0x064, 0, 32⟩
abbrev SEQ_ARG_HI_VALUE : Fld := ⟨0x064, 0, 32⟩
abbrev SEQ_BUF_LO : Fld := ⟨0x068, 0, 32⟩
abbrev SEQ_BUF_LO_VALUE : Fld := ⟨0x068, 0, 32⟩
abbrev SEQ_BUF_HI : Fld := ⟨0x06C, 0, 32⟩
abbrev SEQ_BUF_HI_VALUE : Fld := ⟨0x06C, 0, 32⟩
abbrev SEQ_LEN : Fld := ⟨0x070, 0, 32⟩
abbrev SEQ_LEN_BYTES : Fld := ⟨0x070, 0, 16⟩
abbrev SEQ_STAT : Fld := ⟨0x074, 0, 32⟩
abbrev SEQ_STAT_STATUS_BYTE : Fld := ⟨0x074, 24, 8⟩
abbrev SEQ_STAT_ERR : Fld := ⟨0x074, 8, 8⟩
abbrev SEQ_STAT_FAIL : Fld := ⟨0x074, 2, 1⟩
abbrev SEQ_STAT_DONE : Fld := ⟨0x074, 1, 1⟩
abbrev SEQ_STAT_BUSY : Fld := ⟨0x074, 0, 1⟩
abbrev FCH_LUN_STAT : Fld := ⟨0x078, 0, 32⟩
abbrev FCH_LUN_STAT_SUSPENDED : Fld := ⟨0x078, 16, 16⟩
abbrev FCH_LUN_STAT_BUSY : Fld := ⟨0x078, 0, 16⟩
abbrev FCH_SUSP : Fld := ⟨0x07C, 0, 32⟩
abbrev FCH_SUSP_MAX_SUSP : Fld := ⟨0x07C, 8, 8⟩
abbrev FCH_SUSP_SUSP_WAIT_G : Fld := ⟨0x07C, 0, 8⟩
abbrev FCH_TRAIN : Fld := ⟨0x080, 0, 32⟩
abbrev FCH_TRAIN_TRAINED : Fld := ⟨0x080, 31, 1⟩
abbrev FCH_TRAIN_WR_EYE_PCT : Fld := ⟨0x080, 16, 8⟩
abbrev FCH_TRAIN_RD_EYE_PCT : Fld := ⟨0x080, 8, 8⟩
abbrev FCH_TRAIN_DQS_PH : Fld := ⟨0x080, 0, 8⟩
abbrev FCH_STONE : Fld := ⟨0x084, 0, 32⟩
abbrev FCH_STONE_OPS_K : Fld := ⟨0x084, 11, 10⟩
abbrev FCH_STONE_BUSY_US : Fld := ⟨0x084, 0, 11⟩
abbrev FCH_SPARE : Fld := ⟨0x088, 0, 32⟩
abbrev FCH_SPARE_ACTIVE : Fld := ⟨0x088, 31, 1⟩
abbrev FCH_SPARE_REMAPPED : Fld := ⟨0x088, 30, 1⟩
abbrev FCH_SPARE_SERVES : Fld := ⟨0x088, 0, 5⟩
abbrev FCH_IRQ_REMAP : Fld := ⟨0x010, 3, 1⟩
abbrev FCH_IRQ_TIMEOUT : Fld := ⟨0x010, 2, 1⟩
abbrev FCH_IRQ_OP_FAIL : Fld := ⟨0x010, 1, 1⟩
abbrev FCH_IRQ_MANUAL_DONE : Fld := ⟨0x010, 0, 1⟩

/-! ### Page type BAY (R201) -/

abbrev BAY_CTL : Fld := ⟨0x040, 0, 32⟩
abbrev BAY_CTL_RELEASE : Fld := ⟨0x040, 2, 1⟩
abbrev BAY_CTL_WRITE_EN : Fld := ⟨0x040, 1, 1⟩
abbrev BAY_CTL_ARM : Fld := ⟨0x040, 0, 1⟩
abbrev BAY_STAT : Fld := ⟨0x044, 0, 32⟩
abbrev BAY_STAT_IDENT_CODE : Fld := ⟨0x044, 12, 4⟩
abbrev BAY_STAT_FORCED : Fld := ⟨0x044, 11, 1⟩
abbrev BAY_STAT_HELD : Fld := ⟨0x044, 10, 1⟩
abbrev BAY_STAT_LOCK_OUT : Fld := ⟨0x044, 9, 1⟩
abbrev BAY_STAT_PGOOD : Fld := ⟨0x044, 8, 1⟩
abbrev BAY_STAT_PRESENT : Fld := ⟨0x044, 7, 1⟩
abbrev BAY_STAT_STATE : Fld := ⟨0x044, 0, 4⟩
abbrev BAY_PRES_CFG : Fld := ⟨0x048, 0, 32⟩
abbrev BAY_PRES_CFG_INS_DEB_G : Fld := ⟨0x048, 16, 16⟩
abbrev BAY_PRES_CFG_REM_DEB_G : Fld := ⟨0x048, 8, 8⟩
abbrev BAY_PWR_CFG : Fld := ⟨0x04C, 0, 32⟩
abbrev BAY_PWR_CFG_PG_TO_G : Fld := ⟨0x04C, 16, 16⟩
abbrev BAY_PWR_CFG_SETTLE_G : Fld := ⟨0x04C, 0, 16⟩
abbrev BAY_GEOM0 : Fld := ⟨0x050, 0, 32⟩
abbrev BAY_GEOM0_PAGES_PER_BLOCK : Fld := ⟨0x050, 16, 16⟩
abbrev BAY_GEOM0_PLANES_LOG2 : Fld := ⟨0x050, 8, 3⟩
abbrev BAY_GEOM0_PAGE_CW : Fld := ⟨0x050, 4, 4⟩
abbrev BAY_GEOM0_LUNS_PER_CE_M1 : Fld := ⟨0x050, 2, 2⟩
abbrev BAY_GEOM1 : Fld := ⟨0x054, 0, 32⟩
abbrev BAY_GEOM1_BLOCKS_PER_LUN : Fld := ⟨0x054, 16, 16⟩
abbrev BAY_GEOM1_BLOCK_BITS : Fld := ⟨0x054, 11, 5⟩
abbrev BAY_GEOM1_PAGE_BITS : Fld := ⟨0x054, 7, 4⟩
abbrev BAY_GEOM1_ROW_CYCLES : Fld := ⟨0x054, 4, 3⟩
abbrev BAY_GEOM1_COL_CYCLES_M1 : Fld := ⟨0x054, 0, 2⟩
abbrev BAY_IDENT : Fld := ⟨0x058, 0, 32⟩
abbrev BAY_IDENT_MFR_ID : Fld := ⟨0x058, 24, 8⟩
abbrev BAY_IDENT_DEV_ID : Fld := ⟨0x058, 16, 8⟩
abbrev BAY_IDENT_KIND : Fld := ⟨0x058, 8, 8⟩
abbrev BAY_IDENT_COPY : Fld := ⟨0x058, 0, 8⟩
abbrev BAY_RCP_ADDR : Fld := ⟨0x05C, 0, 32⟩
abbrev BAY_RCP_ADDR_ADDR : Fld := ⟨0x05C, 0, 32⟩
abbrev BAY_RCP_DATA : Fld := ⟨0x060, 0, 32⟩
abbrev BAY_RCP_DATA_DATA : Fld := ⟨0x060, 0, 32⟩
abbrev BAY_FREE : Fld := ⟨0x064, 0, 32⟩
abbrev BAY_FREE_STRIPES : Fld := ⟨0x064, 0, 32⟩
abbrev BAY_EVENTS : Fld := ⟨0x068, 0, 32⟩
abbrev BAY_EVENTS_INSERTS : Fld := ⟨0x068, 16, 16⟩
abbrev BAY_EVENTS_FORCED : Fld := ⟨0x068, 0, 16⟩
abbrev BAY_IRQ_FAULT : Fld := ⟨0x010, 3, 1⟩
abbrev BAY_IRQ_FORCED : Fld := ⟨0x010, 2, 1⟩
abbrev BAY_IRQ_RELEASED : Fld := ⟨0x010, 1, 1⟩
abbrev BAY_IRQ_STATE : Fld := ⟨0x010, 0, 1⟩

/-! ### Page type FSCH (R201) -/

abbrev FSCH_CTL : Fld := ⟨0x040, 0, 32⟩
abbrev FSCH_CTL_RUN : Fld := ⟨0x040, 0, 1⟩
abbrev FSCH_STAT : Fld := ⟨0x044, 0, 32⟩
abbrev FSCH_STAT_SPARE_USED : Fld := ⟨0x044, 2, 1⟩
abbrev FSCH_STAT_COMMIT : Fld := ⟨0x044, 1, 1⟩
abbrev FSCH_STAT_URGENT : Fld := ⟨0x044, 0, 1⟩
abbrev FSCH_BUDGET : Fld := ⟨0x048, 0, 32⟩
abbrev FSCH_BUDGET_START_NS : Fld := ⟨0x048, 0, 12⟩
abbrev FSCH_AGE : Fld := ⟨0x04C, 0, 32⟩
abbrev FSCH_AGE_BG_PCT : Fld := ⟨0x04C, 16, 8⟩
abbrev FSCH_AGE_PROG_AGE_G : Fld := ⟨0x04C, 0, 16⟩
abbrev FSCH_IRQ_NO_WRITABLE : Fld := ⟨0x010, 1, 1⟩
abbrev FSCH_IRQ_URGENT_ON : Fld := ⟨0x010, 0, 1⟩

/-! ### Page type FINT (R236) -/

abbrev FINT_CTL : Fld := ⟨0x040, 0, 32⟩
abbrev FINT_CTL_SOFT_ITER : Fld := ⟨0x040, 16, 8⟩
abbrev FINT_CTL_HARD_ITER : Fld := ⟨0x040, 8, 8⟩
abbrev FINT_CTL_RAND_EN : Fld := ⟨0x040, 0, 1⟩
abbrev FINT_VERIFY : Fld := ⟨0x044, 0, 32⟩
abbrev FINT_VERIFY_REFRESH_BITS : Fld := ⟨0x044, 16, 12⟩
abbrev FINT_VERIFY_VERIFY_MAX_BITS : Fld := ⟨0x044, 0, 12⟩
abbrev FINT_RETRY : Fld := ⟨0x048, 0, 32⟩
abbrev FINT_RETRY_SOFT_MASK : Fld := ⟨0x048, 16, 8⟩
abbrev FINT_RETRY_SOFT_DELTA : Fld := ⟨0x048, 8, 8⟩
abbrev FINT_RETRY_WALK_MAX : Fld := ⟨0x048, 0, 4⟩
abbrev FINT_LLR : Fld := ⟨0x04C, 0, 32⟩
abbrev FINT_LLR_MAP : Fld := ⟨0x04C, 0, 32⟩
abbrev FINT_SCRUB : Fld := ⟨0x050, 0, 32⟩
abbrev FINT_SCRUB_SCRUB_H : Fld := ⟨0x050, 0, 16⟩
abbrev FINT_DIE_LIMIT : Fld := ⟨0x054, 0, 32⟩
abbrev FINT_DIE_LIMIT_SOFT_PER_BS : Fld := ⟨0x054, 16, 16⟩
abbrev FINT_DIE_LIMIT_FAIL_OPS : Fld := ⟨0x054, 0, 8⟩
abbrev FINT_DEC_STAT : Fld := ⟨0x058, 0, 32⟩
abbrev FINT_DEC_STAT_FAIL : Fld := ⟨0x058, 24, 8⟩
abbrev FINT_DEC_STAT_PARITY : Fld := ⟨0x058, 16, 8⟩
abbrev FINT_DEC_STAT_SOFT : Fld := ⟨0x058, 8, 8⟩
abbrev FINT_DEC_STAT_RETRY : Fld := ⟨0x058, 0, 8⟩
abbrev FINT_IRQ_MISWRITE : Fld := ⟨0x010, 1, 1⟩
abbrev FINT_IRQ_UNRECOV : Fld := ⟨0x010, 0, 1⟩

/-! ### Page type FSTR (R236) -/

abbrev FSTR_CFG : Fld := ⟨0x040, 0, 32⟩
abbrev FSTR_CFG_REBUILD_PCT : Fld := ⟨0x040, 24, 8⟩
abbrev FSTR_CFG_SPARE_BS : Fld := ⟨0x040, 16, 8⟩
abbrev FSTR_CFG_WIDTH : Fld := ⟨0x040, 0, 5⟩
abbrev FSTR_GEOM : Fld := ⟨0x044, 0, 32⟩
abbrev FSTR_GEOM_K_SETS : Fld := ⟨0x044, 16, 16⟩
abbrev FSTR_GEOM_FREE_DIES : Fld := ⟨0x044, 11, 5⟩
abbrev FSTR_GEOM_GROUPS : Fld := ⟨0x044, 5, 6⟩
abbrev FSTR_GEOM_WIDTH : Fld := ⟨0x044, 0, 5⟩
abbrev FSTR_ROW : Fld := ⟨0x048, 0, 32⟩
abbrev FSTR_ROW_ROW_CLOSE_G : Fld := ⟨0x048, 0, 16⟩
abbrev FSTR_DEAD_LO : Fld := ⟨0x04C, 0, 32⟩
abbrev FSTR_DEAD_LO_DIES : Fld := ⟨0x04C, 0, 32⟩
abbrev FSTR_DEAD_HI : Fld := ⟨0x050, 0, 32⟩
abbrev FSTR_DEAD_HI_DIES : Fld := ⟨0x050, 0, 32⟩
abbrev FSTR_RO_LO : Fld := ⟨0x054, 0, 32⟩
abbrev FSTR_RO_LO_DIES : Fld := ⟨0x054, 0, 32⟩
abbrev FSTR_RO_HI : Fld := ⟨0x058, 0, 32⟩
abbrev FSTR_RO_HI_DIES : Fld := ⟨0x058, 0, 32⟩
abbrev FSTR_DIE_FAIL : Fld := ⟨0x05C, 0, 32⟩
abbrev FSTR_DIE_FAIL_GO : Fld := ⟨0x05C, 31, 1⟩
abbrev FSTR_DIE_FAIL_DIE : Fld := ⟨0x05C, 0, 6⟩
abbrev FSTR_REBUILD : Fld := ⟨0x060, 0, 32⟩
abbrev FSTR_REBUILD_ACTIVE : Fld := ⟨0x060, 31, 1⟩
abbrev FSTR_REBUILD_DIE : Fld := ⟨0x060, 16, 6⟩
abbrev FSTR_REBUILD_LEFT : Fld := ⟨0x060, 0, 16⟩
abbrev FSTR_WEAR : Fld := ⟨0x064, 0, 32⟩
abbrev FSTR_WEAR_PE_MAX : Fld := ⟨0x064, 16, 16⟩
abbrev FSTR_WEAR_PE_MIN : Fld := ⟨0x064, 0, 16⟩
abbrev FSTR_THRESH : Fld := ⟨0x068, 0, 32⟩
abbrev FSTR_THRESH_SPARE_WARN : Fld := ⟨0x068, 16, 8⟩
abbrev FSTR_THRESH_PE_LIMIT : Fld := ⟨0x068, 0, 16⟩
abbrev FSTR_WL : Fld := ⟨0x06C, 0, 32⟩
abbrev FSTR_WL_RECLAIM_PCT : Fld := ⟨0x06C, 24, 8⟩
abbrev FSTR_WL_ERASE_DUE_H : Fld := ⟨0x06C, 12, 12⟩
abbrev FSTR_WL_WL_SPREAD : Fld := ⟨0x06C, 0, 12⟩
abbrev FSTR_RT_SEL : Fld := ⟨0x070, 0, 32⟩
abbrev FSTR_RT_SEL_SEL : Fld := ⟨0x070, 0, 32⟩
abbrev FSTR_RT_LO : Fld := ⟨0x074, 0, 32⟩
abbrev FSTR_RT_LO_LO : Fld := ⟨0x074, 0, 32⟩
abbrev FSTR_RT_HI : Fld := ⟨0x078, 0, 32⟩
abbrev FSTR_RT_HI_HI : Fld := ⟨0x078, 0, 32⟩
abbrev FSTR_STONE : Fld := ⟨0x07C, 0, 32⟩
abbrev FSTR_STONE_RETRY_SUM : Fld := ⟨0x07C, 16, 16⟩
abbrev FSTR_STONE_CORR_K : Fld := ⟨0x07C, 0, 16⟩
abbrev FSTR_STAT : Fld := ⟨0x080, 0, 32⟩
abbrev FSTR_STAT_FULL_RO : Fld := ⟨0x080, 3, 1⟩
abbrev FSTR_STAT_FORMATTING : Fld := ⟨0x080, 2, 1⟩
abbrev FSTR_STAT_BLANK : Fld := ⟨0x080, 1, 1⟩
abbrev FSTR_STAT_MAP_OK : Fld := ⟨0x080, 0, 1⟩
abbrev FSTR_IRQ_FULL_RO : Fld := ⟨0x010, 4, 1⟩
abbrev FSTR_IRQ_SPARE_LOW : Fld := ⟨0x010, 3, 1⟩
abbrev FSTR_IRQ_REBUILT : Fld := ⟨0x010, 2, 1⟩
abbrev FSTR_IRQ_STRIPE_DOUBLE : Fld := ⟨0x010, 1, 1⟩
abbrev FSTR_IRQ_DIE_LOST : Fld := ⟨0x010, 0, 1⟩

/-! ### Page type MC (R260) -/

abbrev MC_CTL : Fld := ⟨0x040, 0, 32⟩
abbrev MC_CTL_PF_EN : Fld := ⟨0x040, 1, 1⟩
abbrev MC_CTL_ENABLE : Fld := ⟨0x040, 0, 1⟩
abbrev MC_STAT : Fld := ⟨0x044, 0, 32⟩
abbrev MC_STAT_DIRTY : Fld := ⟨0x044, 16, 16⟩
abbrev MC_STAT_DRAINING : Fld := ⟨0x044, 0, 1⟩
abbrev MC_LOCK : Fld := ⟨0x048, 0, 32⟩
abbrev MC_LOCK_STORE : Fld := ⟨0x048, 16, 16⟩
abbrev MC_LOCK_LOCK : Fld := ⟨0x048, 0, 16⟩
abbrev MC_PRE_ADDR_LO : Fld := ⟨0x04C, 0, 32⟩
abbrev MC_PRE_ADDR_LO_ADDR : Fld := ⟨0x04C, 0, 32⟩
abbrev MC_PRE_ADDR_HI : Fld := ⟨0x050, 0, 32⟩
abbrev MC_PRE_ADDR_HI_ADDR : Fld := ⟨0x050, 0, 32⟩
abbrev MC_PRE_CTL : Fld := ⟨0x054, 0, 32⟩
abbrev MC_PRE_CTL_GO : Fld := ⟨0x054, 31, 1⟩
abbrev MC_PRE_CTL_BUSY : Fld := ⟨0x054, 30, 1⟩
abbrev MC_PRE_CTL_DONE : Fld := ⟨0x054, 29, 1⟩
abbrev MC_PRE_CTL_MISSED : Fld := ⟨0x054, 16, 13⟩
abbrev MC_PRE_CTL_LINES_M1 : Fld := ⟨0x054, 0, 16⟩
abbrev MC_PF : Fld := ⟨0x058, 0, 32⟩
abbrev MC_PF_DEPTH : Fld := ⟨0x058, 0, 3⟩
abbrev MC_LS : Fld := ⟨0x05C, 0, 32⟩
abbrev MC_LS_USED : Fld := ⟨0x05C, 16, 16⟩
abbrev MC_LS_CLEAN_MIN_PCT : Fld := ⟨0x05C, 0, 7⟩
abbrev MC_STONE : Fld := ⟨0x060, 0, 32⟩
abbrev MC_STONE_MISS_K : Fld := ⟨0x060, 16, 16⟩
abbrev MC_STONE_HIT_K : Fld := ⟨0x060, 0, 16⟩
abbrev MC_PRE_WAYS : Fld := ⟨0x064, 0, 32⟩
abbrev MC_PRE_WAYS_WAYS : Fld := ⟨0x064, 0, 16⟩

/-! ### Page type MAP (R260) -/

abbrev MAP_DESC_BASE_LO : Fld := ⟨0x040, 0, 32⟩
abbrev MAP_DESC_BASE_LO_BASE : Fld := ⟨0x040, 0, 32⟩
abbrev MAP_DESC_BASE_HI : Fld := ⟨0x044, 0, 32⟩
abbrev MAP_DESC_BASE_HI_BASE : Fld := ⟨0x044, 0, 32⟩
abbrev MAP_POOL_BASE_LO : Fld := ⟨0x048, 0, 32⟩
abbrev MAP_POOL_BASE_LO_BASE : Fld := ⟨0x048, 0, 32⟩
abbrev MAP_POOL_BASE_HI : Fld := ⟨0x04C, 0, 32⟩
abbrev MAP_POOL_BASE_HI_BASE : Fld := ⟨0x04C, 0, 32⟩
abbrev MAP_POOL_PAGES : Fld := ⟨0x050, 0, 32⟩
abbrev MAP_POOL_PAGES_PAGES : Fld := ⟨0x050, 0, 32⟩
abbrev MAP_POOL_FREE : Fld := ⟨0x054, 0, 32⟩
abbrev MAP_POOL_FREE_FREE : Fld := ⟨0x054, 0, 32⟩
abbrev MAP_CKPT : Fld := ⟨0x058, 0, 32⟩
abbrev MAP_CKPT_DELTAS : Fld := ⟨0x058, 0, 32⟩
abbrev MAP_IRQ_POOL_EMPTY : Fld := ⟨0x010, 1, 1⟩
abbrev MAP_IRQ_POOL_LOW : Fld := ⟨0x010, 0, 1⟩

/-! ### Page type DDR (R260) -/

abbrev DDR_CFG : Fld := ⟨0x040, 0, 32⟩
abbrev DDR_CFG_ECC_EN : Fld := ⟨0x040, 8, 1⟩
abbrev DDR_CFG_RANKS_M1 : Fld := ⟨0x040, 4, 2⟩
abbrev DDR_CFG_DENSITY : Fld := ⟨0x040, 2, 2⟩
abbrev DDR_CFG_RATE : Fld := ⟨0x040, 0, 2⟩
abbrev DDR_STAT : Fld := ⟨0x044, 0, 32⟩
abbrev DDR_STAT_MR4_RATE : Fld := ⟨0x044, 8, 8⟩
abbrev DDR_STAT_DERATED : Fld := ⟨0x044, 2, 1⟩
abbrev DDR_STAT_SELF_REFRESH : Fld := ⟨0x044, 1, 1⟩
abbrev DDR_STAT_TRAINED : Fld := ⟨0x044, 0, 1⟩
abbrev DDR_ECC : Fld := ⟨0x048, 0, 32⟩
abbrev DDR_ECC_UNCORR : Fld := ⟨0x048, 16, 16⟩
abbrev DDR_ECC_CORR : Fld := ⟨0x048, 0, 16⟩

/-! ### Page type FTH (R308) -/

abbrev FTH_CTL : Fld := ⟨0x040, 0, 32⟩
abbrev FTH_CTL_DEFECT_EN : Fld := ⟨0x040, 11, 1⟩
abbrev FTH_CTL_EQ_ADAPT : Fld := ⟨0x040, 10, 1⟩
abbrev FTH_CTL_ITER_EN : Fld := ⟨0x040, 9, 1⟩
abbrev FTH_CTL_RUN : Fld := ⟨0x040, 8, 1⟩
abbrev FTH_CTL_FORMAT : Fld := ⟨0x040, 0, 2⟩
abbrev FTH_MAP : Fld := ⟨0x044, 0, 32⟩
abbrev FTH_MAP_ACTIVE : Fld := ⟨0x044, 31, 1⟩
abbrev FTH_MAP_REMAPPED : Fld := ⟨0x044, 30, 1⟩
abbrev FTH_MAP_PORT : Fld := ⟨0x044, 0, 3⟩
abbrev FTH_RATE : Fld := ⟨0x048, 0, 32⟩
abbrev FTH_RATE_FROM_WOB : Fld := ⟨0x048, 31, 1⟩
abbrev FTH_RATE_RATE_KBPS : Fld := ⟨0x048, 0, 20⟩
abbrev FTH_AGC : Fld := ⟨0x04C, 0, 32⟩
abbrev FTH_AGC_TARGET : Fld := ⟨0x04C, 24, 8⟩
abbrev FTH_AGC_VGA_CODE : Fld := ⟨0x04C, 8, 8⟩
abbrev FTH_AGC_STEP : Fld := ⟨0x04C, 0, 4⟩
abbrev FTH_CTF : Fld := ⟨0x050, 0, 32⟩
abbrev FTH_CTF_CUTOFF : Fld := ⟨0x050, 8, 8⟩
abbrev FTH_CTF_BOOST : Fld := ⟨0x050, 0, 5⟩
abbrev FTH_TR : Fld := ⟨0x054, 0, 32⟩
abbrev FTH_TR_LOCKED : Fld := ⟨0x054, 16, 1⟩
abbrev FTH_TR_KP_SHIFT : Fld := ⟨0x054, 8, 4⟩
abbrev FTH_TR_KI_SHIFT : Fld := ⟨0x054, 0, 4⟩
abbrev FTH_EQ_CFG : Fld := ⟨0x058, 0, 32⟩
abbrev FTH_EQ_CFG_MU_SHIFT : Fld := ⟨0x058, 0, 5⟩
abbrev FTH_EQ_TAP : Fld := ⟨0x05C, 0, 32⟩
abbrev FTH_EQ_TAP_TAP_HI : Fld := ⟨0x05C, 16, 16⟩
abbrev FTH_EQ_TAP_TAP_LO : Fld := ⟨0x05C, 0, 16⟩
abbrev FTH_DEFECT : Fld := ⟨0x07C, 0, 32⟩
abbrev FTH_DEFECT_DEF_THR_PCT : Fld := ⟨0x07C, 16, 8⟩
abbrev FTH_DEFECT_DEF_MIN_CB : Fld := ⟨0x07C, 4, 12⟩
abbrev FTH_DEFECT_DEF_WEIGHT : Fld := ⟨0x07C, 0, 4⟩
abbrev FTH_SYNC : Fld := ⟨0x080, 0, 32⟩
abbrev FTH_SYNC_SYNC_TO_G : Fld := ⟨0x080, 16, 16⟩
abbrev FTH_SYNC_SLIP_MAX : Fld := ⟨0x080, 8, 8⟩
abbrev FTH_SYNC_LOSE_N : Fld := ⟨0x080, 4, 4⟩
abbrev FTH_SYNC_LOCK_N : Fld := ⟨0x080, 0, 4⟩
abbrev FTH_DEC : Fld := ⟨0x084, 0, 32⟩
abbrev FTH_DEC_ACCEPT_MARGIN : Fld := ⟨0x084, 24, 4⟩
abbrev FTH_DEC_CHASE_L : Fld := ⟨0x084, 16, 4⟩
abbrev FTH_DEC_ERASE_THR : Fld := ⟨0x084, 8, 8⟩
abbrev FTH_DEC_LDPC_ITER : Fld := ⟨0x084, 0, 5⟩
abbrev FTH_ITER : Fld := ⟨0x088, 0, 32⟩
abbrev FTH_ITER_FB_APRI : Fld := ⟨0x088, 16, 8⟩
abbrev FTH_ITER_STALL_ITER : Fld := ⟨0x088, 8, 4⟩
abbrev FTH_ITER_ITER_MAX : Fld := ⟨0x088, 0, 4⟩
abbrev FTH_JOB_ADDR : Fld := ⟨0x08C, 0, 32⟩
abbrev FTH_JOB_ADDR_ADDR : Fld := ⟨0x08C, 0, 32⟩
abbrev FTH_JOB_CNT : Fld := ⟨0x090, 0, 32⟩
abbrev FTH_JOB_CNT_ADDR_TO_G : Fld := ⟨0x090, 16, 16⟩
abbrev FTH_JOB_CNT_CLUSTERS : Fld := ⟨0x090, 0, 16⟩
abbrev FTH_JOB_DST_LO : Fld := ⟨0x094, 0, 32⟩
abbrev FTH_JOB_DST_LO_DST : Fld := ⟨0x094, 0, 32⟩
abbrev FTH_JOB_DST_HI : Fld := ⟨0x098, 0, 32⟩
abbrev FTH_JOB_DST_HI_DST : Fld := ⟨0x098, 0, 32⟩
abbrev FTH_JOB_CTL : Fld := ⟨0x09C, 0, 32⟩
abbrev FTH_JOB_CTL_GO : Fld := ⟨0x09C, 31, 1⟩
abbrev FTH_JOB_CTL_ABORT : Fld := ⟨0x09C, 30, 1⟩
abbrev FTH_JOB_CTL_SEQ : Fld := ⟨0x09C, 16, 8⟩
abbrev FTH_JOB_CTL_KIND : Fld := ⟨0x09C, 0, 2⟩
abbrev FTH_JOB_STAT : Fld := ⟨0x0A0, 0, 32⟩
abbrev FTH_JOB_STAT_DONE_CNT : Fld := ⟨0x0A0, 16, 16⟩
abbrev FTH_JOB_STAT_END : Fld := ⟨0x0A0, 8, 8⟩
abbrev FTH_JOB_STAT_ACTIVE : Fld := ⟨0x0A0, 0, 1⟩
abbrev FTH_RES_BASE_LO : Fld := ⟨0x0A4, 0, 32⟩
abbrev FTH_RES_BASE_LO_BASE : Fld := ⟨0x0A4, 0, 32⟩
abbrev FTH_RES_BASE_HI : Fld := ⟨0x0A8, 0, 32⟩
abbrev FTH_RES_BASE_HI_BASE : Fld := ⟨0x0A8, 0, 32⟩
abbrev FTH_RES_CFG : Fld := ⟨0x0AC, 0, 32⟩
abbrev FTH_RES_CFG_SIZE_LOG2 : Fld := ⟨0x0AC, 0, 4⟩
abbrev FTH_RES_PROD : Fld := ⟨0x0B0, 0, 32⟩
abbrev FTH_RES_PROD_PHASE : Fld := ⟨0x0B0, 16, 1⟩
abbrev FTH_RES_PROD_PROD : Fld := ⟨0x0B0, 0, 16⟩
abbrev FTH_RES_CONS : Fld := ⟨0x0B4, 0, 32⟩
abbrev FTH_RES_CONS_CONS : Fld := ⟨0x0B4, 0, 16⟩
abbrev FTH_WOB : Fld := ⟨0x0B8, 0, 32⟩
abbrev FTH_WOB_LOCKED : Fld := ⟨0x0B8, 31, 1⟩
abbrev FTH_WOB_ADIP : Fld := ⟨0x0B8, 0, 24⟩
abbrev FTH_WOB_STAT : Fld := ⟨0x0BC, 0, 32⟩
abbrev FTH_WOB_STAT_WOB_KHZ : Fld := ⟨0x0BC, 16, 16⟩
abbrev FTH_WOB_STAT_SINCE : Fld := ⟨0x0BC, 0, 16⟩
abbrev FTH_ADC : Fld := ⟨0x0C0, 0, 32⟩
abbrev FTH_ADC_FAILED : Fld := ⟨0x0C0, 16, 5⟩
abbrev FTH_ADC_STANDIN : Fld := ⟨0x0C0, 8, 3⟩
abbrev FTH_ADC_ROTATE : Fld := ⟨0x0C0, 0, 1⟩
abbrev FTH_TILT : Fld := ⟨0x0C4, 0, 32⟩
abbrev FTH_TILT_WEDGES : Fld := ⟨0x0C4, 16, 16⟩
abbrev FTH_TILT_TILT : Fld := ⟨0x0C4, 0, 16⟩
abbrev FTH_STONE0 : Fld := ⟨0x0C8, 0, 32⟩
abbrev FTH_STONE0_CORR_K : Fld := ⟨0x0C8, 16, 16⟩
abbrev FTH_STONE0_BIS_CORR : Fld := ⟨0x0C8, 0, 16⟩
abbrev FTH_STONE1 : Fld := ⟨0x0CC, 0, 32⟩
abbrev FTH_STONE1_SYNC_MISS : Fld := ⟨0x0CC, 24, 8⟩
abbrev FTH_STONE1_FAILS : Fld := ⟨0x0CC, 16, 8⟩
abbrev FTH_STONE1_RETAINED : Fld := ⟨0x0CC, 8, 8⟩
abbrev FTH_STONE1_DEFECTS : Fld := ⟨0x0CC, 0, 8⟩
abbrev FTH_IRQ_BUF_UNCORR : Fld := ⟨0x010, 5, 1⟩
abbrev FTH_IRQ_REMAP : Fld := ⟨0x010, 4, 1⟩
abbrev FTH_IRQ_SLICE_FAIL : Fld := ⟨0x010, 3, 1⟩
abbrev FTH_IRQ_SYNC_LOST : Fld := ⟨0x010, 2, 1⟩
abbrev FTH_IRQ_JOB_END : Fld := ⟨0x010, 1, 1⟩
abbrev FTH_IRQ_POSTED : Fld := ⟨0x010, 0, 1⟩

/-! ### Page type FTHX (R308) -/

abbrev FTHX_ITER_STAT : Fld := ⟨0x040, 0, 32⟩
abbrev FTHX_ITER_STAT_BUSY : Fld := ⟨0x040, 31, 1⟩
abbrev FTHX_ITER_STAT_ITER : Fld := ⟨0x040, 24, 4⟩
abbrev FTHX_ITER_STAT_CHAN : Fld := ⟨0x040, 16, 3⟩
abbrev FTHX_ITER_STAT_FAILING : Fld := ⟨0x040, 0, 16⟩
abbrev FTHX_BUDGET : Fld := ⟨0x044, 0, 32⟩
abbrev FTHX_BUDGET_ITER_BUDGET_G : Fld := ⟨0x044, 0, 16⟩
abbrev FTHX_ECC : Fld := ⟨0x048, 0, 32⟩
abbrev FTHX_ECC_UNCORR : Fld := ⟨0x048, 16, 16⟩
abbrev FTHX_ECC_CORR : Fld := ⟨0x048, 0, 16⟩
abbrev FTHX_STONE : Fld := ⟨0x04C, 0, 32⟩
abbrev FTHX_STONE_OUTER_ITERS : Fld := ⟨0x04C, 16, 16⟩
abbrev FTHX_STONE_ITER_OK : Fld := ⟨0x04C, 8, 8⟩
abbrev FTHX_STONE_ITER_FAIL : Fld := ⟨0x04C, 0, 8⟩
abbrev FTHX_IRQ_ITER_DONE : Fld := ⟨0x010, 0, 1⟩

/-! ### Page type OWP (R334) -/

abbrev WP_CTL : Fld := ⟨0x040, 0, 32⟩
abbrev WP_CTL_SPEED : Fld := ⟨0x040, 8, 4⟩
abbrev WP_CTL_INHIBIT : Fld := ⟨0x040, 5, 1⟩
abbrev WP_CTL_RE_MEDIA : Fld := ⟨0x040, 4, 1⟩
abbrev WP_CTL_FORMAT : Fld := ⟨0x040, 0, 2⟩
abbrev WP_JOB_ADDR : Fld := ⟨0x044, 0, 32⟩
abbrev WP_JOB_ADDR_ADDR : Fld := ⟨0x044, 0, 32⟩
abbrev WP_JOB_CNT : Fld := ⟨0x048, 0, 32⟩
abbrev WP_JOB_CNT_CLUSTERS : Fld := ⟨0x048, 0, 32⟩
abbrev WP_JOB_SRC_LO : Fld := ⟨0x04C, 0, 32⟩
abbrev WP_JOB_SRC_LO_BASE : Fld := ⟨0x04C, 0, 32⟩
abbrev WP_JOB_SRC_HI : Fld := ⟨0x050, 0, 32⟩
abbrev WP_JOB_SRC_HI_BASE : Fld := ⟨0x050, 0, 32⟩
abbrev WP_VFY_SRC_LO : Fld := ⟨0x088, 0, 32⟩
abbrev WP_VFY_SRC_LO_BASE : Fld := ⟨0x088, 0, 32⟩
abbrev WP_VFY_SRC_HI : Fld := ⟨0x08C, 0, 32⟩
abbrev WP_VFY_SRC_HI_BASE : Fld := ⟨0x08C, 0, 32⟩
abbrev WP_JOB_CTL : Fld := ⟨0x054, 0, 32⟩
abbrev WP_JOB_CTL_GO : Fld := ⟨0x054, 31, 1⟩
abbrev WP_JOB_CTL_ABORT : Fld := ⟨0x054, 30, 1⟩
abbrev WP_JOB_CTL_SEQ : Fld := ⟨0x054, 16, 8⟩
abbrev WP_JOB_STAT : Fld := ⟨0x058, 0, 32⟩
abbrev WP_JOB_STAT_DONE_CNT : Fld := ⟨0x058, 16, 16⟩
abbrev WP_JOB_STAT_END : Fld := ⟨0x058, 8, 8⟩
abbrev WP_JOB_STAT_INH_COUNT : Fld := ⟨0x058, 4, 4⟩
abbrev WP_JOB_STAT_STATE : Fld := ⟨0x058, 0, 2⟩
abbrev WP_INH : Fld := ⟨0x05C, 0, 32⟩
abbrev WP_INH_CAUSE_EN : Fld := ⟨0x05C, 16, 16⟩
abbrev WP_INH_CAUSE : Fld := ⟨0x05C, 0, 16⟩
abbrev WP_RESUME : Fld := ⟨0x060, 0, 32⟩
abbrev WP_RESUME_POS_TO_G : Fld := ⟨0x060, 16, 16⟩
abbrev WP_RESUME_MAX_INH : Fld := ⟨0x060, 8, 8⟩
abbrev WP_RESUME_RESUME_G : Fld := ⟨0x060, 0, 8⟩
abbrev WP_FAST : Fld := ⟨0x064, 0, 32⟩
abbrev WP_FAST_FE_FAST : Fld := ⟨0x064, 16, 12⟩
abbrev WP_FAST_TE_FAST : Fld := ⟨0x064, 0, 12⟩
abbrev WP_LEVEL0 : Fld := ⟨0x068, 0, 32⟩
abbrev WP_LEVEL0_PW : Fld := ⟨0x068, 16, 10⟩
abbrev WP_LEVEL0_PM : Fld := ⟨0x068, 0, 10⟩
abbrev WP_LEVEL1 : Fld := ⟨0x06C, 0, 32⟩
abbrev WP_LEVEL1_PS : Fld := ⟨0x06C, 16, 10⟩
abbrev WP_LEVEL1_PC : Fld := ⟨0x06C, 0, 10⟩
abbrev WP_LEVEL2 : Fld := ⟨0x070, 0, 32⟩
abbrev WP_LEVEL2_PR_ADDR : Fld := ⟨0x070, 16, 10⟩
abbrev WP_LEVEL2_PR : Fld := ⟨0x070, 0, 10⟩
abbrev WP_CEIL : Fld := ⟨0x074, 0, 32⟩
abbrev WP_CEIL_LIMIT_G : Fld := ⟨0x074, 26, 6⟩
abbrev WP_CEIL_CEIL_PW : Fld := ⟨0x074, 16, 10⟩
abbrev WP_CEIL_CEIL_PS : Fld := ⟨0x074, 0, 10⟩
abbrev WP_SPI_CFG : Fld := ⟨0x078, 0, 32⟩
abbrev WP_SPI_CFG_DIV : Fld := ⟨0x078, 8, 8⟩
abbrev WP_SPI_CFG_FRAME : Fld := ⟨0x078, 4, 2⟩
abbrev WP_SPI_CFG_MODE : Fld := ⟨0x078, 0, 2⟩
abbrev WP_SPI_ADDR : Fld := ⟨0x07C, 0, 32⟩
abbrev WP_SPI_ADDR_ADDR : Fld := ⟨0x07C, 0, 32⟩
abbrev WS_SEL : Fld := ⟨0x080, 0, 32⟩
abbrev WS_SEL_ENTRY : Fld := ⟨0x080, 0, 32⟩
abbrev WS_DATA : Fld := ⟨0x084, 0, 32⟩
abbrev WS_DATA_DATA : Fld := ⟨0x084, 0, 32⟩
abbrev WP_VMARGIN : Fld := ⟨0x090, 0, 32⟩
abbrev WP_VMARGIN_VM_BIS : Fld := ⟨0x090, 24, 8⟩
abbrev WP_VMARGIN_VM_DEF : Fld := ⟨0x090, 16, 8⟩
abbrev WP_VMARGIN_VM_SYNC : Fld := ⟨0x090, 12, 4⟩
abbrev WP_VMARGIN_VM_CORR : Fld := ⟨0x090, 0, 12⟩
abbrev WP_DENSE : Fld := ⟨0x094, 0, 32⟩
abbrev WP_DENSE_BASE : Fld := ⟨0x094, 0, 24⟩
abbrev WP_RES_BASE_LO : Fld := ⟨0x098, 0, 32⟩
abbrev WP_RES_BASE_LO_BASE : Fld := ⟨0x098, 0, 32⟩
abbrev WP_RES_BASE_HI : Fld := ⟨0x09C, 0, 32⟩
abbrev WP_RES_BASE_HI_BASE : Fld := ⟨0x09C, 0, 32⟩
abbrev WP_RES_CFG : Fld := ⟨0x0A0, 0, 32⟩
abbrev WP_RES_CFG_SIZE_LOG2 : Fld := ⟨0x0A0, 0, 4⟩
abbrev WP_RES_PROD : Fld := ⟨0x0A4, 0, 32⟩
abbrev WP_RES_PROD_PHASE : Fld := ⟨0x0A4, 16, 1⟩
abbrev WP_RES_PROD_PROD : Fld := ⟨0x0A4, 0, 16⟩
abbrev WP_RES_CONS : Fld := ⟨0x0A8, 0, 32⟩
abbrev WP_RES_CONS_CONS : Fld := ⟨0x0A8, 0, 16⟩
abbrev OWP_IRQ_POWER_LIMIT : Fld := ⟨0x010, 3, 1⟩
abbrev OWP_IRQ_INHIBIT : Fld := ⟨0x010, 2, 1⟩
abbrev OWP_IRQ_JOB_END : Fld := ⟨0x010, 1, 1⟩
abbrev OWP_IRQ_POSTED : Fld := ⟨0x010, 0, 1⟩

/-! ### Page type WENC (R335) -/

abbrev ENC_SRC_LO : Fld := ⟨0x040, 0, 32⟩
abbrev ENC_SRC_LO_VALUE : Fld := ⟨0x040, 0, 32⟩
abbrev ENC_SRC_HI : Fld := ⟨0x044, 0, 32⟩
abbrev ENC_SRC_HI_VALUE : Fld := ⟨0x044, 0, 32⟩
abbrev ENC_UCD_LO : Fld := ⟨0x048, 0, 32⟩
abbrev ENC_UCD_LO_VALUE : Fld := ⟨0x048, 0, 32⟩
abbrev ENC_UCD_HI : Fld := ⟨0x04C, 0, 32⟩
abbrev ENC_UCD_HI_VALUE : Fld := ⟨0x04C, 0, 32⟩
abbrev ENC_DST_LO : Fld := ⟨0x050, 0, 32⟩
abbrev ENC_DST_LO_VALUE : Fld := ⟨0x050, 0, 32⟩
abbrev ENC_DST_HI : Fld := ⟨0x054, 0, 32⟩
abbrev ENC_DST_HI_VALUE : Fld := ⟨0x054, 0, 32⟩
abbrev ENC_REF_LO : Fld := ⟨0x058, 0, 32⟩
abbrev ENC_REF_LO_VALUE : Fld := ⟨0x058, 0, 32⟩
abbrev ENC_REF_HI : Fld := ⟨0x05C, 0, 32⟩
abbrev ENC_REF_HI_VALUE : Fld := ⟨0x05C, 0, 32⟩
abbrev ENC_ADDR : Fld := ⟨0x060, 0, 32⟩
abbrev ENC_ADDR_ADDR : Fld := ⟨0x060, 0, 32⟩
abbrev ENC_CTL : Fld := ⟨0x064, 0, 32⟩
abbrev ENC_CTL_GO : Fld := ⟨0x064, 31, 1⟩
abbrev ENC_CTL_LAYER : Fld := ⟨0x064, 20, 4⟩
abbrev ENC_CTL_FORMAT : Fld := ⟨0x064, 16, 2⟩
abbrev ENC_CTL_COUNT : Fld := ⟨0x064, 0, 16⟩
abbrev ENC_STAT : Fld := ⟨0x068, 0, 32⟩
abbrev ENC_STAT_DONE : Fld := ⟨0x068, 16, 16⟩
abbrev ENC_STAT_ERR : Fld := ⟨0x068, 8, 8⟩
abbrev ENC_STAT_BUSY : Fld := ⟨0x068, 0, 1⟩
abbrev WENC_IRQ_ENC_DONE : Fld := ⟨0x010, 0, 1⟩

/-! ### Page type WARC (R336) -/

abbrev AR_TBL_BASE_LO : Fld := ⟨0x040, 0, 32⟩
abbrev AR_TBL_BASE_LO_BASE : Fld := ⟨0x040, 0, 32⟩
abbrev AR_TBL_BASE_HI : Fld := ⟨0x044, 0, 32⟩
abbrev AR_TBL_BASE_HI_BASE : Fld := ⟨0x044, 0, 32⟩
abbrev AR_CMD : Fld := ⟨0x048, 0, 32⟩
abbrev AR_CMD_GO : Fld := ⟨0x048, 31, 1⟩
abbrev AR_CMD_OP : Fld := ⟨0x048, 24, 2⟩
abbrev AR_CMD_INDEX : Fld := ⟨0x048, 0, 12⟩
abbrev AR_STAT : Fld := ⟨0x04C, 0, 32⟩
abbrev AR_STAT_BUSY : Fld := ⟨0x04C, 31, 1⟩
abbrev AR_STAT_RESULT : Fld := ⟨0x04C, 16, 8⟩
abbrev AR_STAT_INDEX : Fld := ⟨0x04C, 0, 12⟩
abbrev AR_COUNT : Fld := ⟨0x050, 0, 32⟩
abbrev AR_COUNT_FAILED : Fld := ⟨0x050, 16, 16⟩
abbrev AR_COUNT_DONE : Fld := ⟨0x050, 0, 16⟩
abbrev WARC_IRQ_ARCHIVED : Fld := ⟨0x010, 3, 1⟩
abbrev WARC_IRQ_FAILED : Fld := ⟨0x010, 2, 1⟩
abbrev WARC_IRQ_VERIFIED : Fld := ⟨0x010, 1, 1⟩
abbrev WARC_IRQ_CMD_DONE : Fld := ⟨0x010, 0, 1⟩

/-! ### Page type ELL (R376) -/

abbrev ELL_CTL : Fld := ⟨0x040, 0, 32⟩
abbrev ELL_CTL_LANE_ROT : Fld := ⟨0x040, 0, 1⟩
abbrev ELL_STAT : Fld := ⟨0x044, 0, 32⟩
abbrev ELL_STAT_LANE_FAILED : Fld := ⟨0x044, 16, 8⟩
abbrev ELL_STAT_STANDIN : Fld := ⟨0x044, 8, 4⟩
abbrev ELL_STAT_DST_CONFLICT : Fld := ⟨0x044, 1, 1⟩
abbrev ELL_STAT_SPARE_USED : Fld := ⟨0x044, 0, 1⟩
abbrev ELL_SLOT_SEL : Fld := ⟨0x048, 0, 32⟩
abbrev ELL_SLOT_SEL_SLOT : Fld := ⟨0x048, 0, 6⟩
abbrev SLOT_CFG : Fld := ⟨0x04C, 0, 32⟩
abbrev SLOT_CFG_EN : Fld := ⟨0x04C, 31, 1⟩
abbrev SLOT_CFG_LOOP : Fld := ⟨0x04C, 28, 3⟩
abbrev SLOT_CFG_PORT : Fld := ⟨0x04C, 27, 1⟩
abbrev SLOT_CFG_DST : Fld := ⟨0x04C, 24, 3⟩
abbrev SLOT_CFG_TYPE : Fld := ⟨0x04C, 20, 4⟩
abbrev SLOT_CFG_FE_EN : Fld := ⟨0x04C, 15, 1⟩
abbrev SLOT_CFG_FRESH : Fld := ⟨0x04C, 14, 1⟩
abbrev SLOT_CFG_FREEZE_EN : Fld := ⟨0x04C, 13, 1⟩
abbrev SLOT_CFG_LEARN : Fld := ⟨0x04C, 12, 1⟩
abbrev SLOT_CFG_SAFE : Fld := ⟨0x04C, 10, 2⟩
abbrev SLOT_CFG_FF_TAB : Fld := ⟨0x04C, 8, 2⟩
abbrev SLOT_SRC : Fld := ⟨0x050, 0, 32⟩
abbrev SLOT_SRC_SRC_C : Fld := ⟨0x050, 16, 8⟩
abbrev SLOT_SRC_SRC_B : Fld := ⟨0x050, 8, 8⟩
abbrev SLOT_SRC_SRC_A : Fld := ⟨0x050, 0, 8⟩
abbrev SLOT_C : Fld := ⟨0x054, 0, 32⟩
abbrev SLOT_C_COEF : Fld := ⟨0x054, 0, 32⟩
abbrev SLOT_SH : Fld := ⟨0x06C, 0, 32⟩
abbrev SLOT_SH_SH5 : Fld := ⟨0x06C, 25, 5⟩
abbrev SLOT_SH_SH4 : Fld := ⟨0x06C, 20, 5⟩
abbrev SLOT_SH_SH3 : Fld := ⟨0x06C, 15, 5⟩
abbrev SLOT_SH_SH2 : Fld := ⟨0x06C, 10, 5⟩
abbrev SLOT_SH_SH1 : Fld := ⟨0x06C, 5, 5⟩
abbrev SLOT_SH_SH0 : Fld := ⟨0x06C, 0, 5⟩
abbrev SLOT_LIM_HI : Fld := ⟨0x070, 0, 32⟩
abbrev SLOT_LIM_HI_LIM : Fld := ⟨0x070, 0, 32⟩
abbrev SLOT_LIM_LO : Fld := ⟨0x074, 0, 32⟩
abbrev SLOT_LIM_LO_LIM : Fld := ⟨0x074, 0, 32⟩
abbrev SLOT_FE : Fld := ⟨0x078, 0, 32⟩
abbrev SLOT_FE_FE_TIMER_G : Fld := ⟨0x078, 16, 16⟩
abbrev SLOT_FE_FE_WIN : Fld := ⟨0x078, 0, 16⟩
abbrev SLOT_COMMIT : Fld := ⟨0x07C, 0, 32⟩
abbrev SLOT_COMMIT_CLR_STATE : Fld := ⟨0x07C, 1, 1⟩
abbrev SLOT_COMMIT_GO : Fld := ⟨0x07C, 0, 1⟩
abbrev SLOT_STATE : Fld := ⟨0x080, 0, 32⟩
abbrev SLOT_STATE_STATE : Fld := ⟨0x080, 0, 32⟩
abbrev SLOT_FE_STAT : Fld := ⟨0x090, 0, 32⟩
abbrev SLOT_FE_STAT_FOLLOW : Fld := ⟨0x090, 31, 1⟩
abbrev SLOT_FE_STAT_COUNT : Fld := ⟨0x090, 0, 16⟩
abbrev ELL_FF_SEL : Fld := ⟨0x094, 0, 32⟩
abbrev ELL_FF_SEL_SEL : Fld := ⟨0x094, 0, 32⟩
abbrev ELL_FF_DATA : Fld := ⟨0x098, 0, 32⟩
abbrev ELL_FF_DATA_DATA : Fld := ⟨0x098, 0, 32⟩
abbrev ELL_STONE : Fld := ⟨0x09C, 0, 32⟩
abbrev ELL_STONE_SAT_G : Fld := ⟨0x09C, 16, 16⟩
abbrev ELL_STONE_FREEZE_G : Fld := ⟨0x09C, 0, 16⟩
abbrev ELL_IRQ_LANE_REMAP : Fld := ⟨0x010, 2, 1⟩
abbrev ELL_IRQ_FOLLOW : Fld := ⟨0x010, 1, 1⟩
abbrev ELL_IRQ_CONFLICT : Fld := ⟨0x010, 0, 1⟩

/-! ### Page type OPS (R377) -/

abbrev OPS_PD_OFS : Fld := ⟨0x040, 0, 32⟩
abbrev OPS_PD_OFS_OFS_ODD : Fld := ⟨0x040, 16, 12⟩
abbrev OPS_PD_OFS_OFS_EVEN : Fld := ⟨0x040, 0, 12⟩
abbrev OPS_MTX_SEL : Fld := ⟨0x054, 0, 32⟩
abbrev OPS_MTX_SEL_SEL : Fld := ⟨0x054, 0, 32⟩
abbrev OPS_MTX_DATA : Fld := ⟨0x058, 0, 32⟩
abbrev OPS_MTX_DATA_DATA : Fld := ⟨0x058, 0, 32⟩
abbrev OPS_NORM : Fld := ⟨0x05C, 0, 32⟩
abbrev OPS_NORM_NORM : Fld := ⟨0x05C, 24, 7⟩
abbrev OPS_NORM_SUM_MIN : Fld := ⟨0x05C, 0, 24⟩
abbrev OPS_CMD : Fld := ⟨0x060, 0, 32⟩
abbrev OPS_CMD_CMD : Fld := ⟨0x060, 28, 4⟩
abbrev OPS_CMD_ARG : Fld := ⟨0x060, 0, 8⟩
abbrev OPS_STAT : Fld := ⟨0x064, 0, 32⟩
abbrev OPS_STAT_LAYER : Fld := ⟨0x064, 8, 2⟩
abbrev OPS_STAT_RESULT : Fld := ⟨0x064, 4, 4⟩
abbrev OPS_STAT_STATE : Fld := ⟨0x064, 0, 4⟩
abbrev OPS_LOOP : Fld := ⟨0x068, 0, 32⟩
abbrev OPS_LOOP_CLOSED : Fld := ⟨0x068, 0, 7⟩
abbrev OPS_SEARCH : Fld := ⟨0x06C, 0, 32⟩
abbrev OPS_SEARCH_FS_END : Fld := ⟨0x06C, 16, 16⟩
abbrev OPS_SEARCH_FS_START : Fld := ⟨0x06C, 0, 16⟩
abbrev OPS_SEARCH2 : Fld := ⟨0x070, 0, 32⟩
abbrev OPS_SEARCH2_SUM_ON : Fld := ⟨0x070, 16, 16⟩
abbrev OPS_SEARCH2_FS_LAYER : Fld := ⟨0x070, 8, 2⟩
abbrev OPS_SEARCH2_FS_STEP : Fld := ⟨0x070, 0, 8⟩
abbrev OPS_JUMP : Fld := ⟨0x074, 0, 32⟩
abbrev OPS_JUMP_KICK : Fld := ⟨0x074, 16, 16⟩
abbrev OPS_JUMP_JUMP_MAX : Fld := ⟨0x074, 8, 8⟩
abbrev OPS_JUMP_TZC_HYS : Fld := ⟨0x074, 0, 8⟩
abbrev OPS_TIMES : Fld := ⟨0x078, 0, 32⟩
abbrev OPS_TIMES_TOK_G : Fld := ⟨0x078, 24, 8⟩
abbrev OPS_TIMES_FOK_G : Fld := ⟨0x078, 16, 8⟩
abbrev OPS_TIMES_JUMP_TO_G : Fld := ⟨0x078, 0, 16⟩
abbrev OPS_LJ : Fld := ⟨0x07C, 0, 32⟩
abbrev OPS_LJ_LJ_KICK_G : Fld := ⟨0x07C, 24, 8⟩
abbrev OPS_LJ_LJ_BRAKE_G : Fld := ⟨0x07C, 16, 8⟩
abbrev OPS_LJ_LJ_TO_G : Fld := ⟨0x07C, 0, 16⟩
abbrev OPS_FCODE : Fld := ⟨0x080, 0, 32⟩
abbrev OPS_FCODE_LJ_KICK : Fld := ⟨0x080, 16, 16⟩
abbrev OPS_FCODE_PARK : Fld := ⟨0x080, 0, 16⟩
abbrev OPS_LTAB : Fld := ⟨0x084, 0, 32⟩
abbrev OPS_LTAB_TILT_OFS : Fld := ⟨0x084, 16, 16⟩
abbrev OPS_LTAB_FE_OFS : Fld := ⟨0x084, 0, 16⟩
abbrev OPS_ILIM : Fld := ⟨0x094, 0, 32⟩
abbrev OPS_ILIM_TLT_MA : Fld := ⟨0x094, 20, 10⟩
abbrev OPS_ILIM_TRK_MA : Fld := ⟨0x094, 10, 10⟩
abbrev OPS_ILIM_FCS_MA : Fld := ⟨0x094, 0, 10⟩
abbrev OPS_FL : Fld := ⟨0x098, 0, 32⟩
abbrev OPS_FL_SUM_LOSS : Fld := ⟨0x098, 16, 16⟩
abbrev OPS_FL_FL_G : Fld := ⟨0x098, 8, 8⟩
abbrev OPS_FL_FL_ACTION : Fld := ⟨0x098, 0, 2⟩
abbrev OPS_GLIM : Fld := ⟨0x09C, 0, 32⟩
abbrev OPS_GLIM_G_MAX : Fld := ⟨0x09C, 16, 16⟩
abbrev OPS_GLIM_G_MIN : Fld := ⟨0x09C, 0, 16⟩
abbrev OPS_SETPT0 : Fld := ⟨0x0A0, 0, 32⟩
abbrev OPS_SETPT0_VALUE : Fld := ⟨0x0A0, 0, 32⟩
abbrev OPS_SETPT1 : Fld := ⟨0x0A4, 0, 32⟩
abbrev OPS_SETPT1_VALUE : Fld := ⟨0x0A4, 0, 32⟩
abbrev OPS_DRIVE0 : Fld := ⟨0x0A8, 0, 32⟩
abbrev OPS_DRIVE0_TRK : Fld := ⟨0x0A8, 16, 16⟩
abbrev OPS_DRIVE0_FCS : Fld := ⟨0x0A8, 0, 16⟩
abbrev OPS_DRIVE1 : Fld := ⟨0x0AC, 0, 32⟩
abbrev OPS_DRIVE1_G : Fld := ⟨0x0AC, 16, 16⟩
abbrev OPS_DRIVE1_TLT : Fld := ⟨0x0AC, 0, 16⟩
abbrev OPS_SLED : Fld := ⟨0x0B0, 0, 32⟩
abbrev OPS_SLED_SLED_MAX : Fld := ⟨0x0B0, 0, 16⟩
abbrev OPS_IRQ_DRV_FAULT : Fld := ⟨0x010, 4, 1⟩
abbrev OPS_IRQ_FOCUS_LOST : Fld := ⟨0x010, 3, 1⟩
abbrev OPS_IRQ_SAFE : Fld := ⟨0x010, 2, 1⟩
abbrev OPS_IRQ_CMD_FAIL : Fld := ⟨0x010, 1, 1⟩
abbrev OPS_IRQ_CMD_DONE : Fld := ⟨0x010, 0, 1⟩

/-! ### Page type CMT (R406) -/

abbrev CMT_CTL : Fld := ⟨0x040, 0, 32⟩
abbrev CMT_CTL_POLE_PAIRS : Fld := ⟨0x040, 8, 4⟩
abbrev CMT_CTL_RESTART : Fld := ⟨0x040, 3, 1⟩
abbrev CMT_CTL_HALL_EN : Fld := ⟨0x040, 2, 1⟩
abbrev CMT_CTL_BRAKE_SEL : Fld := ⟨0x040, 1, 1⟩
abbrev CMT_CTL_DIR : Fld := ⟨0x040, 0, 1⟩
abbrev CMT_CMD : Fld := ⟨0x044, 0, 32⟩
abbrev CMT_CMD_CMD : Fld := ⟨0x044, 28, 4⟩
abbrev CMT_STAT : Fld := ⟨0x048, 0, 32⟩
abbrev CMT_STAT_FAULT_CODE : Fld := ⟨0x048, 24, 8⟩
abbrev CMT_STAT_RESULT : Fld := ⟨0x048, 20, 4⟩
abbrev CMT_STAT_ANGLE_VALID : Fld := ⟨0x048, 11, 1⟩
abbrev CMT_STAT_OBS_LOCK : Fld := ⟨0x048, 10, 1⟩
abbrev CMT_STAT_SECTOR : Fld := ⟨0x048, 7, 3⟩
abbrev CMT_STAT_STATE : Fld := ⟨0x048, 0, 4⟩
abbrev CMT_PWM : Fld := ⟨0x04C, 0, 32⟩
abbrev CMT_PWM_TOP : Fld := ⟨0x04C, 16, 12⟩
abbrev CMT_PWM_DEAD : Fld := ⟨0x04C, 0, 8⟩
abbrev CMT_COMM : Fld := ⟨0x050, 0, 32⟩
abbrev CMT_COMM_ADV : Fld := ⟨0x050, 16, 8⟩
abbrev CMT_COMM_SOFT_PCT : Fld := ⟨0x050, 8, 8⟩
abbrev CMT_COMM_BLANK_PCT : Fld := ⟨0x050, 0, 8⟩
abbrev CMT_DUTY : Fld := ⟨0x054, 0, 32⟩
abbrev CMT_DUTY_SLEW : Fld := ⟨0x054, 16, 16⟩
abbrev CMT_DUTY_DUTY : Fld := ⟨0x054, 0, 16⟩
abbrev CMT_ILIM : Fld := ⟨0x058, 0, 32⟩
abbrev CMT_ILIM_OC_TRIP_MA : Fld := ⟨0x058, 16, 16⟩
abbrev CMT_ILIM_ILIM_MA : Fld := ⟨0x058, 0, 16⟩
abbrev CMT_START0 : Fld := ⟨0x05C, 0, 32⟩
abbrev CMT_START0_RAMP_G : Fld := ⟨0x05C, 16, 16⟩
abbrev CMT_START0_ALIGN_G : Fld := ⟨0x05C, 0, 16⟩
abbrev CMT_START1 : Fld := ⟨0x060, 0, 32⟩
abbrev CMT_START1_HANDOVER_RPM : Fld := ⟨0x060, 16, 16⟩
abbrev CMT_START1_START_RPM : Fld := ⟨0x060, 0, 16⟩
abbrev CMT_START2 : Fld := ⟨0x064, 0, 32⟩
abbrev CMT_START2_START_TRIES : Fld := ⟨0x064, 16, 4⟩
abbrev CMT_START2_START_DUTY : Fld := ⟨0x064, 0, 16⟩
abbrev CMT_OBS : Fld := ⟨0x068, 0, 32⟩
abbrev CMT_OBS_LOCK_G : Fld := ⟨0x068, 16, 16⟩
abbrev CMT_OBS_WIN_PCT : Fld := ⟨0x068, 8, 8⟩
abbrev CMT_OBS_MISS_MAX : Fld := ⟨0x068, 0, 4⟩
abbrev CMT_CATCH : Fld := ⟨0x06C, 0, 32⟩
abbrev CMT_CATCH_CATCH_G : Fld := ⟨0x06C, 16, 16⟩
abbrev CMT_CATCH_CATCH_MIN_RPM : Fld := ⟨0x06C, 0, 16⟩
abbrev CMT_BRAKE : Fld := ⟨0x070, 0, 32⟩
abbrev CMT_BRAKE_BRAKE_MAX_S : Fld := ⟨0x070, 16, 16⟩
abbrev CMT_BRAKE_STOP_RPM : Fld := ⟨0x070, 0, 16⟩
abbrev CMT_KE : Fld := ⟨0x074, 0, 32⟩
abbrev CMT_KE_KE_MV : Fld := ⟨0x074, 0, 16⟩
abbrev CMT_SHUNT : Fld := ⟨0x078, 0, 32⟩
abbrev CMT_SHUNT_TMIN_NS : Fld := ⟨0x078, 16, 16⟩
abbrev CMT_SHUNT_SHUNT_UOHM : Fld := ⟨0x078, 0, 16⟩
abbrev CMT_GATE : Fld := ⟨0x07C, 0, 32⟩
abbrev CMT_GATE_BLANK_NS : Fld := ⟨0x07C, 16, 16⟩
abbrev CMT_GATE_VDS_MV : Fld := ⟨0x07C, 0, 16⟩
abbrev CMT_HALL : Fld := ⟨0x080, 0, 32⟩
abbrev CMT_HALL_MAP : Fld := ⟨0x080, 0, 18⟩
abbrev CMT_SPEED : Fld := ⟨0x084, 0, 32⟩
abbrev CMT_SPEED_RPM : Fld := ⟨0x084, 16, 16⟩
abbrev CMT_SPEED_ANGLE : Fld := ⟨0x084, 0, 7⟩
abbrev CMT_CUR : Fld := ⟨0x088, 0, 32⟩
abbrev CMT_CUR_I_PEAK_MA : Fld := ⟨0x088, 16, 16⟩
abbrev CMT_CUR_I_MEAN_MA : Fld := ⟨0x088, 0, 16⟩
abbrev CMT_IPH0 : Fld := ⟨0x08C, 0, 32⟩
abbrev CMT_IPH0_IV : Fld := ⟨0x08C, 16, 16⟩
abbrev CMT_IPH0_IU : Fld := ⟨0x08C, 0, 16⟩
abbrev CMT_IPH1 : Fld := ⟨0x090, 0, 32⟩
abbrev CMT_IPH1_IW : Fld := ⟨0x090, 0, 16⟩
abbrev CMT_STONE : Fld := ⟨0x094, 0, 32⟩
abbrev CMT_STONE_COMMS : Fld := ⟨0x094, 16, 16⟩
abbrev CMT_STONE_MISSED : Fld := ⟨0x094, 8, 8⟩
abbrev CMT_STONE_LATE : Fld := ⟨0x094, 0, 8⟩
abbrev CMT_IRQ_HALL_FAULT : Fld := ⟨0x010, 5, 1⟩
abbrev CMT_IRQ_GATE_FAULT : Fld := ⟨0x010, 4, 1⟩
abbrev CMT_IRQ_LOCKED : Fld := ⟨0x010, 3, 1⟩
abbrev CMT_IRQ_ROTOR_LOST : Fld := ⟨0x010, 2, 1⟩
abbrev CMT_IRQ_CMD_FAIL : Fld := ⟨0x010, 1, 1⟩
abbrev CMT_IRQ_CMD_DONE : Fld := ⟨0x010, 0, 1⟩

/-! ### Page type VBUS (R407) -/

abbrev VBUS_CTL : Fld := ⟨0x040, 0, 32⟩
abbrev VBUS_CTL_REGEN_EN : Fld := ⟨0x040, 1, 1⟩
abbrev VBUS_CTL_CHOP_EN : Fld := ⟨0x040, 0, 1⟩
abbrev VBUS_CHOP : Fld := ⟨0x044, 0, 32⟩
abbrev VBUS_CHOP_CHOP_ON_MV : Fld := ⟨0x044, 16, 16⟩
abbrev VBUS_CHOP_CHOP_OFF_MV : Fld := ⟨0x044, 0, 16⟩
abbrev VBUS_REGEN : Fld := ⟨0x048, 0, 32⟩
abbrev VBUS_REGEN_REGEN_MAX_MV : Fld := ⟨0x048, 0, 16⟩
abbrev VBUS_LIMIT : Fld := ⟨0x04C, 0, 32⟩
abbrev VBUS_LIMIT_LIMIT_MV : Fld := ⟨0x04C, 16, 16⟩
abbrev VBUS_LIMIT_OV_G : Fld := ⟨0x04C, 8, 8⟩
abbrev VBUS_ABS : Fld := ⟨0x050, 0, 32⟩
abbrev VBUS_ABS_ABS_MV : Fld := ⟨0x050, 0, 16⟩
abbrev VBUS_CHK : Fld := ⟨0x054, 0, 32⟩
abbrev VBUS_CHK_CHOP_IMIN_MA : Fld := ⟨0x054, 16, 16⟩
abbrev VBUS_CHK_CHK_US : Fld := ⟨0x054, 0, 16⟩
abbrev VBUS_STAT : Fld := ⟨0x058, 0, 32⟩
abbrev VBUS_STAT_REGEN_ALLOWED : Fld := ⟨0x058, 4, 1⟩
abbrev VBUS_STAT_OV_TRIP : Fld := ⟨0x058, 3, 1⟩
abbrev VBUS_STAT_CHOP_STUCK : Fld := ⟨0x058, 2, 1⟩
abbrev VBUS_STAT_CHOP_FAULT : Fld := ⟨0x058, 1, 1⟩
abbrev VBUS_STAT_CHOP_ON : Fld := ⟨0x058, 0, 1⟩
abbrev VBUS_VMAX : Fld := ⟨0x05C, 0, 32⟩
abbrev VBUS_VMAX_VMAX_MV : Fld := ⟨0x05C, 16, 16⟩
abbrev VBUS_VMAX_BRK_MA : Fld := ⟨0x05C, 0, 16⟩
abbrev VBUS_IRQ_VMOT_ABS : Fld := ⟨0x010, 3, 1⟩
abbrev VBUS_IRQ_VMOT_LIMIT : Fld := ⟨0x010, 2, 1⟩
abbrev VBUS_IRQ_CHOP_STUCK : Fld := ⟨0x010, 1, 1⟩
abbrev VBUS_IRQ_CHOP_FAULT : Fld := ⟨0x010, 0, 1⟩

/-! ### Page type AX (R431) -/

abbrev CHN_CTL : Fld := ⟨0x040, 0, 32⟩
abbrev CHN_CTL_MASTER : Fld := ⟨0x040, 8, 3⟩
abbrev CHN_CTL_ENC_SEL : Fld := ⟨0x040, 5, 3⟩
abbrev CHN_CTL_DEV_EN : Fld := ⟨0x040, 4, 1⟩
abbrev CHN_CTL_AUTO_I : Fld := ⟨0x040, 3, 1⟩
abbrev CHN_CTL_HOME_POL : Fld := ⟨0x040, 2, 1⟩
abbrev CHN_CTL_SOFTLIM : Fld := ⟨0x040, 1, 1⟩
abbrev CHN_CTL_DIR_INV : Fld := ⟨0x040, 0, 1⟩
abbrev CHN_CMD : Fld := ⟨0x044, 0, 32⟩
abbrev CHN_CMD_CMD : Fld := ⟨0x044, 28, 4⟩
abbrev CHN_STAT : Fld := ⟨0x048, 0, 32⟩
abbrev CHN_STAT_FAULT_CODE : Fld := ⟨0x048, 24, 8⟩
abbrev CHN_STAT_RESULT : Fld := ⟨0x048, 20, 4⟩
abbrev CHN_STAT_DIR : Fld := ⟨0x048, 7, 1⟩
abbrev CHN_STAT_GEAR_LAG : Fld := ⟨0x048, 6, 1⟩
abbrev CHN_STAT_DECEL_CLAMPED : Fld := ⟨0x048, 5, 1⟩
abbrev CHN_STAT_REF : Fld := ⟨0x048, 4, 1⟩
abbrev CHN_STAT_STATE : Fld := ⟨0x048, 0, 3⟩
abbrev CHN_TARGET : Fld := ⟨0x04C, 0, 32⟩
abbrev CHN_TARGET_TARGET : Fld := ⟨0x04C, 0, 32⟩
abbrev CHN_POS : Fld := ⟨0x050, 0, 32⟩
abbrev CHN_POS_POS : Fld := ⟨0x050, 0, 32⟩
abbrev CHN_VMAX : Fld := ⟨0x054, 0, 32⟩
abbrev CHN_VMAX_V : Fld := ⟨0x054, 0, 32⟩
abbrev CHN_VMIN : Fld := ⟨0x058, 0, 32⟩
abbrev CHN_VMIN_V : Fld := ⟨0x058, 0, 32⟩
abbrev CHN_ACC : Fld := ⟨0x05C, 0, 32⟩
abbrev CHN_ACC_A : Fld := ⟨0x05C, 0, 32⟩
abbrev CHN_DEC : Fld := ⟨0x060, 0, 32⟩
abbrev CHN_DEC_A : Fld := ⟨0x060, 0, 32⟩
abbrev CHN_DEC_USE : Fld := ⟨0x064, 0, 32⟩
abbrev CHN_DEC_USE_A : Fld := ⟨0x064, 0, 32⟩
abbrev CHN_VEL : Fld := ⟨0x068, 0, 32⟩
abbrev CHN_VEL_V : Fld := ⟨0x068, 0, 32⟩
abbrev CHN_POS_MIN : Fld := ⟨0x06C, 0, 32⟩
abbrev CHN_POS_MIN_LIMIT : Fld := ⟨0x06C, 0, 32⟩
abbrev CHN_POS_MAX : Fld := ⟨0x070, 0, 32⟩
abbrev CHN_POS_MAX_LIMIT : Fld := ⟨0x070, 0, 32⟩
abbrev CHN_HOME_V : Fld := ⟨0x074, 0, 32⟩
abbrev CHN_HOME_V_V : Fld := ⟨0x074, 0, 32⟩
abbrev CHN_HOME_CFG : Fld := ⟨0x078, 0, 32⟩
abbrev CHN_HOME_CFG_HOME_TO_S : Fld := ⟨0x078, 16, 16⟩
abbrev CHN_HOME_CFG_DIR : Fld := ⟨0x078, 0, 1⟩
abbrev CHN_HOME_POS : Fld := ⟨0x07C, 0, 32⟩
abbrev CHN_HOME_POS_POS : Fld := ⟨0x07C, 0, 32⟩
abbrev CHN_CUR : Fld := ⟨0x080, 0, 32⟩
abbrev CHN_CUR_IMAX : Fld := ⟨0x080, 20, 10⟩
abbrev CHN_CUR_IRUN : Fld := ⟨0x080, 10, 10⟩
abbrev CHN_CUR_IHOLD : Fld := ⟨0x080, 0, 10⟩
abbrev CHN_LOAD : Fld := ⟨0x084, 0, 32⟩
abbrev CHN_LOAD_LOAD_HI : Fld := ⟨0x084, 24, 8⟩
abbrev CHN_LOAD_LOAD_LO : Fld := ⟨0x084, 16, 8⟩
abbrev CHN_LOAD_I_STEP : Fld := ⟨0x084, 8, 8⟩
abbrev CHN_LOAD_STALL_G : Fld := ⟨0x084, 0, 8⟩
abbrev CHN_ISTAT : Fld := ⟨0x088, 0, 32⟩
abbrev CHN_ISTAT_I_NOW : Fld := ⟨0x088, 16, 10⟩
abbrev CHN_ISTAT_LOAD : Fld := ⟨0x088, 0, 8⟩
abbrev CHN_DEV : Fld := ⟨0x08C, 0, 32⟩
abbrev CHN_DEV_DEV_G : Fld := ⟨0x08C, 16, 16⟩
abbrev CHN_DEV_DEV_WIN : Fld := ⟨0x08C, 0, 16⟩
abbrev CHN_ENC_SCALE : Fld := ⟨0x090, 0, 32⟩
abbrev CHN_ENC_SCALE_SCALE : Fld := ⟨0x090, 0, 32⟩
abbrev CHN_DEVIATION : Fld := ⟨0x094, 0, 32⟩
abbrev CHN_DEVIATION_DEV : Fld := ⟨0x094, 0, 32⟩
abbrev CHN_GEAR_RATIO : Fld := ⟨0x098, 0, 32⟩
abbrev CHN_GEAR_RATIO_RATIO : Fld := ⟨0x098, 0, 32⟩
abbrev CHN_GEAR_NEXT : Fld := ⟨0x09C, 0, 32⟩
abbrev CHN_GEAR_NEXT_RATIO : Fld := ⟨0x09C, 0, 32⟩
abbrev CHN_GEAR_POS : Fld := ⟨0x0A0, 0, 32⟩
abbrev CHN_GEAR_POS_POS : Fld := ⟨0x0A0, 0, 32⟩
abbrev CHN_STEP_CFG : Fld := ⟨0x0A4, 0, 32⟩
abbrev CHN_STEP_CFG_ARM : Fld := ⟨0x0A4, 1, 1⟩
abbrev CHN_STEP_W : Fld := ⟨0x0A8, 0, 32⟩
abbrev CHN_STEP_W_STEP_W : Fld := ⟨0x0A8, 0, 7⟩
abbrev CHN_STONE : Fld := ⟨0x0AC, 0, 32⟩
abbrev CHN_STONE_STEPS_K : Fld := ⟨0x0AC, 16, 16⟩
abbrev CHN_STONE_RAISES : Fld := ⟨0x0AC, 8, 8⟩
abbrev CHN_STONE_OVERSHOOT : Fld := ⟨0x0AC, 0, 8⟩
abbrev AX_IRQ_ENC_ERR : Fld := ⟨0x010, 5, 1⟩
abbrev AX_IRQ_GEAR_SWITCH : Fld := ⟨0x010, 4, 1⟩
abbrev AX_IRQ_CLAMP : Fld := ⟨0x010, 3, 1⟩
abbrev AX_IRQ_FAULT : Fld := ⟨0x010, 2, 1⟩
abbrev AX_IRQ_CMD_FAIL : Fld := ⟨0x010, 1, 1⟩
abbrev AX_IRQ_DONE : Fld := ⟨0x010, 0, 1⟩

/-! ### Page type CENC (R431) -/

abbrev CENC_CFG : Fld := ⟨0x040, 0, 32⟩
abbrev CENC_CFG_ENC : Fld := ⟨0x040, 0, 32⟩
abbrev CENC_POS : Fld := ⟨0x044, 0, 32⟩
abbrev CENC_POS_COUNT : Fld := ⟨0x044, 0, 32⟩
abbrev CENC_ERR : Fld := ⟨0x064, 0, 32⟩
abbrev CENC_ERR_ILLEGAL : Fld := ⟨0x064, 0, 8⟩

/-! ### Page type UD (R445) -/

abbrev UD_SRC_LO : Fld := ⟨0x040, 0, 32⟩
abbrev UD_SRC_LO_ADDR : Fld := ⟨0x040, 0, 32⟩
abbrev UD_SRC_HI : Fld := ⟨0x044, 0, 32⟩
abbrev UD_SRC_HI_ADDR : Fld := ⟨0x044, 0, 32⟩
abbrev UD_DST_LO : Fld := ⟨0x048, 0, 32⟩
abbrev UD_DST_LO_ADDR : Fld := ⟨0x048, 0, 32⟩
abbrev UD_DST_HI : Fld := ⟨0x04C, 0, 32⟩
abbrev UD_DST_HI_ADDR : Fld := ⟨0x04C, 0, 32⟩
abbrev UD_CNT : Fld := ⟨0x050, 0, 32⟩
abbrev UD_CNT_COUNT : Fld := ⟨0x050, 0, 24⟩
abbrev UD_SSTEP : Fld := ⟨0x05C, 0, 32⟩
abbrev UD_SSTEP_STEP : Fld := ⟨0x05C, 0, 32⟩
abbrev UD_DSTEP : Fld := ⟨0x068, 0, 32⟩
abbrev UD_DSTEP_STEP : Fld := ⟨0x068, 0, 32⟩
abbrev UD_CFG : Fld := ⟨0x074, 0, 32⟩
abbrev UD_CFG_MODE : Fld := ⟨0x074, 26, 2⟩
abbrev UD_CFG_ROT : Fld := ⟨0x074, 8, 18⟩
abbrev UD_CFG_ESIZE : Fld := ⟨0x074, 6, 2⟩
abbrev UD_CFG_NONCOH : Fld := ⟨0x074, 5, 1⟩
abbrev UD_TRIG : Fld := ⟨0x078, 0, 32⟩
abbrev UD_TRIG_KIND : Fld := ⟨0x078, 6, 2⟩
abbrev UD_TRIG_SEL : Fld := ⟨0x078, 0, 5⟩
abbrev UD_CTL : Fld := ⟨0x07C, 0, 32⟩
abbrev UD_CTL_STOP : Fld := ⟨0x07C, 1, 1⟩
abbrev UD_CTL_START : Fld := ⟨0x07C, 0, 1⟩
abbrev UD_STAT : Fld := ⟨0x080, 0, 32⟩
abbrev UD_STAT_ERR : Fld := ⟨0x080, 8, 8⟩
abbrev UD_STAT_MISSED : Fld := ⟨0x080, 3, 1⟩
abbrev UD_STAT_PENDING : Fld := ⟨0x080, 2, 1⟩
abbrev UD_STAT_RUNNING : Fld := ⟨0x080, 1, 1⟩
abbrev UD_STAT_ARMED : Fld := ⟨0x080, 0, 1⟩
abbrev UD_DONE : Fld := ⟨0x084, 0, 32⟩
abbrev UD_DONE_ELEMS : Fld := ⟨0x084, 0, 32⟩
abbrev UD_COUNT : Fld := ⟨0x088, 0, 32⟩
abbrev UD_COUNT_RUNS : Fld := ⟨0x088, 0, 32⟩
abbrev UD_IRQ_MISSED : Fld := ⟨0x010, 2, 1⟩
abbrev UD_IRQ_ERR : Fld := ⟨0x010, 1, 1⟩
abbrev UD_IRQ_DONE : Fld := ⟨0x010, 0, 1⟩

/-! ### Page type BUSH (R445) -/

abbrev BUSH_TMR : Fld := ⟨0x040, 0, 32⟩
abbrev BUSH_TMR_PHASE : Fld := ⟨0x040, 16, 16⟩
abbrev BUSH_TMR_PERIOD : Fld := ⟨0x040, 0, 16⟩
abbrev BUSH_STAT : Fld := ⟨0x080, 0, 32⟩
abbrev BUSH_STAT_BUSY : Fld := ⟨0x080, 8, 1⟩
abbrev BUSH_STAT_CHAN : Fld := ⟨0x080, 0, 5⟩
abbrev BUSH_STONE : Fld := ⟨0x084, 0, 32⟩
abbrev BUSH_STONE_ELEMS_K : Fld := ⟨0x084, 0, 32⟩

/-! ### Page type PWR (R464) -/

abbrev PWR_CTL : Fld := ⟨0x040, 0, 32⟩
abbrev PWR_CTL_GO : Fld := ⟨0x040, 31, 1⟩
abbrev PWR_CTL_TARGET : Fld := ⟨0x040, 24, 3⟩
abbrev PWR_CTL_WAKE_TO : Fld := ⟨0x040, 0, 1⟩
abbrev PWR_CFG : Fld := ⟨0x044, 0, 32⟩
abbrev PWR_CFG_DELAY_MAX_G : Fld := ⟨0x044, 16, 16⟩
abbrev PWR_CFG_AON_TOL_PPM : Fld := ⟨0x044, 8, 8⟩
abbrev PWR_CFG_RETRY_N : Fld := ⟨0x044, 5, 3⟩
abbrev PWR_CFG_RETRY_S : Fld := ⟨0x044, 1, 4⟩
abbrev PWR_CFG_ACCT : Fld := ⟨0x044, 0, 1⟩
abbrev PWR_WAKE_EN : Fld := ⟨0x048, 0, 32⟩
abbrev PWR_WAKE_EN_SRC : Fld := ⟨0x048, 0, 10⟩
abbrev PWR_WAKE_SRC : Fld := ⟨0x04C, 0, 32⟩
abbrev PWR_WAKE_SRC_SRC : Fld := ⟨0x04C, 0, 10⟩
abbrev PWR_STAT : Fld := ⟨0x050, 0, 32⟩
abbrev PWR_STAT_LAST_REASON : Fld := ⟨0x050, 24, 8⟩
abbrev PWR_STAT_STEP : Fld := ⟨0x050, 20, 4⟩
abbrev PWR_STAT_UNBRIDGED : Fld := ⟨0x050, 3, 1⟩
abbrev PWR_STAT_BUSY : Fld := ⟨0x050, 2, 1⟩
abbrev PWR_STAT_STATE : Fld := ⟨0x050, 0, 2⟩
abbrev PWR_ACCT0 : Fld := ⟨0x054, 0, 32⟩
abbrev PWR_ACCT0_ACCT : Fld := ⟨0x054, 0, 32⟩
abbrev PWR_ACCT1 : Fld := ⟨0x058, 0, 32⟩
abbrev PWR_ACCT1_ACCT : Fld := ⟨0x058, 0, 32⟩
abbrev PWR_WAKE_TMR : Fld := ⟨0x05C, 0, 32⟩
abbrev PWR_WAKE_TMR_TICKS : Fld := ⟨0x05C, 0, 32⟩
abbrev PWR_BRIDGE_LO : Fld := ⟨0x060, 0, 32⟩
abbrev PWR_BRIDGE_LO_VALUE : Fld := ⟨0x060, 0, 32⟩
abbrev PWR_BRIDGE_HI : Fld := ⟨0x064, 0, 32⟩
abbrev PWR_BRIDGE_HI_VALUE : Fld := ⟨0x064, 0, 32⟩
abbrev PWR_BRIDGE_UNC : Fld := ⟨0x068, 0, 32⟩
abbrev PWR_BRIDGE_UNC_VALUE : Fld := ⟨0x068, 0, 32⟩
abbrev PWR_AON_ERR : Fld := ⟨0x06C, 0, 32⟩
abbrev PWR_AON_ERR_VALUE : Fld := ⟨0x06C, 0, 32⟩
abbrev PWR_AON_T_LO : Fld := ⟨0x070, 0, 32⟩
abbrev PWR_AON_T_LO_VALUE : Fld := ⟨0x070, 0, 32⟩
abbrev PWR_AON_T_HI : Fld := ⟨0x074, 0, 32⟩
abbrev PWR_AON_T_HI_VALUE : Fld := ⟨0x074, 0, 32⟩
abbrev PWR_IRQ_ABORTED : Fld := ⟨0x010, 1, 1⟩
abbrev PWR_IRQ_WOKEN : Fld := ⟨0x010, 0, 1⟩

/-! ### Page type SCR (R465) -/

abbrev SCR_CTL : Fld := ⟨0x040, 0, 32⟩
abbrev SCR_CTL_EN : Fld := ⟨0x040, 0, 1⟩
abbrev SCR_FILT : Fld := ⟨0x044, 0, 32⟩
abbrev SCR_FILT_SRC : Fld := ⟨0x044, 8, 5⟩
abbrev SCR_FILT_MODE : Fld := ⟨0x044, 6, 2⟩
abbrev SCR_FILT_K : Fld := ⟨0x044, 0, 4⟩
abbrev SCR_RULE_SEL : Fld := ⟨0x064, 0, 32⟩
abbrev SCR_RULE_SEL_RULE : Fld := ⟨0x064, 0, 5⟩
abbrev SCR_RULE_A : Fld := ⟨0x068, 0, 32⟩
abbrev SCR_RULE_A_OPND : Fld := ⟨0x068, 27, 5⟩
abbrev SCR_RULE_A_CMP : Fld := ⟨0x068, 24, 3⟩
abbrev SCR_RULE_A_LINK : Fld := ⟨0x068, 22, 2⟩
abbrev SCR_RULE_A_STATES : Fld := ⟨0x068, 19, 3⟩
abbrev SCR_RULE_A_REARM : Fld := ⟨0x068, 18, 1⟩
abbrev SCR_RULE_A_THRESH : Fld := ⟨0x068, 0, 16⟩
abbrev SCR_RULE_B : Fld := ⟨0x06C, 0, 32⟩
abbrev SCR_RULE_B_HOLD : Fld := ⟨0x06C, 20, 12⟩
abbrev SCR_RULE_B_ACT : Fld := ⟨0x06C, 16, 4⟩
abbrev SCR_RULE_B_OUTSEL : Fld := ⟨0x06C, 15, 1⟩
abbrev SCR_RULE_B_MARK_MIN : Fld := ⟨0x06C, 8, 6⟩
abbrev SCR_RULE_B_SET : Fld := ⟨0x06C, 0, 8⟩
abbrev SCR_RULE_STAT : Fld := ⟨0x070, 0, 32⟩
abbrev SCR_RULE_STAT_ARMED : Fld := ⟨0x070, 31, 1⟩
abbrev SCR_RULE_STAT_EFF : Fld := ⟨0x070, 30, 1⟩
abbrev SCR_RULE_STAT_FIRES : Fld := ⟨0x070, 0, 16⟩
abbrev SCR_SIG_SEL : Fld := ⟨0x074, 0, 32⟩
abbrev SCR_SIG_SEL_SEL : Fld := ⟨0x074, 0, 32⟩
abbrev SCR_SIG_DATA : Fld := ⟨0x078, 0, 32⟩
abbrev SCR_SIG_DATA_DATA : Fld := ⟨0x078, 0, 32⟩
abbrev SCR_OUT : Fld := ⟨0x07C, 0, 32⟩
abbrev SCR_OUT_OUT : Fld := ⟨0x07C, 0, 2⟩
abbrev SCR_LANE_SEL : Fld := ⟨0x080, 0, 32⟩
abbrev SCR_LANE_SEL_SEL : Fld := ⟨0x080, 0, 32⟩
abbrev SCR_LANE_DATA : Fld := ⟨0x084, 0, 32⟩
abbrev SCR_LANE_DATA_DATA : Fld := ⟨0x084, 0, 32⟩
abbrev SCR_LOG : Fld := ⟨0x088, 0, 32⟩
abbrev SCR_LOG_LOST : Fld := ⟨0x088, 16, 16⟩
abbrev SCR_LOG_HEAD : Fld := ⟨0x088, 0, 8⟩
abbrev SCR_MARK : Fld := ⟨0x08C, 0, 32⟩
abbrev SCR_MARK_LOST : Fld := ⟨0x08C, 16, 16⟩
abbrev SCR_MARK_SLOTS : Fld := ⟨0x08C, 0, 16⟩
abbrev SCR_MARK_ACK : Fld := ⟨0x090, 0, 32⟩
abbrev SCR_MARK_ACK_LOST : Fld := ⟨0x090, 16, 16⟩
abbrev SCR_MARK_ACK_SLOTS : Fld := ⟨0x090, 0, 16⟩
abbrev SCR_MARK_CFG : Fld := ⟨0x094, 0, 32⟩
abbrev SCR_MARK_CFG_KEEP_DAYS : Fld := ⟨0x094, 16, 16⟩
abbrev SCR_MARK_CFG_POST_MIB : Fld := ⟨0x094, 0, 8⟩
abbrev SCR_IRQ_MARK_LOST : Fld := ⟨0x010, 2, 1⟩
abbrev SCR_IRQ_MARK : Fld := ⟨0x010, 1, 1⟩
abbrev SCR_IRQ_LOGGED : Fld := ⟨0x010, 0, 1⟩

/-! ### Page type PROT (R487) -/

abbrev MEM_SEL : Fld := ⟨0x040, 0, 32⟩
abbrev MEM_SEL_ARRAY : Fld := ⟨0x040, 0, 4⟩
abbrev MEM_CTL : Fld := ⟨0x044, 0, 32⟩
abbrev MEM_CTL_RMW : Fld := ⟨0x044, 16, 2⟩
abbrev MEM_CTL_SCRUB_WPG : Fld := ⟨0x044, 8, 8⟩
abbrev MEM_CTL_TEST_EN : Fld := ⟨0x044, 1, 1⟩
abbrev MEM_CTL_SCRUB_EN : Fld := ⟨0x044, 0, 1⟩
abbrev MEM_ECC : Fld := ⟨0x048, 0, 32⟩
abbrev MEM_ECC_UNCORR : Fld := ⟨0x048, 16, 16⟩
abbrev MEM_ECC_CORR : Fld := ⟨0x048, 0, 16⟩
abbrev MEM_SPARE : Fld := ⟨0x04C, 0, 32⟩
abbrev MEM_SPARE_ROWS_FREE : Fld := ⟨0x04C, 16, 16⟩
abbrev MEM_SPARE_COLS_FREE : Fld := ⟨0x04C, 0, 16⟩
abbrev MEM_STAT : Fld := ⟨0x050, 0, 32⟩
abbrev MEM_STAT_PASSES : Fld := ⟨0x050, 24, 8⟩
abbrev MEM_STAT_REPAIR_MODE : Fld := ⟨0x050, 4, 4⟩
abbrev MEM_STAT_RETIRED : Fld := ⟨0x050, 0, 1⟩
abbrev MEM_TEST_ADDR : Fld := ⟨0x054, 0, 32⟩
abbrev MEM_TEST_ADDR_VALUE : Fld := ⟨0x054, 0, 32⟩
abbrev MEM_TEST_DATA_LO : Fld := ⟨0x058, 0, 32⟩
abbrev MEM_TEST_DATA_LO_VALUE : Fld := ⟨0x058, 0, 32⟩
abbrev MEM_TEST_DATA_HI : Fld := ⟨0x05C, 0, 32⟩
abbrev MEM_TEST_DATA_HI_VALUE : Fld := ⟨0x05C, 0, 32⟩
abbrev MEM_TEST_CHK : Fld := ⟨0x060, 0, 32⟩
abbrev MEM_TEST_CHK_CHK_MID : Fld := ⟨0x060, 8, 24⟩
abbrev MEM_TEST_CHK_CHK : Fld := ⟨0x060, 0, 8⟩
abbrev MEM_PEND : Fld := ⟨0x064, 0, 32⟩
abbrev MEM_PEND_COUNT : Fld := ⟨0x064, 0, 11⟩
abbrev MEM_TEST_CHK_HI : Fld := ⟨0x068, 0, 32⟩
abbrev MEM_TEST_CHK_HI_CHK_HI : Fld := ⟨0x068, 0, 8⟩
abbrev PROT_IRQ_SPARE_OUT : Fld := ⟨0x010, 2, 1⟩
abbrev PROT_IRQ_REPAIR : Fld := ⟨0x010, 1, 1⟩
abbrev PROT_IRQ_UNCORR : Fld := ⟨0x010, 0, 1⟩

/-! ### Page type LBIST (R488) -/

abbrev LB_CTL : Fld := ⟨0x040, 0, 32⟩
abbrev LB_CTL_STAGGER_G : Fld := ⟨0x040, 16, 16⟩
abbrev LB_CTL_MAX_CONC : Fld := ⟨0x040, 1, 3⟩
abbrev LB_CTL_EN : Fld := ⟨0x040, 0, 1⟩
abbrev LB_CYCLE : Fld := ⟨0x044, 0, 32⟩
abbrev LB_CYCLE_CYCLE_S : Fld := ⟨0x044, 0, 32⟩
abbrev LB_STAT : Fld := ⟨0x048, 0, 32⟩
abbrev LB_STAT_SKIPPED : Fld := ⟨0x048, 16, 16⟩
abbrev LB_STAT_LAST : Fld := ⟨0x048, 8, 8⟩
abbrev LB_STAT_RUNNING : Fld := ⟨0x048, 0, 3⟩
abbrev LB_COUNT : Fld := ⟨0x04C, 0, 32⟩
abbrev LB_COUNT_FAILS : Fld := ⟨0x04C, 16, 16⟩
abbrev LB_COUNT_TRANSIENTS : Fld := ⟨0x04C, 0, 16⟩
abbrev LBIST_IRQ_TRANSIENT : Fld := ⟨0x010, 1, 1⟩
abbrev LBIST_IRQ_SLICE_FAIL : Fld := ⟨0x010, 0, 1⟩

/-! ### Page type FUSE (R489) -/

abbrev FUSE_CTL : Fld := ⟨0x040, 0, 32⟩
abbrev FUSE_CTL_BURN : Fld := ⟨0x040, 1, 1⟩
abbrev FUSE_CTL_MAINT : Fld := ⟨0x040, 0, 1⟩
abbrev FUSE_STAT : Fld := ⟨0x044, 0, 32⟩
abbrev FUSE_STAT_RESULT : Fld := ⟨0x044, 30, 2⟩
abbrev FUSE_STAT_FREE : Fld := ⟨0x044, 2, 11⟩
abbrev FUSE_STAT_BUSY : Fld := ⟨0x044, 1, 1⟩
abbrev FUSE_STAT_MAINT : Fld := ⟨0x044, 0, 1⟩
abbrev FUSE_IRQ_BURN_FAIL : Fld := ⟨0x010, 1, 1⟩
abbrev FUSE_IRQ_BURN_DONE : Fld := ⟨0x010, 0, 1⟩

/-! ### Page type CAL (R510) -/

abbrev CAL_CTL : Fld := ⟨0x040, 0, 32⟩
abbrev CAL_CTL_PATH_EN : Fld := ⟨0x040, 0, 7⟩
abbrev CAL_CFG : Fld := ⟨0x044, 0, 32⟩
abbrev CAL_CFG_STALE_X : Fld := ⟨0x044, 8, 8⟩
abbrev CAL_CFG_FAIL_N : Fld := ⟨0x044, 0, 4⟩
abbrev CAL_STAT : Fld := ⟨0x048, 0, 32⟩
abbrev CAL_STAT_FAILED : Fld := ⟨0x048, 16, 7⟩
abbrev CAL_STAT_STALE : Fld := ⟨0x048, 0, 7⟩
abbrev CAL_FAILS : Fld := ⟨0x04C, 0, 32⟩
abbrev CAL_FAILS_COUNT : Fld := ⟨0x04C, 0, 32⟩
abbrev CAL_IRQ_PATH_FAILED : Fld := ⟨0x010, 1, 1⟩
abbrev CAL_IRQ_CAL_FAIL : Fld := ⟨0x010, 0, 1⟩

/-! ### Page type AGE (R511) -/

abbrev AGE_SEL : Fld := ⟨0x040, 0, 32⟩
abbrev AGE_SEL_ID : Fld := ⟨0x040, 0, 8⟩
abbrev AGE_VAL : Fld := ⟨0x044, 0, 32⟩
abbrev AGE_VAL_VALUE : Fld := ⟨0x044, 0, 32⟩
abbrev AGE_REF : Fld := ⟨0x048, 0, 32⟩
abbrev AGE_REF_VALUE : Fld := ⟨0x048, 0, 32⟩
abbrev AGE_INFO : Fld := ⟨0x04C, 0, 32⟩
abbrev AGE_INFO_FRESH : Fld := ⟨0x04C, 31, 1⟩
abbrev AGE_INFO_SAMPLES : Fld := ⟨0x04C, 0, 16⟩
abbrev AGE_CFG : Fld := ⟨0x050, 0, 32⟩
abbrev AGE_CFG_SPN_REF_RPM : Fld := ⟨0x050, 16, 16⟩
abbrev AGE_CFG_LASER_SPREAD : Fld := ⟨0x050, 0, 16⟩

/-! ### Page type MPLAN (R512) -/

abbrev MP_CTL : Fld := ⟨0x040, 0, 32⟩
abbrev MP_CTL_SUBMIT : Fld := ⟨0x040, 31, 1⟩
abbrev MP_CTL_AVS_EN : Fld := ⟨0x040, 30, 1⟩
abbrev MP_CTL_BASELINE : Fld := ⟨0x040, 29, 1⟩
abbrev MP_CTL_LEN : Fld := ⟨0x040, 0, 9⟩
abbrev MP_CFG : Fld := ⟨0x044, 0, 32⟩
abbrev MP_CFG_REVIEW_S : Fld := ⟨0x044, 0, 32⟩
abbrev MP_PLAN_BASE_LO : Fld := ⟨0x048, 0, 32⟩
abbrev MP_PLAN_BASE_LO_BASE : Fld := ⟨0x048, 0, 32⟩
abbrev MP_PLAN_BASE_HI : Fld := ⟨0x04C, 0, 32⟩
abbrev MP_PLAN_BASE_HI_BASE : Fld := ⟨0x04C, 0, 32⟩
abbrev MP_STAT : Fld := ⟨0x050, 0, 32⟩
abbrev MP_STAT_RESULT : Fld := ⟨0x050, 24, 8⟩
abbrev MP_STAT_ENTRY : Fld := ⟨0x050, 16, 8⟩
abbrev MP_STAT_DERATE_PENDING : Fld := ⟨0x050, 2, 1⟩
abbrev MP_STAT_HELD : Fld := ⟨0x050, 1, 1⟩
abbrev MP_STAT_APPLYING : Fld := ⟨0x050, 0, 1⟩
abbrev MP_LIMITS : Fld := ⟨0x054, 0, 32⟩
abbrev MP_LIMITS_DERATE_FLOOR : Fld := ⟨0x054, 16, 10⟩
abbrev MP_LIMITS_GAIN_STEP_PCT : Fld := ⟨0x054, 0, 5⟩
abbrev MP_AVS : Fld := ⟨0x058, 0, 32⟩
abbrev MP_AVS_VREQ_MV : Fld := ⟨0x058, 16, 16⟩
abbrev MP_AVS_SLACK_MIN_PS : Fld := ⟨0x058, 0, 16⟩
abbrev MP_AVS_BND : Fld := ⟨0x05C, 0, 32⟩
abbrev MP_AVS_BND_VMAX_MV : Fld := ⟨0x05C, 20, 10⟩
abbrev MP_AVS_BND_VMIN_MV : Fld := ⟨0x05C, 10, 10⟩
abbrev MP_AVS_BND_SLACK_PS : Fld := ⟨0x05C, 0, 10⟩
abbrev MPLAN_IRQ_AVS_EMERG : Fld := ⟨0x010, 3, 1⟩
abbrev MPLAN_IRQ_REJECTED : Fld := ⟨0x010, 2, 1⟩
abbrev MPLAN_IRQ_APPLIED : Fld := ⟨0x010, 1, 1⟩
abbrev MPLAN_IRQ_REVIEW : Fld := ⟨0x010, 0, 1⟩

/-! ### Page type PCIE (R537) -/

abbrev PCIE_CTL : Fld := ⟨0x040, 0, 32⟩
abbrev PCIE_CTL_FAULT_VEC : Fld := ⟨0x040, 1, 1⟩
abbrev PCIE_CTL_WAKE_HOST : Fld := ⟨0x040, 0, 1⟩
abbrev PCIE_STAT : Fld := ⟨0x044, 0, 32⟩
abbrev PCIE_STAT_SPEED : Fld := ⟨0x044, 20, 4⟩
abbrev PCIE_STAT_WIDTH : Fld := ⟨0x044, 16, 4⟩
abbrev PCIE_STAT_L2_READY : Fld := ⟨0x044, 2, 1⟩
abbrev PCIE_STAT_PERST : Fld := ⟨0x044, 1, 1⟩
abbrev PCIE_STAT_DL_UP : Fld := ⟨0x044, 0, 1⟩
abbrev PCIE_EVENTS : Fld := ⟨0x048, 0, 32⟩
abbrev PCIE_EVENTS_LINK_DOWNS : Fld := ⟨0x048, 16, 16⟩
abbrev PCIE_EVENTS_RESETS : Fld := ⟨0x048, 0, 16⟩
abbrev PCIE_ERR : Fld := ⟨0x04C, 0, 32⟩
abbrev PCIE_ERR_CPL_TO : Fld := ⟨0x04C, 16, 16⟩
abbrev PCIE_ERR_POISONED : Fld := ⟨0x04C, 0, 16⟩
abbrev PCIE_CPL_ERR : Fld := ⟨0x050, 0, 32⟩
abbrev PCIE_CPL_ERR_CA : Fld := ⟨0x050, 16, 16⟩
abbrev PCIE_CPL_ERR_UR : Fld := ⟨0x050, 0, 16⟩
abbrev PCIE_IRQ_RESET : Fld := ⟨0x010, 2, 1⟩
abbrev PCIE_IRQ_LINK_DOWN : Fld := ⟨0x010, 1, 1⟩
abbrev PCIE_IRQ_LINK_UP : Fld := ⟨0x010, 0, 1⟩

/-! ### Page type ETH (R537) -/

abbrev ETH_CTL : Fld := ⟨0x040, 0, 32⟩
abbrev ETH_CTL_PTP_EN : Fld := ⟨0x040, 3, 1⟩
abbrev ETH_CTL_PROMISC : Fld := ⟨0x040, 2, 1⟩
abbrev ETH_CTL_RX_EN : Fld := ⟨0x040, 1, 1⟩
abbrev ETH_CTL_TX_EN : Fld := ⟨0x040, 0, 1⟩
abbrev ETH_STAT : Fld := ⟨0x044, 0, 32⟩
abbrev ETH_STAT_LISTENING : Fld := ⟨0x044, 3, 1⟩
abbrev ETH_STAT_SPEED : Fld := ⟨0x044, 1, 2⟩
abbrev ETH_STAT_LINK : Fld := ⟨0x044, 0, 1⟩
abbrev ETH_MAC_LO : Fld := ⟨0x048, 0, 32⟩
abbrev ETH_MAC_LO_VALUE : Fld := ⟨0x048, 0, 32⟩
abbrev ETH_MAC_HI : Fld := ⟨0x04C, 0, 32⟩
abbrev ETH_MAC_HI_VALUE : Fld := ⟨0x04C, 0, 32⟩
abbrev ETH_WAKE_CODE : Fld := ⟨0x050, 0, 32⟩
abbrev ETH_WAKE_CODE_VALUE : Fld := ⟨0x050, 0, 32⟩
abbrev ETH_TX_BASE_LO : Fld := ⟨0x054, 0, 32⟩
abbrev ETH_TX_BASE_LO_BASE : Fld := ⟨0x054, 0, 32⟩
abbrev ETH_TX_BASE_HI : Fld := ⟨0x058, 0, 32⟩
abbrev ETH_TX_BASE_HI_BASE : Fld := ⟨0x058, 0, 32⟩
abbrev ETH_RX_BASE_LO : Fld := ⟨0x05C, 0, 32⟩
abbrev ETH_RX_BASE_LO_BASE : Fld := ⟨0x05C, 0, 32⟩
abbrev ETH_RX_BASE_HI : Fld := ⟨0x060, 0, 32⟩
abbrev ETH_RX_BASE_HI_BASE : Fld := ⟨0x060, 0, 32⟩
abbrev ETH_RING_CFG : Fld := ⟨0x064, 0, 32⟩
abbrev ETH_RING_CFG_TX_LOG2 : Fld := ⟨0x064, 8, 4⟩
abbrev ETH_RING_CFG_RX_LOG2 : Fld := ⟨0x064, 0, 4⟩
abbrev ETH_TX_PROD : Fld := ⟨0x068, 0, 32⟩
abbrev ETH_TX_PROD_COUNT : Fld := ⟨0x068, 0, 16⟩
abbrev ETH_TX_CONS : Fld := ⟨0x06C, 0, 32⟩
abbrev ETH_TX_CONS_COUNT : Fld := ⟨0x06C, 0, 16⟩
abbrev ETH_RX_FREE : Fld := ⟨0x070, 0, 32⟩
abbrev ETH_RX_FREE_COUNT : Fld := ⟨0x070, 0, 16⟩
abbrev ETH_RX_PROD : Fld := ⟨0x074, 0, 32⟩
abbrev ETH_RX_PROD_COUNT : Fld := ⟨0x074, 0, 16⟩
abbrev ETH_PTP_LAT : Fld := ⟨0x078, 0, 32⟩
abbrev ETH_PTP_LAT_EGRESS_NS : Fld := ⟨0x078, 16, 16⟩
abbrev ETH_PTP_LAT_INGRESS_NS : Fld := ⟨0x078, 0, 16⟩
abbrev ETH_DROP : Fld := ⟨0x07C, 0, 32⟩
abbrev ETH_DROP_DROPPED : Fld := ⟨0x07C, 16, 16⟩
abbrev ETH_DROP_PTP_SEEN : Fld := ⟨0x07C, 0, 16⟩
abbrev ETH_IRQ_WAKE_FRAME : Fld := ⟨0x010, 2, 1⟩
abbrev ETH_IRQ_RX : Fld := ⟨0x010, 1, 1⟩
abbrev ETH_IRQ_TX : Fld := ⟨0x010, 0, 1⟩

/-! ### Page type CAN (R525, R537) -/

abbrev CAN_CTL : Fld := ⟨0x040, 0, 32⟩
abbrev CAN_CTL_BO_MANUAL : Fld := ⟨0x040, 3, 1⟩
abbrev CAN_CTL_FD_EN : Fld := ⟨0x040, 2, 1⟩
abbrev CAN_CTL_LISTEN : Fld := ⟨0x040, 1, 1⟩
abbrev CAN_CTL_RUN : Fld := ⟨0x040, 0, 1⟩
abbrev CAN_STAT : Fld := ⟨0x044, 0, 32⟩
abbrev CAN_STAT_TEC : Fld := ⟨0x044, 24, 8⟩
abbrev CAN_STAT_REC : Fld := ⟨0x044, 16, 8⟩
abbrev CAN_STAT_RX_LOST : Fld := ⟨0x044, 2, 14⟩
abbrev CAN_STAT_STATE : Fld := ⟨0x044, 0, 2⟩
abbrev CAN_BT_NOM : Fld := ⟨0x048, 0, 32⟩
abbrev CAN_BT_NOM_PRESC_M1 : Fld := ⟨0x048, 22, 5⟩
abbrev CAN_BT_NOM_TSEG1_M1 : Fld := ⟨0x048, 14, 8⟩
abbrev CAN_BT_NOM_TSEG2_M1 : Fld := ⟨0x048, 7, 7⟩
abbrev CAN_BT_NOM_SJW_M1 : Fld := ⟨0x048, 0, 7⟩
abbrev CAN_BT_DATA : Fld := ⟨0x04C, 0, 32⟩
abbrev CAN_BT_DATA_TDCO : Fld := ⟨0x04C, 24, 8⟩
abbrev CAN_BT_DATA_PRESC_M1 : Fld := ⟨0x04C, 19, 5⟩
abbrev CAN_BT_DATA_TSEG1_M1 : Fld := ⟨0x04C, 14, 5⟩
abbrev CAN_BT_DATA_TSEG2_M1 : Fld := ⟨0x04C, 10, 4⟩
abbrev CAN_BT_DATA_SJW_M1 : Fld := ⟨0x04C, 6, 4⟩
abbrev CAN_BT_DATA_TDC_EN : Fld := ⟨0x04C, 0, 1⟩
abbrev CAN_TX_REQ : Fld := ⟨0x050, 0, 32⟩
abbrev CAN_TX_REQ_BUF : Fld := ⟨0x050, 0, 16⟩
abbrev CAN_TX_DONE : Fld := ⟨0x054, 0, 32⟩
abbrev CAN_TX_DONE_BUF : Fld := ⟨0x054, 0, 16⟩
abbrev CAN_IRQ_BUS_OFF : Fld := ⟨0x010, 2, 1⟩
abbrev CAN_IRQ_TX_DONE : Fld := ⟨0x010, 1, 1⟩
abbrev CAN_IRQ_RX : Fld := ⟨0x010, 0, 1⟩
abbrev CAN_RX_BASE_LO : Fld := ⟨0x058, 0, 32⟩
abbrev CAN_RX_BASE_LO_BASE : Fld := ⟨0x058, 0, 32⟩
abbrev CAN_RX_BASE_HI : Fld := ⟨0x05C, 0, 32⟩
abbrev CAN_RX_BASE_HI_BASE : Fld := ⟨0x05C, 0, 32⟩
abbrev CAN_RX_CFG : Fld := ⟨0x060, 0, 32⟩
abbrev CAN_RX_CFG_SIZE_LOG2 : Fld := ⟨0x060, 0, 4⟩
abbrev CAN_RX_PROD : Fld := ⟨0x064, 0, 32⟩
abbrev CAN_RX_PROD_PHASE : Fld := ⟨0x064, 16, 1⟩
abbrev CAN_RX_PROD_PROD : Fld := ⟨0x064, 0, 16⟩
abbrev CAN_RX_CONS : Fld := ⟨0x068, 0, 32⟩
abbrev CAN_RX_CONS_CONS : Fld := ⟨0x068, 0, 16⟩
abbrev CAN_FLT_ID : Fld := ⟨0x100, 0, 32⟩
abbrev CAN_FLT_ID_EN : Fld := ⟨0x100, 31, 1⟩
abbrev CAN_FLT_ID_EXT : Fld := ⟨0x100, 30, 1⟩
abbrev CAN_FLT_ID_ID : Fld := ⟨0x100, 0, 29⟩
abbrev CAN_FLT_MASK : Fld := ⟨0x104, 0, 32⟩
abbrev CAN_FLT_MASK_MASK : Fld := ⟨0x104, 0, 29⟩
abbrev CAN_TXB : Fld := ⟨0x800, 0, 32⟩
abbrev CAN_TXB_DATA : Fld := ⟨0x800, 0, 32⟩

/-! ### Page type ACC (R528, R537) -/

abbrev ACC_CFG : Fld := ⟨0x040, 0, 32⟩
abbrev ACC_CFG_CMD0 : Fld := ⟨0x040, 24, 8⟩
abbrev ACC_CFG_CMD1 : Fld := ⟨0x040, 16, 8⟩
abbrev ACC_CFG_TWO_CMD : Fld := ⟨0x040, 15, 1⟩
abbrev ACC_CFG_INT_SHOCK : Fld := ⟨0x040, 14, 1⟩
abbrev ACC_CFG_RATE : Fld := ⟨0x040, 12, 2⟩
abbrev ACC_CFG_DIV : Fld := ⟨0x040, 8, 4⟩
abbrev ACC_CFG_MODE3 : Fld := ⟨0x040, 0, 1⟩
abbrev ACC_SHOCK : Fld := ⟨0x044, 0, 32⟩
abbrev ACC_SHOCK_THR : Fld := ⟨0x044, 0, 16⟩
abbrev ACC_XY : Fld := ⟨0x048, 0, 32⟩
abbrev ACC_XY_Y : Fld := ⟨0x048, 16, 16⟩
abbrev ACC_XY_X : Fld := ⟨0x048, 0, 16⟩
abbrev ACC_ZS : Fld := ⟨0x04C, 0, 32⟩
abbrev ACC_ZS_SUM : Fld := ⟨0x04C, 16, 16⟩
abbrev ACC_ZS_Z : Fld := ⟨0x04C, 0, 16⟩
abbrev ACC_IRQ_SHOCK : Fld := ⟨0x010, 1, 1⟩
abbrev ACC_IRQ_XFER_DONE : Fld := ⟨0x010, 0, 1⟩
abbrev ACC_XFER_TX : Fld := ⟨0x050, 0, 32⟩
abbrev ACC_XFER_TX_TX : Fld := ⟨0x050, 0, 32⟩
abbrev ACC_XFER_CTL : Fld := ⟨0x054, 0, 32⟩
abbrev ACC_XFER_CTL_GO : Fld := ⟨0x054, 31, 1⟩
abbrev ACC_XFER_CTL_BUSY : Fld := ⟨0x054, 30, 1⟩
abbrev ACC_XFER_CTL_RX_N : Fld := ⟨0x054, 4, 4⟩
abbrev ACC_XFER_CTL_TX_N : Fld := ⟨0x054, 0, 4⟩
abbrev ACC_XFER_RX : Fld := ⟨0x058, 0, 32⟩
abbrev ACC_XFER_RX_RX : Fld := ⟨0x058, 0, 32⟩

/-! ### Page type PMB (R537) -/

abbrev PMB_CFG : Fld := ⟨0x040, 0, 32⟩
abbrev PMB_CFG_ADDR : Fld := ⟨0x040, 16, 7⟩
abbrev PMB_CFG_SETTLE : Fld := ⟨0x040, 8, 8⟩
abbrev PMB_CFG_PEC : Fld := ⟨0x040, 1, 1⟩
abbrev PMB_CFG_EN : Fld := ⟨0x040, 0, 1⟩
abbrev PMB_STAT : Fld := ⟨0x044, 0, 32⟩
abbrev PMB_STAT_READ_MV : Fld := ⟨0x044, 16, 16⟩
abbrev PMB_STAT_EXP : Fld := ⟨0x044, 11, 5⟩
abbrev PMB_STAT_NAK : Fld := ⟨0x044, 2, 1⟩
abbrev PMB_STAT_FAULT : Fld := ⟨0x044, 1, 1⟩
abbrev PMB_STAT_BUSY : Fld := ⟨0x044, 0, 1⟩
abbrev PMB_STATUS : Fld := ⟨0x048, 0, 32⟩
abbrev PMB_STATUS_STATUS_WORD : Fld := ⟨0x048, 0, 16⟩
abbrev PMB_IRQ_VOUT_FAULT : Fld := ⟨0x010, 1, 1⟩
abbrev PMB_IRQ_ALERT : Fld := ⟨0x010, 0, 1⟩

/-! ### Page type GPIO (R537) -/

abbrev GPIO_DIR : Fld := ⟨0x040, 0, 32⟩
abbrev GPIO_DIR_PINS : Fld := ⟨0x040, 0, 32⟩
abbrev GPIO_OUT : Fld := ⟨0x044, 0, 32⟩
abbrev GPIO_OUT_PINS : Fld := ⟨0x044, 0, 32⟩
abbrev GPIO_IN : Fld := ⟨0x048, 0, 32⟩
abbrev GPIO_IN_PINS : Fld := ⟨0x048, 0, 32⟩
abbrev GPIO_ALT : Fld := ⟨0x04C, 0, 32⟩
abbrev GPIO_ALT_PINS : Fld := ⟨0x04C, 0, 32⟩
abbrev GPIO_IRQ_RISE : Fld := ⟨0x050, 0, 32⟩
abbrev GPIO_IRQ_RISE_PINS : Fld := ⟨0x050, 0, 32⟩
abbrev GPIO_IRQ_FALL : Fld := ⟨0x054, 0, 32⟩
abbrev GPIO_IRQ_FALL_PINS : Fld := ⟨0x054, 0, 32⟩
abbrev GPIO_IRQ_STAT : Fld := ⟨0x058, 0, 32⟩
abbrev GPIO_IRQ_STAT_PINS : Fld := ⟨0x058, 0, 32⟩
abbrev GPIO_FILT : Fld := ⟨0x05C, 0, 32⟩
abbrev GPIO_FILT_FILT_G : Fld := ⟨0x05C, 0, 8⟩
abbrev GPIO_IGN : Fld := ⟨0x060, 0, 32⟩
abbrev GPIO_IGN_IGN : Fld := ⟨0x060, 31, 1⟩
abbrev GPIO_EVT_LO : Fld := ⟨0x064, 0, 32⟩
abbrev GPIO_EVT_LO_VALUE : Fld := ⟨0x064, 0, 32⟩
abbrev GPIO_EVT_HI : Fld := ⟨0x068, 0, 32⟩
abbrev GPIO_EVT_HI_VALUE : Fld := ⟨0x068, 0, 32⟩
abbrev GPIO_EVT_CYC : Fld := ⟨0x06C, 0, 32⟩
abbrev GPIO_EVT_CYC_VALUE : Fld := ⟨0x06C, 0, 32⟩
abbrev GPIO_IRQ_EVT : Fld := ⟨0x010, 2, 1⟩
abbrev GPIO_IRQ_IGN : Fld := ⟨0x010, 1, 1⟩
abbrev GPIO_IRQ_PIN : Fld := ⟨0x010, 0, 1⟩

/-! ### Page type ID (R577) -/

abbrev ID_PART : Fld := ⟨0x040, 0, 32⟩
abbrev ID_PART_PART : Fld := ⟨0x040, 16, 16⟩
abbrev ID_PART_STEP : Fld := ⟨0x040, 8, 8⟩
abbrev ID_PART_GRADE : Fld := ⟨0x040, 0, 8⟩
abbrev ID_SERIAL_LO : Fld := ⟨0x044, 0, 32⟩
abbrev ID_SERIAL_LO_SERIAL : Fld := ⟨0x044, 0, 32⟩
abbrev ID_SERIAL_HI : Fld := ⟨0x048, 0, 32⟩
abbrev ID_SERIAL_HI_SERIAL : Fld := ⟨0x048, 0, 32⟩
abbrev ID_PCI : Fld := ⟨0x04C, 0, 32⟩
abbrev ID_PCI_DEVICE : Fld := ⟨0x04C, 16, 16⟩
abbrev ID_PCI_VENDOR : Fld := ⟨0x04C, 0, 16⟩
abbrev ID_BOOT : Fld := ⟨0x050, 0, 32⟩
abbrev ID_BOOT_ROLLBACK : Fld := ⟨0x050, 16, 16⟩
abbrev ID_BOOT_STATE : Fld := ⟨0x050, 0, 2⟩

/-! ### Page type CLK (R578) -/

abbrev CLK_STAT : Fld := ⟨0x040, 0, 32⟩
abbrev CLK_STAT_PCIE_LOCK : Fld := ⟨0x040, 7, 1⟩
abbrev CLK_STAT_SERDES_LOCK : Fld := ⟨0x040, 6, 1⟩
abbrev CLK_STAT_FLASH_LOCK : Fld := ⟨0x040, 5, 1⟩
abbrev CLK_STAT_MEM_LOCK : Fld := ⟨0x040, 4, 1⟩
abbrev CLK_STAT_CORE_LOCK : Fld := ⟨0x040, 3, 1⟩
abbrev CLK_STAT_MAIN_LOCK : Fld := ⟨0x040, 2, 1⟩
abbrev CLK_STAT_XTAL32_OK : Fld := ⟨0x040, 1, 1⟩
abbrev CLK_STAT_XTAL25_OK : Fld := ⟨0x040, 0, 1⟩

/-! ### Page type RST (R579) -/

abbrev RST_CTL : Fld := ⟨0x040, 0, 32⟩
abbrev RST_CTL_KEY : Fld := ⟨0x040, 8, 8⟩
abbrev RST_CTL_APP : Fld := ⟨0x040, 1, 1⟩
abbrev RST_CTL_WARM : Fld := ⟨0x040, 0, 1⟩
abbrev RST_CAUSE : Fld := ⟨0x044, 0, 32⟩
abbrev RST_CAUSE_DEBUG : Fld := ⟨0x044, 7, 1⟩
abbrev RST_CAUSE_LOCKSTEP : Fld := ⟨0x044, 6, 1⟩
abbrev RST_CAUSE_SW_WARM : Fld := ⟨0x044, 5, 1⟩
abbrev RST_CAUSE_RST_N : Fld := ⟨0x044, 4, 1⟩
abbrev RST_CAUSE_CLOCK : Fld := ⟨0x044, 3, 1⟩
abbrev RST_CAUSE_COMMIT_END : Fld := ⟨0x044, 2, 1⟩
abbrev RST_CAUSE_OFF_EXIT : Fld := ⟨0x044, 1, 1⟩
abbrev RST_CAUSE_SUPPLY : Fld := ⟨0x044, 0, 1⟩
abbrev RST_COUNT : Fld := ⟨0x048, 0, 32⟩
abbrev RST_COUNT_POR : Fld := ⟨0x048, 16, 16⟩
abbrev RST_COUNT_WARM : Fld := ⟨0x048, 0, 16⟩

/-! ### Page type FUSEMAP (R580) -/

abbrev FM_STAT : Fld := ⟨0x040, 0, 32⟩
abbrev FM_STAT_DBG_EN : Fld := ⟨0x040, 7, 1⟩
abbrev FM_STAT_SECURE : Fld := ⟨0x040, 6, 1⟩
abbrev FM_STAT_UNCORR : Fld := ⟨0x040, 5, 1⟩
abbrev FM_STAT_CORR : Fld := ⟨0x040, 4, 1⟩
abbrev FM_STAT_LOADED : Fld := ⟨0x040, 0, 1⟩
abbrev FM_ROLLBACK : Fld := ⟨0x044, 0, 32⟩
abbrev FM_ROLLBACK_INC : Fld := ⟨0x044, 31, 1⟩
abbrev FM_ROLLBACK_COUNT : Fld := ⟨0x044, 0, 6⟩
abbrev FM_BOOTKEY : Fld := ⟨0x048, 0, 32⟩
abbrev FM_BOOTKEY_DIGEST : Fld := ⟨0x048, 0, 32⟩

/-! ### Page type IRQ (R553) -/

abbrev IRQ_ROUTE : Fld := ⟨0x040, 0, 32⟩
abbrev IRQ_ROUTE_ROUTE : Fld := ⟨0x040, 0, 32⟩
abbrev IRQ_LEVEL : Fld := ⟨0x080, 0, 32⟩
abbrev IRQ_LEVEL_LEVEL : Fld := ⟨0x080, 0, 32⟩
abbrev IRQ_SW_SET_LO : Fld := ⟨0x0A0, 0, 32⟩
abbrev IRQ_SW_SET_LO_SET : Fld := ⟨0x0A0, 0, 32⟩
abbrev IRQ_SW_SET_HI : Fld := ⟨0x0A4, 0, 32⟩
abbrev IRQ_SW_SET_HI_SET : Fld := ⟨0x0A4, 0, 32⟩
abbrev IRQ_SW_CLR_LO : Fld := ⟨0x0A8, 0, 32⟩
abbrev IRQ_SW_CLR_LO_CLR : Fld := ⟨0x0A8, 0, 32⟩
abbrev IRQ_SW_CLR_HI : Fld := ⟨0x0AC, 0, 32⟩
abbrev IRQ_SW_CLR_HI_CLR : Fld := ⟨0x0AC, 0, 32⟩

/-! ### Page type FJ (R557) -/

abbrev FJ_STAT : Fld := ⟨0x040, 0, 32⟩
abbrev FJ_STAT_LOST : Fld := ⟨0x040, 16, 16⟩
abbrev FJ_STAT_COUNT : Fld := ⟨0x040, 0, 9⟩
abbrev FJ_HEAD : Fld := ⟨0x044, 0, 32⟩
abbrev FJ_HEAD_SEQ : Fld := ⟨0x044, 0, 32⟩
abbrev FJ_SEL : Fld := ⟨0x048, 0, 32⟩
abbrev FJ_SEL_AGE : Fld := ⟨0x048, 0, 8⟩
abbrev FJ_REC : Fld := ⟨0x04C, 0, 32⟩
abbrev FJ_REC_WORD : Fld := ⟨0x04C, 0, 32⟩
abbrev FJ_WIN : Fld := ⟨0x800, 0, 32⟩
abbrev FJ_WIN_WORD : Fld := ⟨0x800, 0, 32⟩
abbrev FJ_IRQ_LOST : Fld := ⟨0x010, 1, 1⟩
abbrev FJ_IRQ_RECORD : Fld := ⟨0x010, 0, 1⟩

/-! ### Page type header of every page (R452, R540, R541, R542, R543, R544, R545) -/

abbrev PG_CTL : Fld := ⟨0x008, 0, 32⟩
abbrev PG_CTL_FREEZE : Fld := ⟨0x008, 2, 1⟩
abbrev PG_CTL_SOFT_RESET : Fld := ⟨0x008, 1, 1⟩
abbrev PG_CTL_ENABLE : Fld := ⟨0x008, 0, 1⟩
abbrev PG_ID : Fld := ⟨0x000, 0, 32⟩
abbrev PG_ID_BLOCK : Fld := ⟨0x000, 16, 16⟩
abbrev PG_ID_INST : Fld := ⟨0x000, 8, 8⟩
abbrev PG_ID_INDEX : Fld := ⟨0x000, 0, 8⟩
abbrev PG_VER : Fld := ⟨0x004, 0, 32⟩
abbrev PG_VER_MAJOR : Fld := ⟨0x004, 16, 16⟩
abbrev PG_VER_MINOR : Fld := ⟨0x004, 0, 16⟩
abbrev PG_STAT : Fld := ⟨0x00C, 0, 32⟩
abbrev PG_STAT_PWR : Fld := ⟨0x00C, 8, 3⟩
abbrev PG_STAT_STALE : Fld := ⟨0x00C, 4, 1⟩
abbrev PG_STAT_DEGRADED : Fld := ⟨0x00C, 3, 1⟩
abbrev PG_STAT_FAULT : Fld := ⟨0x00C, 2, 1⟩
abbrev PG_STAT_BUSY : Fld := ⟨0x00C, 1, 1⟩
abbrev PG_STAT_READY : Fld := ⟨0x00C, 0, 1⟩
abbrev PG_IRQ_RAW : Fld := ⟨0x010, 0, 32⟩
abbrev PG_IRQ_RAW_RAW : Fld := ⟨0x010, 0, 32⟩
abbrev PG_IRQ_EN : Fld := ⟨0x014, 0, 32⟩
abbrev PG_IRQ_EN_EN : Fld := ⟨0x014, 0, 32⟩
abbrev PG_IRQ_PEND : Fld := ⟨0x018, 0, 32⟩
abbrev PG_IRQ_PEND_PEND : Fld := ⟨0x018, 0, 32⟩
abbrev PG_IRQ_CLR : Fld := ⟨0x01C, 0, 32⟩
abbrev PG_IRQ_CLR_CLR : Fld := ⟨0x01C, 0, 32⟩
abbrev PG_PWR_REQ : Fld := ⟨0x020, 0, 32⟩
abbrev PG_PWR_REQ_REQ : Fld := ⟨0x020, 28, 4⟩
abbrev PG_PWR_REQ_TARGET : Fld := ⟨0x020, 24, 3⟩
abbrev PG_PWR_REQ_SEQ : Fld := ⟨0x020, 0, 16⟩
abbrev PG_PWR_RESP : Fld := ⟨0x024, 0, 32⟩
abbrev PG_PWR_RESP_ANSWER : Fld := ⟨0x024, 30, 2⟩
abbrev PG_PWR_RESP_REASON : Fld := ⟨0x024, 16, 8⟩
abbrev PG_PWR_RESP_SEQ : Fld := ⟨0x024, 0, 16⟩
abbrev PG_PWR_POL : Fld := ⟨0x028, 0, 32⟩
abbrev PG_PWR_POL_POLICY : Fld := ⟨0x028, 0, 2⟩
abbrev PG_ERR_INFO : Fld := ⟨0x030, 0, 32⟩
abbrev PG_ERR_INFO_VALID : Fld := ⟨0x030, 31, 1⟩
abbrev PG_ERR_INFO_OVERFLOW : Fld := ⟨0x030, 30, 1⟩
abbrev PG_ERR_INFO_CODE : Fld := ⟨0x030, 16, 8⟩
abbrev PG_ERR_INFO_OFFSET : Fld := ⟨0x030, 0, 12⟩
abbrev PG_ERR_ADDR_LO : Fld := ⟨0x034, 0, 32⟩
abbrev PG_ERR_ADDR_LO_ADDR : Fld := ⟨0x034, 0, 32⟩
abbrev PG_ERR_ADDR_HI : Fld := ⟨0x038, 0, 32⟩
abbrev PG_ERR_ADDR_HI_REQ : Fld := ⟨0x038, 24, 8⟩
abbrev PG_ERR_ADDR_HI_ADDR_HI : Fld := ⟨0x038, 0, 24⟩
abbrev PG_ERR_COUNT : Fld := ⟨0x03C, 0, 32⟩
abbrev PG_ERR_COUNT_COUNT : Fld := ⟨0x03C, 0, 32⟩

end Sys2Proof.Machine
end

