-- ==== Sys2Proof/Machine/RegTable.lean ====
section
/-! DEFINITION. The register tables of the spec as data: for every register of every page type its offset,
how many there are and how far apart, its value after power-on reset (R24) and the bits of each access type
of R22. A reset value that the spec states as a word and no number (Fuses, Restored, Kept, Cause, Bay map,
per page) stands here as 0 and is supplied by the machine (notes/assumptions/3.md). -/

namespace Sys2Proof.Machine

open Sys2Proof

/-- The registers of page type TB (spec file 01). -/
def rowsTb : List RegRow := [
  ⟨0x40, 1, 4, 0x0, 0x0, 0x0, 0x0, 0x0, 0x0⟩, -- TB_GTIME_LO
  ⟨0x44, 1, 4, 0x0, 0x0, 0x0, 0x0, 0x0, 0x0⟩, -- TB_GTIME_HI
  ⟨0x48, 1, 4, 0x0, 0x1, 0x1, 0x0, 0x0, 0x0⟩, -- TB_CTL
  ⟨0x4C, 1, 4, 0x0, 0x0, 0x0, 0x0, 0x7, 0x0⟩, -- TB_STAT
  ⟨0x50, 1, 4, 0x0, 0xFFFFFFFF, 0xFFFFFFFF, 0x0, 0x0, 0x0⟩, -- TB_WALL_OFS_LO
  ⟨0x54, 1, 4, 0x0, 0xFFFFFFFF, 0xFFFFFFFF, 0x0, 0x0, 0x0⟩, -- TB_WALL_OFS_HI
  ⟨0x58, 1, 4, 0x0, 0xFFFFFFFF, 0xFFFFFFFF, 0x0, 0x0, 0x0⟩, -- TB_WALL_RATE
  ⟨0x5C, 1, 4, 0x0, 0x0, 0x0, 0x0, 0x0, 0x0⟩, -- TB_OVR_COUNT
  ⟨0x60, 1, 4, 0x0, 0x0, 0x0, 0x0, 0x0, 0x0⟩] -- TB_OVR_SRC

/-- The registers of page type TW (spec file 02). -/
def rowsTw : List RegRow := [
  ⟨0x40, 8, 4, 0x0, 0xFFFFFFFF, 0x0, 0x0, 0x0, 0x0⟩, -- TW_D
  ⟨0x60, 1, 4, 0x0, 0x0, 0x0, 0x1, 0x0, 0x0⟩, -- TW_DOORBELL
  ⟨0x64, 1, 4, 0x0, 0x0, 0x0, 0x0, 0x0, 0x0⟩, -- TW_RESULT
  ⟨0x68, 1, 4, 0x0, 0x0, 0x0, 0x0, 0x0, 0x0⟩, -- TW_LSN_LO
  ⟨0x6C, 1, 4, 0x0, 0x0, 0x0, 0x0, 0x0, 0x0⟩, -- TW_LSN_HI
  ⟨0x70, 1, 4, 0x0, 0xFFFFFFE0, 0x0, 0x0, 0x0, 0x0⟩, -- TW_CQ_BASE_LO
  ⟨0x74, 1, 4, 0x0, 0xFFFFFFFF, 0x0, 0x0, 0x0, 0x0⟩, -- TW_CQ_BASE_HI
  ⟨0x78, 1, 4, 0x400004, 0x9FFF000F, 0x0, 0x0, 0x0, 0x0⟩, -- TW_CQ_CFG
  ⟨0x7C, 1, 4, 0x10000, 0x0, 0x0, 0x0, 0x0, 0x0⟩, -- TW_CQ_PROD
  ⟨0x80, 1, 4, 0x0, 0xFFFF, 0x0, 0x0, 0x0, 0x0⟩, -- TW_CQ_CONS
  ⟨0x84, 1, 4, 0x0, 0x0, 0x0, 0x0, 0x0, 0x0⟩, -- TW_CQ_INC
  ⟨0x88, 1, 4, 0x0, 0x0, 0x0, 0x0, 0x0, 0x0⟩, -- TW_OUTST
  ⟨0x8C, 1, 4, 0x0, 0x0, 0x0, 0x0, 0x0, 0x0⟩] -- TW_REFUSALS

/-- The registers of page type LDG (spec file 02). -/
def rowsLdg : List RegRow := [
  ⟨0x40, 1, 4, 0x0, 0x3, 0x0, 0x0, 0x0, 0x0⟩, -- LDG_CTL
  ⟨0x44, 1, 4, 0x0, 0x0, 0x0, 0x0, 0x0, 0x0⟩, -- LDG_STAT
  ⟨0x48, 1, 4, 0x0, 0xFFFFFFFF, 0x0, 0x0, 0x0, 0x0⟩, -- LDG_OWNER_LO
  ⟨0x4C, 1, 4, 0x0, 0xFFFFFFFF, 0x0, 0x0, 0x0, 0x0⟩, -- LDG_OWNER_HI
  ⟨0x50, 1, 4, 0x0, 0x0, 0x0, 0x0, 0x0, 0x0⟩, -- LDG_NEXT_LSN_LO
  ⟨0x54, 1, 4, 0x0, 0x0, 0x0, 0x0, 0x0, 0x0⟩, -- LDG_NEXT_LSN_HI
  ⟨0x58, 1, 4, 0x0, 0x0, 0x0, 0x0, 0x0, 0x0⟩, -- LDG_LSN_LIMIT_LO
  ⟨0x5C, 1, 4, 0x0, 0x0, 0x0, 0x0, 0x0, 0x0⟩, -- LDG_LSN_LIMIT_HI
  ⟨0x60, 1, 4, 0x0, 0x0, 0x0, 0x0, 0x0, 0x0⟩, -- LDG_JRNL
  ⟨0x64, 1, 4, 0x0, 0x0, 0x0, 0x0, 0x0, 0x0⟩, -- LDG_CTX_OPEN
  ⟨0x68, 1, 4, 0x0, 0x0, 0x0, 0x0, 0x0, 0x0⟩] -- LDG_HOLDS

/-- The registers of page type RSV (spec file 03). -/
def rowsRsv : List RegRow := [
  ⟨0x40, 1, 4, 0x0, 0x0, 0x0, 0x0, 0x0, 0x0⟩, -- RSV_AVAIL
  ⟨0x44, 1, 4, 0x14C08, 0x0, 0x0, 0x0, 0x0, 0x0⟩, -- RSV_PROMISED
  ⟨0x48, 1, 4, 0x0, 0x0, 0x0, 0x0, 0x0, 0x0⟩, -- RSV_HELD
  ⟨0x4C, 1, 4, 0x14C08, 0xFFFFFFFF, 0xFFFFFFFF, 0x0, 0x0, 0x0⟩, -- RSV_E_FIXED
  ⟨0x50, 1, 4, 0xA00FA, 0xFFFFFFFF, 0xFFFFFFFF, 0x0, 0x0, 0x0⟩, -- RSV_E_UNIT
  ⟨0x54, 1, 4, 0x81, 0xFFFF, 0xFFFF, 0x0, 0x0, 0x0⟩, -- RSV_MIN
  ⟨0x58, 1, 4, 0x3840370, 0x3FF03FF, 0x3FF03FF, 0x0, 0x0, 0x0⟩, -- RSV_FACTORS
  ⟨0x5C, 1, 4, 0x4B01F40, 0xFFFFFFFF, 0xFFFFFFFF, 0x0, 0x0, 0x0⟩, -- RSV_FLOOR
  ⟨0x60, 1, 4, 0x2, 0x0, 0x0, 0x0, 0x0, 0x0⟩, -- RSV_STAT
  ⟨0x64, 1, 4, 0x0, 0x0, 0x0, 0x0, 0x0, 0x0⟩, -- RSV_REFUSALS
  ⟨0x68, 1, 4, 0x0, 0x0, 0x0, 0x0, 0x0, 0x0⟩, -- RSV_COMMIT_SEQ_LO
  ⟨0x6C, 1, 4, 0x0, 0x0, 0x0, 0x0, 0x0, 0x0⟩, -- RSV_COMMIT_SEQ_HI
  ⟨0x70, 1, 4, 0x0, 0x0, 0x0, 0x0, 0x0, 0x0⟩] -- RSV_COMMIT_INFO

/-- The registers of page type BANK (spec file 03). -/
def rowsBank : List RegRow := [
  ⟨0x40, 1, 4, 0x6, 0x6, 0x6, 0x0, 0x0, 0x1⟩, -- BANK_CTL
  ⟨0x44, 1, 4, 0xEA60FA32, 0xFFFFFF7F, 0xFFFFFF7F, 0x0, 0x0, 0x0⟩, -- BANK_MEAS_CFG
  ⟨0x48, 1, 4, 0x0, 0x0, 0x0, 0x0, 0x0, 0x0⟩, -- BANK_C
  ⟨0x4C, 1, 4, 0x0, 0x0, 0x0, 0x0, 0x0, 0x0⟩, -- BANK_ESR
  ⟨0x50, 1, 4, 0x0, 0x0, 0x0, 0x0, 0x0, 0x0⟩, -- BANK_V
  ⟨0x54, 1, 4, 0x0, 0x0, 0x0, 0x0, 0x0, 0x0⟩, -- BANK_VMOT
  ⟨0x58, 1, 4, 0x157C1400, 0xFFFFFF00, 0xFFFFFF00, 0x0, 0x0, 0x0⟩, -- BANK_PF_CFG
  ⟨0x5C, 1, 4, 0x6403E8, 0xFFFFFFFF, 0xFFFFFFFF, 0x0, 0x0, 0x0⟩, -- BANK_PLAUS
  ⟨0x60, 1, 4, 0x0, 0x0, 0x0, 0x0, 0x0, 0x0⟩] -- BANK_STAT

/-- The registers of page type FK (spec file 04). -/
def rowsFk : List RegRow := [
  ⟨0x40, 1, 4, 0x8, 0x1FFFFFF, 0x1FFFFFF, 0x0, 0x0, 0x0⟩, -- FK_CFG
  ⟨0x44, 1, 4, 0x0, 0x2, 0x2, 0x0, 0x0, 0x1⟩, -- FK_CTL
  ⟨0x48, 1, 4, 0x4, 0x0, 0x0, 0x0, 0xA, 0x0⟩, -- FK_STAT
  ⟨0x4C, 1, 4, 0x0, 0x0, 0x0, 0x0, 0x0, 0x0⟩, -- FK_LEVEL
  ⟨0x50, 1, 4, 0x200, 0x0, 0x0, 0x0, 0x0, 0x0⟩, -- FK_FREE
  ⟨0x54, 1, 4, 0x0, 0x0, 0x0, 0x0, 0x0, 0x0⟩, -- FK_ECC
  ⟨0x58, 1, 4, 0x0, 0xFFFFFFFF, 0x0, 0x0, 0x0, 0x0⟩, -- FK_DIAG_LO
  ⟨0x5C, 1, 4, 0x0, 0xFFFFFFFF, 0x0, 0x0, 0x0, 0x0⟩, -- FK_DIAG_HI
  ⟨0x60, 1, 4, 0x0, 0x0, 0x0, 0x3F, 0x0, 0x0⟩] -- FK_DIAG_END

/-- The registers of page type CV (spec file 04). -/
def rowsCv : List RegRow := [
  ⟨0x40, 1, 4, 0x0, 0xFFFF, 0x0, 0x0, 0x0, 0x0⟩, -- CV_CTX_SEL
  ⟨0x44, 1, 4, 0x0, 0xFFFFFFFF, 0x0, 0x0, 0x0, 0x0⟩, -- CV_RUN_LO
  ⟨0x48, 1, 4, 0x0, 0xFFFFFFFF, 0x0, 0x0, 0x0, 0x0⟩, -- CV_RUN_HI
  ⟨0x4C, 1, 4, 0x0, 0x0, 0x0, 0x0, 0x0, 0x0⟩, -- CV_STAT
  ⟨0x50, 1, 4, 0x0, 0x0, 0x0, 0x0, 0x0, 0x0⟩] -- CV_RECOV

/-- The registers of page type CHK (spec file 04). -/
def rowsChk : List RegRow := [
  ⟨0x40, 1, 4, 0x0, 0xFFFFFFFF, 0xFFFFFFFF, 0x0, 0x0, 0x0⟩, -- CHK_SHA_BASE_LO
  ⟨0x44, 1, 4, 0x0, 0xFFFFFFFF, 0xFFFFFFFF, 0x0, 0x0, 0x0⟩, -- CHK_SHA_BASE_HI
  ⟨0x48, 1, 4, 0x0, 0xFFFFFFFF, 0xFFFFFFFF, 0x0, 0x0, 0x0⟩, -- CHK_TRAIL_BASE_LO
  ⟨0x4C, 1, 4, 0x0, 0xFFFFFFFF, 0xFFFFFFFF, 0x0, 0x0, 0x0⟩, -- CHK_TRAIL_BASE_HI
  ⟨0x50, 1, 4, 0x0, 0x0, 0x0, 0x0, 0x0, 0x0⟩, -- CHK_SEAL_STAT
  ⟨0x54, 1, 4, 0x0, 0x0, 0x0, 0x0, 0x0, 0x0⟩, -- CHK_SEAL_COUNT
  ⟨0x58, 1, 4, 0x0, 0x0, 0x0, 0x0, 0x0, 0x0⟩, -- CHK_KEY_ID
  ⟨0x60, 16, 4, 0x0, 0x0, 0x0, 0x0, 0x0, 0x0⟩] -- CHK_PUBKEY

/-- The registers of page type FCH (spec file 05). -/
def rowsFch : List RegRow := [
  ⟨0x40, 1, 4, 0x400, 0xF3FFC, 0xF3FFC, 0x0, 0x0, 0x0⟩, -- FCH_PHY_CFG
  ⟨0x44, 1, 4, 0x1901E190, 0x3FFFFFFF, 0x3FFFFFFF, 0x0, 0x0, 0x0⟩, -- FCH_TIM0
  ⟨0x48, 1, 4, 0xC832028, 0x3FFFFFFF, 0x3FFFFFFF, 0x0, 0x0, 0x0⟩, -- FCH_TIM1
  ⟨0x4C, 1, 4, 0x4604, 0xFFFF, 0xFFFF, 0x0, 0x0, 0x0⟩, -- FCH_TIM2
  ⟨0x50, 1, 4, 0x1D4C09C4, 0xFFFFFFFF, 0xFFFFFFFF, 0x0, 0x0, 0x0⟩, -- FCH_ATO0
  ⟨0x54, 1, 4, 0x7D0096, 0xFFFFFFFF, 0xFFFFFFFF, 0x0, 0x0, 0x0⟩, -- FCH_ATO1
  ⟨0x58, 1, 4, 0x0, 0xFFFF0000, 0xFFFF0000, 0x0, 0x0, 0x0⟩, -- FCH_TGT
  ⟨0x5C, 1, 4, 0x0, 0x1F0002, 0x0, 0x0, 0x0, 0x1⟩, -- SEQ_CTL
  ⟨0x60, 1, 4, 0x0, 0xFFFFFFFF, 0x0, 0x0, 0x0, 0x0⟩, -- SEQ_ARG_LO
  ⟨0x64, 1, 4, 0x0, 0xFFFFFFFF, 0x0, 0x0, 0x0, 0x0⟩, -- SEQ_ARG_HI
  ⟨0x68, 1, 4, 0x0, 0xFFFFFFFF, 0x0, 0x0, 0x0, 0x0⟩, -- SEQ_BUF_LO
  ⟨0x6C, 1, 4, 0x0, 0xFFFFFFFF, 0x0, 0x0, 0x0, 0x0⟩, -- SEQ_BUF_HI
  ⟨0x70, 1, 4, 0x0, 0xFFFF, 0x0, 0x0, 0x0, 0x0⟩, -- SEQ_LEN
  ⟨0x74, 1, 4, 0x0, 0x0, 0x0, 0x0, 0x6, 0x0⟩, -- SEQ_STAT
  ⟨0x78, 1, 4, 0x0, 0x0, 0x0, 0x0, 0x0, 0x0⟩, -- FCH_LUN_STAT
  ⟨0x7C, 1, 4, 0x404, 0xFFFF, 0xFFFF, 0x0, 0x0, 0x0⟩, -- FCH_SUSP
  ⟨0x80, 1, 4, 0x0, 0x0, 0x0, 0x0, 0x0, 0x0⟩, -- FCH_TRAIN
  ⟨0x84, 1, 4, 0x0, 0x0, 0x0, 0x0, 0x0, 0x0⟩, -- FCH_STONE
  ⟨0x88, 1, 4, 0x10, 0x0, 0x0, 0x0, 0x0, 0x0⟩] -- FCH_SPARE

/-- The registers of page type BAY (spec file 05). -/
def rowsBay : List RegRow := [
  ⟨0x40, 1, 4, 0x1, 0x3, 0x3, 0x0, 0x0, 0x4⟩, -- BAY_CTL
  ⟨0x44, 1, 4, 0x0, 0x0, 0x0, 0x0, 0x800, 0x0⟩, -- BAY_STAT
  ⟨0x48, 1, 4, 0x30D40200, 0xFFFFFF00, 0xFFFFFF00, 0x0, 0x0, 0x0⟩, -- BAY_PRES_CFG
  ⟨0x4C, 1, 4, 0x61A800FA, 0xFFFFFFFF, 0xFFFFFFFF, 0x0, 0x0, 0x0⟩, -- BAY_PWR_CFG
  ⟨0x50, 1, 4, 0x0, 0x0, 0x0, 0x0, 0x0, 0x0⟩, -- BAY_GEOM0
  ⟨0x54, 1, 4, 0x0, 0x0, 0x0, 0x0, 0x0, 0x0⟩, -- BAY_GEOM1
  ⟨0x58, 1, 4, 0x0, 0x0, 0x0, 0x0, 0x0, 0x0⟩, -- BAY_IDENT
  ⟨0x5C, 1, 4, 0x0, 0xFFFFFFFF, 0x0, 0x0, 0x0, 0x0⟩, -- BAY_RCP_ADDR
  ⟨0x60, 1, 4, 0x0, 0xFFFFFFFF, 0x0, 0x0, 0x0, 0x0⟩, -- BAY_RCP_DATA
  ⟨0x64, 1, 4, 0x0, 0x0, 0x0, 0x0, 0x0, 0x0⟩, -- BAY_FREE
  ⟨0x68, 1, 4, 0x0, 0x0, 0x0, 0x0, 0x0, 0x0⟩] -- BAY_EVENTS

/-- The registers of page type FSCH (spec file 05). -/
def rowsFsch : List RegRow := [
  ⟨0x40, 1, 4, 0x1, 0x1, 0x1, 0x0, 0x0, 0x0⟩, -- FSCH_CTL
  ⟨0x44, 1, 4, 0x0, 0x0, 0x0, 0x0, 0x0, 0x0⟩, -- FSCH_STAT
  ⟨0x48, 1, 4, 0xF3C, 0xFFF, 0xFFF, 0x0, 0x0, 0x0⟩, -- FSCH_BUDGET
  ⟨0x4C, 1, 4, 0xA00FA, 0xFFFFFF, 0xFFFFFF, 0x0, 0x0, 0x0⟩] -- FSCH_AGE

/-- The registers of page type FINT (spec file 06). -/
def rowsFint : List RegRow := [
  ⟨0x40, 1, 4, 0x1E1401, 0xFFFF01, 0xFFFF01, 0x0, 0x0, 0x0⟩, -- FINT_CTL
  ⟨0x44, 1, 4, 0x500028, 0xFFF0FFF, 0xFFF0FFF, 0x0, 0x0, 0x0⟩, -- FINT_VERIFY
  ⟨0x48, 1, 4, 0xF0408, 0xFFFF0F, 0xFFFF0F, 0x0, 0x0, 0x0⟩, -- FINT_RETRY
  ⟨0x4C, 1, 4, 0x1B1B, 0xFFFFFFFF, 0xFFFFFFFF, 0x0, 0x0, 0x0⟩, -- FINT_LLR
  ⟨0x50, 1, 4, 0xA8, 0xFFFF, 0xFFFF, 0x0, 0x0, 0x0⟩, -- FINT_SCRUB
  ⟨0x54, 1, 4, 0x100008, 0xFFFF00FF, 0xFFFF00FF, 0x0, 0x0, 0x0⟩, -- FINT_DIE_LIMIT
  ⟨0x58, 1, 4, 0x0, 0x0, 0x0, 0x0, 0x0, 0x0⟩] -- FINT_DEC_STAT

/-- The registers of page type FSTR (spec file 06). -/
def rowsFstr : List RegRow := [
  ⟨0x40, 1, 4, 0x28160008, 0xFFFF001F, 0xFFFF001F, 0x0, 0x0, 0x0⟩, -- FSTR_CFG
  ⟨0x44, 1, 4, 0x0, 0x0, 0x0, 0x0, 0x0, 0x0⟩, -- FSTR_GEOM
  ⟨0x48, 1, 4, 0x9C4, 0xFFFF, 0xFFFF, 0x0, 0x0, 0x0⟩, -- FSTR_ROW
  ⟨0x4C, 1, 4, 0x0, 0x0, 0x0, 0x0, 0x0, 0x0⟩, -- FSTR_DEAD_LO
  ⟨0x50, 1, 4, 0x0, 0x0, 0x0, 0x0, 0x0, 0x0⟩, -- FSTR_DEAD_HI
  ⟨0x54, 1, 4, 0x0, 0x0, 0x0, 0x0, 0x0, 0x0⟩, -- FSTR_RO_LO
  ⟨0x58, 1, 4, 0x0, 0x0, 0x0, 0x0, 0x0, 0x0⟩, -- FSTR_RO_HI
  ⟨0x5C, 1, 4, 0x0, 0x3F, 0x0, 0x0, 0x0, 0x80000000⟩, -- FSTR_DIE_FAIL
  ⟨0x60, 1, 4, 0x0, 0x0, 0x0, 0x0, 0x0, 0x0⟩, -- FSTR_REBUILD
  ⟨0x64, 1, 4, 0x0, 0x0, 0x0, 0x0, 0x0, 0x0⟩, -- FSTR_WEAR
  ⟨0x68, 1, 4, 0x40BB8, 0xFFFFFF, 0xFFFFFF, 0x0, 0x0, 0x0⟩, -- FSTR_THRESH
  ⟨0x6C, 1, 4, 0x190180C8, 0xFFFFFFFF, 0xFFFFFFFF, 0x0, 0x0, 0x0⟩, -- FSTR_WL
  ⟨0x70, 1, 4, 0x0, 0xFFFFFFFF, 0x0, 0x0, 0x0, 0x0⟩, -- FSTR_RT_SEL
  ⟨0x74, 1, 4, 0x0, 0xFFFFFFFF, 0x0, 0x0, 0x0, 0x0⟩, -- FSTR_RT_LO
  ⟨0x78, 1, 4, 0x0, 0xFFFFFFFF, 0x0, 0x0, 0x0, 0x0⟩, -- FSTR_RT_HI
  ⟨0x7C, 1, 4, 0x0, 0x0, 0x0, 0x0, 0x0, 0x0⟩, -- FSTR_STONE
  ⟨0x80, 1, 4, 0x0, 0x0, 0x0, 0x0, 0x0, 0x0⟩] -- FSTR_STAT

/-- The registers of page type MC (spec file 07). -/
def rowsMc : List RegRow := [
  ⟨0x40, 1, 4, 0x3, 0x3, 0x0, 0x0, 0x0, 0x0⟩, -- MC_CTL
  ⟨0x44, 1, 4, 0x0, 0x0, 0x0, 0x0, 0x0, 0x0⟩, -- MC_STAT
  ⟨0x48, 1, 4, 0x0, 0xFFFFFFFF, 0x0, 0x0, 0x0, 0x0⟩, -- MC_LOCK
  ⟨0x4C, 1, 4, 0x0, 0xFFFFFFFF, 0x0, 0x0, 0x0, 0x0⟩, -- MC_PRE_ADDR_LO
  ⟨0x50, 1, 4, 0x0, 0xFFFFFFFF, 0x0, 0x0, 0x0, 0x0⟩, -- MC_PRE_ADDR_HI
  ⟨0x54, 1, 4, 0x0, 0xFFFF, 0x0, 0x0, 0x20000000, 0x80000000⟩, -- MC_PRE_CTL
  ⟨0x58, 1, 4, 0x2, 0x7, 0x0, 0x0, 0x0, 0x0⟩, -- MC_PF
  ⟨0x5C, 1, 4, 0x19, 0x7F, 0x0, 0x0, 0x0, 0x0⟩, -- MC_LS
  ⟨0x60, 1, 4, 0x0, 0x0, 0x0, 0x0, 0x0, 0x0⟩, -- MC_STONE
  ⟨0x64, 1, 4, 0x0, 0xFFFF, 0x0, 0x0, 0x0, 0x0⟩] -- MC_PRE_WAYS

/-- The registers of page type MAP (spec file 07). -/
def rowsMap : List RegRow := [
  ⟨0x40, 1, 4, 0x0, 0xFFFFFFFF, 0xFFFFFFFF, 0x0, 0x0, 0x0⟩, -- MAP_DESC_BASE_LO
  ⟨0x44, 1, 4, 0x0, 0xFFFFFFFF, 0xFFFFFFFF, 0x0, 0x0, 0x0⟩, -- MAP_DESC_BASE_HI
  ⟨0x48, 1, 4, 0x0, 0xFFFFFFFF, 0xFFFFFFFF, 0x0, 0x0, 0x0⟩, -- MAP_POOL_BASE_LO
  ⟨0x4C, 1, 4, 0x0, 0xFFFFFFFF, 0xFFFFFFFF, 0x0, 0x0, 0x0⟩, -- MAP_POOL_BASE_HI
  ⟨0x50, 1, 4, 0x0, 0xFFFFFFFF, 0xFFFFFFFF, 0x0, 0x0, 0x0⟩, -- MAP_POOL_PAGES
  ⟨0x54, 1, 4, 0x0, 0x0, 0x0, 0x0, 0x0, 0x0⟩, -- MAP_POOL_FREE
  ⟨0x58, 1, 4, 0x10000, 0xFFFFFFFF, 0xFFFFFFFF, 0x0, 0x0, 0x0⟩] -- MAP_CKPT

/-- The registers of page type DDR (spec file 07). -/
def rowsDdr : List RegRow := [
  ⟨0x40, 1, 4, 0x10B, 0x13F, 0x13F, 0x0, 0x0, 0x0⟩, -- DDR_CFG
  ⟨0x44, 1, 4, 0x0, 0x0, 0x0, 0x0, 0x0, 0x0⟩, -- DDR_STAT
  ⟨0x48, 1, 4, 0x0, 0x0, 0x0, 0x0, 0x0, 0x0⟩] -- DDR_ECC

/-- The registers of page type FTH (spec file 08). -/
def rowsFth : List RegRow := [
  ⟨0x40, 1, 4, 0xE00, 0xF03, 0xE03, 0x0, 0x0, 0x0⟩, -- FTH_CTL
  ⟨0x44, 1, 4, 0x0, 0x7, 0x7, 0x0, 0x0, 0x0⟩, -- FTH_MAP
  ⟨0x48, 1, 4, 0x800101D0, 0x800FFFFF, 0x800FFFFF, 0x0, 0x0, 0x0⟩, -- FTH_RATE
  ⟨0x4C, 1, 4, 0x60001804, 0xFF00000F, 0xFF00000F, 0x0, 0x0, 0x0⟩, -- FTH_AGC
  ⟨0x50, 1, 4, 0x460C, 0xFF1F, 0xFF1F, 0x0, 0x0, 0x0⟩, -- FTH_CTF
  ⟨0x54, 1, 4, 0x60C, 0xF0F, 0xF0F, 0x0, 0x0, 0x0⟩, -- FTH_TR
  ⟨0x58, 1, 4, 0xE, 0x1F, 0x1F, 0x0, 0x0, 0x0⟩, -- FTH_EQ_CFG
  ⟨0x5C, 8, 4, 0x0, 0xFFFFFFFF, 0xFFFFFFFF, 0x0, 0x0, 0x0⟩, -- FTH_EQ_TAP
  ⟨0x7C, 1, 4, 0x320404, 0xFFFFFF, 0xFFFFFF, 0x0, 0x0, 0x0⟩, -- FTH_DEFECT
  ⟨0x80, 1, 4, 0x9C41043, 0xFFFFFFFF, 0xFFFFFFFF, 0x0, 0x0, 0x0⟩, -- FTH_SYNC
  ⟨0x84, 1, 4, 0x204100A, 0xF0FFF1F, 0xF0FFF1F, 0x0, 0x0, 0x0⟩, -- FTH_DEC
  ⟨0x88, 1, 4, 0x180208, 0xFF0F0F, 0xFF0F0F, 0x0, 0x0, 0x0⟩, -- FTH_ITER
  ⟨0x8C, 1, 4, 0x0, 0xFFFFFFFF, 0x0, 0x0, 0x0, 0x0⟩, -- FTH_JOB_ADDR
  ⟨0x90, 1, 4, 0x61A80001, 0xFFFFFFFF, 0x0, 0x0, 0x0, 0x0⟩, -- FTH_JOB_CNT
  ⟨0x94, 1, 4, 0x0, 0xFFFFFFFF, 0x0, 0x0, 0x0, 0x0⟩, -- FTH_JOB_DST_LO
  ⟨0x98, 1, 4, 0x0, 0xFFFFFFFF, 0x0, 0x0, 0x0, 0x0⟩, -- FTH_JOB_DST_HI
  ⟨0x9C, 1, 4, 0x0, 0xFF0003, 0x0, 0x0, 0x0, 0xC0000000⟩, -- FTH_JOB_CTL
  ⟨0xA0, 1, 4, 0x0, 0x0, 0x0, 0x0, 0x0, 0x0⟩, -- FTH_JOB_STAT
  ⟨0xA4, 1, 4, 0x0, 0xFFFFFFFF, 0x0, 0x0, 0x0, 0x0⟩, -- FTH_RES_BASE_LO
  ⟨0xA8, 1, 4, 0x0, 0xFFFFFFFF, 0x0, 0x0, 0x0, 0x0⟩, -- FTH_RES_BASE_HI
  ⟨0xAC, 1, 4, 0x4, 0xF, 0x0, 0x0, 0x0, 0x0⟩, -- FTH_RES_CFG
  ⟨0xB0, 1, 4, 0x10000, 0x0, 0x0, 0x0, 0x0, 0x0⟩, -- FTH_RES_PROD
  ⟨0xB4, 1, 4, 0x0, 0xFFFF, 0x0, 0x0, 0x0, 0x0⟩, -- FTH_RES_CONS
  ⟨0xB8, 1, 4, 0x0, 0x0, 0x0, 0x0, 0x0, 0x0⟩, -- FTH_WOB
  ⟨0xBC, 1, 4, 0x0, 0x0, 0x0, 0x0, 0x0, 0x0⟩, -- FTH_WOB_STAT
  ⟨0xC0, 1, 4, 0x701, 0x1F0001, 0x1F0001, 0x0, 0x0, 0x0⟩, -- FTH_ADC
  ⟨0xC4, 1, 4, 0x0, 0x0, 0x0, 0x0, 0x0, 0x0⟩, -- FTH_TILT
  ⟨0xC8, 1, 4, 0x0, 0x0, 0x0, 0x0, 0x0, 0x0⟩, -- FTH_STONE0
  ⟨0xCC, 1, 4, 0x0, 0x0, 0x0, 0x0, 0x0, 0x0⟩] -- FTH_STONE1

/-- The registers of page type FTHX (spec file 08). -/
def rowsFthx : List RegRow := [
  ⟨0x40, 1, 4, 0x0, 0x0, 0x0, 0x0, 0x0, 0x0⟩, -- FTHX_ITER_STAT
  ⟨0x44, 1, 4, 0x4E2, 0xFFFF, 0xFFFF, 0x0, 0x0, 0x0⟩, -- FTHX_BUDGET
  ⟨0x48, 1, 4, 0x0, 0x0, 0x0, 0x0, 0x0, 0x0⟩, -- FTHX_ECC
  ⟨0x4C, 1, 4, 0x0, 0x0, 0x0, 0x0, 0x0, 0x0⟩] -- FTHX_STONE

/-- The registers of page type OWP (spec file 09). -/
def rowsOwp : List RegRow := [
  ⟨0x40, 1, 4, 0x400, 0xF33, 0xF13, 0x0, 0x0, 0x0⟩, -- WP_CTL
  ⟨0x44, 1, 4, 0x0, 0xFFFFFFFF, 0x0, 0x0, 0x0, 0x0⟩, -- WP_JOB_ADDR
  ⟨0x48, 1, 4, 0x1, 0xFFFFFFFF, 0x0, 0x0, 0x0, 0x0⟩, -- WP_JOB_CNT
  ⟨0x4C, 1, 4, 0x0, 0xFFFFFFFF, 0x0, 0x0, 0x0, 0x0⟩, -- WP_JOB_SRC_LO
  ⟨0x50, 1, 4, 0x0, 0xFFFFFFFF, 0x0, 0x0, 0x0, 0x0⟩, -- WP_JOB_SRC_HI
  ⟨0x54, 1, 4, 0x0, 0xFF0000, 0x0, 0x0, 0x0, 0xC0000000⟩, -- WP_JOB_CTL
  ⟨0x58, 1, 4, 0x0, 0x0, 0x0, 0x0, 0x0, 0x0⟩, -- WP_JOB_STAT
  ⟨0x5C, 1, 4, 0x7FF0000, 0xFFFF0000, 0xFFFF0000, 0x0, 0x0, 0x0⟩, -- WP_INH
  ⟨0x60, 1, 4, 0x61A808FA, 0xFFFFFFFF, 0xFFFFFFFF, 0x0, 0x0, 0x0⟩, -- WP_RESUME
  ⟨0x64, 1, 4, 0x2000200, 0xFFF0FFF, 0xFFF0FFF, 0x0, 0x0, 0x0⟩, -- WP_FAST
  ⟨0x68, 1, 4, 0x0, 0x3FF03FF, 0x3FF03FF, 0x0, 0x0, 0x0⟩, -- WP_LEVEL0
  ⟨0x6C, 1, 4, 0x0, 0x3FF03FF, 0x3FF03FF, 0x0, 0x0, 0x0⟩, -- WP_LEVEL1
  ⟨0x70, 1, 4, 0x0, 0x3FF03FF, 0x3FF03FF, 0x0, 0x0, 0x0⟩, -- WP_LEVEL2
  ⟨0x74, 1, 4, 0x43FF03FF, 0xFFFF03FF, 0xFFFF03FF, 0x0, 0x0, 0x0⟩, -- WP_CEIL
  ⟨0x78, 1, 4, 0x100, 0xFF33, 0xFF33, 0x0, 0x0, 0x0⟩, -- WP_SPI_CFG
  ⟨0x7C, 1, 4, 0x0, 0xFFFFFFFF, 0xFFFFFFFF, 0x0, 0x0, 0x0⟩, -- WP_SPI_ADDR
  ⟨0x80, 1, 4, 0x0, 0xFFFFFFFF, 0x0, 0x0, 0x0, 0x0⟩, -- WS_SEL
  ⟨0x84, 1, 4, 0x1030C20, 0xFFFFFFFF, 0xFFFFFFFF, 0x0, 0x0, 0x0⟩, -- WS_DATA
  ⟨0x88, 1, 4, 0x0, 0xFFFFFFFF, 0x0, 0x0, 0x0, 0x0⟩, -- WP_VFY_SRC_LO
  ⟨0x8C, 1, 4, 0x0, 0xFFFFFFFF, 0x0, 0x0, 0x0, 0x0⟩, -- WP_VFY_SRC_HI
  ⟨0x90, 1, 4, 0x10042008, 0xFFFFFFFF, 0xFFFFFFFF, 0x0, 0x0, 0x0⟩, -- WP_VMARGIN
  ⟨0x94, 1, 4, 0x0, 0xFFFFFF, 0xFFFFFF, 0x0, 0x0, 0x0⟩, -- WP_DENSE
  ⟨0x98, 1, 4, 0x0, 0xFFFFFFFF, 0x0, 0x0, 0x0, 0x0⟩, -- WP_RES_BASE_LO
  ⟨0x9C, 1, 4, 0x0, 0xFFFFFFFF, 0x0, 0x0, 0x0, 0x0⟩, -- WP_RES_BASE_HI
  ⟨0xA0, 1, 4, 0x4, 0xF, 0x0, 0x0, 0x0, 0x0⟩, -- WP_RES_CFG
  ⟨0xA4, 1, 4, 0x10000, 0x0, 0x0, 0x0, 0x0, 0x0⟩, -- WP_RES_PROD
  ⟨0xA8, 1, 4, 0x0, 0xFFFF, 0x0, 0x0, 0x0, 0x0⟩] -- WP_RES_CONS

/-- The registers of page type WENC (spec file 09). -/
def rowsWenc : List RegRow := [
  ⟨0x40, 1, 4, 0x0, 0xFFFFFFFF, 0x0, 0x0, 0x0, 0x0⟩, -- ENC_SRC_LO
  ⟨0x44, 1, 4, 0x0, 0xFFFFFFFF, 0x0, 0x0, 0x0, 0x0⟩, -- ENC_SRC_HI
  ⟨0x48, 1, 4, 0x0, 0xFFFFFFFF, 0x0, 0x0, 0x0, 0x0⟩, -- ENC_UCD_LO
  ⟨0x4C, 1, 4, 0x0, 0xFFFFFFFF, 0x0, 0x0, 0x0, 0x0⟩, -- ENC_UCD_HI
  ⟨0x50, 1, 4, 0x0, 0xFFFFFFFF, 0x0, 0x0, 0x0, 0x0⟩, -- ENC_DST_LO
  ⟨0x54, 1, 4, 0x0, 0xFFFFFFFF, 0x0, 0x0, 0x0, 0x0⟩, -- ENC_DST_HI
  ⟨0x58, 1, 4, 0x0, 0xFFFFFFFF, 0x0, 0x0, 0x0, 0x0⟩, -- ENC_REF_LO
  ⟨0x5C, 1, 4, 0x0, 0xFFFFFFFF, 0x0, 0x0, 0x0, 0x0⟩, -- ENC_REF_HI
  ⟨0x60, 1, 4, 0x0, 0xFFFFFFFF, 0x0, 0x0, 0x0, 0x0⟩, -- ENC_ADDR
  ⟨0x64, 1, 4, 0x1, 0xF3FFFF, 0x0, 0x0, 0x0, 0x80000000⟩, -- ENC_CTL
  ⟨0x68, 1, 4, 0x0, 0x0, 0x0, 0x0, 0x0, 0x0⟩] -- ENC_STAT

/-- The registers of page type WARC (spec file 09). -/
def rowsWarc : List RegRow := [
  ⟨0x40, 1, 4, 0x0, 0xFFFFFFFF, 0x0, 0x0, 0x0, 0x0⟩, -- AR_TBL_BASE_LO
  ⟨0x44, 1, 4, 0x0, 0xFFFFFFFF, 0x0, 0x0, 0x0, 0x0⟩, -- AR_TBL_BASE_HI
  ⟨0x48, 1, 4, 0x0, 0x3000FFF, 0x0, 0x0, 0x0, 0x80000000⟩, -- AR_CMD
  ⟨0x4C, 1, 4, 0x0, 0x0, 0x0, 0x0, 0x0, 0x0⟩, -- AR_STAT
  ⟨0x50, 1, 4, 0x0, 0x0, 0x0, 0x0, 0x0, 0x0⟩] -- AR_COUNT

/-- The registers of page type ELL (spec file 10). -/
def rowsEll : List RegRow := [
  ⟨0x40, 1, 4, 0x1, 0x1, 0x1, 0x0, 0x0, 0x0⟩, -- ELL_CTL
  ⟨0x44, 1, 4, 0xF00, 0xFF0000, 0xFF0000, 0x0, 0x2, 0x0⟩, -- ELL_STAT
  ⟨0x48, 1, 4, 0x0, 0x3F, 0x0, 0x0, 0x0, 0x0⟩, -- ELL_SLOT_SEL
  ⟨0x4C, 1, 4, 0x0, 0xFFF0FF00, 0x0, 0x0, 0x0, 0x0⟩, -- SLOT_CFG
  ⟨0x50, 1, 4, 0x606060, 0xFFFFFF, 0x0, 0x0, 0x0, 0x0⟩, -- SLOT_SRC
  ⟨0x54, 6, 4, 0x0, 0xFFFFFFFF, 0x0, 0x0, 0x0, 0x0⟩, -- SLOT_C
  ⟨0x6C, 1, 4, 0x0, 0x3FFFFFFF, 0x0, 0x0, 0x0, 0x0⟩, -- SLOT_SH
  ⟨0x70, 1, 4, 0x7FFFFFFF, 0xFFFFFFFF, 0x0, 0x0, 0x0, 0x0⟩, -- SLOT_LIM_HI
  ⟨0x74, 1, 4, 0x80000000, 0xFFFFFFFF, 0x0, 0x0, 0x0, 0x0⟩, -- SLOT_LIM_LO
  ⟨0x78, 1, 4, 0x191000, 0xFFFFFFFF, 0x0, 0x0, 0x0, 0x0⟩, -- SLOT_FE
  ⟨0x7C, 1, 4, 0x0, 0x0, 0x0, 0x0, 0x0, 0x3⟩, -- SLOT_COMMIT
  ⟨0x80, 4, 4, 0x0, 0x0, 0x0, 0x0, 0x0, 0x0⟩, -- SLOT_STATE
  ⟨0x90, 1, 4, 0x0, 0x0, 0x0, 0x0, 0x0, 0x0⟩, -- SLOT_FE_STAT
  ⟨0x94, 1, 4, 0x0, 0xFFFFFFFF, 0x0, 0x0, 0x0, 0x0⟩, -- ELL_FF_SEL
  ⟨0x98, 1, 4, 0x0, 0xFFFFFFFF, 0x0, 0x0, 0x0, 0x0⟩, -- ELL_FF_DATA
  ⟨0x9C, 1, 4, 0x0, 0x0, 0x0, 0x0, 0x0, 0x0⟩] -- ELL_STONE

/-- The registers of page type OPS (spec file 10). -/
def rowsOps : List RegRow := [
  ⟨0x40, 5, 4, 0x0, 0xFFF0FFF, 0xFFF0FFF, 0x0, 0x0, 0x0⟩, -- OPS_PD_OFS
  ⟨0x54, 1, 4, 0x0, 0xFFFFFFFF, 0x0, 0x0, 0x0, 0x0⟩, -- OPS_MTX_SEL
  ⟨0x58, 1, 4, 0x0, 0xFFFFFFFF, 0xFFFFFFFF, 0x0, 0x0, 0x0⟩, -- OPS_MTX_DATA
  ⟨0x5C, 1, 4, 0x1000, 0x7FFFFFFF, 0x7FFFFFFF, 0x0, 0x0, 0x0⟩, -- OPS_NORM
  ⟨0x60, 1, 4, 0x0, 0x0, 0x0, 0xF00000FF, 0x0, 0x0⟩, -- OPS_CMD
  ⟨0x64, 1, 4, 0x0, 0x0, 0x0, 0x0, 0x0, 0x0⟩, -- OPS_STAT
  ⟨0x68, 1, 4, 0x0, 0x7F, 0x0, 0x0, 0x0, 0x0⟩, -- OPS_LOOP
  ⟨0x6C, 1, 4, 0x4000C000, 0xFFFFFFFF, 0xFFFFFFFF, 0x0, 0x0, 0x0⟩, -- OPS_SEARCH
  ⟨0x70, 1, 4, 0x20000002, 0xFFFF03FF, 0xFFFF03FF, 0x0, 0x0, 0x0⟩, -- OPS_SEARCH2
  ⟨0x74, 1, 4, 0x10004008, 0xFFFFFFFF, 0xFFFFFFFF, 0x0, 0x0, 0x0⟩, -- OPS_JUMP
  ⟨0x78, 1, 4, 0x204000FA, 0xFFFFFFFF, 0xFFFFFFFF, 0x0, 0x0, 0x0⟩, -- OPS_TIMES
  ⟨0x7C, 1, 4, 0x191909C4, 0xFFFFFFFF, 0xFFFFFFFF, 0x0, 0x0, 0x0⟩, -- OPS_LJ
  ⟨0x80, 1, 4, 0x8000000, 0xFFFFFFFF, 0xFFFFFFFF, 0x0, 0x0, 0x0⟩, -- OPS_FCODE
  ⟨0x84, 4, 4, 0x0, 0xFFFFFFFF, 0xFFFFFFFF, 0x0, 0x0, 0x0⟩, -- OPS_LTAB
  ⟨0x94, 1, 4, 0x19064190, 0x3FFFFFFF, 0x3FFFFFFF, 0x0, 0x0, 0x0⟩, -- OPS_ILIM
  ⟨0x98, 1, 4, 0x10000803, 0xFFFFFF03, 0xFFFFFF03, 0x0, 0x0, 0x0⟩, -- OPS_FL
  ⟨0x9C, 1, 4, 0x90006000, 0xFFFFFFFF, 0xFFFFFFFF, 0x0, 0x0, 0x0⟩, -- OPS_GLIM
  ⟨0xA0, 1, 4, 0x0, 0xFFFFFFFF, 0x0, 0x0, 0x0, 0x0⟩, -- OPS_SETPT0
  ⟨0xA4, 1, 4, 0x0, 0xFFFFFFFF, 0x0, 0x0, 0x0, 0x0⟩, -- OPS_SETPT1
  ⟨0xA8, 1, 4, 0x0, 0x0, 0x0, 0x0, 0x0, 0x0⟩, -- OPS_DRIVE0
  ⟨0xAC, 1, 4, 0x80000000, 0x0, 0x0, 0x0, 0x0, 0x0⟩, -- OPS_DRIVE1
  ⟨0xB0, 1, 4, 0x40, 0xFFFF, 0xFFFF, 0x0, 0x0, 0x0⟩] -- OPS_SLED

/-- The registers of page type CMT (spec file 11). -/
def rowsCmt : List RegRow := [
  ⟨0x40, 1, 4, 0x308, 0xF0F, 0xF0F, 0x0, 0x0, 0x0⟩, -- CMT_CTL
  ⟨0x44, 1, 4, 0x0, 0x0, 0x0, 0xF0000000, 0x0, 0x0⟩, -- CMT_CMD
  ⟨0x48, 1, 4, 0x0, 0x0, 0x0, 0x0, 0x0, 0x0⟩, -- CMT_STAT
  ⟨0x4C, 1, 4, 0x7D0000A, 0xFFF00FF, 0xFFF00FF, 0x0, 0x0, 0x0⟩, -- CMT_PWM
  ⟨0x50, 1, 4, 0x80A0F, 0xFFFFFF, 0xFFFFFF, 0x0, 0x0, 0x0⟩, -- CMT_COMM
  ⟨0x54, 1, 4, 0x1000000, 0xFFFFFFFF, 0xFFFFFFFF, 0x0, 0x0, 0x0⟩, -- CMT_DUTY
  ⟨0x58, 1, 4, 0x1F400FA0, 0xFFFFFFFF, 0xFFFFFFFF, 0x0, 0x0, 0x0⟩, -- CMT_ILIM
  ⟨0x5C, 1, 4, 0xC35030D4, 0xFFFFFFFF, 0xFFFFFFFF, 0x0, 0x0, 0x0⟩, -- CMT_START0
  ⟨0x60, 1, 4, 0x258003C, 0xFFFFFFFF, 0xFFFFFFFF, 0x0, 0x0, 0x0⟩, -- CMT_START1
  ⟨0x64, 1, 4, 0x30CCD, 0xFFFFF, 0xFFFFF, 0x0, 0x0, 0x0⟩, -- CMT_START2
  ⟨0x68, 1, 4, 0x61A81902, 0xFFFFFF0F, 0xFFFFFF0F, 0x0, 0x0, 0x0⟩, -- CMT_OBS
  ⟨0x6C, 1, 4, 0x61A8012C, 0xFFFFFFFF, 0xFFFFFFFF, 0x0, 0x0, 0x0⟩, -- CMT_CATCH
  ⟨0x70, 1, 4, 0x2710001E, 0xFFFFFFFF, 0xFFFFFFFF, 0x0, 0x0, 0x0⟩, -- CMT_BRAKE
  ⟨0x74, 1, 4, 0x0, 0xFFFF, 0xFFFF, 0x0, 0x0, 0x0⟩, -- CMT_KE
  ⟨0x78, 1, 4, 0x1902710, 0xFFFFFFFF, 0xFFFFFFFF, 0x0, 0x0, 0x0⟩, -- CMT_SHUNT
  ⟨0x7C, 1, 4, 0x3E803E8, 0xFFFFFFFF, 0xFFFFFFFF, 0x0, 0x0, 0x0⟩, -- CMT_GATE
  ⟨0x80, 1, 4, 0x20A99, 0x3FFFF, 0x3FFFF, 0x0, 0x0, 0x0⟩, -- CMT_HALL
  ⟨0x84, 1, 4, 0x0, 0x0, 0x0, 0x0, 0x0, 0x0⟩, -- CMT_SPEED
  ⟨0x88, 1, 4, 0x0, 0x0, 0x0, 0x0, 0x0, 0x0⟩, -- CMT_CUR
  ⟨0x8C, 1, 4, 0x0, 0x0, 0x0, 0x0, 0x0, 0x0⟩, -- CMT_IPH0
  ⟨0x90, 1, 4, 0x0, 0x0, 0x0, 0x0, 0x0, 0x0⟩, -- CMT_IPH1
  ⟨0x94, 1, 4, 0x0, 0x0, 0x0, 0x0, 0x0, 0x0⟩] -- CMT_STONE

/-- The registers of page type VBUS (spec file 11). -/
def rowsVbus : List RegRow := [
  ⟨0x40, 1, 4, 0x3, 0x3, 0x3, 0x0, 0x0, 0x0⟩, -- VBUS_CTL
  ⟨0x44, 1, 4, 0x75306F54, 0xFFFFFFFF, 0xFFFFFFFF, 0x0, 0x0, 0x0⟩, -- VBUS_CHOP
  ⟨0x48, 1, 4, 0x7D00, 0xFFFF, 0xFFFF, 0x0, 0x0, 0x0⟩, -- VBUS_REGEN
  ⟨0x4C, 1, 4, 0x84D01900, 0xFFFFFF00, 0xFFFFFF00, 0x0, 0x0, 0x0⟩, -- VBUS_LIMIT
  ⟨0x50, 1, 4, 0x9470, 0xFFFF, 0xFFFF, 0x0, 0x0, 0x0⟩, -- VBUS_ABS
  ⟨0x54, 1, 4, 0x1F40014, 0xFFFFFFFF, 0xFFFFFFFF, 0x0, 0x0, 0x0⟩, -- VBUS_CHK
  ⟨0x58, 1, 4, 0x0, 0x0, 0x0, 0x0, 0xE, 0x0⟩, -- VBUS_STAT
  ⟨0x5C, 1, 4, 0x0, 0x0, 0x0, 0x0, 0x0, 0x0⟩] -- VBUS_VMAX

/-- The registers of page type AX (spec file 12). -/
def rowsAx : List RegRow := [
  ⟨0x40, 1, 4, 0x8, 0x7FF, 0x7FF, 0x0, 0x0, 0x0⟩, -- CHN_CTL
  ⟨0x44, 1, 4, 0x0, 0x0, 0x0, 0xF0000000, 0x0, 0x0⟩, -- CHN_CMD
  ⟨0x48, 1, 4, 0x0, 0x0, 0x0, 0x0, 0x20, 0x0⟩, -- CHN_STAT
  ⟨0x4C, 1, 4, 0x0, 0xFFFFFFFF, 0x0, 0x0, 0x0, 0x0⟩, -- CHN_TARGET
  ⟨0x50, 1, 4, 0x0, 0x0, 0x0, 0x0, 0x0, 0x0⟩, -- CHN_POS
  ⟨0x54, 1, 4, 0x80000000, 0xFFFFFFFF, 0xFFFFFFFF, 0x0, 0x0, 0x0⟩, -- CHN_VMAX
  ⟨0x58, 1, 4, 0x8000000, 0xFFFFFFFF, 0xFFFFFFFF, 0x0, 0x0, 0x0⟩, -- CHN_VMIN
  ⟨0x5C, 1, 4, 0x800000, 0xFFFFFFFF, 0xFFFFFFFF, 0x0, 0x0, 0x0⟩, -- CHN_ACC
  ⟨0x60, 1, 4, 0x800000, 0xFFFFFFFF, 0xFFFFFFFF, 0x0, 0x0, 0x0⟩, -- CHN_DEC
  ⟨0x64, 1, 4, 0x800000, 0x0, 0x0, 0x0, 0x0, 0x0⟩, -- CHN_DEC_USE
  ⟨0x68, 1, 4, 0x0, 0x0, 0x0, 0x0, 0x0, 0x0⟩, -- CHN_VEL
  ⟨0x6C, 1, 4, 0x80000000, 0xFFFFFFFF, 0xFFFFFFFF, 0x0, 0x0, 0x0⟩, -- CHN_POS_MIN
  ⟨0x70, 1, 4, 0x7FFFFFFF, 0xFFFFFFFF, 0xFFFFFFFF, 0x0, 0x0, 0x0⟩, -- CHN_POS_MAX
  ⟨0x74, 1, 4, 0x10000000, 0xFFFFFFFF, 0xFFFFFFFF, 0x0, 0x0, 0x0⟩, -- CHN_HOME_V
  ⟨0x78, 1, 4, 0x13880000, 0xFFFF0001, 0xFFFF0001, 0x0, 0x0, 0x0⟩, -- CHN_HOME_CFG
  ⟨0x7C, 1, 4, 0x0, 0xFFFFFFFF, 0xFFFFFFFF, 0x0, 0x0, 0x0⟩, -- CHN_HOME_POS
  ⟨0x80, 1, 4, 0x2584B096, 0x3FFFFFFF, 0x3FFFFFFF, 0x0, 0x0, 0x0⟩, -- CHN_CUR
  ⟨0x84, 1, 4, 0x80400419, 0xFFFFFFFF, 0xFFFFFFFF, 0x0, 0x0, 0x0⟩, -- CHN_LOAD
  ⟨0x88, 1, 4, 0x0, 0x0, 0x0, 0x0, 0x0, 0x0⟩, -- CHN_ISTAT
  ⟨0x8C, 1, 4, 0x190020, 0xFFFFFFFF, 0xFFFFFFFF, 0x0, 0x0, 0x0⟩, -- CHN_DEV
  ⟨0x90, 1, 4, 0x10000, 0xFFFFFFFF, 0xFFFFFFFF, 0x0, 0x0, 0x0⟩, -- CHN_ENC_SCALE
  ⟨0x94, 1, 4, 0x0, 0x0, 0x0, 0x0, 0x0, 0x0⟩, -- CHN_DEVIATION
  ⟨0x98, 1, 4, 0x10000, 0xFFFFFFFF, 0x0, 0x0, 0x0, 0x0⟩, -- CHN_GEAR_RATIO
  ⟨0x9C, 1, 4, 0x10000, 0xFFFFFFFF, 0x0, 0x0, 0x0, 0x0⟩, -- CHN_GEAR_NEXT
  ⟨0xA0, 1, 4, 0x0, 0xFFFFFFFF, 0x0, 0x0, 0x0, 0x0⟩, -- CHN_GEAR_POS
  ⟨0xA4, 1, 4, 0x0, 0x0, 0x0, 0x0, 0x0, 0x2⟩, -- CHN_STEP_CFG
  ⟨0xA8, 1, 4, 0x7D, 0x7F, 0x7F, 0x0, 0x0, 0x0⟩, -- CHN_STEP_W
  ⟨0xAC, 1, 4, 0x0, 0x0, 0x0, 0x0, 0x0, 0x0⟩] -- CHN_STONE

/-- The registers of page type CENC (spec file 12). -/
def rowsCenc : List RegRow := [
  ⟨0x40, 1, 4, 0x11111111, 0xFFFFFFFF, 0xFFFFFFFF, 0x0, 0x0, 0x0⟩, -- CENC_CFG
  ⟨0x44, 8, 4, 0x0, 0xFFFFFFFF, 0x0, 0x0, 0x0, 0x0⟩, -- CENC_POS
  ⟨0x64, 1, 4, 0x0, 0x0, 0x0, 0x0, 0xFF, 0x0⟩] -- CENC_ERR

/-- The registers of page type UD (spec file 13). -/
def rowsUd : List RegRow := [
  ⟨0x40, 1, 4, 0x0, 0xFFFFFFFF, 0x0, 0x0, 0x0, 0x0⟩, -- UD_SRC_LO
  ⟨0x44, 1, 4, 0x0, 0xFFFFFFFF, 0x0, 0x0, 0x0, 0x0⟩, -- UD_SRC_HI
  ⟨0x48, 1, 4, 0x0, 0xFFFFFFFF, 0x0, 0x0, 0x0, 0x0⟩, -- UD_DST_LO
  ⟨0x4C, 1, 4, 0x0, 0xFFFFFFFF, 0x0, 0x0, 0x0, 0x0⟩, -- UD_DST_HI
  ⟨0x50, 3, 4, 0x1, 0xFFFFFF, 0x0, 0x0, 0x0, 0x0⟩, -- UD_CNT
  ⟨0x5C, 3, 4, 0x0, 0xFFFFFFFF, 0x0, 0x0, 0x0, 0x0⟩, -- UD_SSTEP
  ⟨0x68, 3, 4, 0x0, 0xFFFFFFFF, 0x0, 0x0, 0x0, 0x0⟩, -- UD_DSTEP
  ⟨0x74, 1, 4, 0x0, 0xFFFFFE0, 0x0, 0x0, 0x0, 0x0⟩, -- UD_CFG
  ⟨0x78, 1, 4, 0x0, 0xDF, 0x0, 0x0, 0x0, 0x0⟩, -- UD_TRIG
  ⟨0x7C, 1, 4, 0x0, 0x0, 0x0, 0x0, 0x0, 0x3⟩, -- UD_CTL
  ⟨0x80, 1, 4, 0x0, 0x0, 0x0, 0x0, 0x8, 0x0⟩, -- UD_STAT
  ⟨0x84, 1, 4, 0x0, 0x0, 0x0, 0x0, 0x0, 0x0⟩, -- UD_DONE
  ⟨0x88, 1, 4, 0x0, 0x0, 0x0, 0x0, 0x0, 0x0⟩] -- UD_COUNT

/-- The registers of page type BUSH (spec file 13). -/
def rowsBush : List RegRow := [
  ⟨0x40, 16, 4, 0x0, 0xFFFFFFFF, 0xFFFFFFFF, 0x0, 0x0, 0x0⟩, -- BUSH_TMR
  ⟨0x80, 1, 4, 0x0, 0x0, 0x0, 0x0, 0x0, 0x0⟩, -- BUSH_STAT
  ⟨0x84, 1, 4, 0x0, 0x0, 0x0, 0x0, 0x0, 0x0⟩] -- BUSH_STONE

/-- The registers of page type PWR (spec file 14). -/
def rowsPwr : List RegRow := [
  ⟨0x40, 1, 4, 0x3000000, 0x7000001, 0x0, 0x0, 0x0, 0x80000000⟩, -- PWR_CTL
  ⟨0x44, 1, 4, 0x9C41410, 0xFFFFFFFF, 0xFFFFFFFF, 0x0, 0x0, 0x0⟩, -- PWR_CFG
  ⟨0x48, 1, 4, 0x7F, 0x3FF, 0x3FF, 0x0, 0x0, 0x0⟩, -- PWR_WAKE_EN
  ⟨0x4C, 1, 4, 0x0, 0x0, 0x0, 0x0, 0x0, 0x0⟩, -- PWR_WAKE_SRC
  ⟨0x50, 1, 4, 0x0, 0x0, 0x0, 0x0, 0x8, 0x0⟩, -- PWR_STAT
  ⟨0x54, 1, 4, 0x0, 0x0, 0x0, 0x0, 0x0, 0x0⟩, -- PWR_ACCT0
  ⟨0x58, 1, 4, 0x0, 0x0, 0x0, 0x0, 0x0, 0x0⟩, -- PWR_ACCT1
  ⟨0x5C, 1, 4, 0x0, 0xFFFFFFFF, 0xFFFFFFFF, 0x0, 0x0, 0x0⟩, -- PWR_WAKE_TMR
  ⟨0x60, 1, 4, 0x0, 0x0, 0x0, 0x0, 0x0, 0x0⟩, -- PWR_BRIDGE_LO
  ⟨0x64, 1, 4, 0x0, 0x0, 0x0, 0x0, 0x0, 0x0⟩, -- PWR_BRIDGE_HI
  ⟨0x68, 1, 4, 0x0, 0x0, 0x0, 0x0, 0x0, 0x0⟩, -- PWR_BRIDGE_UNC
  ⟨0x6C, 1, 4, 0x0, 0x0, 0x0, 0x0, 0x0, 0x0⟩, -- PWR_AON_ERR
  ⟨0x70, 1, 4, 0x0, 0x0, 0x0, 0x0, 0x0, 0x0⟩, -- PWR_AON_T_LO
  ⟨0x74, 1, 4, 0x0, 0x0, 0x0, 0x0, 0x0, 0x0⟩] -- PWR_AON_T_HI

/-- The registers of page type SCR (spec file 14). -/
def rowsScr : List RegRow := [
  ⟨0x40, 1, 4, 0x0, 0x1, 0x1, 0x0, 0x0, 0x0⟩, -- SCR_CTL
  ⟨0x44, 8, 4, 0x6, 0x1FCF, 0x1FCF, 0x0, 0x0, 0x0⟩, -- SCR_FILT
  ⟨0x64, 1, 4, 0x0, 0x1F, 0x0, 0x0, 0x0, 0x0⟩, -- SCR_RULE_SEL
  ⟨0x68, 1, 4, 0x40000, 0xFFFCFFFF, 0xFFFCFFFF, 0x0, 0x0, 0x0⟩, -- SCR_RULE_A
  ⟨0x6C, 1, 4, 0x100500, 0xFFFFBFFF, 0xFFFFBFFF, 0x0, 0x0, 0x0⟩, -- SCR_RULE_B
  ⟨0x70, 1, 4, 0x80000000, 0x0, 0x0, 0x0, 0x0, 0x0⟩, -- SCR_RULE_STAT
  ⟨0x74, 1, 4, 0x0, 0xFFFFFFFF, 0x0, 0x0, 0x0, 0x0⟩, -- SCR_SIG_SEL
  ⟨0x78, 1, 4, 0x0, 0x0, 0x0, 0x0, 0x0, 0x0⟩, -- SCR_SIG_DATA
  ⟨0x7C, 1, 4, 0x0, 0x0, 0x0, 0x0, 0x3, 0x0⟩, -- SCR_OUT
  ⟨0x80, 1, 4, 0x0, 0xFFFFFFFF, 0x0, 0x0, 0x0, 0x0⟩, -- SCR_LANE_SEL
  ⟨0x84, 1, 4, 0x0, 0xFFFFFFFF, 0xFFFFFFFF, 0x0, 0x0, 0x0⟩, -- SCR_LANE_DATA
  ⟨0x88, 1, 4, 0x0, 0x0, 0x0, 0x0, 0x0, 0x0⟩, -- SCR_LOG
  ⟨0x8C, 1, 4, 0x0, 0x0, 0x0, 0x0, 0x0, 0x0⟩, -- SCR_MARK
  ⟨0x90, 1, 4, 0x0, 0x0, 0x0, 0x0, 0xFFFF, 0x0⟩, -- SCR_MARK_ACK
  ⟨0x94, 1, 4, 0x5A0040, 0xFFFF00FF, 0xFFFF00FF, 0x0, 0x0, 0x0⟩] -- SCR_MARK_CFG

/-- The registers of page type PROT (spec file 15). -/
def rowsProt : List RegRow := [
  ⟨0x40, 1, 4, 0x0, 0xF, 0x0, 0x0, 0x0, 0x0⟩, -- MEM_SEL
  ⟨0x44, 1, 4, 0x201, 0x3FF03, 0x3FF01, 0x0, 0x0, 0x0⟩, -- MEM_CTL
  ⟨0x48, 1, 4, 0x0, 0x0, 0x0, 0x0, 0x0, 0x0⟩, -- MEM_ECC
  ⟨0x4C, 1, 4, 0x0, 0x0, 0x0, 0x0, 0x0, 0x0⟩, -- MEM_SPARE
  ⟨0x50, 1, 4, 0x10, 0x0, 0x0, 0x0, 0x0, 0x0⟩, -- MEM_STAT
  ⟨0x54, 1, 4, 0x0, 0xFFFFFFFF, 0x0, 0x0, 0x0, 0x0⟩, -- MEM_TEST_ADDR
  ⟨0x58, 1, 4, 0x0, 0xFFFFFFFF, 0x0, 0x0, 0x0, 0x0⟩, -- MEM_TEST_DATA_LO
  ⟨0x5C, 1, 4, 0x0, 0xFFFFFFFF, 0x0, 0x0, 0x0, 0x0⟩, -- MEM_TEST_DATA_HI
  ⟨0x60, 1, 4, 0x0, 0xFFFFFFFF, 0x0, 0x0, 0x0, 0x0⟩, -- MEM_TEST_CHK
  ⟨0x64, 1, 4, 0x0, 0x0, 0x0, 0x0, 0x0, 0x0⟩, -- MEM_PEND
  ⟨0x68, 1, 4, 0x0, 0xFF, 0x0, 0x0, 0x0, 0x0⟩] -- MEM_TEST_CHK_HI

/-- The registers of page type LBIST (spec file 15). -/
def rowsLbist : List RegRow := [
  ⟨0x40, 1, 4, 0x40005, 0xFFFF000F, 0xFFFF000F, 0x0, 0x0, 0x0⟩, -- LB_CTL
  ⟨0x44, 1, 4, 0xEA60, 0xFFFFFFFF, 0xFFFFFFFF, 0x0, 0x0, 0x0⟩, -- LB_CYCLE
  ⟨0x48, 1, 4, 0x0, 0x0, 0x0, 0x0, 0x0, 0x0⟩, -- LB_STAT
  ⟨0x4C, 1, 4, 0x0, 0x0, 0x0, 0x0, 0x0, 0x0⟩] -- LB_COUNT

/-- The registers of page type FUSE (spec file 15). -/
def rowsFuse : List RegRow := [
  ⟨0x40, 1, 4, 0x0, 0x1, 0x0, 0x0, 0x0, 0x2⟩, -- FUSE_CTL
  ⟨0x44, 1, 4, 0x0, 0x0, 0x0, 0x0, 0x0, 0x0⟩] -- FUSE_STAT

/-- The registers of page type CAL (spec file 16). -/
def rowsCal : List RegRow := [
  ⟨0x40, 1, 4, 0x7D, 0x7F, 0x7F, 0x0, 0x0, 0x0⟩, -- CAL_CTL
  ⟨0x44, 1, 4, 0x403, 0xFF0F, 0xFF0F, 0x0, 0x0, 0x0⟩, -- CAL_CFG
  ⟨0x48, 1, 4, 0x7F, 0x0, 0x0, 0x0, 0x0, 0x0⟩, -- CAL_STAT
  ⟨0x4C, 1, 4, 0x0, 0x0, 0x0, 0x0, 0x0, 0x0⟩] -- CAL_FAILS

/-- The registers of page type AGE (spec file 16). -/
def rowsAge : List RegRow := [
  ⟨0x40, 1, 4, 0x0, 0xFF, 0x0, 0x0, 0x0, 0x0⟩, -- AGE_SEL
  ⟨0x44, 1, 4, 0x0, 0x0, 0x0, 0x0, 0x0, 0x0⟩, -- AGE_VAL
  ⟨0x48, 1, 4, 0x0, 0xFFFFFFFF, 0xFFFFFFFF, 0x0, 0x0, 0x0⟩, -- AGE_REF
  ⟨0x4C, 1, 4, 0x0, 0x0, 0x0, 0x0, 0x0, 0x0⟩, -- AGE_INFO
  ⟨0x50, 1, 4, 0x13880010, 0xFFFFFFFF, 0xFFFFFFFF, 0x0, 0x0, 0x0⟩] -- AGE_CFG

/-- The registers of page type MPLAN (spec file 16). -/
def rowsMplan : List RegRow := [
  ⟨0x40, 1, 4, 0x40000001, 0x400001FF, 0x40000000, 0x0, 0x0, 0xA0000000⟩, -- MP_CTL
  ⟨0x44, 1, 4, 0xEA60, 0xFFFFFFFF, 0xFFFFFFFF, 0x0, 0x0, 0x0⟩, -- MP_CFG
  ⟨0x48, 1, 4, 0x0, 0xFFFFFFFF, 0x0, 0x0, 0x0, 0x0⟩, -- MP_PLAN_BASE_LO
  ⟨0x4C, 1, 4, 0x0, 0xFFFFFFFF, 0x0, 0x0, 0x0, 0x0⟩, -- MP_PLAN_BASE_HI
  ⟨0x50, 1, 4, 0x0, 0x0, 0x0, 0x0, 0x0, 0x0⟩, -- MP_STAT
  ⟨0x54, 1, 4, 0x320000C, 0x3FF001F, 0x3FF001F, 0x0, 0x0, 0x0⟩, -- MP_LIMITS
  ⟨0x58, 1, 4, 0x2EE0000, 0x0, 0x0, 0x0, 0x0, 0x0⟩, -- MP_AVS
  ⟨0x5C, 1, 4, 0x352AF064, 0x0, 0x0, 0x0, 0x0, 0x0⟩] -- MP_AVS_BND

/-- The registers of page type PCIE (spec file 17). -/
def rowsPcie : List RegRow := [
  ⟨0x40, 1, 4, 0x2, 0x2, 0x2, 0x0, 0x0, 0x1⟩, -- PCIE_CTL
  ⟨0x44, 1, 4, 0x2, 0x0, 0x0, 0x0, 0x0, 0x0⟩, -- PCIE_STAT
  ⟨0x48, 1, 4, 0x0, 0x0, 0x0, 0x0, 0x0, 0x0⟩, -- PCIE_EVENTS
  ⟨0x4C, 1, 4, 0x0, 0x0, 0x0, 0x0, 0x0, 0x0⟩, -- PCIE_ERR
  ⟨0x50, 1, 4, 0x0, 0x0, 0x0, 0x0, 0x0, 0x0⟩] -- PCIE_CPL_ERR

/-- The registers of page type ETH (spec file 17). -/
def rowsEth : List RegRow := [
  ⟨0x40, 1, 4, 0x8, 0xF, 0xC, 0x0, 0x0, 0x0⟩, -- ETH_CTL
  ⟨0x44, 1, 4, 0x0, 0x0, 0x0, 0x0, 0x0, 0x0⟩, -- ETH_STAT
  ⟨0x48, 1, 4, 0x0, 0xFFFFFFFF, 0xFFFFFFFF, 0x0, 0x0, 0x0⟩, -- ETH_MAC_LO
  ⟨0x4C, 1, 4, 0x0, 0xFFFFFFFF, 0xFFFFFFFF, 0x0, 0x0, 0x0⟩, -- ETH_MAC_HI
  ⟨0x50, 1, 4, 0x0, 0xFFFFFFFF, 0xFFFFFFFF, 0x0, 0x0, 0x0⟩, -- ETH_WAKE_CODE
  ⟨0x54, 1, 4, 0x0, 0xFFFFFFFF, 0x0, 0x0, 0x0, 0x0⟩, -- ETH_TX_BASE_LO
  ⟨0x58, 1, 4, 0x0, 0xFFFFFFFF, 0x0, 0x0, 0x0, 0x0⟩, -- ETH_TX_BASE_HI
  ⟨0x5C, 1, 4, 0x0, 0xFFFFFFFF, 0x0, 0x0, 0x0, 0x0⟩, -- ETH_RX_BASE_LO
  ⟨0x60, 1, 4, 0x0, 0xFFFFFFFF, 0x0, 0x0, 0x0, 0x0⟩, -- ETH_RX_BASE_HI
  ⟨0x64, 1, 4, 0x404, 0xF0F, 0x0, 0x0, 0x0, 0x0⟩, -- ETH_RING_CFG
  ⟨0x68, 1, 4, 0x0, 0xFFFF, 0x0, 0x0, 0x0, 0x0⟩, -- ETH_TX_PROD
  ⟨0x6C, 1, 4, 0x0, 0x0, 0x0, 0x0, 0x0, 0x0⟩, -- ETH_TX_CONS
  ⟨0x70, 1, 4, 0x0, 0xFFFF, 0x0, 0x0, 0x0, 0x0⟩, -- ETH_RX_FREE
  ⟨0x74, 1, 4, 0x0, 0x0, 0x0, 0x0, 0x0, 0x0⟩, -- ETH_RX_PROD
  ⟨0x78, 1, 4, 0x0, 0xFFFFFFFF, 0xFFFFFFFF, 0x0, 0x0, 0x0⟩, -- ETH_PTP_LAT
  ⟨0x7C, 1, 4, 0x0, 0x0, 0x0, 0x0, 0x0, 0x0⟩] -- ETH_DROP

/-- The registers of page type CAN (spec file 17). -/
def rowsCan : List RegRow := [
  ⟨0x40, 1, 4, 0x4, 0xF, 0xE, 0x0, 0x0, 0x0⟩, -- CAN_CTL
  ⟨0x44, 1, 4, 0x0, 0x0, 0x0, 0x0, 0x0, 0x0⟩, -- CAN_STAT
  ⟨0x48, 1, 4, 0x1F8F9F, 0x7FFFFFF, 0x7FFFFFF, 0x0, 0x0, 0x0⟩, -- CAN_BT_NOM
  ⟨0x4C, 1, 4, 0x1E072641, 0xFFFFFFC1, 0xFFFFFFC1, 0x0, 0x0, 0x0⟩, -- CAN_BT_DATA
  ⟨0x50, 1, 4, 0x0, 0x0, 0x0, 0x0, 0x0, 0xFFFF⟩, -- CAN_TX_REQ
  ⟨0x54, 1, 4, 0x0, 0x0, 0x0, 0x0, 0xFFFF, 0x0⟩, -- CAN_TX_DONE
  ⟨0x58, 1, 4, 0x0, 0xFFFFFFFF, 0x0, 0x0, 0x0, 0x0⟩, -- CAN_RX_BASE_LO
  ⟨0x5C, 1, 4, 0x0, 0xFFFFFFFF, 0x0, 0x0, 0x0, 0x0⟩, -- CAN_RX_BASE_HI
  ⟨0x60, 1, 4, 0x4, 0xF, 0x0, 0x0, 0x0, 0x0⟩, -- CAN_RX_CFG
  ⟨0x64, 1, 4, 0x10000, 0x0, 0x0, 0x0, 0x0, 0x0⟩, -- CAN_RX_PROD
  ⟨0x68, 1, 4, 0x0, 0xFFFF, 0x0, 0x0, 0x0, 0x0⟩, -- CAN_RX_CONS
  ⟨0x100, 32, 8, 0x0, 0xDFFFFFFF, 0xDFFFFFFF, 0x0, 0x0, 0x0⟩, -- CAN_FLT_ID
  ⟨0x104, 32, 8, 0x0, 0x1FFFFFFF, 0x1FFFFFFF, 0x0, 0x0, 0x0⟩, -- CAN_FLT_MASK
  ⟨0x800, 320, 4, 0x0, 0xFFFFFFFF, 0x0, 0x0, 0x0, 0x0⟩] -- CAN_TXB

/-- The registers of page type ACC (spec file 17). -/
def rowsAcc : List RegRow := [
  ⟨0x40, 1, 4, 0x3000, 0xFFFFFF01, 0xFFFFFF01, 0x0, 0x0, 0x0⟩, -- ACC_CFG
  ⟨0x44, 1, 4, 0x0, 0xFFFF, 0xFFFF, 0x0, 0x0, 0x0⟩, -- ACC_SHOCK
  ⟨0x48, 1, 4, 0x0, 0x0, 0x0, 0x0, 0x0, 0x0⟩, -- ACC_XY
  ⟨0x4C, 1, 4, 0x0, 0x0, 0x0, 0x0, 0x0, 0x0⟩, -- ACC_ZS
  ⟨0x50, 1, 4, 0x0, 0xFFFFFFFF, 0x0, 0x0, 0x0, 0x0⟩, -- ACC_XFER_TX
  ⟨0x54, 1, 4, 0x0, 0xFF, 0x0, 0x0, 0x0, 0x80000000⟩, -- ACC_XFER_CTL
  ⟨0x58, 1, 4, 0x0, 0x0, 0x0, 0x0, 0x0, 0x0⟩] -- ACC_XFER_RX

/-- The registers of page type PMB (spec file 17). -/
def rowsPmb : List RegRow := [
  ⟨0x40, 1, 4, 0x401403, 0x7FFF03, 0x7FFF03, 0x0, 0x0, 0x0⟩, -- PMB_CFG
  ⟨0x44, 1, 4, 0x0, 0x0, 0x0, 0x0, 0x2, 0x0⟩, -- PMB_STAT
  ⟨0x48, 1, 4, 0x0, 0x0, 0x0, 0x0, 0x0, 0x0⟩] -- PMB_STATUS

/-- The registers of page type GPIO (spec file 17). -/
def rowsGpio : List RegRow := [
  ⟨0x40, 1, 4, 0x0, 0xFFFFFFFF, 0xFFFFFFFF, 0x0, 0x0, 0x0⟩, -- GPIO_DIR
  ⟨0x44, 1, 4, 0x0, 0xFFFFFFFF, 0xFFFFFFFF, 0x0, 0x0, 0x0⟩, -- GPIO_OUT
  ⟨0x48, 1, 4, 0x0, 0x0, 0x0, 0x0, 0x0, 0x0⟩, -- GPIO_IN
  ⟨0x4C, 1, 4, 0x0, 0xFFFFFFFF, 0xFFFFFFFF, 0x0, 0x0, 0x0⟩, -- GPIO_ALT
  ⟨0x50, 1, 4, 0x0, 0xFFFFFFFF, 0xFFFFFFFF, 0x0, 0x0, 0x0⟩, -- GPIO_IRQ_RISE
  ⟨0x54, 1, 4, 0x0, 0xFFFFFFFF, 0xFFFFFFFF, 0x0, 0x0, 0x0⟩, -- GPIO_IRQ_FALL
  ⟨0x58, 1, 4, 0x0, 0x0, 0x0, 0x0, 0xFFFFFFFF, 0x0⟩, -- GPIO_IRQ_STAT
  ⟨0x5C, 1, 4, 0x2, 0xFF, 0xFF, 0x0, 0x0, 0x0⟩, -- GPIO_FILT
  ⟨0x60, 1, 4, 0x0, 0x0, 0x0, 0x0, 0x0, 0x0⟩, -- GPIO_IGN
  ⟨0x64, 1, 4, 0x0, 0x0, 0x0, 0x0, 0x0, 0x0⟩, -- GPIO_EVT_LO
  ⟨0x68, 1, 4, 0x0, 0x0, 0x0, 0x0, 0x0, 0x0⟩, -- GPIO_EVT_HI
  ⟨0x6C, 1, 4, 0x0, 0x0, 0x0, 0x0, 0x0, 0x0⟩] -- GPIO_EVT_CYC

/-- The registers of page type ID (spec file 19). -/
def rowsId : List RegRow := [
  ⟨0x40, 1, 4, 0x916B102, 0x0, 0x0, 0x0, 0x0, 0x0⟩, -- ID_PART
  ⟨0x44, 1, 4, 0x0, 0x0, 0x0, 0x0, 0x0, 0x0⟩, -- ID_SERIAL_LO
  ⟨0x48, 1, 4, 0x0, 0x0, 0x0, 0x0, 0x0, 0x0⟩, -- ID_SERIAL_HI
  ⟨0x4C, 1, 4, 0x0, 0x0, 0x0, 0x0, 0x0, 0x0⟩, -- ID_PCI
  ⟨0x50, 1, 4, 0x0, 0x0, 0x0, 0x0, 0x0, 0x0⟩] -- ID_BOOT

/-- The registers of page type CLK (spec file 19). -/
def rowsClk : List RegRow := [
  ⟨0x40, 1, 4, 0x0, 0x0, 0x0, 0x0, 0x0, 0x0⟩] -- CLK_STAT

/-- The registers of page type RST (spec file 19). -/
def rowsRst : List RegRow := [
  ⟨0x40, 1, 4, 0x0, 0x0, 0x0, 0xFF00, 0x0, 0x3⟩, -- RST_CTL
  ⟨0x44, 1, 4, 0x0, 0x0, 0x0, 0x0, 0xFF, 0x0⟩, -- RST_CAUSE
  ⟨0x48, 1, 4, 0x0, 0x0, 0x0, 0x0, 0x0, 0x0⟩] -- RST_COUNT

/-- The registers of page type FUSEMAP (spec file 19). -/
def rowsFusemap : List RegRow := [
  ⟨0x40, 1, 4, 0x0, 0x0, 0x0, 0x0, 0x0, 0x0⟩, -- FM_STAT
  ⟨0x44, 1, 4, 0x0, 0x0, 0x0, 0x0, 0x0, 0x80000000⟩, -- FM_ROLLBACK
  ⟨0x48, 8, 4, 0x0, 0x0, 0x0, 0x0, 0x0, 0x0⟩] -- FM_BOOTKEY

/-- The registers of page type IRQ (spec file 18). -/
def rowsIrq : List RegRow := [
  ⟨0x40, 16, 4, 0xAAAAAAAA, 0xFFFFFFFF, 0xFFFFFFFF, 0x0, 0x0, 0x0⟩, -- IRQ_ROUTE
  ⟨0x80, 8, 4, 0x0, 0x0, 0x0, 0x0, 0x0, 0x0⟩, -- IRQ_LEVEL
  ⟨0xA0, 1, 4, 0x0, 0x0, 0x0, 0x0, 0x0, 0xFFFFFFFF⟩, -- IRQ_SW_SET_LO
  ⟨0xA4, 1, 4, 0x0, 0x0, 0x0, 0x0, 0x0, 0xFFFFFFFF⟩, -- IRQ_SW_SET_HI
  ⟨0xA8, 1, 4, 0x0, 0x0, 0x0, 0x0, 0xFFFFFFFF, 0x0⟩, -- IRQ_SW_CLR_LO
  ⟨0xAC, 1, 4, 0x0, 0x0, 0x0, 0x0, 0xFFFFFFFF, 0x0⟩] -- IRQ_SW_CLR_HI

/-- The registers of page type FJ (spec file 18). -/
def rowsFj : List RegRow := [
  ⟨0x40, 1, 4, 0x0, 0x0, 0x0, 0x0, 0x0, 0x0⟩, -- FJ_STAT
  ⟨0x44, 1, 4, 0x0, 0x0, 0x0, 0x0, 0x0, 0x0⟩, -- FJ_HEAD
  ⟨0x48, 1, 4, 0x0, 0xFF, 0x0, 0x0, 0x0, 0x0⟩, -- FJ_SEL
  ⟨0x4C, 8, 4, 0x0, 0x0, 0x0, 0x0, 0x0, 0x0⟩, -- FJ_REC
  ⟨0x800, 512, 4, 0x0, 0x0, 0x0, 0x0, 0x0, 0x0⟩] -- FJ_WIN

/-- The registers of the header of every page (spec file 14, 18). -/
def rowsHdr : List RegRow := [
  ⟨0x0, 1, 4, 0x0, 0x0, 0x0, 0x0, 0x0, 0x0⟩, -- PG_ID
  ⟨0x4, 1, 4, 0x10000, 0x0, 0x0, 0x0, 0x0, 0x0⟩, -- PG_VER
  ⟨0x8, 1, 4, 0x1, 0x5, 0x0, 0x0, 0x0, 0x2⟩, -- PG_CTL
  ⟨0xC, 1, 4, 0x0, 0x0, 0x0, 0x0, 0x0, 0x0⟩, -- PG_STAT
  ⟨0x10, 1, 4, 0x0, 0x0, 0x0, 0x0, 0x0, 0x0⟩, -- PG_IRQ_RAW
  ⟨0x14, 1, 4, 0x0, 0xFFFFFFFF, 0x0, 0x0, 0x0, 0x0⟩, -- PG_IRQ_EN
  ⟨0x18, 1, 4, 0x0, 0x0, 0x0, 0x0, 0x0, 0x0⟩, -- PG_IRQ_PEND
  ⟨0x1C, 1, 4, 0x0, 0x0, 0x0, 0xFFFFFFFF, 0x0, 0x0⟩, -- PG_IRQ_CLR
  ⟨0x20, 1, 4, 0x0, 0x0, 0x0, 0x0, 0x0, 0x0⟩, -- PG_PWR_REQ
  ⟨0x24, 1, 4, 0x0, 0x0, 0x0, 0x0, 0x0, 0x0⟩, -- PG_PWR_RESP
  ⟨0x28, 1, 4, 0x0, 0x3, 0x3, 0x0, 0x0, 0x0⟩, -- PG_PWR_POL
  ⟨0x30, 1, 4, 0x0, 0x0, 0x0, 0x0, 0x80000000, 0x0⟩, -- PG_ERR_INFO
  ⟨0x34, 1, 4, 0x0, 0x0, 0x0, 0x0, 0x0, 0x0⟩, -- PG_ERR_ADDR_LO
  ⟨0x38, 1, 4, 0x0, 0x0, 0x0, 0x0, 0x0, 0x0⟩, -- PG_ERR_ADDR_HI
  ⟨0x3C, 1, 4, 0x0, 0x0, 0x0, 0x0, 0x0, 0x0⟩] -- PG_ERR_COUNT

end Sys2Proof.Machine
end

