-- ==== Sys2Proof/Machine/RegMap.lean ====
section
/-! DEFINITION. The address map (R548, R549) and what it says of one address: its page, the page's identity and
interrupt line, its register's row and its value after power-on reset. -/

namespace Sys2Proof.Machine

open Sys2Proof

/-- One row of the table of R548: first page's address, number of pages, block type, interrupt line of page `k`
as `line + k / lineDiv` (`none`: no line), registers after the header, and on which die the pages stand. -/
structure PageRow where
  base : Nat
  count : Nat
  block : Nat
  line : Option Nat
  lineDiv : Nat
  rows : List RegRow
  powerDie : Bool
deriving DecidableEq, Repr

/-- The 263 pages of R548, in address order. -/
def pageMap : List PageRow := [
  ⟨0x40000000, 1, 0x0001, some 192, 1, rowsId, false⟩,
  ⟨0x40001000, 1, 0x0002, some 193, 1, rowsClk, false⟩,
  ⟨0x40002000, 1, 0x0003, some 194, 1, rowsRst, false⟩,
  ⟨0x40003000, 1, 0x0004, some 195, 1, rowsFusemap, false⟩,
  ⟨0x40004000, 1, 0x0005, some 196, 1, rowsTb, false⟩,
  ⟨0x40005000, 1, 0x0006, none, 1, rowsIrq, false⟩,
  ⟨0x40006000, 1, 0x0007, some 197, 1, rowsFj, false⟩,
  ⟨0x40100000, 64, 0x0101, some 0, 1, rowsTw, false⟩,
  ⟨0x40140000, 1, 0x0102, some 64, 1, rowsLdg, false⟩,
  ⟨0x40200000, 1, 0x0201, some 65, 1, rowsRsv, false⟩,
  ⟨0x40201000, 1, 0x0202, some 66, 1, rowsBank, true⟩,
  ⟨0x40300000, 64, 0x0301, some 67, 8, rowsFk, false⟩,
  ⟨0x40340000, 8, 0x0302, some 67, 1, rowsCv, false⟩,
  ⟨0x40348000, 1, 0x0303, some 75, 1, rowsChk, false⟩,
  ⟨0x40400000, 17, 0x0401, some 76, 1, rowsFch, false⟩,
  ⟨0x40411000, 4, 0x0402, some 93, 1, rowsBay, false⟩,
  ⟨0x40418000, 1, 0x0403, some 97, 1, rowsFsch, false⟩,
  ⟨0x40500000, 1, 0x0501, some 98, 1, rowsFint, false⟩,
  ⟨0x40501000, 4, 0x0502, some 99, 1, rowsFstr, false⟩,
  ⟨0x40600000, 1, 0x0601, some 103, 1, rowsMc, false⟩,
  ⟨0x40601000, 1, 0x0602, some 104, 1, rowsMap, false⟩,
  ⟨0x40602000, 1, 0x0603, some 105, 1, rowsDdr, false⟩,
  ⟨0x40700000, 5, 0x0701, some 106, 1, rowsFth, false⟩,
  ⟨0x40708000, 1, 0x0702, some 111, 1, rowsFthx, false⟩,
  ⟨0x40800000, 4, 0x0801, some 112, 1, rowsOwp, false⟩,
  ⟨0x40808000, 1, 0x0802, some 116, 1, rowsWenc, false⟩,
  ⟨0x40809000, 1, 0x0803, some 117, 1, rowsWarc, false⟩,
  ⟨0x40900000, 2, 0x0901, some 118, 1, rowsEll, false⟩,
  ⟨0x40902000, 4, 0x0902, some 120, 1, rowsOps, false⟩,
  ⟨0x40A00000, 4, 0x0A01, some 124, 1, rowsCmt, false⟩,
  ⟨0x40A04000, 2, 0x0A02, some 128, 1, rowsCmt, false⟩,
  ⟨0x40A08000, 1, 0x0A03, some 130, 1, rowsVbus, true⟩,
  ⟨0x40B00000, 12, 0x0B01, some 131, 1, rowsAx, false⟩,
  ⟨0x40B0C000, 1, 0x0B02, some 143, 1, rowsCenc, false⟩,
  ⟨0x40C00000, 32, 0x0C01, some 144, 1, rowsUd, false⟩,
  ⟨0x40C20000, 1, 0x0C02, some 176, 1, rowsBush, false⟩,
  ⟨0x40D00000, 1, 0x0D01, some 177, 1, rowsPwr, false⟩,
  ⟨0x40D01000, 1, 0x0D02, some 178, 1, rowsScr, false⟩,
  ⟨0x40E00000, 1, 0x0E01, some 179, 1, rowsProt, false⟩,
  ⟨0x40E01000, 1, 0x0E02, some 180, 1, rowsLbist, false⟩,
  ⟨0x40E02000, 1, 0x0E03, some 181, 1, rowsFuse, false⟩,
  ⟨0x40F00000, 1, 0x0F01, some 182, 1, rowsCal, false⟩,
  ⟨0x40F01000, 1, 0x0F02, some 183, 1, rowsAge, false⟩,
  ⟨0x40F02000, 1, 0x0F03, some 184, 1, rowsMplan, false⟩,
  ⟨0x41000000, 1, 0x1001, some 185, 1, rowsPcie, false⟩,
  ⟨0x41001000, 1, 0x1002, some 186, 1, rowsEth, false⟩,
  ⟨0x41002000, 2, 0x1003, some 187, 1, rowsCan, false⟩,
  ⟨0x41004000, 1, 0x1004, some 189, 1, rowsAcc, false⟩,
  ⟨0x41005000, 1, 0x1005, some 190, 1, rowsPmb, false⟩,
  ⟨0x41006000, 1, 0x1006, some 191, 1, rowsGpio, false⟩]

/-! ### Page addresses -/
abbrev pgId : Nat := 0x40000000
abbrev pgClk : Nat := 0x40001000
abbrev pgRst : Nat := 0x40002000
abbrev pgFuseMap : Nat := 0x40003000
abbrev pgTb : Nat := 0x40004000
abbrev pgIrq : Nat := 0x40005000
abbrev pgFj : Nat := 0x40006000
abbrev pgTw (n : Nat) : Nat := 0x40100000 + n * 0x1000
abbrev pgLdg : Nat := 0x40140000
abbrev pgRsv : Nat := 0x40200000
abbrev pgBank : Nat := 0x40201000
abbrev pgFk (k : Nat) : Nat := 0x40300000 + k * 0x1000
abbrev pgCv (k : Nat) : Nat := 0x40340000 + k * 0x1000
abbrev pgChk : Nat := 0x40348000
abbrev pgFch (k : Nat) : Nat := 0x40400000 + k * 0x1000
abbrev pgBay (b : Nat) : Nat := 0x40411000 + b * 0x1000
abbrev pgFsch : Nat := 0x40418000
abbrev pgFint : Nat := 0x40500000
abbrev pgFstr (b : Nat) : Nat := 0x40501000 + b * 0x1000
abbrev pgMc : Nat := 0x40600000
abbrev pgMap : Nat := 0x40601000
abbrev pgDdr : Nat := 0x40602000
abbrev pgFth (k : Nat) : Nat := 0x40700000 + k * 0x1000
abbrev pgFthx : Nat := 0x40708000
abbrev pgOwp (k : Nat) : Nat := 0x40800000 + k * 0x1000
abbrev pgWenc : Nat := 0x40808000
abbrev pgWarc : Nat := 0x40809000
abbrev pgEll (e : Nat) : Nat := 0x40900000 + e * 0x1000
abbrev pgOps (k : Nat) : Nat := 0x40902000 + k * 0x1000
/-- Channels 0 to 3 are SPN0 to SPN3, 4 and 5 are AUXM0 and AUXM1. -/
abbrev pgCmt (k : Nat) : Nat := 0x40A00000 + k * 0x1000
abbrev pgVbus : Nat := 0x40A08000
abbrev pgAx (n : Nat) : Nat := 0x40B00000 + n * 0x1000
abbrev pgCenc : Nat := 0x40B0C000
abbrev pgUd (c : Nat) : Nat := 0x40C00000 + c * 0x1000
abbrev pgBush : Nat := 0x40C20000
abbrev pgPwr : Nat := 0x40D00000
abbrev pgScr : Nat := 0x40D01000
abbrev pgProt : Nat := 0x40E00000
abbrev pgLbist : Nat := 0x40E01000
abbrev pgFuse : Nat := 0x40E02000
abbrev pgCal : Nat := 0x40F00000
abbrev pgAge : Nat := 0x40F01000
abbrev pgMplan : Nat := 0x40F02000
abbrev pgPcie : Nat := 0x41000000
abbrev pgEth : Nat := 0x41001000
abbrev pgCan (n : Nat) : Nat := 0x41002000 + n * 0x1000
abbrev pgAcc : Nat := 0x41004000
abbrev pgPmb : Nat := 0x41005000
abbrev pgGpio : Nat := 0x41006000

/-! ### Banked registers
Registers that one selector register reaches many of (R319, R340, R351, R364, R460, R465, R500) stand in the same
register file, at page addresses outside the 32-bit map, so that software reaches them only through their selector. -/
/-- Slot `s` of servo engine `e` (R351). -/
abbrev pgSlot (e s : Nat) : Nat := 0x200000000 + (64 * e + s) * 0x1000
/-- The strategy table of write port `p`: entry `i` at offset `4 i` (R319). -/
abbrev pgWst (p : Nat) : Nat := 0x200100000 + p * 0x1000
/-- The matrix of optical port `p`: row `r`, input `j` at offset `4 (16 r + j)` (R340). -/
abbrev pgMtx (p : Nat) : Nat := 0x200200000 + p * 0x1000
/-- The feed-forward tables of servo engine `e`: entry `i` at offset `4 i` (R364). -/
abbrev pgFf (e : Nat) : Nat := 0x200300000 + e * 0x1000
/-- The rules of Scruple: rule `r`'s A, B and STAT at offsets `0x40 + 16 r`, `+4`, `+8` (R460). -/
abbrev pgRule : Nat := 0x200400000
/-- The lane table of Scruple: entry `i` at offset `4 i` (R465). -/
abbrev pgLane : Nat := 0x200401000
/-- The ageing parameters: VAL, REF and INFO of parameter `i` at offsets `16 i`, `+4`, `+8` (R498, R500). -/
abbrev pgAgeb : Nat := 0x200402000
/-- The per-array registers of PROT: array `i`'s MEM_CTL to MEM_PEND at page `i` (R487). -/
abbrev pgMem (i : Nat) : Nat := 0x200500000 + i * 0x1000

/-- The slot registers among those of ELL: SLOT_CFG to SLOT_LIM_LO and SLOT_FE (R351). -/
def rowsSlot : List RegRow := rowsEll.filter fun r => 0x4C ≤ r.off && r.off ≤ 0x78
/-- The array registers among those of PROT (R487). -/
def rowsMemBank : List RegRow := rowsProt.filter fun r => 0x44 ≤ r.off && r.off ≤ 0x68

/-- The banked pages; their words keep across a warm reset where the selector's data register is RWS. -/
def bankMap : List PageRow := [
  ⟨0x200000000, 128, 0, none, 1, rowsSlot, false⟩,
  ⟨0x200100000, 4, 0, none, 1, [⟨0, 16, 4, 0x01030C20, 0xFFFFFFFF, 0xFFFFFFFF, 0, 0, 0⟩], false⟩,
  ⟨0x200200000, 4, 0, none, 1, [⟨0, 128, 4, 0, 0xFFFF, 0xFFFF, 0, 0, 0⟩], false⟩,
  ⟨0x200300000, 2, 0, none, 1, [⟨0, 512, 4, 0, 0xFFFFFFFF, 0, 0, 0, 0⟩], false⟩,
  ⟨0x200400000, 1, 0, none, 1, [⟨0x40, 32, 16, 0x00040000, 0xFFFCFFFF, 0xFFFCFFFF, 0, 0, 0⟩,
    ⟨0x44, 32, 16, 0x00100500, 0xFFFFBFFF, 0xFFFFBFFF, 0, 0, 0⟩, ⟨0x48, 32, 16, 0x80000000, 0, 0xFFFFFFFF, 0, 0, 0⟩], false⟩,
  ⟨0x200401000, 1, 0, none, 1, [⟨0, 64, 4, 0, 0xFFFFFFFF, 0xFFFFFFFF, 0, 0, 0⟩], false⟩,
  ⟨0x200402000, 1, 0, none, 1, [⟨0, 1024, 4, 0, 0xFFFFFFFF, 0xFFFFFFFF, 0, 0, 0⟩], false⟩,
  ⟨0x200500000, 64, 0, none, 1, rowsMemBank, false⟩]

/-- Does a page row hold address `a`? -/
def PageRow.holds (r : PageRow) (a : Nat) : Bool := r.base ≤ a && a < r.base + r.count * 0x1000

/-- The page row that holds `a`, and the number of the page in it; `none` where the map has no page (R539). -/
def pageOf (a : Nat) : Option (PageRow × Nat) :=
  match (if a < 0x200000000 then pageMap else bankMap).find? (·.holds a) with
  | some r => some (r, (a - r.base) / 0x1000)
  | none => none

/-- Does a register row hold page offset `o`? -/
def rowHolds (r : RegRow) (o : Nat) : Bool :=
  r.off ≤ o && o < r.off + r.count * r.stride && (o - r.off) % r.stride == 0

/-- The register row of address `a`: the header's below offset 0x040, the page type's from there (R538). -/
def regRow (a : Nat) : Option RegRow :=
  match pageOf a with
  | some (p, _) =>
    if a % 0x1000 < 0x40 && a < 0x200000000 then rowsHdr.find? (rowHolds · (a % 0x1000))
    else p.rows.find? (rowHolds · (a % 0x1000))
  | none => none

/-- PG_ID of a page (R540): block type, page number, page position within its group. -/
def pgIdOf (a : Nat) : Nat :=
  match pageOf a with
  | some (p, k) =>
    let grp := 0x40000000 + (p.block / 0x100) * 0x100000
    p.block * 0x10000 + (if p.count == 1 then 0 else k % 0x100) * 0x100 + (a - grp) / 0x1000 % 0x100
  | none => 0

/-- The interrupt line of a page (R548, R552). -/
def lineOf (a : Nat) : Option Nat :=
  match pageOf a with
  | some (p, k) => p.line.map (· + k / p.lineDiv)
  | none => none

/-- Value after power-on reset of the register at `a` (R24). The resets that depend on the page number: FK_CFG.BASE_4K
is 8 k (R138), FTH_MAP.PORT is k or none (R261), tap 7 is 1.0 (R273), ENC_SEL is n − 4 (R422), PG_ID is the page's. -/
def resetNat (a : Nat) : Nat :=
  match regRow a with
  | none => 0
  | some r =>
    let o := a % 0x1000
    if a % 0x1000 == 0 && a < 0x200000000 then pgIdOf a
    else if 0x40300000 ≤ a && a < 0x40340000 && o == 0x40 then
      r.reset + 8 * ((a - 0x40300000) / 0x1000) * 0x10000
    else if 0x40700000 ≤ a && a < 0x40705000 && o == 0x44 then
      let k := (a - 0x40700000) / 0x1000
      if k == 4 then 7 else k
    else if 0x40700000 ≤ a && a < 0x40705000 && o == 0x68 then r.reset + 0x20000000
    else if 0x40B00000 ≤ a && a < 0x40B0C000 && o == 0x40 then
      let n := (a - 0x40B00000) / 0x1000
      r.reset + (if 4 ≤ n then (n - 4) * 32 else 0)
    else r.reset

/-- `resetNat` as a register word. -/
def resetOf (a : Nat) : Word := BitVec.ofNat 32 (resetNat a)

end Sys2Proof.Machine
end

