-- ==== Sys2Proof/Machine/Operands.lean ====
section
/-! DEFINITION. Operand forms: bit fields of a word, sign extension, saturation, byte order, and the sparse tables that
registers and memories are kept in. -/

namespace Sys2Proof.Machine

open Sys2Proof

/-! ### Bits and numbers -/

/-- Bits `lo` to `lo + w − 1` of `n`. -/
def bits (n lo w : Nat) : Nat := n / 2 ^ lo % 2 ^ w

/-- `n` with bits `lo` to `lo + w − 1` replaced by the low bits of `v`. -/
def setBits (n lo w v : Nat) : Nat :=
  n % 2 ^ lo + (v % 2 ^ w) * 2 ^ lo + n / 2 ^ (lo + w) * 2 ^ (lo + w)

/-- Bit `i` of `n`. -/
def bit (n i : Nat) : Bool := n / 2 ^ i % 2 == 1

/-- The signed value of a `w`-bit number (two's complement). -/
def sext (w n : Nat) : Int :=
  if n % 2 ^ w < 2 ^ (w - 1) then (n % 2 ^ w : Nat) else (n % 2 ^ w : Nat) - (2 ^ w : Nat)

/-- The two's complement of an integer in `w` bits. -/
def ofInt (w : Nat) (i : Int) : Nat := (i % (2 ^ w : Nat)).toNat

/-- `i` limited to `lo` and `hi`. -/
def clampI (lo hi i : Int) : Int := max lo (min hi i)

/-- `n` limited to `lo` and `hi`. -/
def clampN (lo hi n : Nat) : Nat := max lo (min hi n)

/-- Signed saturation to `w` bits. -/
def satI (w : Nat) (i : Int) : Int := clampI (-(2 ^ (w - 1) : Nat)) ((2 ^ (w - 1) : Nat) - 1) i

/-- An increment that stops at `top`. -/
def satInc (top n : Nat) : Nat := if n < top then n + 1 else top

/-- The quotient rounded up. -/
def ceilDiv (a b : Nat) : Nat := (a + b - 1) / b

/-- 1 for true. -/
def b2n (b : Bool) : Nat := if b then 1 else 0

/-- The number of ones among the low `w` bits. -/
def popcount : Nat → Nat → Nat
  | 0, _ => 0
  | w + 1, n => n % 2 + popcount w (n / 2)

/-- The lowest index below `w` whose bit of `n` is 1. -/
def lowestOne (w n : Nat) : Option Nat := (List.range w).find? (bit n ·)

/-! ### Byte order -/

/-- The `k` bytes of `n`, low byte first. -/
def leBytes : Nat → Nat → List Byte
  | 0, _ => []
  | k + 1, n => BitVec.ofNat 8 n :: leBytes k (n / 256)

/-- The number whose bytes, low byte first, are `l`. -/
def leNat : List Byte → Nat
  | [] => 0
  | b :: l => b.toNat + 256 * leNat l

/-- The `k` bytes of `n`, high byte first. -/
def beBytes (k n : Nat) : List Byte := (leBytes k n).reverse

/-! ### Sparse tables in canonical form
A table is a list of (key, value) pairs, keys strictly rising, with no pair whose value is the one that an unlisted key
reads as. -/

/-- The value at key `k`; `dflt` says what an unlisted key reads as. -/
def tabGet {α : Type} (dflt : Nat → α) : List (Nat × α) → Nat → α
  | [], k => dflt k
  | (a, v) :: l, k => if a = k then v else tabGet dflt l k

/-- Remove key `k`. -/
def tabErase {α : Type} (l : List (Nat × α)) (k : Nat) : List (Nat × α) := l.filter fun x => x.1 != k

/-- Insert key `k`, which is not listed, before the first greater key. -/
def tabInsert {α : Type} (k : Nat) (v : α) : List (Nat × α) → List (Nat × α)
  | [] => [(k, v)]
  | x :: l => if x.1 < k then x :: tabInsert k v l else (k, v) :: x :: l

/-- Set key `k` to `v`, keeping the canonical form. -/
def tabSet {α : Type} [DecidableEq α] (dflt : Nat → α) (l : List (Nat × α)) (k : Nat) (v : α) : List (Nat × α) :=
  if v = dflt k then tabErase l k else tabInsert k v (tabErase l k)

/-- Are the keys strictly rising, the first above `lo`? -/
def tabSorted {α : Type} : Option Nat → List (Nat × α) → Bool
  | _, [] => true
  | none, (a, _) :: l => tabSorted (some a) l
  | some b, (a, _) :: l => decide (b < a) && tabSorted (some a) l

/-- The canonical form: keys strictly rising and no pair at its default. -/
def tabWf {α : Type} [DecidableEq α] (dflt : Nat → α) (l : List (Nat × α)) : Bool :=
  tabSorted none l && l.all fun p => decide (p.2 ≠ dflt p.1)

/-- `f` applied to the elements that satisfy `p`. -/
def updWhere {α : Type} (p : α → Bool) (f : α → α) (l : List α) : List α := l.map fun x => if p x then f x else x

/-- The element at `i`, or `x` past the end. -/
def nthD {α : Type} (l : List α) (i : Nat) (x : α) : α := (l[i]?).getD x

/-- The first `n` bytes of `l`, padded with 0. -/
def padTo (n : Nat) (l : List Byte) : List Byte := l.take n ++ List.replicate (n - l.length) 0

end Sys2Proof.Machine

namespace Sys2Proof

open Sys2Proof.Machine

/-! ### Requesters (R43, R545) -/

/-- The index of a requester among the requesters that R43 lists. -/
def Requester.index : Requester → Nat
  | .app c => c.val
  | .rt p => 4 + p.val
  | .host => 6
  | .debug => 7
  | .mgmt => 8

/-- REQ of PG_ERR_ADDR_HI (R545). -/
def Requester.code : Requester → Nat
  | .app _ => 0x01
  | .rt p => 0x02 + p.val
  | .host => 0x04
  | .debug => 0x05
  | .mgmt => 0x06

/-! Fields of a descriptor (R59). -/
def TaskOp.lane (t : TaskOp) : Nat := bits t.d1.toNat 0 20
def TaskOp.ctx (t : TaskOp) : Nat := bits t.d2.toNat 0 16
def TaskOp.argb (t : TaskOp) : Nat := bits t.d2.toNat 16 16
def TaskOp.addr (t : TaskOp) : Nat := t.d3.toNat + t.d4.toNat * 2 ^ 32
def TaskOp.len (t : TaskOp) : Nat := t.d5.toNat
def TaskOp.arg0 (t : TaskOp) : Nat := t.d6.toNat
def TaskOp.arg1 (t : TaskOp) : Nat := t.d7.toNat
/-- A 48-bit lane offset ARG1[15:0]:ARG0 (R75, R96). -/
def TaskOp.off (t : TaskOp) : Nat := t.arg0 + bits t.arg1 0 16 * 2 ^ 32

end Sys2Proof
end

