-- ==== Sys2Proof/Machine/Crypto.lean ====
section
/-! DEFINITION. The check values: the CRC algorithms of R150 and SHA-256 (FIPS 180-4) as R156 uses it. -/

namespace Sys2Proof.Machine

open Sys2Proof

/-! ### CRC (R150) -/

/-- One bit step of a CRC that is reflected in and out; `poly` is the reversed polynomial. -/
def crcStepR (poly v : Nat) : Nat := if v % 2 = 1 then (v / 2) ^^^ poly else v / 2

/-- One bit step of a `w`-bit CRC that is not reflected. -/
def crcStepN (w poly v : Nat) : Nat :=
  if v / 2 ^ (w - 1) % 2 = 1 then (v * 2 % 2 ^ w) ^^^ poly else v * 2 % 2 ^ w

/-- `f` applied `n` times. -/
def iter {α : Type} (f : α → α) : Nat → α → α
  | 0, x => x
  | n + 1, x => iter f n (f x)

/-- The running value `v` of polynomial code `code` advanced over one byte. -/
def crcByte (code v : Nat) (b : Byte) : Nat :=
  match code with
  | 0 => iter (crcStepR 0x82F63B78) 8 (v ^^^ b.toNat)
  | 1 => iter (crcStepR 0xEDB88320) 8 (v ^^^ b.toNat)
  | 2 => iter (crcStepN 64 0x42F0E1EBA9EA3693) 8 (v ^^^ b.toNat * 2 ^ 56)
  | _ => iter (crcStepN 16 0x1021) 8 (v ^^^ b.toNat * 2 ^ 8)

/-- Initial value (R150). -/
def crcInit (code : Nat) : Nat :=
  match code with
  | 0 | 1 => 0xFFFFFFFF
  | 2 => 0
  | _ => 0xFFFF

/-- Final XOR (R150). -/
def crcFinal (code v : Nat) : Nat :=
  match code with
  | 0 | 1 => v ^^^ 0xFFFFFFFF
  | _ => v

/-- A running value advanced over bytes, then over `voids` void bytes as 0x00 (R149). -/
def crcRun (code v : Nat) (l : List Byte) (voids : Nat) : Nat :=
  iter (fun x => crcByte code x 0) voids (l.foldl (crcByte code) v)

/-! ### SHA-256 -/

/-- `n` 32-bit words of a number, the most significant first. -/
def wordsOf (n x : Nat) : List Nat := (List.range n).map fun t => x / 2 ^ (32 * (n - 1 - t)) % 2 ^ 32

/-- The round constants of FIPS 180-4 as one number of 64 words: the first 32 bits of the fractions of the cube roots of the
first 64 primes. -/
def shaK : List Nat :=
  wordsOf 64
    0x428a2f9871374491b5c0fbcfe9b5dba53956c25b59f111f1923f82a4ab1c5ed5d807aa9812835b01243185be550c7dc372be5d7480deb1fe9bdc06a7c19bf174e49b69c1efbe47860fc19dc6240ca1cc2de92c6f4a7484aa5cb0a9dc76f988da983e5152a831c66db00327c8bf597fc7c6e00bf3d5a7914706ca63511429296727b70a852e1b21384d2c6dfc53380d13650a7354766a0abb81c2c92e92722c85a2bfe8a1a81a664bc24b8b70c76c51a3d192e819d6990624f40e3585106aa07019a4c1161e376c082748774c34b0bcb5391c0cb34ed8aa4a5b9cca4f682e6ff3748f82ee78a5636f84c878148cc7020890befffaa4506cebbef9a3f7c67178f2

/-- The initial hash of FIPS 180-4 as one number of 8 words: the same of the square roots of the first 8 primes. -/
def shaInit : List Nat := wordsOf 8 0x6a09e667bb67ae853c6ef372a54ff53a510e527f9b05688c1f83d9ab5be0cd19

/-- 32-bit rotation to the right. -/
def ror (n x : Nat) : Nat := x / 2 ^ n + x % 2 ^ n * 2 ^ (32 - n)

/-- Sum of 32-bit words. -/
def add32 (a b : Nat) : Nat := (a + b) % 2 ^ 32

/-- The 16 big-endian words of a 64-byte block. -/
def shaWords : Nat → List Byte → List Nat
  | 0, _ => []
  | n + 1, l => leNat (l.take 4).reverse :: shaWords n (l.drop 4)

/-- The next word of the message schedule; `r` holds the words so far, newest first. -/
def shaNext (r : List Nat) : Nat :=
  let w2 := nthD r 1 0
  let w7 := nthD r 6 0
  let w15 := nthD r 14 0
  let w16 := nthD r 15 0
  let s0 := ror 7 w15 ^^^ ror 18 w15 ^^^ (w15 / 2 ^ 3)
  let s1 := ror 17 w2 ^^^ ror 19 w2 ^^^ (w2 / 2 ^ 10)
  add32 (add32 s1 w7) (add32 s0 w16)

/-- The 64 words of the message schedule of a block. -/
def shaSchedule (l : List Byte) : List Nat :=
  (iter (fun r => shaNext r :: r) 48 (shaWords 16 l).reverse).reverse

/-- One round over the working variables a to h. -/
def shaRound (v : List Nat) (kw : Nat × Nat) : List Nat :=
  match v with
  | [a, b, c, d, e, f, g, h] =>
    let s1 := ror 6 e ^^^ ror 11 e ^^^ ror 25 e
    let ch := (e &&& f) ^^^ ((0xFFFFFFFF ^^^ e) &&& g)
    let t1 := add32 (add32 h s1) (add32 ch (add32 kw.1 kw.2))
    let s0 := ror 2 a ^^^ ror 13 a ^^^ ror 22 a
    let mj := (a &&& b) ^^^ (a &&& c) ^^^ (b &&& c)
    [add32 t1 (add32 s0 mj), a, b, c, add32 d t1, e, f, g]
  | _ => v

/-- The compression of one 64-byte block. -/
def shaBlock (h : List Nat) (l : List Byte) : List Nat :=
  List.zipWith add32 h ((shaK.zip (shaSchedule l)).foldl shaRound h)

/-- A hash in progress (R156): intermediate hash, bits absorbed, partial block. -/
structure Sha where
  h : List Nat
  bitLen : Nat
  part : List Byte
deriving DecidableEq, Repr

/-- The state at OPEN_LANE completion (R156). -/
def Sha.start : Sha := { h := shaInit, bitLen := 0, part := [] }

/-- Absorb one byte. -/
def Sha.byte (s : Sha) (b : Byte) : Sha :=
  let p := s.part ++ [b]
  if p.length = 64 then { h := shaBlock s.h p, bitLen := s.bitLen + 8, part := [] }
  else { s with bitLen := s.bitLen + 8, part := p }

/-- Absorb bytes, then `voids` void bytes as 0x00 (R149). -/
def Sha.absorb (s : Sha) (l : List Byte) (voids : Nat) : Sha := iter (fun x => x.byte 0) voids (l.foldl Sha.byte s)

/-- The digest: FIPS 180-4 padding, then the 32 bytes of the hash, big-endian. -/
def Sha.digest (s : Sha) : List Byte :=
  let z := (119 - s.part.length) % 64
  ((s.part ++ 0x80 :: List.replicate z 0 ++ beBytes 8 s.bitLen).foldl Sha.byte { s with part := [] }).h.flatMap (beBytes 4)

/-- The 128 bytes of a lane's state in external memory (R156). -/
def Sha.bytes (s : Sha) : List Byte :=
  s.h.flatMap (beBytes 4) ++ leBytes 8 s.bitLen ++ padTo 64 s.part ++ leBytes 1 s.part.length ++ List.replicate 23 0

/-- The state that 128 bytes of external memory hold (R156). -/
def Sha.ofBytes (l : List Byte) : Sha :=
  { h := shaWords 8 l, bitLen := leNat ((l.drop 32).take 8),
    part := (l.drop 40).take (min 63 (leNat ((l.drop 104).take 1))) }

/-- SHA-256 of a message. -/
def sha256 (l : List Byte) : List Byte := (Sha.start.absorb l 0).digest

end Sys2Proof.Machine
end

