-- ==== Sys2Proof/Machine/State.lean ====
section
/-! DEFINITION. The state of the HX9 as plain data: everything the spec gives the machine.
`Dev` is the device at one instant. Registers stand in one register file, memories in canonical sparse lists, and what
each block holds behind its registers in a structure of its own, chapter by chapter. `State` holds the device twice
(R32, R33): `cur` with what is decided and staged in the present Grain, `vis` as committed at the last edge. -/

namespace Sys2Proof.Machine

open Sys2Proof

/-! ### Timebase, register bus and fault journal (chapters 01 and 18) -/

/-- The timebase's hidden state: GTIME (R41), the read and write latches of R43 keyed by requester and register, a held
low half of the wall offset (R46), the engines (by PG_ID) that overran in this Grain and the last (R37, R38), the die
link (R28), VAON, and the software lines set in this Grain (R553: bit m is line 192 + m). -/
structure Timebase where
  gtime : BitVec 64 := 0
  rdLatch : List (Nat × Word) := []
  wrLatch : List (Nat × Word) := []
  wallLo : Option Word := none
  overNow : List Nat := []
  overPrev : List Nat := []
  linkUp : Bool := true
  vaon : Bool := true
  swSet : Nat := 0
deriving DecidableEq, Repr

/-- What the register bus answered to the last access: the word read, and whether the access ended in a bus error
(R539, R547). -/
structure BusOut where
  rdata : Word := 0
  error : Bool := false
deriving DecidableEq, Repr

/-- A fault record (R554); `seq` is given when it is committed. -/
structure FaultRec where
  gtime : Nat
  seq : Nat := 0
  pgId : Nat
  code : Nat
  deg : Bool
  flt : Bool
  data : List Nat
deriving DecidableEq, Repr

/-- The fault journal (R556): records newest first (at most 256), those waiting (at most 64), those staged in this
Grain in order of decision, the MSI-X messages of this Grain (R88, R516), those a restart holds until the restore; is the fault
vector due, and the Stone in which it was last sent. -/
structure FaultJournal where
  recs : List FaultRec := []
  queue : List FaultRec := []
  staged : List FaultRec := []
  msix : List Nat := []
  saved : List FaultRec := []
  savedHead : Nat := 0
  vectorDue : Bool := false
  vectorStone : Option Nat := none
  done : Nat := 0
deriving DecidableEq, Repr

/-! ### Ledger (chapter 02) -/

/-- The nine opcodes of R71. -/
inductive Opc where
  | openLane | append | read | seal | flush | abort | mark | release | query
deriving DecidableEq, Repr

/-- Completion statuses of R84, in the order of their values 0x00 to 0x0D. -/
inductive CStat where
  | ok | aborted | tooLate | notAbortable | noTarget | laneInUse | range | void | unrecoverable | destFault
  | retained | holdLimit | sealFault | interrupted
deriving DecidableEq, Repr

/-- Lane states of R78, in the order of their values. -/
inductive LaneState where
  | free | opening | open | sealing | sealed | archived | reclaiming
deriving DecidableEq, Repr

/-- States of an open-lane context (R76, R79). -/
inductive CtxState where
  | free | opening | open | sealing
deriving DecidableEq, Repr

/-- An open-lane context (R79). `checkLost` marks a context whose running value was lost (R155). -/
structure Ctx where
  state : CtxState := .free
  lane : Nat := 0
  fifo : Nat := 0
  bay : Nat := 0
  poly : Nat := 0
  sha : Bool := false
  length : Nat := 0
  checkLost : Bool := false
deriving DecidableEq, Repr

/-- A lane descriptor (R77, R78, R251). -/
structure LaneDesc where
  state : LaneState := .free
  poly : Nat := 0
  sha : Bool := false
  length : Nat := 0
  settled : Nat := 0
  archived : Nat := 0
  openLsn : Nat := 0
  sealLsn : Nat := 0
  changed : Nat := 0
  voids : Nat := 0
  discRef : Nat := 0
  lastAppend : Nat := 0
  entries : Nat := 0
  openedAt : Nat := 0
  /-- The RELEASE that reclaimed the lane, 0 for none (R80). -/
  reclaimLsn : Nat := 0
deriving DecidableEq, Repr

/-- An entry of the completion journal (R89). `met` holds STATUS and RESULT once the condition is met; `posted` tells
whether the completion has been posted to the present incarnation, `reposted` whether to an earlier one (R90, R101), `lost` that its
word was lost, so that it is never posted (R9, R471). -/
structure JEntry where
  window : Nat
  lsn : Nat
  tag : Nat
  opc : Opc
  lane : Nat
  met : Option (CStat × Nat) := none
  posted : Bool := false
  reposted : Bool := false
  lost : Bool := false
deriving DecidableEq, Repr

/-- A hold in force (R96). `len` 0 is the whole lane, `expiry` 0 never, `cls` 0 HOST, 1 FIRMWARE, 2 SENTINEL. -/
structure Hold where
  id : Nat
  lane : Nat
  off : Nat
  len : Nat
  expiry : Nat
  cls : Nat
deriving DecidableEq, Repr

/-- The task state of an accepted task until it is completed and settled (R68, R94, R128). `cw` and `rc` are its
outstanding charge (R115, R117); `hasRecord` that a record of it is Held; `signing` and `signed` follow a SEAL (R159);
`destStopped` that host writes of it stopped (R100); `got` the bytes a READ had delivered when it was cut short (R75); `lost` the ranges of its
lane, first offset and length, that a READ of it could not recover (R9, R210); `bales` the bales gathered at a READ's decision
(R221); `effectAt` the GTIME[47:0] at which its record became Held, `rel` the hold that a RELEASE removed (R97), `voidDue` that the
LDG_VOID record of an APPEND follows the restart (R128), `host` that its window was host-owned when it was accepted (R58). -/
structure TaskSt where
  window : Nat
  lsn : Nat
  opc : Opc
  lane : Nat
  ctx : Nat := 0
  fifo : Nat := 0
  bay : Option Nat := none
  addr : Nat := 0
  length : Nat := 0
  arg0 : Nat := 0
  arg1 : Nat := 0
  argb : Nat := 0
  flags : Nat := 0
  offset : Nat := 0
  lenAt : Nat := 0
  cw : Nat := 0
  rc : Nat := 0
  fetching : Bool := false
  voidBytes : Nat := 0
  hasRecord : Bool := false
  settled : Bool := false
  signing : Bool := false
  signed : Bool := false
  copyFailed : Bool := false
  destStopped : Bool := false
  got : Nat := 0
  lost : List (Nat × Nat) := []
  bales : List Nat := []
  effectAt : Nat := 0
  rel : Option Hold := none
  voidDue : Bool := false
  host : Bool := false
deriving DecidableEq, Repr

/-- An entry of a lane as it stands Settled in flash (R74, R220): its bytes, the void bytes behind them, the ranges of lane offsets
(first, length) that are marked unrecoverable (R148, R218), and its end record (R151, R153). -/
structure SettledEntry where
  lane : Nat
  lsn : Nat
  offset : Nat
  bytes : List Byte
  voidBytes : Nat
  bay : Option Nat
  bad : List (Nat × Nat) := []
  endRec : List Byte := []
deriving DecidableEq, Repr

/-- A record without an LSN (R584): the lapse of a hold (R97), the stale record of a RECLAIMING lane (R222), the archive record of
a lane with its disc reference (R332). -/
inductive BgKind where
  | lapse (h : Hold) (gtime : Nat)
  | stale
  | archive (ref : Nat)
deriving DecidableEq, Repr

/-- A record without an LSN, not yet Settled: its lane, the bay it is bound to (R585), the last LSN accepted when it was created,
behind which it stands in LSN order (R584), and the number of its map delta in that bay once that is collected (R254). -/
structure BgRec where
  kind : BgKind
  lane : Nat
  bay : Option Nat := none
  behind : Nat := 0
  delta : Option Nat := none
deriving DecidableEq, Repr

/-- The ledger's own state. -/
structure Ledger where
  journal : List JEntry := []
  tasks : List TaskSt := []
  nextLsn : Nat := 1
  limit : Nat := 1048576
  ctxs : List (Nat × Ctx) := []
  lanes : List (Nat × LaneDesc) := []
  holds : List Hold := []
  store : List SettledEntry := []
  /-- The GTIME of the Grain that captured each window's last doorbell (R62). -/
  bells : List (Nat × Nat) := []
  /-- Lanes as they stood before an effect of an LSN above a waiting QUERY's or READ's: LSN, lane, descriptor (R77, R80). -/
  laneWas : List (Nat × Nat × LaneDesc) := []
  /-- Holds removed by a RELEASE of an LSN above a waiting QUERY's, with that LSN (R77, R80). -/
  holdWas : List (Nat × Hold) := []
  /-- How many completions each window has had posted in this Grain (R88). -/
  posted : List (Nat × Nat) := []
  /-- A host event was captured in this Grain: host doorbells of the Grain are discarded (R64). -/
  hostEventNow : Bool := false
  /-- LDG_VOID records of fetches that the Grain's host event stopped, reported one Grain later (R147): lane, LSN, void
  bytes. -/
  voidsDue : List (Nat × Nat × Nat) := []
  /-- ACTIVATE was written 0 in this Grain: it clears at the edge (R102). -/
  activateClear : Bool := false
  /-- Lapse records Settled: hold ID, lane, GTIME (R97). -/
  lapses : List (Nat × Nat × Nat) := []
  /-- The records without an LSN that are not yet Settled, oldest first (R584). -/
  background : List BgRec := []
deriving DecidableEq, Repr

/-! ### Reserve and power-loss commit (chapter 03) -/

/-- One copy of a power-loss commit in a bay (R127, R128). `items` and `bytes` are its Held items with what their pages carry,
`seals` the manifests of its seal records, `records` its Held records without an LSN, `consts` the reserve constants in the order E_FIXED, E_CW, E_REC, MIN_CW, ETA_PM,
DERATE_PM, V_FLOOR_MV, I_FLOOR_MA, `rows` the commit rows that it takes and `fails` the page programs that failed (row, element),
`crc` the CRC-64 of its close record; `orderly`: an entry to OFF wrote it (R456); `replayed`: its items have been replayed
(R224). -/
structure Commit where
  bay : Nat
  seq : Nat
  area : Nat
  gtime : Nat
  items : List TaskSt
  bytes : List SettledEntry
  seals : List (Nat × List Byte)
  records : List BgRec
  journal : List JEntry
  tasks : List TaskSt
  ctxs : List (Nat × Ctx)
  nextLsn : Nat
  limit : Nat
  consts : List Nat
  cNf : Nat
  esr : Nat
  faults : List FaultRec
  faultHead : Nat
  rows : Nat := 0
  fails : List (Nat × Nat) := []
  crc : Nat := 0
  closed : Bool := false
  failed : Bool := false
  vholdMv : Nat := 0
  grains : Nat := 0
  orderly : Bool := false
  replayed : Bool := false
deriving DecidableEq, Repr

/-- The reserve's hidden state: a measurement waiting or running, the candidates of R111, failures in a row, the
Stones since the last periodic request, the power-fail line and the commit in progress. -/
structure Reserve where
  candC : Option Nat := none
  candEsr : Option Nat := none
  adoptC : Option Nat := none
  adoptEsr : Option Nat := none
  periodStones : Nat := 0
  /-- VHOLD of the last 16 Stones, newest first: lowest, highest and last sample, mV (R109). -/
  vhist : List (Nat × Nat × Nat) := []
  measRequest : Bool := false
  measStart : Nat := 0
  mustMeasure : Bool := true
  pfLine : Bool := false
  lossGrain : Option Nat := none
  committing : Bool := false
  commitSeq : Nat := 0
  /-- Does the commit in progress write copies (R125, R570)? -/
  copying : Bool := false
  /-- Commit copies in flash, all bays (R127). -/
  commits : List Commit := []
  reported : Nat := 0
  /-- The highest reservation limit made persistent in flash (R70, R586). -/
  flashLimit : Nat := 1048576
  /-- C and ESR in the always-on SRAM (R112); `none` where they are absent (R470). -/
  aonCE : Option (Nat × Nat) := none
deriving DecidableEq, Repr

/-! ### Staging, check values and seals (chapter 04) -/

/-- A packet of a FIFO from its promise to its release (R139 to R142, R147): `promised` are its words not yet written, `words` those
written, `bytes` what they hold, `drained` those that a flash channel has read; `bad` are its 64-byte words that an uncorrectable
error spoiled (R148), `endRec` its end record (R151). -/
structure Packet where
  lsn : Nat
  lane : Nat
  ctx : Nat
  promised : Nat
  start : Nat := 0
  words : Nat := 0
  bytes : List Byte := []
  drained : Nat := 0
  voidBytes : Nat := 0
  stop : Option Nat := none
  opened : Bool := false
  closed : Bool := false
  hashed : Bool := false
  settled : Bool := false
  bad : List Nat := []
  endRec : List Byte := []
deriving DecidableEq, Repr

/-- A staging FIFO: the pointers of R142 in consumer words, its packets in acceptance order, and its diagnostic port:
the 64-byte words between S and W as eight parts each, the part the next pop reads, the last value read (R146, R162), and the VALID
of each LAST word among them, by its place (R139). -/
structure Fifo where
  w : Nat := 0
  d : Nat := 0
  h : Nat := 0
  s : Nat := 0
  packets : List Packet := []
  diagParts : List Nat := []
  diagPop : Nat := 0
  diagLast : Nat := 0
  diagEnds : List (Nat × Nat) := []
  drainStopped : Bool := false
  work : Nat := 0
deriving DecidableEq, Repr

/-- Staging, check-value units, SHA engine and seal engine. `crc` is the CRC context table (R151), unlisted 0;
`sealKey` is whether the fuse-held key is sound (R161); `signing` is the LSN of the SEAL being signed and its Grain. -/
structure Staging where
  fifos : Vector Fifo 64 := Vector.replicate 64 {}
  crc : List (Nat × Nat) := []
  signing : Option (Nat × Nat) := none
  /-- The fuse-held key in the seal engine (R159, R161). -/
  sealKey : Nat := 0
  /-- Writes of FK_CFG (0), FLUSH (1) and DIAG_EN (2) of this Grain, judged at the edge (R145): FIFO, kind, value,
  requester. -/
  requests : List (Nat × Nat × Nat × Nat) := []
  /-- Manifests signed: the SEAL's LSN and the seal record (R160). -/
  manifests : List (Nat × List Byte) := []
  /-- Next position in each FIFO's check-trail ring (R151), unlisted 0. -/
  trailPos : List (Nat × Nat) := []
  /-- Writes of CV_RUN_HI of this Grain, judged at the edge (R154): CV page, requester, context, value. -/
  runWrites : List (Nat × Nat × Nat × Nat) := []
deriving DecidableEq, Repr

/-! ### Flash channels and bays (chapter 05) -/

/-- A bus cycle that a sequencer puts on its bus (R172): a target's chip enable goes low (R165), a command or address byte, a burst in
with its bytes, one data byte, a burst out of so many bytes, an idle time in bus clock cycles. -/
inductive BusCycle where
  | select (ce : Nat)
  | cmd (b : Nat)
  | addr (b : Nat)
  | dataIn (l : List Byte)
  | dataByte (b : Nat)
  | dataOut (n : Nat)
  | idle (ck : Nat)
deriving DecidableEq, Repr

/-- What a flash operation is for (R178, R215, R222, R224). -/
inductive OpKind where
  | read | program | verify | erase | suspend | resume | reset | poll | manual
deriving DecidableEq, Repr

/-- Where a flash operation stands: queued, its item on the bus, yielded, suspended (R175, R177, R184). -/
inductive OpStage where
  | queued | onBus | yielded | suspended
deriving DecidableEq, Repr

/-- A flash operation on a channel. `pfa` and `planes` are the PFAs of its plane set and `plane` the one at work, `order` and `pri`
its place in its class (R178, R584), `held` that it carries Held data, `page` the element page (bay, stripe, row, element) of a
program or verify, `rebuilt` that it serves the rebuild of a lost die (R227), with that die's page. `acc` are the codeword reads that it serves. `rt` and
`soft` are the retry entry and its offset (0 none, 1 minus, 2 plus; R212, R214), `pre` that SET_RETRY still runs before it. `pc` is the
next recipe word, `due` the Grain of the next poll, `started` the Grain of its first yield, `susp` its suspends and `suspAt` when it
was last suspended, `target` the operation that a suspend or resume is for, `buf` and `len` a manual operation's buffer (R200). -/
structure FlashOp where
  id : Nat
  kind : OpKind
  slot : Nat
  pfa : Nat
  planes : List Nat := []
  plane : Nat := 0
  cls : Nat
  order : Nat := 0
  pri : Nat := 0
  held : Bool := false
  lsn : Nat := 0
  queuedAt : Nat := 0
  page : Option (Nat × Nat × Nat × Nat) := none
  rebuilt : Bool := false
  acc : List Nat := []
  rt : Nat := 0
  soft : Nat := 0
  pre : Bool := false
  stage : OpStage := .queued
  pc : Nat := 0
  expect : Nat := 0
  due : Nat := 0
  started : Nat := 0
  susp : Nat := 0
  suspAt : Nat := 0
  target : Nat := 0
  buf : Nat := 0
  len : Nat := 0
deriving DecidableEq, Repr

/-- A channel: its operations, the plan of this Grain and the next (operation, is it a poll; R175) with the time in ps from the edge
to the end of each, the item on the bus, the bus cycles of that item, the target whose CE_N is low, the RB_N inputs, the mode and rate
that SET_FEATURE gave its dies (R186), the last read of each LUN (LUN, PFA, Grain; R182), time-outs without a good operation between by
LUN (R180), bus ps and operations of the Stone, the isolation of a failed slice (R197), the result of a manual operation that has
ended with its bay (R200), the DQS phase of the last training (R491), and is a training due after failed drift steps (R493). -/
structure Channel where
  ops : List FlashOp := []
  plan : List (Nat × Bool) := []
  next : List (Nat × Bool) := []
  planPs : Nat := 0
  nextPs : Nat := 0
  current : Option Nat := none
  out : List BusCycle := []
  ce : Option Nat := none
  rbLow : Nat := 0
  timing : Nat × Nat := (0, 0)
  lastRead : List (Nat × Nat × Nat) := []
  touts : List (Nat × Nat) := []
  nextId : Nat := 0
  busyPs : Nat := 0
  bgPs : Nat := 0
  opCount : Nat := 0
  isolated : Bool := false
  failedAt : Option Nat := none
  disabled : Bool := false
  manualEnd : Option (Nat × Nat) := none
  trainedPh : Nat := 0
  retrain : Bool := false
deriving DecidableEq, Repr

/-- A manual operation of FCH16 on a bay in FAULT (R200): its bay is powered for it, since `since`, power-good at. -/
structure BayPower where
  since : Nat
  goodAt : Option Nat := none
deriving DecidableEq, Repr

/-- A magazine bay's hidden state (R188 to R195): the pins, when presence came or went, when the present state was
entered, when power-good came, a release requested, power for a manual operation, whether the replay writes it (R195), whether its
presence was sampled at start-up (R132). -/
structure BayState where
  presLow : Bool := false
  presSince : Nat := 0
  absentSince : Option Nat := none
  pwren : Bool := false
  since : Nat := 0
  goodAt : Option Nat := none
  release : Bool := false
  manualPower : Option BayPower := none
  recovering : Bool := false
  atStart : Bool := false
deriving DecidableEq, Repr

/-! ### Flash data integrity (chapter 06) -/

/-- What a map delta tells (R229, R254): the GATHERED entry of a bale, a change of a lane's state or archive reference, a stripe
opened, a record without an LSN, a change of the bay map, the bay map whole, or a map checkpoint. -/
inductive DeltaKind where
  | gathered (lane bale : Nat)
  | lane (n : Nat)
  | stripe (id : Nat) (bale : Bool)
  | record (k : BgKind) (lane : Nat)
  | change
  | full
  | checkpoint
deriving DecidableEq, Repr

/-- A codeword as placed (R203, R204): `last` says whether it holds the last byte of entry `lsn`, whose end record is then `endRec`.
`data` are its data bytes, 0x00 behind them; of a PARITY codeword all 4,608 bytes. `marks` are its 64-byte words marked
unrecoverable (R148), `deltas` the map deltas that a BAYMAP codeword holds, by number. -/
structure Codeword where
  kind : Nat
  lane : Nat := 0
  offset : Nat := 0
  valid : Nat := 4096
  head : Bool := false
  void : Bool := false
  unrec : Bool := false
  wseq : Nat := 0
  lsn : Nat := 0
  last : Bool := false
  data : List Byte := []
  marks : List Nat := []
  endRec : List Byte := []
  deltas : List (Nat × DeltaKind) := []
deriving DecidableEq, Repr

/-- What a codeword is read for: a READ task, a gather, a reclaim, a rebuild, a scrub, or step 4 of another read (R210). -/
inductive ReadFor where
  | task (lsn : Nat)
  | gather (lane bale : Nat)
  | reclaim (bay stripe : Nat)
  | rebuild (bay stripe : Nat)
  | scrub
  | part (access : Nat)
deriving DecidableEq, Repr

/-- A codeword read in progress (R210): its place, class, the step it has come to, the entry of its last read, the entries tried, the
reads of step 3 that have come in; at step 4 the parts still out, and whether one of them failed; whether its last read gave no
data. -/
structure Access where
  id : Nat
  why : ReadFor
  bay : Nat
  stripe : Nat
  row : Nat
  element : Nat
  cw : Nat
  cls : Nat
  step : Nat := 1
  entry : Nat := 0
  tried : List Nat := []
  softReads : Nat := 0
  parts : List Nat := []
  partFailed : Bool := false
  readBad : Bool := false
deriving DecidableEq, Repr

/-- A codec at work (R209): the access whose codeword it decodes, hard or soft, its limit of iterations, and the inputs that FINT_LLR
gives the four regions (R214). -/
structure Codec where
  access : Nat
  soft : Bool
  limit : Nat
  llr : Nat
deriving DecidableEq, Repr

/-- An element page of a row: the die and the row addresses of its planes at which it was written first, whose randomiser seeds it
keeps (R206), what it holds, and how far it has come (R215, R217, R219). -/
structure ElemPage where
  element : Nat
  die : Nat
  rows : List Nat := []
  cws : List Codeword := []
  full : Bool := false
  programmed : Bool := false
  verified : Bool := false
  failed : Bool := false
deriving DecidableEq, Repr

/-- A row of a stripe: since when it holds a codeword, its data pages, whether it is closed, and its parity page. -/
structure Row where
  row : Nat
  since : Nat
  pages : List ElemPage := []
  closed : Bool := false
  parityQueued : Bool := false
  parity : Bool := false
deriving DecidableEq, Repr

/-- A stripe of a bay (R216, R217, R221, R222): stripe number, bale stripe or log stripe, still open, its rows, waiting to
be reclaimed, its live codewords being read, being moved, the elements whose erase has not ended (`none`: not yet queued), and the erases
that have ended (element, good). -/
structure Stripe where
  id : Nat
  bale : Bool
  isOpen : Bool := true
  rows : List Row := []
  reclaim : Bool := false
  reading : Bool := false
  erasing : Bool := false
  eraseLeft : Option (List Nat) := none
  erased : List (Nat × Bool) := []
deriving DecidableEq, Repr

/-- State of a block set (R229). -/
inductive SetState where
  | free | inStripe | spare | commitArea | retired
deriving DecidableEq, Repr

/-- A block set of a die (R229, R230): state, erase count, soft decodes since its last erase, to be retired at reclaim. -/
structure BlockSet where
  state : SetState := .free
  erases : Nat := 0
  soft : Nat := 0
  retire : Bool := false
deriving DecidableEq, Repr

/-- A commit area (R224): prepared, and the commit sequence number it holds if any. -/
structure CommitArea where
  ready : Bool := false
  seq : Option Nat := none
  replayed : Bool := false
deriving DecidableEq, Repr

/-- The rebuild of a lost die (R227): the die, the stripes left, and for the stripe at work the target die and block set, whether its
programs have been queued, its pages (row, programmed, verified), and whether a program of it has failed. -/
structure Rebuild where
  die : Nat
  left : List Nat
  place : Option (Nat × Nat) := none
  written : Bool := false
  pages : List (Nat × Bool × Bool) := []
  failed : Bool := false
deriving DecidableEq, Repr

/-- What a bay's map and integrity logic hold (R211, R213, R216, R229). Block sets are keyed die × 65536 + number,
`table` is stripe_table keyed die × 65536 + slot with number + 1, `inForce` four times the retry entry in force plus its offset by LUN (R212),
`deltas` the map deltas collected and not yet placed, with their numbers, since `deltaSince` (R254); `reopen`: rows found open
at power-up are still to be closed (R235), `unmapped`: the bay's tables in external memory are still to be rebuilt (R255). -/
structure BayMap where
  sets : List (Nat × BlockSet) := []
  table : List (Nat × Nat) := []
  stripes : List Stripe := []
  learned : List (Nat × Nat) := []
  inForce : List (Nat × Nat) := []
  retry : Vector Nat 16 := Vector.replicate 16 0
  fails : List (Nat × Nat) := []
  wseq : Nat := 0
  deltas : List (Nat × DeltaKind) := []
  deltaNo : Nat := 0
  deltaSince : Nat := 0
  changes : Nat := 0
  /-- The GATHERED entries whose deltas are Settled: lane, bale, stripe, first slot, slots (R254, R255). -/
  gathered : List (Nat × Nat × Nat × Nat × Nat) := []
  areas : Vector CommitArea 2 := Vector.replicate 2 {}
  rebuild : Option Rebuild := none
  /-- Lost dies whose rebuild waits for the one in progress (R227). -/
  waiting : List Nat := []
  corrAcc : Nat := 0
  retryAcc : Nat := 0
  readAcc : Nat := 0
  stoneReads : Nat := 0
  formatStep : Nat := 0
  reopen : Bool := false
  unmapped : Bool := false
deriving DecidableEq, Repr

/-- A bale's gather in progress (R221): lane, bale, bay, and once its sources have been read the stripe, first slot and slots;
`delta` is the number of its map delta in the bay, from the edge at which the mapping names the bale stripe (R254). -/
structure Gather where
  lane : Nat
  bale : Nat
  bay : Nat
  stripe : Nat := 0
  slot : Nat := 0
  count : Nat := 0
  delta : Option Nat := none
deriving DecidableEq, Repr

/-- Flash channels, bays and integrity logic. `recipes` holds the words written over the ROM words, keyed bay × 512 +
word: the memories of a bay's channels and bank b of FCH16 always agree (R174). `placed` gives for each LSN how many bytes of its entry
stand in rows (1 for a record), `issued` the LSNs whose reads are queued. `accesses` are the codeword reads in progress, `decode` those
whose data waits for a codec. Stone counts are those of FINT_DEC_STAT; `lastRead` is the step of
R210 and the retry entry with which the last codeword read ended. -/
structure Flash where
  chans : Vector Channel 17 := Vector.replicate 17 {}
  bays : Vector BayState 4 := Vector.replicate 4 {}
  maps : Vector BayMap 4 := Vector.replicate 4 {}
  recipes : List (Nat × Option Word) := []
  placed : List (Nat × Nat) := []
  issued : List Nat := []
  gathers : List Gather := []
  accesses : List Access := []
  nextAccess : Nat := 1
  decode : List Nat := []
  codecs : Vector (Option Codec) 16 := Vector.replicate 16 none
  decRetry : Nat := 0
  decSoft : Nat := 0
  decParity : Nat := 0
  decFail : Nat := 0
  lastRead : Option (Nat × Nat) := none
deriving DecidableEq, Repr


/-! ### Peck, line store and mapping (chapter 07) -/

/-- A line in a way of Peck (R237): its tag, and whether it is newer than external memory. The bytes themselves stand in
`Dev.mem`, since no copy is newer than Peck's. -/
structure CLine where
  way : Nat
  tag : Nat
  dirty : Bool
deriving DecidableEq, Repr

/-- A set of Peck: its valid lines and the tree-PLRU bits, bit m for node m (R239). -/
structure CSet where
  lines : List CLine := []
  plru : Nat := 0
deriving DecidableEq, Repr

/-- A stream's stride detector (R242): the line of its last demand request, the last difference, its confidence. -/
structure Stride where
  last : Option Nat := none
  diff : Int := 0
  confident : Bool := false
deriving DecidableEq, Repr

/-- A request to Peck: stream, line, write (R240). -/
structure CReq where
  stream : Nat
  line : Nat
  write : Bool
deriving DecidableEq, Repr

/-- An eviction buffer entry (R247, R248): `taken` tells whether the line store has accepted or declined it, `none` while it waits. -/
structure Evict where
  line : Nat
  dirty : Bool
  taken : Option Bool := none
deriving DecidableEq, Repr

/-- A preload in progress (R246): the next line, the lines left, target ways, the places (set, way) it has filled, and whether a line of
it lay outside external memory. -/
structure Preload where
  first : Nat
  count : Nat
  ways : Nat
  filled : List (Nat × Nat) := []
  outside : Bool := false
deriving DecidableEq, Repr

/-- Peck, the line store and the mapping unit: sets by number, the outstanding miss with the requests for its line, whether its fill has
returned and waits for an eviction buffer entry, the stalled requests, prefetch fills under way, eviction buffer, line store lines (line, dirty) oldest first, preload,
detectors, counts of the Stone; pool pages in use, LSNs whose extents are written (R253) and those whose report waits for
the pool; deltas since the last checkpoint by bay (R254); has DDR ever trained (R258), and are its read and write DQ steps due after failed drift steps (R493). -/
structure Cache where
  sets : List (Nat × CSet) := []
  miss : Option (List CReq) := none
  returned : Bool := false
  stalled : List CReq := []
  prefetch : List Nat := []
  evict : List Evict := []
  store : List (Nat × Bool) := []
  preload : Option Preload := none
  strides : Vector Stride 32 := Vector.replicate 32 {}
  hits : Nat := 0
  misses : Nat := 0
  poolUsed : List Nat := []
  extents : List Nat := []
  poolWait : List Nat := []
  deltas : List (Nat × Nat) := []
  everTrained : Bool := false
  dqDue : Bool := false
deriving DecidableEq, Repr


/-! ### Fathom read channels (chapter 08) -/

/-- The marks of a frame (R274, R278 to R280). -/
structure FrameMark where
  erased : Bool := false
  low : Bool := false
  defect : Bool := false
deriving DecidableEq, Repr

/-- What the retained slot takes of a cluster that failed its first pass (R291, R292): the equalised samples at 4 bits, one reliability per
coded byte, the ranges of channel bits in defects, the marks of its frames, the codewords accepted, and the a priori of its data bits by
frame. -/
structure Held where
  samples : List Int := []
  rel : List Nat := []
  defects : List (Nat × Nat) := []
  marks : List FrameMark := []
  words : List (Option (List Byte)) := []
  apriori : List (List Int) := []
deriving DecidableEq, Repr

/-- A result record to come (R300). `held`: what the slot may retain of its cluster, which passed while the slot was free. `status` none: its cluster is retained or waits for the slot. -/
structure FRec where
  addr : Nat
  status : Option Nat
  iter : Nat := 0
  hints : Bool := false
  low : Bool := false
  defect : Bool := false
  firstFail : Nat := 0
  maxCorr : Nat := 0
  bis : Nat := 0
  total : Nat := 0
  ins : Nat := 0
  slip : Nat := 0
  defFrames : Nat := 0
  chase : Nat := 0
  seq : Nat := 0
  index : Nat := 0
  kind : Nat := 0
  waits : Bool := false
  data : List Byte := []
  held : Option Held := none
deriving DecidableEq, Repr

/-- A read job (R298): kind, SEQ, first address, destination, clusters, GO's Grain, the address of the next cluster once it
has started and how many have been read. -/
structure FJob where
  kind : Nat
  seq : Nat
  addr : Nat
  dst : Nat
  count : Nat
  goAt : Nat
  next : Option Nat := none
  index : Nat := 0
  posted : Nat := 0
deriving DecidableEq, Repr

/-- Corrections of an ADC slice (R268, R269): offset LSB, gain deviation per mille, skew ps; failures in a row. -/
structure Slice where
  offset : Int := 0
  gain : Int := 0
  skew : Int := 0
  fails : Nat := 0
deriving DecidableEq, Repr

/-- What a read channel holds behind its page. Rotation step and its Grain (R268), sync flywheel: lock, syncs towards it,
insertions in a row, slip candidate, frame number, the place of the frame in its cluster as the identifiers give it, the flywheel's phase in
channel bits, since when lock is lost and at which frame, the stretches (first frame, frame of the new lock) without lock (R277 to R281);
by frame number the marks erasure-hinted, low-confidence, defect-hinted, and the frames with a detection of R280; counts of the Stone; the
job and the records in cluster order (R294); a remap in progress (R304); clusters for the write path's compare unit (R299). -/
structure Fth where
  step : Nat := 0
  stepAt : Option Nat := none
  slices : Vector Slice 5 := Vector.replicate 5 {}
  defect : Bool := false
  locked : Bool := false
  lockCount : Nat := 0
  inserted : Nat := 0
  slip : Option Int := none
  frame : Nat := 0
  place : Option Nat := none
  phase : Int := 0
  lostAt : Nat := 0
  lostFrame : Option Nat := none
  outages : List (Nat × Nat) := []
  erased : List Nat := []
  lowConf : List Nat := []
  defFrames : List Nat := []
  slipped : List Nat := []
  wobHits : Nat := 0
  wobMiss : Nat := 0
  job : Option FJob := none
  recs : List FRec := []
  remap : Bool := false
  compare : List FRec := []
  corrAcc : Nat := 0
  bisAcc : Nat := 0
  missAcc : Nat := 0
  failAcc : Nat := 0
  retAcc : Nat := 0
  defAcc : Nat := 0
deriving DecidableEq, Repr

/-- The retained slot (R290 to R293): owner channel, cluster address, iterations, failing codewords, iterations without a
fall, retention's Grain, and what the slot holds of the cluster. -/
structure RetSlot where
  chan : Nat
  addr : Nat
  iter : Nat := 0
  failing : Nat := 0
  stall : Nat := 0
  since : Nat := 0
  held : Held := {}
deriving DecidableEq, Repr

/-- The read channels and the iteration engine. -/
structure Fathom where
  chans : Vector Fth 5 := Vector.replicate 5 {}
  slot : Option RetSlot := none
  iters : Nat := 0
  okAcc : Nat := 0
  failAcc : Nat := 0
deriving DecidableEq, Repr


/-! ### Optical write path (chapter 09) -/

/-- A burn job (R327): SEQ, first address, image base, clusters, the next cluster, BURN records posted, when it last armed. -/
structure BurnJob where
  seq : Nat
  addr : Nat
  src : Nat
  count : Nat
  index : Nat := 0
  posted : Nat := 0
  armedAt : Nat := 0
  inhibits : Nat := 0
deriving DecidableEq, Repr

/-- What a modulated stretch ends in: the 17PP code's state, the level of the last channel bit, the running digital sum (R316). -/
structure Line where
  pp : Nat := 0
  level : Bool := false
  sum : Int := 0
deriving DecidableEq, Repr

/-- A frame to a laser driver: its bits, its word, the SPI mode, SCK in hertz (R320, R334). -/
structure SpiFrame where
  bits : Nat
  word : Nat
  mode : Nat
  hz : Nat
deriving DecidableEq, Repr

/-- What a write port holds behind its page (R316 to R328): the job, is the recording's light on, since when no cause has been in force,
Grains clamped in a row of PW, PM, PS and PC, has the limit been noted, the causes that struck in this Grain, the five levels as last sent
(PW, PM, PS, PC, PR), the SPI frames of this Grain, the levels of the recording's channel bits so far, and what they end in. -/
structure Owp where
  job : Option BurnJob := none
  light : Bool := false
  clearSince : Nat := 0
  clamped : Vector Nat 4 := Vector.replicate 4 0
  limited : Bool := false
  struck : Nat := 0
  sent : Vector (Option Nat) 5 := Vector.replicate 5 none
  spi : List SpiFrame := []
  written : List Bool := []
  line : Line := {}
deriving DecidableEq, Repr

/-- An encode request (R310): first address, count, next cluster, addresses, disc reference, layer, format. -/
structure EncReq where
  addr : Nat
  count : Nat
  index : Nat := 0
  src : Nat
  ucd : Nat
  dst : Nat
  ref : Nat
  layer : Nat
  format : Nat
deriving DecidableEq, Repr

/-- Progress of an OPEN ticket (R331): index, the next cluster of its range, bytes of the lane and manifest seen, running CRC
and SHA-256, manifest bytes read; `signature`: it waits for the seal engine. -/
structure Ticket where
  index : Nat
  next : Nat := 0
  crc : Nat := 0
  sha : Sha
  manifest : List Byte := []
  signature : Bool := false
deriving DecidableEq, Repr

/-- The optical write path: ports, encoder, tickets in progress, and tickets whose archive record is Held (ticket, lane). -/
structure Optical where
  ports : Vector Owp 4 := Vector.replicate 4 {}
  enc : Option EncReq := none
  tickets : List Ticket := []
  commits : List (Nat × Nat) := []
deriving DecidableEq, Repr


/-! ### Servo engine (chapter 10) -/

/-- A loop slot's states (R347), its following-error count, FOLLOW, and whether it holds its loop (R355 to R357). -/
structure Slot where
  i : Int := 0
  x1 : Int := 0
  x2 : Int := 0
  y1 : Int := 0
  y2 : Int := 0
  df : Int := 0
  y : Int := 0
  fe : Nat := 0
  follow : Bool := false
  hold : Bool := false
deriving DecidableEq, Repr

/-- A commit of a shadow that the next edge makes (R351). -/
structure SlotCommit where
  slot : Nat
  words : List Word
  clr : Bool
deriving DecidableEq, Repr

/-- A servo engine: slots, the shadow (the words SLOT_CFG to SLOT_FE), commits of this Grain, Grains with a limited output
and with a frozen integrator in the running Stone, the lane that the spare serves for good, lanes without one, and has a lane been found
failing in this Grain (R373). -/
structure Engine where
  slots : Vector Slot 64 := Vector.replicate 64 {}
  shadow : List Word := []
  commits : List SlotCommit := []
  satG : Nat := 0
  freezeG : Nat := 0
  spare : Option Nat := none
  dead : Nat := 0
  lost : Bool := false
deriving DecidableEq, Repr

/-- Where a track jump stands (R370). -/
inductive JumpPhase where
  | kick | brake | settle
deriving DecidableEq, Repr

/-- Where a single layer jump stands (R369); `coast low`: row 7 has been below SUM_ON. -/
inductive LayerPhase where
  | kick | coast (low : Bool) | brake | after | focus | tracking
deriving DecidableEq, Repr

/-- What a port's sequencer is running: nothing, a search, TRACK_ON, a track jump (tracks, drive held, Grain of the kick,
crossings), or a layer jump (target, did it begin in TRACKING, drive held, Grain of the kick, Grain of the phase). -/
inductive SeqOp where
  | none
  | search (back : Bool) (count : Nat) (closed : Bool)
  | trackOn
  | jump (n h : Int) (start count : Nat) (phase : JumpPhase)
  | layer (target : Nat) (tracking : Bool) (h : Int) (start at_ : Nat) (phase : LayerPhase)
deriving DecidableEq, Repr

/-- An optical port: captured rows, on which side of the hysteresis fast rows 0 and 1 stand (`true`: above), crossings captured
at the last edge, the sequencer's run, captures in the window since `settleFrom`, Grains below SUM_LOSS, a declared focus
loss, a held focus loop, a command taken in this Grain, SPN_DEMAND, a sled request for the next edge, the mean and the lowest envelope,
a new wedge, a driver fault with its cause, and the loops that close at the next edge with the drive held before (R349). -/
structure OptPort where
  rows : Vector Int 8 := Vector.replicate 8 0
  above0 : Option Bool := none
  above1 : Option Bool := none
  cross0 : Nat := 0
  cross1 : Nat := 0
  op : SeqOp := .none
  settleFrom : Nat := 0
  settle : Nat := 0
  flCount : Nat := 0
  lost : Bool := false
  focusHold : Bool := false
  cmdTaken : Bool := false
  demand : Int := 0
  sled : Option Int := none
  env : Nat := 0
  envMin : Nat := 0
  tiltNew : Bool := false
  drvFault : Bool := false
  drvCause : Bool := false
  closing : List (Nat × Option Int) := []
deriving DecidableEq, Repr

/-- The servo engines and the ports. -/
structure Servo where
  engines : Vector Engine 2 := Vector.replicate 2 {}
  ports : Vector OptPort 4 := Vector.replicate 4 {}
deriving DecidableEq, Repr

/-! ### Motor commutation (chapter 11) -/

/-- What a bridge does: gates off, a motoring duty, short-circuit or regenerative braking of a strength (Q1.15). -/
inductive Drive where
  | coast
  | motor (duty : Nat)
  | short (b : Nat)
  | regen (b : Nat)
deriving DecidableEq, Repr

/-- What follows a brake: OFF after a BRAKE command, after a failed catch a new START or OFF with CMD_FAIL (R392). -/
inductive AfterBrake where
  | command | restart | off
deriving DecidableEq, Repr

/-- A motor channel behind its page. Instants are in 10 ns since GTIME 0, 400 to the Grain: Grain of the phase's start, tries
and whether a pause runs, the last (or predicted) crossing, the intervals of the last two, the sector period, the planned and
the last commutation, valid crossings in a row, missed sectors in a row, Grain of the last commutation event, sectors within
the revolution, ramp phase, Hall code and whether Hall commutation is set aside, duty in force, drive, since when the counter
runs, until when the high side is off, what follows a brake, has a brake window measured the speed, a command taken in this
Grain, is a gate fault's cause present, and the Stone's counts. -/
structure Motor where
  since : Nat := 0
  tries : Nat := 0
  pause : Bool := false
  lastX : Option Nat := none
  gaps : List Nat := []
  period : Nat := 0
  plan : Option Nat := none
  commAt : Nat := 0
  run : Nat := 0
  missed : Nat := 0
  lastEvent : Nat := 0
  turn : Nat := 0
  rampAcc : Nat := 0
  hall : Nat := 0
  hallOff : Bool := false
  duty : Int := 0
  drive : Drive := .coast
  pwmFrom : Nat := 0
  hiOffUntil : Nat := 0
  after : AfterBrake := .command
  measured : Bool := false
  cmdTaken : Bool := false
  cause : Bool := false
  comms : Nat := 0
  missAcc : Nat := 0
  lateAcc : Nat := 0
deriving DecidableEq, Repr

/-- The motors and the VMOT bus: Grains at or above LIMIT_MV, and below it, in a row (R399). -/
structure Motors where
  chans : Vector Motor 6 := Vector.replicate 6 {}
  ovCount : Nat := 0
  okCount : Nat := 0
deriving DecidableEq, Repr

/-! ### Motion engine (chapter 12) -/

/-- What an axis does when its stop has ended (R413, R426). -/
inductive AfterStop where
  | idle | home | homeFail
deriving DecidableEq, Repr

/-- An axis behind its page: the 40-bit phase accumulator, position, phase, velocity and direction at the start of the last
Grain (R426), a position that the next edge sets, the target, is the move a sled request, is a reversal under way (R420), the
latched home position, what follows a stop, Grain of the state's start, stall and deviation counts, master count last
captured and before it, gear fraction (2^−16 steps) and lag before and after this Grain, a command taken in this Grain, and
the Stone's counts. -/
structure Axis where
  phase : Nat := 0
  gPos : Int := 0
  gPhase : Nat := 0
  gVel : Nat := 0
  gNeg : Bool := false
  posSet : Option Int := none
  target : Int := 0
  sled : Bool := false
  reversing : Bool := false
  homeAt : Option Int := none
  after : AfterStop := .idle
  since : Nat := 0
  stall : Nat := 0
  dev : Nat := 0
  master : Int := 0
  masterOld : Int := 0
  fracOld : Int := 0
  frac : Int := 0
  lagOld : Int := 0
  lag : Int := 0
  cmdTaken : Bool := false
  switched : Bool := false
  steps : Nat := 0
  raises : Nat := 0
  overs : Nat := 0
deriving DecidableEq, Repr

/-! ### Utility DMA (chapter 13) -/

/-- The engine: requests by the Grain of their capture and channel, the channel whose run is in progress with the Grain at whose edge it
begins and the elements it has moved, timers that have fired in this Grain, elements moved in the running Stone (R436 to R438). -/
structure Bushel where
  queue : List (Nat × Nat) := []
  running : Option Nat := none
  began : Nat := 0
  moved : Nat := 0
  fired : Nat := 0
  elems : Nat := 0
deriving DecidableEq, Repr

/-! ### Power states and Scruple (chapter 14) -/

/-- Where the power controller stands: RUN or IDLE; an entry at a step, its PREPARE edge; COMMIT staged; a rollback after step
`fail`, the step being re-woken and its edge; waiting to retry; asleep; waking, the step being brought up and its edge; OFF. -/
inductive PwrPhase where
  | awake
  | entry (step since : Nat)
  | commit
  | rollback (fail step at_ : Nat)
  | retryWait
  | asleep
  | waking (step at_ : Nat)
  | off
deriving DecidableEq, Repr

/-- The power controller: phase, target (1 IDLE, 2 SLEEP, 3 DEEP, 4 OFF), SEQ, retries made, is a retry due, the Grain of the
last abort and the PG_ID it recorded for a refusal, steps that have stopped (bit s), is the device in IDLE, answers of the
step (who, 1 AGREE or 2 DELAY, Grain), AON_T, the carry, GTIME and AON_T at COMMIT, a pending RULE wake, does the wake serve a supply
loss (R447 to R457), PWR_HOLD, and is the listening MAC the one powered. -/
structure Power where
  phase : PwrPhase := .awake
  target : Nat := 3
  seq : Nat := 0
  retries : Nat := 0
  retry : Bool := false
  abortAt : Nat := 0
  refused : Option Nat := none
  stopped : Nat := 0
  idle : Bool := false
  answers : List (Nat × Nat × Nat) := []
  aonT : Nat := 0
  carry : Nat := 0
  gtimeCommit : Nat := 0
  aonCommit : Nat := 0
  ruleWake : Bool := false
  lossWake : Bool := false
  hold : Bool := false
deriving DecidableEq, Repr

/-- A rule of Scruple behind its registers (R460): consecutive periods with c true, eff of the last period, periods with eff
false since it fired, operand of the last period. -/
structure ScrRule where
  run : Nat := 0
  eff : Bool := false
  idle : Nat := 0
  prev : Int := 0
deriving DecidableEq, Repr

/-- Scruple: the signals 0x00 to 0x08, filter states, rules, samples at a new ignition level, entries in the log, GTIME of the
capture of marks waiting to be resolved by slot (R462), and the mark slots captured while DCLK was stopped. -/
structure Scruple where
  signals : Vector Int 9 := Vector.replicate 9 0
  lp : Vector Int 8 := Vector.replicate 8 0
  rules : Vector ScrRule 32 := Vector.replicate 32 {}
  ignRun : Nat := 0
  logged : Nat := 0
  times : List (Nat × Nat) := []
  asleep : List Nat := []
deriving DecidableEq, Repr

/-! ### Memory protection, BIST and fuses (chapter 15) -/

/-- A row or column repair (R477): array, its unit of 8,192 words, column or row, slice, address in the unit, spare, Grain in
which it was taken. -/
structure Repair where
  array : Nat
  unit : Nat
  col : Bool
  slice : Nat
  addr : Nat
  spare : Nat
  since : Nat
deriving DecidableEq, Repr

/-- The protection logic: per array the scrub position, the first Grain of the next scrub, REPAIR mode by bit (0 start-up,
2 recovery), has the running pass met an uncorrectable word; (array, word, bit) corrected by a write-back, and hard faults;
repairs being copied and in force; pending fuse entries and the fuse words used (R485); items retired under R486 (array, item)
and staging units waiting to be; raw test words (array, word, data, check bits). BIST: slices under test with their start, tested in this cycle, failing; Stones of the cycle, the first Grain of
the next start; Grain of a burn's start. -/
structure Protect where
  pos : Vector Nat 12 := Vector.replicate 12 0
  due : Vector Nat 12 := Vector.replicate 12 0
  mode : Vector Nat 12 := Vector.replicate 12 1
  dirty : Vector Bool 12 := Vector.replicate 12 false
  corrected : List (Nat × Nat × Nat) := []
  hard : List (Nat × Nat × Nat) := []
  copying : List Repair := []
  taken : List Repair := []
  pending : List Nat := []
  fuses : List Nat := []
  retired : List (Nat × Nat) := []
  retiring : List Nat := []
  words : List (Nat × Nat × Nat × Nat) := []
  testing : List (Nat × Nat) := []
  tested : List Nat := []
  failing : List Nat := []
  cycle : Nat := 0
  nextStart : Nat := 0
  spareEntries : Nat := 0
deriving DecidableEq, Repr


/-! ### Calibration, ageing and the margin plan (chapter 16) -/

/-- A calibrated element (R491, R493, R494, R496): failures in a row, has it failed, Grain of its last successful step since power-on
or wake, the values in use that no register shows, and which of its redundant elements are in use: the delay line of path 2, each phase's
comparator of path 5, the references or sensors of path 4 that are not dropped. -/
structure CalElem where
  fails : Nat := 0
  failed : Bool := false
  okAt : Option Nat := none
  vals : List Int := []
  chosen : List Nat := []
deriving DecidableEq, Repr

/-- A step in progress: its element, the Grain in which it started, and, for path 1, the Grains taken and the sum of their samples. -/
structure CalRun where
  key : Nat
  since : Nat
  grains : Nat := 0
  sum : Nat := 0
deriving DecidableEq, Repr

/-- The sums of a laser's pairs (c, m) over the review period (R499). -/
structure LaserSum where
  n : Nat := 0
  c : Int := 0
  m : Int := 0
  cc : Int := 0
  cm : Int := 0
deriving DecidableEq, Repr

/-- An item of a margin plan (R501). -/
structure PlanItem where
  kind : Nat
  inst : Nat
  index : Nat
  value : Nat
deriving DecidableEq, Repr

/-- Calibration and margin plan: elements by path × 256 + number, steps running; sums of the lasers, of the
spindles (samples, sum) with the speed of the last Stone and whether this Stone's conditions have held so far, the last sample of the other measures (ID, samples, value); a
checked plan waiting for its Stone edge, items held back, a lower derating waiting (R506); Stones of ample slack (R508); the
Grain of the last review, the Grains for which each port has been IDLE, up to 64, and has a wake to be acted on (R496). -/
structure Calib where
  elems : List (Nat × CalElem) := []
  running : List CalRun := []
  laser : Vector LaserSum 4 := Vector.replicate 4 {}
  spin : Vector (Nat × Nat) 4 := Vector.replicate 4 (0, 0)
  spinRpm : Vector Nat 4 := Vector.replicate 4 0
  spinOk : Vector Bool 4 := Vector.replicate 4 false
  samples : List (Nat × Nat × Int) := []
  plan : Option (List PlanItem) := none
  held : List PlanItem := []
  derate : Option Nat := none
  slack : Nat := 0
  reviewAt : Option Nat := none
  idle : Vector Nat 4 := Vector.replicate 4 0
  woken : Bool := false
deriving DecidableEq, Repr


/-! ### External interfaces (chapter 17) -/

/-- A VCORE request on its way (R531): the voltage asked for in mV, what READ_VOUT gives after each attempt (`none`: a NAK), and the
Grain in which it ends. -/
structure PmbRun where
  want : Nat
  got : List (Option Nat)
  until_ : Nat
deriving DecidableEq, Repr

/-- The links behind their pages: the MSI-X table by dword and the pending-bit array (R516), is PCIE_WAKE_N driven low, was a
link event captured in this Grain and which kind (R517); the last Ethernet frame and CAN buffer sent; levels of the shock comparator and of
ACC_INT (R528), the place of the last periodic read in the sequence of reads, a raw transfer's end and what it returns, and the bytes it
sent (R527); the VCORE value last sent in mV, the request on its way and the bytes last written on the PMBus (R530, R531); consecutive
edges at which each GPIO input differed from GPIO_IN (R533); has the latched event not been read, and the Grain up to which PPS_OUT is
high (R534). -/
structure Links where
  msixTab : List (Nat × Word) := []
  msixPend : Nat := 0
  wakeLow : Bool := false
  eventNow : Nat := 0
  ethSent : List Byte := []
  canSent : List Byte := []
  compHigh : Bool := false
  accInt : Bool := false
  accSlot : Option Nat := none
  accRun : Option (Nat × Word) := none
  accSent : List Byte := []
  vcoreSent : Nat := 750
  pmbRun : Option PmbRun := none
  pmbSent : List Byte := []
  gpioRun : Vector Nat 32 := Vector.replicate 32 0
  evtUnread : Bool := false
  ppsUntil : Nat := 0
deriving DecidableEq, Repr


/-! ### Start-up and resets (chapter 19) -/

/-- Where start-up stands: the step of R563 that runs (0: a power-on reset is asserted, 7: none is left), have steps 2 and 3
ended, causes of a warm reset that the next edge takes (RST_CAUSE bits), the first Grain in which the cores run (R569), has AUTH
passed the last image named (R566), is the boot key digest a word that could not be corrected (R564), and what is burned and so
survives every reset: rollback fuses (R580). -/
structure StartUp where
  step : Nat := 1
  fused : Bool := false
  linked : Bool := false
  warm : Nat := 0
  coresAt : Nat := 0
  auth : Bool := false
  keyBad : Bool := false
  rollback : Nat := 0
deriving DecidableEq, Repr

/-! ### The device -/

/-- The HX9 at one instant. `regs` is the register file (address, word), unlisted registers at their value after
power-on reset; `irqSet` the PG_IRQ_RAW bits set in this Grain by page (R544); `mem` device memory, `host` host memory, `aon` the
always-on SRAM (R463), unlisted bytes 0. `fresh` counts the free values drawn so far (the model's own, notes/assumptions/5.md). -/
structure Dev where
  regs : List (Nat × Word) := []
  irqSet : List (Nat × Nat) := []
  mem : List Host.Cell := []
  host : List Host.Cell := []
  fresh : Nat := 0
  tb : Timebase := {}
  bus : BusOut := {}
  fj : FaultJournal := {}
  ldg : Ledger := {}
  rsv : Reserve := {}
  stg : Staging := {}
  fls : Flash := {}
  mc : Cache := {}
  fth : Fathom := {}
  owp : Optical := {}
  ell : Servo := {}
  cmt : Motors := {}
  axes : Vector Axis 12 := Vector.replicate 12 {}
  encSet : Vector (Option Word) 8 := Vector.replicate 8 none
  ud : Bushel := {}
  pwr : Power := {}
  scr : Scruple := {}
  aon : List Host.Cell := []
  prt : Protect := {}
  cal : Calib := {}
  lnk : Links := {}
  su : StartUp := {}
deriving DecidableEq, Repr

/-! ### The machine -/

/-- Why a step stops with a fault. The model raises none: every command has an effect, be it that nothing changes. -/
inductive Fault where
  /-- Raised by nothing; stands for a stop that the spec would call undefined. Safe: a stop proves nothing false. -/
  | undefined
deriving DecidableEq, Repr

/-- Why a command has no meaning. -/
inductive Refusal where
  /-- Raised by the dispatch alone, for a command whose meaning is not written. Safe. -/
  | notModelled (mnemonic : String)
deriving DecidableEq, Repr

/-- A command as a Grain's record notes it (R34): the commands of Instr, those of the table's second half that carry operands each
under its own name. -/
inductive Noted where
  | cmd (i : Instr)
  | gearSwitch (n : Fin 12)
  | softLimitReached (n : Fin 12)
  | homeInput (n : Fin 12) (clk : Fin 500)
  | homeTimeout (n : Fin 12)
  | cencPosWrite (e : Fin 8) (v : Word)
  | udStart (c : Fin 32) (r : Requester)
  | udStop (c : Fin 32)
  | udTimerFire (t : Fin 16)
  | udBusError (write : Bool)
  | pwrGo (r : Requester) (v : Word)
  | pwrAnswer (who : Nat) (busy : Bool)
  | wake (sources : BitVec 10) (t : Nat)
  | wakeTimerExpiry (t : Nat)
  | sleepSupplyLoss (t : Nat)
  | offEntry (mv : BitVec 16) (failed : BitVec 4)
  | sentinelPeriod (x : BitVec 16) (y : BitVec 16) (z : BitVec 16) (ign : Bool) (vmot : BitVec 16) (vhold : BitVec 16) (tl : BitVec 16) (tp : BitVec 16) (cycles : Option Nat)
  | scrRuleWrite (b : Bool) (v : Word)
  | scrFiltWrite (f : Fin 8) (v : Word)
  | scrLaneDataWrite (v : Word)
  | markResolve (q : Fin 16)
  | scrMarkAckWrite (v : Word)
  | scrOutClear (v : Word)
  | pwrBridgeLoRead (r : Requester)
  | pwrAonTLoRead (r : Requester)
  | memReadCorr (a : Fin 11) (w : Nat) (b : Nat)
  | memReadUncorr (a : Fin 11) (w : Nat) (u : MemUser) (endBad : Bool) (lsn : Nat)
  | memNarrowWrite (a : Fin 11) (page : Nat) (r : Requester) (addr : BitVec 56)
  | aonParityError (item : AonItem) (addr : BitVec 16) (u : MemUser)
  | scrubStep (a : Fin 11) (found : List (Nat × Nat)) (bad : List Nat)
  | softRepair (a : Fin 11) (w : Nat) (b : Nat) (rowErr : Nat) (colErr : Nat)
  | repairCopyDone (a : Fin 11) (unit : Nat)
  | memoryMarch (fails : List (Fin 11 × Nat × Nat × Bool))
  | memTestDataLoRead (r : Requester) (data : BitVec 64) (chk : BitVec 40)
  | memTestChkWrite (v : Word)
  | memTestEnWrite (r : Requester) (v : Word)
  | lbistTestResult (i : Fin 156) (ok : Bool) (again : Bool)
  | sliceFailing (i : Fin 156)
  | maintOpen (r : Requester) (tLogic : Int) (tPower : Int)
  | fuseBurnInterrupt (done : Nat)
  | failedBitClear (m : FailedMask)
  | calStep (path : Fin 7) (e : Nat) (v : Option CalValue)
  | calStepAbandon (path : Fin 7) (e : Nat)
  | planSubmit (r : Requester) (v : Word) (bad : Option (Fin 256))
  | pcieLinkUp (speed : BitVec 4) (width : BitVec 4)
  | perstRelease (t : Nat)
  | completionError (k : CplError) (lsn : Option Nat) (good : Nat)
  | bar2Write (o : BitVec 16) (v : Word)
  | ethFrameReceive (frame : List Byte) (good : Bool) (back : Nat) (cycle : BitVec 12) (fails : Bool) (t : Nat)
  | ethFrameTransmit (back : Nat) (cycle : BitVec 12) (fails : Bool)
  | ethRingCfgWrite (v : Word)
  | canFrameReceive (n : Fin 2) (fr : CanFrame) (back : Nat) (cycle : BitVec 12) (tec rec : Byte)
  | canFrameTransmit (n : Fin 2) (tec rec : Byte)
  | canBusOff (n : Fin 2)
  | canBusOffRejoin (n : Fin 2) (run : Bool)
  | accRead (x : BitVec 16) (y : BitVec 16) (z : BitVec 16) (int : Bool)
  | accRawTransfer (v : Word) (rx : Word)
  | pmbusRequest (got : List (Option Nat))
  | pmbusAlert (status : BitVec 16)
  | pmbusVoutModeRead (mode : Byte)
  | ignitionChange (on : Bool)
  | evtInEdge (cycle : BitVec 12)
  | pgSoftReset (page : Word) (r : Requester) (freeze : Bool) (enable : Bool)
  | pgCtlDeniedWrite (page : Word) (r : Requester) (v : Word)
  | pgIrqClrWrite (page : Word) (v : Word)
  | pgErrInfoClear (page : Word)
  | irqSwSet (hi : Bool) (v : Word)
  | irqSwClr (hi : Bool) (v : Word)
  | powerOnReset (clock : Bool)
  | startUp (locks : BitVec 5)
  | fuseLoad (w : FuseWords)
  | bootRom (a : Option FwImage) (b : Option FwImage)
  | auth (i : FwImage)
  | fmRollbackInc (r : Requester)
  | rstCtlWarm (key : Byte)
  | rstCtlApp (key : Byte)
  | rstNLow (ns : Nat)
  | lockstepMismatch (_pair : Fin 2)
  | timingLock (k : Fin 5) (on : Bool) (kbps : Nat)
  | pwrHoldRise (mv : Nat) (us : Nat)
  | sgmiiLinkChange (up : Bool) (speed : Fin 3)
  | layerCoastEnd (p : Fin 4)
  | startRetry (c : Fin 6)
  | manifestVerifyDone (i : Fin 4096)
deriving DecidableEq, Repr

/-- The present Grain as its edge finds it (R30, R34, R37): the device as the Grain began, the samples its edge captured, the
commands carried over from an overrun Grain, and the commands captured in it, in the order in which they came. -/
structure Grain where
  cur : Dev := {}
  vis : Dev := {}
  input : GrainIn := {}
  stone : Option StoneIn := none
  carried : List Noted := []
  done : List Noted := []
deriving DecidableEq, Repr

/-- The machine: the device as decided so far (`cur`) and as committed at the last Grain edge (`vis`), the Grain's own record, and the
commands that wait, first in, first out. -/
structure State where
  cur : Dev := {}
  vis : Dev := {}
  grain : Grain := {}
  pending : List Instr := []
deriving DecidableEq, Repr

/-- The device right after VAON has powered up and power-on reset has been asserted (R24, R41, R105, R556): every register at its
table's value, GTIME 0, EPOCH_LOST of TB_STAT set (R46), memories with nothing listed. -/
def Dev.reset : Dev := { regs := [(0x4000404C, 1)] }

/-- The machine right after reset; no command waits. -/
def State.reset : State := { cur := Dev.reset, vis := Dev.reset, grain := { cur := Dev.reset, vis := Dev.reset } }

end Sys2Proof.Machine
end

