-- ==== Sys2Proof/Machine/Order.lean ====
section
/-! DEFINITION. The order in which the commands of one Grain are handled (R30, R34, R35, R64), and the engine that decides each
(R37). -/

namespace Sys2Proof.Machine

open Sys2Proof

/-- The phase of a register write: LDG_CTL and a TW_CQ_CFG with ARMED 0 come first, TW_CQ_CONS and a COMMIT of AR_CMD with the reports (R64,
R332), a STOP of UD_CTL behind every START (R444). -/
def writePhase (addr v : Word) : Nat :=
  let a := addr.toNat
  let inWindows := decide (0x40100000 ≤ a) && decide (a < 0x40140000)
  if a = pgLdg + LDG_CTL.off || (inWindows && a % 0x1000 == TW_CQ_CFG.off && !bit v.toNat 31) then 0
  else if (inWindows && a % 0x1000 == TW_CQ_CONS.off) || (a = pgWarc + AR_CMD.off && bits v.toNat 24 2 == 2) then 1
  else if pgUd 0 ≤ a && a < pgUd 32 && a % 0x1000 == UD_CTL_STOP.off && bit v.toNat 1 then 3
  else 2

/-- The place of a command among those of its Grain (R30, R34, R64): 0 supply, power-fail and fault events with what R64 puts
beside them; 1 completions and reports; 2 commands of software; 3 what the timer phase evaluates (R35); 4 the output phase; 5 what the next
edge begins. -/
def Noted.phase : Noted → Nat
  | .cmd (.registerWrite _ a v) => writePhase a v
  | .cmd (.grainOverrun ..) | .cmd (.dieLinkLoss ..) | .cmd .dieLinkReturn | .cmd .vaonPowerUp | .cmd .vaonLoss
  | .cmd (.ringDisarm ..) | .cmd (.functionLevelReset ..) | .cmd (.hotReset ..) | .cmd (.linkLoss ..) | .cmd (.perstAssert ..)
  | .cmd .activateSet | .cmd .activateClear | .cmd (.acceptEnWrite ..) | .cmd (.powerFailAssert ..)
  | .cmd (.supplyLossCapture ..) | .cmd (.sequencerFail ..) | .cmd (.adcSliceFail ..) | .cmd (.readChannelFail ..)
  | .cmd (.fastInhibit ..) | .cmd (.immediateInhibit ..) | .cmd (.focusLoss ..) | .cmd (.driverFault ..)
  | .cmd (.servoLaneFail ..) | .cmd (.currentLimit ..) | .cmd (.chopperFault ..) | .cmd (.vmotAbsolute ..)
  | .cmd (.gateFault ..) | .cmd (.sledStall ..) | .cmd (.deviationStall ..) => 0
  | .softLimitReached .. | .sleepSupplyLoss .. | .offEntry .. | .memReadUncorr .. | .aonParityError .. | .sliceFailing ..
  | .powerOnReset .. | .rstNLow .. | .lockstepMismatch .. | .pwrHoldRise .. => 0
  | .cmd (.tbGtimeLoRead ..) | .cmd (.tbWallOfsHiWrite ..) | .cmd (.registerAccessError ..)
  | .cmd (.poweredDownAccess ..) | .cmd (.openLane ..) | .cmd (.append ..) | .cmd (.read ..) | .cmd (.seal ..)
  | .cmd (.flush ..) | .cmd (.abort ..) | .cmd (.mark ..) | .cmd (.release ..) | .cmd (.query ..)
  | .cmd (.doorbellBusyWrite ..) | .cmd (.ringArm ..) | .cmd (.ldgNextLsnLoRead ..) | .cmd (.ldgLsnLimitLoRead ..)
  | .cmd (.rsvCommitSeqLoRead ..) | .cmd .measGo | .cmd (.fkCfgWrite ..) | .cmd (.fkFlush ..) | .cmd (.fkDiagEnWrite ..)
  | .cmd (.fkDiagHiWrite ..) | .cmd (.fkDiagEndWrite ..) | .cmd (.fkDiagLoRead ..) | .cmd (.cvRunLoRead ..)
  | .cmd (.cvRunLoWrite ..) | .cmd (.cvRunHiWrite ..) | .cmd (.bayWriteEnWrite ..) | .cmd (.bayRelease ..)
  | .cmd (.bayArmWrite ..) | .cmd (.bayRcpDataWrite ..) | .cmd (.manualGo ..) | .cmd (.fstrDieFailGo ..)
  | .cmd (.mcPreloadGo ..) | .cmd (.mcDisable ..) | .cmd (.mcLockWrite ..) | .cmd (.fthJobGo ..) | .cmd (.fthJobAbort ..)
  | .cmd (.fthResConsWrite ..) | .cmd (.fthResCfgWrite ..) | .cmd (.fthMapWrite ..) | .cmd (.encGo ..) | .cmd (.burnJobGo ..)
  | .cmd (.burnJobAbort ..) | .cmd (.levelSpiSend ..) | .cmd (.arOpen ..) | .cmd (.arCancel ..) | .cmd (.ellSlotSelWrite ..)
  | .cmd (.slotCommit ..) | .cmd (.opsLoopWrite ..) | .cmd (.ellFfDataWrite ..) | .cmd (.opsStop ..) | .cmd (.focusOn ..)
  | .cmd (.trackOn ..) | .cmd (.trackOff ..) | .cmd (.jump ..) | .cmd (.layer ..) | .cmd (.lensHold ..) | .cmd (.cmtCoast ..)
  | .cmd (.cmtStart ..) | .cmd (.cmtBrake ..) | .cmd (.cmtClear ..) | .cmd (.chnEnable ..) | .cmd (.chnDisable ..)
  | .cmd (.moveAbs ..) | .cmd (.moveRel ..) | .cmd (.chnStop ..) | .cmd (.halt ..) | .cmd (.home ..) | .cmd (.setPos ..)
  | .cmd (.gearOn ..) | .cmd (.chnClear ..) | .cmd (.gearArm ..) | .cmd .maintClose | .cmd .fuseBurn | .cmd .baseline
  | .cmd .wakeHost | .cmd .barUnalignedAccess | .cmd .gpioEvtCycRead => 2
  | .cencPosWrite .. | .udStart .. | .pwrGo .. | .scrRuleWrite .. | .scrFiltWrite .. | .scrLaneDataWrite ..
  | .scrMarkAckWrite .. | .scrOutClear .. | .pwrBridgeLoRead .. | .pwrAonTLoRead .. | .memNarrowWrite ..
  | .memTestDataLoRead .. | .memTestChkWrite .. | .memTestEnWrite .. | .maintOpen .. | .failedBitClear .. | .planSubmit ..
  | .bar2Write .. | .ethRingCfgWrite .. | .accRead .. | .accRawTransfer .. | .pmbusRequest .. | .pmbusVoutModeRead ..
  | .pgSoftReset .. | .pgCtlDeniedWrite .. | .pgIrqClrWrite .. | .pgErrInfoClear .. | .irqSwSet .. | .irqSwClr ..
  | .fmRollbackInc .. | .rstCtlWarm .. | .rstCtlApp .. => 2
  | .cmd (.holdLapse ..) | .cmd .measPeriodExpiry | .cmd (.arrayTimeout ..) | .cmd (.suspendWaitExpiry ..)
  | .cmd (.suspendTimeout ..) | .cmd (.insertDebounceExpiry ..) | .cmd (.baySettleExpiry ..) | .cmd (.bayPgTimeout ..)
  | .cmd (.bayRemovalDebounce ..) | .cmd (.rowCloseExpiry ..) | .cmd .iterBudgetExpiry | .cmd (.fthSyncTimeout ..)
  | .cmd (.fthStartTimeout ..) | .cmd (.powerClampLimit ..) | .cmd (.burnRearm ..) | .cmd (.positionTimeout ..)
  | .cmd (.followingError ..) | .cmd (.searchSweepEnd ..) | .cmd (.jumpTimeout ..) | .cmd (.layerJumpTimeout ..)
  | .cmd (.layerKickEnd ..) | .cmd (.alignEnd ..) | .cmd (.rampEnd ..) | .cmd (.crossingWindowMiss ..) | .cmd (.rotorLost ..)
  | .cmd (.catchFail ..) | .cmd (.brakeTimeout ..) | .cmd (.lockedRotor ..) | .cmd .vmotLimit | .cmd .pwrNoAnswer
  | .cmd .pwrDelayLimit | .cmd .pwrRetry | .cmd .rollbackStep => 3
  | .homeTimeout .. | .udStop .. | .wakeTimerExpiry .. | .canBusOffRejoin .. | .startRetry .. => 3
  | .cmd .completionPosting | .cmd (.commutation ..) | .cmd .udRunBegin => 4
  | .cmd .commitSequence | .cmd .warmReset => 5
  | _ => 1

/-- The window or channel of a register: the number of its page among pages of one kind, 0 for a page that stands alone. -/
def writeChannel (a : Nat) : Nat :=
  let kinds : List (Nat × Nat) := [(pgTw 0, 64), (pgFk 0, 64), (pgCv 0, 8), (pgFch 0, 17), (pgBay 0, 4), (pgFstr 0, 4), (pgFth 0, 5),
    (pgOwp 0, 4), (pgEll 0, 2), (pgOps 0, 4), (pgCmt 0, 6), (pgAx 0, 12), (pgUd 0, 32), (pgCan 0, 2)]
  match kinds.find? fun x => decide (x.1 ≤ a) && decide (a < x.1 + x.2 * 0x1000) with
  | some x => (a - x.1) / 0x1000
  | none => 0

/-- The window or channel that a command of software names; 0 for one that names none. -/
def Noted.channel : Noted → Nat
  | .cmd (.registerWrite _ a _) => writeChannel a.toNat
  | .cmd (.openLane c ..) | .cmd (.append c ..) | .cmd (.read c ..) | .cmd (.seal c ..) | .cmd (.flush c ..)
  | .cmd (.abort c ..) | .cmd (.mark c ..) | .cmd (.release c ..) | .cmd (.query c ..) | .cmd (.ringArm c ..)
  | .cmd (.fkCfgWrite c ..) | .cmd (.fkFlush c ..) | .cmd (.fkDiagEnWrite c ..) | .cmd (.fkDiagHiWrite c ..)
  | .cmd (.fkDiagEndWrite c ..) | .cmd (.fkDiagLoRead c ..) => c.val
  | .cmd (.cvRunLoRead c ..) | .cmd (.cvRunLoWrite c ..) | .cmd (.cvRunHiWrite c ..) => c.val
  | .cencPosWrite c .. | .scrFiltWrite c .. => c.val
  | .cmd (.bayWriteEnWrite c ..) | .cmd (.bayRelease c) | .cmd (.bayArmWrite c ..) | .cmd (.bayRcpDataWrite c ..)
  | .cmd (.fstrDieFailGo c ..) | .cmd (.burnJobGo c ..) | .cmd (.burnJobAbort c ..) | .cmd (.levelSpiSend c ..)
  | .cmd (.opsLoopWrite c ..) | .cmd (.opsStop c ..) | .cmd (.focusOn c ..) | .cmd (.trackOn c ..) | .cmd (.trackOff c ..)
  | .cmd (.jump c ..) | .cmd (.layer c ..) | .cmd (.lensHold c ..) => c.val
  | .cmd (.manualGo c ..) => c.val
  | .cmd (.fthJobGo c ..) | .cmd (.fthJobAbort c ..) | .cmd (.fthResConsWrite c ..) | .cmd (.fthResCfgWrite c ..)
  | .cmd (.fthMapWrite c ..) => c.val
  | .cmd (.arOpen c) | .cmd (.arCancel c) => c.val
  | .cmd (.ellSlotSelWrite c ..) | .cmd (.slotCommit c ..) | .cmd (.ellFfDataWrite c ..) => c.val
  | .cmd (.cmtCoast c) | .cmd (.cmtStart c) | .cmd (.cmtBrake c) | .cmd (.cmtClear c) => c.val
  | .cmd (.chnEnable c) | .cmd (.chnDisable c) | .cmd (.moveAbs c) | .cmd (.moveRel c) | .cmd (.chnStop c) | .cmd (.halt c)
  | .cmd (.home c) | .cmd (.setPos c) | .cmd (.gearOn c) | .cmd (.chnClear c) | .cmd (.gearArm c ..) => c.val
  | .udStart c .. => c.val
  | .memNarrowWrite c .. => c.val
  | _ => 0

/-- The engine of an address: the first address of the group whose outputs it stages. The ledger with reserve and staging is one,
flash another; a page outside the engines has none. -/
def engineAt (a : Nat) : Option Nat :=
  match a / 0x100000 with
  | 0x401 | 0x402 | 0x403 => some 0x40100000
  | 0x404 | 0x405 => some 0x40400000
  | 0x406 => some 0x40600000
  | 0x407 => some 0x40700000
  | 0x408 => some 0x40800000
  | 0x409 => some 0x40900000
  | 0x40A => some 0x40A00000
  | 0x40B => some 0x40B00000
  | 0x40C => some 0x40C00000
  | 0x40D => if a / 0x1000 = pgPwr / 0x1000 then some 0x40D00000 else none
  | _ => none

/-- The engine whose decision phase handles a command. -/
def Noted.engine : Noted → Option Nat
  | .cmd (.registerWrite _ a _) => engineAt a.toNat
  | .cmd (.openLane ..) | .cmd (.append ..) | .cmd (.read ..) | .cmd (.seal ..) | .cmd (.flush ..) | .cmd (.abort ..)
  | .cmd (.mark ..) | .cmd (.release ..) | .cmd (.query ..) | .cmd (.doorbellBusyWrite ..) | .cmd (.openLaneComplete ..)
  | .cmd (.appendComplete ..) | .cmd (.readComplete ..) | .cmd (.sealComplete ..) | .cmd (.markComplete ..)
  | .cmd (.releaseComplete ..) | .cmd (.queryComplete ..) | .cmd (.ingestSourceError ..) | .cmd .completionPosting
  | .cmd (.twCqConsWrite ..) | .cmd (.ringArm ..) | .cmd (.ringDisarm ..) | .cmd (.holdLapse ..)
  | .cmd (.functionLevelReset ..) | .cmd (.hotReset ..) | .cmd (.linkLoss ..) | .cmd (.perstAssert ..) | .cmd .activateSet
  | .cmd .activationQuiesced | .cmd .activateClear | .cmd (.acceptEnWrite ..) | .cmd (.ledgerRestore ..)
  | .cmd (.ldgNextLsnLoRead ..) | .cmd (.ldgLsnLimitLoRead ..) | .cmd (.rsvCommitSeqLoRead ..) | .cmd .measGo
  | .cmd .measPeriodExpiry | .cmd .measStart | .cmd (.measResult ..) | .cmd (.powerFailAssert ..)
  | .cmd (.supplyLossCapture ..) | .cmd .commitSequence | .cmd (.closeRecordWrite ..) | .cmd (.commitFloorReached ..)
  | .cmd (.commitEnd ..) | .cmd (.packetFirstWord ..) | .cmd (.packetLastWord ..) | .cmd (.fkCfgWrite ..) | .cmd (.fkFlush ..)
  | .cmd (.fkDiagEnWrite ..) | .cmd (.fkDiagHiWrite ..) | .cmd (.fkDiagEndWrite ..) | .cmd (.fkDiagLoRead ..)
  | .cmd (.fkPointerFailure ..) | .cmd (.cvRunLoRead ..) | .cmd (.cvRunLoWrite ..) | .cmd (.cvRunHiWrite ..)
  | .cmd (.shaBlockAbsorb ..) | .cmd .sealSignStart | .cmd (.sealSignDone ..) => some 0x40100000
  | .cmd (.flashBusItem ..) | .cmd (.rcpEnd ..) | .cmd (.rcpCmd ..) | .cmd (.rcpAddr ..) | .cmd (.rcpDin ..)
  | .cmd (.rcpDout ..) | .cmd (.rcpWait ..) | .cmd (.rcpYield ..) | .cmd (.rcpStatus ..) | .cmd (.rcpData ..)
  | .cmd (.rcpPlane ..) | .cmd (.rcpRtdata ..) | .cmd (.rcpNop ..) | .cmd (.rcpBadOp ..) | .cmd (.lunPoll ..)
  | .cmd (.arrayTimeout ..) | .cmd (.suspendWaitExpiry ..) | .cmd (.suspendTimeout ..) | .cmd (.operationResume ..)
  | .cmd (.phyTrain ..) | .cmd (.bayIdentify ..) | .cmd (.bayPresenceLow ..) | .cmd (.bayPresenceHigh ..)
  | .cmd (.insertDebounceExpiry ..) | .cmd (.bayPgood ..) | .cmd (.baySettleExpiry ..) | .cmd (.bayPgTimeout ..)
  | .cmd (.bayWriteEnWrite ..) | .cmd (.bayRelease ..) | .cmd (.bayArmWrite ..) | .cmd (.bayReleasingDone ..)
  | .cmd (.bayRemovalDebounce ..) | .cmd (.bayBecomesWritable ..) | .cmd (.bayRcpDataWrite ..) | .cmd (.sequencerFail ..)
  | .cmd (.spareTakeover ..) | .cmd (.manualGo ..) | .cmd (.manualOpEnd ..) | .cmd (.codewordRead ..)
  | .cmd (.programVerify ..) | .cmd (.rowCloseExpiry ..) | .cmd (.parityProgram ..) | .cmd (.entrySettle ..)
  | .cmd (.baleGather ..) | .cmd (.stripeReclaim ..) | .cmd (.staleRecordWrite ..) | .cmd (.dieLost ..)
  | .cmd (.fstrDieFailGo ..) | .cmd (.dieRebuild ..) | .cmd (.rebuildStripeDone ..) | .cmd (.rebuildComplete ..)
  | .cmd (.bayFormat ..) | .cmd (.commitAreaPrepare ..) | .cmd (.wearLevel ..) | .cmd (.scrubRead ..) => some 0x40400000
  | .cmd (.cacheRequest ..) | .cmd (.cacheFill ..) | .cmd .lineStoreWriteback | .cmd (.mcPreloadGo ..) | .cmd .mcPreloadDone
  | .cmd (.mcDisable ..) | .cmd .mcDrainEnd | .cmd (.mcLockWrite ..) | .cmd (.mapExtentWrite ..) | .cmd (.mapCheckpoint ..)
  | .cmd (.ddrTrain ..) => some 0x40600000
  | .cmd (.adcRotationStep ..) | .cmd (.adcSliceFail ..) | .cmd (.defectBegin ..) | .cmd (.defectEnd ..) | .cmd (.syncLock ..)
  | .cmd (.syncAccept ..) | .cmd (.syncInsert ..) | .cmd (.syncSlip ..) | .cmd (.clusterFirstPass ..) | .cmd (.iterRetain ..)
  | .cmd (.outerIteration ..) | .cmd .iterBudgetExpiry | .cmd (.wobbleLock ..) | .cmd (.fthJobGo ..) | .cmd (.fthJobAbort ..)
  | .cmd (.fthSyncTimeout ..) | .cmd (.fthStartTimeout ..) | .cmd (.clusterRecordPost ..) | .cmd (.fthResConsWrite ..)
  | .cmd (.fthResCfgWrite ..) | .cmd (.fthMapWrite ..) | .cmd (.readChannelFail ..) => some 0x40700000
  | .timingLock .. => some 0x40700000
  | .cmd (.encGo ..) | .cmd (.encClusterDone ..) | .cmd (.burnJobGo ..) | .cmd (.burnJobAbort ..) | .cmd (.recordingStart ..)
  | .cmd (.clusterBurned ..) | .cmd (.levelSpiSend ..) | .cmd (.powerClampLimit ..) | .cmd (.fastInhibit ..)
  | .cmd (.grainInhibit ..) | .cmd (.immediateInhibit ..) | .cmd (.burnRearm ..) | .cmd (.positionTimeout ..)
  | .cmd (.verifyCompare ..) | .cmd (.arOpen ..) | .cmd (.arCommit ..) | .cmd (.arCancel ..)
  | .cmd (.archiveRecordSettle ..) => some 0x40800000
  | .manifestVerifyDone .. => some 0x40800000
  | .cmd (.ellSlotSelWrite ..) | .cmd (.slotCommit ..) | .cmd (.opsLoopWrite ..) | .cmd (.ellFfDataWrite ..)
  | .cmd (.followingError ..) | .cmd (.focusLoss ..) | .cmd (.driverFault ..) | .cmd (.opsStop ..) | .cmd (.focusOn ..)
  | .cmd (.trackOn ..) | .cmd (.trackOff ..) | .cmd (.jump ..) | .cmd (.layer ..) | .cmd (.lensHold ..)
  | .cmd (.sCurveCrossing ..) | .cmd (.searchSweepEnd ..) | .cmd (.focusSettled ..) | .cmd (.trackCrossingCount ..)
  | .cmd (.trackingSettled ..) | .cmd (.jumpTimeout ..) | .cmd (.layerJumpTimeout ..) | .cmd (.layerKickEnd ..)
  | .cmd (.layerBrakeEnd ..) | .cmd (.servoLaneFail ..) => some 0x40900000
  | .layerCoastEnd .. => some 0x40900000
  | .cmd (.cmtCoast ..) | .cmd (.cmtStart ..) | .cmd (.cmtBrake ..) | .cmd (.cmtClear ..) | .cmd (.alignEnd ..)
  | .cmd (.rampEnd ..) | .cmd (.observerHandover ..) | .cmd (.bemfCrossing ..) | .cmd (.commutation ..)
  | .cmd (.crossingWindowMiss ..) | .cmd (.rotorLost ..) | .cmd (.catchSuccess ..) | .cmd (.catchFail ..)
  | .cmd (.brakeStopped ..) | .cmd (.brakeSpeedWindow ..) | .cmd (.brakeTimeout ..) | .cmd (.lockedRotor ..)
  | .cmd (.hallEdge ..) | .cmd (.currentLimit ..) | .cmd (.chopperOn ..) | .cmd (.chopperOff ..) | .cmd (.chopperFault ..)
  | .cmd .vmotLimit | .cmd (.vmotAbsolute ..) | .cmd (.gateFault ..) => some 0x40A00000
  | .startRetry .. => some 0x40A00000
  | .cmd (.chnEnable ..) | .cmd (.chnDisable ..) | .cmd (.moveAbs ..) | .cmd (.moveRel ..) | .cmd (.chnStop ..)
  | .cmd (.halt ..) | .cmd (.home ..) | .cmd (.setPos ..) | .cmd (.gearOn ..) | .cmd (.chnClear ..)
  | .cmd (.moveTargetReached ..) | .cmd (.sledStall ..) | .cmd (.sledMoveRequest ..) | .cmd (.encoderIllegal ..)
  | .cmd (.encoderIndex ..) | .cmd (.deviationStall ..) | .cmd (.gearArm ..) => some 0x40B00000
  | .gearSwitch .. | .softLimitReached .. | .homeInput .. | .homeTimeout .. | .cencPosWrite .. => some 0x40B00000
  | .cmd .udRunBegin | .cmd .udRunComplete => some 0x40C00000
  | .udStart .. | .udStop .. | .udTimerFire .. | .udBusError .. => some 0x40C00000
  | .cmd .pwrCommit | .cmd .pwrNoAnswer | .cmd .pwrDelayLimit | .cmd .pwrRetry | .cmd .rollbackStep | .cmd .wakeStep
  | .cmd .wakeComplete | .cmd .offExit => some 0x40D00000
  | .pwrGo .. | .pwrAnswer .. | .wake .. | .wakeTimerExpiry .. | .sleepSupplyLoss .. | .offEntry ..
  | .pwrHoldRise .. => some 0x40D00000
  | _ => none

/-- The page of the block outside the groups 0x00 to 0x05 whose Grain work a command is (R542); a write of a register is none. -/
def Noted.block : Noted → Option Nat
  | .cmd (.adcRotationStep c ..) | .cmd (.adcSliceFail c ..) | .cmd (.defectBegin c ..) | .cmd (.defectEnd c ..)
  | .cmd (.syncLock c ..) | .cmd (.syncAccept c ..) | .cmd (.syncInsert c) | .cmd (.syncSlip c ..)
  | .cmd (.clusterFirstPass c ..) | .cmd (.iterRetain c) | .cmd (.wobbleLock c ..) | .cmd (.fthJobGo c ..)
  | .cmd (.fthJobAbort c ..) | .cmd (.fthSyncTimeout c) | .cmd (.fthStartTimeout c) | .cmd (.clusterRecordPost c)
  | .cmd (.fthResConsWrite c ..) | .cmd (.fthResCfgWrite c ..) => some (pgFth c.val)
  | .timingLock c .. => some (pgFth c.val)
  | .cmd (.outerIteration ..) | .cmd .iterBudgetExpiry => some pgFthx
  | .cmd (.burnJobGo c ..) | .cmd (.burnJobAbort c ..) | .cmd (.recordingStart c ..) | .cmd (.clusterBurned c)
  | .cmd (.levelSpiSend c ..) | .cmd (.powerClampLimit c) | .cmd (.grainInhibit c ..) | .cmd (.burnRearm c)
  | .cmd (.positionTimeout c) | .cmd (.verifyCompare c) => some (pgOwp c.val)
  | .cmd (.encGo ..) | .cmd (.encClusterDone ..) => some pgWenc
  | .cmd (.arOpen ..) | .cmd (.arCommit ..) | .cmd (.arCancel ..) => some pgWarc
  | .manifestVerifyDone .. => some pgWarc
  | .cmd (.ellSlotSelWrite c ..) | .cmd (.slotCommit c ..) | .cmd (.ellFfDataWrite c ..)
  | .cmd (.followingError c ..) => some (pgEll c.val)
  | .cmd (.opsLoopWrite c ..) | .cmd (.focusLoss c) | .cmd (.driverFault c) | .cmd (.opsStop c ..) | .cmd (.focusOn c ..)
  | .cmd (.trackOn c ..) | .cmd (.trackOff c ..) | .cmd (.jump c ..) | .cmd (.layer c ..) | .cmd (.lensHold c ..)
  | .cmd (.sCurveCrossing c) | .cmd (.searchSweepEnd c) | .cmd (.focusSettled c) | .cmd (.trackCrossingCount c)
  | .cmd (.trackingSettled c) | .cmd (.jumpTimeout c) | .cmd (.layerJumpTimeout c) | .cmd (.layerKickEnd c)
  | .cmd (.layerBrakeEnd c) => some (pgOps c.val)
  | .layerCoastEnd c => some (pgOps c.val)
  | .cmd (.cmtCoast c) | .cmd (.cmtStart c) | .cmd (.cmtBrake c) | .cmd (.cmtClear c) | .cmd (.alignEnd c) | .cmd (.rampEnd c)
  | .cmd (.observerHandover c) | .cmd (.bemfCrossing c ..) | .cmd (.commutation c) | .cmd (.crossingWindowMiss c)
  | .cmd (.rotorLost c) | .cmd (.catchSuccess c ..) | .cmd (.catchFail c ..) | .cmd (.brakeStopped c)
  | .cmd (.brakeSpeedWindow c ..) | .cmd (.brakeTimeout c) | .cmd (.lockedRotor c)
  | .cmd (.hallEdge c ..) => some (pgCmt c.val)
  | .startRetry c => some (pgCmt c.val)
  | .cmd (.chopperOn ..) | .cmd (.chopperOff ..) | .cmd .vmotLimit => some pgVbus
  | .cmd (.chnEnable c) | .cmd (.chnDisable c) | .cmd (.moveAbs c) | .cmd (.moveRel c) | .cmd (.chnStop c) | .cmd (.halt c)
  | .cmd (.home c) | .cmd (.setPos c) | .cmd (.gearOn c) | .cmd (.chnClear c) | .cmd (.moveTargetReached c)
  | .cmd (.deviationStall c) | .cmd (.gearArm c ..) => some (pgAx c.val)
  | .gearSwitch c | .softLimitReached c | .homeInput c .. | .homeTimeout c => some (pgAx c.val)
  | .cmd (.encoderIllegal ..) | .cmd (.encoderIndex ..) => some pgCenc
  | .cencPosWrite .. => some pgCenc
  | .udStart c .. | .udStop c => some (pgUd c.val)
  | .cmd .udRunBegin | .cmd .udRunComplete => some pgBush
  | .udTimerFire .. | .udBusError .. => some pgBush
  | .cmd (.cacheRequest ..) | .cmd (.cacheFill ..) | .cmd .lineStoreWriteback | .cmd (.mcPreloadGo ..) | .cmd .mcPreloadDone
  | .cmd (.mcDisable ..) | .cmd .mcDrainEnd | .cmd (.mcLockWrite ..) => some pgMc
  | .cmd (.mapExtentWrite ..) | .cmd (.mapCheckpoint ..) => some pgMap
  | .cmd (.ddrTrain ..) => some pgDdr
  | .cmd .minuteStamp => some pgScr
  | .sentinelPeriod .. | .scrRuleWrite .. | .scrFiltWrite .. | .scrLaneDataWrite .. | .scrMarkAckWrite ..
  | .scrOutClear .. => some pgScr
  | .cmd .lbistTestStart => some pgLbist
  | .lbistTestResult .. => some pgLbist
  | .cmd .fuseBurn | .cmd .fuseBurnEnd => some pgFuse
  | .calStep .. | .calStepAbandon .. => some pgCal
  | .cmd .baseline | .cmd .planApply | .cmd .heldItemApply => some pgMplan
  | .planSubmit .. => some pgMplan
  | .cmd .review => some pgAge
  | .ethFrameReceive .. | .ethFrameTransmit .. | .ethRingCfgWrite .. => some pgEth
  | .canFrameReceive c .. | .canFrameTransmit c .. | .canBusOffRejoin c .. => some (pgCan c.val)
  | .accRead .. | .accRawTransfer .. => some pgAcc
  | .pmbusRequest .. | .pmbusAlert .. => some pgPmb
  | .cmd .ppsSecond => some pgGpio
  | .evtInEdge .. => some pgGpio
  | _ => none

/-- The channel of a first-pass failure that asks for the retained slot (R290). -/
def Noted.retains : Noted → Option Nat
  | .cmd (.iterRetain k) => some k.val
  | _ => none

/-- Must `b` go before `a` although it came later: a first-pass failure of a lower channel (R290)? -/
def Noted.overtakes (b a : Noted) : Bool :=
  match a.retains, b.retains with
  | some x, some y => decide (y < x)
  | _, _ => false

/-- Does `a` come before `b`, where `b` came later in the Grain? In one phase the order of arrival holds, but for commands of
software, which stand in ascending window or channel number (R34), and for first-pass failures, which do by channel (R290). -/
def Noted.before (a b : Noted) : Bool :=
  decide (a.phase < b.phase) || (a.phase == b.phase && (a.phase != 2 || decide (a.channel ≤ b.channel)) && !b.overtakes a)

/-- Put a command into its place behind those that come before it. -/
def insertNoted (b : Noted) : List Noted → List Noted
  | [] => [b]
  | a :: l => if a.before b then a :: insertNoted b l else b :: a :: l

/-- The commands of a Grain in the order in which it handles them. -/
def inOrder (l : List Noted) : List Noted := l.foldl (fun l b => insertNoted b l) []

end Sys2Proof.Machine
end

