-- ==== Sys2Proof/Config.lean ====
section
/-! DEFINITION. What an implementation fixes and the spec does not state: the free values. Each is an opaque constant,
so that no proof knows a value of it (notes/assumptions/5.md). -/

namespace Sys2Proof

/-- A fresh free value for the n-th open point that a run meets. -/
opaque Config.freeValue : Nat → Word

/-- What R173 leaves open in the ROM recipes: places, addresses and lengths of the forms other than slot 3's. -/
opaque Config.romRecipe : Nat → Word

/-- The ns that a reserved parameter of WAIT adds (R172), by the parameter. -/
opaque Config.reservedWaitNs : Nat → Nat

/-- The sled sine table: the 10-bit amplitude of micro-step `k` of a quarter of the wave (R415). -/
opaque Config.sledQuarter : (k : Nat) → Nat

/-- The circulant of parity row `i` and information column `j` of the LDPC code (R208), by its first row. The spec gives the code's
shape and not its circulants. -/
opaque Config.ldpcCirculant : Nat → Nat → BitVec 128

/-- Byte `j` of an element page of write sequence `i` that holds BAYMAP codewords or records, and of the close record of commit `i`: the spec gives no
layout of them (R128, R204, R229, R254). -/
opaque Config.mapByte : Nat → Nat → Byte

/-- Bytes of external memory behind the reserved code of DDR_CFG.DENSITY (R260). -/
opaque Config.reservedDensityBytes : Nat

/-! What the BD and dense physical formats give and the spec only names (R265, R275, R276, R282 to R288, R310, R316;
notes/assumptions/149.md). -/

/-- What a detector sample that differs by this much from a level of the trellis adds to a path's metric, in units of the log-likelihoods:
the spec gives no scale (R275). -/
opaque Config.pathMetric : Int → Int

/-- The 30 channel bits of the frame sync of frame `n` of a cluster, dense or not, as transitions, the first highest (R276, R277). -/
opaque Config.frameSync : Bool → Nat → Nat

/-- The 17PP code as a trellis that takes two data bits a step: its states, the state after a step and the three channel bits of the
step as transitions, the first highest (R276, R316). -/
opaque Config.ppStates : Nat
opaque Config.ppNext : Nat → Nat → Nat
opaque Config.ppOut : Nat → Nat → Nat

/-- Is bit `n` of the 1,268 bits of a frame a DC control bit (R265, R316)? -/
opaque Config.dcBit : Nat → Bool

/-- Row and LDC column of symbol `b` of LDC codeword `j`, and row and BIS column of symbol `b` of BIS codeword `m`: the cluster interleave
(R265, R312). -/
opaque Config.ldcPlace : Nat → Nat → Nat × Nat
opaque Config.bisPlace : Nat → Nat → Nat × Nat

/-- The parity of the Reed-Solomon code of length `n` over information bytes, and the word that its errors-and-erasures decoder finds for a
received word with erased places (R282, R285, R310). -/
opaque Config.rsParity : Nat → List Byte → List Byte
opaque Config.rsDecode : Nat → List Byte → List Nat → Option (List Byte)

/-- Data frame and byte that information byte `b` of LDC codeword `j` carries; byte `i` of the scrambler for a cluster address; the four EDC
bytes of a data frame (R265, R286, R310). -/
opaque Config.dataSource : Nat → Nat → Nat × Nat
opaque Config.scramble : Nat → Nat → Byte
opaque Config.edc : List Byte → List Byte

/-- The information bytes of BIS codeword `m` of the cluster at an address with its user control data: with the address units (R310). -/
opaque Config.bisInfo : Nat → List Byte → Nat → List Byte

/-- The linking frames before a cluster and behind it (`runIn`), as transitions, with the guard fields at the start and end of a recording
(`edge`), in the dense format or not (R315). -/
opaque Config.linkBits : (dense runIn edge : Bool) → List Bool

/-- ADIP word, unit and wobble period at which the BD cluster of an address begins (R314). -/
opaque Config.bdPlace : Nat → Nat × Nat × Nat

/-- The circulant of parity row `i` and information column `j` of the dense format's LDPC code, by its first row (R288). -/
opaque Config.denseCirculant : Nat → Nat → BitVec 256

end Sys2Proof
end

