-- ==== Sys2Proof/Machine/Ops.lean ====
section
/-! DEFINITION. The named operations over registers, memories and the two copies of the device. -/

namespace Sys2Proof.Machine

open Sys2Proof

/-! ### Registers -/

/-- The word of the register at address `a`. -/
def Dev.rd (d : Dev) (a : Nat) : Word := tabGet resetOf d.regs a

/-- Set the word of the register at address `a`. -/
def Dev.wr (d : Dev) (a : Nat) (v : Word) : Dev := { d with regs := tabSet resetOf d.regs a v }

/-- The value of field `f` of page `p`. -/
def Dev.get (d : Dev) (p : Nat) (f : Fld) : Nat := bits (d.rd (p + f.off)).toNat f.lo f.width

/-- Set field `f` of page `p` to `v` (its low bits). -/
def Dev.put (d : Dev) (p : Nat) (f : Fld) (v : Nat) : Dev :=
  d.wr (p + f.off) (BitVec.ofNat 32 (setBits (d.rd (p + f.off)).toNat f.lo f.width v))

/-- A one-bit field. -/
def Dev.flag (d : Dev) (p : Nat) (f : Fld) : Bool := d.get p f == 1

/-- Set a one-bit field. -/
def Dev.setB (d : Dev) (p : Nat) (f : Fld) (b : Bool) : Dev := d.put p f (b2n b)

/-- The signed value of field `f`. -/
def Dev.getI (d : Dev) (p : Nat) (f : Fld) : Int := sext f.width (d.get p f)

/-- Set field `f` to the two's complement of `i`. -/
def Dev.putI (d : Dev) (p : Nat) (f : Fld) (i : Int) : Dev := d.put p f (ofInt f.width i)

/-- A 64-bit value in a pair of registers, low half first. -/
def Dev.get64 (d : Dev) (p : Nat) (lo hi : Fld) : Nat := d.get p lo + d.get p hi * 2 ^ 32

/-- Set a 64-bit pair. -/
def Dev.put64 (d : Dev) (p : Nat) (lo hi : Fld) (v : Nat) : Dev := (d.put p lo v).put p hi (v / 2 ^ 32)

/-- Count one up, stopping at the field's largest value. -/
def Dev.inc (d : Dev) (p : Nat) (f : Fld) : Dev := d.put p f (satInc (2 ^ f.width - 1) (d.get p f))

/-- Add `n`, stopping at the field's largest value. -/
def Dev.incBy (d : Dev) (p : Nat) (f : Fld) (n : Nat) : Dev := d.put p f (min (2 ^ f.width - 1) (d.get p f + n))

/-! ### Memories -/

/-- What an unlisted byte of memory reads as (notes/assumptions/4.md). -/
def memDflt (_ : Nat) : Byte := 0

/-- One byte of a memory. -/
def memGet (m : List Host.Cell) (a : Nat) : Byte := tabGet memDflt m a

/-- Write one byte of a memory. -/
def memSet (m : List Host.Cell) (a : Nat) (b : Byte) : List Host.Cell := tabSet memDflt m a b

/-- `n` bytes from address `a` upward. -/
def memRead (m : List Host.Cell) (a : Nat) : Nat → List Byte
  | 0 => []
  | n + 1 => memGet m a :: memRead m (a + 1) n

/-- Write bytes from address `a` upward. -/
def memWrite (m : List Host.Cell) (a : Nat) : List Byte → List Host.Cell
  | [] => m
  | b :: l => memWrite (memSet m a b) (a + 1) l

/-- The canonical form of a memory. -/
def Memory.wf (m : List Host.Cell) : Bool := tabWf memDflt m

/-- Write bytes to device memory (R53). -/
def Dev.memW (d : Dev) (a : Nat) (l : List Byte) : Dev := { d with mem := memWrite d.mem a l }

/-- Write bytes to host memory. -/
def Dev.hostW (d : Dev) (a : Nat) (l : List Byte) : Dev := { d with host := memWrite d.host a l }

/-! ### Time -/

/-- GTIME as a number (R41). -/
def Dev.gtime (d : Dev) : Nat := d.tb.gtime.toNat

/-- GTIME[47:0] (R45). -/
def Dev.gtime48 (d : Dev) : Nat := d.tb.gtime.toNat % 2 ^ 48

/-! ### Free values -/

/-- The next free value, and the device with one more drawn (notes/assumptions/5.md). -/
def Dev.free (d : Dev) : Word × Dev := (Config.freeValue d.fresh, { d with fresh := d.fresh + 1 })

/-! ### The two copies -/

/-- A command that an engine decides: it changes `cur`, seeing the other engines in `vis` (R32, R33). -/
def State.dec (s : State) (f : Dev → Dev → Dev) : State := { s with cur := f s.vis s.cur }

/-- A decision of the ledger: it takes none from the edge after a captured main-supply loss until the commit has ended (R128). -/
def State.ledger (s : State) (f : Dev → Dev → Dev) : State := if s.cur.rsv.committing then s else s.dec f

/-- A command whose effect is there at once, such as a read's latch (R43) or a pop (R162): it changes both copies. -/
def State.both (s : State) (f : Dev → Dev) : State := { s with cur := f s.cur, vis := f s.vis }

/-- Does DCLK run (R42, R563)? -/
def Dev.clockOn (d : Dev) : Bool := d.pwr.phase != .asleep && d.pwr.phase != .off && decide (2 ≤ d.su.step) && d.tb.vaon

/-- Command `i` has effect `f` in the present Grain and is noted in it (R31, R34). Where DCLK does not run, or stops or starts
with the command, no Grain holds it, and the next one begins from the state it leaves (R42). -/
def State.noting (s : State) (i : Noted) (f : State → State) : State :=
  let t := f s
  { t with grain :=
      if s.cur.clockOn && t.cur.clockOn then { s.grain with done := s.grain.done ++ [i] }
      else { cur := t.cur, vis := t.vis } }

/-- The key of a requester's latch for the register at `a` (R43: one latch per page and requester). -/
def latchKey (r : Requester) (a : Nat) : Nat := a * 16 + r.index

/-- Every latch reads 0 until its requester's first read of the low half (R43). -/
def latchDflt (_ : Nat) : Word := 0

/-- Latch the upper half `hi` for requester `r` in the register at `a` and answer `lo` (R43). -/
def Dev.latch (d : Dev) (r : Requester) (a : Nat) (lo hi : Word) : Dev :=
  { d with tb := { d.tb with rdLatch := tabSet latchDflt d.tb.rdLatch (latchKey r a) hi }
           bus := { rdata := lo, error := false } }

/-- What a requester's read of the high half at `a` returns (R43). -/
def Dev.latched (d : Dev) (r : Requester) (a : Nat) : Word := tabGet latchDflt d.tb.rdLatch (latchKey r a)

/-- Does a Stone begin at this GTIME (R39)? -/
def Dev.stoneBegins (d : Dev) : Bool := d.gtime % 256 == 0

end Sys2Proof.Machine
end

