-- ==== Sys2Proof/Machine/Flags.lean ====
section
/-! DEFINITION. Status flags, interrupts, error capture and fault records: what every page's header does (R542 to R545,
R552) and how a fault record is decided (R554, R556). -/

namespace Sys2Proof.Machine

open Sys2Proof

/-! ### Interrupts (R544) -/

/-- Set block bit `f` of page `p`'s PG_IRQ_RAW and note it as set in this Grain, so that a clear captured in the same
Grain leaves it set. -/
def Dev.irq (d : Dev) (p : Nat) (f : Fld) : Dev :=
  let d := d.put p f 1
  { d with irqSet := tabSet (fun _ => 0) d.irqSet p (setBits (tabGet (fun _ => 0) d.irqSet p) f.lo 1 1) }

/-- A write of `v` to PG_IRQ_CLR: raw bits written 1 clear, but for those set in the same Grain. -/
def Dev.irqClear (d : Dev) (p v : Nat) : Dev :=
  let now := tabGet (fun _ => 0) d.irqSet p
  d.put p PG_IRQ_RAW (d.get p PG_IRQ_RAW &&& ((0xFFFFFFFF ^^^ v) ||| now))

/-- PG_IRQ_PEND (R544). -/
def Dev.irqPend (d : Dev) (p : Nat) : Nat := d.get p PG_IRQ_RAW &&& d.get p PG_IRQ_EN

/-! ### Error capture (R545, R546) -/

/-- The error codes of R546. -/
inductive ErrCode where
  | narrow | unmapped | clamp | doorbellBusy | consRange | cfgRange | cfgOverlap | cfgBusy | flushHeld | ctxBusy
  | rcpBusy | manualState | randBusy | preWays | jobState | mapBusy | ffBusy | entryBusy | planBusy | testDenied
  | maintDenied | udRefused | softResetDenied | freezeDenied | hostWrite | poweredDown | enableDenied
deriving DecidableEq, Repr

/-- The value of an error code (R546). -/
def ErrCode.value : ErrCode → Nat
  | .narrow => 0x01 | .unmapped => 0x02 | .clamp => 0x03 | .doorbellBusy => 0x04 | .consRange => 0x05
  | .cfgRange => 0x06 | .cfgOverlap => 0x07 | .cfgBusy => 0x08 | .flushHeld => 0x09 | .ctxBusy => 0x0A
  | .rcpBusy => 0x0B | .manualState => 0x0C | .randBusy => 0x0D | .preWays => 0x0E | .jobState => 0x0F
  | .mapBusy => 0x10 | .ffBusy => 0x11 | .entryBusy => 0x12 | .planBusy => 0x13 | .testDenied => 0x14
  | .maintDenied => 0x15 | .udRefused => 0x16 | .softResetDenied => 0x17 | .freezeDenied => 0x18
  | .hostWrite => 0x19 | .poweredDown => 0x1A | .enableDenied => 0x1B

/-- Record an error in page `p` (R545): captured if none is held, else OVERFLOW; counted either way. -/
def Dev.err (d : Dev) (p : Nat) (c : ErrCode) (off req addr : Nat) : Dev :=
  let d' :=
    if d.flag p PG_ERR_INFO_VALID then d.setB p PG_ERR_INFO_OVERFLOW true
    else
      ((((d.put p PG_ERR_INFO (2 ^ 31 + c.value * 2 ^ 16 + off % 2 ^ 12)).put p PG_ERR_ADDR_LO addr).put p
        PG_ERR_ADDR_HI_REQ req).put p PG_ERR_ADDR_HI_ADDR_HI (addr / 2 ^ 32))
  d'.inc p PG_ERR_COUNT

/-- Record an error of a software access to register `f` of page `p`. -/
def Dev.errAt (d : Dev) (p : Nat) (f : Fld) (c : ErrCode) (r : Requester) : Dev := d.err p c f.off r.code (p + f.off)

/-- A write of 1 to PG_ERR_INFO.VALID (R545). -/
def Dev.errClear (d : Dev) (p : Nat) : Dev :=
  ((d.put p PG_ERR_INFO 0).put p PG_ERR_ADDR_LO 0).put p PG_ERR_ADDR_HI 0

/-! ### MSI-X (R516) -/

/-- A dword of the MSI-X table that nothing has written: every vector is masked after reset. -/
def msixDflt (i : Nat) : Word := if i % 4 = 3 then 1 else 0

/-- Send MSI-X message `v`; a masked vector leaves its pending bit set. -/
def Dev.sendMsix (d : Dev) (v : Nat) : Dev :=
  if (tabGet msixDflt d.lnk.msixTab (4 * v + 3)).toNat % 2 = 1 then
    { d with lnk := { d.lnk with msixPend := setBits d.lnk.msixPend v 1 1 } }
  else { d with fj := { d.fj with msix := d.fj.msix ++ [v] } }

/-! ### Items retired under R486 -/

/-- Is item `i` of array `a` retired? -/
def Dev.retiredItem (d : Dev) (a i : Nat) : Bool := d.prt.retired.contains (a, i)

/-- How many items of array `a` are retired. -/
def Dev.retiredCount (d : Dev) (a : Nat) : Nat := (d.prt.retired.filter (·.1 == a)).length

/-- The ways of set `x` of Peck whose line is retired. -/
def Dev.retiredWays (d : Dev) (x : Nat) : Nat :=
  (d.prt.retired.filter fun p => p.1 == 0 && p.2 % 2048 == x).foldl (fun m p => setBits m (p.2 / 2048) 1 1) 0

/-- Is open-lane context `c` retired, by its line in ways 12 to 15 (R245) or by its entry of the CRC context table? -/
def Dev.ctxRetired (d : Dev) (c : Nat) : Bool :=
  d.retiredItem 8 c || d.retiredItem 0 ((12 + c / 16384) * 2048 + c / 8 % 2048)

/-- Units of staging that `size` units from unit `u` span when retired ones are skipped (R486). -/
def spanFrom (d : Dev) : Nat → Nat → Nat → Nat
  | 0, _, _ => 0
  | _ + 1, _, 0 => 0
  | f + 1, u, n + 1 => 1 + (if d.retiredItem 1 u then spanFrom d f (u + 1) (n + 1) else spanFrom d f (u + 1) n)

/-- The span of FIFO space of `size` units from unit `u`. -/
def Dev.unitSpan (d : Dev) (u size : Nat) : Nat :=
  if d.retiredCount 1 = 0 then size else spanFrom d 512 u size

/-- Has the in-service BIST found slice `i` failing (R482)? Slices are numbered in the order of R479. -/
def Dev.sliceBad (d : Dev) (i : Nat) : Bool := d.prt.failing.contains i

/-! ### Page status (R543) -/

def Dev.setDegraded (d : Dev) (p : Nat) : Dev := d.setB p PG_STAT_DEGRADED true
def Dev.setFault (d : Dev) (p : Nat) (b : Bool) : Dev := d.setB p PG_STAT_FAULT b
def Dev.setBusy (d : Dev) (p : Nat) (b : Bool) : Dev := d.setB p PG_STAT_BUSY b
def Dev.setReady (d : Dev) (p : Nat) (b : Bool) : Dev := d.setB p PG_STAT_READY b
def Dev.setStale (d : Dev) (p : Nat) (b : Bool) : Dev := d.setB p PG_STAT_STALE b

/-- Does a PREPARE stand at page `p` (R448)? -/
def Dev.preparing (d : Dev) (p : Nat) : Bool := d.get p PG_PWR_REQ_REQ == 1

/-- Has page `p` answered AGREE to the PREPARE that stands? It starts no new work (R448). -/
def Dev.agreed (d : Dev) (p : Nat) : Bool :=
  d.preparing p && d.get p PG_PWR_RESP_ANSWER == 1 && d.get p PG_PWR_RESP_SEQ == d.get p PG_PWR_REQ_SEQ

/-- Is the page enabled (R542)? -/
def Dev.enabled (d : Dev) (p : Nat) : Bool := d.flag p PG_CTL_ENABLE

/-- Does the block of page `p` start a new job, run or command: ENABLE is 1, and it has not agreed to stop (R448, R542)? -/
def Dev.starts (d : Dev) (p : Nat) : Bool := d.enabled p && !d.agreed p

/-! ### Fault records (R554 to R556) -/

/-- A record decided in this Grain, reported by page `p`, with the quantities that its rule names. -/
def Dev.fault (d : Dev) (p code : Nat) (deg flt : Bool) (data : List Nat) : Dev :=
  let r : FaultRec := { gtime := d.gtime48, pgId := pgIdOf p, code := code, deg := deg, flt := flt,
                        data := data.map (· % 2 ^ 32) }
  { d with fj := { d.fj with staged := d.fj.staged ++ [r] } }

/-- Insert a record after those of lower or equal PG_ID. -/
def insRec (r : FaultRec) : List FaultRec → List FaultRec
  | [] => [r]
  | x :: l => if r.pgId < x.pgId then r :: x :: l else x :: insRec r l

/-- Records of one Grain in ascending PG_ID, those of one page in order of decision (R556). -/
def sortRecs (l : List FaultRec) : List FaultRec := l.foldl (fun acc r => insRec r acc) []

/-- Number consecutive records from `h`. -/
def numberRecs (h : Nat) : List FaultRec → List FaultRec
  | [] => []
  | r :: l => { r with seq := h % 2 ^ 16 } :: numberRecs (h + 1) l

/-- Staged records are committed (R556): at most 16 to an edge (`done` already were), at most 64 wait, the others are dropped. -/
def Dev.fjCommit (d : Dev) : Dev :=
  let all := d.fj.queue ++ sortRecs d.fj.staged
  let now := all.take (16 - d.fj.done)
  let rest := all.drop now.length
  let wait := rest.take 64
  let lost := rest.length - wait.length
  let head := d.get pgFj FJ_HEAD
  let recs := ((numberRecs head now).reverse ++ d.fj.recs).take 256
  let d := { d with fj := { d.fj with recs := recs, queue := wait, staged := [], done := d.fj.done + now.length } }
  let d := (d.put pgFj FJ_HEAD ((head + now.length) % 2 ^ 32)).put pgFj FJ_STAT_COUNT recs.length
  let d := if now.isEmpty then d
    else
      let due := d.fj.vectorDue || d.flag pgPcie PCIE_CTL_FAULT_VEC
      { d.irq pgFj FJ_IRQ_RECORD with fj := { d.fj with vectorDue := due } }
  if lost = 0 then d else (d.incBy pgFj FJ_STAT_LOST lost).irq pgFj FJ_IRQ_LOST

/-- The 32 bytes of a fault record (R554). -/
def FaultRec.bytes (r : FaultRec) : List Byte :=
  leBytes 6 r.gtime ++ leBytes 2 r.seq ++ leBytes 4 r.pgId ++ leBytes 2 r.code
    ++ [BitVec.ofNat 8 (2 * b2n r.deg + b2n r.flt), BitVec.ofNat 8 r.data.length]
    ++ padTo 16 (r.data.flatMap (leBytes 4))

end Sys2Proof.Machine
end

