-- ==== Sys2Proof/Machine/Bushel.lean ====
section
/-! DEFINITION. The utility DMA Bushel (chapter 13). -/

namespace Sys2Proof.Machine

open Sys2Proof

def Dev.updUd (d : Dev) (f : Bushel → Bushel) : Dev := { d with ud := f d.ud }

/-! ### Addressing (R432, R433) -/

def Dev.udCount (d : Dev) (c i : Nat) : Nat := d.get (pgUd c) (UD_CNT_COUNT.idx i)
def Dev.udElems (d : Dev) (c : Nat) : Nat := d.udCount c 0 * d.udCount c 1 * d.udCount c 2
def Dev.udSize (d : Dev) (c : Nat) : Nat := 2 ^ d.get (pgUd c) UD_CFG_ESIZE
def Dev.udStep (d : Dev) (c i : Nat) (dst : Bool) : Int :=
  if dst then d.getI (pgUd c) (UD_DSTEP_STEP.idx i) else d.getI (pgUd c) (UD_SSTEP_STEP.idx i)

/-- Source and destination address of element number `k` of channel `c`. -/
def Dev.udAddr (d : Dev) (c k : Nat) : Nat × Nat :=
  let q := pgUd c
  let c0 := d.udCount c 0
  let i0 := k % c0
  let i1 := k / c0 % d.udCount c 1
  let i2 := k / (c0 * d.udCount c 1)
  let j0 := if d.get q UD_CFG_MODE = 1 then (i0 + d.get q UD_CFG_ROT * i1) % c0 else i0
  let at_ (base i : Nat) (dst : Bool) : Nat :=
    ofInt 64 (base + i * d.udStep c 0 dst + i1 * d.udStep c 1 dst + i2 * d.udStep c 2 dst)
  (at_ (d.get64 q UD_SRC_LO UD_SRC_HI) j0 false, at_ (d.get64 q UD_DST_LO UD_DST_HI) i0 true)

/-- Bit 8r + c of an element becomes bit 8c + r (R433). -/
def transpose64 (n : Nat) : Nat :=
  (List.range 64).foldl (fun a i => if bit n i then a + 2 ^ (8 * (i % 8) + i / 8) else a) 0

/-- Move one element. -/
def Dev.udElement (d : Dev) (c k : Nat) : Dev :=
  let a := d.udAddr c k
  let l := memRead d.mem a.1 (d.udSize c)
  d.memW a.2 (if d.get (pgUd c) UD_CFG_MODE = 2 then leBytes 8 (transpose64 (leNat l)) else l)

/-- Move `n` elements from number `k` on, in order (R432). -/
def Dev.udMove (d : Dev) (c k : Nat) : Nat → Dev
  | 0 => d
  | n + 1 => (d.udElement c k).udMove c (k + 1) n

/-- The Grain that ends: the run in progress moves `n` elements further, at most one a DCLK cycle (R438, R439). UD_DONE counts them. -/
def Dev.udAdvance (d : Dev) (n : Nat) : Dev :=
  match d.ud.running with
  | none => d
  | some c =>
    if d.gtime < d.ud.began then d
    else
      let k := d.ud.moved
      let n := min (min n 4000) (d.udElems c - k)
      ((d.udMove c k n).put (pgUd c) UD_DONE_ELEMS (k + n)).updUd fun u => { u with moved := k + n, elems := u.elems + n }

/-! ### Checks and requests (R434, R435, R437) -/

/-- The first check that fails. -/
def Dev.udCheck (d : Dev) (c : Nat) : Option Nat :=
  let q := pgUd c
  let mode := d.get q UD_CFG_MODE
  let e := d.udSize c
  let off (x : Int) : Bool := x % e != 0
  if mode = 3 || (mode = 2 && e != 8) then some 1
  else if off (d.get q UD_SRC_LO) || off (d.get q UD_DST_LO)
      || (List.range 3).any (fun i => off (d.udStep c i false) || off (d.udStep c i true)) then some 2
  else if d.udElems c = 0 || 2 ^ 32 < d.udElems c then some 3
  else if d.get q UD_TRIG_KIND = 2 && d.get q UD_TRIG_SEL = c then some 4
  else none

/-- A refused run: ERR, PG_ERR_INFO and the interrupt. -/
def Dev.udRefuse (d : Dev) (c err req : Nat) : Dev :=
  ((d.put (pgUd c) UD_STAT_ERR err).err (pgUd c) .udRefused UD_CTL.off req (pgUd c + UD_CTL.off)).irq (pgUd c) UD_IRQ_ERR

/-- Request one run of channel `c`. -/
def Dev.udRequest (d : Dev) (c : Nat) : Dev :=
  let q := pgUd c
  if d.flag q UD_STAT_PENDING || d.flag q UD_STAT_RUNNING then (d.setB q UD_STAT_MISSED true).irq q UD_IRQ_MISSED
  else (d.setB q UD_STAT_PENDING true).updUd fun u => { u with queue := u.queue ++ [(d.gtime, c)] }

/-- Request a run of every armed channel of kind `kind` and selector `sel`. -/
def Dev.udTrigger (d : Dev) (kind sel : Nat) : Dev :=
  (List.range 32).foldl (fun d c =>
    if d.flag (pgUd c) UD_STAT_ARMED && d.get (pgUd c) UD_TRIG_KIND == kind && d.get (pgUd c) UD_TRIG_SEL == sel then
      d.udRequest c else d) d

/-- UD_START: a write of 1 to UD_CTL.START. -/
def execUdStart (c : Fin 32) (r : Requester) (s : State) : Host.Outcome State Fault Refusal :=
  .next (s.noting (.udStart c r) fun s => s.dec fun _ d =>
    match d.udCheck c with
    | some e => d.udRefuse c e r.code
    | none =>
      if !d.starts (pgUd c) then d else
      let d := d.put (pgUd c) UD_STAT_ERR 0
      let kind := d.get (pgUd c) UD_TRIG_KIND
      if kind = 1 || kind = 2 then d.setB (pgUd c) UD_STAT_ARMED true else d.udRequest c)

/-- Disarm channel `c` and drop its request. -/
def Dev.udDisarm (d : Dev) (c : Nat) : Dev :=
  ((d.setB (pgUd c) UD_STAT_ARMED false).setB (pgUd c) UD_STAT_PENDING false).updUd fun u =>
    { u with queue := u.queue.filter (·.2 != c) }

/-- UD_STOP: a write of 1 to UD_CTL.STOP. -/
def execUdStop (c : Fin 32) (s : State) : Host.Outcome State Fault Refusal := .next (s.noting (.udStop c) fun s => s.dec fun _ d => d.udDisarm c)

/-- UD_TIMER_FIRE: timer `t` fires at the edge of this Grain (R436). -/
def execUdTimerFire (t : Fin 16) (s : State) : Host.Outcome State Fault Refusal :=
  .next (s.noting (.udTimerFire t) fun s => s.dec fun vis d =>
    let per := vis.get pgBush (BUSH_TMR_PERIOD.idx t)
    let phase : Int := vis.get pgBush (BUSH_TMR_PHASE.idx t)
    if per = 0 || bit d.ud.fired t || ((d.gtime : Int) - phase) % per != 0 then d
    else (d.updUd fun u => { u with fired := setBits u.fired t 1 1 }).udTrigger 1 t)

/-! ### Runs (R438, R441) -/

/-- The request to serve: the earliest captured, the lower channel among equals. -/
def firstRequest : List (Nat × Nat) → Option (Nat × Nat)
  | [] => none
  | x :: l =>
    match firstRequest l with
    | some y => if y.1 < x.1 || (y.1 == x.1 && y.2 < x.2) then some y else some x
    | none => some x

/-- UD_RUN_BEGIN: the engine is free and takes the next request for the following edge. -/
def execUdRunBegin (s : State) : Host.Outcome State Fault Refusal :=
  .next (s.noting (.cmd .udRunBegin) fun s => s.dec fun _ d =>
    if d.ud.running.isSome || !d.starts pgBush then d
    else
      match firstRequest d.ud.queue with
      | none => d
      | some x =>
        let c := x.2
        let q := pgUd c
        let d := (d.setB q UD_STAT_PENDING false).updUd fun u => { u with queue := u.queue.filter (·.2 != c) }
        match d.udCheck c with
        | some e => d.udRefuse c e 0
        | none =>
          let d := ((d.setB q UD_STAT_RUNNING true).put q UD_STAT_ERR 0).put q UD_DONE_ELEMS 0
          let d := (d.setB pgBush BUSH_STAT_BUSY true).put pgBush BUSH_STAT_CHAN c
          d.updUd fun u => { u with running := some c, began := d.gtime + 1, moved := 0 })

/-- The run of channel `c` ends. -/
def Dev.udEnd (d : Dev) (c err : Nat) : Dev :=
  let q := pgUd c
  let d := (d.setB q UD_STAT_RUNNING false).put q UD_STAT_ERR err
  (d.setB pgBush BUSH_STAT_BUSY false).updUd fun u => { u with running := none }

/-- UD_RUN_COMPLETE: the end of the run's last write is captured. -/
def execUdRunComplete (s : State) : Host.Outcome State Fault Refusal :=
  .next (s.noting (.cmd .udRunComplete) fun s => s.dec fun _ d =>
    match d.ud.running with
    | none => d
    | some c =>
      if d.ud.moved < d.udElems c then d
      else (((d.udEnd c 0).inc (pgUd c) UD_COUNT_RUNS).irq (pgUd c) UD_IRQ_DONE).udTrigger 2 c)

/-- UD_BUS_ERROR on the read, or (`write`) the write, of the element behind those moved. -/
def execUdBusError (write : Bool) (s : State) : Host.Outcome State Fault Refusal :=
  .next (s.noting (.udBusError write) fun s => s.dec fun _ d =>
    match d.ud.running with
    | none => d
    | some c =>
      let k := d.ud.moved
      if d.udElems c ≤ k || d.gtime ≤ d.ud.began then d
      else
        let a := if write then (d.udAddr c k).2 else (d.udAddr c k).1
        ((d.udEnd c (if write then 6 else 5)).irq (pgUd c) UD_IRQ_ERR).fault (pgUd c) 0x0C01 false false [c, a, a / 2 ^ 32])

/-! ### Every Grain, snapshots and resets -/

/-- Timers may fire again at the next edge. -/
def Dev.bushelGrain (d : Dev) : Dev := d.updUd fun u => { u with fired := 0 }

/-- The snapshot of BUSH (R40, R445). -/
def Dev.bushelStone (d : Dev) : Dev :=
  (d.put pgBush BUSH_STONE_ELEMS_K (d.ud.elems / 1000)).updUd fun u => { u with elems := 0 }

/-- A warm reset ends the run with ERR RESET and disarms every channel (R443). -/
def Dev.bushelWarm (d : Dev) : Dev :=
  let d := match d.ud.running with
    | some c => d.udEnd c 7
    | none => d
  (List.range 32).foldl (fun d c => d.udDisarm c) d

end Sys2Proof.Machine
end

