-- ==== Sys2Proof/Machine/LedgerOps.lean ====
section
/-! DEFINITION. The operations that the ledger, the reserve account and the staging FIFOs share: journal and task state,
charges, contexts and lane descriptors, packets, and the settlement of an entry (R64 to R99, R114 to R117, R137 to
R147). -/

namespace Sys2Proof.Machine

open Sys2Proof

/-- OPC of R71. -/
def Opc.code : Opc → Nat
  | .openLane => 0x01 | .append => 0x02 | .read => 0x03 | .seal => 0x04 | .flush => 0x05
  | .abort => 0x06 | .mark => 0x07 | .release => 0x08 | .query => 0x09

/-- STATUS of R84. -/
def CStat.code : CStat → Nat
  | .ok => 0x00 | .aborted => 0x01 | .tooLate => 0x02 | .notAbortable => 0x03 | .noTarget => 0x04
  | .laneInUse => 0x05 | .range => 0x06 | .void => 0x07 | .unrecoverable => 0x08 | .destFault => 0x09
  | .retained => 0x0A | .holdLimit => 0x0B | .sealFault => 0x0C | .interrupted => 0x0D

/-- Lane state of R78. -/
def LaneState.code : LaneState → Nat
  | .free => 0 | .opening => 1 | .open => 2 | .sealing => 3 | .sealed => 4 | .archived => 5 | .reclaiming => 6

/-! ### Windows (R57, R58) -/

/-- Is window `w` host-owned (R58)? -/
def Dev.hostOwned (d : Dev) (w : Nat) : Bool :=
  if w < 32 then bit (d.get pgLdg LDG_OWNER_LO) w else bit (d.get pgLdg LDG_OWNER_HI) (w - 32)

/-- May requester `r` write the page of window `w` (R58)? -/
def Dev.mayWrite (d : Dev) (r : Requester) (w : Nat) : Bool := (r == .host) == d.hostOwned w

/-- The window's outstanding count (R87): journal entries not retired. -/
def Dev.outstanding (d : Dev) (w : Nat) : Nat := (d.ldg.journal.filter (·.window == w)).length

/-- Accepted tasks whose completion is not yet posted (TW_OUTST.UNPOSTED). -/
def Dev.unposted (d : Dev) (w : Nat) : Nat :=
  (d.ldg.journal.filter fun e => e.window == w && !(e.posted || e.reposted)).length

/-! ### Contexts and lanes (R78, R79) -/

def Dev.ctx (d : Dev) (c : Nat) : Ctx := tabGet (fun _ => {}) d.ldg.ctxs c

def Dev.setCtx (d : Dev) (c : Nat) (x : Ctx) : Dev :=
  { d with ldg := { d.ldg with ctxs := tabSet (fun _ => {}) d.ldg.ctxs c x } }

def Dev.lane (d : Dev) (n : Nat) : LaneDesc := tabGet (fun _ => {}) d.ldg.lanes n

/-- The holds in force on a lane. -/
def Dev.laneHolds (d : Dev) (n : Nat) : List Hold := d.ldg.holds.filter (·.lane == n)

/-- The 64-byte status record of a lane (R77): state and length as given, the rest from the descriptor. -/
def laneRecord (n : Nat) (holds : Nat) (x : LaneDesc) (state len settled extra : Nat) : List Byte :=
  leBytes 4 (state * 2 ^ 24 + extra * 2 ^ 21 + n % 2 ^ 20) ++ leBytes 4 holds ++ leBytes 8 len ++ leBytes 8 settled
    ++ leBytes 8 x.archived ++ leBytes 8 x.openLsn ++ leBytes 8 x.sealLsn ++ leBytes 6 x.changed
    ++ leBytes 2 (min 0xFFFF x.voids) ++ leBytes 8 x.discRef

/-- Where lane `n`'s descriptor stands in external memory, once its region is placed (R251, R583). -/
def Dev.laneAt (d : Dev) (n : Nat) : Option Nat :=
  let base := d.get64 pgMap MAP_DESC_BASE_LO MAP_DESC_BASE_HI / 4096 * 4096
  if base = 0 then none else some (base + n * 128)

/-- Set lane `n`'s descriptor, in the table and, once its region is placed (R583), in external memory (R251). -/
def Dev.setLane (d : Dev) (n : Nat) (x : LaneDesc) : Dev :=
  let l := laneRecord n (d.laneHolds n).length x x.state.code x.length x.settled (x.poly * 2 + b2n x.sha)
  { d with ldg := { d.ldg with lanes := tabSet (fun _ => {}) d.ldg.lanes n x }
           mem := match d.laneAt n with
             | some a => memWrite d.mem a l
             | none => d.mem }

/-- Set a lane's state and the GTIME of the change (R77). -/
def Dev.setLaneState (d : Dev) (n : Nat) (st : LaneState) : Dev :=
  d.setLane n { d.lane n with state := st, changed := d.gtime48 }

/-- A SEAL ends without effect: the lane is OPEN again and names no SEAL (R77, R78). -/
def Dev.unsealLane (d : Dev) (n : Nat) : Dev := d.setLane n { d.lane n with state := .open, changed := d.gtime48, sealLsn := 0 }

/-! ### Bays as the ledger sees them (R189, R191, R585) -/

/-- WRITABLE, the only state that takes a new binding (R189). -/
def Dev.bayWritable (d : Dev) (b : Nat) : Bool := d.get (pgBay b) BAY_STAT_STATE == 5

/-- WRITABLE or RELEASING: writable for Held data already bound, and for a commit (R189). -/
def Dev.bayDrains (d : Dev) (b : Nat) : Bool :=
  d.get (pgBay b) BAY_STAT_STATE == 5 || d.get (pgBay b) BAY_STAT_STATE == 6

/-- The writable bay with the most free stripes, ties to the lower number (R72, R191, R585). -/
def Dev.bestBay (d : Dev) : Option Nat :=
  [0, 1, 2, 3].foldl (fun best b =>
    if d.bayWritable b then
      match best with
      | some c => if d.get (pgBay c) BAY_FREE < d.get (pgBay b) BAY_FREE then some b else best
      | none => some b
    else best) none

/-- The bay of a record of a task on lane `n` with context `c` if it has one (R585). -/
def Dev.recordBay (vis d : Dev) (n : Nat) : Option Nat :=
  match d.ldg.ctxs.find? fun p => p.2.lane == n && p.2.state != .free with
  | some p => some p.2.bay
  | none => vis.bestBay

/-! ### Charges (R114 to R117) -/

/-- PROMISED (R114). -/
def Dev.promised (d : Dev) : Nat :=
  d.get pgRsv RSV_E_FIXED + d.get pgRsv RSV_HELD_HELD_CW * d.get pgRsv RSV_E_UNIT_E_CW
    + d.get pgRsv RSV_HELD_HELD_REC * d.get pgRsv RSV_E_UNIT_E_REC

/-- What a task adds to HELD_CW and HELD_REC (R115). -/
def chargeOf (o : Opc) (length : Nat) : Nat × Nat :=
  match o with
  | .append => (ceilDiv length 4096 + 1, 0)
  | .openLane | .seal | .mark | .release => (0, 1)
  | .read | .query | .flush | .abort => (0, 0)

/-- Take (R116) or return (R117) a charge, and restate PROMISED (R114). -/
def Dev.charge (d : Dev) (cw rc : Nat) : Dev :=
  let d := (d.put pgRsv RSV_HELD_HELD_CW (d.get pgRsv RSV_HELD_HELD_CW + cw)).put pgRsv RSV_HELD_HELD_REC
    (d.get pgRsv RSV_HELD_HELD_REC + rc)
  d.put pgRsv RSV_PROMISED d.promised

def Dev.credit (d : Dev) (cw rc : Nat) : Dev :=
  let d := (d.put pgRsv RSV_HELD_HELD_CW (d.get pgRsv RSV_HELD_HELD_CW - cw)).put pgRsv RSV_HELD_HELD_REC
    (d.get pgRsv RSV_HELD_HELD_REC - rc)
  d.put pgRsv RSV_PROMISED d.promised

/-! ### Journal and task state (R68, R89, R94) -/

def Dev.jentry (d : Dev) (lsn : Nat) : Option JEntry := d.ldg.journal.find? (·.lsn == lsn)

def Dev.task (d : Dev) (lsn : Nat) : Option TaskSt := d.ldg.tasks.find? (·.lsn == lsn)

/-- Has the task's condition been met? A consumed completion has left the journal (R89). -/
def Dev.isMet (d : Dev) (lsn : Nat) : Bool :=
  match d.jentry lsn with
  | some e => e.met.isSome
  | none => true

/-- Change the task of LSN `lsn`. -/
def Dev.updTask (d : Dev) (lsn : Nat) (f : TaskSt → TaskSt) : Dev :=
  { d with ldg := { d.ldg with tasks := updWhere (·.lsn == lsn) f d.ldg.tasks } }

/-- A task leaves the task state when its condition is met and its effect is Settled; what was kept of lanes and holds goes when no
task of a lower LSN has still to look (R80). -/
def Dev.dropDone (d : Dev) : Dev :=
  let tasks := d.ldg.tasks.filter fun t => !(t.settled && d.isMet t.lsn)
  let looks (lsn : Nat) : Bool := tasks.any fun u => decide (u.lsn < lsn) && !d.isMet u.lsn
  { d with ldg := { d.ldg with
      tasks := tasks
      journal := d.ldg.journal.filter fun e => !(e.lost && e.met.isSome)
      laneWas := d.ldg.laneWas.filter fun x => looks x.1
      holdWas := d.ldg.holdWas.filter fun x => looks x.1 } }

/-- Give the journal entry of `lsn` its STATUS and RESULT, once (R89). -/
def Dev.meet (d : Dev) (lsn : Nat) (st : CStat) (res : Nat) : Dev :=
  { d with ldg := { d.ldg with
      journal := updWhere (fun e => e.lsn == lsn && e.met.isNone) (fun e => { e with met := some (st, res) })
        d.ldg.journal } }

/-- Is FLUSH `t` done: every lower-LSN task in its scope settled under R94 (R95)? -/
def Dev.flushDone (d : Dev) (t : TaskSt) : Bool :=
  d.ldg.tasks.all fun u => u.settled || t.lsn ≤ u.lsn || (bit t.flags 1 && u.lane != t.lane)

/-- Complete every FLUSH that waits for nothing more (R95). -/
def Dev.meetFlushes (d : Dev) : Dev :=
  ((d.ldg.tasks.filter fun t => t.opc == .flush && !d.isMet t.lsn && d.flushDone t).foldl
    (fun d t => d.meet t.lsn .ok 0) d).dropDone

/-- The task has no further effect to store: settled under R94, its charge returned (R117). -/
def Dev.settleTask (d : Dev) (lsn : Nat) : Dev :=
  match d.task lsn with
  | some t =>
    ((d.credit t.cw t.rc).updTask lsn fun t => { t with settled := true, cw := 0, rc := 0 }).meetFlushes
  | none => d

/-- Complete a task that leaves no record (R94): its charge returns at the staging of its completion. -/
def Dev.meetNoEffect (d : Dev) (lsn : Nat) (st : CStat) (res : Nat) : Dev := (d.meet lsn st res).settleTask lsn

/-- Complete a task whose record is now Held and will be Settled later (R94, R585). -/
def Dev.meetHeld (vis d : Dev) (lsn : Nat) (lane : Nat) (st : CStat) (res : Nat) : Dev :=
  (d.meet lsn st res).updTask lsn fun t => { t with hasRecord := true, bay := Dev.recordBay vis d lane, effectAt := d.gtime48 }

/-- Lane offset below which every byte is Settled (R77, R80). -/
def Dev.settledLen (d : Dev) (n : Nat) : Nat :=
  (d.ldg.tasks.filter fun t => t.opc == .append && t.lane == n && !t.settled).foldl
    (fun m t => min m t.offset) (d.lane n).length

/-- Does task `u` name the hold of ID `id` in a RELEASE without RECLAIM? -/
def TaskSt.names (u : TaskSt) (id : Nat) : Bool := u.opc == .release && !bit u.flags 2 && u.arg0 + u.arg1 * 2 ^ 32 == id

/-- Must a task of lane `n` and LSN `lsn` wait: has a record of a lower LSN on the lane not yet had its effect (R80)? OPEN_LANE
counts where `opens` says so. A RELEASE of a hold stands on the hold's lane, or on that of the MARK that will make it. -/
def Dev.laneWaits (d : Dev) (n lsn : Nat) (opens : Bool) : Bool :=
  d.ldg.tasks.any fun u => decide (u.lsn < lsn) && !d.isMet u.lsn &&
    match u.opc with
    | .openLane => opens && u.lane == n
    | .mark => u.lane == n
    | .release =>
      if bit u.flags 2 then u.lane == n
      else d.ldg.holds.any (fun h => u.names h.id && h.lane == n)
        || d.ldg.tasks.any fun m => m.opc == .mark && u.names m.lsn && m.lane == n
    | _ => false

/-- Does a READ, QUERY, MARK or RELEASE of an LSN below `lsn` still have to look at lane `n` or its holds (R80)? -/
def Dev.looksBelow (d : Dev) (n lsn : Nat) : Bool :=
  d.ldg.tasks.any fun u => decide (u.lsn < lsn) && u.lane == n && !d.isMet u.lsn
    && (u.opc == .read || u.opc == .query || u.opc == .mark || u.opc == .release)

/-- Keep lane `n` as it stands before the effect of LSN `lsn`, if a task of a lower LSN has still to look at it (R80). -/
def Dev.keepLane (d : Dev) (lsn n : Nat) : Dev :=
  if d.looksBelow n lsn then { d with ldg := { d.ldg with laneWas := d.ldg.laneWas ++ [(lsn, n, d.lane n)] } } else d

/-- RELEASE `lsn` removes hold `h`; a task of a lower LSN that has still to look at the lane's holds finds it (R80). -/
def Dev.dropHold (d : Dev) (lsn : Nat) (h : Hold) : Dev :=
  let was := if d.looksBelow h.lane lsn then d.ldg.holdWas ++ [(lsn, h)] else d.ldg.holdWas
  let d := { d with ldg := { d.ldg with holds := d.ldg.holds.filter (·.id != h.id), holdWas := was } }
  d.setLane h.lane (d.lane h.lane)

/-- The holds on lane `n` as every task below LSN `lsn` and none above it leaves them (R77, R80). -/
def Dev.holdsAsOf (d : Dev) (n lsn : Nat) : List Hold :=
  ((d.ldg.holdWas.filter fun x => decide (lsn < x.1)).map (·.2) ++ d.ldg.holds).filter fun h =>
    h.lane == n && decide (h.id < lsn)

/-- Void bytes of lane `n`'s entries above LSN `lsn`, Settled or still Held. -/
def Dev.voidsAbove (d : Dev) (n lsn : Nat) : Nat :=
  ((d.ldg.store.filter fun e => e.lane == n && decide (lsn < e.lsn)).map (·.voidBytes)).sum
    + ((d.ldg.tasks.filter fun u => u.opc == .append && u.lane == n && decide (lsn < u.lsn) && !u.settled).map (·.voidBytes)).sum

/-- Lane `n` without the effects of tasks above LSN `lsn` (R77, R80): its Settled and Archived lengths, which no task sets, are
those of now. -/
def Dev.laneAsOf (d : Dev) (n lsn : Nat) : LaneDesc :=
  let now := d.lane n
  let x := match d.ldg.laneWas.find? fun e => e.2.1 == n && decide (lsn < e.1) with
    | some e =>
      if e.2.2.openLsn == now.openLsn then
        { e.2.2 with length := now.length, settled := now.settled, archived := now.archived, voids := now.voids, discRef := now.discRef }
      else e.2.2
    | none => now
  { x with voids := x.voids - d.voidsAbove n lsn }

/-! ### Staging FIFOs (R137 to R142) -/

def Dev.fifo (d : Dev) (k : Nat) : Fifo := (d.stg.fifos[k]?).getD {}

def Dev.setFifo (d : Dev) (k : Nat) (f : Fifo) : Dev :=
  { d with stg := { d.stg with fifos := d.stg.fifos.setIfInBounds k f } }

def Dev.updFifo (d : Dev) (k : Nat) (g : Fifo → Fifo) : Dev := d.setFifo k (g (d.fifo k))

/-- Size of FIFO `k` in 64-byte words (R137). -/
def Dev.fifoWords (d : Dev) (k : Nat) : Nat := d.get (pgFk k) FK_CFG_SIZE_4K * 64

/-- Words promised and not yet written (R141). -/
def Fifo.promised (f : Fifo) : Nat := (f.packets.map (·.promised)).sum

/-- Unpromised free words (R141), 0 while the diagnostic port holds the FIFO (R162). -/
def Dev.freeWords (d : Dev) (size : Nat) (k : Nat) : Nat :=
  if d.flag (pgFk k) FK_CTL_DIAG_EN then 0 else size - ((d.fifo k).w - (d.fifo k).s) - (d.fifo k).promised

/-- FK_STAT.HELD (R145): words of accepted APPENDs stored, or promised words not yet written. -/
def Fifo.held (f : Fifo) : Bool := f.s != f.w || f.promised != 0

/-- Restate FK_STAT, FK_LEVEL and FK_FREE of FIFO `k` from its pointers (R141, R145, R146). -/
def Dev.fifoStat (d : Dev) (k : Nat) : Dev :=
  let f := d.fifo k
  let size := d.fifoWords k
  let p := pgFk k
  let diag := d.flag p FK_CTL_DIAG_EN
  ((((((d.setB p FK_STAT_HELD (f.held && !diag)).setB p FK_STAT_DIAG diag).setB p FK_STAT_EMPTY (f.d == f.w)).setB p
    FK_STAT_FULL (f.w - f.s == size)).put p FK_LEVEL_PROMISED_W f.promised).put p FK_LEVEL_STORED_W (f.w - f.s)).put p
      FK_FREE_FREE_W (d.freeWords size k)

/-- Promise an accepted APPEND its words (R141). -/
def Dev.promise (d : Dev) (k lsn lane ctx length : Nat) : Dev :=
  let p : Packet := { lsn := lsn, lane := lane, ctx := ctx, promised := ceilDiv length 64 }
  (d.updFifo k fun f => { f with packets := f.packets ++ [p] }).fifoStat k

/-- How far the flash channels have read a FIFO's packets without a gap (R142). -/
def drainedTo : List Packet → Nat → Nat
  | [], x => x
  | p :: l, x =>
    if !p.opened then x
    else if p.closed && p.words ≤ p.drained then drainedTo l (p.start + p.words)
    else p.start + p.drained

/-- A flash channel has read FIFO `k`'s packet of entry `lsn` up to its byte `upto`; D follows (R142). -/
def Dev.drain (d : Dev) (k lsn upto : Nat) : Dev :=
  (d.updFifo k fun f =>
    let l := updWhere (·.lsn == lsn) (fun p => { p with drained := max p.drained (min p.words (ceilDiv upto 64)) }) f.packets
    { f with packets := l, d := max f.d (drainedTo l f.s) }).fifoStat k

/-- Words of the leading Settled packets, and the packets that stay (R142). -/
def releaseLead : List Packet → Nat × List Packet
  | [] => (0, [])
  | p :: l => if p.settled then let r := releaseLead l; (p.words + r.1, r.2) else (0, p :: l)

/-- Pointer S advances over Settled packets in FIFO order and returns their space (R142); D and H never lie below it. -/
def Dev.release (d : Dev) (k : Nat) : Dev :=
  (d.updFifo k fun f =>
    let r := releaseLead f.packets
    let s := f.s + r.1
    { f with s := s, d := max f.d s, h := max f.h s, packets := r.2 }).fifoStat k

/-! ### Settlement of an APPEND (R142, R220) -/

/-- An APPEND's entry is Settled: its bytes stand in flash, with the ranges `bad` marked unrecoverable, the lane's Settled length
grows, its charge returns and its staging space is released in FIFO order (R80, R117, R142, R220). -/
def Dev.settleAppend (d : Dev) (t : TaskSt) (k : Nat) (bad : List (Nat × Nat)) : Dev :=
  match (d.fifo k).packets.find? (·.lsn == t.lsn) with
  | some p =>
    let e : SettledEntry := { lane := t.lane, lsn := t.lsn, offset := t.offset, bytes := p.bytes, voidBytes := p.voidBytes
                              bay := t.bay, bad := bad, endRec := p.endRec }
    let d := { d with ldg := { d.ldg with store := d.ldg.store ++ [e] } }
    let d := d.updFifo k fun f =>
      { f with packets := updWhere (·.lsn == t.lsn) (fun p => { p with settled := true }) f.packets }
    let d := (d.release k).settleTask t.lsn
    let x := d.lane t.lane
    d.setLane t.lane { x with settled := max x.settled (d.settledLen t.lane) }
  | none => d

end Sys2Proof.Machine
end

