-- ==== Sys2Proof/Machine/FlashOps.lean ====
section
/-! DEFINITION. What the flash channels, the bays and the integrity logic share: recipes and addresses, a channel's
operations, bay states, retargeting (R164 to R195). -/

namespace Sys2Proof.Machine

open Sys2Proof

/-! ### The parts of the flash state -/

def Dev.chan (d : Dev) (k : Nat) : Channel := (d.fls.chans[k]?).getD {}

def Dev.updChan (d : Dev) (k : Nat) (f : Channel → Channel) : Dev :=
  { d with fls := { d.fls with chans := d.fls.chans.setIfInBounds k (f (d.chan k)) } }

def Dev.bay (d : Dev) (b : Nat) : BayState := (d.fls.bays[b]?).getD {}

def Dev.updBay (d : Dev) (b : Nat) (f : BayState → BayState) : Dev :=
  { d with fls := { d.fls with bays := d.fls.bays.setIfInBounds b (f (d.bay b)) } }

def Dev.bmap (d : Dev) (b : Nat) : BayMap := (d.fls.maps[b]?).getD {}

def Dev.updMap (d : Dev) (b : Nat) (f : BayMap → BayMap) : Dev :=
  { d with fls := { d.fls with maps := d.fls.maps.setIfInBounds b (f (d.bmap b)) } }

/-- State of bay `b` (R189). -/
def Dev.bayState (d : Dev) (b : Nat) : Nat := d.get (pgBay b) BAY_STAT_STATE

/-! ### Physical flash addresses (R169, R170) -/

def pfaBay (p : Nat) : Nat := bits p 62 2
def pfaChan (p : Nat) : Nat := bits p 60 2
def pfaCe (p : Nat) : Nat := bits p 58 2
def pfaLun (p : Nat) : Nat := bits p 56 2
def pfaBlock (p : Nat) : Nat := bits p 32 16
def pfaPage (p : Nat) : Nat := bits p 16 16
def pfaCw (p : Nat) : Nat := bits p 0 3

/-- A physical flash address from its fields (R169). -/
def mkPfa (bay chan ce lun block page cw : Nat) : Nat :=
  bay % 4 * 2 ^ 62 + chan % 4 * 2 ^ 60 + ce % 4 * 2 ^ 58 + lun % 4 * 2 ^ 56 + block % 2 ^ 16 * 2 ^ 32
    + page % 2 ^ 16 * 2 ^ 16 + cw % 8

/-- The channel that a PFA names (R169). -/
def pfaPhys (p : Nat) : Nat := 4 * pfaBay p + pfaChan p

/-- The bit of FCH_TGT.LUN_EN and FCH_LUN_STAT that a PFA names. -/
def lunBit (p : Nat) : Nat := 4 * pfaCe p + pfaLun p

/-- The row address (R170). -/
def Dev.rowAddr (d : Dev) (p : Nat) : Nat :=
  let b := pgBay (pfaBay p)
  pfaLun p * 2 ^ (d.get b BAY_GEOM1_BLOCK_BITS + d.get b BAY_GEOM1_PAGE_BITS)
    ||| pfaBlock p * 2 ^ d.get b BAY_GEOM1_PAGE_BITS ||| pfaPage p

/-- The column address (R170). -/
def colAddr (p : Nat) : Nat := pfaCw p * 4608

/-- Row and column bytes as they are sent, low byte first (R170). -/
def Dev.rowBytes (d : Dev) (p : Nat) : List Nat :=
  (leBytes (d.get (pgBay (pfaBay p)) BAY_GEOM1_ROW_CYCLES) (d.rowAddr p)).map (·.toNat)

def Dev.colBytes (d : Dev) (p : Nat) : List Nat :=
  (leBytes (d.get (pgBay (pfaBay p)) BAY_GEOM1_COL_CYCLES_M1 + 1) (colAddr p)).map (·.toNat)

/-- Does the bay's geometry hold the address, and is its LUN enabled (R170)? -/
def Dev.pfaOk (d : Dev) (p : Nat) : Bool :=
  let b := pgBay (pfaBay p)
  decide (pfaBlock p < d.get b BAY_GEOM1_BLOCKS_PER_LUN) && decide (pfaPage p < d.get b BAY_GEOM0_PAGES_PER_BLOCK)
    && decide (pfaCw p < d.get b BAY_GEOM0_PAGE_CW) && bit (d.get (pgFch (pfaPhys p)) FCH_TGT_LUN_EN) (lunBit p)

/-! ### Recipes (R171 to R174) -/

/-- Instruction words (R172). -/
def wCmd (b : Nat) : Nat := 0x10000000 + b
def wAddr (src b : Nat) : Nat := 0x20000000 + src * 2 ^ 26 + b
def wDin : Nat := 0x30000000
def wDout (buf n : Nat) : Nat := 0x40000000 + buf * 2 ^ 27 + n
def wWait (par : Nat) : Nat := 0x50000000 + par * 2 ^ 16
def wYield (e : Nat) : Nat := 0x60000000 + e * 2 ^ 16
def wStatus : Nat := 0x70006001
def wData (b : Nat) : Nat := 0x80000000 + b
def wPlane (target notLast last : Nat) : Nat := 0x90000000 + target * 2 ^ 16 + notLast * 2 ^ 8 + last

/-- What R173 leaves open in the ROM: a number below `n` (notes/assumptions/5.md). -/
def romOpen (i n : Nat) : Nat := (Config.romRecipe i).toNat % n

/-- The ROM forms other than slot 3's, each from its first word on (R173): the operation that the table gives for the slot; the feature
address, a buffer and a length that the table does not give are open. -/
def romForms : List (Nat × (Nat → List Nat)) :=
  [(0, fun _ => [wCmd 0x00, wAddr 2 0, wCmd 0x30, wWait 4, wYield 0, wStatus, wCmd 0x00, wDout 0 0, 0]),
   (1, fun a => [wCmd 0x00, wAddr 2 0, wPlane a 0x32 0x30, wWait 4, wYield 0, wStatus, wCmd 0x06, wAddr 2 0, wCmd 0xE0, wWait 2,
      wDout 0 0, wPlane (a + 7) 0x06 0x00, 0]),
   (2, fun _ => [wCmd 0x31, wWait 4, wYield 0, wStatus, wCmd 0x00, wDout 0 0, 0]),
   (4, fun a => [wCmd 0x80, wAddr 2 0, wWait 0, wDin, wPlane a 0x11 0x10, wWait 4, wYield 1, wStatus, 0]),
   (5, fun _ => [wCmd 0x80, wAddr 2 0, wWait 0, wDin, wCmd 0x15, wWait 4, wYield 1, wStatus, 0]),
   (6, fun _ => [wCmd 0x60, wAddr 1 0, wCmd 0xD0, wWait 4, wYield 2, wStatus, 0]),
   (7, fun a => [wCmd 0x60, wAddr 1 0, wPlane a 0xD1 0xD0, wWait 4, wYield 2, wStatus, 0]),
   (8, fun _ => [wStatus, 0]),
   (9, fun _ => [wCmd 0xFA, wAddr 1 0, wWait 4, 0]),
   (10, fun _ => [wCmd 0xFF, wWait 4, 0]),
   (11, fun _ => [wCmd 0x90, wAddr 3 (0x20 * romOpen 32 2), wWait 1, wDout (romOpen 33 2) (romOpen 34 64 + 1), 0]),
   (12, fun _ => [wCmd 0xEC, wAddr 3 (0x40 * romOpen 35 2), wWait 4, wYield 0, wDout (romOpen 36 2) (romOpen 37 65535 + 1), 0]),
   (13, fun _ => [wCmd 0xEF, wAddr 3 (romOpen 38 256), wWait 0, wData (romOpen 39 256), wData (romOpen 40 256), wData (romOpen 41 256),
      wData (romOpen 42 256), wWait 4, wYield 4, 0]),
   (14, fun _ => [wCmd 0xEE, wAddr 3 (romOpen 43 256), wWait 4, wYield 4, wDout (romOpen 44 2) 4, 0])]

/-- The ROM recipe of slot 3 from word 64 (R173). -/
def romProgram : List Nat := [wCmd 0x80, wAddr 2 0, wWait 0, wDin, wCmd 0x10, wWait 4, wYield 1, wStatus, 0]

/-- Where the forms stand behind word 72: one after another, with gaps that are open (slot, first word, words; R173). -/
def romLayout : List (Nat × (Nat → List Nat)) → Nat → List (Nat × Nat × List Nat)
  | [], _ => []
  | x :: l, a =>
    let a := a + romOpen x.1 16
    let w := x.2 a
    (x.1, a, w) :: romLayout l (a + w.length)

/-- The words loaded from ROM at power-on reset (R173): slot table, slot 3's form, the other forms, 0 elsewhere. -/
def romWord (i : Nat) : Word :=
  if i = 3 then 64
  else if 15 ≤ i && i < 64 then 0
  else if 64 ≤ i && i ≤ 72 then BitVec.ofNat 32 (nthD romProgram (i - 64) 0)
  else
    match (romLayout romForms 73).find? fun x => if i < 32 then x.1 == i else decide (x.2.1 ≤ i) && decide (i < x.2.1 + x.2.2.length) with
    | some x => BitVec.ofNat 32 (if i < 32 then x.2.1 else nthD x.2.2 (i - x.2.1) 0)
    | none => 0

/-- Word `i` of the recipe memories of bay `b`. -/
def Dev.recipeWord (d : Dev) (b i : Nat) : Word :=
  (tabGet (fun _ => none) d.fls.recipes (b * 512 + i % 512)).getD (romWord (i % 512))

/-- The first instruction word of slot `s`, 0 for an empty slot (R171). -/
def Dev.slotStart (d : Dev) (b s : Nat) : Nat := bits (d.recipeWord b s).toNat 0 9

/-- Store a recipe word (R174). -/
def Dev.setRecipe (d : Dev) (b i : Nat) (v : Word) : Dev :=
  { d with fls := { d.fls with recipes := tabSet (fun _ => none) d.fls.recipes (b * 512 + i % 512) (some v) } }

/-- What a read of BAY_RCP_DATA returns (R173, R201). -/
def Dev.rcpData (d : Dev) (b : Nat) : Word := d.recipeWord b (bits (d.get (pgBay b) BAY_RCP_ADDR) 0 9)

/-! ### A channel's operations (R175 to R185) -/

def Dev.op (d : Dev) (k id : Nat) : Option FlashOp := (d.chan k).ops.find? (·.id == id)

/-- The PFA at which an operation stands in its plane set (R172). -/
def FlashOp.at (o : FlashOp) : Nat := nthD (o.pfa :: o.planes) o.plane 0

/-- Restate FCH_LUN_STAT from the operations. -/
def Dev.lunStat (d : Dev) (k : Nat) : Dev :=
  let m (st : OpStage) : Nat := (d.chan k).ops.foldl (fun n o =>
    if o.stage == st && o.kind != .suspend && o.kind != .resume then n ||| 2 ^ lunBit o.pfa else n) 0
  (d.put (pgFch k) FCH_LUN_STAT_BUSY (m .yielded)).put (pgFch k) FCH_LUN_STAT_SUSPENDED (m .suspended)

def Dev.updOp (d : Dev) (k id : Nat) (f : FlashOp → FlashOp) : Dev :=
  (d.updChan k fun c => { c with ops := updWhere (·.id == id) f c.ops }).lunStat k

def Dev.dropOp (d : Dev) (k id : Nat) : Dev :=
  (d.updChan k fun c =>
    { c with ops := c.ops.filter (·.id != id), plan := c.plan.filter (·.1 != id), next := c.next.filter (·.1 != id),
             current := if c.current == some id then none else c.current, ce := if c.current == some id then none else c.ce }).lunStat k

/-- Queue an operation on channel `k`. -/
def Dev.queueOp (d : Dev) (k : Nat) (o : FlashOp) : Dev :=
  d.updChan k fun c => { c with ops := c.ops ++ [{ o with id := c.nextId, queuedAt := d.gtime }], nextId := c.nextId + 1 }

/-- The operations of bay `b`, on its channels and on FCH16. -/
def Dev.bayOps (d : Dev) (b : Nat) : List FlashOp :=
  ([4 * b, 4 * b + 1, 4 * b + 2, 4 * b + 3, 16].flatMap fun k => (d.chan k).ops).filter fun o => pfaBay o.pfa == b

/-- RESET_LUN for a LUN in the next plan (R180, R181). -/
def Dev.queueReset (d : Dev) (k pfa : Nat) : Dev :=
  d.queueOp k { id := 0, kind := .reset, slot := 9, pfa := pfa, cls := 1 }

/-! ### Element pages (R215) -/

/-- Change the element page `pg` = (bay, stripe, row, element). -/
def Dev.updPage (d : Dev) (pg : Nat × Nat × Nat × Nat) (f : ElemPage → ElemPage) : Dev :=
  d.updMap pg.1 fun m => { m with stripes := updWhere (·.id == pg.2.1) (fun s =>
    { s with rows := updWhere (·.row == pg.2.2.1) (fun r =>
      { r with pages := updWhere (·.element == pg.2.2.2) f r.pages }) s.rows }) m.stripes }

/-- The key of a LUN among those of its bay: channel and LUN bit. -/
def lunKey (pfa : Nat) : Nat := 64 * pfaPhys pfa + lunBit pfa

/-- Consecutive failures on a die, and time-outs of its LUN, start again at 0 after a good operation (R180, R225). -/
def Dev.dieGood (d : Dev) (pfa : Nat) : Dev :=
  let d := d.updMap (pfaBay pfa) fun m => { m with fails := tabSet (fun _ => 0) m.fails (lunKey pfa) 0 }
  d.updChan (pfaPhys pfa) fun c => { c with touts := tabSet (fun _ => 0) c.touts (lunBit pfa) 0 }

def Dev.dieBad (d : Dev) (pfa : Nat) : Dev :=
  d.updMap (pfaBay pfa) fun m => { m with fails := tabSet (fun _ => 0) m.fails (lunKey pfa) (tabGet (fun _ => 0) m.fails (lunKey pfa) + 1) }

/-- Four times the retry entry, plus its offset, as a read asks for it (R212, R214). -/
def FlashOp.entry (o : FlashOp) : Nat := 4 * o.rt + o.soft

/-- The entry in force on a LUN becomes `v` (R212). -/
def Dev.setInForce (d : Dev) (pfa v : Nat) : Dev :=
  d.updMap (pfaBay pfa) fun m => { m with inForce := tabSet (fun _ => 0) m.inForce (lunKey pfa) v }

/-- A rebuilt page has been programmed or verified, as `f` says (R227). -/
def Dev.updRebuilt (d : Dev) (pg : Nat × Nat × Nat × Nat) (f : Bool × Bool → Bool × Bool) : Dev :=
  d.updMap pg.1 fun m => { m with rebuild := m.rebuild.map fun r =>
    { r with pages := r.pages.map fun x => if x.1 == pg.2.2.1 then (x.1, f x.2) else x } }

/-- A program into the target of bay `b`'s rebuild has failed (R215, R227). -/
def Dev.rebuildFailed (d : Dev) (b : Nat) : Dev :=
  d.updMap b fun m => { m with rebuild := m.rebuild.map fun r => { r with failed := true } }

/-- Is codec `i` free: it decodes nothing, has not failed and is not under test (R209, R479, R482)? -/
def Dev.codecFree (d : Dev) (i : Nat) : Bool :=
  ((d.fls.codecs[i]?).getD none).isNone && !d.sliceBad (131 + i) && !(d.prt.testing.any (·.1 == 131 + i))

/-- Data that waits for a codec goes to the first free one, in its order (R209): hard or soft decode, with its limit of iterations (0
taken as 1) and the inputs of the four regions (R214). -/
def Dev.assignCodecs (d : Dev) : Nat → Dev
  | 0 => d
  | n + 1 =>
    match d.fls.decode, (List.range 16).find? d.codecFree with
    | id :: l, some i =>
      let soft := (d.fls.accesses.find? (·.id == id)).any (·.step == 3)
      let c : Codec := { access := id, soft := soft, llr := d.get pgFint FINT_LLR_MAP
                         limit := max 1 (if soft then d.get pgFint FINT_CTL_SOFT_ITER else d.get pgFint FINT_CTL_HARD_ITER) }
      ({ d with fls := { d.fls with decode := l, codecs := d.fls.codecs.setIfInBounds i (some c) } }).assignCodecs n
    | _, _ => d

/-- Codeword read `id` has all the data of its step: it waits for a codec (R209). -/
def Dev.toDecode (d : Dev) (id : Nat) : Dev :=
  ({ d with fls := { d.fls with decode := d.fls.decode ++ [id] } }).assignCodecs 16

/-- The read of a codeword has come in; step 3 has two of them (R210, R214). -/
def Dev.readIn (d : Dev) (bad : Bool) (id : Nat) : Dev :=
  let d := { d with fls := { d.fls with accesses := updWhere (·.id == id) (fun a =>
    { a with readBad := a.readBad || bad, softReads := if a.step = 3 then a.softReads + 1 else a.softReads }) d.fls.accesses } }
  match d.fls.accesses.find? (·.id == id) with
  | some a => if a.step = 3 && a.softReads < 2 then d else d.toDecode id
  | none => d

/-- What the end of operation `o` on channel `k` with failure code `code` (0 good; R201, SEQ_STAT.ERR) does behind it. -/
def Dev.afterOp (d : Dev) (k : Nat) (o : FlashOp) (code : Nat) : Dev :=
  match o.kind with
  | .program =>
    match o.page with
    | some pg =>
      if code = 0 then
        let d := if o.rebuilt then d.updRebuilt pg fun x => (true, x.2) else d.updPage pg fun p => { p with programmed := true }
        d.queueOp k { o with kind := .verify, slot := if o.planes.isEmpty then 0 else 1, stage := .queued, pc := 0, plane := 0, started := 0, due := 0 }
      else if o.rebuilt then d.rebuildFailed pg.1
      else d.updPage pg fun p => { p with failed := true }
    | none => d
  | .verify => if code = 0 then d else
    match o.page with
    | some pg =>
      if o.rebuilt then d.rebuildFailed pg.1
      else d.updPage pg fun p => { p with failed := true }
    | none => d
  | .suspend => if code = 0 then d.updOp k o.target fun t => { t with stage := .suspended } else d
  | .resume => if code = 0 then d.updOp k o.target fun t => { t with stage := .yielded } else d
  | .manual => d.updChan k fun c => { c with manualEnd := some (code, pfaBay o.pfa) }
  | .erase =>
    match o.page with
    | some pg => d.updMap pg.1 fun m => { m with stripes := updWhere (·.id == pg.2.1) (fun x =>
        { x with erased := x.erased ++ [(pg.2.2.2, code == 0)] }) m.stripes }
    | none => d
  | .read => o.acc.foldl (fun d id => d.readIn (code != 0) id) d
  | .reset => d.setInForce o.pfa 0
  | .poll => d

/-- Operation `o` of channel `k` ends with `code` (R172, R180). -/
def Dev.endOp (d : Dev) (k : Nat) (o : FlashOp) (code : Nat) : Dev :=
  let d := (d.dropOp k o.id).updChan k fun c => { c with opCount := c.opCount + 1 }
  let array := o.kind == .read || o.kind == .program || o.kind == .verify || o.kind == .erase || o.kind == .manual
  let d := if code = 0 then (if array then d.dieGood o.pfa else d)
    else (d.dieBad o.pfa).irq (pgFch k) FCH_IRQ_OP_FAIL
  d.afterOp k o code

/-! ### Bay states (R189, R190) -/

/-- States in which BAY_LOCK is high. -/
def lockState (st : Nat) : Bool := (2 ≤ st && st ≤ 6) || st == 8

/-- The bay's supply goes off: BAYb_PGOOD falls, and after the next power-up entry 0 is in force on every LUN (R188, R212). -/
def Dev.bayOff (d : Dev) (b : Nat) : Dev :=
  ((d.setB (pgBay b) BAY_STAT_PGOOD false).updMap b fun m => { m with inForce := [] }).updBay b fun x =>
    { x with pwren := false, goodAt := none }

/-- Enter bay state `st` (R189, R190): lock, supply, interrupts, and RELEASE cleared on RELEASED or EMPTY. -/
def Dev.setBay (d : Dev) (b st : Nat) : Dev :=
  let p := pgBay b
  let d := ((d.put p BAY_STAT_STATE st).setB p BAY_STAT_LOCK_OUT (lockState st)).irq p BAY_IRQ_STATE
  let d := d.updBay b fun x => { x with since := d.gtime }
  match st with
  | 0 => ((d.setB p BAY_CTL_RELEASE false).bayOff b).updBay b fun x => { x with atStart := false }
  | 2 => ((d.inc p BAY_EVENTS_INSERTS).bayOff b).updBay b fun x => { x with pwren := true }
  | 7 => ((d.setB p BAY_CTL_RELEASE false).irq p BAY_IRQ_RELEASED).bayOff b
  | 9 => (d.irq p BAY_IRQ_FAULT).bayOff b
  | _ => d

/-- FCHk_WP_N of the bay's channels (R195). -/
def Dev.wpHigh (d : Dev) (b : Nat) : Bool := d.bayDrains b || (d.bay b).recovering

/-- Is a task Held and bound to bay `b` (R191, R193)? -/
def TaskSt.boundTo (t : TaskSt) (b : Nat) : Bool := t.bay == some b && !t.settled && (t.hasRecord || t.opc == .append)

/-- Does a task wait for a bay (R191, R585)? -/
def TaskSt.unbound (t : TaskSt) : Bool := t.bay == none && !t.settled && (t.hasRecord || t.opc == .append)

/-- Is a record without an LSN Held: an archive record (R332, R584)? -/
def BgRec.held (x : BgRec) : Bool :=
  match x.kind with
  | .archive _ => true
  | .lapse .. | .stale => false

/-- The Held items bound to bay `b`. -/
def Dev.heldIn (d : Dev) (b : Nat) : Nat :=
  (d.ldg.tasks.filter (·.boundTo b)).length + (d.ldg.background.filter fun x => x.bay == some b && x.held).length

/-- From the capture of a main-supply loss until the commit sequence ends, no bay enters or leaves WRITABLE or RELEASING
and none enters RELEASED (R190). -/
def Dev.baysFrozen (vis d : Dev) : Bool := vis.flag pgRsv RSV_STAT_PF || d.flag pgRsv RSV_STAT_PF

/-- The bay in WRITABLE with the most free stripes but `b`, ties to the lower number (R191). -/
def Dev.targetBay (d : Dev) (b : Nat) : Option Nat :=
  ([0, 1, 2, 3].filter fun c => c != b && d.bayWritable c).foldl (fun best c =>
    match best with
    | some x => if d.get (pgBay x) BAY_FREE < d.get (pgBay c) BAY_FREE then some c else some x
    | none => some c) none

/-- Bind the open lanes of bay `b` to bay `t` (R191). -/
def Dev.rebindLanes (d : Dev) (b t : Nat) : Dev :=
  { d with ldg := { d.ldg with ctxs := d.ldg.ctxs.map fun p =>
      if p.2.bay == b && p.2.state != .free then (p.1, { p.2 with bay := t }) else p } }

/-- Do all codewords of entry `t` stand in rows (R217)? -/
def Dev.isPlaced (d : Dev) (t : TaskSt) : Bool :=
  d.fls.placed.any fun x => x.1 == t.lsn && decide ((if t.opc == .append then t.length else 1) ≤ x.2)

/-- How many bytes of entry `lsn` stand in rows. -/
def Dev.placedTo (d : Dev) (lsn : Nat) : Nat := ((d.fls.placed.find? (·.1 == lsn)).map (·.2)).getD 0

/-- Is it a delta of the map, and not a change of the bay map (R229, R254)? -/
def DeltaKind.ofMap : DeltaKind → Bool
  | .change | .full | .checkpoint => false
  | .gathered .. | .lane _ | .stripe .. | .record .. => true

/-- One more map delta of bay `b`, with its number (R254). -/
def Dev.delta (d : Dev) (b : Nat) (k : DeltaKind) : Dev :=
  let n := tabGet (fun _ => 0) d.mc.deltas b + b2n k.ofMap
  let d := { d with mc := { d.mc with deltas := tabSet (fun _ => 0) d.mc.deltas b n } }
  d.updMap b fun m =>
    { m with deltas := m.deltas ++ [(m.deltaNo, k)], deltaNo := m.deltaNo + 1
             deltaSince := if m.deltas.isEmpty then d.gtime else m.deltaSince }

/-- Bind the records without an LSN that satisfy `w` to bay `t`; their deltas are written again there (R191, R585). -/
def Dev.rebindRecords (d : Dev) (w : BgRec → Bool) (t : Option Nat) : Dev :=
  let gone (b n : Nat) : Bool := d.ldg.background.any fun x => w x && x.bay == some b && x.delta == some n
  let d := { d with fls := { d.fls with maps := Vector.ofFn fun b =>
    let m := d.bmap b
    { m with deltas := m.deltas.filter fun y => !gone b y.1 } } }
  { d with ldg := { d.ldg with background := updWhere w (fun x => { x with bay := t, delta := none }) d.ldg.background } }

/-- Bind the Held items that satisfy `w` to bay `t`; their codewords are placed again there (R191). -/
def Dev.rebindItems (d : Dev) (w : TaskSt → Bool) (t : Option Nat) : Dev :=
  let moved := (d.ldg.tasks.filter w).map (·.lsn)
  { d with ldg := { d.ldg with tasks := updWhere w (fun x => { x with bay := t }) d.ldg.tasks }
           fls := { d.fls with placed := d.fls.placed.filter fun n => !moved.contains n.1 } }

/-- The retargeting rule (R191): the open lanes of bay `b`, and with `items` its Held items, go to the target bay. With no
writable bay the items stay Held, bound to none, and FSCH is DEGRADED. -/
def Dev.retarget (vis d : Dev) (b : Nat) (items : Bool) : Dev :=
  match vis.targetBay b with
  | some t =>
    let d := d.rebindLanes b t
    if items then (d.rebindItems (·.boundTo b) (some t)).rebindRecords (·.bay == some b) (some t) else d
  | none =>
    if items then
      let held := d.heldIn b
      let d := ((d.rebindItems (·.boundTo b) none).rebindRecords (·.bay == some b) none).setDegraded pgFsch
      if held = 0 then d else d.irq pgFsch FSCH_IRQ_NO_WRITABLE
    else d

/-- Bay `b` stops being writable otherwise than by release (R191, R228, R234); not from the capture of a main-supply loss until the
commit sequence ends (R190). -/
def Dev.bayLost (vis d : Dev) (b st : Nat) : Dev :=
  if Dev.baysFrozen vis d then d else Dev.retarget vis (d.setBay b st) b true

end Sys2Proof.Machine
end

