-- ==== Sys2Proof/Machine/Cache.lean ====
section
/-! DEFINITION. The Peck mapping cache, the line store, the tables in external memory and the LPDDR5 controller
(chapter 07). -/

namespace Sys2Proof.Machine

open Sys2Proof

/-! ### Addresses (R237, R238) -/

/-- Where external memory begins. -/
abbrev extBase : Nat := 0x800000000

/-- Usable bytes of external memory: two channels of DENSITY each, 7/8 of them with inline ECC (R238, R260); the size
behind the reserved code is open. -/
def Dev.extSize (d : Dev) : Nat :=
  let all :=
    if d.get pgDdr DDR_CFG_DENSITY = 3 then Config.reservedDensityBytes
    else 2 * 2 ^ d.get pgDdr DDR_CFG_DENSITY * 2 ^ 30
  if d.flag pgDdr DDR_CFG_ECC_EN then all / 8 * 7 else all

/-- Set and tag of a line number (R237). -/
def setOf (line : Nat) : Nat := line % 2048
def tagOf (line : Nat) : Nat := line / 2048 % 2 ^ 19
def lineFrom (set tag : Nat) : Nat := tag * 2048 + set

def Dev.cset (d : Dev) (i : Nat) : CSet := tabGet (fun _ => {}) d.mc.sets i

def Dev.setCset (d : Dev) (i : Nat) (x : CSet) : Dev := { d with mc := { d.mc with sets := tabSet (fun _ => {}) d.mc.sets i x } }

/-- Ways locked or in STORE mode; STORE ways are never looked up (R244). The spec gives STORE to a way whose LOCK bit is 1 too; a way
whose STORE bit alone is 1 is taken as locked and as STORE (DESIGN CHOICE, notes/assumptions/80.md). -/
def Dev.lockMask (d : Dev) : Nat := d.get pgMc MC_LOCK_LOCK ||| d.get pgMc MC_LOCK_STORE

/-- The line of a set with this tag, outside the STORE ways. -/
def Dev.lookup (d : Dev) (line : Nat) : Option CLine :=
  (d.cset (setOf line)).lines.find? fun x => x.tag == tagOf line && !bit (d.get pgMc MC_LOCK_STORE) x.way

/-! ### Tree-PLRU (R239) -/

/-- Set the nodes on the path to leaf `m` to point away from it. -/
def plruTouch : Nat → Nat → Nat → Nat
  | 0, _, p => p
  | n + 1, m, p => if m ≤ 1 then p else plruTouch n (m / 2) (setBits p (m / 2) 1 (1 - m % 2))

/-- Is some way free to be taken under node `m` at depth `lvl` (0: the root)? -/
def underFree (busy : Nat) (lvl m : Nat) : Bool :=
  (List.range 16).any fun w => !bit busy w && (16 + w) / 2 ^ (4 - lvl) == m

/-- The walk of R239 from node `m`. -/
def plruWalk (busy plru : Nat) : Nat → Nat → Nat → Nat
  | 0, _, m => m - 16
  | n + 1, lvl, m =>
    let h := bits plru m 1
    let h := if underFree busy (lvl + 1) (2 * m + h) then h else 1 - h
    plruWalk busy plru n (lvl + 1) (2 * m + h)

/-- The victim way of a set, given the ways that may not be taken (R239); `none`: all 16 are barred. -/
def victim (x : CSet) (busy : Nat) : Option Nat :=
  if (List.range 16).all (bit busy ·) then none
  else
    match (List.range 16).find? fun w => !bit busy w && !x.lines.any (·.way == w) with
    | some w => some w
    | none => some (plruWalk busy x.plru 4 0 1)

/-! ### The line store and the eviction buffer (R247, R248) -/

/-- Lines of the store that hold data external memory lacks. -/
def Dev.storeDirty (d : Dev) : Nat := (d.mc.store.filter (·.2)).length

/-- Lines of the store, but for those retired under R486. -/
def Dev.storeCap (d : Dev) : Nat := 4096 - d.retiredCount 0xA

/-- A line enters the store of `cap` lines, in place of its older copy or of the oldest clean line. -/
def storePut (cap : Nat) (l : List (Nat × Bool)) (line : Nat) (dirty : Bool) : List (Nat × Bool) :=
  let had := l.any fun p => p.1 == line && p.2
  let l := l.filter (·.1 != line)
  let l := if l.length < cap then l else
    match l.findIdx? (!·.2) with
    | some i => l.eraseIdx i
    | none => l
  l ++ [(line, dirty || had)]

/-- Restate MC_STAT.DIRTY and MC_LS.USED. -/
def Dev.cacheStat (d : Dev) : Dev :=
  let m := d.lockMask
  let n := (d.mc.sets.map fun p => (p.2.lines.filter fun x => x.dirty && !bit m x.way).length).sum
  (d.put pgMc MC_STAT_DIRTY n).put pgMc MC_LS_USED d.storeDirty

/-- The store takes what it can of the eviction buffer: dirty lines while a line is free, clean ones by CLEAN_MIN_PCT, else they are
declined (R247). An entry that it has answered for stays readable until its place is taken (R248). -/
def Dev.offer (d : Dev) : Dev :=
  let pct := d.get pgMc MC_LS_CLEAN_MIN_PCT
  let cap := d.storeCap
  let r := d.mc.evict.foldl (fun (acc : List Evict × List (Nat × Bool)) e =>
    let dirty := (acc.2.filter (·.2)).length
    if e.taken.isSome then (acc.1 ++ [e], acc.2)
    else if e.dirty then
      if dirty < cap then (acc.1 ++ [{ e with taken := some true }], storePut cap acc.2 e.line true) else (acc.1 ++ [e], acc.2)
    else if pct * cap ≤ (cap - dirty) * 100 then (acc.1 ++ [{ e with taken := some true }], storePut cap acc.2 e.line false)
    else (acc.1 ++ [{ e with taken := some false }], acc.2)) ([], d.mc.store)
  ({ d with mc := { d.mc with evict := r.1, store := r.2 } }).cacheStat

/-- Is one of the four entries of the eviction buffer free for a victim: never used, or answered for (R247)? -/
def Dev.evictRoom (d : Dev) : Bool := decide (d.mc.evict.length < 4) || d.mc.evict.any (·.taken.isSome)

/-- A line leaves its way for the eviction buffer; with four entries in it, it takes the place of the oldest that is answered for. -/
def Dev.evictLine (d : Dev) (line : Nat) (dirty : Bool) : Dev :=
  let l := d.mc.evict.filter (·.line != line)
  let l := if l.length < 4 then l else
    match l.findIdx? (·.taken.isSome) with
    | some i => l.eraseIdx i
    | none => l
  { d with mc := { d.mc with evict := l ++ [{ line := line, dirty := dirty }] } }

/-- Install a line in way `w` of its set; what stood there leaves it. `demand`: the fill sets the PLRU bits (R239). -/
def Dev.install (d : Dev) (line w : Nat) (dirty demand : Bool) : Dev :=
  let i := setOf line
  let x := d.cset i
  let d := match x.lines.find? (·.way == w) with
    | some o => d.evictLine (lineFrom i o.tag) o.dirty
    | none => d
  let l := x.lines.filter fun y => y.way != w && y.tag != tagOf line
  d.setCset i { lines := l ++ [{ way := w, tag := tagOf line, dirty := dirty }]
                plru := if demand then plruTouch 4 (16 + w) x.plru else x.plru }

/-- Ways that a fill may not take: locked ones, retired ones and, for another fill, those of a preload in progress (R244, R246,
R486). -/
def Dev.barred (d : Dev) (set : Nat) : Nat :=
  let m := d.lockMask ||| d.retiredWays set
  match d.mc.preload with
  | some p => m ||| p.ways
  | none => m

/-- Does Peck allocate lines: enabled, and no drain under way (R249)? -/
def Dev.allocates (d : Dev) : Bool := d.flag pgMc MC_CTL_ENABLE && !d.flag pgMc MC_STAT_DRAINING

/-- Fill a line in the way of R239; with every way barred, or while Peck allocates nothing, it is served without allocation. A prefetch
whose victim would be dirty is dropped (R242). `none`: the victim finds no entry of the eviction buffer free and waits (R247). -/
def Dev.fill (d : Dev) (line : Nat) (dirty demand : Bool) : Option Dev :=
  let x := d.cset (setOf line)
  match victim x (d.barred (setOf line)) with
  | none => some d
  | some w =>
    if !d.allocates || (!demand && x.lines.any fun y => y.way == w && y.dirty) then some d
    else if !d.evictRoom && x.lines.any (·.way == w) then none
    else some (d.install line w dirty demand).offer

/-! ### Requests (R240 to R242) -/

/-- Lines that a confident detector asks for: DEPTH along the stride, within the 4 KiB of the request. -/
def prefetchLines (line depth : Nat) (diff : Int) : List Nat :=
  (List.range depth).filterMap fun i =>
    let t : Int := line + (i + 1 : Nat) * diff
    if 0 ≤ t && t.toNat / 64 == line / 64 then some t.toNat else none

/-- The stride detector of a stream sees a demand request (R242); a prefetch that finds no fill slot is dropped (DESIGN CHOICE,
notes/assumptions/80.md). -/
def Dev.stride (d : Dev) (stream line : Nat) : Dev :=
  let x := (d.mc.strides[stream]?).getD {}
  let diff : Int := match x.last with
    | some l => (line : Int) - l
    | none => 0
  let conf := x.last.isSome && diff == x.diff && -8 ≤ diff && diff ≤ 8 && diff != 0
  let y : Stride := { last := some line, diff := diff, confident := conf }
  let d := { d with mc := { d.mc with strides := d.mc.strides.setIfInBounds stream y } }
  if x.confident && conf && d.flag pgMc MC_CTL_PF_EN && d.allocates then
    let want := (prefetchLines line (d.get pgMc MC_PF_DEPTH) diff).filter fun l =>
      (d.lookup l).isNone && !d.mc.prefetch.contains l && !d.mc.evict.any (·.line == l)
        && !(d.mc.miss.getD []).any (·.line == l)
    { d with mc := { d.mc with prefetch := (d.mc.prefetch ++ want).take 4 } }
  else d

/-- A hit (R239). -/
def Dev.hit (d : Dev) (q : CReq) (x : CLine) : Dev :=
  let i := setOf q.line
  let c := d.cset i
  let d := d.setCset i { lines := updWhere (·.way == x.way) (fun y => { y with dirty := y.dirty || q.write }) c.lines
                         plru := plruTouch 4 (16 + x.way) c.plru }
  { d with mc := { d.mc with hits := d.mc.hits + 1 } }.cacheStat

/-- A request whose line is in the eviction buffer (R248): the line returns to its set, dirty if the line store has not taken its duty.
While Peck allocates nothing it is served from the entry. -/
def Dev.unevict (d : Dev) (q : CReq) (e : Evict) : Dev :=
  let d := { d with mc := { d.mc with hits := d.mc.hits + 1 } }
  if d.allocates then
    let d := { d with mc := { d.mc with evict := d.mc.evict.filter (·.line != e.line) } }
    (d.fill e.line ((e.dirty && e.taken.isNone) || q.write) true).getD d
  else
    let l := updWhere (·.line == e.line) (fun x => { x with dirty := x.dirty || (q.write && x.taken.isNone) }) d.mc.evict
    { d with mc := { d.mc with evict := l } }

/-- One request in its turn (R237, R240, R248, R249). A stream that is stalled waits with all its requests. -/
def Dev.request (d : Dev) (q : CReq) : Dev :=
  let stall (d : Dev) : Dev := { d with mc := { d.mc with stalled := d.mc.stalled ++ [q] } }
  if d.mc.stalled.any (·.stream == q.stream) then stall d
  else
    match d.lookup q.line with
    | some x => d.hit q x
    | none =>
      match d.mc.evict.find? (·.line == q.line) with
      | some e => d.unevict q e
      | none =>
        if !d.allocates then d
        else
          match d.mc.miss with
          | none => { d with mc := { d.mc with miss := some [q], returned := false, misses := d.mc.misses + 1 } }
          | some l => if l.any (·.line == q.line) then { d with mc := { d.mc with miss := some (l ++ [q]) } } else stall d

/-- A bus error for the requester. -/
def Dev.cacheError (d : Dev) : Dev := { d with bus := { rdata := 0, error := true } }

/-- CACHE_REQUEST of stream `st` at address `a`; beyond the usable size it ends in a bus error with MEM_RANGE (R238). Where training has
failed, Peck serves its STORE ways only (R257): any other request ends in a bus error (DESIGN CHOICE, notes/assumptions/83.md). -/
def execCacheRequest (st : Fin 32) (a : Nat) (write : Bool) (s : State) : Host.Outcome State Fault Refusal :=
  .next (s.noting (.cmd (.cacheRequest st a write)) fun s => s.dec fun _ d =>
    if a < extBase || extBase + d.extSize ≤ a then d.cacheError.fault pgMc 0x0601 false false [a, a / 2 ^ 32]
    else if d.flag pgDdr PG_STAT_FAULT then d.cacheError
    else ((d.request { stream := st.val, line := a / 64, write := write }).stride st (a / 64)))

/-- The line that holds the check bytes of `line` and of the seven beside it, in the reserved eighth behind the usable size (R258). -/
def Dev.checkLine (d : Dev) (line : Nat) : Nat := (extBase + d.extSize) / 64 + (line - extBase / 64) / 8

/-- The check line of `line` comes into the line store, as every line does (R247, R258). -/
def Dev.cacheCheck (d : Dev) (line : Nat) (dirty : Bool) : Dev :=
  let k := d.checkLine line
  if !d.flag pgDdr DDR_CFG_ECC_EN || (extBase + d.extSize) / 64 ≤ line then d
  else if dirty then { d with mc := { d.mc with store := storePut d.storeCap d.mc.store k true } }
  else if d.mc.store.any (·.1 == k) || (d.storeCap - d.storeDirty) * 100 < d.get pgMc MC_LS_CLEAN_MIN_PCT * d.storeCap then d
  else { d with mc := { d.mc with store := storePut d.storeCap d.mc.store k false } }

/-- An error that inline ECC finds in a line that LPDDR5 returns (R258): a corrected one is counted and written back corrected, an
uncorrectable one gives the requester a bus error and a record naming the line. -/
def Dev.ddrError (d : Dev) (line : Nat) (e : Option Bool) : Dev :=
  match e with
  | none => d
  | some false =>
    let d := d.inc pgDdr DDR_ECC_CORR
    { d with mc := { d.mc with store := storePut d.storeCap d.mc.store line true } }
  | some true => (d.inc pgDdr DDR_ECC_UNCORR).cacheError.fault pgDdr 0x0604 false false [line * 64, line * 64 / 2 ^ 32]

/-- The outstanding miss is over: the stalled requests go on in their order (R240). -/
def Dev.missOver (d : Dev) : Dev :=
  let waiting := d.mc.stalled
  waiting.foldl Dev.request { d with mc := { d.mc with miss := none, returned := false, stalled := [] } }

/-- The outstanding fill has returned: it is installed and the requests for it are served, or it waits for an eviction buffer entry. -/
def Dev.missReturn (d : Dev) : Dev :=
  match d.mc.miss with
  | some (q :: l) =>
    match d.fill q.line ((q :: l).any (·.write)) true with
    | some d => d.missOver
    | none => { d with mc := { d.mc with returned := true } }
  | _ => d

/-- CACHE_FILL: the fill of `line` returns, from LPDDR5 perhaps with an error (`some true`: an uncorrectable one, whose line is not
installed; DESIGN CHOICE, notes/assumptions/84.md). A prefetch is installed without touching the PLRU bits. -/
def execCacheFill (line : Nat) (e : Option Bool) (s : State) : Host.Outcome State Fault Refusal :=
  .next (s.noting (.cmd (.cacheFill line e)) fun s => s.dec fun _ d =>
    let missed := (d.mc.miss.getD []).any (·.line == line) && !d.mc.returned
    let ahead := d.mc.prefetch.contains line
    if !missed && !ahead then d
    else
      let stored := d.mc.store.any (·.1 == line)
      let e := if d.flag pgDdr DDR_CFG_ECC_EN && !stored then e else none
      let d := { d with mc := { d.mc with prefetch := d.mc.prefetch.filter (· != line) } }
      let d := (if stored then d else d.cacheCheck line false).ddrError line e
      let bad := e == some true
      (if missed then if bad then d.missOver else d.missReturn
       else if bad then d else (d.fill line false false).getD d).cacheStat)

/-- LINE_STORE_WRITEBACK: the lowest dirty line goes to LPDDR5 and frees its place, its check line changes (R258), and waiting victims
are accepted. -/
def execLineStoreWriteback (s : State) : Host.Outcome State Fault Refusal :=
  .next (s.noting (.cmd .lineStoreWriteback) fun s => s.dec fun _ d =>
    let low := (d.mc.store.filter (·.2)).foldl (fun m p => match m with
      | some x => some (min x p.1)
      | none => some p.1) none
    match low with
    | some a =>
      let d := { d with mc := { d.mc with store := updWhere (·.1 == a) (fun p => (p.1, false)) d.mc.store } }
      let d := (d.cacheCheck a true).offer
      if d.mc.returned then d.missReturn else d
    | none => d)

/-! ### Preload, lock, disable (R244 to R249) -/

/-- MC_PRELOAD_GO: a write of `v` to MC_PRE_CTL with GO 1. While BUSY is 1 it only clears DONE as written. -/
def execMcPreloadGo (r : Requester) (v : Word) (s : State) : Host.Outcome State Fault Refusal :=
  .next (s.noting (.cmd (.mcPreloadGo r v)) fun s => s.dec fun _ d =>
    let d := if bit v.toNat 29 then d.setB pgMc MC_PRE_CTL_DONE false else d
    if d.flag pgMc MC_PRE_CTL_BUSY || !d.starts pgMc then d
    else
      let d := d.put pgMc MC_PRE_CTL_LINES_M1 (bits v.toNat 0 16)
      let ways := d.get pgMc MC_PRE_WAYS_WAYS
      if ways = 0 || ways &&& d.lockMask != 0 then d.errAt pgMc MC_PRE_CTL .preWays r
      else
        let p : Preload := { first := d.get64 pgMc MC_PRE_ADDR_LO MC_PRE_ADDR_HI / 64, count := bits v.toNat 0 16 + 1,
                             ways := ways }
        ({ d with mc := { d.mc with preload := some p } }.setB pgMc MC_PRE_CTL_BUSY true).put pgMc MC_PRE_CTL_MISSED 0)

/-- The next line of a preload: filled into a way of the mask that this preload has not taken, or counted in MISSED where none is left or
the line lies outside external memory (R238, R246). A line of a locked way stays there. `none`: its victim waits for an eviction
buffer entry (R247). -/
def Dev.preloadLine (d : Dev) (p : Preload) : Option (Dev × Preload) :=
  let line := p.first
  let i := setOf line
  let p' : Preload := { p with first := line + 1, count := p.count - 1 }
  let here := d.lookup line
  if line < extBase / 64 || (extBase + d.extSize) / 64 ≤ line then
    let d := if p.outside then d else d.fault pgMc 0x0601 false false [line * 64, line * 64 / 2 ^ 32]
    some (d.inc pgMc MC_PRE_CTL_MISSED, { p' with outside := true })
  else if here.any fun x => bit d.lockMask x.way then some (d, p')
  else
    match (List.range 16).find? fun w => bit p.ways w && !bit (d.lockMask ||| d.retiredWays i) w && !p.filled.contains (i, w) with
    | some w =>
      let old := here.any (·.dirty) || d.mc.evict.any fun e => e.line == line && e.dirty && e.taken.isNone
      let e := { d with mc := { d.mc with evict := d.mc.evict.filter (·.line != line) } }
      if !e.evictRoom && (d.cset i).lines.any fun y => y.way == w && y.tag != tagOf line then none
      else
        let x := d.cset i
        let e := if here.any (·.way == w) then e.setCset i { x with lines := x.lines.filter (·.way != w) } else e
        some ((e.install line w old false).offer, { p' with filled := (i, w) :: p.filled })
    | none => some (d.inc pgMc MC_PRE_CTL_MISSED, p')

/-- A preload goes on as far as the eviction buffer lets it. -/
def Dev.preloadRun : Nat → Dev → Preload → Dev × Preload
  | 0, d, p => (d, p)
  | n + 1, d, p =>
    match d.preloadLine p with
    | some r => Dev.preloadRun n r.1 r.2
    | none => (d, p)

/-- MC_PRELOAD_DONE: the lines have come. While a victim finds no entry of the eviction buffer free the preload stays BUSY. -/
def execMcPreloadDone (s : State) : Host.Outcome State Fault Refusal :=
  .next (s.noting (.cmd .mcPreloadDone) fun s => s.dec fun _ d =>
    match d.mc.preload with
    | some p =>
      let r := Dev.preloadRun p.count d p
      if r.2.count = 0 then
        ({ r.1 with mc := { r.1.mc with preload := none } }.setB pgMc MC_PRE_CTL_BUSY false).setB pgMc MC_PRE_CTL_DONE true
      else { r.1 with mc := { r.1.mc with preload := some r.2 } }
    | none => d)

/-- MC_DISABLE: a write of `v` to MC_CTL with ENABLE 0; ENABLE reads 1 until the drain has ended (R249). -/
def execMcDisable (v : Word) (s : State) : Host.Outcome State Fault Refusal :=
  .next (s.noting (.cmd (.mcDisable v)) fun s => s.dec fun _ d =>
    let d := d.setB pgMc MC_CTL_PF_EN (bit v.toNat 1)
    if d.flag pgMc MC_CTL_ENABLE then d.setB pgMc MC_STAT_DRAINING true else d)

/-- A dirty line offered to the store during a drain stays in Peck as clean once accepted (R249). -/
def Dev.drainSet (acc : Dev) (p : Nat × CSet) : Dev :=
  p.2.lines.foldl (fun d x =>
    if x.dirty && !bit d.lockMask x.way && d.storeDirty < d.storeCap then
      let d := { d with mc := { d.mc with store := storePut d.storeCap d.mc.store (lineFrom p.1 x.tag) true } }
      let c := d.cset p.1
      d.setCset p.1 { c with lines := updWhere (·.way == x.way) (fun y => { y with dirty := false }) c.lines }
    else d) acc

/-- MC_DRAIN_END: the store takes the dirty lines it has room for; when none is left the unlocked ways leave service. -/
def execMcDrainEnd (s : State) : Host.Outcome State Fault Refusal :=
  .next (s.noting (.cmd .mcDrainEnd) fun s => s.dec fun _ d =>
    if !d.flag pgMc MC_STAT_DRAINING then d
    else
      let d := (d.mc.sets.foldl Dev.drainSet d).cacheStat
      if d.get pgMc MC_STAT_DIRTY != 0 then d
      else
        let m := d.lockMask
        let keep (x : CSet) : CSet := { x with lines := x.lines.filter fun y => bit m y.way }
        let sets := (d.mc.sets.map fun p => (p.1, keep p.2)).filter fun p => p.2 != {}
        (({ d with mc := { d.mc with sets := sets } }).setB pgMc MC_STAT_DRAINING false).setB pgMc MC_CTL_ENABLE false)

/-- MC_LOCK_WRITE (R244, R245): lines of a way that becomes STORE leave it, each as the eviction buffer has room; those that find none
wait behind it (DESIGN CHOICE, notes/assumptions/80.md). -/
def execMcLockWrite (v : Word) (s : State) : Host.Outcome State Fault Refusal :=
  .next (s.noting (.cmd (.mcLockWrite v)) fun s => s.dec fun vis d =>
    let st := bits v.toNat 16 16
    if d.flag pgMc MC_PRE_CTL_BUSY || d.flag pgMc MC_STAT_DRAINING then d
    else if vis.flag pgLdg LDG_STAT_RESTORED && (d.get pgMc MC_LOCK_STORE &&& 0xF000) &&& (st ^^^ 0xFFFF) != 0 then d
    else
      let out (d : Dev) (p : Nat × CSet) : Dev :=
        let gone := p.2.lines.filter fun x => bit st x.way
        let d := d.setCset p.1 { p.2 with lines := p.2.lines.filter fun x => !bit st x.way }
        gone.foldl (fun d x => d.evictLine (lineFrom p.1 x.tag) x.dirty) d
      ((d.mc.sets.foldl out d).put pgMc MC_LOCK v.toNat).offer)

/-! ### Tables in external memory (R250 to R253) -/

/-- Remove what memory lists in `[a, a + n)`: it reads 0. -/
def Dev.memClear (d : Dev) (a n : Nat) : Dev := { d with mem := d.mem.filter fun c => c.1 < a || a + n ≤ c.1 }

/-- Where lane `n`'s descriptor stands (R251); bits [11:0] of the base are ignored. -/
def Dev.descAddr (d : Dev) (n : Nat) : Nat := d.get64 pgMap MAP_DESC_BASE_LO MAP_DESC_BASE_HI / 4096 * 4096 + n * 128

def Dev.poolAddr (d : Dev) (i : Nat) : Nat := d.get64 pgMap MAP_POOL_BASE_LO MAP_POOL_BASE_HI / 4096 * 4096 + i * 4096

/-- Restate MAP_POOL_FREE, and POOL_LOW when the free pages fall below 1/16 of the pool (R253). -/
def Dev.poolStat (d : Dev) : Dev :=
  let n := d.get pgMap MAP_POOL_PAGES
  let free := n - d.mc.poolUsed.length
  let low := free * 16 < n && n ≤ d.get pgMap MAP_POOL_FREE * 16
  let d := d.put pgMap MAP_POOL_FREE free
  if low then d.irq pgMap MAP_IRQ_POOL_LOW else d

/-- The first index from `i` on that is not in `l`. -/
def firstFree (l : List Nat) : Nat → Nat → Nat
  | 0, i => i
  | n + 1, i => if l.contains i then firstFree l n (i + 1) else i

/-- Take the lowest free page of the pool, once it is placed (R583). -/
def Dev.poolTake (d : Dev) : Option (Nat × Dev) :=
  let i := firstFree d.mc.poolUsed (d.mc.poolUsed.length + 1) 0
  if i < d.get pgMap MAP_POOL_PAGES && d.get64 pgMap MAP_POOL_BASE_LO MAP_POOL_BASE_HI != 0 then
    some (d.poolAddr i, ({ d with mc := { d.mc with poolUsed := i :: d.mc.poolUsed } }.poolStat).memClear (d.poolAddr i) 4096)
  else none

/-- Give the page at address `a` back. -/
def Dev.poolFree (d : Dev) (a : Nat) : Dev :=
  let i := (a - d.poolAddr 0) / 4096
  { d with mc := { d.mc with poolUsed := d.mc.poolUsed.filter (· != i) } }.poolStat

/-- The number in `k` bytes at `a`, low byte first. -/
def Dev.memNat (d : Dev) (a k : Nat) : Nat := leNat (memRead d.mem a k)

/-- Follow the pointer at `a`, taking a page for it if it is 0. -/
def Dev.follow (d : Dev) (a : Nat) : Option (Nat × Dev) :=
  let p := d.memNat a 8
  if p != 0 then some (p, d)
  else
    match d.poolTake with
    | some (q, d) => some (q, d.memW a (leBytes 8 q))
    | none => none

/-- Address of the bale entry of lane `n`, bale `b`, with the pages on the way to it (R251). -/
def Dev.baleAddr (d : Dev) (n b : Nat) : Option (Nat × Dev) :=
  let base := d.descAddr n
  if b < 2 then some (base + 64 + 16 * b, d)
  else if b < 258 then (d.follow (base + 96)).map fun r => (r.1 + 16 * (b - 2), r.2)
  else if b < 131330 then
    (d.follow (base + 104)).bind fun r => (r.2.follow (r.1 + 8 * ((b - 258) / 256))).map fun q =>
      (q.1 + 16 * ((b - 258) % 256), q.2)
  else
    (d.follow (base + 112)).bind fun r => (r.2.follow (r.1 + 8 * ((b - 131330) / 131072))).bind fun q =>
      (q.2.follow (q.1 + 8 * ((b - 131330) / 256 % 512))).map fun p => (p.1 + 16 * ((b - 131330) % 256), p.2)

/-- STATE of a bale entry (R252). -/
def Dev.baleState (d : Dev) (a : Nat) : Nat := bits (d.memNat a 4) 30 2

/-- Address of the bale entry of lane `n`, bale `b`, 0 where no page leads to it (R251). -/
def Dev.baleLook (d : Dev) (n b : Nat) : Nat :=
  let base := d.descAddr n
  let step (a i : Nat) : Nat := if a = 0 then 0 else d.memNat (a + i) 8
  let entry (a i : Nat) : Nat := if a = 0 then 0 else a + 16 * i
  if b < 2 then base + 64 + 16 * b
  else if b < 258 then entry (step (base + 96) 0) (b - 2)
  else if b < 131330 then entry (step (step (base + 104) 0) (8 * ((b - 258) / 256))) ((b - 258) % 256)
  else
    entry (step (step (step (base + 112) 0) (8 * ((b - 131330) / 131072))) (8 * ((b - 131330) / 256 % 512))) ((b - 131330) % 256)

/-- Bay, stripe, first slot and slots of a bale that the mapping names as GATHERED (R252). -/
def Dev.baleHome (d : Dev) (n b : Nat) : Option (Nat × Nat × Nat × Nat) :=
  let a := d.baleLook n b
  if d.get64 pgMap MAP_DESC_BASE_LO MAP_DESC_BASE_HI = 0 || a = 0 || d.baleState a != 2 then none
  else
    let w := d.memNat a 4
    some (bits w 28 2, bits w 0 24, d.memNat (a + 4) 4, bits (d.memNat (a + 8) 2) 0 9)

/-- A GATHERED bale entry (R252). -/
def gatheredEntry (bay stripe j0 l : Nat) : List Byte :=
  leBytes 4 (2 * 2 ^ 30 + bay % 4 * 2 ^ 28 + stripe % 2 ^ 24) ++ leBytes 4 j0 ++ leBytes 2 (l % 512) ++ leBytes 6 0

/-- An extent (R252). -/
def extentBytes (off bay len stripe slot : Nat) : List Byte :=
  leBytes 5 off ++ leBytes 2 (bay % 4 * 2 ^ 13 + len % 2 ^ 13) ++ leBytes 1 0 ++ leBytes 4 (stripe % 2 ^ 24) ++ leBytes 4 slot

/-- The last page of a chain of extent pages. -/
def Dev.lastExt (d : Dev) : Nat → Nat → Nat
  | 0, a => a
  | n + 1, a => if d.memNat a 8 = 0 then a else d.lastExt n (d.memNat a 8)

/-- The address of the extent of lane offset `off` in a chain of extent pages. -/
def Dev.findExt (d : Dev) (off : Nat) : Nat → Nat → Option Nat
  | 0, _ => none
  | n + 1, a =>
    if a = 0 then none
    else
      match (List.range (min 255 (d.memNat (a + 8) 2))).find? fun i => d.memNat (a + 16 + 16 * i) 5 == off with
      | some i => some (a + 16 + 16 * i)
      | none => d.findExt off n (d.memNat a 8)

/-- Set the extent of lane offset `off` in its bale's chain: in its place if it has one, else behind the last (R252); `none` where the
pool has no page left. -/
def Dev.addExtent (d : Dev) (lane off bay len stripe slot : Nat) : Option Dev :=
  (d.baleAddr lane (off / 2 ^ 20)).bind fun r =>
    let d := r.2
    let ext := d.memNat (r.1 + 10) 6 * 4096
    let bytes := extentBytes off bay len stripe slot
    let put (d : Dev) (a : Nat) : Dev :=
      let n := d.memNat (a + 8) 2
      (d.memW (a + 16 + 16 * n) bytes).memW (a + 8) (leBytes 2 (n + 1))
    match d.findExt off 65536 ext with
    | some a => some (d.memW a bytes)
    | none =>
      if ext = 0 then
        d.poolTake.map fun q => put ((q.2.memW r.1 (leBytes 4 (2 ^ 30))).memW (r.1 + 10) (leBytes 6 (q.1 / 4096))) q.1
      else
        let a := d.lastExt 65536 ext
        if d.memNat (a + 8) 2 < 255 then some (put d a)
        else d.poolTake.map fun q => put (q.2.memW a (leBytes 8 q.1)) q.1

/-- Free a chain of extent pages. -/
def Dev.freeExt (d : Dev) : Nat → Nat → Dev
  | 0, _ => d
  | n + 1, a => if a = 0 then d else (d.poolFree a).freeExt n (d.memNat a 8)

/-- The LANE_DATA codewords of the log stripes of bay `b` that satisfy `ok`, each with its stripe and data slot (R223). -/
def Dev.logSlots (d : Dev) (b : Nat) (ok : Row → ElemPage → Codeword → Bool) : List (Nat × Nat × Codeword) :=
  ((d.bmap b).stripes.filter (!·.bale)).flatMap fun st => st.rows.flatMap fun r => r.pages.flatMap fun p =>
    let w := d.get (pgFstr b) FSTR_GEOM_WIDTH
    let n := 2 ^ d.get (pgBay b) BAY_GEOM0_PLANES_LOG2 * d.get (pgBay b) BAY_GEOM0_PAGE_CW
    let par := (w - 1) - r.row % w
    let q := if p.element < par then p.element else p.element - 1
    p.cws.zipIdx.filterMap fun c =>
      if c.1.kind == 1 && ok r p c.1 then some (st.id, r.row * ((w - 1) * n) + q * n + c.2, c.1) else none

/-- Is codeword `x` newer than `y` (R203)? One of a page that is still filled has no WSEQ yet. -/
def Codeword.newer (x y : Codeword) : Bool := y.wseq != 0 && (x.wseq == 0 || decide (y.wseq < x.wseq))

/-- Where the codewords of entry `lsn` stand in bay `b`, of each region the newest copy. -/
def Dev.placesOf (d : Dev) (b lsn : Nat) : List (Nat × Nat × Codeword) :=
  let l := d.logSlots b fun _ _ c => c.lsn == lsn
  l.filter fun x => !l.any fun y => y.2.2.offset == x.2.2.offset && y.2.2.newer x.2.2

/-- MAP_EXTENT_WRITE: the extents of the placed entry `lsn`; without a free page its report waits (R253). -/
def execMapExtentWrite (lsn : Nat) (s : State) : Host.Outcome State Fault Refusal :=
  .next (s.noting (.cmd (.mapExtentWrite lsn)) fun s => s.dec fun vis d =>
    let home := (vis.task lsn).bind fun t => if vis.isPlaced t then t.bay else none
    match home with
    | none => d
    | some b =>
      if d.mc.extents.contains lsn || d.get64 pgMap MAP_DESC_BASE_LO MAP_DESC_BASE_HI = 0 then d
      else
      let r := (vis.placesOf b lsn).foldl (fun (acc : Option Dev) x =>
        acc.bind fun d => d.addExtent x.2.2.lane x.2.2.offset b x.2.2.valid x.1 x.2.1) (some d)
      match r with
      | some d => { d with mc := { d.mc with extents := lsn :: d.mc.extents, poolWait := d.mc.poolWait.filter (· != lsn) } }
      | none =>
        if d.mc.poolWait.contains lsn then d
        else ({ d with mc := { d.mc with poolWait := lsn :: d.mc.poolWait } }.irq pgMap MAP_IRQ_POOL_EMPTY).fault pgMap 0x0602
          false false [lsn, lsn / 2 ^ 32])

/-- MAP_CHECKPOINT of bay `b`, after MAP_CKPT.DELTAS deltas, 0 taken as 1 (R254, R260). -/
def execMapCheckpoint (b : Fin 4) (s : State) : Host.Outcome State Fault Refusal :=
  .next (s.noting (.cmd (.mapCheckpoint b)) fun s => s.dec fun _ d =>
    if tabGet (fun _ => 0) d.mc.deltas b < max 1 (d.get pgMap MAP_CKPT) then d
    else { d.delta b .checkpoint with mc := { d.mc with deltas := tabSet (fun _ => 0) d.mc.deltas b 0 } })

/-! ### LPDDR5 (R256 to R258) -/

/-- The eyes, in percent, of one training step's attempts from rate `rate` on: an attempt below 25 % is repeated at the next lower rate
(R257). The rate reached, `some none` where the lowest rate fails, `none` while an attempt is still to come. -/
def ddrStep : Nat → List Nat → Option (Option Nat)
  | _, [] => none
  | rate, e :: l =>
    if 25 ≤ e then some (some rate)
    else
      match rate with
      | 0 => some none
      | r + 1 => ddrStep r l

/-- The training steps in order, each from the rate that the one before it reached (R257). -/
def ddrTrain : Nat → List (List Nat) → Option (Option Nat)
  | rate, [] => some (some rate)
  | rate, eyes :: l =>
    match ddrStep rate eyes with
    | some (some x) => ddrTrain x l
    | r => r

/-- DDR_TRAIN: the five steps (ZQ calibration, command bus training, WCK2CK levelling, read DQ calibration, write DQ training) have run;
`eyes` gives each step's attempts in order (R257). The read and write DQ steps alone run where failed drift steps ask for them (R493). A
report that breaks off changes nothing. -/
def execDdrTrain (eyes : List (List Nat)) (s : State) : Host.Outcome State Fault Refusal :=
  .next (s.noting (.cmd (.ddrTrain eyes)) fun s => s.dec fun _ d =>
    let rate := d.get pgDdr DDR_CFG_RATE
    match ddrTrain rate eyes with
    | some (some x) =>
      if eyes.length != 5 && !(eyes.length == 2 && d.mc.dqDue) then d
      else
        let d := { d with mc := { d.mc with everTrained := true, dqDue := false } }
        (((d.setB pgDdr DDR_STAT_TRAINED true).setB pgDdr DDR_STAT_DERATED (decide (x < rate))).setB pgDdr
          DDR_STAT_SELF_REFRESH false).setReady pgDdr true
    | some none => ((d.setB pgDdr DDR_STAT_TRAINED false).setFault pgDdr true).fault pgDdr 0x0603 false true [rate]
    | none => d)

/-- The MR4 refresh-rate field as last read (R256, R260); devices in self-refresh answer none. -/
def Dev.mr4Stone (d : Dev) (v : Option Byte) : Dev :=
  match v with
  | some b => if d.flag pgDdr DDR_STAT_SELF_REFRESH || !d.flag pgDdr DDR_STAT_TRAINED then d else d.put pgDdr DDR_STAT_MR4_RATE b.toNat
  | none => d

/-- MC_STONE (R40, R260). -/
def Dev.cacheStone (d : Dev) : Dev :=
  let d := (d.put pgMc MC_STONE_MISS_K (min 0xFFFF (d.mc.misses / 1000))).put pgMc MC_STONE_HIT_K (min 0xFFFF (d.mc.hits / 1000))
  { d with mc := { d.mc with hits := 0, misses := 0 } }

end Sys2Proof.Machine
end

