-- ==== Sys2Proof/Machine/Ecdsa.lean ====
section
/-! DEFINITION. ECDSA over P-256 with SHA-256 (FIPS 186-5) and the deterministic nonce of RFC 6979, as the seal engine signs (R159) and the
boot ROM verifies (R565). The spec names the standards; the curve's constants are theirs (notes/assumptions/155.md). -/

namespace Sys2Proof.Machine

open Sys2Proof

/-! ### Arithmetic -/

/-- The prime of the field, the order of the group, and the coefficient b of P-256; its a is −3. -/
def p256Prime : Nat := 2 ^ 256 - 2 ^ 224 + 2 ^ 192 + 2 ^ 96 - 1
def p256Order : Nat := 2 ^ 256 - 2 ^ 224 + 2 ^ 192 - 0x4319055258E8617B0C46353D039CDAAF
def p256B : Nat := 0x5AC635D8AA3A93E7B3EBBD55769886BC651D06B0CC53B0F63BCE3C3E27D2604B

/-- The bits of a 256-bit number, the highest first. -/
def scalarBits (k : Nat) : List Bool := (List.range 256).map fun i => bit k (255 - i)

/-- `b` to the power `e` modulo `m`. -/
def powMod (m b e : Nat) : Nat := (scalarBits e).foldl (fun a on => if on then a * a % m * b % m else a * a % m) 1

/-- The inverse modulo a prime. -/
def invMod (m a : Nat) : Nat := powMod m a (m - 2)

/-! ### Points
A point is (X, Y, Z) for the affine point (X / Z², Y / Z³); Z is 0 at the point at infinity. -/

structure CurvePoint where
  x : Nat
  y : Nat
  z : Nat
deriving DecidableEq, Repr

/-- Field operations. -/
def fMul (a b : Nat) : Nat := a * b % p256Prime
def fSub (a b : Nat) : Nat := (a + (p256Prime - b % p256Prime)) % p256Prime

/-- The generator and the point at infinity. -/
def p256Base : CurvePoint :=
  { x := 0x6B17D1F2E12C4247F8BCE6E563A440F277037D812DEB33A0F4A13945D898C296
    y := 0x4FE342E2FE1A7F9B8EE7EB4A7C0F9E162BCE33576B315ECECBB6406837BF51F5, z := 1 }
def p256Zero : CurvePoint := { x := 1, y := 1, z := 0 }

/-- Twice a point. -/
def CurvePoint.twice (p : CurvePoint) : CurvePoint :=
  let w := fMul p.y p.y
  let zz := fMul p.z p.z
  let s := fMul 4 (fMul p.x w)
  let m := fMul 3 (fMul (fSub p.x zz) (p.x + zz))
  let x := fSub (fMul m m) (2 * s)
  { x := x, y := fSub (fMul m (fSub s x)) (fMul 8 (fMul w w)), z := fMul 2 (fMul p.y p.z) }

/-- The sum of two points. -/
def CurvePoint.plus (p q : CurvePoint) : CurvePoint :=
  if p.z = 0 then q
  else if q.z = 0 then p
  else
    let pp := fMul p.z p.z
    let qq := fMul q.z q.z
    let u := fMul p.x qq
    let s := fMul p.y (fMul q.z qq)
    let h := fSub (fMul q.x pp) u
    let r := fSub (fMul q.y (fMul p.z pp)) s
    if h = 0 then if r = 0 then p.twice else p256Zero
    else
      let hh := fMul h h
      let v := fMul u hh
      let x := fSub (fSub (fMul r r) (fMul h hh)) (2 * v)
      { x := x, y := fSub (fMul r (fSub v x)) (fMul s (fMul h hh)), z := fMul h (fMul p.z q.z) }

/-- `k` times a point. -/
def CurvePoint.times (p : CurvePoint) (k : Nat) : CurvePoint :=
  (scalarBits k).foldl (fun a on => if on then a.twice.plus p else a.twice) p256Zero

/-- The affine x of a point other than infinity. -/
def CurvePoint.affineX (p : CurvePoint) : Nat := fMul p.x (invMod p256Prime (fMul p.z p.z))

/-- Is (x, y) a point of the curve? -/
def onCurve (x y : Nat) : Bool :=
  x < p256Prime && y < p256Prime && fMul y y == (fMul x (fMul x x) + p256B + (p256Prime - fMul 3 x)) % p256Prime

/-! ### The nonce (RFC 6979) -/

/-- The number that big-endian bytes give. -/
def beNat (l : List Byte) : Nat := l.foldl (fun n b => n * 256 + b.toNat) 0

/-- HMAC with SHA-256 under a key of at most 64 bytes. -/
def hmac (key msg : List Byte) : List Byte :=
  let pad (b : Byte) : List Byte := (padTo 64 key).map (· ^^^ b)
  sha256 (pad 0x5C ++ sha256 (pad 0x36 ++ msg))

/-- One round of the generator: the new key and value after `sep` and `seed`. -/
def drbgRound (kv : List Byte × List Byte) (sep : Byte) (seed : List Byte) : List Byte × List Byte :=
  let k := hmac kv.1 (kv.2 ++ sep :: seed)
  (k, hmac k kv.2)

/-- The first of at most `fuel` candidates that `accept` takes, and what it makes of it. -/
def drbgSearch {α : Type} (accept : Nat → Option α) : Nat → List Byte × List Byte → Option α
  | 0, _ => none
  | n + 1, kv =>
    let v := hmac kv.1 kv.2
    match accept (beNat v) with
    | some x => some x
    | none => drbgSearch accept n (drbgRound (kv.1, v) 0 [])

/-! ### Signing and verifying -/

/-- The signature (r, s) of a hash with a private key and a nonce, if the nonce gives one. -/
def signWith (key e k : Nat) : Option (Nat × Nat) :=
  if k = 0 || p256Order ≤ k then none
  else
    let r := (p256Base.times k).affineX % p256Order
    let s := invMod p256Order k * ((e + r * key) % p256Order) % p256Order
    if r = 0 || s = 0 then none else some (r, s)

/-- The signature of a 32-byte hash: r then s, big-endian (R160). Of the candidates of RFC 6979 the first 64 are tried. -/
def ecdsaSign (key : Nat) (hash : List Byte) : List Byte :=
  let e := beNat hash
  let seed := beBytes 32 key ++ beBytes 32 (e % p256Order)
  let kv := drbgRound (drbgRound (List.replicate 32 0, List.replicate 32 1) 0 seed) 1 seed
  match drbgSearch (signWith key e) 64 kv with
  | some (r, s) => beBytes 32 r ++ beBytes 32 s
  | none => List.replicate 64 0

/-- Does the public key (X then Y) verify a signature (r then s) of a 32-byte hash, all big-endian? -/
def ecdsaVerify (pub hash sig : List Byte) : Bool :=
  let x := beNat (pub.take 32)
  let y := beNat ((pub.drop 32).take 32)
  let r := beNat (sig.take 32)
  let s := beNat ((sig.drop 32).take 32)
  let w := invMod p256Order s
  let p := (p256Base.times (beNat hash * w % p256Order)).plus (({ x := x, y := y, z := 1 } : CurvePoint).times (r * w % p256Order))
  onCurve x y && r != 0 && s != 0 && r < p256Order && s < p256Order && p.z != 0 && p.affineX % p256Order == r

end Sys2Proof.Machine
end

