-- ==== Sys2Proof/Machine/Staging.lean ====
section
/-! DEFINITION. Firkin staging FIFOs, check-value units and evidence seals (chapter 04). -/

namespace Sys2Proof.Machine

open Sys2Proof

/-! ### Check state (R150, R151, R156) -/

/-- The running value of context `c` (R151). -/
def Dev.crcOf (d : Dev) (c : Nat) : Nat := tabGet (fun _ => 0) d.stg.crc c

def Dev.setCrc (d : Dev) (c v : Nat) : Dev :=
  { d with stg := { d.stg with crc := tabSet (fun _ => 0) d.stg.crc c v } }

/-- Where the SHA-256 state of context `c` stands (R156); bits [11:0] of the base are ignored (R163). -/
def Dev.shaAddr (d : Dev) (c : Nat) : Nat := d.get64 pgChk CHK_SHA_BASE_LO CHK_SHA_BASE_HI / 4096 * 4096 + c * 128

def Dev.shaOf (d : Dev) (c : Nat) : Sha := Sha.ofBytes (memRead d.mem (d.shaAddr c) 128)

/-- Write a lane's SHA-256 state, unless its region is not placed (R583). -/
def Dev.setSha (d : Dev) (c : Nat) (x : Sha) : Dev :=
  if d.get64 pgChk CHK_SHA_BASE_LO CHK_SHA_BASE_HI = 0 then d else d.memW (d.shaAddr c) x.bytes

/-- The check state that OPEN_LANE completion gives a context (R150, R156). -/
def Dev.initChecks (d : Dev) (c poly : Nat) (sha : Bool) : Dev :=
  let d := d.setCrc c (crcInit poly)
  if sha then d.setSha c Sha.start else d

/-! ### The check trail (R151) -/

/-- Where record `i` of FIFO `k`'s ring stands. -/
def Dev.trailAddr (d : Dev) (k i : Nat) : Nat :=
  d.get64 pgChk CHK_TRAIL_BASE_LO CHK_TRAIL_BASE_HI / 4096 * 4096 + k * 0x40000 + i % 4096 * 64

/-- The first 32 bytes of an end record, and 32 bytes of 0 for the hash (R151). -/
def endRecord (lsn lane voids len crc : Nat) : List Byte :=
  leBytes 8 lsn ++ leBytes 4 (lane % 2 ^ 20) ++ leBytes 4 voids ++ leBytes 8 len ++ leBytes 8 crc
    ++ List.replicate 32 0

/-- Write FIFO `k`'s next end record (R151), unless the region is not placed (R583). -/
def Dev.writeTrail (d : Dev) (k : Nat) (b : List Byte) : Dev :=
  if d.get64 pgChk CHK_TRAIL_BASE_LO CHK_TRAIL_BASE_HI = 0 then d
  else
    let i := tabGet (fun _ => 0) d.stg.trailPos k
    let d := d.memW (d.trailAddr k i) b
    { d with stg := { d.stg with trailPos := tabSet (fun _ => 0) d.stg.trailPos k ((i + 1) % 4096) } }

/-! ### Packets (R139 to R147) -/

/-- The bytes at an APPEND's source: host memory for a host-owned window, device memory otherwise (R60). -/
def Dev.source (d : Dev) (t : TaskSt) (n : Nat) : List Byte :=
  memRead (if d.hostOwned t.window then d.host else d.mem) t.addr n

/-- Words of lanes without SHA-256 are passed over at once (R142). -/
def hashPass (sha : Nat → Bool) : List Packet → Nat → Nat × List Packet
  | [], h => (h, [])
  | p :: l, h =>
    if p.hashed then let r := hashPass sha l h; (r.1, p :: r.2)
    else if p.closed && !sha p.ctx then
      let r := hashPass sha l (max h (p.start + p.words)); (r.1, { p with hashed := true } :: r.2)
    else (h, p :: l)

def Dev.passHash (d : Dev) (k : Nat) : Dev :=
  d.updFifo k fun f =>
    let r := hashPass (fun c => (d.ctx c).sha) f.packets f.h
    { f with h := r.1, packets := r.2 }

/-- Packet `p` at the tail of FIFO `k` begins: its context's running value is loaded into the FIFO's working register (R151). -/
def Dev.openPacket (d : Dev) (k : Nat) (p : Packet) : Dev :=
  if p.opened then d
  else
    let d := d.updFifo k fun f =>
      { f with work := d.crcOf p.ctx
               packets := updWhere (·.lsn == p.lsn) (fun p => { p with opened := true, start := f.w }) f.packets }
    let a := d.get (pgCv (k / 8)) CV_STAT_ACTIVE
    d.put (pgCv (k / 8)) CV_STAT_ACTIVE (setBits a (k % 8) 1 1)

/-- The ingest mover completes `n` more consumer words of packet `p`, of which `good` bytes come: W moves, as many words are no longer
promised, and the check-value unit carries the running value over their bytes (R139, R141, R142, R149). -/
def Dev.fillPacket (d : Dev) (k : Nat) (p : Packet) (t : TaskSt) (n good : Nat) : Dev :=
  let n := min n (ceilDiv good 64 - p.words)
  let b := (d.source t (min good ((p.words + n) * 64))).drop p.bytes.length
  (d.updFifo k fun f =>
    { f with w := f.w + n
             work := crcRun (d.ctx t.ctx).poly f.work b 0
             packets := updWhere (·.lsn == p.lsn) (fun p =>
               { p with promised := p.promised - n, words := p.words + n, bytes := p.bytes ++ b }) f.packets }).fifoStat k

/-- End the packet at the tail of FIFO `k` with its first `good` bytes, the rest void (R139, R147): W advances, the unwritten promise
returns, the CRC is advanced over the void bytes and stored, and the end record written (R149, R151). -/
def Dev.closePacket (d : Dev) (k : Nat) (p : Packet) (t : TaskSt) (good : Nat) : Dev :=
  let good := max good p.bytes.length
  let voids := t.length - good
  let d := (d.openPacket k p).fillPacket k p t (ceilDiv good 64) good
  let crc := crcRun (d.ctx t.ctx).poly (d.fifo k).work [] voids
  let rec64 := endRecord t.lsn t.lane voids (t.offset + t.length) crc
  let d := d.updFifo k fun f =>
    { f with work := crc
             packets := updWhere (·.lsn == p.lsn) (fun p =>
               { p with promised := 0, voidBytes := voids, closed := true, endRec := rec64 }) f.packets }
  let d := (d.setCrc t.ctx crc).writeTrail k rec64
  let d := d.updTask t.lsn fun t => { t with fetching := false, voidBytes := voids }
  let d := if voids = 0 then d else d.setLane t.lane { d.lane t.lane with voids := (d.lane t.lane).voids + voids }
  let a := d.get (pgCv (k / 8)) CV_STAT_ACTIVE
  ((d.put (pgCv (k / 8)) CV_STAT_ACTIVE (setBits a (k % 8) 1 0)).passHash k).fifoStat k

/-- The first packet of a FIFO that is not closed: the one the ingest mover writes (R140). -/
def Fifo.current (f : Fifo) : Option Packet := f.packets.find? (!·.closed)

/-- Close the stopped packets that have come to the tail, in order (R140, R147). -/
def Dev.closeStopped (d : Dev) (k : Nat) : Nat → Dev
  | 0 => d
  | n + 1 =>
    match (d.fifo k).current with
    | some p =>
      match p.stop, d.task p.lsn with
      | some good, some t => (d.closePacket k p t good).closeStopped k n
      | _, _ => d
    | none => d

/-- APPEND `lsn`'s fetch stops after `good` bytes (R74): the packet will close VOID (R147); `rec`: with its LDG_VOID
record. -/
def Dev.voidClose (d : Dev) (lsn good : Nat) (record : Bool) : Dev :=
  match d.task lsn with
  | some t =>
    if t.opc != .append || !t.fetching then d
    else
      let good := min good (t.length - 1)
      let d := d.updFifo t.fifo fun f =>
        { f with packets := updWhere (fun p => p.lsn == lsn && p.stop.isNone) (fun p => { p with stop := some good })
                   f.packets }
      let d := if record then d.fault pgLdg 0x0101 false false [t.lane, lsn, lsn / 2 ^ 32, t.length - good] else d
      d.closeStopped t.fifo (d.fifo t.fifo).packets.length
  | none => d

/-- PACKET_FIRST_WORD: the packet at FIFO `k`'s tail begins. -/
def execPacketFirstWord (k : Fin 64) (s : State) : Host.Outcome State Fault Refusal :=
  .next (s.noting (.cmd (.packetFirstWord k)) fun s => s.dec fun _ d =>
    match (d.fifo k).current with
    | some p => d.openPacket k p
    | none => d)

/-- The ingest mover has completed `n` consumer words of the packet in progress in FIFO `k` in the Grain that ends (R142); the packet's
last bytes come with its LAST word. -/
def Dev.fillFifo (d : Dev) (k n : Nat) : Dev :=
  match (d.fifo k).current with
  | some p =>
    match d.task p.lsn with
    | some t => if p.opened && p.stop.isNone && !d.rsv.committing then d.fillPacket k p t (min n ((t.length - 1) / 64 - p.words)) t.length else d
    | none => d
  | none => d

/-- PACKET_LAST_WORD: the packet in progress in FIFO `k` ends with all its bytes (R139, R151). -/
def execPacketLastWord (k : Fin 64) (s : State) : Host.Outcome State Fault Refusal :=
  .next (s.noting (.cmd (.packetLastWord k)) fun s => s.dec fun _ d =>
    match (d.fifo k).current with
    | some p =>
      match d.task p.lsn with
      | some t => if p.opened && p.stop.isNone then
          let d := d.closePacket k p t t.length
          d.closeStopped k (d.fifo k).packets.length
        else d
      | none => d
    | none => d)

/-! ### Configuration, flush and the diagnostic port (R138, R145, R146, R162) -/

/-- Do units `[b, b + n)` meet units `[c, c + m)`? -/
def unitsMeet (b n c m : Nat) : Bool := n != 0 && m != 0 && b < c + m && c < b + n

/-- FK_CFG_WRITE (R138): range and overlap are judged against the configuration committed at the edge, the FIFO's
contents at the edge that follows (R145). -/
def execFkCfgWrite (k : Fin 64) (r : Requester) (v : Word) (s : State) : Host.Outcome State Fault Refusal :=
  .next (s.noting (.cmd (.fkCfgWrite k r v)) fun s => s.dec fun vis d =>
    let base := bits v.toNat 16 9
    let size := bits v.toNat 0 10
    if 512 < base + size || (List.range size).any fun i => vis.retiredItem 1 (base + i) then
      d.errAt (pgFk k) FK_CFG .cfgRange r
    else if (List.range 64).any fun j => j != k.val &&
        unitsMeet base size (vis.get (pgFk j) FK_CFG_BASE_4K)
          (vis.unitSpan (vis.get (pgFk j) FK_CFG_BASE_4K) (vis.get (pgFk j) FK_CFG_SIZE_4K)) then
      d.errAt (pgFk k) FK_CFG .cfgOverlap r
    else { d with stg := { d.stg with requests := d.stg.requests ++ [(k.val, 0, v.toNat % 2 ^ 25, r.code)] } })

/-- FK_FLUSH: a write of 1 to FK_CTL.FLUSH, judged at the edge (R145). -/
def execFkFlush (k : Fin 64) (r : Requester) (s : State) : Host.Outcome State Fault Refusal :=
  .next (s.noting (.cmd (.fkFlush k r)) fun s => s.dec fun _ d =>
    { d with stg := { d.stg with requests := d.stg.requests ++ [(k.val, 1, 1, r.code)] } }.setB (pgFk k) FK_CTL_FLUSH true)

/-- FK_DIAG_EN_WRITE, judged at the edge (R145). -/
def execFkDiagEnWrite (k : Fin 64) (r : Requester) (on : Bool) (s : State) : Host.Outcome State Fault Refusal :=
  .next (s.noting (.cmd (.fkDiagEnWrite k r on)) fun s => s.dec fun _ d =>
    { d with stg := { d.stg with requests := d.stg.requests ++ [(k.val, 2, b2n on, r.code)] } })

/-- The edge's judgement of one request (R145): it takes effect only if the FIFO is not HELD. A flush sets every pointer
to W, even in the middle of a diagnostic packet. -/
def Dev.applyRequest (d : Dev) (q : Nat × Nat × Nat × Nat) : Dev :=
  let k := q.1
  let p := pgFk k
  let held := (d.fifo k).held && !d.flag p FK_CTL_DIAG_EN
  let d :=
    match q.2.1 with
    | 0 => if held || (d.fifo k).promised != 0 then d.err p .cfgBusy FK_CFG.off q.2.2.2 (p + FK_CFG.off)
           else d.put p FK_CFG q.2.2.1
    | 1 =>
      if held then d.err p .flushHeld FK_CTL.off q.2.2.2 (p + FK_CTL.off)
      else d.updFifo k fun f => { f with d := f.w, h := f.w, s := f.w, diagParts := [], diagPop := 0, diagEnds := [] }
    | _ => if held || (d.fifo k).promised != 0 then d.err p .cfgBusy FK_CTL.off q.2.2.2 (p + FK_CTL.off)
           else d.setB p FK_CTL_DIAG_EN (q.2.2.1 == 1)
  (d.setB p FK_CTL_FLUSH false).fifoStat k

/-- FK_DIAG_HI_WRITE: push the 64-bit word of `v` and FK_DIAG_LO; eight make a consumer word (R162). Into a full FIFO it
is discarded and sets OVERRUN (R146). -/
def execFkDiagHiWrite (k : Fin 64) (v : Word) (s : State) : Host.Outcome State Fault Refusal :=
  let p := pgFk k
  .next (s.noting (.cmd (.fkDiagHiWrite k v)) fun s => s.dec fun _ d =>
    if !d.flag p FK_CTL_DIAG_EN then d
    else
      let f := d.fifo k
      if d.fifoWords k ≤ f.w - f.s then
        (d.setB p FK_STAT_OVERRUN true).irq p FK_IRQ_OVERRUN
      else
        let d := d.put p FK_DIAG_HI v.toNat
        let parts := f.diagParts ++ [d.get p FK_DIAG_LO + v.toNat * 2 ^ 32]
        let full := parts.length % 8 == 0
        (d.updFifo k fun f => { f with diagParts := parts, w := f.w + b2n full }).fifoStat k)

/-- FK_DIAG_END_WRITE: close the diagnostic packet; a partial last word is padded, and the last word carries LAST and VALID (R139,
R162). -/
def execFkDiagEndWrite (k : Fin 64) (v : Word) (s : State) : Host.Outcome State Fault Refusal :=
  let p := pgFk k
  .next (s.noting (.cmd (.fkDiagEndWrite k v)) fun s => s.dec fun _ d =>
    if !d.flag p FK_CTL_DIAG_EN then d
    else
      let f := d.fifo k
      let part := f.diagParts.length % 8
      let pad := if part = 0 then 0 else 8 - part
      let w := f.w + b2n (part != 0)
      (d.updFifo k fun f =>
        { f with diagParts := f.diagParts ++ List.replicate pad 0, w := w
                 diagEnds := if w = f.s then f.diagEnds else f.diagEnds.filter (·.1 != w - 1) ++ [(w - 1, bits v.toNat 0 6)] }).fifoStat k)

/-- The pop of R162 on one copy of the device: the next 64-bit part at D; S follows D. -/
def Dev.diagPop (d : Dev) (k : Nat) (r : Requester) : Dev :=
  let p := pgFk k
  let f := d.fifo k
  let a := p + FK_DIAG_HI.off
  if !d.flag p FK_CTL_DIAG_EN then { d with bus := { rdata := 0, error := false } }
  else if f.d == f.w then
    ((d.setB p FK_STAT_UNDERRUN true).irq p FK_IRQ_UNDERRUN).latch r a (BitVec.ofNat 32 f.diagLast)
      (BitVec.ofNat 32 (f.diagLast / 2 ^ 32))
  else
    let v := nthD f.diagParts f.diagPop 0
    let last := f.diagPop == 7
    let d := d.updFifo k fun f =>
      if last then { f with diagParts := f.diagParts.drop 8, diagPop := 0, diagLast := v, d := f.d + 1, s := f.d + 1,
                            h := f.d + 1, diagEnds := f.diagEnds.filter (·.1 != f.d) }
      else { f with diagPop := f.diagPop + 1, diagLast := v }
    (d.fifoStat k).latch r a (BitVec.ofNat 32 v) (BitVec.ofNat 32 (v / 2 ^ 32))

/-- FK_DIAG_LO_READ (R162): a pop takes effect at once. -/
def execFkDiagLoRead (k : Fin 64) (r : Requester) (s : State) : Host.Outcome State Fault Refusal :=
  .next (s.noting (.cmd (.fkDiagLoRead k r)) fun s => let d := s.cur.diagPop k r
         { s with cur := d, vis := { s.vis.setFifo k (d.fifo k) with tb := d.tb, bus := d.bus } })

/-- A program that took an underrun word of FIFO `k` is discarded: it waits to be issued again, and what it read counts as not read
(R146). -/
def Dev.discardTaken (d : Dev) (k : Nat) : Dev :=
  let lsns := (d.fifo k).packets.map (·.lsn)
  let holds (pg : Nat × Nat × Nat × Nat) : Bool :=
    ((((d.fls.maps[pg.1]?).getD {}).stripes.filter (·.id == pg.2.1)).flatMap fun x => (x.rows.filter (·.row == pg.2.2.1)).flatMap fun r =>
      (r.pages.filter (·.element == pg.2.2.2)).flatMap (·.cws)).any fun c => lsns.contains c.lsn
  let taken (o : FlashOp) : Bool := o.kind == .program && o.stage == .onBus && (o.page.map holds).getD false
  let chans := d.fls.chans.map fun (c : Channel) =>
    let l := (c.ops.filter taken).map (·.id)
    { c with ops := updWhere taken (fun o => { o with stage := .queued, pc := 0, plane := 0 }) c.ops
             current := if c.current.any l.contains then none else c.current }
  { d with fls := { d.fls with chans := chans } }

/-- FK_POINTER_FAILURE: the data path overran (`over`) or underran FIFO `k` (R146): its pointer logic has failed. -/
def execFkPointerFailure (k : Fin 64) (ovr : Bool) (s : State) : Host.Outcome State Fault Refusal :=
  let p := pgFk k
  .next (s.noting (.cmd (.fkPointerFailure k ovr)) fun s => s.dec fun _ d =>
    let d := if ovr then ((d.setB p FK_STAT_OVERRUN true).irq p FK_IRQ_OVERRUN).fault p 0x0301 false false []
      else (((d.setB p FK_STAT_UNDERRUN true).irq p FK_IRQ_UNDERRUN).fault p 0x0302 false false []).discardTaken k
    d.updFifo k fun f => { f with drainStopped := true })

/-! ### Running values through CV pages (R154) -/

/-- CV_RUN_LO_READ: the value as of the context's last completed packet. -/
def execCvRunLoRead (k : Fin 8) (r : Requester) (s : State) : Host.Outcome State Fault Refusal :=
  let v := s.vis.crcOf (s.vis.get (pgCv k) CV_CTX_SEL_CTX)
  .next (s.noting (.cmd (.cvRunLoRead k r)) fun s => s.both fun d => d.latch r (pgCv k + CV_RUN_HI.off) (BitVec.ofNat 32 v) (BitVec.ofNat 32 (v / 2 ^ 32)))

/-- CV_RUN_LO_WRITE: held in the page's write latch of the requester (R43). -/
def execCvRunLoWrite (k : Fin 8) (r : Requester) (v : Word) (s : State) : Host.Outcome State Fault Refusal :=
  .next (s.noting (.cmd (.cvRunLoWrite k r v)) fun s => s.dec fun _ d =>
    let key := latchKey r (pgCv k + CV_RUN_LO.off)
    { d with tb := { d.tb with wrLatch := (key, v) :: d.tb.wrLatch.filter (·.1 != key) } })

/-- CV_RUN_HI_WRITE: the pair is committed at the edge unless the context is busy then; the latch empties. -/
def execCvRunHiWrite (k : Fin 8) (r : Requester) (v : Word) (s : State) : Host.Outcome State Fault Refusal :=
  .next (s.noting (.cmd (.cvRunHiWrite k r v)) fun s => s.dec fun _ d =>
    let key := latchKey r (pgCv k + CV_RUN_LO.off)
    let c := d.get (pgCv k) CV_CTX_SEL_CTX
    let lo := match d.tb.wrLatch.find? (·.1 == key) with
      | some p => p.2.toNat
      | none => d.crcOf c % 2 ^ 32
    { d with
        tb := { d.tb with wrLatch := d.tb.wrLatch.filter (·.1 != key) }
        stg := { d.stg with runWrites := d.stg.runWrites ++ [(k.val, r.code, c, lo + v.toNat * 2 ^ 32)] } })

/-- Has the context a packet in progress or an APPEND promised, or is it SEALING (R154)? -/
def Dev.ctxBusy (d : Dev) (c : Nat) : Bool :=
  (d.ctx c).state == .sealing || d.ldg.tasks.any fun t => t.opc == .append && t.ctx == c && t.fetching

/-- Has the Grain accepted an APPEND or a SEAL on the context (R154)? -/
def ctxTaken (vis d : Dev) (c : Nat) : Bool :=
  d.ldg.journal.any fun e => decide (vis.ldg.nextLsn ≤ e.lsn) && (e.opc == .append || e.opc == .seal) && e.lane == (vis.ctx c).lane
    && (vis.ctx c).state != .free

/-- Bits of the running value (R150). -/
def crcWidth (poly : Nat) : Nat := if poly = 2 then 64 else if poly = 3 then 16 else 32

/-- The edge's judgement of one CV_RUN write (R154); the bits above the algorithm's width stay 0 (R150). -/
def Dev.applyRunWrite (vis d : Dev) (q : Nat × Nat × Nat × Nat) : Dev :=
  let c := q.2.2.1
  if vis.ctxBusy c || d.ctxBusy c || ctxTaken vis d c then d.err (pgCv q.1) .ctxBusy CV_RUN_HI.off q.2.1 (pgCv q.1 + CV_RUN_HI.off)
  else d.setCrc c (q.2.2.2 % 2 ^ crcWidth (d.ctx c).poly)

/-- The newest end record of context `c` in its FIFO's ring of the check trail (R151). -/
def Dev.newestEnd (d : Dev) (c : Nat) : Option (List Byte) :=
  let k := (d.ctx c).fifo
  let pos := tabGet (fun _ => 0) d.stg.trailPos k
  if d.get64 pgChk CHK_TRAIL_BASE_LO CHK_TRAIL_BASE_HI = 0 || (d.lane (d.ctx c).lane).entries = 0 then none
  else (List.range 4096).findSome? fun i =>
    let a := d.trailAddr k (pos + 4095 - i)
    if leNat (memRead d.mem a 8) != 0 && leNat (memRead d.mem (a + 8) 3) % 2 ^ 20 == (d.ctx c).lane then some (memRead d.mem a 64) else none

/-- An uncorrectable entry of the CRC context table (R155): with no packet in progress it is loaded again from the newest end record, or
is the initial value where the lane has no entry (DEDUCED from R157, notes/assumptions/61.md); `endRecordBad`: that record is unreadable too, and the running
value is then free (notes/assumptions/5.md). -/
def Dev.crcEntryLost (d : Dev) (c : Nat) (endRecordBad : Bool) : Dev :=
  if (d.stg.fifos.toList.any fun f => f.packets.any fun p => p.ctx == c && p.opened && !p.closed) then d
  else if endRecordBad then
    let u := d.free
    let v := u.2.free
    let x := (u.1.toNat + v.1.toNat * 2 ^ 32) % 2 ^ crcWidth (d.ctx c).poly
    ((((v.2.setCrc c x).setCtx c { d.ctx c with checkLost := true }).irq pgChk CHK_IRQ_CV_LOST).setDegraded pgChk).fault pgChk
      0x0304 true false []
  else
    let x := match d.newestEnd c with
      | some r => leNat ((r.drop 24).take 8)
      | none => crcInit (d.ctx c).poly
    (d.setCrc c x).inc (pgCv ((d.ctx c).fifo / 8)) CV_RECOV_COUNT

/-! ### Word protection in staging (R148) -/

/-- The FIFO whose region holds consumer word `c` of the staging array, and the packet and its word that stand there. -/
def Dev.stagingWord (d : Dev) (c : Nat) : Option (Nat × Option (Packet × Nat)) :=
  match (List.range 64).find? fun k => 64 * d.get (pgFk k) FK_CFG_BASE_4K ≤ c && c < 64 * d.get (pgFk k) FK_CFG_BASE_4K + d.fifoWords k with
  | none => none
  | some k =>
    let i := c - 64 * d.get (pgFk k) FK_CFG_BASE_4K
    let n := d.fifoWords k
    some (k, ((d.fifo k).packets.filterMap fun (p : Packet) =>
      match (List.range p.words).find? fun j => (p.start + j) % n == i with
      | some j => some (p, j)
      | none => none).head?)

/-- Consumer word `c` of the staging array is read with a corrected error (`false`) or an uncorrectable one; what is then
programmed is marked, and R9 applies. -/
def Dev.stagingError (d : Dev) (c : Nat) (uncorr : Bool) : Dev :=
  match d.stagingWord c with
  | none => d
  | some (k, o) =>
    if !uncorr then d.inc (pgFk k) FK_ECC_CORR
    else
      let p := ((o.map (·.1)).getD { lsn := 0, lane := 0, ctx := 0, promised := 0 })
      let d := (((d.inc (pgFk k) FK_ECC_UNCORR).irq (pgFk k) FK_IRQ_UNCORR).setDegraded (pgFk k)).fault (pgFk k) 0x0303 true false
        [k * 2 ^ 24 + c, p.lane, p.lsn, p.lsn / 2 ^ 32]
      match o with
      | none => d
      | some (p, j) =>
        d.updFifo k fun f => { f with packets := updWhere (·.lsn == p.lsn) (fun p =>
          { p with bad := if p.bad.contains j then p.bad else p.bad ++ [j] }) f.packets }

/-! ### SHA-256 (R156) -/

/-- SHA_BLOCK_ABSORB: the consumer word at H of FIFO `k` is absorbed; at the packet's last word its void bytes too, and
the intermediate hash completes the end record (R149, R151). -/
def execShaBlockAbsorb (k : Fin 64) (s : State) : Host.Outcome State Fault Refusal :=
  .next (s.noting (.cmd (.shaBlockAbsorb k)) fun s => s.dec fun _ d =>
    let f := d.fifo k
    match f.packets.find? (!·.hashed) with
    | some p =>
      let i := f.h - p.start
      if !(d.ctx p.ctx).sha || d.sliceBad 153 || (!p.closed && p.words ≤ i + 1) then d
      else
        let last := p.words ≤ i + 1
        let x := (d.shaOf p.ctx).absorb ((p.bytes.drop (64 * i)).take 64) (if last then p.voidBytes else 0)
        let d := d.setSha p.ctx x
        let d := d.updFifo k fun f =>
          { f with h := min (p.start + p.words) (f.h + 1)
                   packets := updWhere (·.lsn == p.lsn) (fun p =>
                     { p with hashed := last, endRec := if last then p.endRec.take 32 ++ x.h.flatMap (beBytes 4) else p.endRec })
                     f.packets }
        if !last then d
        else
          let n := (f.packets.takeWhile fun q => q.lsn != p.lsn).length
          let done := (f.packets.filter (·.closed)).length
          let pos := tabGet (fun _ => 0) d.stg.trailPos k + 4096 - (done - n)
          let d := if d.get64 pgChk CHK_TRAIL_BASE_LO CHK_TRAIL_BASE_HI = 0 then d
            else d.memW (d.trailAddr k pos + 32) (x.h.flatMap (beBytes 4))
          d.passHash k
    | none => d)

/-! ### Seals (R159 to R161) -/

/-- CHK_SEAL_STAT.QUEUED and SIGNING from the task state. -/
def Dev.sealStat (d : Dev) : Dev :=
  let n := (d.ldg.tasks.filter fun t => t.opc == .seal && !t.signing && !t.signed && !d.isMet t.lsn).length
  (d.put pgChk CHK_SEAL_STAT_QUEUED n).setB pgChk CHK_SEAL_STAT_SIGNING d.stg.signing.isSome

/-- The manifest of R160 with its signature; `g` is the Grain in which signing started. -/
def Dev.manifest (d : Dev) (t : TaskSt) (g : Nat) : List Byte :=
  let c := d.ctx t.ctx
  let x := d.lane t.lane
  let digest := if c.sha then (d.shaOf t.ctx).digest else List.replicate 32 0
  let body :=
    [0x48, 0x58, 0x4D, 0x46] ++ leBytes 2 1 ++ leBytes 2 256 ++ leBytes 4 (t.lane % 2 ^ 20)
      ++ leBytes 4 (b2n c.checkLost * 2 ^ 9 + b2n c.sha * 2 ^ 8 + c.poly) ++ leBytes 8 x.length ++ leBytes 8 x.voids
      ++ leBytes 8 x.openLsn ++ leBytes 8 t.lsn ++ leBytes 8 x.lastAppend ++ leBytes 8 x.entries
      ++ leBytes 6 x.openedAt ++ leBytes 6 g ++ leBytes 4 0 ++ leBytes 8 (crcFinal c.poly (d.crcOf t.ctx)) ++ digest
      ++ leBytes 4 (d.get pgId ID_SERIAL_LO) ++ leBytes 4 (d.get pgId ID_SERIAL_HI) ++ leBytes 4 (d.get pgChk CHK_KEY_ID)
      ++ List.replicate 60 0
  body ++ ecdsaSign d.stg.sealKey (sha256 body)

/-- The seal record of `t` is made (R159): kept with the task's record Held. -/
def Dev.signSeal (vis d : Dev) (t : TaskSt) : Dev :=
  let m := d.manifest t d.gtime48
  let d := { d with stg := { d.stg with manifests := d.stg.manifests ++ [(t.lsn, m)] } }
  let b := Dev.recordBay vis d t.lane
  (d.updTask t.lsn fun t => { t with signed := true, signing := false, hasRecord := true, bay := b }).inc pgChk
    CHK_SEAL_COUNT_COUNT

/-- SEAL `t` completes SEAL_FAULT with its record (R161). -/
def Dev.sealFault (d : Dev) (t : TaskSt) (cause : Nat) : Dev :=
  let d := d.fault pgChk 0x0305 false false [t.lane, t.lsn, t.lsn / 2 ^ 32, cause]
  let d := (d.setCtx t.ctx { d.ctx t.ctx with state := .open }).unsealLane t.lane
  (d.meetNoEffect t.lsn .sealFault 0).sealStat

/-- The SEAL that the engine takes next: the lowest LSN not signed (R159). -/
def Dev.nextSeal (d : Dev) : Option TaskSt :=
  d.ldg.tasks.find? fun t => t.opc == .seal && !t.signing && !t.signed && !d.isMet t.lsn

/-- Is every lower-LSN APPEND to the lane Settled (R159)? -/
def Dev.sealReady (d : Dev) (t : TaskSt) : Bool :=
  d.ldg.tasks.all fun u => u.opc != .append || u.lane != t.lane || t.lsn ≤ u.lsn || u.settled

/-- SEAL_SIGN_START (R159, R161). No signing starts after the capture of a main-supply loss. -/
def execSealSignStart (s : State) : Host.Outcome State Fault Refusal :=
  .next (s.noting (.cmd .sealSignStart) fun s => s.ledger fun _ d =>
    match d.nextSeal with
    | some t =>
      if d.stg.signing.isSome || !d.sealReady t || d.flag pgRsv RSV_STAT_PF || d.sliceBad 154 then d
      else if !d.flag pgChk CHK_SEAL_STAT_KEY_OK then d.sealFault t 0x1
      else
        let d := d.updTask t.lsn fun t => { t with signing := true }
        ({ d with stg := { d.stg with signing := some (t.lsn, d.gtime48) } }).sealStat
    | none => d)

/-- SEAL_SIGN_DONE: signing ends, `bad` with a fault (R161); else the manifest becomes the Held seal record and is
copied to ADDR as far as LENGTH asks (R159), unless a host event stopped it (R100). `copyFails`: the write to ADDR fails (R582). -/
def execSealSignDone (bad copyFails : Bool) (s : State) : Host.Outcome State Fault Refusal :=
  .next (s.noting (.cmd (.sealSignDone bad copyFails)) fun s => s.ledger fun vis d =>
    match d.stg.signing with
    | some (lsn, g) =>
      let d := { d with stg := { d.stg with signing := none } }
      match d.task lsn with
      | some t =>
        if bad then ((d.setB pgChk CHK_SEAL_STAT_KEY_FAULT true).irq pgChk CHK_IRQ_KEY_FAULT).sealFault t 0x2
        else
          let m := d.manifest t g
          let n := min t.length 256
          let fails := n != 0 && copyFails && !t.destStopped
          let d := if fails || t.destStopped then d
            else if d.hostOwned t.window then d.hostW t.addr (m.take n) else d.memW t.addr (m.take n)
          let d := { d with stg := { d.stg with manifests := d.stg.manifests ++ [(lsn, m)] } }
          let b := Dev.recordBay vis d t.lane
          let d := d.updTask lsn fun t =>
            { t with signed := true, signing := false, hasRecord := true, copyFailed := fails, bay := b }
          (d.inc pgChk CHK_SEAL_COUNT_COUNT).sealStat
      | none => d
    | none => d)

/-- The SHA-256 state after a lane's entry with end record `r`, whose last bytes stand in the lane's Settled entries (R157). -/
def shaAfter (store : List SettledEntry) (lane : Nat) (r : List Byte) : Sha :=
  let len := leNat ((r.drop 16).take 8)
  let byte (a : Nat) : Byte :=
    match store.find? fun e => e.lane == lane && decide (e.offset ≤ a) && decide (a < e.offset + e.bytes.length) with
    | some e => nthD e.bytes (a - e.offset) 0
    | none => 0
  { h := shaWords 8 (r.drop 32), bitLen := 8 * len, part := (List.range (len % 64)).map fun i => byte (len - len % 64 + i) }

/-- What a restart rebuilds of the check state (R157): for each open context the running values of the newest Settled end record of
its lane, or the initial values for a lane with no entry. -/
def Dev.rebuildChecks (d : Dev) : Dev :=
  d.ldg.ctxs.foldl (fun d p =>
    let newest := (d.ldg.store.filter fun e => e.lane == p.2.lane && !e.endRec.isEmpty).foldl (fun (m : Option SettledEntry) e => match m with
      | some x => if x.lsn < e.lsn then some e else some x
      | none => some e) none
    match newest with
    | some e =>
      let d := d.setCrc p.1 (leNat ((e.endRec.drop 24).take 8))
      if p.2.sha then d.setSha p.1 (shaAfter d.ldg.store p.2.lane e.endRec) else d
    | none => d.initChecks p.1 p.2.poly p.2.sha) d

/-- The check values of context `c` are advanced over a replayed entry (R132, R157): its end record is what they give. -/
def Dev.advanceChecks (d : Dev) (c : Nat) (e : SettledEntry) : SettledEntry × Dev :=
  let x := d.ctx c
  let crc := crcRun x.poly (d.crcOf c) e.bytes e.voidBytes
  let d := d.setCrc c crc
  let r := endRecord e.lsn e.lane e.voidBytes (e.offset + e.bytes.length + e.voidBytes) crc
  if x.sha then
    let h := (d.shaOf c).absorb e.bytes e.voidBytes
    ({ e with endRec := r.take 32 ++ h.h.flatMap (beBytes 4) }, d.setSha c h)
  else ({ e with endRec := r }, d)

end Sys2Proof.Machine
end

