-- ==== Sys2Proof/Machine/Ledger.lean ====
section
/-! DEFINITION. The ledger (chapter 02): submission, the acceptance decision, completions, the completion ring, holds,
host events, activation and the restore. -/

namespace Sys2Proof.Machine

open Sys2Proof

/-! ### The acceptance decision (R65) -/

/-- Refusal reasons of R66, in the order of their values from 0x01. -/
inductive Reason where
  | reserve | starting | activation | disarmed | badOpcode | badArg | length | tagBusy | quota | journalFull
  | ctxBusy | laneNotOpen | laneOpening | laneSealing | noBay | stagingFull
deriving DecidableEq, Repr

/-- REASON of R66. -/
def Reason.code : Reason → Nat
  | .reserve => 0x01 | .starting => 0x02 | .activation => 0x03 | .disarmed => 0x04 | .badOpcode => 0x05
  | .badArg => 0x06 | .length => 0x07 | .tagBusy => 0x08 | .quota => 0x09 | .journalFull => 0x0A
  | .ctxBusy => 0x0B | .laneNotOpen => 0x0C | .laneOpening => 0x0D | .laneSealing => 0x0E | .noBay => 0x0F
  | .stagingFull => 0x10

/-- Check 6 of R65: a reserved field non-zero, a field not named for the opcode non-zero, or an argument out of range
(R60, R71, R72, R77, R91, R96, R137). -/
def badArg (vis : Dev) (hostOwned : Bool) (o : Opc) (t : TaskOp) : Bool :=
  let f := t.flags.toNat
  let no (n : Nat) : Bool := n != 0
  let common := no (bits f 3 5) || no (bits t.d1.toNat 20 12) || (hostOwned && bit f 0)
    || (bit f 1 && o != .flush) || (bit f 2 && o != .release)
  common ||
  match o with
  | .openLane => no t.addr || no t.arg1 || no (bits t.argb 6 10) || no (bits t.arg0 7 25) || bit t.arg0 3
      || vis.fifoWords (bits t.argb 0 6) == 0
  | .append => no t.argb || no t.arg0 || no t.arg1
  | .read => no t.ctx || no t.argb || no (bits t.arg1 16 16)
  | .seal => no t.argb || no t.arg0 || no t.arg1
  | .flush => no t.ctx || no t.argb || no t.addr || no t.arg0 || no t.arg1
  | .abort => no t.lane || no t.ctx || no t.argb || no t.addr || no (bits t.arg0 16 16) || no t.arg1
  | .mark => no t.ctx || no (bits t.argb 2 14) || no (bits t.arg1 16 16) || t.argb == 3 || (hostOwned && no t.argb)
  | .release => no t.ctx || no t.argb || no t.addr
  | .query => no t.ctx || no t.argb || no t.arg0 || no t.arg1 || no (bits t.addr 0 3)

/-- Check 7 of R65: LENGTH outside the opcode's range (R71), or the lane carried beyond 2^40 bytes. The FIFO of an
APPEND is its context's, at the size committed at the Grain's edge (R137); with no context only 0 is out of range. -/
def badLength (vis d : Dev) (o : Opc) (t : TaskOp) : Bool :=
  match o with
  | .openLane | .flush | .abort | .release => t.len != 0
  | .append =>
    let c := d.ctx t.ctx
    t.len == 0 || (c.state != .free && (vis.fifoWords c.fifo * 64 < t.len || 2 ^ 40 < c.length + t.len))
  | .read => t.len == 0 || 16777216 < t.len
  | .seal => 65536 < t.len
  | .mark => false
  | .query => t.len != 64

/-- Check 15 of R65: the bay that a task would bind to or is bound to, `none` if it takes no binding (R189). -/
def taskBay (vis d : Dev) (o : Opc) (t : TaskOp) : Option Nat :=
  match o with
  | .openLane =>
    if bit t.arg0 2 then vis.bestBay
    else if vis.bayWritable (bits t.arg0 0 2) then some (bits t.arg0 0 2) else none
  | .append => if vis.bayWritable (d.ctx t.ctx).bay then some (d.ctx t.ctx).bay else none
  | _ => some 0

/-- Does the task charge the reserve (R115)? -/
def Opc.charges : Opc → Bool
  | .append | .openLane | .seal | .mark | .release => true
  | .read | .flush | .abort | .query => false

/-- Check 17 of R65 passes (R116). AVAIL and its flags are those committed at the edge (R113); charges taken earlier in
the Grain count. -/
def reserveCovers (vis d : Dev) (o : Opc) (t : TaskOp) : Bool :=
  let c := chargeOf o t.len
  !vis.flag pgRsv RSV_STAT_BELOW_MIN && !vis.flag pgRsv RSV_STAT_DEFICIT &&
    d.promised + c.1 * d.get pgRsv RSV_E_UNIT_E_CW + c.2 * d.get pgRsv RSV_E_UNIT_E_REC ≤ vis.get pgRsv RSV_AVAIL

/-- QUOTA in force: 0 taken as 1, larger values as 4,096 (R106). -/
def Dev.quota (d : Dev) (w : Nat) : Nat := clampN 1 4096 (d.get (pgTw w) TW_CQ_CFG_QUOTA)

/-- Ring size in entries (R83). -/
def Dev.ringSize (d : Dev) (w : Nat) : Nat := 2 ^ d.get (pgTw w) TW_CQ_CFG_SIZE_LOG2

/-- The checks of R65 in their order; the first that fails gives the reason, `none` accepts. `o` is `none` for an OPC
that is not in the opcode table. A ring is armed for check 4 from the edge that commits its arming (R101) to the Grain that captures
its disarming (R64). -/
def decide65 (vis d : Dev) (w : Nat) (o : Option Opc) (t : TaskOp) : Option Reason :=
  if d.flag pgRsv RSV_STAT_PF then some .reserve
  else if !d.flag pgLdg LDG_CTL_ACCEPT_EN || d.agreed pgLdg || d.sliceBad 150 || d.sliceBad 151 then some .starting
  else if d.flag pgLdg LDG_CTL_ACTIVATE then some .activation
  else if !d.flag (pgTw w) TW_CQ_CFG_ARMED || !vis.flag (pgTw w) TW_CQ_CFG_ARMED then some .disarmed
  else
    match o with
    | none => some .badOpcode
    | some o =>
      let c := d.ctx t.ctx
      let lanes := o == .append || o == .seal
      if badArg vis (d.hostOwned w) o t then some .badArg
      else if badLength vis d o t then some .length
      else if d.ldg.journal.any fun e => e.window == w && e.tag == t.tag.toNat && !(e.posted || e.reposted) then
        some .tagBusy
      else if min (d.ringSize w) (d.quota w) ≤ d.outstanding w then some .quota
      else if 4096 ≤ d.ldg.journal.length + d.retiredCount 9 then some .journalFull
      else if o == .openLane && (c.state != .free || d.ctxRetired t.ctx) then some .ctxBusy
      else if lanes && (c.state == .free || c.lane != t.lane) then some .laneNotOpen
      else if lanes && c.state == .opening then some .laneOpening
      else if lanes && c.state == .sealing then some .laneSealing
      else if (o == .openLane || o == .append) && (taskBay vis d o t).isNone then some .noBay
      else if o == .append && d.freeWords (vis.fifoWords c.fifo) c.fifo < ceilDiv t.len 64 then some .stagingFull
      else if o.charges && !reserveCovers vis d o t then some .reserve
      else none

/-! ### Refusal and acceptance (R67 to R70) -/

/-- A refused task: TW_RESULT, TW_REFUSALS and the REFUSED bit, and nothing else (R67). -/
def Dev.refuse (d : Dev) (w : Nat) (t : TaskOp) (byReserve : Bool) (r : Reason) : Dev :=
  let p := pgTw w
  let d := (d.put p TW_RESULT (t.tag.toNat * 2 ^ 16 + r.code * 2 ^ 8 + 3)).inc p TW_REFUSALS
  let d := d.irq p TW_IRQ_REFUSED
  if byReserve then d.inc pgRsv RSV_REFUSALS else d

/-- The next-LSN counter has come within 2^19 of the limit: the limit rises by 2^20 and is made persistent (R70). -/
def Dev.raiseLimit (d : Dev) : Dev :=
  if d.ldg.limit ≤ d.ldg.nextLsn + 2 ^ 19 then
    { d with ldg := { d.ldg with limit := d.ldg.limit + 2 ^ 20 }
             rsv := { d.rsv with flashLimit := d.ldg.limit + 2 ^ 20 } }
  else d

/-- The target of an ABORT (R91): the unposted task of the tag, else the posted one of the highest LSN. The ABORT itself is no target:
R91 gives no outcome for an ARG0 that names the ABORT's own tag (DESIGN CHOICE, notes/assumptions/34.md). -/
def abortTarget (d : Dev) (w tag lsn : Nat) : Option JEntry :=
  let l := d.ldg.journal.filter fun e => e.window == w && e.tag == tag && e.lsn != lsn
  match l.find? fun e => !(e.posted || e.reposted) with
  | some e => some e
  | none => l.foldl (fun best e =>
      match best with
      | some b => if b.lsn < e.lsn then some e else some b
      | none => some e) none

/-- The bytes of a lane as Settled, from offset `a`, and whether any is void (R75). -/
def laneBytes (store : List SettledEntry) (n a k : Nat) : List Byte × Bool :=
  (List.range k).foldl (fun acc i =>
    match store.find? fun e => e.lane == n && e.offset ≤ a + i && a + i < e.offset + e.bytes.length + e.voidBytes with
    | some e =>
      match e.bytes[a + i - e.offset]? with
      | some b => (acc.1 ++ [b], acc.2)
      | none => (acc.1 ++ [0], true)
    | none => (acc.1 ++ [0], acc.2)) ([], false)

/-- How many of the `k` bytes from lane offset `a` come before the first byte of the ranges `lost`. -/
def goodBytes (lost : List (Nat × Nat)) (a k : Nat) : Nat :=
  lost.foldl (fun m r => if decide (r.1 < a + m) && decide (a < r.1 + r.2) then r.1 - a else m) k

/-- The lane offset that READ `t` names. -/
def TaskSt.readOffset (t : TaskSt) : Nat := t.arg0 + bits t.arg1 0 16 * 2 ^ 32

/-- Does READ `t` still wait (R75): for a lower-LSN APPEND that overlaps its range to be Settled, or for a lower-LSN RELEASE with
RECLAIM, which may leave the lane without a length, to have its effect? -/
def Dev.readWaits (d : Dev) (t : TaskSt) : Bool :=
  d.ldg.tasks.any fun u => u.lane == t.lane && decide (u.lsn < t.lsn) &&
    ((u.opc == .append && !u.settled && decide (u.offset < t.readOffset + t.length) && decide (t.readOffset < u.offset + u.length))
      || (u.opc == .release && bit u.flags 2 && !d.isMet u.lsn))

/-- How many bytes READ `t` finds within the lane's length at its LSN (R75). -/
def Dev.readRange (d : Dev) (t : TaskSt) : Nat :=
  let st := (d.laneAsOf t.lane t.lsn).state
  let gone := st == .free || st == .reclaiming
  min t.length (if gone then 0 else t.lenAt - t.readOffset)

/-- Can the flash of bay `b` be read (R189)? -/
def Dev.bayHere (d : Dev) (b : Nat) : Bool :=
  d.bayState b == 4 || d.bayState b == 5 || d.bayState b == 6 || d.bayState b == 8

/-- The ranges of entry `e` that lie in a bay which is absent (R193): a gathered bale lies where the mapping says, the rest in the
entry's own bay. -/
def Dev.absentOf (d : Dev) (e : SettledEntry) : List (Nat × Nat) :=
  let len := e.bytes.length + e.voidBytes
  let bales := (List.range (len / 2 ^ 20 + 2)).map (· + e.offset / 2 ^ 20)
  bales.filterMap fun b =>
    let lo := max e.offset (b * 2 ^ 20)
    let hi := min (e.offset + len) ((b + 1) * 2 ^ 20)
    let home := match d.baleHome e.lane b with
      | some h => some h.1
      | none => e.bay
    match home with
    | some x => if lo < hi && !d.bayHere x then some (lo, hi - lo) else none
    | none => none

/-- The ranges of its lane that READ `t` cannot recover: marked in the pages (R148), not rebuilt by its reads (R210), or in an absent
bay (R193). -/
def Dev.lostOf (d : Dev) (t : TaskSt) : List (Nat × Nat) :=
  t.lost ++ (d.ldg.store.filter (·.lane == t.lane)).flatMap fun e => e.bad ++ d.absentOf e

/-- Are reads of READ `t` outstanding, or not yet queued (R178, R210)? -/
def Dev.reading (d : Dev) (t : TaskSt) : Bool :=
  !d.fls.issued.contains t.lsn || d.fls.accesses.any fun a => a.why == .task t.lsn

/-- Deliver `n` bytes of READ `t` to ADDR. -/
def Dev.readDeliver (d : Dev) (t : TaskSt) (n : Nat) : Dev :=
  let l := (laneBytes d.ldg.store t.lane t.readOffset n).1
  if d.hostOwned t.window then d.hostW t.addr l else d.memW t.addr l

/-- A running READ is cut short (R92, R100, R105). How many of the bytes that it can deliver it has delivered by then the spec
leaves to the flash's timing: a free value (notes/assumptions/5.md). They stand at ADDR and RESULT counts them. -/
def Dev.readCut (d : Dev) (t : TaskSt) : Dev :=
  if t.opc != .read || d.isMet t.lsn || t.destStopped || d.readWaits t then d
  else
    let x := d.free
    let n := x.1.toNat % (goodBytes (d.lostOf t) t.readOffset (d.readRange t) + 1)
    (x.2.readDeliver t n).updTask t.lsn fun u => { u with got := n }

/-- The bytes that the task of LSN `lsn` had delivered when it was cut short. -/
def Dev.gotOf (d : Dev) (lsn : Nat) : Nat := ((d.task lsn).map (·.got)).getD 0

/-- Every running READ is cut short. -/
def Dev.cutReads (d : Dev) : Dev := d.ldg.tasks.foldl (fun d t => d.readCut t) d

/-- The outcome of an ABORT, decided at its own decision (R91 to R93). -/
def Dev.abort (d : Dev) (w lsn tag : Nat) : Dev :=
  match abortTarget d w tag lsn with
  | none => d.meet lsn .noTarget 0
  | some e =>
    if e.met.isSome then d.meet lsn .tooLate e.lsn
    else
      let signing := match d.task e.lsn with
        | some t => t.signing || t.signed
        | none => false
      match e.opc with
      | .read | .flush =>
        let d := match d.task e.lsn with
          | some t => d.readCut t
          | none => d
        (d.meetNoEffect e.lsn .aborted (d.gotOf e.lsn)).meet lsn .ok e.lsn
      | .seal =>
        if signing then d.meet lsn .notAbortable e.lsn
        else
          match d.task e.lsn with
          | some t =>
            let d := d.setCtx t.ctx { d.ctx t.ctx with state := .open }
            (((d.unsealLane t.lane).meetNoEffect e.lsn .aborted 0).sealStat).meet lsn .ok e.lsn
          | none => d.meet lsn .notAbortable e.lsn
      | _ => d.meet lsn .notAbortable e.lsn

/-- The opcode's immediate effect (R68, R72, R73, R76, R91, R95, R97). -/
def Dev.immediate (vis d : Dev) (w lsn : Nat) (o : Opc) (t : TaskOp) : Dev :=
  match o with
  | .openLane =>
    let x : Ctx := { state := .opening, lane := t.lane, fifo := bits t.argb 0 6, poly := bits t.arg0 4 2 }
    d.setCtx t.ctx { x with bay := (taskBay vis d o t).getD 0, sha := bit t.arg0 6 }
  | .append =>
    let c := d.ctx t.ctx
    let x := d.lane t.lane
    let d := d.updTask lsn fun u => { u with offset := c.length, fifo := c.fifo, bay := some c.bay, fetching := true }
    let d := d.setCtx t.ctx { c with length := c.length + t.len }
    let d := d.setLane t.lane { x with length := c.length + t.len, lastAppend := lsn, entries := x.entries + 1 }
    d.promise c.fifo lsn t.lane t.ctx t.len
  | .seal =>
    let d := (d.setCtx t.ctx { d.ctx t.ctx with state := .sealing }).keepLane lsn t.lane
    (d.setLane t.lane { d.lane t.lane with state := .sealing, changed := d.gtime48, sealLsn := lsn }).sealStat
  | .read =>
    let from0 := t.arg0 + bits t.arg1 0 16 * 2 ^ 32
    let bales := (List.range (t.len / 2 ^ 20 + 2)).map (· + from0 / 2 ^ 20)
    d.updTask lsn fun u => { u with bales := bales.filter fun b => (d.baleHome t.lane b).isSome }
  | .flush => (d.updTask lsn fun u => { u with settled := true }).meetFlushes
  | .abort => (d.abort w lsn (bits t.arg0 0 16)).dropDone
  | .query | .mark | .release => d

/-- An accepted task (R68): LSN, charge, journal entry, task state, the opcode's immediate effect, TW_RESULT and LSN. -/
def Dev.accept (vis d : Dev) (w : Nat) (o : Opc) (t : TaskOp) : Dev :=
  let p := pgTw w
  let lsn := d.ldg.nextLsn
  let c := chargeOf o t.len
  let e : JEntry := { window := w, lsn := lsn, tag := t.tag.toNat, opc := o, lane := t.lane }
  let u : TaskSt := { window := w, lsn := lsn, opc := o, lane := t.lane, ctx := t.ctx, addr := t.addr, length := t.len,
                      arg0 := t.arg0, arg1 := t.arg1, argb := t.argb, flags := t.flags.toNat,
                      lenAt := (d.lane t.lane).length, cw := c.1, rc := c.2,
                      settled := o == .read || o == .query || o == .abort, host := d.hostOwned w }
  let l : Ledger := { d.ldg with journal := d.ldg.journal ++ [e], tasks := d.ldg.tasks ++ [u], nextLsn := lsn + 1 }
  let d := { d with ldg := l }
  let d := if d.ldg.journal.length = 3584 then d.irq pgLdg LDG_IRQ_JRNL_HIGH else d
  let d := Dev.immediate vis (d.charge c.1 c.2).raiseLimit w lsn o t
  (d.put p TW_RESULT (t.tag.toNat * 2 ^ 16 + 2)).put64 p TW_LSN_LO TW_LSN_HI lsn

/-- The descriptor registers as the submission wrote them (R59). -/
def Dev.descr (d : Dev) (w : Nat) (code : Nat) (t : TaskOp) : Dev :=
  let p := pgTw w
  (((((((d.put p TW_D (t.tag.toNat * 2 ^ 16 + t.flags.toNat * 2 ^ 8 + code)).put p (TW_D.idx 1) t.d1.toNat).put p
    (TW_D.idx 2) t.d2.toNat).put p (TW_D.idx 3) t.d3.toNat).put p (TW_D.idx 4) t.d4.toNat).put p (TW_D.idx 5)
    t.d5.toNat).put p (TW_D.idx 6) t.d6.toNat).put p (TW_D.idx 7) t.d7.toNat

/-- The descriptor registers cleared (R100 step 1, R105). -/
def Dev.clearDescr (d : Dev) (w : Nat) : Dev := d.descr w 0 {}

/-- Is a submission of window `w` PENDING (R62, R63)? From its doorbell, which the edge of Grain n captures, until its result is
visible from the edge of Grain n + 1; what reaches DCLK by then is captured at that edge at the latest. -/
def Dev.isPending (vis d : Dev) (w : Nat) : Bool :=
  vis.get (pgTw w) TW_RESULT_STATE == 1 || d.ldg.bells.any fun x => x.1 == w && decide (d.gtime ≤ x.2 + 1)

/-- Note the doorbell of window `w` that this Grain captured. -/
def Dev.bell (d : Dev) (w : Nat) : Dev :=
  { d with ldg := { d.ldg with bells := (w, d.gtime) :: d.ldg.bells.filter (·.1 != w) } }

/-- A submission in window `w` (R61 to R63): ignored if the requester may not write the window (R58) or a submission is
PENDING, which records DOORBELL_BUSY (R62); discarded if a host event was captured in the same Grain (R64); else decided.
The result stands in `cur` and is visible from the next edge; until then `vis` shows PENDING. -/
def submit (w : Nat) (r : Requester) (code : Nat) (o : Option Opc) (t : TaskOp) (s : State) : State :=
  let p := pgTw w
  if !s.cur.mayWrite r w then s
  else if Dev.isPending s.vis s.cur w then s.dec fun _ d => d.errAt p TW_DOORBELL .doorbellBusy r
  else
    let vis := s.vis.put p TW_RESULT_STATE 1
    let d := (s.cur.descr w code t).bell w
    if d.ldg.hostEventNow && d.hostOwned w then { s with cur := (d.clearDescr w).put p TW_RESULT_STATE 0, vis := vis }
    else
      match decide65 s.vis d w o t, o with
      | none, some o => { s with cur := Dev.accept s.vis d w o t, vis := vis }
      | some x, _ =>
        { s with cur := d.refuse w t (x == .reserve && !d.flag pgRsv RSV_STAT_PF) x, vis := vis }
      | none, none => s

/-! ### Meanings: the nine tasks (R71) -/

def execOpenLane (w : Fin 64) (r : Requester) (t : TaskOp) (s : State) : Host.Outcome State Fault Refusal :=
  .next (s.noting (.cmd (.openLane w r t)) fun s => submit w r 0x01 (some .openLane) t s)

def execAppend (w : Fin 64) (r : Requester) (t : TaskOp) (s : State) : Host.Outcome State Fault Refusal :=
  .next (s.noting (.cmd (.append w r t)) fun s => submit w r 0x02 (some .append) t s)

def execRead (w : Fin 64) (r : Requester) (t : TaskOp) (s : State) : Host.Outcome State Fault Refusal :=
  .next (s.noting (.cmd (.read w r t)) fun s => submit w r 0x03 (some .read) t s)

def execSeal (w : Fin 64) (r : Requester) (t : TaskOp) (s : State) : Host.Outcome State Fault Refusal :=
  .next (s.noting (.cmd (.seal w r t)) fun s => submit w r 0x04 (some .seal) t s)

def execFlush (w : Fin 64) (r : Requester) (t : TaskOp) (s : State) : Host.Outcome State Fault Refusal :=
  .next (s.noting (.cmd (.flush w r t)) fun s => submit w r 0x05 (some .flush) t s)

def execAbort (w : Fin 64) (r : Requester) (t : TaskOp) (s : State) : Host.Outcome State Fault Refusal :=
  .next (s.noting (.cmd (.abort w r t)) fun s => submit w r 0x06 (some .abort) t s)

def execMark (w : Fin 64) (r : Requester) (t : TaskOp) (s : State) : Host.Outcome State Fault Refusal :=
  .next (s.noting (.cmd (.mark w r t)) fun s => submit w r 0x07 (some .mark) t s)

def execRelease (w : Fin 64) (r : Requester) (t : TaskOp) (s : State) : Host.Outcome State Fault Refusal :=
  .next (s.noting (.cmd (.release w r t)) fun s => submit w r 0x08 (some .release) t s)

def execQuery (w : Fin 64) (r : Requester) (t : TaskOp) (s : State) : Host.Outcome State Fault Refusal :=
  .next (s.noting (.cmd (.query w r t)) fun s => submit w r 0x09 (some .query) t s)

/-- DOORBELL_BUSY_WRITE: a write at offset `off` to the descriptor or the doorbell while PENDING (R62). -/
def execDoorbellBusyWrite (w : Fin 64) (r : Requester) (off : Fin 9) (s : State) : Host.Outcome State Fault Refusal :=
  let p := pgTw w
  .next (s.noting (.cmd (.doorbellBusyWrite w r off)) fun s => if s.cur.mayWrite r w && Dev.isPending s.vis s.cur w then
    s.dec fun _ d => d.errAt p (TW_D.idx off) .doorbellBusy r else s)

/-! ### Meanings: completions -/

/-- The OPEN_LANE `lsn`'s descriptor check has ended (R72, R78, R150, R156). -/
def execOpenLaneComplete (lsn : Nat) (s : State) : Host.Outcome State Fault Refusal :=
  .next (s.noting (.cmd (.openLaneComplete lsn)) fun s => s.ledger fun vis d =>
    match d.task lsn with
    | some t =>
      if t.opc != .openLane || d.isMet lsn || d.laneWaits t.lane lsn true then d
      else
        let c := d.ctx t.ctx
        if (d.lane t.lane).state == .free then
          let d := (d.setCtx t.ctx { c with state := .open }).keepLane lsn t.lane
          let d := d.setLane t.lane { state := .open, poly := c.poly, sha := c.sha, openLsn := lsn,
                                      changed := d.gtime48, openedAt := d.gtime48 }
          let d := d.initChecks t.ctx c.poly c.sha
          Dev.meetHeld vis d lsn t.lane .ok 0
        else (d.setCtx t.ctx {}).meetNoEffect lsn .laneInUse 0
    | none => d)

/-- The ingest mover reports APPEND `lsn`'s payload in staging (R71, R74, R152). -/
def execAppendComplete (lsn : Nat) (s : State) : Host.Outcome State Fault Refusal :=
  .next (s.noting (.cmd (.appendComplete lsn)) fun s => s.ledger fun _ d =>
    match d.task lsn with
    | some t =>
      if t.opc != .append || d.isMet lsn || t.fetching then d
      else (d.meet lsn (if t.voidBytes = 0 then .ok else .void) t.offset).dropDone
    | none => d)

/-- READ `lsn` ends (R75, R582). `fail` is how many bytes reach ADDR before a write fails, `none` for no such end. What its pages mark
as unrecoverable ends it without a record of its own (R148 wrote one); so does an absent bay (R193). -/
def execReadComplete (lsn : Nat) (fail : Option Nat) (s : State) : Host.Outcome State Fault Refusal :=
  .next (s.noting (.cmd (.readComplete lsn fail)) fun s => s.ledger fun _ d =>
    match d.task lsn with
    | some t =>
      if t.opc != .read || d.isMet lsn || d.readWaits t || (!t.destStopped && d.reading t) then d
      else
        let byRange := d.readRange t
        let byBad := goodBytes (d.lostOf t) t.readOffset byRange
        let stopped := t.destStopped && byBad != 0
        let n := if stopped then min t.got byBad else min byBad (fail.getD byBad)
        let st : CStat :=
          if stopped || n < byBad then .destFault
          else if byBad < byRange then .unrecoverable
          else if byRange < t.length then .range
          else if (laneBytes d.ldg.store t.lane t.readOffset n).2 then .void
          else .ok
        let d := if stopped then d else d.readDeliver t n
        d.meetNoEffect lsn st n
    | none => d)

/-- The seal record of SEAL `lsn` is Settled: the lane is SEALED and its context FREE (R76, R78, R94). A copy to ADDR that failed ends it
DEST_FAULT (R582). -/
def execSealComplete (lsn : Nat) (s : State) : Host.Outcome State Fault Refusal :=
  .next (s.noting (.cmd (.sealComplete lsn)) fun s => s.ledger fun _ d =>
    match d.task lsn with
    | some t =>
      if t.opc != .seal || d.isMet lsn || !t.signed || !t.settled then d
      else
        let d := (d.setCtx t.ctx {}).setLaneState t.lane .sealed
        (d.meet lsn (if t.copyFailed then .destFault else .ok) (d.lane t.lane).length).dropDone
    | none => d)

/-- The hold of MARK `t` comes into force (R96). -/
def Dev.placeHold (d : Dev) (t : TaskSt) : Dev :=
  let h : Hold := { id := t.lsn, lane := t.lane, off := t.arg0 + bits t.arg1 0 16 * 2 ^ 32, len := t.length, expiry := t.addr
                    cls := bits t.argb 0 2 }
  let d := { d with ldg := { d.ldg with holds := d.ldg.holds ++ [h] } }
  d.setLane t.lane (d.lane t.lane)

/-- MARK `lsn` comes into force (R71, R96). -/
def execMarkComplete (lsn : Nat) (s : State) : Host.Outcome State Fault Refusal :=
  .next (s.noting (.cmd (.markComplete lsn)) fun s => s.ledger fun vis d =>
    match d.task lsn with
    | some t =>
      let st := (d.laneAsOf t.lane lsn).state
      if t.opc != .mark || d.isMet lsn || d.laneWaits t.lane lsn true then d
      else if st == .free || st == .reclaiming then d.meetNoEffect lsn .range 0
      else if 16384 ≤ d.ldg.holds.length then d.meetNoEffect lsn .holdLimit 0
      else
        Dev.meetHeld vis (d.placeHold t) lsn t.lane .ok lsn
    | none => d)

/-- Does hold `h` block the reclaim of a lane of length `n` (R98)? -/
def Hold.blocks (h : Hold) (n : Nat) : Bool := h.len == 0 || h.off < n

/-- May a RELEASE with RECLAIM of LSN `lsn` take lane `n` (R98)? -/
def Dev.reclaimable (d : Dev) (n lsn : Nat) : Bool :=
  (d.lane n).state == .archived && !(d.holdsAsOf n lsn).any (·.blocks (d.lane n).length)

/-- Lane `n` moves to RECLAIMING by RELEASE `lsn` (R78, R98). -/
def Dev.reclaim (d : Dev) (n lsn : Nat) : Dev :=
  (d.keepLane lsn n).setLane n { d.lane n with state := .reclaiming, changed := d.gtime48, reclaimLsn := lsn }

/-- The hold that RELEASE `t` finds: in force, and made by a MARK of a lower LSN (R80, R97). -/
def Dev.relHold (d : Dev) (t : TaskSt) : Option Hold := d.ldg.holds.find? fun h => t.names h.id && decide (h.id < t.lsn)

/-- RELEASE `lsn` takes effect (R97, R98). One that names the hold of a lower-LSN MARK not yet in force waits for it: R80 orders the
two effects (DESIGN CHOICE, notes/assumptions/34.md). -/
def execReleaseComplete (lsn : Nat) (s : State) : Host.Outcome State Fault Refusal :=
  .next (s.noting (.cmd (.releaseComplete lsn)) fun s => s.ledger fun vis d =>
    match d.task lsn with
    | some t =>
      if t.opc != .release || d.isMet lsn then d
      else if bit t.flags 2 then
        if d.laneWaits t.lane lsn true then d
        else if d.reclaimable t.lane lsn then Dev.meetHeld vis (d.reclaim t.lane lsn) lsn t.lane .ok 0
        else d.meetNoEffect lsn .retained 0
      else
        match d.relHold t with
        | none =>
          if d.ldg.tasks.any fun m => m.opc == .mark && t.names m.lsn && decide (m.lsn < lsn) && !d.isMet m.lsn then d
          else d.meetNoEffect lsn .noTarget 0
        | some h =>
          if d.laneWaits h.lane lsn true then d
          else if d.hostOwned t.window && h.cls != 0 then d.meetNoEffect lsn .retained 0
          else Dev.meetHeld vis ((d.dropHold lsn h).updTask lsn fun t => { t with rel := some h }) lsn h.lane .ok 0
    | none => d)

/-- QUERY `lsn`'s record is written (R77, R582). `fail`: the write to ADDR fails. -/
def execQueryComplete (lsn : Nat) (fail : Bool) (s : State) : Host.Outcome State Fault Refusal :=
  .next (s.noting (.cmd (.queryComplete lsn fail)) fun s => s.ledger fun _ d =>
    match d.task lsn with
    | some t =>
      if t.opc != .query || d.isMet lsn || d.laneWaits t.lane lsn false then d
      else if fail || t.destStopped then d.meetNoEffect lsn .destFault 0
      else
        let x := d.laneAsOf t.lane lsn
        let holds := (d.holdsAsOf t.lane lsn).length
        let opening := x.state == .free && d.ldg.tasks.any fun u =>
          u.opc == .openLane && u.lane == t.lane && u.lsn < lsn && !d.isMet u.lsn
        let st := if opening then 1 else x.state.code
        let len := min x.length t.lenAt
        let b := laneRecord t.lane holds { x with archived := min x.archived len } st len (min len (d.settledLen t.lane)) 0
        let d := if d.hostOwned t.window then d.hostW t.addr b else d.memW t.addr b
        if st = 0 then d.meetNoEffect lsn .range 0 else d.meetNoEffect lsn .ok st
    | none => d)

/-- The source of APPEND `lsn` failed after `good` bytes (R74, R147). -/
def execIngestSourceError (lsn good : Nat) (s : State) : Host.Outcome State Fault Refusal :=
  .next (s.noting (.cmd (.ingestSourceError lsn good)) fun s => s.ledger fun _ d => d.voidClose lsn good true)

/-! ### The completion ring (R83 to R90) -/

/-- The 32 bytes of a ring entry (R83), posted at the edge that follows. -/
def ringEntry (e : JEntry) (st : CStat) (res phase repost inc gtime : Nat) : List Byte :=
  leBytes 8 e.lsn ++ leBytes 2 e.tag ++ leBytes 1 e.opc.code ++ leBytes 1 st.code
    ++ leBytes 4 (phase * 2 ^ 31 + repost * 2 ^ 20 + e.lane % 2 ^ 20) ++ leBytes 8 res ++ leBytes 6 gtime
    ++ leBytes 1 inc ++ [0]

/-- The completions of window `w` that may be posted next, in LSN order: met, not posted, none of a lower LSN of the
window left out (R81). -/
def postable (d : Dev) (w : Nat) : List JEntry :=
  (d.ldg.journal.filter fun e => e.window == w && !e.posted && !e.lost).takeWhile (·.met.isSome)

/-- Post one completion into the ring of window `w` (R83, R85). -/
def Dev.postOne (d : Dev) (w : Nat) (e : JEntry) : Dev :=
  match e.met with
  | none => d
  | some (st, res) =>
    let p := pgTw w
    let c := d.get p TW_CQ_PROD_PROD
    let lg := d.get p TW_CQ_CFG_SIZE_LOG2
    let a := d.get64 p TW_CQ_BASE_LO TW_CQ_BASE_HI + c % 2 ^ lg * 32
    let b := ringEntry e st res (1 - c / 2 ^ lg % 2) (b2n e.reposted) (d.get p TW_CQ_INC_INC)
      ((d.gtime + 1) % 2 ^ 48)
    let d := if d.hostOwned w then d.hostW a b else d.memW a b
    let d := { d with ldg := { d.ldg with
        journal := updWhere (·.lsn == e.lsn) (fun e => { e with posted := true }) d.ldg.journal } }
    let c := (c + 1) % 2 ^ 16
    (d.put p TW_CQ_PROD_PROD c).put p TW_CQ_PROD_PHASE (1 - c / 2 ^ lg % 2)

/-- Post at most `n` completions of window `w`; then the interrupt bit and, for a host-owned window with the bit
enabled, MSI-X vector `w` (R88). -/
def Dev.postWindow (d : Dev) (w n : Nat) : Dev :=
  let l := if d.flag (pgTw w) TW_CQ_CFG_ARMED then (postable d w).take n else []
  if l.isEmpty then d
  else
    let d := (l.foldl (fun d e => d.postOne w e) d).irq (pgTw w) TW_IRQ_POSTED
    if d.hostOwned w && bit (d.get (pgTw w) PG_IRQ_EN) 0 then d.sendMsix w
    else d

/-- How many completions window `w` has had posted in this Grain. -/
def Dev.postedOf (d : Dev) (w : Nat) : Nat := ((d.ldg.posted.filter (·.1 == w)).map (·.2)).sum

/-- How many completions window `w` may have posted yet in this Grain: 64 for the window and 256 in all (R88). -/
def Dev.mayPost (d : Dev) (w : Nat) : Nat := min (64 - d.postedOf w) (256 - (d.ldg.posted.map (·.2)).sum)

/-- Post windows 0 to 63 in order, within the limits of R88. -/
def Dev.postAll (d : Dev) : Dev :=
  (List.range 64).foldl (fun d w =>
    let n := d.mayPost w
    let k := if d.flag (pgTw w) TW_CQ_CFG_ARMED then ((postable d w).take n).length else 0
    let d := d.postWindow w n
    if k = 0 then d else { d with ldg := { d.ldg with posted := (w, k) :: d.ldg.posted } }) d

/-- COMPLETION_POSTING: the output phase stages the postings of the completions met (R88); they are in force from the
edge that follows (R32). -/
def execCompletionPosting (s : State) : Host.Outcome State Fault Refusal := .next (s.noting (.cmd .completionPosting) fun s => s.ledger fun _ d => d.postAll)

/-- TW_CQ_CONS_WRITE (R86). -/
def execTwCqConsWrite (w : Fin 64) (r : Requester) (v : BitVec 16) (s : State) : Host.Outcome State Fault Refusal :=
  let p := pgTw w
  .next (s.noting (.cmd (.twCqConsWrite w r v)) fun s => if !s.cur.mayWrite r w then s else s.dec fun _ d =>
    let cons := d.get p TW_CQ_CONS_CONS
    let n := (v.toNat + 2 ^ 16 - cons) % 2 ^ 16
    let held := (d.get p TW_CQ_PROD_PROD + 2 ^ 16 - cons) % 2 ^ 16
    if held < n then d.errAt p TW_CQ_CONS .consRange r
    else
      let gone := ((d.ldg.journal.filter fun e => e.window == w.val && e.posted).take n).map (·.lsn)
      let d := { d with ldg := { d.ldg with journal := d.ldg.journal.filter fun e => !gone.contains e.lsn } }
      (d.put p TW_CQ_CONS_CONS v.toNat).dropDone)

/-- RING_ARM: a write of `v` to TW_CQ_CFG with ARMED set (R101). While armed it changes QUOTA only. -/
def execRingArm (w : Fin 64) (r : Requester) (v : Word) (s : State) : Host.Outcome State Fault Refusal :=
  let p := pgTw w
  .next (s.noting (.cmd (.ringArm w r v)) fun s => if !s.cur.mayWrite r w then s else s.dec fun _ d =>
    let lg := clampN 4 12 (bits v.toNat 0 4)
    let q := bits v.toNat 16 13
    let clamp (d : Dev) : Dev :=
      let d := if 4096 < q then d.errAt p TW_CQ_CFG .clamp r else d
      if lg != bits v.toNat 0 4 then d.errAt p TW_CQ_CFG .clamp r else d
    if d.flag p TW_CQ_CFG_ARMED then
      let d := if 4096 < q then d.errAt p TW_CQ_CFG .clamp r else d
      d.put p TW_CQ_CFG_QUOTA (clampN 1 4096 q)
    else if 2 ^ lg < d.outstanding w then d.errAt p TW_CQ_CFG .cfgRange r
    else
      let d := (((clamp d).put p TW_CQ_CFG_QUOTA (clampN 1 4096 q)).put p TW_CQ_CFG_SIZE_LOG2 lg).setB p
        TW_CQ_CFG_ARMED true
      let d := ((d.put p TW_CQ_INC_INC (d.get p TW_CQ_INC_INC + 1)).put p TW_CQ_PROD 0x10000).put p TW_CQ_CONS 0
      { d with ldg := { d.ldg with
          journal := updWhere (·.window == w.val)
            (fun e => { e with posted := false, reposted := e.posted || e.reposted }) d.ldg.journal } })

/-! ### Host events (R100, R517) -/

/-- Disarm the windows of the list `ws` with the record of R100 step 5 (`kind` as there). -/
def Dev.disarm (d : Dev) (ws : List Nat) (kind : Nat) : Dev :=
  let mask := (ws.map (2 ^ ·)).sum
  let outst := (ws.map d.outstanding).sum
  let d := ws.foldl (fun d w => d.setB (pgTw w) TW_CQ_CFG_ARMED false) d
  (d.irq pgLdg LDG_IRQ_HOST_EVENT).fault pgLdg 0x0102 false false [kind, mask, mask / 2 ^ 32, outst]

/-- RING_DISARM: a write of `v` to TW_CQ_CFG with ARMED 0 (R64 step 1, R100 steps 2 and 5); while disarmed it sets the
ring's size and quota (R106). -/
def execRingDisarm (w : Fin 64) (r : Requester) (v : Word) (s : State) : Host.Outcome State Fault Refusal :=
  let p := pgTw w
  .next (s.noting (.cmd (.ringDisarm w r v)) fun s => if !s.cur.mayWrite r w then s else s.dec fun _ d =>
    let lg := clampN 4 12 (bits v.toNat 0 4)
    let q := bits v.toNat 16 13
    let d := if 4096 < q then d.errAt p TW_CQ_CFG .clamp r else d
    let d := if !d.flag p TW_CQ_CFG_ARMED && lg != bits v.toNat 0 4 then d.errAt p TW_CQ_CFG .clamp r else d
    let d := d.put p TW_CQ_CFG_QUOTA (clampN 1 4096 q)
    if d.flag p TW_CQ_CFG_ARMED then d.disarm [w.val] 0x5 else d.put p TW_CQ_CFG_SIZE_LOG2 lg)

/-- The LDG_VOID records of the fetches that a host event of the last Grain stopped: their reports are captured now (R147). -/
def Dev.voidReports (d : Dev) : Dev :=
  d.ldg.voidsDue.foldl (fun d x => d.fault pgLdg 0x0101 false false [x.1, x.2.1, x.2.1 / 2 ^ 32, x.2.2])
    { d with ldg := { d.ldg with voidsDue := [] } }

/-- A host event of kind `kind` (R100): undecided host doorbells of the Grain are discarded, host-owned windows are
disarmed, host writes of their tasks stop, and their running fetches stop with the given numbers of bytes returned. -/
def Dev.hostEvent (d : Dev) (kind : Nat) (goods : List (Nat × Nat)) : Dev :=
  let ws := (List.range 64).filter fun w => d.hostOwned w && d.flag (pgTw w) TW_CQ_CFG_ARMED
  let good (lsn : Nat) : Nat := ((goods.find? (·.1 == lsn)).map (·.2)).getD 0
  let stop := (d.ldg.tasks.filter fun t => t.opc == .append && t.fetching && d.hostOwned t.window).map (·.lsn)
  let writes (t : TaskSt) : Bool := d.hostOwned t.window && (t.opc == .read || t.opc == .seal || t.opc == .query)
  let d := (d.ldg.tasks.filter writes).foldl (fun d t => d.readCut t) d
  let tasks := updWhere writes (fun t => { t with destStopped := true }) d.ldg.tasks
  let d := { d with ldg := { d.ldg with hostEventNow := true, tasks := tasks } }
  let due := (d.ldg.tasks.filter fun t => stop.contains t.lsn).map fun t =>
    (t.lane, t.lsn, t.length - min (good t.lsn) (t.length - 1))
  let d := { d with ldg := { d.ldg with voidsDue := d.ldg.voidsDue ++ due } }
  let d := stop.foldl (fun d lsn => d.voidClose lsn (good lsn) false) d
  d.disarm ws kind

/-! ### Holds, activation, acceptance -/

/-- HOLD_LAPSE (R97): the hold's GTIME has come and no accepted RELEASE names it; its lapse record is made, to be written as a map
delta in the bay of R585 and in its place in settlement order (R584). -/
def execHoldLapse (id : Nat) (s : State) : Host.Outcome State Fault Refusal :=
  .next (s.noting (.cmd (.holdLapse id)) fun s => s.ledger fun vis d =>
    match d.ldg.holds.find? (·.id == id) with
    | some h =>
      let named := d.ldg.tasks.any fun t => t.names id && !d.isMet t.lsn
      if h.expiry == 0 || d.gtime < h.expiry || named || !d.flag pgLdg LDG_STAT_RESTORED then d
      else
        let x : BgRec := { kind := .lapse h d.gtime48, lane := h.lane, bay := vis.bestBay, behind := d.ldg.nextLsn - 1 }
        let d := { d with ldg := { d.ldg with
            holds := d.ldg.holds.filter (·.id != id)
            background := d.ldg.background ++ [x] } }
        d.setLane h.lane (d.lane h.lane)
    | none => d)

/-- LDG_STAT.ACCEPTING: checks 1 to 3 of R65 pass. -/
def Dev.accepting (d : Dev) : Dev :=
  d.setB pgLdg LDG_STAT_ACCEPTING (d.flag pgLdg LDG_CTL_ACCEPT_EN && !d.flag pgLdg LDG_CTL_ACTIVATE
    && !d.flag pgRsv RSV_STAT_PF && !d.sliceBad 150 && !d.sliceBad 151)

/-- ACTIVATE_SET (R102 step 1). -/
def execActivateSet (s : State) : Host.Outcome State Fault Refusal :=
  .next (s.noting (.cmd .activateSet) fun s => s.dec fun _ d =>
    if d.flag pgLdg LDG_CTL_ACTIVATE then d
    else ((d.setB pgLdg LDG_CTL_ACTIVATE true).setB pgLdg LDG_STAT_DRAINING true).accepting)

/-- ACTIVATION_QUIESCED (R102 step 3): every accepted task staged and settled. -/
def execActivationQuiesced (s : State) : Host.Outcome State Fault Refusal :=
  .next (s.noting (.cmd .activationQuiesced) fun s => s.ledger fun _ d =>
    if d.flag pgLdg LDG_STAT_DRAINING && d.ldg.journal.all (·.met.isSome) && d.ldg.tasks.all (·.settled) then
      ((d.setB pgLdg LDG_STAT_DRAINING false).setB pgLdg LDG_STAT_QUIESCED true).irq pgLdg LDG_IRQ_QUIESCED
    else d)

/-- ACTIVATE_CLEAR (R102 step 5). Acceptance resumes from the next Grain; a drain that still runs ends. -/
def execActivateClear (s : State) : Host.Outcome State Fault Refusal :=
  .next (s.noting (.cmd .activateClear) fun s => s.dec fun _ d =>
    ({ d with ldg := { d.ldg with activateClear := true } }.setB pgLdg LDG_STAT_QUIESCED false).setB pgLdg LDG_STAT_DRAINING false)

/-- Are the four regions of R250 placed (R583)? -/
def Dev.placed (d : Dev) : Bool :=
  d.get64 pgMap MAP_DESC_BASE_LO MAP_DESC_BASE_HI != 0 && d.get64 pgMap MAP_POOL_BASE_LO MAP_POOL_BASE_HI != 0
    && d.get pgMap MAP_POOL_PAGES != 0 && d.get64 pgChk CHK_SHA_BASE_LO CHK_SHA_BASE_HI != 0
    && d.get64 pgChk CHK_TRAIL_BASE_LO CHK_TRAIL_BASE_HI != 0

/-- ACCEPT_EN_WRITE (R104, R583). -/
def execAcceptEnWrite (r : Requester) (on : Bool) (s : State) : Host.Outcome State Fault Refusal :=
  .next (s.noting (.cmd (.acceptEnWrite r on)) fun s => s.dec fun vis d =>
    if !on then (d.setB pgLdg LDG_CTL_ACCEPT_EN false).accepting
    else if !vis.placed then d.errAt pgLdg LDG_CTL .cfgRange r
    else if !d.flag pgLdg LDG_STAT_RESTORED then d
    else (d.setB pgLdg LDG_CTL_ACCEPT_EN true).accepting)

/-! ### Latching reads (R107) -/

/-- LDG_NEXT_LSN_LO_READ (R107, R43). -/
def execLdgNextLsnLoRead (r : Requester) (s : State) : Host.Outcome State Fault Refusal :=
  let v := s.vis.ldg.nextLsn
  .next (s.noting (.cmd (.ldgNextLsnLoRead r)) fun s => s.both fun d => d.latch r (pgLdg + 0x54) (BitVec.ofNat 32 v) (BitVec.ofNat 32 (v / 2 ^ 32)))

/-- LDG_LSN_LIMIT_LO_READ (R107, R43). -/
def execLdgLsnLimitLoRead (r : Requester) (s : State) : Host.Outcome State Fault Refusal :=
  let v := s.vis.ldg.limit
  .next (s.noting (.cmd (.ldgLsnLimitLoRead r)) fun s => s.both fun d => d.latch r (pgLdg + 0x5C) (BitVec.ofNat 32 v) (BitVec.ofNat 32 (v / 2 ^ 32)))

end Sys2Proof.Machine
end

