-- ==== Sys2Proof/Machine/Codeword.lean ====
section
/-! DEFINITION. The flash codeword: its metadata, the randomiser, the LDPC code, the 4,608 bytes that stand in flash, and the data of
record codewords (R202 to R208, R218, R219). -/

namespace Sys2Proof.Machine

open Sys2Proof

/-! ### Metadata (R203) -/

/-- The 16 metadata bytes of a codeword. -/
def Codeword.meta (c : Codeword) : List Byte :=
  leBytes 5 (if c.kind = 1 then c.offset else 0) ++ leBytes 3 (c.kind % 16 * 2 ^ 20 + c.lane % 2 ^ 20)
    ++ leBytes 2 (b2n c.head * 2 ^ 15 + b2n c.void * 2 ^ 14 + b2n c.unrec * 2 ^ 13 + c.valid % 2 ^ 13) ++ leBytes 6 c.wseq

/-! ### Randomiser (R206) -/

/-- One step of the randomiser's register. -/
def lfsrStep (x : BitVec 32) : BitVec 32 :=
  (x <<< 1) ||| ((x >>> 31 ^^^ x >>> 21 ^^^ x >>> 1 ^^^ x) &&& 1)

/-- `n` output bits, most significant first, and the register after them. -/
def lfsrBits : Nat → BitVec 32 → Nat → Nat × BitVec 32
  | 0, x, acc => (acc, x)
  | n + 1, x, acc => lfsrBits n (lfsrStep x) (2 * acc + (x >>> 31).toNat)

/-- XOR with the randomiser's output. -/
def randomise : BitVec 32 → List Byte → List Byte
  | _, [] => []
  | x, b :: l => let r := lfsrBits 8 x 0; (b ^^^ BitVec.ofNat 8 r.1) :: randomise r.2 l

/-- The seed for a row, lane, codeword of the element page and die. -/
def randSeed (row lane c d : Nat) : BitVec 32 :=
  let x : BitVec 32 := BitVec.ofNat 32 row ^^^ BitVec.ofNat 32 lane <<< 12 ^^^ BitVec.ofNat 32 c <<< 20 ^^^ BitVec.ofNat 32 d <<< 26
  if x = 0 then 1 else x

/-- The data bytes of codeword `i` of an element page. The spec lays out neither the bay map and its deltas nor the record of an
OPEN_LANE, MARK or RELEASE, so their bytes are open (R229, R254; notes/assumptions/5.md). -/
def Codeword.content (c : Codeword) (i : Nat) : List Byte :=
  if c.kind = 5 || (c.kind = 6 && c.data.isEmpty) then (List.range c.valid).map fun j => Config.mapByte c.wseq (4096 * i + j) else c.data

/-- Data and metadata of a codeword as they are encoded: randomised apart, each from its own seed, unless `rand` is off (R206, R207). -/
def Codeword.info (c : Codeword) (rand : Bool) (row i die : Nat) : List Byte :=
  let data := padTo 4096 (c.content i)
  if rand then randomise (randSeed row c.lane i die) data ++ randomise (randSeed row 0 i die) c.meta else data ++ c.meta

/-- What a reader makes of data and metadata: the metadata first, then the data with the lane that it names (R206). -/
def derandomise (rand : Bool) (row i die : Nat) (l : List Byte) : List Byte × List Byte :=
  if !rand then (l.take 4096, (l.drop 4096).take 16)
  else
    let m := randomise (randSeed row 0 i die) ((l.drop 4096).take 16)
    (randomise (randSeed row (leNat ((m.drop 5).take 3) % 2 ^ 20) i die) (l.take 4096), m)

/-! ### The LDPC code (R208) -/

/-- 128 bits of 16 bytes, the first byte lowest. -/
def block128 (l : List Byte) : BitVec 128 := BitVec.ofNat 128 (leNat (l.take 16))

/-- A circulant, by its first row, times a block. -/
def circMul (c x : BitVec 128) : BitVec 128 :=
  (List.range 128).foldl (fun a i => if x.getLsbD i then a ^^^ c.rotateLeft i else a) 0

/-- The `n` information blocks of a codeword. -/
def infoBlocks : Nat → List Byte → List (BitVec 128)
  | 0, _ => []
  | n + 1, l => block128 l :: infoBlocks n (l.drop 16)

/-- The syndrome part of parity block `i`: the circulants of its row over the 257 information blocks. -/
def parityTerm (i : Nat) (u : List (BitVec 128)) : BitVec 128 :=
  u.zipIdx.foldl (fun a x => a ^^^ circMul (Config.ldpcCirculant i x.2) x.1) 0

/-- The parity blocks from number `i` on: with the dual diagonal each is the one before plus its own term. -/
def parityBlocks (u : List (BitVec 128)) : Nat → Nat → BitVec 128 → List (BitVec 128)
  | 0, _, _ => []
  | n + 1, i, p => (p ^^^ parityTerm i u) :: parityBlocks u n (i + 1) (p ^^^ parityTerm i u)

/-- The 496 parity bytes of 4,112 bytes of data and metadata: 31 parity blocks of 288 (R208). -/
def ldpcParity (l : List Byte) : List Byte := (parityBlocks (infoBlocks 257 l) 31 0 0).flatMap fun p => leBytes 16 p.toNat

/-- The 4,608 bytes of codeword `i` of an element page on die `die` at row address `row` (R202, R206, R208). A PARITY codeword is the XOR
of others, and so a codeword by itself (R208, R219). -/
def Codeword.image (c : Codeword) (rand : Bool) (row i die : Nat) : List Byte :=
  if c.kind = 3 then padTo 4608 c.data else (let l := c.info rand row i die; l ++ ldpcParity l)

/-- XOR of two byte lists. -/
def xorBytes (a b : List Byte) : List Byte := List.zipWith (· ^^^ ·) a b

/-! ### Record codewords (R217, R218) -/

/-- The first 64 bytes of a record codeword: number `i` of `n` in its element page, with its count of end records and its marks. -/
def recordHead (gtime i n ends : Nat) (marks : List (Nat × Nat)) : List Byte :=
  [0x48, 0x58, 0x52, 0x43] ++ [BitVec.ofNat 8 ends, BitVec.ofNat 8 i, BitVec.ofNat 8 n, BitVec.ofNat 8 marks.length]
    ++ leBytes 6 gtime ++ leBytes 2 0 ++ padTo 48 (marks.flatMap fun m => leBytes 4 (m.1 % 32 * 64 + m.2 % 64))

/-- The data of a record codeword with end records `recs`. -/
def recordData (gtime i n : Nat) (marks : List (Nat × Nat)) (recs : List (List Byte)) : List Byte :=
  recordHead gtime i n recs.length marks ++ padTo 4032 (recs.flatMap (padTo 64))

/-- Record codewords that `n` end records need. -/
def recordCws (n : Nat) : Nat := ceilDiv n 63

/-- The words that an element page marks as unrecoverable (R148): codeword, 64-byte word. -/
def pageMarks (cws : List Codeword) : List (Nat × Nat) := cws.zipIdx.flatMap fun x => x.1.marks.map fun m => (x.2, m)

/-- End records that codewords `cws` of an element page ask for (R217). -/
def endsOf (cws : List Codeword) : List (List Byte) := (cws.filter fun c => c.last && c.kind == 1).map (·.endRec)

/-- Record codewords that codewords `cws` of an element page ask for: for their end records and for their marks (R217, R218). -/
def recordsNeeded (cws : List Codeword) : Nat :=
  max (recordCws (endsOf cws).length) (b2n (cws.any fun c => !c.marks.isEmpty))

/-- The marks that the first record codeword of an element page lists: 12 at most (R218). -/
def listedMarks (cws : List Codeword) : List (Nat × Nat) := (pageMarks cws).take 12

/-- A record codeword becomes number `i` of the `n` of its element page (R218, R222). -/
def Codeword.renumber (c : Codeword) (gtime i n : Nat) (marks : List (Nat × Nat)) : Codeword :=
  { c with data := recordHead gtime i n (nthD c.data 4 0).toNat marks ++ c.data.drop 64 }

/-- Number the record codewords among `cws` from `i` on; the first of the `n` lists the marks. -/
def numberRecords (gtime n : Nat) (marks : List (Nat × Nat)) : Nat → List Codeword → List Codeword
  | _, [] => []
  | i, c :: l =>
    if c.kind = 2 then c.renumber gtime i n (if i = 0 then marks else []) :: numberRecords gtime n marks (i + 1) l
    else c :: numberRecords gtime n marks i l

/-- An element page of `cap` codewords that begins with `cws`, planned at `gtime`: behind them the record codewords of the page's own
entries and marks as far as there is room, and PAD (R204, R217, R218). -/
def fillPage (gtime cap : Nat) (cws : List Codeword) : List Codeword :=
  let own := min (recordsNeeded cws) (cap - cws.length)
  let recs := (List.range own).map fun i => { kind := 2, data := recordData 0 0 0 [] (((endsOf cws).drop (63 * i)).take 63) : Codeword }
  let l := cws ++ recs
  numberRecords gtime (l.filter (·.kind == 2)).length (listedMarks cws) 0 l
    ++ List.replicate (cap - l.length) ({ kind := 0 } : Codeword)

/-- A full element page whose codewords have got more marks: its first record codeword lists them, if it has one (R148, R218). -/
def relistMarks (cws : List Codeword) : List Codeword :=
  let recs := cws.filter (·.kind == 2)
  let gtime := (recs.head?.map fun c => leNat ((c.data.drop 8).take 6)).getD 0
  numberRecords gtime recs.length (listedMarks cws) 0 cws

/-- The ranges of lane offsets that codeword `c`, number `i` of an element page `cws`, has marked unrecoverable: its marked words, or
all of it where its marks are not all listed (R218). -/
def Codeword.lostRanges (c : Codeword) (i : Nat) (cws : List Codeword) : List (Nat × Nat) :=
  let listed := if cws.any (·.kind == 2) then listedMarks cws else []
  if c.marks.isEmpty then []
  else if c.marks.all fun m => listed.contains (i, m) then c.marks.map fun m => (c.offset + 64 * m, min 64 (c.valid - 64 * m))
  else [(c.offset, c.valid)]

end Sys2Proof.Machine
end

