-- ==== Sys2Proof/Machine/Flash.lean ====
section
/-! DEFINITION. Raw flash channels: the sequencer's recipes, the Grain plan, polls, suspends, identification, magazine
bays, the spare sequencer and manual operations (chapter 05). -/

namespace Sys2Proof.Machine

open Sys2Proof

/-! ### Bus times (R166, R167, R176) -/

/-- Transfers in a µs by RATE (R166); a reserved rate is taken as 0x0. The bus clock has half as many cycles. -/
def mts (rate : Nat) : Nat :=
  match rate with
  | 1 => 200 | 2 => 400 | 3 => 533 | 4 => 800 | 5 => 1066 | 6 => 1200 | 7 => 1333 | 8 => 1600
  | _ => 10

/-- The rate in force on channel `k`: SDR at 10 MT/s until training has passed (R166, R168). -/
def Dev.rateOf (d : Dev) (k : Nat) : Nat :=
  if d.get (pgFch k) FCH_PHY_CFG_MODE == 0 || !d.flag (pgFch k) FCH_TRAIN_TRAINED then 0
  else d.get (pgFch k) FCH_PHY_CFG_RATE

/-- The rate of an operation: a manual one on a bay in FAULT runs in SDR at RATE 0x0 (R200). -/
def Dev.opRate (d : Dev) (o : FlashOp) : Nat :=
  if o.kind == .manual && d.bayState (pfaBay o.pfa) == 9 then 0 else d.rateOf (pfaPhys o.pfa)

/-- The time of `t` transfers in ps, a begun one counted whole. -/
def transferPs (t rate : Nat) : Nat := ceilDiv (t * 1000000) (mts rate)

/-- A wait of `ns` in whole bus clock cycles (R167). -/
def wholeCk (ns rate : Nat) : Nat := ceilDiv (ns * mts rate) 2000

/-- The parameter of WAIT in ns (R172); what a reserved one adds is open. -/
def Dev.waitNs (d : Dev) (k par : Nat) : Nat :=
  match par with
  | 0 => d.get (pgFch k) FCH_TIM0_TADL_NS
  | 1 => d.get (pgFch k) FCH_TIM0_TWHR_NS
  | 2 => d.get (pgFch k) FCH_TIM0_TCCS_NS
  | 3 => d.get (pgFch k) FCH_TIM1_TRHW_NS
  | 4 => d.get (pgFch k) FCH_TIM1_TWB_NS
  | 5 => d.get (pgFch k) FCH_TIM1_TRR_NS
  | _ => Config.reservedWaitNs par

/-- The bus clock cycles that a WAIT word `w` holds the bus of channel `k` at `rate` (R167, R172). -/
def Dev.waitCk (d : Dev) (k rate w : Nat) : Nat := wholeCk (d.waitNs k (bits w 16 4) + bits w 0 12) rate

/-- Bytes of a data burst: 0 means PAGE_CW codewords (R172). -/
def Dev.burst (d : Dev) (b n : Nat) : Nat := if n = 0 then d.get (pgBay b) BAY_GEOM0_PAGE_CW * 4608 else n

/-- Bus time in transfers of the item that begins at word `pc` with `planes` planes still to come, up to its next YIELD or END
(R175, R176); `next`: at END it goes on there, as a read does behind its SET_RETRY (R212). -/
def Dev.itemTr (d : Dev) (k b rate : Nat) : Nat → Option Nat → Nat → Nat → Nat
  | 0, _, _, _ => 0
  | fuel + 1, next, planes, pc =>
    let w := (d.recipeWord b pc).toNat
    let rows := d.get (pgBay b) BAY_GEOM1_ROW_CYCLES
    let cols := d.get (pgBay b) BAY_GEOM1_COL_CYCLES_M1 + 1
    match bits w 28 4 with
    | 0 =>
      match next with
      | some a => d.itemTr k b rate fuel none planes a
      | none => 0
    | 1 | 8 | 10 => 1 + d.itemTr k b rate fuel next planes (pc + 1)
    | 2 =>
      (match bits w 26 2 with | 0 => cols | 1 => rows | 2 => cols + rows | _ => 1) + d.itemTr k b rate fuel next planes (pc + 1)
    | 3 | 4 =>
      d.burst b (bits w 0 16) + 2 * d.get (pgFch k) FCH_TIM2_TPRE_CK + d.itemTr k b rate fuel next planes (pc + 1)
    | 5 => 2 * d.waitCk k rate w + d.itemTr k b rate fuel next planes (pc + 1)
    | 7 => 2 + (if bit w 27 then 0 else rows) + d.itemTr k b rate fuel next planes (pc + 1)
    | 9 =>
      match planes with
      | 0 => 1 + d.itemTr k b rate fuel next 0 (pc + 1)
      | n + 1 => 1 + d.itemTr k b rate fuel next n (bits w 16 9)
    | 15 => d.itemTr k b rate fuel next planes (pc + 1)
    | _ => 0

/-- Bus clock cycles of the CE_N setup, before each item (R167, R201). -/
def Dev.setupCk (d : Dev) (k rate : Nat) : Nat := wholeCk (d.get (pgFch k) FCH_TIM2_TCS_NS) rate

/-- Where a queued operation's recipe begins: SET_RETRY's first where it needs one (R212). -/
def Dev.firstWord (d : Dev) (o : FlashOp) : Nat := d.slotStart (pfaBay o.pfa) (if o.pre then 19 else o.slot)

/-- Where an operation goes on at END: behind SET_RETRY at its own slot (R212). -/
def Dev.endNext (d : Dev) (o : FlashOp) : Option Nat := if o.pre then some (d.slotStart (pfaBay o.pfa) o.slot) else none

/-- Transfers of operation `o`'s recipe from its pc on (R176). -/
def Dev.restTr (d : Dev) (o : FlashOp) : Nat :=
  d.itemTr (pfaPhys o.pfa) (pfaBay o.pfa) (d.opRate o) 4096 (d.endNext o) (o.planes.length - o.plane) o.pc

/-- Bus time in ps of a queued operation's first item. -/
def Dev.startPs (d : Dev) (o : FlashOp) : Nat :=
  let r := d.opRate o
  transferPs (2 * d.setupCk (pfaPhys o.pfa) r + d.restTr { o with pc := d.firstWord o }) r

/-- Bus time in ps of a poll, which is slot 8's (R177). -/
def Dev.pollPs (d : Dev) (o : FlashOp) : Nat :=
  let r := d.opRate o
  let b := pfaBay o.pfa
  transferPs (2 * d.setupCk (pfaPhys o.pfa) r + d.itemTr (pfaPhys o.pfa) b r 64 none 0 (d.slotStart b 8)) r

/-- Bus time in ps of the recipe that a ready poll resumes directly behind itself (R177). -/
def Dev.resumePs (d : Dev) (o : FlashOp) : Nat := transferPs (d.restTr o) (d.opRate o)

/-! ### Retry entries (R211, R212, R214) -/

/-- The die that a PFA names, by its index in the bay (R223). -/
def Dev.pfaDie (d : Dev) (p : Nat) : Nat :=
  4 * (pfaCe p * (d.get (pgBay (pfaBay p)) BAY_GEOM0_LUNS_PER_CE_M1 + 1) + pfaLun p) + pfaChan p

/-- A retry entry with `delta` added, saturating, to the bytes that `mask` selects (R214). The bytes are taken as unsigned: the spec
does not say whether an entry byte saturates as signed (DESIGN CHOICE, notes/assumptions/73.md). -/
def softEntry (entry mask : Nat) (delta : Int) : Nat :=
  leNat ((List.range 8).map fun i =>
    let v : Int := (bits entry (8 * i) 8 : Nat)
    BitVec.ofInt 8 (if bit mask i then clampI 0 255 (v + delta) else v))

/-- The read-retry entry that operation `o` sends: bytes 0 to 3 low, 4 to 7 high, offset in step 3 (R211, R214, R236). -/
def Dev.entryOf (d : Dev) (o : FlashOp) : Nat :=
  let e := ((d.bmap (pfaBay o.pfa)).retry[o.rt]?).getD 0
  let delta : Int := (d.get pgFint FINT_RETRY_SOFT_DELTA : Nat)
  let mask := d.get pgFint FINT_RETRY_SOFT_MASK
  match o.soft with
  | 0 => e
  | 1 => softEntry e mask (-delta)
  | _ => softEntry e mask delta

/-- An operation as it would begin now: a verify read takes the learned entry (R210, R215), a read in need of another entry is
preceded by SET_RETRY (R212), and one page directly behind another of its block takes the cache form: a read whose work was already
queued when the page before it was read, a program with the next page's behind it (R182). -/
def Dev.prepare (d : Dev) (k : Nat) (o : FlashOp) : FlashOp :=
  let b := pfaBay o.pfa
  let o := if o.kind == .verify then { o with rt := tabGet (fun _ => 0) (d.bmap b).learned (d.pfaDie o.pfa), soft := 0 } else o
  let reads := o.kind == .read || o.kind == .verify
  let o := { o with pre := reads && d.slotStart b 19 != 0 && tabGet (fun _ => 0) (d.bmap b).inForce (lunKey o.pfa) != o.entry }
  let follows := (d.chan k).lastRead.any fun x => x.1 == lunBit o.pfa && x.2.1 + 2 ^ 16 == o.pfa && decide (o.queuedAt ≤ x.2.2)
  let more := (d.chan k).ops.any fun x => x.kind == .program && x.stage == .queued && x.planes.isEmpty && x.pfa == o.pfa + 2 ^ 16
  if o.kind == .read && o.slot == 0 && !o.pre && follows && d.slotStart b 2 != 0 then { o with slot := 2 }
  else if o.kind == .program && o.slot == 3 && more && d.slotStart b 5 != 0 then { o with slot := 5 }
  else o

/-! ### The Grain plan (R175 to R183) -/

/-- The class of an operation in Grain `now` (R178): Held programs and their verify reads rise to class 2. -/
def FlashOp.cls2 (o : FlashOp) (urgent : Bool) (age now : Nat) : Nat :=
  if o.held && (urgent || age ≤ now - o.queuedAt) then 2 else o.cls

/-- Candidates of a plan: class, order, target and LUN, operation, is it a poll. -/
structure Cand where
  cls : Nat
  order : Nat
  lun : Nat
  op : FlashOp
  poll : Bool
deriving DecidableEq, Repr

/-- Does a candidate come before another (R178)? -/
def Cand.before (a b : Cand) : Bool :=
  a.cls < b.cls || (a.cls == b.cls && (a.order < b.order || (a.order == b.order && a.lun < b.lun)))

def insCand (c : Cand) : List Cand → List Cand
  | [] => [c]
  | x :: l => if c.before x then c :: x :: l else x :: insCand c l

/-- Is a LUN of the channel's operations taken by another operation's array time or bus item (R183)? An operation suspended there lets
only class 3 reads through (R184). -/
def lunTaken (ops : List FlashOp) (o : FlashOp) : Bool :=
  let passes := o.kind == .suspend || o.kind == .resume || o.kind == .reset || o.kind == .poll
  !passes && ops.any fun x => x.id != o.id && lunBit x.pfa == lunBit o.pfa &&
    (x.stage == .onBus || x.stage == .yielded || (x.stage == .suspended && !(o.kind == .read && o.cls == 3)))

/-- Is a suspend of operation `id` on its way? -/
def suspending (ops : List FlashOp) (id : Nat) : Bool := ops.any fun x => x.kind == .suspend && x.target == id && x.stage != .queued

/-- Does a read wait only for a suspend that the next plan polls? It then follows that poll in the same plan (R178). -/
def behindSuspend (ops : List FlashOp) (due : FlashOp → Bool) (o : FlashOp) : Bool :=
  o.kind == .read && o.cls == 3 && ops.any fun x => x.kind == .suspend && lunBit x.pfa == lunBit o.pfa && due x

/-- May a manual operation of FCH16 be planned (R200)? On a bay in FAULT its supply must have settled. -/
def Dev.manualReady (d : Dev) (o : FlashOp) : Bool :=
  let b := pfaBay o.pfa
  if d.bayState b == 9 then
    match (d.bay b).manualPower with
    | some p =>
      match p.goodAt with
      | some g => decide (g + d.get (pgBay b) BAY_PWR_CFG_SETTLE_G ≤ d.gtime)
      | none => false
    | none => false
  else true

/-- The ps of channel `k`'s bus that carry over into the next Grain (R175). -/
def Channel.carryPs (c : Channel) : Nat := c.planPs - 4000000

/-- May FCH16 take channel `k`'s PHY at the next edge: has the channel no item in progress or carried over (R200)? -/
def Dev.phyIdle (d : Dev) (k : Nat) : Bool := (d.chan k).current.isNone && (d.chan k).plan.isEmpty && (d.chan k).carryPs == 0

/-- Does FCH16 hold channel `k`'s PHY for a manual operation, or take it at the next edge (R200)? -/
def Dev.phyTaken (d : Dev) (k : Nat) : Bool :=
  k != 16 && (d.chan 16).ops.any fun o => o.kind == .manual && pfaPhys o.pfa == k
    && (o.stage != .queued || ((d.chan 16).plan ++ (d.chan 16).next).any (·.1 == o.id))

/-- The element page (bay, stripe, row, element). -/
def Dev.pageOfOp (d : Dev) (pg : Nat × Nat × Nat × Nat) : Option ElemPage :=
  (((d.bmap pg.1).stripes.find? (·.id == pg.2.1)).bind fun x => x.rows.find? (·.row == pg.2.2.1)).bind fun r =>
    r.pages.find? (·.element == pg.2.2.2)

/-- Does a program wait for a staging FIFO whose drain has stopped (R146)? -/
def Dev.drainWaits (d : Dev) (o : FlashOp) : Bool :=
  o.kind == .program && ((o.page.bind d.pageOfOp).map fun p => p.cws.any fun c => c.kind == 1 &&
    ((d.task c.lsn).map fun t => !t.settled && (d.fifo t.fifo).drainStopped).getD false).getD false

/-- The candidates of channel `k` for the plan of the next Grain, in their order (R177, R178). `rb` are the targets whose
RB_N is low, by channel and chip enable. While the commit runs only its LUN resets and the polls of programs that run to their end are planned
(R126, R178, R181). From PREPARE class 5 is not planned, behind AGREE nothing new (R448, R451). -/
def Dev.candidates (vis d : Dev) (k rb : Nat) : List Cand :=
  let c := d.chan k
  let urgent := vis.flag pgFsch FSCH_STAT_URGENT
  let age := d.get pgFsch FSCH_AGE_PROG_AGE_G
  let run := d.flag pgFsch FSCH_CTL_RUN
  let loss := vis.flag pgRsv RSV_STAT_PF || d.flag pgRsv RSV_STAT_PF
  let due (o : FlashOp) : Bool := o.stage == .yielded && decide (o.due ≤ d.gtime + 1) && !bit rb (4 * pfaPhys o.pfa + pfaCe o.pfa)
    && !suspending c.ops o.id
  ((c.ops.filter fun o => !c.plan.any (·.1 == o.id)).filterMap fun o =>
    match o.stage with
    | .yielded => if due o && (!loss || o.kind == .program) then some (Cand.mk 1 0 (lunBit o.pfa) o true) else none
    | .queued =>
      let cls := o.cls2 urgent age d.gtime
      let kept := d.slotStart (pfaBay o.pfa) o.slot = 0 || (lunTaken c.ops o && !behindSuspend c.ops due o) || (1 < cls && !run)
        || ((cls == 5 || o.kind == .suspend) && urgent) || (cls == 5 && vis.preparing (pgFch k)) || vis.agreed (pgFch k) || (loss && o.kind != .reset) || d.drainWaits o
        || (k == 16 && (!d.phyIdle (pfaPhys o.pfa) || !d.manualReady o))
      if kept then none else some (Cand.mk cls (if o.held then 2 * o.order + o.pri else o.queuedAt) (lunBit o.pfa) (d.prepare k o) false)
    | .onBus | .suspended => none).foldl (fun l x => insCand x l) []

/-- Admit candidates to the plan, from `t` ps behind the edge: each starts no later than `start`, one item per LUN but for a read behind
the poll of a suspend, class 5 within its share `left` (R176, R178). Answers the plan and the ps at which the bus is free. -/
def Dev.admitItems (d : Dev) (start : Nat) (left : FlashOp → Nat) (others : Bool) :
    List Cand → Nat → Nat → List Nat → List (Nat × Bool) × Nat
  | [], t, _, _ => ([], t)
  | x :: l, t, bg, luns =>
    let ps := if x.poll then d.pollPs x.op else d.startPs x.op
    if start < t || luns.contains x.lun || (x.cls == 5 && others && left x.op < bg + ps) then
      d.admitItems start left others l t bg luns
    else
      let luns := if x.op.kind == .suspend && x.poll then luns else x.lun :: luns
      let r := d.admitItems start left others l (t + ps) (if x.cls == 5 then bg + ps else bg) luns
      ((x.op.id, x.poll) :: r.1, r.2)

/-- Can queued read `x` join queued read `o` of the same LUN, PAGE, class and retry entry (R182)? -/
def joinable (o x : FlashOp) : Bool :=
  x.kind == .read && x.stage == .queued && x.planes.isEmpty && x.cls == o.cls && x.entry == o.entry && x.slot == 0
    && lunBit x.pfa == lunBit o.pfa && pfaPage x.pfa == pfaPage o.pfa

/-- Join queued reads into the first of them: those of one page, and with `mp` those of blocks in distinct planes, `pl` at most
(R182). Operations of the present plan stay as they are. -/
def joinReads (pl : Nat) (mp : Bool) (planned : Nat → Bool) : Nat → List FlashOp → List FlashOp
  | 0, l => l
  | _, [] => []
  | n + 1, o :: l =>
    if o.kind != .read || o.stage != .queued || 1 < o.slot || planned o.id then o :: joinReads pl mp planned n l
    else
      let r := l.foldl (fun (acc : FlashOp × List FlashOp) x =>
        let o := acc.1
        let pfas := o.pfa :: o.planes
        if planned x.id || !joinable o x then (o, acc.2 ++ [x])
        else if pfas.contains x.pfa then ({ o with acc := o.acc ++ x.acc }, acc.2)
        else if mp && pfas.length < pl && pfas.all fun p => pfaBlock p % pl != pfaBlock x.pfa % pl then
          ({ o with slot := 1, planes := o.planes ++ [x.pfa], acc := o.acc ++ x.acc }, acc.2)
        else (o, acc.2 ++ [x])) (o, [])
      r.1 :: joinReads pl mp planned n r.2

/-- The class 5 share of bus time in ps that channel `k` has left in this Stone for operation `o` (R178, R227). -/
def Dev.bgLeft (d : Dev) (k : Nat) (o : FlashOp) : Nat :=
  let bg := min 100 (d.get pgFsch FSCH_AGE_BG_PCT)
  let pct := if o.rebuilt then max bg (min 100 (d.get (pgFstr (pfaBay o.pfa)) FSTR_CFG_REBUILD_PCT)) else bg
  pct * 10240000 - (d.chan k).bgPs

/-- The scheduler of channel `k` plans the bus items of the next Grain, behind what carries over (R175). -/
def Dev.planChannel (rb : Nat) (vis d : Dev) (k : Nat) : Dev :=
  let c := d.chan k
  if c.ops.isEmpty && c.planPs = 0 then d
  else if c.isolated || c.disabled || d.phyTaken k then d.updChan k fun c => { c with next := [], nextPs := c.carryPs }
  else
    let b := k / 4
    let mp := decide (b < 4) && d.slotStart b 1 != 0
    let d := d.updChan k fun c =>
      { c with ops := joinReads (min 4 (2 ^ d.get (pgBay b) BAY_GEOM0_PLANES_LOG2)) mp (fun id => c.plan.any (·.1 == id)) c.ops.length c.ops }
    let cs := Dev.candidates vis d k rb
    let others := cs.any fun x => 2 ≤ x.cls && x.cls ≤ 4
    let start := min 3999 (d.get pgFsch FSCH_BUDGET_START_NS) * 1000
    let r := d.admitItems start (d.bgLeft k) others cs c.carryPs 0 []
    let d := d.updChan k fun c => { c with next := r.1, nextPs := r.2 }
    if cs.any fun x => x.op.kind == .manual && r.1.contains (x.op.id, false) then d.setB (pgFch k) SEQ_CTL_GO false else d

/-- All seventeen schedulers plan, FCH16 first: it takes a channel's PHY for a manual operation (R175, R200). -/
def Dev.flashPlan (rb : Nat) (vis d : Dev) : Dev := (16 :: List.range 16).foldl (Dev.planChannel rb vis) d

/-- The edge commits the plans (R175). -/
def Dev.flashEdge (d : Dev) : Dev :=
  { d with fls := { d.fls with chans := d.fls.chans.map fun c =>
      { c with plan := c.plan ++ c.next, next := [], planPs := c.nextPs, nextPs := 0 } } }

/-! ### Bus items and recipe instructions (R172, R175) -/

/-- Channel `k`'s bus is busy for `ps` with operation `o`; the time counts for the Stone, and for class 5's share (R178, R201). -/
def Dev.busTime (d : Dev) (k : Nat) (o : FlashOp) (ps : Nat) : Dev :=
  d.updChan k fun c => { c with busyPs := c.busyPs + ps, bgPs := if o.cls == 5 then c.bgPs + ps else c.bgPs }

/-- Put bus cycles on channel `k`. -/
def Dev.emit (d : Dev) (k : Nat) (l : List BusCycle) : Dev := d.updChan k fun c => { c with out := c.out ++ l }

/-- The target of `o` is selected: its CE_N goes low and its setup is held (R165, R167). -/
def Dev.selectCe (d : Dev) (k : Nat) (o : FlashOp) : Dev :=
  d.updChan k fun c => { c with ce := some (pfaCe o.pfa), out := [.select (pfaCe o.pfa), .idle (d.setupCk (pfaPhys o.pfa) (d.opRate o))] }

/-- FLASH_BUS_ITEM: the first item of channel `k`'s plan begins once the bus is free; a poll is LUN_POLL's. An item behind the poll of a
suspend that was not ready waits for another plan, and one whose address is out of range fails (R170). -/
def Dev.beginItem (d : Dev) (k : Nat) (o : FlashOp) : Dev :=
  let o := d.prepare k o
  let d := d.updChan k fun c => { c with plan := c.plan.drop 1 }
  if lunTaken (d.chan k).ops o then d
  else if !(o.pfa :: o.planes).all d.pfaOk then d.endOp k o 3
  else
    let d := match o.kind with
      | .suspend => d.updOp k o.target fun t => { t with susp := t.susp + 1, suspAt := d.gtime }
      | .resume => d.updOp k o.target fun t =>
        { t with started := t.started + (d.gtime - t.suspAt), due := t.due + (d.gtime - t.suspAt) }
      | .read | .program | .verify | .erase | .reset | .poll | .manual => d
    let read := if o.kind == .read then [(lunBit o.pfa, o.pfa, d.gtime)] else []
    let d := (d.busTime k o (d.startPs o)).updChan k fun c =>
      { c with current := some o.id, lastRead := c.lastRead.filter (·.1 != lunBit o.pfa) ++ read }
    (d.selectCe k o).updOp k o.id fun x =>
      { o with id := x.id, stage := .onBus, plane := 0, pc := d.firstWord o }

def execFlashBusItem (k : Fin 17) (s : State) : Host.Outcome State Fault Refusal :=
  .next (s.noting (.cmd (.flashBusItem k)) fun s => s.dec fun _ d =>
    if (d.chan k).current.isSome then d
    else
      match (d.chan k).plan with
      | (id, false) :: _ =>
        match d.op k id with
        | some o => d.beginItem k o
        | none => d.updChan k fun c => { c with plan := c.plan.drop 1 }
      | _ => d)

/-- The operation on channel `k`'s bus and the instruction word at its pc, if its OP is `opc`. -/
def Dev.instr (d : Dev) (k : Nat) (opc : Nat → Bool) : Option (FlashOp × Nat) :=
  match (d.chan k).current with
  | some id =>
    match d.op k id with
    | some o =>
      let w := (d.recipeWord (pfaBay o.pfa) o.pc).toNat
      if opc (bits w 28 4) then some (o, w) else none
    | none => none
  | none => none

/-- Go on at the next word. -/
def Dev.nextWord (d : Dev) (k : Nat) (o : FlashOp) : Dev := d.updOp k o.id fun o => { o with pc := o.pc + 1 }

/-- One recipe instruction of OP `opc` on channel `k`: nothing where another instruction stands at the pc. -/
def rcpStep (k opc : Nat) (f : Dev → FlashOp → Nat → Dev) (s : State) : State :=
  s.dec fun _ d =>
    match d.instr k (· == opc) with
    | some (o, w) => f d o w
    | none => d

/-- RCP_END: the operation is complete; behind SET_RETRY the entry is in force and the read itself follows (R212). -/
def execRcpEnd (k : Fin 17) (s : State) : Host.Outcome State Fault Refusal :=
  .next (s.noting (.cmd (.rcpEnd k)) (rcpStep k 0 (fun d o _ =>
    match d.endNext o with
    | some a => (d.setInForce o.pfa o.entry).updOp k o.id fun o => { o with pre := false, plane := 0, pc := a }
    | none => d.endOp k o 0)))

/-- RCP_CMD. -/
def execRcpCmd (k : Fin 17) (s : State) : Host.Outcome State Fault Refusal :=
  .next (s.noting (.cmd (.rcpCmd k)) (rcpStep k 1 (fun d o w => (d.emit k [.cmd (bits w 0 8)]).nextWord k o)))

/-- The address bytes that an ADDR word `w` sends: column, row, both, or an immediate byte (R172). -/
def Dev.addrBytes (d : Dev) (o : FlashOp) (w : Nat) : List Nat :=
  match bits w 26 2 with
  | 0 => d.colBytes o.at
  | 1 => d.rowBytes o.at
  | 2 => d.colBytes o.at ++ d.rowBytes o.at
  | _ => [bits w 0 8]

/-- RCP_ADDR. -/
def execRcpAddr (k : Fin 17) (s : State) : Host.Outcome State Fault Refusal :=
  .next (s.noting (.cmd (.rcpAddr k)) (rcpStep k 2 (fun d o w => (d.emit k ((d.addrBytes o w).map .addr)).nextWord k o)))

/-- The codewords of plane `i` of an element page, each with its number in the page (R216). -/
def planeCws (cw i : Nat) (p : ElemPage) : List (Codeword × Nat) := (p.cws.zipIdx.drop (i * cw)).take cw

/-- The 4,608 bytes of each codeword of plane `i` of an element page of bay `b` (R202, R206). -/
def Dev.planeBytes (d : Dev) (b i : Nat) (p : ElemPage) : List Byte :=
  (planeCws (d.get (pgBay b) BAY_GEOM0_PAGE_CW) i p).flatMap fun x =>
    x.1.image (d.flag pgFint FINT_CTL_RAND_EN) (nthD p.rows i 0) x.2 p.die

/-- A program's data input reads the words of its codewords from staging (R142). -/
def Dev.drainPlane (d : Dev) (b i : Nat) (p : ElemPage) : Dev :=
  (planeCws (d.get (pgBay b) BAY_GEOM0_PAGE_CW) i p).foldl (fun d x =>
    match d.task x.1.lsn with
    | some t => if x.1.kind == 1 && t.opc == .append then d.drain t.fifo t.lsn (x.1.offset + x.1.valid - t.offset) else d
    | none => d) d

/-- `n` bytes that the spec leaves open (notes/assumptions/5.md). -/
def Dev.freeBytes : Nat → Dev → List Byte × Dev
  | 0, d => ([], d)
  | n + 1, d => let r := d.free; let q := Dev.freeBytes n r.2; (r.1.setWidth 8 :: q.1, q.2)

/-- RCP_DIN: a burst from the data stream, which carries the element page's codewords as they are coded, or from the manual buffer.
What stands behind the end of either is open (notes/assumptions/5.md). -/
def execRcpDin (k : Fin 17) (s : State) : Host.Outcome State Fault Refusal :=
  .next (s.noting (.cmd (.rcpDin k)) (rcpStep k 3 (fun d o w =>
    let b := pfaBay o.pfa
    let n := d.burst b (bits w 0 16)
    let page := (if bit w 27 then none else o.page).bind d.pageOfOp
    let l := match page with
      | some p => (d.planeBytes b o.plane p).take n
      | none => if bit w 27 then memRead d.mem o.buf (min n o.len) else []
    let r := Dev.freeBytes (n - l.length) d
    let d := (r.2.emit k [.dataIn (l ++ r.1)]).nextWord k o
    match page with
    | some p => d.drainPlane b o.plane p
    | none => d)))

/-- RCP_DOUT: the flash puts out `data`, to the decoder or into the manual buffer. -/
def execRcpDout (k : Fin 17) (data : List Byte) (s : State) : Host.Outcome State Fault Refusal :=
  .next (s.noting (.cmd (.rcpDout k data)) (rcpStep k 4 (fun d o w =>
    let n := d.burst (pfaBay o.pfa) (bits w 0 16)
    let d := (d.emit k [.dataOut n]).nextWord k o
    if bit w 27 then d.memW o.buf (data.take (min n o.len)) else d)))

/-- RCP_WAIT: the bus idles for the parameter and the added ns, in whole bus clock cycles (R167). -/
def execRcpWait (k : Fin 17) (s : State) : Host.Outcome State Fault Refusal :=
  .next (s.noting (.cmd (.rcpWait k)) (rcpStep k 5 (fun d o w =>
    (d.emit k [.idle (d.waitCk (pfaPhys o.pfa) (d.opRate o) w)]).nextWord k o)))

/-- The array-time limit that an expected-time code names (R201); one Grain has none. -/
def Dev.limitOf (d : Dev) (k e : Nat) : Option Nat :=
  match e with
  | 0 => some (d.get (pgFch k) FCH_ATO1_TR_G)
  | 1 => some (d.get (pgFch k) FCH_ATO0_TPROG_G)
  | 2 => some (d.get (pgFch k) FCH_ATO0_TBERS_G)
  | 3 => some (d.get (pgFch k) FCH_ATO1_TSUSP_G)
  | _ => none

/-- The expected time: half the limit, or one Grain (R172, R177). -/
def Dev.expectOf (d : Dev) (k e : Nat) : Nat :=
  match d.limitOf k e with
  | some n => n / 2
  | none => 1

/-- The bus item ends and the operation waits for its array; `fresh`: a new array time begins (R172, R180). A plane set is at its
first plane again. -/
def Dev.yieldOp (d : Dev) (k : Nat) (o : FlashOp) (e pc : Nat) (fresh : Bool) : Dev :=
  let d := d.updOp k o.id fun o =>
    { o with stage := .yielded, expect := e, pc := pc, plane := 0, due := d.gtime + d.expectOf (pfaPhys o.pfa) e
             started := if fresh then d.gtime else o.started }
  d.updChan k fun c => { c with current := none, ce := none }

/-- RCP_YIELD. -/
def execRcpYield (k : Fin 17) (s : State) : Host.Outcome State Fault Refusal :=
  .next (s.noting (.cmd (.rcpYield k)) (rcpStep k 6 (fun d o w => d.yieldOp k o (bits w 16 4) (o.pc + 1) true)))

/-- The bus cycles of a STATUS word `w` (R172). -/
def Dev.statusCycles (d : Dev) (o : FlashOp) (w : Nat) : List BusCycle :=
  if bit w 27 then [.cmd 0x70, .dataOut 1] else [.cmd 0x78] ++ (d.rowBytes o.at).map .addr ++ [.dataOut 1]

/-- RCP_STATUS: the status byte read is `b`. Not ready: yields again; a fail-mask bit: the operation fails with STATUS. The poll of a
LUN at a takeover reads it and no more (R197). -/
def execRcpStatus (k : Fin 17) (b : Byte) (s : State) : Host.Outcome State Fault Refusal :=
  .next (s.noting (.cmd (.rcpStatus k b)) (rcpStep k 7 (fun d o w =>
    let d := (d.emit k (d.statusCycles o w)).put (pgFch k) SEQ_STAT_STATUS_BYTE b.toNat
    if o.kind == .poll then d.nextWord k o
    else if b.toNat &&& bits w 8 8 != bits w 8 8 then d.yieldOp k o o.expect o.pc false
    else if b.toNat &&& bits w 0 8 != 0 then d.endOp k o 1
    else d.nextWord k o)))

/-- RCP_DATA. -/
def execRcpData (k : Fin 17) (s : State) : Host.Outcome State Fault Refusal :=
  .next (s.noting (.cmd (.rcpData k)) (rcpStep k 8 (fun d o w => (d.emit k [.dataByte (bits w 0 8)]).nextWord k o)))

/-- RCP_PLANE: one command byte; after a plane that is not last, the next plane of the set from the target word. -/
def execRcpPlane (k : Fin 17) (s : State) : Host.Outcome State Fault Refusal :=
  .next (s.noting (.cmd (.rcpPlane k)) (rcpStep k 9 (fun d o w =>
    if o.plane < o.planes.length then
      (d.emit k [.cmd (bits w 8 8)]).updOp k o.id fun o => { o with plane := o.plane + 1, pc := bits w 16 9 }
    else (d.emit k [.cmd (bits w 0 8)]).nextWord k o)))

/-- RCP_RTDATA: one byte of the read-retry entry in force for the operation (R172, R214). -/
def execRcpRtdata (k : Fin 17) (s : State) : Host.Outcome State Fault Refusal :=
  .next (s.noting (.cmd (.rcpRtdata k)) (rcpStep k 10 (fun d o w => (d.emit k [.dataByte (bits (d.entryOf o) (8 * bits w 0 3) 8)]).nextWord k o)))

/-- RCP_NOP. -/
def execRcpNop (k : Fin 17) (s : State) : Host.Outcome State Fault Refusal := .next (s.noting (.cmd (.rcpNop k)) (rcpStep k 15 (fun d o _ => d.nextWord k o)))

/-- RCP_BAD_OP: ops 0xB to 0xE are reserved. -/
def execRcpBadOp (k : Fin 17) (s : State) : Host.Outcome State Fault Refusal :=
  .next (s.noting (.cmd (.rcpBadOp k)) fun s => s.dec fun _ d =>
    match d.instr k (fun x => 11 ≤ x && x ≤ 14) with
    | some (o, _) => d.endOp k o 4
    | none => d)

/-! ### Polls, time-outs, suspends (R177, R180, R184, R185) -/

/-- What slot 8's recipe puts on the bus for operation `o`, and the ready mask of its STATUS; RDY and ARDY where it has none. -/
def Dev.pollForm (d : Dev) (o : FlashOp) : Nat → Nat → List BusCycle × Nat
  | 0, _ => ([], 0x60)
  | n + 1, pc =>
    let w := (d.recipeWord (pfaBay o.pfa) pc).toNat
    let rest := d.pollForm o n (pc + 1)
    match bits w 28 4 with
    | 0 => ([], 0x60)
    | 1 => (.cmd (bits w 0 8) :: rest.1, rest.2)
    | 2 => ((d.addrBytes o w).map .addr ++ rest.1, rest.2)
    | 4 => (.dataOut (d.burst (pfaBay o.pfa) (bits w 0 16)) :: rest.1, rest.2)
    | 5 => (.idle (d.waitCk (pfaPhys o.pfa) (d.opRate o) w) :: rest.1, rest.2)
    | 7 => (d.statusCycles o w, bits w 8 8)
    | 8 => (.dataByte (bits w 0 8) :: rest.1, rest.2)
    | _ => rest

/-- Slot 8's form for operation `o`. -/
def Dev.pollOf (d : Dev) (o : FlashOp) : List BusCycle × Nat := d.pollForm o 64 (d.slotStart (pfaBay o.pfa) 8)

/-- Does status `b` show operation `o`'s LUN ready (R177)? -/
def Dev.ready (d : Dev) (o : FlashOp) (b : Byte) : Bool := b.toNat &&& (d.pollOf o).2 == (d.pollOf o).2

/-- The items of a plan that start no later than `start`, the first of them at `t`, and the end of the last. -/
def Dev.inTime (d : Dev) (k start : Nat) : Nat → List (Nat × Bool) → List (Nat × Bool) × Nat
  | t, [] => ([], t)
  | t, x :: l =>
    match d.op k x.1 with
    | some o =>
      if start < t then d.inTime k start t l
      else
        let r := d.inTime k start (t + if x.2 then d.pollPs o else d.startPs (d.prepare k o)) l
        (x :: r.1, r.2)
    | none => d.inTime k start t l

/-- A ready poll resumes its recipe in the same plan, directly behind the poll (R177). The items behind it start later by its bus
time; one that would start later than START_NS waits for another plan (R176; DEDUCED, notes/assumptions/63.md). -/
def Dev.resumeOp (d : Dev) (k : Nat) (o : FlashOp) : Dev :=
  let ps := d.resumePs o
  let c := d.chan k
  let left := (c.plan.map fun x => match d.op k x.1 with
    | some y => if x.2 then d.pollPs y else d.startPs (d.prepare k y)
    | none => 0).sum
  let r := d.inTime k (min 3999 (d.get pgFsch FSCH_BUDGET_START_NS) * 1000) (c.planPs - left + ps) c.plan
  let d := (d.busTime k o ps).updChan k fun c => { c with plan := r.1, planPs := r.2, current := some o.id, ce := some (pfaCe o.pfa) }
  d.updOp k o.id fun o => { o with stage := .onBus }

/-- LUN_POLL: the poll at the head of channel `k`'s plan reads status `b`; ready resumes the recipe directly, else it is
polled again in the next Grain. -/
def execLunPoll (k : Fin 17) (b : Byte) (s : State) : Host.Outcome State Fault Refusal :=
  .next (s.noting (.cmd (.lunPoll k b)) fun s => s.dec fun _ d =>
    if (d.chan k).current.isSome then d
    else
      match (d.chan k).plan with
      | (id, true) :: _ =>
        let d := d.updChan k fun c => { c with plan := c.plan.drop 1 }
        match d.op k id with
        | some o =>
          let d := (((d.busTime k o (d.pollPs o)).selectCe k o).emit k (d.pollOf o).1).put (pgFch k) SEQ_STAT_STATUS_BYTE b.toNat
          if d.ready o b then d.resumeOp k o
          else (d.updOp k id fun o => { o with due := d.gtime + 1 }).updChan k fun c => { c with ce := none }
        | none => d
      | _ => d)

/-- The operation has timed out (R180): TIMEOUT, RESET_LUN, its record, and the time-outs of its LUN counted. -/
def Dev.timeOut (d : Dev) (k : Nat) (o : FlashOp) : Dev :=
  let n := tabGet (fun _ => 0) (d.chan (pfaPhys o.pfa)).touts (lunBit o.pfa)
  let d := (d.endOp k o 2).updChan (pfaPhys o.pfa) fun c => { c with touts := tabSet (fun _ => 0) c.touts (lunBit o.pfa) (n + 1) }
  (((d.queueReset k o.pfa).irq (pgFch k) FCH_IRQ_TIMEOUT).fault (pgFch k) 0x0401 false false
    [lunBit o.pfa, o.slot]).lunStat k

/-- ARRAY_TIMEOUT of operation `id`; a ready poll of the same Grain has won (R35, R180). -/
def execArrayTimeout (k : Fin 17) (id : Nat) (s : State) : Host.Outcome State Fault Refusal :=
  .next (s.noting (.cmd (.arrayTimeout k id)) fun s => s.dec fun _ d =>
    match d.op k id with
    | some o =>
      match d.limitOf (pfaPhys o.pfa) o.expect with
      | some n => if o.stage == .yielded && o.kind != .suspend && o.started + n < d.gtime then d.timeOut k o else d
      | none => d
    | none => d)

/-- The slots that suspend and resume operation `o` (R173). -/
def suspendSlots (o : FlashOp) : Option (Nat × Nat) :=
  match o.kind with
  | .program => some (15, 16)
  | .erase => some (17, 18)
  | .read | .verify | .suspend | .resume | .reset | .poll | .manual => none

/-- The class 3 reads of the LUN of `o` that have not ended. -/
def Dev.readsFor (d : Dev) (k : Nat) (o : FlashOp) : List FlashOp :=
  (d.chan k).ops.filter fun x => x.kind == .read && x.cls == 3 && lunBit x.pfa == lunBit o.pfa

/-- SUSPEND_WAIT_EXPIRY: the program or erase `id` is suspended for a read that has waited (R184). -/
def execSuspendWaitExpiry (k : Fin 17) (id : Nat) (s : State) : Host.Outcome State Fault Refusal :=
  .next (s.noting (.cmd (.suspendWaitExpiry k id)) fun s => s.dec fun vis d =>
    match d.op k id with
    | some o =>
      match suspendSlots o with
      | some (a, z) =>
        let b := pfaBay o.pfa
        let wait := d.get (pgFch k) FCH_SUSP_SUSP_WAIT_G
        if o.stage == .yielded && d.slotStart b a != 0 && d.slotStart b z != 0 && !vis.flag pgFsch FSCH_STAT_URGENT
            && o.susp < d.get (pgFch k) FCH_SUSP_MAX_SUSP
            && (d.readsFor k o).any (fun r => r.stage == .queued && decide (r.queuedAt + wait ≤ d.gtime + 1))
            && !(d.chan k).ops.any (fun x => x.kind == .suspend && x.target == id) then
          d.queueOp k { id := 0, kind := .suspend, slot := a, pfa := o.pfa, cls := 3, target := id }
        else d
      | none => d
    | none => d)

/-- SUSPEND_TIMEOUT: suspend `id` not ready within TSUSP_G; status `b` tells whether the operation has finished (R185). -/
def execSuspendTimeout (k : Fin 17) (id : Nat) (b : Byte) (s : State) : Host.Outcome State Fault Refusal :=
  .next (s.noting (.cmd (.suspendTimeout k id b)) fun s => s.dec fun _ d =>
    match d.op k id with
    | some o =>
      if o.kind != .suspend || o.stage != .yielded || d.gtime < o.started + d.get (pgFch k) FCH_ATO1_TSUSP_G then d
      else
        match d.op k o.target with
        | some t =>
          let d := d.dropOp k id
          if d.ready o b then d.endOp k t (b2n (bit b.toNat 0)) else d.timeOut k t
        | none => d.dropOp k id
    | none => d)

/-- OPERATION_RESUME: no class 3 read of the LUN of the suspended operation `id` is left (R184). -/
def execOperationResume (k : Fin 17) (id : Nat) (s : State) : Host.Outcome State Fault Refusal :=
  .next (s.noting (.cmd (.operationResume k id)) fun s => s.dec fun _ d =>
    match d.op k id with
    | some o =>
      match suspendSlots o with
      | some (_, z) =>
        if o.stage == .suspended && (d.readsFor k o).isEmpty
            && !(d.chan k).ops.any (fun x => x.kind == .resume && x.target == id) then
          d.queueOp k { id := 0, kind := .resume, slot := z, pfa := o.pfa, cls := 1, target := id }
        else d
      | none => d
    | none => d)

/-! ### Training and identification (R168, R186, R187) -/

/-- Identification has failed with `code` (R187). -/
def Dev.identFail (d : Dev) (b code : Nat) : Dev :=
  ((d.put (pgBay b) BAY_STAT_IDENT_CODE code).setBay b 9).fault (pgBay b) 0x0402 false false [code]

/-- PHY_TRAIN: the eyes of channel `k` in percent of the bit time and the DQS phase (R168). -/
def execPhyTrain (k : Fin 17) (wr rd ph : Byte) (s : State) : Host.Outcome State Fault Refusal :=
  .next (s.noting (.cmd (.phyTrain k wr rd ph)) fun s => s.dec fun _ d =>
    let p := pgFch k
    if d.get p FCH_PHY_CFG_MODE == 0 then d
    else
      let ok := decide (30 ≤ wr.toNat) && decide (30 ≤ rd.toNat)
      let d := (((d.setB p FCH_TRAIN_TRAINED ok).put p FCH_TRAIN_WR_EYE_PCT wr.toNat).put p FCH_TRAIN_RD_EYE_PCT
        rd.toNat).put p FCH_TRAIN_DQS_PH ph.toNat
      let d := d.updChan k fun c => { c with trainedPh := ph.toNat }
      if !ok && k.val < 16 && d.bayState (k.val / 4) == 3 then d.identFail (k.val / 4) 6 else d)

/-- One byte into the CRC-16 of a parameter page: polynomial 0x8005, high bit first (R186). -/
def crc16Bits : Nat → Nat → Nat
  | 0, c => c
  | n + 1, c => crc16Bits n (if bit c 15 then (c * 2) % 2 ^ 16 ^^^ 0x8005 else (c * 2) % 2 ^ 16)

def crc16 (l : List Byte) : Nat := l.foldl (fun c b => crc16Bits 8 (c ^^^ b.toNat * 256)) 0x4F4E

/-- Is a copy of the parameter page good (R186)? Bytes 254 and 255 hold the CRC low byte first. -/
def goodCopy (c : ParamCopy) : Bool :=
  c.signature && c.bytes.length == 256 && crc16 (c.bytes.take 254) == leNat (c.bytes.drop 254)

/-- The first good copy among the first three, and its number. -/
def targetCopy (t : Target) : Option (ParamCopy × Nat) :=
  match (t.copies.take 3).findIdx? goodCopy with
  | some i => (t.copies[i]?).map fun c => (c, i)
  | none => none

/-- How a target answers READ_ID at 20h: 1 ONFI, 2 JEDEC, 0 neither; only one whose RB_N rose within 1 ms after power-good, and which
was reset so, is asked (R186). -/
def targetKind (t : Target) : Nat :=
  if !t.rbUs.any (· ≤ 1000) then 0
  else if t.id20.take 4 == [0x4F, 0x4E, 0x46, 0x49] then 1
  else if t.id20.take 5 == [0x4A, 0x45, 0x44, 0x45, 0x43] then 2
  else 0

/-- The geometry of a parameter page, without its array times (R187). -/
def geomShape (g : Geom) : Geom := { g with tR := 0, tProg := 0, tBers := 0 }

/-- The first failing check of R187, or the geometry with the target and copy that gave it; `ts` are the targets that answer. -/
def identCheck (ts : List Target) (trained : Bool) : Nat ⊕ (Geom × Target × Nat) :=
  match ts with
  | [] => .inl 1
  | t :: _ =>
    if ts.any fun t => (targetCopy t).isNone then .inl 2
    else
      match targetCopy t with
      | none => .inl 2
      | some (c, i) =>
        let g := c.geom
        if ts.any fun t => ((targetCopy t).map fun x => geomShape x.1.geom) != some (geomShape g) then .inl 3
        else if g.pageBytes % 4096 != 0 || g.pageBytes < 4096 || 32768 < g.pageBytes then .inl 4
        else if g.spareBytes < 512 * (g.pageBytes / 4096) then .inl 5
        else if !trained then .inl 6
        else .inr (g, t, i)

/-- What channel `k` loads: array-time limits at twice its own page's maxima, its targets and LUNs, and the timing mode and rate that
SET_FEATURE gives its dies (R186, R201). -/
def Dev.loadChannel (d : Dev) (k : Nat) (g : Geom) (ts : List Target) : Dev :=
  let mine := ts.filter fun t => t.chan.val == k % 4
  let ces := mine.foldl (fun n t => n ||| 2 ^ t.ce.val) 0
  let luns := mine.foldl (fun n t => n ||| (2 ^ min 4 g.lunsPerCe - 1) * 2 ^ (4 * t.ce.val)) 0
  let p := pgFch k
  let d := (d.put p FCH_TGT_CE_PRES ces).put p FCH_TGT_LUN_EN luns
  match mine.head?.bind targetCopy with
  | some (c, _) =>
    (((d.put p FCH_ATO0_TBERS_G (2 * c.geom.tBers)).put p FCH_ATO0_TPROG_G (2 * c.geom.tProg)).put p FCH_ATO1_TR_G
      (2 * c.geom.tR)).updChan k fun x => { x with timing := (d.get p FCH_PHY_CFG_MODE, d.get p FCH_PHY_CFG_RATE) }
  | none => d

/-- What the bay loads from the geometry (R186, R201). -/
def Dev.loadGeom (d : Dev) (b : Nat) (g : Geom) (t : Target) (copy : Nat) : Dev :=
  let p := pgBay b
  let d := (((d.put p BAY_GEOM0_PAGES_PER_BLOCK g.pagesPerBlock).put p BAY_GEOM0_PLANES_LOG2 (min 2 g.planesLog2)).put p
    BAY_GEOM0_PAGE_CW (g.pageBytes / 4096)).put p BAY_GEOM0_LUNS_PER_CE_M1 (g.lunsPerCe - 1)
  let d := ((((d.put p BAY_GEOM1_BLOCKS_PER_LUN g.blocksPerLun).put p BAY_GEOM1_BLOCK_BITS g.blockBits).put p
    BAY_GEOM1_PAGE_BITS g.pageBits).put p BAY_GEOM1_ROW_CYCLES g.rowCycles).put p BAY_GEOM1_COL_CYCLES_M1
      (g.colCycles - 1)
  (((d.put p BAY_IDENT_MFR_ID t.mfr).put p BAY_IDENT_DEV_ID t.dev).put p BAY_IDENT_KIND (targetKind t)).put p BAY_IDENT_COPY copy

/-- The commit copies of a bay went with its magazine. -/
def Dev.dropCommits (d : Dev) (b : Nat) : Dev :=
  { d with rsv := { d.rsv with commits := d.rsv.commits.filter (·.bay != b) } }

/-- The bay map that the magazine carries, with its learned entries, or its lack (R213, R229); the retry table is the bay's (R211). -/
def Dev.loadMap (d : Dev) (b : Nat) (m : Option Magazine) : Dev :=
  let p := pgFstr b
  let retry := (d.bmap b).retry
  match m with
  | none =>
    (((((d.updMap b fun _ => { retry := retry }).dropCommits b).setB p FSTR_STAT_BLANK true).setB p FSTR_STAT_MAP_OK false).put p
      FSTR_GEOM 0).put (pgBay b) BAY_FREE 0
  | some m =>
    let n := (List.range 4).foldl (fun n c => n + popcount 16 (d.get (pgFch (4 * b + c)) FCH_TGT_LUN_EN)) 0
    let a : CommitArea := { ready := m.areasReady }
    let d := if m.same then d
      else (d.updMap b fun _ => { areas := Vector.replicate 2 a, learned := m.learned, retry := retry }).dropCommits b
    let d := (((d.setB p FSTR_STAT_BLANK false).setB p FSTR_STAT_MAP_OK true).put p FSTR_GEOM_WIDTH m.width).put p
      FSTR_GEOM_GROUPS (n / m.width)
    let d := ((d.put p FSTR_GEOM_K_SETS m.kSets).put p FSTR_GEOM_FREE_DIES (n % m.width)).put (pgBay b) BAY_FREE
      m.freeStripes
    (d.put64 p FSTR_DEAD_LO FSTR_DEAD_HI m.dead).put64 p FSTR_RO_LO FSTR_RO_HI m.ro

/-- BAY_IDENTIFY: the steps of R186 on bay `b` have ended with these targets; training has passed where every channel that has a target
and a DDR mode has trained. -/
def execBayIdentify (b : Fin 4) (ts : List Target) (m : Option Magazine) (s : State) : Host.Outcome State Fault Refusal :=
  .next (s.noting (.cmd (.bayIdentify b ts m)) fun s => s.dec fun _ d =>
    if d.bayState b != 3 then d
    else
      let ts := ts.filter fun t => targetKind t != 0
      let trained := ts.all fun t => let p := pgFch (4 * b + t.chan)
        d.get p FCH_PHY_CFG_MODE == 0 || d.flag p FCH_TRAIN_TRAINED
      match identCheck ts trained with
      | .inl code => d.identFail b code
      | .inr (g, t, i) =>
        let d := d.loadGeom b g t i
        let d := (List.range 4).foldl (fun d c => d.loadChannel (4 * b + c) g ts) d
        (d.loadMap b m).setBay b 4)

/-! ### Bay transitions (R190 to R195) -/

/-- Are the bay's commit areas prepared, and can it be written (R190, R224)? -/
def Dev.canWrite (d : Dev) (b : Nat) : Bool :=
  d.flag (pgBay b) BAY_CTL_WRITE_EN && !d.flag (pgFstr b) FSTR_STAT_FORMATTING && !d.flag (pgFstr b) FSTR_STAT_BLANK
    && !d.flag (pgFstr b) FSTR_STAT_FULL_RO && !(d.bay b).recovering
    && (d.bmap b).areas.toList.all (fun a => a.ready || a.seq.isSome) && (d.bmap b).areas.toList.any (·.ready)
    && d.slotStart b 20 != 0 && d.slotStart b 21 != 0 && d.slotStart b 22 != 0

/-- Has a RELEASING bay nothing left to do (R190)? -/
def Dev.releaseDone (d : Dev) (b : Nat) : Bool :=
  d.heldIn b == 0 && !(d.ldg.background.any (·.bay == some b)) && (d.bayOps b).isEmpty && (d.bmap b).stripes.all fun x => !x.isOpen

/-- The transitions of R190 that follow from what stands, for bay `b`; `done` allows those out of RELEASING. -/
def Dev.bayDecide (done : Bool) (vis d : Dev) (b : Nat) : Dev :=
  if Dev.baysFrozen vis d then d
  else
    let rel := d.flag (pgBay b) BAY_CTL_RELEASE
    match d.bayState b with
    | 4 => if rel then (if (d.bayOps b).isEmpty then d.setBay b 7 else d) else if d.canWrite b then d.setBay b 5 else d
    | 5 => if rel || !d.flag (pgBay b) BAY_CTL_WRITE_EN then Dev.retarget vis (d.setBay b 6) b false else d
    | 6 => if done && d.releaseDone b then d.setBay b (if rel then 7 else 4) else d
    | 8 | 9 => if rel && (d.bayOps b).isEmpty then d.setBay b 7 else d
    | _ => d

/-- BAY_PRESENCE_LOW: a bay is EMPTY until presence is sampled at step 5 of the start-up (R199, R563). -/
def execBayPresenceLow (b : Fin 4) (s : State) : Host.Outcome State Fault Refusal :=
  .next (s.noting (.cmd (.bayPresenceLow b)) fun s => s.dec fun _ d =>
    let d := d.updBay b fun x => { x with presLow := true, presSince := d.gtime, absentSince := none }
    if d.bayState b == 0 && decide (5 ≤ d.su.step) then d.setBay b 1 else d)

/-- BAY_PRESENCE_HIGH. -/
def execBayPresenceHigh (b : Fin 4) (s : State) : Host.Outcome State Fault Refusal :=
  .next (s.noting (.cmd (.bayPresenceHigh b)) fun s => s.dec fun _ d =>
    let d := d.updBay b fun x => { x with presLow := false, absentSince := some d.gtime }
    if d.bayState b == 1 then d.setBay b 0 else d)

/-- Presence has lasted INS_DEB_G Grains, the one that captured it counted: BAY_STAT.PRESENT is set, and an INSERTING bay goes to POWERING
while ARM is 1 (R190, R201). -/
def Dev.tryPower (d : Dev) (b : Nat) : Dev :=
  let x := d.bay b
  if x.presLow && decide (x.presSince + d.get (pgBay b) BAY_PRES_CFG_INS_DEB_G ≤ d.gtime + 1) then
    let d := d.setB (pgBay b) BAY_STAT_PRESENT true
    if d.bayState b == 1 && d.flag (pgBay b) BAY_CTL_ARM then d.setBay b 2 else d
  else d

/-- INSERT_DEBOUNCE_EXPIRY. -/
def execInsertDebounceExpiry (b : Fin 4) (s : State) : Host.Outcome State Fault Refusal :=
  .next (s.noting (.cmd (.insertDebounceExpiry b)) fun s => s.dec fun _ d => d.tryPower b)

/-- BAY_PGOOD: the supply of a bay that is powered comes into regulation; the settle time starts, for a manual operation's supply too
(R188, R200). -/
def execBayPgood (b : Fin 4) (s : State) : Host.Outcome State Fault Refusal :=
  .next (s.noting (.cmd (.bayPgood b)) fun s => s.dec fun _ d =>
    if !(d.bay b).pwren then d
    else
      (d.setB (pgBay b) BAY_STAT_PGOOD true).updBay b fun x =>
        { x with goodAt := some d.gtime
                 manualPower := x.manualPower.map fun p => { p with goodAt := some d.gtime } })

/-- BAY_SETTLE_EXPIRY. -/
def execBaySettleExpiry (b : Fin 4) (s : State) : Host.Outcome State Fault Refusal :=
  .next (s.noting (.cmd (.baySettleExpiry b)) fun s => s.dec fun _ d =>
    match (d.bay b).goodAt with
    | some g =>
      if d.bayState b == 2 && decide (g + d.get (pgBay b) BAY_PWR_CFG_SETTLE_G ≤ d.gtime) then d.setBay b 3 else d
    | none => d)

/-- BAY_PG_TIMEOUT: no power-good within PG_TO_G; a manual operation ends ABANDONED (R200). -/
def execBayPgTimeout (b : Fin 4) (s : State) : Host.Outcome State Fault Refusal :=
  .next (s.noting (.cmd (.bayPgTimeout b)) fun s => s.dec fun _ d =>
    let x := d.bay b
    let lim := d.get (pgBay b) BAY_PWR_CFG_PG_TO_G
    if d.bayState b == 2 && x.goodAt.isNone && decide (x.since + lim ≤ d.gtime) then d.setBay b 9
    else
      match x.manualPower with
      | some p =>
        if p.goodAt.isNone && decide (p.since + lim ≤ d.gtime) then
          match (d.chan 16).ops.find? fun o => o.kind == .manual && pfaBay o.pfa == b.val with
          | some o => d.endOp 16 o 5
          | none => d
        else d
      | none => d)

/-- BAY_WRITE_EN_WRITE: on a blank READY bay a 1 starts formatting (R190, R229). -/
def execBayWriteEnWrite (b : Fin 4) (on : Bool) (s : State) : Host.Outcome State Fault Refusal :=
  .next (s.noting (.cmd (.bayWriteEnWrite b on)) fun s => s.dec fun vis d =>
    let d := d.setB (pgBay b) BAY_CTL_WRITE_EN on
    let d := if on && d.bayState b == 4 && d.flag (pgFstr b) FSTR_STAT_BLANK then
        (d.setB (pgFstr b) FSTR_STAT_FORMATTING true).updMap b fun m => { m with formatStep := 1 }
      else d
    Dev.bayDecide false vis d b)

/-- BAY_RELEASE: deferred while a main-supply loss is in effect (R194). -/
def execBayRelease (b : Fin 4) (s : State) : Host.Outcome State Fault Refusal :=
  .next (s.noting (.cmd (.bayRelease b)) fun s => s.dec fun vis d => Dev.bayDecide false vis (d.setB (pgBay b) BAY_CTL_RELEASE true) b)

/-- BAY_ARM_WRITE. -/
def execBayArmWrite (b : Fin 4) (on : Bool) (s : State) : Host.Outcome State Fault Refusal :=
  .next (s.noting (.cmd (.bayArmWrite b on)) fun s => s.dec fun _ d => (d.setB (pgBay b) BAY_CTL_ARM on).tryPower b)

/-- BAY_RELEASING_DONE. -/
def execBayReleasingDone (b : Fin 4) (s : State) : Host.Outcome State Fault Refusal :=
  .next (s.noting (.cmd (.bayReleasingDone b)) fun s => s.dec fun vis d => if d.bayState b == 6 then Dev.bayDecide true vis d b else d)

/-- The codeword reads of bay `b` end with its operations: what they served begins again, but for READ tasks, whose range is now in an
absent bay (R193). -/
def Dev.dropAccesses (d : Dev) (b : Nat) : Dev :=
  let gone := d.fls.accesses.filter (·.bay == b)
  let ids := gone.map (·.id)
  let gather (g : Gather) : Bool := g.bay == b || gone.any fun a => a.why == .gather g.lane g.bale
  let stripe (c : Nat) (x : Stripe) : Stripe :=
    if gone.any fun a => a.why == .reclaim c x.id then { x with reading := false } else x
  let maps : Vector BayMap 4 := Vector.ofFn fun c =>
    let m := d.bmap c
    { m with stripes := m.stripes.map (stripe c)
             rebuild := if c.val = b then m.rebuild.map fun r => { die := r.die, left := r.left } else m.rebuild }
  { d with fls := { d.fls with
      accesses := d.fls.accesses.filter (·.bay != b)
      decode := d.fls.decode.filter fun i => !ids.contains i
      codecs := d.fls.codecs.map fun c => if c.any fun x => ids.contains x.access then none else c
      gathers := d.fls.gathers.filter fun g => !gather g
      maps := maps } }

/-- The bay's operations are abandoned (R193); erases so ended are repeated. -/
def Dev.abandonOps (d : Dev) (b : Nat) : Dev :=
  let d := d.updMap b fun m => { m with stripes := m.stripes.map fun x => { x with eraseLeft := none, erased := [] } }
  ([4 * b, 4 * b + 1, 4 * b + 2, 4 * b + 3, 16].foldl (fun d k =>
    ((d.chan k).ops.filter fun o => pfaBay o.pfa == b).foldl (fun d o =>
      let d := d.dropOp k o.id
      if o.kind == .manual then d.updChan k fun c => { c with manualEnd := some (5, b) } else d) d) d).dropAccesses b

/-- Rows that an area's items take beside the close record: `cws` codewords, a record codeword for 64 records, and the 194 codewords of
the ledger state, on rows of `dc` data codewords (R128, R224). -/
def commitRows (dc cws recs : Nat) : Nat := ceilDiv cws dc + ceilDiv (ceilDiv recs 64) dc + ceilDiv 194 dc + 1

/-- Codewords and records of a commit's items (R115, R128). -/
def commitLoad (items : List TaskSt) (records : List BgRec) : Nat × Nat :=
  ((items.map fun t => if t.opc == .append then ceilDiv t.length 4096 + 1 else 0).sum,
    (items.filter (·.opc != .append)).length + records.length)

/-- Data codewords of a commit row of bay `b`: single-plane SLC pages at the bay's width (R224). -/
def Dev.commitDc (d : Dev) (b : Nat) : Nat :=
  (d.get (pgFstr b) FSTR_GEOM_WIDTH - 1) * d.get (pgBay b) BAY_GEOM0_PAGE_CW

/-- Data codewords free in the commit area of copy `c` (R127, R128, R224). -/
def Dev.commitRoom (d : Dev) (c : Commit) : Nat :=
  (d.get (pgFstr c.bay) FSTR_GEOM_GROUPS * d.get (pgBay c.bay) BAY_GEOM0_PAGES_PER_BLOCK - c.rows) * d.commitDc c.bay

/-- Is `c` a copy of the commit in progress that is not yet closed or failed? -/
def Dev.copyOpen (d : Dev) (c : Commit) : Bool := d.rsv.copying && c.seq == d.rsv.commitSeq && !c.closed && !c.failed

/-- Put more items into copy `c` (R128, R192). -/
def Dev.addItems (d : Dev) (c : Commit) (x : Commit) : Commit :=
  let items := c.items ++ x.items
  let records := c.records ++ x.records
  let n := commitLoad items records
  { c with items := items, bytes := c.bytes ++ x.bytes, seals := c.seals ++ x.seals, records := records
           rows := commitRows (d.commitDc c.bay) n.1 n.2 }

/-- A removal during a power-loss commit (R192): the items of bay `b`'s unfinished copy go to the writable bay with the most free
commit-area space, ties to the lower number, and the copy fails. -/
def Dev.moveCopy (d : Dev) (b : Nat) : Dev :=
  match d.rsv.commits.find? fun c => c.bay == b && d.copyOpen c with
  | some x =>
    let dest := (d.rsv.commits.filter fun c => c.bay != b && d.copyOpen c && d.bayDrains c.bay).foldl (fun best c =>
      match best with
      | some y => if d.commitRoom y < d.commitRoom c then some c else some y
      | none => some c) (none : Option Commit)
    let moved (c : Commit) : Commit :=
      if c.bay == b && d.copyOpen c then { c with failed := true, items := [], bytes := [], seals := [], records := [] }
      else
        match dest with
        | some y => if c.bay == y.bay && d.copyOpen c then d.addItems c x else c
        | none => c
    { d with rsv := { d.rsv with commits := d.rsv.commits.map moved } }
  | none => d

/-- A forced removal of bay `b` (R193): R191, or during a power-loss commit R192. -/
def Dev.forcedRemoval (vis d : Dev) (b : Nat) : Dev :=
  let p := pgBay b
  let st := d.bayState b
  let held := d.heldIn b
  let lock := d.get p BAY_STAT_LOCK_OUT
  let d := ((d.abandonOps b).setBay b 0).setB p BAY_STAT_PRESENT false
  let d := ((d.setB p BAY_STAT_FORCED true).irq p BAY_IRQ_FORCED).inc p BAY_EVENTS_FORCED
  let d := d.fault p 0x0403 false false [st, held, lock]
  if d.rsv.committing then d.moveCopy b else Dev.retarget vis d b true

/-- BAY_REMOVAL_DEBOUNCE: no presence for REM_DEB_G Grains, 0 taken as 1 (R190, R193, R201), the Grain that captured its loss
counted. -/
def execBayRemovalDebounce (b : Fin 4) (s : State) : Host.Outcome State Fault Refusal :=
  .next (s.noting (.cmd (.bayRemovalDebounce b)) fun s => s.dec fun vis d =>
    match (d.bay b).absentSince with
    | some t =>
      if d.gtime + 1 < t + max 1 (d.get (pgBay b) BAY_PRES_CFG_REM_DEB_G) then d
      else
        match d.bayState b with
        | 0 | 1 => d.setB (pgBay b) BAY_STAT_PRESENT false
        | 7 | 9 => (d.setBay b 0).setB (pgBay b) BAY_STAT_PRESENT false
        | _ => Dev.forcedRemoval vis d b
    | none => d)

/-- BAY_BECOMES_WRITABLE: items, records and open lanes that wait with no writable bay are bound (R191, R585). -/
def execBayBecomesWritable (b : Fin 4) (s : State) : Host.Outcome State Fault Refusal :=
  .next (s.noting (.cmd (.bayBecomesWritable b)) fun s => s.dec fun vis d =>
    if !vis.bayWritable b then d
    else
      match vis.bestBay with
      | some t =>
        let d := (d.rebindItems (·.unbound) (some t)).rebindRecords (·.bay.isNone) (some t)
        [0, 1, 2, 3].foldl (fun d c => if vis.bayWritable c then d else d.rebindLanes c t) d
      | none => d)

/-- BAY_RCP_DATA_WRITE: refused with RCP_BUSY in WRITABLE and RELEASING (R174). -/
def execBayRcpDataWrite (b : Fin 4) (r : Requester) (v : Word) (s : State) : Host.Outcome State Fault Refusal :=
  .next (s.noting (.cmd (.bayRcpDataWrite b r v)) fun s => s.dec fun vis d =>
    if vis.bayDrains b then d.errAt (pgBay b) BAY_RCP_DATA .rcpBusy r
    else
      let a := bits (d.get (pgBay b) BAY_RCP_ADDR) 0 9
      ((d.setRecipe b a v).put (pgBay b) BAY_RCP_DATA v.toNat).put (pgBay b) BAY_RCP_ADDR ((a + 1) % 512))

/-! ### The spare sequencer (R196 to R198) -/

/-- An operation of a channel whose slice fails: work on the bus goes back to its queue and begins again. -/
def FlashOp.back (o : FlashOp) : FlashOp :=
  if o.stage == .onBus then { o with stage := .queued, pc := 0, plane := 0, started := 0 } else o

/-- A channel leaves service for good (R198). -/
def Dev.disableChan (d : Dev) (k : Nat) : Dev :=
  ((d.updChan k fun c => { c with disabled := true, plan := [], next := [], current := none, ce := none }).setDegraded
    (pgFch k)).setDegraded pgFsch

/-- A sequencer fails: FCH16 takes channel `k`, or no spare is left and the channel is disabled (R197, R198). -/
def Dev.sequencerFail (d : Dev) (k : Nat) : Dev :=
  let used := d.flag (pgFch 16) FCH_SPARE_ACTIVE
  let d := match (d.chan 16).ops.find? (·.kind == .manual) with
    | some o => d.endOp 16 o 5
    | none => d
  if k == 16 then
    let d := d.disableChan 16
    if used then d.disableChan (d.get (pgFch 16) FCH_SPARE_SERVES) else d
  else if used || (d.chan 16).disabled then d.disableChan k
  else
    let cut := (d.chan k).ops.filter fun o => o.stage == .onBus && o.kind == .program
    let d := d.updChan k fun c =>
      { c with ops := c.ops.map (·.back), plan := [], next := [], current := none, ce := none, planPs := 0, nextPs := 0
               isolated := true, failedAt := some d.gtime }
    let d := cut.foldl (fun d o => d.queueReset k o.pfa) d
    let d := ((d.setB (pgFch 16) FCH_SPARE_ACTIVE true).put (pgFch 16) FCH_SPARE_SERVES k).setB (pgFch k)
      FCH_SPARE_REMAPPED true
    ((d.setB pgFsch FSCH_STAT_SPARE_USED true).irq (pgFch k) FCH_IRQ_REMAP).lunStat k

/-- SEQUENCER_FAIL. -/
def execSequencerFail (k : Fin 17) (s : State) : Host.Outcome State Fault Refusal := .next (s.noting (.cmd (.sequencerFail k)) fun s => s.dec fun _ d => d.sequencerFail k)

/-- SPARE_TAKEOVER: from the 25th Grain after the finding FCH16 plans, first polling every LUN of the channel (R197). -/
def execSpareTakeover (k : Fin 17) (s : State) : Host.Outcome State Fault Refusal :=
  .next (s.noting (.cmd (.spareTakeover k)) fun s => s.dec fun _ d =>
    match (d.chan k).failedAt with
    | some g =>
      if !(d.chan k).isolated || d.gtime < g + 25 then d
      else
        let due (o : FlashOp) : FlashOp := if o.stage == .yielded then { o with due := d.gtime } else o
        let d := d.updChan k fun c => { c with isolated := false, ops := c.ops.map due }
        let luns := (List.range 16).filter fun i => bit (d.get (pgFch k) FCH_TGT_LUN_EN) i
          && !(d.chan k).ops.any fun o => o.stage == .yielded && lunBit o.pfa == i
        luns.foldl (fun d i => d.queueOp k
          { id := 0, kind := .poll, slot := 8, pfa := mkPfa (k / 4) (k % 4) (i / 4) (i % 4) 0 0 0, cls := 1 }) d
    | none => d)

/-! ### Manual operations (R200) -/

/-- Slots that program or erase (R173). -/
def writesSlot (s : Nat) : Bool := (3 ≤ s && s ≤ 7) || s == 21 || s == 22

/-- The PFA of a manual operation on channel `k`'s page: a channel's own page names its own channel. -/
def Dev.manualPfa (d : Dev) (k : Nat) : Nat :=
  let p := d.get64 (pgFch k) SEQ_ARG_LO SEQ_ARG_HI
  if k = 16 then p else k * 2 ^ 60 + p % 2 ^ 60

/-- MANUAL_GO: a write of `v` to SEQ_CTL with GO 1 (R200). The operation keeps its PFA and buffer, whatever is written behind it. -/
def execManualGo (k : Fin 17) (r : Requester) (v : Word) (s : State) : Host.Outcome State Fault Refusal :=
  .next (s.noting (.cmd (.manualGo k r v)) fun s => s.dec fun vis d =>
    let p := pgFch k
    let d := (d.put p SEQ_CTL_SLOT (bits v.toNat 16 5)).setB p SEQ_CTL_MANUAL (bit v.toNat 1)
    let slot := bits v.toNat 16 5
    let pfa := d.manualPfa k
    let buf := d.get64 p SEQ_BUF_LO SEQ_BUF_HI
    let b := pfaBay pfa
    let st := vis.bayState b
    let queued := (d.chan (pfaPhys pfa)).ops.any fun o => o.kind != .manual && lunBit o.pfa == lunBit pfa
    if !bit v.toNat 1 || d.flag p SEQ_STAT_BUSY || !d.starts p || buf % 64 != 0 then d
    else if (writesSlot slot && st != 5) || queued
        || (k.val == 16 && (d.flag p FCH_SPARE_ACTIVE || (st != 4 && st != 9))) then
      d.errAt p SEQ_CTL .manualState r
    else
      let d := (d.setB p SEQ_CTL_GO true).setB p SEQ_STAT_BUSY true
      let d := if k.val == 16 && st == 9 then
          d.updBay b fun x => { x with pwren := true, manualPower := some { since := d.gtime } }
        else d
      d.queueOp k { id := 0, kind := .manual, slot := slot, pfa := pfa, cls := 3, buf := buf, len := d.get p SEQ_LEN })

/-- MANUAL_OP_END: the ended manual operation of page `k` is reported; FCH16 gives the PHY and the supply back (R200). -/
def execManualOpEnd (k : Fin 17) (s : State) : Host.Outcome State Fault Refusal :=
  .next (s.noting (.cmd (.manualOpEnd k)) fun s => s.dec fun _ d =>
    match (d.chan k).manualEnd with
    | some (code, b) =>
      let p := pgFch k
      let d := (d.updChan k fun c => { c with manualEnd := none }).setB p SEQ_STAT_BUSY false
      let d := ((d.setB p (if code = 0 then SEQ_STAT_DONE else SEQ_STAT_FAIL) true).put p SEQ_STAT_ERR code).irq p
        FCH_IRQ_MANUAL_DONE
      if k.val == 16 && (d.bay b).manualPower.isSome then (d.bayOff b).updBay b fun x => { x with manualPower := none } else d
    | none => d)

/-! ### Stone snapshots (R40, R201) -/

/-- FCH_STONE of every channel: bus busy µs and operations in units of 4, saturating. -/
def Dev.flashStone (d : Dev) : Dev :=
  (List.range 17).foldl (fun d k =>
    let c := d.chan k
    if c.busyPs = 0 && c.opCount = 0 && d.get (pgFch k) FCH_STONE = 0 then d
    else
      ((d.put (pgFch k) FCH_STONE_BUSY_US (min 1024 (c.busyPs / 1000000))).put (pgFch k) FCH_STONE_OPS_K
        (min 1023 (c.opCount / 4))).updChan k fun c => { c with busyPs := 0, bgPs := 0, opCount := 0 }) d

end Sys2Proof.Machine
end

