-- ==== Sys2Proof/Machine/Stripes.lean ====
section
/-! DEFINITION. Stripes of a bay: their geometry, block sets, rows and element pages, and the placement of Held data, records and map
deltas in them (R205, R216 to R219, R223, R229 to R234, R254, R584). -/

namespace Sys2Proof.Machine

open Sys2Proof

/-! ### Geometry (R216, R219, R223) -/

def Dev.width (d : Dev) (b : Nat) : Nat := d.get (pgFstr b) FSTR_GEOM_WIDTH
def Dev.planes (d : Dev) (b : Nat) : Nat := 2 ^ d.get (pgBay b) BAY_GEOM0_PLANES_LOG2

/-- Codewords of an element page (R216). -/
def Dev.pageCws (d : Dev) (b : Nat) : Nat := d.planes b * d.get (pgBay b) BAY_GEOM0_PAGE_CW

/-- Data codewords of a row (R223). -/
def Dev.dcw (d : Dev) (b : Nat) : Nat := (d.width b - 1) * d.pageCws b

/-- The parity element of row `r` of width `w` (R219). -/
def parityElem (w r : Nat) : Nat := (w - 1) - r % w

/-- The element that holds data page `q` of row `r` (R219, R223). -/
def dataElem (w r q : Nat) : Nat := if q < parityElem w r then q else q + 1

/-- Group and slot of stripe `s`, and the die of element `e` (R223). -/
def Dev.group (d : Dev) (b s : Nat) : Nat := s / d.get (pgFstr b) FSTR_GEOM_K_SETS
def Dev.slotOf (d : Dev) (b s : Nat) : Nat := s % d.get (pgFstr b) FSTR_GEOM_K_SETS
def Dev.dieOf (d : Dev) (b s e : Nat) : Nat := d.group b s * d.width b + e

/-- Channel, LUN and chip enable of die `x` (R223). -/
def dieChan (x : Nat) : Nat := x % 4
def Dev.dieLun (d : Dev) (b x : Nat) : Nat := x / 4 % (d.get (pgBay b) BAY_GEOM0_LUNS_PER_CE_M1 + 1)
def Dev.dieCe (d : Dev) (b x : Nat) : Nat := x / 4 / (d.get (pgBay b) BAY_GEOM0_LUNS_PER_CE_M1 + 1)

/-- The bit of the die's LUN on its channel. -/
def Dev.dieBit (d : Dev) (b x : Nat) : Nat := 4 * d.dieCe b x + d.dieLun b x

/-- The die and block set that stand for element `e` of stripe `s` (R223, R227). -/
def Dev.tableAt (d : Dev) (b s e : Nat) : Nat × Nat :=
  let v := tabGet (fun _ => 0) (d.bmap b).table (d.dieOf b s e * 65536 + d.slotOf b s) - 1
  (v / 65536, v % 65536)

/-- The PFA of plane `pl`, page `r`, codeword `cw` of a block set (R223). -/
def Dev.setPfa (d : Dev) (b die bs pl r cw : Nat) : Nat :=
  mkPfa b (dieChan die) (d.dieCe b die) (d.dieLun b die) (bs * d.planes b + pl) r cw

/-- Element and codeword of data slot `j` of a stripe, with its row (R223): row, element, codeword. -/
def Dev.slotAt (d : Dev) (b j : Nat) : Nat × Nat × Nat :=
  let r := j / d.dcw b
  let i := j % d.dcw b
  (r, dataElem (d.width b) r (i / d.pageCws b), i % d.pageCws b)

/-- The PFA of data slot `j` of stripe `s` (R223). -/
def Dev.slotPfa (d : Dev) (b s j : Nat) : Nat :=
  let x := d.slotAt b j
  let t := d.tableAt b s x.2.1
  let n := d.get (pgBay b) BAY_GEOM0_PAGE_CW
  d.setPfa b t.1 t.2 (x.2.2 / n) x.1 (x.2.2 % n)

/-- Dies of the bay. -/
def Dev.dieCount (d : Dev) (b : Nat) : Nat :=
  (List.range 4).foldl (fun n c => n + popcount 16 (d.get (pgFch (4 * b + c)) FCH_TGT_LUN_EN)) 0

/-- Block sets of a die (R216). -/
def Dev.setCount (d : Dev) (b : Nat) : Nat := d.get (pgBay b) BAY_GEOM1_BLOCKS_PER_LUN / d.planes b

/-! ### Block sets (R229 to R234) -/

def setKey (die bs : Nat) : Nat := die * 65536 + bs

def Dev.bset (d : Dev) (b die bs : Nat) : BlockSet := tabGet (fun _ => {}) (d.bmap b).sets (setKey die bs)

/-- Set a block set's data. -/
def Dev.putBset (d : Dev) (b die bs : Nat) (x : BlockSet) : Dev :=
  d.updMap b fun m => { m with sets := tabSet (fun _ => {}) m.sets (setKey die bs) x }

/-- The bay map has changed: the change is to be written, and after 256 of them a full copy (R229). -/
def Dev.mapChanged (d : Dev) (b : Nat) : Dev :=
  let d := (d.delta b .change).updMap b fun m => { m with changes := m.changes + 1 }
  if (d.bmap b).changes < 256 then d else (d.delta b .full).updMap b fun m => { m with changes := 0 }

/-- Set what the bay map holds of a block set. -/
def Dev.setBset (d : Dev) (b die bs : Nat) (x : BlockSet) : Dev := (d.putBset b die bs x).mapChanged b

def Dev.isDead (d : Dev) (b die : Nat) : Bool := bit (d.get64 (pgFstr b) FSTR_DEAD_LO FSTR_DEAD_HI) die
def Dev.isRo (d : Dev) (b die : Nat) : Bool := bit (d.get64 (pgFstr b) FSTR_RO_LO FSTR_RO_HI) die

/-- The block set of a die with state `st` and the lowest erase count below PE_LIMIT (R231), of equal ones the one of the lowest number
(DESIGN CHOICE, notes/assumptions/54.md). -/
def Dev.pickSet (d : Dev) (b die : Nat) (st : SetState) : Option Nat :=
  (List.range (d.setCount b)).foldl (fun best i =>
    let x := d.bset b die i
    if x.state != st || (st == .free && d.get (pgFstr b) FSTR_THRESH_PE_LIMIT ≤ x.erases) then best
    else
      match best with
      | some j => if x.erases < (d.bset b die j).erases then some i else best
      | none => some i) none

/-- Spare block sets left on a die. -/
def Dev.sparesOf (d : Dev) (b die : Nat) : Nat :=
  ((List.range (d.setCount b)).filter fun i => (d.bset b die i).state == .spare).length

/-- A die without spares is read-only, and its group with it (R233, R234). -/
def Dev.dieReadOnly (vis d : Dev) (b die : Nat) : Dev :=
  let p := pgFstr b
  let ro := d.get64 p FSTR_RO_LO FSTR_RO_HI
  if bit ro die then d
  else
    let d := ((d.put64 p FSTR_RO_LO FSTR_RO_HI (setBits ro die 1 1)).mapChanged b).fault p 0x0505 false false [die]
    let w := d.width b
    let all := (List.range (d.get p FSTR_GEOM_GROUPS)).all fun g => (List.range w).any fun e => d.isRo b (g * w + e)
    if all then
      Dev.bayLost vis ((d.setB p FSTR_STAT_FULL_RO true).irq p FSTR_IRQ_FULL_RO) b 4
    else d

/-- Retire a block set; it takes a spare of its die, or leaves the die read-only (R230, R233, R234). -/
def Dev.retireSet (vis d : Dev) (b die bs : Nat) : Dev :=
  let d := d.setBset b die bs { d.bset b die bs with state := .retired }
  match d.pickSet b die .spare with
  | some i =>
    let d := d.setBset b die i { d.bset b die i with state := .free }
    let n := d.sparesOf b die
    let d := if n ≤ d.get (pgFstr b) FSTR_THRESH_SPARE_WARN then d.irq (pgFstr b) FSTR_IRQ_SPARE_LOW else d
    if n = 0 then Dev.dieReadOnly vis d b die else d
  | none => Dev.dieReadOnly vis d b die

/-- Restate FSTR_WEAR (R236). -/
def Dev.wearStat (d : Dev) (b : Nat) : Dev :=
  let l := ((d.bmap b).sets.map (·.2)).filter (·.state != .retired)
  let mx := ((d.bmap b).sets.map (·.2.erases)).foldl max 0
  let mn := if (d.bmap b).sets.length < d.dieCount b * d.setCount b then 0 else l.foldl (fun m x => min m x.erases) 0xFFFF
  (d.put (pgFstr b) FSTR_WEAR_PE_MAX mx).put (pgFstr b) FSTR_WEAR_PE_MIN mn

/-! ### Stripes, rows, pages (R216 to R219) -/

def Dev.stripe (d : Dev) (b s : Nat) : Option Stripe := (d.bmap b).stripes.find? (·.id == s)

def Dev.updStripe (d : Dev) (b s : Nat) (f : Stripe → Stripe) : Dev :=
  d.updMap b fun m => { m with stripes := updWhere (·.id == s) f m.stripes }

def Stripe.rowAt (x : Stripe) (r : Nat) : Option Row := x.rows.find? (·.row == r)

def Dev.rowAt (d : Dev) (b s r : Nat) : Option Row := (d.stripe b s).bind (·.rowAt r)

def Dev.updRow (d : Dev) (b s r : Nat) (f : Row → Row) : Dev :=
  d.updStripe b s fun x => { x with rows := updWhere (·.row == r) f x.rows }

/-- The empty page of element `e` in row `r` of stripe `s`, with the place where it will be written. -/
def Dev.newPage (d : Dev) (b s r e : Nat) : ElemPage :=
  let t := d.tableAt b s e
  { element := e, die := t.1, rows := (List.range (d.planes b)).map fun i => d.rowAddr (d.setPfa b t.1 t.2 i r 0) }

/-- Row `r` of stripe `s` with its empty data pages, in ascending order of element (R219). -/
def Dev.newRow (d : Dev) (b s r : Nat) : Row :=
  { row := r, since := d.gtime, pages := (List.range (d.width b - 1)).map fun q => d.newPage b s r (dataElem (d.width b) r q) }

/-- The block set that takes the place of one on lost die `x` (R227, R228): on a free die if one has a spare or free block set, else a
spare of a die of another group; of several dies the one of the lowest index (DESIGN CHOICE, notes/assumptions/54.md). -/
def Dev.rebuildTarget (d : Dev) (b x : Nat) : Option (Nat × Nat) :=
  let w := d.width b
  let used := d.get (pgFstr b) FSTR_GEOM_GROUPS * w
  let frees := (List.range (d.dieCount b)).filter fun i => used ≤ i && !d.isDead b i
  let others := (List.range used).filter fun i => i / w != x / w && !d.isDead b i
  let pick (l : List Nat) (st : SetState) : Option (Nat × Nat) := l.findSome? fun i => (d.pickSet b i st).map fun j => (i, j)
  match pick frees .spare with
  | some r => some r
  | none =>
    match pick frees .free with
    | some r => some r
    | none => pick others .spare

/-- Block set `t` (die, number) stands for element `e` of stripe `s` from now on (R223, R227). -/
def Dev.giveSet (d : Dev) (b s e : Nat) (t : Nat × Nat) : Dev :=
  (d.setBset b t.1 t.2 { d.bset b t.1 t.2 with state := .inStripe }).updMap b fun m =>
    { m with table := tabSet (fun _ => 0) m.table (d.dieOf b s e * 65536 + d.slotOf b s) (t.1 * 65536 + t.2 + 1) }

/-- Take a block set of each die for stripe slot `s`, a lost die's place going to its rebuild target (R225, R231); `none` where
a die has none. -/
def Dev.takeSets (d : Dev) (b s : Nat) : Nat → Option Dev
  | 0 => some d
  | e + 1 =>
    (d.takeSets b s e).bind fun d =>
      let die := d.dieOf b s e
      let place := if d.isDead b die then d.rebuildTarget b die else (d.pickSet b die .free).map fun i => (die, i)
      place.map (d.giveSet b s e)

/-- Open a stripe, on the lowest free stripe number of a group that may open one (R216, R231, R233); which number the spec leaves open
(DESIGN CHOICE, notes/assumptions/54.md). Its opening is a map delta (R254). -/
def Dev.openStripe (d : Dev) (b : Nat) (bale : Bool) : Option Dev :=
  let w := d.width b
  let k := d.get (pgFstr b) FSTR_GEOM_K_SETS
  let usable (g : Nat) : Bool := (List.range w).all fun e => !d.isRo b (g * w + e) && (!d.isDead b (g * w + e) || (d.rebuildTarget b (g * w + e)).isSome)
  match (List.range (d.get (pgFstr b) FSTR_GEOM_GROUPS * k)).find? fun s => (d.stripe b s).isNone && usable (s / k) with
  | some s =>
    (d.takeSets b s w).map fun d =>
      let d := d.updMap b fun m => { m with stripes := m.stripes ++ [{ id := s, bale := bale }] }
      let d := d.updStripe b s fun x => { x with rows := [d.newRow b s 0] }
      (d.put (pgBay b) BAY_FREE (d.get (pgBay b) BAY_FREE - 1)).delta b (.stripe s bale)
  | none => none

/-- The place in settlement order (twice the LSN, one more for a record behind that LSN; R178, R584) of what codeword `c` of bay `b`
carries and is not yet Settled, with whether that is Held. -/
def Dev.keysOf (d : Dev) (b : Nat) (c : Codeword) : List (Nat × Bool) :=
  (match d.task c.lsn with
    | some t => if t.settled then [] else [(2 * c.lsn, true)]
    | none => [])
  ++ (d.ldg.background.filter fun x => x.bay == some b && c.deltas.any fun y => x.delta == some y.1).map fun x =>
    (2 * x.behind + 1, x.held)

/-- Queue the program of a full element page, whose row carries `keys`: its planes in one operation, class 4 where Held data is
among them, else class 5 (R178, R216, R222). Nothing is queued for a lost die. -/
def Dev.queueProgram (d : Dev) (b s r : Nat) (p : ElemPage) (keys : List (Nat × Bool)) : Dev :=
  let t := d.tableAt b s p.element
  let key := (keys.map (·.1)).foldl min (2 ^ 65)
  let held := keys.any (·.2)
  if d.isDead b t.1 then d
  else
    d.queueOp (4 * b + dieChan t.1)
      { id := 0, kind := .program, slot := if d.planes b = 1 then 3 else 4, pfa := d.setPfa b t.1 t.2 0 r 0
        planes := (List.range (d.planes b - 1)).map fun i => d.setPfa b t.1 t.2 (i + 1) r 0
        cls := if held then 4 else 5, order := key / 2, pri := key % 2, held := held, lsn := key / 2
        page := some (b, s, r, p.element) }

/-- WSEQ counts one more element page of the bay (R203). -/
def Dev.nextWseq (d : Dev) (b : Nat) : Nat × Dev :=
  let w := (d.bmap b).wseq + 1
  (w, d.updMap b fun m => { m with wseq := w })

/-- An element page is full: its record codewords and PAD are put behind what it holds, it gets its WSEQ and is programmed (R203, R217,
R219). A bale stripe holds no record codewords (R221). -/
def Dev.finishPage (d : Dev) (b s r : Nat) (bale : Bool) (p : ElemPage) : Dev :=
  let cap := d.pageCws b
  let cws := if bale then p.cws ++ List.replicate (cap - p.cws.length) ({ kind := 0 } : Codeword) else fillPage d.gtime48 cap p.cws
  let x := d.nextWseq b
  let q : ElemPage := { p with cws := cws.map fun c => { c with wseq := x.1 }, full := true }
  (x.2.updPage (b, s, r, p.element) fun _ => q).queueProgram b s r q (q.cws.flatMap (x.2.keysOf b))

/-- A row whose data pages are all full is closed; the next row opens, or the stripe closes after its last (R216). -/
def Dev.advanceRow (d : Dev) (b s r : Nat) : Dev :=
  match d.rowAt b s r with
  | some x =>
    if !x.pages.all (·.full) then d
    else
      let d := d.updRow b s r fun x => { x with closed := true }
      if r + 1 < d.get (pgBay b) BAY_GEOM0_PAGES_PER_BLOCK then
        d.updStripe b s fun x => { x with rows := x.rows ++ [d.newRow b s (r + 1)] }
      else d.updStripe b s fun x => { x with isOpen := false }
  | none => d

/-- Close the open row of a stripe with PAD codewords (R219). -/
def Dev.closeRow (d : Dev) (b s r : Nat) : Dev :=
  match d.stripe b s with
  | some st =>
    match st.rowAt r with
    | some x => ((x.pages.filter (!·.full)).foldl (fun d p => d.finishPage b s r st.bale p) d).advanceRow b s r
    | none => d
  | none => d

/-- Close a stripe: its open row is closed if it holds a codeword, and else given up (R219, R225). -/
def Dev.closeStripe (d : Dev) (b s : Nat) : Dev :=
  let d := match (d.stripe b s).bind (·.rows.getLast?) with
    | some r => if r.closed || r.pages.all (·.cws.isEmpty) then d else d.closeRow b s r.row
    | none => d
  d.updStripe b s fun x => { x with isOpen := false, rows := x.rows.filter fun r => r.closed }

/-- The open rows of a bay that hold a codeword are closed with PAD. -/
def Dev.closeOpenRows (d : Dev) (b : Nat) : Dev :=
  (d.bmap b).stripes.foldl (fun d x =>
    match x.rows.getLast? with
    | some r => if r.closed || r.pages.all (·.cws.isEmpty) then d else d.closeRow b x.id r.row
    | none => d) d

/-- Rows found open at power-up are closed before the bay's next program (R235). -/
def Dev.closeFound (d : Dev) (b : Nat) : Dev :=
  if (d.bmap b).reopen then (d.closeOpenRows b).updMap b fun m => { m with reopen := false } else d

/-- The open log or bale stripe of a bay. -/
def Dev.openOne (d : Dev) (b : Nat) (bale : Bool) : Option Stripe := (d.bmap b).stripes.find? fun x => x.isOpen && x.bale == bale

/-- Place one codeword in the open stripe (R217): `none` where no stripe can be opened. -/
def Dev.placeCw (d : Dev) (b : Nat) (bale : Bool) (c : Codeword) : Nat → Option Dev
  | 0 => none
  | n + 1 =>
    match d.openOne b bale with
    | none => (d.openStripe b bale).bind fun d => d.placeCw b bale c n
    | some st =>
      match st.rows.getLast? with
      | none => none
      | some x =>
        match x.pages.find? (!·.full) with
        | none => (d.advanceRow b st.id x.row).placeCw b bale c n
        | some p =>
          let cws := p.cws ++ [c]
          let need := cws.length + (if bale then 0 else recordsNeeded cws)
          if d.pageCws b < need then
            if p.cws.isEmpty then none
            else ((d.finishPage b st.id x.row bale p).advanceRow b st.id x.row).placeCw b bale c n
          else
            let d := if x.pages.all (·.cws.isEmpty) then d.updRow b st.id x.row fun x => { x with since := d.gtime } else d
            let q : ElemPage := { p with cws := cws }
            let d := d.updPage (b, st.id, x.row, p.element) fun _ => q
            if need = d.pageCws b then some ((d.finishPage b st.id x.row bale q).advanceRow b st.id x.row) else some d

/-- The next data slot of an open stripe. -/
def Dev.nextSlot (d : Dev) (b : Nat) (st : Stripe) : Nat :=
  match st.rows.getLast? with
  | some r => r.row * d.dcw b + (r.pages.map fun p => if p.full then d.pageCws b else p.cws.length).sum
  | none => 0

/-! ### Map deltas (R254) -/

/-- Write the deltas that bay `b` has collected, in codewords of 127 at most, into its log stripe. -/
def Dev.placeDeltas (d : Dev) (b : Nat) : Nat → Dev
  | 0 => d
  | n + 1 =>
    let l := (d.bmap b).deltas
    if l.isEmpty then d
    else
      let c : Codeword := { kind := 5, valid := 32 * min 127 l.length, deltas := l.take 127 }
      match (d.updMap b fun m => { m with deltas := l.drop 127 }).placeCw b false c 8 with
      | some d => d.placeDeltas b n
      | none => d

/-- Is delta `n` of bay `b` Settled: in a verified page of a row with verified parity (R220, R254)? -/
def Dev.deltaSettled (d : Dev) (b n : Nat) : Bool :=
  (d.bmap b).stripes.any fun x => x.rows.any fun r => r.parity && r.pages.any fun p =>
    p.verified && p.cws.any fun c => c.deltas.any (·.1 == n)

/-- Does bay `b` take writes into its stripes: it is writable for what is bound to it, or being formatted (R189, R229)? -/
def Dev.takesData (d : Dev) (b : Nat) : Bool :=
  (d.bayDrains b || d.flag (pgFstr b) FSTR_STAT_FORMATTING) && d.pageCws b != 0 && d.width b != 0

/-- The deltas of bay `b` have waited for the row close time: they are written and their row is closed (R219, R254). -/
def Dev.dueDeltas (vis d : Dev) (b : Nat) : Dev :=
  let m := d.bmap b
  if m.deltas.isEmpty || !vis.takesData b || d.gtime < m.deltaSince + max 1 (d.get (pgFstr b) FSTR_ROW_ROW_CLOSE_G) then d
  else
    let d := d.placeDeltas b 8
    match d.openOne b false with
    | some st =>
      match st.rows.getLast? with
      | some r => if r.pages.all (·.cws.isEmpty) then d else d.closeRow b st.id r.row
      | none => d
    | none => d

/-! ### Placement of Held data (R144, R178, R205, R217, R584) -/

/-- The LANE_DATA codewords of `len` bytes of entry `lsn` from lane offset `off` on: none spans a region of 4 KiB, void bytes are 0x00
(R205). `bytes` are those of the entry from `off` on that are not void, `marked` says which of its bytes stand in a word marked
unrecoverable (R148), `endRec` is its end record. -/
def dataCws (lane lsn : Nat) (marked : Nat → Nat → Bool) (endRec : List Byte) : Nat → Nat → Nat → List Byte → List Codeword
  | 0, _, _, _ => []
  | n + 1, off, len, bytes =>
    if len = 0 then []
    else
      let k := min len (4096 - off % 4096)
      let marks := (List.range 64).filter fun m => decide (64 * m < k) && marked (off + 64 * m) (min k (64 * m + 64) - 64 * m)
      { kind := 1, lane := lane, offset := off, valid := k, head := off % 4096 != 0, void := bytes.length < k, lsn := lsn
        data := padTo k bytes, marks := marks, unrec := !marks.isEmpty, last := k == len, endRec := if k = len then endRec else [] }
        :: dataCws lane lsn marked endRec n (off + k) (len - k) (bytes.drop k)

/-- How many bytes of packet `p` of FIFO `k`, of an entry of `len` bytes, the flash channels may read (R144): all once it is complete,
else those whose words are written once W is CUT_4K × 64 words past its first. -/
def Dev.drainable (d : Dev) (k len : Nat) (p : Packet) : Nat :=
  let cut := d.get (pgFk k) FK_CFG_CUT_4K
  if p.closed then len
  else if cut != 0 && cut < d.get (pgFk k) FK_CFG_SIZE_4K && cut * 64 ≤ p.words then 64 * p.words else 0

/-- The LANE_DATA codewords of APPEND `t` from its first byte not yet placed, with its packet `p`. -/
def Dev.entryCws (d : Dev) (t : TaskSt) (p : Packet) : List Codeword :=
  let from0 := d.placedTo t.lsn
  let marked (a n : Nat) : Bool := p.bad.any fun i => decide (t.offset + 64 * i < a + n) && decide (a < t.offset + 64 * i + 64)
  dataCws t.lane t.lsn marked p.endRec (t.length / 4096 + 2) (t.offset + from0) (t.length - from0) (p.bytes.drop from0)

/-- The codewords of Held task `t` that can be placed now, as the last edge shows its staging and records (R142, R144, R204, R217); the
one with its last byte waits for its hash (R153). VALID of a SEAL_REC codeword is the 256 bytes of a manifest or else 64
(DESIGN CHOICE, notes/assumptions/54.md). -/
def Dev.readyCws (vis d : Dev) (t : TaskSt) : List Codeword :=
  match t.opc with
  | .append =>
    match (vis.fifo t.fifo).packets.find? (·.lsn == t.lsn), (d.fifo t.fifo).packets.find? (·.lsn == t.lsn) with
    | some p, some q =>
      if (d.fifo t.fifo).drainStopped then []
      else
        let upto := t.offset + vis.drainable t.fifo t.length p
        (d.entryCws t { q with bytes := p.bytes, endRec := p.endRec }).takeWhile fun c =>
          decide (c.offset + c.valid ≤ upto) && (!c.last || (p.closed && p.hashed))
    | _, _ => []
  | .openLane | .seal | .mark | .release =>
    if !(vis.task t.lsn).any (·.hasRecord) then []
    else
      let m := ((d.stg.manifests.find? (·.1 == t.lsn)).map (·.2)).getD []
      [{ kind := 6, lane := t.lane, valid := if m.isEmpty then 64 else 256, lsn := t.lsn, last := true, data := m }]
  | .read | .query | .flush | .abort => []

/-- Codeword `c` of an entry stands in a row. -/
def Dev.notePlaced (d : Dev) (c : Codeword) : Dev :=
  let n := d.placedTo c.lsn + (if c.kind = 1 then c.valid else 1)
  { d with fls := { d.fls with placed := (c.lsn, n) :: d.fls.placed.filter (·.1 != c.lsn) } }

/-- Place codewords of an entry in the log stripe of bay `b`, until no stripe can be opened. -/
def Dev.placeAll (d : Dev) (b : Nat) : List Codeword → Dev
  | [] => d
  | c :: l =>
    match d.placeCw b false c 8 with
    | some d => (d.notePlaced c).placeAll b l
    | none => d

/-- Place what is ready of Held task `t`; the deltas that its bay has collected go with it (R254). -/
def Dev.placeTask (vis d : Dev) (t : TaskSt) : Dev :=
  match t.bay with
  | some b =>
    if t.settled || d.isPlaced t || !vis.takesData b || !d.bayDrains b then d
    else
      let l := Dev.readyCws vis d t
      if l.isEmpty then d else (d.placeDeltas b 8).placeAll b l
  | none => d

/-- The delta of record `x`, which carries no LSN, joins those of its bay in its turn; a Held one is written with them (R254, R584). -/
def Dev.placeRecord (vis d : Dev) (x : BgRec) : Dev :=
  match x.bay, x.delta with
  | some b, none =>
    if !vis.takesData b || !d.bayDrains b then d
    else
      let n := (d.bmap b).deltaNo
      let d := { d with ldg := { d.ldg with background := updWhere (· == x) (fun y => { y with delta := some n }) d.ldg.background } }
      let d := d.delta b (.record x.kind x.lane)
      if x.held then d.placeDeltas b 8 else d
  | _, _ => d

/-- Insert a number into a rising list. -/
def insNat (n : Nat) : List Nat → List Nat
  | [] => [n]
  | y :: l => if n < y then n :: y :: l else if n = y then y :: l else y :: insNat n l

/-- The numbers of a list in rising order, each once. -/
def sortNat (l : List Nat) : List Nat := l.foldl (fun acc n => insNat n acc) []

/-- The scheduler's placement in the decision phase: Held data and the records without an LSN in settlement order, of what is ready
in the Grain (R178, R217, R584), and the deltas whose time has come (R254). -/
def Dev.flashPlace (vis d : Dev) : Dev :=
  if d.flag pgRsv RSV_STAT_PF then d
  else
    let d := ([0, 1, 2, 3].filter fun b => d.takesData b).foldl Dev.closeFound d
    let keys := sortNat (d.ldg.tasks.map (fun t => 2 * t.lsn) ++ d.ldg.background.map fun x => 2 * x.behind + 1)
    let d := keys.foldl (fun d k =>
      if k % 2 = 0 then
        match d.task (k / 2) with
        | some t => Dev.placeTask vis d t
        | none => d
      else (d.ldg.background.filter fun x => x.behind == k / 2).foldl (fun d x => Dev.placeRecord vis d x) d) d
    [0, 1, 2, 3].foldl (fun d b => Dev.dueDeltas vis d b) d

/-! ### Undoing a placement (R215, R225, R230) -/

/-- Entries whose placement is undone are placed again: what stands of them in rows counts no more, nor do their extents. -/
def Dev.unplace (d : Dev) (lsns : List Nat) : Dev :=
  let again := lsns.filter fun n => match d.task n with
    | some t => !t.settled
    | none => false
  { d with fls := { d.fls with placed := d.fls.placed.filter fun n => !again.contains n.1 }
           mc := { d.mc with extents := d.mc.extents.filter fun n => !again.contains n } }

/-- What the codewords `cws` of bay `b` carried has to be written again: entries are placed again, map deltas join those collected, and a
reclaim whose moved codewords are among them begins again. -/
def Dev.rewrite (d : Dev) (b : Nat) (cws : List Codeword) : Dev :=
  let d := d.unplace ((cws.map (·.lsn)).filter (· != 0))
  let d := d.updMap b fun m => { m with deltas := cws.flatMap (·.deltas) ++ m.deltas, deltaSince := d.gtime }
  if cws.any fun c => (c.kind == 1 && c.lsn == 0) || c.kind == 2 then
    let again (x : Stripe) : Stripe := if x.erasing && x.eraseLeft.isNone then { x with erasing := false, reclaim := true } else x
    d.updMap b fun m => { m with stripes := m.stripes.map again }
  else d

/-- Gathers of which a row of bale stripe `s` in `rows` holds a slot begin again (R221). -/
def Dev.dropGathers (d : Dev) (b s : Nat) (rows : List Nat) : Dev :=
  let hit (g : Gather) : Bool := g.bay == b && g.stripe == s && g.count != 0 && g.delta.isNone
    && rows.any fun r => decide (g.slot < (r + 1) * d.dcw b) && decide (r * d.dcw b < g.slot + g.count)
  { d with fls := { d.fls with gathers := d.fls.gathers.filter fun g => !hit g } }

/-- Take the element pages that satisfy `gone` out of stripe `s`, and the rows that satisfy `rowGone`; what they carried is written
again, and programs and verify reads not yet begun are dropped. -/
def Dev.dropPages (d : Dev) (b s : Nat) (rowGone : Row → Bool) (gone : Row → ElemPage → Bool) : Dev :=
  match d.stripe b s with
  | some st =>
    let out (r : Row) (p : ElemPage) : Bool := rowGone r || gone r p
    let hit := st.rows.filter fun r => rowGone r || r.pages.any (gone r)
    let cws := hit.flatMap fun r => (r.pages.filter (out r)).flatMap (·.cws)
    let pages := hit.flatMap fun r => (r.pages.filter (out r)).map fun p => (b, s, r.row, p.element)
    let d := d.updStripe b s fun x => { x with rows := (x.rows.filter fun r => !rowGone r).map fun r =>
      { r with pages := r.pages.filter fun p => !gone r p } }
    let d := (List.range 17).foldl (fun d k => ((d.chan k).ops.filter fun o => o.stage == .queued && !o.rebuilt && o.page.any pages.contains).foldl
      (fun d o => d.dropOp k o.id) d) d
    (if st.bale then d.dropGathers b s (hit.map (·.row)) else d).rewrite b (if st.bale then [] else cws)
  | none => d

/-! ### Words spoiled in staging (R148) -/

/-- Word `j` of entry `lsn`'s packet was unrecoverable when it was read: codewords of it that stand in pages not yet programmed are
marked (R148, R218). -/
def Dev.markPlaced (d : Dev) (lsn j : Nat) : Dev :=
  match d.task lsn with
  | some t =>
    let lo := t.offset + 64 * j
    let mark (c : Codeword) : Codeword :=
      if c.kind != 1 || c.lsn != lsn then c
      else
        let new := (List.range 64).filter fun m => decide (64 * m < c.valid) && decide (lo < c.offset + 64 * m + 64)
          && decide (c.offset + 64 * m < lo + 64) && !c.marks.contains m
        if new.isEmpty then c else { c with marks := c.marks ++ new, unrec := true }
    let page (p : ElemPage) : ElemPage :=
      if p.programmed || !p.cws.any (fun c => c.lsn == lsn) then p
      else
        let cws := p.cws.map mark
        { p with cws := if p.full then relistMarks cws else cws }
    { d with fls := { d.fls with maps := d.fls.maps.map fun m =>
      { m with stripes := m.stripes.map fun x => { x with rows := x.rows.map fun r => { r with pages := r.pages.map page } } } } }
  | none => d

end Sys2Proof.Machine
end

