-- ==== Sys2Proof/Machine/Reads.lean ====
section
/-! DEFINITION. Codeword reads: the codecs, the escalation of R210, what a read that fails leaves, and the reads of READ tasks (R207 to
R214, R226, R232). -/

namespace Sys2Proof.Machine

open Sys2Proof

/-! ### Accesses (R210) -/

def Dev.accessOf (d : Dev) (id : Nat) : Option Access := d.fls.accesses.find? (·.id == id)

/-- Change access `id`. -/
def Dev.updAccess (d : Dev) (id : Nat) (f : Access → Access) : Dev :=
  { d with fls := { d.fls with accesses := updWhere (·.id == id) f d.fls.accesses } }

/-- An access stands as `a` now. -/
def Dev.setAccess (d : Dev) (a : Access) : Dev := d.updAccess a.id fun _ => a

def Dev.dropAccess (d : Dev) (id : Nat) : Dev :=
  { d with fls := { d.fls with accesses := d.fls.accesses.filter (·.id != id) } }

/-- The codeword that an access reads. -/
def Dev.accessCw (d : Dev) (a : Access) : Option Codeword :=
  ((d.rowAt a.bay a.stripe a.row).bind fun r => r.pages.find? (·.element == a.element)).bind fun p => p.cws[a.cw]?

/-- The read-retry entry that a read of a die takes first: the learned one, or 0 while slot 19 is empty (R210, R211, R213). -/
def Dev.firstEntry (d : Dev) (b die : Nat) : Nat :=
  if d.slotStart b 19 = 0 then 0 else tabGet (fun _ => 0) (d.bmap b).learned die

/-- Does the access serve a rebuild (R227)? -/
def Dev.forRebuild (d : Dev) (a : Access) : Bool :=
  match a.why with
  | .rebuild .. => true
  | .part i => (d.accessOf i).any fun x => match x.why with
    | .rebuild .. => true
    | .task _ | .gather .. | .reclaim .. | .scrub | .part _ => false
  | .task _ | .gather .. | .reclaim .. | .scrub => false

/-- Queue the read of the page in which an access's codeword stands, with retry entry `rt` and offset `soft` (R178, R212, R214). -/
def Dev.queueRead (d : Dev) (a : Access) (rt soft : Nat) : Dev :=
  let t := d.tableAt a.bay a.stripe a.element
  d.queueOp (4 * a.bay + dieChan t.1)
    { id := 0, kind := .read, slot := 0, pfa := d.setPfa a.bay t.1 t.2 (a.cw / d.get (pgBay a.bay) BAY_GEOM0_PAGE_CW) a.row 0
      cls := a.cls, rt := rt, soft := soft, acc := [a.id], rebuilt := d.forRebuild a }

/-- Step 1 of R210. -/
def Dev.beginRead (d : Dev) (a : Access) : Dev :=
  let e := d.firstEntry a.bay (d.tableAt a.bay a.stripe a.element).1
  let a := { a with step := 1, entry := e, tried := [e] }
  (d.setAccess a).queueRead a e 0

/-- A new access, with its number. -/
def Dev.newAccess (d : Dev) (a : Access) : Access × Dev :=
  let a := { a with id := d.fls.nextAccess }
  (a, { d with fls := { d.fls with accesses := d.fls.accesses ++ [a], nextAccess := d.fls.nextAccess + 1 } })

/-! ### The end of an access -/

/-- The sums of R232 and the Stone's counts of the step reached (R236); `step` 0: a part of another read that has failed. -/
def Dev.readStats (d : Dev) (a : Access) (step bits : Nat) : Dev :=
  let d := { d with fls := { d.fls with lastRead := if step = 0 then d.fls.lastRead else some (step, a.entry) } }
  let d := d.updMap a.bay fun m =>
    { m with corrAcc := m.corrAcc + bits, retryAcc := m.retryAcc + (a.tried.length - 1), readAcc := m.readAcc + 1 }
  let f := d.fls
  match step with
  | 2 => { d with fls := { f with decRetry := f.decRetry + 1 } }
  | 3 => { d with fls := { f with decSoft := f.decSoft + 1 } }
  | 4 => { d with fls := { f with decParity := f.decParity + 1 } }
  | 5 => { d with fls := { f with decFail := f.decFail + 1 } }
  | _ => d

/-- The stripe of an access is to be reclaimed (R222, R230, R232). -/
def Dev.wantReclaim (d : Dev) (b s : Nat) : Dev := d.updStripe b s fun x => { x with reclaim := true }

/-- What the step at which a codeword was recovered asks for: the learned entry (R213), refresh (R232), the limit of soft decodes of a
block set, and the retirement of one that step 3 could not read (R230). -/
def Dev.readWear (d : Dev) (a : Access) (step bits : Nat) : Dev :=
  let t := d.tableAt a.bay a.stripe a.element
  let x := d.bset a.bay t.1 t.2
  let d := if step = 2 then
      (d.updMap a.bay fun m => { m with learned := tabSet (fun _ => 0) m.learned t.1 a.entry }).mapChanged a.bay
    else d
  let d := if step = 3 then d.putBset a.bay t.1 t.2 { x with soft := x.soft + 1 } else d
  let d := if 4 ≤ step && !d.isDead a.bay t.1 then d.putBset a.bay t.1 t.2 { x with retire := true } else d
  if 3 ≤ step || d.get pgFint FINT_VERIFY_REFRESH_BITS < bits
      || (step = 3 && d.get pgFint FINT_DIE_LIMIT_SOFT_PER_BS < x.soft + 1) then d.wantReclaim a.bay a.stripe else d

/-- Bytes of a lane are unrecoverable from now on: the entries that hold them say so (R9, R226). -/
def Dev.addBad (d : Dev) (lane off len : Nat) : Dev :=
  let hit (e : SettledEntry) : Bool :=
    e.lane == lane && decide (e.offset < off + len) && decide (off < e.offset + e.bytes.length + e.voidBytes)
  { d with ldg := { d.ldg with store := updWhere hit (fun e => { e with bad := e.bad ++ [(off, len)] }) d.ldg.store } }

/-- The LSN of the entry that holds a lane's byte (R226). -/
def Dev.lsnAt (d : Dev) (lane off : Nat) : Nat :=
  ((d.ldg.store.find? fun e => e.lane == lane && decide (e.offset ≤ off) && decide (off < e.offset + e.bytes.length + e.voidBytes)).map
    (·.lsn)).getD 0

/-- Step 5 of R210: the codeword is unrecoverable. Its record names lane and LSN (R226), and R9 applies. -/
def Dev.accessLost (d : Dev) (a : Access) : Dev :=
  let p := pgFstr a.bay
  let c := (d.accessCw a).getD { kind := 0 }
  let lsn := d.lsnAt c.lane c.offset
  let d := ((d.readStats a 5 0).readWear a 5 0).dropAccess a.id
  let d := (((d.irq pgFint FINT_IRQ_UNRECOV).irq p FSTR_IRQ_STRIPE_DOUBLE).setDegraded p).fault p 0x0503 true false [c.lane, lsn, lsn / 2 ^ 32]
  if c.kind != 1 then d
  else
    match a.why with
    | .task n => d.updTask n fun t => { t with lost := t.lost ++ [(c.offset, c.valid)] }
    | .gather .. | .reclaim .. | .rebuild .. | .scrub | .part _ => d.addBad c.lane c.offset c.valid

/-- Step 4 of R210: the other elements of the row are read in the same class, each with steps 1 to 3. Without parity in the row, or with
another element on a lost die, the codeword is unrecoverable (R226). -/
def Dev.stepParity (d : Dev) (a : Access) : Dev :=
  match d.rowAt a.bay a.stripe a.row with
  | none => d.accessLost a
  | some x =>
    let others := (x.pages.filter (·.element != a.element)).map (·.element)
    if !x.parity || others.any fun e => d.isDead a.bay (d.tableAt a.bay a.stripe e).1 then d.accessLost a
    else
      others.foldl (fun d e =>
        let r := d.newAccess { a with id := 0, why := .part a.id, element := e, softReads := 0, parts := [], partFailed := false, readBad := false }
        (r.2.updAccess a.id fun x => { x with parts := x.parts ++ [r.1.id] }).beginRead r.1) (d.setAccess { a with step := 4, parts := [], partFailed := false, readBad := false })

/-- A part of step 4 has ended; once all have, the XOR is decoded, or the row has lost two elements (R226). -/
def Dev.partEnd (d : Dev) (parent part : Nat) (ok : Bool) : Dev :=
  match d.accessOf parent with
  | none => d
  | some a =>
    let a := { a with parts := a.parts.filter (· != part), partFailed := a.partFailed || !ok }
    let d := d.setAccess a
    if !a.parts.isEmpty then d else if a.partFailed then d.accessLost a else d.toDecode a.id

/-- An access begins: step 1, or step 4 at once where its die is lost (R226). -/
def Dev.startAccess (d : Dev) (why : ReadFor) (b s r e cw cls : Nat) : Dev :=
  let x := d.newAccess { id := 0, why := why, bay := b, stripe := s, row := r, element := e, cw := cw, cls := cls }
  if d.isDead b (d.tableAt b s e).1 then x.2.stepParity x.1 else x.2.beginRead x.1

/-- Steps 1 to 3 have failed on an access: step 4, but not for a part of another's (R210). -/
def Dev.deepFail (d : Dev) (a : Access) : Dev :=
  match a.why with
  | .part i => ((d.readStats a 0 0).dropAccess a.id).partEnd i a.id false
  | .task _ | .gather .. | .reclaim .. | .rebuild .. | .scrub => d.stepParity a

/-- The decode of an access has failed: its next step (R210, R213, R214). -/
def Dev.accessFailed (d : Dev) (a : Access) : Dev :=
  let a := { a with readBad := false }
  let retry := d.slotStart a.bay 19 != 0
  if a.step = 4 then d.accessLost a
  else if a.step < 3 && retry && a.tried.length ≤ d.get pgFint FINT_RETRY_WALK_MAX && a.tried.length < 16 then
    let e := ((a.tried.head?).getD 0 + a.tried.length) % 16
    let a := { a with step := 2, entry := e, tried := a.tried ++ [e] }
    (d.setAccess a).queueRead a e 0
  else if a.step < 3 && retry && d.get pgFint FINT_RETRY_SOFT_DELTA != 0 then
    let a := { a with step := 3, softReads := 0 }
    ((d.setAccess a).queueRead a a.entry 1).queueRead a a.entry 2
  else d.deepFail a

/-- The codeword of an access has been recovered with `n` corrected bits. -/
def Dev.accessDone (d : Dev) (a : Access) (n : Nat) : Dev :=
  let d := ((d.readStats a a.step n).readWear a a.step n).dropAccess a.id
  match a.why with
  | .part i => d.partEnd i a.id true
  | .task _ | .gather .. | .reclaim .. | .rebuild .. | .scrub => d

/-- CODEWORD_READ: the decode on codec `c` ends; `met`: all parity checks are met, after so many iterations and with so many corrected
bits, and at step 4 the metadata names what was expected. A decode stops at its limit, and a read that gave no data has nothing to
decode (R209, R226). -/
def execCodewordRead (c : Fin 16) (met : Option (Nat × Nat)) (s : State) : Host.Outcome State Fault Refusal :=
  .next (s.noting (.cmd (.codewordRead c met)) fun s => s.dec fun _ d =>
    match d.fls.codecs[c] with
    | none => d
    | some x =>
      let d := { d with fls := { d.fls with codecs := d.fls.codecs.set c none } }
      let d := match d.accessOf x.access with
        | none => d
        | some a =>
          match met with
          | some (i, n) => if a.readBad || x.limit < i then d.accessFailed a else d.accessDone a n
          | none => d.accessFailed a
      d.assignCodecs 16)

/-- SCRUB_READ of a codeword of a Settled page; nothing while SCRUB_H is 0 (R232). -/
def execScrubRead (b : Fin 4) (st r e cw : Nat) (s : State) : Host.Outcome State Fault Refusal :=
  .next (s.noting (.cmd (.scrubRead b st r e cw)) fun s => s.dec fun _ d =>
    match d.rowAt b st r with
    | some x =>
      let here := x.parity && x.pages.any fun p => p.element == e && p.verified && decide (cw < p.cws.length)
      if d.get pgFint FINT_SCRUB_SCRUB_H = 0 || !here then d else d.startAccess .scrub b st r e cw 5
    | none => d)

/-! ### The accesses of a lost die or of dropped operations -/

/-- The reads of an access have been dropped with the die's operations: it goes on at step 4 (R225, R226). -/
def Dev.accessCut (d : Dev) (id : Nat) : Dev :=
  match d.accessOf id with
  | some a => if a.step = 4 then d else d.deepFail { a with readBad := false }
  | none => d

/-! ### What stands where (R203, R220 to R222, R254) -/

/-- Has lane `n` data that counts? -/
def Dev.laneHas (d : Dev) (n : Nat) : Bool := (d.lane n).state != .free && (d.lane n).state != .reclaiming

/-- The bay in which the entry of codeword `c` stands, or is to stand (R191, R220). -/
def Dev.entryBay (d : Dev) (c : Codeword) : Option Nat :=
  match (d.task c.lsn).filter (!·.settled) with
  | some t => t.bay
  | none =>
    (d.ldg.store.find? fun e => e.lane == c.lane && decide (e.offset ≤ c.offset)
      && decide (c.offset < e.offset + e.bytes.length + e.voidBytes)).bind (·.bay)

/-- Has bay `b` a newer copy of log codeword `c` that is Settled, in a verified page of a row with verified parity (R203, R220)? -/
def Dev.newerSettled (d : Dev) (b : Nat) (c : Codeword) : Bool :=
  (d.bmap b).stripes.any fun x => !x.bale && x.rows.any fun r => r.parity && r.pages.any fun p => p.verified && p.cws.any fun y =>
    y.kind == 1 && y.lane == c.lane && decide (c.wseq < y.wseq) && decide (y.offset ≤ c.offset)
      && decide (c.offset + c.valid ≤ y.offset + y.valid)

/-- Is log codeword `c` of bay `b` the copy of its bytes in the log: the newest Settled one, in the bay of its entry? -/
def Dev.logCurrent (d : Dev) (b : Nat) (c : Codeword) : Bool :=
  c.kind == 1 && d.laneHas c.lane && d.entryBay c == some b && !d.newerSettled b c

/-- Is the bale of a codeword named by a GATHERED entry whose delta is Settled (R254)? -/
def Dev.isGathered (d : Dev) (lane off : Nat) : Bool :=
  [0, 1, 2, 3].any fun b => (d.bmap b).gathered.any fun g => g.1 == lane && g.2.1 == off / 2 ^ 20

/-- Does log codeword `c` of bay `b` count as live (R222)? One superseded by a gather does until the gather's delta is Settled (R254). -/
def Dev.logLive (d : Dev) (b : Nat) (c : Codeword) : Bool := d.logCurrent b c && !d.isGathered c.lane c.offset

/-- Does the codeword in slot `j` of bale stripe `s` count as live: a mapping entry, a Settled GATHERED entry or a gather names it (R222,
R254)? -/
def Dev.baleLive (d : Dev) (b s j : Nat) (c : Codeword) : Bool :=
  let k := c.offset / 2 ^ 20
  let holds (slot count : Nat) : Bool := decide (slot ≤ j) && decide (j < slot + count)
  c.kind == 1 && d.laneHas c.lane &&
    (((d.baleHome c.lane k).any fun h => h.1 == b && h.2.1 == s && holds h.2.2.1 h.2.2.2)
      || ((d.bmap b).gathered.any fun g => g.1 == c.lane && g.2.1 == k && g.2.2.1 == s && holds g.2.2.2.1 g.2.2.2.2)
      || (d.fls.gathers.any fun g => g.lane == c.lane && g.bale == k && g.bay == b && g.stripe == s && holds g.slot g.count))

/-- Where a codeword stands: bay, stripe, row, element, codeword. -/
abbrev CwPlace := Nat × Nat × Nat × Nat × Nat

/-- The LANE_DATA codewords of a stripe with their places. -/
def stripeCws (b : Nat) (st : Stripe) : List (CwPlace × Codeword) :=
  st.rows.flatMap fun r => r.pages.flatMap fun p => p.cws.zipIdx.filterMap fun c =>
    if c.1.kind == 1 then some ((b, st.id, r.row, p.element, c.2), c.1) else none

/-- The log copies of a lane's bytes `[lo, hi)`. -/
def Dev.logPlaces (d : Dev) (lane lo hi : Nat) : List CwPlace :=
  [0, 1, 2, 3].flatMap fun b => ((d.bmap b).stripes.filter (!·.bale)).flatMap fun st =>
    ((stripeCws b st).filter fun x => x.2.lane == lane && decide (x.2.offset < hi) && decide (lo < x.2.offset + x.2.valid)
      && d.logCurrent b x.2).map (·.1)

/-- The places of bytes `[lo, hi)` of a lane's bale in the bale stripe that the mapping names (R221, R223). -/
def Dev.balePlaces (d : Dev) (lane bale lo hi : Nat) : List CwPlace :=
  match d.baleHome lane bale with
  | some (b, s, j0, l) =>
    ((List.range l).filter fun x => decide (bale * 2 ^ 20 + x * 4096 < hi) && decide (lo < bale * 2 ^ 20 + (x + 1) * 4096)).map fun x =>
      let t := d.slotAt b (j0 + x)
      (b, s, t.1, t.2.1, t.2.2)
  | none => []

/-! ### Reads for READ tasks (R178, R210, R221) -/

/-- The parts of a range by bale: bale, first byte, end. -/
def baleParts (off len : Nat) : List (Nat × Nat × Nat) :=
  ((List.range (len / 2 ^ 20 + 2)).map (· + off / 2 ^ 20)).filterMap fun k =>
    let lo := max off (k * 2 ^ 20)
    let hi := min (off + len) ((k + 1) * 2 ^ 20)
    if lo < hi then some (k, lo, hi) else none

/-- Where READ `t` finds its codewords: a bale that was gathered when it was decided in its bale stripe, another in the log (R221). -/
def Dev.readPlaces (d : Dev) (t : TaskSt) : List CwPlace :=
  (baleParts t.readOffset (d.readRange t)).flatMap fun x =>
    if t.bales.contains x.1 then d.balePlaces t.lane x.1 x.2.1 x.2.2 else d.logPlaces t.lane x.2.1 x.2.2

/-- The reads of READ tasks that wait for nothing more are queued in class 3, one for each codeword of their range (R75, R178). What
lies in a bay that is not there is not read (R193). -/
def Dev.issueReads (d : Dev) : Dev :=
  let d := { d with fls := { d.fls with issued := d.fls.issued.filter fun n => (d.task n).isSome } }
  d.ldg.tasks.foldl (fun d t =>
    if t.opc != .read || d.fls.issued.contains t.lsn || d.isMet t.lsn || d.readWaits t then d
    else
      ((d.readPlaces t).filter fun x => d.bayHere x.1).foldl (fun d x => d.startAccess (.task t.lsn) x.1 x.2.1 x.2.2.1 x.2.2.2.1 x.2.2.2.2 3)
        { d with fls := { d.fls with issued := d.fls.issued ++ [t.lsn] } }) d

end Sys2Proof.Machine
end

