-- ==== Sys2Proof/Machine/Integrity.lean ====
section
/-! DEFINITION. Flash data integrity: verify, parity, settlement, gather, reclaim, die loss, rebuild, formatting and wear (chapter 06). -/

namespace Sys2Proof.Machine

open Sys2Proof

/-! ### Verify (R215, R230) -/

/-- Is a codeword of what was programmed as its metadata came out of the decoder (R215)? `l` are its 4,112 bytes of data and metadata. -/
def Dev.metaSent (d : Dev) (b : Nat) (p : ElemPage) (i : Nat) (c : Codeword) (l : List Byte) : Bool :=
  if c.kind = 3 then (l.drop 4096).take 16 == (c.data.drop 4096).take 16
  else
    (derandomise (d.flag pgFint FINT_CTL_RAND_EN) (nthD p.rows (i / d.get (pgBay b) BAY_GEOM0_PAGE_CW) 0) i p.die l).2 == c.meta

/-- Has the verify of a page failed (R215), given each codeword's iterations, corrected bits and decoded bytes? Whether a codeword does
not decode, within HARD_ITER iterations; whether one needs more bits than allowed; whether one has other metadata. -/
def Dev.verifyBad (d : Dev) (p : ElemPage) (cws : List (Option (Nat × Nat × List Byte))) : Bool :=
  (List.range p.cws.length).any fun i =>
    match nthD cws i none with
    | some x => decide (max 1 (d.get pgFint FINT_CTL_HARD_ITER) < x.1) || decide (d.get pgFint FINT_VERIFY_VERIFY_MAX_BITS < x.2.1)
    | none => true

/-- Has a verify found other metadata than sent? -/
def Dev.miswritten (d : Dev) (b : Nat) (p : ElemPage) (cws : List (Option (Nat × Nat × List Byte))) : Bool :=
  p.cws.zipIdx.any fun c =>
    match nthD cws c.2 none with
    | some x => decide (x.1 ≤ max 1 (d.get pgFint FINT_CTL_HARD_ITER)) && !d.metaSent b p c.2 c.1 x.2.2
    | none => false

/-- A program has failed (R215, R230): the stripe is closed after its last good row, what its later rows carry is programmed again, and
the block set is retired when the stripe is reclaimed. -/
def Dev.programFailed (d : Dev) (b s r e : Nat) : Dev :=
  let t := d.tableAt b s e
  let d := d.putBset b t.1 t.2 { d.bset b t.1 t.2 with retire := true }
  (d.dropPages b s (fun x => decide (r ≤ x.row) && !x.parity) fun _ _ => false).closeStripe b s

/-- The elements of stripe `s` that stand on die `x`. -/
def Dev.elemsOn (d : Dev) (b s x : Nat) : List Nat := (List.range (d.width b)).filter fun e => (d.tableAt b s e).1 == x

/-- The page (stripe, row, element) that the rebuild of bay `b` has programmed and not yet verified (R227). -/
def Dev.rebuiltPage (d : Dev) (b s r e : Nat) : Bool :=
  match (d.bmap b).rebuild with
  | some x => x.left.head? == some s && x.place.isSome && (d.elemsOn b s x.die).contains e && x.pages.any fun p => p.1 == r && p.2.1 && !p.2.2
  | none => false

/-- PROGRAM_VERIFY of an element page: for each codeword its iterations, corrected bits and the 4,112 bytes decoded, `none` where it does
not decode. The corrected bits go to the statistics (R209). -/
def execProgramVerify (b : Fin 4) (st r e : Nat) (cws : List (Option (Nat × Nat × List Byte))) (s : State) :
    Host.Outcome State Fault Refusal :=
  .next (s.noting (.cmd (.programVerify b st r e cws)) fun s => s.dec fun _ d =>
    match d.pageOfOp (b, st, r, e) with
    | some p =>
      let rebuilt := d.rebuiltPage b st r e
      let reading := (d.bayOps b).any fun o => o.kind == .verify && o.page == some (b.val, st, r, e)
      if reading || !p.full || !(rebuilt || (!p.verified && (p.programmed || p.failed))) then d
      else
        let d := d.updMap b fun m => { m with corrAcc := m.corrAcc + (cws.map fun c => (c.map (·.2.1)).getD 0).sum }
        let wrong := d.miswritten b p cws
        let d := if wrong then (d.irq pgFint FINT_IRQ_MISWRITE).fault pgFint 0x0501 false false [p.die, st, r] else d
        let bad := (!rebuilt && p.failed) || wrong || d.verifyBad p cws
        if rebuilt then (if bad then d.rebuildFailed b else d.updRebuilt (b, st, r, e) fun x => (x.1, true))
        else if bad then d.programFailed b st r e
        else
          (d.updPage (b, st, r, e) fun p => { p with verified := true }).updRow b st r fun x =>
            { x with parity := x.parity || e == parityElem (d.width b) r }
    | none => d)

/-! ### Rows and settlement (R219, R220) -/

/-- ROW_CLOSE_EXPIRY: an open row that holds a codeword for ROW_CLOSE_G Grains, 0 taken as 1; the deltas collected go with it (R219,
R236, R254). -/
def execRowCloseExpiry (b : Fin 4) (st r : Nat) (s : State) : Host.Outcome State Fault Refusal :=
  .next (s.noting (.cmd (.rowCloseExpiry b st r)) fun s => s.dec fun _ d =>
    match d.rowAt b st r with
    | some x =>
      if x.closed || x.pages.all (·.cws.isEmpty) || d.gtime < x.since + max 1 (d.get (pgFstr b) FSTR_ROW_ROW_CLOSE_G) then d
      else
        let d := if (d.stripe b st).any (·.bale) then d else d.placeDeltas b 8
        if (d.rowAt b st r).any (·.closed) then d else d.closeRow b st r
    | none => d)

/-- Codeword `i` of the parity page of row `x`: the XOR of codeword `i` of its data pages, all 4,608 bytes (R219). -/
def Dev.parityData (d : Dev) (b : Nat) (x : Row) (i : Nat) : List Byte :=
  x.pages.foldl (fun acc p =>
    match p.cws[i]? with
    | some c => xorBytes acc (c.image (d.flag pgFint FINT_CTL_RAND_EN) (nthD p.rows (i / d.get (pgBay b) BAY_GEOM0_PAGE_CW) 0) i p.die)
    | none => acc) (List.replicate 4608 0)

/-- The parity page of row `x` of stripe `s` (R203, R219). -/
def Dev.parityPage (d : Dev) (b s : Nat) (x : Row) : ElemPage × Dev :=
  let w := d.nextWseq b
  let q := d.newPage b s x.row (parityElem (d.width b) x.row)
  ({ q with full := true, cws := (List.range (d.pageCws b)).map fun i => { kind := 3, wseq := w.1, data := d.parityData b x i } }, w.2)

/-- PARITY_PROGRAM: every data page of the row has been verified (R219). -/
def execParityProgram (b : Fin 4) (st r : Nat) (s : State) : Host.Outcome State Fault Refusal :=
  .next (s.noting (.cmd (.parityProgram b st r)) fun s => s.dec fun _ d =>
    match d.rowAt b st r with
    | some x =>
      if !x.closed || x.parityQueued || !x.pages.all (·.verified) then d
      else
        let p := d.parityPage b st x
        let keys := (x.pages.flatMap (·.cws)).flatMap (d.keysOf b)
        (p.2.updRow b st r fun x => { x with parityQueued := true, pages := x.pages ++ [p.1] }).queueProgram b st r p.1 keys
    | none => d)

/-- Are all codewords of entry `lsn` in bay `b` verified, with its record codewords and the parity of each row concerned (R220)? -/
def Dev.allVerified (d : Dev) (b lsn : Nat) : Bool :=
  (d.bmap b).stripes.all fun x => x.rows.all fun r =>
    let mine := r.pages.filter fun p => p.cws.any (·.lsn == lsn)
    mine.isEmpty || (r.parity && mine.all (·.verified))

/-- The ranges of entry `lsn` that its pages in bay `b` mark as unrecoverable (R148, R218). -/
def Dev.markedOf (d : Dev) (b lsn : Nat) : List (Nat × Nat) :=
  (d.bmap b).stripes.flatMap fun x => x.rows.flatMap fun r => r.pages.flatMap fun p =>
    (p.cws.zipIdx.filter fun c => c.1.lsn == lsn && c.1.kind == 1).flatMap fun c => c.1.lostRanges c.2 p.cws

/-- Does the record of `t` change its lane's descriptor state (R78, R254)? -/
def TaskSt.changesLane (t : TaskSt) : Bool :=
  match t.opc with
  | .openLane | .seal => true
  | .release => bit t.flags 2
  | .append | .mark | .read | .query | .flush | .abort => false

/-- ENTRY_SETTLE: at the edge after the last verification the settlement of entry `lsn` is reported (R220, R253). A change of a lane's
state is a map delta (R254). -/
def execEntrySettle (lsn : Nat) (s : State) : Host.Outcome State Fault Refusal :=
  .next (s.noting (.cmd (.entrySettle lsn)) fun s => s.ledger fun vis d =>
    match d.task lsn, (vis.task lsn).bind (·.bay) with
    | some t, some b =>
      if t.settled || t.bay != some b || !vis.isPlaced t || !d.isPlaced t || !vis.allVerified b lsn then d
      else if t.opc == .append then
        if vis.mc.extents.contains lsn then d.settleAppend t t.fifo (d.markedOf b lsn) else d
      else
        let d := d.settleTask lsn
        if t.changesLane then d.delta b (.lane t.lane) else d
    | _, _ => d)

/-- Give back the map pages of a lane that becomes FREE (R251, R253). -/
def Dev.freeLaneMap (d : Dev) (lane bales : Nat) : Dev :=
  let base := d.descAddr lane
  let d := (List.range bales).foldl (fun d b =>
    let a := d.baleLook lane b
    if a != 0 && d.baleState a == 1 then d.freeExt 65536 (d.memNat (a + 10) 6 * 4096) else d) d
  let pages := (List.range bales).foldl (fun l b =>
    let a := d.baleLook lane b / 4096 * 4096
    if b < 2 || a = 0 || l.contains a then l else a :: l) []
  let ptr (a : Nat) : List Nat := if d.memNat a 8 = 0 then [] else [d.memNat a 8]
  let tri := ptr (base + 112)
  let doubles := ptr (base + 104) ++ tri.flatMap fun p => (List.range 512).flatMap fun i => ptr (p + 8 * i)
  ((pages ++ doubles ++ tri).foldl Dev.poolFree d).memClear (base + 64) 64

/-- A RECLAIMING lane's stale record is Settled: the lane is FREE (R78, R222). -/
def Dev.freeLane (d : Dev) (n : Nat) : Dev :=
  let d := if (d.laneAt n).isNone then d else d.freeLaneMap n (ceilDiv (d.lane n).length (2 ^ 20))
  let gone (m : BayMap) : BayMap := { m with gathered := m.gathered.filter (·.1 != n) }
  let d := { d with ldg := { d.ldg with store := d.ldg.store.filter (·.lane != n) }
                    fls := { d.fls with maps := d.fls.maps.map gone, gathers := d.fls.gathers.filter (·.lane != n) } }
  d.setLane n { state := .free, changed := d.gtime48 }

/-- Is the delta of record `x` Settled? -/
def Dev.recordSettled (d : Dev) (x : BgRec) : Bool :=
  match x.bay, x.delta with
  | some b, some n => d.deltaSettled b n
  | _, _ => false

/-- A record without an LSN whose delta is Settled has its effect (R97, R222); that of an archive record is the burn-in's (R332). -/
def Dev.settleRecord (d : Dev) (x : BgRec) : Dev :=
  let e := { d with ldg := { d.ldg with background := d.ldg.background.filter (· != x) } }
  match x.kind with
  | .archive _ => d
  | .stale => if (d.lane x.lane).state == .reclaiming then e.freeLane x.lane else e
  | .lapse h g => { e with ldg := { e.ldg with lapses := e.ldg.lapses ++ [(h.id, x.lane, g)] } }

/-- A gather's delta is Settled: from now on the log copy does not count (R254). -/
def Dev.settleGather (d : Dev) (g : Gather) : Dev :=
  let put (i : Nat) (m : BayMap) : BayMap :=
    let l := m.gathered.filter fun x => !(x.1 == g.lane && x.2.1 == g.bale)
    { m with gathered := if i = g.bay then l ++ [(g.lane, g.bale, g.stripe, g.slot, g.count)] else l }
  { d with fls := { d.fls with
      gathers := d.fls.gathers.filter (· != g)
      maps := Vector.ofFn fun i => put i (d.bmap i) } }

/-- What the edge finds Settled of the records without an LSN and of the gathers' deltas (R254, R584). -/
def Dev.settleRecords (vis d : Dev) : Dev :=
  if d.rsv.committing then d
  else
    let d := ((d.ldg.background.filter fun x => vis.ldg.background.contains x && vis.recordSettled x).foldl Dev.settleRecord d)
    (d.fls.gathers.filter fun g => g.delta.any (vis.deltaSettled g.bay)).foldl Dev.settleGather d

/-! ### Gather (R221) -/

/-- Is a bale complete (R221)? -/
def Dev.baleComplete (d : Dev) (lane bale : Nat) : Bool :=
  let x := d.lane lane
  bale * 2 ^ 20 < x.length && min x.length ((bale + 1) * 2 ^ 20) ≤ x.settled
    && (decide ((bale + 1) * 2 ^ 20 < x.length) || x.state == .sealed)

/-- Fill the rest of a bale stripe with PAD, so that a new one is opened (R221). -/
def Dev.padStripe (d : Dev) (b s : Nat) : Nat → Dev
  | 0 => d
  | n + 1 =>
    match d.stripe b s with
    | some x =>
      if !x.isOpen then d
      else
        match x.rows.getLast? with
        | some r => (d.closeRow b s r.row).padStripe b s n
        | none => d
    | none => d

/-- The codewords of a bale: one for each region, with the bytes of its lane, VOID and UNREC as they hold void or unrecoverable bytes; head
and tail parts are merged (R203, R221). -/
def Dev.baleCws (d : Dev) (lane bale : Nat) : List Codeword :=
  let n := ceilDiv (min ((d.lane lane).length - bale * 2 ^ 20) (2 ^ 20)) 4096
  let bad := (d.ldg.store.filter (·.lane == lane)).flatMap (·.bad)
  (List.range n).map fun i =>
    let off := bale * 2 ^ 20 + i * 4096
    let k := min 4096 ((d.lane lane).length - off)
    let x := laneBytes d.ldg.store lane off k
    let lost := bad.any fun r => decide (r.1 < off + k) && decide (off < r.1 + r.2)
    { kind := 1, lane := lane, offset := off, valid := k, void := x.2, unrec := lost, data := x.1 }

/-- The gather's sources are read in class 5: from the log, or from the bale stripe that is to be reclaimed (R210, R222). -/
def Dev.gatherReads (d : Dev) (b lane bale : Nat) : Dev :=
  let hi := min (d.lane lane).length ((bale + 1) * 2 ^ 20)
  let places := if (d.baleHome lane bale).isSome then d.balePlaces lane bale (bale * 2 ^ 20) hi else d.logPlaces lane (bale * 2 ^ 20) hi
  let d := { d with fls := { d.fls with gathers := d.fls.gathers ++ [{ lane := lane, bale := bale, bay := b }] } }
  places.foldl (fun d x => d.startAccess (.gather lane bale) x.1 x.2.1 x.2.2.1 x.2.2.2.1 x.2.2.2.2 5) d

/-- The bale's codewords are placed in the open bale stripe of the gather's bay; its slot never crosses a stripe end (R221). -/
def Dev.gatherPlace (d : Dev) (g : Gather) : Dev :=
  let l := d.baleCws g.lane g.bale
  let total := d.dcw g.bay * d.get (pgBay g.bay) BAY_GEOM0_PAGES_PER_BLOCK
  let d := match d.openOne g.bay true with
    | some st => if total < d.nextSlot g.bay st + l.length then d.padStripe g.bay st.id 65536 else d
    | none => d
  let start := (d.openOne g.bay true).map fun st => (st.id, d.nextSlot g.bay st)
  match l.foldl (fun (acc : Option Dev) c => acc.bind fun d => d.placeCw g.bay true c 8) (some d) with
  | some d =>
    let x := start.getD (((d.openOne g.bay true).map Stripe.id).getD 0, 0)
    let new (y : Gather) : Gather := if y == g then { g with stripe := x.1, slot := x.2, count := l.length } else y
    { d with fls := { d.fls with gathers := d.fls.gathers.map new } }
  | none => d

/-- Have the rows of a gather been verified with parity (R221)? -/
def Dev.gatherVerified (d : Dev) (g : Gather) : Bool :=
  (List.range g.count).all fun i => (d.rowAt g.bay g.stripe ((g.slot + i) / d.dcw g.bay)).any fun r => r.parity && r.pages.all (·.verified)

/-- The mapping entry names the bale stripe and the bale's extents are freed; the GATHERED entry is a map delta (R221, R253, R254). A
codeword marked unrecoverable has no listed marks in a bale stripe, and so is so in every word (R218, R221). -/
def Dev.gatherMap (d : Dev) (g : Gather) : Dev :=
  match d.baleAddr g.lane g.bale with
  | some (a, e) =>
    let ext := if e.baleState a = 1 then e.memNat (a + 10) 6 * 4096 else 0
    let e := (e.freeExt 65536 ext).memW a (gatheredEntry g.bay g.stripe g.slot g.count)
    let e := ((e.baleCws g.lane g.bale).filter (·.unrec)).foldl (fun e c => e.addBad c.lane c.offset c.valid) e
    let n := (e.bmap g.bay).deltaNo
    let new (y : Gather) : Gather := if y == g then { g with delta := some n } else y
    ({ e with fls := { e.fls with gathers := e.fls.gathers.map new } }).delta g.bay (.gathered g.lane g.bale)
  | none => d

/-- May a bale be gathered: it is complete and in the log, or its bale stripe is being reclaimed (R221, R222)? -/
def Dev.gatherReady (d : Dev) (b lane bale : Nat) : Bool :=
  d.baleComplete lane bale && d.bayWritable b && d.takesData b && d.flag pgFsch FSCH_CTL_RUN && (d.laneAt lane).isSome &&
    match d.baleHome lane bale with
    | some h => (d.stripe h.1 h.2.1).any (·.erasing)
    | none => true

/-- BALE_GATHER of a lane's bale into bay `b`: the next part of it that is due. It starts for a bale that is ready; once its sources have
been read it is placed; once its rows are verified the mapping names it (R221). -/
def execBaleGather (b : Fin 4) (lane bale : Nat) (s : State) : Host.Outcome State Fault Refusal :=
  .next (s.noting (.cmd (.baleGather b lane bale)) fun s => s.dec fun vis d =>
    match d.fls.gathers.find? fun g => g.lane == lane && g.bale == bale with
    | some g =>
      if g.delta.isSome then d
      else if g.count = 0 then
        if d.fls.accesses.any fun a => a.why == .gather lane bale then d else d.gatherPlace g
      else if vis.fls.gathers.contains g && vis.gatherVerified g then d.gatherMap g else d
    | none => if vis.flag pgFsch FSCH_STAT_URGENT || !d.gatherReady b lane bale then d else d.gatherReads b lane bale)

/-! ### Reclaim (R222) -/

/-- Is codeword `x` of stripe `st` of bay `b` live (R222)? -/
def Dev.cwLive (d : Dev) (b : Nat) (st : Stripe) (x : CwPlace × Codeword) : Bool :=
  if st.bale then
    let r := x.1.2.2.1
    let e := x.1.2.2.2.1
    let q := if e < parityElem (d.width b) r then e else e - 1
    d.baleLive b st.id (r * d.dcw b + q * d.pageCws b + x.1.2.2.2.2) x.2
  else d.logLive b x.2

/-- The live codewords of a stripe with their places. -/
def Dev.liveCws (d : Dev) (b : Nat) (st : Stripe) : List (CwPlace × Codeword) := (stripeCws b st).filter (d.cwLive b st)

/-- The lanes of the end records in a record codeword (R151, R218). -/
def recordLanes (c : Codeword) : List Nat :=
  (List.range (nthD c.data 4 0).toNat).map fun i => leNat ((c.data.drop (64 * i + 72)).take 3) % 2 ^ 20

/-- Is record codeword `c` carried forward: does it hold an end record of a lane that is OPEN or SEALING (R222)? -/
def Dev.carries (d : Dev) (c : Codeword) : Bool :=
  c.kind == 2 && (recordLanes c).any fun n => (d.lane n).state == .open || (d.lane n).state == .sealing

/-- The record codewords of a stripe that are carried forward, with their places. -/
def Dev.carriedCws (d : Dev) (b : Nat) (st : Stripe) : List (CwPlace × Codeword) :=
  st.rows.flatMap fun r => r.pages.flatMap fun p => p.cws.zipIdx.filterMap fun c =>
    if d.carries c.1 then some ((b, st.id, r.row, p.element, c.2), c.1) else none

/-- Do the end records of codeword `c` stand Settled in another stripe of the bay too? -/
def Dev.carriedElsewhere (d : Dev) (b s : Nat) (c : Codeword) : Bool :=
  (d.bmap b).stripes.any fun x => x.id != s && x.rows.any fun r => r.parity && r.pages.any fun p => p.verified && p.cws.any fun y =>
    y.kind == 2 && y.data.drop 64 == c.data.drop 64

/-- Queue the erases of a stripe's block sets, one operation for each element whose die is not lost (R178, R222). -/
def Dev.queueErases (d : Dev) (b s : Nat) : Dev :=
  let l := (List.range (d.width b)).filter fun e =>
    !d.isDead b (d.tableAt b s e).1 && (d.bset b (d.tableAt b s e).1 (d.tableAt b s e).2).state != .retired
  let d := l.foldl (fun d e =>
    let t := d.tableAt b s e
    d.queueOp (4 * b + dieChan t.1)
      { id := 0, kind := .erase, slot := if d.planes b = 1 then 6 else 7, pfa := d.setPfa b t.1 t.2 0 0 0
        planes := (List.range (d.planes b - 1)).map fun i => d.setPfa b t.1 t.2 (i + 1) 0 0
        cls := 5, page := some (b, s, 0, e) }) d
  d.updStripe b s fun x => { x with eraseLeft := some l, erased := [] }

/-- Every erase of a stripe has ended: counts rise, block sets to be retired are, the others are free again, and so is the
stripe (R222, R230, R233). -/
def Dev.freeStripe (vis d : Dev) (b s : Nat) : Dev :=
  let d := (List.range (d.width b)).foldl (fun d e =>
    let t := d.tableAt b s e
    let x := d.bset b t.1 t.2
    if d.isDead b t.1 || x.state == .retired then d
    else
      let y : BlockSet := { state := .free, erases := x.erases + 1 }
      let d := d.setBset b t.1 t.2 y
      if x.retire || d.get (pgFstr b) FSTR_THRESH_PE_LIMIT ≤ y.erases then Dev.retireSet vis d b t.1 t.2 else d) d
  let d := d.updMap b fun m => { m with stripes := m.stripes.filter (·.id != s) }
  (d.put (pgBay b) BAY_FREE (d.get (pgBay b) BAY_FREE + 1)).wearStat b

/-- The erases of a stripe that have ended: a block set whose erase failed is retired at once (R230). -/
def Dev.eraseStep (vis d : Dev) (b : Nat) (x : Stripe) (left : List Nat) : Dev :=
  let d := (x.erased.filter (!·.2)).foldl (fun d p =>
    let t := d.tableAt b x.id p.1
    Dev.retireSet vis d b t.1 t.2) d
  let left := left.filter fun e => !(x.erased.any (·.1 == e)) && !d.isDead b (d.tableAt b x.id e).1
  if left.isEmpty then Dev.freeStripe vis d b x.id
  else d.updStripe b x.id fun x => { x with eraseLeft := some left, erased := [] }

/-- Is a read of the stripe in progress, or one that a READ decided before a gather will make, or is an element of it being rebuilt (R221,
R227)? -/
def Dev.beingRead (d : Dev) (b : Nat) (st : Stripe) : Bool :=
  (d.fls.accesses.any fun a => a.bay == b && a.stripe == st.id)
    || ((d.bmap b).rebuild.any fun r => r.left.head? == some st.id && r.place.isSome)
    || d.ldg.tasks.any fun t => t.opc == .read && !d.isMet t.lsn && !d.fls.issued.contains t.lsn
      && (stripeCws b st).any fun x => x.2.lane == t.lane && decide (x.2.offset < t.readOffset + t.length)
        && decide (t.readOffset < x.2.offset + x.2.valid)

/-- The live codewords and carried record codewords of a log stripe are read in class 5 (R210, R222). -/
def Dev.reclaimReads (d : Dev) (b : Nat) (st : Stripe) : Dev :=
  let l := if st.bale then [] else (d.liveCws b st ++ d.carriedCws b st).map (·.1)
  l.foldl (fun d x => d.startAccess (.reclaim b st.id) x.1 x.2.1 x.2.2.1 x.2.2.2.1 x.2.2.2.2 5)
    (d.updStripe b st.id fun x => { x with reading := true })

/-- A codeword as it is written again: bytes that its lane has lost are marked (R9, R218). -/
def Dev.moved (d : Dev) (c : Codeword) : Codeword :=
  let bad := (d.ldg.store.filter (·.lane == c.lane)).flatMap (·.bad)
  let marks := (List.range 64).filter fun m => c.kind == 1 && decide (64 * m < c.valid) &&
    (c.marks.contains m || bad.any fun r => decide (r.1 < c.offset + 64 * m + 64) && decide (c.offset + 64 * m < r.1 + r.2))
  { c with lsn := 0, last := false, endRec := [], marks := marks, unrec := c.unrec || !marks.isEmpty }

/-- What the reads of a reclaim found is written again into the log stripe: live codewords, and record codewords as new ones (R222). -/
def Dev.reclaimMove (d : Dev) (b : Nat) (st : Stripe) : Dev :=
  let l := if st.bale then [] else (d.liveCws b st ++ d.carriedCws b st).map fun x => d.moved x.2
  let d0 := d.updStripe b st.id fun x => { x with reading := false, erasing := true }
  (l.foldl (fun (acc : Option Dev) c => acc.bind fun d => d.placeCw b false c 8) (some d0)).getD d

/-- The extents of codewords that a reclaim has moved name their new places (R252). -/
def Dev.remap (d : Dev) (b : Nat) (st : Stripe) : Dev :=
  if st.bale then d
  else
    (stripeCws b st).foldl (fun d x =>
      let c := x.2
      if !d.laneHas c.lane || (d.baleHome c.lane (c.offset / 2 ^ 20)).isSome || d.laneAt c.lane == none then d
      else
        match (d.logSlots b fun r p y => r.parity && p.verified && y.lane == c.lane && y.offset == c.offset && d.logCurrent b y).head? with
        | some y => (d.addExtent c.lane c.offset b y.2.2.valid y.1 y.2.1).getD d
        | none => d) d

/-- Has stripe `st` few live codewords (R222)? -/
def Dev.fewLive (d : Dev) (b : Nat) (st : Stripe) : Bool :=
  (d.liveCws b st).length * 100 < d.get (pgFstr b) FSTR_WL_RECLAIM_PCT * max 1 (stripeCws b st).length

/-- STRIPE_RECLAIM: the next part of the reclaim of a closed stripe with few live codewords, or marked, whose rows are all Settled. What
is live is read and written again; once nothing live is left in it and no read of it is in progress its erases are queued, and their
ends are taken (R222). -/
def execStripeReclaim (b : Fin 4) (st : Nat) (s : State) : Host.Outcome State Fault Refusal :=
  .next (s.noting (.cmd (.stripeReclaim b st)) fun s => s.dec fun vis d =>
    match d.stripe b st with
    | some x =>
      if x.isOpen || !x.rows.all (·.parity) || vis.flag pgFsch FSCH_STAT_URGENT || !d.takesData b then d
      else if x.erasing then
        match x.eraseLeft with
        | some left => Dev.eraseStep vis d b x left
        | none =>
          if !(vis.liveCws b x).isEmpty || !(d.liveCws b x).isEmpty || !(d.carriedCws b x).all (fun c => vis.carriedElsewhere b st c.2)
              || d.beingRead b x then d
          else (d.remap b x).queueErases b st
      else if x.reading then
        if d.fls.accesses.any fun a => a.why == .reclaim b st then d else d.reclaimMove b x
      else if x.reclaim || d.fewLive b x then d.reclaimReads b x
      else d
    | none => d)

/-- STALE_RECORD_WRITE: after its release record has Settled the background makes the stale record of a RECLAIMING lane, once no task of
a lower LSN has still to look at the lane (R80, R222, R584). It goes to the writable bay with the most free stripes (DESIGN CHOICE,
notes/assumptions/34.md). -/
def execStaleRecordWrite (lane : Nat) (s : State) : Host.Outcome State Fault Refusal :=
  .next (s.noting (.cmd (.staleRecordWrite lane)) fun s => s.dec fun vis d =>
    let waits := d.ldg.tasks.any fun t => t.opc == .release && t.lane == lane && bit t.flags 2 && !t.settled
    let made := d.ldg.background.any fun x => x.kind == .stale && x.lane == lane
    if (d.lane lane).state != .reclaiming || (vis.lane lane).state != .reclaiming || waits || made
        || d.looksBelow lane (d.lane lane).reclaimLsn then d
    else
      let x : BgRec := { kind := .stale, lane := lane, bay := vis.bestBay, behind := d.ldg.nextLsn - 1 }
      { d with ldg := { d.ldg with background := d.ldg.background ++ [x] } })

/-! ### Die loss (R225, R228) -/

/-- The stripes of bay `b` that lost die `x` holds an element of, in the order of R227: log stripes, then bale stripes. -/
def Dev.rebuildOrder (d : Dev) (b x : Nat) : List Nat :=
  let ids (bale : Bool) : List Nat := ((d.bmap b).stripes.filter fun s => !(d.elemsOn b s.id x).isEmpty && s.bale == bale).map (·.id)
  sortNat (ids false) ++ sortNat (ids true)

/-- The work on die `x` stops: its operations end, and the codeword reads they served go on at step 4 (R225, R226). -/
def Dev.stopDie (d : Dev) (b x : Nat) : Dev :=
  let k := 4 * b + dieChan x
  let ops := (d.chan k).ops.filter fun o => o.kind != .manual && lunBit o.pfa == d.dieBit b x
  let d := ops.foldl (fun d o => d.dropOp k o.id) d
  (ops.flatMap (·.acc)).foldl (fun d id => d.accessCut id) d

/-- The pages of stripe `s` on lost die `x` that are not verified are given up and what they carry is placed again; the row that lacks
them is closed, and the stripe (R225). A row whose parity was still to be written there is given up whole: it could never settle its
entries (R219, R220; DEDUCED, notes/assumptions/72.md). -/
def Dev.loseElement (d : Dev) (b x : Nat) (s : Stripe) : Dev :=
  let es := d.elemsOn b s.id x
  if es.isEmpty then d
  else
    let d := d.dropPages b s.id (fun r => !r.parity && es.contains (parityElem (d.width b) r.row)) fun _ p => es.contains p.element && !p.verified
    if s.isOpen then d.closeStripe b s.id else d

/-- A die is declared lost (R225, R227, R228). -/
def Dev.loseDie (vis d : Dev) (b x : Nat) : Dev :=
  let p := pgFstr b
  let dead := d.get64 p FSTR_DEAD_LO FSTR_DEAD_HI
  if bit dead x || d.dieCount b ≤ x then d
  else
    let d := (((d.put64 p FSTR_DEAD_LO FSTR_DEAD_HI (setBits dead x 1 1)).irq p FSTR_IRQ_DIE_LOST).setDegraded p).mapChanged b
    let d := (d.fault p 0x0502 true false [x]).stopDie b x
    let d := (d.bmap b).stripes.foldl (fun d s => d.loseElement b x s) d
    let todo := d.rebuildOrder b x
    let d :=
      if (d.bmap b).rebuild.isSome then d.updMap b fun m => { m with waiting := m.waiting ++ [x] }
      else
        ((d.updMap b fun m => { m with rebuild := some { die := x, left := todo } }).put p FSTR_REBUILD_DIE x).put p FSTR_REBUILD_LEFT
          (min 0xFFFF todo.length)
    if (d.rebuildTarget b x).isNone && 4 ≤ d.bayState b && d.bayState b ≤ 6 then Dev.bayLost vis d b 8 else d

/-- Has die `x` of bay `b` a cause to be declared lost (R225)? -/
def Dev.dieCause (d : Dev) (b x : Nat) : Bool :=
  let k := 4 * b + dieChan x
  let u := d.dieBit b x
  (d.chan k).disabled || decide (2 ≤ tabGet (fun _ => 0) (d.chan k).touts u)
    || decide (max 1 (d.get pgFint FINT_DIE_LIMIT_FAIL_OPS) ≤ tabGet (fun _ => 0) (d.bmap b).fails (64 * k + u))

/-- DIE_LOST. -/
def execDieLost (b : Fin 4) (x : Fin 64) (s : State) : Host.Outcome State Fault Refusal :=
  .next (s.noting (.cmd (.dieLost b x)) fun s => s.dec fun vis d => if d.dieCause b x then Dev.loseDie vis d b x else d)

/-- FSTR_DIE_FAIL_GO: a write of `v` to FSTR_DIE_FAIL with GO 1. -/
def execFstrDieFailGo (b : Fin 4) (v : Word) (s : State) : Host.Outcome State Fault Refusal :=
  .next (s.noting (.cmd (.fstrDieFailGo b v)) fun s => s.dec fun vis d => Dev.loseDie vis (d.put (pgFstr b) FSTR_DIE_FAIL_DIE v.toNat) b (bits v.toNat 0 6))

/-! ### Rebuild (R226, R227) -/

/-- The rows of stripe `s` that have a Settled page on element `e`, with the number of codewords of that page. -/
def Dev.rebuildRows (d : Dev) (b s e : Nat) : List (Nat × Nat) :=
  ((d.stripe b s).map fun x => x.rows.filterMap fun r =>
    if r.parity then (r.pages.find? (·.element == e)).map fun p => (r.row, p.cws.length) else none).getD []

/-- The rebuild of stripe `s` begins: its target block set is taken, and every codeword of the lost element is rebuilt from the other
elements of its row (R226, R227). It waits while no block set can be taken (R228). -/
def Dev.rebuildBegin (d : Dev) (b : Nat) (x : Rebuild) (s : Nat) : Dev :=
  match d.rebuildTarget b x.die with
  | some t =>
    let rows := (d.elemsOn b s x.die).flatMap fun e => (d.rebuildRows b s e).map fun r => (e, r)
    let d := d.setBset b t.1 t.2 { d.bset b t.1 t.2 with state := .inStripe }
    let y : Rebuild := { die := x.die, left := x.left, place := some t, pages := rows.map fun r => (r.2.1, false, false) }
    let d := d.updMap b fun m => { m with rebuild := some y }
    rows.foldl (fun d r => (List.range r.2.2).foldl (fun d i => d.startAccess (.rebuild b s) b s r.2.1 r.1 i 5) d) d
  | none => d

/-- The rebuilt pages of stripe `s` are programmed into the target block set (R227), each counting for WSEQ (R203). They are copies of
the lost ones bit by bit, so they keep their metadata and their randomiser seeds (R206, R226; DEDUCED, notes/assumptions/72.md). -/
def Dev.rebuildWrite (d : Dev) (b : Nat) (x : Rebuild) (s : Nat) (t : Nat × Nat) : Dev :=
  let d := d.updMap b fun m => { m with rebuild := some { x with written := true } }
  x.pages.foldl (fun d r =>
    (d.nextWseq b).2.queueOp (4 * b + dieChan t.1)
      { id := 0, kind := .program, slot := if d.planes b = 1 then 3 else 4, pfa := d.setPfa b t.1 t.2 0 r.1 0
        planes := (List.range (d.planes b - 1)).map fun i => d.setPfa b t.1 t.2 (i + 1) r.1 0
        cls := 5, rebuilt := true, page := some (b, s, r.1, ((d.elemsOn b s x.die).head?).getD 0) }) d

/-- The rebuild in bay `b` goes on (R227): the next stripe begins, its pages are written once they are rebuilt, a block set that a program
failed in is retired and the stripe begins again in another. A stripe that has been reclaimed is done. -/
def Dev.rebuildStep (vis d : Dev) (b : Nat) : Dev :=
  match (d.bmap b).rebuild with
  | some x =>
    if !vis.flag (pgFstr b) FSTR_REBUILD_ACTIVE then d
    else
      match x.left with
      | [] => d
      | s :: l =>
        if (d.stripe b s).isNone then
          (d.updMap b fun m => { m with rebuild := some { die := x.die, left := l } }).put (pgFstr b) FSTR_REBUILD_LEFT (min 0xFFFF l.length)
        else
          match x.place with
          | none => d.rebuildBegin b x s
          | some t =>
            if x.failed then Dev.retireSet vis (d.updMap b fun m => { m with rebuild := some { die := x.die, left := x.left } }) b t.1 t.2
            else if x.written || d.fls.accesses.any (fun a => a.why == .rebuild b s) then d
            else d.rebuildWrite b x s t
  | none => d

/-- DIE_REBUILD: the rebuild runs from the Grain after the declaration (R227). -/
def execDieRebuild (b : Fin 4) (s : State) : Host.Outcome State Fault Refusal :=
  .next (s.noting (.cmd (.dieRebuild b)) fun s => s.dec fun vis d => if (vis.bmap b).rebuild.isSome then d.setB (pgFstr b) FSTR_REBUILD_ACTIVE true else d)

/-- REBUILD_STRIPE_DONE: the block set that takes the lost element's place has been verified with its rows; stripe_table names it from
the edge on (R227). -/
def execRebuildStripeDone (b : Fin 4) (s : State) : Host.Outcome State Fault Refusal :=
  .next (s.noting (.cmd (.rebuildStripeDone b)) fun s => s.dec fun vis d =>
    match (d.bmap b).rebuild with
    | some x =>
      match x.left, x.place with
      | st :: l, some t =>
        if !d.flag (pgFstr b) FSTR_REBUILD_ACTIVE || !x.written || x.failed || !x.pages.all (·.2.2)
            || !(vis.bmap b).rebuild.any fun y => y.pages.all (·.2.2) && y.place == some t then d
        else
          let d := (d.elemsOn b st x.die).foldl (fun d e => d.giveSet b st e t) d
          (d.updMap b fun m => { m with rebuild := some { die := x.die, left := l } }).put (pgFstr b) FSTR_REBUILD_LEFT
            (min 0xFFFF l.length)
      | _, _ => d
    | none => d)

/-- REBUILD_COMPLETE: the die's rebuild has ended; that of the next lost die begins (R227, R228). -/
def execRebuildComplete (b : Fin 4) (s : State) : Host.Outcome State Fault Refusal :=
  .next (s.noting (.cmd (.rebuildComplete b)) fun s => s.dec fun _ d =>
    let p := pgFstr b
    match (d.bmap b).rebuild with
    | some r =>
      if !r.left.isEmpty || !d.flag p FSTR_REBUILD_ACTIVE then d
      else
        let d := d.irq p FSTR_IRQ_REBUILT
        match (d.bmap b).waiting with
        | [] => (d.updMap b fun m => { m with rebuild := none }).setB p FSTR_REBUILD_ACTIVE false
        | x :: l =>
          let todo := d.rebuildOrder b x
          ((d.updMap b fun m => { m with rebuild := some { die := x, left := todo }, waiting := l }).put p FSTR_REBUILD_DIE x).put p
            FSTR_REBUILD_LEFT (min 0xFFFF todo.length)
    | none => d)

/-! ### Formatting, commit areas, wear (R224, R229, R231) -/

/-- Mark the `n` highest block sets of a die that are free with state `st`. -/
def Dev.markTop (d : Dev) (b die : Nat) (st : SetState) (n : Nat) : Dev :=
  (((List.range (d.setCount b)).reverse.filter fun i => (d.bset b die i).state == .free).take n).foldl
    (fun d i => d.putBset b die i { d.bset b die i with state := st }) d

/-- BAY_FORMAT: factory-bad block sets `bad` (die, block set) are retired, commit areas and spares set aside, k_sets found and
the bay map written; learned entries start at 0 (R213, R229). The retry table is firmware's and stays (R211). -/
def execBayFormat (b : Fin 4) (bad : List (Nat × Nat)) (s : State) : Host.Outcome State Fault Refusal :=
  .next (s.noting (.cmd (.bayFormat b bad)) fun s => s.dec fun _ d =>
    let p := pgFstr b
    if !d.flag p FSTR_STAT_FORMATTING || (d.bmap b).formatStep != 1 then d
    else
      let w := clampN 4 16 (d.get p FSTR_CFG_WIDTH)
      let n := d.dieCount b
      let d := d.updMap b fun m => { formatStep := 2, retry := m.retry, inForce := m.inForce }
      let d := bad.foldl (fun d x => d.putBset b x.1 x.2 { state := .retired }) d
      let d := (List.range n).foldl (fun d i => (d.markTop b i .commitArea 2).markTop b i .spare (d.get p FSTR_CFG_SPARE_BS)) d
      let left (i : Nat) : Nat := ((List.range (d.setCount b)).filter fun j => (d.bset b i j).state == .free).length
      let k := (List.range n).foldl (fun m i => min m (left i)) (d.setCount b)
      let d := (((d.put p FSTR_GEOM_WIDTH w).put p FSTR_GEOM_GROUPS (n / w)).put p FSTR_GEOM_FREE_DIES (n % w)).put p
        FSTR_GEOM_K_SETS k
      let d := ((d.setB p FSTR_STAT_BLANK false).setB p FSTR_STAT_MAP_OK true).put (pgBay b) BAY_FREE (n / w * k)
      ((d.wearStat b).delta b .full).placeDeltas b 8)

/-- Is the bay map of a bay that is formatted Settled (R229)? -/
def Dev.mapWritten (d : Dev) (b : Nat) : Bool :=
  (d.bmap b).stripes.any fun x => x.rows.any fun r => r.parity && r.pages.any fun p =>
    p.verified && p.cws.any fun c => c.deltas.any (·.2 == .full)

/-- A formatting ends at the edge after the bay map is written and the commit areas are ready (R229). -/
def Dev.formatEnd (vis d : Dev) (b : Nat) : Dev :=
  if d.flag (pgFstr b) FSTR_STAT_FORMATTING && (vis.bmap b).formatStep == 2 && vis.mapWritten b && (vis.bmap b).areas.toList.all (·.ready) then
    (d.setB (pgFstr b) FSTR_STAT_FORMATTING false).updMap b fun m => { m with formatStep := 3 }
  else d

/-- Does area `a` of bay `b` hold the bay's newest commit, the restore point (R224)? -/
def Dev.restorePoint (d : Dev) (b a : Nat) : Bool :=
  match d.rsv.commits.find? fun c => c.bay == b && c.area == a && c.closed && !c.failed with
  | some c => !d.rsv.commits.any fun x => x.bay == b && x.closed && !x.failed && decide (c.seq < x.seq)
  | none => false

/-- COMMIT_AREA_PREPARE: area `a` has been erased in SLC mode (`ok`), and the preparation is recorded in a full copy of the bay map. A
bay whose areas cannot be prepared leaves WRITABLE (R224, R229). -/
def execCommitAreaPrepare (b : Fin 4) (a : Fin 2) (ok : Bool) (s : State) : Host.Outcome State Fault Refusal :=
  .next (s.noting (.cmd (.commitAreaPrepare b a ok)) fun s => s.dec fun vis d =>
    if d.slotStart b 20 = 0 || d.slotStart b 21 = 0 || d.slotStart b 22 = 0 || !d.flag (pgFstr b) FSTR_STAT_MAP_OK
        || d.restorePoint b a then d
    else if ok then
      let d := d.updMap b fun m => { m with areas := m.areas.setIfInBounds a.val ({ ready := true } : CommitArea), changes := 0 }
      let d := { d with rsv := { d.rsv with commits := d.rsv.commits.filter fun c => !(c.bay == b.val && c.area == a.val) } }
      Dev.bayDecide false vis (d.delta b .full) b
    else
      let d := d.fault (pgFstr b) 0x0504 false false [a.val]
      if d.bayState b == 5 then Dev.bayLost vis d b 4 else d)

/-- WEAR_LEVEL: the erase-count spread exceeds WL_SPREAD; the closed stripe of the lowest mean count is reclaimed, of equal ones the one
opened first (R231; DESIGN CHOICE, notes/assumptions/54.md). -/
def execWearLevel (b : Fin 4) (s : State) : Host.Outcome State Fault Refusal :=
  .next (s.noting (.cmd (.wearLevel b)) fun s => s.dec fun _ d =>
    let p := pgFstr b
    if d.get p FSTR_WEAR_PE_MAX - d.get p FSTR_WEAR_PE_MIN ≤ d.get p FSTR_WL_WL_SPREAD then d
    else
      let total (x : Stripe) : Nat := ((List.range (d.width b)).map fun e =>
        let t := d.tableAt b x.id e
        (d.bset b t.1 t.2).erases).sum
      let best := ((d.bmap b).stripes.filter (!·.isOpen)).foldl (fun m x => match m with
        | some y => if total x < total y then some x else some y
        | none => some x) (none : Option Stripe)
      match best with
      | some x => d.wantReclaim b x.id
      | none => d)

/-! ### The Grain and the Stone (R40, R229, R232) -/

/-- A RELEASING bay whose Held work is done: its open stripes are closed, with the deltas still collected (R190). -/
def Dev.releaseClose (vis d : Dev) (b : Nat) : Dev :=
  if vis.bayState b != 6 || d.bayState b != 6 || d.heldIn b != 0 || d.ldg.background.any (·.bay == some b)
      || d.fls.gathers.any (·.bay == b) then d
  else
    let d := if (d.openOne b false).isSome then d.placeDeltas b 8 else d
    ((d.bmap b).stripes.filter (·.isOpen)).foldl (fun d x => d.closeStripe b x.id) d

/-- The tables of bay `b` in external memory, from its map and the codewords of its log stripes (R255 steps 1 to 3). -/
def Dev.rebuildBay (d : Dev) (b : Nat) : Dev :=
  let d := (d.bmap b).gathered.foldl (fun d g =>
    match d.baleAddr g.1 g.2.1 with
    | some (a, e) => e.memW a (gatheredEntry b g.2.2.1 g.2.2.2.1 g.2.2.2.2)
    | none => d) d
  let l := d.logSlots b fun r p y => r.parity && p.verified && d.logLive b y
  (l.foldl (fun d y => (d.addExtent y.2.2.lane y.2.2.offset b y.2.2.valid y.1 y.2.1).getD d) d).updMap b fun m => { m with unmapped := false }

/-- A bay that comes after the restore has its tables rebuilt (R255). -/
def Dev.mapLate (d : Dev) (b : Nat) : Dev :=
  if (d.bmap b).unmapped && d.bayHere b && d.flag pgLdg LDG_STAT_RESTORED then d.rebuildBay b else d

/-- What the integrity logic decides in a Grain without a command: what has Settled, reads of READ tasks, placement, rebuilds, the end of a
formatting, the close of a RELEASING bay's stripes. -/
def Dev.integrityGrain (vis d : Dev) : Dev :=
  let d := [0, 1, 2, 3].foldl Dev.mapLate d
  let d := Dev.flashPlace vis (Dev.settleRecords vis d)
  [0, 1, 2, 3].foldl (fun d b => Dev.releaseClose vis (Dev.formatEnd vis (Dev.rebuildStep vis d b) b) b) d.issueReads

/-- FINT_DEC_STAT and FSTR_STONE (R40, R236). -/
def Dev.integrityStone (d : Dev) : Dev :=
  let f := d.fls
  let d := (((d.put pgFint FINT_DEC_STAT_RETRY (min 255 f.decRetry)).put pgFint FINT_DEC_STAT_SOFT (min 255 f.decSoft)).put
    pgFint FINT_DEC_STAT_PARITY (min 255 f.decParity)).put pgFint FINT_DEC_STAT_FAIL (min 255 f.decFail)
  let d := { d with fls := { d.fls with decRetry := 0, decSoft := 0, decParity := 0, decFail := 0 } }
  [0, 1, 2, 3].foldl (fun d b =>
    let m := d.bmap b
    ((d.put (pgFstr b) FSTR_STONE_RETRY_SUM (min 0xFFFF m.retryAcc)).put (pgFstr b) FSTR_STONE_CORR_K
      (min 0xFFFF (m.corrAcc / 1000))).updMap b fun m =>
        { m with retryAcc := 0, corrAcc := 0, readAcc := 0, stoneReads := m.readAcc }) d

end Sys2Proof.Machine
end

