-- ==== Sys2Proof/Machine/Servo.lean ====
section
/-! DEFINITION. The servo engine Ell and the optical loops (chapter 10). -/

namespace Sys2Proof.Machine

open Sys2Proof

def Dev.engine (d : Dev) (e : Nat) : Engine := (d.ell.engines[e]?).getD {}

def Dev.updEngine (d : Dev) (e : Nat) (f : Engine → Engine) : Dev :=
  { d with ell := { d.ell with engines := d.ell.engines.setIfInBounds e (f (d.engine e)) } }

def Dev.optPort (d : Dev) (p : Nat) : OptPort := (d.ell.ports[p]?).getD {}

def Dev.updOpt (d : Dev) (p : Nat) (f : OptPort → OptPort) : Dev :=
  { d with ell := { d.ell with ports := d.ell.ports.setIfInBounds p (f (d.optPort p)) } }

def Engine.slot (g : Engine) (s : Nat) : Slot := (g.slots[s]?).getD {}

def Dev.updSlot (d : Dev) (e s : Nat) (f : Slot → Slot) : Dev :=
  d.updEngine e fun g => { g with slots := g.slots.setIfInBounds s (f (g.slot s)) }

/-- The channel that serves port `p`, by its page (R261, R304). -/
def Dev.serving (d : Dev) (p : Nat) : Option Nat :=
  [0, 1, 2, 3, 4].find? fun k => d.get (pgFth k) FTH_MAP_PORT == p && !(k == 4 && d.flag (pgFth 4) FTH_MAP_ACTIVE)

/-! ### Signals (R339 to R342) -/

/-- Saturation of a signal word. -/
def sat32 (i : Int) : Int := satI 32 i

/-- The row `r` of signal words `w` before normalisation; `m` lists the matrix row by row (R340). -/
def matrixRow (m : List Int) (r : Nat) (w : List Int) : Int :=
  sat32 (((List.range 10).foldl (fun a i => a + nthD m (10 * r + i) 0 * nthD w i 0) 0) / 2 ^ 13)

/-- Rows 0 to 7 of port `p` from signal words `w` (R340, R341). -/
def Dev.formRows (d : Dev) (p : Nat) (m : List Int) (w : List Int) : List Int :=
  let q := pgOps p
  let norm := d.get q OPS_NORM_NORM
  let sum := matrixRow m 7 w
  let div := max sum (d.get q OPS_NORM_SUM_MIN * 64)
  let row (r : Nat) : Int :=
    let x := matrixRow m r w
    let x := if r < 7 && bit norm r && 0 < div then sat32 (x * 2 ^ 30 / div) else x
    if r = 0 then sat32 (x - d.getI q (OPS_LTAB_FE_OFS.idx (d.get q OPS_STAT_LAYER)) * 2 ^ 14) else x
  [row 0, row 1, row 2, row 3, row 4, row 5, row 6, sum]

/-- A comparator with hysteresis `h` meets a value: its new side and the crossings so far (R341). -/
def zeroCross (h : Int) (a : Option Bool × Nat) (x : Int) : Option Bool × Nat :=
  let side := if h < x then some true else if x < -h then some false else none
  match side, a.1 with
  | some b, some c => (some b, if b == c then a.2 else a.2 + 1)
  | some b, none => (some b, a.2)
  | none, c => (c, a.2)

/-- The capture of the four sample sets of Grain n − 1 at the edge of Grain n (R339 to R341). -/
def Dev.servoCapture (d : Dev) (p : Nat) (pd : List (List (BitVec 12))) (cause : Bool) : Dev :=
  let q := pgOps p
  let ofs (i : Nat) : Int :=
    if i % 2 = 0 then d.get q (OPS_PD_OFS_OFS_EVEN.idx (i / 2)) else d.get q (OPS_PD_OFS_OFS_ODD.idx (i / 2))
  let m : List Int := (List.range 80).map fun c => sext 16 (d.rd (pgMtx p + 4 * (16 * (c / 10) + c % 10))).toNat
  let s (k i : Nat) : Int := (nthD (nthD pd k []) i 0).toNat
  let w := (List.range 10).map fun i => (s 0 i + s 1 i + s 2 i + s 3 i - 4 * ofs i) * 2 ^ 16
  let rows := d.formRows p m w
  let fast := (List.range 4).map fun k => d.formRows p m ((List.range 10).map fun i => 4 * (s k i - ofs i) * 2 ^ 16)
  let h : Int := d.get q OPS_JUMP_TZC_HYS * 2 ^ 22
  let o := d.optPort p
  let z0 := fast.foldl (fun a r => zeroCross h a (nthD r 0 0)) (o.above0, 0)
  let z1 := fast.foldl (fun a r => zeroCross h a (nthD r 1 0)) (o.above1, 0)
  d.updOpt p fun o => { o with rows := Vector.ofFn fun i => nthD rows i 0, above0 := z0.1, above1 := z1.1
                               cross0 := z0.2, cross1 := z1.2, drvCause := cause, cmdTaken := false }

def OptPort.row (o : OptPort) (r : Nat) : Int := (o.rows[r]?).getD 0

/-! ### Slot configuration (R351, R376)
A slot's words are SLOT_CFG, SLOT_SRC, SLOT_C0 to SLOT_C5, SLOT_SH, SLOT_LIM_HI, SLOT_LIM_LO and SLOT_FE. -/

def Dev.slotWords (d : Dev) (e s : Nat) : List Word := (List.range 12).map fun i => d.rd (pgSlot e s + 0x4C + 4 * i)

/-- A field of word `i`. -/
def slotField (w : List Word) (i lo n : Nat) : Nat := bits (nthD w i 0).toNat lo n

def slotEn (w : List Word) : Bool := slotField w 0 31 1 == 1
def slotLoop (w : List Word) : Nat := slotField w 0 28 3
def slotPort (w : List Word) : Nat := slotField w 0 27 1
def slotDst (w : List Word) : Nat := slotField w 0 24 3
def slotType (w : List Word) : Nat := slotField w 0 20 4
def slotFeEn (w : List Word) : Bool := slotField w 0 15 1 == 1
def slotFresh (w : List Word) : Bool := slotField w 0 14 1 == 1
def slotFreeze (w : List Word) : Bool := slotField w 0 13 1 == 1
def slotLearn (w : List Word) : Bool := slotField w 0 12 1 == 1
def slotSafe (w : List Word) : Nat := slotField w 0 10 2
def slotFfTab (w : List Word) : Nat := slotField w 0 8 2
/-- SRC_A, SRC_B, SRC_C. -/
def slotSrc (w : List Word) (n : Nat) : Nat := slotField w 1 (8 * n) 8
/-- Coefficient `n`, signed. -/
def slotC (w : List Word) (n : Nat) : Int := sext 32 (nthD w (2 + n) 0).toNat
/-- A product term (R343). -/
def slotTerm (w : List Word) (n : Nat) (x : Int) : Int := slotC w n * x / 2 ^ slotField w 8 (5 * n) 5
def slotHi (w : List Word) : Int := sext 32 (nthD w 9 0).toNat
def slotLo (w : List Word) : Int := sext 32 (nthD w 10 0).toNat
def slotTimer (w : List Word) : Nat := max 1 (slotField w 11 16 16)
def slotWin (w : List Word) : Int := slotField w 11 0 16 * 2 ^ 14

/-- Saturated, then limited to LIM_LO and LIM_HI; a pair the wrong way round limits to LIM_HI (R343, R347). -/
def slotLimit (w : List Word) (y : Int) : Int :=
  if slotHi w < slotLo w then slotHi w else clampI (slotLo w) (slotHi w) (sat32 y)

/-- Does the stage compute (TYPE 1 to 6)? -/
def slotActive (w : List Word) : Bool := 1 ≤ slotType w && slotType w ≤ 6

/-! ### Sources (R345) -/

/-- The signal word that source `code` selects for engine `e`; `out` gives the slots' outputs. -/
def Dev.servoSource (vis d : Dev) (e : Nat) (out : Nat → Int) (code : Nat) : Int :=
  if code < 0x10 then (d.optPort (2 * e + code / 8)).row (code % 8)
  else if code < 0x50 then out (code - 0x10)
  else if code < 0x60 then
    let p := 2 * e + (code - 0x50) / 8
    let chan := vis.serving p
    match (code - 0x50) % 8 with
    | 0 => (chan.elim 0 fun _ => ((vis.optPort p).env : Int)) * 2 ^ 22
    | 1 => (chan.elim 0 fun k => vis.getI (pgFth k) FTH_TILT_TILT) * 2 ^ 14
    | 2 => (chan.elim 0 fun k => (vis.get (pgFth k) FTH_WOB_STAT_WOB_KHZ : Int)) * 2 ^ 14
    | 3 => vis.get (pgCmt p) CMT_SPEED_RPM * 2 ^ 14
    | 4 => sext 16 (vis.get (pgAx p) CHN_POS_POS) * 2 ^ 14
    | 6 => vis.getI (pgOps p) OPS_SETPT0_VALUE
    | 7 => vis.getI (pgOps p) OPS_SETPT1_VALUE
    | _ => 0
  else 0

/-- Is the source fresh in this Grain (R345)? -/
def Dev.servoFresh (vis : Dev) (e code : Nat) : Bool :=
  if code = 0x51 then (vis.optPort (2 * e)).tiltNew else if code = 0x59 then (vis.optPort (2 * e + 1)).tiltNew else true

/-! ### Destinations (R346, R352) -/

/-- The largest code of a current limit of `ma` mA. -/
def codeLimit (ma : Nat) : Int := (min 400 ma * 32768 / 400 : Nat)

/-- A code saturated to 16 bits and limited to ± the actuator's ILIM. -/
def limitCode (ma : Nat) (c : Int) : Int := clampI (-codeLimit ma) (codeLimit ma) (satI 16 c)

/-- Stage the focus, tracking or tilt code of port `p`. -/
def Dev.setFcs (d : Dev) (p : Nat) (c : Int) : Dev :=
  d.putI (pgOps p) OPS_DRIVE0_FCS (limitCode (d.get (pgOps p) OPS_ILIM_FCS_MA) c)
def Dev.setTrk (d : Dev) (p : Nat) (c : Int) : Dev :=
  d.putI (pgOps p) OPS_DRIVE0_TRK (limitCode (d.get (pgOps p) OPS_ILIM_TRK_MA) c)
def Dev.setTlt (d : Dev) (p : Nat) (c : Int) : Dev :=
  d.putI (pgOps p) OPS_DRIVE1_TLT (limitCode (d.get (pgOps p) OPS_ILIM_TLT_MA) c)

/-- Drive destination `dst` of port `p` with output `y`. A port in SAFE keeps its drives (R365). -/
def Dev.driveDst (vis d : Dev) (p dst : Nat) (y : Int) : Dev :=
  let q := pgOps p
  let safe := d.get q OPS_STAT_STATE == 7
  let code := satI 16 ((y + 2 ^ 14) / 2 ^ 15)
  match dst with
  | 1 => if safe then d else d.setFcs p code
  | 2 => if safe then d else d.setTrk p code
  | 3 => if safe then d else d.setTlt p (code + d.getI q (OPS_LTAB_TILT_OFS.idx (d.get q OPS_STAT_LAYER)))
  | 4 =>
    let lo : Int := d.get q OPS_GLIM_G_MIN
    let hi : Int := d.get q OPS_GLIM_G_MAX
    d.putI q OPS_DRIVE1_G (if hi < lo then hi else clampI lo hi ((y + 2 ^ 14) / 2 ^ 15))
  | 5 => d.updOpt p fun o => { o with demand := code }
  | 6 =>
    if y.natAbs < 2 ^ 20 || vis.get q OPS_STAT_STATE != 3 || !bit (d.get q OPS_LOOP_CLOSED) 5
        || (vis.get (pgAx p) CHN_STAT_STATE != 1 && vis.get (pgAx p) CHN_STAT_STATE != 0) || (vis.optPort p).sled.isSome then d
    else
      let m : Int := d.get q OPS_SLED_SLED_MAX
      d.updOpt p fun o => { o with sled := some (clampI (-m) m (y / 2 ^ 20)) }
  | _ => d

/-- A destination's present value in signal words (R349). The code of TILT is the one before TILT_OFS is added, so that no step follows
(DEDUCED, notes/assumptions/152.md). -/
def Dev.dstValue (vis : Dev) (p dst : Nat) : Int :=
  let q := pgOps p
  match dst with
  | 1 => vis.getI q OPS_DRIVE0_FCS * 2 ^ 15
  | 2 => vis.getI q OPS_DRIVE0_TRK * 2 ^ 15
  | 3 => (vis.getI q OPS_DRIVE1_TLT - vis.getI q (OPS_LTAB_TILT_OFS.idx (vis.get q OPS_STAT_LAYER))) * 2 ^ 15
  | 4 => sat32 (vis.get q OPS_DRIVE1_G * 2 ^ 15)
  | 5 => (vis.optPort p).demand * 2 ^ 15
  | _ => 0

/-! ### Stages (R347, R348) -/

/-- One stage: its output before the limit, its states but for the output, and whether its integrator froze. `ff` is the
feed-forward entry of a REV_FF stage. -/
def slotStage (w : List Word) (t : Slot) (x b c ff : Int) : Int × Slot × Bool :=
  match slotType w with
  | 1 =>
    let inc := slotTerm w 1 x
    let i' := t.i + inc
    let df' := t.df + slotTerm w 3 (slotTerm w 2 (x - t.x1) - t.df)
    let y := slotTerm w 0 x + i' + df' + slotC w 4
    let frozen := slotFreeze w && ((decide (slotHi w < y) && decide (0 < inc)) || (decide (y < slotLo w) && decide (inc < 0)))
    (y, { t with i := if frozen then t.i else sat32 i', df := sat32 df', x1 := x }, frozen)
  | 2 =>
    (slotTerm w 0 x + slotTerm w 1 t.x1 + slotTerm w 2 t.x2 - slotTerm w 3 t.y1 - slotTerm w 4 t.y2,
      { t with x1 := x, x2 := t.x1 }, false)
  | 3 => (slotTerm w 0 x + slotTerm w 1 b + slotTerm w 2 c + slotC w 3, { t with x1 := x, x2 := t.x1 }, false)
  | 4 => (min (max x (t.y1 - slotC w 0)) (t.y1 + slotC w 0), { t with x1 := x, x2 := t.x1 }, false)
  | 5 =>
    (if (x.natAbs : Int) ≤ slotC w 0 then 0 else slotTerm w 1 (x - x.sign * slotC w 0), { t with x1 := x, x2 := t.x1 }, false)
  | _ => (x + ff, { t with x1 := x, x2 := t.x1 }, false)

/-! ### Loops (R349, R357, R360) -/

/-- Is loop `l` of port `p` closed? FREE always is. -/
def Dev.loopClosed (d : Dev) (p l : Nat) : Bool := l == 7 || bit (d.get (pgOps p) OPS_LOOP_CLOSED) l

def Dev.setLoop (d : Dev) (p l : Nat) (b : Bool) : Dev :=
  d.put (pgOps p) OPS_LOOP_CLOSED (setBits (d.get (pgOps p) OPS_LOOP_CLOSED) l 1 (b2n b))

/-- Does slot `s` of port `p`'s engine belong to loop `l` of port `p`? -/
def Dev.inLoop (d : Dev) (p l s : Nat) : Bool :=
  let w := d.slotWords (p / 2) s
  slotEn w && slotLoop w == l && slotPort w == p % 2

/-- The loops' slots that stop under HOLD (R357). -/
def Dev.loopHeld (d : Dev) (p l : Nat) : Bool :=
  (l == 0 && (d.optPort p).focusHold)
    || (List.range 64).any fun s => ((d.engine (p / 2)).slot s).hold && d.inLoop p l s

/-- Open loop `l`: its slots stop; a hold of it ends. -/
def Dev.openLoop (d : Dev) (p l : Nat) : Dev :=
  let d := (List.range 64).foldl (fun d s =>
    if ((d.engine (p / 2)).slot s).hold && d.inLoop p l s then d.updSlot (p / 2) s fun t => { t with hold := false } else d) d
  let d := d.updOpt p fun o => { o with focusHold := o.focusHold && l != 0, closing := o.closing.filter (·.1 != l) }
  d.setLoop p l false

/-- Loop `l` of port `p` closes at the next edge, with `h` the drive held before, if one was (R349, R370). -/
def Dev.closeLoop (d : Dev) (p l : Nat) (h : Option Int) : Dev :=
  (d.updOpt p fun o => { o with closing := o.closing.filter (·.1 != l) ++ [(l, h)] }).setLoop p l true

/-- Does loop `l` of port `p` close at the next edge, and with which drive held before? -/
def Dev.closingOf (d : Dev) (p l : Nat) : Option (Option Int) := ((d.optPort p).closing.find? (·.1 == l)).map (·.2)

/-! ### The computation (R344) -/

/-- What a pass over the slots carries: the device, destinations driven so far, a limited output, a frozen integrator. -/
abbrev Pass : Type := Dev × List (Nat × Nat) × Bool × Bool

/-- Slot `s` of engine `e` with words `w`, in a pass; `prev` gives the outputs of the previous Grain. `preset`: its loop is
being closed, and a PID slot begins from its destination's present value, or from the held code `h` (R349, R370). -/
def Dev.passSlot (vis : Dev) (e : Nat) (prev : Nat → Int) (preset : Bool) (h : Option Int) (a : Pass) (s : Nat)
    (w : List Word) : Pass :=
  let d := a.1
  let g := d.engine e
  let out (j : Nat) : Int :=
    if !slotActive (vis.slotWords e j) && j != s then 0 else if j < s then (g.slot j).y else prev j
  let p := 2 * e + slotPort w
  let x := Dev.servoSource vis d e out (slotSrc w 0)
  let b := Dev.servoSource vis d e out (slotSrc w 1)
  let c := Dev.servoSource vis d e out (slotSrc w 2)
  let t := g.slot s
  let t : Slot :=
    if !preset then t
    else
      let z : Slot := { fe := t.fe, follow := t.follow, hold := t.hold }
      if slotType w = 1 && slotDst w != 0 && slotDst w != 7 then
        { z with i := (match h with
                       | some c => c * 2 ^ 15
                       | none => Dev.dstValue vis p (slotDst w)), x1 := x }
      else z
  let lane := s % 8
  let dead := bit g.dead lane
  let fresh := !slotFresh w || Dev.servoFresh vis e (slotSrc w 0)
  let laser := slotLoop w != 3 || vis.get (pgOwp p) WP_JOB_STAT_STATE == 2
  if !slotActive w || dead || !fresh || !laser then (d.updSlot e s fun _ => t, a.2)
  else
    let angle := vis.get (pgCmt p) CMT_SPEED_ANGLE
    let valid := vis.flag (pgCmt p) CMT_STAT_ANGLE_VALID
    let ffAt := pgFf e + 4 * (128 * slotFfTab w + angle)
    let ff : Int := if valid then sext 32 (d.rd ffAt).toNat else 0
    let r := slotStage w t x b c ff
    let y := slotLimit w r.1
    let d := d.updSlot e s fun _ => { r.2.1 with y := y, y1 := y, y2 := t.y1 }
    let d := if slotType w = 6 && slotLearn w && valid then
        d.wr ffAt (BitVec.ofInt 32 (sat32 (sext 32 (d.rd ffAt).toNat + slotTerm w 0 b))) else d
    let dst := slotDst w
    if dst = 0 || dst = 7 then (d, a.2.1, a.2.2.1 || decide (y ≠ r.1), a.2.2.2 || r.2.2)
    else
      let clash := a.2.1.contains (p, dst)
      let d := if clash then (d.setB (pgEll e) ELL_STAT_DST_CONFLICT true).irq (pgEll e) ELL_IRQ_CONFLICT else d
      let d := if dst = 6 then d.updOpt p fun o => { o with sled := none } else d
      (Dev.driveDst vis d p dst y, (p, dst) :: a.2.1, a.2.2.1 || decide (y ≠ r.1), a.2.2.2 || r.2.2)

/-- The SRC_A value of slot `s` once the slots below it have run (R344, R355). -/
def Dev.watchValue (vis d : Dev) (e s : Nat) (w : List Word) : Int :=
  Dev.servoSource vis d e (fun j => if j < s then ((d.engine e).slot j).y else ((vis.engine e).slot j).y) (slotSrc w 0)

/-- The following-error check of a slot (R355, R356): a captured value within the window clears, one outside counts. -/
def Dev.watchSlot (vis d : Dev) (e s : Nat) (w : List Word) : Dev :=
  let p := 2 * e + slotPort w
  if !slotFeEn w || !d.loopClosed p (slotLoop w) then d
  else
    let x := Dev.watchValue vis d e s w
    d.updSlot e s fun t =>
      if (x.natAbs : Int) ≤ slotWin w then { t with fe := 0, follow := false } else { t with fe := satInc 0xFFFF t.fe }

/-- The words of slot `s` as the next edge has them (R351). -/
def Dev.nextWords (vis d : Dev) (e s : Nat) : List Word :=
  match (d.engine e).commits.find? fun c => c.slot == s with
  | some c => c.words
  | none => vis.slotWords e s

/-- Does a slot with words `w` belong to a loop that closes at the next edge? -/
def Dev.slotCloses (d : Dev) (e : Nat) (w : List Word) : Bool :=
  slotEn w && (d.closingOf (2 * e + slotPort w) (slotLoop w)).isSome

/-- Slot `s` in the Grain: one of a loop that closes at the next edge runs with the words of that edge and its states preset; else one of a
closed loop that is not held runs (R344, R349). -/
def Dev.runSlot (vis : Dev) (e : Nat) (prev : Nat → Int) (a : Pass) (s : Nat) : Pass :=
  let next := Dev.nextWords vis a.1 e s
  let w := vis.slotWords e s
  let p := 2 * e + slotPort w
  let l := slotLoop w
  match a.1.closingOf (2 * e + slotPort next) (slotLoop next) with
  | some h =>
    if slotEn next then Dev.passSlot vis e prev true h a s next
    else a
  | none =>
    if !slotEn w || (a.1.closingOf p l).isSome then a
    else
      let b := if a.1.loopClosed p l && !a.1.loopHeld p l then Dev.passSlot vis e prev false none a s w else a
      if vis.loopClosed p l then (Dev.watchSlot vis b.1 e s w, b.2) else b

/-- The drives of engine `e` that were committed last stay in force for one more Grain, but for a port in SAFE (R373). -/
def Dev.keepDrives (vis d : Dev) (e : Nat) : Dev :=
  [2 * e, 2 * e + 1].foldl (fun d p =>
    if d.get (pgOps p) OPS_STAT_STATE = 7 then d
    else
      let d := (d.wr (pgOps p + OPS_DRIVE0.off) (vis.rd (pgOps p + OPS_DRIVE0.off))).wr (pgOps p + OPS_DRIVE1.off)
        (vis.rd (pgOps p + OPS_DRIVE1.off))
      d.updOpt p fun o => { o with demand := (vis.optPort p).demand }) d

/-- Engine `e` runs its slots in ascending number (R344). In a Grain in which a lane was found failing its outputs are discarded (R373). -/
def Dev.runEngine (vis d : Dev) (e : Nat) : Dev :=
  let d := [2 * e, 2 * e + 1].foldl (fun d p => d.updOpt p fun o => { o with sled := none }) d
  if (d.engine e).lost then (Dev.keepDrives vis d e).updEngine e fun g => { g with lost := false }
  else if !vis.enabled (pgEll e) then d
  else
    let preset (j : Nat) : Bool := d.slotCloses e (Dev.nextWords vis d e j)
    let prev (j : Nat) : Int := if preset j then 0 else ((vis.engine e).slot j).y
    let r := (List.range 64).foldl (Dev.runSlot vis e prev) (d, [], false, false)
    let keep (c : SlotCommit) : SlotCommit := { c with clr := c.clr && !preset c.slot }
    let x := r.1.updEngine e fun g =>
      { g with satG := g.satG + b2n r.2.2.1, freezeG := g.freezeG + b2n r.2.2.2, commits := g.commits.map keep }
    [2 * e, 2 * e + 1].foldl (fun d p => d.updOpt p fun o => { o with closing := [] }) x

/-- The commits of R351 at an edge: configuration, then the states that CLR_STATE zeroes; a hold of the slot's loop ends. -/
def Dev.commitSlots (d : Dev) (e : Nat) : Dev :=
  let l := (d.engine e).commits
  let d := l.foldl (fun d c =>
    let d := (c.words.zip (List.range 12)).foldl (fun d x => d.wr (pgSlot e c.slot + 0x4C + 4 * x.2) x.1) d
    let d := d.updSlot e c.slot fun t => if c.clr then {} else { t with hold := false }
    if slotLoop c.words = 0 then d.updOpt (2 * e + slotPort c.words) fun o => { o with focusHold := false } else d) d
  d.updEngine e fun g => { g with commits := [] }

/-! ### Safe states (R354, R357, R365) -/

/-- End a running command with ABORTED. -/
def Dev.seqAbort (d : Dev) (p : Nat) : Dev :=
  let d := if (d.optPort p).op == .none then d else (d.put (pgOps p) OPS_STAT_RESULT 6).irq (pgOps p) OPS_IRQ_CMD_FAIL
  d.updOpt p fun o => { o with op := .none, settle := 0 }

/-- The port enters SAFE: every loop but SPINDLE opens, FOCUS is at PARK, TRACKING and TILT at 0, no sled request. -/
def Dev.portSafe (d : Dev) (p : Nat) : Dev :=
  let q := pgOps p
  let d := d.seqAbort p
  let d := [0, 1, 2, 3, 5, 6].foldl (fun d l => d.openLoop p l) d
  let d := ((d.setFcs p (d.getI q OPS_FCODE_PARK)).setTrk p 0).setTlt p 0
  ((d.updOpt p fun o => { o with sled := none }).put q OPS_STAT_STATE 7).irq q OPS_IRQ_SAFE

/-- The die link is lost: SAFE, every loop open and every drive code 0 (R28, R354). -/
def Dev.portLost (d : Dev) (p : Nat) : Dev :=
  let d := ((d.portSafe p).openLoop p 4).updOpt p fun o => { o with demand := 0 }
  ((d.setFcs p 0).setTrk p 0).setTlt p 0

/-- The port goes to IDLE: FOCUS, TRACKING, LENS and SPINDLE open, the focus and tracking drives and SPN_DEMAND at 0 (R361,
R365, R367, R375). -/
def Dev.portIdle (d : Dev) (p : Nat) : Dev :=
  let d := [0, 1, 4, 6].foldl (fun d l => d.openLoop p l) d
  let d := (d.updOpt p fun o => { o with op := .none, settle := 0, demand := 0, sled := none }).put (pgOps p) OPS_STAT_STATE 0
  (d.setFcs p 0).setTrk p 0

/-- The port is IDLE with every drive 0 (R125, R374, R375). -/
def Dev.portRest (d : Dev) (p : Nat) : Dev := (d.portIdle p).setTlt p 0

/-- A SAFE action on loop `l` of port `p`; `s`: the slot that raised it (R357). -/
def Dev.safeAction (d : Dev) (p l : Nat) (s : Option Nat) (act : Nat) : Dev :=
  match act with
  | 1 =>
    match s with
    | some s => d.updSlot (p / 2) s fun t => { t with hold := true }
    | none => d.updOpt p fun o => { o with focusHold := true }
  | 2 =>
    match l with
    | 0 | 1 | 6 => d.portSafe p
    | 2 => (d.openLoop p 2).setTlt p 0
    | 3 => d.openLoop p 3
    | 4 => (d.openLoop p 4).updOpt p fun o => { o with demand := 0 }
    | 5 => (d.openLoop p 5).updOpt p fun o => { o with sled := none }
    | _ => d
  | 3 => d.portSafe p
  | _ => d

/-- FOLLOWING_ERROR: slot `s` of engine `e` has been outside its window for FE_TIMER_G Grains (R355). -/
def execFollowingError (e : Fin 2) (i : Fin 64) (s : State) : Host.Outcome State Fault Refusal :=
  .next (s.noting (.cmd (.followingError e i)) fun s => s.dec fun vis d =>
    let w := d.slotWords e i
    let p := 2 * e.val + slotPort w
    let t := (d.engine e).slot i
    if !slotEn w || !slotFeEn w || !d.loopClosed p (slotLoop w) || t.follow || t.fe < slotTimer w then d
    else
      let x := Dev.watchValue vis d e i w
      let d := (d.updSlot e i fun t => { t with follow := true }).irq (pgEll e) ELL_IRQ_FOLLOW
      let d := d.fault (pgEll e) 0x0901 false false [i.val, slotLoop w, ofInt 32 x]
      d.safeAction p (slotLoop w) (some i.val) (slotSafe w))

/-- FOCUS_LOSS: row 7 has been below SUM_LOSS for FL_G Grains with the focus loop closed (R358). -/
def execFocusLoss (p : Fin 4) (s : State) : Host.Outcome State Fault Refusal :=
  .next (s.noting (.cmd (.focusLoss p)) fun s => s.dec fun _ d =>
    let q := pgOps p
    let o := d.optPort p
    if !d.loopClosed p 0 || o.lost || o.flCount < max 1 (d.get q OPS_FL_FL_G) then d
    else
      let d := (d.updOpt p fun o => { o with lost := true }).irq q OPS_IRQ_FOCUS_LOST
      (d.fault q 0x0902 false false []).safeAction p 0 none (d.get q OPS_FL_FL_ACTION))

/-- DRIVER_FAULT: the power die has switched a bridge of port `p` off (R359). -/
def execDriverFault (p : Fin 4) (s : State) : Host.Outcome State Fault Refusal :=
  .next (s.noting (.cmd (.driverFault p)) fun s => s.dec fun _ d =>
    let q := pgOps p
    let d := (d.portSafe p).updOpt p fun o => { o with drvFault := true, drvCause := true }
    ((d.irq q OPS_IRQ_DRV_FAULT).setFault q true).fault q 0x0903 false true [])

/-! ### The sequencer (R365 to R370) -/

/-- FE_WIN of loop `l` of port `p`: that of its lowest slot with FE_EN, else of its lowest slot. -/
def Dev.loopWindow (d : Dev) (p l : Nat) : Option Int :=
  let e := p / 2
  let all := (List.range 64).filter (d.inLoop p l)
  match all.find? fun s => slotFeEn (d.slotWords e s) with
  | some s => some (slotWin (d.slotWords e s))
  | none => all.head?.map fun s => slotWin (d.slotWords e s)

/-- Is row `r` within the window of loop `l`? -/
def Dev.inWindow (d : Dev) (p l r : Nat) : Bool :=
  (d.loopWindow p l).any fun w => decide ((((d.optPort p).row r).natAbs : Int) ≤ w)

/-- An ending or refusal of a command: RESULT and its interrupt. -/
def Dev.seqResult (d : Dev) (p r : Nat) : Dev :=
  (d.put (pgOps p) OPS_STAT_RESULT r).irq (pgOps p) (if r = 0 then OPS_IRQ_CMD_DONE else OPS_IRQ_CMD_FAIL)

def Dev.seqState (d : Dev) (p st : Nat) : Dev := d.put (pgOps p) OPS_STAT_STATE st

/-- A command runs (RESULT 0xF). -/
def Dev.seqRun (d : Dev) (p : Nat) (op : SeqOp) : Dev :=
  (d.updOpt p fun o => { o with op := op, settle := 0, settleFrom := d.gtime + 2 }).put (pgOps p) OPS_STAT_RESULT 15

/-- The run ends with result `r`. -/
def Dev.seqEnd (d : Dev) (p r : Nat) : Dev := (d.updOpt p fun o => { o with op := .none }).seqResult p r

/-- Row 7 against SUM_ON (R368). -/
def Dev.sumOn (d : Dev) (p : Nat) : Int := d.get (pgOps p) OPS_SEARCH2_SUM_ON * 2 ^ 14

/-- A single layer jump towards `target` begins: TRACKING held, FOCUS open with drive H, and the kick (R369). -/
def Dev.layerKick (vis d : Dev) (p target : Nat) (tracking : Bool) : Dev :=
  let q := pgOps p
  let h := vis.getI q OPS_DRIVE0_FCS
  let k := d.getI q OPS_FCODE_LJ_KICK
  let dir : Int := if d.get q OPS_STAT_LAYER < target then 1 else -1
  let d := ((d.openLoop p 0).openLoop p 1).openLoop p 6
  let d := (d.setTrk p (vis.getI q OPS_DRIVE0_TRK)).setFcs p (h + dir * k)
  (d.seqState p 5).seqRun p (.layer target tracking h d.gtime d.gtime .kick)

/-- The direction of a layer jump. -/
def Dev.layerDir (d : Dev) (p target : Nat) : Int := if d.get (pgOps p) OPS_STAT_LAYER < target then 1 else -1

/-- A command `cmd` with argument `arg` is decided against the committed state, or against SAFE (R367, R371). -/
def Dev.opsCommand (vis d : Dev) (p cmd : Nat) (arg : BitVec 8) : Dev :=
  let q := pgOps p
  let st := if d.get q OPS_STAT_STATE = 7 then 7 else vis.get q OPS_STAT_STATE
  let running := (st == 1 || st == 4 || st == 5) && (d.optPort p).op != .none
  let burning := vis.get (pgOwp p) WP_JOB_STAT_STATE == 2
  let ok : Bool := match cmd with
    | 1 => true
    | 2 => st == 0
    | 3 => st == 2
    | 4 => st == 3 || st == 6
    | 5 => st == 3
    | _ => st == 2 || st == 3
  let n := sext 8 arg.toNat
  let most : Int := clampN 1 127 (d.get q OPS_JUMP_JUMP_MAX)
  let o := d.optPort p
  let d := d.updOpt p fun o => { o with cmdTaken := true }
  if o.cmdTaken then d.seqResult p 1
  else if cmd = 0 || 7 < cmd then d.seqResult p 7
  else if cmd != 1 && running then d.seqResult p 1
  else if !ok || (cmd != 1 && !d.starts q) then d.seqResult p 2
  else if 4 ≤ cmd && burning then d.seqResult p 1
  else
    match cmd with
    | 1 =>
      let was := o.op != .none
      let d := (d.seqAbort p).portIdle p
      let d := if o.drvFault && !o.drvCause then (d.updOpt p fun o => { o with drvFault := false }).setFault q false else d
      if was then d.irq q OPS_IRQ_CMD_DONE else d.seqResult p 0
    | 2 => ((d.setFcs p (d.getI q OPS_SEARCH_FS_START)).seqState p 1).seqRun p (.search false 0 false)
    | 3 => (d.closeLoop p 1 none).seqRun p .trackOn
    | 4 => ((((d.openLoop p 1).openLoop p 6).setTrk p 0).seqState p 2).seqEnd p 0
    | 5 =>
      if n = 0 || most < n.natAbs then d.seqResult p 7
      else
        let h := vis.getI q OPS_DRIVE0_TRK
        (((d.openLoop p 1).setTrk p (h + n.sign * d.getI q OPS_JUMP_KICK)).seqState p 4).seqRun p (.jump n h d.gtime 0 .kick)
    | 6 =>
      if n < 0 || 3 < n then d.seqResult p 7
      else if n = d.get q OPS_STAT_LAYER then d.seqEnd p 0
      else Dev.layerKick vis d p n.toNat (st == 3)
    | _ => (((d.openLoop p 1).closeLoop p 6 none).seqState p 6).seqEnd p 0

/-- OPS_STOP. -/
def execOpsStop (p : Fin 4) (arg : BitVec 8) (s : State) : Host.Outcome State Fault Refusal :=
  .next (s.noting (.cmd (.opsStop p arg)) fun s => s.dec fun vis d => Dev.opsCommand vis d p 1 arg)
/-- FOCUS_ON. -/
def execFocusOn (p : Fin 4) (arg : BitVec 8) (s : State) : Host.Outcome State Fault Refusal :=
  .next (s.noting (.cmd (.focusOn p arg)) fun s => s.dec fun vis d => Dev.opsCommand vis d p 2 arg)
/-- TRACK_ON. -/
def execTrackOn (p : Fin 4) (arg : BitVec 8) (s : State) : Host.Outcome State Fault Refusal :=
  .next (s.noting (.cmd (.trackOn p arg)) fun s => s.dec fun vis d => Dev.opsCommand vis d p 3 arg)
/-- TRACK_OFF. -/
def execTrackOff (p : Fin 4) (arg : BitVec 8) (s : State) : Host.Outcome State Fault Refusal :=
  .next (s.noting (.cmd (.trackOff p arg)) fun s => s.dec fun vis d => Dev.opsCommand vis d p 4 arg)
/-- JUMP: ARG is a signed track count. -/
def execJump (p : Fin 4) (arg : BitVec 8) (s : State) : Host.Outcome State Fault Refusal :=
  .next (s.noting (.cmd (.jump p arg)) fun s => s.dec fun vis d => Dev.opsCommand vis d p 5 arg)
/-- LAYER: ARG is the target layer. -/
def execLayer (p : Fin 4) (arg : BitVec 8) (s : State) : Host.Outcome State Fault Refusal :=
  .next (s.noting (.cmd (.layer p arg)) fun s => s.dec fun vis d => Dev.opsCommand vis d p 6 arg)
/-- LENS_HOLD. -/
def execLensHold (p : Fin 4) (arg : BitVec 8) (s : State) : Host.Outcome State Fault Refusal :=
  .next (s.noting (.cmd (.lensHold p arg)) fun s => s.dec fun vis d => Dev.opsCommand vis d p 7 arg)

/-- What the samples captured at the edge tell the sequencer of port `p`: counts in the window, crossings of a jump, row 7 below SUM_ON in a
layer jump, and how long it has been below SUM_LOSS with the focus loop closed (R358, R367 to R370). -/
def Dev.seqCapture (d : Dev) (p : Nat) : Dev :=
  let o := d.optPort p
  let lost := o.row 7 < d.get (pgOps p) OPS_FL_SUM_LOSS * 2 ^ 14
  let d := d.updOpt p fun o => { o with flCount := if lost && d.loopClosed p 0 then o.flCount + 1 else 0, lost := o.lost && lost }
  let count (l r : Nat) : Dev :=
    if d.gtime < o.settleFrom then d
    else d.updOpt p fun o => { o with settle := if d.inWindow p l r then o.settle + 1 else 0 }
  match o.op with
  | .search _ _ true => count 0 0
  | .trackOn => count 1 1
  | .jump _ _ _ _ .settle => count 1 1
  | .jump n h st c ph =>
    if d.gtime < st + 2 then d else d.updOpt p fun o => { o with op := .jump n h st (c + o.cross1) ph }
  | .layer t b h st a (.coast low) =>
    d.updOpt p fun o => { o with op := .layer t b h st a (.coast (low || decide (o.row 7 < d.sumOn p))) }
  | .layer _ _ _ _ _ .focus => count 0 0
  | .layer _ _ _ _ _ .tracking => count 1 1
  | _ => d

/-- What the sequencer of port `p` does in every Grain: a sweep's step, from the Grain after its first on (R368). -/
def Dev.seqGrain (vis d : Dev) (p : Nat) : Dev :=
  let q := pgOps p
  let o := d.optPort p
  match o.op with
  | .search back _ false =>
    if d.gtime + 1 < o.settleFrom then d
    else
      let cur := vis.getI q OPS_DRIVE0_FCS
      let step : Int := max 1 (d.get q OPS_SEARCH2_FS_STEP)
      let goal := if back then d.getI q OPS_SEARCH_FS_START else d.getI q OPS_SEARCH_FS_END
      d.setFcs p (if cur < goal then min goal (cur + step) else max goal (cur - step))
  | _ => d

/-- The focus loop closes on layer `m` (R366, R368, R369). -/
def Dev.closeFocus (d : Dev) (p m : Nat) (h : Option Int) : Dev := (d.put (pgOps p) OPS_STAT_LAYER m).closeLoop p 0 h

/-- The crossings of fast row 0 captured at this edge with row 7 at least SUM_ON. -/
def Dev.sCurves (d : Dev) (p : Nat) : Nat := if d.sumOn p ≤ (d.optPort p).row 7 then (d.optPort p).cross0 else 0

/-- The S-curves of this Grain are met: a search counts them, a layer jump that brakes or has braked closes (R368, R369). -/
def Dev.sCurve (d : Dev) (p : Nat) : Dev :=
  let q := pgOps p
  let n := d.sCurves p
  if n = 0 then d
  else
    let o := d.optPort p
    let d := d.updOpt p fun o => { o with cross0 := 0 }
    match o.op with
    | .search back c false =>
      let layer := d.get q OPS_SEARCH2_FS_LAYER
      if layer + 1 ≤ c + n then
        (d.closeFocus p layer none).updOpt p fun o =>
          { o with op := .search back (c + n) true, settle := 0, settleFrom := d.gtime + 2 }
      else d.updOpt p fun o => { o with op := .search back (c + n) false }
    | .layer t b h st a ph =>
      if (ph == .brake || ph == .after) && a + 2 ≤ d.gtime then
        let m := (d.get q OPS_STAT_LAYER + d.layerDir p t).toNat
        (d.closeFocus p m (some h)).updOpt p fun o =>
          { o with op := .layer t b h st d.gtime .focus, settle := 0, settleFrom := d.gtime + 2 }
      else d
    | _ => d

/-- S_CURVE_CROSSING. -/
def execSCurveCrossing (p : Fin 4) (s : State) : Host.Outcome State Fault Refusal :=
  .next (s.noting (.cmd (.sCurveCrossing p)) fun s => s.dec fun _ d => d.sCurve p)

/-- SEARCH_SWEEP_END: the drive has reached the end of the sweep without closing (R368). -/
def execSearchSweepEnd (p : Fin 4) (s : State) : Host.Outcome State Fault Refusal :=
  .next (s.noting (.cmd (.searchSweepEnd p)) fun s => s.dec fun vis d =>
    let q := pgOps p
    let cur := vis.getI q OPS_DRIVE0_FCS
    let lim (c : Int) : Int := limitCode (d.get q OPS_ILIM_FCS_MA) c
    match (d.optPort p).op with
    | .search false _ false =>
      if cur != lim (d.getI q OPS_SEARCH_FS_END) then d
      else
        let d := d.updOpt p fun o => { o with op := .search true 0 false }
        let step : Int := max 1 (d.get q OPS_SEARCH2_FS_STEP)
        let goal := d.getI q OPS_SEARCH_FS_START
        d.setFcs p (if cur < goal then min goal (cur + step) else max goal (cur - step))
    | .search true _ false =>
      if cur != lim (d.getI q OPS_SEARCH_FS_START) then d else ((d.setFcs p 0).seqState p 0).seqEnd p 3
    | _ => d)

/-- FOCUS_SETTLED: FOK_G captures in a row within the focus loop's window (R368, R369). -/
def execFocusSettled (p : Fin 4) (s : State) : Host.Outcome State Fault Refusal :=
  .next (s.noting (.cmd (.focusSettled p)) fun s => s.dec fun vis d =>
    let q := pgOps p
    let o := d.optPort p
    if o.settle < d.get q OPS_TIMES_FOK_G then d
    else
      match o.op with
      | .search _ _ true => (d.seqState p 2).seqEnd p 0
      | .layer t b h st a .focus =>
        if d.get q OPS_STAT_LAYER != t then Dev.layerKick vis d p t b
        else if b then
          (d.closeLoop p 1 none).updOpt p fun o =>
            { o with op := .layer t b h st a .tracking, settle := 0, settleFrom := d.gtime + 2 }
        else (d.seqState p 2).seqEnd p 0
      | _ => d)

/-- TRACK_CROSSING_COUNT: at |n| crossings the kick becomes the brake, at 2|n| the tracking loop closes (R370). -/
def execTrackCrossingCount (p : Fin 4) (s : State) : Host.Outcome State Fault Refusal :=
  .next (s.noting (.cmd (.trackCrossingCount p)) fun s => s.dec fun _ d =>
    match (d.optPort p).op with
    | .jump n h st c ph =>
      if ph != .settle && 2 * n.natAbs ≤ c then
        (d.closeLoop p 1 (some h)).updOpt p fun o =>
          { o with op := .jump n h st c .settle, settle := 0, settleFrom := d.gtime + 2 }
      else if ph == .kick && n.natAbs ≤ c then
        (d.setTrk p (h - n.sign * d.getI (pgOps p) OPS_JUMP_KICK)).updOpt p fun o => { o with op := .jump n h st c .brake }
      else d
    | _ => d)

/-- TRACKING_SETTLED: TOK_G captures in a row within the tracking loop's window (R367, R369, R370). -/
def execTrackingSettled (p : Fin 4) (s : State) : Host.Outcome State Fault Refusal :=
  .next (s.noting (.cmd (.trackingSettled p)) fun s => s.dec fun _ d =>
    let o := d.optPort p
    if o.settle < d.get (pgOps p) OPS_TIMES_TOK_G then d
    else
      match o.op with
      | .trackOn => (d.seqState p 3).seqEnd p 0
      | .jump _ _ _ _ .settle => (d.seqState p 3).seqEnd p 0
      | .layer _ _ _ _ _ .tracking => (d.seqState p 3).seqEnd p 0
      | _ => d)

/-- JUMP_TIMEOUT: the jump has not closed within JUMP_TO_G Grains of the kick; a count that has reached its target wins. -/
def execJumpTimeout (p : Fin 4) (s : State) : Host.Outcome State Fault Refusal :=
  .next (s.noting (.cmd (.jumpTimeout p)) fun s => s.dec fun _ d =>
    let q := pgOps p
    match (d.optPort p).op with
    | .jump n _ st c ph =>
      if ph == .settle || 2 * n.natAbs ≤ c || d.gtime < st + max 1 (d.get q OPS_TIMES_JUMP_TO_G) then d
      else (((d.setTrk p 0).seqState p 2).seqEnd p 4).fault q 0x0904 false false []
    | _ => d)

/-- Has the layer jump not closed yet? -/
def LayerPhase.isOpen : LayerPhase → Bool
  | .focus => false
  | .tracking => false
  | _ => true

/-- LAYER_JUMP_TIMEOUT: no closing within LJ_TO_G Grains of the kick. -/
def execLayerJumpTimeout (p : Fin 4) (s : State) : Host.Outcome State Fault Refusal :=
  .next (s.noting (.cmd (.layerJumpTimeout p)) fun s => s.dec fun _ d =>
    let q := pgOps p
    match (d.optPort p).op with
    | .layer _ _ _ st _ ph =>
      if !ph.isOpen || d.gtime < st + d.get q OPS_LJ_LJ_TO_G then d
      else (d.seqEnd p 5).safeAction p 0 none (d.get q OPS_FL_FL_ACTION)
    | _ => d)

/-- LAYER_KICK_END: after LJ_KICK_G Grains the drive coasts at H. -/
def execLayerKickEnd (p : Fin 4) (s : State) : Host.Outcome State Fault Refusal :=
  .next (s.noting (.cmd (.layerKickEnd p)) fun s => s.dec fun _ d =>
    match (d.optPort p).op with
    | .layer t b h st _ .kick =>
      if d.gtime < st + d.get (pgOps p) OPS_LJ_LJ_KICK_G then d
      else (d.setFcs p h).updOpt p fun o => { o with op := .layer t b h st d.gtime (.coast false) }
    | _ => d)

/-- LAYER_COAST_END: row 7 has fallen below SUM_ON and risen above it; the brake is applied. -/
def execLayerCoastEnd (p : Fin 4) (s : State) : Host.Outcome State Fault Refusal :=
  .next (s.noting (.layerCoastEnd p) fun s => s.dec fun _ d =>
    let o := d.optPort p
    match o.op with
    | .layer t b h st _ (.coast true) =>
      if o.row 7 ≤ d.sumOn p then d
      else
        (d.setFcs p (h - d.layerDir p t * d.getI (pgOps p) OPS_FCODE_LJ_KICK)).updOpt p fun o =>
          { o with op := .layer t b h st d.gtime .brake }
    | _ => d)

/-- LAYER_BRAKE_END: at the first S-curve the focus loop closes, or after LJ_BRAKE_G Grains the drive coasts at H. -/
def execLayerBrakeEnd (p : Fin 4) (s : State) : Host.Outcome State Fault Refusal :=
  .next (s.noting (.cmd (.layerBrakeEnd p)) fun s => s.dec fun _ d =>
    match (d.optPort p).op with
    | .layer t b h st a .brake =>
      if 0 < d.sCurves p && a + 2 ≤ d.gtime then d.sCurve p
      else if d.gtime < a + d.get (pgOps p) OPS_LJ_LJ_BRAKE_G then d
      else (d.setFcs p h).updOpt p fun o => { o with op := .layer t b h st a .after }
    | _ => d)

/-! ### Configuration (R349, R351, R364) -/

/-- ELL_SLOT_SEL_WRITE: the shadow takes the named slot's values in use. -/
def execEllSlotSelWrite (e : Fin 2) (v : Word) (s : State) : Host.Outcome State Fault Refusal :=
  .next (s.noting (.cmd (.ellSlotSelWrite e v)) fun s => s.dec fun vis d =>
    let n := bits v.toNat 0 6
    (d.put (pgEll e) ELL_SLOT_SEL_SLOT n).updEngine e fun g => { g with shadow := vis.slotWords e n })

/-- SLOT_COMMIT: a write of `v` to SLOT_COMMIT; GO copies the shadow at the next edge, with CLR_STATE zeroing the states. -/
def execSlotCommit (e : Fin 2) (v : Word) (s : State) : Host.Outcome State Fault Refusal :=
  .next (s.noting (.cmd (.slotCommit e v)) fun s => s.dec fun _ d =>
    if !bit v.toNat 0 then d
    else
      let n := d.get (pgEll e) ELL_SLOT_SEL_SLOT
      let g := d.engine e
      let w := if g.shadow.isEmpty then d.slotWords e n else g.shadow
      let c : SlotCommit := { slot := n, words := w, clr := bit v.toNat 1 }
      d.updEngine e fun g => { g with commits := g.commits.filter (fun (c : SlotCommit) => c.slot != n) ++ [c] })

/-- A write of `v` to the shadow's word at offset `o` (R351). -/
def Dev.shadowWrite (d : Dev) (e o : Nat) (v : Word) : Dev :=
  let n := d.get (pgEll e) ELL_SLOT_SEL_SLOT
  d.updEngine e fun g =>
    { g with shadow := (if g.shadow.isEmpty then d.slotWords e n else g.shadow).set ((o - 0x4C) / 4) v }

/-- OPS_LOOP_WRITE: TILT, LASER, SPINDLE and SLED open or close; ignored in SAFE. -/
def execOpsLoopWrite (p : Fin 4) (v : Word) (s : State) : Host.Outcome State Fault Refusal :=
  .next (s.noting (.cmd (.opsLoopWrite p v)) fun s => s.dec fun _ d =>
    if d.get (pgOps p) OPS_STAT_STATE = 7 then d
    else
      [2, 3, 4, 5].foldl (fun d l =>
        let want := bit v.toNat l
        if want == d.loopClosed p l || (want && !d.starts (pgOps p)) then d else if want then d.closeLoop p l none else d.openLoop p l) d)

/-- ELL_FF_DATA_WRITE: ignored with FF_BUSY while a running LEARN slot uses the table. -/
def execEllFfDataWrite (e : Fin 2) (r : Requester) (v : Word) (s : State) : Host.Outcome State Fault Refusal :=
  .next (s.noting (.cmd (.ellFfDataWrite e r v)) fun s => s.dec fun vis d =>
    let sel := d.get (pgEll e) ELL_FF_SEL_SEL
    let busy := vis.enabled (pgEll e) && (List.range 64).any fun i =>
      let w := vis.slotWords e i
      slotEn w && slotType w == 6 && slotLearn w && slotFfTab w == bits sel 7 2
        && vis.loopClosed (2 * e.val + slotPort w) (slotLoop w)
    if (busy : Bool) then d.errAt (pgEll e) ELL_FF_DATA .ffBusy r else d.wr (pgFf e + 4 * bits sel 0 9) v)

/-! ### Lanes, views and snapshots (R372, R373, R376) -/

/-- A lane fails: the Grain's outputs are discarded; the spare runs the lane's slots from the next edge, or, if it serves
a failed lane already, the slots never run again and their ports enter SAFE. -/
def Dev.servoLaneFail (d : Dev) (e lane : Nat) : Dev :=
  let q := pgEll e
  let d := d.updEngine e fun g => { g with lost := true }
  let d := d.put q ELL_STAT_LANE_FAILED (setBits (d.get q ELL_STAT_LANE_FAILED) lane 1 1)
  match (d.engine e).spare with
  | none =>
    let d := ((d.setB q ELL_STAT_SPARE_USED true).put q ELL_STAT_STANDIN lane).irq q ELL_IRQ_LANE_REMAP
    (d.updEngine e fun g => { g with spare := some lane }).fault q 0x0905 false false [lane]
  | some _ =>
    let d := d.updEngine e fun g => { g with dead := setBits g.dead lane 1 1 }
    let d := ((d.setDegraded q).fault q 0x0905 true false [lane])
    [0, 1].foldl (fun d j =>
      let hit := (List.range 64).any fun i => i % 8 == lane && (let w := d.slotWords e i; slotEn w && slotPort w == j)
      if (hit : Bool) then d.portSafe (2 * e + j) else d) d

/-- SERVO_LANE_FAIL. -/
def execServoLaneFail (e : Fin 2) (lane : Fin 8) (s : State) : Host.Outcome State Fault Refusal :=
  .next (s.noting (.cmd (.servoLaneFail e lane)) fun s => s.dec fun _ d => d.servoLaneFail e lane)

/-- SLOT_STATE0 to SLOT_STATE3 of slot `s` (R376). -/
def Dev.slotStateView (d : Dev) (e s i : Nat) : Word :=
  let t := (d.engine e).slot s
  let pid := slotType (d.slotWords e s) == 1
  BitVec.ofInt 32 (match i with
    | 0 => if pid then t.i else t.x1
    | 1 => if pid then t.x1 else t.x2
    | 2 => if pid then t.df else t.y1
    | _ => t.y)

/-- SLOT_FE_STAT of slot `s`. -/
def Dev.slotFeView (d : Dev) (e s : Nat) : Word :=
  let t := (d.engine e).slot s
  BitVec.ofNat 32 (b2n t.follow * 2 ^ 31 + t.fe % 2 ^ 16)

/-- The snapshots of ELL (R40, R376). -/
def Dev.servoStone (d : Dev) : Dev :=
  [0, 1].foldl (fun d e =>
    let g := d.engine e
    ((d.put (pgEll e) ELL_STONE_SAT_G (min 0xFFFF g.satG)).put (pgEll e) ELL_STONE_FREEZE_G (min 0xFFFF g.freezeG)).updEngine e
      fun g => { g with satG := 0, freezeG := 0 }) d

/-- Soft reset of an ELL page: every loop of both ports opens and every slot state is 0 (R375). -/
def Dev.ellReset (d : Dev) (e : Nat) : Dev :=
  let d := d.updEngine e fun g => { g with slots := Vector.replicate 64 {}, commits := [] }
  [2 * e, 2 * e + 1].foldl (fun d p =>
    let d := [0, 1, 2, 3, 4, 5, 6].foldl (fun d l => d.openLoop p l) (d.seqAbort p)
    d.portRest p) d

/-- Does ELL `e` refuse PREPARE with LOOPS_CLOSED (R374)? -/
def Dev.ellRefuses (d : Dev) (e : Nat) : Bool :=
  [2 * e, 2 * e + 1].any fun p => d.get (pgOps p) OPS_LOOP_CLOSED != 0 || d.get (pgOps p) OPS_STAT_STATE != 0

/-- A servo cause of R322 for the write path, TRACK or FOCUS (R356). -/
def Dev.servoCause (d : Dev) (p l : Nat) : Bool :=
  !d.loopClosed p l || (List.range 64).any fun s => ((d.engine (p / 2)).slot s).follow && d.inLoop p l s

end Sys2Proof.Machine
end

