-- ==== Sys2Proof/Machine/Motion.lean ====
section
/-! DEFINITION. The motion engine Chain: sleds (axes 0 to 3) and general axes (4 to 11) (chapter 12). Positions are in steps,
phases in 2^−40 step. -/

namespace Sys2Proof.Machine

open Sys2Proof

def Dev.axis (d : Dev) (n : Nat) : Axis := (d.axes[n]?).getD {}

def Dev.updAxis (d : Dev) (n : Nat) (f : Axis → Axis) : Dev := { d with axes := d.axes.setIfInBounds n (f (d.axis n)) }

/-- STATE of CHN_STAT: 0 OFF, 1 IDLE, 2 MOVING, 3 STOPPING, 4 HOMING, 5 GEARED, 6 FAULT. -/
def Dev.axisState (d : Dev) (n : Nat) : Nat := d.get (pgAx n) CHN_STAT_STATE

def Dev.axisPos (d : Dev) (n : Nat) : Int := d.getI (pgAx n) CHN_POS_POS

/-- Enter a state in this Grain. -/
def Dev.axisGo (d : Dev) (n st : Nat) : Dev :=
  (d.put (pgAx n) CHN_STAT_STATE st).updAxis n fun a => { a with since := d.gtime }

/-! ### Parameters (R431) -/

def Dev.axVmax (d : Dev) (n : Nat) : Nat := d.get (pgAx n) CHN_VMAX_V
def Dev.axVmin (d : Dev) (n : Nat) : Nat := min (max 1 (d.get (pgAx n) CHN_VMIN_V)) (d.axVmax n)
def Dev.axAcc (d : Dev) (n : Nat) : Nat := max 1 (d.get (pgAx n) CHN_ACC_A)
def Dev.axDec (d : Dev) (n : Nat) : Nat := max 1 (d.get (pgAx n) CHN_DEC_A)
def Dev.axDecUse (d : Dev) (n : Nat) : Nat := max 1 (d.get (pgAx n) CHN_DEC_USE_A)

/-- Stage velocity `v` in direction `neg`. -/
def Dev.setVel (d : Dev) (n v : Nat) (neg : Bool) : Dev :=
  (d.put (pgAx n) CHN_VEL_V v).setB (pgAx n) CHN_STAT_DIR neg

/-- A sled's currents, at most 600 mA (R415). -/
def Dev.sledCur (d : Dev) (n : Nat) (f : Fld) : Nat := min 600 (d.get (pgAx n) f)

/-- A sled's current for the next edge, from the current `now` committed at this one (R416). -/
def Dev.sledCurrent (d : Dev) (n now : Nat) : Dev :=
  if 4 ≤ n then d
  else
    let q := pgAx n
    let st := d.axisState n
    let irun := d.sledCur n CHN_CUR_IRUN
    let load := d.get q CHN_ISTAT_LOAD
    if st = 0 then d.put q CHN_ISTAT_I_NOW 0
    else if st = 1 then d.put q CHN_ISTAT_I_NOW (d.sledCur n CHN_CUR_IHOLD)
    else if st = 6 then d
    else if !d.flag q CHN_CTL_AUTO_I then d.put q CHN_ISTAT_I_NOW irun
    else
      let step := d.get q CHN_LOAD_I_STEP
      let i :=
        if d.get q CHN_LOAD_LOAD_HI < load then min (d.sledCur n CHN_CUR_IMAX) (now + step)
        else if load < d.get q CHN_LOAD_LOAD_LO then max irun (now - step) else now
      d.put q CHN_ISTAT_I_NOW (max irun i)

/-! ### The planner (R412, R417, R420, R425) -/

/-- u travelled while slowing from `w` to `vmin` at deceleration `a`. -/
def stopDist (vmin a w : Nat) : Nat :=
  let m := (w - vmin) / a
  500 * (m * w - a * m * (m + 1) / 2)

/-- Does `w` fit the distance `r`? -/
def fitsDist (vmin a : Nat) (r : Int) (w : Nat) : Bool := decide (((w * 500 + stopDist vmin a w : Nat) : Int) ≤ r)

/-- The smallest deceleration from `lo` to `hi` that fits, where `hi` fits; a larger one never needs more room. -/
def searchDec (vmin v : Nat) (r : Int) : Nat → Nat → Nat → Nat
  | 0, _, hi => hi
  | f + 1, lo, hi =>
    if hi ≤ lo then hi
    else
      let mid := (lo + hi) / 2
      if fitsDist vmin mid r (max (v - mid) vmin) then searchDec vmin v r f lo mid else searchDec vmin v r f (mid + 1) hi

/-- The deceleration that R417 raises to: the smallest from DEC that fits, or v − VMIN if none does. -/
def raisedDec (vmin v dec : Nat) (r : Int) : Nat :=
  let top := v - vmin
  if dec ≤ top && fitsDist vmin top r vmin then searchDec vmin v r 40 dec top else max 1 top

/-- Raise the deceleration in use. -/
def Dev.clampDec (d : Dev) (n a : Nat) : Dev :=
  ((d.put (pgAx n) CHN_DEC_USE_A a).setB (pgAx n) CHN_STAT_DECEL_CLAMPED true).irq (pgAx n) AX_IRQ_CLAMP

/-- Are the soft limits in force (R425)? -/
def Dev.softLimits (d : Dev) (n : Nat) : Bool := d.flag (pgAx n) CHN_STAT_REF && d.flag (pgAx n) CHN_CTL_SOFTLIM

/-- The lowest and highest position that a step may reach. -/
def Dev.posRange (d : Dev) (n : Nat) : Int × Int :=
  if d.softLimits n then (d.getI (pgAx n) CHN_POS_MIN_LIMIT, d.getI (pgAx n) CHN_POS_MAX_LIMIT) else (-2 ^ 31, 2 ^ 31 - 1)

/-- A planned word `w` that would pass a soft limit at above VMIN has its deceleration raised (R425). -/
def Dev.limitPlan (d : Dev) (n v w : Nat) (neg : Bool) (room : Int → Int) : Dev :=
  let lim := if neg then (d.posRange n).1 else (d.posRange n).2
  let vmin := d.axVmin n
  if !d.softLimits n || w ≤ vmin || fitsDist vmin (d.axDecUse n) (room lim) w then d.setVel n w neg
  else
    let a := raisedDec vmin v (d.axDec n) (room lim)
    (d.clampDec n a).setVel n (max (v - a) vmin) neg

/-- The velocity word for the next Grain, from velocity `v` in direction `neg0` and the position and phase committed at this edge (R412). -/
def Dev.planAxis (d : Dev) (n v : Nat) (neg0 : Bool) : Dev :=
  let q := pgAx n
  let a := d.axis n
  let pos := a.posSet.getD (d.axisPos n)
  let vmin := d.axVmin n
  let vmax := d.axVmax n
  let dec := d.axDecUse n
  let acc := d.axAcc n
  let room (neg : Bool) (g : Int) : Int :=
    let s : Int := if neg then -1 else 1
    (g - pos) * s * 2 ^ 40 - (if neg == neg0 then a.phase else 0) - v * 500
  match d.axisState n with
  | 2 =>
    if v = 0 && pos = a.target then d.setVel n 0 neg0
    else
      let neg := if v = 0 then decide (a.target < pos) else neg0
      let d := if v = 0 then d.updAxis n fun a => { a with reversing := false } else d
      let r := room neg a.target
      let w := max (v - dec) vmin
      let past := 4 ≤ n && 0 < v && (decide (r < 0) || (vmin < w && !fitsDist vmin dec r w)) && vmin < v
      let behind := 4 ≤ n && 0 < v && decide ((a.target - pos) * (if neg then -1 else 1) < 0)
      if 0 < v && (a.reversing || past || behind) then
        let d := if a.reversing then d else d.updAxis n fun a => { a with reversing := true, overs := a.overs + 1 }
        d.limitPlan n v (if vmin < v then w else 0) neg (room neg)
      else if vmax < v then d.limitPlan n v (max (v - dec) vmax) neg (room neg)
      else
        let c := min vmax (max (v + acc) vmin)
        if fitsDist vmin dec r c then d.limitPlan n v c neg (room neg)
        else if n < 4 && vmin < v && !fitsDist vmin dec r w then
          let x := raisedDec vmin v (d.axDec n) r
          (d.clampDec n x).setVel n (max (v - x) vmin) neg
        else d.limitPlan n v w neg (room neg)
  | 3 => d.limitPlan n v (if vmin < v then max (v - dec) vmin else 0) neg0 (room neg0)
  | 4 =>
    let neg := if v = 0 then !d.flag q CHN_HOME_CFG_DIR else neg0
    let top := d.get q CHN_HOME_V_V
    d.limitPlan n v (if top < v then max (v - dec) top else min top (max (v + acc) vmin)) neg (room neg)
  | _ => d

/-- What a move, a homing or a gear holds is given up. -/
def Dev.axisLeave (d : Dev) (n : Nat) : Dev :=
  (d.updAxis n fun a => { a with sled := false, reversing := false, after := .idle, homeAt := none, lag := 0, frac := 0 }).setB (pgAx n)
    CHN_STAT_GEAR_LAG false

/-- Velocity 0 at the next edge, with no deceleration; DEC_USE is DEC again. -/
def Dev.axisStill (d : Dev) (n : Nat) : Dev :=
  ((d.setVel n 0 (d.flag (pgAx n) CHN_STAT_DIR)).put (pgAx n) CHN_DEC_USE_A (d.axDec n)).axisLeave n

/-- A move ends: velocity 0, IDLE, DEC_USE back at DEC; RESULT OK and DONE but for a sled request (R413, R419) and behind a main-supply
loss (R428). -/
def Dev.axisDone (d : Dev) (n : Nat) : Dev :=
  let q := pgAx n
  let e := (d.axisStill n).axisGo n 1
  if (d.axis n).sled || d.rsv.pfLine then e else (e.put q CHN_STAT_RESULT 0).irq q AX_IRQ_DONE

/-- FAULT with a code: velocity 0 at the next edge, with no deceleration. -/
def Dev.axisFault (d : Dev) (n code : Nat) : Dev :=
  (((d.axisStill n).axisGo n 6).put (pgAx n) CHN_STAT_FAULT_CODE code).irq (pgAx n) AX_IRQ_FAULT

/-! ### Gearing (R423, R424) -/

/-- The count of the axis's master encoder at this edge. -/
def Dev.masterCount (d : Dev) (n : Nat) : Int := d.getI pgCenc (CENC_POS_COUNT.idx (d.get (pgAx n) CHN_CTL_MASTER))

/-- Stage the word that issues `owed` 2^−16 steps besides the lag carried (R423). -/
def Dev.gearStage (vis d : Dev) (n : Nat) (owed : Int) : Dev :=
  let q := pgAx n
  let a := d.axis n
  let sum := a.fracOld + owed
  let steps := sum / 65536 + a.lagOld
  let neg := if steps = 0 then vis.flag q CHN_STAT_DIR else decide (steps < 0)
  let k := steps.natAbs
  let ph := if neg == vis.flag q CHN_STAT_DIR then (a.phase + vis.get q CHN_VEL_V * 500) % 2 ^ 40 else 0
  let want := ceilDiv (k * 2 ^ 40 - ph) 500
  let w := if k = 0 then 0 else min want (d.axVmax n)
  let issued := if k = 0 then 0 else min k ((ph + w * 500) / 2 ^ 40)
  let lag : Int := (if neg then -1 else 1) * ((k - issued : Nat) : Int)
  let d := (d.setVel n w neg).updAxis n fun a => { a with frac := sum % 65536, lag := lag }
  d.setB q CHN_STAT_GEAR_LAG (lag != 0)

/-- A geared axis takes the change of its master's count that this edge captured (R423). -/
def Dev.gearGrain (vis d : Dev) (n : Nat) : Dev :=
  let a := d.axis n
  Dev.gearStage vis d n ((a.master - a.masterOld) * d.getI (pgAx n) CHN_GEAR_RATIO_RATIO)

/-- GEAR_SWITCH: the change captured at this edge crosses GEAR_POS. The counts before it are taken at the old ratio, and the rest of the
change goes at the new one (R424). -/
def execGearSwitch (n : Fin 12) (s : State) : Host.Outcome State Fault Refusal :=
  .next (s.noting (.gearSwitch n) fun s => s.dec fun _ d =>
    let q := pgAx n
    let a := d.axis n
    let g := d.getI q CHN_GEAR_POS_POS
    let crossed := (a.masterOld < g && g ≤ a.master) || (a.master ≤ g && g < a.masterOld)
    if d.axisState n ≠ 5 || !d.flag q CHN_STEP_CFG_ARM || !crossed then d
    else
      let first := (g - a.masterOld) * d.getI q CHN_GEAR_RATIO_RATIO
      let d := d.updAxis n fun a => { a with masterOld := g, fracOld := a.fracOld + first, switched := true }
      ((d.putI q CHN_GEAR_RATIO_RATIO (d.getI q CHN_GEAR_NEXT_RATIO)).setB q CHN_STEP_CFG_ARM false).irq q AX_IRQ_GEAR_SWITCH)

/-- The planner, or the gear, for the next Grain (R412, R423). A STOP behind a change of ratio slows from the velocity that the change gives
(R428). -/
def Dev.axisPlan (vis d : Dev) (n : Nat) : Dev :=
  let q := pgAx n
  if d.axisState n = 5 then Dev.gearGrain vis d n
  else if d.axisState n = 3 && (d.axis n).switched then
    let g := (Dev.gearGrain vis d n).axisLeave n
    g.planAxis n (g.get q CHN_VEL_V) (g.flag q CHN_STAT_DIR)
  else d.planAxis n (vis.get q CHN_VEL_V) (vis.flag q CHN_STAT_DIR)

/-- GEAR_ARM: a write of `v` to CHN_STEP_CFG. -/
def execGearArm (n : Fin 12) (v : Word) (s : State) : Host.Outcome State Fault Refusal :=
  .next (s.noting (.cmd (.gearArm n v)) fun s => s.dec fun _ d => if 4 ≤ n.val && bit v.toNat 1 then d.setB (pgAx n) CHN_STEP_CFG_ARM true else d)

/-! ### Commands (R427) -/

/-- A refusal. -/
def Dev.axisRefuse (d : Dev) (n r : Nat) : Dev := (d.put (pgAx n) CHN_STAT_RESULT r).irq (pgAx n) AX_IRQ_CMD_FAIL

def Dev.axisOk (d : Dev) (n : Nat) : Dev := d.put (pgAx n) CHN_STAT_RESULT 0

/-- A move to `g` starts, or continues to it (R412, R420). -/
def Dev.axisMove (d : Dev) (n : Nat) (g : Int) (sled : Bool) : Dev :=
  let d := if d.axisState n = 2 then d else d.axisGo n 2
  d.updAxis n fun a => { a with target := g, sled := sled, reversing := false, after := .idle }

/-- HALT: velocity 0 at the next edge; REF is cleared for a sled faster than VMIN. -/
def Dev.axisHalt (vis d : Dev) (n : Nat) : Dev :=
  let fast := n < 4 && d.axVmin n < vis.get (pgAx n) CHN_VEL_V
  let d := (d.updAxis n fun a => { a with sled := false }).axisDone n
  if fast then d.setB (pgAx n) CHN_STAT_REF false else d

/-- OFF: windings without current, or AXn_EN low; REF is cleared for sleds. -/
def Dev.axisOff (d : Dev) (n : Nat) : Dev :=
  let d := (d.axisGo n 0).put (pgAx n) CHN_STAT_FAULT_CODE 0
  if n < 4 then (d.setB (pgAx n) CHN_STAT_REF false).put (pgAx n) CHN_ISTAT_I_NOW 0 else d

/-- STOP: the axis slows from the velocity that it has. -/
def Dev.axisStop (d : Dev) (n : Nat) : Dev := (d.axisGo n 3).axisLeave n

/-- A command, decided against the committed state; a fault or an end of this Grain comes first, and behind a main-supply loss no command
completes (R427, R428). The planner and the currents follow in the same Grain. -/
def Dev.axisCommand (vis d : Dev) (n cmd : Nat) : Dev :=
  let q := pgAx n
  let now := d.axisState n
  let a := d.axis n
  let st := if now = 0 || now = 6 || now = 1 || a.sled then now else vis.axisState n
  let d := d.updAxis n fun a => { a with cmdTaken := true }
  if d.rsv.pfLine then d
  else if a.cmdTaken then d.axisRefuse n 2
  else
    match cmd with
    | 1 => if st = 0 then (d.axisGo n 1).axisOk n else d.axisRefuse n 1
    | 2 => if st = 1 || st = 6 then (d.axisOff n).axisOk n else d.axisRefuse n 1
    | 3 | 4 =>
      if a.sled || (n < 4 && st = 2) then d.axisRefuse n 2
      else if !d.starts q || (st ≠ 1 && !(4 ≤ n && (st = 2 || st = 3))) then d.axisRefuse n 1
      else
        let t := d.getI q CHN_TARGET_TARGET
        let g := if cmd = 3 then t else d.axisPos n + t
        let lim := d.posRange n
        if g < lim.1 || lim.2 < g then d.axisRefuse n 3 else d.axisMove n g false
    | 5 => if st = 2 || st = 4 || st = 5 then d.axisStop n else d.axisRefuse n 1
    | 6 => if 2 ≤ st && st ≤ 5 then Dev.axisHalt vis d n else d.axisRefuse n 1
    | 7 =>
      if a.sled then d.axisRefuse n 2
      else if st ≠ 1 || !d.starts q then d.axisRefuse n 1
      else (d.axisGo n 4).updAxis n fun a => { a with homeAt := none }
    | 8 =>
      if st ≠ 1 then d.axisRefuse n 1
      else
        let t := d.getI q CHN_TARGET_TARGET
        ((d.updAxis n fun a => { a with posSet := some t }).setB q CHN_STAT_REF true).axisOk n
    | 9 =>
      if st ≠ 1 || n < 4 || !d.starts q then d.axisRefuse n 1
      else
        let c := d.masterCount n
        ((d.axisGo n 5).updAxis n fun a =>
          { a with master := c, masterOld := c, frac := 0, lag := 0, fracOld := 0, lagOld := 0 }).axisOk n
    | 10 =>
      if st ≠ 6 then d.axisRefuse n 1
      else if d.get q CHN_STAT_FAULT_CODE = 4 && !vis.tb.linkUp then d.axisRefuse n 1
      else ((d.axisGo n 1).put q CHN_STAT_FAULT_CODE 0).axisOk n
    | _ => d.axisRefuse n 3

/-- CHN_ENABLE. -/
def execChnEnable (n : Fin 12) (s : State) : Host.Outcome State Fault Refusal :=
  .next (s.noting (.cmd (.chnEnable n)) fun s => s.dec fun vis d => Dev.axisCommand vis d n 1)
/-- CHN_DISABLE. -/
def execChnDisable (n : Fin 12) (s : State) : Host.Outcome State Fault Refusal :=
  .next (s.noting (.cmd (.chnDisable n)) fun s => s.dec fun vis d => Dev.axisCommand vis d n 2)
/-- MOVE_ABS. -/
def execMoveAbs (n : Fin 12) (s : State) : Host.Outcome State Fault Refusal :=
  .next (s.noting (.cmd (.moveAbs n)) fun s => s.dec fun vis d => Dev.axisCommand vis d n 3)
/-- MOVE_REL. -/
def execMoveRel (n : Fin 12) (s : State) : Host.Outcome State Fault Refusal :=
  .next (s.noting (.cmd (.moveRel n)) fun s => s.dec fun vis d => Dev.axisCommand vis d n 4)
/-- CHN_STOP. -/
def execChnStop (n : Fin 12) (s : State) : Host.Outcome State Fault Refusal :=
  .next (s.noting (.cmd (.chnStop n)) fun s => s.dec fun vis d => Dev.axisCommand vis d n 5)
/-- HALT. -/
def execHalt (n : Fin 12) (s : State) : Host.Outcome State Fault Refusal :=
  .next (s.noting (.cmd (.halt n)) fun s => s.dec fun vis d => Dev.axisCommand vis d n 6)
/-- HOME. -/
def execHome (n : Fin 12) (s : State) : Host.Outcome State Fault Refusal :=
  .next (s.noting (.cmd (.home n)) fun s => s.dec fun vis d => Dev.axisCommand vis d n 7)
/-- SET_POS. -/
def execSetPos (n : Fin 12) (s : State) : Host.Outcome State Fault Refusal :=
  .next (s.noting (.cmd (.setPos n)) fun s => s.dec fun vis d => Dev.axisCommand vis d n 8)
/-- GEAR_ON. -/
def execGearOn (n : Fin 12) (s : State) : Host.Outcome State Fault Refusal :=
  .next (s.noting (.cmd (.gearOn n)) fun s => s.dec fun vis d => Dev.axisCommand vis d n 9)
/-- CHN_CLEAR. -/
def execChnClear (n : Fin 12) (s : State) : Host.Outcome State Fault Refusal :=
  .next (s.noting (.cmd (.chnClear n)) fun s => s.dec fun vis d => Dev.axisCommand vis d n 10)

/-- SLED_MOVE_REQUEST: a servo request that the last edge committed; taken only in IDLE (R363, R419). -/
def execSledMoveRequest (k : Fin 4) (s : State) : Host.Outcome State Fault Refusal :=
  .next (s.noting (.cmd (.sledMoveRequest k)) fun s => s.dec fun vis d =>
    match (vis.optPort k).sled with
    | some m =>
      let g := d.axisPos k + m
      let lim := d.posRange k
      if d.axisState k ≠ 1 || !d.starts (pgAx k) || g < lim.1 || lim.2 < g then d else d.axisMove k g true
    | none => d)

/-! ### Endings and faults -/

/-- MOVE_TARGET_REACHED: the step that reaches the target has been captured (R413). -/
def execMoveTargetReached (n : Fin 12) (s : State) : Host.Outcome State Fault Refusal :=
  .next (s.noting (.cmd (.moveTargetReached n)) fun s => s.dec fun vis d =>
    let a := d.axis n
    if d.axisState n ≠ 2 || a.reversing || d.axisPos n ≠ a.target || d.axVmin n < vis.get (pgAx n) CHN_VEL_V then d
    else d.axisDone n)

/-- SLED_STALL: LOAD at or above 240 with the current at IMAX for STALL_G Grains (R418). -/
def execSledStall (n : Fin 4) (s : State) : Host.Outcome State Fault Refusal :=
  .next (s.noting (.cmd (.sledStall n)) fun s => s.dec fun _ d =>
    let q := pgAx n
    let st := d.axisState n
    if st < 2 || st = 6 || (d.axis n).stall < max 1 (d.get q CHN_LOAD_STALL_G) then d
    else
      let data := [ofInt 32 (d.axisPos n), d.get q CHN_VEL_V]
      ((d.axisFault n 1).setB q CHN_STAT_REF false).fault q 0x0B01 false false data)

/-- round(count × ENC_SCALE) of axis `n` (R422). -/
def Dev.encSteps (d : Dev) (n : Nat) : Int :=
  let q := pgAx n
  (d.getI pgCenc (CENC_POS_COUNT.idx (d.get q CHN_CTL_ENC_SEL)) * d.getI q CHN_ENC_SCALE_SCALE + 32768) / 65536

/-- DEVIATION_STALL: the deviation has been outside DEV_WIN for DEV_G Grains (R422). -/
def execDeviationStall (n : Fin 12) (s : State) : Host.Outcome State Fault Refusal :=
  .next (s.noting (.cmd (.deviationStall n)) fun s => s.dec fun _ d =>
    let q := pgAx n
    let st := d.axisState n
    if n.val < 4 || st = 0 || st = 6 || (d.axis n).dev < max 1 (d.get q CHN_DEV_DEV_G) then d
    else
      let data := [ofInt 32 (d.axisPos n), d.get q CHN_VEL_V]
      ((d.axisFault n 1).updAxis n fun a => { a with posSet := some (d.encSteps n) }).fault q 0x0B01 false false data)

/-- SOFT_LIMIT_REACHED: a geared axis has reached a soft limit or the end of the position range (R425). -/
def execSoftLimitReached (n : Fin 12) (s : State) : Host.Outcome State Fault Refusal :=
  .next (s.noting (.softLimitReached n) fun s => s.dec fun _ d =>
    let lim := d.posRange n
    let p := d.axisPos n
    if d.axisState n ≠ 5 || (lim.1 < p && p < lim.2) then d
    else (d.axisFault n 3).fault (pgAx n) 0x0B03 false false [ofInt 32 p])

/-- HOME_INPUT: the first active sample was at accumulator clock `clk` of the Grain just ended; its position is latched and
the axis stops (R426). -/
def execHomeInput (n : Fin 12) (clk : Fin 500) (s : State) : Host.Outcome State Fault Refusal :=
  .next (s.noting (.homeInput n clk) fun s => s.dec fun _ d =>
    let a := d.axis n
    if d.axisState n ≠ 4 || a.homeAt.isSome then d
    else
      let k : Int := (a.gPhase + a.gVel * (clk.val + 1)) / 2 ^ 40
      let p := a.gPos + (if a.gNeg then -k else k)
      (d.axisStop n).updAxis n fun a => { a with homeAt := some p, after := .home })

/-- HOME_TIMEOUT: the home input has not been seen within HOME_TO_S Stones (R426). -/
def execHomeTimeout (n : Fin 12) (s : State) : Host.Outcome State Fault Refusal :=
  .next (s.noting (.homeTimeout n) fun s => s.dec fun vis d =>
    if d.axisState n ≠ 4 || d.gtime < (d.axis n).since + 256 * max 1 (d.get (pgAx n) CHN_HOME_CFG_HOME_TO_S) then d
    else Dev.axisPlan vis ((d.axisStop n).updAxis n fun a => { a with after := .homeFail }) n)

/-! ### Encoders (R421) -/

/-- Does axis `n` use encoder `e`? -/
def Dev.usesEncoder (d : Dev) (n e : Nat) : Bool :=
  4 ≤ n && ((d.flag (pgAx n) CHN_CTL_DEV_EN && d.get (pgAx n) CHN_CTL_ENC_SEL == e)
    || (d.axisState n == 5 && d.get (pgAx n) CHN_CTL_MASTER == e))

/-- ENCODER_ILLEGAL: A and B changed together on encoder `e`. -/
def execEncoderIllegal (e : Fin 8) (s : State) : Host.Outcome State Fault Refusal :=
  .next (s.noting (.cmd (.encoderIllegal e)) fun s => s.dec fun _ d =>
    let d := d.put pgCenc CENC_ERR_ILLEGAL (setBits (d.get pgCenc CENC_ERR_ILLEGAL) e 1 1)
    let d := (List.range 12).foldl (fun d n => if d.usesEncoder n e then d.irq (pgAx n) AX_IRQ_ENC_ERR else d) d
    d.fault pgCenc 0x0B02 false false [e.val])

/-- ENCODER_INDEX: an index pulse of encoder `e` with INDEX_CLR set zeroes the count; the bit clears. `n`: what the encoder has counted
behind the pulse when the edge captures it. -/
def execEncoderIndex (e : Fin 8) (n : BitVec 16) (s : State) : Host.Outcome State Fault Refusal :=
  .next (s.noting (.cmd (.encoderIndex e n)) fun s => s.dec fun _ d =>
    let c := d.get pgCenc CENC_CFG_ENC
    if !bit c (4 * e.val + 3) then d
    else
      let k := sext 16 n.toNat
      (d.put pgCenc CENC_CFG_ENC (setBits c (4 * e.val + 3) 1 0)).putI pgCenc (CENC_POS_COUNT.idx e) (if bit c (4 * e.val + 2) then -k else k))

/-- CENC_POS_WRITE: the count at the next edge; ignored while a geared axis uses the encoder as master (R431). -/
def execCencPosWrite (e : Fin 8) (v : Word) (s : State) : Host.Outcome State Fault Refusal :=
  .next (s.noting (.cencPosWrite e v) fun s => s.dec fun _ d =>
    let used := (List.range 12).any fun n => d.axisState n == 5 && d.get (pgAx n) CHN_CTL_MASTER == e.val
    if used then d else { d with encSet := d.encSet.setIfInBounds e.val (some v) })

/-- Encoder `e` at the next edge: the count that software has set, or `k` transitions more; INV swaps A and B. -/
def Dev.encCount (d : Dev) (e : Nat) (k : Int) : Dev :=
  let q := CENC_POS_COUNT.idx e
  match (d.encSet[e]?).getD none with
  | some v => { d.put pgCenc q v.toNat with encSet := d.encSet.setIfInBounds e none }
  | none => d.putI pgCenc q (d.getI pgCenc q + (if bit (d.get pgCenc CENC_CFG_ENC) (4 * e + 2) then -k else k))

/-! ### Every Grain, snapshots and resets -/

/-- The Grain that ends at this edge: the accumulator runs at the velocity that was committed, steps beyond the target at
VMIN or beyond a limit are not issued, and a change of direction clears it (R408, R409, R413, R425). -/
def Dev.axisAdvance (vis d : Dev) (n : Nat) : Dev :=
  let q := pgAx n
  let a := d.axis n
  let v := vis.get q CHN_VEL_V
  let neg := vis.flag q CHN_STAT_DIR
  let pos := vis.axisPos n
  let total := a.phase + v * 500
  let k : Int := (total / 2 ^ 40 : Nat)
  let goal := if neg then pos - k else pos + k
  let gated := vis.axisState n == 2 && v ≤ vis.axVmin n && !a.reversing
  let tgt := (vis.axis n).target
  let goal := if gated then (if neg then max goal (min pos tgt) else min goal (max pos tgt)) else goal
  let lim := vis.posRange n
  let goal := if goal < lim.1 then max goal (min pos lim.1) else if lim.2 < goal then min goal (max pos lim.2) else goal
  let turned := d.flag q CHN_STAT_DIR != neg
  let d := d.putI q CHN_POS_POS (a.posSet.getD goal)
  d.updAxis n fun a => { a with phase := if turned then 0 else total % 2 ^ 40, posSet := none, gPos := pos, gPhase := a.phase
                                gVel := v, gNeg := neg, steps := a.steps + (goal - pos).natAbs }

/-- A stop that has committed 0 ends (R413); a homing sets its position and REF, or faults where the input was not seen (R426). -/
def Dev.stopEnd (d : Dev) (n : Nat) : Dev :=
  let q := pgAx n
  let a := d.axis n
  match a.after with
  | .idle => d.axisDone n
  | .home =>
    let p := d.getI q CHN_HOME_POS_POS + (d.axisPos n - a.homeAt.getD (d.axisPos n))
    ((d.axisDone n).setB q CHN_STAT_REF true).updAxis n fun a => { a with posSet := some p }
  | .homeFail => (d.axisFault n 2).fault q 0x0B04 false false []

/-- What an edge captures for axis `n`: a sled's load angle, measured at VMIN and above (R416); a general axis's deviation (R422) and the
change of its master's count (R423). The Grains of a stall are counted here, since its fault comes before the Grain's commands (R418, R422, R428).
A stop that commits 0 ends. -/
def Dev.axisCapture (d : Dev) (n : Nat) (load : BitVec 8) : Dev :=
  let q := pgAx n
  let d := d.updAxis n fun a => { a with cmdTaken := false, switched := false }
  let st := d.axisState n
  let d :=
    if n < 4 then
      let d := if 0 < (d.axis n).gVel && d.axVmin n ≤ (d.axis n).gVel then d.put q CHN_ISTAT_LOAD load.toNat else d
      let hard := 2 ≤ st && st ≤ 5 && 240 ≤ d.get q CHN_ISTAT_LOAD && d.get q CHN_ISTAT_I_NOW == d.sledCur n CHN_CUR_IMAX
      d.updAxis n fun a => { a with stall := if hard then a.stall + 1 else 0 }
    else
      let d := d.updAxis n fun a =>
        { a with masterOld := a.master, master := d.masterCount n, fracOld := a.frac, lagOld := a.lag }
      if d.flag q CHN_CTL_DEV_EN then
        let x := d.axisPos n - d.encSteps n
        let out := d.get q CHN_DEV_DEV_WIN < x.natAbs
        (d.putI q CHN_DEVIATION_DEV x).updAxis n fun a => { a with dev := if out then a.dev + 1 else 0 }
      else d.updAxis n fun a => { a with dev := 0 }
  if st = 3 && d.get q CHN_VEL_V = 0 then d.stopEnd n else d

/-- The decision phase of an axis: the planner or the gear, and the current of a sled. -/
def Dev.axisGrain (vis d : Dev) (n : Nat) : Dev :=
  let now := vis.get (pgAx n) CHN_ISTAT_I_NOW
  let above := n < 4 && d.sledCur n CHN_CUR_IRUN < now
  let d := d.updAxis n fun a => { a with raises := a.raises + b2n above }
  (Dev.axisPlan vis d n).sledCurrent n now

/-- The snapshots of the axis pages (R40, R431). -/
def Dev.motionStone (d : Dev) : Dev :=
  (List.range 12).foldl (fun d n =>
    let a := d.axis n
    let d := ((d.put (pgAx n) CHN_STONE_STEPS_K (a.steps / 1000)).put (pgAx n) CHN_STONE_RAISES (min 255 a.raises)).put (pgAx n)
      CHN_STONE_OVERSHOOT (min 255 a.overs)
    d.updAxis n fun a => { a with steps := 0, raises := 0, overs := 0 }) d

/-- Main-supply loss: every axis is OFF with velocity 0, windings without current and REF cleared (R428). -/
def Dev.motionPowerFail (d : Dev) : Dev :=
  (List.range 12).foldl (fun d n => ((d.axisStill n).axisOff n).setB (pgAx n) CHN_STAT_REF false) d

/-- SLEEP and DEEP: sled windings carry no current (R429). -/
def Dev.motionAsleep (d : Dev) : Dev := (List.range 4).foldl (fun d n => d.put (pgAx n) CHN_ISTAT_I_NOW 0) d

/-- The wake: every axis that was not OFF is IDLE and energised again, with REF cleared (R429). -/
def Dev.motionWoken (d : Dev) : Dev :=
  (List.range 12).foldl (fun d n =>
    if d.axisState n = 0 then d
    else (((d.axisGo n 1).put (pgAx n) CHN_STAT_FAULT_CODE 0).setB (pgAx n) CHN_STAT_REF false).sledCurrent n 0) d

/-- Loss of the die link: sleds enter FAULT with code LINK, windings without current and REF cleared; general axes stop at DEC (R28,
R428). -/
def Dev.motionLinkLost (d : Dev) : Dev :=
  (List.range 12).foldl (fun d n =>
    if n < 4 then
      (((d.axisFault n 4).setB (pgAx n) CHN_STAT_REF false).put (pgAx n) CHN_ISTAT_I_NOW 0).fault (pgAx n) 0x0B05 false false []
    else
      let st := d.axisState n
      if st = 2 || st = 4 || st = 5 then d.axisStop n else d) d

/-- The sine of micro-step `m`, of 1,023 (R415): one quarter of the wave is the table. -/
def sledSine (m : Nat) : Int :=
  let k := m % 256
  match m / 256 % 4 with
  | 0 => Config.sledQuarter k
  | 1 => Config.sledQuarter (256 - k)
  | 2 => -(Config.sledQuarter k : Int)
  | _ => -(Config.sledQuarter (256 - k) : Int)

/-- Soft reset of an axis page: HALT and then DISABLE; a FAULT stays (R430). -/
def Dev.axisReset (vis d : Dev) (n : Nat) : Dev :=
  if d.axisState n = 6 then d
  else
    let d := if 2 ≤ d.axisState n then Dev.axisHalt vis d n else d
    d.axisOff n

/-! ### Phase currents (R415) -/

/-- The currents of phases A and B of sled `n` in 1/1,023 mA: the micro-step is the position modulo 1,024. -/
def Dev.sledPhases (d : Dev) (n : Nat) : Int × Int :=
  let m := (d.axisPos n % 1024).toNat
  let i : Int := d.get (pgAx n) CHN_ISTAT_I_NOW
  (i * sledSine (m + 256), i * sledSine m)

end Sys2Proof.Machine
end

