-- ==== Sys2Proof/Machine/Modulation.lean ====
section
/-! DEFINITION. The channel code of the optical formats: runs, pilot wedges, the 17PP code with its DC control bits, frames and the channel
bits of a recording (R287, R289, R316). What the BD format gives is open (notes/assumptions/149.md). -/

namespace Sys2Proof.Machine

open Sys2Proof

/-! ### Runs and wedges (R289, R316) -/

/-- Runs of equal channel bits as transitions: a run of `n` T begins with one. -/
def runBits (l : List Nat) : List Bool := l.flatMap fun n => true :: List.replicate (n - 1) false

/-- `n` repetitions of a list. -/
def repeated {α : Type} (n : Nat) (l : List α) : List α := (List.replicate n l).flatten

/-- The runs of a pilot wedge: wedge sync, timing run, tilt reference, guard (R289, R316). -/
def wedgeRuns : List Nat := [3, 11, 11, 5] ++ repeated 120 [4, 4] ++ repeated 29 [2, 10, 8, 10] ++ repeated 9 [4, 4]

/-- The channel bits of a pilot wedge as transitions. -/
def wedgeBits : List Bool := runBits wedgeRuns

/-- The `k` low bits of `n`, the highest first. -/
def topBits : Nat → Nat → List Bool
  | 0, _ => []
  | k + 1, n => bit n k :: topBits k n

/-- The bits of bytes, the most significant first. -/
def byteBits (l : List Byte) : List Bool := l.flatMap fun b => topBits 8 b.toNat

/-- The number that bits spell, the first highest. -/
def bitsNat (l : List Bool) : Nat := l.foldl (fun a b => 2 * a + b2n b) 0

/-- The bytes that bits spell. -/
def bitsBytes : Nat → List Bool → List Byte
  | 0, _ => []
  | n + 1, l => BitVec.ofNat 8 (bitsNat (l.take 8)) :: bitsBytes n (l.drop 8)

/-! ### Frames and slots (R287) -/

/-- Slot of dense data frame `f`, and of wedge `w`. -/
def denseSlot (f : Nat) : Nat := f + f / 32
def wedgeSlot (w : Nat) : Nat := 33 * w + 32

/-- Data frames of a cluster, its slots, and the slot of data frame `f`: a BD frame's is its row. -/
def frameCount (dense : Bool) : Nat := if dense then 512 else 496
def slotCount (dense : Bool) : Nat := if dense then 528 else 496
def frameSlot (dense : Bool) (f : Nat) : Nat := if dense then denseSlot f else f

/-- Is a slot of a dense cluster a pilot wedge? -/
def isWedge (dense : Bool) (s : Nat) : Bool := dense && s % 33 == 32

/-- The data frame of a slot. -/
def slotFrame (dense : Bool) (s : Nat) : Nat := if dense then s - s / 33 else s

/-! ### 17PP with DC control bits (R316) -/

/-- One channel bit, given as a transition. -/
def Line.bit (x : Line) (t : Bool) : Line := { x with level := x.level != t, sum := x.sum + if x.level != t then 1 else -1 }

/-- Channel bits, given as transitions: their levels, and what they end in. -/
def Line.run : Line → List Bool → List Bool × Line
  | x, [] => ([], x)
  | x, t :: l => let y := x.bit t; let r := y.run l; (y.level :: r.1, r.2)

/-- 17PP: two bits at a time into three channel bits. -/
def Line.encode : Line → List Bool → List Bool × Line
  | x, a :: b :: l =>
    let u := b2n a * 2 + b2n b
    let r := x.run (topBits 3 (Config.ppOut x.pp u))
    let s := { r.2 with pp := Config.ppNext x.pp u }.encode l
    (r.1 ++ s.1, s.2)
  | x, _ => ([], x)

/-- The bits of a frame: `data` with the control bits `c` in their places, from place `i` on. -/
def withControl : Nat → Nat → List Bool → List Bool → List Bool
  | 0, _, _, _ => []
  | n + 1, i, data, c =>
    if Config.dcBit i then (c.headD false) :: withControl n (i + 1) data c.tail
    else (data.headD false) :: withControl n (i + 1) data.tail c

/-- The places of the DC control bits of a frame. -/
def controlPlaces : List Nat := (List.range 1268).filter Config.dcBit

/-- The control bits of a frame behind `x`, each in its turn such that the running digital sum before the next one is nearest to 0, 0 where
both are as near (DESIGN CHOICE, notes/assumptions/150.md). -/
def chooseControl (x : Line) (data : List Bool) : List Nat → List Bool → List Bool
  | [], c => c
  | _ :: l, c =>
    let stop := l.headD 1268
    let cost (b : Bool) : Nat := (x.encode ((withControl 1268 0 data (c ++ [b])).take stop)).2.sum.natAbs
    chooseControl x data l (c ++ [decide (cost true < cost false)])

/-- The 1,932 channel bits of frame `f` with its 155 bytes: sync, then the coded bits. -/
def Line.frame (x : Line) (dense : Bool) (f : Nat) (bytes : List Byte) : List Bool × Line :=
  let s := x.run (topBits 30 (Config.frameSync dense f))
  let y := { s.2 with pp := 0 }
  let data := byteBits bytes
  let r := y.encode (withControl 1268 0 data (chooseControl y data controlPlaces []))
  (s.1 ++ r.1, r.2)

/-- Slots from number `s` on of a cluster with the recording image `image`: data frames, and wedges in the dense format (R287, R316). -/
def Line.slots (x : Line) (dense : Bool) (image : List Byte) : Nat → Nat → List Bool × Line
  | 0, _ => ([], x)
  | n + 1, s =>
    let r := if isWedge dense s then x.run wedgeBits
      else
        let f := slotFrame dense s
        x.frame dense f (padTo 155 (image.drop (155 * f)))
    let t := r.2.slots dense image n (s + 1)
    (r.1 ++ t.1, t.2)

/-- The runs of a stretch of channel bits, each with its level: marks are high (R319). -/
def levelRuns : List Bool → List (Bool × Nat)
  | [] => []
  | b :: l =>
    match levelRuns l with
    | (c, n) :: r => if b == c then (c, n + 1) :: r else (b, 1) :: (c, n) :: r
    | [] => [(b, 1)]

end Sys2Proof.Machine
end

