-- ==== Sys2Proof/Machine/Detect.lean ====
section
/-! DEFINITION. What the read channel computes from equalised samples: the soft detector, the soft 17PP demodulator, the BIS, LDC and LDPC
decoders with their hints and erasures, and the a priori of an outer iteration (R272, R275, R276, R282 to R288, R292). -/

namespace Sys2Proof.Machine

open Sys2Proof

/-! ### Max-log decoding over a trellis (R275, R276) -/

/-- A path metric: none where no path leads. -/
abbrev Metric := Option Int

/-- The better of two metrics. -/
def Metric.best (a b : Metric) : Metric :=
  match a, b with
  | some x, some y => some (max x y)
  | some x, none => some x
  | none, y => y

/-- A metric and a branch. -/
def Metric.plus (a b : Metric) : Metric :=
  match a, b with
  | some x, some y => some (x + y)
  | _, _ => none

/-- A trellis: its states, the inputs of a step, and where each leads. -/
structure Trellis where
  states : Nat
  inputs : Nat
  next : Nat → Nat → Option Nat

/-- The branches of a trellis: state, input, next state. -/
def Trellis.branches (t : Trellis) : List (Nat × Nat × Nat) :=
  (List.range t.states).flatMap fun s => (List.range t.inputs).filterMap fun u => (t.next s u).map fun n => (s, u, n)

/-- The metric of a state in a list of them. -/
def metricAt (l : List Metric) (s : Nat) : Metric := nthD l s none

/-- The metrics behind a step whose branches have the metrics `g`. -/
def Trellis.forward (t : Trellis) (a : List Metric) (g : Nat → Nat → Metric) : List Metric :=
  (List.range t.states).map fun n =>
    t.branches.foldl (fun m b => if b.2.2 == n then m.best ((metricAt a b.1).plus (g b.1 b.2.1)) else m) none

/-- The metrics before a step from those behind it. -/
def Trellis.backward (t : Trellis) (b : List Metric) (g : Nat → Nat → Metric) : List Metric :=
  (List.range t.states).map fun s =>
    t.branches.foldl (fun m x => if x.1 == s then m.best ((metricAt b x.2.2).plus (g x.1 x.2.1)) else m) none

/-- The forward metrics before each of the steps `gs`. -/
def Trellis.alphas (t : Trellis) : List Metric → List (Nat → Nat → Metric) → List (List Metric)
  | _, [] => []
  | a, g :: gs => a :: t.alphas (t.forward a g) gs

/-- The backward metrics behind each of the steps `gs`, and before the first. -/
def Trellis.betas (t : Trellis) (last : List Metric) : List (Nat → Nat → Metric) → List (List Metric) × List Metric
  | [] => ([], last)
  | g :: gs => let r := t.betas last gs; (r.2 :: r.1, t.backward r.2 g)

/-- The log-likelihood, one over zero, of a property of a step's branches; a property that no path leaves open is saturated. -/
def Trellis.soft (t : Trellis) (a b : List Metric) (g : Nat → Nat → Metric) (one : Nat → Nat → Bool) : Int :=
  let best (v : Bool) : Metric :=
    t.branches.foldl (fun m x =>
      if one x.1 x.2.1 == v then m.best (((metricAt a x.1).plus (g x.1 x.2.1)).plus (metricAt b x.2.2)) else m) none
  match best true, best false with
  | some x, some y => x - y
  | some _, none => 2 ^ 20
  | none, some _ => -(2 ^ 20)
  | none, none => 0

/-- The log-likelihoods of `one` at each of the steps `gs`, every state being open at both ends. -/
def Trellis.softRun (t : Trellis) (start : List Metric) (gs : List (Nat → Nat → Metric)) (one : Nat → Nat → Nat → Bool) (k : Nat) :
    List (List Int) :=
  let a := t.alphas start gs
  let b := (t.betas start gs).1
  (gs.zip (a.zip b)).map fun x => (List.range k).map fun i => t.soft x.2.1 x.2.2 x.1 (one i)

/-! ### The channel detector (R275) -/

/-- The PR target of a format: PR(1,2,2,1) or PR(1,2,2,2,1) (R272). BDXL and the dense format take the longer one (DESIGN CHOICE,
notes/assumptions/150.md). -/
def prTarget (format : Nat) : List Int := if format = 0 then [1, 2, 2, 1] else [1, 2, 2, 2, 1]

/-- Do the `n` bits of state `s` hold no run of one bit between two others? -/
def runsOk : Nat → Nat → Bool
  | n + 3, s => (bit s 1 == bit s 0 || bit s 2 == bit s 1) && runsOk (n + 2) (s / 2)
  | _, _ => true

/-- The trellis of a PR target over NRZ bits in runs of at least two: its states are the last bits, the newest lowest. -/
def prTrellis (n : Nat) : Trellis :=
  { states := 2 ^ n, inputs := 2
    next := fun s u => if !runsOk n s || (bit s 0 != bit s 1 && u != s % 2) then none else some ((2 * s + u) % 2 ^ n) }

/-- The states that runs of at least two allow: 6 of PR(1,2,2,1), 10 of PR(1,2,2,2,1). -/
def prStart (n : Nat) : List Metric := (List.range (2 ^ n)).map fun s => if runsOk n s then some 0 else none

/-- The level of a target for the bits of state `s` and the new bit `u`, at the amplitude `amp` (R266). -/
def prLevel (pr : List Int) (amp s u : Nat) : Int :=
  let x := 2 * s + u
  let sum := (pr.zipIdx.map fun c => if bit x c.2 then c.1 else -c.1).sum
  sum * amp / (pr.map Int.natAbs).sum

/-- A sample as the detector takes it: the equalised value, the weight of its log-likelihood in sixteenths (R274), the a priori of its bit
(R292), and its transition where it is known (R275). -/
structure Sample where
  value : Int
  weight : Nat := 16
  apriori : Int := 0
  known : Option Bool := none
deriving DecidableEq, Repr

/-- The metric of a branch at sample `y`. -/
def Sample.metric (y : Sample) (pr : List Int) (amp s u : Nat) : Metric :=
  let fits := match y.known with
    | some t => (s % 2 != u) == t
    | none => true
  if fits then some (Config.pathMetric (y.value - prLevel pr amp s u) * y.weight / 16 + if u = 1 then y.apriori else 0) else none

/-- One window of the detector: 64 channel bits from number `w` on, with a warm-up of 32 before and behind them. -/
def detectWindow (pr : List Int) (amp : Nat) (l : List Sample) (w : Nat) : List Int :=
  let n := pr.length - 1
  let t := prTrellis n
  let lead := min 32 w
  let gs := ((l.drop (w - lead)).take (lead + 96)).map fun y => fun s u => y.metric pr amp s u
  let r := t.softRun (prStart n) gs (fun _ _ u => u == 1) 1
  (((r.drop lead).take 64).map fun x => clampI (-31) 31 (x.headD 0))

/-- The detector: one signed 6-bit log-likelihood per channel bit. -/
def detect (pr : List Int) (amp : Nat) (l : List Sample) : List Int :=
  (List.range (ceilDiv l.length 64)).flatMap fun i => (detectWindow pr amp l (64 * i)).take (l.length - 64 * i)

/-! ### The soft 17PP demodulator (R276) -/

/-- The levels of the three channel bits of a step from level `v`. -/
def stepLevels (v : Bool) (out : Nat) : List Bool := (({ level := v } : Line).run (topBits 3 out)).1

/-- The 17PP trellis: its states are the code's with the level of the last channel bit. -/
def ppTrellis : Trellis :=
  { states := 2 * Config.ppStates, inputs := 4
    next := fun s u => some (2 * Config.ppNext (s / 2) u + b2n ((stepLevels (bit s 0) (Config.ppOut (s / 2) u)).getLastD false)) }

/-- Log-likelihoods of `bits`, added where the bit is 1. -/
def agree (bits : List Bool) (l : List Int) : Int := ((bits.zip l).map fun x => if x.1 then x.2 else 0).sum

/-- The steps of a frame: three channel log-likelihoods and two a priori of data bits each. -/
def ppSteps : Nat → List Int → List Int → List (Nat → Nat → Metric)
  | 0, _, _ => []
  | n + 1, ch, ap =>
    (fun s u => some (agree (stepLevels (bit s 0) (Config.ppOut (s / 2) u)) (ch.take 3) + agree (topBits 2 u) (ap.take 2)))
      :: ppSteps n (ch.drop 3) (ap.drop 2)

/-- Every state open. -/
def ppStart : List Metric := List.replicate (2 * Config.ppStates) (some 0)

/-- The 5-bit log-likelihoods of the 1,268 bits of a frame from its 1,902 channel log-likelihoods. -/
def demodulate (ch ap : List Int) : List Int :=
  (ppTrellis.softRun ppStart (ppSteps 634 ch ap) (fun i _ u => bit u (1 - i)) 2).flatten.map (clampI (-15) 15)

/-- The reverse direction: the a priori of the 1,902 channel bits of a frame from that of its 1,268 bits. -/
def remodulate (ap : List Int) : List Int :=
  (ppTrellis.softRun ppStart (ppSteps 634 [] ap)
    (fun i s u => (stepLevels (bit s 0) (Config.ppOut (s / 2) u)).getD i false) 3).flatten.map (clampI (-31) 31)

/-- The data bits among the bits of a frame: without the DC control bits. -/
def dataBits (l : List Int) : List Int := (l.zipIdx.filter fun x => !Config.dcBit x.2).map (·.1)

/-- The a priori of a frame's bits from that of its data bits; a DC control bit has none. -/
def frameBits : Nat → Nat → List Int → List Int
  | 0, _, _ => []
  | n + 1, i, l => if Config.dcBit i then 0 :: frameBits n (i + 1) l else l.headD 0 :: frameBits n (i + 1) l.tail

/-- A symbol as it is demodulated: its hard byte and its reliability, the smallest magnitude among its bits (R276). -/
def softByte (l : List Int) : Byte × Nat :=
  (BitVec.ofNat 8 (bitsNat ((l.take 8).map fun x => decide (0 < x))), ((l.take 8).map Int.natAbs).foldl min 15)

/-- The reliability of R276 scaled from 15 to 63. -/
def scaled63 (r : Nat) : Nat := r * 63 / 15

/-! ### A cluster as the decoders take it -/

/-- The divisor of R284 for a frame's marks. -/
def FrameMark.divisor (m : FrameMark) : Nat := (if m.erased then 4 else 1) * (if m.low || m.defect then 2 else 1)

/-- The settings of the decoders (R285, R288, R292, R308). -/
structure DecodeCfg where
  format : Nat
  amp : Nat
  eraseThr : Nat
  chaseL : Nat
  margin : Nat
  ldpcIter : Nat
  fbApri : Nat
deriving DecidableEq, Repr

def DecodeCfg.dense (c : DecodeCfg) : Bool := c.format == 2

/-- The channel bits of a cluster that are known, as transitions: frame syncs and pilot wedges (R275). -/
def knownBits (dense : Bool) (s : Nat) : List (Option Bool) :=
  if isWedge dense s then wedgeBits.map some
  else (topBits 30 (Config.frameSync dense (slotFrame dense s))).map some ++ List.replicate 1902 none

/-- The samples of a cluster: values, weights, a priori, and what is known of each slot. -/
def samplesOf (dense : Bool) (values : List Int) (weight : Nat → Nat) (apriori : List Int) : List Sample :=
  let known := (List.range (slotCount dense)).flatMap (knownBits dense)
  (values.zip known).zipIdx.map fun x => { value := x.1.1, weight := weight x.2, apriori := nthD apriori x.2 0, known := x.1.2 }

/-- The data-bit log-likelihoods of each data frame of a cluster (R275, R276). -/
def softFrames (c : DecodeCfg) (samples : List Sample) : List (List Int) :=
  let llr := detect (prTarget c.format) c.amp samples
  (List.range (frameCount c.dense)).map fun f => dataBits (demodulate ((llr.drop (1932 * frameSlot c.dense f + 30)).take 1902) [])

/-! ### Reed-Solomon codewords (R282, R285) -/

/-- A decoded codeword: its bytes, corrected errors, erasures, and the places that changed. -/
structure RsWord where
  bytes : List Byte
  errors : Nat
  erasures : Nat
  changed : List Nat
deriving DecidableEq, Repr

/-- The places in which two words differ. -/
def differing (a b : List Byte) : List Nat := ((a.zip b).zipIdx.filter fun x => x.1.1 != x.1.2).map (·.2)

/-- Errors-and-erasures decoding of a word of length `n` with 32 parity bytes: a codeword with 2t + e ≤ 32. -/
def rsTry (n : Nat) (word : List Byte) (er : List Nat) : Option RsWord :=
  match Config.rsDecode n word er with
  | some w =>
    let ch := differing word w
    let t := (ch.filter fun i => !er.contains i).length
    if w.length == n && w.drop (n - 32) == Config.rsParity n (w.take (n - 32)) && decide (2 * t + er.length ≤ 32) then
      some { bytes := w, errors := t, erasures := er.length, changed := ch }
    else none
  | none => none

/-- A BIS codeword is decoded with the symbols of erasure-hinted frames erased, and from its errors alone with more than 32 of them
(R282). -/
def bisDecode (word : List Byte) (er : List Nat) : Option RsWord := rsTry 62 word (if 32 < er.length then [] else er)

/-- The class of a BIS symbol (R282). -/
inductive BisClass where
  | good | error | unknown
deriving DecidableEq, Repr

/-- The class of symbol `i` of a BIS codeword (R282). -/
def bisClass (r : Option RsWord) (i : Nat) : BisClass :=
  match r with
  | some w => if w.changed.contains i then .error else .good
  | none => .unknown

/-- The least reliable first, by reliability and place. -/
def insRel (x : Nat × Nat) : List (Nat × Nat) → List (Nat × Nat)
  | [] => [x]
  | y :: l => if x.2 < y.2 then x :: y :: l else y :: insRel x l

/-- Places with their reliability, the least reliable first. -/
def byReliability (l : List (Nat × Nat)) : List (Nat × Nat) := l.foldl (fun a x => insRel x a) []

/-- The erasures of an LDC codeword: its symbols below the threshold, the 32 least reliable where there are more (R284, R285). -/
def ldcErasures (rel : List Nat) (thr : Nat) : List Nat :=
  ((byReliability ((rel.zipIdx.map fun x => (x.2, x.1)).filter fun x => decide (x.2 < thr))).take 32).map (·.1)

/-- The subsets of a list. -/
def subsets : List Nat → List (List Nat)
  | [] => [[]]
  | x :: l => subsets l ++ (subsets l).map (x :: ·)

/-- The Chase trials of an LDC codeword: each erases a subset of the `n` least reliable symbols that are not erased, within 32 erasures
(R285). -/
def chaseSets (rel er : List Nat) (n : Nat) : List (List Nat) :=
  let more := ((byReliability ((rel.zipIdx.map fun x => (x.2, x.1)).filter fun x => !er.contains x.1)).take n).map (·.1)
  if n = 0 then [] else ((subsets more).map (er ++ ·)).filter fun x => decide (x.length ≤ 32)

/-- The sum of the reliabilities of the symbols that a decoding changed. -/
def RsWord.cost (w : RsWord) (rel : List Nat) : Nat := (w.changed.map fun i => nthD rel i 0).sum

/-- An LDC codeword with its symbols' reliabilities: what is found, whether it is accepted or not, and the Chase trials run (R285). -/
def ldcDecode (word : List Byte) (rel : List Nat) (thr n : Nat) : Option RsWord × Nat :=
  let er := ldcErasures rel thr
  match rsTry 248 word er with
  | some w => (some w, 0)
  | none =>
    let sets := chaseSets rel er n
    let found := sets.filterMap (rsTry 248 word)
    let pick := found.foldl (fun (m : Option RsWord) w =>
      match m with
      | some x => if w.cost rel < x.cost rel then some w else some x
      | none => some w) none
    (pick, sets.length)

/-- Is an outcome accepted: 2t + e ≤ 32 − ACCEPT_MARGIN (R285)? -/
def RsWord.accepted (w : RsWord) (margin : Nat) : Bool := decide (2 * w.errors + w.erasures ≤ 32 - margin)

/-! ### Burst hints and reliabilities (R283, R284) -/

/-- The burst hint of a row's segment from the BIS bytes on its two sides: the bytes hinted, and the weight as a divisor. `a`, `b`: in
error or unknown. -/
def segmentHint (a b : Bool) : List Nat × Nat :=
  match a, b with
  | true, true => (List.range 38, 4)
  | true, false => (List.range 19, 2)
  | false, true => ((List.range 19).map (· + 19), 2)
  | false, false => ([], 1)

/-- The divisor of the burst hint on LDC column `col` of row `r`, given which BIS bytes (row, column) are in error or unknown. The
outer segments are bounded by the nearest BIS byte of the row before or behind, which is good where there is none. -/
def hintDivisor (bad : Nat → Nat → Bool) (r col : Nat) : Nat :=
  let left := if col / 38 = 0 then decide (0 < r) && bad (r - 1) 2 else bad r (col / 38 - 1)
  let right := if col / 38 = 3 then decide (r < 495) && bad (r + 1) 0 else bad r (col / 38)
  let h := segmentHint left right
  if h.1.contains (col % 38) then h.2 else 1

/-- 64 times the reliability of an LDC symbol (R284): its value of R276 under the factors of its burst hint and of its frame's marks. -/
def reliability64 (value hintDiv : Nat) (m : FrameMark) : Nat := value * 64 / hintDiv / m.divisor

/-! ### The BD first pass (R282 to R286) -/

/-- What the decoders make of a cluster: per codeword its bytes if it is accepted, errors, erasures and corrected symbols or bits; the
codewords that fail; BIS symbols corrected; Chase trials; whether hints were used; does every EDC or CRC-32C pass; the user data; the
header's address; the magnitudes that the data bits of each frame get as a priori of the next iteration (R292). -/
structure Decoded where
  words : List (Option (List Byte))
  maxCorr : Nat := 0
  total : Nat := 0
  failing : List Nat
  bis : Nat := 0
  chase : Nat := 0
  hints : Bool := false
  checks : Bool
  data : List Byte := []
  addr : Option Nat := none
  apriori : List (List Int)
deriving DecidableEq, Repr

/-- The cluster passes: no codeword fails and every check passes (R286, R288). -/
def Decoded.passes (x : Decoded) : Bool := x.failing.isEmpty && x.checks

/-- Where information byte `i` of data frame `f` stands: LDC codeword and byte. -/
def dataByteAt (f i : Nat) : Nat × Nat :=
  match (List.range 65664).find? fun n => Config.dataSource (n / 216) (n % 216) == (f, i) with
  | some n => (n / 216, n % 216)
  | none => (0, 0)

/-- The bytes of a row as 155 symbols. -/
def rowSymbols (bits : List Int) : List (Byte × Nat) := (List.range 155).map fun i => softByte (bits.drop (8 * i))

/-- Column of LDC column `col`, and of BIS column `k`, in a row of 155 bytes (R283). -/
def ldcColumn (col : Nat) : Nat := col + col / 38
def bisColumn (k : Nat) : Nat := 38 + 39 * k

/-- The bytes of data frame `f`, descrambled, and whether its EDC passes (R286). -/
def dataFrame (addr : Nat) (info : Nat → Nat → Byte) (f : Nat) : List Byte × Bool :=
  let l := (List.range 2052).map fun i => let p := dataByteAt f i; info p.1 p.2 ^^^ Config.scramble addr (2052 * f + i)
  (l.take 2048, l.drop 2048 == Config.edc (l.take 2048))

/-- A byte's bits as a priori of a magnitude. -/
def byteApriori (m : Nat) (b : Byte) : List Int := (byteBits [b]).map fun x => if x then (m : Int) else -(m : Int)

/-- The first pass of a BD cluster, or the decoders' part of an outer iteration: `kept` gives the LDC codewords accepted before, which
are not decoded again (R282 to R286, R292). -/
def decodeBd (c : DecodeCfg) (addr : Nat) (rows : List (List Int)) (marks : Nat → FrameMark) (kept : Nat → Option (List Byte)) : Decoded :=
  let sym := rows.map rowSymbols
  let at_ (p : Nat × Nat) (column : Nat → Nat) : Byte × Nat := nthD (nthD sym p.1 []) (column p.2) (0, 0)
  let bis := (List.range 24).map fun m =>
    let ps := (List.range 62).map (Config.bisPlace m)
    bisDecode (ps.map fun p => (at_ p bisColumn).1) ((ps.zipIdx.filter fun x => (marks x.1.1).erased).map (·.2))
  let bad (r k : Nat) : Bool := bis.zipIdx.any fun x => (List.range 62).any fun b =>
    Config.bisPlace x.2 b == (r, k) && bisClass x.1 b != .good
  let ldc := (List.range 304).map fun j =>
    let ps := (List.range 248).map (Config.ldcPlace j)
    let rel := ps.map fun p =>
      reliability64 (scaled63 (at_ p ldcColumn).2) (hintDivisor bad p.1 p.2) (marks p.1)
    match kept j with
    | some w => (some w, none, 0)
    | none =>
      let r := ldcDecode (ps.map fun p => (at_ p ldcColumn).1) rel (c.eraseThr * 64) c.chaseL
      match r.1 with
      | some w => if w.accepted c.margin then (some w.bytes, some w, r.2) else (none, none, r.2)
      | none => (none, none, r.2)
  let words := ldc.map (·.1)
  let info (j b : Nat) : Byte :=
    match nthD words j none with
    | some w => nthD w b 0
    | none => (at_ (Config.ldcPlace j b) ldcColumn).1
  let frames := (List.range 32).map (dataFrame addr info)
  let reopened := (List.range 304).filter fun j => (List.range 216).any fun b => !(nthD frames (Config.dataSource j b).1 ([], false)).2
  let failing := (List.range 304).filter fun j => (nthD words j none).isNone || reopened.contains j
  let good := ldc.filterMap (·.2.1)
  let apri (r i : Nat) : List Int :=
    let k := if i % 39 = 38 then i / 39 else 3
    if i % 39 = 38 then
      let hit := bis.zipIdx.findSome? fun x => match x.1 with
        | some w => ((List.range 62).find? fun b => Config.bisPlace x.2 b == (r, k) && w.erasures == 0).map fun b => nthD w.bytes b 0
        | none => none
      match hit with
      | some b => byteApriori c.fbApri b
      | none => List.replicate 8 0
    else
      let hit := words.zipIdx.findSome? fun x => match x.1 with
        | some w => if failing.contains x.2 then none
          else ((List.range 248).find? fun b => Config.ldcPlace x.2 b == (r, i - i / 39)).map fun b => nthD w b 0
        | none => none
      match hit with
      | some b => byteApriori c.fbApri b
      | none => List.replicate 8 0
  { words := words.zipIdx.map fun x => if failing.contains x.2 then none else x.1
    maxCorr := (good.map fun w => 2 * w.errors + w.erasures).foldl max 0
    total := (good.map fun w => w.changed.length).sum
    failing := failing
    bis := (bis.map fun x => match x with
      | some w => w.changed.length
      | none => 0).sum
    chase := (ldc.map (·.2.2)).sum
    hints := bis.zipIdx.any fun x => (List.range 62).any fun b => bisClass x.1 b != .good
    checks := frames.all (·.2)
    data := frames.flatMap (·.1)
    apriori := (List.range 496).map fun r => (List.range 155).flatMap (apri r) }

/-! ### The dense format (R287, R288) -/

/-- Codeword and byte position of coded byte `n` of a dense cluster (R287). -/
def denseByte (n : Nat) : Nat × Nat := (4 * (n / 15872) + n % 15872 % 4, n % 15872 / 4)

/-- The coded byte of byte `p` of codeword `j`. -/
def denseCoded (j p : Nat) : Nat := j / 4 * 15872 + 4 * p + j % 4

/-- The places of the ones in row `r` of a circulant. -/
def circRow (x : BitVec 256) (r : Nat) : List Nat := ((List.range 256).filter x.getLsbD).map fun i => (i + r) % 256

/-- The bits of check `n` of the code: 103 information columns, then the dual diagonal of 21 (R288). -/
def denseCheck (n : Nat) : List Nat :=
  let i := n / 256
  let r := n % 256
  let info := (List.range 103).flatMap fun j => (circRow (Config.denseCirculant i j) r).map (256 * j + ·)
  let par := if i = 0 then [256 * 103 + r] else [256 * (102 + i) + r, 256 * (103 + i) + r]
  info ++ par

/-- The sign of an integer as a factor. -/
def signOf (x : Int) : Int := if x < 0 then -1 else 1

/-- One check of the layered normalised min-sum decoder, at a scale of 0.75: `post` is each bit's log-likelihood, zero over one, and `old`
what this check gave before (R288). -/
def minSumCheck (post : List Int) (vars : List Nat) (old : List Int) : List Int × List Int :=
  let q := vars.zipIdx.map fun v => nthD post v.1 0 - nthD old v.2 0
  let new := (List.range vars.length).map fun i =>
    let others := q.eraseIdx i
    (others.map signOf).foldl (· * ·) 1 * (((others.map Int.natAbs).foldl min (2 ^ 20) * 3 / 4 : Nat) : Int)
  let post := (vars.zip (q.zip new)).foldl (fun (l : List Int) x => l.set x.1 (x.2.1 + x.2.2)) post
  (post, new)

/-- One inner iteration: every check of every layer in order. -/
def minSumPass (post : List Int) (msgs : List (List Int)) : List Int × List (List Int) :=
  (List.range 5376).foldl (fun acc n =>
    let r := minSumCheck acc.1 (denseCheck n) (nthD msgs n [])
    (r.1, acc.2 ++ [r.2])) (post, [])

/-- Is the syndrome zero? -/
def denseSyndrome (post : List Int) : Bool :=
  (List.range 5376).all fun n => ((denseCheck n).filter fun v => decide (nthD post v 0 < 0)).length % 2 == 0

/-- At most `n` inner iterations, until the syndrome is zero: has it become so, and the log-likelihoods. -/
def minSum : Nat → List Int → List (List Int) → Bool × List Int
  | 0, post, _ => (denseSyndrome post, post)
  | n + 1, post, msgs =>
    if denseSyndrome post then (true, post)
    else let r := minSumPass post msgs; minSum n r.1 r.2

/-- The 32 CRC-32C values of a dense cluster's information stream, and its user data (R287, R311). -/
def denseUser (crc : List Byte → Nat) (info : List Byte) : List Byte × Bool :=
  let l := info.drop 256
  let frames := (List.range 32).map fun f => (l.drop (2052 * f)).take 2052
  (frames.flatMap (·.take 2048), frames.all fun x => leNat (x.drop 2048) == crc (x.take 2048))

/-- The first pass of a dense cluster, or the decoders' part of an outer iteration (R288, R292): `kept` gives the codewords converged
before. `crc` is CRC-32C. -/
def decodeDense (c : DecodeCfg) (crc : List Byte → Nat) (rows : List (List Int)) (marks : Nat → FrameMark)
    (kept : Nat → Option (List Byte)) : Decoded :=
  let soft := rows.zipIdx.flatMap fun x => x.1.map fun v => v / ((marks x.2).divisor : Int)
  let words := (List.range 20).map fun j =>
    let llr := (List.range 3968).flatMap fun p => ((soft.drop (8 * denseCoded j p)).take 8).map fun v => -v
    match kept j with
    | some w => (some w, 0, (byteBits w).map fun b => if b then -(c.fbApri : Int) else (c.fbApri : Int))
    | none =>
      let r := minSum (max 1 c.ldpcIter) llr []
      let hard := r.2.map fun v => decide (v < 0)
      let flips := ((llr.zip hard).filter fun x => decide (x.1 < 0) != x.2).length
      (if r.1 then some (bitsBytes 3968 hard) else none, flips, (r.2.zip llr).map fun x => x.1 - x.2)
  let failing := (List.range 20).filter fun j => ((nthD words j (none, 0, [])).1).isNone
  let info := words.flatMap fun w => (padTo 3296 ((w.1).getD []))
  let user := denseUser crc info
  let new := (words.zipIdx.filter fun x => x.1.1.isSome && (kept x.2).isNone).map fun x => x.1.2.1
  let apri (f i : Nat) : List Int :=
    let p := denseByte (155 * f + i)
    ((((nthD words p.1 (none, 0, [])).2.2).drop (8 * p.2)).take 8).map fun v => clampI (-(c.fbApri : Int)) c.fbApri (-v)
  { words := words.map (·.1), maxCorr := new.foldl max 0, total := new.sum, failing := failing
    hints := (List.range 512).any fun f => decide (1 < (marks f).divisor)
    checks := user.2, data := user.1
    addr := if failing.contains 0 then none else some (leNat (info.take 8))
    apriori := (List.range 512).map fun f => (List.range 155).flatMap (apri f) }

/-! ### Both formats -/

/-- The decoders over the data-bit log-likelihoods of a cluster. -/
def decodeCluster (c : DecodeCfg) (crc : List Byte → Nat) (addr : Nat) (rows : List (List Int)) (marks : Nat → FrameMark)
    (kept : Nat → Option (List Byte)) : Decoded :=
  if c.dense then decodeDense c crc rows marks kept else decodeBd c addr rows marks kept

/-- The channel-bit a priori of a cluster from that of its data bits (R276, R292): syncs and wedges get none. -/
def channelApriori (dense : Bool) (rows : List (List Int)) : List Int :=
  (List.range (slotCount dense)).flatMap fun s =>
    if isWedge dense s then List.replicate 1932 0
    else List.replicate 30 0 ++ remodulate (frameBits 1268 0 (nthD rows (slotFrame dense s) []))

/-! ### The equaliser (R272) -/

/-- The equalised value at place `t`: 15 taps in Q2.13 over the values around it, the eighth on its own. -/
def equalise (taps : List Int) (x : List Int) (t : Nat) : Int :=
  satI 8 ((taps.zipIdx.map fun c => if t + 7 < c.2 then 0 else c.1 * nthD x (t + 7 - c.2) 0).sum / 8192)

/-- The adaptation of tap `i` over a stretch: sign-error LMS with step 2^−MU_SHIFT towards the target's levels; `paused` says where it is
held. -/
def adaptTap (i mu : Nat) (x y target : List Int) (paused : Nat → Bool) (tap : Int) : Int :=
  let s := ((y.zip target).zipIdx.map fun e =>
    if paused e.2 || e.2 + 7 < i || e.1.1 == e.1.2 then 0
    else if e.1.2 < e.1.1 then nthD x (e.2 + 7 - i) 0 else -(nthD x (e.2 + 7 - i) 0)).sum
  satI 16 (tap - s * 8192 / 2 ^ mu)

/-- The target's level at each channel bit of NRZ bits. -/
def targetLevels (pr : List Int) (amp : Nat) : Nat → List Bool → List Int
  | _, [] => []
  | s, b :: l => prLevel pr amp s (b2n b) :: targetLevels pr amp ((2 * s + b2n b) % 16) l

end Sys2Proof.Machine
end

