-- ==== Sys2Proof/Machine/Encoder.lean ====
section
/-! DEFINITION. The codeword images of the optical formats (R310, R311, R313), and the pulses of a recording (R318, R319). What the BD
format gives is open (notes/assumptions/149.md). -/

namespace Sys2Proof.Machine

open Sys2Proof

/-! ### The BD image -/

/-- The scrambled data frames of a BD cluster with their EDC: byte `i` of frame `f` (R310). -/
def bdFrameByte (addr : Nat) (user : List Byte) (f i : Nat) : Byte :=
  let l := padTo 2048 ((user.drop (2048 * f)).take 2048)
  nthD (l ++ padTo 4 (Config.edc l)) i 0 ^^^ Config.scramble addr (2052 * f + i)

/-- LDC codeword `j`: 216 information and 32 parity bytes. -/
def ldcEncode (addr : Nat) (user : List Byte) (j : Nat) : List Byte :=
  let l := (List.range 216).map fun b => let p := Config.dataSource j b; bdFrameByte addr user p.1 p.2
  l ++ padTo 32 (Config.rsParity 248 l)

/-- BIS codeword `m`: 30 information and 32 parity bytes. -/
def bisEncode (addr : Nat) (ucd : List Byte) (m : Nat) : List Byte :=
  let l := padTo 30 (Config.bisInfo addr ucd m)
  l ++ padTo 32 (Config.rsParity 62 l)

/-- The codeword image of a BD cluster: 304 LDC codewords, then 24 BIS codewords (R311). -/
def bdImage (addr : Nat) (user ucd : List Byte) : List Byte :=
  (List.range 304).flatMap (ldcEncode addr user) ++ (List.range 24).flatMap (bisEncode addr ucd)

/-! ### The dense image -/

/-- The dense cluster header (R313). -/
def denseHeader (addr layer ref gtime : Nat) (ucd : List Byte) : List Byte :=
  leBytes 8 addr ++ [0x48, 0x58, 0x44, 0x4E] ++ leBytes 2 1 ++ [BitVec.ofNat 8 layer, 0] ++ leBytes 8 ref ++ leBytes 6 gtime
    ++ leBytes 2 0 ++ padTo 224 ucd

/-- The dense information stream: header, then each data frame's 2,048 bytes and its CRC-32C (R311). `crc` is CRC-32C. -/
def denseStream (crc : List Byte → Nat) (header user : List Byte) : List Byte :=
  header ++ (List.range 32).flatMap fun f =>
    let l := (user.drop (2048 * f)).take 2048
    l ++ leBytes 4 (crc l)

/-- What the information bits of a codeword add to bit `r` of parity block `i` (R288). -/
def denseTerm (info : List Bool) (i r : Nat) : Bool :=
  ((List.range 103).flatMap fun j => (circRow (Config.denseCirculant i j) r).map (256 * j + ·)).foldl (fun a v => a != nthD info v false)
    false

/-- The parity blocks from number `i` on: with the dual diagonal each is the one before plus its own term. -/
def denseParity (info : List Bool) : Nat → Nat → List Bool → List Bool
  | 0, _, _ => []
  | n + 1, i, p =>
    let q := (List.range 256).map fun r => nthD p r false != denseTerm info i r
    q ++ denseParity info n (i + 1) q

/-- Codeword `j` of the information stream: 3,296 bytes and their 672 parity bytes (R288, R311). -/
def denseEncode (stream : List Byte) (j : Nat) : List Byte :=
  let l := padTo 3296 ((stream.drop (3296 * j)).take 3296)
  l ++ bitsBytes 672 (denseParity (byteBits l) 21 0 [])

/-- The dense codeword image (R311). -/
def denseImage (stream : List Byte) : List Byte := (List.range 20).flatMap (denseEncode stream)

/-! ### Pulses (R318, R319) -/

/-- The pulse line that drives a level (R318). -/
def pulseLine : Light → Nat
  | .pw => 0 | .pm => 1 | .ps => 2 | .pc => 3

/-- A level that a line drives, with the begin and the end of the span in T/32. -/
abbrev Pulse := Light × Int × Int

/-- The pulses of a mark of `n` T with strategy entry `e` (R319), times from the nominal mark start. -/
def markPulses (e n : Nat) : List Pulse :=
  let dtop := sext 6 (bits e 26 6)
  let ttop : Int := bits e 20 6
  let tmp : Int := bits e 14 6
  let tlp : Int := bits e 8 6
  let dtc := sext 6 (bits e 2 6)
  let stop : Int := n * 32 + dtc
  let train (gap m : Nat) : List Pulse :=
    let p (k : Nat) : Int := dtop + (gap * k : Nat)
    let w (k : Nat) : Int := if k = 0 then ttop else if k + 1 = m then tlp else tmp
    (List.range m).flatMap fun k =>
      let on := (Light.pw, p k, p k + w k)
      let off := (Light.pc, p k + w k, if k + 1 = m then stop else p (k + 1))
      [on, off]
  match bits e 0 2 with
  | 1 => train 64 (max 1 (n / 2))
  | 2 =>
    if n ≤ 2 then [(.pw, dtop, dtop + ttop), (.pc, dtop + ttop, stop)]
    else
      let t : Int := dtop + (32 * (n - 2) : Nat)
      [(.pw, dtop, dtop + ttop), (.pm, dtop + ttop, t), (.pw, t, t + tlp), (.pc, t + tlp, stop)]
  | _ => train 32 (n - 1)

/-- The class of a mark or space of `n` T (R319). -/
def runClass (n : Nat) : Nat := clampN 2 5 n - 2

/-- The pulses of each mark of a stretch of runs that begins at time `t` behind a space of class `c`; entry 4m + s serves a mark of class
m after a space of class s (R319). -/
def markTrains (table : Nat → Nat) : Int → Nat → List (Bool × Nat) → List (List Pulse)
  | _, _, [] => []
  | t, c, (true, n) :: l =>
    ((markPulses (table (4 * runClass n + c)) n).map fun x => (x.1, t + x.2.1, t + x.2.2)) :: markTrains table (t + 32 * n) c l
  | t, _, (false, n) :: l => markTrains table (t + 32 * n) (runClass n) l

/-- Pulses cut at time `e`. -/
def cutPulses (e : Int) (l : List Pulse) : List Pulse :=
  (l.filter fun x => decide (x.2.1 < e)).map fun x => (x.1, x.2.1, min e x.2.2)

/-- The lines over a recording: each mark's pulses up to the next mark's first, with PS between the end of cooling and it (R319). -/
def layPulses : List (List Pulse) → List Pulse
  | [] => []
  | [m] => m
  | m :: n :: l =>
    let e := (n.map (·.2.1)).headD 0
    let c := cutPulses e m
    let z := (c.map (·.2.2)).foldl max ((m.map (·.2.1)).headD e)
    c ++ (if z < e then [(Light.ps, z, e)] else []) ++ layPulses (n :: l)

end Sys2Proof.Machine
end

