-- ==== Sys2Proof/Machine/Fathom.lean ====
section
/-! DEFINITION. The Fathom read channels and the iteration engine (chapter 08). What the analogue front end, timing recovery and the sync
detector find is an operand; what the chapter computes from it is computed. -/

namespace Sys2Proof.Machine

open Sys2Proof

def Dev.fthc (d : Dev) (k : Nat) : Fth := (d.fth.chans[k]?).getD {}

def Dev.updFth (d : Dev) (k : Nat) (f : Fth → Fth) : Dev :=
  { d with fth := { d.fth with chans := d.fth.chans.setIfInBounds k (f (d.fthc k)) } }

/-- The step from a cluster's address to the next one's (R310). -/
def addrStep (format : Nat) : Nat := if format = 2 then 1 else 32

/-- CRC-32C (R287). -/
def crc32c (l : List Byte) : Nat := crcFinal 0 (crcRun 0 (crcInit 0) l 0)

/-! ### The result ring (R300) -/

def Dev.fthLog2 (d : Dev) (k : Nat) : Nat := clampN 4 10 (d.get (pgFth k) FTH_RES_CFG_SIZE_LOG2)

/-- Free entries of the ring. -/
def Dev.fthFree (d : Dev) (k : Nat) : Nat :=
  2 ^ d.fthLog2 k - (d.get (pgFth k) FTH_RES_PROD_PROD + 2 ^ 16 - d.get (pgFth k) FTH_RES_CONS) % 2 ^ 16

/-- The 32 bytes of an entry (R300). -/
def FRec.bytes (r : FRec) (phase gtime : Nat) : List Byte :=
  leBytes 4 r.addr ++ [BitVec.ofNat 8 (r.status.getD 0),
    BitVec.ofNat 8 (r.iter * 16 + phase * 8 + b2n r.hints * 4 + b2n r.low * 2 + b2n r.defect)]
    ++ leBytes 2 r.firstFail ++ leBytes 2 r.maxCorr ++ leBytes 2 r.bis ++ leBytes 4 r.total
    ++ [BitVec.ofNat 8 (min 255 r.ins), BitVec.ofNat 8 (min 255 r.slip)] ++ leBytes 2 r.defFrames ++ leBytes 2 r.chase
    ++ leBytes 2 0 ++ leBytes 6 gtime ++ [BitVec.ofNat 8 r.seq, 0]

/-! ### Jobs (R298) -/

/-- END of FTH_JOB_STAT. -/
inductive FEnd where
  | count | abort | mismatch | noSync | notFound | ringFull | reset
deriving DecidableEq, Repr

def FEnd.code : FEnd → Nat
  | .count => 1 | .abort => 2 | .mismatch => 3 | .noSync => 4 | .notFound => 5 | .ringFull => 6 | .reset => 7

/-- The records of channel `k` that wait become records of status `st` (R293, R298). -/
def Dev.failWaiting (d : Dev) (k st : Nat) : Dev :=
  d.updFth k fun c => { c with recs := updWhere (·.status.isNone) (fun r => { r with status := some st, waits := false }) c.recs }

/-- Free the retained slot. -/
def Dev.freeSlot (d : Dev) : Dev :=
  ({ d with fth := { d.fth with slot := none } }.setB pgFthx FTHX_ITER_STAT_BUSY false).irq pgFthx FTHX_IRQ_ITER_DONE

/-- The active job of channel `k` ends. A job that is stopped takes its retained cluster and the clusters in the decoder
with it as ABORTED (R293, R298). -/
def Dev.fthEnd (d : Dev) (k : Nat) (e : FEnd) : Dev :=
  if (d.fthc k).job.isNone then d
  else
    let p := pgFth k
    let d := ((d.put p FTH_JOB_STAT_END e.code).setB p FTH_JOB_STAT_ACTIVE false).irq p FTH_IRQ_JOB_END
    let d := d.updFth k fun c => { c with job := none }
    if e == .count then d
    else
      let mine := d.fth.slot.any (·.chan == k)
      let d := d.failWaiting k 6
      if mine then d.freeSlot else d

/-- FTH_JOB_GO: a write of `v` to FTH_JOB_CTL with GO 1. -/
def execFthJobGo (k : Fin 5) (r : Requester) (v : Word) (s : State) : Host.Outcome State Fault Refusal :=
  .next (s.noting (.cmd (.fthJobGo k r v)) fun s => s.dec fun _ d =>
    let p := pgFth k
    let d := (d.put p FTH_JOB_CTL_SEQ (bits v.toNat 16 8)).put p FTH_JOB_CTL_KIND (bits v.toNat 0 2)
    let dst := d.get64 p FTH_JOB_DST_LO FTH_JOB_DST_HI
    let a := d.get p FTH_JOB_ADDR
    if bits v.toNat 0 2 = 3 then d
    else if (d.fthc k).job.isSome || !d.starts p || !d.flag p FTH_CTL_RUN || 3 < d.get p FTH_MAP_PORT || dst % 64 != 0
        || (d.get p FTH_CTL_FORMAT != 2 && a % 32 != 0) then d.errAt p FTH_JOB_CTL .jobState r
    else
      let j : FJob := { kind := bits v.toNat 0 2, seq := bits v.toNat 16 8, addr := a, dst := dst
                        count := max 1 (d.get p FTH_JOB_CNT_CLUSTERS), goAt := d.gtime }
      let d := d.updFth k fun c => { c with job := some j, lostAt := d.gtime }
      ((d.setB p FTH_JOB_STAT_ACTIVE true).put p FTH_JOB_STAT_END 0).put p FTH_JOB_STAT_DONE_CNT 0)

/-- FTH_JOB_ABORT: ABORT written 1, or (`stop`) RUN written 0. -/
def execFthJobAbort (k : Fin 5) (stop : Bool) (s : State) : Host.Outcome State Fault Refusal :=
  .next (s.noting (.cmd (.fthJobAbort k stop)) fun s => s.dec fun _ d => (if stop then d.setB (pgFth k) FTH_CTL_RUN false else d).fthEnd k .abort)

/-- FTH_SYNC_TIMEOUT (R298): evaluated in the timer phase; lock captured in the Grain has won (R35). -/
def execFthSyncTimeout (k : Fin 5) (s : State) : Host.Outcome State Fault Refusal :=
  .next (s.noting (.cmd (.fthSyncTimeout k)) fun s => s.dec fun _ d =>
    if !(d.fthc k).locked && (d.fthc k).lostAt + d.get (pgFth k) FTH_SYNC_SYNC_TO_G ≤ d.gtime then d.fthEnd k .noSync else d)

/-- FTH_START_TIMEOUT (R298); ADDR_TO_G 0 is taken as 1. -/
def execFthStartTimeout (k : Fin 5) (s : State) : Host.Outcome State Fault Refusal :=
  .next (s.noting (.cmd (.fthStartTimeout k)) fun s => s.dec fun _ d =>
    match (d.fthc k).job with
    | some j =>
      if j.next.isNone && j.kind != 2 && j.goAt + max 1 (d.get (pgFth k) FTH_JOB_CNT_ADDR_TO_G) ≤ d.gtime then
        d.fthEnd k .notFound
      else d
    | none => d)

/-! ### ADC slices, timing, defects, gain (R266 to R274) -/

/-- Do a calibration's results lie within the plausibility limits (R269)? -/
def plausible (offset gain skew : Int) : Bool :=
  (-16 ≤ offset && offset ≤ 16) && (-100 ≤ gain && gain ≤ 100) && (-250 ≤ skew && skew ≤ 250)

/-- ADC_ROTATION_STEP: the next hand-over is due. It starts the calibration of the slice in turn, or ends it after 16 Grains
with its offset (LSB), gain deviation (per mille) and skew (ps) (R268, R269). -/
def execAdcRotationStep (k : Fin 5) (offset gain skew : Int) (s : State) : Host.Outcome State Fault Refusal :=
  .next (s.noting (.cmd (.adcRotationStep k offset gain skew)) fun s => s.dec fun _ d =>
    let p := pgFth k
    let c := d.fthc k
    if !d.flag p FTH_ADC_ROTATE || d.get p FTH_ADC_FAILED != 0 then d
    else
      match c.stepAt with
      | none => (d.put p FTH_ADC_STANDIN (if c.step < 4 then c.step else 7)).updFth k fun c => { c with stepAt := some d.gtime }
      | some t =>
        if d.gtime < t + 16 then d
        else
          let old := (c.slices[c.step]?).getD {}
          let new : Slice := if plausible offset gain skew then { offset := offset, gain := gain, skew := skew }
            else { old with fails := old.fails + 1 }
          let n := (c.step + 1) % 5
          let d := if n = 0 then d.setStale p false else d
          (d.put p FTH_ADC_STANDIN 7).updFth k fun c =>
            { c with step := n, stepAt := none, slices := c.slices.setIfInBounds c.step new })

/-- FTH4 takes the port of channel `k`, or none is left (R304). -/
def Dev.fthFailover (d : Dev) (k : Nat) : Dev :=
  let p := pgFth k
  if k = 4 || d.flag (pgFth 4) FTH_MAP_ACTIVE || d.get (pgFth 4) FTH_MAP_PORT ≤ 3 then
    ((d.setB p FTH_CTL_RUN false).setDegraded p).fthEnd k .abort
  else
    let d := ((d.setB (pgFth 4) FTH_MAP_ACTIVE true).put (pgFth 4) FTH_MAP_PORT (d.get p FTH_MAP_PORT)).setB p
      FTH_MAP_REMAPPED true
    let d := (((d.irq p FTH_IRQ_REMAP).fault p 0x0702 false false [k]).setB p FTH_TR_LOCKED false).setB p FTH_WOB_LOCKED false
    d.updFth k fun c => { c with remap := true, locked := false, lockCount := 0, slip := none, lostFrame := some c.frame, wobHits := 0, wobMiss := 0,
                                 lostAt := d.gtime }

/-- A slice of channel `k` fails: the fifth stands in for good, or the channel fails (R270). -/
def Dev.adcSliceFail (d : Dev) (k sl : Nat) : Dev :=
  let p := pgFth k
  let f := d.get p FTH_ADC_FAILED
  if bit f sl then d
  else if f != 0 then (d.put p FTH_ADC_FAILED (setBits f sl 1 1)).fthFailover k
  else
    let d := (d.put p FTH_ADC_FAILED (setBits f sl 1 1)).put p FTH_ADC_STANDIN (if sl < 4 then sl else 7)
    let d := (d.irq p FTH_IRQ_SLICE_FAIL).fault p 0x0701 false false [sl]
    d.updFth k fun c => { c with stepAt := none, lowConf := if c.lowConf.contains c.frame then c.lowConf else c.frame :: c.lowConf }

/-- ADC_SLICE_FAIL of slice `sl`: two failed calibrations in a row, or (`bist`) BIST reports it (R270). -/
def execAdcSliceFail (k : Fin 5) (sl : Fin 5) (bist : Bool) (s : State) : Host.Outcome State Fault Refusal :=
  .next (s.noting (.cmd (.adcSliceFail k sl bist)) fun s => s.dec fun _ d =>
    if bist || decide (2 ≤ (((d.fthc k).slices[sl.val]?).getD {}).fails) then d.adcSliceFail k sl else d)

/-- Has the envelope `env` stayed below DEF_THR_PCT percent of its running mean for DEF_MIN_CB channel bits, or (`back`) at or above it
(R274)? -/
def Dev.dropOut (d : Dev) (k env mean bits : Nat) (back : Bool) : Bool :=
  let p := pgFth k
  decide (max 1 (d.get p FTH_DEFECT_DEF_MIN_CB) ≤ bits)
    && (if back then decide (d.get p FTH_DEFECT_DEF_THR_PCT * mean ≤ 100 * env)
        else decide (100 * env < d.get p FTH_DEFECT_DEF_THR_PCT * mean))

/-- DEFECT_BEGIN: the envelope has been `env` at most for `bits` channel bits, its running mean being `mean` (R274). -/
def execDefectBegin (k : Fin 5) (env mean bits : Nat) (s : State) : Host.Outcome State Fault Refusal :=
  .next (s.noting (.cmd (.defectBegin k env mean bits)) fun s => s.dec fun _ d =>
    if !d.dropOut k env mean bits false then d
    else
      d.updFth k fun c =>
        if c.defect then c
        else
          { c with defect := true, defAcc := c.defAcc + 1
                   defFrames := if d.flag (pgFth k) FTH_CTL_DEFECT_EN && !c.defFrames.contains c.frame then c.frame :: c.defFrames
                     else c.defFrames })

/-- DEFECT_END: the envelope has been `env` at least for `bits` channel bits (R274). -/
def execDefectEnd (k : Fin 5) (env mean bits : Nat) (s : State) : Host.Outcome State Fault Refusal :=
  .next (s.noting (.cmd (.defectEnd k env mean bits)) fun s => s.dec fun _ d =>
    if d.dropOut k env mean bits true then d.updFth k fun c => { c with defect := false } else d)

/-- The starting frequency of the timing loop in kbit/s: from the locked wobble, or RATE_KBPS up to 800,000 (R264, R271). -/
def Dev.startRate (d : Dev) (k : Nat) : Nat :=
  let p := pgFth k
  if d.flag p FTH_RATE_FROM_WOB && d.flag p FTH_WOB_LOCKED then
    d.get p FTH_WOB_STAT_WOB_KHZ * if d.get p FTH_CTL_FORMAT = 2 then 92 else 69
  else min 800000 (d.get p FTH_RATE_RATE_KBPS)

/-- TIMING_LOCK: the rms phase error has stayed below 0.1 channel bit over 4,096 of them at a channel rate of `kbps`, or (`on` false) it no
longer does. The loop captures within ±5 % of its starting frequency, and not above 800,000 kbit/s (R264, R271). -/
def execTimingLock (k : Fin 5) (on : Bool) (kbps : Nat) (s : State) : Host.Outcome State Fault Refusal :=
  .next (s.noting (.timingLock k on kbps) fun s => s.dec fun _ d =>
    let f := d.startRate k
    let near := decide (kbps ≤ 800000) && decide (f * 95 ≤ kbps * 100) && decide (kbps * 100 ≤ f * 105)
    if on && !near && !d.flag (pgFth k) FTH_TR_LOCKED then d else d.setB (pgFth k) FTH_TR_LOCKED on)

/-- VGA_UPDATE in the decision phase: the mean digital gain of the Grain is `gain` quarter dB above 1, and VGA_CODE moves
towards it by at most STEP codes; held during a defect (R266, R274), and while the channel does not run (DESIGN CHOICE,
notes/assumptions/151.md). -/
def Dev.vgaUpdate (d : Dev) (k : Nat) (gain : Int) : Dev :=
  let p := pgFth k
  if !d.flag p FTH_CTL_RUN || ((d.fthc k).defect && d.flag p FTH_CTL_DEFECT_EN) then d
  else
    let step : Int := d.get p FTH_AGC_STEP
    let v : Int := d.get p FTH_AGC_VGA_CODE
    d.put p FTH_AGC_VGA_CODE (clampI 0 144 (v + clampI (-step) step gain)).toNat

/-! ### Frame sync (R277 to R281) -/

/-- Mark a frame low-confidence. -/
def Fth.markLow (c : Fth) (f : Nat) : Fth := { c with lowConf := if c.lowConf.contains f then c.lowConf else f :: c.lowConf }

/-- The place behind place `n` at which the next sync is expected: the next frame of the cluster, in the dense format across a wedge, and
behind its last frame the two linking frames before the next cluster (R277, R281, R287). -/
def nextPlace (dense : Bool) (n : Nat) : Nat :=
  let m := n + 1
  (if isWedge dense m && m < slotCount dense then m + 1 else m) % (slotCount dense + 2)

/-- Channel bits from the sync of place `n` to the next expected one: 1,932, or 3,864 across a wedge (R277). -/
def placeGap (dense : Bool) (n : Nat) : Nat := if isWedge dense (n + 1) then 3864 else 1932

/-- Does the frame at the present place lie in a linking area (R281)? -/
def Fth.linking (c : Fth) (dense : Bool) : Bool :=
  match c.place with
  | some n => decide (slotCount dense ≤ n)
  | none => false

/-- The next frame begins at the flywheel's place; a defect in progress marks it (R274). -/
def Fth.nextFrame (c : Fth) (dense defEn : Bool) : Fth :=
  { c with frame := c.frame + 1, place := c.place.map (nextPlace dense)
           defFrames := if c.defect && defEn then (c.frame + 1) :: c.defFrames else c.defFrames }

/-- SYNC_LOCK: outside lock a sync is found, at the expected place (`expected`) or elsewhere; LOCK_N in a row lock (R277). `gap`: the frames
that have passed without lock. -/
def execSyncLock (k : Fin 5) (expected : Bool) (gap : Nat) (s : State) : Host.Outcome State Fault Refusal :=
  .next (s.noting (.cmd (.syncLock k expected gap)) fun s => s.dec fun _ d => d.updFth k fun c =>
    if c.locked then c
    else
      let n := if expected then c.lockCount + 1 else 1
      if max 1 (d.get (pgFth k) FTH_SYNC_LOCK_N) ≤ n then
        let f := c.frame + gap
        { c with locked := true, lockCount := 0, inserted := 0, slip := none, frame := f, place := none, lostFrame := none
                 outages := match c.lostFrame with
                   | some a => c.outages ++ [(a, f)]
                   | none => c.outages }
      else { c with lockCount := n })

/-- The flywheel inserts the sync of a new frame (R279): an erasure hint, and after LOSE_N in a row lock is lost. In a linking area the
flywheel is held, and nothing counts (R281). -/
def Fth.insertSync (c : Fth) (dense defEn : Bool) (loseN gtime : Nat) : Fth × Bool :=
  let c := { c.nextFrame dense defEn with slip := none }
  if c.linking dense then (c, false)
  else
    let c := { c with erased := c.frame :: c.erased, inserted := c.inserted + 1, missAcc := c.missAcc + 1 }
    if loseN ≤ c.inserted then
      ({ c with locked := false, lockCount := 0, inserted := 0, lostAt := gtime, lostFrame := some c.frame, place := none }, true)
    else (c, false)

/-- A sync of channel `k` is inserted. -/
def Dev.syncInsert (d : Dev) (k : Nat) : Dev :=
  let p := pgFth k
  let r := (d.fthc k).insertSync (d.get p FTH_CTL_FORMAT == 2) (d.flag p FTH_CTL_DEFECT_EN) (max 1 (d.get p FTH_SYNC_LOSE_N)) d.gtime
  let d := d.updFth k fun _ => r.1
  if r.2 then d.irq p FTH_IRQ_SYNC_LOST else d

/-- SYNC_ACCEPT: while locked a sync lies `off` channel bits from its expected place, with the right identifier or not, and the frame
boundary moves there (R278). A slip candidate is dropped (R280 step 4). `place`: the frame's place in its cluster where the identifiers
give it. In a linking area the phase is held (R281). -/
def execSyncAccept (k : Fin 5) (off : Int) (idOk : Bool) (place : Option Nat) (s : State) : Host.Outcome State Fault Refusal :=
  .next (s.noting (.cmd (.syncAccept k off idOk place)) fun s => s.dec fun _ d => d.updFth k fun c =>
    if !c.locked || off < -2 || 2 < off then c
    else
      let dense := d.get (pgFth k) FTH_CTL_FORMAT == 2
      let c := c.nextFrame dense (d.flag (pgFth k) FTH_CTL_DEFECT_EN)
      let c := { c with place := if place.isSome then place else c.place, slip := none }
      if c.linking dense then c
      else
        let c := { c with inserted := 0, phase := c.phase + off }
        if idOk then c else c.markLow c.frame)

/-- SYNC_INSERT: no sync within ±2 of the expected place (R279). -/
def execSyncInsert (k : Fin 5) (s : State) : Host.Outcome State Fault Refusal :=
  .next (s.noting (.cmd (.syncInsert k)) fun s => s.dec fun _ d => if (d.fthc k).locked then d.syncInsert k else d)

/-- SYNC_SLIP: a sync at offset `off`, 3 to SLIP_MAX channel bits (R280). A candidate seen again within ±2 re-phases; one that is not seen
again is dropped, and the frame is handled under R279. -/
def execSyncSlip (k : Fin 5) (off : Int) (s : State) : Host.Outcome State Fault Refusal :=
  .next (s.noting (.cmd (.syncSlip k off)) fun s => s.dec fun _ d =>
    let p := pgFth k
    let c := d.fthc k
    let mag := off.natAbs
    if !c.locked || mag < 3 || clampN 3 64 (d.get p FTH_SYNC_SLIP_MAX) < mag then d
    else
      let dense := d.get p FTH_CTL_FORMAT == 2
      let prev := c.frame
      let n := c.nextFrame dense (d.flag p FTH_CTL_DEFECT_EN)
      if n.linking dense then d.updFth k fun _ => n
      else
        let n := { n with slipped := n.frame :: n.slipped }
        match c.slip with
        | none => d.updFth k fun _ => { n.markLow prev with slip := some off }
        | some x =>
          if (off - x).natAbs ≤ 2 then d.updFth k fun _ => { n.markLow prev with slip := none, inserted := 0, phase := n.phase + off }
          else d.syncInsert k)

/-! ### Clusters (R282 to R294, R298 to R305) -/

/-- The frames of a cluster from frame number `first` on, among the marked ones. -/
def inCluster (first n : Nat) (l : List Nat) : List Nat := l.filter fun f => decide (first ≤ f) && decide (f < first + n)

/-- The marks of the frames of a cluster. -/
def Fth.marksOf (c : Fth) (first n : Nat) : List FrameMark :=
  (List.range n).map fun i =>
    { erased := c.erased.contains (first + i), low := c.lowConf.contains (first + i), defect := c.defFrames.contains (first + i) }

/-- The marks of frames before number `f` are used up. -/
def Fth.dropMarks (c : Fth) (f : Nat) : Fth :=
  let on (l : List Nat) : List Nat := l.filter (f ≤ ·)
  { c with erased := on c.erased, lowConf := on c.lowConf, defFrames := on c.defFrames, slipped := on c.slipped
           outages := c.outages.filter (f ≤ ·.2), remap := c.remap && !c.locked }

/-- Was lock lost in a cluster and not regained before its end (R279, R301)? -/
def Fth.lostIn (c : Fth) (first n : Nat) : Bool :=
  c.outages.any (fun o => decide (first ≤ o.1) && decide (o.1 < first + n) && decide (first + n ≤ o.2))
    || (!c.locked && c.lostFrame.any fun f => decide (f < first + n))

/-- The settings of channel `k`'s decoders (R285, R288, R292, R308). -/
def Dev.decodeCfg (d : Dev) (k : Nat) : DecodeCfg :=
  let p := pgFth k
  { format := d.get p FTH_CTL_FORMAT, amp := d.get p FTH_AGC_TARGET, eraseThr := d.get p FTH_DEC_ERASE_THR
    chaseL := min 6 (d.get p FTH_DEC_CHASE_L), margin := min 8 (d.get p FTH_DEC_ACCEPT_MARGIN)
    ldpcIter := max 1 (d.get p FTH_DEC_LDPC_ITER), fbApri := min 31 (d.get p FTH_ITER_FB_APRI) }

/-- The equaliser's taps in use (R272, R308). -/
def Dev.taps (d : Dev) (k : Nat) : List Int :=
  (List.range 15).map fun i => sext 16 (bits (d.rd (pgFth k + FTH_EQ_TAP.off + 4 * (i / 2))).toNat (16 * (i % 2)) 16)

/-- Load tap `i`. -/
def Dev.setTap (d : Dev) (k i : Nat) (v : Int) : Dev :=
  let a := pgFth k + FTH_EQ_TAP.off + 4 * (i / 2)
  d.wr a (BitVec.ofNat 32 (setBits (d.rd a).toNat (16 * (i % 2)) 16 (ofInt 16 v)))

/-- The weight in sixteenths of channel bit `i` with defects at `l` (R274). -/
def Dev.defectWeight (d : Dev) (k : Nat) (l : List (Nat × Nat)) (i : Nat) : Nat :=
  if d.flag (pgFth k) FTH_CTL_DEFECT_EN && l.any fun x => decide (x.1 ≤ i) && decide (i < x.1 + x.2) then
    d.get (pgFth k) FTH_DEFECT_DEF_WEIGHT
  else 16

/-- The equalised values of a cluster (R272). -/
def Dev.equalised (d : Dev) (k : Nat) (x : List Int) : List Int := (List.range x.length).map (equalise (d.taps k) x)

/-- Channel bits as decided: known transitions, else the sign of the log-likelihood (R272). -/
def decided (level : Bool) : List (Int × Option Bool) → List Bool
  | [] => []
  | x :: l =>
    let b := match x.2 with
      | some t => level != t
      | none => decide (0 < x.1)
    b :: decided b l

/-- The taps behind a cluster, adapted over it while EQ_ADAPT is 1, but not in a defect or a frame marked low-confidence (R272). -/
def Dev.adapt (d : Dev) (k : Nat) (o : ClusterObs) (y : List Int) (samples : List Sample) (marks : List FrameMark) : Dev :=
  if !d.flag (pgFth k) FTH_CTL_EQ_ADAPT then d
  else
    let c := d.decodeCfg k
    let pr := prTarget c.format
    let llr := detect pr c.amp samples
    let target := targetLevels pr c.amp 0 (decided false (llr.zip (samples.map (·.known))))
    let paused (i : Nat) : Bool :=
      (o.defects.any fun x => decide (x.1 ≤ i) && decide (i < x.1 + x.2))
        || (!isWedge c.dense (i / 1932) && (nthD marks (slotFrame c.dense (i / 1932)) {}).low)
    ((d.taps k).zipIdx).foldl (fun d t =>
      d.setTap k t.2 (adaptTap t.2 (clampN 8 20 (d.get (pgFth k) FTH_EQ_CFG_MU_SHIFT)) o.values y target paused t.1)) d

/-- The record that the first pass `x` gives a cluster: status `none` where it fails (R286, R288). -/
def Dev.firstPass (d : Dev) (k : Nat) (c : Fth) (j : FJob) (o : ClusterObs) (addr : Nat) (x : Decoded) (h : Option Held) : FRec :=
  let n := frameCount (d.get (pgFth k) FTH_CTL_FORMAT == 2)
  let marked (l : List Nat) : Nat := (inCluster o.first n l).length
  let st : Option Nat :=
    if c.remap then some 7
    else if c.lostIn o.first n then some 4
    else if 0 < o.uncorr then some 0x0A
    else if !x.passes then none
    else if o.destFault then some 8
    else some 0
  { addr := addr, status := st, hints := x.hints || 0 < marked c.erased, low := 0 < marked c.lowConf
    defect := 0 < marked c.defFrames, firstFail := x.failing.length, maxCorr := x.maxCorr, bis := x.bis, total := x.total
    ins := marked c.erased, slip := marked c.slipped, defFrames := marked c.defFrames, chase := x.chase, seq := j.seq
    index := j.index, kind := j.kind, waits := st.isNone, data := x.data, held := if st.isNone then h else none }

/-- A cluster's data reaches memory or the compare unit when its status is OK or OK_ITER (R299). -/
def Dev.deliver (d : Dev) (k dst : Nat) (r : FRec) : Dev :=
  if r.kind = 1 then d.updFth k fun c => { c with compare := c.compare ++ [r] }
  else if r.status == some 0 || r.status == some 1 then d.memW (dst + 65536 * r.index) r.data
  else d

/-- The first pass over a cluster: the equalised values, what the detector takes of them, and what the decoders find (R272, R275, R276,
R282 to R288). -/
def Dev.decodeFirst (d : Dev) (k : Nat) (o : ClusterObs) : List Int × List Sample × List (List Int) × Decoded :=
  let c := d.decodeCfg k
  let y := d.equalised k o.values
  let samples := samplesOf c.dense y (d.defectWeight k o.defects) []
  let rows := softFrames c samples
  let marks := (d.fthc k).marksOf o.first (frameCount c.dense)
  (y, samples, rows, decodeCluster c crc32c o.addr rows (fun f => nthD marks f {}) fun _ => none)

/-- A RAW job takes its next 64 KiB of equalised samples, and a single record at the end (R299). -/
def Dev.rawCluster (d : Dev) (k : Nat) (j : FJob) (o : ClusterObs) : Dev :=
  let y := (d.equalised k o.values).map fun v => BitVec.ofInt 8 v
  let d := d.memW (j.dst + 65536 * j.index) (padTo 65536 y)
  let j := { j with index := j.index + 1, next := some 0 }
  let d := d.updFth k fun c => { c with job := some j }
  if j.index < j.count then d
  else d.updFth k fun c => { c with
    job := some { j with count := 1 }
    recs := c.recs ++ [{ addr := j.addr, status := some 0, seq := j.seq, kind := 2 }] }

/-- A cluster of a DATA or VERIFY job (R286, R288, R291, R298). A free ring entry is kept for every record that still waits (DESIGN CHOICE,
notes/assumptions/151.md). A dense cluster whose header does not decode is taken as the next one where the job has started. -/
def Dev.jobCluster (vis d : Dev) (k : Nat) (c : Fth) (j : FJob) (o : ClusterObs) : Dev :=
  let p := pgFth k
  let dense := d.get p FTH_CTL_FORMAT == 2
  let r := d.decodeFirst k o
  let x := r.2.2.2
  let addr := if dense then (x.addr).getD (j.next.getD (j.addr - 1)) else o.addr
  let fits := match j.next with
    | some n => addr == n
    | none => addr == j.addr
  let n := frameCount dense
  let marks := c.marksOf o.first n
  let d := d.adapt k o r.1 r.2.1 marks
  if j.next.isNone && addr < j.addr then d
  else if !fits then d.fthEnd k .mismatch
  else if d.fthFree k ≤ c.recs.length then d.fthEnd k .ringFull
  else
    let held : Held := { samples := r.1.map (· / 16), rel := r.2.2.1.flatMap fun row => (rowSymbols row).map (·.2)
                         defects := o.defects, marks := marks, words := x.words, apriori := x.apriori }
    let rec_ := d.firstPass k c j o addr x (if vis.fth.slot.isNone then some held else none)
    let d := d.incBy pgFthx FTHX_ECC_CORR o.corr
    let d := if 0 < o.uncorr then
        ((d.irq p FTH_IRQ_BUF_UNCORR).incBy pgFthx FTHX_ECC_UNCORR o.uncorr).fault p 0x0703 false false [addr, o.uncorr]
      else d
    let d := if rec_.status.isSome then d.deliver k j.dst rec_ else d
    d.updFth k fun c => { c with
      job := if j.index + 1 ≤ j.count then some { j with index := j.index + 1, next := some (addr + addrStep (d.get p FTH_CTL_FORMAT)) } else some j
      corrAcc := c.corrAcc + rec_.total, bisAcc := c.bisAcc + rec_.bis
      recs := if j.index < j.count then c.recs ++ [rec_] else c.recs }

/-- CLUSTER_FIRST_PASS: cluster `o` has passed and its first pass has ended. -/
def execClusterFirstPass (k : Fin 5) (o : ClusterObs) (s : State) : Host.Outcome State Fault Refusal :=
  .next (s.noting (.cmd (.clusterFirstPass k o)) fun s => s.dec fun vis d =>
    let c := d.fthc k
    let d := match c.job with
      | none => d
      | some j => if j.count ≤ j.index then d else if j.kind = 2 then d.rawCluster k j o else Dev.jobCluster vis d k c j o
    d.updFth k fun c => c.dropMarks (o.first + frameCount (d.get (pgFth k) FTH_CTL_FORMAT == 2)))

/-- ITER_RETAIN: the first pass of channel `k`'s oldest waiting cluster has failed: it takes the free slot, or its record
carries RETAIN_BUSY (R290). A cluster that passed while the slot was busy cannot be retained (R291). -/
def execIterRetain (k : Fin 5) (s : State) : Host.Outcome State Fault Refusal :=
  .next (s.noting (.cmd (.iterRetain k)) fun s => s.dec fun vis d =>
    match (d.fthc k).recs.find? (·.waits) with
    | some r =>
      let same (x : FRec) : Bool := x.waits && x.addr == r.addr && x.index == r.index
      let free := d.fth.slot.isNone && vis.fth.slot.isNone && d.flag (pgFth k) FTH_CTL_ITER_EN && !d.retiredItem 2 4
      match if free then r.held else none with
      | some h =>
        let sl : RetSlot := { chan := k, addr := r.addr, failing := r.firstFail, since := d.gtime, held := h }
        let d := { d with fth := { d.fth with slot := some sl } }
        let d := ((d.setB pgFthx FTHX_ITER_STAT_BUSY true).put pgFthx FTHX_ITER_STAT_CHAN k).put pgFthx FTHX_ITER_STAT_ITER 1
        (d.put pgFthx FTHX_ITER_STAT_FAILING r.firstFail).updFth k fun c =>
          { c with recs := updWhere same (fun x => { x with waits := false, held := none }) c.recs, retAcc := c.retAcc + 1 }
      | none =>
        d.updFth k fun c => { c with recs := updWhere same (fun x => { x with waits := false, status := some 3, held := none }) c.recs }
    | none => d)

/-- The iteration ends with status `st` (R293): the retained cluster's record takes it and what the decoders found, and its data is
delivered. -/
def Dev.iterEnd (d : Dev) (sl : RetSlot) (st : Nat) (x : Option Decoded) : Dev :=
  let k := sl.chan
  let mine (r : FRec) : Bool := r.status.isNone && !r.waits && r.addr == sl.addr
  let fin (r : FRec) : FRec :=
    let r := { r with status := some st, iter := sl.iter }
    match x with
    | some x => { r with total := r.total + x.total, maxCorr := max r.maxCorr x.maxCorr, data := x.data, chase := r.chase + x.chase }
    | none => r
  let dst := ((d.fthc k).job.map (·.dst)).getD 0
  let d := match (d.fthc k).recs.find? mine with
    | some r => d.deliver k dst (fin r)
    | none => d
  let d := d.updFth k fun c => { c with recs := updWhere mine fin c.recs }
  let f := d.fth
  let d := { d with fth := { f with okAcc := f.okAcc + b2n (st == 1)
                                    failAcc := f.failAcc + b2n (st == 2 || st == 9 || st == 0x0A) } }
  d.freeSlot

/-- One outer iteration over the retained cluster (R292): detection with the a priori of the last one, demodulation, the format's decoders
over the codewords still failing. -/
def Dev.iterate (d : Dev) (sl : RetSlot) : Decoded :=
  let c := d.decodeCfg sl.chan
  let h := sl.held
  let samples := samplesOf c.dense (h.samples.map (· * 16)) (d.defectWeight sl.chan h.defects) (channelApriori c.dense h.apriori)
  decodeCluster c crc32c sl.addr (softFrames c samples) (fun f => nthD h.marks f {}) fun j => nthD h.words j none

/-- OUTER_ITERATION: one outer iteration ends (R292, R293). `uncorr`: an uncorrectable word of the slot was read (R305); `destFault`: the
write of the cluster's data fails. -/
def execOuterIteration (uncorr destFault : Bool) (s : State) : Host.Outcome State Fault Refusal :=
  .next (s.noting (.cmd (.outerIteration uncorr destFault)) fun s => s.dec fun _ d =>
    match d.fth.slot with
    | some sl =>
      let p := pgFth sl.chan
      let x := d.iterate sl
      let failing := x.failing.length
      let stall := if failing < sl.failing then 0 else sl.stall + 1
      let sl := { sl with iter := sl.iter + 1, failing := failing, stall := stall, held := { sl.held with words := x.words, apriori := x.apriori } }
      let d := { d with fth := { d.fth with slot := some sl, iters := d.fth.iters + 1 } }
      let d := (d.put pgFthx FTHX_ITER_STAT_ITER (min 15 (sl.iter + 1))).put pgFthx FTHX_ITER_STAT_FAILING failing
      if uncorr then
        (((d.irq p FTH_IRQ_BUF_UNCORR).inc pgFthx FTHX_ECC_UNCORR).fault pgFthx 0x0703 false false [sl.addr, 1]).iterEnd sl 0x0A none
      else if x.passes then d.iterEnd sl (if destFault then 8 else 1) (some x)
      else if clampN 1 8 (d.get p FTH_ITER_ITER_MAX) ≤ sl.iter || clampN 1 4 (d.get p FTH_ITER_STALL_ITER) ≤ stall then
        d.iterEnd sl 2 none
      else d
    | none => d)

/-- ITER_BUDGET_EXPIRY, in the timer phase (R293). -/
def execIterBudgetExpiry (s : State) : Host.Outcome State Fault Refusal :=
  .next (s.noting (.cmd .iterBudgetExpiry) fun s => s.dec fun _ d =>
    match d.fth.slot with
    | some sl => if sl.since + max 1 (d.get pgFthx FTHX_BUDGET_ITER_BUDGET_G) ≤ d.gtime then d.iterEnd sl 9 none else d
    | none => d)

/-- Post the records at the head that are decided while the ring has room (R294, R300). -/
def Dev.postFth (d : Dev) (k : Nat) : Nat → Dev
  | 0 => d
  | n + 1 =>
    match (d.fthc k).recs with
    | r :: l =>
      if r.status.isNone || d.fthFree k = 0 then d
      else
        let p := pgFth k
        let lg := d.fthLog2 k
        let c := d.get p FTH_RES_PROD_PROD
        let base := d.get64 p FTH_RES_BASE_LO FTH_RES_BASE_HI / 32 * 32
        let d := d.memW (base + c % 2 ^ lg * 32) (r.bytes (1 - c / 2 ^ lg % 2) ((d.gtime + 1) % 2 ^ 48))
        let c' := (c + 1) % 2 ^ 16
        let d := ((d.put p FTH_RES_PROD_PROD c').put p FTH_RES_PROD_PHASE (1 - c' / 2 ^ lg % 2)).irq p FTH_IRQ_POSTED
        let bad := r.status != some 0 && r.status != some 1
        let d := d.updFth k fun c => { c with recs := l, failAcc := c.failAcc + b2n bad
                                              job := c.job.map fun j => { j with posted := j.posted + 1 } }
        let d := d.put p FTH_JOB_STAT_DONE_CNT (min 0xFFFF (d.get p FTH_JOB_STAT_DONE_CNT + 1))
        let d := if (d.fthc k).job.any fun j => j.count ≤ j.posted then d.fthEnd k .count else d
        d.postFth k n
    | [] => d

/-- CLUSTER_RECORD_POST. -/
def execClusterRecordPost (k : Fin 5) (s : State) : Host.Outcome State Fault Refusal :=
  .next (s.noting (.cmd (.clusterRecordPost k)) fun s => s.dec fun _ d => d.postFth k (d.fthc k).recs.length)

/-- FTH_RES_CONS_WRITE. -/
def execFthResConsWrite (k : Fin 5) (r : Requester) (v : BitVec 16) (s : State) : Host.Outcome State Fault Refusal :=
  .next (s.noting (.cmd (.fthResConsWrite k r v)) fun s => s.dec fun _ d =>
    let p := pgFth k
    let cons := d.get p FTH_RES_CONS
    let n := (v.toNat + 2 ^ 16 - cons) % 2 ^ 16
    if (d.get p FTH_RES_PROD_PROD + 2 ^ 16 - cons) % 2 ^ 16 < n then d.errAt p FTH_RES_CONS .consRange r
    else d.put p FTH_RES_CONS v.toNat)

/-- FTH_RES_CFG_WRITE: ignored while a job is active; clamped to 4 to 10. -/
def execFthResCfgWrite (k : Fin 5) (v : Word) (s : State) : Host.Outcome State Fault Refusal :=
  .next (s.noting (.cmd (.fthResCfgWrite k v)) fun s => s.dec fun _ d =>
    let p := pgFth k
    if (d.fthc k).job.isSome then d
    else
      let n := bits v.toNat 0 4
      (((d.put p FTH_RES_CFG_SIZE_LOG2 (clampN 4 10 n)).put p FTH_RES_PROD_PROD 0).put p FTH_RES_PROD_PHASE 1).put p
        FTH_RES_CONS 0)

/-- FTH_MAP_WRITE: ignored while RUN is 1, for a port already served or a reserved one; FTH4 also only while it is no spare
in service (R304, R308). -/
def execFthMapWrite (k : Fin 5) (r : Requester) (v : Word) (s : State) : Host.Outcome State Fault Refusal :=
  .next (s.noting (.cmd (.fthMapWrite k r v)) fun s => s.dec fun _ d =>
    let p := pgFth k
    let n := bits v.toNat 0 3
    let served := n ≤ 3 && [0, 1, 2, 3, 4].any fun i => i != k.val && d.get (pgFth i) FTH_MAP_PORT == n
    if d.flag p FTH_CTL_RUN || served || (4 ≤ n && n != 7) || (k.val == 4 && d.flag p FTH_MAP_ACTIVE) then
      d.errAt p FTH_MAP .mapBusy r
    else d.put p FTH_MAP_PORT n)

/-- WOBBLE_LOCK: an ADIP unit sync was found (`hit`) or missed; eight in a row set or clear the lock. A corrected word gives
its address; the wobble frequency and the periods since the unit's start are as measured (R295). -/
def execWobbleLock (k : Fin 5) (hit : Bool) (adip : Option Nat) (khz since : BitVec 16) (s : State) :
    Host.Outcome State Fault Refusal :=
  .next (s.noting (.cmd (.wobbleLock k hit adip khz since)) fun s => s.dec fun _ d =>
    let p := pgFth k
    let d := d.updFth k fun c => { c with wobHits := if hit then c.wobHits + 1 else 0, wobMiss := if hit then 0 else c.wobMiss + 1 }
    let c := d.fthc k
    let d := if 8 ≤ c.wobHits then d.setB p FTH_WOB_LOCKED true else if 8 ≤ c.wobMiss then d.setB p FTH_WOB_LOCKED false else d
    let d := match adip with
      | some a => if d.flag p FTH_WOB_LOCKED then d.put p FTH_WOB_ADIP a else d
      | none => d
    (d.put p FTH_WOB_STAT_WOB_KHZ khz.toNat).put p FTH_WOB_STAT_SINCE since.toNat)

/-- READ_CHANNEL_FAIL. -/
def execReadChannelFail (k : Fin 5) (s : State) : Host.Outcome State Fault Refusal := .next (s.noting (.cmd (.readChannelFail k)) fun s => s.dec fun _ d => d.fthFailover k)

/-- A pilot wedge's signed tilt metric (R289). -/
def Dev.wedge (d : Dev) (k : Nat) (tilt : Int) : Dev := (d.putI (pgFth k) FTH_TILT_TILT tilt).inc (pgFth k) FTH_TILT_WEDGES

/-- The snapshots of FTH and FTHX (R40, R308). -/
def Dev.fathomStone (d : Dev) : Dev :=
  let d := (List.range 5).foldl (fun d k =>
    let c := d.fthc k
    let p := pgFth k
    let d := (d.put p FTH_STONE0_CORR_K (min 0xFFFF (c.corrAcc / 1000))).put p FTH_STONE0_BIS_CORR (min 0xFFFF c.bisAcc)
    let d := (((d.put p FTH_STONE1_SYNC_MISS (min 255 c.missAcc)).put p FTH_STONE1_FAILS (min 255 c.failAcc)).put p
      FTH_STONE1_RETAINED (min 255 c.retAcc)).put p FTH_STONE1_DEFECTS (min 255 c.defAcc)
    d.updFth k fun c => { c with corrAcc := 0, bisAcc := 0, missAcc := 0, failAcc := 0, retAcc := 0, defAcc := 0 }) d
  let f := d.fth
  let d := ((d.put pgFthx FTHX_STONE_OUTER_ITERS (min 0xFFFF f.iters)).put pgFthx FTHX_STONE_ITER_OK (min 255 f.okAcc)).put
    pgFthx FTHX_STONE_ITER_FAIL (min 255 f.failAcc)
  { d with fth := { d.fth with iters := 0, okAcc := 0, failAcc := 0 } }

end Sys2Proof.Machine
end

