-- ==== Sys2Proof/Machine/Optical.lean ====
section
/-! DEFINITION. The optical write path: encoder, burn jobs, laser levels, inhibits, verify and archive tickets
(chapter 09). -/

namespace Sys2Proof.Machine

open Sys2Proof

def Dev.port (d : Dev) (p : Nat) : Owp := (d.owp.ports[p]?).getD {}

def Dev.updPort (d : Dev) (p : Nat) (f : Owp → Owp) : Dev :=
  { d with owp := { d.owp with ports := d.owp.ports.setIfInBounds p (f (d.port p)) } }

/-! ### Media and placement (R309, R314, R319) -/

/-- The highest burn speed of a medium (R309), 0 where it is not burned. -/
def maxSpeed (format re : Nat) : Nat :=
  match format, re with
  | 0, 0 => 8 | 0, 1 => 2 | 1, 0 => 4 | 1, 1 => 2 | 2, 0 => 4 | _, _ => 0

/-- SPEED in force: 0 taken as 1, values above 8 as 8 (R334). -/
def Dev.speed (d : Dev) (p : Nat) : Nat := clampN 1 8 (d.get (pgOwp p) WP_CTL_SPEED)

/-- Channel rate in kbit/s (R309), and channel bits per wobble period. -/
def Dev.channelRate (d : Dev) (p : Nat) : Nat := d.speed p * (if d.get (pgOwp p) WP_CTL_FORMAT = 2 then 88000 else 66000)
def Dev.wobbleBits (d : Dev) (p : Nat) : Nat := if d.get (pgOwp p) WP_CTL_FORMAT = 2 then 92 else 69

/-- ADIP word, unit and wobble period at which dense cluster `a` begins (R314). -/
def densePlace (base a : Nat) : Nat × Nat × Nat :=
  let w := a * 11130
  (base + w / 4648, w % 4648 / 56, w % 4648 % 56)

/-- The place of the cluster at address `a` on the disc of port `p` (R314). -/
def Dev.burnPlace (d : Dev) (p a : Nat) : Nat × Nat × Nat :=
  if d.get (pgOwp p) WP_CTL_FORMAT = 2 then densePlace (d.get (pgOwp p) WP_DENSE_BASE) a else Config.bdPlace a

/-! ### Levels (R320, R321) -/

/-- round(base × g) with g in Q1.15. -/
def scaled (base g : Nat) : Nat := (base * g + 16384) / 32768

/-- The unclamped and the clamped code of level `i` (PW, PM, PS, PC, PR) of port `p` with gain `g` (R321). -/
def Dev.levelCode (d : Dev) (p g i : Nat) : Nat × Nat :=
  let q := pgOwp p
  let hi := d.get q WP_CEIL_CEIL_PW
  let lo := d.get q WP_CEIL_CEIL_PS
  match i with
  | 0 => let x := scaled (d.get q WP_LEVEL0_PW) g; (x, min hi x)
  | 1 => let x := scaled (d.get q WP_LEVEL0_PM) g; (x, min hi x)
  | 2 => let x := scaled (d.get q WP_LEVEL1_PS) g; (x, min lo x)
  | 3 => let x := scaled (d.get q WP_LEVEL1_PC) g; (x, min lo x)
  | _ => let x := d.get q WP_LEVEL2_PR; (x, x)

/-- The SPI address of level `i` (R334). -/
def Dev.levelAddr (d : Dev) (p i : Nat) : Nat :=
  if i < 4 then bits (d.get (pgOwp p) WP_SPI_ADDR) (24 - 8 * i) 8 else d.get (pgOwp p) WP_LEVEL2_PR_ADDR

/-- The SPI frame of a level (R320): FRAME 0x3 is taken as 0x0, MODE as 0 but for 0x3; SCK is 100 MHz / (2 × (DIV + 1)) (R334). -/
def Dev.spiFrame (d : Dev) (p i code : Nat) : SpiFrame :=
  let a := d.levelAddr p i
  let x := match d.get (pgOwp p) WP_SPI_CFG_FRAME with
    | 1 => (24, a * 2 ^ 16 + code % 1024)
    | 2 => (32, a * 2 ^ 24 + code % 1024)
    | _ => (16, a % 64 * 2 ^ 10 + code % 1024)
  { bits := x.1, word := x.2, mode := if d.get (pgOwp p) WP_SPI_CFG_MODE = 3 then 3 else 0
    hz := 100000000 / (2 * (d.get (pgOwp p) WP_SPI_CFG_DIV + 1)) }

/-- Send level `i` if its code differs from the one sent last. -/
def Dev.sendLevel (vis d : Dev) (p i : Nat) : Dev :=
  let code := (d.levelCode p (vis.get (pgOps p) OPS_DRIVE1_G) i).2
  if ((d.port p).sent[i]?).getD none == some code then d
  else d.updPort p fun o => { o with sent := o.sent.setIfInBounds i (some code), spi := o.spi ++ [d.spiFrame p i code] }

/-- LEVEL_SPI_SEND of level `i` during a recording: CS_N would rise while line `on` is high. Within a mark it does not (R320). -/
def execLevelSpiSend (p : Fin 4) (i : Fin 5) (on : Option Light) (s : State) : Host.Outcome State Fault Refusal :=
  .next (s.noting (.cmd (.levelSpiSend p i on)) fun s => s.dec fun vis d =>
    if (d.port p).light && (on == none || on == some .ps) then Dev.sendLevel vis d p i else d)

/-- Is level `i` clamped in this Grain (R321)? -/
def Dev.clampedNow (vis d : Dev) (p i : Nat) : Bool :=
  let c := d.levelCode p (vis.get (pgOps p) OPS_DRIVE1_G) i
  decide (c.2 < c.1)

/-- Has a level of port `p` been clamped for LIMIT_G Grains in a row, 0 taken as 1 (R321, R334)? -/
def Dev.powerLimit (d : Dev) (p : Nat) : Bool :=
  (List.range 4).any fun i => decide (max 1 (d.get (pgOwp p) WP_CEIL_LIMIT_G) ≤ ((d.port p).clamped[i]?).getD 0)

/-- POWER_CLAMP_LIMIT: a level has been clamped for LIMIT_G Grains in a row (R321); the record is written once for it. -/
def execPowerClampLimit (p : Fin 4) (s : State) : Host.Outcome State Fault Refusal :=
  .next (s.noting (.cmd (.powerClampLimit p)) fun s => s.dec fun vis d =>
    let q := pgOwp p
    if !d.powerLimit p || (d.port p).limited then d
    else
      let d := (d.irq q OWP_IRQ_POWER_LIMIT).updPort p fun o => { o with limited := true }
      d.fault q 0x0801 false false [(d.levelCode p (vis.get (pgOps p) OPS_DRIVE1_G) 0).1])

/-! ### The result ring (R329) -/

def Dev.owpLog2 (d : Dev) (p : Nat) : Nat := clampN 4 10 (d.get (pgOwp p) WP_RES_CFG_SIZE_LOG2)

def Dev.owpFree (d : Dev) (p : Nat) : Nat :=
  2 ^ d.owpLog2 p - (d.get (pgOwp p) WP_RES_PROD_PROD + 2 ^ 16 - d.get (pgOwp p) WP_RES_CONS) % 2 ^ 16

/-- The 32 bytes of a record: KIND 1 BURN or 2 VERIFY. -/
def owpRecord (addr phase kind status detail cause level gtime seq : Nat) : List Byte :=
  leBytes 4 addr ++ [BitVec.ofNat 8 (phase * 128 + kind), BitVec.ofNat 8 status] ++ leBytes 2 (min 0xFFFF detail)
    ++ leBytes 2 cause ++ leBytes 2 level ++ List.replicate 12 0 ++ leBytes 6 gtime ++ [BitVec.ofNat 8 seq, 0]

/-- The address and the PHASE of the next record. -/
def Dev.owpSlot (d : Dev) (p : Nat) : Nat :=
  d.get64 (pgOwp p) WP_RES_BASE_LO WP_RES_BASE_HI / 32 * 32 + d.get (pgOwp p) WP_RES_PROD_PROD % 2 ^ d.owpLog2 p * 32
def Dev.owpPhase (d : Dev) (p : Nat) : Nat := 1 - d.get (pgOwp p) WP_RES_PROD_PROD / 2 ^ d.owpLog2 p % 2

/-- Post one record if the ring has room. -/
def Dev.owpPost (d : Dev) (p addr kind status detail cause level seq : Nat) : Dev :=
  if d.owpFree p = 0 then d
  else
    let q := pgOwp p
    let b := owpRecord addr (d.owpPhase p) kind status detail cause level ((d.gtime + 1) % 2 ^ 48) seq
    let c := (d.get q WP_RES_PROD_PROD + 1) % 2 ^ 16
    (((d.memW (d.owpSlot p) b).put q WP_RES_PROD_PROD c).put q WP_RES_PROD_PHASE (1 - c / 2 ^ d.owpLog2 p % 2)).irq q
      OWP_IRQ_POSTED

/-! ### Encoding (R310 to R313) -/

/-- ENC_GO: a write of `v` to ENC_CTL with GO 1; GO is ignored while a request runs. FORMAT 3 is taken as 0 (R335). -/
def execEncGo (v : Word) (s : State) : Host.Outcome State Fault Refusal :=
  .next (s.noting (.cmd (.encGo v)) fun s => s.dec fun _ d =>
    let format := bits v.toNat 16 2 % 3
    let d := ((d.put pgWenc ENC_CTL_LAYER (bits v.toNat 20 4)).put pgWenc ENC_CTL_FORMAT format).put pgWenc
      ENC_CTL_COUNT (bits v.toNat 0 16)
    if d.flag pgWenc ENC_STAT_BUSY || !d.starts pgWenc then d
    else
      let src := d.get64 pgWenc ENC_SRC_LO ENC_SRC_HI
      let ucd := d.get64 pgWenc ENC_UCD_LO ENC_UCD_HI
      let dst := d.get64 pgWenc ENC_DST_LO ENC_DST_HI
      if src % 4096 != 0 || ucd % 4096 != 0 || dst % 4096 != 0 then d.put pgWenc ENC_STAT_ERR 3
      else
        let r : EncReq :=
          { addr := d.get pgWenc ENC_ADDR, count := max 1 (bits v.toNat 0 16), src := src, ucd := ucd, dst := dst
            ref := d.get64 pgWenc ENC_REF_LO ENC_REF_HI, layer := bits v.toNat 20 4, format := format }
        (({ d with owp := { d.owp with enc := some r } }.setB pgWenc ENC_STAT_BUSY true).put pgWenc ENC_STAT_DONE 0).put
          pgWenc ENC_STAT_ERR 0)

/-- The encode request ends with error `err`. -/
def Dev.encEnd (d : Dev) (err : Nat) : Dev :=
  (({ d with owp := { d.owp with enc := none } }.setB pgWenc ENC_STAT_BUSY false).put pgWenc ENC_STAT_ERR err).irq pgWenc
    WENC_IRQ_ENC_DONE

/-- The codeword image of the next cluster of an encode request, from the user and control data in memory (R310, R311). -/
def Dev.encImage (d : Dev) (r : EncReq) : List Byte :=
  let i := r.index
  let user := padTo 65536 (memRead d.mem (r.src + i * 65536) 65536)
  if r.format = 2 then
    let h := denseHeader (r.addr + i) r.layer r.ref d.gtime48 (memRead d.mem (r.ucd + i * 1024 + 32) 224)
    denseImage (denseStream crc32c h user)
  else bdImage (r.addr + 32 * i) user (padTo 576 (memRead d.mem (r.ucd + i * 1024) 576))

/-- ENC_CLUSTER_DONE: one cluster is encoded, or a bus error `err` (1 on a read, 2 on a write) ends the request. -/
def execEncClusterDone (err : Fin 3) (s : State) : Host.Outcome State Fault Refusal :=
  .next (s.noting (.cmd (.encClusterDone err)) fun s => s.dec fun _ d =>
    match d.owp.enc with
    | some r =>
      if err.val != 0 then d.encEnd err
      else
        let i := r.index
        let d := (d.memW (r.dst + i * 81920) (d.encImage r)).put pgWenc ENC_STAT_DONE (i + 1)
        if i + 1 < r.count then { d with owp := { d.owp with enc := some { r with index := i + 1 } } } else d.encEnd 0
    | none => d)

/-! ### Burn jobs (R315, R322 to R327) -/

/-- END of WP_JOB_STAT. -/
inductive BEnd where
  | count | abort | position | inhibitLimit | ringFull | reset
deriving DecidableEq, Repr

def BEnd.code : BEnd → Nat
  | .count => 1 | .abort => 2 | .position => 3 | .inhibitLimit => 4 | .ringFull => 5 | .reset => 6

def Dev.jobState (d : Dev) (p : Nat) : Nat := d.get (pgOwp p) WP_JOB_STAT_STATE

/-- The burn job of port `p` ends; every pulse line is low. -/
def Dev.burnEnd (d : Dev) (p : Nat) (e : BEnd) : Dev :=
  let q := pgOwp p
  (((d.put q WP_JOB_STAT_END e.code).put q WP_JOB_STAT_STATE 0).irq q OWP_IRQ_JOB_END).updPort p fun o =>
    { o with job := none, light := false }

/-- BURN_JOB_GO: a write of `v` to WP_JOB_CTL with GO 1 (R327). -/
def execBurnJobGo (p : Fin 4) (r : Requester) (v : Word) (s : State) : Host.Outcome State Fault Refusal :=
  .next (s.noting (.cmd (.burnJobGo p r v)) fun s => s.dec fun vis d =>
    let q := pgOwp p
    let d := d.put q WP_JOB_CTL_SEQ (bits v.toNat 16 8)
    let f := d.get q WP_CTL_FORMAT
    let a := d.get q WP_JOB_ADDR
    let served := match vis.serving p with
      | some k => vis.get (pgFth k) FTH_CTL_FORMAT == f
      | none => false
    if (d.port p).job.isSome || !d.starts q || !served || maxSpeed f (d.get q WP_CTL_RE_MEDIA) < d.speed p
        || (f != 2 && a % 32 != 0) then d.errAt q WP_JOB_CTL .jobState r
    else
      let j : BurnJob := { seq := bits v.toNat 16 8, addr := a, src := d.get64 q WP_JOB_SRC_LO WP_JOB_SRC_HI / 4096 * 4096
                           count := max 1 (bits (d.get q WP_JOB_CNT) 0 16), armedAt := d.gtime }
      ((((d.updPort p fun o => { o with job := some j, clamped := Vector.replicate 4 0, struck := 0 }).put q WP_JOB_STAT_STATE 1).put q WP_JOB_STAT_END 0).put
        q WP_JOB_STAT_DONE_CNT 0).put q WP_JOB_STAT_INH_COUNT 0)

/-- The address of the job's next cluster. -/
def Dev.burnAddr (d : Dev) (p : Nat) (j : BurnJob) : Nat := j.addr + j.index * addrStep (d.get (pgOwp p) WP_CTL_FORMAT)

/-- A BURN record, and the job's next cluster (R324, R329). -/
def Dev.burnRecord (d : Dev) (p : Nat) (j : BurnJob) (status detail cause : Nat) : Dev :=
  let level := (((d.port p).sent[0]?).getD none).getD 0
  let d := d.owpPost p (d.burnAddr p j) 1 status detail cause level j.seq
  let d := d.updPort p fun o => { o with job := some { j with index := j.index + 1, posted := j.posted + 1 } }
  d.put (pgOwp p) WP_JOB_STAT_DONE_CNT (min 0xFFFF (j.posted + 1))

/-- After a record: COUNT once every cluster has one, RING_FULL where no entry is free (R327). -/
def Dev.burnBoundary (d : Dev) (p : Nat) : Dev :=
  match (d.port p).job with
  | some j => if j.count ≤ j.posted then d.burnEnd p .count else if d.owpFree p = 0 then d.burnEnd p .ringFull else d
  | none => d

/-- The shock output (R528): the comparator, or ACC_INT with INT_SHOCK set. -/
def Dev.shockOut (d : Dev) : Bool := d.lnk.compHigh || (d.flag pgAcc ACC_CFG_INT_SHOCK && d.lnk.accInt)

/-- The Grain-path causes in force on port `p` as committed: following errors, wobble, speed, POWER, remap, FW, supply
(R322). -/
def Dev.grainCauses (vis d : Dev) (p : Nat) : Nat :=
  let q := pgOwp p
  let k := vis.serving p
  let wob := match k with
    | some k => vis.flag (pgFth k) FTH_WOB_LOCKED
    | none => false
  let khz := match k with
    | some k => vis.get (pgFth k) FTH_WOB_STAT_WOB_KHZ
    | none => 0
  let want := d.channelRate p
  let got := khz * d.wobbleBits p
  let off := decide (want * 102 < got * 100) || decide (got * 100 < want * 98)
  let remap := match k with
    | some k => (vis.fthc k).remap
    | none => false
  let track := vis.servoCause p 1
  let focus := vis.servoCause p 0
  b2n vis.shockOut + b2n track * 2 + b2n focus * 4 + b2n (!wob) * 8 + b2n off * 16 + b2n (d.powerLimit p) * 32 + b2n remap * 128
    + b2n (d.flag q WP_CTL_INHIBIT) * 256 + b2n (vis.flag pgRsv RSV_STAT_PF || !d.tb.linkUp) * 512

/-- The causes that hold a recording back or end one: those of the Grain path with what has struck in this Grain, as far as CAUSE_EN counts
them (R322). -/
def Dev.causesNow (vis d : Dev) (p : Nat) : Nat := (Dev.grainCauses vis d p ||| (d.port p).struck) &&& d.get (pgOwp p) WP_INH_CAUSE_EN

/-- More of the recording stands on the disc: channel bits from transitions (R316). -/
def Dev.burnBits (d : Dev) (p : Nat) (l : List Bool) : Dev :=
  d.updPort p fun o => let r := o.line.run l; { o with written := o.written ++ r.1, line := r.2 }

/-- Is the disc of port `p` dense? -/
def Dev.burnDense (d : Dev) (p : Nat) : Bool := d.get (pgOwp p) WP_CTL_FORMAT == 2

/-- The slot behind a cluster's last data frame (R315). -/
def lastSlot (dense : Bool) : Nat := if dense then 527 else 496

/-- What closes a cluster: the pilot wedge in slot 527 of a dense one, and the linking frames, at the end of the recording or not (R315). -/
def burnTail (dense edge : Bool) : List Bool := (if dense then wedgeBits else []) ++ Config.linkBits dense false edge

/-- The `n` first slots of the job's next cluster are written, behind what closes the cluster before and the run-in (R315, R316). -/
def Dev.burnSlots (d : Dev) (p : Nat) (j : BurnJob) (n : Nat) : Dev :=
  let dense := d.burnDense p
  let first := (d.port p).written.isEmpty
  let d := d.burnBits p ((if first then [] else burnTail dense false) ++ Config.linkBits dense true first)
  let image := memRead d.mem (j.src + j.index * 81920) 81920
  d.updPort p fun o => let r := o.line.slots dense image n 0; { o with written := o.written ++ r.1, line := r.2 }

/-- The pulse lines over the recording of port `p` as it stands (R318, R319). -/
def Dev.pulses (d : Dev) (p : Nat) : List Pulse :=
  layPulses (markTrains (fun e => (d.rd (pgWst p + 4 * e)).toNat) 0 3 (levelRuns (d.port p).written))

/-- RECORDING_START: the resume point passes at `x`; within one channel bit of the job's next cluster the five levels are sent and the light
comes on (R314, R315, R320, R325). No recording starts while a cause is in force. -/
def execRecordingStart (p : Fin 4) (x : Place) (s : State) : Host.Outcome State Fault Refusal :=
  .next (s.noting (.cmd (.recordingStart p x)) fun s => s.dec fun vis d =>
    match (d.port p).job with
    | some j =>
      if d.jobState p != 1 || Dev.causesNow vis d p != 0 || d.burnPlace p (d.burnAddr p j) != (x.word, x.unit, x.wob)
          || 1 < x.bit.natAbs then d
      else if d.owpFree p = 0 then d.burnEnd p .ringFull
      else
        let d := d.updPort p fun o =>
          { o with light := true, clamped := Vector.replicate 4 0, sent := Vector.replicate 5 none, written := [], line := {} }
        ((List.range 5).foldl (fun d i => Dev.sendLevel vis d p i) d).put (pgOwp p) WP_JOB_STAT_STATE 2
    | none => d)

/-- CLUSTER_BURNED: its last data frame has been written (R315). -/
def execClusterBurned (p : Fin 4) (s : State) : Host.Outcome State Fault Refusal :=
  .next (s.noting (.cmd (.clusterBurned p)) fun s => s.dec fun _ d =>
    match (d.port p).job with
    | some j =>
      if (d.port p).light then
        let dense := d.burnDense p
        let d := d.burnSlots p j (lastSlot dense)
        let d := if j.count ≤ j.posted + 1 then d.burnBits p (burnTail dense true) else d
        (d.burnRecord p j 0 0 0).burnBoundary p
      else d
    | none => d)

/-- An inhibit strikes port `p` with the cause bits `cause` (R323 to R325): the lines go low. `frame` is the frame or slot being written,
none after the last data frame of a cluster. -/
def Dev.inhibit (d : Dev) (p cause : Nat) (frame : Option Nat) : Dev :=
  let q := pgOwp p
  let on := cause &&& d.get q WP_INH_CAUSE_EN
  match (d.port p).job with
  | some j =>
    if on = 0 || !(d.port p).light then d
    else
      let dense := d.burnDense p
      let frame := frame.filter fun f => decide (f < lastSlot dense)
      let addr := match frame with
        | some _ => d.burnAddr p j
        | none => d.burnAddr p { j with index := j.index - 1 }
      let d := (d.put q WP_INH_CAUSE (d.get q WP_INH_CAUSE ||| on)).irq q OWP_IRQ_INHIBIT
      let d := d.fault q 0x0802 false false [on, addr, frame.getD (lastSlot dense)]
      let d := match frame with
        | some f => d.burnSlots p j f
        | none => d
      let d := d.updPort p fun o => { o with light := false, clearSince := d.gtime + 1, struck := o.struck ||| on
                                             job := o.job.map fun j => { j with inhibits := j.inhibits + 1 } }
      let d := d.put q WP_JOB_STAT_INH_COUNT (satInc 15 (d.get q WP_JOB_STAT_INH_COUNT))
      let j := { j with inhibits := j.inhibits + 1 }
      let d := match frame with
        | some f => d.burnRecord p j 1 f on
        | none => d
      let d := d.put q WP_JOB_STAT_STATE 3
      if d.get q WP_RESUME_MAX_INH < j.inhibits then d.burnEnd p .inhibitLimit else d.burnBoundary p
  | none => d

/-- FAST_INHIBIT: the shock comparator, or an error sample beyond its window; a window of 0 disables its path (R322, R334). -/
def execFastInhibit (p : Fin 4) (src : FastSource) (frame : Option Nat) (s : State) : Host.Outcome State Fault Refusal :=
  .next (s.noting (.cmd (.fastInhibit p src frame)) fun s => s.dec fun _ d =>
    let q := pgOwp p
    let te : Int := d.get q WP_FAST_TE_FAST
    let fe : Int := d.get q WP_FAST_FE_FAST
    let out (w v : Int) : Bool := w != 0 && (w < v || v < -w)
    match src with
    | .shock => if d.shockOut then d.inhibit p 1 frame else d
    | .track v => if out te v then d.inhibit p 2 frame else d
    | .focus v => if out fe v then d.inhibit p 4 frame else d)

/-- IMMEDIATE_INHIBIT: image data not present, or (`bus`) a bus error on an image read (R322). -/
def execImmediateInhibit (p : Fin 4) (bus : Bool) (frame : Option Nat) (s : State) : Host.Outcome State Fault Refusal :=
  .next (s.noting (.cmd (.immediateInhibit p bus frame)) fun s => s.dec fun _ d => d.inhibit p (if bus then 2 ^ 10 else 2 ^ 6) frame)

/-- GRAIN_INHIBIT: the Grain-path causes captured at the edge strike (R323). -/
def execGrainInhibit (p : Fin 4) (frame : Option Nat) (s : State) : Host.Outcome State Fault Refusal :=
  .next (s.noting (.cmd (.grainInhibit p frame)) fun s => s.dec fun vis d => d.inhibit p (Dev.grainCauses vis d p) frame)

/-- In every Grain: the causes in force while a job is active, how long there has been none, and the clamped Grains (R321,
R325). With no job WP_INH.CAUSE keeps what it last showed (DESIGN CHOICE, notes/assumptions/151.md). -/
def Dev.owpGrain (vis d : Dev) (p : Nat) : Dev :=
  let o := d.port p
  if o.job.isNone then d
  else
    let q := pgOwp p
    let c := Dev.causesNow vis d p
    let d := (d.put q WP_INH_CAUSE c).updPort p fun o =>
      { o with clearSince := if c = 0 then o.clearSince else d.gtime + 1, spi := [], struck := 0
               clamped := Vector.ofFn fun i => if o.light && Dev.clampedNow vis d p i then ((o.clamped[i.val]?).getD 0) + 1 else 0 }
    if d.powerLimit p then d else d.updPort p fun o => { o with limited := false }

/-- BURN_REARM: no cause for RESUME_G Grains, 0 taken as 1, and wobble lock; a cause of this Grain wins (R325, R326). -/
def execBurnRearm (p : Fin 4) (s : State) : Host.Outcome State Fault Refusal :=
  .next (s.noting (.cmd (.burnRearm p)) fun s => s.dec fun vis d =>
    let q := pgOwp p
    let lock := match vis.serving p with
      | some k => vis.flag (pgFth k) FTH_WOB_LOCKED
      | none => false
    let o := d.port p
    if d.jobState p != 3 || Dev.causesNow vis d p != 0 || !lock
        || d.gtime < o.clearSince + max 1 (d.get q WP_RESUME_RESUME_G) then d
    else (d.updPort p fun o => { o with job := o.job.map fun j => { j with armedAt := d.gtime } }).put q WP_JOB_STAT_STATE 1)

/-- POSITION_TIMEOUT, 0 taken as 1; a start of the same Grain has won (R325, R326). -/
def execPositionTimeout (p : Fin 4) (s : State) : Host.Outcome State Fault Refusal :=
  .next (s.noting (.cmd (.positionTimeout p)) fun s => s.dec fun _ d =>
    match (d.port p).job with
    | some j =>
      if d.jobState p == 1 && decide (j.armedAt + max 1 (d.get (pgOwp p) WP_RESUME_POS_TO_G) ≤ d.gtime) then
        d.burnEnd p .position
      else d
    | none => d)

/-- An ABORT ends the job of port `p`: a cluster being written is INTERRUPTED (R326). -/
def Dev.burnAbort (d : Dev) (p : Nat) (frame : Option Nat) : Dev :=
  match (d.port p).job with
  | some j =>
    let frame := frame.filter fun f => decide (f < lastSlot (d.burnDense p))
    let d := match frame with
      | some f => if (d.port p).light then (d.burnSlots p j f).burnRecord p j 1 f 0 else d
      | none => d
    d.burnEnd p .abort
  | none => d

/-- BURN_JOB_ABORT (R326). -/
def execBurnJobAbort (p : Fin 4) (frame : Option Nat) (s : State) : Host.Outcome State Fault Refusal :=
  .next (s.noting (.cmd (.burnJobAbort p frame)) fun s => s.dec fun _ d => d.burnAbort p frame)

/-- ABORT written as a register with no word of the frame being written: which one it is is open (R326; notes/assumptions/151.md). -/
def Dev.burnAbortAny (d : Dev) (p : Nat) : Dev :=
  if (d.port p).light then let r := d.free; r.2.burnAbort p (some (r.1.toNat % lastSlot (d.burnDense p))) else d.burnAbort p none

/-! ### Tickets (R330, R331) -/

def Dev.ticketAddr (d : Dev) (i : Nat) : Nat := d.get64 pgWarc AR_TBL_BASE_LO AR_TBL_BASE_HI / 4096 * 4096 + 64 * i

/-- State of a ticket; with no table every ticket is FREE (R333). -/
def Dev.ticketState (d : Dev) (i : Nat) : Nat :=
  if d.get64 pgWarc AR_TBL_BASE_LO AR_TBL_BASE_HI = 0 then 0 else bits (leNat (memRead d.mem (d.ticketAddr i) 4)) 28 4

/-- The number in `k` bytes at byte `o` of a ticket. -/
def Dev.ticketNat (d : Dev) (i o k : Nat) : Nat := leNat (memRead d.mem (d.ticketAddr i + o) k)

/-- Set a ticket's state and the GTIME of the change. -/
def Dev.setTicket (d : Dev) (i st : Nat) : Dev :=
  let w := setBits (d.ticketNat i 0 4) 28 4 st
  (d.memW (d.ticketAddr i) (leBytes 4 w)).memW (d.ticketAddr i + 40) (leBytes 6 d.gtime48)

/-- A command has been carried out (R336). -/
def Dev.arResult (d : Dev) (i code : Nat) : Dev :=
  ((d.put pgWarc AR_STAT_RESULT code).put pgWarc AR_STAT_INDEX i).irq pgWarc WARC_IRQ_CMD_DONE

/-- The part of AR_CMD that a command writes. -/
def Dev.arCmd (d : Dev) (op i : Nat) : Dev := (d.put pgWarc AR_CMD_OP op).put pgWarc AR_CMD_INDEX i

/-- The address step of the discs of a ticket's port. -/
def Dev.ticketStep (d : Dev) (i : Nat) : Nat :=
  addrStep (d.get (pgOwp (bits (d.ticketNat i 0 4) 26 2)) WP_CTL_FORMAT)

/-- AR_OPEN of ticket `i`. -/
def execArOpen (i : Fin 4096) (s : State) : Host.Outcome State Fault Refusal :=
  .next (s.noting (.cmd (.arOpen i)) fun s => s.dec fun vis d =>
    let d := d.arCmd 1 i
    let lane := bits (d.ticketNat i 0 4) 0 20
    let x := vis.lane lane
    let c0 := d.ticketNat i 4 4
    if d.ticketState i != 1 then d.arResult i 3
    else if x.state != .sealed && x.state != .archived then d.arResult i 1
    else if d.ticketStep i = 32 && c0 % 32 != 0 then d.arResult i 2
    else
      let ofs := bits (d.ticketNat i 8 4) 0 16
      let d := (d.memW (d.ticketAddr i + 12) (leBytes 4 (ceilDiv (ofs + x.length + 256) 65536))).memW (d.ticketAddr i + 24)
        (leBytes 8 x.length ++ leBytes 8 x.sealLsn)
      let t : Ticket := { index := i, crc := crcInit x.poly, sha := Sha.start }
      (({ d with owp := { d.owp with tickets := d.owp.tickets ++ [t] } }).setTicket i 2).arResult i 0)

/-- AR_CANCEL of ticket `i`. -/
def execArCancel (i : Fin 4096) (s : State) : Host.Outcome State Fault Refusal :=
  .next (s.noting (.cmd (.arCancel i)) fun s => s.dec fun _ d =>
    let d := d.arCmd 3 i
    let st := d.ticketState i
    if st != 2 && st != 3 && st != 4 then d.arResult i 3
    else (({ d with owp := { d.owp with tickets := d.owp.tickets.filter (·.index != i) } }).setTicket i 0).arResult i 0)

/-- A ticket fails at check `c` (R331). -/
def Dev.ticketFail (d : Dev) (i c : Nat) : Dev :=
  let lane := bits (d.ticketNat i 0 4) 0 20
  let d := { d with owp := { d.owp with tickets := d.owp.tickets.filter (·.index != i) } }
  (((d.setTicket i 4).inc pgWarc AR_COUNT_FAILED).irq pgWarc WARC_IRQ_FAILED).fault pgWarc 0x0803 false false [lane, c]

/-- The ticket goes to FAILED because a cluster of its range was not verified. -/
def Dev.ticketBad (d : Dev) (i : Nat) : Dev :=
  let d := { d with owp := { d.owp with tickets := d.owp.tickets.filter (·.index != i) } }
  ((d.setTicket i 4).inc pgWarc AR_COUNT_FAILED).irq pgWarc WARC_IRQ_FAILED

/-- The progress of ticket `t` over the user data `b` of its cluster number `n` (R331): the lane's bytes go through its CRC
and SHA-256, the manifest's are kept. -/
def Dev.ticketFeed (d : Dev) (t : Ticket) (n : Nat) (b : List Byte) : Ticket :=
  let i := t.index
  let x := d.lane (bits (d.ticketNat i 0 4) 0 20)
  let ofs := bits (d.ticketNat i 8 4) 0 16
  let len := d.ticketNat i 24 8
  let b := padTo 65536 b
  let b := if n = 0 then b.drop ofs else b
  let done := if n = 0 then 0 else n * 65536 - ofs
  let data := b.take (len - done)
  let rest := b.drop (len - done)
  { t with next := n + 1, crc := crcRun x.poly t.crc data 0, sha := if x.sha then t.sha.absorb data 0 else t.sha
           manifest := (t.manifest ++ rest).take 256 }

/-- The checks 1 and 2 of R331 on a ticket whose last cluster has passed: the first that fails. -/
def Dev.ticketCheck (d : Dev) (t : Ticket) : Option Nat :=
  let i := t.index
  let m := t.manifest
  let at0 (o k : Nat) : Nat := leNat ((m.drop o).take k)
  let x := d.lane (bits (d.ticketNat i 0 4) 0 20)
  if at0 8 4 != bits (d.ticketNat i 0 4) 0 20 || at0 16 8 != d.ticketNat i 24 8 || at0 40 8 != d.ticketNat i 32 8 then some 1
  else if at0 80 8 != crcFinal x.poly t.crc || (x.sha && (m.drop 88).take 32 != t.sha.digest) then some 2
  else none

/-- A ticket with its progress at its start (R331). -/
def Dev.ticketFresh (d : Dev) (t : Ticket) : Ticket :=
  { index := t.index, crc := crcInit (d.lane (bits (d.ticketNat t.index 0 4) 0 20)).poly, sha := Sha.start }

/-- Is a ticket OPEN on port `p` with its signature not yet in check? -/
def Dev.ticketVerifies (d : Dev) (p : Nat) (t : Ticket) : Bool :=
  d.ticketState t.index == 2 && !t.signature && bits (d.ticketNat t.index 0 4) 26 2 == p

/-- Does the range of such a ticket hold the cluster at `addr`? -/
def Dev.ticketTakes (d : Dev) (p addr : Nat) (t : Ticket) : Bool :=
  let c0 := d.ticketNat t.index 4 4
  d.ticketVerifies p t && decide (c0 ≤ addr) && decide ((addr - c0) / d.ticketStep t.index < d.ticketNat t.index 12 4)

/-- One ticket meets a cluster of its range (R331); a job's first cluster begins its progress anew. -/
def Dev.ticketCluster (d : Dev) (addr : Nat) (ok : Bool) (b : List Byte) (t : Ticket) : Dev :=
  let i := t.index
  let n := (addr - d.ticketNat i 4 4) / d.ticketStep i
  let count := d.ticketNat i 12 4
  if !ok then d.ticketBad i
  else
    let fresh := d.ticketFresh t
    let t := if n = t.next then d.ticketFeed t n b else if n = 0 then d.ticketFeed fresh 0 b else fresh
    if t.next = count then
      match d.ticketCheck t with
      | some c => d.ticketFail i c
      | none =>
        { d with owp := { d.owp with tickets := updWhere (·.index == i) (fun _ => { t with signature := true }) d.owp.tickets } }
    else { d with owp := { d.owp with tickets := updWhere (·.index == i) (fun _ => t) d.owp.tickets } }

/-- Does the device key verify the signature of a manifest (R160, R331)? -/
def Dev.manifestSigned (d : Dev) (m : List Byte) : Bool :=
  let key := (List.range 16).flatMap fun i => beBytes 4 (d.get pgChk (CHK_PUBKEY.idx i))
  ecdsaVerify key (sha256 (m.take 192)) ((m.drop 192).take 64)

/-- MANIFEST_VERIFY_DONE: the seal engine, in its turn, has checked the signature of ticket `i` (R331 check 3). -/
def execManifestVerifyDone (i : Fin 4096) (s : State) : Host.Outcome State Fault Refusal :=
  .next (s.noting (.manifestVerifyDone i) fun s => s.dec fun vis d =>
    match d.owp.tickets.find? fun t => t.index == i.val && t.signature with
    | some t =>
      if vis.stg.signing.isSome then d
      else if !d.manifestSigned t.manifest then d.ticketFail i 3
      else
        let d := { d with owp := { d.owp with tickets := d.owp.tickets.filter (·.index != i) } }
        (d.setTicket i 3).irq pgWarc WARC_IRQ_VERIFIED
    | none => d)

/-! ### Verify (R328) -/

/-- VERIFY_COMPARE: the next delivered cluster of port `p` is compared with its source and the margins, its record posted,
and the tickets of its range advance. -/
def execVerifyCompare (p : Fin 4) (s : State) : Host.Outcome State Fault Refusal :=
  .next (s.noting (.cmd (.verifyCompare p)) fun s => s.dec fun _ d =>
    match d.serving p with
    | some k =>
      match (d.fthc k).compare with
      | r :: l =>
        let q := pgOwp p
        let d := d.updFth k fun c => { c with compare := l }
        let dense := d.get (pgFth k) FTH_CTL_FORMAT == 2
        let want := memRead d.mem (d.get64 q WP_VFY_SRC_LO WP_VFY_SRC_HI / 4096 * 4096 + r.index * 65536) 65536
        let unequal := ((want.zip (padTo 65536 r.data)).filter fun x => x.1 != x.2).length
        let lim := d.get q WP_VMARGIN_VM_CORR * (if dense then 16 else 1)
        let margin := decide (lim < r.maxCorr) || decide (d.get q WP_VMARGIN_VM_SYNC < r.ins)
          || decide (d.get q WP_VMARGIN_VM_DEF < r.defFrames) || (!dense && decide (d.get q WP_VMARGIN_VM_BIS < r.bis))
        let readOk := r.status == some 0 || r.status == some 1
        let st := if r.status == some 6 then 5 else if !readOk then 4 else if unequal != 0 then 2
          else if margin || r.status == some 1 then 3 else 0
        let d := d.owpPost p r.addr 2 st (if readOk then unequal else 0) 0 r.maxCorr r.seq
        let d := if r.index = 0 then
            { d with owp := { d.owp with tickets := updWhere (d.ticketVerifies p) d.ticketFresh d.owp.tickets } }
          else d
        ((d.owp.tickets.filter (d.ticketTakes p r.addr)).take 16).foldl (fun d t => d.ticketCluster r.addr (st == 0) r.data t) d
      | [] => d
    | none => d)

/-! ### Archive records (R332, R584, R585) -/

/-- AR_COMMIT of ticket `i`: the ledger takes the record in step 2 of R64. -/
def execArCommit (i : Fin 4096) (s : State) : Host.Outcome State Fault Refusal :=
  .next (s.noting (.cmd (.arCommit i)) fun s => s.ledger fun vis d =>
    let d := d.arCmd 2 i
    let lane := bits (d.ticketNat i 0 4) 0 20
    let x := d.lane lane
    if d.ticketState i != 3 then d.arResult i 3
    else if (x.state != .sealed && x.state != .archived) || x.sealLsn != d.ticketNat i 32 8 then d.arResult i 1
    else if x.state == .archived then
      ((d.setTicket i 6).inc pgWarc AR_COUNT_DONE).arResult i 0
    else if d.flag pgRsv RSV_STAT_PF || !d.flag pgLdg LDG_CTL_ACCEPT_EN || d.flag pgLdg LDG_CTL_ACTIVATE then d.arResult i 5
    else if vis.flag pgRsv RSV_STAT_BELOW_MIN || vis.flag pgRsv RSV_STAT_DEFICIT
        || vis.get pgRsv RSV_AVAIL < d.promised + d.get pgRsv RSV_E_UNIT_E_REC then d.arResult i 4
    else
      let x : BgRec := { kind := .archive (d.ticketNat i 16 8), lane := lane, bay := vis.bestBay, behind := d.ldg.nextLsn - 1 }
      let d := d.charge 0 1
      let d := { d with ldg := { d.ldg with background := d.ldg.background ++ [x] }, owp := { d.owp with commits := d.owp.commits ++ [(i.val, lane)] } }
      (d.setTicket i 5).arResult i 0)

/-- The archive record `a` of a lane is Settled (R332): its first ticket in COMMITTING is DONE. -/
def Dev.archived (d : Dev) (a : BgRec) (ref : Nat) : Dev :=
  let x := d.lane a.lane
  let d := { d with ldg := { d.ldg with background := d.ldg.background.filter (· != a) } }.credit 0 1
  let d := d.setLane a.lane { x with state := .archived, archived := x.length, discRef := ref, changed := d.gtime48 }
  let d := match d.owp.commits.find? (·.2 == a.lane) with
    | some c => (({ d with owp := { d.owp with commits := d.owp.commits.filter (· != c) } }.setTicket c.1 6).inc pgWarc AR_COUNT_DONE)
    | none => d
  d.irq pgWarc WARC_IRQ_ARCHIVED

/-- ARCHIVE_RECORD_SETTLE: the last edge shows the archive delta of a lane Settled (R332). -/
def execArchiveRecordSettle (lane : Nat) (s : State) : Host.Outcome State Fault Refusal :=
  .next (s.noting (.cmd (.archiveRecordSettle lane)) fun s => s.ledger fun vis d =>
    let rec? := d.ldg.background.findSome? fun x => match x.kind with
      | .archive ref => if x.lane == lane then some (x, ref) else none
      | .lapse .. | .stale => none
    match rec? with
    | some (x, ref) => if vis.recordSettled x then d.archived x ref else d
    | none => d)

end Sys2Proof.Machine
end

