-- ==== Sys2Proof/Machine/Spindle.lean ====
section
/-! DEFINITION. Motor commutation, braking and the VMOT bus (chapter 11). Channels 0 to 3 are SPN0 to SPN3, 4 and 5 are AUXM0
and AUXM1. Instants are in units of 10 ns. -/

namespace Sys2Proof.Machine

open Sys2Proof

def Dev.motor (d : Dev) (c : Nat) : Motor := (d.cmt.chans[c]?).getD {}

def Dev.updMotor (d : Dev) (c : Nat) (f : Motor → Motor) : Dev :=
  { d with cmt := { d.cmt with chans := d.cmt.chans.setIfInBounds c (f (d.motor c)) } }

/-- STATE of CMT_STAT: 0 OFF, 1 ALIGN, 2 RAMP, 3 RUN, 4 CATCH, 5 BRAKE, 6 FAULT. -/
def Dev.motorState (d : Dev) (c : Nat) : Nat := d.get (pgCmt c) CMT_STAT_STATE

/-- Enter a state in this Grain. -/
def Dev.motorGo (d : Dev) (c st : Nat) : Dev :=
  (d.put (pgCmt c) CMT_STAT_STATE st).updMotor c fun m => { m with since := d.gtime }

/-- Release the bridges. -/
def Dev.motorRelease (d : Dev) (c : Nat) : Dev := d.updMotor c fun m => { m with drive := .coast, duty := 0, plan := none }

def Dev.clearObs (d : Dev) (c : Nat) : Dev :=
  (d.setB (pgCmt c) CMT_STAT_OBS_LOCK false).setB (pgCmt c) CMT_STAT_ANGLE_VALID false

/-- FAULT with a code: the bridges are released. -/
def Dev.motorFault (d : Dev) (c code : Nat) : Dev :=
  (((d.motorRelease c).clearObs c).motorGo c 6).put (pgCmt c) CMT_STAT_FAULT_CODE code

/-- OFF. -/
def Dev.motorOff (d : Dev) (c : Nat) : Dev :=
  (((d.motorRelease c).clearObs c).motorGo c 0).updMotor c fun m => { m with pause := false, tries := 0 }

/-- A command's outcome: RESULT and its interrupt. -/
def Dev.motorResult (d : Dev) (c r : Nat) : Dev :=
  (d.put (pgCmt c) CMT_STAT_RESULT r).irq (pgCmt c) (if r = 0 then CMT_IRQ_CMD_DONE else CMT_IRQ_CMD_FAIL)

/-! ### Sectors and speed (R383, R389) -/

def Dev.polePairs (d : Dev) (c : Nat) : Nat := max 1 (d.get (pgCmt c) CMT_CTL_POLE_PAIRS)
def Dev.motorDir (d : Dev) (c : Nat) : Bool := d.flag (pgCmt c) CMT_CTL_DIR
def Dev.sector (d : Dev) (c : Nat) : Nat := d.get (pgCmt c) CMT_STAT_SECTOR

/-- The sector after `n` in the channel's direction. -/
def Dev.nextSector (d : Dev) (c n : Nat) : Nat := if d.motorDir c then (n + 5) % 6 else (n + 1) % 6

/-- PWM, low and floating phase of a sector: 0 U, 1 V, 2 W (R383). -/
def sectorPhases (n : Nat) : Nat × Nat × Nat :=
  match n % 6 with
  | 0 => (0, 1, 2) | 1 => (0, 2, 1) | 2 => (1, 2, 0) | 3 => (1, 0, 2) | 4 => (2, 0, 1) | _ => (2, 1, 0)

/-- Is the expected back-EMF slope rising: odd sectors, inverted with DIR (R383)? -/
def Dev.risingExpected (d : Dev) (c : Nat) : Bool := (d.sector c % 2 == 1) != d.motorDir c

/-- rev/min of a sector period `t` (R389). -/
def Dev.rpmOf (d : Dev) (c t : Nat) : Nat := if t = 0 then 0 else 6000000000 / (6 * d.polePairs c * t)

/-- The angle bin at instant `now` (R389). -/
def Dev.angleBin (d : Dev) (c now : Nat) : Nat :=
  let m := d.motor c
  if m.period = 0 then 0
  else
    let el := min (now - m.commAt) (m.period - 1)
    128 * (m.turn * m.period + el) / (6 * d.polePairs c * m.period)

/-- Advance one sector at instant `t`. -/
def Dev.advance (d : Dev) (c t : Nat) : Dev :=
  (d.put (pgCmt c) CMT_STAT_SECTOR (d.nextSector c (d.sector c))).updMotor c fun m =>
    { m with commAt := t, turn := (m.turn + 1) % (6 * d.polePairs c), comms := m.comms + 1 }

/-! ### Demand and braking (R395, R396) -/

/-- The bus-wide conditions of regeneration (R396, R398). -/
def Dev.regenBus (vis d : Dev) : Bool :=
  d.flag pgVbus VBUS_CTL_REGEN_EN && !d.flag pgVbus VBUS_STAT_CHOP_FAULT && !d.flag pgVbus VBUS_STAT_CHOP_STUCK
    && d.get pgVbus VBUS_VMAX_VMAX_MV < d.get pgVbus VBUS_REGEN_REGEN_MAX_MV && !vis.flag pgRsv RSV_STAT_PF

/-- Braking of strength `b`, regenerative where R396 allows it. -/
def Dev.brakeDrive (vis d : Dev) (c b : Nat) : Drive :=
  let q := pgCmt c
  if d.flag q CMT_CTL_BRAKE_SEL && Dev.regenBus vis d && d.get q CMT_START1_HANDOVER_RPM ≤ d.get q CMT_SPEED_RPM then .regen b
  else .short b

/-- The demand of a channel in RUN (R361, R402). -/
def Dev.motorDemand (vis d : Dev) (c : Nat) : Int :=
  if c < 4 && bit (vis.get (pgOps c) OPS_LOOP_CLOSED) 4 then (vis.optPort c).demand else d.getI (pgCmt c) CMT_DUTY_DUTY

/-- `a` moved towards `b` by at most `n`. -/
def towards (a b n : Int) : Int := if a < b then min b (a + n) else max b (a - n)

/-- The brake is released for the last 2 of every 64 Grains (R392). -/
def brakeWindow (since now : Nat) : Bool := 62 ≤ (now - since) % 64

/-! ### PWM (R381, R382, R384) -/

def Dev.pwmTop (d : Dev) (c : Nat) : Nat := clampN 500 2500 (d.get (pgCmt c) CMT_PWM_TOP)

/-- Where the counter of channel `c` starts: c × TOP / 3 counts behind the Grain strobe that follows (R382). -/
def Dev.counterStart (d : Dev) (c : Nat) : Nat := (d.gtime + 1) * 400 + c * d.pwmTop c / 3

/-- The first counter valley at or after instant `t`. -/
def Dev.valley (d : Dev) (c t : Nat) : Nat :=
  let z := (d.motor c).pwmFrom
  z + ceilDiv (t - z) (2 * d.pwmTop c) * (2 * d.pwmTop c)

/-- The counter at instant `t`: 0 to TOP and back. -/
def Dev.pwmCount (d : Dev) (c t : Nat) : Nat :=
  let y := (t - (d.motor c).pwmFrom) % (2 * d.pwmTop c)
  if y < d.pwmTop c then y else 2 * d.pwmTop c - y

/-- The parts of duty `x` that the outgoing and the incoming phase have at instant `t` (R384): equal steps, one a PWM period, over SOFT_PCT
percent of the sector period. -/
def Dev.softShare (d : Dev) (c t x : Nat) : Nat × Nat :=
  let m := d.motor c
  let w := min 25 (d.get (pgCmt c) CMT_COMM_SOFT_PCT) * m.period / 100
  if m.commAt + w ≤ t then (0, x)
  else
    let steps := max 1 (w / (2 * d.pwmTop c))
    let i := min steps ((t - m.commAt) / (2 * d.pwmTop c) + 1)
    (x - x * i / steps, x * i / steps)

/-- The high and the low switch of phases U, V and W at instant `t` (R381, R383, R384, R395). The spec gives no pattern for regeneration
(R396): `none`. -/
def Dev.gates (d : Dev) (c t : Nat) : Option (List (Bool × Bool)) :=
  let m := d.motor c
  let n := d.pwmCount c t * 32768
  let top := d.pwmTop c
  let dead := clampN 2 200 (d.get (pgCmt c) CMT_PWM_DEAD) * 32768
  let pwm (x : Nat) : Bool × Bool := (decide (n < x * top) && decide (m.hiOffUntil ≤ t), decide (x * top + dead ≤ n))
  match m.drive with
  | .coast => some (List.replicate 3 (false, false))
  | .short b => some (List.replicate 3 (false, decide (n < b * top)))
  | .regen _ => none
  | .motor x =>
    let p := sectorPhases (d.sector c)
    let old := sectorPhases (if d.motorDir c then d.sector c + 1 else d.sector c + 5)
    let s := d.softShare c t x
    some ((List.range 3).map fun k =>
      if k = p.1 then pwm (if old.1 = p.1 then x else s.2)
      else if k = old.1 && s.1 != 0 then pwm s.1
      else if k = p.2.1 then (false, old.2.1 == p.2.1 || decide (n * x < s.2 * top * 32768))
      else if k = old.2.1 && s.1 != 0 then (false, decide (n * x < s.1 * top * 32768))
      else (false, false))

/-! ### Start and stop -/

/-- Align: sector 0, or 5 with DIR, at START_DUTY (R387). -/
def Dev.alignMotor (d : Dev) (c : Nat) : Dev :=
  let q := pgCmt c
  let d := (d.motorGo c 1).put q CMT_STAT_SECTOR (if d.motorDir c then 5 else 0)
  let duty := min 0x8000 (d.get q CMT_START2_START_DUTY)
  d.updMotor c fun m =>
    { m with pause := false, drive := .motor duty, duty := duty, lastX := none, gaps := [], period := 0, plan := none, run := 0
             missed := 0, rampAcc := 0, turn := 0, pwmFrom := d.counterStart c }

/-- RUN under the observer or Hall commutation: the angle's zero is set anew (R389). -/
def Dev.runMotor (d : Dev) (c : Nat) (obs : Bool) : Dev :=
  let q := pgCmt c
  let d := ((d.motorGo c 3).setB q CMT_STAT_OBS_LOCK obs).setB q CMT_STAT_ANGLE_VALID true
  d.updMotor c fun m => { m with turn := 0, missed := 0, lastEvent := d.gtime }

/-- The sector of a Hall code, `none` where the code is invalid or MAP gives no sector (R394). -/
def Dev.hallSector (d : Dev) (c code : Nat) : Option Nat :=
  if code = 0 || 7 ≤ code then none
  else
    let n := bits (d.get (pgCmt c) CMT_HALL_MAP) (3 * code - 3) 3
    if n < 6 then some n else none

/-- A command, decided against the committed state, or against a FAULT of this Grain (R401, R402). -/
def Dev.motorCommand (vis d : Dev) (c cmd : Nat) : Dev :=
  let q := pgCmt c
  let st := if d.motorState c = 6 then 6 else vis.motorState c
  let m := d.motor c
  let d := d.updMotor c fun m => { m with cmdTaken := true }
  if m.cmdTaken then d.motorResult c 2
  else
    match cmd with
    | 1 => if st = 6 then d.motorResult c 1 else (d.motorOff c).motorResult c 0
    | 2 =>
      if st ≠ 0 || !d.starts q then d.motorResult c 1
      else if d.flag q CMT_CTL_HALL_EN then
        let d := match d.hallSector c m.hall with
          | some n => d.put q CMT_STAT_SECTOR n
          | none => d
        let d := d.updMotor c fun m => { m with hallOff := false, lastX := none, gaps := [], period := 0, duty := 0
                                                pwmFrom := d.counterStart c }
        (d.runMotor c false).motorResult c 0
      else (d.alignMotor c).updMotor c fun m => { m with tries := 1, hallOff := true }
    | 3 =>
      if st = 2 || st = 3 || st = 4 then
        let d := (d.motorGo c 5).clearObs c
        d.updMotor c fun m => { m with drive := Dev.brakeDrive vis d c 0x8000, duty := 0, plan := none, pause := false
                                       after := .command, measured := false }
      else d.motorResult c 1
    | 4 =>
      if st ≠ 6 then d.motorResult c 1
      else
        let code := d.get q CMT_STAT_FAULT_CODE
        let present := if code = 4 then d.cmt.okCount < max 1 (d.get pgVbus VBUS_LIMIT_OV_G) else m.cause
        if present then d.motorResult c 4
        else (((d.motorOff c).put q CMT_STAT_FAULT_CODE 0).setFault q false).motorResult c 0
    | _ => d.motorResult c 3

/-- CMT_COAST. -/
def execCmtCoast (c : Fin 6) (s : State) : Host.Outcome State Fault Refusal :=
  .next (s.noting (.cmd (.cmtCoast c)) fun s => s.dec fun vis d => Dev.motorCommand vis d c 1)
/-- CMT_START. -/
def execCmtStart (c : Fin 6) (s : State) : Host.Outcome State Fault Refusal :=
  .next (s.noting (.cmd (.cmtStart c)) fun s => s.dec fun vis d => Dev.motorCommand vis d c 2)
/-- CMT_BRAKE. -/
def execCmtBrake (c : Fin 6) (s : State) : Host.Outcome State Fault Refusal :=
  .next (s.noting (.cmd (.cmtBrake c)) fun s => s.dec fun vis d => Dev.motorCommand vis d c 3)
/-- CMT_CLEAR. -/
def execCmtClear (c : Fin 6) (s : State) : Host.Outcome State Fault Refusal :=
  .next (s.noting (.cmd (.cmtClear c)) fun s => s.dec fun vis d => Dev.motorCommand vis d c 4)

/-- ALIGN_END: after ALIGN_G Grains the open-loop ramp begins (R387). -/
def execAlignEnd (c : Fin 6) (s : State) : Host.Outcome State Fault Refusal :=
  .next (s.noting (.cmd (.alignEnd c)) fun s => s.dec fun _ d =>
    if d.motorState c ≠ 1 || d.gtime < (d.motor c).since + d.get (pgCmt c) CMT_START0_ALIGN_G then d
    else (d.motorGo c 2).updMotor c fun m => { m with run := 0, lastX := none, gaps := [], period := 0, lastEvent := d.gtime })

/-- RAMP_END: no handover; the bridges are released and a pause begins, or the tries are used up (R387). -/
def execRampEnd (c : Fin 6) (s : State) : Host.Outcome State Fault Refusal :=
  .next (s.noting (.cmd (.rampEnd c)) fun s => s.dec fun _ d =>
    let q := pgCmt c
    let m := d.motor c
    if d.motorState c ≠ 2 || m.pause || d.gtime < m.since + max 1 (d.get q CMT_START0_RAMP_G) then d
    else if m.tries < max 1 (d.get q CMT_START2_START_TRIES) then
      (d.motorRelease c).updMotor c fun m => { m with pause := true, since := d.gtime }
    else ((d.motorFault c 1).irq q CMT_IRQ_CMD_FAIL).fault q 0x0A01 false false [])

/-- START_RETRY: the pause of ALIGN_G Grains has expired. -/
def execStartRetry (c : Fin 6) (s : State) : Host.Outcome State Fault Refusal :=
  .next (s.noting (.startRetry c) fun s => s.dec fun _ d =>
    let m := d.motor c
    if !m.pause || d.gtime < m.since + d.get (pgCmt c) CMT_START0_ALIGN_G then d
    else (d.alignMotor c).updMotor c fun m => { m with tries := m.tries + 1 })

/-- OBSERVER_HANDOVER: six consecutive valid crossings in the ramp. -/
def execObserverHandover (c : Fin 6) (s : State) : Host.Outcome State Fault Refusal :=
  .next (s.noting (.cmd (.observerHandover c)) fun s => s.dec fun _ d =>
    let m := d.motor c
    if d.motorState c ≠ 2 || m.pause || m.run < 6 then d else ((d.runMotor c true).motorResult c 0))

/-! ### The observer (R388, R390) -/

/-- The predicted instant of the next crossing. -/
def Motor.predicted (m : Motor) : Option Nat := if m.gaps.length < 2 then none else m.lastX.map (· + m.period)

/-- Half a crossing window. -/
def Dev.halfWindow (d : Dev) (c : Nat) : Nat := clampN 5 50 (d.get (pgCmt c) CMT_OBS_WIN_PCT) * (d.motor c).period / 100

/-- Is a crossing at `t` valid (R388)? `clear`: the phase has left its diode clamp. -/
def Dev.crossingValid (d : Dev) (c t : Nat) (rising clear : Bool) : Bool :=
  let q := pgCmt c
  let m := d.motor c
  let pct := max (min 25 (d.get q CMT_COMM_SOFT_PCT)) (d.get q CMT_COMM_BLANK_PCT)
  let near := match m.predicted with
    | some x => decide (x ≤ t + d.halfWindow c) && decide (t ≤ x + d.halfWindow c)
    | none => true
  rising == d.risingExpected c && clear && decide (m.commAt + pct * m.period / 100 ≤ t) && near

/-- T/2 − ADV × T/256 after a crossing at `x` (R388). -/
def Dev.commutationAt (d : Dev) (c x : Nat) : Nat :=
  let t := (d.motor c).period
  x + t / 2 - min 64 (d.get (pgCmt c) CMT_COMM_ADV) * t / 256

/-- A crossing or Hall edge at `t` enters the estimate of the period. -/
def Motor.observe (m : Motor) (t now : Nat) : Motor :=
  let gaps := match m.lastX with
    | some x => ((t - x) :: m.gaps).take 2
    | none => m.gaps
  { m with lastX := some t, gaps := gaps, period := if gaps.isEmpty then m.period else gaps.foldl (· + ·) 0 / gaps.length
           missed := 0, lastEvent := now }

/-- BEMF_CROSSING captured at this edge, `at_` units into the Grain before it. -/
def execBemfCrossing (c : Fin 6) (at_ : Fin 400) (rising clear : Bool) (s : State) : Host.Outcome State Fault Refusal :=
  .next (s.noting (.cmd (.bemfCrossing c at_ rising clear)) fun s => s.dec fun _ d =>
    let t := (d.gtime - 1) * 400 + at_.val
    let st := d.motorState c
    let m := d.motor c
    if !(st == 2 && !m.pause) && !(st == 3 && d.flag (pgCmt c) CMT_STAT_OBS_LOCK) then d
    else if !d.crossingValid c t rising clear then if st == 2 then d.updMotor c fun m => { m with run := 0 } else d
    else
      let d := d.updMotor c fun m => { m.observe t d.gtime with run := m.run + 1 }
      if st == 3 || 6 ≤ (d.motor c).run then d.updMotor c fun m => { m with plan := some (d.commutationAt c t) } else d)

/-- COMMUTATION: the planned instant falls within the next Grain, or is past and is taken at the edge, which LATE counts. -/
def execCommutation (c : Fin 6) (s : State) : Host.Outcome State Fault Refusal :=
  .next (s.noting (.cmd (.commutation c)) fun s => s.dec fun _ d =>
    match (d.motor c).plan with
    | some t =>
      let edge := (d.gtime + 1) * 400
      if d.motorState c ≠ 3 || edge + 400 ≤ t then d
      else
        let d := d.advance c (max t edge)
        d.updMotor c fun m => { m with plan := none, lateAcc := m.lateAcc + b2n (decide (t < edge)) }
    | none => d)

/-- CROSSING_WINDOW_MISS: the window has ended without a valid crossing; the sector commutates as a flywheel (R390). -/
def execCrossingWindowMiss (c : Fin 6) (s : State) : Host.Outcome State Fault Refusal :=
  .next (s.noting (.cmd (.crossingWindowMiss c)) fun s => s.dec fun _ d =>
    let m := d.motor c
    match m.predicted with
    | some x =>
      if d.motorState c ≠ 3 || !d.flag (pgCmt c) CMT_STAT_OBS_LOCK || d.gtime * 400 ≤ x + d.halfWindow c then d
      else
        d.updMotor c fun m => { m with lastX := some x, plan := some (d.commutationAt c x), missed := m.missed + 1
                                       missAcc := m.missAcc + 1 }
    | none => d)

/-- ROTOR_LOST: MISS_MAX missed sectors in a row, or a period below 24 µs (R388, R390). -/
def execRotorLost (c : Fin 6) (s : State) : Host.Outcome State Fault Refusal :=
  .next (s.noting (.cmd (.rotorLost c)) fun s => s.dec fun _ d =>
    let q := pgCmt c
    let m := d.motor c
    let lost := max 1 (d.get q CMT_OBS_MISS_MAX) ≤ m.missed || (m.gaps.length == 2 && m.period < 2400)
    if d.motorState c ≠ 3 || !d.flag q CMT_STAT_OBS_LOCK || !lost then d
    else
      let d := (d.irq q CMT_IRQ_ROTOR_LOST).fault q 0x0A02 false false [d.get q CMT_SPEED_RPM, ofInt 16 m.duty]
      ((d.motorRelease c).clearObs c).motorGo c 4)

/-- CATCH_SUCCESS: six consistent crossings of the free-running motor gave direction, sector period and sector (R391). -/
def execCatchSuccess (c : Fin 6) (forward : Bool) (period : Nat) (sector : Fin 6) (s : State) :
    Host.Outcome State Fault Refusal :=
  .next (s.noting (.cmd (.catchSuccess c forward period sector)) fun s => s.dec fun _ d =>
    let q := pgCmt c
    let rpm := d.rpmOf c period
    if d.motorState c ≠ 4 || !forward || rpm < d.get q CMT_CATCH_CATCH_MIN_RPM then d
    else
      let mv := d.get pgVbus VBUS_VMAX_VMAX_MV
      let d0 := if mv = 0 then 0 else min 0x7FFF (rpm * d.get q CMT_KE_KE_MV * 32768 / (1000 * mv))
      let d := ((d.put q CMT_STAT_SECTOR sector.val).put q CMT_SPEED_RPM (min 0xFFFF rpm)).runMotor c true
      d.updMotor c fun m => { m with duty := d0, drive := .motor d0, period := period, lastX := some (d.gtime * 400)
                                     gaps := [period, period], commAt := d.gtime * 400, plan := none })

/-- CATCH_FAIL: reverse rotation, a speed below CATCH_MIN_RPM, or CATCH_G Grains without success; braking follows (R391,
R392). -/
def execCatchFail (c : Fin 6) (obs : Option (Bool × Nat)) (s : State) : Host.Outcome State Fault Refusal :=
  .next (s.noting (.cmd (.catchFail c obs)) fun s => s.dec fun _ d =>
    let q := pgCmt c
    let failed := match obs with
      | some o => !o.1 || d.rpmOf c o.2 < d.get q CMT_CATCH_CATCH_MIN_RPM
      | none => decide ((d.motor c).since + d.get q CMT_CATCH_CATCH_G ≤ d.gtime)
    if d.motorState c ≠ 4 || !failed then d
    else
      let next : AfterBrake := if d.flag q CMT_CTL_RESTART then .restart else .off
      (d.motorGo c 5).updMotor c fun m => { m with drive := .short 0x8000, after := next, measured := false })

/-! ### Braking and locked rotors (R392, R393) -/

/-- BRAKE_SPEED_WINDOW: the brake is released and the speed measured as `rpm`. -/
def execBrakeSpeedWindow (c : Fin 6) (rpm : BitVec 16) (s : State) : Host.Outcome State Fault Refusal :=
  .next (s.noting (.cmd (.brakeSpeedWindow c rpm)) fun s => s.dec fun _ d =>
    let m := d.motor c
    if d.motorState c ≠ 5 || !brakeWindow m.since d.gtime then d
    else (d.put (pgCmt c) CMT_SPEED_RPM rpm.toNat).updMotor c fun m => { m with measured := true, drive := .coast })

/-- BRAKE_STOPPED: the measured speed is below STOP_RPM. -/
def execBrakeStopped (c : Fin 6) (s : State) : Host.Outcome State Fault Refusal :=
  .next (s.noting (.cmd (.brakeStopped c)) fun s => s.dec fun _ d =>
    let q := pgCmt c
    let m := d.motor c
    if d.motorState c ≠ 5 || !m.measured || d.get q CMT_BRAKE_STOP_RPM ≤ d.get q CMT_SPEED_RPM then d
    else
      match m.after with
      | .command => (d.motorOff c).motorResult c 0
      | .restart => (d.alignMotor c).updMotor c fun m => { m with tries := 1 }
      | .off => (d.motorOff c).irq q CMT_IRQ_CMD_FAIL)

/-- BRAKE_TIMEOUT: not stopped within BRAKE_MAX_S Stones. -/
def execBrakeTimeout (c : Fin 6) (s : State) : Host.Outcome State Fault Refusal :=
  .next (s.noting (.cmd (.brakeTimeout c)) fun s => s.dec fun _ d =>
    let q := pgCmt c
    if d.motorState c ≠ 5 || d.gtime < (d.motor c).since + 256 * d.get q CMT_BRAKE_BRAKE_MAX_S then d
    else (d.motorFault c 2).irq q CMT_IRQ_CMD_FAIL)

/-- LOCKED_ROTOR: a duty above 0 and no commutation event for LOCK_G Grains in RUN or RAMP. -/
def execLockedRotor (c : Fin 6) (s : State) : Host.Outcome State Fault Refusal :=
  .next (s.noting (.cmd (.lockedRotor c)) fun s => s.dec fun _ d =>
    let q := pgCmt c
    let m := d.motor c
    let st := d.motorState c
    if (st ≠ 2 && st ≠ 3) || m.duty ≤ 0 || d.gtime < m.lastEvent + d.get q CMT_OBS_LOCK_G then d
    else ((d.motorFault c 2).irq q CMT_IRQ_LOCKED).fault q 0x0A03 false false [])

/-! ### Hall sensors (R394) -/

/-- HALL_EDGE captured at this edge, `at_` units into the Grain before it: the sensors show `code`. -/
def execHallEdge (c : Fin 6) (code : BitVec 3) (at_ : Fin 400) (s : State) : Host.Outcome State Fault Refusal :=
  .next (s.noting (.cmd (.hallEdge c code at_)) fun s => s.dec fun _ d =>
    let q := pgCmt c
    let d := d.updMotor c fun m => { m with hall := code.toNat }
    let m := d.motor c
    if d.motorState c ≠ 3 || !d.flag q CMT_CTL_HALL_EN || m.hallOff then d
    else
      let cur := d.sector c
      let ok := match d.hallSector c code.toNat with
        | some n => n == (cur + 1) % 6 || n == (cur + 5) % 6
        | none => false
      if ok then
        let t := (d.gtime - 1) * 400 + at_.val
        let d := d.put q CMT_STAT_SECTOR ((d.hallSector c code.toNat).getD cur)
        d.updMotor c fun m => { m.observe t d.gtime with
          commAt := (d.gtime + 1) * 400, turn := (m.turn + 1) % (6 * d.polePairs c), comms := m.comms + 1 }
      else
        let d := (d.irq q CMT_IRQ_HALL_FAULT).fault q 0x0A04 false false [code.toNat]
        if d.get q CMT_START1_HANDOVER_RPM < d.get q CMT_SPEED_RPM then
          (d.setB q CMT_STAT_OBS_LOCK true).updMotor c fun m => { m with hallOff := true }
        else d.motorFault c 5)

/-! ### Currents and the VMOT bus (R385, R386, R397 to R400) -/

/-- The phase currents U, V and W (R385). -/
def Dev.phaseCurrents (d : Dev) (c : Nat) (i : Int) (soft : Option (Int × Bool)) : List Int :=
  let n := d.sector c
  let p := sectorPhases n
  let old := sectorPhases (if d.motorDir c then n + 1 else n + 5)
  match soft with
  | some (j, incoming) =>
    let longer := if incoming then p.1 else old.1
    [0, 1, 2].map fun k => if k = longer then i else if k = p.2.1 then -j else j - i
  | none => [0, 1, 2].map fun k => if k = p.1 then i else if k = p.2.1 then -i else 0

/-- CURRENT_LIMIT: the shunt current `ma` at an instant within the Grain; above ILIM_MA the high side is off for the rest of
the PWM period (R386). -/
def execCurrentLimit (c : Fin 6) (at_ : Fin 400) (ma : BitVec 16) (s : State) : Host.Outcome State Fault Refusal :=
  .next (s.noting (.cmd (.currentLimit c at_ ma)) fun s => s.dec fun _ d =>
    let q := pgCmt c
    if ma.toNat ≤ d.get q CMT_ILIM_ILIM_MA then d
    else
      d.updMotor c fun m => { m with hiOffUntil := d.valley c (d.gtime * 400 + at_.val + 1) })

/-- CHOPPER_ON: a VMOT sample `mv` (R397). -/
def execChopperOn (mv : BitVec 16) (s : State) : Host.Outcome State Fault Refusal :=
  .next (s.noting (.cmd (.chopperOn mv)) fun s => s.both fun d =>
    if mv.toNat < d.get pgVbus VBUS_CHOP_CHOP_ON_MV || !d.flag pgVbus VBUS_CTL_CHOP_EN || d.flag pgRsv RSV_STAT_PF then d
    else d.setB pgVbus VBUS_STAT_CHOP_ON true)

/-- CHOPPER_OFF. -/
def execChopperOff (mv : BitVec 16) (s : State) : Host.Outcome State Fault Refusal :=
  .next (s.noting (.cmd (.chopperOff mv)) fun s => s.both fun d =>
    if d.get pgVbus VBUS_CHOP_CHOP_OFF_MV < mv.toNat then d else d.setB pgVbus VBUS_STAT_CHOP_ON false)

/-- Every channel that regenerates brakes by short circuit at the same strength (R398). -/
def Dev.stopRegen (d : Dev) : Dev :=
  (List.range 6).foldl (fun d c =>
    match (d.motor c).drive with
    | .regen b => d.updMotor c fun m => { m with drive := .short b }
    | _ => d) d

/-- CHOPPER_FAULT: the chopper current `ma` for `us` µs (R398). -/
def execChopperFault (ma us : BitVec 16) (s : State) : Host.Outcome State Fault Refusal :=
  .next (s.noting (.cmd (.chopperFault ma us)) fun s => s.dec fun _ d =>
    let on := d.flag pgVbus VBUS_STAT_CHOP_ON
    let least := d.get pgVbus VBUS_CHK_CHOP_IMIN_MA
    if on && ma.toNat < least && max 1 (d.get pgVbus VBUS_CHK_CHK_US) ≤ us.toNat then
      (((d.setB pgVbus VBUS_STAT_CHOP_FAULT true).irq pgVbus VBUS_IRQ_CHOP_FAULT).fault pgVbus 0x0A05 false false []).stopRegen
    else if !on && least < ma.toNat then
      (((d.setB pgVbus VBUS_STAT_CHOP_STUCK true).irq pgVbus VBUS_IRQ_CHOP_STUCK).fault pgVbus 0x0A05 false false []).stopRegen
    else d)

/-- All six channels enter FAULT with code OV at a reading of `mv` (R399). -/
def Dev.vmotTrip (d : Dev) (f : Fld) (mv : Nat) : Dev :=
  let d := (List.range 6).foldl (fun d c => d.motorFault c 4) d
  (((d.setB pgVbus VBUS_STAT_OV_TRIP true).irq pgVbus f).fault pgVbus 0x0A06 false false [mv])

/-- VMOT_LIMIT: OV_G Grains in a row at or above LIMIT_MV. -/
def execVmotLimit (s : State) : Host.Outcome State Fault Refusal :=
  .next (s.noting (.cmd .vmotLimit) fun s => s.dec fun _ d =>
    if d.cmt.ovCount < max 1 (d.get pgVbus VBUS_LIMIT_OV_G) then d
    else
      let d := d.vmotTrip VBUS_IRQ_VMOT_LIMIT (d.get pgVbus VBUS_VMAX_VMAX_MV)
      { d with cmt := { d.cmt with ovCount := 0 } })

/-- VMOT_ABSOLUTE: a VMOT sample `mv` at or above ABS_MV. -/
def execVmotAbsolute (mv : BitVec 16) (s : State) : Host.Outcome State Fault Refusal :=
  .next (s.noting (.cmd (.vmotAbsolute mv)) fun s => s.dec fun _ d =>
    if mv.toNat < min 40000 (d.get pgVbus VBUS_ABS_ABS_MV) then d else d.vmotTrip VBUS_IRQ_VMOT_ABS mv.toNat)

/-- GATE_FAULT: cause 0 VDS, 1 OC, 2 BOOT, 3 GATE_UV, 4 THERMAL (R400). -/
def execGateFault (c : Fin 6) (cause : Fin 5) (s : State) : Host.Outcome State Fault Refusal :=
  .next (s.noting (.cmd (.gateFault c cause)) fun s => s.dec fun _ d =>
    let q := pgCmt c
    let code := match cause.val with
      | 1 => 6
      | 4 => 7
      | _ => 3
    let d := (d.motorFault c code).updMotor c fun m => { m with cause := true }
    ((d.irq q CMT_IRQ_GATE_FAULT).setFault q true).fault q 0x0A07 false true [cause.val + 1])

/-! ### Every Grain, snapshots and resets -/

/-- A channel's currents, as captured at the edge (R385). -/
def Dev.motorCapture (d : Dev) (c : Nat) (i : MotorIn) : Dev :=
  let q := pgCmt c
  let mean := sext 16 i.mean.toNat
  let ph := d.phaseCurrents c mean (i.soft.map fun x => (sext 16 x.1.toNat, x.2))
  let d := ((d.put q CMT_CUR_I_PEAK_MA i.peak.toNat).putI q CMT_CUR_I_MEAN_MA mean)
  let d := ((d.putI q CMT_IPH0_IU (nthD ph 0 0)).putI q CMT_IPH0_IV (nthD ph 1 0)).putI q CMT_IPH1_IW (nthD ph 2 0)
  d.updMotor c fun m => { m with cmdTaken := false, cause := i.cause, lateAcc := m.lateAcc + b2n i.held }

/-- A channel's part in the decision phase: speed and angle, ramp, duty and drive. -/
def Dev.motorGrain (vis d : Dev) (c : Nat) : Dev :=
  let q := pgCmt c
  let m := d.motor c
  let now := d.gtime * 400
  match d.motorState c with
  | 2 =>
    if m.pause then d.updMotor c fun m => { m with lastEvent := d.gtime }
    else
      let k := d.gtime - m.since
      let g := max 1 (d.get q CMT_START0_RAMP_G)
      let a : Int := d.get q CMT_START1_START_RPM
      let b : Int := d.get q CMT_START1_HANDOVER_RPM
      let rpm := (a + (b - a) * (min k g : Nat) / g).toNat
      let acc := m.rampAcc + rpm * 24 * d.polePairs c
      if 60000000 ≤ acc then (d.advance c (now + 400)).updMotor c fun m => { m with rampAcc := acc - 60000000 }
      else d.updMotor c fun m => { m with rampAcc := acc }
  | 3 =>
    let d := (d.put q CMT_SPEED_RPM (min 0xFFFF (d.rpmOf c m.period))).put q CMT_SPEED_ANGLE (d.angleBin c now)
    let duty := towards m.duty (Dev.motorDemand vis d c) (d.get q CMT_DUTY_SLEW)
    let drive : Drive :=
      if duty = 0 || (duty < 0 && brakeWindow 0 d.gtime) then .coast
      else if duty < 0 then Dev.brakeDrive vis d c duty.natAbs
      else .motor duty.toNat
    d.updMotor c fun m => { m with duty := duty, drive := drive, lastEvent := if duty ≤ 0 then d.gtime else m.lastEvent }
  | 5 =>
    let b : Drive := if m.after == .command then Dev.brakeDrive vis d c 0x8000 else .short 0x8000
    d.updMotor c fun m => { m with drive := if brakeWindow m.since d.gtime then .coast else b }
  | _ => d

/-- The highest VMOT sample and the mean chopper current of the last Grain, as captured at the edge, and the Grains at or above LIMIT_MV and
below it (R396, R399); BRK_GATE is low while CHOP_EN is 0 (R397). -/
def Dev.vbusCapture (d : Dev) (vmax brk : BitVec 16) : Dev :=
  let d := (d.put pgVbus VBUS_VMAX_VMAX_MV vmax.toNat).put pgVbus VBUS_VMAX_BRK_MA brk.toNat
  let ovr := d.get pgVbus VBUS_LIMIT_LIMIT_MV ≤ vmax.toNat
  let d := { d with cmt := { d.cmt with ovCount := if ovr then d.cmt.ovCount + 1 else 0
                                        okCount := if ovr then 0 else d.cmt.okCount + 1 } }
  if d.flag pgVbus VBUS_CTL_CHOP_EN then d else d.setB pgVbus VBUS_STAT_CHOP_ON false

/-- The bus-wide conditions of regeneration show in REGEN_ALLOWED (R396). -/
def Dev.vbusGrain (vis d : Dev) : Dev := d.setB pgVbus VBUS_STAT_REGEN_ALLOWED (Dev.regenBus vis d)

/-- The snapshots of the channel pages (R40, R406). -/
def Dev.motorStone (d : Dev) : Dev :=
  (List.range 6).foldl (fun d c =>
    let m := d.motor c
    let d := ((d.put (pgCmt c) CMT_STONE_COMMS (min 0xFFFF m.comms)).put (pgCmt c) CMT_STONE_MISSED (min 255 m.missAcc)).put
      (pgCmt c) CMT_STONE_LATE (min 255 m.lateAcc)
    d.updMotor c fun m => { m with comms := 0, missAcc := 0, lateAcc := 0 }) d

/-- Main-supply loss: every channel not in FAULT brakes by short circuit at b = 1.0; the chopper is off (R402). -/
def Dev.motorsPowerFail (d : Dev) : Dev :=
  let d := (List.range 6).foldl (fun d c =>
    if d.motorState c = 6 then d else (d.motorGo c 5).updMotor c fun m => { m with drive := .short 0x8000, duty := 0 }) d
  d.setB pgVbus VBUS_STAT_CHOP_ON false

/-- Soft reset of a channel page (R405). -/
def Dev.motorReset (d : Dev) (c : Nat) : Dev := if d.motorState c = 6 then d.motorRelease c else d.motorOff c

end Sys2Proof.Machine
end

