-- ==== Sys2Proof/Machine/Power.lean ====
section
/-! DEFINITION. Power states: entries, aborts, rollbacks, wakes and the time bridge (chapter 14). -/

namespace Sys2Proof.Machine

open Sys2Proof

def Dev.updPwr (d : Dev) (f : Power → Power) : Dev := { d with pwr := f d.pwr }

/-! ### Domains and steps (R446, R447) -/

/-- The power domain of a page. -/
def domainOf (a : Nat) : Nat :=
  let g := a / 0x100000 % 0x100
  let i := a / 0x1000 % 0x100
  if a / 0x10000000 % 16 = 4 && a / 0x1000000 % 16 = 1 then if i = 0 then 19 else 20
  else
    match g with
    | 0 => 2
    | 1 => 10
    | 2 => if i = 1 then 1 else 10
    | 3 => 10
    | 4 => if i < 8 then 12 else if i < 16 then 13 else 14
    | 5 => 14
    | 6 => 11
    | 7 => 15
    | 8 => 16
    | 9 => 17
    | 10 => if i = 8 then 22 else 17
    | 11 => 17
    | 12 => 18
    | 13 => if i = 0 then 2 else 0
    | _ => 21

/-- The step at which a domain stops; 0 for a domain that no step stops. -/
def stepOfDomain (n : Nat) : Nat :=
  match n with
  | 4 | 5 | 6 | 7 => 1
  | 19 => 2
  | 18 => 3
  | 15 | 16 => 4
  | 17 | 22 | 23 => 5
  | 10 => 6
  | 12 | 13 | 14 => 7
  | 11 => 8
  | 21 => 9
  | 20 => 10
  | 3 => 11
  | 8 | 9 => 12
  | _ => 0

/-- The base addresses of the pages of the map. -/
def allPages : List Nat := pageMap.flatMap fun r => (List.range r.count).map fun k => r.base + k * 0x1000

/-- Step 8, PD11: the LPDDR5 devices enter self-refresh before it agrees, and leave it when it runs again (R259). -/
def Dev.selfRefresh (d : Dev) (s : Nat) (on : Bool) : Dev := if s = 8 then d.setB pgDdr DDR_STAT_SELF_REFRESH on else d

/-- Who answers PREPARE at a step: its pages, and the domains of cores and of the interconnect by their number. -/
def stepMembers (s : Nat) : List Nat :=
  match s with
  | 1 => [4, 5, 6, 7]
  | 11 => [3]
  | 12 => [8, 9]
  | _ => allPages.filter fun a => stepOfDomain (domainOf a) == s

/-- The delays of a step in Grains: wake from SLEEP, wake from DEEP, rollback. -/
def stepDelays (s : Nat) : Nat × Nat × Nat :=
  match s with
  | 1 => (5, 25, 1)
  | 4 => (10, 50, 2)
  | 5 => (5, 50, 2)
  | 8 => (25, 50, 25)
  | _ => (2, 25, 1)

/-- Is a domain ON: not stopped, and DCLK running? -/
def Dev.domainOn (d : Dev) (n : Nat) : Bool :=
  match d.pwr.phase with
  | .asleep | .off => n < 2
  | _ => stepOfDomain n == 0 || !bit d.pwr.stopped (stepOfDomain n)

/-! ### Answers (R451, R452) -/

/-- What a member of a step answers: 1 AGREE, 2 DELAY, 3 REFUSE, with the reason. `busy`: a condition outside the registers
holds it (a core that does not wait, a transfer in flight, a test or calibration that runs). -/
def Dev.pageAnswer (d : Dev) (who : Nat) (busy : Bool) : Nat × Nat :=
  let delay (b : Bool) : Nat × Nat := if b || busy then (2, 0) else (1, 0)
  if who < 32 then delay false
  else if d.get who PG_PWR_POL_POLICY = 1 then (3, 1)
  else
    let k := who / 0x1000 % 0x100
    match stepOfDomain (domainOf who) with
    | 2 => if d.flag pgPcie PCIE_STAT_DL_UP && !d.flag pgPcie PCIE_STAT_L2_READY then (3, 8) else delay false
    | 3 => delay (who == pgBush && d.ud.running.isSome)
    | 4 =>
      if who = pgWenc then delay (d.flag pgWenc ENC_STAT_BUSY)
      else if who = pgFthx then delay (d.flag pgFthx FTHX_ITER_STAT_BUSY)
      else if who < pgFthx then delay ((d.fthc k).job.isSome || d.flag pgFthx FTHX_ITER_STAT_BUSY)
      else if who < pgWenc then delay (d.port k).job.isSome
      else delay (who == pgWarc && !d.owp.commits.isEmpty)
    | 5 =>
      if who = pgEll 0 || who = pgEll 1 then if d.ellRefuses k then (3, 2) else delay false
      else if pgCmt 0 ≤ who && who < pgVbus then
        let st := d.get who CMT_STAT_STATE
        if 1 ≤ st && st ≤ 4 then (3, 3) else delay (st == 5)
      else if pgAx 0 ≤ who && who < pgCenc then
        let st := d.get who CHN_STAT_STATE
        if 2 ≤ st && st ≤ 5 then (3, 4) else delay false
      else delay false
    | 6 =>
      if who = pgLdg then
        if d.flag pgLdg LDG_CTL_ACCEPT_EN then (3, 6)
        else delay (!d.ldg.tasks.isEmpty)
      else if pgFk 0 ≤ who && who < pgCv 0 then delay (d.flag who FK_STAT_HELD)
      else if who = pgChk then delay (d.stg.signing.isSome || d.nextSeal.isSome)
      else if who = pgRsv then delay (d.flag pgBank BANK_STAT_MEAS_BUSY)
      else delay false
    | 7 =>
      if pgBay 0 ≤ who && who < pgFsch then
        let st := d.get who BAY_STAT_STATE
        if st = 1 || st = 2 || st = 3 || st = 6 then (3, 7) else delay false
      else if who < pgBay 0 then delay ((d.chan k).ops.any fun o => o.cls ≤ 4 || o.stage != .queued)
      else delay false
    | 8 =>
      let armed := (List.range 32).any fun c =>
        (d.flag (pgUd c) UD_STAT_ARMED || d.flag (pgUd c) UD_STAT_PENDING)
          && (2 ^ 35 ≤ d.get64 (pgUd c) UD_SRC_LO UD_SRC_HI || 2 ^ 35 ≤ d.get64 (pgUd c) UD_DST_LO UD_DST_HI)
      if armed then (3, 5) else delay (who == pgMc && (d.mc.miss.isSome || !d.mc.prefetch.isEmpty))
    | 9 => delay (!d.prt.testing.isEmpty || !d.cal.running.isEmpty)
    | 10 => delay ((who == pgAcc && d.lnk.accRun.isSome) || (who == pgPmb && d.lnk.pmbRun.isSome))
    | _ => delay false

/-! ### Entries (R448 to R450) -/

/-- Write a request to the pages of a step: 0 NONE, 1 PREPARE, 2 COMMIT, 3 ABORT, 4 WAKE. -/
def Dev.pwrRequest (d : Dev) (s req : Nat) : Dev :=
  (stepMembers s).foldl (fun d a =>
    if a < 32 then d
    else d.wr (a + PG_PWR_REQ.off) (BitVec.ofNat 32 (req * 2 ^ 28 + d.pwr.target * 2 ^ 24 + d.pwr.seq % 2 ^ 16))) d

def Dev.pwrStep (d : Dev) (s : Nat) : Dev := d.put pgPwr PWR_STAT_STEP s

/-- PREPARE is staged for step `s`, or COMMIT once every step has agreed; a step that has stopped already is passed. -/
def Dev.pwrPrepare (d : Dev) : Nat → Nat → Dev
  | 0, _ => (d.updPwr fun p => { p with phase := .commit }).pwrStep 0
  | f + 1, s =>
    if (if d.pwr.target = 1 then 1 else 12) < s then (d.updPwr fun p => { p with phase := .commit }).pwrStep 0
    else if bit d.pwr.stopped s then d.pwrPrepare f (s + 1)
    else ((d.updPwr fun p => { p with phase := .entry s (d.gtime + 1), answers := [] }).pwrRequest s 1).pwrStep s

/-- An entry starts from step 1. -/
def Dev.pwrStart (d : Dev) : Dev :=
  let d := d.updPwr fun p => { p with seq := (p.seq + 1) % 2 ^ 16, retry := false, refused := none }
  (d.pwrPrepare 13 1).setB pgPwr PWR_STAT_BUSY true

/-- PWR_GO: a write of `v` to PWR_CTL with GO. -/
def execPwrGo (r : Requester) (v : Word) (s : State) : Host.Outcome State Fault Refusal :=
  .next (s.noting (.pwrGo r v) fun s => s.dec fun _ d =>
    let d := (d.put pgPwr PWR_CTL_TARGET (bits v.toNat 24 3)).put pgPwr PWR_CTL_WAKE_TO (bits v.toNat 0 1)
    let t := bits v.toNat 24 3
    if t = 0 || 4 < t || !d.enabled pgPwr || d.sliceBad 155 then d
    else if d.pwr.phase != .awake then d.errAt pgPwr PWR_CTL .entryBusy r
    else (d.updPwr fun p => { p with target := t, retries := 0 }).pwrStart)

/-- The device is awake again after a rollback: RUN, or IDLE where step 1 was stopped before; a retry may wait. -/
def Dev.pwrResume (d : Dev) : Dev :=
  let d := d.pwrStep 0
  if d.pwr.retry then d.updPwr fun p => { p with phase := .retryWait }
  else (d.updPwr fun p => { p with phase := .awake }).setB pgPwr PWR_STAT_BUSY false

/-- REFUSALS accounting: one more aborted entry, and the PG_ID of the refusing page or 0 (R464). -/
def Dev.pwrAccount (d : Dev) (page : Nat) : Dev :=
  if d.flag pgPwr PWR_CFG_ACCT then (d.inc pgPwr PWR_ACCT0_ACCT).put pgPwr PWR_ACCT1_ACCT page else d

/-- An abort with its reason; `page` is the PG_ID of a refusing page (R450). Before the edge of a staged COMMIT every step has
stopped and none is failing. -/
def Dev.pwrAbort (d : Dev) (reason : Nat) (page : Option Nat) : Dev :=
  let failing := match d.pwr.phase with
    | .entry s _ => some s
    | .commit => some (if d.pwr.target = 1 then 2 else 13)
    | _ => none
  match failing with
  | some s =>
    let d := if d.pwr.phase == .commit then d else (d.pwrRequest s 3).selfRefresh s false
    let d := (d.put pgPwr PWR_STAT_LAST_REASON reason).irq pgPwr PWR_IRQ_ABORTED
    let d := d.pwrAccount (page.getD 0)
    let again := reason < 11 && d.pwr.retries < d.get pgPwr PWR_CFG_RETRY_N
    let first := if d.pwr.idle then 2 else 1
    let d := d.updPwr fun p => { p with retry := again, abortAt := d.gtime, refused := page, answers := [] }
    if s ≤ first then d.pwrResume
    else (d.updPwr fun p => { p with phase := .rollback s (s - 1) (d.gtime + 1) }).pwrStep (s - 1)
  | none => d

/-- PWR_ANSWER of `who`, a page's address or the number of a core domain: captured and decided. -/
def execPwrAnswer (who : Nat) (busy : Bool) (s : State) : Host.Outcome State Fault Refusal :=
  .next (s.noting (.pwrAnswer who busy) fun s => s.dec fun vis d =>
    let a := vis.pageAnswer who busy
    let post (d : Dev) : Dev :=
      if who < 32 then d
      else d.wr (who + PG_PWR_RESP.off) (BitVec.ofNat 32 (a.1 * 2 ^ 30 + a.2 * 2 ^ 16 + d.pwr.seq % 2 ^ 16))
    match d.pwr.phase with
    | .entry s since =>
      if !(stepMembers s).contains who || d.gtime ≤ since then d
      else
        let d := post d
        if a.1 = 3 then d.pwrAbort a.2 (some (pgIdOf who))
        else
          let old := d.pwr.answers.find? (·.1 == who)
          let since := match old with
            | some o => if o.2.1 = a.1 then o.2.2 else d.gtime
            | none => d.gtime
          let l := (who, a.1, since) :: d.pwr.answers.filter (·.1 != who)
          let d := d.updPwr fun p => { p with answers := l }
          let d := if who = pgDdr && a.1 = 1 then d.selfRefresh s true else d
          if (stepMembers s).all fun m => l.any fun o => o.1 == m && o.2.1 == 1 then
            (d.updPwr fun p => { p with stopped := setBits p.stopped s 1 1 }).pwrPrepare 13 (s + 1)
          else d
    | .rollback s _ _ =>
      match d.pwr.refused with
      | some p0 =>
        if d.pwr.abortAt = d.gtime && a.1 = 3 && (stepMembers s).contains who && pgIdOf who < p0 then
          let d := (post d).updPwr fun p => { p with refused := some (pgIdOf who) }
          let d := d.put pgPwr PWR_STAT_LAST_REASON a.2
          if d.flag pgPwr PWR_CFG_ACCT then d.put pgPwr PWR_ACCT1_ACCT (pgIdOf who) else d
        else d
      | none => d
    | _ => d)

/-- PWR_NO_ANSWER: a member has not answered by the 64th Grain after its PREPARE edge. -/
def execPwrNoAnswer (s : State) : Host.Outcome State Fault Refusal :=
  .next (s.noting (.cmd .pwrNoAnswer) fun s => s.dec fun _ d =>
    match d.pwr.phase with
    | .entry s since =>
      let silent := (stepMembers s).any fun m => !(d.pwr.answers.any (·.1 == m))
      if since + 64 ≤ d.gtime && silent then d.pwrAbort 9 none else d
    | _ => d)

/-- PWR_DELAY_LIMIT: a member has answered DELAY for more than DELAY_MAX_G Grains. -/
def execPwrDelayLimit (s : State) : Host.Outcome State Fault Refusal :=
  .next (s.noting (.cmd .pwrDelayLimit) fun s => s.dec fun _ d =>
    let lim := max 1 (d.get pgPwr PWR_CFG_DELAY_MAX_G)
    match d.pwr.phase with
    | .entry _ _ =>
      if d.pwr.answers.any fun o => o.2.1 == 2 && decide (o.2.2 + lim < d.gtime) then d.pwrAbort 10 none else d
    | _ => d)

/-- PWR_RETRY: RETRY_S Stones after the abort the entry starts again (R450). -/
def execPwrRetry (s : State) : Host.Outcome State Fault Refusal :=
  .next (s.noting (.cmd .pwrRetry) fun s => s.dec fun _ d =>
    if d.pwr.phase != .retryWait || d.gtime < d.pwr.abortAt + 256 * max 1 (d.get pgPwr PWR_CFG_RETRY_S) then d
    else (d.updPwr fun p => { p with retries := p.retries + 1 }).pwrStart)

/-- ROLLBACK_STEP: the rollback delay of the step being re-woken has passed (R447). -/
def execRollbackStep (s : State) : Host.Outcome State Fault Refusal :=
  .next (s.noting (.cmd .rollbackStep) fun s => s.dec fun _ d =>
    match d.pwr.phase with
    | .rollback f st t =>
      if d.gtime + 1 < t + (stepDelays st).2.2 then d
      else
        let d := ((d.updPwr fun p => { p with stopped := setBits p.stopped st 1 0 }).pwrRequest st 0).selfRefresh st false
        if st ≤ (if d.pwr.idle then 2 else 1) then d.pwrResume
        else (d.updPwr fun p => { p with phase := .rollback f (st - 1) (d.gtime + 1) }).pwrStep (st - 1)
    | _ => d)

/-- PWR_COMMIT: the edge that carries COMMIT. IDLE stops step 1 alone; in SLEEP and DEEP DCLK stops and GTIME holds. -/
def execPwrCommit (s : State) : Host.Outcome State Fault Refusal :=
  .next (s.noting (.cmd .pwrCommit) fun s => s.both fun d =>
    if d.pwr.phase != .commit || d.pwr.target = 4 then d
    else if d.pwr.target = 1 then
      let d := (d.updPwr fun p => { p with phase := .awake, idle := true }).put pgPwr PWR_STAT_STATE 1
      d.setB pgPwr PWR_STAT_BUSY false
    else
      let d := ((List.range 13).foldl (fun d s => d.pwrRequest s 2) d).motionAsleep
      (d.updPwr fun p => { p with phase := .asleep, idle := false, ruleWake := false, gtimeCommit := d.gtime, aonCommit := p.aonT }).setB pgPwr
        PWR_STAT_BUSY false)

/-! ### The bridge (R457) -/

/-- g, the new carry, and unc for `t` ticks. -/
def bridge (t : Nat) (e : Int) (carry tol : Nat) : Nat × Nat × Nat :=
  let num := (t * 15625 * (1000000000 - e) + carry).toNat
  let g := num / 2048000000000
  (g, num % 2048000000000, ceilDiv (g * tol) 1000000 + 8)

/-- GTIME is advanced at the restart of DCLK, `t` ticks after COMMIT. -/
def Dev.applyBridge (d : Dev) (t : Nat) : Dev :=
  let b := bridge t (d.getI pgPwr PWR_AON_ERR_VALUE) d.pwr.carry (d.get pgPwr PWR_CFG_AON_TOL_PPM)
  let d := { d with tb := { d.tb with gtime := BitVec.ofNat 64 (d.pwr.gtimeCommit + b.1) } }
  let d := d.updPwr fun p => { p with carry := b.2.1, aonT := (p.aonCommit + t) % 2 ^ 48 }
  let d := ((d.put64 pgPwr PWR_BRIDGE_LO_VALUE PWR_BRIDGE_HI_VALUE b.1).put pgPwr PWR_BRIDGE_UNC_VALUE b.2.2).setB pgTb
    TB_STAT_BRIDGED true
  let d := d.put64 pgPwr PWR_AON_T_LO_VALUE PWR_AON_T_HI_VALUE d.pwr.aonT
  d.fault pgPwr 0x0D01 false false [t, t / 2 ^ 32, b.1, b.1 / 2 ^ 32]

/-! ### Stamps of missed minutes (R462) -/

/-- The stamp ring of lane entry `e`: address of the stamp of minute `k`. -/
def stampAt (e k : Nat) : Nat := 0x8000 + e * 512 + k % 64 * 8

/-- The stamps held by entry `e`: minute and length. A word of zeros is no stamp; of the minute 24 bits are stored, and it is the latest
one that they can stand for. -/
def Dev.stamps (d : Dev) (e : Nat) : List (Nat × Nat) :=
  let now := d.gtime / 15000000
  ((List.range 64).map fun i => leNat (memRead d.aon (0x8000 + e * 512 + i * 8) 8)).filterMap fun w =>
    if w = 0 then none else some (now - (now + 2 ^ 24 - w / 2 ^ 40) % 2 ^ 24, w % 2 ^ 40)

/-- The newest stamp before minute `m` (at most `m` − 1), and the oldest of all. -/
def newestBefore (m : Int) (l : List (Nat × Nat)) : Option (Nat × Nat) :=
  l.foldl (fun (a : Option (Nat × Nat)) x =>
    if m ≤ x.1 then a
    else match a with
      | some y => if y.1 < x.1 then some x else a
      | none => some x) none

def oldestStamp (l : List (Nat × Nat)) : Option (Nat × Nat) :=
  l.foldl (fun (a : Option (Nat × Nat)) x =>
    match a with
    | some y => if x.1 < y.1 then some x else a
    | none => some x) none

/-- The word of lane-table entry `e`. -/
def Dev.laneEntry (d : Dev) (e : Nat) : Nat := (d.rd (pgLane + 4 * e)).toNat

/-- The length that a stamp of entry `e` takes: of the lane's open context, else of the previous stamp. -/
def Dev.stampLength (d : Dev) (e : Nat) : Nat :=
  let lane := bits (d.laneEntry e) 0 20
  match d.ldg.ctxs.find? fun c => c.2.lane == lane && c.2.state != .free with
  | some c => c.2.length
  | none => ((newestBefore (d.gtime / 15000000 + 1) (d.stamps e)).map (·.2)).getD 0

/-- Write the stamp of minute `k` with length `n`. -/
def Dev.putStamp (d : Dev) (e k n : Nat) : Dev :=
  { d with aon := memWrite d.aon (stampAt e k) (leBytes 8 (n % 2 ^ 40 + k % 2 ^ 24 * 2 ^ 40)) }

/-- The stamps of minute `k` for every valid entry. -/
def Dev.minuteStamps (d : Dev) (k : Nat) : Dev :=
  (List.range 64).foldl (fun d e => if bit (d.laneEntry e) 31 then d.putStamp e k (d.stampLength e) else d) d

/-- The minutes whose boundary fell within a sleep, at most the 64 newest. -/
def Dev.fillStamps (d : Dev) : Dev :=
  let a := d.pwr.gtimeCommit / 15000000
  let b := d.gtime / 15000000
  let from_ := max (a + 1) (b + 1 - 64)
  (List.range (b + 1 - from_)).foldl (fun d i => d.minuteStamps (from_ + i)) d

/-! ### Waking (R454, R455) -/

/-- The sources that a state takes besides the power-fail line, which IDLE and an entry take as a supply loss (R453, R454). -/
def wakeMask (st : Nat) : Nat :=
  match st with
  | 1 => 0x27E
  | 2 | 3 => 0x1FE
  | _ => 0x002

/-- Enabled sources among `src`; a RULE wake counts only if Scruple raised it. -/
def Dev.wakeSources (d : Dev) (st src : Nat) : Nat :=
  let on := src &&& wakeMask st &&& d.get pgPwr PWR_WAKE_EN_SRC
  if d.pwr.ruleWake then on else setBits on 6 1 0

/-- DCLK restarts `t` ticks after COMMIT, one at least (R455): time is bridged, missed minutes are stamped, and the wake runs from step 12; for a
supply loss (`loss`) it takes the steps 12, 11, 7 and 6 alone (R453). -/
def Dev.wakeUp (d : Dev) (src t : Nat) (loss : Bool) : Dev :=
  let d := (d.applyBridge (max 1 t)).fillStamps
  let d := { d with cal := { d.cal with woken := !loss } }
  let marks := d.scr.asleep.map fun q =>
    let at_ := leNat (memRead d.aon (0x2000 + q * 1024) 6)
    (q, d.pwr.gtimeCommit + (bridge (at_ - d.pwr.aonCommit) (d.getI pgPwr PWR_AON_ERR_VALUE) 0 0).1)
  let d := { d with scr := { d.scr with times := d.scr.times ++ marks, asleep := [] } }
  let d := d.put pgPwr PWR_WAKE_SRC_SRC src
  let d := if d.flag pgPwr PWR_CFG_ACCT then d
    else (d.put pgPwr PWR_ACCT0_ACCT ((lowestOne 10 src).getD 0)).put pgPwr PWR_ACCT1_ACCT d.gtime
  let d := d.updPwr fun p => { p with phase := .waking 12 d.gtime, lossWake := loss, ruleWake := false, stopped := 0x1FFE }
  (d.pwrRequest 12 4).pwrStep 12

/-- WAKE with the sources captured at the tick; in SLEEP and DEEP DCLK restarts `t` ticks after COMMIT. In RUN a source does
nothing, during an entry it aborts it (R449), from IDLE step 1 is brought up. -/
def Dev.wake (d : Dev) (sources : Nat) (t : Nat) : Dev :=
  match d.pwr.phase with
  | .asleep =>
    let src := d.wakeSources d.pwr.target sources
    if bit sources 0 && d.rsv.pfLine then d.wakeUp (src ||| 1) t true else if src = 0 then d else d.wakeUp src t false
  | .entry _ _ | .commit => if d.wakeSources d.pwr.target sources = 0 then d else d.pwrAbort 11 none
  | .awake =>
    let src := d.wakeSources 1 sources
    if !d.pwr.idle || src = 0 then d
    else
      let d := d.put pgPwr PWR_WAKE_SRC_SRC src
      let d := if d.flag pgPwr PWR_CFG_ACCT then d
        else (d.put pgPwr PWR_ACCT0_ACCT ((lowestOne 10 src).getD 0)).put pgPwr PWR_ACCT1_ACCT d.gtime
      ((d.updPwr fun p => { p with phase := .waking 1 (d.gtime + 1), ruleWake := false, idle := false }).pwrRequest 1 4).pwrStep 1
  | _ => d

/-- WAKE. -/
def execWake (sources : BitVec 10) (t : Nat) (s : State) : Host.Outcome State Fault Refusal :=
  .next (s.noting (.wake sources t) fun s => if s.cur.pwr.phase == .asleep then s.both fun d => d.wake sources.toNat t else s.dec fun _ d => d.wake sources.toNat t)

/-- WAKE_TIMER_EXPIRY, `t` ticks after COMMIT. -/
def execWakeTimerExpiry (t : Nat) (s : State) : Host.Outcome State Fault Refusal :=
  .next (s.noting (.wakeTimerExpiry t) fun s => s.both fun d =>
    let n := d.get pgPwr PWR_WAKE_TMR_TICKS
    if d.pwr.phase != .asleep || n = 0 || t < n then d else d.wake 0x80 t)

/-- AXn_DIR and AXn_EN of general axis `n`: DIR_INV inverts the direction; EN is high while the axis is not OFF and its domain is on (R410, R411, R429). -/
def Dev.axisPins (d : Dev) (n : Nat) : Bool × Bool :=
  (d.flag (pgAx n) CHN_STAT_DIR != d.flag (pgAx n) CHN_CTL_DIR_INV, d.axisState n != 0 && d.domainOn 17)

/-- What a wake does in the domains of step `s`: read channels restart their rotation, ports are IDLE, axes that were not OFF
are IDLE and energised with REF cleared (R307, R374, R429). -/
def Dev.stepWoken (d : Dev) (s : Nat) : Dev :=
  match s with
  | 4 => (List.range 5).foldl (fun d k => (d.updFth k fun c => { c with step := 0, stepAt := none }).setStale (pgFth k) true) d
  | 5 =>
    let d := (List.range 4).foldl (fun d p => d.portRest p) d
    d.motionWoken
  | _ => d.selfRefresh s false

/-- The last step of the wake: 1, 2 where the wake goes to IDLE, 6 behind a supply loss. -/
def Dev.lastStep (d : Dev) : Nat := if d.pwr.lossWake then 6 else if d.pwr.target != 1 && d.flag pgPwr PWR_CTL_WAKE_TO then 2 else 1

/-- WAKE_STEP: the wake delay of the step has passed and the next step's domains are brought up (R447). -/
def execWakeStep (s : State) : Host.Outcome State Fault Refusal :=
  .next (s.noting (.cmd .wakeStep) fun s => s.dec fun _ d =>
    match d.pwr.phase with
    | .waking st t =>
      let dl := if d.pwr.target = 3 then (stepDelays st).2.1 else (stepDelays st).1
      if st ≤ d.lastStep || d.gtime + 1 < t + dl then d
      else
        let d := (((d.updPwr fun p => { p with stopped := setBits p.stopped st 1 0 }).stepWoken st).pwrRequest st 0)
        let next := if d.pwr.lossWake && st = 11 then 7 else st - 1
        ((d.updPwr fun p => { p with phase := .waking next (d.gtime + 1) }).pwrRequest next 4).pwrStep next
    | _ => d)

/-- WAKE_COMPLETE: the last step has ended (R455). Behind a supply loss the other steps stay down. -/
def execWakeComplete (s : State) : Host.Outcome State Fault Refusal :=
  .next (s.noting (.cmd .wakeComplete) fun s => s.dec fun _ d =>
    match d.pwr.phase with
    | .waking st t =>
      let dl := if d.pwr.target = 3 then (stepDelays st).2.1 else (stepDelays st).1
      if d.lastStep < st || d.gtime + 1 < t + dl then d
      else
        let d := ((d.updPwr fun p => { p with stopped := setBits p.stopped st 1 0 }).stepWoken st).pwrRequest st 0
        let d := d.updPwr fun p => { p with phase := .awake, idle := decide (st = 2), lossWake := false }
        let state := match d.pwr.target with
          | 2 => 2
          | 3 => 3
          | _ => 0
        if st = 6 then d.pwrStep 0 else ((d.put pgPwr PWR_STAT_STATE state).irq pgPwr PWR_IRQ_WOKEN).pwrStep 0
    | _ => d)

/-- PWR_BRIDGE_LO_READ. -/
def execPwrBridgeLoRead (r : Requester) (s : State) : Host.Outcome State Fault Refusal :=
  .next (s.noting (.pwrBridgeLoRead r) fun s => s.both fun d => d.latch r (pgPwr + PWR_BRIDGE_HI.off) (s.vis.rd (pgPwr + PWR_BRIDGE_LO.off))
    (s.vis.rd (pgPwr + PWR_BRIDGE_HI.off)))

/-- PWR_AON_T_LO_READ. -/
def execPwrAonTLoRead (r : Requester) (s : State) : Host.Outcome State Fault Refusal :=
  .next (s.noting (.pwrAonTLoRead r) fun s => s.both fun d => d.latch r (pgPwr + PWR_AON_T_HI.off) (s.vis.rd (pgPwr + PWR_AON_T_LO.off))
    (s.vis.rd (pgPwr + PWR_AON_T_HI.off)))

end Sys2Proof.Machine
end

