-- ==== Sys2Proof/Machine/Scruple.lean ====
section
/-! DEFINITION. The sentinel Scruple: signals, filters, rules, log and evidence marks (chapter 14). -/

namespace Sys2Proof.Machine

open Sys2Proof

def Dev.updScr (d : Dev) (f : Scruple → Scruple) : Dev := { d with scr := f d.scr }

def Dev.scrRule (d : Dev) (r : Nat) : ScrRule := (d.scr.rules[r]?).getD {}

/-! ### Registers of a rule (R465) -/

/-- Field `f` of rule `r`, at word 0 (SCR_RULE_A), 1 (SCR_RULE_B) or 2 (SCR_RULE_STAT). -/
def ruleFld (r word : Nat) (f : Fld) : Fld := { f with off := 0x40 + 16 * r + 4 * word }

def Dev.ruleA (d : Dev) (r : Nat) (f : Fld) : Nat := d.get pgRule (ruleFld r 0 f)
def Dev.ruleB (d : Dev) (r : Nat) (f : Fld) : Nat := d.get pgRule (ruleFld r 1 f)

/-- A write of SCR_RULE_A (`b` false) or SCR_RULE_B of the selected rule; the rule is armed again (R460). -/
def Dev.ruleWrite (d : Dev) (b : Bool) (v : Word) : Dev :=
  let r := d.get pgScr SCR_RULE_SEL_RULE
  let d := if b then d.wr (pgRule + 0x44 + 16 * r) (v &&& 0xFFFFBFFF) else d.wr (pgRule + 0x40 + 16 * r) (v &&& 0xFFFCFFFF)
  let m := d.ruleB r SCR_RULE_B_MARK_MIN
  let d := if b && (m = 0 || 60 < m) then d.put pgRule (ruleFld r 1 SCR_RULE_B_MARK_MIN) (clampN 1 60 m) else d
  d.put pgRule (ruleFld r 2 SCR_RULE_STAT_ARMED) 1

/-- SCR_RULE_WRITE. -/
def execScrRuleWrite (b : Bool) (v : Word) (s : State) : Host.Outcome State Fault Refusal :=
  .next (s.noting (.scrRuleWrite b v) fun s => s.dec fun _ d => d.ruleWrite b v)

/-- SCR_FILT_WRITE: the filter's state becomes 0 (R459). -/
def execScrFiltWrite (f : Fin 8) (v : Word) (s : State) : Host.Outcome State Fault Refusal :=
  .next (s.noting (.scrFiltWrite f v) fun s => s.dec fun _ d =>
    (d.wr (pgScr + SCR_FILT.off + 4 * f.val) (v &&& 0x1FCF)).updScr fun c => { c with lp := c.lp.setIfInBounds f 0 })

/-- SCR_LANE_DATA_WRITE: the entry is set and its stamp ring cleared (R465). -/
def execScrLaneDataWrite (v : Word) (s : State) : Host.Outcome State Fault Refusal :=
  .next (s.noting (.scrLaneDataWrite v) fun s => s.dec fun _ d =>
    let e := bits (d.get pgScr SCR_LANE_SEL_SEL) 0 6
    { d.wr (pgLane + 4 * e) (v &&& 0x8FFFFFFF) with aon := memWrite d.aon (0x8000 + e * 512) (List.replicate 512 0) })

/-- SCR_OUT_CLEAR: bits of SCR_OUT written 1 lower their pins. -/
def execScrOutClear (v : Word) (s : State) : Host.Outcome State Fault Refusal :=
  .next (s.noting (.scrOutClear v) fun s => s.dec fun _ d => d.put pgScr SCR_OUT_OUT (d.get pgScr SCR_OUT_OUT &&& (3 ^^^ bits v.toNat 0 2)))

/-- SCR_MARK_ACK_WRITE: slots written 1 become free. -/
def execScrMarkAckWrite (v : Word) (s : State) : Host.Outcome State Fault Refusal :=
  .next (s.noting (.scrMarkAckWrite v) fun s => s.dec fun _ d =>
    let free := bits v.toNat 0 16
    let left := d.get pgScr SCR_MARK_SLOTS &&& (0xFFFF ^^^ free)
    let d := (d.put pgScr SCR_MARK_SLOTS left).put pgScr SCR_MARK_ACK_SLOTS left
    d.updScr fun c => { c with times := c.times.filter fun t => bit left t.1, asleep := c.asleep.filter (bit left ·) })

/-! ### A period (R458 to R461) -/

/-- What the samplers show in a period: the three axes, the ignition comparator, VMOT and VHOLD in 2 mV, the two die
temperatures in 0.25 °C. -/
abbrev ScrSample : Type := List Int

/-- One filter's new state. -/
def filterStep (lp x : Int) (k : Nat) : Int := lp + (x * 2 ^ 16 - lp) / 2 ^ k

/-- A filter's output (R459). -/
def filterOut (mode : Nat) (lp x : Int) : Int :=
  let low := lp / 2 ^ 16
  satI 16 (match mode with
    | 1 => x - low
    | 2 => (x - low).natAbs
    | _ => low)

/-- Filter `f`'s source code: 0x00 to 0x08, others taken as 0x00. -/
def Dev.filterSrc (d : Dev) (f : Nat) : Nat :=
  let s := d.get pgScr (SCR_FILT_SRC.idx f)
  if s ≤ 8 then s else 0

def Dev.signal (d : Dev) (i : Nat) : Int := (d.scr.signals[i]?).getD 0

/-- The present output of filter `f`. -/
def Dev.filterValue (d : Dev) (f : Nat) : Int :=
  filterOut (d.get pgScr (SCR_FILT_MODE.idx f)) ((d.scr.lp[f]?).getD 0) (d.signal (d.filterSrc f))

/-- The value of a signal code (R458). -/
def Dev.operand (d : Dev) (code : Nat) : Int :=
  if code ≤ 8 then d.signal code else if 0x10 ≤ code && code < 0x18 then d.filterValue (code - 0x10) else 0

/-- SCR_SIG_DATA. -/
def Dev.sigDataView (d : Dev) : Word := BitVec.ofInt 32 (d.operand (bits (d.get pgScr SCR_SIG_SEL_SEL) 0 5))

/-- The state that rules see: 0 RUN, 1 IDLE, 2 SLEEP, 3 DEEP. -/
def Dev.scrState (d : Dev) : Nat :=
  if d.pwr.phase == .asleep then d.pwr.target else if d.pwr.idle then 1 else 0

/-- Is the present state among a rule's STATES? -/
def statesHold (st states : Nat) : Bool :=
  match st with
  | 2 => bit states 1
  | 3 => bit states 0
  | _ => bit states 2

/-- Capture of the signals (R458); IGN follows a level seen in 8 consecutive samples. -/
def Dev.captureSignals (d : Dev) (x y z : Int) (ign : Bool) (vmot vhold tl tp : Int) : Dev :=
  let sum : Int := min 32767 (x.natAbs + y.natAbs + z.natAbs : Nat)
  let old := d.signal 4
  let lvl : Int := b2n ign
  let n := if lvl = old then 0 else d.scr.ignRun + 1
  let ig := if 8 ≤ n then lvl else old
  let l := [x, y, z, sum, ig, vmot, vhold, tl, tp]
  d.updScr fun c => { c with signals := Vector.ofFn fun i => nthD l i 0, ignRun := if 8 ≤ n then 0 else n }

/-- One rule in one period (R460): the device and the rules that fired so far with their operands. -/
def Dev.evalRule (d : Dev) (effPrev : Bool) (r : Nat) : Dev × Bool × Option Int :=
  let v := d.operand (d.ruleA r SCR_RULE_A_OPND)
  let t := sext 16 (d.ruleA r SCR_RULE_A_THRESH)
  let x := d.scrRule r
  let cmp := d.ruleA r SCR_RULE_A_CMP
  let c : Bool := match cmp with
    | 1 => decide (t < v)
    | 2 => decide (v < t)
    | 3 => decide (v = t)
    | 4 => decide (t < (v - x.prev).natAbs)
    | _ => false
  let hold := max 1 (d.ruleB r SCR_RULE_B_HOLD)
  let run := if c then x.run + 1 else 0
  let h := decide (hold ≤ run)
  let off := cmp = 0 || 4 < cmp
  let link := if r = 0 then 0 else d.ruleA r SCR_RULE_A_LINK
  let eff := !off && (if link = 1 then h && effPrev else if link = 2 then h || effPrev else h)
  let armed := d.get pgRule (ruleFld r 2 SCR_RULE_STAT_ARMED) == 1
  let fire := eff && !x.eff && armed && statesHold d.scrState (d.ruleA r SCR_RULE_A_STATES)
  let idle := if eff then 0 else x.idle + 1
  let rearm := !armed && d.ruleA r SCR_RULE_A_REARM = 1 && hold ≤ idle
  let n : ScrRule := { run := run, eff := eff, idle := if fire then 0 else idle, prev := v }
  let d := d.updScr fun s => { s with rules := s.rules.setIfInBounds r n }
  let d := d.put pgRule (ruleFld r 2 SCR_RULE_STAT_EFF) (b2n eff)
  let d :=
    if fire then (d.put pgRule (ruleFld r 2 SCR_RULE_STAT_ARMED) 0).inc pgRule (ruleFld r 2 SCR_RULE_STAT_FIRES)
    else if rearm then d.put pgRule (ruleFld r 2 SCR_RULE_STAT_ARMED) 1 else d
  (d, eff, if fire then some v else none)

/-- The MARK action of rule `r` (R462). -/
def Dev.actMark (d : Dev) (r : Nat) : Dev :=
  let used := d.get pgScr SCR_MARK_SLOTS
  match (List.range 16).find? fun q => !bit used q with
  | none => (d.inc pgScr SCR_MARK_LOST).irq pgScr SCR_IRQ_MARK_LOST
  | some q =>
    let b := leBytes 6 d.pwr.aonT
      ++ [BitVec.ofNat 8 r, BitVec.ofNat 8 (clampN 1 60 (d.ruleB r SCR_RULE_B_MARK_MIN)),
        BitVec.ofNat 8 (d.ruleB r SCR_RULE_B_SET)] ++ List.replicate 7 0
    let d := { d with aon := memWrite d.aon (0x2000 + q * 1024) b }
    let d := (d.put pgScr SCR_MARK_SLOTS (setBits used q 1 1)).put pgScr SCR_MARK_ACK_SLOTS (setBits used q 1 1)
    if d.clockOn then d.updScr fun c => { c with times := c.times ++ [(q, d.gtime)] }
    else d.updScr fun c => { c with asleep := c.asleep ++ [q] }

/-- The LOG action of rule `r` with operand `v` (R461, R463). -/
def Dev.actLog (d : Dev) (r : Nat) (v : Int) : Dev :=
  let h := d.get pgScr SCR_LOG_HEAD
  let b := leBytes 6 d.pwr.aonT ++ leBytes 6 d.gtime48
    ++ [BitVec.ofNat 8 r, BitVec.ofNat 8 (d.ruleB r SCR_RULE_B_ACT + d.scrState * 16)] ++ leBytes 2 (ofInt 16 v)
  let d := { d with aon := memWrite d.aon (0x1000 + 16 * h) b }
  let d := if 256 ≤ d.scr.logged then d.inc pgScr SCR_LOG_LOST else d.updScr fun c => { c with logged := c.logged + 1 }
  (d.put pgScr SCR_LOG_HEAD ((h + 1) % 256)).irq pgScr SCR_IRQ_LOGGED

/-- The OUT action of rule `r`. -/
def Dev.actOut (d : Dev) (r : Nat) : Dev :=
  d.put pgScr SCR_OUT_OUT (setBits (d.get pgScr SCR_OUT_OUT) (d.ruleB r SCR_RULE_B_OUTSEL) 1 1)

/-- The actions of the rules that fired: MARK, LOG, OUT, WAKE, each in ascending rule order (R461). -/
def Dev.actions (d : Dev) (l : List (Nat × Int)) : Dev :=
  let has (r i : Nat) : Bool := bit (d.ruleB r SCR_RULE_B_ACT) i
  let d := l.foldl (fun d x => if has x.1 0 then d.actMark x.1 else d) d
  let d := l.foldl (fun d x => if has x.1 1 then d.actLog x.1 x.2 else d) d
  let d := l.foldl (fun d x => if has x.1 2 then d.actOut x.1 else d) d
  if l.any (fun x => has x.1 3) && d.scrState != 0 && bit (d.get pgPwr PWR_WAKE_EN_SRC) 6 then d.updPwr fun p => { p with ruleWake := true } else d

/-- SENTINEL_PERIOD: 32 AON ticks have passed. The signals are captured, filters and rules run, and the actions of the rules
that fire are taken; `cycles` is the number of DCLK cycles of the last 32,768 ticks where such a count has ended (R457). -/
def Dev.sentinel (d : Dev) (x y z : Int) (ign : Bool) (vmot vhold tl tp : Int) (cycles : Option Nat) : Dev :=
  let d := d.updPwr fun p => { p with aonT := (p.aonT + 32) % 2 ^ 48 }
  let d := d.put64 pgPwr PWR_AON_T_LO_VALUE PWR_AON_T_HI_VALUE d.pwr.aonT
  let d := match cycles with
    | some c => d.putI pgPwr PWR_AON_ERR_VALUE (1000000000 - c)
    | none => d
  if !d.flag pgScr SCR_CTL_EN then d
  else
    let d := d.captureSignals x y z ign vmot vhold tl tp
    let lp : Vector Int 8 := Vector.ofFn fun f =>
      satI 32 (filterStep ((d.scr.lp[f.val]?).getD 0) (d.signal (d.filterSrc f)) (d.get pgScr (SCR_FILT_K.idx f)))
    let d := d.updScr fun c => { c with lp := lp }
    let r := (List.range 32).foldl (fun (a : Dev × Bool × List (Nat × Int)) i =>
      let e := a.1.evalRule a.2.1 i
      (e.1, e.2.1, match e.2.2 with
        | some v => a.2.2 ++ [(i, v)]
        | none => a.2.2)) (d, false, [])
    r.1.actions r.2.2

/-- SENTINEL_PERIOD; Scruple runs in RUN, IDLE, SLEEP and DEEP, not in OFF. While the SPI controller has the sensor, X, Y and Z are the
newest values of its page (R458, R527, R529). -/
def execSentinelPeriod (x y z : BitVec 16) (ign : Bool) (vmot vhold tl tp : BitVec 16) (cycles : Option Nat) (s : State) :
    Host.Outcome State Fault Refusal :=
  let f (d : Dev) : Dev :=
    if d.pwr.phase == .off then d
    else
      let own := d.clockOn && d.domainOn 20
      let src (v : BitVec 16) (f : Fld) : Int := if own then d.getI pgAcc f else sext 16 v.toNat
      d.sentinel (src x ACC_XY_X) (src y ACC_XY_Y) (src z ACC_ZS_Z) ign (sext 16 vmot.toNat) (sext 16 vhold.toNat)
        (sext 16 tl.toNat) (sext 16 tp.toNat) cycles
  .next (s.noting (.sentinelPeriod x y z ign vmot vhold tl tp cycles) fun s => if s.cur.clockOn then s.dec fun _ d => f d else s.both f)

/-! ### Stamps and marks (R462) -/

/-- MINUTE_STAMP at an edge where GTIME mod 15,000,000 is 0. -/
def execMinuteStamp (s : State) : Host.Outcome State Fault Refusal :=
  .next (s.noting (.cmd .minuteStamp) fun s => s.dec fun _ d => if d.gtime % 15000000 = 0 then d.minuteStamps (d.gtime / 15000000) else d)

/-- START and TRUNC of entry `e` for minute `m` (R462). -/
def Dev.markStart (d : Dev) (e : Nat) (m : Int) : Nat × Bool :=
  let l := d.stamps e
  match l.find? fun x => ((x.1 : Int) - m) % 2 ^ 24 == 0 && 0 ≤ m with
  | some x => (x.2, false)
  | none =>
    match newestBefore m l with
    | some x => (x.2, true)
    | none =>
      match oldestStamp l with
      | some x => (x.2, true)
      | none => (0, true)

/-- MARK_RESOLVE of slot `q` at the first Grain in which GTIME runs. -/
def execMarkResolve (q : Fin 16) (s : State) : Host.Outcome State Fault Refusal :=
  .next (s.noting (.markResolve q) fun s => s.dec fun _ d =>
    match d.scr.times.find? (·.1 == q.val) with
    | none => d
    | some t =>
      if !d.clockOn then d
      else
        let base := 0x2000 + q.val * 1024
        let set := (memGet d.aon (base + 8)).toNat
        let m : Int := (t.2 / 15000000 : Nat) - (memGet d.aon (base + 7)).toNat
        let r := (List.range 64).foldl (fun (a : Dev × Bool) e =>
          let w := d.laneEntry e
          let at_ := base + 16 + 8 * e
          if bit w 31 && (bits w 20 8 &&& set) != 0 then
            let x := d.markStart e m
            let hi := 2 ^ 23 + b2n x.2 * 2 ^ 22 + bits w 0 20
            ({ a.1 with aon := memWrite a.1.aon at_ (leBytes 5 x.1 ++ leBytes 3 hi) }, a.2 || x.2)
          else ({ a.1 with aon := memWrite a.1.aon at_ (List.replicate 8 0) }, a.2)) (d, false)
        let d := { r.1 with aon := memWrite r.1.aon (base + 9) (BitVec.ofNat 8 (1 + 2 * b2n r.2) :: leBytes 6 t.2) }
        (d.updScr fun c => { c with times := c.times.filter (·.1 != q.val) }).irq pgScr SCR_IRQ_MARK)

end Sys2Proof.Machine
end

