-- ==== Sys2Proof/Machine/Protect.lean ====
section
/-! DEFINITION. Memory protection, in-service BIST, repair and fuses (chapter 15). -/

namespace Sys2Proof.Machine

open Sys2Proof

def Dev.updPrt (d : Dev) (f : Protect → Protect) : Dev := { d with prt := f d.prt }

/-! ### Arrays (R466) -/

/-- Units of 8,192 words of an array, and the number of its first unit in array order (R485); the always-on SRAM has none. -/
def arrayUnits (a : Nat) : Nat × Nat :=
  match a with
  | 0 => (32, 0)
  | 1 => (32, 32)
  | 2 => (24, 64)
  | 3 => (16, 88)
  | 4 => (2, 104)
  | 5 => (2, 106)
  | 6 => (2, 108)
  | 7 => (2, 110)
  | 8 => (8, 112)
  | 9 => (4, 120)
  | 10 => (4, 124)
  | _ => (0, 128)

/-- 64-bit words of an array. -/
def arrayWords (a : Nat) : Nat := if a = 11 then 8192 else 8192 * (arrayUnits a).1

/-- Is an array word-coded? -/
def wordCoded (a : Nat) : Bool := a == 0 || a == 1 || a == 2 || a == 10

/-- Physical bit positions of a word (R469). -/
def arrayBits (a : Nat) : Nat := if wordCoded a then 72 else 104

/-- The array that MEM_SEL names; reserved values are 0. -/
def Dev.memSel (d : Dev) : Nat := let a := d.get pgProt MEM_SEL_ARRAY; if a < 12 then a else 0

/-- Restate REPAIR_MODE of an array (R474). -/
def Dev.repairMode (d : Dev) (a : Nat) : Dev :=
  let q := pgMem a
  d.put q MEM_STAT_REPAIR_MODE ((d.prt.mode[a]?).getD 0 + 2 * d.get q MEM_CTL_TEST_EN + 8 * b2n (d.get q MEM_CTL_RMW == 1))

/-- Set bit `i` (0 start-up, 2 recovery) of an array's REPAIR mode. -/
def Dev.setMode (d : Dev) (a i : Nat) (on : Bool) : Dev :=
  (d.updPrt fun p => { p with mode := p.mode.setIfInBounds a (setBits ((p.mode[a]?).getD 0) i 1 (b2n on)) }).repairMode a

/-! ### Reads (R467, R471) -/

/-- REQ of a user of an array (R545): the scrubber is hardware. -/
def memCode : MemUser → Nat
  | .soft r => r.code
  | .engine _ => 0x07
  | .scrub => 0x00

/-- A bus error to the user, if it is a requester of the register bus. -/
def Dev.busError (d : Dev) (u : MemUser) : Dev :=
  match u with
  | .soft _ => { d with bus := { rdata := 0, error := true } }
  | _ => d

/-- A read finds a correctable error at bit `b` of word `w` and delivers the corrected value; `scrub` writes it back. Where it
has been written back before, the fault is hard (R472, R473). -/
def Dev.readCorr (d : Dev) (a w b : Nat) (scrub : Bool) : Dev :=
  let d := d.inc (pgMem a) MEM_ECC_CORR
  let k := (a, w, b)
  if d.prt.corrected.contains k then
    if d.prt.hard.contains k then d else d.updPrt fun p => { p with hard := p.hard ++ [k] }
  else if scrub then d.updPrt fun p => { p with corrected := p.corrected ++ [k] }
  else d

/-- A read of word `w` finds an uncorrectable error. -/
def Dev.readUncorr (d : Dev) (a w : Nat) (u : MemUser) : Dev :=
  let d := ((d.inc (pgMem a) MEM_ECC_UNCORR).fault pgProt 0x0E01 false false [a, w, memCode u]).irq pgProt PROT_IRQ_UNCORR
  let d := d.updPrt fun p => { p with dirty := p.dirty.setIfInBounds a true }
  (d.setMode a 2 true).busError u

/-- MEM_READ_CORR; staging and the read-channel buffer count it too (R148, R305). -/
def execMemReadCorr (a : Fin 11) (w b : Nat) (s : State) : Host.Outcome State Fault Refusal :=
  .next (s.noting (.memReadCorr a w b) fun s => s.dec fun _ d =>
    if arrayWords a ≤ w || arrayBits a ≤ b then d
    else
      let d := d.readCorr a w b false
      match a.val with
      | 1 => d.stagingError (w / 8) false
      | 2 => d.inc pgFthx FTHX_ECC_CORR
      | _ => d)

/-- The journal entry of task `lsn` is lost (R9, R471): a READ ends UNRECOVERABLE; for another task R84 has no such status, so it goes
on and no completion of it is ever posted (DESIGN CHOICE, notes/assumptions/59.md). -/
def Dev.entryLost (d : Dev) (lsn : Nat) : Dev :=
  match d.jentry lsn with
  | some e =>
    let d := d.setDegraded pgLdg
    if e.opc == .read && e.met.isNone then d.meetNoEffect lsn .unrecoverable 0
    else { d with ldg := { d.ldg with journal := updWhere (·.lsn == lsn) (fun e => { e with lost := true }) d.ldg.journal } }.dropDone
  | none => d

/-- An uncorrectable staging word: what is programmed of it is marked (R148). -/
def Dev.stagingLost (d : Dev) (c : Nat) : Dev :=
  let e := d.stagingError c true
  match d.stagingWord c with
  | some (_, some (p, j)) => e.markPlaced p.lsn j
  | _ => e

/-- What the requester's own chapter says of an uncorrectable word: staging (R148), the CRC context table (R155; `endBad`: the
newest end record is unreadable too), the ledger journal, whose word held the entry of task `lsn` (R9, R471). -/
def Dev.uncorrData (d : Dev) (a w : Nat) (endBad : Bool) (lsn : Nat) : Dev :=
  match a with
  | 1 => d.stagingLost (w / 8)
  | 8 => d.crcEntryLost w endBad
  | 9 => d.entryLost lsn
  | _ => d

/-- MEM_READ_UNCORR. -/
def execMemReadUncorr (a : Fin 11) (w : Nat) (u : MemUser) (endBad : Bool) (lsn : Nat) (s : State) :
    Host.Outcome State Fault Refusal :=
  .next (s.noting (.memReadUncorr a w u endBad lsn) fun s => s.dec fun _ d =>
    if arrayWords a ≤ w then d
    else
      let d := d.readUncorr a w u
      if u == .scrub then d else d.uncorrData a w endBad lsn)

/-- MEM_NARROW_WRITE: nothing is written; `page` is the requester's page (R467). -/
def execMemNarrowWrite (a : Fin 11) (page : Nat) (r : Requester) (addr : BitVec 56) (s : State) : Host.Outcome State Fault Refusal :=
  .next (s.noting (.memNarrowWrite a page r addr) fun s => s.dec fun _ d =>
    if !wordCoded a || (pageOf page).isNone then d
    else (d.err (page / 0x1000 * 0x1000) .narrow 0 r.code addr.toNat).busError (.soft r))

/-- AON_PARITY_ERROR: the affected item is absent (R470). -/
def execAonParityError (item : AonItem) (addr : BitVec 16) (u : MemUser) (s : State) : Host.Outcome State Fault Refusal :=
  .next (s.noting (.aonParityError item addr u) fun s => s.dec fun _ d =>
    let d := (d.fault pgProt 0x0E04 false false [addr.toNat]).busError u
    match item with
    | .capEsr => { d with rsv := { d.rsv with aonCE := none } }
    | .carry => d.updPwr fun p => { p with carry := 0 }
    | .mark q =>
      let used := d.get pgScr SCR_MARK_SLOTS
      if !bit used q then d
      else
        let d := (d.put pgScr SCR_MARK_SLOTS (setBits used q 1 0)).put pgScr SCR_MARK_ACK_SLOTS (setBits used q 1 0)
        let d := d.inc pgScr SCR_MARK_LOST
        { d with scr := { d.scr with times := d.scr.times.filter (·.1 != q.val), asleep := d.scr.asleep.filter (· != q.val) } }
    | .other => d)

/-! ### Scrubbing (R472) -/

/-- SCRUB_STEP of array `a`: the next SCRUB_WPG words are read; `found` lists words with the bit corrected, `bad` the
uncorrectable ones. At the array's end a pass ends. -/
def execScrubStep (a : Fin 11) (found : List (Nat × Nat)) (bad : List Nat) (s : State) : Host.Outcome State Fault Refusal :=
  .next (s.noting (.scrubStep a found bad) fun s => s.dec fun _ d =>
    let q := pgMem a
    let n := arrayWords a
    let at_ := (d.prt.pos[a.val]?).getD 0
    let wpg := max 1 (d.get q MEM_CTL_SCRUB_WPG)
    if !d.flag q MEM_CTL_SCRUB_EN || d.gtime < (d.prt.due[a.val]?).getD 0 then d
    else
      let here (w : Nat) : Bool := decide (at_ ≤ w) && decide (w < min n (at_ + wpg))
      let d := found.foldl (fun d x => if here x.1 && decide (x.2 < arrayBits a) then d.readCorr a x.1 x.2 true else d) d
      let d := bad.foldl (fun d w => if here w then d.readUncorr a w .scrub else d) d
      let stop := decide (n ≤ at_ + wpg)
      let d := d.updPrt fun p =>
        { p with pos := p.pos.setIfInBounds a (if stop then 0 else at_ + wpg), due := p.due.setIfInBounds a (d.gtime + 1) }
      if !stop then d
      else
        let d := (d.inc q MEM_STAT_PASSES).setMode a 0 false
        if (d.prt.dirty[a.val]?).getD false then d.updPrt fun p => { p with dirty := p.dirty.setIfInBounds a false }
        else d.setMode a 2 false)

/-! ### Repairs (R473, R476 to R478, R485) -/

/-- A fuse entry (R485): VALID, KIND, UNIT, SLICE, ADDR, SPARE and even parity over bits 30 to 1. -/
def fuseEntry (kind unit slice addr spare : Nat) : Nat :=
  let e := kind % 4 * 2 ^ 29 + unit % 128 * 2 ^ 22 + slice % 128 * 2 ^ 15 + addr % 1024 * 2 ^ 5 + spare % 16 * 2
  2 ^ 31 + e + popcount 31 e % 2

/-- The fuse entry of a repair. -/
def Repair.entry (r : Repair) : Nat :=
  fuseEntry (b2n r.col) ((arrayUnits r.array).2 + r.unit) r.slice r.addr r.spare

/-- Put an entry on the pending list (at most 1,024). -/
def Dev.pend (d : Dev) (e : Nat) : Dev :=
  let l := (d.prt.pending ++ [e]).take 1024
  (d.updPrt fun p => { p with pending := l }).put pgProt MEM_PEND_COUNT l.length

/-- Free spare rows or columns of a unit, lowest first: 8 rows, 4 columns (R476). -/
def Dev.freeSpares (d : Dev) (a unit : Nat) (col : Bool) : List Nat :=
  (List.range (if col then 4 else 8)).filter fun i =>
    !((d.prt.taken ++ d.prt.copying).any fun r => r.array == a && r.unit == unit && r.col == col && r.spare == i)

/-- Restate MEM_SPARE of an array. -/
def Dev.spareStat (d : Dev) (a : Nat) : Dev :=
  let used (col : Bool) : Nat := ((d.prt.taken ++ d.prt.copying).filter fun r => r.array == a && r.col == col).length
  (d.put (pgMem a) MEM_SPARE_ROWS_FREE (8 * (arrayUnits a).1 - used false)).put (pgMem a) MEM_SPARE_COLS_FREE
    (4 * (arrayUnits a).1 - used true)

/-- The words of a row (64 in sequence) or column (every 64th) of a unit. -/
def repairWords (unit addr : Nat) (col : Bool) : List Nat :=
  if col then (List.range 128).map fun i => unit * 8192 + i * 64 + addr % 64
  else (List.range 64).map fun i => unit * 8192 + addr % 128 * 64 + i

/-- Retire items of an array. -/
def Dev.retire (d : Dev) (a : Nat) (l : List Nat) : Dev :=
  d.updPrt fun p => { p with retired := l.foldl (fun r i => if r.contains (a, i) then r else r ++ [(a, i)]) p.retired }

/-- A region of the read-channel buffer is lost: a stream region costs its port its channel, the retained slot (region 4) ends
iteration device-wide. -/
def Dev.bufferLost (d : Dev) (region : Nat) : Dev :=
  if region < 4 then
    [0, 1, 2, 3, 4].foldl (fun d k =>
      if d.get (pgFth k) FTH_MAP_PORT = region then ((d.setB (pgFth k) FTH_CTL_RUN false).setDegraded (pgFth k)).fthEnd k .abort
      else d) d
  else (d.retire 2 [4]).setDegraded pgFthx

/-- The SYS pages. -/
def pagesSys : List Nat := [pgId, pgClk, pgRst, pgFuseMap, pgTb, pgIrq, pgFj]

/-- A hard fault finds no free spare of its kind (R486). -/
def Dev.spareOut (d : Dev) (a unit addr : Nat) (col : Bool) : Dev :=
  let deg := a == 2 || (decide (3 ≤ a) && decide (a ≤ 7))
  let d := ((d.fault pgProt 0x0E03 deg false [a, unit, b2n col, addr]).irq pgProt PROT_IRQ_SPARE_OUT).setB (pgMem a)
    MEM_STAT_RETIRED true
  let ws := repairWords unit addr col
  match a with
  | 0 => d.retire 0 (ws.map (· / 8))
  | 1 =>
    let u := (ws.map (· / 512)).filter fun u => !d.retiredItem 1 u
    d.updPrt fun p => { p with retiring := u.foldl (fun r i => if r.contains i then r else r ++ [i]) p.retiring }
  | 2 => ([0, 1, 2, 3, 4].filter fun g => ws.any fun w => min 4 (w / 30720) == g).foldl (fun d g => d.bufferLost g) d
  | 8 => d.retire 8 ws
  | 9 => d.retire 9 (ws.map (· / 8))
  | 10 => d.retire 10 (ws.map (· / 8))
  | _ => (pgProt :: pagesSys).foldl Dev.setDegraded d

/-- SOFT_REPAIR of the hard fault at bit `b` of word `w`: `rowErr` and `colErr` count the words of its row and of its column
that have an error in that slice. It waits while a spare is being copied in the same unit (R483). -/
def execSoftRepair (a : Fin 11) (w b rowErr colErr : Nat) (s : State) : Host.Outcome State Fault Refusal :=
  .next (s.noting (.softRepair a w b rowErr colErr) fun s => s.dec fun _ d =>
    let unit := w / 8192
    let col := decide (rowErr < 2) && decide (2 ≤ colErr)
    let addr := if col then w % 64 else w % 8192 / 64
    if !d.prt.hard.contains (a.val, w, b) || d.prt.copying.any fun r => r.array == a.val && r.unit == unit then d
    else
      let d := d.updPrt fun p => { p with hard := p.hard.filter (· != (a.val, w, b)) }
      match d.freeSpares a unit col with
      | [] => d.spareOut a unit addr col
      | n :: _ =>
        let r : Repair := { array := a, unit := unit, col := col, slice := b, addr := addr, spare := n, since := d.gtime }
        (d.updPrt fun p => { p with copying := p.copying ++ [r] }).spareStat a)

/-- A repair is in force: pending entry, record and interrupt (R477). -/
def Dev.repaired (d : Dev) (r : Repair) : Dev :=
  let d := d.updPrt fun p => { p with taken := p.taken ++ [r] }
  ((d.pend r.entry).fault pgProt 0x0E02 false false [r.array, r.entry]).irq pgProt PROT_IRQ_REPAIR

/-- REPAIR_COPY_DONE: the copy in unit `unit` of array `a` has ended. Errors of the replaced row or column are gone. -/
def execRepairCopyDone (a : Fin 11) (unit : Nat) (s : State) : Host.Outcome State Fault Refusal :=
  .next (s.noting (.repairCopyDone a unit) fun s => s.dec fun _ d =>
    match d.prt.copying.find? fun r => r.array == a.val && r.unit == unit with
    | some r =>
      if d.gtime ≤ r.since then d
      else
        let ws := repairWords r.unit r.addr r.col
        let gone (k : Nat × Nat × Nat) : Bool := k.1 == r.array && k.2.2 == r.slice && ws.contains k.2.1
        (d.updPrt fun p =>
          { p with copying := p.copying.filter fun x => x != r, corrected := p.corrected.filter (!gone ·)
                   hard := p.hard.filter (!gone ·) }).repaired r
    | none => d)

/-- The march has ended (R563): the pages of the logic die are READY, ways 12 to 15 are locked for the open-lane contexts (R245),
and bay presence is sampled for step 5 (R199). The ledger and the LPDDR5 controller are READY later. -/
def Dev.marchEnd (d : Dev) : Dev :=
  let d := (allPages.filter fun p => p != pgLdg && p != pgDdr).foldl (fun d p => d.setReady p true) d
  let d := d.put pgMc MC_LOCK 0xF000F000
  let d := [0, 1, 2, 3].foldl (fun d b =>
    if (d.bay b).presLow && d.bayState b == 0 then (d.updBay b fun x => { x with presSince := d.gtime, atStart := true }).setBay b 1 else d) d
  { d with su := { d.su with step := 5 } }

/-- MEMORY_MARCH: the failures found (array, word, slice, is it a column) are repaired without a copy; the arrays are then
filled with zero words (R478). -/
def execMemoryMarch (fails : List (Fin 11 × Nat × Nat × Bool)) (s : State) : Host.Outcome State Fault Refusal :=
  .next (s.noting (.memoryMarch fails) fun s => s.dec fun _ d =>
    if d.su.step != 4 then d
    else
      let d := fails.foldl (fun (d : Dev) (x : Fin 11 × Nat × Nat × Bool) =>
        let a := x.1.val
        let w := x.2.1
        let col := x.2.2.2
        let unit := w / 8192
        let addr := if col then w % 64 else w % 8192 / 64
        if arrayWords a ≤ w then d
        else
          match d.freeSpares a unit col with
          | [] => d.spareOut a unit addr col
          | n :: _ =>
            let r : Repair := { array := a, unit := unit, col := col, slice := x.2.2.1, addr := addr, spare := n, since := d.gtime }
            (d.repaired r).spareStat a) d
      let d := d.updPrt fun p =>
        { p with mode := Vector.replicate 12 1, dirty := Vector.replicate 12 false, corrected := [], hard := [], words := []
                 pos := Vector.replicate 12 0 }
      ({ d with stg := { d.stg with crc := [] } }).marchEnd)

/-- The edge's part in R486: a staging unit leaves its FIFO's space in the first Grain in which the FIFO's HELD is 0. -/
def Dev.retireUnits (d : Dev) : Dev :=
  d.prt.retiring.foldl (fun d u =>
    let owner := (List.range 64).find? fun k =>
      let b := d.get (pgFk k) FK_CFG_BASE_4K
      b ≤ u && u < b + d.unitSpan b (d.get (pgFk k) FK_CFG_SIZE_4K)
    let gone (d : Dev) : Dev := (d.retire 1 [u]).updPrt fun p => { p with retiring := p.retiring.filter (· != u) }
    match owner with
    | some k =>
      if (d.fifo k).held then d
      else gone ((d.put (pgFk k) FK_CFG_SIZE_4K (d.get (pgFk k) FK_CFG_SIZE_4K - 1)).fifoStat k)
    | none => gone d) d

/-! ### Check-bit test mode (R475) -/

/-- Is TEST_EN on in the array selected? -/
def Dev.testEn (d : Dev) : Bool := d.flag (pgMem d.memSel) MEM_CTL_TEST_EN

/-- MEM_TEST_DATA_LO_READ: `data` and `chk` are the raw bits of a word that no test word has replaced. -/
def execMemTestDataLoRead (r : Requester) (data : BitVec 64) (chk : BitVec 40) (s : State) : Host.Outcome State Fault Refusal :=
  .next (s.noting (.memTestDataLoRead r data chk) fun s => s.both fun d =>
    let a := d.memSel
    let q := pgMem a
    let answer (d : Dev) : Dev := { d with bus := { rdata := d.rd (q + MEM_TEST_DATA_LO.off), error := false } }
    if !d.testEn || r == .host then answer d
    else
      let w := d.get q MEM_TEST_ADDR
      let x : Nat × Nat := match d.prt.words.find? fun x => x.1 == a && x.2.1 == w with
        | some x => x.2.2
        | none => (data.toNat, chk.toNat)
      let c := if wordCoded a then x.2 % 256 else x.2
      answer (((d.put64 q MEM_TEST_DATA_LO MEM_TEST_DATA_HI x.1).put q MEM_TEST_CHK c).put q MEM_TEST_CHK_HI_CHK_HI (c / 2 ^ 32)))

/-- MEM_TEST_CHK_WRITE: the test word is stored exactly as written. -/
def execMemTestChkWrite (v : Word) (s : State) : Host.Outcome State Fault Refusal :=
  .next (s.noting (.memTestChkWrite v) fun s => s.dec fun _ d =>
    let a := d.memSel
    let q := pgMem a
    if !d.testEn then d
    else
      let c := if wordCoded a then v.toNat % 256 else v.toNat + d.get q MEM_TEST_CHK_HI_CHK_HI * 2 ^ 32
      let w := d.get q MEM_TEST_ADDR
      let x := (a, w, d.get64 q MEM_TEST_DATA_LO MEM_TEST_DATA_HI, c)
      let d := d.put q MEM_TEST_CHK (if wordCoded a then v.toNat % 256 else v.toNat)
      if arrayWords a ≤ w then d
      else d.updPrt fun p => { p with words := x :: p.words.filter fun y => !(y.1 == a && y.2.1 == w) })

/-- Arrays in which TEST_EN can be set. -/
def testable (a : Nat) : Bool := a == 0 || a == 2 || (4 ≤ a && a ≤ 7) || a == 10

/-- MEM_TEST_EN_WRITE: a write of `v` to MEM_CTL. One that would set TEST_EN against R475 is ignored. -/
def Dev.memCtlWrite (d : Dev) (r : Requester) (v : Word) : Dev :=
  let a := d.memSel
  let q := pgMem a
  if bit v.toNat 1 && !(testable a && d.flag pgFuse FUSE_STAT_MAINT) then d.errAt pgProt MEM_CTL .testDenied r
  else (d.put q MEM_CTL (v.toNat &&& 0x3FF03)).repairMode a

/-- MEM_TEST_EN_WRITE. -/
def execMemTestEnWrite (r : Requester) (v : Word) (s : State) : Host.Outcome State Fault Refusal :=
  .next (s.noting (.memTestEnWrite r v) fun s => s.dec fun _ d => d.memCtlWrite r v)

/-! ### In-service logic BIST (R479 to R483)
Slices are numbered in the order of R479: 0 to 15 FCH0 to FCH15, 16 FCH16, 17 to 21 FTH, 22 to 46 ADC slices, 47 to 64
servo lanes (nine an engine), 65 to 130 staging pointer entries, 131 to 146 LDPC codecs, 147 commutation, 148 motion, 149 DMA,
150 ledger, 151 reserve account, 152 CV units, 153 SHA-256 engine, 154 seal engine, 155 power controller. -/

/-- The table row of a slice and its number within it. -/
def sliceRow (i : Nat) : Nat × Nat :=
  if i < 16 then (0, i) else if i < 17 then (1, 0) else if i < 22 then (2, i - 17) else if i < 47 then (3, i - 22)
  else if i < 65 then (4, i - 47) else if i < 131 then (5, i - 65) else if i < 147 then (6, i - 131)
  else if i < 150 then (7, i - 147) else (8, i - 150)

/-- Test time in Grains; an ADC slice's lies within its calibration step. -/
def testGrains (i : Nat) : Nat :=
  match (sliceRow i).1 with
  | 0 | 1 => 32
  | 2 => 16
  | 3 => 0
  | 4 => 8
  | 5 => 1
  | 6 => 4
  | 7 => 16
  | _ => 64

/-- Is a sequencer other than `i` under test, so that FCH16 stands in? -/
def Dev.spareStandsIn (d : Dev) : Bool := d.prt.testing.any (·.1 < 16)

/-- May slice `i` be tested now? The conditions on other engines (a bay's state, FCH16's stand-in, a laser's read channel, the motors)
are their committed values (R33); the tests that run are the test engine's own. -/
def Dev.testable (vis d : Dev) (i : Nat) : Bool :=
  let j := (sliceRow i).2
  let maint := vis.flag pgFuse FUSE_STAT_MAINT
  match (sliceRow i).1 with
  | 0 =>
    let st := vis.bayState (j / 4)
    if vis.flag (pgFch 16) FCH_SPARE_ACTIVE then st == 0 || st == 8 || st == 9
    else !d.spareStandsIn && !d.sliceBad 16 && !(d.prt.testing.any (·.1 == 16))
      && (vis.chan j).current.isNone
  | 1 => !vis.flag (pgFch 16) FCH_SPARE_ACTIVE && !d.spareStandsIn
  | 2 => if j = 4 then !vis.flag (pgFth 4) FTH_MAP_ACTIVE else !vis.flag (pgFth j) FTH_CTL_RUN
  | 3 => (vis.fthc (j / 5)).step == j % 5 && (vis.fthc (j / 5)).stepAt.isSome
  | 4 =>
    let e := j / 9
    vis.flag (pgEll e) ELL_CTL_LANE_ROT && (vis.engine e).spare.isNone
      && !(d.prt.testing.any fun t => (sliceRow t.1).1 == 4 && (sliceRow t.1).2 / 9 == e)
  | 5 => decide (d.prt.spareEntries + (d.prt.testing.filter fun t => (sliceRow t.1).1 == 5).length < 2)
  | 6 => ((vis.fls.codecs[j]?).getD none).isNone && ((d.fls.codecs[j]?).getD none).isNone
  | 7 =>
    if j = 0 then (List.range 6).all fun c => vis.get (pgCmt c) CMT_STAT_STATE == 0
    else if j = 1 then (List.range 12).all fun n => vis.axisState n ≤ 1
    else !vis.flag pgBush BUSH_STAT_BUSY
  | _ => maint

/-- Restate LB_STAT.RUNNING. -/
def Dev.testStat (d : Dev) : Dev := d.put pgLbist LB_STAT_RUNNING d.prt.testing.length

/-- LBIST_TEST_START: the first slice in order that this cycle has not tested and that may be tested now (R480). -/
def execLbistTestStart (s : State) : Host.Outcome State Fault Refusal :=
  .next (s.noting (.cmd .lbistTestStart) fun s => s.dec fun vis d =>
    let conc := clampN 1 4 (d.get pgLbist LB_CTL_MAX_CONC)
    let next := (List.range 156).find? fun i =>
      !d.prt.tested.contains i && !d.sliceBad i && !(d.prt.testing.any (·.1 == i)) && Dev.testable vis d i
    if !d.flag pgLbist LB_CTL_EN || !d.starts pgLbist || conc ≤ d.prt.testing.length || d.gtime < d.prt.nextStart || vis.flag pgRsv RSV_STAT_PF then d
    else
      match next with
      | some i =>
        let g := max 1 (d.get pgLbist LB_CTL_STAGGER_G)
        let d := (d.updPrt fun p => { p with testing := p.testing ++ [(i, d.gtime)], nextStart := d.gtime + g }).testStat
        let r := sliceRow i
        if r.1 = 4 && r.2 % 9 < 8 then d.put (pgEll (r.2 / 9)) ELL_STAT_STANDIN (r.2 % 9) else d
      | none => d)

/-- A test is over: a stand-in hands back. -/
def Dev.testOver (d : Dev) (i : Nat) : Dev :=
  let d := (d.updPrt fun p => { p with testing := p.testing.filter (·.1 != i) }).testStat
  let r := sliceRow i
  if r.1 = 4 && (d.engine (r.2 / 9)).spare.isNone then d.put (pgEll (r.2 / 9)) ELL_STAT_STANDIN 15
  else if r.1 = 6 then d.assignCodecs 16 else d

/-- A pointer entry that fails: a spare entry takes the FIFO's pointers, or the FIFO is disabled (R482). -/
def Dev.entryFail (d : Dev) (k : Nat) : Dev :=
  if d.prt.spareEntries < 2 then
    let d := d.updPrt fun p => { p with spareEntries := p.spareEntries + 1 }
    if k < 64 then d.updFifo k fun f => { f with drainStopped := false } else d
  else if k < 64 then
    let b := d.get (pgFk k) FK_CFG_BASE_4K
    let u := (List.range (d.unitSpan b (d.get (pgFk k) FK_CFG_SIZE_4K))).map (b + ·)
    d.updPrt fun p => { p with retiring := u.foldl (fun r i => if r.contains i then r else r ++ [i]) p.retiring }
  else d

/-- Disable a block without spare: DEGRADED in its pages, and ENABLE 0 where the page lets it be cleared (R542). -/
def Dev.blockFail (d : Dev) (j : Nat) : Dev :=
  let off (d : Dev) (l : List Nat) : Dev := l.foldl (fun d p => (d.setDegraded p).setB p PG_CTL_ENABLE false) d
  match j with
  | 0 => off d ((List.range 6).map pgCmt)
  | 1 => off d ((List.range 12).map pgAx)
  | 2 => off d (pgBush :: (List.range 32).map pgUd)
  | 3 => d.setDegraded pgLdg
  | 4 => d.setDegraded pgRsv
  | 5 => (List.range 8).foldl (fun d k => d.setDegraded (pgCv k)) d
  | 6 | 7 => d.setDegraded pgChk
  | _ => d.setDegraded pgPwr

/-- Has the slice's own chapter dealt with a failure of it already? -/
def Dev.sliceDown (d : Dev) (i : Nat) : Bool :=
  let j := (sliceRow i).2
  match (sliceRow i).1 with
  | 0 | 1 => (d.chan i).failedAt.isSome || (d.chan i).disabled
  | 2 => d.flag (pgFth j) FTH_MAP_REMAPPED
  | 3 => bit (d.get (pgFth (j / 5)) FTH_ADC_FAILED) (j % 5)
  | 4 => j % 9 != 8 && bit (d.get (pgEll (j / 9)) ELL_STAT_LANE_FAILED) (j % 9)
  | _ => false

/-- What a failing slice's own chapter does (R482), unless it has done it already. -/
def Dev.sliceFailover (d : Dev) (i : Nat) : Dev :=
  let j := (sliceRow i).2
  if d.sliceDown i then d else
  match (sliceRow i).1 with
  | 0 | 1 => d.sequencerFail i
  | 2 => d.fthFailover j
  | 3 => d.adcSliceFail (j / 5) (j % 5)
  | 4 =>
    let e := j / 9
    if j % 9 = 8 then d.updEngine e fun g => { g with spare := some ((g.spare).getD 8) }
    else d.servoLaneFail e (j % 9)
  | 5 => d.entryFail j
  | 6 => if 8 < (d.prt.failing.filter fun k => (sliceRow k).1 == 6).length then d.setDegraded pgFint else d
  | 7 => d.blockFail j
  | _ => d.blockFail (3 + j)

/-- Does the failure of slice `i` set DEGRADED here: a block without spare, or fewer than 8 codecs left (R482)? -/
def Dev.sliceDegrades (d : Dev) (i : Nat) : Bool :=
  match (sliceRow i).1 with
  | 6 => decide (7 < (d.prt.failing.filter fun k => (sliceRow k).1 == 6).length)
  | 7 | 8 => true
  | _ => false

/-- Slice `i` is found failing (R482): once. -/
def Dev.sliceFailing (d : Dev) (i : Nat) : Dev :=
  if d.sliceBad i || 156 ≤ i then d
  else
    let deg := d.sliceDegrades i
    let d := (d.testOver i).updPrt fun p => { p with failing := p.failing ++ [i] }
    let d := ((d.fault pgLbist 0x0E05 deg false [i]).irq pgLbist LBIST_IRQ_SLICE_FAIL).inc pgLbist LB_COUNT_FAILS
    let r := sliceRow i
    (d.pend (fuseEntry 2 r.1 r.2 0 0)).sliceFailover i

/-- SLICE_FAILING: found by a test or by another chapter (R481). A stand-in that fails while it stands in takes the slice
under test with it, whose test has not passed (R483). -/
def execSliceFailing (i : Fin 156) (s : State) : Host.Outcome State Fault Refusal :=
  .next (s.noting (.sliceFailing i) fun s => s.dec fun _ d =>
    let with_ := if i.val = 16 then d.prt.testing.find? (·.1 < 16)
      else if (sliceRow i).1 = 4 && (sliceRow i).2 % 9 = 8 then
        d.prt.testing.find? fun t => (sliceRow t.1).1 == 4 && (sliceRow t.1).2 / 9 == (sliceRow i).2 / 9
      else if (sliceRow i).1 = 5 && 64 ≤ (sliceRow i).2 then d.prt.testing.find? fun t => (sliceRow t.1).1 == 5
      else none
    let d := d.sliceFailing i
    match with_ with
    | some t => d.sliceFailing t.1
    | none => d)

/-- LBIST_TEST_RESULT of slice `i`: did the signature match (`ok`), and the repeat's (`again`)? A result of a slice that a real
fault has been found in is discarded. -/
def execLbistTestResult (i : Fin 156) (ok again : Bool) (s : State) : Host.Outcome State Fault Refusal :=
  .next (s.noting (.lbistTestResult i ok again) fun s => s.dec fun _ d =>
    match d.prt.testing.find? (·.1 == i.val) with
    | some t =>
      if d.gtime < t.2 + testGrains i then d
      else if d.sliceDown i then d.testOver i
      else
        let d := (d.testOver i).put pgLbist LB_STAT_LAST i
        let d := d.updPrt fun p => { p with tested := p.tested ++ [i.val] }
        if ok then d
        else if again then
          ((d.fault pgLbist 0x0E06 false false [i.val]).irq pgLbist LBIST_IRQ_TRANSIENT).inc pgLbist LB_COUNT_TRANSIENTS
        else d.sliceFailing i
    | none => d)

/-- Tests are abandoned without a result (R481, R483). -/
def Dev.testsAbandon (d : Dev) : Dev := d.prt.testing.foldl (fun d t => d.testOver t.1) d

/-- The power domain of a slice. -/
def sliceDomain (i : Nat) : Nat :=
  let r := sliceRow i
  match r.1 with
  | 0 => if r.2 < 8 then 12 else 13
  | 1 | 6 => 14
  | 2 | 3 => 15
  | 4 => 17
  | 5 => 10
  | 7 => if r.2 = 2 then 18 else 17
  | _ => if r.2 = 5 then 2 else 10

/-- Tests of slices whose domain has been gated are abandoned (R481). -/
def Dev.testsGated (d : Dev) : Dev :=
  (d.prt.testing.filter fun t => !d.domainOn (sliceDomain t.1)).foldl (fun d t => d.testOver t.1) d

/-- The Stone edge's part in R480: at the end of a cycle the slices not tested are counted, and the next cycle begins. -/
def Dev.lbistStone (d : Dev) : Dev :=
  if !d.flag pgLbist LB_CTL_EN then d
  else if d.prt.cycle + 1 < max 1 (d.get pgLbist LB_CYCLE_CYCLE_S) then d.updPrt fun p => { p with cycle := p.cycle + 1 }
  else
    let skipped (i : Nat) : Bool := !d.prt.tested.contains i && !d.sliceBad i && !(d.prt.testing.any (·.1 == i))
    (d.put pgLbist LB_STAT_SKIPPED ((List.range 156).filter skipped).length).updPrt fun p => { p with cycle := 0, tested := [] }

/-! ### Maintenance windows and fuses (R484, R485) -/

/-- MAINT_OPEN, with both die temperatures in degrees Celsius. -/
def execMaintOpen (r : Requester) (tLogic tPower : Int) (s : State) : Host.Outcome State Fault Refusal :=
  .next (s.noting (.maintOpen r tLogic tPower) fun s => s.dec fun vis d =>
    let agree := (stepMembers 6).all fun m => (vis.pageAnswer m false).1 == 1
    let cool (t : Int) : Bool := decide (-20 ≤ t) && decide (t ≤ 85)
    if !d.flag pgLdg LDG_CTL_ACCEPT_EN && agree && !d.flag pgRsv RSV_STAT_PF && decide (9000 ≤ d.get pgBank BANK_VMOT_VMOT_MV)
        && cool tLogic && cool tPower then
      (d.setB pgFuse FUSE_CTL_MAINT true).setB pgFuse FUSE_STAT_MAINT true
    else d.errAt pgFuse FUSE_CTL .maintDenied r)

/-- MAINT_CLOSE. -/
def execMaintClose (s : State) : Host.Outcome State Fault Refusal :=
  .next (s.noting (.cmd .maintClose) fun s => s.dec fun _ d => (d.setB pgFuse FUSE_CTL_MAINT false).setB pgFuse FUSE_STAT_MAINT false)

/-- FUSE_BURN: a write of FUSE_CTL.BURN = 1. -/
def execFuseBurn (s : State) : Host.Outcome State Fault Refusal :=
  .next (s.noting (.cmd .fuseBurn) fun s => s.dec fun _ d =>
    if !d.flag pgFuse FUSE_STAT_MAINT then d
    else (d.setB pgFuse FUSE_CTL_BURN true).setB pgFuse FUSE_STAT_BUSY true)

/-- Restate FUSE_STAT.FREE and MEM_PEND. -/
def Dev.fuseStat (d : Dev) : Dev :=
  (d.put pgFuse FUSE_STAT_FREE (1024 - d.prt.fuses.length)).put pgProt MEM_PEND_COUNT d.prt.pending.length

/-- The burn ends with a result. -/
def Dev.burnOver (d : Dev) (result : Nat) : Dev :=
  let d := ((d.setB pgFuse FUSE_CTL_BURN false).setB pgFuse FUSE_STAT_BUSY false).put pgFuse FUSE_STAT_RESULT result
  let d := if result = 2 then d.fault pgFuse 0x0E07 false false [d.prt.pending.length] else d
  let d := d.irq pgFuse FUSE_IRQ_BURN_DONE
  (if result = 0 then d else d.irq pgFuse FUSE_IRQ_BURN_FAIL).fuseStat

/-- The first `n` pending entries that find an unused fuse word are burned. -/
def Dev.burn (d : Dev) (n : Nat) : Dev :=
  let k := min n (1024 - d.prt.fuses.length)
  d.updPrt fun p => { p with fuses := p.fuses ++ p.pending.take k, pending := p.pending.drop k }

/-- FUSE_BURN_INTERRUPT after `done` whole entries: the interrupted entry's word is used and stays invalid. -/
def execFuseBurnInterrupt (done : Nat) (s : State) : Host.Outcome State Fault Refusal :=
  .next (s.noting (.fuseBurnInterrupt done) fun s => s.dec fun _ d =>
    if !d.flag pgFuse FUSE_STAT_BUSY || !d.rsv.pfLine then d
    else
      let d := d.burn done
      let d := match d.prt.pending with
        | e :: _ => if d.prt.fuses.length < 1024 then d.updPrt fun p => { p with fuses := p.fuses ++ [e % 2 ^ 31] } else d
        | [] => d
      d.burnOver 1)

/-- FUSE_BURN_END. -/
def execFuseBurnEnd (s : State) : Host.Outcome State Fault Refusal :=
  .next (s.noting (.cmd .fuseBurnEnd) fun s => s.dec fun _ d =>
    if !d.flag pgFuse FUSE_STAT_BUSY then d
    else
      let d := d.burn 1024
      d.burnOver (if d.prt.pending.isEmpty then 0 else 2))

/-- Undo the pending remap of slice `i`; one that is burned is never undone. -/
def Dev.undoRemap (d : Dev) (i : Nat) (f : Dev → Dev) : Dev :=
  let r := sliceRow i
  let e := fuseEntry 2 r.1 r.2 0 0
  if !d.prt.pending.contains e then d
  else f ((d.updPrt fun p => { p with pending := p.pending.filter (· != e), failing := p.failing.filter (· != i) }).fuseStat)

/-- FAILED_BIT_CLEAR: bits of a failed mask written 0 (R484). -/
def execFailedBitClear (m : FailedMask) (s : State) : Host.Outcome State Fault Refusal :=
  .next (s.noting (.failedBitClear m) fun s => s.dec fun _ d =>
    if !d.flag pgFuse FUSE_STAT_MAINT then d
    else
      match m with
      | .adc k mask =>
        let p := pgFth k
        (List.range 5).foldl (fun d sl =>
          if bit mask.toNat sl || !bit (d.get p FTH_ADC_FAILED) sl then d
          else d.undoRemap (22 + 5 * k.val + sl) fun d =>
            let d := d.put p FTH_ADC_FAILED (setBits (d.get p FTH_ADC_FAILED) sl 1 0)
            if d.get p FTH_ADC_FAILED = 0 then d.put p FTH_ADC_STANDIN 7 else d) d
      | .lanes e mask =>
        let q := pgEll e
        (List.range 8).foldl (fun d l =>
          if bit mask.toNat l || !bit (d.get q ELL_STAT_LANE_FAILED) l then d
          else d.undoRemap (47 + 9 * e.val + l) fun d =>
            let d := d.put q ELL_STAT_LANE_FAILED (setBits (d.get q ELL_STAT_LANE_FAILED) l 1 0)
            if (d.engine e).spare = some l then
              ((d.updEngine e fun g => { g with spare := none }).setB q ELL_STAT_SPARE_USED false).put q ELL_STAT_STANDIN 15
            else d.updEngine e fun g => { g with dead := setBits g.dead l 1 0 }) d)

end Sys2Proof.Machine
end

