-- ==== Sys2Proof/Machine/Reserve.lean ====
section
/-! DEFINITION. The hold-up bank and the reserve account (R109 to R119, R135, R136). The power-loss commit itself stands
in PowerLoss.lean. -/

namespace Sys2Proof.Machine

open Sys2Proof

/-! ### AVAIL (R113, R118, R119) -/

/-- The energy formula of R113 in µJ: capacitance nF, ESR mΩ, lowest VHOLD mV. -/
def availOf (cNf esr vMin vFloor iFloor eta derate : Nat) : Nat :=
  let vf := vFloor + iFloor * esr / 1000
  let e := if vMin ≤ vf then 0 else cNf * (vMin * vMin - vf * vf) / 2000000000
  min (e * min 1000 eta / 1000 * min 1000 derate / 1000) 0xFFFFFFFF

/-- Has the VHOLD sampler failed its calibration (R495)? It is element 1 of path 4. -/
def Dev.vholdBad (d : Dev) : Bool := d.cal.elems.any fun e => e.1 == 4 * 256 + 1 && e.2.failed

/-- AVAIL with derating `derate` over the Stone's lowest VHOLD, 0 while no C value is in use (R113). -/
def Dev.availWith (d : Dev) (derate : Nat) : Nat :=
  if !d.flag pgRsv RSV_STAT_VALID || d.vholdBad then 0
  else availOf (d.get pgBank BANK_C) (d.get pgBank BANK_ESR_ESR_MOHM) (d.get pgBank BANK_V_VHOLD_MIN_MV)
    (d.get pgRsv RSV_FLOOR_V_FLOOR_MV) (d.get pgRsv RSV_FLOOR_I_FLOOR_MA) (d.get pgRsv RSV_FACTORS_ETA_PM) derate

/-- MIN (R118). -/
def Dev.rsvMin (d : Dev) : Nat := d.get pgRsv RSV_E_FIXED + d.get pgRsv RSV_MIN_MIN_CW * d.get pgRsv RSV_E_UNIT_E_CW

/-- The last item of a plan has taken effect (R504): none is held back, and every coefficient is committed (R507). -/
def Dev.planDone (d : Dev) : Dev :=
  if d.flag pgMplan MP_STAT_APPLYING && d.cal.held.isEmpty && d.cal.derate.isNone
      && [0, 1].all (fun (e : Nat) => ((d.ell.engines[e]?).getD {}).commits.isEmpty) then
    (d.setB pgMplan MP_STAT_APPLYING false).irq pgMplan MPLAN_IRQ_APPLIED
  else d

/-- DERATE_PM takes a plan's value (R506). -/
def Dev.derated (d : Dev) (n : Nat) : Dev :=
  let d := { d with cal := { d.cal with derate := none } }
  (((d.put pgRsv RSV_FACTORS_DERATE_PM n).setB pgMplan MP_STAT_DERATE_PENDING false).setB pgMplan MP_STAT_HELD
    (!d.cal.held.isEmpty)).planDone

/-- The recompute of the first Grain of a Stone (R113, R118, R119): AVAIL, BELOW_MIN, DEFICIT with its record, and the
settle-urgent signal. Not performed when a main-supply loss is in effect (R124). -/
def Dev.recompute (d : Dev) : Dev :=
  if d.flag pgRsv RSV_STAT_PF then d
  else
    let old := d.availWith (d.get pgRsv RSV_FACTORS_DERATE_PM)
    let d := match d.cal.derate with
      | some n => if d.promised ≤ d.availWith n then d.derated n
        else (d.setB pgMplan MP_STAT_DERATE_PENDING true).setB pgMplan MP_STAT_HELD true
      | none => d
    let a := d.availWith ((d.cal.derate).getD (d.get pgRsv RSV_FACTORS_DERATE_PM))
    let below := decide (a < d.rsvMin)
    let short := decide ((if d.cal.derate.isSome then old else a) < d.promised)
    let wasBelow := d.flag pgRsv RSV_STAT_BELOW_MIN
    let wasShort := d.flag pgRsv RSV_STAT_DEFICIT
    let d := ((d.put pgRsv RSV_AVAIL a).setB pgRsv RSV_STAT_BELOW_MIN below).setB pgRsv RSV_STAT_DEFICIT short
    let d := if below && !wasBelow then d.irq pgRsv RSV_IRQ_BELOW_MIN else d
    let d := if short && !wasShort then
        (d.irq pgRsv RSV_IRQ_DEFICIT).fault pgRsv 0x0202 false false [a, d.promised]
      else d
    let d := if short && !d.flag pgFsch FSCH_STAT_URGENT then d.irq pgFsch FSCH_IRQ_URGENT_ON else d
    d.setB pgFsch FSCH_STAT_URGENT short

/-! ### Measuring the bank (R109 to R112) -/

/-- Pulse current in mA: 4 mA steps, 1 to 125 (R136). -/
def Dev.pulseMa (d : Dev) : Nat := 4 * clampN 1 125 (d.get pgBank BANK_MEAS_CFG_I_PULSE)

/-- Pulse length in Grains, 0 taken as 1 (R136). -/
def Dev.pulseGrains (d : Dev) : Nat := max 1 (d.get pgBank BANK_MEAS_CFG_PULSE_GRAINS)

/-- Twice the pulse energy in pJ (R109 step 2). -/
def Dev.pulseEnergy2 (d : Dev) : Nat := 2 * (d.get pgBank BANK_V_VHOLD_MV * d.pulseMa * d.pulseGrains * 4)

/-- STABLE (R109): 16 Stones known, and every sample within 2 % of their mean. -/
def stable16 (l : List (Nat × Nat × Nat)) : Bool :=
  let mean := (l.map fun x => x.2.2).sum / 16
  l.length == 16 && l.all fun x => mean * 98 ≤ x.1 * 100 && x.2.1 * 100 ≤ mean * 102

/-- A Stone's VHOLD samples enter BANK_V and STABLE (R109, R136). -/
def Dev.vholdStone (d : Dev) (lo hi last : Nat) : Dev :=
  let h := ((lo, hi, last) :: d.rsv.vhist).take 16
  let d := { d with rsv := { d.rsv with vhist := h, periodStones := d.rsv.periodStones + 1 } }
  ((d.put pgBank BANK_V_VHOLD_MIN_MV lo).put pgBank BANK_V_VHOLD_MV last).setB pgBank BANK_STAT_STABLE (stable16 h)

/-- The Stone edge at which judged values are adopted (R111); the always-on SRAM takes them too (R112). -/
def Dev.adopt (d : Dev) : Dev :=
  let d := match d.rsv.adoptC with
    | some c => (((d.put pgBank BANK_C c).setB pgRsv RSV_STAT_VALID true).setB pgBank BANK_STAT_MEAS_VALID true)
    | none => d
  let d := match d.rsv.adoptEsr with
    | some e => d.put pgBank BANK_ESR_ESR_MOHM e
    | none => d
  let ce := if d.flag pgRsv RSV_STAT_VALID then some (d.get pgBank BANK_C, d.get pgBank BANK_ESR_ESR_MOHM) else d.rsv.aonCE
  { d with rsv := { d.rsv with adoptC := none, adoptEsr := none, aonCE := ce } }

/-- The level of HOLD_CHG_EN (R125, R136): CHG_EN, but low during a measurement and a commit. -/
def Dev.holdChgEn (d : Dev) : Bool :=
  d.flag pgBank BANK_CTL_CHG_EN && !d.flag pgBank BANK_STAT_MEAS_BUSY && !d.rsv.committing

/-- MEAS_GO (R109 step 1). -/
def execMeasGo (s : State) : Host.Outcome State Fault Refusal :=
  .next (s.noting (.cmd .measGo) fun s => s.dec fun _ d => ({ d with rsv := { d.rsv with measRequest := true } }).setB pgBank BANK_CTL_MEAS_GO true)

/-- MEAS_PERIOD_EXPIRY: PERIOD_STONES Stones have passed while MEAS_AUTO is 1 (R109 step 1). -/
def execMeasPeriodExpiry (s : State) : Host.Outcome State Fault Refusal :=
  .next (s.noting (.cmd .measPeriodExpiry) fun s => s.dec fun _ d =>
    if d.flag pgBank BANK_CTL_MEAS_AUTO && max 1 (d.get pgBank BANK_MEAS_CFG_PERIOD_STONES) ≤ d.rsv.periodStones then
      { d with rsv := { d.rsv with measRequest := true, periodStones := 0 } }
    else d)

/-- May a measurement start (R109 step 2, R112)? -/
def Dev.measMayStart (vis d : Dev) : Bool :=
  (d.rsv.measRequest || d.rsv.mustMeasure) && !d.rsv.pfLine && !d.flag pgRsv RSV_STAT_PF && d.flag pgBank BANK_STAT_STABLE
    && !d.flag pgBank BANK_STAT_MEAS_BUSY && !d.agreed pgRsv && d.gtime % 256 == 0
    && (decide (d.pulseEnergy2 + vis.promised * 1000000 ≤ vis.get pgRsv RSV_AVAIL * 1000000)
      || (vis.get pgRsv RSV_AVAIL == 0 && vis.get pgRsv RSV_HELD == 0))

/-- MEAS_START (R109 steps 2 and 3): HOLD_CHG_EN goes low. -/
def execMeasStart (s : State) : Host.Outcome State Fault Refusal :=
  .next (s.noting (.cmd .measStart) fun s => s.dec fun vis d =>
    if !Dev.measMayStart vis d then d
    else
      let d := { d with rsv := { d.rsv with measRequest := false, mustMeasure := false, measStart := d.gtime } }
      (d.setB pgBank BANK_STAT_MEAS_BUSY true).setB pgBank BANK_CTL_MEAS_GO false)

/-- One quantity of a successful measurement (R111): `better` says whether the first argument is better than the second,
`pick` gives the smaller improvement. The result is what is adopted, and the candidate left. -/
def judge (better : Nat → Nat → Bool) (pick : Nat → Nat → Nat) (inUse : Nat) (cand : Option Nat) (v : Nat) :
    Option Nat × Option Nat :=
  if better v inUse then
    match cand with
    | none => (none, some v)
    | some c => (some (pick c v), none)
  else (some v, none)

/-- Capacitance in nF of R109 step 7: V0 − V3 in µV. -/
def capOf (ma grains dv : Nat) : Nat := ma * grains * 4 * 1000000 / dv

/-- Grains of a measurement: the wait and the mean of V0, the pulse, and the 16 Grains behind it (R109 steps 3 to 6). -/
def Dev.measGrains (d : Dev) : Nat := 33 + d.pulseGrains + 16

/-- Does the power die sink the pulse through VHOLD_SINK (R109 step 5, R110)? -/
def Dev.vholdSink (d : Dev) : Bool :=
  d.flag pgBank BANK_STAT_MEAS_BUSY && !d.rsv.pfLine && decide (d.rsv.measStart + 33 ≤ d.gtime)
    && decide (d.gtime < d.rsv.measStart + 33 + d.pulseGrains)

/-- MEAS_RESULT: the averages V0 to V3 in µV, once their Grains have passed; C and ESR are computed and judged (R109 steps 7 and 8,
R111). A V2 below V1 gives ESR 0 (DESIGN CHOICE, notes/assumptions/43.md). -/
def execMeasResult (v0 v1 v2 v3 : Nat) (s : State) : Host.Outcome State Fault Refusal :=
  .next (s.noting (.cmd (.measResult v0 v1 v2 v3)) fun s => s.dec fun _ d =>
    if !d.flag pgBank BANK_STAT_MEAS_BUSY || d.gtime < d.rsv.measStart + d.measGrains then d
    else
      let c := capOf d.pulseMa d.pulseGrains (v0 - v3)
      let esr := min 0xFFFF ((v2 - v1) / d.pulseMa)
      let bad := v0 ≤ v3 || c < d.get pgBank BANK_PLAUS_C_MIN_UF * 1000 || d.get pgBank BANK_PLAUS_ESR_MAX_MOHM < esr
      let d := d.setB pgBank BANK_STAT_MEAS_BUSY false
      let d := d.irq pgBank BANK_IRQ_MEAS_DONE
      if bad then
        let n := min 3 (d.get pgBank BANK_ESR_MEAS_FAILS + 1)
        let d := ((d.put pgBank BANK_ESR_MEAS_FAILS n).irq pgBank BANK_IRQ_MEAS_FAIL).fault pgBank 0x0201 false false []
        if n = 3 then d.put pgBank BANK_C 0 else d
      else
        let d := d.put pgBank BANK_ESR_MEAS_FAILS 0
        if !d.flag pgRsv RSV_STAT_VALID || d.get pgBank BANK_C == 0 then
          { d with rsv := { d.rsv with adoptC := some c, adoptEsr := some esr, candC := none, candEsr := none } }
        else
          let jc := judge (fun a b => decide (b < a)) min (d.get pgBank BANK_C) d.rsv.candC c
          let je := judge (fun a b => decide (a < b)) max (d.get pgBank BANK_ESR_ESR_MOHM) d.rsv.candEsr esr
          { d with rsv := { d.rsv with adoptC := jc.1, candC := jc.2, adoptEsr := je.1, candEsr := je.2 } })

/-- RSV_COMMIT_SEQ_LO_READ (R135, R43). -/
def execRsvCommitSeqLoRead (r : Requester) (s : State) : Host.Outcome State Fault Refusal :=
  .next (s.noting (.cmd (.rsvCommitSeqLoRead r)) fun s => s.both fun d => d.latch r (pgRsv + RSV_COMMIT_SEQ_HI.off) (s.vis.rd (pgRsv + RSV_COMMIT_SEQ_LO.off))
    (s.vis.rd (pgRsv + RSV_COMMIT_SEQ_HI.off)))

end Sys2Proof.Machine
end

