-- ==== Sys2Proof/Machine/Calib.lean ====
section
/-! DEFINITION. Background calibration, ageing measures and the margin plan (chapter 16). -/

namespace Sys2Proof.Machine

open Sys2Proof

def Dev.updCal (d : Dev) (f : Calib → Calib) : Dev := { d with cal := f d.cal }

/-! ### Elements (R491)
Path 1: input j of port p is 10 p + j; 2: the channel; 3: one; 4: VMOT_SNS, VHOLD_SNS, logic-die and power-die temperature;
5: the motor channel; 6: bridge i (FCS, TRK, TLT) of port p is 3 p + i. Path 0 follows R268 to R270. -/

/-- Elements of a path. -/
def pathElems (path : Nat) : Nat :=
  match path with
  | 1 => 40
  | 2 => 16
  | 3 => 1
  | 4 => 4
  | 5 => 6
  | 6 => 12
  | _ => 0

/-- The longest interval of a path in Grains. -/
def pathInterval (path : Nat) : Nat :=
  match path with
  | 1 => 256 * 256
  | 2 => 1024 * 256
  | 3 => 64 * 256
  | 4 => 256
  | 5 => 16 * 256
  | 6 => 64 * 256
  | _ => 88

/-- The page that owns an element's value. -/
def elemPage (path e : Nat) : Nat :=
  match path with
  | 1 => pgOps (e / 10)
  | 2 => pgFch e
  | 3 => pgDdr
  | 4 => if e < 2 then pgBank else pgScr
  | 5 => pgCmt e
  | _ => pgOps (e / 3)

def Dev.elem (d : Dev) (path e : Nat) : CalElem :=
  match d.cal.elems.find? fun x => x.1 == path * 256 + e with
  | some x => x.2
  | none => {}

def Dev.setElem (d : Dev) (path e : Nat) (x : CalElem) : Dev :=
  d.updCal fun c => { c with elems := (path * 256 + e, x) :: c.elems.filter fun y => y.1 != path * 256 + e }

/-- Is an element's value stale (R496)? -/
def Dev.elemStale (d : Dev) (path e : Nat) : Bool :=
  match (d.elem path e).okAt with
  | some g => decide (max 1 (d.get pgCal CAL_CFG_STALE_X) * pathInterval path < d.gtime - g)
  | none => true

/-- The pages that own calibrated values. -/
def calPages : List Nat :=
  (List.range 4).map pgOps ++ (List.range 16).map pgFch ++ [pgDdr, pgBank, pgScr] ++ (List.range 6).map pgCmt

/-- The pages that own values of a path, each with the elements that it owns. -/
def pathPages (path : Nat) : List (Nat × List Nat) :=
  match path with
  | 1 => (List.range 4).map fun p => (pgOps p, (List.range 10).map fun j => 10 * p + j)
  | 2 => (List.range 16).map fun k => (pgFch k, [k])
  | 3 => [(pgDdr, [0])]
  | 4 => [(pgBank, [0, 1]), (pgScr, [2, 3])]
  | 5 => (List.range 6).map fun c => (pgCmt c, [c])
  | 6 => (List.range 4).map fun p => (pgOps p, [3 * p, 3 * p + 1, 3 * p + 2])
  | _ => []

/-- Does page `p` own a value that is stale (R496)? -/
def Dev.pageStale (d : Dev) (p : Nat) : Bool :=
  [1, 2, 3, 4, 5, 6].any fun path => (pathPages path).any fun x => x.1 == p && x.2.any fun e => d.elemStale path e

/-- Restate CAL_STAT and the STALE bits of the pages that own calibrated values (R493, R496). -/
def Dev.calStat (d : Dev) : Dev :=
  let adc := [0, 1, 2, 3, 4].any fun k => d.flag (pgFth k) PG_STAT_STALE
  let stale (p : Nat) : Bool := if p = 0 then adc else (List.range (pathElems p)).any fun e => d.elemStale p e
  let failed (p : Nat) : Bool := d.cal.elems.any fun x => x.1 / 256 == p && x.2.failed
  let mask (f : Nat → Bool) : Nat := (List.range 7).foldl (fun m p => setBits m p 1 (b2n (f p))) 0
  let d := (d.put pgCal CAL_STAT_STALE (mask stale)).put pgCal CAL_STAT_FAILED (mask failed)
  calPages.foldl (fun d p => d.setStale p (d.pageStale p)) d

/-- CAL_STAT in a Grain: it is restated when an interval has run out, STALE_X has been written, or a slice of path 0 has gone stale or
fresh (R496). -/
def Dev.calGrain (vis d : Dev) : Dev :=
  let lim (e : Nat × CalElem) : Nat := max 1 (d.get pgCal CAL_CFG_STALE_X) * pathInterval (e.1 / 256)
  let out := d.cal.elems.any fun e => e.2.okAt.any fun g => g + lim e + 1 == d.gtime
  let adc := [0, 1, 2, 3, 4].any fun k => d.flag (pgFth k) PG_STAT_STALE
  if out || vis.get pgCal CAL_CFG_STALE_X != d.get pgCal CAL_CFG_STALE_X || adc != bit (d.get pgCal CAL_STAT_STALE) 0 then d.calStat
  else d

/-! ### Steps (R491 to R494, R497) -/

/-- Does the condition for a step of an element hold (R491)? Class 5 work does not start while settle-urgent is asserted (R178). -/
def Dev.calHolds (d : Dev) (path e : Nat) : Bool :=
  match path with
  | 1 => d.get (pgOps (e / 10)) OPS_STAT_STATE == 0
  | 2 => (d.chan e).current.isNone && !(d.chan e).disabled && !d.flag pgFsch FSCH_STAT_URGENT
  | 3 => d.flag pgDdr DDR_STAT_TRAINED && !d.flag pgDdr DDR_STAT_SELF_REFRESH
  | 4 => true
  | 5 => d.get (pgCmt e) CMT_STAT_STATE == 0
  | 6 => d.get (pgOps (e / 3)) OPS_STAT_STATE == 0 && d.rd (pgOps (e / 3) + OPS_DRIVE0.off) == 0
      && d.get (pgOps (e / 3)) OPS_DRIVE1_TLT == 0
  | _ => false

/-- The Grains for which each port has been IDLE, up to 64, at the edge that begins a Grain. -/
def Dev.idleGrain (d : Dev) : Dev :=
  (List.range 4).foldl (fun d p =>
    let n := (d.cal.idle[p]?).getD 0
    let m := if d.get (pgOps p) OPS_STAT_STATE = 0 then min 64 (n + 1) else 0
    if m = n then d else d.updCal fun c => { c with idle := c.idle.setIfInBounds p m }) d

/-- The steps of path 1 take a Grain's samples of their inputs, 256 Grains in all; `pd` gives a port's four sets of ten (R339, R491). -/
def Dev.calCapture (d : Dev) (pd : Nat → List (List (BitVec 12))) : Dev :=
  let take (x : CalRun) : CalRun :=
    if x.key / 256 != 1 || 256 ≤ x.grains then x
    else
      let j := x.key % 256
      let s (k : Nat) : Nat := (nthD (nthD (pd (j / 10)) k []) (j % 10) 0).toNat
      { x with grains := x.grains + 1, sum := x.sum + s 0 + s 1 + s 2 + s 3 }
  if d.cal.running.isEmpty then d else d.updCal fun c => { c with running := c.running.map take }

/-- A step whose condition has ended is abandoned (R497). -/
def Dev.calAbandon (vis d : Dev) : Dev :=
  if d.cal.running.all fun x => vis.calHolds (x.key / 256) (x.key % 256) then d
  else d.updCal fun c => { c with running := c.running.filter fun x => vis.calHolds (x.key / 256) (x.key % 256) }

/-- The offset field of input `j` of a port. -/
def pdOfs (j : Nat) : Fld := ⟨OPS_PD_OFS.off + 4 * (j / 2), if j % 2 = 1 then 16 else 0, 12⟩

/-- The median of three readings (R494). -/
def median3 (a b c : Int) : Int := max (min a b) (min (max a b) c)

/-- Which of three readings are not dropped: those for which `near` their median holds (R494). -/
def kept (near : Int → Int → Bool) (l : List Int) : List Nat :=
  let m := median3 (nthD l 0 0) (nthD l 1 0) (nthD l 2 0)
  [0, 1, 2].filter fun i => near m (nthD l i 0)

/-- A bandgap within 0.5 % of the median, and a sensor within 5 °C (R494). -/
def nearGap (m x : Int) : Bool := (x - m).natAbs * 200 ≤ m.natAbs
def nearTemp (m x : Int) : Bool := (x - m).natAbs ≤ 500

/-- The first element whose measured offset is the smallest (R494). -/
def leastOffset (l : List Int) : Nat :=
  (l.zipIdx.foldl (fun (a : Nat × Int) x => if x.1.natAbs < a.2.natAbs then (x.2, x.1) else a) (0, nthD l 0 0)).1

/-- What a step has found: the values that come into use, and which of the redundant elements do (R491, R494). -/
structure CalFound where
  vals : List Int
  chosen : List Nat := []

/-- The values and choices of a step's result; `o` is the offset of path 1, `line` the delay line in use (R491, R494). -/
def calFound (v : CalValue) (o line : Nat) : CalFound :=
  match v with
  | .offset => { vals := [(o : Int)] }
  | .phy _ c => { vals := [c], chosen := [1 - line] }
  | .drift n => { vals := [(n : Int)] }
  | .sampler g o a b c => { vals := [g, o, median3 a b c], chosen := kept nearGap [(a : Int), b, c] }
  | .sensors a b c => { vals := [median3 a b c], chosen := kept nearTemp [a, b, c] }
  | .motor s a b c =>
    let i := [leastOffset a, leastOffset b, leastOffset c]
    { vals := [s, nthD a (nthD i 0 0) 0, nthD b (nthD i 1 0) 0, nthD c (nthD i 2 0) 0], chosen := i }
  | .bridge x => { vals := [x] }

/-- Is a result one of the element's path? -/
def calFits (v : CalValue) (path e : Nat) : Bool :=
  match v with
  | .offset => path == 1
  | .phy _ _ => path == 2
  | .drift _ => path == 3
  | .sampler .. => path == 4 && e < 2
  | .sensors .. => path == 4 && 2 ≤ e
  | .motor .. => path == 5
  | .bridge _ => path == 6

/-- Does a result lie within the plausibility limit of its path (R491), with no element dropped (R494)? -/
def Dev.plausibleStep (d : Dev) (path e : Nat) (v : CalValue) (x : CalFound) : Bool :=
  let n (i : Nat) : Nat := (nthD x.vals i 0).natAbs
  match v with
  | .offset => (nthD x.vals 0 0 - d.get (pgOps (e / 10)) (pdOfs (e % 10))).natAbs ≤ 256
  | .phy eye centre => 30 ≤ eye && (centre - (d.chan e).trainedPh).natAbs ≤ 16
  | .drift m => m < 256
  | .sampler .. => n 0 ≤ 100 && n 1 ≤ 20 && x.chosen.length == 3
  | .sensors .. => x.chosen.length == 3
  | .motor .. => n 0 ≤ 5000 && n 1 ≤ 50000 && n 2 ≤ 50000 && n 3 ≤ 50000
  | .bridge _ => path == 6 && n 0 ≤ 2000

/-- A plausible result comes into force at the next edge (R492). -/
def Dev.calApply (d : Dev) (path e : Nat) (v : CalValue) (x : CalFound) : Dev :=
  let d := d.setElem path e { d.elem path e with fails := 0, failed := false, okAt := some d.gtime, vals := x.vals, chosen := x.chosen }
  match v with
  | .offset => d.putI (pgOps (e / 10)) (pdOfs (e % 10)) (nthD x.vals 0 0)
  | .phy _ c =>
    let ph : Int := d.get (pgFch e) FCH_TRAIN_DQS_PH
    d.put (pgFch e) FCH_TRAIN_DQS_PH (ph + clampI (-2) 2 (c - ph)).toNat
  | _ => d

/-- A step has failed (R493): the values in use stay. Dropped elements are out of use at once, and two of three degrade the page (R494). A
path that fails starts the training that R493 gives it. -/
def Dev.calFail (d : Dev) (path e : Nat) (x : CalFound) : Dev :=
  let y := d.elem path e
  let d := (d.inc pgCal CAL_FAILS_COUNT).irq pgCal CAL_IRQ_CAL_FAIL
  let n := y.fails + 1
  let hit := decide (max 1 (d.get pgCal CAL_CFG_FAIL_N) ≤ n) && !y.failed
  let d := d.setElem path e
    { y with fails := n, failed := y.failed || hit, chosen := if path = 4 then x.chosen else y.chosen }
  let d := if path = 4 && x.chosen.length < 2 then d.setDegraded (elemPage path e) else d
  if hit then
    let d := if path = 2 then d.updChan e fun c => { c with retrain := true }
      else if path = 3 then { d with mc := { d.mc with dqDue := true } } else d
    ((d.setDegraded (elemPage path e)).fault pgCal 0x0F01 true false [path, e, ofInt 32 (nthD x.vals 0 0)]).irq pgCal CAL_IRQ_PATH_FAILED
  else d

/-- A channel whose drift steps have failed trains again in the first Grain in which it has no work of classes 1 to 4; until the report of
PHY_TRAIN it is not trained (R168, R493). -/
def Dev.retrainGrain (vis d : Dev) : Dev :=
  (List.range 16).foldl (fun d k =>
    if (d.chan k).retrain && (vis.chan k).ops.all fun o => 5 ≤ o.cls then
      (d.setB (pgFch k) FCH_TRAIN_TRAINED false).updChan k fun c => { c with retrain := false }
    else d) d

/-- CAL_STEP of element `e` of a path: without a result the step starts, if its condition holds; with one it ends. A step of path 1 takes
256 Grains. -/
def execCalStep (path : Fin 7) (e : Nat) (v : Option CalValue) (s : State) : Host.Outcome State Fault Refusal :=
  .next (s.noting (.calStep path e v) fun s => s.dec fun vis d =>
    let key := path.val * 256 + e
    let idle := path.val != 1 || 64 ≤ (d.cal.idle[e / 10]?).getD 0
    if pathElems path ≤ e then d
    else
      match v, d.cal.running.find? fun x => x.key == key with
      | none, none =>
        if !d.starts pgCal || !bit (d.get pgCal CAL_CTL_PATH_EN) path || !vis.calHolds path e || !idle then d
        else d.updCal fun c => { c with running := c.running ++ [{ key := key, since := d.gtime }] }
      | some v, some run =>
        if !calFits v path e || !vis.calHolds path e || (path.val == 1 && run.grains < 256) then d
        else
          let x := calFound v (run.sum / 1024) (nthD (d.elem path e).chosen 0 0)
          let d := d.updCal fun c => { c with running := c.running.filter fun y => y.key != key }
          (if d.plausibleStep path e v x then d.calApply path e v x else d.calFail path e x).calStat
      | _, _ => d)

/-- CAL_STEP_ABANDON: the step's condition has ended; this is no failure (R497). A refresh of the LPDDR5 devices, which ends that of path 3,
no register shows. -/
def execCalStepAbandon (path : Fin 7) (e : Nat) (s : State) : Host.Outcome State Fault Refusal :=
  .next (s.noting (.calStepAbandon path e) fun s => s.dec fun vis d =>
    if path.val != 3 && vis.calHolds path e then d
    else d.updCal fun c => { c with running := c.running.filter fun x => x.key != path.val * 256 + e })

/-- A wake from SLEEP or DEEP leaves every value stale until its element's next step (R496). -/
def Dev.calWake (d : Dev) : Dev :=
  (d.updCal fun c => { c with elems := c.elems.map fun (x : Nat × CalElem) => (x.1, { x.2 with okAt := none }) }).calStat

/-! ### Ageing measures (R498 to R500) -/

/-- A sample of a measure. -/
def Dev.sample (d : Dev) (id : Nat) (v : Int) : Dev :=
  let n := match d.cal.samples.find? (·.1 == id) with
    | some x => x.2.1
    | none => 0
  d.updCal fun c => { c with samples := (id, n + 1, v) :: c.samples.filter (·.1 != id) }

/-- The mean commanded level code of a Grain in which line `i` spent `high i` of its 4,000 ns high, with PR's for the rest (R318, R499). -/
def Dev.meanCode (d : Dev) (k : Nat) (high : List (BitVec 12)) : Nat :=
  let code (i : Nat) : Nat := (((d.port k).sent[i]?).getD none).getD 0
  let t (i : Nat) : Nat := (nthD high i 0).toNat
  (t 0 * code 0 + t 1 * code 1 + t 2 * code 2 + t 3 * code 3 + (4000 - (t 0 + t 1 + t 2 + t 3)) * code 4) / 4000

/-- The pair of a Grain of port `k`, in TRACKING with no jump: level code and row 4 (R499). -/
def Dev.laserGrain (vis d : Dev) (k : Nat) (high : List (BitVec 12)) : Dev :=
  if vis.get (pgOps k) OPS_STAT_STATE != 3 || (vis.optPort k).op != .none then d
  else
    let c := vis.meanCode k high
    let m : Int := (d.optPort k).row 4
    let x := (d.cal.laser[k]?).getD {}
    let y : LaserSum := { n := x.n + 1, c := x.c + c, m := x.m + m, cc := x.cc + (c * c : Nat), cm := x.cm + c * m }
    d.updCal fun s => { s with laser := s.laser.setIfInBounds k y }

/-- Does spindle `k` run as a sample of R499 asks? -/
def Dev.spinRuns (d : Dev) (k : Nat) : Bool :=
  d.get (pgCmt k) CMT_STAT_STATE == 3 && d.flag (pgCmt k) CMT_STAT_OBS_LOCK && decide (0 < d.getI (pgCmt k) CMT_DUTY_DUTY)

/-- Have a spindle's conditions held in every Grain of the present Stone so far (R499)? -/
def Dev.spinGrain (vis d : Dev) : Dev :=
  d.updCal fun c => { c with spinOk := Vector.ofFn fun k => (d.stoneBegins || (c.spinOk[k]?).getD false) && vis.spinRuns k }

/-- The spindle's sample of the Stone that has ended (R499). -/
def Dev.spinStone (vis d : Dev) (k : Nat) : Dev :=
  let q := pgCmt k
  let rpm := vis.get q CMT_SPEED_RPM
  let old := (d.cal.spinRpm[k]?).getD 0
  let ref := d.get pgAge AGE_CFG_SPN_REF_RPM
  let d := d.updCal fun c => { c with spinRpm := c.spinRpm.setIfInBounds k rpm }
  let steady := ((rpm : Int) - old).natAbs * 1000 < 5 * old
  let near := ((rpm : Int) - ref).natAbs * 20 ≤ ref
  if (d.cal.spinOk[k]?).getD false && decide steady && decide near then
    let x := (d.cal.spin[k]?).getD (0, 0)
    d.updCal fun c => { c with spin := c.spin.setIfInBounds k (x.1 + 1, x.2 + vis.get q CMT_CUR_I_MEAN_MA) }
  else d

/-- The samples of a Stone, from its snapshots (R40, R499): `ages` gives the measures 0x00 to 0x0C that were taken. -/
def Dev.ageStone (vis d : Dev) (ages : List (Option Int)) : Dev :=
  let d := (ages.take 13).zipIdx.foldl (fun d x =>
    match x.1 with
    | some v => d.sample x.2 v
    | none => d) d
  let d := [0, 1, 2, 3].foldl (fun d b =>
    let p := pgFstr b
    let n := ((vis.fls.maps[b]?).getD {}).stoneReads
    let d := if n = 0 then d
      else (d.sample (0x10 + b) (vis.get p FSTR_STONE_CORR_K * 1000 * 256 / n : Nat)).sample (0x14 + b)
        (vis.get p FSTR_STONE_RETRY_SUM * 1000 / n : Nat)
    if vis.flag p FSTR_STAT_MAP_OK then d.sample (0x18 + b) (vis.get p FSTR_WEAR_PE_MAX : Nat) else d) d
  let d := if vis.flag pgRsv RSV_STAT_VALID then (d.sample 0x28 (vis.get pgBank BANK_C : Nat)).sample 0x29
      (vis.get pgBank BANK_ESR_ESR_MOHM : Nat) else d
  let d := if vis.flag pgTb TB_CTL_WALL_VALID then d.sample 0x38 (vis.getI pgTb TB_WALL_RATE_RATE_PPB) else d
  let d := d.sample 0x39 (vis.getI pgPwr PWR_AON_ERR_VALUE)
  [0, 1, 2, 3].foldl (fun d k => Dev.spinStone vis d k) d

/-- The page that a measure is drawn from. -/
def agePage (id : Nat) : Nat :=
  if id < 0x10 then pgAge
  else if id < 0x14 then pgFstr (id - 0x10)
  else if id < 0x18 then pgFstr (id - 0x14)
  else if id < 0x20 then pgFstr (id % 4)
  else if id < 0x28 then pgOps (id % 4)
  else if id < 0x30 then pgBank
  else if id < 0x38 then pgCmt (id % 4)
  else if id = 0x38 then pgTb
  else pgPwr

/-- A review of one measure: its value and samples, or `none` where it is not fresh. -/
def Dev.putAge (d : Dev) (id n : Nat) (v : Option Int) : Dev :=
  let a := pgAgeb + 16 * id
  let fresh := v.isSome && n != 0 && !d.flag (agePage id) PG_STAT_STALE
  let d := match v with
    | some v => if fresh then d.wr a (BitVec.ofInt 32 v) else d
    | none => d
  d.wr (a + 8) (BitVec.ofNat 32 (b2n fresh * 2 ^ 31 + min 0xFFFF n))

/-- The laser's two measures (R499), fresh where the spread of c is wide enough; where the spec states no quotient (no spread at all, or
slope 0) the measure is a free value. -/
def Dev.reviewLaser (d : Dev) (k : Nat) : Dev :=
  let x := (d.cal.laser[k]?).getD {}
  let den := x.n * x.cc - x.c * x.c
  let num := x.n * x.cm - x.c * x.m
  let spread : Int := d.get pgAge AGE_CFG_LASER_SPREAD
  let wide := decide (spread * spread * (x.n * x.n) ≤ den)
  let free (d : Dev) (id : Nat) : Dev := d.free.2.putAge id x.n (some d.free.1.toInt)
  if x.n = 0 || !wide then (d.putAge (0x20 + k) x.n none).putAge (0x24 + k) x.n none
  else if den ≤ 0 then free (free d (0x20 + k)) (0x24 + k)
  else
    let d := d.putAge (0x24 + k) x.n (some (1024 * num / den))
    if num = 0 then free d (0x20 + k) else d.putAge (0x20 + k) x.n (some (16 * (x.c * num - x.m * den) / (x.n * num)))

/-- REVIEW at the edge that begins a Stone whose number is a multiple of REVIEW_S (R500). Both copies take the same free
values. -/
def execReview (s : State) : Host.Outcome State Fault Refusal :=
  .next (s.noting (.cmd .review) fun s => s.both fun d =>
    let g := d.gtime
    if g % 256 != 0 || g / 256 % max 1 (d.get pgMplan MP_CFG_REVIEW_S) != 0 || d.cal.reviewAt == some g then d
    else
      let d := { d with fresh := s.cur.fresh }
      let ids := (List.range 13) ++ [0x10, 0x11, 0x12, 0x13, 0x14, 0x15, 0x16, 0x17, 0x18, 0x19, 0x1A, 0x1B, 0x28, 0x29, 0x38, 0x39]
      let d := ids.foldl (fun d id =>
        match d.cal.samples.find? (·.1 == id) with
        | some x => d.putAge id x.2.1 (some x.2.2)
        | none => d.putAge id 0 none) d
      let d := [0, 1, 2, 3].foldl (fun d k =>
        let x := (d.cal.spin[k]?).getD (0, 0)
        (d.reviewLaser k).putAge (0x30 + k) x.1 (if x.1 = 0 then none else some (x.2 / x.1 : Nat))) d
      let d := d.updCal fun c =>
        { c with laser := Vector.replicate 4 {}, spin := Vector.replicate 4 (0, 0), samples := [], reviewAt := some g }
      d.irq pgMplan MPLAN_IRQ_REVIEW)

/-- Every fresh AGE_VAL is the reference (R500). -/
def Dev.baseline (vis d : Dev) : Dev :=
  (List.range 64).foldl (fun d id =>
    let a := pgAgeb + 16 * id
    if bit (vis.rd (a + 8)).toNat 31 then d.wr (a + 4) (vis.rd a) else d) d

/-- BASELINE: a write of 1 to MP_CTL.BASELINE (R500). -/
def execBaseline (s : State) : Host.Outcome State Fault Refusal :=
  .next (s.noting (.cmd .baseline) fun s => s.dec Dev.baseline)

/-! ### The margin plan (R501 to R509) -/

/-- Values of the bit fields of an item. -/
def PlanItem.f (x : PlanItem) (lo w : Nat) : Nat := bits x.value lo w

/-- Does an item hold only what its kind names (R502)? -/
def PlanItem.formed (x : PlanItem) : Bool :=
  let only (mask : Nat) : Bool := x.value &&& mask == x.value
  match x.kind with
  | 1 => x.inst == 0 && x.index == 0 && only 0x1FF03FF03FF
  | 2 => x.inst == 0 && x.index == 0 && only 0x3FF
  | 3 => x.index &&& 0x800F == x.index
  | 4 => x.index == 0 && only 0xFFFF
  | 5 => x.inst == 0 && x.index == 0 && only 0xFFFF0FFF0FFF
  | 6 => x.index == 0 && only 0x3FF03FF
  | 7 => x.index &&& 0x73F == x.index && only 0x1FFFFFFFFF
  | _ => false

/-- Does an item name something that exists? -/
def PlanItem.present (x : PlanItem) : Bool :=
  match x.kind with
  | 3 | 4 | 6 => x.inst < 4
  | 7 => x.inst < 2 && bits x.index 8 3 < 6
  | _ => true

/-- Does a SERVO item lie within its bound: slot not OFF, same sign, magnitude within GAIN_STEP_PCT of the value in use? -/
def Dev.servoBound (d : Dev) (x : PlanItem) : Bool :=
  let w := d.slotWords x.inst (bits x.index 0 6)
  let j := bits x.index 8 3
  let c := sext 32 (x.f 0 32)
  let u := slotC w j
  let a := c.natAbs * 2 ^ slotField w 8 (5 * j) 5 * 100
  let b := u.natAbs * 2 ^ x.f 32 5
  let pct := clampN 1 25 (d.get pgMplan MP_LIMITS_GAIN_STEP_PCT)
  slotType w != 0 && c.sign == u.sign && decide (b * (100 - pct) ≤ a) && decide (a ≤ b * (100 + pct))

/-- Does an item lie within its bound (R502)? -/
def Dev.bounded (d : Dev) (x : PlanItem) : Bool :=
  match x.kind with
  | 1 => 650 ≤ x.f 0 10 && x.f 0 10 ≤ x.f 16 10 && x.f 16 10 ≤ 850 && 20 ≤ x.f 32 9 && x.f 32 9 ≤ 400
  | 2 => clampN 500 950 (d.get pgMplan MP_LIMITS_DERATE_FLOOR) ≤ x.f 0 10 && x.f 0 10 ≤ 950
  | 3 => d.flag (pgFstr x.inst) FSTR_STAT_MAP_OK && d.slotStart x.inst 19 != 0
  | 4 => 100 ≤ x.f 0 16
  | 5 => x.f 0 12 ≤ x.f 16 12 && x.f 16 12 ≤ 120 && 1 ≤ x.f 32 16 && x.f 32 16 ≤ 720
  | 6 => x.f 0 10 ≤ d.get (pgOwp x.inst) WP_CEIL_CEIL_PS + 64 && x.f 16 10 ≤ d.get (pgOwp x.inst) WP_CEIL_CEIL_PW + 64
  | _ => d.servoBound x

/-- Do two items name the same target field? -/
def sameTarget (x y : PlanItem) : Bool :=
  x.kind == y.kind && (match x.kind with
    | 3 => x.inst == y.inst && bits x.index 0 4 == bits y.index 0 4
    | 4 | 6 => x.inst == y.inst
    | 7 => x.inst == y.inst && x.index == y.index
    | _ => true)

/-- The check of R503, entry by entry: RESULT and ENTRY of the first failure. `bad` is an entry whose read fails. -/
def Dev.checkPlan (d : Dev) (bad : Option Nat) : List (PlanItem × Nat) → Nat → List PlanItem → Option (Nat × Nat)
  | [], _, _ => none
  | (x, rsv) :: l, i, seen =>
    if bad = some i then some (5, i)
    else if !x.formed || rsv != 0 then some (1, i)
    else if !x.present then some (4, i)
    else if !d.bounded x then some (2, i)
    else if seen.any (sameTarget x ·) then some (3, i)
    else d.checkPlan bad l (i + 1) (x :: seen)

/-- The entry at an address, with its reserved bytes (R501). -/
def Dev.planEntry (d : Dev) (a : Nat) : PlanItem × Nat :=
  let g (o n : Nat) : Nat := leNat (memRead d.mem (a + o) n)
  ({ kind := g 0 1, inst := g 1 1, index := g 2 2, value := g 4 8 }, g 12 4)

/-- Entries of the plan: LEN, 0 taken as 1. -/
def Dev.planLen (d : Dev) : Nat := clampN 1 256 (d.get pgMplan MP_CTL_LEN)

/-- PLAN_SUBMIT: a write of `v` to MP_CTL with SUBMIT 1; `bad` is an entry whose read fails. -/
def execPlanSubmit (r : Requester) (v : Word) (bad : Option (Fin 256)) (s : State) : Host.Outcome State Fault Refusal :=
  .next (s.noting (.planSubmit r v bad) fun s => s.dec fun vis d =>
    let d := (d.put pgMplan MP_CTL_LEN (bits v.toNat 0 9)).put pgMplan MP_CTL_AVS_EN (bits v.toNat 30 1)
    let d := if bit v.toNat 29 then Dev.baseline vis d else d
    if d.flag pgMplan MP_STAT_APPLYING then d.errAt pgMplan MP_CTL .planBusy r
    else
      let base := d.get64 pgMplan MP_PLAN_BASE_LO MP_PLAN_BASE_HI / 16 * 16
      let l := (List.range d.planLen).map fun i => d.planEntry (base + 16 * i)
      match vis.checkPlan (bad.map (·.val)) l 0 [] with
      | some x =>
        let d := (d.put pgMplan MP_STAT_RESULT x.1).put pgMplan MP_STAT_ENTRY x.2
        (d.irq pgMplan MPLAN_IRQ_REJECTED).fault pgMplan 0x0F02 false false [x.1, x.2]
      | none => (d.put pgMplan MP_STAT_RESULT 0).updCal fun c => { c with plan := some (l.map (·.1)) })

/-- Is an item held back in this Grain (R505)? -/
def Dev.heldBack (d : Dev) (x : PlanItem) : Bool :=
  match x.kind with
  | 3 => d.fls.accesses.any fun a => a.bay == x.inst && (a.step == 2 || a.step == 3)
  | 6 => d.get (pgOwp x.inst) WP_JOB_STAT_STATE == 2
  | 7 =>
    let port := 2 * x.inst + slotPort (d.slotWords x.inst (bits x.index 0 6))
    let st := d.get (pgOps port) OPS_STAT_STATE
    st == 4 || st == 5
  | _ => false

/-- VREQ_MV within the bounds (R508). -/
def Dev.avsBound (d : Dev) : Dev :=
  d.put pgMplan MP_AVS_VREQ_MV (clampN (d.get pgMplan MP_AVS_BND_VMIN_MV) (d.get pgMplan MP_AVS_BND_VMAX_MV)
    (d.get pgMplan MP_AVS_VREQ_MV))

/-- An item takes effect. A lower DERATE waits for the recompute (R506). -/
def Dev.applyItem (d : Dev) (x : PlanItem) : Dev :=
  match x.kind with
  | 1 =>
    let d := ((d.put pgMplan MP_AVS_BND_VMIN_MV (x.f 0 10)).put pgMplan MP_AVS_BND_VMAX_MV (x.f 16 10)).put pgMplan
      MP_AVS_BND_SLACK_PS (x.f 32 9)
    if d.flag pgMplan MP_CTL_AVS_EN then d.avsBound else d
  | 2 =>
    if x.f 0 10 < d.get pgRsv RSV_FACTORS_DERATE_PM then d.updCal fun c => { c with derate := some (x.f 0 10) }
    else d.put pgRsv RSV_FACTORS_DERATE_PM (x.f 0 10)
  | 3 =>
    let e := bits x.index 0 4
    d.updMap x.inst fun m =>
      { m with retry := m.retry.setIfInBounds e x.value
               learned := if bit x.index 15 then m.learned.filter fun y => y.2 != e else m.learned }
  | 4 => d.put (pgFstr x.inst) FSTR_THRESH_PE_LIMIT (x.f 0 16)
  | 5 => ((d.put pgFint FINT_VERIFY_VERIFY_MAX_BITS (x.f 0 12)).put pgFint FINT_VERIFY_REFRESH_BITS (x.f 16 12)).put pgFint
      FINT_SCRUB_SCRUB_H (x.f 32 16)
  | 6 => (d.put (pgOwp x.inst) WP_CEIL_CEIL_PS (x.f 0 10)).put (pgOwp x.inst) WP_CEIL_CEIL_PW (x.f 16 10)
  | _ =>
    let n := bits x.index 0 6
    let j := bits x.index 8 3
    let old := match (d.engine x.inst).commits.find? fun (c : SlotCommit) => c.slot == n with
      | some c => c.words
      | none => d.slotWords x.inst n
    let w := (old.set (2 + j) (BitVec.ofNat 32 (x.f 0 32))).set 8
      (BitVec.ofNat 32 (setBits (nthD old 8 0).toNat (5 * j) 5 (x.f 32 5)))
    let c : SlotCommit := { slot := n, words := w, clr := false }
    (d.put (pgEll x.inst) ELL_SLOT_SEL_SLOT n).updEngine x.inst fun g =>
      { g with shadow := w, commits := g.commits.filter (fun (c : SlotCommit) => c.slot != n) ++ [c] }

/-- The order in which kinds are applied (R504). -/
def kindOrder : List Nat := [2, 1, 5, 4, 3, 6, 7]

/-- Restate HELD. -/
def Dev.heldStat (d : Dev) : Dev :=
  (d.setB pgMplan MP_STAT_HELD (!d.cal.held.isEmpty || d.flag pgMplan MP_STAT_DERATE_PENDING)).planDone

/-- The items of a plan in the order in which they are applied. -/
def planOrder (l : List PlanItem) : List PlanItem := kindOrder.flatMap fun k => l.filter fun x => x.kind == k

/-- The plan's items are applied, or held back as `vis` has it (R504, R505). -/
def Dev.planApply (vis d : Dev) (l : List PlanItem) : Dev :=
  let d := (d.updCal fun c => { c with plan := none }).setB pgMplan MP_STAT_APPLYING true
  let d := (planOrder l).foldl (fun d x =>
    if vis.heldBack x then d.updCal fun c => { c with held := c.held ++ [x] } else d.applyItem x) d
  d.heldStat

/-- PLAN_APPLY at the first Stone edge after the checks: both the present Grain's view and what it stages hold the items, so that the
recompute of this Grain sees the new derating (R504). -/
def execPlanApply (s : State) : Host.Outcome State Fault Refusal :=
  .next (s.noting (.cmd .planApply) fun s =>
    match s.vis.cal.plan with
    | some l => if s.cur.gtime % 256 != 0 then s else s.both fun d => Dev.planApply s.vis d l
    | none => s)

/-- HELD_ITEM_APPLY: items whose cause of waiting has ended at this edge take effect (R505). -/
def execHeldItemApply (s : State) : Host.Outcome State Fault Refusal :=
  .next (s.noting (.cmd .heldItemApply) fun s => s.both fun d =>
    if d.cal.held.isEmpty then d
    else
      let go := d.cal.held.filter fun x => !s.vis.heldBack x
      let d := d.updCal fun c => { c with held := c.held.filter s.vis.heldBack }
      (go.foldl (fun d x => d.applyItem x) d).heldStat)

/-- Held-back items are dropped (R509). -/
def Dev.planDrop (d : Dev) : Dev :=
  let d := d.updCal fun c => { c with held := [], derate := none, plan := none }
  ((d.setB pgMplan MP_STAT_HELD false).setB pgMplan MP_STAT_DERATE_PENDING false).setB pgMplan MP_STAT_APPLYING false

/-- The AVS loop of a Stone with the least slack (ps) among the fresh replicas (R508). -/
def Dev.avsStone (vis d : Dev) (least : Option Int) : Dev :=
  match least with
  | none => d
  | some x =>
    let d := d.putI pgMplan MP_AVS_SLACK_MIN_PS x
    if !d.flag pgMplan MP_CTL_AVS_EN then d
    else
      let v := d.get pgMplan MP_AVS_VREQ_MV
      let lo := d.get pgMplan MP_AVS_BND_VMIN_MV
      let hi := d.get pgMplan MP_AVS_BND_VMAX_MV
      let sl : Int := d.get pgMplan MP_AVS_BND_SLACK_PS
      let run (n : Nat) (d : Dev) : Dev := d.updCal fun c => { c with slack := n }
      let ask (n : Nat) (d : Dev) : Dev := d.put pgMplan MP_AVS_VREQ_MV n
      if x < 0 then ((run 0 (ask hi d)).fault pgMplan 0x0F03 false false [ofInt 32 x, hi]).irq pgMplan MPLAN_IRQ_AVS_EMERG
      else if x < sl then run 0 (ask (clampN lo hi (v + 5)) d)
      else if sl + 20 < x && vis.prt.testing.isEmpty then
        if 16 ≤ d.cal.slack + 1 then run 0 (ask (clampN lo hi (v - 5)) d) else (run (d.cal.slack + 1) d).avsBound
      else (run 0 d).avsBound

end Sys2Proof.Machine
end

