-- ==== Sys2Proof/Machine/Links.lean ====
section
/-! DEFINITION. PCIe endpoint, management Ethernet, CAN FD, accelerometer, PMBus, ignition and GPIO (chapter 17), and the
host events that the endpoint reports to the ledger (R100, R517). -/

namespace Sys2Proof.Machine

open Sys2Proof

def Dev.updLnk (d : Dev) (f : Links → Links) : Dev := { d with lnk := f d.lnk }

/-! ### PCIe endpoint (R515 to R519, R581) -/

/-- The link leaves DL_Active. -/
def Dev.linkDown (d : Dev) : Dev :=
  ((((d.setB pgPcie PCIE_STAT_DL_UP false).put pgPcie PCIE_STAT_SPEED 0).put pgPcie PCIE_STAT_WIDTH 0).setB pgPcie
    PCIE_STAT_L2_READY false)

/-- A reset of the function masks every MSI-X vector again. -/
def Dev.msixReset (d : Dev) : Dev := d.updLnk fun l => { l with msixTab := [], msixPend := 0 }

/-- FUNCTION_LEVEL_RESET: the link stays in DL_Active. `goods` gives the bytes that each running fetch had brought in. -/
def execFunctionLevelReset (goods : List (Nat × Nat)) (s : State) : Host.Outcome State Fault Refusal :=
  .next (s.noting (.cmd (.functionLevelReset goods)) fun s => s.dec fun _ d =>
    if !d.flag pgPcie PCIE_STAT_DL_UP then d
    else (((d.inc pgPcie PCIE_EVENTS_RESETS).irq pgPcie PCIE_IRQ_RESET).msixReset).hostEvent 1 goods)

/-- HOT_RESET: the exit from DL_Active that belongs to it is no link loss of its own. -/
def execHotReset (goods : List (Nat × Nat)) (s : State) : Host.Outcome State Fault Refusal :=
  .next (s.noting (.cmd (.hotReset goods)) fun s => s.dec fun _ d =>
    if !d.flag pgPcie PCIE_STAT_DL_UP then d
    else
      let d := (((d.inc pgPcie PCIE_EVENTS_RESETS).irq pgPcie PCIE_IRQ_RESET).msixReset).linkDown
      (d.updLnk fun l => { l with eventNow := 2 }).hostEvent 2 goods)

/-- LINK_LOSS. -/
def execLinkLoss (goods : List (Nat × Nat)) (s : State) : Host.Outcome State Fault Refusal :=
  .next (s.noting (.cmd (.linkLoss goods)) fun s => s.dec fun _ d =>
    if !d.flag pgPcie PCIE_STAT_DL_UP then d
    else
      let d := ((d.inc pgPcie PCIE_EVENTS_LINK_DOWNS).irq pgPcie PCIE_IRQ_LINK_DOWN).linkDown
      (d.updLnk fun l => { l with eventNow := 3 }).hostEvent 3 goods)

/-- A link loss recorded in this Grain is of kind PERST_N after all (R517). -/
def Dev.asPerst (d : Dev) : Dev :=
  let mine (r : FaultRec) : Bool := r.pgId == pgIdOf pgLdg && r.data.head? == some 3
  { d with fj := { d.fj with staged := updWhere mine (fun r => { r with data := 4 :: r.data.tail }) d.fj.staged } }

/-- PERST_ASSERT: PCIE_PERST_N low; with a link loss of the same Grain it is one event, of kind PERST_N. -/
def execPerstAssert (goods : List (Nat × Nat)) (s : State) : Host.Outcome State Fault Refusal :=
  .next (s.noting (.cmd (.perstAssert goods)) fun s => s.dec fun _ d =>
    if d.flag pgPcie PCIE_STAT_PERST then d
    else
      let d := ((((d.setB pgPcie PCIE_STAT_PERST true).irq pgPcie PCIE_IRQ_RESET).msixReset).linkDown)
      if d.lnk.eventNow = 3 then (d.updLnk fun l => { l with eventNow := 4 }).asPerst
      else ((d.inc pgPcie PCIE_EVENTS_LINK_DOWNS).updLnk fun l => { l with eventNow := 4 }).hostEvent 4 goods)

/-- PCIE_LINK_UP at a speed of 1 to 4 and a width of 1, 2, 4 or 8 lanes (R515), after PERST_N release and the end of the fuse load
(R581). -/
def execPcieLinkUp (speed width : BitVec 4) (s : State) : Host.Outcome State Fault Refusal :=
  .next (s.noting (.pcieLinkUp speed width) fun s => s.dec fun _ d =>
    let known := 1 ≤ speed.toNat && speed.toNat ≤ 4 && [1, 2, 4, 8].contains width.toNat
    if d.flag pgPcie PCIE_STAT_PERST || d.flag pgPcie PCIE_STAT_DL_UP || !d.su.fused || !known then d
    else
      let d := (((d.setB pgPcie PCIE_STAT_DL_UP true).put pgPcie PCIE_STAT_SPEED speed.toNat).put pgPcie PCIE_STAT_WIDTH
        width.toNat).setB pgPcie PCIE_STAT_L2_READY false
      ((d.irq pgPcie PCIE_IRQ_LINK_UP).setB pgPcie PCIE_CTL_WAKE_HOST false).updLnk fun l => { l with wakeLow := false })

/-- PERST_RELEASE: in a power state other than RUN it is the PCIE wake source, `t` ticks after COMMIT (R454, R519). -/
def execPerstRelease (t : Nat) (s : State) : Host.Outcome State Fault Refusal :=
  let f (d : Dev) : Dev :=
    if !d.flag pgPcie PCIE_STAT_PERST then d else (d.setB pgPcie PCIE_STAT_PERST false).wake 4 t
  .next (s.noting (.perstRelease t) fun s => if s.cur.pwr.phase == .asleep then s.both f else s.dec fun _ d => f d)

/-- PME_TURN_OFF: PME_TO_Ack, and L2/L3 Ready. -/
def execPmeTurnOff (s : State) : Host.Outcome State Fault Refusal :=
  .next (s.noting (.cmd .pmeTurnOff) fun s => s.dec fun _ d =>
    if d.flag pgPcie PCIE_STAT_DL_UP then d.setB pgPcie PCIE_STAT_L2_READY true else d)

/-- COMPLETION_ERROR: counted; a fetch of the APPEND `lsn` ends with `good` bytes in (R74, R518). -/
def execCompletionError (k : CplError) (lsn : Option Nat) (good : Nat) (s : State) : Host.Outcome State Fault Refusal :=
  .next (s.noting (.completionError k lsn good) fun s => s.dec fun _ d =>
    let d := d.inc pgPcie (match k with
      | .timeout => PCIE_ERR_CPL_TO
      | .poisoned => PCIE_ERR_POISONED
      | .unsupported => PCIE_CPL_ERR_UR
      | .abort => PCIE_CPL_ERR_CA)
    match lsn with
    | some n => if d.ldg.tasks.any fun t => t.lsn == n && t.opc == .append && t.fetching then d.voidClose n good true else d
    | none => d)

/-- WAKE_HOST: PCIE_WAKE_N goes low until DL_Active; in DL_Active nothing is driven. -/
def execWakeHost (s : State) : Host.Outcome State Fault Refusal :=
  .next (s.noting (.cmd .wakeHost) fun s => s.dec fun _ d =>
    if d.flag pgPcie PCIE_STAT_DL_UP then d
    else (d.setB pgPcie PCIE_CTL_WAKE_HOST true).updLnk fun l => { l with wakeLow := true })

/-- FAULT_VECTOR: MSI-X vector 64, at most once a Stone (R516). -/
def execFaultVector (s : State) : Host.Outcome State Fault Refusal :=
  .next (s.noting (.cmd .faultVector) fun s => s.both fun d =>
    if !d.fj.vectorDue || d.fj.vectorStone == some (d.gtime / 256) then d
    else ({ d with fj := { d.fj with vectorDue := false, vectorStone := some (d.gtime / 256) } }).sendMsix 64)

/-- The page that a BAR2 offset shows (R550). -/
def bar2Page (o : Nat) : Option Nat :=
  match o / 0x1000 with
  | 0 => some pgId
  | 1 => some pgTb
  | 2 => some pgLdg
  | 3 => some pgRsv
  | 4 => some pgBank
  | 5 => some pgFsch
  | 6 => some (pgBay 0)
  | 7 => some (pgBay 1)
  | 8 => some (pgBay 2)
  | 9 => some (pgBay 3)
  | 10 => some pgWarc
  | 11 => some pgPwr
  | 12 => some pgProt
  | 13 => some pgFj
  | _ => none

/-- BAR2_WRITE: a status page records HOST_WRITE and nothing changes (R551); a dword of the MSI-X table is stored, and a vector
unmasked with its bit pending is sent. -/
def execBar2Write (o : BitVec 16) (v : Word) (s : State) : Host.Outcome State Fault Refusal :=
  .next (s.noting (.bar2Write o v) fun s => s.dec fun _ d =>
    match bar2Page o.toNat with
    | some p => d.err p .hostWrite (o.toNat % 0x1000) 0x04 (p + o.toNat % 0x1000)
    | none =>
      let i := (o.toNat - 0xE000) / 4
      if o.toNat < 0xE000 || 260 ≤ i then d
      else
        let d := d.updLnk fun l => { l with msixTab := tabSet msixDflt l.msixTab i v }
        if i % 4 = 3 && v.toNat % 2 = 0 && bit d.lnk.msixPend (i / 4) then
          (d.updLnk fun l => { l with msixPend := setBits l.msixPend (i / 4) 1 0 }).sendMsix (i / 4)
        else d)

/-- BAR_UNALIGNED_ACCESS: Unsupported Request, and no effect (R516). -/
def execBarUnalignedAccess (s : State) : Host.Outcome State Fault Refusal :=
  .next (s.noting (.cmd .barUnalignedAccess) fun s => s.both fun d => { d with bus := { rdata := 0, error := true } })

/-! ### Wall time (R44) -/

/-- Wall time in ns at `ns` nanoseconds since GTIME 0. -/
def Dev.wallNs (d : Dev) (ns : Nat) : Int :=
  let ofs := sext 64 (d.get64 pgTb TB_WALL_OFS_LO TB_WALL_OFS_HI)
  ofs + ns + ((ns : Int) * d.getI pgTb TB_WALL_RATE_RATE_PPB).tdiv 1000000000

/-! ### Management Ethernet (R520 to R523) -/

/-- Bytes `o` and `o + 1` of a frame, high byte first. -/
def be16 (l : List Byte) (o : Nat) : Nat := (nthD l o 0).toNat * 256 + (nthD l (o + 1) 0).toNat

/-- Where the Ethertype stands: behind a VLAN tag or not. -/
def typeAt (l : List Byte) : Nat := if be16 l 12 = 0x8100 then 16 else 12

/-- Is a frame an IEEE 1588 event message (R522)? -/
def ptpFrame (l : List Byte) : Bool :=
  let o := typeAt l
  let t := be16 l o
  let ip := o + 2
  let udp4 := ip + (nthD l ip 0).toNat % 16 * 4
  t == 0x88F7 || (t == 0x0800 && (nthD l (ip + 9) 0).toNat == 17 && be16 l (udp4 + 2) == 319)
    || (t == 0x86DD && (nthD l (ip + 6) 0).toNat == 17 && be16 l (ip + 42) == 319)

/-- The station address. -/
def Dev.station (d : Dev) : List Byte := leBytes 4 (d.get pgEth ETH_MAC_LO) ++ leBytes 2 (d.get pgEth ETH_MAC_HI)

/-- Is a frame one of the wake pattern (R523)? -/
def Dev.wakeFrame (d : Dev) (l : List Byte) : Bool :=
  let p := l.drop (typeAt l + 2)
  (l.take 6 == d.station || l.take 6 == List.replicate 6 0xFF) && be16 l (typeAt l) == 0x88B5
    && p.take 4 == [0x48, 0x58, 0x57, 0x4B]
    && (p.drop 4).take 8 == leBytes 4 (d.get pgId ID_SERIAL_LO) ++ leBytes 4 (d.get pgId ID_SERIAL_HI)
    && (p.drop 12).take 4 == leBytes 4 (d.get pgEth ETH_WAKE_CODE)

/-- Is a frame addressed to this station, to all, to a group, or is every frame passed (R520)? -/
def Dev.ethPasses (d : Dev) (l : List Byte) : Bool :=
  d.flag pgEth ETH_CTL_PROMISC || l.take 6 == d.station || (nthD l 0 0).toNat % 2 == 1

/-- A timestamp moved by `ns`: Grain and cycle. -/
def stamp (gtime cycle : Nat) (ns : Int) : Nat × Nat :=
  let t := ((gtime * 4000 + cycle : Nat) + ns).toNat
  (t / 4000, t % 4000)

/-- The address of descriptor `count` of a ring. -/
def Dev.ethDesc (d : Dev) (lo hi : Fld) (log2 count : Nat) : Nat := d.get64 pgEth lo hi / 32 * 32 + count % 2 ^ log2 * 32

/-- ETH_FRAME_RECEIVE of `frame`, FCS included; `good`: its FCS is right; its first bit came in cycle `cycle` of the Grain `back` Grains
ago, `fails` is a failing buffer access. In SLEEP and DEEP the listening MAC knows the wake pattern alone, `t` ticks after COMMIT. -/
def Dev.ethReceive (d : Dev) (frame : List Byte) (good : Bool) (back cycle : Nat) (fails : Bool) (t : Nat) : Dev :=
  let body := frame.take (frame.length - 4)
  let match_ := good && d.wakeFrame body
  if !d.clockOn then if match_ then d.wake 8 t else d
  else if !d.flag pgEth ETH_CTL_RX_EN || !d.enabled pgEth then d
  else if frame.length < 64 || 1522 < frame.length || !good || !d.ethPasses body then d.inc pgEth ETH_DROP_DROPPED
  else
    let d := if match_ then (d.irq pgEth ETH_IRQ_WAKE_FRAME).wake 8 0 else d
    let n := d.get pgEth ETH_RX_PROD_COUNT
    if n = d.get pgEth ETH_RX_FREE_COUNT then d.inc pgEth ETH_DROP_DROPPED
    else
      let a := d.ethDesc ETH_RX_BASE_LO ETH_RX_BASE_HI (d.get pgEth ETH_RING_CFG_RX_LOG2) n
      let buf := leNat (memRead d.mem a 8)
      let ts := d.flag pgEth ETH_CTL_PTP_EN
      let ptp := ptpFrame body
      let st := stamp (d.gtime - back) cycle (-(d.get pgEth ETH_PTP_LAT_INGRESS_NS : Nat))
      let d := if fails then d else d.memW buf body
      let d := d.memW (a + 8) (leBytes 2 body.length ++ [BitVec.ofNat 8 (b2n ptp * 4 + b2n ts * 2), if fails then 1 else 0])
      let d := if ts then d.memW (a + 12) (leBytes 2 st.2 ++ [0, 0] ++ leBytes 8 st.1) else d
      let d := if ptp then d.inc pgEth ETH_DROP_PTP_SEEN else d
      (d.put pgEth ETH_RX_PROD_COUNT (n + 1)).irq pgEth ETH_IRQ_RX

/-- ETH_FRAME_RECEIVE. -/
def execEthFrameReceive (frame : List Byte) (good : Bool) (back : Nat) (cycle : BitVec 12) (fails : Bool) (t : Nat) (s : State) :
    Host.Outcome State Fault Refusal :=
  .next (s.noting (.ethFrameReceive frame good back cycle fails t) fun s =>
    if s.cur.clockOn then s.dec fun _ d => d.ethReceive frame good back cycle.toNat fails t
    else s.both fun d => d.ethReceive frame good back cycle.toNat fails t)

/-- ETH_FRAME_TRANSMIT: the next filled descriptor has been sent; the frame's first bit left in cycle `cycle` of the Grain `back` Grains ago
(R521, R522). -/
def execEthFrameTransmit (back : Nat) (cycle : BitVec 12) (fails : Bool) (s : State) : Host.Outcome State Fault Refusal :=
  .next (s.noting (.ethFrameTransmit back cycle fails) fun s => s.dec fun _ d =>
    let n := d.get pgEth ETH_TX_CONS_COUNT
    if !d.flag pgEth ETH_CTL_TX_EN || !d.starts pgEth || n = d.get pgEth ETH_TX_PROD_COUNT then d
    else
      let a := d.ethDesc ETH_TX_BASE_LO ETH_TX_BASE_HI (d.get pgEth ETH_RING_CFG_TX_LOG2) n
      let len := leNat (memRead d.mem (a + 8) 2)
      let ts := d.flag pgEth ETH_CTL_PTP_EN && bit (memGet d.mem (a + 10)).toNat 1
      let bad := len < 60 || 1518 < len
      let d := if bad || fails then d
        else d.updLnk fun l => { l with ethSent := memRead d.mem (leNat (memRead d.mem a 8)) len }
      let d := d.memW (a + 8) (leBytes 2 len)
      let d := d.memW (a + 11) [if bad then 2 else if fails then 1 else 0]
      let st := stamp (d.gtime - back) cycle.toNat (d.get pgEth ETH_PTP_LAT_EGRESS_NS : Nat)
      let d := if ts && !bad && !fails then d.memW (a + 12) (leBytes 2 st.2 ++ [0, 0] ++ leBytes 8 st.1) else d
      (d.put pgEth ETH_TX_CONS_COUNT (n + 1)).irq pgEth ETH_IRQ_TX)

/-- ETH_RING_CFG_WRITE: sizes clamped, counts zeroed (R537). -/
def execEthRingCfgWrite (v : Word) (s : State) : Host.Outcome State Fault Refusal :=
  .next (s.noting (.ethRingCfgWrite v) fun s => s.dec fun _ d =>
    let d := (d.put pgEth ETH_RING_CFG_TX_LOG2 (clampN 4 10 (bits v.toNat 8 4))).put pgEth ETH_RING_CFG_RX_LOG2
      (clampN 4 10 (bits v.toNat 0 4))
    [ETH_TX_PROD_COUNT, ETH_TX_CONS_COUNT, ETH_RX_FREE_COUNT, ETH_RX_PROD_COUNT].foldl (fun d f => d.put pgEth f 0) d)

/-- SGMII_LINK_CHANGE, with the speed of the auto-negotiation word (R520). -/
def execSgmiiLinkChange (up : Bool) (speed : Fin 3) (s : State) : Host.Outcome State Fault Refusal :=
  .next (s.noting (.sgmiiLinkChange up speed) fun s => s.dec fun _ d => (d.setB pgEth ETH_STAT_LINK up).put pgEth ETH_STAT_SPEED (if up then speed else 0))

/-! ### CAN FD (R524 to R526) -/

/-- The lowest filter that passes identifier word `w`. -/
def Dev.canFilter (d : Dev) (p w : Nat) : Option Nat :=
  (List.range 32).find? fun f =>
    let id := (d.rd (p + 0x100 + 8 * f)).toNat
    let mask := (d.rd (p + 0x104 + 8 * f)).toNat % 2 ^ 29
    bit id 31 && bit id 30 == bit w 31 && ((id ^^^ w) % 2 ^ 29) &&& mask == 0

/-- The data bytes that DLC gives: up to 8 in a classic frame, none in a remote one, and up to 64 in an FD frame (R525). -/
def canLength (w ctl : Nat) : Nat :=
  let n := ctl % 16
  if bit ctl 5 then 0 else if !bit w 30 then min 8 n else nthD [0, 1, 2, 3, 4, 5, 6, 7, 8, 12, 16, 20, 24, 32, 48, 64] n 0

/-- The error counters as a frame leaves them, and the state that they give: passive from 128 on (R526). -/
def Dev.canErrors (d : Dev) (p : Nat) (tec rec : Byte) : Dev :=
  ((d.put p CAN_STAT_TEC tec.toNat).put p CAN_STAT_REC rec.toNat).put p CAN_STAT_STATE
    (b2n (decide (128 ≤ tec.toNat) || decide (128 ≤ rec.toNat)))

/-- CAN_FRAME_RECEIVE, with the error counters that it leaves; its start-of-frame bit came in cycle `cycle` of the Grain `back` Grains
ago. -/
def execCanFrameReceive (n : Fin 2) (fr : CanFrame) (back : Nat) (cycle : BitVec 12) (tec rec : Byte) (s : State) :
    Host.Outcome State Fault Refusal :=
  .next (s.noting (.canFrameReceive n fr back cycle tec rec) fun s => s.dec fun _ d =>
    let p := pgCan n
    let w := fr.ident.toNat
    if !d.flag p CAN_CTL_RUN || !d.enabled p || d.get p CAN_STAT_STATE = 2 || (bit w 30 && !d.flag p CAN_CTL_FD_EN) then d
    else
      let d := d.canErrors p tec rec
      match d.canFilter p w with
      | none => d
      | some f =>
        let lg := clampN 4 8 (d.get p CAN_RX_CFG_SIZE_LOG2)
        let c := d.get p CAN_RX_PROD_PROD
        if 2 ^ lg ≤ (c + 2 ^ 16 - d.get p CAN_RX_CONS_CONS) % 2 ^ 16 then d.inc p CAN_STAT_RX_LOST
        else
          let a := d.get64 p CAN_RX_BASE_LO CAN_RX_BASE_HI + c % 2 ^ lg * 80
          let phase := 1 - c / 2 ^ lg % 2
          let b := leBytes 4 w ++ [BitVec.ofNat 8 (fr.ctl.toNat % 128 + phase * 128), BitVec.ofNat 8 f]
            ++ leBytes 6 ((d.gtime - back) % 2 ^ 48) ++ leBytes 2 cycle.toNat ++ [0, 0]
            ++ padTo 64 (fr.data.take (canLength w fr.ctl.toNat))
          let c' := (c + 1) % 2 ^ 16
          (((d.memW a b).put p CAN_RX_PROD_PROD c').put p CAN_RX_PROD_PHASE (1 - c' / 2 ^ lg % 2)).irq p CAN_IRQ_RX)

/-- The pending transmit buffer of the lowest identifier. -/
def Dev.canNext (d : Dev) (p : Nat) : Option Nat :=
  let req := d.get p CAN_TX_REQ_BUF
  let id (b : Nat) : Nat := (d.rd (p + 0x800 + 80 * b)).toNat % 2 ^ 29
  ((List.range 16).filter (bit req ·)).foldl (fun (a : Option Nat) b =>
    match a with
    | some x => if id b < id x then some b else some x
    | none => some b) none

/-- CAN_FRAME_TRANSMIT: the next pending buffer has been sent, with the error counters that it leaves. -/
def execCanFrameTransmit (n : Fin 2) (tec rec : Byte) (s : State) : Host.Outcome State Fault Refusal :=
  .next (s.noting (.canFrameTransmit n tec rec) fun s => s.dec fun _ d =>
    let p := pgCan n
    match d.canNext p with
    | some b =>
      if !d.flag p CAN_CTL_RUN || !d.starts p || d.flag p CAN_CTL_LISTEN || d.get p CAN_STAT_STATE = 2 then d
      else
        let d := d.updLnk fun l =>
          { l with canSent := (List.range 20).flatMap fun i => leBytes 4 (d.rd (p + 0x800 + 80 * b + 4 * i)).toNat }
        let d := d.put p CAN_TX_REQ_BUF (setBits (d.get p CAN_TX_REQ_BUF) b 1 0)
        let d := d.put p CAN_TX_DONE_BUF (setBits (d.get p CAN_TX_DONE_BUF) b 1 1)
        (d.canErrors p tec rec).irq p CAN_IRQ_TX_DONE
    | none => d)

/-- CAN_BUS_OFF. -/
def execCanBusOff (n : Fin 2) (s : State) : Host.Outcome State Fault Refusal :=
  .next (s.noting (.canBusOff n) fun s => s.dec fun _ d =>
    let p := pgCan n
    if !d.flag p CAN_CTL_RUN || d.get p CAN_STAT_STATE = 2 then d
    else ((d.put p CAN_STAT_STATE 2).irq p CAN_IRQ_BUS_OFF).fault p 0x1001 false false [n.val])

/-- CAN_BUS_OFF_REJOIN: after 128 occurrences of 11 recessive bits, or (`run`) a write of RUN where BO_MANUAL is 1. -/
def execCanBusOffRejoin (n : Fin 2) (run : Bool) (s : State) : Host.Outcome State Fault Refusal :=
  .next (s.noting (.canBusOffRejoin n run) fun s => s.dec fun _ d =>
    let p := pgCan n
    if d.get p CAN_STAT_STATE != 2 || d.flag p CAN_CTL_BO_MANUAL != run then d
    else
      let d := if run then d.setB p CAN_CTL_RUN true else d
      ((d.put p CAN_STAT_STATE 0).put p CAN_STAT_TEC 0).put p CAN_STAT_REC 0)

/-- CANn_STBY is high in SLEEP, DEEP and OFF (R514, R526). -/
def Dev.canStby (d : Dev) : Bool :=
  match d.pwr.phase with
  | .asleep | .off => true
  | .waking _ _ => !d.domainOn 20
  | _ => false

/-! ### Accelerometer (R527, R528) -/

/-- The shock output changes with `f`; its rise sets the interrupt. -/
def Dev.shockSet (d : Dev) (f : Links → Links) : Dev :=
  let old := d.shockOut
  let d := d.updLnk f
  if d.shockOut && !old then d.irq pgAcc ACC_IRQ_SHOCK else d

/-- The number of the periodic read that falls due in a Grain: 1,024 × 2^RATE a second, spaced evenly (R527). -/
def Dev.accDue (d : Dev) : Nat := d.gtime * 1024 * 2 ^ d.get pgAcc ACC_CFG_RATE / 250000

/-- The bytes that a read sends before its six: CMD0, and CMD1 while TWO_CMD is 1 (R527). -/
def Dev.accCommand (d : Dev) : List Byte :=
  let b (f : Fld) : Byte := BitVec.ofNat 8 (d.get pgAcc f)
  b ACC_CFG_CMD0 :: if d.flag pgAcc ACC_CFG_TWO_CMD then [b ACC_CFG_CMD1] else []

/-- ACC_READ of X, Y and Z at its periodic rate; `int` is the level of ACC_INT. -/
def execAccRead (x y z : BitVec 16) (int : Bool) (s : State) : Host.Outcome State Fault Refusal :=
  .next (s.noting (.accRead x y z int) fun s => s.dec fun _ d =>
    if d.lnk.accSlot == some d.accDue || !d.enabled pgAcc || !d.domainOn 20 then d
    else
      let sum := min 32767 (x.toInt.natAbs + y.toInt.natAbs + z.toInt.natAbs)
      let d := (((d.put pgAcc ACC_XY_X x.toNat).put pgAcc ACC_XY_Y y.toNat).put pgAcc ACC_ZS_Z z.toNat).put pgAcc ACC_ZS_SUM sum
      let thr := d.get pgAcc ACC_SHOCK_THR
      let slot := d.accDue
      d.shockSet fun l => { l with compHigh := thr != 0 && decide (thr ≤ sum), accInt := int, accSlot := some slot })

/-- ACC_INT_HIGH. -/
def execAccIntHigh (s : State) : Host.Outcome State Fault Refusal :=
  .next (s.noting (.cmd .accIntHigh) fun s => s.dec fun _ d => d.shockSet fun l => { l with accInt := true })

/-- The Grains that `n` bytes take on the SPI, at SCK 20 MHz / (2 × (DIV + 1)) (R527). -/
def Dev.accGrains (d : Dev) (n : Nat) : Nat := ceilDiv (n * 800 * (d.get pgAcc ACC_CFG_DIV + 1)) 4000

/-- ACC_RAW_TRANSFER: a write of `v` to ACC_XFER_CTL with GO; `rx` are the bytes that the sensor returns. The transfer runs behind a
periodic read that is due, and GO and BUSY clear at its end (R527, R535). -/
def execAccRawTransfer (v rx : Word) (s : State) : Host.Outcome State Fault Refusal :=
  .next (s.noting (.accRawTransfer v rx) fun s => s.dec fun _ d =>
    if d.lnk.accRun.isSome || !d.starts pgAcc then d
    else
      let t := min 4 (bits v.toNat 0 4)
      let n := min 4 (bits v.toNat 4 4)
      let d := (d.put pgAcc ACC_XFER_CTL_TX_N (bits v.toNat 0 4)).put pgAcc ACC_XFER_CTL_RX_N (bits v.toNat 4 4)
      let d := (d.setB pgAcc ACC_XFER_CTL_GO true).setB pgAcc ACC_XFER_CTL_BUSY true
      let first := if d.lnk.accSlot == some d.accDue then 0 else d.accGrains (d.accCommand.length + 6)
      let at_ := d.gtime + 1 + first + d.accGrains (t + n)
      let sent := (leBytes 4 (d.get pgAcc ACC_XFER_TX)).take t
      d.updLnk fun l => { l with accRun := some (at_, BitVec.ofNat 32 (rx.toNat % 2 ^ (8 * n))), accSent := sent })

/-- A raw transfer ends. -/
def Dev.accGrain (d : Dev) : Dev :=
  match d.lnk.accRun with
  | some (at_, rx) =>
    if d.gtime < at_ then d
    else
      let d := ((d.put pgAcc ACC_XFER_RX_RX rx.toNat).setB pgAcc ACC_XFER_CTL_GO false).setB pgAcc ACC_XFER_CTL_BUSY false
      (d.updLnk fun l => { l with accRun := none }).irq pgAcc ACC_IRQ_XFER_DONE
  | none => d

/-! ### PMBus (R530, R531) -/

/-- The packet error code of PMBus over the bytes of a transaction: the CRC-8 with polynomial 0x07 (PRESUMED, notes/assumptions/155.md). -/
def pecByte (c : Nat) (b : Byte) : Nat :=
  (List.range 8).foldl (fun c _ => if bit c 7 then (c * 2) % 256 ^^^ 7 else c * 2 % 256) (c ^^^ b.toNat)

/-- A write on the PMBus: the regulator's address, the command, its data, and the packet error code while PEC is 1 (R530). -/
def Dev.pmbBytes (d : Dev) (cmd : Byte) (data : List Byte) : List Byte :=
  let l := BitVec.ofNat 8 (2 * d.get pgPmb PMB_CFG_ADDR) :: cmd :: data
  if d.flag pgPmb PMB_CFG_PEC then l ++ [BitVec.ofNat 8 (l.foldl pecByte 0)] else l

/-- VOUT_COMMAND of a request: N = ceil(VREQ_MV × 2^−e / 1,000). -/
def voutCommand (mv : Nat) (e : Int) : Nat :=
  if e ≤ 0 then ceilDiv (mv * 2 ^ e.natAbs) 1000 else ceilDiv mv (1000 * 2 ^ e.natAbs)

/-- A request that has failed (R531). -/
def Dev.pmbFault (d : Dev) (want : Nat) (nak : Bool) : Dev :=
  let d := if nak then d.setB pgPmb PMB_STAT_NAK true else d
  ((d.setB pgPmb PMB_STAT_FAULT true).irq pgPmb PMB_IRQ_VOUT_FAULT).fault pgPmb 0x1003 false false
    [want, d.get pgPmb PMB_STAT_READ_MV]

/-- Does a readback of `mv` lie within 10 mV of the request (R531)? -/
def vcoreMet (want mv : Nat) : Bool := ((mv : Int) - want).natAbs ≤ 10

/-- The attempts that a request makes out of what the regulator would give: up to a readback that meets it, a NAK, or three in all; `none`
where the answers break off. -/
def pmbTries (want : Nat) : Nat → List (Option Nat) → Option (List (Option Nat))
  | 0, _ => some []
  | _, [] => none
  | _, none :: _ => some [none]
  | n + 1, some mv :: l => if vcoreMet want mv then some [some mv] else (pmbTries want n l).map (some mv :: ·)

/-- The Grains of a request: each attempt writes VOUT_COMMAND, waits SETTLE × 10 µs and reads READ_VOUT at 400 kHz; it completes within one
Stone (R531). -/
def Dev.pmbGrains (d : Dev) (tries : List (Option Nat)) : Nat :=
  let pec := b2n (d.flag pgPmb PMB_CFG_PEC)
  let write := (4 + pec) * 22500
  let read := (5 + pec) * 22500
  let settle := 10000 * max 1 (d.get pgPmb PMB_CFG_SETTLE)
  min 256 (ceilDiv ((tries.map fun x => if x.isSome then write + settle + read else write).sum) 4000)

/-- PMBUS_REQUEST: the request of R508, if it differs from the last; none during a power-loss commit or while FAULT is set. -/
def execPmbusRequest (got : List (Option Nat)) (s : State) : Host.Outcome State Fault Refusal :=
  .next (s.noting (.pmbusRequest got) fun s => s.dec fun vis d =>
    let want := vis.get pgMplan MP_AVS_VREQ_MV
    if want = d.lnk.vcoreSent || d.lnk.pmbRun.isSome || !d.starts pgPmb || d.flag pgPmb PMB_STAT_FAULT || !d.flag pgPmb PMB_CFG_EN
        || d.flag pgRsv RSV_STAT_PF then d
    else
      match pmbTries want 3 got with
      | none => d
      | some l =>
        let n := voutCommand want (d.getI pgPmb PMB_STAT_EXP)
        let d := (d.setB pgPmb PMB_STAT_NAK false).setB pgPmb PMB_STAT_BUSY true
        let run : PmbRun := { want := want, got := l, until_ := d.gtime + 1 + d.pmbGrains l }
        let sent := d.pmbBytes 0x21 (leBytes 2 n)
        d.updLnk fun x => { x with pmbRun := some run, pmbSent := sent })

/-- A request ends: met, or failed after a NAK or its third attempt (R531). -/
def Dev.pmbGrain (d : Dev) : Dev :=
  match d.lnk.pmbRun with
  | some x =>
    if d.gtime < x.until_ then d
    else
      let d := (d.setB pgPmb PMB_STAT_BUSY false).updLnk fun l => { l with pmbRun := none }
      let d := x.got.foldl (fun d r => match r with
        | some mv => d.put pgPmb PMB_STAT_READ_MV mv
        | none => d) d
      match x.got.getLast? with
      | some (some mv) => if vcoreMet x.want mv then d.updLnk fun l => { l with vcoreSent := x.want } else d.pmbFault x.want false
      | _ => d.pmbFault x.want true
  | none => d

/-- PMBUS_ALERT: STATUS_WORD is read and CLEAR_FAULTS sent. -/
def execPmbusAlert (status : BitVec 16) (s : State) : Host.Outcome State Fault Refusal :=
  .next (s.noting (.pmbusAlert status) fun s => s.dec fun _ d =>
    let sent := d.pmbBytes 0x03 []
    ((d.put pgPmb PMB_STATUS status.toNat).updLnk fun l => { l with pmbSent := sent }).irq pgPmb PMB_IRQ_ALERT)

/-- PMBUS_VOUT_MODE_READ: only the linear mode is accepted (R530). -/
def execPmbusVoutModeRead (mode : Byte) (s : State) : Host.Outcome State Fault Refusal :=
  .next (s.noting (.pmbusVoutModeRead mode) fun s => s.dec fun _ d =>
    if mode.toNat / 32 != 0 then (d.setB pgPmb PMB_STAT_FAULT true).fault pgPmb 0x1002 false false [mode.toNat]
    else d.put pgPmb PMB_STAT_EXP (mode.toNat % 32))

/-! ### Ignition and GPIO (R532 to R534) -/

/-- IGNITION_CHANGE: the debounced level. -/
def execIgnitionChange (on : Bool) (s : State) : Host.Outcome State Fault Refusal :=
  .next (s.noting (.ignitionChange on) fun s => s.dec fun _ d =>
    if d.flag pgGpio GPIO_IGN_IGN == on then d
    else
      let d := d.setB pgGpio GPIO_IGN_IGN on
      if d.clockOn then d.irq pgGpio GPIO_IRQ_IGN else d)

/-- The inputs at a Grain edge: a level seen at FILT_G + 1 edges in a row is taken, and an enabled edge is noted (R533). -/
def Dev.gpioGrain (vis d : Dev) (pins : BitVec 32) : Dev :=
  let f := vis.get pgGpio GPIO_FILT_FILT_G
  let old := d.get pgGpio GPIO_IN_PINS
  if pins.toNat == old && d.lnk.gpioRun.toList.all (· == 0) then d
  else
    let run : Vector Nat 32 := Vector.ofFn fun i =>
      if bit pins.toNat i == bit old i then 0 else (d.lnk.gpioRun[i.val]?).getD 0 + 1
    let took (i : Nat) : Bool := decide (f < (run[i]?).getD 0)
    let flip := (List.range 32).foldl (fun m i => setBits m i 1 (b2n (took i))) 0
    let d := d.updLnk fun l => { l with gpioRun := Vector.ofFn fun i => if took i then 0 else (run[i.val]?).getD 0 }
    let new := old ^^^ flip
    let d := d.put pgGpio GPIO_IN_PINS new
    let hit := (flip &&& new &&& vis.get pgGpio GPIO_IRQ_RISE_PINS) ||| (flip &&& old &&& vis.get pgGpio GPIO_IRQ_FALL_PINS)
    if hit = 0 then d
    else (d.put pgGpio GPIO_IRQ_STAT_PINS (d.get pgGpio GPIO_IRQ_STAT_PINS ||| hit)).irq pgGpio GPIO_IRQ_PIN

/-- EVT_IN_EDGE at a DCLK cycle of the Grain that the edge which captured it ended (R31, R534). -/
def execEvtInEdge (cycle : BitVec 12) (s : State) : Host.Outcome State Fault Refusal :=
  .next (s.noting (.evtInEdge cycle) fun s => s.dec fun vis d =>
    if !bit (vis.get pgGpio GPIO_ALT_PINS) 1 then d
    else
      let lost := d.lnk.evtUnread
      let d := d.put64 pgGpio GPIO_EVT_LO_VALUE GPIO_EVT_HI_VALUE (d.gtime - 1)
      let old := bit (d.get pgGpio GPIO_EVT_CYC) 31
      let d := d.put pgGpio GPIO_EVT_CYC (cycle.toNat + b2n (lost || old) * 2 ^ 31)
      (d.updLnk fun l => { l with evtUnread := true }).irq pgGpio GPIO_IRQ_EVT)

/-- GPIO_EVT_CYC_READ: EVT_LOST clears with the read. -/
def execGpioEvtCycRead (s : State) : Host.Outcome State Fault Refusal :=
  .next (s.noting (.cmd .gpioEvtCycRead) fun s => s.both fun d =>
    let v := s.vis.rd (pgGpio + GPIO_EVT_CYC.off)
    let d := (d.put pgGpio GPIO_EVT_CYC (v.toNat % 2 ^ 31)).updLnk fun l => { l with evtUnread := false }
    { d with bus := { rdata := v, error := false } })

/-- PPS_SECOND: wall time reaches a whole second in this Grain; PPS_OUT is high for 100 ms (25,000 Grains). -/
def execPpsSecond (s : State) : Host.Outcome State Fault Refusal :=
  .next (s.noting (.cmd .ppsSecond) fun s => s.dec fun _ d =>
    let a := d.wallNs (d.gtime * 4000) - 1
    let b := d.wallNs (d.gtime * 4000 + 3999)
    if !d.flag pgTb TB_CTL_WALL_VALID || !bit (d.get pgGpio GPIO_ALT_PINS) 0 || a / 1000000000 = b / 1000000000 then d
    else d.updLnk fun l => { l with ppsUntil := d.gtime + 25000 })

/-- The level of PPS_OUT (R534). -/
def Dev.ppsOut (d : Dev) : Bool := d.flag pgTb TB_CTL_WALL_VALID && decide (d.gtime < d.lnk.ppsUntil)

/-- What GPIOp drives, if anything: PPS_OUT or its bit of GPIO_OUT; nothing in OFF, as an input, or as EVT_IN (R533, R534). -/
def Dev.gpioOut (d : Dev) (p : Nat) : Option Bool :=
  let alt := bit (d.get pgGpio GPIO_ALT_PINS) p
  if d.pwr.phase == .off then none
  else if p = 0 && alt then some d.ppsOut
  else if (p = 1 && alt) || !bit (d.get pgGpio GPIO_DIR) p then none
  else some (bit (d.get pgGpio GPIO_OUT) p)

end Sys2Proof.Machine
end

