-- ==== Sys2Proof/Machine/Pages.lean ====
section
/-! DEFINITION. What every page's header does (R542, R544, R545), the software interrupt lines (R553) and the commit of
fault records (R556). -/

namespace Sys2Proof.Machine

open Sys2Proof

/-! ### Returning fields to their reset values (R24, R542) -/

/-- The bits of the register at `a` that a reset of its page returns to their reset values; `a` is no header register. -/
abbrev ResetMask := Nat → RegRow → Nat

/-- `regs` with the bits that `m` names at their values after reset, for the registers that `on` names. -/
def regsReset (on : Nat → Bool) (m : ResetMask) (l : List (Nat × Word)) : List (Nat × Word) :=
  l.filterMap fun (x : Nat × Word) =>
    let w : Word :=
      if on x.1 then
        match regRow x.1 with
        | some r =>
          let k := BitVec.ofNat 32 (m x.1 r)
          (x.2 &&& ~~~k) ||| (resetOf x.1 &&& k)
        | none => x.2
      else x.2
    if w = resetOf x.1 then none else some (x.1, w)

/-- The fields that software writes, sets or clears. -/
def softBits (r : RegRow) : Nat := r.rw ||| r.wo ||| r.w1c ||| r.w1s

/-- `m` without the bits of `k`. -/
def without (m k : Nat) : Nat := m &&& (0xFFFFFFFF ^^^ k)

/-- The header's part in a reset: PG_CTL, PG_IRQ_RAW and PG_IRQ_EN; the error capture is kept (R545), and so are DEGRADED and
what the power controller writes. `fault`: BUSY and FAULT of PG_STAT too. -/
def headerMask (fault : Bool) (a : Nat) (r : RegRow) : Nat :=
  match a % 0x1000 with
  | 0x08 | 0x10 | 0x14 => without 0xFFFFFFFF r.rws
  | 0x0C => if fault then 6 else 0
  | _ => 0

/-- Registers whose values a block reset leaves, since what they show stands as a warm reset keeps it: the fuse count (R475),
the links (R536), training (R199, R259), the mapping and FAILED bits of Fathom (R306). -/
def blockKeeps (a : Nat) : Bool :=
  [pgFuse + FUSE_STAT.off, pgDdr + DDR_STAT.off, pgPcie + PCIE_STAT.off, pgPwr + PWR_STAT.off].contains a
    || (decide (pgFth 0 ≤ a) && decide (a < pgFth 5) && (a % 0x1000 == FTH_MAP.off || a % 0x1000 == FTH_ADC.off))

/-- The fields that SOFT_RESET returns to their reset values (R542): all but RWS; in the pages of the servo engine, the motors
and the axes, whose chapters give the effect on what RO fields show (R375, R405, R430), those that software writes. -/
def blockMask (a : Nat) (r : RegRow) : Nat :=
  if a % 0x1000 < 0x40 then headerMask true a r
  else if blockKeeps a then 0
  else if pgEll 0 ≤ a && a < pgUd 0 then without (softBits r) r.rws
  else without 0xFFFFFFFF r.rws

/-! ### PG_CTL (R542) -/

/-- Does a page stand in groups 0x00 to 0x05? -/
def protectedPage (p : Nat) : Bool := decide (p < pgMc)

/-- Is a block frozen? FREEZE takes effect only with unlocked test access (R542, R567). -/
def Dev.frozen (d : Dev) (p : Nat) : Bool := d.flag p PG_CTL_FREEZE && d.flag pgFuseMap FM_STAT_DBG_EN

/-- A CAN controller stops; its ring counts are zeroed (R536). -/
def Dev.canStop (d : Dev) (n : Nat) : Dev :=
  let p := pgCan n
  ((((d.setB p CAN_CTL_RUN false).put p CAN_STAT_STATE 0).put p CAN_RX_PROD 0).put p CAN_RX_CONS 0)

/-- The Ethernet MAC stops; its ring counts are zeroed (R536). -/
def Dev.ethStop (d : Dev) : Dev :=
  let d := (d.setB pgEth ETH_CTL_TX_EN false).setB pgEth ETH_CTL_RX_EN false
  (((d.put pgEth ETH_TX_PROD 0).put pgEth ETH_TX_CONS 0).put pgEth ETH_RX_FREE 0).put pgEth ETH_RX_PROD 0

/-- Tickets whose verification is in progress return to OPEN, with their progress at its start (R333). -/
def Dev.ticketsReturn (d : Dev) : Dev :=
  let d := (d.owp.tickets.filter fun t => t.next != 0).foldl (fun d t => d.setTicket t.index 2) d
  { d with owp := { d.owp with tickets := d.owp.tickets.map d.ticketFresh } }

/-- A write port stops: the pulse lines are low, and a burn job ends with RESET (R333). -/
def Dev.owpWarm (d : Dev) (p : Nat) : Dev := 
  let d := d.updPort p fun o => { o with light := false }
  if (d.port p).job.isSome then d.burnEnd p .reset else d

/-- The block of page `p` ends its work in progress (R542). -/
def Dev.blockEnd (vis d : Dev) (p : Nat) : Dev :=
  let k := p / 0x1000 % 0x100
  match p / 0x100000 with
  | 0x407 =>
    if k < 5 then d.fthEnd k .reset
    else
      match d.fth.slot with
      | some t => (d.failWaiting t.chan 6).freeSlot
      | none => d
  | 0x408 =>
    if k < 4 then d.owpWarm k
    else if k = 8 then (if d.owp.enc.isSome then d.encEnd 0 else d)
    else d.ticketsReturn
  | 0x409 => if k < 2 then d.ellReset k else d.portIdle (k - 2)
  | 0x40A => if k < 6 then d.motorReset k else d
  | 0x40B => if k < 12 then Dev.axisReset vis d k else d
  | 0x40C =>
    if k < 32 then
      let d := if d.ud.running = some k then d.udEnd k 7 else d
      d.udDisarm k
    else d
  | 0x40E => if k = 1 then d.testsAbandon else d
  | 0x40F => if k = 0 then d.updCal fun c => { c with running := [] } else if k = 2 then d.planDrop else d
  | 0x410 => if k = 1 then d.ethStop else if k = 2 || k = 3 then d.canStop (k - 2) else d
  | _ => d

/-- A block reset of page `p` (R542). What its chapter gives is said after the fields stand at their reset values, but a motor
or an axis in FAULT keeps FAULT in PG_STAT. -/
def Dev.blockReset (vis d : Dev) (p : Nat) : Dev :=
  let flt := d.flag p PG_STAT_FAULT && (pgCmt 0 ≤ p && p < pgVbus || pgAx 0 ≤ p && p < pgCenc)
  let d := Dev.blockEnd vis d p
  let d := { d with regs := regsReset (fun a => a / 0x1000 == p / 0x1000) blockMask d.regs }
  if flt then d.setFault p true else d

/-- A write of `v` to PG_CTL of page `p` by `r` (R542). In groups 0x00 to 0x05 each denied field is one error, in descending bit
order. -/
def Dev.ctlWrite (vis d : Dev) (p : Nat) (r : Requester) (v : Word) : Dev :=
  let v := v.toNat
  if protectedPage p then
    let d := if bit v 2 then d.errAt p PG_CTL .freezeDenied r else d
    let d := if bit v 1 then d.errAt p PG_CTL .softResetDenied r else d
    if bit v 0 then d else d.errAt p PG_CTL .enableDenied r
  else if bit v 1 then Dev.blockReset vis d p
  else (d.setB p PG_CTL_FREEZE (bit v 2)).setB p PG_CTL_ENABLE (bit v 0)

/-- The page that holds `a`, if the map of R548 has one. -/
def pageAt (a : Nat) : Option Nat := if a < 0x200000000 && (pageOf a).isSome then some (a / 0x1000 * 0x1000) else none

/-- PG_SOFT_RESET: a write of PG_CTL with SOFT_RESET 1, and FREEZE and ENABLE as given. -/
def execPgSoftReset (page : Word) (r : Requester) (freeze enable : Bool) (s : State) : Host.Outcome State Fault Refusal :=
  .next (s.noting (.pgSoftReset page r freeze enable) fun s => s.dec fun vis d =>
    match pageAt page.toNat with
    | some p => Dev.ctlWrite vis d p r (BitVec.ofNat 32 (2 + 4 * b2n freeze + b2n enable))
    | none => d)

/-- PG_CTL_DENIED_WRITE: a write of `v` to PG_CTL of a protected page. -/
def execPgCtlDeniedWrite (page : Word) (r : Requester) (v : Word) (s : State) : Host.Outcome State Fault Refusal :=
  .next (s.noting (.pgCtlDeniedWrite page r v) fun s => s.dec fun vis d =>
    match pageAt page.toNat with
    | some p => if protectedPage p then Dev.ctlWrite vis d p r v else d
    | none => d)

/-! ### PG_IRQ_CLR and PG_ERR_INFO (R544, R545) -/

/-- PG_IRQ_CLR_WRITE. -/
def execPgIrqClrWrite (page v : Word) (s : State) : Host.Outcome State Fault Refusal :=
  .next (s.noting (.pgIrqClrWrite page v) fun s => s.dec fun _ d =>
    match pageAt page.toNat with
    | some p => d.irqClear p v.toNat
    | none => d)

/-- PG_ERR_INFO_CLEAR. -/
def execPgErrInfoClear (page : Word) (s : State) : Host.Outcome State Fault Refusal :=
  .next (s.noting (.pgErrInfoClear page) fun s => s.dec fun _ d =>
    match pageAt page.toNat with
    | some p => d.errClear p
    | none => d)

/-! ### Software interrupt lines (R553)
Bit m of the 64-bit word of lines 192 to 255 stands in IRQ_LEVEL6 and IRQ_LEVEL7; lines 192 to 197 come from the system
pages. -/

/-- The software lines, bit m for line 192 + m. -/
def Dev.swLines (d : Dev) : Nat := d.get64 pgIrq (IRQ_LEVEL.idx 6) (IRQ_LEVEL.idx 7)

/-- The bits that are software lines. -/
def swMask : Nat := 2 ^ 64 - 64

/-- IRQ_SW_SET: the half `hi` is written `v`. DESIGN CHOICE (log 151): IRQ_SW_SET and IRQ_SW_CLR read as 0; what they read back the spec does
not say, and the lines show in IRQ_LEVEL. -/
def execIrqSwSet (hi : Bool) (v : Word) (s : State) : Host.Outcome State Fault Refusal :=
  .next (s.noting (.irqSwSet hi v) fun s => s.dec fun _ d =>
    let m := (if hi then v.toNat * 2 ^ 32 else v.toNat) &&& swMask
    let d := { d with tb := { d.tb with swSet := d.tb.swSet ||| m } }
    d.put64 pgIrq (IRQ_LEVEL.idx 6) (IRQ_LEVEL.idx 7) (d.swLines ||| m))

/-- IRQ_SW_CLR: the half `hi` is written `v`; a line set in the same Grain stays set. -/
def execIrqSwClr (hi : Bool) (v : Word) (s : State) : Host.Outcome State Fault Refusal :=
  .next (s.noting (.irqSwClr hi v) fun s => s.dec fun _ d =>
    let m := (if hi then v.toNat * 2 ^ 32 else v.toNat) &&& swMask
    d.put64 pgIrq (IRQ_LEVEL.idx 6) (IRQ_LEVEL.idx 7) (d.swLines &&& ((2 ^ 64 - 1 ^^^ m) ||| d.tb.swSet)))

/-! ### The fault journal (R556) -/

/-- FAULT_RECORD_COMMIT. -/
def execFaultRecordCommit (s : State) : Host.Outcome State Fault Refusal := .next (s.noting (.cmd .faultRecordCommit) fun s => s.dec fun _ d => d.fjCommit)

end Sys2Proof.Machine
end

