-- ==== Sys2Proof/Machine/PowerLoss.lean ====
section
/-! DEFINITION. Main-supply loss, the power-loss commit and what a power-on reset keeps (R121 to R130, R192, R453, R456, R568,
R570). -/

namespace Sys2Proof.Machine

open Sys2Proof

def Dev.updRsv (d : Dev) (f : Reserve → Reserve) : Dev := { d with rsv := f d.rsv }

/-! ### Detecting the loss (R110, R121, R122) -/

/-- POWER_FAIL_ASSERT: VMOT_SNS at `mv` for the last `us` microseconds. The sink is switched off, which ends a measurement
without a result. -/
def execPowerFailAssert (mv us : Nat) (s : State) : Host.Outcome State Fault Refusal :=
  .next (s.noting (.cmd (.powerFailAssert mv us)) fun s => s.both fun d =>
    if d.rsv.pfLine || d.pwr.phase == .off || d.get pgBank BANK_PF_CFG_VMOT_FAIL_MV ≤ mv || us < d.get pgBank BANK_PF_CFG_DEBOUNCE_US
    then d
    else
      ((d.updRsv fun r => { r with pfLine := true }).setB pgBank BANK_STAT_PF_LINE true).setB pgBank BANK_STAT_MEAS_BUSY false)

/-- A captured loss is in effect: PF, no acceptance; a signing not yet ended is given up (R159), and so are tests, held-back plan items
and an entry of the power controller (R11, R124, R453, R481, R509). -/
def Dev.lossCaptured (d : Dev) : Dev :=
  let d := ((d.updRsv fun r => { r with lossGrain := some d.gtime, measRequest := false }).setB pgRsv RSV_STAT_PF true).accepting
  let d := { d with stg := { d.stg with signing := none }
                    ldg := { d.ldg with tasks := updWhere (·.signing) (fun t => { t with signing := false }) d.ldg.tasks } }
  (d.sealStat.testsAbandon).planDrop

/-- SUPPLY_LOSS_CAPTURE: every running fetch stops with the bytes that `goods` gives; its LDG_VOID record follows the restart (R74, R124,
R128). -/
def execSupplyLossCapture (goods : List (Nat × Nat)) (s : State) : Host.Outcome State Fault Refusal :=
  .next (s.noting (.cmd (.supplyLossCapture goods)) fun s => s.dec fun _ d =>
    if !d.rsv.pfLine || d.flag pgRsv RSV_STAT_PF || !d.clockOn || d.pwr.lossWake then d
    else
      let good (lsn : Nat) : Nat := ((goods.find? (·.1 == lsn)).map (·.2)).getD 0
      let run := (d.ldg.tasks.filter fun t => t.opc == .append && t.fetching).map (·.lsn)
      let d := run.foldl (fun d lsn => d.voidClose lsn (good lsn) false) d
      (run.foldl (fun d lsn => d.updTask lsn fun t => { t with voidDue := true }) d).lossCaptured)

/-! ### The commit sequence (R125 to R128) -/

/-- The bits of the steps whose domains R125 powers off: PD03 to PD09, PD11 and PD15 to PD23. -/
def shedSteps : Nat := 0x1F3E

/-- R125: loads are shed. -/
def Dev.shed (d : Dev) : Dev :=
  let d := (List.range 5).foldl (fun d k => d.updFth k fun c => { c with job := none }) d
  let d := { d with fth := { d.fth with slot := none } }
  let d := (List.range 4).foldl (fun d p => (d.updPort p fun o => { o with job := none, light := false }).portRest p) d
  let d := { d with owp := { d.owp with enc := none, tickets := [] } }
  let d := (d.motionPowerFail.motorsPowerFail).updUd fun u => { u with running := none, queue := [] }
  let d := (d.setB pgDdr DDR_STAT_TRAINED false).setB pgBank BANK_STAT_MEAS_BUSY false
  let d := { d with cal := { d.cal with running := [] }, lnk := { d.lnk with pmbRun := none, accRun := none } }
  let entry := match d.pwr.phase with
    | .entry _ _ | .commit | .rollback _ _ _ | .retryWait => true
    | _ => false
  let d := d.updPwr fun p => { p with phase := .awake, stopped := shedSteps, answers := [], retry := false, idle := false, lossWake := false }
  if entry then (((d.setB pgPwr PWR_STAT_BUSY false).put pgPwr PWR_STAT_LAST_REASON 12).irq pgPwr PWR_IRQ_ABORTED).pwrAccount 0 else d

/-- Does operation `o` run to its end behind a main-supply loss: a program in progress and not suspended (R126, R181)? -/
def FlashOp.runsOut (o : FlashOp) : Bool :=
  (o.kind == .program || (o.kind == .manual && ((3 ≤ o.slot && o.slot ≤ 5) || o.slot == 21)))
    && (o.stage == .onBus || o.stage == .yielded)

/-- Does it hold its LUN, so that a LUN reset stops it? -/
def FlashOp.inArray (o : FlashOp) : Bool := o.stage != .queued && o.kind != .suspend && o.kind != .resume && o.kind != .poll

/-- R126 on channel `k`: its queues and plan are dropped but for programs that run to their end; each LUN with an operation that is stopped
is reset in the Grain that begins (R181). The page of a stopped program is abandoned. -/
def Dev.stopChan (d : Dev) (k : Nat) : Dev :=
  let c := d.chan k
  let stopped := c.ops.filter fun o => o.inArray && !o.runsOut
  let stays (id : Nat) : Bool := c.ops.any fun o => o.id == id && o.runsOut
  let d := (stopped.filter (·.kind == .program)).foldl (fun d o => match o.page with
    | some pg => if o.rebuilt then d else d.updPage pg fun p => { p with failed := true }
    | none => d) d
  let d := d.updChan k fun c => { c with
    ops := c.ops.filter (·.runsOut), plan := [], next := [], nextPs := 0
    current := c.current.filter stays, ce := if c.current.any stays then c.ce else none }
  let luns := stopped.foldl (fun l o => if l.any fun x => lunBit x == lunBit o.pfa then l else l ++ [o.pfa]) []
  let d := luns.foldl (fun d p => d.queueReset k p) d
  let resets := (d.chan k).ops.filter (·.kind == .reset)
  (d.updChan k fun c => { c with next := resets.map fun o => (o.id, false), nextPs := (resets.map d.startPs).sum }).lunStat k

/-- R126: the flash channels stop; a block whose erase was stopped is marked for erase again, and no codeword read goes on. -/
def Dev.flashStop (d : Dev) : Dev :=
  let d := (List.range 17).foldl Dev.stopChan d
  let again (x : Stripe) : Stripe :=
    if x.erasing then { x with erasing := false, eraseLeft := none, erased := [], reclaim := true } else { x with reading := false }
  { d with fls := { d.fls with
      accesses := [], decode := [], codecs := Vector.replicate 16 none, issued := []
      maps := d.fls.maps.map fun m => { m with stripes := m.stripes.map again } } }

/-- The bays that take a copy: those that are writable for what is Held (R128, R189). -/
def Dev.commitBays (d : Dev) : List Nat := [0, 1, 2, 3].filter d.bayDrains

/-- The Held items of tasks, in LSN order (R128 item 1). -/
def Dev.heldItems (d : Dev) : List TaskSt := d.ldg.tasks.filter fun t => !t.settled && (t.opc == .append || t.hasRecord)

/-- What the pages of an APPEND carry: its bytes in staging with its void byte count (R128). -/
def Dev.itemBytes (d : Dev) (t : TaskSt) : List SettledEntry :=
  ((d.fifo t.fifo).packets.filter fun p => t.opc == .append && p.lsn == t.lsn).map fun (p : Packet) =>
    { lane := t.lane, lsn := t.lsn, offset := t.offset, bytes := p.bytes, voidBytes := p.voidBytes, bay := t.bay
      bad := p.bad.map fun j => (t.offset + 64 * j, min 64 (t.length - 64 * j)), endRec := p.endRec }

/-- Is `c` a valid commit as the bay knows it: its close record is programmed and good? -/
def Commit.good (c : Commit) : Bool := c.closed && !c.failed

/-- The commit of the highest sequence number in a list. -/
def newestOf (cs : List Commit) : Option Commit :=
  cs.foldl (fun (best : Option Commit) c =>
    match best with
    | some x => if x.seq < c.seq then some c else some x
    | none => some c) none

/-- The commit area that a bay writes: the one that does not hold its newest valid commit (R127). -/
def Dev.commitArea (d : Dev) (b : Nat) : Nat :=
  match newestOf (d.rsv.commits.filter fun c => c.bay == b && c.good) with
  | some c => 1 - c.area
  | none => 0

/-- The reserve constants (R120, R128), in the order of `Commit.consts`. -/
def rsvConsts : List Fld :=
  [RSV_E_FIXED, RSV_E_UNIT_E_CW, RSV_E_UNIT_E_REC, RSV_MIN_MIN_CW, RSV_FACTORS_ETA_PM, RSV_FACTORS_DERATE_PM, RSV_FLOOR_V_FLOOR_MV,
   RSV_FLOOR_I_FLOOR_MA]

/-- The copy of bay `b` with its ledger state and the fault journal as the edge commits it (R128 items 2 and 3), and no items yet. -/
def Dev.newCopy (d : Dev) (b : Nat) (orderly : Bool) : Commit :=
  { bay := b, seq := d.rsv.commitSeq + 1, area := d.commitArea b, gtime := (d.rsv.lossGrain.getD d.gtime) % 2 ^ 48, items := []
    bytes := [], seals := [], records := [], journal := d.ldg.journal, tasks := d.ldg.tasks, ctxs := d.ldg.ctxs
    nextLsn := d.ldg.nextLsn, limit := d.ldg.limit, consts := rsvConsts.map (d.get pgRsv), cNf := d.get pgBank BANK_C
    esr := d.get pgBank BANK_ESR_ESR_MOHM, faults := d.fjCommit.fj.recs, faultHead := d.fjCommit.get pgFj FJ_HEAD
    rows := commitRows (d.commitDc b) 0 0, orderly := orderly }

/-- Item `x`, bound to bay `b`, joins its bay's copy; where its bay takes none, the copy with the most free space, ties to the lower bay
number (R128). -/
def Dev.assignItem (d : Dev) (cs : List Commit) (b : Option Nat) (x : Commit) : List Commit :=
  let most := cs.foldl (fun (best : Option Commit) c =>
    match best with
    | some y => if d.commitRoom y < d.commitRoom c then some c else some y
    | none => some c) none
  let dest := if cs.any fun c => b == some c.bay then b else most.map (·.bay)
  cs.map fun c => if dest == some c.bay then d.addItems c x else c

/-- The copies of a commit begin in every writable bay (R127, R128); `held`: with the Held items. With no writable bay nothing is
written. -/
def Dev.beginCopies (d : Dev) (held orderly : Bool) : Dev :=
  let bays := d.commitBays
  if bays.isEmpty then d
  else
    let empty := d.newCopy 0 orderly
    let items := if held then d.heldItems else []
    let recs := if held then d.ldg.background.filter (·.held) else []
    let new := items.foldl (fun cs t => d.assignItem cs t.bay
      { empty with items := [t], bytes := d.itemBytes t, seals := d.stg.manifests.filter (·.1 == t.lsn) }) (bays.map fun b => d.newCopy b orderly)
    let new := recs.foldl (fun cs x => d.assignItem cs x.bay { empty with records := [x] }) new
    let kept := d.rsv.commits.filter fun c => !new.any fun n => n.bay == c.bay && n.area == c.area
    let d := d.updRsv fun r => { r with commits := kept ++ new, commitSeq := empty.seq, copying := true }
    new.foldl (fun d c => d.updMap c.bay fun m =>
      { m with areas := m.areas.setIfInBounds c.area ({ ready := false, seq := some c.seq } : CommitArea) }) d

/-- The edge of Grain n + 1: loads are shed and the commit begins; before the restore nothing is Held outside flash, and no copy
is written (R125, R128, R570). -/
def Dev.commitBegin (d : Dev) : Dev :=
  if !d.flag pgRsv RSV_STAT_PF || d.rsv.committing then d
  else
    let d := d.ldg.voidsDue.foldl (fun d x => d.updTask x.2.1 fun t => { t with voidDue := true }) d
    let d := { d with ldg := { d.ldg with voidsDue := [] } }
    let d := if d.flag pgLdg LDG_STAT_RESTORED then d.cutReads.beginCopies true false else d
    ((d.updRsv fun r => { r with committing := true }).setB pgFsch FSCH_STAT_COMMIT true).shed.flashStop

/-- COMMIT_SEQUENCE: staged in the Grain of the capture for the edge after it. -/
def execCommitSequence (s : State) : Host.Outcome State Fault Refusal := .next (s.noting (.cmd .commitSequence) fun s => s.dec fun _ d => d.commitBegin)

/-- The copies of the commit in progress. -/
def Dev.copies (d : Dev) : List Commit := if d.rsv.copying then d.rsv.commits.filter (·.seq == d.rsv.commitSeq) else []

/-- The element pages of a copy count in its bay's WSEQ (R203, R224). -/
def Dev.commitWritten (d : Dev) (c : Commit) : Dev :=
  d.updMap c.bay fun m => { m with wseq := m.wseq + c.rows * d.get (pgFstr c.bay) FSTR_GEOM_WIDTH }

/-- Is a row of a copy lost: have two of its elements failed (R129)? -/
def rowLost (fails : List (Nat × Nat)) : Bool := fails.any fun x => fails.any fun y => x.1 == y.1 && x.2 != y.2

/-- Copy `c` ends with its close record at VHOLD `mv`; `fails` are the page programs that failed. Its CRC-64 is over pages whose layout
the spec does not give, and free (notes/assumptions/5.md). -/
def Dev.closeCopy (d : Dev) (c : Commit) (mv : Nat) (fails : List (Nat × Nat)) : Dev :=
  let u := d.free
  let v := u.2.free
  let end_ (x : Commit) : Commit :=
    if x == c then { x with closed := !rowLost fails, failed := rowLost fails, vholdMv := mv, fails := fails
                            crc := u.1.toNat + v.1.toNat * 2 ^ 32 }
    else x
  (v.2.updRsv fun r => { r with commits := r.commits.map end_ }).commitWritten c

/-- CLOSE_RECORD_WRITE of bay `b` with VHOLD at `mv`: its items, ledger state and close record have been written, with failed page programs
`fails` (row, element). Parity covers one failed element of a row (R128, R129). -/
def execCloseRecordWrite (b : Fin 4) (mv : BitVec 16) (fails : List (Nat × Nat)) (s : State) : Host.Outcome State Fault Refusal :=
  .next (s.noting (.cmd (.closeRecordWrite b mv fails)) fun s => s.dec fun _ d =>
    match d.rsv.commits.find? fun c => c.bay == b.val && d.rsv.committing && d.copyOpen c with
    | some c => d.closeCopy c mv.toNat fails
    | none => d)

/-- COMMIT_FLOOR_REACHED with VHOLD at `mv`: a bay whose close record is not programmed is incomplete (R130). -/
def execCommitFloorReached (mv : BitVec 16) (s : State) : Host.Outcome State Fault Refusal :=
  .next (s.noting (.cmd (.commitFloorReached mv)) fun s => s.dec fun _ d =>
    if !d.rsv.committing || d.get pgRsv RSV_FLOOR_V_FLOOR_MV < mv.toNat then d
    else
      let cut := d.rsv.commits.filter d.copyOpen
      cut.foldl Dev.commitWritten (d.updRsv fun r => { r with commits := updWhere cut.contains (fun c => { c with failed := true }) r.commits }))

/-! ### What flash holds (R235, R255, R568) -/

/-- A Held APPEND that is lost: its place in the lane stays, and its bytes are unrecoverable (R9). -/
def lostEntry (t : TaskSt) : SettledEntry :=
  { lane := t.lane, lsn := t.lsn, offset := t.offset, bytes := [], voidBytes := t.length, bay := t.bay, bad := [(t.offset, t.length)] }

/-- A lane as its Settled entries give it (R255 step 4). -/
def laneFrom (store : List SettledEntry) (n : Nat) (x : LaneDesc) : LaneDesc :=
  let mine := store.filter (·.lane == n)
  let len := (mine.map fun e => e.offset + e.bytes.length + e.voidBytes).foldl max 0
  { x with length := len, settled := len, voids := (mine.map (·.voidBytes)).sum, lastAppend := (mine.map (·.lsn)).foldl max 0
           entries := mine.length }

/-- The effect of unsettled task `t` is taken back: its record is not in flash. -/
def Dev.unHeld (d : Dev) (t : TaskSt) : Dev :=
  let x := d.lane t.lane
  match t.opc with
  | .openLane => if x.openLsn == t.lsn then d.setLane t.lane {} else d
  | .seal => if x.sealLsn == t.lsn then d.unsealLane t.lane else d
  | .mark => { d with ldg := { d.ldg with holds := d.ldg.holds.filter (·.id != t.lsn) } }
  | .release =>
    if bit t.flags 2 then (if x.reclaimLsn == t.lsn then d.setLane t.lane { x with state := .archived, reclaimLsn := 0 } else d)
    else { d with ldg := { d.ldg with holds := d.ldg.holds ++ t.rel.toList } }
  | .append | .read | .query | .flush | .abort => d

/-- The ledger as its records in flash give it: what is only Held is not among them, and a hold whose lapse record has not Settled is in
force again (R97, R104, R255). An unsettled APPEND in front of a Settled one leaves a hole that cannot be read. -/
def Dev.dropHeld (d : Dev) : Dev :=
  let lost := d.ldg.tasks.filter fun t => !t.settled
  let apps := lost.filter (·.opc == .append)
  let d := (lost.reverse).foldl Dev.unHeld d
  let holes := apps.filter fun t => d.ldg.store.any fun e => e.lane == t.lane && decide (t.offset < e.offset)
  let lapsed := d.ldg.background.filterMap fun x => match x.kind with
    | .lapse h _ => some h
    | .stale | .archive _ => none
  let d := { d with ldg := { d.ldg with store := d.ldg.store ++ holes.map lostEntry, holds := d.ldg.holds ++ lapsed }
                    stg := { d.stg with manifests := d.stg.manifests.filter fun m => !lost.any (·.lsn == m.1) } }
  apps.foldl (fun d t => d.setLane t.lane (laneFrom d.ldg.store t.lane (d.lane t.lane))) d

/-- A page as power-up finds it: what has been programmed is read (R255), an abandoned page is not used, and another is still empty. -/
def ElemPage.found (p : ElemPage) : Option ElemPage :=
  if p.failed then none
  else if p.programmed then some { p with verified := true }
  else some { element := p.element, die := p.die, rows := p.rows }

/-- A row as power-up finds it (R235): without good parity its parity page counts as not written. -/
def Row.found (r : Row) : Row :=
  if r.parity then r
  else
    let pages := (r.pages.filter fun p => !p.cws.any (·.kind == 3)).filterMap ElemPage.found
    { r with pages := pages, closed := pages.all (·.full), parityQueued := false }

/-- Does a map delta stand without an operation or record that the reset ends? -/
def DeltaKind.stands : DeltaKind → Bool
  | .record .. | .gathered .. => false
  | .lane _ | .stripe .. | .change | .full | .checkpoint => true

/-- A bay's map as flash holds it (R213, R229, R254). What of it had still to be written is written again. -/
def BayMap.persistent (m : BayMap) : BayMap :=
  let found (x : Stripe) : Stripe :=
    { x with reading := false, erasing := false, eraseLeft := none, erased := [], reclaim := x.reclaim || x.erasing, rows := x.rows.map Row.found }
  { sets := m.sets, table := m.table, learned := m.learned, wseq := m.wseq, areas := m.areas, gathered := m.gathered
    rebuild := m.rebuild.map fun r => { die := r.die, left := r.left }, waiting := m.waiting, formatStep := m.formatStep
    deltas := m.deltas.filter (·.2.stands), deltaNo := m.deltaNo, changes := m.changes, reopen := true
    unmapped := true, stripes := m.stripes.map found }

/-! ### Power-on reset (R568) -/

/-- Registers that a power-on reset keeps: those of Scruple, in PD00, but for its error capture. -/
def porKeeps (a : Nat) : Bool :=
  a / 0x1000 == pgRule / 0x1000 || a / 0x1000 == pgLane / 0x1000
    || (a / 0x1000 == pgScr / 0x1000 && !(decide (0x30 ≤ a % 0x1000) && decide (a % 0x1000 < 0x40)))

/-- What flash and the fuses hold of device `d`, in a device otherwise at its reset values. -/
def Dev.inFlash (d : Dev) : Dev :=
  let d := d.dropHeld
  { host := d.host, fresh := d.fresh
    ldg := { lanes := d.ldg.lanes, store := d.ldg.store, holds := d.ldg.holds, lapses := d.ldg.lapses }
    rsv := { commits := d.rsv.commits, commitSeq := d.rsv.commitSeq, flashLimit := d.rsv.flashLimit }
    stg := { manifests := d.stg.manifests }, fls := { maps := d.fls.maps.map BayMap.persistent }
    lnk := { compHigh := d.lnk.compHigh, accInt := d.lnk.accInt }, prt := { fuses := d.prt.fuses }, su := { rollback := d.su.rollback } }

/-- A power-on reset with its cause (a bit of RST_CAUSE). PD00 keeps GTIME, the always-on SRAM and Scruple; flash, fuses and the
world outside keep what they hold; C and ESR come from the always-on SRAM (R112). -/
def Dev.powerOn (d : Dev) (cause : Nat) : Dev :=
  let perst := d.get pgPcie PCIE_STAT_PERST
  let lost := d.get pgTb TB_STAT_EPOCH_LOST
  let count := satInc 0xFFFF (d.get pgRst RST_COUNT_POR)
  let bays : Vector BayState 4 := Vector.ofFn fun b =>
    { presLow := (d.bay b).presLow, presSince := d.gtime }
  let pwr : Power := { aonT := d.pwr.aonT, carry := d.pwr.carry, gtimeCommit := d.pwr.gtimeCommit, aonCommit := d.pwr.aonCommit,
                       hold := d.pwr.hold }
  let tb : Timebase := { gtime := d.tb.gtime }
  let n := d.inFlash
  let n := { n with regs := d.regs.filter fun x => porKeeps x.1
                    aon := d.aon, tb := tb, pwr := pwr, scr := d.scr
                    rsv := { n.rsv with aonCE := d.rsv.aonCE }, fls := { n.fls with bays := bays } }
  let n := (((n.put pgRst RST_CAUSE cause).put pgRst RST_COUNT_POR count).put pgTb TB_STAT_EPOCH_LOST lost).put pgPcie
    PCIE_STAT_PERST perst
  match n.rsv.aonCE with
  | some ce =>
    (((n.put pgBank BANK_C ce.1).put pgBank BANK_ESR_ESR_MOHM ce.2).setB pgRsv RSV_STAT_VALID true).setB pgBank
      BANK_STAT_MEAS_VALID true
  | none => n

/-- OFF: PWR_HOLD falls and the main rails go (R123, R456, R561). -/
def Dev.enterOff (d : Dev) : Dev :=
  (d.updPwr fun p => { p with phase := .off, hold := false }).updRsv fun r => { r with pfLine := false }

/-- The commit has ended with VMOT at `mv`: power-on reset or OFF (R123). -/
def Dev.commitEnd (d : Dev) (mv : Nat) : Dev :=
  let grains := min 0xFFFF (d.gtime - d.rsv.lossGrain.getD d.gtime)
  let d := d.updRsv fun r => { r with commits := updWhere d.copies.contains (fun c => { c with grains := grains }) r.commits }
  if d.get pgBank BANK_PF_CFG_VMOT_FAIL_MV + 500 ≤ mv then d.powerOn 4 else d.enterOff

/-- COMMIT_END: every writable bay has finished or failed its close record; VMOT stands at `mv`. -/
def execCommitEnd (mv : Nat) (s : State) : Host.Outcome State Fault Refusal :=
  .next (s.noting (.cmd (.commitEnd mv)) fun s =>
    if !s.cur.rsv.committing || s.cur.pwr.phase == .off || s.cur.copies.any fun c => !c.closed && !c.failed then s
    else s.both fun _ => s.cur.commitEnd mv)

/-- SLEEP_SUPPLY_LOSS, `t` ticks after COMMIT: DCLK restarts, PD03, PD08 to PD10 and PD12 to PD14 are woken, and the loss is then captured as in
RUN (R453). -/
def execSleepSupplyLoss (t : Nat) (s : State) : Host.Outcome State Fault Refusal :=
  .next (s.noting (.sleepSupplyLoss t) fun s =>
    if s.cur.pwr.phase != .asleep || !s.cur.rsv.pfLine then s else s.both fun _ => s.cur.wakeUp 1 t true)

/-- OFF_ENTRY: every step has agreed to OFF. Items 2 and 3 of R128 are written to every writable bay, each with its VHOLD and
whether its close record is good, and OFF is entered (R456). -/
def execOffEntry (mv : BitVec 16) (failed : BitVec 4) (s : State) : Host.Outcome State Fault Refusal :=
  .next (s.noting (.offEntry mv failed) fun s =>
    if s.cur.pwr.phase != .commit || s.cur.pwr.target != 4 then s
    else
      let d := if s.cur.flag pgLdg LDG_STAT_RESTORED then s.cur.cutReads.beginCopies false true else s.cur
      let fails (b : Nat) : List (Nat × Nat) := if bit failed.toNat b then [(0, 0), (0, 1)] else []
      let d := (d.rsv.commits.filter d.copyOpen).foldl (fun d c => d.closeCopy c mv.toNat (fails c.bay)) d
      s.both fun _ => (d.updRsv fun r => { r with copying := false }).enterOff)

end Sys2Proof.Machine
end

