-- ==== Sys2Proof/Machine/Startup.lean ====
section
/-! DEFINITION. Start-up and resets (chapter 19, R456, R561 to R570, R579, R580). -/

namespace Sys2Proof.Machine

open Sys2Proof

def Dev.updSu (d : Dev) (f : StartUp → StartUp) : Dev := { d with su := f d.su }

/-! ### Power-on reset and OFF (R456, R561, R562) -/

/-- POWER_ON_RESET: a supply condition (SYS_PGOOD or a supply monitor) or, with `clock`, the loss of the main PLL's lock asserts
the reset; the start-up waits until every condition has cleared. In OFF and without VAON there is no main domain to reset. -/
def execPowerOnReset (clock : Bool) (s : State) : Host.Outcome State Fault Refusal :=
  .next (s.noting (.powerOnReset clock) fun s => 
    if s.cur.pwr.phase == .off || !s.cur.tb.vaon || s.cur.su.step = 0 then s
    else s.both fun _ => (s.cur.powerOn (if clock then 8 else 1)).updSu fun u => { u with step := 0 })

/-- PWR_HOLD_RISE: after VAON has powered up, VMOT_SNS has been at `mv` for `us` microseconds; the main rails are enabled. -/
def execPwrHoldRise (mv us : Nat) (s : State) : Host.Outcome State Fault Refusal :=
  .next (s.noting (.pwrHoldRise mv us) fun s => s.both fun d =>
    if !d.tb.vaon || d.pwr.hold || d.pwr.phase == .off || mv < d.get pgBank BANK_PF_CFG_VMOT_FAIL_MV + 500 || us < 20 then d
    else d.updPwr fun p => { p with hold := true })

/-- OFF_EXIT by WAKE_N: a power-on reset; time across OFF is not bridged. -/
def execOffExit (s : State) : Host.Outcome State Fault Refusal :=
  .next (s.noting (.cmd .offExit) fun s => 
    if s.cur.pwr.phase != .off then s
    else
      let d := (s.cur.powerOn 2).updPwr fun p => { p with hold := true }
      let d := (d.setB pgPwr PWR_STAT_UNBRIDGED true).setB pgTb TB_CTL_WALL_VALID false
      s.both fun _ => d.fault pgPwr 0x0D02 false false [])

/-! ### Steps 1 to 4 (R563, R564) -/

/-- Steps 2 and 3 have ended: the march begins. -/
def Dev.marchNext (d : Dev) : Dev := if d.su.fused && d.su.linked && d.su.step = 2 then d.updSu fun u => { u with step := 4 } else d

/-- START_UP: the step without a command of its own ends. The main rails are up only while PWR_HOLD is high (R560). 0: every reset condition
has cleared. 1: crystals run and the main PLL
has locked; `locks` are the other PLLs, bits 7 to 3 of CLK_STAT. 6: device firmware has set ACCEPT_EN. -/
def execStartUp (locks : BitVec 5) (s : State) : Host.Outcome State Fault Refusal :=
  .next (s.noting (.startUp locks) fun s => s.both fun d =>
    match d.su.step with
    | 0 => if d.pwr.hold then d.updSu fun u => { u with step := 1 } else d
    | 1 => if d.pwr.phase == .off || !d.pwr.hold then d else (d.put pgClk CLK_STAT (7 + locks.toNat * 8)).updSu fun u => { u with step := 2 }
    | 6 => if d.flag pgLdg LDG_CTL_ACCEPT_EN then d.updSu fun u => { u with step := 7 } else d
    | _ => d)

/-- A fuse entry applied at power-on (R485): VALID and the parity right. A row or column is replaced, a logic slice remapped. -/
def Dev.applyFuse (d : Dev) (e : Nat) : Dev :=
  let kind := bits e 29 2
  let unit := bits e 22 7
  if !bit e 31 || popcount 31 e % 2 != 0 || kind = 3 then d
  else if kind = 2 then
    match (List.range 156).find? fun i => sliceRow i == (unit, bits e 15 7) with
    | some i => (d.updPrt fun p => { p with failing := p.failing ++ [i] }).sliceFailover i
    | none => d
  else
    match (List.range 11).find? fun a => decide ((arrayUnits a).2 ≤ unit) && decide (unit < (arrayUnits a).2 + (arrayUnits a).1) with
    | some a =>
      let r : Repair := { array := a, unit := unit - (arrayUnits a).2, col := decide (kind = 1), slice := bits e 15 7
                          addr := bits e 5 10, spare := bits e 1 4, since := d.gtime }
      d.updPrt fun p => { p with taken := p.taken ++ [r] }
    | none => d

/-- Write consecutive registers. -/
def Dev.putList (d : Dev) (p : Nat) (f : Fld) (l : List Word) : Dev :=
  (l.foldl (fun (x : Dev × Nat) w => (x.1.put p (f.idx x.2) w.toNat, x.2 + 1)) (d, 0)).1

/-- The sealing key goes to the seal engine (R161). -/
def Dev.loadKey (d : Dev) (ok : Bool) : Dev :=
  if ok then d.setB pgChk CHK_SEAL_STAT_KEY_OK true
  else
    let d := (d.setB pgChk CHK_SEAL_STAT_KEY_OK false).setB pgChk CHK_SEAL_STAT_KEY_FAULT true
    (d.irq pgChk CHK_IRQ_KEY_FAULT).fault pgChk 0x0305 false false [0, 0, 0, 0]

/-- FUSE_LOAD: a word that cannot be corrected is taken as 0. -/
def execFuseLoad (w : FuseWords) (s : State) : Host.Outcome State Fault Refusal :=
  .next (s.noting (.fuseLoad w) fun s => s.dec fun _ d =>
    if d.su.step != 2 || d.su.fused then d
    else
      let bad (i : FuseItem) : Bool := w.bad.contains i
      let serial := if bad .serial then 0 else w.serial.toNat
      let d := (d.put64 pgId ID_SERIAL_LO ID_SERIAL_HI serial).put pgId ID_PCI (if bad .pci then 0 else w.pci.toNat)
      let d := d.putList pgFuseMap FM_BOOTKEY ((w.bootKey.take 8).map fun x => if bad .bootKey then 0 else x)
      let d := (((d.setB pgFuseMap FM_STAT_DBG_EN w.dbgEn).setB pgFuseMap FM_STAT_SECURE w.secure).setB pgFuseMap FM_STAT_UNCORR
        (!w.bad.isEmpty)).setB pgFuseMap FM_STAT_CORR w.corrected
      let d := (d.put pgFuseMap FM_ROLLBACK_COUNT d.su.rollback).setB pgFuseMap FM_STAT_LOADED true
      let d := ((d.put pgChk CHK_KEY_ID w.keyId.toNat).putList pgChk CHK_PUBKEY (w.pubKey.take 16)).loadKey
        (w.keyOk && !bad .sealKey)
      let good := ((List.range d.prt.fuses.length).filter fun n => !bad (.repair n)).map fun n => nthD d.prt.fuses n 0
      let d := (good.foldl (fun d e => d.applyFuse e) d).fuseStat
      let d := (List.range 11).foldl (fun d a => d.spareStat a) d
      let d := { d with stg := { d.stg with sealKey := if bad .sealKey then 0 else w.sealKey.toNat } }
      (d.updSu fun u => { u with fused := true, keyBad := bad .bootKey }).marchNext)

/-- DIE_LINK_CALIBRATE: the Grain strobe of the power die is aligned (R48); its pages are READY. -/
def execDieLinkCalibrate (s : State) : Host.Outcome State Fault Refusal :=
  .next (s.noting (.cmd .dieLinkCalibrate) fun s => s.dec fun _ d =>
    if d.su.step != 2 || d.su.linked then d
    else
      let pages := (pageMap.filter (·.powerDie)).flatMap fun r => (List.range r.count).map fun k => r.base + k * 0x1000
      let d := pages.foldl (fun d p => d.setReady p true) d
      (d.updSu fun u => { u with linked := true }).marchNext)

/-! ### Secure boot (R565, R566, R580) -/

/-- Bytes `o` to `o + n − 1` of an image's header. -/
def imgBytes (i : FwImage) (o n : Nat) : List Byte := (i.header.drop o).take n

/-- The rollback index of an image. -/
def imgRollback (i : FwImage) : Nat := leNat (imgBytes i 12 4)

/-- The digest in FM_BOOTKEY0 to FM_BOOTKEY7, most significant word first. -/
def Dev.bootDigest (d : Dev) : List Byte := (List.range 8).flatMap fun i => beBytes 4 (d.get pgFuseMap (FM_BOOTKEY.idx i))

/-- Is an image authentic (R565)? While the digest is one that could not be corrected and SECURE is 1, none is (R564). -/
def Dev.authentic (d : Dev) (i : FwImage) : Bool :=
  i.header.length == 256 && imgBytes i 0 4 == [0x48, 0x58, 0x46, 0x57] && leNat (imgBytes i 4 2) == 1 && leNat (imgBytes i 6 2) == 256
    && leNat (imgBytes i 8 4) == i.body.length && sha256 i.body == imgBytes i 32 32
    && decide (d.get pgFuseMap FM_ROLLBACK_COUNT ≤ imgRollback i)
    && (!d.flag pgFuseMap FM_STAT_SECURE || (!d.su.keyBad && sha256 (imgBytes i 64 64) == d.bootDigest
      && ecdsaVerify (imgBytes i 64 64) (sha256 (imgBytes i 0 192)) (imgBytes i 192 64)))

/-- BOOT_ROM: the stage images of slots A and B as read. The authentic one of the higher rollback index runs, slot A on a tie;
with none the pair halts (R566). -/
def execBootRom (a b : Option FwImage) (s : State) : Host.Outcome State Fault Refusal :=
  .next (s.noting (.bootRom a b) fun s => s.dec fun _ d =>
    if d.su.step != 5 || d.gtime < d.su.coresAt || d.get pgId ID_BOOT_STATE != 0 then d
    else
      let good (i : Option FwImage) : Option FwImage := i.filter fun i => d.authentic i && decide (i.body.length ≤ 114688)
      let run (st : Nat) (i : FwImage) : Dev :=
        ((d.put pgId ID_BOOT_STATE st).put pgId ID_BOOT_ROLLBACK (imgRollback i)).updSu fun u => { u with step := 6 }
      match good a, good b with
      | some x, some y => if imgRollback x < imgRollback y then run 2 y else run 1 x
      | some x, none => run 1 x
      | none, some y => run 2 y
      | none, none => d.put pgId ID_BOOT_STATE 3)

/-- AUTH: R565 applied to a later image that device firmware names. -/
def execAuth (i : FwImage) (s : State) : Host.Outcome State Fault Refusal :=
  .next (s.noting (.auth i) fun s => s.dec fun _ d => if d.su.step < 6 then d else d.updSu fun u => { u with auth := d.authentic i })

/-- FM_ROLLBACK_INC: the next counter fuse is burned in a maintenance window, and INC reads 0 again. -/
def execFmRollbackInc (r : Requester) (s : State) : Host.Outcome State Fault Refusal :=
  .next (s.noting (.fmRollbackInc r) fun s => s.dec fun _ d =>
    if !d.flag pgFuse FUSE_STAT_MAINT then d.errAt pgFuseMap FM_ROLLBACK .maintDenied r
    else
      let n := min 63 (d.su.rollback + 1)
      (d.put pgFuseMap FM_ROLLBACK_COUNT n).updSu fun u => { u with rollback := n })

/-! ### Warm reset (R105, R158, R199, R235, R306, R333, R375, R405, R430, R443, R509, R536, R568, R569) -/

/-- Registers of which a warm reset keeps every field: bays (R199), staging and check (R158), Peck, whose locked ways hold the
contexts that R105 keeps, Fathom and the write path but for their jobs (R306, R333), servo, motors and motion (R375, R405, R430),
the utility DMA (R443), Scruple (PD00), RST_CAUSE (R569). -/
def warmKeeps (a : Nat) : Bool :=
  (decide (pgFk 0 ≤ a) && decide (a < pgFch 0)) || (decide (pgBay 0 ≤ a) && decide (a < pgFsch))
    || (decide (pgMc ≤ a) && decide (a < pgPwr)) || (decide (pgScr ≤ a) && decide (a < pgProt)) || a == pgRst + RST_CAUSE.off

/-- The fields that a warm reset returns to their reset values: those that software writes, but RWS; EPOCH_LOST stays (R46). -/
def warmMask (a : Nat) (r : RegRow) : Nat :=
  if a % 0x1000 < 0x40 then headerMask false a r
  else if warmKeeps a then 0
  else if a == pgTb + TB_STAT.off then 6
  else without (softBits r) r.rws

/-- The ledger's part (R105): acceptance off, windows cleared and disarmed, no activation, READ and QUERY end INTERRUPTED. -/
def Dev.ledgerWarm (d : Dev) : Dev :=
  let d := (List.range 64).foldl (fun d w => ((d.clearDescr w).put (pgTw w) TW_RESULT_STATE 0).setB (pgTw w) TW_CQ_CFG_ARMED false) d
  let d := ((d.put pgLdg LDG_CTL 0).setB pgLdg LDG_STAT_DRAINING false).setB pgLdg LDG_STAT_QUIESCED false
  let d := { d with ldg := { d.ldg with activateClear := false, bells := [] } }
  let run := d.ldg.tasks.filter fun t => (t.opc == .read || t.opc == .query) && !d.isMet t.lsn
  (run.foldl (fun d t => (d.readCut t).meetNoEffect t.lsn .interrupted ((d.readCut t).gotOf t.lsn)) d).accepting

/-- The read channels' part (R306): jobs end with RESET, the iteration stops, records not yet posted are dropped. -/
def Dev.fathomWarm (d : Dev) : Dev :=
  let d := (List.range 5).foldl (fun d k => (d.fthEnd k .reset).updFth k fun c => { c with recs := [], compare := [] }) d
  if d.fth.slot.isSome then d.freeSlot else d

/-- The write path's part (R333). -/
def Dev.opticalWarm (d : Dev) : Dev :=
  let d := (List.range 4).foldl (fun d p => d.owpWarm p) d
  (if d.owp.enc.isSome then d.encEnd 0 else d).ticketsReturn

/-- The manual operations' part (R199). -/
def Dev.manualWarm (d : Dev) : Dev := (List.range 17).foldl (fun d k => d.setB (pgFch k) SEQ_CTL_MANUAL false) d

/-- A warm reset with its causes; the cores resume at step 5 after 25 Grains (R569). -/
def Dev.warm (d : Dev) : Dev :=
  let cause := d.su.warm
  let d := ((((d.ledgerWarm.fathomWarm.opticalWarm).bushelWarm.planDrop).ethStop).canStop 0).canStop 1
  let d := { d with regs := regsReset (fun a => decide (a < 0x200000000)) warmMask d.regs, tb := { d.tb with wallLo := none } }
  let d := ((d.manualWarm.setB pgFuse FUSE_STAT_MAINT false).put pgRst RST_CAUSE (d.get pgRst RST_CAUSE ||| cause)).inc pgRst
    RST_COUNT_WARM
  let d := (d.put64 pgIrq (IRQ_LEVEL.idx 6) (IRQ_LEVEL.idx 7) 0).put pgId ID_BOOT 0
  d.updSu fun u => { u with warm := 0, step := 5, coresAt := d.gtime + 26, auth := false }

/-- May a captured warm reset take effect at the next edge: not before step 4 has ended, not during a commit (R569, R570)? -/
def Dev.warmDue (d : Dev) : Bool := d.su.warm != 0 && decide (5 ≤ d.su.step) && !d.rsv.committing

/-- WARM_RESET: the warm reset captured in this Grain is staged for the next edge. -/
def execWarmReset (s : State) : Host.Outcome State Fault Refusal :=
  .next (s.noting (.cmd .warmReset) fun s => s.dec fun _ d => if d.warmDue then d.warm else d)

/-- A cause of a warm reset is captured. -/
def Dev.warmCause (d : Dev) (n : Nat) : Dev := d.updSu fun u => { u with warm := u.warm ||| n }

/-- RST_CTL_WARM: a write of RST_CTL with WARM 1 and the key given. -/
def execRstCtlWarm (key : Byte) (s : State) : Host.Outcome State Fault Refusal :=
  .next (s.noting (.rstCtlWarm key) fun s => s.dec fun _ d => if key = 0xA5 then (d.setB pgRst RST_CTL_WARM true).warmCause 0x20 else d)

/-- RST_CTL_APP: a write of RST_CTL with APP 1 and the key given. The application cores are reset; their state is not this
machine's, and APP is done at the same edge. -/
def execRstCtlApp (key : Byte) (s : State) : Host.Outcome State Fault Refusal :=
  .next (s.noting (.rstCtlApp key) fun s => s.dec fun _ d => if key = 0xA5 then d.setB pgRst RST_CTL_APP false else d)

/-- RST_N_LOW for `ns` nanoseconds. -/
def execRstNLow (ns : Nat) (s : State) : Host.Outcome State Fault Refusal :=
  .next (s.noting (.rstNLow ns) fun s => s.dec fun _ d => if ns < 1000 then d else d.warmCause 0x10)

/-- LOCKSTEP_MISMATCH in a real-time pair. -/
def execLockstepMismatch (_pair : Fin 2) (s : State) : Host.Outcome State Fault Refusal :=
  .next (s.noting (.lockstepMismatch _pair) fun s => s.dec fun _ d => d.warmCause 0x40)

/-- DEBUG_RESET_REQUEST: with DBG_EN at 0 the debug port reaches boundary scan only (R567). -/
def execDebugResetRequest (s : State) : Host.Outcome State Fault Refusal :=
  .next (s.noting (.cmd .debugResetRequest) fun s => s.dec fun _ d => if d.flag pgFuseMap FM_STAT_DBG_EN then d.warmCause 0x80 else d)

end Sys2Proof.Machine
end

