-- ==== Sys2Proof/Machine/Views.lean ====
section
/-! DEFINITION. What a read of a register returns (R22, R23, R539): the register's word, without write-only bits, and for a
register that shows something computed, what it shows. Reads here have no effect; the reads that have one are commands of
their own. -/

namespace Sys2Proof.Machine

open Sys2Proof

/-! ### Page status (R446, R543) -/

/-- PWR of a page in domain `n`: 0 ON, 1 GATED, 2 RETAINED, 3 OFF, 4 LISTENING. A domain that an entry has stopped is gated until
COMMIT. -/
def Dev.powerView (d : Dev) (n : Nat) : Nat :=
  if d.domainOn n then 0
  else
    match d.pwr.phase with
    | .entry _ _ | .commit | .rollback _ _ _ | .retryWait | .awake => if n = 20 then 4 else 1
    | .off => 3
    | .asleep | .waking _ _ =>
      if d.pwr.target = 4 then 3
      else if n = 20 then 4
      else if d.pwr.target = 3 && n != 22 then 2
      else 1

/-- Has the block of page `p` work in progress (R543)? DESIGN CHOICE (log 154): which work of a block counts, the spec does not say. -/
def Dev.pageBusy (d : Dev) (p : Nat) : Bool :=
  let k := p / 0x1000 % 0x100
  match p / 0x100000 with
  | 0x401 => if k < 64 then d.outstanding k != 0 || d.get p TW_RESULT_STATE == 1 else !d.ldg.tasks.isEmpty
  | 0x402 => if k = 0 then d.rsv.committing else d.flag pgBank BANK_STAT_MEAS_BUSY
  | 0x403 => if k < 64 then d.flag p FK_STAT_HELD else if p = pgChk then d.stg.signing.isSome || d.nextSeal.isSome else false
  | 0x404 =>
    if k < 17 then !(d.chan k).ops.isEmpty
    else if p = pgFsch then (List.range 17).any fun c => !(d.chan c).ops.isEmpty
    else [1, 2, 3, 6].contains (d.get p BAY_STAT_STATE)
  | 0x405 => if k = 0 then !d.fls.accesses.isEmpty else (d.bmap (k - 1)).rebuild.isSome || d.flag p FSTR_STAT_FORMATTING
  | 0x406 => if k = 0 then d.mc.miss.isSome || !d.mc.prefetch.isEmpty || d.flag pgMc MC_PRE_CTL_BUSY else false
  | 0x407 => if k < 5 then (d.fthc k).job.isSome else d.fth.slot.isSome
  | 0x408 => if k < 4 then (d.port k).job.isSome else if k = 8 then d.owp.enc.isSome else !d.owp.tickets.isEmpty
  | 0x409 => 2 ≤ k && d.get p OPS_STAT_STATE != 0
  | 0x40A => k < 6 && d.motorState k != 0 && d.motorState k != 6
  | 0x40B => k < 12 && 2 ≤ d.axisState k && d.axisState k ≤ 5
  | 0x40C => if k < 32 then d.flag p UD_STAT_PENDING || d.ud.running == some k else d.ud.running.isSome
  | 0x40D => p == pgPwr && d.flag pgPwr PWR_STAT_BUSY
  | 0x40E => p == pgLbist && !d.prt.testing.isEmpty
  | 0x40F => if k = 0 then !d.cal.running.isEmpty else k == 2 && (d.cal.plan.isSome || d.flag pgMplan MP_STAT_APPLYING)
  | 0x410 => (p == pgAcc && d.lnk.accRun.isSome) || (p == pgPmb && d.lnk.pmbRun.isSome) || ((k == 2 || k == 3) && d.get p CAN_TX_REQ_BUF != 0)
  | _ => false

/-! ### The journal's window (R556, R557) -/

/-- Word `i` of the fault record `age` places back from the newest; 0 if none. -/
def Dev.fjWord (d : Dev) (age i : Nat) : Word :=
  match d.fj.recs[age]? with
  | some r => BitVec.ofNat 32 (leNat ((r.bytes.drop (4 * i)).take 4))
  | none => 0

/-! ### Interrupt lines (R552, R553) -/

/-- Is the line `l` of the pages high? The line of a host-owned window is low. -/
def Dev.pageLine (d : Dev) (l : Nat) : Bool :=
  pageMap.any fun r =>
    match r.line with
    | none => false
    | some b => (List.range r.count).any fun k =>
        b + k / r.lineDiv == l && d.irqPend (r.base + k * 0x1000) != 0 && !(r.block == 0x0101 && d.hostOwned k)

/-- IRQ_LEVEL`i`: lines 0 to 197 from the pages, 198 to 255 as software set them. -/
def Dev.levelView (d : Dev) (i : Nat) : Word :=
  let pages := if i ≤ 6 then (List.range 32).foldl (fun m j => setBits m j 1 (b2n (d.pageLine (32 * i + j)))) 0 else 0
  if i < 6 then BitVec.ofNat 32 pages
  else if i = 6 then BitVec.ofNat 32 (pages % 64 + d.swLines % 2 ^ 32 / 64 * 64)
  else BitVec.ofNat 32 (d.swLines / 2 ^ 32)

/-! ### Page by page -/

/-- Where a data register that a selector banks finds its word; `none` for any other register. -/
def Dev.banked (d : Dev) (p o : Nat) : Option Nat :=
  let k := p / 0x1000 % 0x100
  if p = pgProt && 0x44 ≤ o && o ≤ 0x68 then some (pgMem d.memSel + o)
  else if p = pgScr then
    let r := pgRule + 0x40 + 16 * d.get pgScr SCR_RULE_SEL_RULE
    if o = SCR_RULE_A.off then some r
    else if o = SCR_RULE_B.off then some (r + 4)
    else if o = SCR_RULE_STAT.off then some (r + 8)
    else if o = SCR_LANE_DATA.off then some (pgLane + 4 * bits (d.get pgScr SCR_LANE_SEL_SEL) 0 6)
    else none
  else if p = pgAge then
    let q := pgAgeb + 16 * d.get pgAge AGE_SEL_ID
    if o = AGE_VAL.off then some q
    else if o = AGE_REF.off then some (q + 4)
    else if o = AGE_INFO.off then some (q + 8)
    else none
  else if pgOwp 0 ≤ p && p < pgOwp 4 && o = WS_DATA.off then some (pgWst k + 4 * bits (d.get p WS_SEL_ENTRY) 0 4)
  else if pgOps 0 ≤ p && p < pgOps 4 && o = OPS_MTX_DATA.off then
    some (pgMtx (k - 2) + 4 * bits (d.get p OPS_MTX_SEL_SEL) 0 7)
  else if pgEll 0 ≤ p && p < pgEll 2 && o = ELL_FF_DATA.off then some (pgFf k + 4 * bits (d.get p ELL_FF_SEL_SEL) 0 9)
  else none

/-- Registers that show what stands elsewhere in the state; `none` for a register that shows its own word. -/
def Dev.computed (d : Dev) (r : Requester) (p o : Nat) : Option Word :=
  let k := p / 0x1000 % 0x100
  let nat (n : Nat) : Option Word := some (BitVec.ofNat 32 n)
  if o = PG_IRQ_PEND.off then nat (d.irqPend p)
  else if o = PG_STAT.off then nat (setBits (setBits (d.rd (p + PG_STAT.off)).toNat 8 3 (d.powerView (domainOf p))) 1 1
    (b2n (d.pageBusy p)))
  else if o < 0x40 then none
  else if p = pgTb then
    if o = TB_GTIME_LO.off then nat d.gtime
    else if o = TB_GTIME_HI.off then some (d.latched r (p + o))
    else none
  else if pgTw 0 ≤ p && p < pgTw 64 then
    if o = TW_OUTST.off then nat (d.outstanding k + d.unposted k * 2 ^ 16) else none
  else if p = pgLdg then
    if o = LDG_NEXT_LSN_LO.off then nat d.ldg.nextLsn
    else if o = LDG_LSN_LIMIT_LO.off then nat d.ldg.limit
    else if o = LDG_NEXT_LSN_HI.off || o = LDG_LSN_LIMIT_HI.off then some (d.latched r (p + o))
    else if o = LDG_JRNL_USED.off then
      let n := d.ldg.journal.length
      nat (n + (4096 - d.retiredCount 9 - n) * 2 ^ 16)
    else if o = LDG_CTX_OPEN.off then nat (d.ldg.ctxs.filter fun x => x.2.state != .free).length
    else if o = LDG_HOLDS.off then nat d.ldg.holds.length
    else none
  else if p = pgRsv then
    if o = RSV_COMMIT_SEQ_HI.off then some (d.latched r (p + o)) else none
  else if p = pgFj then
    if FJ_REC.off ≤ o && o < FJ_REC.off + 32 then some (d.fjWord (d.get pgFj FJ_SEL_AGE) ((o - FJ_REC.off) / 4))
    else if FJ_WIN.off ≤ o then some (d.fjWord ((o - FJ_WIN.off) / 32) (o % 32 / 4))
    else none
  else if p = pgIrq then
    if IRQ_LEVEL.off ≤ o && o < IRQ_LEVEL.off + 32 then some (d.levelView ((o - IRQ_LEVEL.off) / 4)) else none
  else if pgFk 0 ≤ p && p < pgFk 64 then
    if o = FK_DIAG_HI.off then some (d.latched r (p + o)) else none
  else if pgCv 0 ≤ p && p < pgCv 8 then
    let c := d.get p CV_CTX_SEL_CTX
    if o = CV_RUN_LO.off then nat (d.crcOf c)
    else if o = CV_RUN_HI.off then some (d.latched r (p + o))
    else none
  else if pgBay 0 ≤ p && p < pgBay 4 then
    if o = BAY_RCP_DATA.off then some (d.rcpData (k - 0x11))
    else if o = BAY_STAT.off then nat (setBits (d.rd (p + o)).toNat 10 1 (b2n (d.heldIn (k - 0x11) != 0)))
    else none
  else if pgFstr 0 ≤ p && p < pgFstr 4 then
    let e := ((d.bmap (k - 1)).retry[bits (d.get p FSTR_RT_SEL_SEL) 0 4]?).getD 0
    if o = FSTR_RT_LO.off then nat e
    else if o = FSTR_RT_HI.off then nat (e / 2 ^ 32)
    else none
  else if pgEll 0 ≤ p && p < pgEll 2 then
    let s := d.get p ELL_SLOT_SEL_SLOT
    if SLOT_CFG.off ≤ o && o ≤ SLOT_FE.off then some (nthD (d.slotWords k s) ((o - SLOT_CFG.off) / 4) 0)
    else if SLOT_STATE.off ≤ o && o < SLOT_STATE.off + 16 then some (d.slotStateView k s ((o - SLOT_STATE.off) / 4))
    else if o = SLOT_FE_STAT_COUNT.off then some (d.slotFeView k s)
    else none
  else if p = pgPwr then
    if o = PWR_WAKE_EN_SRC.off then nat (d.get pgPwr PWR_WAKE_EN_SRC ||| 1)
    else if o = PWR_BRIDGE_HI.off || o = PWR_AON_T_HI.off then some (d.latched r (p + o))
    else none
  else if p = pgScr then
    if o = SCR_SIG_DATA.off then some d.sigDataView else none
  else if p = pgEth then
    if o = ETH_STAT_LISTENING.off then nat (setBits (d.rd (p + o)).toNat 3 1 (b2n (d.powerView 20 == 4))) else none
  else none

/-- What requester `r` reads from the register at `a` of a page that is ON; 0 where no register stands (R539). -/
def Dev.readWord (d : Dev) (r : Requester) (a : Nat) : Word :=
  let p := a / 0x1000 * 0x1000
  let o := a % 0x1000
  match d.computed r p o with
  | some v => v
  | none =>
    let a := (d.banked p o).getD a
    match regRow a with
    | some w => d.rd a &&& ~~~(BitVec.ofNat 32 w.wo)
    | none => 0

end Sys2Proof.Machine
end

