-- ==== Sys2Proof/Machine/RegWrite.lean ====
section
/-! DEFINITION. A software write to a register (R36, R539). A field takes what its access type says (R22); on top of that stand
the writes that a rule ignores, refuses or clamps, and the writes whose register has a command of its own, which do what that
command does. -/

namespace Sys2Proof.Machine

open Sys2Proof

/-! ### Plain fields -/

/-- Bits of registers whose one listed field has reserved bits within it. -/
def reservedWithin (p o : Nat) : Nat :=
  let here (b n : Nat) (f : Fld) : Bool := decide (b ≤ p) && decide (p < b + n * 0x1000) && o == f.off
  if here pgBay0 4 BAY_RCP_ADDR then 0xFFFFFE00
  else if here (pgFstr 0) 4 FSTR_RT_SEL || here (pgOwp 0) 4 WS_SEL then 0xFFFFFFF0
  else if here (pgOps 0) 4 OPS_MTX_SEL then 0xFFFFFF80
  else if here (pgOps 0) 4 OPS_MTX_DATA then 0xFFFF0000
  else if here (pgEll 0) 2 ELL_FF_SEL then 0xFFFFFE00
  else if here pgScr 1 SCR_SIG_SEL then 0xFFFFFFE0
  else if here pgScr 1 SCR_LANE_SEL then 0xFFFFFFC0
  else if here (pgOwp 0) 4 WP_JOB_CNT || here pgEth 1 ETH_MAC_HI then 0xFFFF0000
  else if here (pgFth 0) 5 (FTH_EQ_TAP_TAP_HI.idx 7) then 0xFFFF0000
  else if here pgGpio 1 GPIO_ALT then 0xFFFFFFFC
  else 0
where pgBay0 : Nat := pgBay 0

/-- Write `v` to the register at `a`: RW and RWS bits take it, W1C bits written 1 clear; other bits stay. -/
def Dev.plainWrite (d : Dev) (a : Nat) (v : Word) : Dev :=
  match regRow a with
  | none => d
  | some w =>
    let rw := BitVec.ofNat 32 w.rw
    d.wr a (((d.rd a &&& ~~~rw) ||| (v &&& rw)) &&& ~~~(v &&& BitVec.ofNat 32 w.w1c))

/-- A field that a write clamps: first page, pages, field, least and greatest value, and whether the spec says that PG_ERR_INFO
records it (R546). -/
structure Clamp where
  base : Nat
  count : Nat
  fld : Fld
  lo : Nat
  hi : Nat
  recorded : Bool
deriving DecidableEq, Repr

/-- The clamped fields. -/
def clamps : List Clamp := [
  ⟨pgRsv, 1, RSV_FACTORS_DERATE_PM, 0, 1000, true⟩, ⟨pgRsv, 1, RSV_FACTORS_ETA_PM, 0, 1000, true⟩,
  ⟨pgBank, 1, BANK_MEAS_CFG_I_PULSE, 1, 125, true⟩, ⟨pgFstr 0, 4, FSTR_CFG_WIDTH, 4, 16, true⟩,
  ⟨pgFth 0, 5, FTH_RATE_RATE_KBPS, 0, 800000, true⟩, ⟨pgFth 0, 5, FTH_CTF_CUTOFF, 10, 130, true⟩,
  ⟨pgFth 0, 5, FTH_CTF_BOOST, 0, 24, true⟩, ⟨pgFth 0, 5, FTH_EQ_CFG_MU_SHIFT, 8, 20, true⟩,
  ⟨pgFth 0, 5, FTH_SYNC_SLIP_MAX, 3, 64, false⟩, ⟨pgFth 0, 5, FTH_ITER_STALL_ITER, 1, 4, false⟩,
  ⟨pgFth 0, 5, FTH_ITER_ITER_MAX, 1, 8, false⟩, ⟨pgOwp 0, 4, WP_CTL_SPEED, 0, 8, true⟩,
  ⟨pgOps 0, 4, OPS_JUMP_JUMP_MAX, 1, 127, false⟩, ⟨pgCmt 0, 6, CMT_PWM_TOP, 500, 2500, true⟩,
  ⟨pgCmt 0, 6, CMT_PWM_DEAD, 2, 200, false⟩, ⟨pgCmt 0, 6, CMT_COMM_ADV, 0, 64, false⟩,
  ⟨pgCmt 0, 6, CMT_COMM_SOFT_PCT, 0, 25, false⟩, ⟨pgCmt 0, 6, CMT_OBS_WIN_PCT, 5, 50, false⟩,
  ⟨pgAx 0, 12, CHN_CUR_IMAX, 0, 600, true⟩, ⟨pgAx 0, 12, CHN_CUR_IRUN, 0, 600, true⟩,
  ⟨pgAx 0, 12, CHN_CUR_IHOLD, 0, 600, true⟩, ⟨pgAx 0, 12, CHN_STEP_W_STEP_W, 2, 127, false⟩,
  ⟨pgLbist, 1, LB_CTL_MAX_CONC, 1, 4, false⟩, ⟨pgMplan, 1, MP_LIMITS_DERATE_FLOOR, 500, 950, true⟩,
  ⟨pgMplan, 1, MP_LIMITS_GAIN_STEP_PCT, 1, 25, false⟩]

/-- Apply the clamps of the register at offset `o` of page `p`, just written by `r`. -/
def Dev.clampFields (d : Dev) (r : Requester) (p o : Nat) : Dev :=
  clamps.foldl (fun d c =>
    if p < c.base || c.base + c.count * 0x1000 ≤ p || c.fld.off != o then d
    else
      let n := d.get p c.fld
      if clampN c.lo c.hi n = n then d
      else
        let d := d.put p c.fld (clampN c.lo c.hi n)
        if c.recorded then d.errAt p c.fld .clamp r else d) d

/-- TB_WALL_RATE is limited to ±500,000, codes of FCH_PHY_CFG.RATE above 8 are taken as 0, FORMAT 3 as 0, and addresses
that a 16-bit frame cannot carry lose bits 7 and 6; each is recorded (R46, R166, R263, R320). -/
def Dev.clampSpecial (d : Dev) (r : Requester) (p o : Nat) : Dev :=
  let fix (f : Fld) (n : Nat) : Dev := if d.get p f = n then d else (d.put p f n).errAt p f .clamp r
  if p = pgTb && o = TB_WALL_RATE.off then fix TB_WALL_RATE (ofInt 32 (clampI (-500000) 500000 (d.getI p TB_WALL_RATE)))
  else if pgFch 0 ≤ p && p < pgFch 17 && o = FCH_PHY_CFG_RATE.off then
    let n := d.get p FCH_PHY_CFG_RATE
    fix FCH_PHY_CFG_RATE (if 8 < n then 0 else n)
  else if pgFth 0 ≤ p && p < pgFth 5 && o = FTH_CTL_FORMAT.off then
    let n := d.get p FTH_CTL_FORMAT
    fix FTH_CTL_FORMAT (if n = 3 then 0 else n)
  else if pgOwp 0 ≤ p && p < pgOwp 4 && o = WP_CTL_FORMAT.off then fix WP_CTL_FORMAT (d.get p WP_CTL_FORMAT % 3)
  else if p = pgWenc && o = ENC_CTL_FORMAT.off then fix ENC_CTL_FORMAT (d.get p ENC_CTL_FORMAT % 3)
  else if pgOwp 0 ≤ p && p < pgOwp 4 && d.get p WP_SPI_CFG_FRAME % 3 = 0 then
    if o = WP_SPI_ADDR.off then fix WP_SPI_ADDR (d.get p WP_SPI_ADDR &&& 0x3F3F3F3F)
    else if o = WP_LEVEL2_PR_ADDR.off then fix WP_LEVEL2_PR_ADDR (d.get p WP_LEVEL2_PR_ADDR &&& 0x33F)
    else d
  else d

/-! ### Writes that are ignored or refused -/

/-- Is a write to offset `o` of page `p` ignored without a record? -/
def Dev.writeIgnored (vis d : Dev) (p o : Nat) : Bool :=
  let k := p / 0x1000 % 0x100
  let among (b n : Nat) : Bool := decide (b ≤ p) && decide (p < b + n * 0x1000)
  let any (l : List Fld) : Bool := l.any (·.off == o)
  if among (pgTw 0) 64 then any [TW_CQ_BASE_LO_BASE, TW_CQ_BASE_HI_BASE_HI] && d.flag p TW_CQ_CFG_ARMED
  else if p = pgLdg then any [LDG_OWNER_LO, LDG_OWNER_HI] && d.flag pgLdg LDG_CTL_ACCEPT_EN
  else if p = pgChk then
    any [CHK_SHA_BASE_LO, CHK_SHA_BASE_HI, CHK_TRAIL_BASE_LO, CHK_TRAIL_BASE_HI] && vis.flag pgLdg LDG_CTL_ACCEPT_EN
  else if p = pgMap then
    any [MAP_DESC_BASE_LO, MAP_DESC_BASE_HI, MAP_POOL_BASE_LO, MAP_POOL_BASE_HI, MAP_POOL_PAGES]
      && vis.flag pgLdg LDG_CTL_ACCEPT_EN
  else if p = pgBank then any [BANK_PF_CFG_DEBOUNCE_US] && d.rsv.pfLine
  else if among (pgFk 0) 64 then any [FK_DIAG_LO] && !d.flag p FK_CTL_DIAG_EN
  else if p = pgMc then any [MC_PRE_WAYS_WAYS] && d.flag pgMc MC_PRE_CTL_BUSY
  else if among (pgFth 0) 5 then any [FTH_RES_BASE_LO, FTH_RES_BASE_HI] && (d.fthc k).job.isSome
  else if among (pgOwp 0) 4 then
    any [WP_RES_BASE_LO, WP_RES_BASE_HI, WS_DATA, WP_RES_CFG_SIZE_LOG2] && (d.port k).job.isSome
  else if p = pgWarc then
    any [AR_TBL_BASE_LO, AR_TBL_BASE_HI] && (List.range 4096).any fun i => d.ticketState i != 0
  else if among (pgAx 0) 12 then any [CHN_GEAR_NEXT, CHN_GEAR_POS] && d.flag p CHN_STEP_CFG_ARM
  else if p = pgProt then
    any [MEM_TEST_ADDR, MEM_TEST_DATA_LO, MEM_TEST_DATA_HI, MEM_TEST_CHK_HI_CHK_HI] && !d.testEn
  else if p = pgEth then
    any [ETH_TX_BASE_LO, ETH_TX_BASE_HI, ETH_RX_BASE_LO, ETH_RX_BASE_HI]
      && (d.flag pgEth ETH_CTL_TX_EN || d.flag pgEth ETH_CTL_RX_EN)
  else if among (pgCan 0) 2 then
    any [CAN_BT_NOM_SJW_M1, CAN_RX_BASE_LO, CAN_RX_BASE_HI, CAN_RX_CFG_SIZE_LOG2] && d.flag p CAN_CTL_RUN
  else false

/-- The error that a refused write records: the descriptor while PENDING (R62), read-retry entries in WRITABLE and RELEASING
(R211), the description of a utility DMA channel that was at work at the edge or is now (R435, R444). -/
def Dev.writeRefused (vis d : Dev) (p o : Nat) : Option ErrCode :=
  if pgTw 0 ≤ p && p < pgTw 64 && TW_D.off ≤ o && o < TW_D.off + 32 && Dev.isPending vis d (p / 0x1000 % 0x100) then some .doorbellBusy
  else if pgFstr 0 ≤ p && p < pgFstr 4 && (o = FSTR_RT_LO.off || o = FSTR_RT_HI.off)
    && vis.bayDrains ((p - pgFstr 0) / 0x1000) then some .rcpBusy
  else if pgUd 0 ≤ p && p < pgUd 32 && UD_SRC_LO.off ≤ o && o ≤ UD_TRIG_KIND.off
    && [vis, d].any (fun x => x.flag p UD_STAT_ARMED || x.flag p UD_STAT_PENDING || x.flag p UD_STAT_RUNNING) then some .cfgBusy
  else none

/-- Fields of the written register that keep their old value, restored from `old` after the write. -/
def Dev.keepFields (old d : Dev) (p o : Nat) : Dev :=
  let k := p / 0x1000 % 0x100
  let keep (f : Fld) (b : Bool) (d : Dev) : Dev := if b && f.off == o then d.put p f (old.get p f) else d
  if p = pgDdr then keep DDR_CFG_ECC_EN old.mc.everTrained d
  else if p = pgMc then keep MC_PRE_CTL_LINES_M1 (old.flag pgMc MC_PRE_CTL_BUSY) d
  else if pgFth 0 ≤ p && p < pgFth 5 then
    keep FTH_ADC_FAILED true (keep FTH_CTL_FORMAT (old.fthc k).job.isSome d)
  else if pgOwp 0 ≤ p && p < pgOwp 4 then
    let d := keep WP_CTL_FORMAT (old.port k).job.isSome d
    if o = WP_INH_CAUSE_EN.off then d.put p WP_INH_CAUSE_EN (setBits (d.get p WP_INH_CAUSE_EN) 9 1 1) else d
  else if pgEll 0 ≤ p && p < pgEll 2 then keep ELL_STAT_LANE_FAILED true d
  else if pgCmt 0 ≤ p && p < pgCmt 6 then
    let off := old.motorState k != 0
    keep CMT_CTL_HALL_EN off (keep CMT_CTL_DIR off d)
  else if pgAx 0 ≤ p && p < pgAx 12 then keep CHN_CTL_DIR_INV (old.axisState k != 0) d
  else d

/-! ### Registers that stand elsewhere or have effects -/

/-- FSTR_RT_LO or FSTR_RT_HI of bay `b`: half of the selected read-retry entry (R211). -/
def Dev.retryWrite (d : Dev) (b : Nat) (hi : Bool) (v : Word) : Dev :=
  let i := bits (d.get (pgFstr b) FSTR_RT_SEL_SEL) 0 4
  d.updMap b fun m =>
    { m with retry := m.retry.setIfInBounds i (setBits ((m.retry[i]?).getD 0) (if hi then 32 else 0) 32 v.toNat) }

/-- FINT_CTL: RAND_EN stays while a bay is WRITABLE or RELEASING, with RAND_BUSY where the write would change it (R208). -/
def Dev.fintWrite (vis d : Dev) (r : Requester) (v : Word) : Dev :=
  let old := d.get pgFint FINT_CTL_RAND_EN
  let d := d.plainWrite (pgFint + FINT_CTL_RAND_EN.off) v
  if d.get pgFint FINT_CTL_RAND_EN != old && [0, 1, 2, 3].any vis.bayDrains then
    (d.put pgFint FINT_CTL_RAND_EN old).errAt pgFint FINT_CTL_RAND_EN .randBusy r
  else d

/-- What a write has brought about once its register stands: another rate or mode asks for training (R168), RUN 0 ends a read job (R298), a new filter marks the frame low
(R267), a new DEC is in use (R414), a result ring or a CAN ring is sized anew, the energy constants reprice
PROMISED (R114), the free pages follow the size of the pool (R253). -/
def Dev.writeEffect (old d : Dev) (r : Requester) (p o : Nat) (v : Word) : Dev :=
  let k := p / 0x1000 % 0x100
  if pgFch 0 ≤ p && p < pgFch 17 && o = FCH_PHY_CFG_RATE.off then
    if d.get p FCH_PHY_CFG_RATE == old.get p FCH_PHY_CFG_RATE && d.get p FCH_PHY_CFG_MODE == old.get p FCH_PHY_CFG_MODE then d
    else d.setB p FCH_TRAIN_TRAINED false
  else if pgFth 0 ≤ p && p < pgFth 5 then
    if o = FTH_CTL_RUN.off && old.flag p FTH_CTL_RUN && !d.flag p FTH_CTL_RUN then d.fthEnd k .abort
    else if o = FTH_CTF_BOOST.off then d.updFth k fun c => c.markLow c.frame
    else d
  else if pgOwp 0 ≤ p && p < pgOwp 4 then
    if o = WP_RES_CFG_SIZE_LOG2.off then
      (((d.put p WP_RES_CFG_SIZE_LOG2 (clampN 4 10 (bits v.toNat 0 4))).put p WP_RES_PROD_PROD 0).put p WP_RES_PROD_PHASE 1).put p
        WP_RES_CONS 0
    else if o = WP_RES_CONS.off then
      let was := old.get p WP_RES_CONS
      if (bits v.toNat 0 16 + 2 ^ 16 - was) % 2 ^ 16 ≤ (d.get p WP_RES_PROD_PROD + 2 ^ 16 - was) % 2 ^ 16 then d
      else (d.put p WP_RES_CONS was).errAt p WP_RES_CONS .consRange r
    else d
  else if pgCan 0 ≤ p && p < pgCan 2 then
    if o = CAN_RX_CFG_SIZE_LOG2.off then
      (((d.put p CAN_RX_CFG_SIZE_LOG2 (clampN 4 8 (bits v.toNat 0 4))).put p CAN_RX_PROD_PROD 0).put p CAN_RX_PROD_PHASE 1).put p
        CAN_RX_CONS 0
    else if o = CAN_RX_CONS_CONS.off then
      let was := old.get p CAN_RX_CONS_CONS
      if (bits v.toNat 0 16 + 2 ^ 16 - was) % 2 ^ 16 ≤ (d.get p CAN_RX_PROD_PROD + 2 ^ 16 - was) % 2 ^ 16 then d
      else (d.put p CAN_RX_CONS_CONS was).errAt p CAN_RX_CONS_CONS .consRange r
    else if o = CAN_TX_REQ_BUF.off then d.put p CAN_TX_REQ_BUF (d.get p CAN_TX_REQ_BUF ||| bits v.toNat 0 16)
    else d
  else if pgAx 0 ≤ p && p < pgAx 12 then
    if o = CHN_DEC_A.off then d.put p CHN_DEC_USE_A (max 1 v.toNat) else d
  else if p = pgMap then if o = MAP_POOL_PAGES.off then d.poolStat else d
  else if p = pgRsv then
    if o = RSV_E_FIXED.off || o = RSV_E_UNIT_E_CW.off then d.put pgRsv RSV_PROMISED d.promised else d
  else d

/-- A write of `v` to TB_WALL_OFS_HI takes effect together with the low half written before it (R46). -/
def Dev.wallCommit (d : Dev) (v : Word) : Dev :=
  let lo := d.tb.wallLo.getD (d.rd (pgTb + TB_WALL_OFS_LO.off))
  { (d.wr (pgTb + TB_WALL_OFS_LO.off) lo).wr (pgTb + TB_WALL_OFS_HI.off) v with tb := { d.tb with wallLo := none } }

/-- A write to a register without a command of its own, by a requester that may make it. -/
def Dev.regWrite (vis d : Dev) (r : Requester) (p o : Nat) (v : Word) : Dev :=
  let k := p / 0x1000 % 0x100
  if Dev.writeIgnored vis d p o then d
  else
    match Dev.writeRefused vis d p o with
    | some e => d.errAt p ⟨o, 0, 32⟩ e r
    | none =>
      if o = PG_CTL.off then Dev.ctlWrite vis d p r v
      else if o = PG_IRQ_CLR.off then d.irqClear p v.toNat
      else if o = PG_ERR_INFO.off then if bit v.toNat 31 then d.errClear p else d
      else if p = pgTb && o = TB_WALL_OFS_LO.off then { d with tb := { d.tb with wallLo := some v } }
      else if p = pgTb && o = TB_WALL_OFS_HI.off then d.wallCommit v
      else if p = pgFint && o = FINT_CTL_RAND_EN.off then Dev.fintWrite vis d r v
      else if pgFstr 0 ≤ p && p < pgFstr 4 && (o = FSTR_RT_LO.off || o = FSTR_RT_HI.off) then
        d.retryWrite (k - 1) (o == FSTR_RT_HI.off) v
      else if pgEll 0 ≤ p && p < pgEll 2 && SLOT_CFG.off ≤ o && o ≤ SLOT_FE.off then d.shadowWrite k o v
      else
        let v' := v &&& ~~~(BitVec.ofNat 32 (reservedWithin p o))
        let readOnly := match regRow (p + o) with
          | some w => w.rw == 0 && w.w1c == 0
          | none => true
        let new := if readOnly then d else Dev.keepFields d (d.plainWrite ((d.banked p o).getD (p + o)) v') p o
        Dev.writeEffect d ((new.clampSpecial r p o).clampFields r p o) r p o v

/-! ### Writes whose register has a command of its own -/

/-- The state after a command that goes on. -/
def after (x : Host.Outcome State Fault Refusal) (s : State) : State :=
  match x with
  | .next t => t
  | _ => s

/-- The task that a doorbell copies from TW_D0 to TW_D7 (R62). -/
def Dev.taskOf (d : Dev) (p : Nat) : TaskOp :=
  let w (i : Nat) : Word := d.rd (p + TW_D.off + 4 * i)
  { tag := BitVec.ofNat 16 ((w 0).toNat / 2 ^ 16), flags := BitVec.ofNat 8 ((w 0).toNat / 2 ^ 8), d1 := w 1, d2 := w 2, d3 := w 3
    d4 := w 4, d5 := w 5, d6 := w 6, d7 := w 7 }

/-- The opcode of a value (R71). -/
def opcOf (n : Nat) : Option Opc :=
  [Opc.openLane, .append, .read, .seal, .flush, .abort, .mark, .release, .query].find? (·.code == n)

/-- Window pages. -/
def ownTw (s : State) (r : Requester) (k o : Nat) (v : Word) : Option State :=
  let w : Fin 64 := Fin.ofNat 64 k
  if o = TW_DOORBELL.off then
    if !bit v.toNat 0 then
      some (if Dev.isPending s.vis s.cur k then s.dec fun _ d => d.errAt (pgTw k) TW_DOORBELL .doorbellBusy r else s)
    else
      let code := (s.cur.rd (pgTw k + TW_D.off)).toNat % 256
      some (submit k r code (opcOf code) (s.cur.taskOf (pgTw k)) s)
  else if o = TW_CQ_CFG.off then
    some (if bit v.toNat 31 then after (execRingArm w r v s) s else after (execRingDisarm w r v s) s)
  else if o = TW_CQ_CONS.off then some (after (execTwCqConsWrite w r (v.setWidth 16) s) s)
  else none

/-- System, ledger and reserve pages. -/
def ownSys (s : State) (r : Requester) (p o : Nat) (v : Word) : Option State :=
  let n := v.toNat
  let d := s.cur
  if p = pgLdg && o = LDG_CTL.off then
    let s := if bit n 1 then after (execActivateSet s) s
      else if d.flag pgLdg LDG_CTL_ACTIVATE then after (execActivateClear s) s else s
    some (if bit n 0 == d.flag pgLdg LDG_CTL_ACCEPT_EN then s else after (execAcceptEnWrite r (bit n 0) s) s)
  else if p = pgBank && o = BANK_CTL_MEAS_GO.off then
    let t := s.dec fun vis d => Dev.regWrite vis d r p o v
    some (if bit n 0 then after (execMeasGo t) t else t)
  else if p = pgIrq && o = IRQ_SW_SET_LO.off then some (after (execIrqSwSet false v s) s)
  else if p = pgIrq && o = IRQ_SW_SET_HI.off then some (after (execIrqSwSet true v s) s)
  else if p = pgIrq && o = IRQ_SW_CLR_LO.off then some (after (execIrqSwClr false v s) s)
  else if p = pgIrq && o = IRQ_SW_CLR_HI.off then some (after (execIrqSwClr true v s) s)
  else if p = pgRst && o = RST_CTL_KEY.off then
    let key : Byte := BitVec.ofNat 8 (n / 2 ^ 8)
    let s := if bit n 1 then after (execRstCtlApp key s) s else s
    some (if bit n 0 then after (execRstCtlWarm key s) s else s)
  else if p = pgFuseMap && o = FM_ROLLBACK_INC.off then some (if bit n 31 then after (execFmRollbackInc r s) s else s)
  else if p = pgPwr && o = PWR_CTL_GO.off && bit n 31 then some (after (execPwrGo r v s) s)
  else none

/-- Staging and check-value pages. -/
def ownStage (s : State) (r : Requester) (p k o : Nat) (v : Word) : Option State :=
  let n := v.toNat
  if pgFk 0 ≤ p && p < pgFk 64 then
    let f : Fin 64 := Fin.ofNat 64 k
    if o = FK_CFG_BASE_4K.off then some (after (execFkCfgWrite f r v s) s)
    else if o = FK_CTL_FLUSH.off then
      let t := if bit n 0 then after (execFkFlush f r s) s else s
      let asked := s.cur.stg.requests.any fun q => q.1 == f.val && q.2.1 == 2
      some (if !asked && bit n 1 == s.cur.flag p FK_CTL_DIAG_EN then t else after (execFkDiagEnWrite f r (bit n 1) t) t)
    else if o = FK_DIAG_HI.off then some (after (execFkDiagHiWrite f v s) s)
    else if o = FK_DIAG_END_VALID.off then some (after (execFkDiagEndWrite f v s) s)
    else none
  else if pgCv 0 ≤ p && p < pgCv 8 then
    let c : Fin 8 := Fin.ofNat 8 (k - 0x40)
    if o = CV_RUN_LO.off then some (after (execCvRunLoWrite c r v s) s)
    else if o = CV_RUN_HI.off then some (after (execCvRunHiWrite c r v s) s)
    else none
  else none

/-- Flash, cache and protection pages. -/
def ownFlash (s : State) (r : Requester) (p k o : Nat) (v : Word) : Option State :=
  let n := v.toNat
  if pgFch 0 ≤ p && p < pgFch 17 then
    if o = SEQ_CTL_GO.off && bit n 0 then some (after (execManualGo (Fin.ofNat 17 k) r v s) s) else none
  else if pgBay 0 ≤ p && p < pgBay 4 then
    let b : Fin 4 := Fin.ofNat 4 (k - 0x11)
    if o = BAY_CTL_ARM.off then
      let t := if bit n 0 == s.cur.flag p BAY_CTL_ARM then s else after (execBayArmWrite b (bit n 0) s) s
      let t := if bit n 1 == s.cur.flag p BAY_CTL_WRITE_EN then t else after (execBayWriteEnWrite b (bit n 1) t) t
      some (if bit n 2 then after (execBayRelease b t) t else t)
    else if o = BAY_RCP_DATA.off then some (after (execBayRcpDataWrite b r v s) s)
    else none
  else if pgFstr 0 ≤ p && p < pgFstr 4 then
    if o = FSTR_DIE_FAIL_GO.off && bit n 31 then some (after (execFstrDieFailGo (Fin.ofNat 4 (k - 1)) v s) s) else none
  else if p = pgMc then
    if o = MC_PRE_CTL_GO.off && bit n 31 then some (after (execMcPreloadGo r v s) s)
    else if o = MC_LOCK.off then some (after (execMcLockWrite v s) s)
    else if o = MC_CTL_ENABLE.off then
      if !bit n 0 then some (after (execMcDisable v s) s)
      else some (s.dec fun vis d => (Dev.regWrite vis d r p o v).setB pgMc MC_STAT_DRAINING false)
    else none
  else if p = pgProt then
    if o = MEM_CTL_RMW.off then some (after (execMemTestEnWrite r v s) s)
    else if o = MEM_TEST_CHK.off then some (after (execMemTestChkWrite v s) s)
    else none
  else if p = pgFuse && o = FUSE_CTL_MAINT.off then
    let t := if bit n 1 then after (execFuseBurn s) s else s
    some (if !bit n 0 && s.cur.flag pgFuse FUSE_CTL_MAINT then after (execMaintClose t) t else t)
  else none

/-- Read channels and the write path. -/
def ownOptical (s : State) (r : Requester) (p k o : Nat) (v : Word) : Option State :=
  let n := v.toNat
  if pgFth 0 ≤ p && p < pgFth 5 then
    let c : Fin 5 := Fin.ofNat 5 k
    if o = FTH_JOB_CTL_GO.off then
      let t := if bit n 30 then after (execFthJobAbort c false s) s else s
      some (if bit n 31 then after (execFthJobGo c r v t) t else t.dec fun vis d => Dev.regWrite vis d r p o v)
    else if o = FTH_RES_CONS.off then some (after (execFthResConsWrite c r (v.setWidth 16) s) s)
    else if o = FTH_RES_CFG_SIZE_LOG2.off then some (after (execFthResCfgWrite c v s) s)
    else if o = FTH_MAP_PORT.off then some (after (execFthMapWrite c r v s) s)
    else if o = FTH_ADC_FAILED.off then
      let t := s.dec fun vis d => Dev.regWrite vis d r p o v
      some (after (execFailedBitClear (.adc c (BitVec.ofNat 5 (n / 2 ^ 16))) t) t)
    else none
  else if pgOwp 0 ≤ p && p < pgOwp 4 then
    let q : Fin 4 := Fin.ofNat 4 k
    if o = WP_JOB_CTL_GO.off then
      let t := if bit n 30 then s.dec fun _ d => d.burnAbortAny k else s
      some (if bit n 31 then after (execBurnJobGo q r v t) t else t.dec fun vis d => Dev.regWrite vis d r p o v)
    else none
  else if p = pgWenc then if o = ENC_CTL_GO.off && bit n 31 then some (after (execEncGo v s) s) else none
  else if p = pgWarc && o = AR_CMD_GO.off && bit n 31 then
    let i : Fin 4096 := Fin.ofNat 4096 n
    match bits n 24 2 with
    | 1 => some (after (execArOpen i s) s)
    | 2 => some (after (execArCommit i s) s)
    | 3 => some (after (execArCancel i s) s)
    | _ => some (s.dec fun vis d => Dev.regWrite vis d r p o v)
  else none

/-- Servo, motors, axes and utility DMA. -/
def ownMotion (s : State) (r : Requester) (p k o : Nat) (v : Word) : Option State :=
  let n := v.toNat
  let cmd := bits n 28 4
  if pgEll 0 ≤ p && p < pgEll 2 then
    let e : Fin 2 := Fin.ofNat 2 k
    if o = ELL_SLOT_SEL_SLOT.off then some (after (execEllSlotSelWrite e v s) s)
    else if o = SLOT_COMMIT_GO.off then some (after (execSlotCommit e v s) s)
    else if o = ELL_FF_DATA.off then some (after (execEllFfDataWrite e r v s) s)
    else if o = ELL_STAT_LANE_FAILED.off then
      let t := s.dec fun vis d => Dev.regWrite vis d r p o v
      some (after (execFailedBitClear (.lanes e (BitVec.ofNat 8 (n / 2 ^ 16))) t) t)
    else none
  else if pgOps 0 ≤ p && p < pgOps 4 then
    if o = OPS_LOOP_CLOSED.off then some (after (execOpsLoopWrite (Fin.ofNat 4 (k - 2)) v s) s)
    else if o = OPS_CMD_CMD.off then some (s.dec fun vis d => Dev.opsCommand vis d (k - 2) cmd (BitVec.ofNat 8 n))
    else none
  else if pgCmt 0 ≤ p && p < pgCmt 6 then
    if o = CMT_CMD_CMD.off then some (s.dec fun vis d => Dev.motorCommand vis d k cmd) else none
  else if pgAx 0 ≤ p && p < pgAx 12 then
    if o = CHN_CMD_CMD.off then some (s.dec fun vis d => Dev.axisCommand vis d k cmd)
    else if o = CHN_STEP_CFG_ARM.off then some (after (execGearArm (Fin.ofNat 12 k) v s) s)
    else none
  else if p = pgCenc then
    if CENC_POS.off ≤ o && o < CENC_POS.off + 32 then
      some (after (execCencPosWrite (Fin.ofNat 8 ((o - CENC_POS.off) / 4)) v s) s)
    else none
  else if pgUd 0 ≤ p && p < pgUd 32 && o = UD_CTL_START.off then
    let c : Fin 32 := Fin.ofNat 32 k
    let t := if bit n 0 then after (execUdStart c r s) s else s
    some (if bit n 1 then after (execUdStop c t) t else t)
  else none

/-- Scruple, the margin plan and the links. -/
def ownLinks (s : State) (r : Requester) (p k o : Nat) (v : Word) : Option State :=
  let n := v.toNat
  if p = pgScr then
    if SCR_FILT_SRC.off ≤ o && o < SCR_FILT_SRC.off + 32 then
      some (after (execScrFiltWrite (Fin.ofNat 8 ((o - SCR_FILT_SRC.off) / 4)) v s) s)
    else if o = SCR_RULE_A.off then some (after (execScrRuleWrite false v s) s)
    else if o = SCR_RULE_B.off then some (after (execScrRuleWrite true v s) s)
    else if o = SCR_LANE_DATA.off then some (after (execScrLaneDataWrite v s) s)
    else if o = SCR_OUT_OUT.off then some (after (execScrOutClear v s) s)
    else if o = SCR_MARK_ACK_SLOTS.off then some (after (execScrMarkAckWrite v s) s)
    else none
  else if p = pgMplan && o = MP_CTL_SUBMIT.off then
    let t := s.dec fun vis d => Dev.regWrite vis d r p o v
    let t := if bit n 29 then after (execBaseline t) t else t
    some (if bit n 31 then after (execPlanSubmit r v none t) t else t)
  else if p = pgPcie && o = PCIE_CTL_WAKE_HOST.off then
    let t := s.dec fun vis d => Dev.regWrite vis d r p o v
    some (if bit n 0 then after (execWakeHost t) t else t)
  else if p = pgAcc && o = ACC_XFER_CTL_GO.off then
    some (if bit n 31 then
      let f := s.cur.free
      after (execAccRawTransfer v f.1 { s with cur := f.2 }) s
    else s.dec fun vis d => Dev.regWrite vis d r p o v)
  else if p = pgEth && o = ETH_RING_CFG_TX_LOG2.off then some (after (execEthRingCfgWrite v s) s)
  else if pgCan 0 ≤ p && p < pgCan 2 && o = CAN_CTL_RUN.off && bit n 0 && s.cur.get p CAN_STAT_STATE == 2 then
    let t := s.dec fun vis d => Dev.regWrite vis d r p o v
    some (after (execCanBusOffRejoin (Fin.ofNat 2 (k - 2)) true t) t)
  else none

/-- A write to a register of page `p` whose domain is ON, by a requester that reaches it. -/
def State.regWrite (s : State) (r : Requester) (p o : Nat) (v : Word) : State :=
  let k := p / 0x1000 % 0x100
  let own :=
    if o < 0x40 || s.vis.frozen p then none
    else if pgTw 0 ≤ p && p < pgTw 64 then ownTw s r k o v
    else
      match ownSys s r p o v with
      | some t => some t
      | none =>
        match ownStage s r p k o v with
        | some t => some t
        | none =>
          match ownFlash s r p k o v with
          | some t => some t
          | none =>
            match ownOptical s r p k o v with
            | some t => some t
            | none =>
              match ownMotion s r p k o v with
              | some t => some t
              | none => ownLinks s r p k o v
  match own with
  | some t => t
  | none => s.dec fun vis d => Dev.regWrite vis d r p o v

end Sys2Proof.Machine
end

