-- ==== Sys2Proof/Machine/Restore.lean ====
section
/-! DEFINITION. The restore at start-up: the ledger from a power-loss commit, the replay of its Held items, and the tables of the mapping
unit (R70, R104, R105, R132 to R134, R157, R195, R235, R255, R586). -/

namespace Sys2Proof.Machine

open Sys2Proof

/-! ### The commits found (R132, R133) -/

/-- The copies in bays whose close records are read (R132 step 1). -/
def Dev.foundCopies (d : Dev) : List Commit := d.rsv.commits.filter fun c => d.bayState c.bay == 4 || d.bayState c.bay == 5

/-- Does the restore still wait for a bay that was present at start-up (R132 step 1)? -/
def Dev.restoreWaits (d : Dev) : Bool := [0, 1, 2, 3].any fun b => (d.bay b).atStart && decide (1 ≤ d.bayState b) && decide (d.bayState b ≤ 3)

/-- Is copy `c` valid: its close record is good and nothing of it is among the areas (bay, area) that do not check against their
CRC-64 (R132)? -/
def Commit.valid (c : Commit) (corrupt : List (Nat × Nat)) : Bool := c.good && !corrupt.contains (c.bay, c.area)

/-- The highest commit sequence number among copies. -/
def topSeq (cs : List Commit) : Nat := (cs.map (·.seq)).foldl max 0

/-- The sequence number of the commit that the restore takes, or of the newest where none is valid. -/
def restoreSeq (cs : List Commit) (corrupt : List (Nat × Nat)) : Nat :=
  match newestOf (cs.filter (·.valid corrupt)) with
  | some c => c.seq
  | none => topSeq cs

/-- The bays that the replay writes: each had a copy of the commit, and so was writable when it was taken (R128, R132, R195). -/
def replayBays (cs : List Commit) (seq : Nat) : List Nat := [0, 1, 2, 3].filter fun b => cs.any fun c => c.bay == b && c.seq == seq

/-- The copies whose items are replayed: those of the restored commit unless it has been replayed, and those of invalid newer commits
(R132, R133, R224). -/
def replayCopies (cs : List Commit) (seq : Nat) : List Commit := cs.filter fun c => !c.replayed && decide (seq ≤ c.seq)

/-- The bay that a replayed item is written into: its own if it is one of `bays`, else the one of them with the most free stripes (R132
step 3). -/
def Dev.replayBay (d : Dev) (bays : List Nat) (b : Option Nat) : Option Nat :=
  let best := bays.foldl (fun (best : Option Nat) c =>
    match best with
    | some x => if d.get (pgBay x) BAY_FREE < d.get (pgBay c) BAY_FREE then some c else some x
    | none => some c) none
  match b with
  | some b => if bays.contains b then some b else best
  | none => best

/-! ### The replay of one task (R105, R132) -/

/-- A task ends with its effect Settled. -/
def Dev.replayed (d : Dev) (t : TaskSt) (st : CStat) (res : Nat) : Dev := (d.meet t.lsn st res).settleTask t.lsn

/-- Has task `t`'s context come back with its lane? -/
def Dev.ctxHere (d : Dev) (t : TaskSt) : Bool := (d.ctx t.ctx).lane == t.lane && (d.ctx t.ctx).state != .free

/-- The record of `t` is written into a normal stripe; a change of its lane's state is a map delta (R132, R204, R254). -/
def Dev.replayRecord (d : Dev) (bays : List Nat) (t : TaskSt) : Dev :=
  match d.replayBay bays t.bay with
  | some b =>
    let m := ((d.stg.manifests.find? (·.1 == t.lsn)).map (·.2)).getD []
    let c : Codeword := { kind := 6, lane := t.lane, valid := if m.isEmpty then 64 else 256, lsn := t.lsn, last := true, data := m }
    let d := (d.placeCw b false c 8).getD d
    if t.changesLane then d.delta b (.lane t.lane) else d
  | none => d

/-- An item that cannot be recovered has its record and sets DEGRADED (R9, R133). -/
def Dev.itemLost (d : Dev) (bays : List Nat) (t : TaskSt) : Dev :=
  let p := pgFstr ((d.replayBay bays t.bay).getD 0)
  ((d.setDegraded p).irq p FSTR_IRQ_STRIPE_DOUBLE).fault p 0x0503 true false [t.lane, t.lsn, t.lsn / 2 ^ 32]

/-- An APPEND is replayed from its pages `e`, or is lost (R132, R133): its bytes are then void and unrecoverable, and it completes VOID
(DESIGN CHOICE, notes/assumptions/48.md). It is written once. -/
def Dev.replayAppend (d : Dev) (bays : List Nat) (t : TaskSt) (e : Option SettledEntry) : Dev :=
  if d.ldg.store.any (·.lsn == t.lsn) then
    let v := ((d.ldg.store.find? (·.lsn == t.lsn)).map (·.voidBytes)).getD 0
    d.replayed t (if v = 0 then .ok else .void) t.offset
  else
    let b := d.replayBay bays t.bay
    let r : SettledEntry × Dev :=
      match e with
      | some e => if d.ctxHere t then d.advanceChecks t.ctx { e with bay := b } else ({ e with bay := b }, d)
      | none => ({ lostEntry t with bay := b }, if d.ctxHere t then d.setCtx t.ctx { d.ctx t.ctx with checkLost := true } else d)
    let x := r.1
    let d := r.2
    let marked (a n : Nat) : Bool := x.bad.any fun y => decide (y.1 < a + n) && decide (a < y.1 + y.2)
    let cws := if e.isNone then [] else dataCws t.lane t.lsn marked x.endRec (t.length / 4096 + 2) t.offset t.length x.bytes
    let d := match b with
      | some b => cws.foldl (fun (d : Dev) c => (Dev.placeCw d b false c 8).getD d) d
      | none => d
    let d := { d with ldg := { d.ldg with store := d.ldg.store ++ [x] } }
    let d := d.setLane t.lane (laneFrom d.ldg.store t.lane (d.lane t.lane))
    let d := if e.isNone then d.itemLost bays t else d
    let d := if t.voidDue then d.fault pgLdg 0x0101 false false [t.lane, t.lsn, t.lsn / 2 ^ 32, x.voidBytes] else d
    d.replayed t (if x.voidBytes = 0 then .ok else .void) t.offset

/-- The GTIME of the effect of `t`: when its record became Held, or now. -/
def Dev.effectTime (d : Dev) (t : TaskSt) : Nat := if t.hasRecord then t.effectAt else d.gtime48

/-- An OPEN_LANE is replayed (R72, R78, R150). -/
def Dev.replayOpen (d : Dev) (bays : List Nat) (t : TaskSt) : Dev :=
  let g := d.effectTime t
  let poly := bits t.arg0 4 2
  let sha := bit t.arg0 6
  if (d.lane t.lane).openLsn == t.lsn && (d.lane t.lane).state != .free then d.replayed t .ok 0
  else if (d.lane t.lane).state == .free then
    let d := if d.ctxHere t then
        let x := d.ctx t.ctx
        (d.setCtx t.ctx (if x.state == .opening then { x with state := .open } else x)).initChecks t.ctx poly sha
      else d
    let d := d.setLane t.lane { state := .open, poly := poly, sha := sha, openLsn := t.lsn, changed := g, openedAt := g }
    (d.replayRecord bays t).replayed t .ok 0
  else (if d.ctxHere t && (d.ctx t.ctx).state == .opening then d.setCtx t.ctx {} else d).meetNoEffect t.lsn .laneInUse 0

/-- A signed SEAL is replayed: its lane is SEALED (R76, R78, R94, R582). -/
def Dev.replaySealed (d : Dev) (bays : List Nat) (t : TaskSt) (copyFailed : Bool) : Dev :=
  let d := if d.ctxHere t then d.setCtx t.ctx {} else d
  let d := d.setLane t.lane { d.lane t.lane with state := .sealed, changed := d.gtime48, sealLsn := t.lsn }
  (d.replayRecord bays t).replayed t (if copyFailed then .destFault else .ok) (d.lane t.lane).length

/-- A SEAL is replayed; one whose signing had not ended is signed now, and its manifest copied to ADDR (R132, R159, R161, R582).
`fails`: that write fails. -/
def Dev.replaySeal (vis d : Dev) (bays : List Nat) (t : TaskSt) (fails : Bool) : Dev :=
  let x := d.lane t.lane
  if x.sealLsn == t.lsn && x.state != .open && x.state != .sealing then d.replayed t .ok x.length
  else if t.signed then d.replaySealed bays t t.copyFailed
  else if !d.flag pgChk CHK_SEAL_STAT_KEY_OK then d.sealFault t 0x1
  else
    let d := Dev.signSeal vis d t
    let m := ((d.stg.manifests.find? (·.1 == t.lsn)).map (·.2)).getD []
    let n := min t.length 256
    let failed := n != 0 && fails && !t.destStopped
    let d := if failed || t.destStopped then d else if t.host then d.hostW t.addr (m.take n) else d.memW t.addr (m.take n)
    (d.updTask t.lsn fun u => { u with bay := t.bay }).replaySealed bays t failed

/-- A MARK is replayed (R96). -/
def Dev.replayMark (d : Dev) (bays : List Nat) (t : TaskSt) : Dev :=
  let st := (d.lane t.lane).state
  if d.ldg.holds.any (·.id == t.lsn) then d.replayed t .ok t.lsn
  else if t.hasRecord then ((d.placeHold t).replayRecord bays t).replayed t .ok t.lsn
  else if st == .free || st == .reclaiming then d.meetNoEffect t.lsn .range 0
  else if 16384 ≤ d.ldg.holds.length then d.meetNoEffect t.lsn .holdLimit 0
  else ((d.placeHold t).replayRecord bays t).replayed t .ok t.lsn

/-- Lane `t.lane` moves to RECLAIMING in the replay (R98). -/
def Dev.replayReclaim (d : Dev) (bays : List Nat) (t : TaskSt) : Dev :=
  let d := d.setLane t.lane { d.lane t.lane with state := .reclaiming, changed := d.effectTime t, reclaimLsn := t.lsn }
  (d.replayRecord bays t).replayed t .ok 0

/-- A RELEASE is replayed (R97, R98). -/
def Dev.replayRelease (d : Dev) (bays : List Nat) (t : TaskSt) : Dev :=
  if bit t.flags 2 then
    if (d.lane t.lane).reclaimLsn == t.lsn && (d.lane t.lane).state == .reclaiming then d.replayed t .ok 0
    else if t.hasRecord || d.reclaimable t.lane t.lsn then d.replayReclaim bays t
    else d.meetNoEffect t.lsn .retained 0
  else
    let h := match t.rel with
      | some h => some h
      | none => d.relHold t
    match h with
    | none => d.meetNoEffect t.lsn .noTarget 0
    | some h =>
      if !t.hasRecord && t.host && h.cls != 0 then d.meetNoEffect t.lsn .retained 0
      else ((d.dropHold t.lsn h).replayRecord bays t).replayed t .ok 0

/-- One task of the restored ledger is carried through (R105, R132): `copy` is the copy that holds its item, if its pages verify. A record
that is lost is written anew from the task state. -/
def Dev.replayTask (vis d : Dev) (bays : List Nat) (copy : Option Commit) (fails : List Nat) (t : TaskSt) : Dev :=
  let d := if copy.isNone && t.hasRecord && t.opc != .append then d.itemLost bays t else d
  match t.opc with
  | .append => d.replayAppend bays t (copy.bind fun c => c.bytes.find? (·.lsn == t.lsn))
  | .openLane => d.replayOpen bays t
  | .seal => Dev.replaySeal vis d bays t (fails.contains t.lsn)
  | .mark => d.replayMark bays t
  | .release => d.replayRelease bays t
  | .read | .query => d.meetNoEffect t.lsn .interrupted t.got
  | .flush | .abort => d

/-- A task of a commit that had been replayed before this restart: it completes as its effect stands, and has none now (R224; DESIGN
CHOICE, notes/assumptions/48.md). -/
def Dev.concludeTask (d : Dev) (t : TaskSt) : Dev :=
  let x := d.lane t.lane
  match t.opc with
  | .append =>
    match d.ldg.store.find? (·.lsn == t.lsn) with
    | some e => d.replayed t (if e.voidBytes = 0 then .ok else .void) t.offset
    | none => d.replayed t .void t.offset
  | .openLane => if t.hasRecord || x.openLsn == t.lsn then d.replayed t .ok 0 else d.meetNoEffect t.lsn .laneInUse 0
  | .seal => if t.hasRecord || x.sealLsn == t.lsn then d.replayed t .ok x.length else d.meetNoEffect t.lsn .sealFault 0
  | .mark => if t.hasRecord || d.ldg.holds.any (·.id == t.lsn) then d.replayed t .ok t.lsn else d.meetNoEffect t.lsn .range 0
  | .release => if t.hasRecord || x.reclaimLsn == t.lsn then d.replayed t .ok 0 else d.meetNoEffect t.lsn .retained 0
  | .read | .query => d.meetNoEffect t.lsn .interrupted t.got
  | .flush | .abort => d

/-! ### The ledger state of a commit (R70, R104, R112, R132) -/

/-- The journal as a restart finds it: every ring is disarmed, so what was posted and not consumed is posted again (R101). -/
def restoredJournal (l : List JEntry) : List JEntry := l.map fun e => { e with posted := false, reposted := e.posted || e.reposted }

/-- The LSN counter resumes at `next`, below a limit that is persistent (R70). -/
def Dev.limitAt (d : Dev) (next limit : Nat) : Dev :=
  let limit := if limit ≤ next then limit + 2 ^ 20 else limit
  { d with ldg := { d.ldg with nextLsn := next, limit := limit }, rsv := { d.rsv with flashLimit := limit } }

/-- C and ESR of the restored copy come into use where the always-on SRAM had none (R112). -/
def Dev.takeCE (d : Dev) (c : Commit) : Dev :=
  if d.flag pgRsv RSV_STAT_VALID then d
  else
    (((d.put pgBank BANK_C c.cNf).put pgBank BANK_ESR_ESR_MOHM c.esr).setB pgRsv RSV_STAT_VALID true).setB pgBank
      BANK_STAT_MEAS_VALID true

/-- The reserve constants of a copy, and no charge: the replay takes none (R120, R128, R132). -/
def Dev.takeConsts (d : Dev) (c : Commit) : Dev :=
  let d := (rsvConsts.zip c.consts).foldl (fun d x => d.put pgRsv x.1 x.2) d
  let free (t : TaskSt) : TaskSt := { t with cw := 0, rc := 0 }
  let d := { d with ldg := { d.ldg with tasks := d.ldg.tasks.map free } }
  (d.put pgRsv RSV_HELD 0).put pgRsv RSV_PROMISED (d.get pgRsv RSV_E_FIXED)

/-- The fault journal of a commit is restored: its records first, then the restart's, renumbered (R556). -/
def Dev.restoreJournal (d : Dev) (c : Commit) : Dev :=
  let mine := d.fj.recs.reverse
  let recs := ((numberRecs c.faultHead mine).reverse ++ c.faults).take 256
  let d := { d with fj := { d.fj with recs := recs } }
  (d.put pgFj FJ_HEAD ((c.faultHead + mine.length) % 2 ^ 32)).put pgFj FJ_STAT_COUNT recs.length

/-- An open-lane context as a commit that had been replayed leaves it: it stands while its lane is still open, with that lane's length (R255
step 4). -/
def Dev.contextNow (d : Dev) (x : Ctx) : Ctx :=
  let l := d.lane x.lane
  if x.state == .free || !(l.state == .open || l.state == .sealing) then {} else { x with state := .open, length := l.length }

/-- The ledger state of copy `c` (R132 step 2); `cs` are the copies whose items are replayed with it. -/
def Dev.takeLedger (d : Dev) (c : Commit) (cs : List Commit) (fresh : Bool) : Dev :=
  let own (t : TaskSt) : Bool := c.tasks.any (·.lsn == t.lsn)
  let more := cs.flatMap fun x => x.items.filter fun t => !own t
  let ctxs := if c.replayed then c.ctxs.map fun x => (x.1, d.contextNow x.2) else c.ctxs
  let ctxs := ctxs.filter fun x => decide (x.2 ≠ ({} : Ctx))
  let seals := ((c :: cs).flatMap Commit.seals).filter fun m => !(d.stg.manifests.any fun y => y.1 == m.1)
  let d := { d with
    ldg := { d.ldg with journal := restoredJournal c.journal, tasks := c.tasks ++ more, ctxs := ctxs }
    stg := { d.stg with manifests := d.stg.manifests ++ seals } }
  let limit := max c.limit d.rsv.flashLimit
  ((d.limitAt (if fresh then c.nextLsn else limit) limit).takeConsts c).takeCE c

/-- The ledger starts empty (R586): at LSN 1 with `blank`, where no present bay holds a commit, else at the recorded limit, with the items of
the invalid commits `cs` to replay. -/
def Dev.startEmpty (d : Dev) (blank : Bool) (cs : List Commit) : Dev :=
  let seals := (cs.flatMap Commit.seals).filter fun m => !(d.stg.manifests.any fun y => y.1 == m.1)
  let d := { d with
    ldg := { d.ldg with journal := [], tasks := cs.flatMap Commit.items, ctxs := [], holds := [] }
    stg := { d.stg with manifests := d.stg.manifests ++ seals } }
  if blank then d.limitAt 1 (2 ^ 20) else d.limitAt d.rsv.flashLimit d.rsv.flashLimit

/-- The tasks that the restored ledger holds are carried through, in LSN order (R105, R132). -/
def Dev.replayAll (vis d : Dev) (bays : List Nat) (c : Option Commit) (cs : List Commit) (lost fails : List Nat) : Dev :=
  let d := (sortNat (d.ldg.tasks.map (·.lsn))).foldl (fun d n =>
    match d.task n with
    | some t =>
      let copy := if lost.contains n then none else cs.find? fun x => x.items.any (·.lsn == n)
      let old := c.any fun x => x.replayed && x.tasks.any (·.lsn == n)
      if t.settled && d.isMet n then d else if old then d.concludeTask t else Dev.replayTask vis d bays copy fails t
    | none => d) d
  d.meetFlushes

/-! ### Rows and tables behind the replay (R132, R219, R224, R255) -/

/-- What has been placed in a closed row of bay `b` is programmed and verified, with its parity. -/
def Dev.settleRow (d : Dev) (b s : Nat) (r : Row) : Dev :=
  let done (p : ElemPage) : ElemPage := { p with programmed := true, verified := true }
  let x := { r with pages := r.pages.map done }
  let p := d.parityPage b s x
  p.2.updRow b s r.row fun _ => { x with parityQueued := true, parity := true, pages := x.pages ++ [done p.1] }

/-- The replay's rows in bay `b` are closed and Settled; the programs that were queued for them have run (R132 step 3). -/
def Dev.settleRows (d : Dev) (b : Nat) : Dev :=
  let d := (d.placeDeltas b 8).closeOpenRows b
  let d := (d.bmap b).stripes.foldl (fun d x => (x.rows.filter fun r => r.closed && !r.parity).foldl (fun d r => d.settleRow b x.id r) d) d
  let d := (List.range 4).foldl (fun d c => d.updChan (4 * b + c) fun x =>
    { x with ops := x.ops.filter fun o => !(o.kind == .program || o.kind == .verify) }) d
  d.updMap b fun m => { m with reopen := false }

/-- The bays that are rebuilt: those whose flash can be read. -/
def Dev.rebuildTables (d : Dev) : Dev :=
  let d := { d with mc := { d.mc with poolUsed := [] } }.poolStat
  let d := d.ldg.lanes.foldl (fun d x => (d.setLane x.1 x.2).memClear (d.descAddr x.1 + 64) 64) d
  ([0, 1, 2, 3].filter d.bayHere).foldl Dev.rebuildBay d

/-- Step 4 of R132: in each bay that was writable the area that does not hold the restored commit `seq` is erased; the commit is marked
replayed (R224). -/
def Dev.keepRestorePoint (d : Dev) (corrupt : List (Nat × Nat)) (bays : List Nat) (seq : Option Nat) : Dev :=
  let keeps (c : Commit) : Bool := c.valid corrupt && seq == some c.seq
  let kept := (d.rsv.commits.filter fun c => !bays.contains c.bay || keeps c).map fun c =>
    if bays.contains c.bay then { c with replayed := true } else c
  let area (b a : Nat) : CommitArea :=
    match kept.find? fun c => c.bay == b && c.area == a with
    | some c => { ready := false, seq := some c.seq, replayed := true }
    | none => { ready := true }
  let d := { d with rsv := { d.rsv with commits := kept } }
  bays.foldl (fun d b => d.updMap b fun m => { m with areas := Vector.ofFn fun a => area b a }) d

/-! ### Reports (R133, R134) -/

/-- A commit without a valid close record has been found (R133). -/
def Dev.commitIncomplete (d : Dev) : Dev := ((d.fault pgRsv 0x0203 true false []).setDegraded pgRsv).irq pgRsv RSV_IRQ_INCOMPLETE

/-- The report behind a restart that follows a commit (R134); without a valid commit its values are 0 (DESIGN CHOICE,
notes/assumptions/48.md). -/
def Dev.commitReport (d : Dev) (seq grains vend : Nat) : Dev :=
  let d := (d.fault pgRsv 0x0204 false false [seq, seq / 2 ^ 32, grains, vend]).irq pgRsv RSV_IRQ_COMMIT_REPORT
  ((d.put64 pgRsv RSV_COMMIT_SEQ_LO RSV_COMMIT_SEQ_HI seq).put pgRsv RSV_COMMIT_INFO_VEND_MV vend).put pgRsv
    RSV_COMMIT_INFO_GRAINS (min 0xFFFF grains)

/-! ### LEDGER_RESTORE -/

/-- The restore with the bays `bays` open to the replay (R132 to R134, R586). -/
def Dev.restore (vis d : Dev) (corrupt : List (Nat × Nat)) (lost fails : List Nat) : Dev :=
  let here := d.foundCopies
  let top := topSeq here
  let best := newestOf (here.filter (·.valid corrupt))
  let seq := restoreSeq here corrupt
  let bays := replayBays here seq
  let cs := replayCopies here seq
  let d := { d with rsv := { d.rsv with commitSeq := max d.rsv.commitSeq top } }
  let d := if here.all (·.valid corrupt) then d else d.commitIncomplete
  let d := bays.foldl Dev.closeFound d
  let d := match best with
    | some c => d.takeLedger c cs (c.seq == top && !c.replayed)
    | none => d.startEmpty here.isEmpty cs
  let d := Dev.replayAll vis d.rebuildChecks bays best cs lost fails
  let d := (bays.foldl Dev.settleRows d).rebuildTables
  let d := d.keepRestorePoint corrupt bays (best.map (·.seq))
  let d := match best with
    | some c => (d.restoreJournal c).raiseLimit
    | none => d.raiseLimit
  let d := if here.any fun c => c.seq == top && !c.replayed && !c.orderly then
      match best with
      | some c => d.commitReport c.seq c.grains ((here.filter fun x => x.valid corrupt && x.seq == c.seq).foldl (fun m x => min m x.vholdMv) c.vholdMv)
      | none => d.commitReport 0 0 0
    else d
  let d := bays.foldl (fun d b => d.updBay b fun x => { x with recovering := false }) d
  (d.setB pgLdg LDG_STAT_RESTORED true).setReady pgLdg true

/-- LEDGER_RESTORE. `corrupt` lists the areas (bay, area) whose copy does not check against its CRC-64, `lost` the LSNs of items whose pages
do not verify, `fails` those of SEALs whose copy to ADDR fails (R582). Nothing happens before the regions are placed (R583) or while a
bay that was present at start-up is in INSERTING, POWERING or IDENTIFYING (R132). The bays that the replay writes are recovering from
the Grain before, so that WP_N is high (R195). -/
def execLedgerRestore (corrupt : List (Nat × Nat)) (lost fails : List Nat) (s : State) : Host.Outcome State Fault Refusal :=
  .next (s.noting (.cmd (.ledgerRestore corrupt lost fails)) fun s => s.ledger fun vis d =>
    if d.flag pgLdg LDG_STAT_RESTORED || !vis.placed || vis.restoreWaits || d.restoreWaits then d
    else
      let bays := replayBays d.foundCopies (restoreSeq d.foundCopies corrupt)
      if bays.any fun b => !(vis.bay b).recovering then bays.foldl (fun d b => d.updBay b fun x => { x with recovering := true }) d
      else Dev.restore vis d corrupt lost fails)

end Sys2Proof.Machine
end

