-- ==== Sys2Proof/Machine/Timebase.lean ====
section
/-! DEFINITION. Overruns (R37, R38), the die link (R28), VAON (R41, R568), the timebase's registers (R43, R46) and register
accesses as such (R36, R539, R547, R551). -/

namespace Sys2Proof.Machine

open Sys2Proof

/-! ### Overruns -/

/-- The addresses from `e` on at which an engine's staged outputs stand. -/
def engineEnd (e : Nat) : Nat :=
  if e = 0x40100000 then 0x40400000 else if e = 0x40400000 then 0x40600000 else if e = 0x40D00000 then 0x40D01000 else e + 0x100000

/-- `l` with the pairs of keys from `lo` to below `hi` as `v` has them. -/
def takeRange {α : Type} (lo hi : Nat) (v l : List (Nat × α)) : List (Nat × α) :=
  l.filter (fun x => decide (x.1 < lo)) ++ v.filter (fun x => decide (lo ≤ x.1) && decide (x.1 < hi))
    ++ l.filter (fun x => decide (hi ≤ x.1))

/-- The engine's own state as the Grain began with it. -/
def Dev.engineBack (vis d : Dev) (e : Nat) : Dev :=
  match e / 0x100000 with
  | 0x401 => { d with ldg := vis.ldg, rsv := vis.rsv, stg := vis.stg }
  | 0x404 => { d with fls := vis.fls }
  | 0x406 => { d with mc := vis.mc }
  | 0x407 => { d with fth := vis.fth }
  | 0x408 => { d with owp := vis.owp }
  | 0x409 => { d with ell := vis.ell }
  | 0x40A => { d with cmt := vis.cmt }
  | 0x40B => { d with axes := vis.axes }
  | 0x40C => { d with ud := vis.ud }
  | 0x40D => { d with pwr := vis.pwr }
  | _ => d

/-- Does a record come from a page between `lo` and `hi`? -/
def recordIn (lo hi : Nat) (r : FaultRec) : Bool :=
  let g := 0x40000000 + r.pgId / 0x1000000 * 0x100000 + r.pgId % 0x100 * 0x1000
  decide (lo ≤ g) && decide (g < hi)

/-- What engine `e` staged in this Grain is discarded, and its committed outputs stay in force (R37): the device as the Grain began with it is
`vis`. -/
def Dev.discard (vis d : Dev) (e : Nat) : Dev :=
  let d := Dev.engineBack vis d e
  let hi := engineEnd e
  { d with regs := takeRange e hi vis.regs d.regs, irqSet := takeRange e hi [] d.irqSet
           fj := { d.fj with staged := d.fj.staged.filter fun r => !recordIn e hi r } }

/-- SYS_TB notes the overrun (R37). -/
def Dev.noteOverrun (d : Dev) (p : Nat) : Dev :=
  let d := ((d.setB pgTb TB_STAT_OVR true).inc pgTb TB_OVR_COUNT).put pgTb TB_OVR_SRC (pgIdOf p)
  let d := d.fault pgTb 0x0002 false false [pgIdOf p]
  { d with tb := { d.tb with overNow := d.tb.overNow ++ [p] } }

/-- GRAIN_OVERRUN of the engine of a page: its outputs are discarded, and its events go to the next Grain (`Grain.left`); `slice` is the logic slice that overran, if the block has slices (R479). The second
overrun in consecutive Grains is a logic fault in the slice (R38); in a block without slices the page is DEGRADED. -/
def execGrainOverrun (page : Word) (slice : Option (Fin 156)) (s : State) : Host.Outcome State Fault Refusal :=
  .next (s.noting (.cmd (.grainOverrun page slice)) fun s => let b := s.grain.cur; s.dec fun _ d =>
    match pageAt page.toNat with
    | none => d
    | some p =>
      match engineAt p with
      | none => d
      | some e =>
        if d.tb.overNow.contains p then d
        else
          let again := d.tb.overPrev.contains p
          let d := (Dev.discard b d e).noteOverrun p
          if !again then d
          else
            match slice with
            | some i => d.sliceFailing i
            | none => d.setDegraded p)

/-! ### The die link (R28) -/

/-- DIE_LINK_LOSS: the link has been out of lock for `grains` consecutive Grains, which must be more than 2. `frames`: what each write port
is writing (R322). -/
def execDieLinkLoss (grains : Nat) (frames : List (Option Nat)) (s : State) : Host.Outcome State Fault Refusal :=
  .next (s.noting (.cmd (.dieLinkLoss grains frames)) fun s => s.dec fun _ d =>
    if grains ≤ 2 || !d.tb.linkUp then d
    else
      let d := { d with tb := { d.tb with linkUp := false } }
      let d := (List.range 6).foldl (fun d c => if d.motorState c = 6 then d.motorRelease c else d.motorOff c) d
      let d := [0, 1, 2, 3].foldl Dev.portLost d
      let d := [0, 1, 2, 3].foldl (fun d p => d.inhibit p 512 (nthD frames p none)) d
      d.motionLinkLost)

/-- The pages of the servo, commutation and motion engines. -/
def controlPages : List Nat :=
  [pgEll 0, pgEll 1] ++ (List.range 4).map pgOps ++ (List.range 6).map pgCmt ++ (List.range 12).map pgAx

/-- DIE_LINK_RETURN. DESIGN CHOICE (log 151): the page that the record names is SYS_TB; the spec says only that the logic die writes it. -/
def execDieLinkReturn (s : State) : Host.Outcome State Fault Refusal :=
  .next (s.noting (.cmd .dieLinkReturn) fun s => s.dec fun _ d =>
    if d.tb.linkUp then d
    else
      let d := { d with tb := { d.tb with linkUp := true } }
      let d := controlPages.foldl Dev.setDegraded d
      d.fault pgTb 0x0001 false false [])

/-! ### VAON (R41, R568) -/

/-- What a loss of VAON leaves: what flash and the fuses hold, the discs, and the world outside. -/
def Dev.vaonLost (d : Dev) : Dev :=
  let bays : Vector BayState 4 := Vector.ofFn fun b => { presLow := (d.bay b).presLow }
  let n := d.inFlash
  { n with tb := { vaon := false }, fls := { n.fls with bays := bays } }.put pgPcie PCIE_STAT_PERST (d.get pgPcie PCIE_STAT_PERST)

/-- VAON_LOSS. -/
def execVaonLoss (s : State) : Host.Outcome State Fault Refusal :=
  .next (s.noting (.cmd .vaonLoss) fun s => if s.cur.tb.vaon then s.both fun _ => s.cur.vaonLost else s)

/-- VAON_POWER_UP: GTIME starts at 0, EPOCH_LOST is set, the carry is 0. -/
def execVaonPowerUp (s : State) : Host.Outcome State Fault Refusal :=
  .next (s.noting (.cmd .vaonPowerUp) fun s => if s.cur.tb.vaon then s
    else s.both fun d =>
      let d := { d with tb := { d.tb with gtime := 0, vaon := true }, pwr := { d.pwr with carry := 0 } }
      d.setB pgTb TB_STAT_EPOCH_LOST true)

/-! ### GTIME and the wall offset (R43, R46) -/

/-- TB_GTIME_LO_READ: the committed GTIME; its upper half is latched for the requester. -/
def execTbGtimeLoRead (r : Requester) (s : State) : Host.Outcome State Fault Refusal :=
  .next (s.noting (.cmd (.tbGtimeLoRead r)) fun s => s.both fun d => d.latch r (pgTb + TB_GTIME_HI.off) (s.vis.tb.gtime.setWidth 32) ((s.vis.tb.gtime >>> 32).setWidth 32))

/-- TB_WALL_OFS_HI_WRITE. -/
def execTbWallOfsHiWrite (v : Word) (s : State) : Host.Outcome State Fault Refusal := .next (s.noting (.cmd (.tbWallOfsHiWrite v)) fun s => s.dec fun _ d => d.wallCommit v)

/-! ### Register accesses as such (R36, R539, R547, R549, R551) -/

/-- A read that has an effect: LO halves latch their HI halves (R43), and PWR_STAT.STATE tells of a wake once (R464). -/
def State.readEffect (s : State) (r : Requester) (p o : Nat) : State :=
  let k := p / 0x1000 % 0x100
  if p = pgTb && o = TB_GTIME_LO.off then after (execTbGtimeLoRead r s) s
  else if p = pgLdg && o = LDG_NEXT_LSN_LO.off then after (execLdgNextLsnLoRead r s) s
  else if p = pgLdg && o = LDG_LSN_LIMIT_LO.off then after (execLdgLsnLimitLoRead r s) s
  else if p = pgRsv && o = RSV_COMMIT_SEQ_LO.off then after (execRsvCommitSeqLoRead r s) s
  else if pgFk 0 ≤ p && p < pgFk 64 && o = FK_DIAG_LO.off then after (execFkDiagLoRead (Fin.ofNat 64 k) r s) s
  else if pgCv 0 ≤ p && p < pgCv 8 && o = CV_RUN_LO.off then after (execCvRunLoRead (Fin.ofNat 8 k) r s) s
  else if p = pgPwr && o = PWR_BRIDGE_LO.off then after (execPwrBridgeLoRead r s) s
  else if p = pgPwr && o = PWR_AON_T_LO.off then after (execPwrAonTLoRead r s) s
  else if p = pgGpio && o = GPIO_EVT_CYC.off then after (execGpioEvtCycRead s) s
  else if p = pgProt && o = MEM_TEST_DATA_LO.off then
    let a := s.cur.free
    let b := a.2.free
    let c := b.2.free
    let e := c.2.free
    let t := s.both fun d => { d with fresh := e.2.fresh }
    after (execMemTestDataLoRead r (b.1 ++ a.1) ((e.1 ++ c.1).setWidth 40) t) t
  else if p = pgPwr && o = PWR_STAT.off then s.dec fun _ d => d.put pgPwr PWR_STAT_STATE (b2n d.pwr.idle)
  else s

/-- The register bus answers. -/
def Dev.answer (d : Dev) (v : Word) (e : Bool) : Dev := { d with bus := { rdata := v, error := e } }

/-- The access ends in a bus error that page `p` records. -/
def State.busError (s : State) (p : Nat) (c : ErrCode) (off : Nat) (r : Requester) (a : Nat) : State :=
  (s.dec fun _ d => d.err p c off r.code a).both fun d => d.answer 0 true

/-- The 2^20-byte ranges of the register groups (R548). -/
def inGroups (a : Nat) : Bool := decide (0x40000000 ≤ a) && decide (a < 0x41100000)

/-- The always-on SRAM (R549). -/
def inAon (a : Nat) : Bool := decide (0x40D10000 ≤ a) && decide (a < 0x40D20000)

/-- The task window of a page, if it is one. -/
def windowOf (p : Nat) : Option Nat := if pgTw 0 ≤ p && p < pgTw 64 then some ((p - pgTw 0) / 0x1000) else none

/-- An access of `r` to page `p` whose domain is ON: a write of `w`, or a read. The host reaches its windows through BAR0 and the
status pages through BAR2 (R58, R550, R551). -/
def State.pageAccess (s : State) (r : Requester) (p o : Nat) (w : Option Word) : State :=
  match windowOf p, w with
  | some n, some v => if s.cur.mayWrite r n then (s.regWrite r p o v).both fun d => d.answer 0 false else s.both fun d => d.answer 0 false
  | some n, none =>
    s.both fun d => d.answer (if r == .host && !s.vis.hostOwned n then 0 else s.vis.readWord r (p + o)) false
  | none, some v =>
    if r == .host then
      if (List.range 14).any fun k => bar2Page (k * 0x1000) == some p then
        (s.dec fun _ d => d.err p .hostWrite o r.code (p + o)).both fun d => d.answer 0 false
      else s
    else (s.regWrite r p o v).both fun d => d.answer 0 false
  | none, none =>
    if r == .host && !(List.range 14).any fun k => bar2Page (k * 0x1000) == some p then s
    else (s.readEffect r p o).both fun d => d.answer (s.vis.readWord r (p + o)) false

/-- The address of a register that a requester names: BAR0 offset n × 0x1000 is window n (R57, R516), and a host names its windows so. -/
def regAddr (r : Requester) (a : Nat) : Nat := if r == .host && decide (a < 0x40000) then pgTw 0 + a else a

/-- An aligned 32-bit access of `r` at address `a0`. The debug port reaches registers with unlocked test access only (R567). -/
def State.access (s : State) (r : Requester) (a0 : Nat) (w : Option Word) : State :=
  let a := regAddr r a0
  if r == .debug && !s.cur.flag pgFuseMap FM_STAT_DBG_EN then s
  else if r == .host && inAon a then s
  else if inAon a then
    match w with
    | some v =>
      if a - 0x40D10000 < 0x1000 then s.both fun d => d.answer 0 false
      else s.both fun d => { d.answer 0 false with aon := memWrite d.aon (a - 0x40D10000) (leBytes 4 v.toNat) }
    | none => s.both fun d => d.answer (BitVec.ofNat 32 (leNat (memRead d.aon (a - 0x40D10000) 4))) false
  else if !inGroups a then s
  else
    match pageAt a with
    | none => s.busError pgId .unmapped 0 r a
    | some p =>
      let o := a - p
      if s.vis.domainOn (domainOf p) then s.pageAccess r p o w
      else if w.isNone && (o == PG_ID.off || o == PG_STAT.off) then s.both fun d => d.answer (s.vis.readWord r a) false
      else s.busError pgId .poweredDown o r a

/-- REGISTER_WRITE. -/
def execRegisterWrite (r : Requester) (addr v : Word) (s : State) : Host.Outcome State Fault Refusal :=
  .next (s.noting (.cmd (.registerWrite r addr v)) fun s => if addr.toNat % 4 = 0 then s.access r addr.toNat (some v) else s)

/-- REGISTER_ACCESS_ERROR: an access of `size` bytes at `addr`. In the always-on SRAM, which has no page, nothing records it. -/
def execRegisterAccessError (r : Requester) (addr : Word) (size : Nat) (s : State) : Host.Outcome State Fault Refusal :=
  .next (s.noting (.cmd (.registerAccessError r addr size)) fun s => 
    let a := regAddr r addr.toNat
    let good := size = 4 && a % 4 = 0
    if inAon a then if good then s else s.both fun d => d.answer 0 true
    else if !inGroups a then s
    else
      match pageAt a with
      | none => s.busError pgId .unmapped 0 r a
      | some p =>
        if good then s
        else if s.vis.domainOn (domainOf p) then s.busError p .narrow (a - p) r a
        else s.busError pgId .poweredDown (a - p) r a)

/-- POWERED_DOWN_ACCESS: a read, or a write of the word given. An access to a page that is ON is served. -/
def execPoweredDownAccess (r : Requester) (addr : Word) (w : Option Word) (s : State) : Host.Outcome State Fault Refusal :=
  .next (s.noting (.cmd (.poweredDownAccess r addr w)) fun s => if addr.toNat % 4 = 0 then s.access r addr.toNat w else s)

end Sys2Proof.Machine
end

