-- ==== Sys2Proof/Machine/Grain.lean ====
section
/-! DEFINITION. The Grain edge (R29 to R36, R39, R40): the commit of what the ended Grain staged, the Stone's part, the capture of
what the edge meets, and the decisions of the new Grain that need no command of their own. -/

namespace Sys2Proof.Machine

open Sys2Proof

/-! ### The commit -/

/-- Does the block of page `p` work in this Grain: its domain is ON, and it is not frozen (R542)? -/
def Dev.works (d : Dev) (p : Nat) : Bool := d.domainOn (domainOf p) && !d.frozen p

/-- Apply `f` to the block of page `p` if it works. -/
def Dev.ifWorks (d : Dev) (p : Nat) (f : Dev → Dev) : Dev := if d.works p then f d else d

/-- What the ended Grain staged takes effect (R32): a warm reset that is due, requests judged at the edge (R145, R154), slot
configurations (R351), the steps of the axes and encoders (R408, R422), the elements of a utility DMA run (R438), the fault records (R556), and then the commit that a
captured loss makes due, with the ledger state and the fault journal as they stand at this edge (R128). `vis` is the device as
committed at the last edge. -/
def Dev.commitGrain (i : GrainIn) (vis d : Dev) : Dev :=
  let d := if d.warmDue then d.warm else d
  let d := d.stg.requests.foldl Dev.applyRequest d
  let d := d.stg.runWrites.foldl (fun d q => Dev.applyRunWrite vis d q) d
  let d := { d with stg := { d.stg with requests := [], runWrites := [] } }
  let d := ([0, 1].foldl (fun d e => if d.frozen (pgEll e) then d else d.commitSlots e) d).planDone
  let d := (List.range 12).foldl (fun d n => d.ifWorks (pgAx n) fun d => Dev.axisAdvance vis d n) d
  let d := d.ifWorks pgCenc fun d => (List.range 8).foldl (fun d e => d.encCount e (nthD i.enc e 0)) d
  let d := d.ifWorks pgBush fun d => d.udAdvance i.moved
  let d := if d.ldg.activateClear then (d.setB pgLdg LDG_CTL_ACTIVATE false).accepting else d
  let d := d.fjCommit.commitBegin
  { d with fj := { d.fj with done := 0 }, ldg := { d.ldg with activateClear := false, hostEventNow := false, posted := [] } }

/-- The values that the read channels staged for the servo engines in the ended Grain (R297). -/
def Dev.portValues (ports : List PortIn) (d : Dev) : Dev :=
  [0, 1, 2, 3].foldl (fun d p =>
    let x := nthD ports p {}
    match d.serving p with
    | none => d.updOpt p fun o => { o with env := 0, envMin := 0, tiltNew := false }
    | some k =>
      d.ifWorks (pgFth k) fun d =>
        let d := d.updOpt p fun o => { o with env := x.env.toNat, envMin := x.envMin.toNat, tiltNew := x.tilt.isSome }
        match x.tilt with
        | some t => d.wedge k (sext 16 t.toNat)
        | none => d) d

/-- The new Grain begins: GTIME counts (R41), and what was noted for one Grain ends. -/
def Dev.nextGrain (d : Dev) : Dev :=
  { d with tb := { d.tb with gtime := d.tb.gtime + 1, overPrev := d.tb.overNow, overNow := [], swSet := 0 }
           irqSet := [], lnk := { d.lnk with eventNow := 0 } }.flashEdge

/-- Every engine copies its statistics counters into its Stone snapshot registers (R40), and measured values are adopted (R111). -/
def Dev.stoneCopy (d : Dev) : Dev :=
  (d.flashStone.integrityStone.cacheStone.fathomStone.servoStone.motorStone.motionStone.bushelStone).adopt

/-! ### The new Grain -/

/-- Inputs captured at the edge: sensed values of ports and supplies. -/
def Dev.captureGrain (d : Dev) (i : GrainIn) : Dev :=
  let d := [0, 1, 2, 3].foldl (fun d p =>
    let x := nthD i.ports p {}
    d.ifWorks (pgOps p) fun d => (d.servoCapture p x.pd x.cause).seqCapture p) d
  let d := (List.range 6).foldl (fun d c => d.ifWorks (pgCmt c) fun d => d.motorCapture c (nthD i.motors c {})) d
  let d := d.ifWorks pgVbus fun d => d.vbusCapture i.vmax i.brk
  let d := (List.range 12).foldl (fun d n => d.ifWorks (pgAx n) fun d => d.axisCapture n (nthD i.loads n 0)) d
  let d := match i.vhold with
    | some v => d.put pgBank BANK_V_VHOLD_MV v.toNat
    | none => d
  let d := match i.vmot with
    | some v => d.put pgBank BANK_VMOT_VMOT_MV v.toNat
    | none => d
  if d.domainOn 21 then d.idleGrain.calCapture fun p => (nthD i.ports p {}).pd else d

/-- The flash schedulers and bays. -/
def Dev.decideFlash (i : GrainIn) (vis d : Dev) : Dev :=
  let d := if d.domainOn 10 then Dev.integrityGrain vis d else d
  let d := Dev.flashPlan i.rbLow vis d
  [0, 1, 2, 3].foldl (fun d b => Dev.bayDecide false vis d b) d

/-- Servo, motors and motion. -/
def Dev.decideMotion (vis d : Dev) : Dev :=
  if !d.domainOn 17 then d
  else
    let d := [0, 1].foldl (fun d e => d.ifWorks (pgEll e) fun d => Dev.runEngine vis d e) d
    let d := [0, 1, 2, 3].foldl (fun d p => d.ifWorks (pgOps p) fun d => Dev.seqGrain vis d p) d
    let d := (List.range 6).foldl (fun d c => d.ifWorks (pgCmt c) fun d => Dev.motorGrain vis d c) d
    let d := d.ifWorks pgVbus fun d => Dev.vbusGrain vis d
    (List.range 12).foldl (fun d n => d.ifWorks (pgAx n) fun d => Dev.axisGrain vis d n) d

/-- Read channels, write path and the other engines. -/
def Dev.decideOptical (i : GrainIn) (vis d : Dev) : Dev :=
  let d := i.gains.zipIdx.foldl (fun d x => if x.2 < 5 then d.ifWorks (pgFth x.2) fun d => d.vgaUpdate x.2 x.1 else d) d
  let d := [0, 1, 2, 3].foldl (fun d p => d.ifWorks (pgOwp p) fun d => Dev.owpGrain vis d p) d
  d

/-- Calibration and the ageing measures (chapter 16). -/
def Dev.decideCal (i : GrainIn) (vis d : Dev) : Dev :=
  if !d.domainOn 21 then d
  else
    let d := Dev.retrainGrain vis (d.ifWorks pgCal fun d => Dev.calGrain vis (Dev.calAbandon vis d))
    d.ifWorks pgAge fun d =>
      Dev.spinGrain vis ([0, 1, 2, 3].foldl (fun d p => Dev.laserGrain vis d p (nthD i.ports p {}).high) d)

/-- What the first Grain of a Stone decides (R113, R480, R497), and what the management plane draws from the Stone's samples. -/
def Dev.decideStone (z : Option StoneIn) (vis d : Dev) : Dev :=
  let d := if d.domainOn 10 then d.recompute else d
  if !d.domainOn 21 then d
  else
    let d := match z with
      | some z => (Dev.avsStone vis (Dev.ageStone vis d z.ages) z.slack).mr4Stone z.mr4
      | none => d
    d.lbistStone

/-- The input phase of a new Grain: its message list is empty, reports due from the last one are in, samples are captured. -/
def Dev.inputPhase (i : GrainIn) (d : Dev) : Dev :=
  let d := { d with fj := { d.fj with msix := [] } }
  let d := if d.cal.woken then { d.calWake with cal := { d.calWake.cal with woken := false } } else d
  d.voidReports.captureGrain i

/-- What the engines decide in a Grain without a command. -/
def Dev.decideGrain (i : GrainIn) (z : Option StoneIn) (vis d : Dev) : Dev :=
  let d := if d.stoneBegins then Dev.decideStone z vis d else d
  let d := Dev.decideFlash i vis d
  let d := Dev.decideMotion vis d
  let d := Dev.decideOptical i vis d
  let d := d.ifWorks pgBush Dev.bushelGrain
  let d := d.ifWorks pgLbist Dev.testsGated
  let d := d.ifWorks pgGpio fun d => Dev.gpioGrain vis d i.pins
  let d := d.ifWorks pgAcc Dev.accGrain
  let d := d.ifWorks pgPmb Dev.pmbGrain
  Dev.decideCal i vis d.retireUnits

/-! ### The order of a Grain -/

/-- A noted command once more, on the state given (R34). An edge is noted by none, and each command as `State.noting` names it. -/
def redo (n : Noted) (s : State) : State :=
  match n with
  | .cmd (.grainOverrun page slice) => after (execGrainOverrun page slice s) s
  | .cmd (.dieLinkLoss grains frames) => after (execDieLinkLoss grains frames s) s
  | .cmd .dieLinkReturn => after (execDieLinkReturn s) s
  | .cmd .vaonPowerUp => after (execVaonPowerUp s) s
  | .cmd .vaonLoss => after (execVaonLoss s) s
  | .cmd (.tbGtimeLoRead r) => after (execTbGtimeLoRead r s) s
  | .cmd (.tbWallOfsHiWrite v) => after (execTbWallOfsHiWrite v s) s
  | .cmd (.registerWrite r addr v) => after (execRegisterWrite r addr v s) s
  | .cmd (.registerAccessError r addr size) => after (execRegisterAccessError r addr size s) s
  | .cmd (.poweredDownAccess r addr w) => after (execPoweredDownAccess r addr w s) s
  | .cmd (.openLane w r t) => after (execOpenLane w r t s) s
  | .cmd (.append w r t) => after (execAppend w r t s) s
  | .cmd (.read w r t) => after (execRead w r t s) s
  | .cmd (.seal w r t) => after (execSeal w r t s) s
  | .cmd (.flush w r t) => after (execFlush w r t s) s
  | .cmd (.abort w r t) => after (execAbort w r t s) s
  | .cmd (.mark w r t) => after (execMark w r t s) s
  | .cmd (.release w r t) => after (execRelease w r t s) s
  | .cmd (.query w r t) => after (execQuery w r t s) s
  | .cmd (.doorbellBusyWrite w r off) => after (execDoorbellBusyWrite w r off s) s
  | .cmd (.openLaneComplete lsn) => after (execOpenLaneComplete lsn s) s
  | .cmd (.appendComplete lsn) => after (execAppendComplete lsn s) s
  | .cmd (.readComplete lsn fail) => after (execReadComplete lsn fail s) s
  | .cmd (.sealComplete lsn) => after (execSealComplete lsn s) s
  | .cmd (.markComplete lsn) => after (execMarkComplete lsn s) s
  | .cmd (.releaseComplete lsn) => after (execReleaseComplete lsn s) s
  | .cmd (.queryComplete lsn fail) => after (execQueryComplete lsn fail s) s
  | .cmd (.ingestSourceError lsn good) => after (execIngestSourceError lsn good s) s
  | .cmd .completionPosting => after (execCompletionPosting s) s
  | .cmd (.twCqConsWrite w r v) => after (execTwCqConsWrite w r v s) s
  | .cmd (.ringArm w r v) => after (execRingArm w r v s) s
  | .cmd (.ringDisarm w r v) => after (execRingDisarm w r v s) s
  | .cmd (.holdLapse id) => after (execHoldLapse id s) s
  | .cmd (.functionLevelReset goods) => after (execFunctionLevelReset goods s) s
  | .cmd (.hotReset goods) => after (execHotReset goods s) s
  | .cmd (.linkLoss goods) => after (execLinkLoss goods s) s
  | .cmd (.perstAssert goods) => after (execPerstAssert goods s) s
  | .cmd .activateSet => after (execActivateSet s) s
  | .cmd .activationQuiesced => after (execActivationQuiesced s) s
  | .cmd .activateClear => after (execActivateClear s) s
  | .cmd (.acceptEnWrite r on) => after (execAcceptEnWrite r on s) s
  | .cmd (.ledgerRestore corrupt lost fails) => after (execLedgerRestore corrupt lost fails s) s
  | .cmd (.ldgNextLsnLoRead r) => after (execLdgNextLsnLoRead r s) s
  | .cmd (.ldgLsnLimitLoRead r) => after (execLdgLsnLimitLoRead r s) s
  | .cmd (.rsvCommitSeqLoRead r) => after (execRsvCommitSeqLoRead r s) s
  | .cmd .measGo => after (execMeasGo s) s
  | .cmd .measPeriodExpiry => after (execMeasPeriodExpiry s) s
  | .cmd .measStart => after (execMeasStart s) s
  | .cmd (.measResult v0 v1 v2 v3) => after (execMeasResult v0 v1 v2 v3 s) s
  | .cmd (.powerFailAssert mv us) => after (execPowerFailAssert mv us s) s
  | .cmd (.supplyLossCapture goods) => after (execSupplyLossCapture goods s) s
  | .cmd .commitSequence => after (execCommitSequence s) s
  | .cmd (.closeRecordWrite b mv fails) => after (execCloseRecordWrite b mv fails s) s
  | .cmd (.commitFloorReached mv) => after (execCommitFloorReached mv s) s
  | .cmd (.commitEnd mv) => after (execCommitEnd mv s) s
  | .cmd (.packetFirstWord k) => after (execPacketFirstWord k s) s
  | .cmd (.packetLastWord k) => after (execPacketLastWord k s) s
  | .cmd (.fkCfgWrite k r v) => after (execFkCfgWrite k r v s) s
  | .cmd (.fkFlush k r) => after (execFkFlush k r s) s
  | .cmd (.fkDiagEnWrite k r on) => after (execFkDiagEnWrite k r on s) s
  | .cmd (.fkDiagHiWrite k v) => after (execFkDiagHiWrite k v s) s
  | .cmd (.fkDiagEndWrite k v) => after (execFkDiagEndWrite k v s) s
  | .cmd (.fkDiagLoRead k r) => after (execFkDiagLoRead k r s) s
  | .cmd (.fkPointerFailure k ovr) => after (execFkPointerFailure k ovr s) s
  | .cmd (.cvRunLoRead k r) => after (execCvRunLoRead k r s) s
  | .cmd (.cvRunLoWrite k r v) => after (execCvRunLoWrite k r v s) s
  | .cmd (.cvRunHiWrite k r v) => after (execCvRunHiWrite k r v s) s
  | .cmd (.shaBlockAbsorb k) => after (execShaBlockAbsorb k s) s
  | .cmd .sealSignStart => after (execSealSignStart s) s
  | .cmd (.sealSignDone bad copyFails) => after (execSealSignDone bad copyFails s) s
  | .cmd (.flashBusItem k) => after (execFlashBusItem k s) s
  | .cmd (.rcpEnd k) => after (execRcpEnd k s) s
  | .cmd (.rcpCmd k) => after (execRcpCmd k s) s
  | .cmd (.rcpAddr k) => after (execRcpAddr k s) s
  | .cmd (.rcpDin k) => after (execRcpDin k s) s
  | .cmd (.rcpDout k data) => after (execRcpDout k data s) s
  | .cmd (.rcpWait k) => after (execRcpWait k s) s
  | .cmd (.rcpYield k) => after (execRcpYield k s) s
  | .cmd (.rcpStatus k b) => after (execRcpStatus k b s) s
  | .cmd (.rcpData k) => after (execRcpData k s) s
  | .cmd (.rcpPlane k) => after (execRcpPlane k s) s
  | .cmd (.rcpRtdata k) => after (execRcpRtdata k s) s
  | .cmd (.rcpNop k) => after (execRcpNop k s) s
  | .cmd (.rcpBadOp k) => after (execRcpBadOp k s) s
  | .cmd (.lunPoll k b) => after (execLunPoll k b s) s
  | .cmd (.arrayTimeout k id) => after (execArrayTimeout k id s) s
  | .cmd (.suspendWaitExpiry k id) => after (execSuspendWaitExpiry k id s) s
  | .cmd (.suspendTimeout k id b) => after (execSuspendTimeout k id b s) s
  | .cmd (.operationResume k id) => after (execOperationResume k id s) s
  | .cmd (.phyTrain k wr rd ph) => after (execPhyTrain k wr rd ph s) s
  | .cmd (.bayIdentify b ts m) => after (execBayIdentify b ts m s) s
  | .cmd (.bayPresenceLow b) => after (execBayPresenceLow b s) s
  | .cmd (.bayPresenceHigh b) => after (execBayPresenceHigh b s) s
  | .cmd (.insertDebounceExpiry b) => after (execInsertDebounceExpiry b s) s
  | .cmd (.bayPgood b) => after (execBayPgood b s) s
  | .cmd (.baySettleExpiry b) => after (execBaySettleExpiry b s) s
  | .cmd (.bayPgTimeout b) => after (execBayPgTimeout b s) s
  | .cmd (.bayWriteEnWrite b on) => after (execBayWriteEnWrite b on s) s
  | .cmd (.bayRelease b) => after (execBayRelease b s) s
  | .cmd (.bayArmWrite b on) => after (execBayArmWrite b on s) s
  | .cmd (.bayReleasingDone b) => after (execBayReleasingDone b s) s
  | .cmd (.bayRemovalDebounce b) => after (execBayRemovalDebounce b s) s
  | .cmd (.bayBecomesWritable b) => after (execBayBecomesWritable b s) s
  | .cmd (.bayRcpDataWrite b r v) => after (execBayRcpDataWrite b r v s) s
  | .cmd (.sequencerFail k) => after (execSequencerFail k s) s
  | .cmd (.spareTakeover k) => after (execSpareTakeover k s) s
  | .cmd (.manualGo k r v) => after (execManualGo k r v s) s
  | .cmd (.manualOpEnd k) => after (execManualOpEnd k s) s
  | .cmd (.codewordRead c met) => after (execCodewordRead c met s) s
  | .cmd (.programVerify b st r e cws) => after (execProgramVerify b st r e cws s) s
  | .cmd (.rowCloseExpiry b st r) => after (execRowCloseExpiry b st r s) s
  | .cmd (.parityProgram b st r) => after (execParityProgram b st r s) s
  | .cmd (.entrySettle lsn) => after (execEntrySettle lsn s) s
  | .cmd (.baleGather b lane bale) => after (execBaleGather b lane bale s) s
  | .cmd (.stripeReclaim b st) => after (execStripeReclaim b st s) s
  | .cmd (.staleRecordWrite lane) => after (execStaleRecordWrite lane s) s
  | .cmd (.dieLost b x) => after (execDieLost b x s) s
  | .cmd (.fstrDieFailGo b v) => after (execFstrDieFailGo b v s) s
  | .cmd (.dieRebuild b) => after (execDieRebuild b s) s
  | .cmd (.rebuildStripeDone b) => after (execRebuildStripeDone b s) s
  | .cmd (.rebuildComplete b) => after (execRebuildComplete b s) s
  | .cmd (.bayFormat b bad) => after (execBayFormat b bad s) s
  | .cmd (.commitAreaPrepare b a ok) => after (execCommitAreaPrepare b a ok s) s
  | .cmd (.wearLevel b) => after (execWearLevel b s) s
  | .cmd (.scrubRead b st r e cw) => after (execScrubRead b st r e cw s) s
  | .cmd (.cacheRequest st a write) => after (execCacheRequest st a write s) s
  | .cmd (.cacheFill line e) => after (execCacheFill line e s) s
  | .cmd .lineStoreWriteback => after (execLineStoreWriteback s) s
  | .cmd (.mcPreloadGo r v) => after (execMcPreloadGo r v s) s
  | .cmd .mcPreloadDone => after (execMcPreloadDone s) s
  | .cmd (.mcDisable v) => after (execMcDisable v s) s
  | .cmd .mcDrainEnd => after (execMcDrainEnd s) s
  | .cmd (.mcLockWrite v) => after (execMcLockWrite v s) s
  | .cmd (.mapExtentWrite lsn) => after (execMapExtentWrite lsn s) s
  | .cmd (.mapCheckpoint b) => after (execMapCheckpoint b s) s
  | .cmd (.ddrTrain eyes) => after (execDdrTrain eyes s) s
  | .cmd (.adcRotationStep k offset gain skew) => after (execAdcRotationStep k offset gain skew s) s
  | .cmd (.adcSliceFail k sl bist) => after (execAdcSliceFail k sl bist s) s
  | .cmd (.defectBegin k env mean bits) => after (execDefectBegin k env mean bits s) s
  | .cmd (.defectEnd k env mean bits) => after (execDefectEnd k env mean bits s) s
  | .cmd (.syncLock k expected gap) => after (execSyncLock k expected gap s) s
  | .cmd (.syncAccept k off idOk place) => after (execSyncAccept k off idOk place s) s
  | .cmd (.syncInsert k) => after (execSyncInsert k s) s
  | .cmd (.syncSlip k off) => after (execSyncSlip k off s) s
  | .cmd (.clusterFirstPass k o) => after (execClusterFirstPass k o s) s
  | .cmd (.iterRetain k) => after (execIterRetain k s) s
  | .cmd (.outerIteration uncorr destFault) => after (execOuterIteration uncorr destFault s) s
  | .cmd .iterBudgetExpiry => after (execIterBudgetExpiry s) s
  | .cmd (.wobbleLock k hit adip khz since) => after (execWobbleLock k hit adip khz since s) s
  | .cmd (.fthJobGo k r v) => after (execFthJobGo k r v s) s
  | .cmd (.fthJobAbort k stop) => after (execFthJobAbort k stop s) s
  | .cmd (.fthSyncTimeout k) => after (execFthSyncTimeout k s) s
  | .cmd (.fthStartTimeout k) => after (execFthStartTimeout k s) s
  | .cmd (.clusterRecordPost k) => after (execClusterRecordPost k s) s
  | .cmd (.fthResConsWrite k r v) => after (execFthResConsWrite k r v s) s
  | .cmd (.fthResCfgWrite k v) => after (execFthResCfgWrite k v s) s
  | .cmd (.fthMapWrite k r v) => after (execFthMapWrite k r v s) s
  | .cmd (.readChannelFail k) => after (execReadChannelFail k s) s
  | .cmd (.encGo v) => after (execEncGo v s) s
  | .cmd (.encClusterDone err) => after (execEncClusterDone err s) s
  | .cmd (.burnJobGo p r v) => after (execBurnJobGo p r v s) s
  | .cmd (.burnJobAbort p frame) => after (execBurnJobAbort p frame s) s
  | .cmd (.recordingStart p x) => after (execRecordingStart p x s) s
  | .cmd (.clusterBurned p) => after (execClusterBurned p s) s
  | .cmd (.levelSpiSend p i on) => after (execLevelSpiSend p i on s) s
  | .cmd (.powerClampLimit p) => after (execPowerClampLimit p s) s
  | .cmd (.fastInhibit p src frame) => after (execFastInhibit p src frame s) s
  | .cmd (.grainInhibit p frame) => after (execGrainInhibit p frame s) s
  | .cmd (.immediateInhibit p bus frame) => after (execImmediateInhibit p bus frame s) s
  | .cmd (.burnRearm p) => after (execBurnRearm p s) s
  | .cmd (.positionTimeout p) => after (execPositionTimeout p s) s
  | .cmd (.verifyCompare p) => after (execVerifyCompare p s) s
  | .cmd (.arOpen i) => after (execArOpen i s) s
  | .cmd (.arCommit i) => after (execArCommit i s) s
  | .cmd (.arCancel i) => after (execArCancel i s) s
  | .cmd (.archiveRecordSettle lane) => after (execArchiveRecordSettle lane s) s
  | .cmd (.ellSlotSelWrite e v) => after (execEllSlotSelWrite e v s) s
  | .cmd (.slotCommit e v) => after (execSlotCommit e v s) s
  | .cmd (.opsLoopWrite p v) => after (execOpsLoopWrite p v s) s
  | .cmd (.ellFfDataWrite e r v) => after (execEllFfDataWrite e r v s) s
  | .cmd (.followingError e i) => after (execFollowingError e i s) s
  | .cmd (.focusLoss p) => after (execFocusLoss p s) s
  | .cmd (.driverFault p) => after (execDriverFault p s) s
  | .cmd (.opsStop p arg) => after (execOpsStop p arg s) s
  | .cmd (.focusOn p arg) => after (execFocusOn p arg s) s
  | .cmd (.trackOn p arg) => after (execTrackOn p arg s) s
  | .cmd (.trackOff p arg) => after (execTrackOff p arg s) s
  | .cmd (.jump p arg) => after (execJump p arg s) s
  | .cmd (.layer p arg) => after (execLayer p arg s) s
  | .cmd (.lensHold p arg) => after (execLensHold p arg s) s
  | .cmd (.sCurveCrossing p) => after (execSCurveCrossing p s) s
  | .cmd (.searchSweepEnd p) => after (execSearchSweepEnd p s) s
  | .cmd (.focusSettled p) => after (execFocusSettled p s) s
  | .cmd (.trackCrossingCount p) => after (execTrackCrossingCount p s) s
  | .cmd (.trackingSettled p) => after (execTrackingSettled p s) s
  | .cmd (.jumpTimeout p) => after (execJumpTimeout p s) s
  | .cmd (.layerJumpTimeout p) => after (execLayerJumpTimeout p s) s
  | .cmd (.layerKickEnd p) => after (execLayerKickEnd p s) s
  | .cmd (.layerBrakeEnd p) => after (execLayerBrakeEnd p s) s
  | .cmd (.servoLaneFail e lane) => after (execServoLaneFail e lane s) s
  | .cmd (.cmtCoast c) => after (execCmtCoast c s) s
  | .cmd (.cmtStart c) => after (execCmtStart c s) s
  | .cmd (.cmtBrake c) => after (execCmtBrake c s) s
  | .cmd (.cmtClear c) => after (execCmtClear c s) s
  | .cmd (.alignEnd c) => after (execAlignEnd c s) s
  | .cmd (.rampEnd c) => after (execRampEnd c s) s
  | .cmd (.observerHandover c) => after (execObserverHandover c s) s
  | .cmd (.bemfCrossing c at_ rising clear) => after (execBemfCrossing c at_ rising clear s) s
  | .cmd (.commutation c) => after (execCommutation c s) s
  | .cmd (.crossingWindowMiss c) => after (execCrossingWindowMiss c s) s
  | .cmd (.rotorLost c) => after (execRotorLost c s) s
  | .cmd (.catchSuccess c forward period sector) => after (execCatchSuccess c forward period sector s) s
  | .cmd (.catchFail c obs) => after (execCatchFail c obs s) s
  | .cmd (.brakeStopped c) => after (execBrakeStopped c s) s
  | .cmd (.brakeSpeedWindow c rpm) => after (execBrakeSpeedWindow c rpm s) s
  | .cmd (.brakeTimeout c) => after (execBrakeTimeout c s) s
  | .cmd (.lockedRotor c) => after (execLockedRotor c s) s
  | .cmd (.hallEdge c code at_) => after (execHallEdge c code at_ s) s
  | .cmd (.currentLimit c at_ ma) => after (execCurrentLimit c at_ ma s) s
  | .cmd (.chopperOn mv) => after (execChopperOn mv s) s
  | .cmd (.chopperOff mv) => after (execChopperOff mv s) s
  | .cmd (.chopperFault ma us) => after (execChopperFault ma us s) s
  | .cmd .vmotLimit => after (execVmotLimit s) s
  | .cmd (.vmotAbsolute mv) => after (execVmotAbsolute mv s) s
  | .cmd (.gateFault c cause) => after (execGateFault c cause s) s
  | .cmd (.chnEnable n) => after (execChnEnable n s) s
  | .cmd (.chnDisable n) => after (execChnDisable n s) s
  | .cmd (.moveAbs n) => after (execMoveAbs n s) s
  | .cmd (.moveRel n) => after (execMoveRel n s) s
  | .cmd (.chnStop n) => after (execChnStop n s) s
  | .cmd (.halt n) => after (execHalt n s) s
  | .cmd (.home n) => after (execHome n s) s
  | .cmd (.setPos n) => after (execSetPos n s) s
  | .cmd (.gearOn n) => after (execGearOn n s) s
  | .cmd (.chnClear n) => after (execChnClear n s) s
  | .cmd (.moveTargetReached n) => after (execMoveTargetReached n s) s
  | .cmd (.sledStall n) => after (execSledStall n s) s
  | .cmd (.sledMoveRequest k) => after (execSledMoveRequest k s) s
  | .cmd (.encoderIllegal e) => after (execEncoderIllegal e s) s
  | .cmd (.encoderIndex e n) => after (execEncoderIndex e n s) s
  | .cmd (.deviationStall n) => after (execDeviationStall n s) s
  | .cmd (.gearArm n v) => after (execGearArm n v s) s
  | .gearSwitch n => after (execGearSwitch n s) s
  | .softLimitReached n => after (execSoftLimitReached n s) s
  | .homeInput n clk => after (execHomeInput n clk s) s
  | .homeTimeout n => after (execHomeTimeout n s) s
  | .cencPosWrite e v => after (execCencPosWrite e v s) s
  | .udStart c r => after (execUdStart c r s) s
  | .udStop c => after (execUdStop c s) s
  | .udTimerFire t => after (execUdTimerFire t s) s
  | .cmd .udRunBegin => after (execUdRunBegin s) s
  | .cmd .udRunComplete => after (execUdRunComplete s) s
  | .udBusError write => after (execUdBusError write s) s
  | .pwrGo r v => after (execPwrGo r v s) s
  | .pwrAnswer who busy => after (execPwrAnswer who busy s) s
  | .cmd .pwrCommit => after (execPwrCommit s) s
  | .cmd .pwrNoAnswer => after (execPwrNoAnswer s) s
  | .cmd .pwrDelayLimit => after (execPwrDelayLimit s) s
  | .cmd .pwrRetry => after (execPwrRetry s) s
  | .cmd .rollbackStep => after (execRollbackStep s) s
  | .wake sources t => after (execWake sources t s) s
  | .cmd .wakeStep => after (execWakeStep s) s
  | .cmd .wakeComplete => after (execWakeComplete s) s
  | .wakeTimerExpiry t => after (execWakeTimerExpiry t s) s
  | .sleepSupplyLoss t => after (execSleepSupplyLoss t s) s
  | .offEntry mv failed => after (execOffEntry mv failed s) s
  | .cmd .offExit => after (execOffExit s) s
  | .sentinelPeriod x y z ign vmot vhold tl tp cycles => after (execSentinelPeriod x y z ign vmot vhold tl tp cycles s) s
  | .scrRuleWrite b v => after (execScrRuleWrite b v s) s
  | .scrFiltWrite f v => after (execScrFiltWrite f v s) s
  | .scrLaneDataWrite v => after (execScrLaneDataWrite v s) s
  | .cmd .minuteStamp => after (execMinuteStamp s) s
  | .markResolve q => after (execMarkResolve q s) s
  | .scrMarkAckWrite v => after (execScrMarkAckWrite v s) s
  | .scrOutClear v => after (execScrOutClear v s) s
  | .pwrBridgeLoRead r => after (execPwrBridgeLoRead r s) s
  | .pwrAonTLoRead r => after (execPwrAonTLoRead r s) s
  | .memReadCorr a w b => after (execMemReadCorr a w b s) s
  | .memReadUncorr a w u endBad lsn => after (execMemReadUncorr a w u endBad lsn s) s
  | .memNarrowWrite a page r addr => after (execMemNarrowWrite a page r addr s) s
  | .aonParityError item addr u => after (execAonParityError item addr u s) s
  | .scrubStep a found bad => after (execScrubStep a found bad s) s
  | .softRepair a w b rowErr colErr => after (execSoftRepair a w b rowErr colErr s) s
  | .repairCopyDone a unit => after (execRepairCopyDone a unit s) s
  | .memoryMarch fails => after (execMemoryMarch fails s) s
  | .memTestDataLoRead r data chk => after (execMemTestDataLoRead r data chk s) s
  | .memTestChkWrite v => after (execMemTestChkWrite v s) s
  | .memTestEnWrite r v => after (execMemTestEnWrite r v s) s
  | .cmd .lbistTestStart => after (execLbistTestStart s) s
  | .lbistTestResult i ok again => after (execLbistTestResult i ok again s) s
  | .sliceFailing i => after (execSliceFailing i s) s
  | .maintOpen r tLogic tPower => after (execMaintOpen r tLogic tPower s) s
  | .cmd .maintClose => after (execMaintClose s) s
  | .cmd .fuseBurn => after (execFuseBurn s) s
  | .fuseBurnInterrupt done => after (execFuseBurnInterrupt done s) s
  | .failedBitClear m => after (execFailedBitClear m s) s
  | .calStep path e v => after (execCalStep path e v s) s
  | .calStepAbandon path e => after (execCalStepAbandon path e s) s
  | .cmd .review => after (execReview s) s
  | .cmd .baseline => after (execBaseline s) s
  | .planSubmit r v bad => after (execPlanSubmit r v bad s) s
  | .cmd .planApply => after (execPlanApply s) s
  | .cmd .heldItemApply => after (execHeldItemApply s) s
  | .pcieLinkUp speed width => after (execPcieLinkUp speed width s) s
  | .perstRelease t => after (execPerstRelease t s) s
  | .completionError k lsn good => after (execCompletionError k lsn good s) s
  | .cmd .wakeHost => after (execWakeHost s) s
  | .cmd .faultVector => after (execFaultVector s) s
  | .bar2Write o v => after (execBar2Write o v s) s
  | .cmd .barUnalignedAccess => after (execBarUnalignedAccess s) s
  | .ethFrameReceive frame good back cycle fails t => after (execEthFrameReceive frame good back cycle fails t s) s
  | .ethFrameTransmit back cycle fails => after (execEthFrameTransmit back cycle fails s) s
  | .ethRingCfgWrite v => after (execEthRingCfgWrite v s) s
  | .canFrameReceive n fr back cycle tec rec => after (execCanFrameReceive n fr back cycle tec rec s) s
  | .canFrameTransmit n tec rec => after (execCanFrameTransmit n tec rec s) s
  | .canBusOff n => after (execCanBusOff n s) s
  | .canBusOffRejoin n run => after (execCanBusOffRejoin n run s) s
  | .accRead x y z int => after (execAccRead x y z int s) s
  | .accRawTransfer v rx => after (execAccRawTransfer v rx s) s
  | .pmbusRequest got => after (execPmbusRequest got s) s
  | .pmbusAlert status => after (execPmbusAlert status s) s
  | .pmbusVoutModeRead mode => after (execPmbusVoutModeRead mode s) s
  | .ignitionChange on => after (execIgnitionChange on s) s
  | .evtInEdge cycle => after (execEvtInEdge cycle s) s
  | .cmd .gpioEvtCycRead => after (execGpioEvtCycRead s) s
  | .cmd .ppsSecond => after (execPpsSecond s) s
  | .pgSoftReset page r freeze enable => after (execPgSoftReset page r freeze enable s) s
  | .pgCtlDeniedWrite page r v => after (execPgCtlDeniedWrite page r v s) s
  | .pgIrqClrWrite page v => after (execPgIrqClrWrite page v s) s
  | .pgErrInfoClear page => after (execPgErrInfoClear page s) s
  | .irqSwSet hi v => after (execIrqSwSet hi v s) s
  | .irqSwClr hi v => after (execIrqSwClr hi v s) s
  | .cmd .faultRecordCommit => after (execFaultRecordCommit s) s
  | .powerOnReset clock => after (execPowerOnReset clock s) s
  | .startUp locks => after (execStartUp locks s) s
  | .fuseLoad w => after (execFuseLoad w s) s
  | .cmd .dieLinkCalibrate => after (execDieLinkCalibrate s) s
  | .bootRom a b => after (execBootRom a b s) s
  | .auth i => after (execAuth i s) s
  | .fmRollbackInc r => after (execFmRollbackInc r s) s
  | .cmd .warmReset => after (execWarmReset s) s
  | .rstCtlWarm key => after (execRstCtlWarm key s) s
  | .rstCtlApp key => after (execRstCtlApp key s) s
  | .rstNLow ns => after (execRstNLow ns s) s
  | .lockstepMismatch pair => after (execLockstepMismatch pair s) s
  | .cmd .debugResetRequest => after (execDebugResetRequest s) s
  | .timingLock k on kbps => after (execTimingLock k on kbps s) s
  | .cmd .pmeTurnOff => after (execPmeTurnOff s) s
  | .cmd .accIntHigh => after (execAccIntHigh s) s
  | .pwrHoldRise mv us => after (execPwrHoldRise mv us s) s
  | .sgmiiLinkChange up speed => after (execSgmiiLinkChange up speed s) s
  | .layerCoastEnd p => after (execLayerCoastEnd p s) s
  | .startRetry c => after (execStartRetry c s) s
  | .manifestVerifyDone i => after (execManifestVerifyDone i s) s
  | .cmd .fuseBurnEnd => after (execFuseBurnEnd s) s
  | .cmd _ => s

/-- The engines that overran in the present Grain (R37). -/
def Grain.overran (g : Grain) : List Nat :=
  (g.carried ++ g.done).filterMap fun n =>
    match n with
    | .cmd (.grainOverrun p _) => engineAt p.toNat
    | _ => none

/-- Is a command one of an engine that overran? -/
def Grain.skips (g : Grain) (n : Noted) : Bool :=
  match n.engine with
  | some e => g.overran.contains e
  | none => false

/-- What an overrun Grain leaves to the next one: the events of the engines that overran (R37). -/
def Grain.left (g : Grain) : List Noted := (inOrder g.carried ++ inOrder g.done).filter g.skips

/-- Is a command the Grain work of a block that is frozen (R542)? -/
def Grain.frozen (g : Grain) (n : Noted) : Bool := n.block.any g.vis.frozen

/-- The commands of a Grain as it handles them: those carried over ahead of its own (R37). -/
def Grain.todo (g : Grain) : List Noted := (inOrder g.carried ++ inOrder g.done).filter fun n => !g.skips n && !g.frozen n

/-- The events and commands of the input and decision phases. -/
def Grain.events (g : Grain) : List Noted := g.todo.filter fun n => decide (n.phase < 3)

/-- What the timer phase evaluates, then what the output phase stages. -/
def Grain.timers (g : Grain) : List Noted :=
  (g.todo.filter fun n => n.phase == 3) ++ g.todo.filter fun n => decide (3 < n.phase)

/-- The present Grain as it stands decided at its end (R30, R34, R35): from the device that it began with, its events in their
order, then what the engines decide without a command, then its timers, then its outputs; what an engine that overran has staged
is discarded (R37). -/
def State.decided (s : State) : State :=
  let g := s.grain
  let b := g.events.foldl (fun s n => redo n s) { s with cur := g.cur, vis := g.vis }
  let t := g.timers.foldl (fun s n => redo n s) { b with cur := Dev.decideGrain g.input g.stone b.vis b.cur }
  { t with cur := g.overran.foldl (fun d e => Dev.discard g.cur d e) t.cur }

/-- The device as the edge commits it: what the ended Grain staged, with the words that the ingest mover completed in it (R142), GTIME one
higher, and at a Stone edge the snapshots. -/
def State.committed (s : State) (i : GrainIn) (z : Option StoneIn) : Dev :=
  let t := s.decided
  let d := i.fills.foldl (fun d x => d.fillFifo x.1 x.2) t.cur
  let d := ((Dev.commitGrain i t.vis d).portValues i.ports).nextGrain
  if d.stoneBegins then
    let d := d.stoneCopy
    match z with
    | some z => d.vholdStone z.vholdLow.toNat z.vholdHigh.toNat z.vholdLast.toNat
    | none => d
  else d

/-- A Grain edge: the commit, and the new Grain begins from it with what the edge captures. -/
def State.edge (s : State) (i : GrainIn) (z : Option StoneIn) : State :=
  let v := s.committed i z
  let d := Dev.inputPhase i v
  let g : Grain := { cur := d, vis := v, input := i, stone := z, carried := s.grain.left, done := [] }
  let t := (inOrder g.carried).foldl (fun s n => redo n s) { s with vis := v, cur := d }
  { t with grain := g }

/-- GRAIN_EDGE: DCLK runs, or there is no edge (R42). -/
def execGrainEdge (i : GrainIn) (s : State) : Host.Outcome State Fault Refusal :=
  .next (if s.cur.clockOn then s.edge i none else s)

/-- STONE_EDGE: the Grain edge that begins a Stone, with the samples of the Stone that ends; any other edge is GRAIN_EDGE's. -/
def execStoneEdge (i : GrainIn) (z : StoneIn) (s : State) : Host.Outcome State Fault Refusal :=
  .next (if s.cur.clockOn && (s.cur.gtime + 1) % 256 == 0 then s.edge i (some z) else s)

end Sys2Proof.Machine
end

