-- ==== Sys2Proof/Machine/Dispatch.lean ====
section
/-! DEFINITION. The dispatch: every command to its meaning. -/

namespace Sys2Proof.Machine

open Sys2Proof

def exec (i : Instr) (s : State) : Host.Outcome State Fault Refusal :=
  match i with
  | .grainEdge u => Sys2Proof.Machine.execGrainEdge u s
  | .grainOverrun page slice => Sys2Proof.Machine.execGrainOverrun page slice s
  | .stoneEdge u z => Sys2Proof.Machine.execStoneEdge u z s
  | .dieLinkLoss grains frames => Sys2Proof.Machine.execDieLinkLoss grains frames s
  | .dieLinkReturn => Sys2Proof.Machine.execDieLinkReturn s
  | .vaonPowerUp => Sys2Proof.Machine.execVaonPowerUp s
  | .vaonLoss => Sys2Proof.Machine.execVaonLoss s
  | .tbGtimeLoRead r => Sys2Proof.Machine.execTbGtimeLoRead r s
  | .tbWallOfsHiWrite v => Sys2Proof.Machine.execTbWallOfsHiWrite v s
  | .registerWrite r addr v => Sys2Proof.Machine.execRegisterWrite r addr v s
  | .registerAccessError r addr size => Sys2Proof.Machine.execRegisterAccessError r addr size s
  | .poweredDownAccess r addr w => Sys2Proof.Machine.execPoweredDownAccess r addr w s
  | .openLane w r t => Sys2Proof.Machine.execOpenLane w r t s
  | .append w r t => Sys2Proof.Machine.execAppend w r t s
  | .read w r t => Sys2Proof.Machine.execRead w r t s
  | .seal w r t => Sys2Proof.Machine.execSeal w r t s
  | .flush w r t => Sys2Proof.Machine.execFlush w r t s
  | .abort w r t => Sys2Proof.Machine.execAbort w r t s
  | .mark w r t => Sys2Proof.Machine.execMark w r t s
  | .release w r t => Sys2Proof.Machine.execRelease w r t s
  | .query w r t => Sys2Proof.Machine.execQuery w r t s
  | .doorbellBusyWrite w r off => Sys2Proof.Machine.execDoorbellBusyWrite w r off s
  | .openLaneComplete lsn => Sys2Proof.Machine.execOpenLaneComplete lsn s
  | .appendComplete lsn => Sys2Proof.Machine.execAppendComplete lsn s
  | .readComplete lsn fail => Sys2Proof.Machine.execReadComplete lsn fail s
  | .sealComplete lsn => Sys2Proof.Machine.execSealComplete lsn s
  | .markComplete lsn => Sys2Proof.Machine.execMarkComplete lsn s
  | .releaseComplete lsn => Sys2Proof.Machine.execReleaseComplete lsn s
  | .queryComplete lsn fail => Sys2Proof.Machine.execQueryComplete lsn fail s
  | .ingestSourceError lsn good => Sys2Proof.Machine.execIngestSourceError lsn good s
  | .completionPosting => Sys2Proof.Machine.execCompletionPosting s
  | .twCqConsWrite w r v => Sys2Proof.Machine.execTwCqConsWrite w r v s
  | .ringArm w r v => Sys2Proof.Machine.execRingArm w r v s
  | .ringDisarm w r v => Sys2Proof.Machine.execRingDisarm w r v s
  | .holdLapse id => Sys2Proof.Machine.execHoldLapse id s
  | .functionLevelReset goods => Sys2Proof.Machine.execFunctionLevelReset goods s
  | .hotReset goods => Sys2Proof.Machine.execHotReset goods s
  | .linkLoss goods => Sys2Proof.Machine.execLinkLoss goods s
  | .perstAssert goods => Sys2Proof.Machine.execPerstAssert goods s
  | .activateSet => Sys2Proof.Machine.execActivateSet s
  | .activationQuiesced => Sys2Proof.Machine.execActivationQuiesced s
  | .activateClear => Sys2Proof.Machine.execActivateClear s
  | .acceptEnWrite r on => Sys2Proof.Machine.execAcceptEnWrite r on s
  | .ledgerRestore corrupt lost fails => Sys2Proof.Machine.execLedgerRestore corrupt lost fails s
  | .ldgNextLsnLoRead r => Sys2Proof.Machine.execLdgNextLsnLoRead r s
  | .ldgLsnLimitLoRead r => Sys2Proof.Machine.execLdgLsnLimitLoRead r s
  | .rsvCommitSeqLoRead r => Sys2Proof.Machine.execRsvCommitSeqLoRead r s
  | .measGo => Sys2Proof.Machine.execMeasGo s
  | .measPeriodExpiry => Sys2Proof.Machine.execMeasPeriodExpiry s
  | .measStart => Sys2Proof.Machine.execMeasStart s
  | .measResult v0 v1 v2 v3 => Sys2Proof.Machine.execMeasResult v0 v1 v2 v3 s
  | .powerFailAssert mv us => Sys2Proof.Machine.execPowerFailAssert mv us s
  | .supplyLossCapture goods => Sys2Proof.Machine.execSupplyLossCapture goods s
  | .commitSequence => Sys2Proof.Machine.execCommitSequence s
  | .closeRecordWrite b mv fails => Sys2Proof.Machine.execCloseRecordWrite b mv fails s
  | .commitFloorReached mv => Sys2Proof.Machine.execCommitFloorReached mv s
  | .commitEnd mv => Sys2Proof.Machine.execCommitEnd mv s
  | .packetFirstWord k => Sys2Proof.Machine.execPacketFirstWord k s
  | .packetLastWord k => Sys2Proof.Machine.execPacketLastWord k s
  | .fkCfgWrite k r v => Sys2Proof.Machine.execFkCfgWrite k r v s
  | .fkFlush k r => Sys2Proof.Machine.execFkFlush k r s
  | .fkDiagEnWrite k r on => Sys2Proof.Machine.execFkDiagEnWrite k r on s
  | .fkDiagHiWrite k v => Sys2Proof.Machine.execFkDiagHiWrite k v s
  | .fkDiagEndWrite k v => Sys2Proof.Machine.execFkDiagEndWrite k v s
  | .fkDiagLoRead k r => Sys2Proof.Machine.execFkDiagLoRead k r s
  | .fkPointerFailure k ovr => Sys2Proof.Machine.execFkPointerFailure k ovr s
  | .cvRunLoRead k r => Sys2Proof.Machine.execCvRunLoRead k r s
  | .cvRunLoWrite k r v => Sys2Proof.Machine.execCvRunLoWrite k r v s
  | .cvRunHiWrite k r v => Sys2Proof.Machine.execCvRunHiWrite k r v s
  | .shaBlockAbsorb k => Sys2Proof.Machine.execShaBlockAbsorb k s
  | .sealSignStart => Sys2Proof.Machine.execSealSignStart s
  | .sealSignDone bad copyFails => Sys2Proof.Machine.execSealSignDone bad copyFails s
  | .flashBusItem k => Sys2Proof.Machine.execFlashBusItem k s
  | .rcpEnd k => Sys2Proof.Machine.execRcpEnd k s
  | .rcpCmd k => Sys2Proof.Machine.execRcpCmd k s
  | .rcpAddr k => Sys2Proof.Machine.execRcpAddr k s
  | .rcpDin k => Sys2Proof.Machine.execRcpDin k s
  | .rcpDout k data => Sys2Proof.Machine.execRcpDout k data s
  | .rcpWait k => Sys2Proof.Machine.execRcpWait k s
  | .rcpYield k => Sys2Proof.Machine.execRcpYield k s
  | .rcpStatus k b => Sys2Proof.Machine.execRcpStatus k b s
  | .rcpData k => Sys2Proof.Machine.execRcpData k s
  | .rcpPlane k => Sys2Proof.Machine.execRcpPlane k s
  | .rcpRtdata k => Sys2Proof.Machine.execRcpRtdata k s
  | .rcpNop k => Sys2Proof.Machine.execRcpNop k s
  | .rcpBadOp k => Sys2Proof.Machine.execRcpBadOp k s
  | .lunPoll k b => Sys2Proof.Machine.execLunPoll k b s
  | .arrayTimeout k id => Sys2Proof.Machine.execArrayTimeout k id s
  | .suspendWaitExpiry k id => Sys2Proof.Machine.execSuspendWaitExpiry k id s
  | .suspendTimeout k id b => Sys2Proof.Machine.execSuspendTimeout k id b s
  | .operationResume k id => Sys2Proof.Machine.execOperationResume k id s
  | .phyTrain k wr rd ph => Sys2Proof.Machine.execPhyTrain k wr rd ph s
  | .bayIdentify b ts m => Sys2Proof.Machine.execBayIdentify b ts m s
  | .bayPresenceLow b => Sys2Proof.Machine.execBayPresenceLow b s
  | .bayPresenceHigh b => Sys2Proof.Machine.execBayPresenceHigh b s
  | .insertDebounceExpiry b => Sys2Proof.Machine.execInsertDebounceExpiry b s
  | .bayPgood b => Sys2Proof.Machine.execBayPgood b s
  | .baySettleExpiry b => Sys2Proof.Machine.execBaySettleExpiry b s
  | .bayPgTimeout b => Sys2Proof.Machine.execBayPgTimeout b s
  | .bayWriteEnWrite b on => Sys2Proof.Machine.execBayWriteEnWrite b on s
  | .bayRelease b => Sys2Proof.Machine.execBayRelease b s
  | .bayArmWrite b on => Sys2Proof.Machine.execBayArmWrite b on s
  | .bayReleasingDone b => Sys2Proof.Machine.execBayReleasingDone b s
  | .bayRemovalDebounce b => Sys2Proof.Machine.execBayRemovalDebounce b s
  | .bayBecomesWritable b => Sys2Proof.Machine.execBayBecomesWritable b s
  | .bayRcpDataWrite b r v => Sys2Proof.Machine.execBayRcpDataWrite b r v s
  | .sequencerFail k => Sys2Proof.Machine.execSequencerFail k s
  | .spareTakeover k => Sys2Proof.Machine.execSpareTakeover k s
  | .manualGo k r v => Sys2Proof.Machine.execManualGo k r v s
  | .manualOpEnd k => Sys2Proof.Machine.execManualOpEnd k s
  | .codewordRead c met => Sys2Proof.Machine.execCodewordRead c met s
  | .programVerify b st r e cws => Sys2Proof.Machine.execProgramVerify b st r e cws s
  | .rowCloseExpiry b st r => Sys2Proof.Machine.execRowCloseExpiry b st r s
  | .parityProgram b st r => Sys2Proof.Machine.execParityProgram b st r s
  | .entrySettle lsn => Sys2Proof.Machine.execEntrySettle lsn s
  | .baleGather b lane bale => Sys2Proof.Machine.execBaleGather b lane bale s
  | .stripeReclaim b st => Sys2Proof.Machine.execStripeReclaim b st s
  | .staleRecordWrite lane => Sys2Proof.Machine.execStaleRecordWrite lane s
  | .dieLost b x => Sys2Proof.Machine.execDieLost b x s
  | .fstrDieFailGo b v => Sys2Proof.Machine.execFstrDieFailGo b v s
  | .dieRebuild b => Sys2Proof.Machine.execDieRebuild b s
  | .rebuildStripeDone b => Sys2Proof.Machine.execRebuildStripeDone b s
  | .rebuildComplete b => Sys2Proof.Machine.execRebuildComplete b s
  | .bayFormat b bad => Sys2Proof.Machine.execBayFormat b bad s
  | .commitAreaPrepare b a ok => Sys2Proof.Machine.execCommitAreaPrepare b a ok s
  | .wearLevel b => Sys2Proof.Machine.execWearLevel b s
  | .scrubRead b st r e cw => Sys2Proof.Machine.execScrubRead b st r e cw s
  | .cacheRequest st a write => Sys2Proof.Machine.execCacheRequest st a write s
  | .cacheFill line e => Sys2Proof.Machine.execCacheFill line e s
  | .lineStoreWriteback => Sys2Proof.Machine.execLineStoreWriteback s
  | .mcPreloadGo r v => Sys2Proof.Machine.execMcPreloadGo r v s
  | .mcPreloadDone => Sys2Proof.Machine.execMcPreloadDone s
  | .mcDisable v => Sys2Proof.Machine.execMcDisable v s
  | .mcDrainEnd => Sys2Proof.Machine.execMcDrainEnd s
  | .mcLockWrite v => Sys2Proof.Machine.execMcLockWrite v s
  | .mapExtentWrite lsn => Sys2Proof.Machine.execMapExtentWrite lsn s
  | .mapCheckpoint b => Sys2Proof.Machine.execMapCheckpoint b s
  | .ddrTrain eyes => Sys2Proof.Machine.execDdrTrain eyes s
  | .adcRotationStep k offset gain skew => Sys2Proof.Machine.execAdcRotationStep k offset gain skew s
  | .adcSliceFail k sl bist => Sys2Proof.Machine.execAdcSliceFail k sl bist s
  | .defectBegin k env mean bits => Sys2Proof.Machine.execDefectBegin k env mean bits s
  | .defectEnd k env mean bits => Sys2Proof.Machine.execDefectEnd k env mean bits s
  | .syncLock k expected gap => Sys2Proof.Machine.execSyncLock k expected gap s
  | .syncAccept k off idOk place => Sys2Proof.Machine.execSyncAccept k off idOk place s
  | .syncInsert k => Sys2Proof.Machine.execSyncInsert k s
  | .syncSlip k off => Sys2Proof.Machine.execSyncSlip k off s
  | .clusterFirstPass k o => Sys2Proof.Machine.execClusterFirstPass k o s
  | .iterRetain k => Sys2Proof.Machine.execIterRetain k s
  | .outerIteration uncorr destFault => Sys2Proof.Machine.execOuterIteration uncorr destFault s
  | .iterBudgetExpiry => Sys2Proof.Machine.execIterBudgetExpiry s
  | .wobbleLock k hit adip khz since => Sys2Proof.Machine.execWobbleLock k hit adip khz since s
  | .fthJobGo k r v => Sys2Proof.Machine.execFthJobGo k r v s
  | .fthJobAbort k stop => Sys2Proof.Machine.execFthJobAbort k stop s
  | .fthSyncTimeout k => Sys2Proof.Machine.execFthSyncTimeout k s
  | .fthStartTimeout k => Sys2Proof.Machine.execFthStartTimeout k s
  | .clusterRecordPost k => Sys2Proof.Machine.execClusterRecordPost k s
  | .fthResConsWrite k r v => Sys2Proof.Machine.execFthResConsWrite k r v s
  | .fthResCfgWrite k v => Sys2Proof.Machine.execFthResCfgWrite k v s
  | .fthMapWrite k r v => Sys2Proof.Machine.execFthMapWrite k r v s
  | .readChannelFail k => Sys2Proof.Machine.execReadChannelFail k s
  | .encGo v => Sys2Proof.Machine.execEncGo v s
  | .encClusterDone err => Sys2Proof.Machine.execEncClusterDone err s
  | .burnJobGo p r v => Sys2Proof.Machine.execBurnJobGo p r v s
  | .burnJobAbort p frame => Sys2Proof.Machine.execBurnJobAbort p frame s
  | .recordingStart p x => Sys2Proof.Machine.execRecordingStart p x s
  | .clusterBurned p => Sys2Proof.Machine.execClusterBurned p s
  | .levelSpiSend p u on => Sys2Proof.Machine.execLevelSpiSend p u on s
  | .powerClampLimit p => Sys2Proof.Machine.execPowerClampLimit p s
  | .fastInhibit p src frame => Sys2Proof.Machine.execFastInhibit p src frame s
  | .grainInhibit p frame => Sys2Proof.Machine.execGrainInhibit p frame s
  | .immediateInhibit p bus frame => Sys2Proof.Machine.execImmediateInhibit p bus frame s
  | .burnRearm p => Sys2Proof.Machine.execBurnRearm p s
  | .positionTimeout p => Sys2Proof.Machine.execPositionTimeout p s
  | .verifyCompare p => Sys2Proof.Machine.execVerifyCompare p s
  | .arOpen u => Sys2Proof.Machine.execArOpen u s
  | .arCommit u => Sys2Proof.Machine.execArCommit u s
  | .arCancel u => Sys2Proof.Machine.execArCancel u s
  | .archiveRecordSettle lane => Sys2Proof.Machine.execArchiveRecordSettle lane s
  | .ellSlotSelWrite e v => Sys2Proof.Machine.execEllSlotSelWrite e v s
  | .slotCommit e v => Sys2Proof.Machine.execSlotCommit e v s
  | .opsLoopWrite p v => Sys2Proof.Machine.execOpsLoopWrite p v s
  | .ellFfDataWrite e r v => Sys2Proof.Machine.execEllFfDataWrite e r v s
  | .followingError e u => Sys2Proof.Machine.execFollowingError e u s
  | .focusLoss p => Sys2Proof.Machine.execFocusLoss p s
  | .driverFault p => Sys2Proof.Machine.execDriverFault p s
  | .opsStop p arg => Sys2Proof.Machine.execOpsStop p arg s
  | .focusOn p arg => Sys2Proof.Machine.execFocusOn p arg s
  | .trackOn p arg => Sys2Proof.Machine.execTrackOn p arg s
  | .trackOff p arg => Sys2Proof.Machine.execTrackOff p arg s
  | .jump p arg => Sys2Proof.Machine.execJump p arg s
  | .layer p arg => Sys2Proof.Machine.execLayer p arg s
  | .lensHold p arg => Sys2Proof.Machine.execLensHold p arg s
  | .sCurveCrossing p => Sys2Proof.Machine.execSCurveCrossing p s
  | .searchSweepEnd p => Sys2Proof.Machine.execSearchSweepEnd p s
  | .focusSettled p => Sys2Proof.Machine.execFocusSettled p s
  | .trackCrossingCount p => Sys2Proof.Machine.execTrackCrossingCount p s
  | .trackingSettled p => Sys2Proof.Machine.execTrackingSettled p s
  | .jumpTimeout p => Sys2Proof.Machine.execJumpTimeout p s
  | .layerJumpTimeout p => Sys2Proof.Machine.execLayerJumpTimeout p s
  | .layerKickEnd p => Sys2Proof.Machine.execLayerKickEnd p s
  | .layerBrakeEnd p => Sys2Proof.Machine.execLayerBrakeEnd p s
  | .servoLaneFail e lane => Sys2Proof.Machine.execServoLaneFail e lane s
  | .cmtCoast c => Sys2Proof.Machine.execCmtCoast c s
  | .cmtStart c => Sys2Proof.Machine.execCmtStart c s
  | .cmtBrake c => Sys2Proof.Machine.execCmtBrake c s
  | .cmtClear c => Sys2Proof.Machine.execCmtClear c s
  | .alignEnd c => Sys2Proof.Machine.execAlignEnd c s
  | .rampEnd c => Sys2Proof.Machine.execRampEnd c s
  | .observerHandover c => Sys2Proof.Machine.execObserverHandover c s
  | .bemfCrossing c at_ rising clear => Sys2Proof.Machine.execBemfCrossing c at_ rising clear s
  | .commutation c => Sys2Proof.Machine.execCommutation c s
  | .crossingWindowMiss c => Sys2Proof.Machine.execCrossingWindowMiss c s
  | .rotorLost c => Sys2Proof.Machine.execRotorLost c s
  | .catchSuccess c forward period sector => Sys2Proof.Machine.execCatchSuccess c forward period sector s
  | .catchFail c obs => Sys2Proof.Machine.execCatchFail c obs s
  | .brakeStopped c => Sys2Proof.Machine.execBrakeStopped c s
  | .brakeSpeedWindow c rpm => Sys2Proof.Machine.execBrakeSpeedWindow c rpm s
  | .brakeTimeout c => Sys2Proof.Machine.execBrakeTimeout c s
  | .lockedRotor c => Sys2Proof.Machine.execLockedRotor c s
  | .hallEdge c code at_ => Sys2Proof.Machine.execHallEdge c code at_ s
  | .currentLimit c at_ ma => Sys2Proof.Machine.execCurrentLimit c at_ ma s
  | .chopperOn mv => Sys2Proof.Machine.execChopperOn mv s
  | .chopperOff mv => Sys2Proof.Machine.execChopperOff mv s
  | .chopperFault ma us => Sys2Proof.Machine.execChopperFault ma us s
  | .vmotLimit => Sys2Proof.Machine.execVmotLimit s
  | .vmotAbsolute mv => Sys2Proof.Machine.execVmotAbsolute mv s
  | .gateFault c cause => Sys2Proof.Machine.execGateFault c cause s
  | .chnEnable n => Sys2Proof.Machine.execChnEnable n s
  | .chnDisable n => Sys2Proof.Machine.execChnDisable n s
  | .moveAbs n => Sys2Proof.Machine.execMoveAbs n s
  | .moveRel n => Sys2Proof.Machine.execMoveRel n s
  | .chnStop n => Sys2Proof.Machine.execChnStop n s
  | .halt n => Sys2Proof.Machine.execHalt n s
  | .home n => Sys2Proof.Machine.execHome n s
  | .setPos n => Sys2Proof.Machine.execSetPos n s
  | .gearOn n => Sys2Proof.Machine.execGearOn n s
  | .chnClear n => Sys2Proof.Machine.execChnClear n s
  | .moveTargetReached n => Sys2Proof.Machine.execMoveTargetReached n s
  | .sledStall n => Sys2Proof.Machine.execSledStall n s
  | .sledMoveRequest k => Sys2Proof.Machine.execSledMoveRequest k s
  | .encoderIllegal e => Sys2Proof.Machine.execEncoderIllegal e s
  | .encoderIndex e n => Sys2Proof.Machine.execEncoderIndex e n s
  | .deviationStall n => Sys2Proof.Machine.execDeviationStall n s
  | .gearArm n v => Sys2Proof.Machine.execGearArm n v s
  | .gearSwitch n => Sys2Proof.Machine.execGearSwitch n s
  | .softLimitReached n => Sys2Proof.Machine.execSoftLimitReached n s
  | .homeInput n clk => Sys2Proof.Machine.execHomeInput n clk s
  | .homeTimeout n => Sys2Proof.Machine.execHomeTimeout n s
  | .cencPosWrite e v => Sys2Proof.Machine.execCencPosWrite e v s
  | .udStart c r => Sys2Proof.Machine.execUdStart c r s
  | .udStop c => Sys2Proof.Machine.execUdStop c s
  | .udTimerFire t => Sys2Proof.Machine.execUdTimerFire t s
  | .udRunBegin => Sys2Proof.Machine.execUdRunBegin s
  | .udRunComplete => Sys2Proof.Machine.execUdRunComplete s
  | .udBusError write => Sys2Proof.Machine.execUdBusError write s
  | .pwrGo r v => Sys2Proof.Machine.execPwrGo r v s
  | .pwrAnswer who busy => Sys2Proof.Machine.execPwrAnswer who busy s
  | .pwrCommit => Sys2Proof.Machine.execPwrCommit s
  | .pwrNoAnswer => Sys2Proof.Machine.execPwrNoAnswer s
  | .pwrDelayLimit => Sys2Proof.Machine.execPwrDelayLimit s
  | .pwrRetry => Sys2Proof.Machine.execPwrRetry s
  | .rollbackStep => Sys2Proof.Machine.execRollbackStep s
  | .wake sources t => Sys2Proof.Machine.execWake sources t s
  | .wakeStep => Sys2Proof.Machine.execWakeStep s
  | .wakeComplete => Sys2Proof.Machine.execWakeComplete s
  | .wakeTimerExpiry t => Sys2Proof.Machine.execWakeTimerExpiry t s
  | .sleepSupplyLoss t => Sys2Proof.Machine.execSleepSupplyLoss t s
  | .offEntry mv failed => Sys2Proof.Machine.execOffEntry mv failed s
  | .offExit => Sys2Proof.Machine.execOffExit s
  | .sentinelPeriod x y z ign vmot vhold tl tp cycles => Sys2Proof.Machine.execSentinelPeriod x y z ign vmot vhold tl tp cycles s
  | .scrRuleWrite b v => Sys2Proof.Machine.execScrRuleWrite b v s
  | .scrFiltWrite f v => Sys2Proof.Machine.execScrFiltWrite f v s
  | .scrLaneDataWrite v => Sys2Proof.Machine.execScrLaneDataWrite v s
  | .minuteStamp => Sys2Proof.Machine.execMinuteStamp s
  | .markResolve q => Sys2Proof.Machine.execMarkResolve q s
  | .scrMarkAckWrite v => Sys2Proof.Machine.execScrMarkAckWrite v s
  | .scrOutClear v => Sys2Proof.Machine.execScrOutClear v s
  | .pwrBridgeLoRead r => Sys2Proof.Machine.execPwrBridgeLoRead r s
  | .pwrAonTLoRead r => Sys2Proof.Machine.execPwrAonTLoRead r s
  | .memReadCorr a w b => Sys2Proof.Machine.execMemReadCorr a w b s
  | .memReadUncorr a w u endBad lsn => Sys2Proof.Machine.execMemReadUncorr a w u endBad lsn s
  | .memNarrowWrite a page r addr => Sys2Proof.Machine.execMemNarrowWrite a page r addr s
  | .aonParityError item addr u => Sys2Proof.Machine.execAonParityError item addr u s
  | .scrubStep a found bad => Sys2Proof.Machine.execScrubStep a found bad s
  | .softRepair a w b rowErr colErr => Sys2Proof.Machine.execSoftRepair a w b rowErr colErr s
  | .repairCopyDone a unit => Sys2Proof.Machine.execRepairCopyDone a unit s
  | .memoryMarch fails => Sys2Proof.Machine.execMemoryMarch fails s
  | .memTestDataLoRead r data chk => Sys2Proof.Machine.execMemTestDataLoRead r data chk s
  | .memTestChkWrite v => Sys2Proof.Machine.execMemTestChkWrite v s
  | .memTestEnWrite r v => Sys2Proof.Machine.execMemTestEnWrite r v s
  | .lbistTestStart => Sys2Proof.Machine.execLbistTestStart s
  | .lbistTestResult u ok again => Sys2Proof.Machine.execLbistTestResult u ok again s
  | .sliceFailing u => Sys2Proof.Machine.execSliceFailing u s
  | .maintOpen r tLogic tPower => Sys2Proof.Machine.execMaintOpen r tLogic tPower s
  | .maintClose => Sys2Proof.Machine.execMaintClose s
  | .fuseBurn => Sys2Proof.Machine.execFuseBurn s
  | .fuseBurnInterrupt done => Sys2Proof.Machine.execFuseBurnInterrupt done s
  | .failedBitClear m => Sys2Proof.Machine.execFailedBitClear m s
  | .calStep path e v => Sys2Proof.Machine.execCalStep path e v s
  | .calStepAbandon path e => Sys2Proof.Machine.execCalStepAbandon path e s
  | .review => Sys2Proof.Machine.execReview s
  | .baseline => Sys2Proof.Machine.execBaseline s
  | .planSubmit r v bad => Sys2Proof.Machine.execPlanSubmit r v bad s
  | .planApply => Sys2Proof.Machine.execPlanApply s
  | .heldItemApply => Sys2Proof.Machine.execHeldItemApply s
  | .pcieLinkUp speed width => Sys2Proof.Machine.execPcieLinkUp speed width s
  | .perstRelease t => Sys2Proof.Machine.execPerstRelease t s
  | .completionError k lsn good => Sys2Proof.Machine.execCompletionError k lsn good s
  | .wakeHost => Sys2Proof.Machine.execWakeHost s
  | .faultVector => Sys2Proof.Machine.execFaultVector s
  | .bar2Write o v => Sys2Proof.Machine.execBar2Write o v s
  | .barUnalignedAccess => Sys2Proof.Machine.execBarUnalignedAccess s
  | .ethFrameReceive frame good back cycle fails t => Sys2Proof.Machine.execEthFrameReceive frame good back cycle fails t s
  | .ethFrameTransmit back cycle fails => Sys2Proof.Machine.execEthFrameTransmit back cycle fails s
  | .ethRingCfgWrite v => Sys2Proof.Machine.execEthRingCfgWrite v s
  | .canFrameReceive n fr back cycle tec rec => Sys2Proof.Machine.execCanFrameReceive n fr back cycle tec rec s
  | .canFrameTransmit n tec rec => Sys2Proof.Machine.execCanFrameTransmit n tec rec s
  | .canBusOff n => Sys2Proof.Machine.execCanBusOff n s
  | .canBusOffRejoin n run => Sys2Proof.Machine.execCanBusOffRejoin n run s
  | .accRead x y z int => Sys2Proof.Machine.execAccRead x y z int s
  | .accRawTransfer v rx => Sys2Proof.Machine.execAccRawTransfer v rx s
  | .pmbusRequest got => Sys2Proof.Machine.execPmbusRequest got s
  | .pmbusAlert status => Sys2Proof.Machine.execPmbusAlert status s
  | .pmbusVoutModeRead mode => Sys2Proof.Machine.execPmbusVoutModeRead mode s
  | .ignitionChange on => Sys2Proof.Machine.execIgnitionChange on s
  | .evtInEdge cycle => Sys2Proof.Machine.execEvtInEdge cycle s
  | .gpioEvtCycRead => Sys2Proof.Machine.execGpioEvtCycRead s
  | .ppsSecond => Sys2Proof.Machine.execPpsSecond s
  | .pgSoftReset page r freeze enable => Sys2Proof.Machine.execPgSoftReset page r freeze enable s
  | .pgCtlDeniedWrite page r v => Sys2Proof.Machine.execPgCtlDeniedWrite page r v s
  | .pgIrqClrWrite page v => Sys2Proof.Machine.execPgIrqClrWrite page v s
  | .pgErrInfoClear page => Sys2Proof.Machine.execPgErrInfoClear page s
  | .irqSwSet hi v => Sys2Proof.Machine.execIrqSwSet hi v s
  | .irqSwClr hi v => Sys2Proof.Machine.execIrqSwClr hi v s
  | .faultRecordCommit => Sys2Proof.Machine.execFaultRecordCommit s
  | .powerOnReset clock => Sys2Proof.Machine.execPowerOnReset clock s
  | .startUp locks => Sys2Proof.Machine.execStartUp locks s
  | .fuseLoad w => Sys2Proof.Machine.execFuseLoad w s
  | .dieLinkCalibrate => Sys2Proof.Machine.execDieLinkCalibrate s
  | .bootRom a b => Sys2Proof.Machine.execBootRom a b s
  | .auth u => Sys2Proof.Machine.execAuth u s
  | .fmRollbackInc r => Sys2Proof.Machine.execFmRollbackInc r s
  | .warmReset => Sys2Proof.Machine.execWarmReset s
  | .rstCtlWarm key => Sys2Proof.Machine.execRstCtlWarm key s
  | .rstCtlApp key => Sys2Proof.Machine.execRstCtlApp key s
  | .rstNLow ns => Sys2Proof.Machine.execRstNLow ns s
  | .lockstepMismatch _pair => Sys2Proof.Machine.execLockstepMismatch _pair s
  | .debugResetRequest => Sys2Proof.Machine.execDebugResetRequest s
  | .timingLock k on kbps => Sys2Proof.Machine.execTimingLock k on kbps s
  | .pmeTurnOff => Sys2Proof.Machine.execPmeTurnOff s
  | .accIntHigh => Sys2Proof.Machine.execAccIntHigh s
  | .pwrHoldRise mv us => Sys2Proof.Machine.execPwrHoldRise mv us s
  | .sgmiiLinkChange up speed => Sys2Proof.Machine.execSgmiiLinkChange up speed s
  | .layerCoastEnd p => Sys2Proof.Machine.execLayerCoastEnd p s
  | .startRetry c => Sys2Proof.Machine.execStartRetry c s
  | .manifestVerifyDone u => Sys2Proof.Machine.execManifestVerifyDone u s
  | .fuseBurnEnd => Sys2Proof.Machine.execFuseBurnEnd s

end Sys2Proof.Machine
end

