-- ==== Sys2Proof/Safety.lean ====
section
/-! DEFINITION. What counts as a sound state, and the notions that the statements use. -/

namespace Sys2Proof.Machine

open Sys2Proof

/-! ### Canonical stores -/

/-- The register file and the three memories are in canonical form: keys strictly rising, no entry at what an unlisted one reads. -/
def Dev.storesWf (d : Dev) : Bool :=
  tabWf resetOf d.regs && Memory.wf d.mem && Memory.wf d.host && Memory.wf d.aon

/-- Both copies of the device have canonical stores, and so the two that the Grain began with. -/
def State.storesWf (s : State) : Bool := s.cur.storesWf && s.vis.storesWf && s.grain.cur.storesWf && s.grain.vis.storesWf

/-! ### Ledger sequence numbers (R69, R70) -/

/-- Are the numbers strictly rising, all below `n`? -/
def risingBelow (n : Nat) : List Nat → Bool
  | [] => true
  | a :: l => decide (a < n) && l.all (fun b => decide (a < b)) && risingBelow n l

/-- A counter is above 0 and below its limit, the limit a multiple of 2^20, and the journal's LSNs rise strictly, all below the counter. -/
def lsnsOk (next limit : Nat) (j : List JEntry) : Bool :=
  decide (0 < next) && decide (next < limit) && limit % 2 ^ 20 == 0 && risingBelow next (j.map (·.lsn))

/-- The ledger's numbers and those of every commit copy are sound, and the ledger's limit does not pass the persistent one. -/
def Dev.lsnOk (d : Dev) : Bool :=
  lsnsOk d.ldg.nextLsn d.ldg.limit d.ldg.journal && decide (d.ldg.limit ≤ d.rsv.flashLimit) && d.rsv.flashLimit % 2 ^ 20 == 0
    && d.rsv.commits.all fun c => lsnsOk c.nextLsn c.limit c.journal

/-- Both copies of the device have sound numbers, and so the two that the Grain began with. -/
def State.lsnOk (s : State) : Bool := s.cur.lsnOk && s.vis.lsnOk && s.grain.cur.lsnOk && s.grain.vis.lsnOk

/-! ### What is burned (R485, R580) -/

/-- The fuse map of `a` is a beginning of that of `b`, and the rollback counter of `a` is not above that of `b`. -/
def fusesUpTo (a b : Dev) : Bool := a.prt.fuses.isPrefixOf b.prt.fuses && decide (a.su.rollback ≤ b.su.rollback)

/-- What is committed burned is burned in the copy that this Grain decides and in the one that it began with; rollback counters end at 63. -/
def State.fusesOk (s : State) : Bool := fusesUpTo s.vis s.cur && fusesUpTo s.vis s.grain.cur && fusesUpTo s.grain.vis s.grain.cur
    && decide (s.cur.su.rollback ≤ 63) && decide (s.grain.cur.su.rollback ≤ 63)

/-! ### Commands by kind -/

/-- The task command of an opcode (R71). -/
def Opc.instr (o : Opc) (w : Fin 64) (r : Requester) (k : TaskOp) : Instr :=
  match o with
  | .openLane => .openLane w r k
  | .append => .append w r k
  | .read => .read w r k
  | .seal => .seal w r k
  | .flush => .flush w r k
  | .abort => .abort w r k
  | .mark => .mark w r k
  | .release => .release w r k
  | .query => .query w r k

/-- The STATUS and RESULT that the journal holds for a task whose condition is met (R89). -/
def Dev.result (d : Dev) (lsn : Nat) : Option (CStat × Nat) := (d.jentry lsn).bind (·.met)

/-- A submission of window `w` by `r` is decided in this Grain: the requester may write the window, none is pending, and no host
event discards it (R58, R62, R64). -/
def State.decides (s : State) (w : Nat) (r : Requester) : Bool :=
  s.cur.mayWrite r w && !Dev.isPending s.vis s.cur w && !(s.cur.ldg.hostEventNow && s.cur.hostOwned w)

/-- The decision of R65 on a submission of opcode `o`. -/
def State.verdict (s : State) (w : Nat) (o : Opc) (k : TaskOp) : Option Reason :=
  decide65 s.vis ((s.cur.descr w o.code k).bell w) w (some o) k

/-- Does the task of LSN `lsn` wait for its condition, with the word of its completion in the journal good (R9, R89)? -/
def Dev.awaits (d : Dev) (lsn : Nat) : Bool :=
  match d.jentry lsn with
  | some e => e.met.isNone && !e.lost
  | none => false

/-- How many bytes READ `t` can deliver before the first that cannot be recovered (R75). -/
def Dev.goodRead (d : Dev) (t : TaskSt) : Nat := goodBytes (d.lostOf t) t.readOffset (d.readRange t)

/-- What memory the writes of task `t` go to (R58). -/
def Dev.destOf (d : Dev) (t : TaskSt) : List Host.Cell := if d.hostOwned t.window then d.host else d.mem

/-- Does a codeword read serve step 4 of another read (R210)? -/
def ReadFor.isPart (w : ReadFor) : Bool :=
  match w with
  | .part _ => true
  | .task _ | .gather .. | .reclaim .. | .rebuild .. | .scrub => false

end Sys2Proof.Machine
end

