-- ==== Sys2Proof/Certificates/Slice0/Obligations.lean ====
section
/-! DEFINITION. The statements for the provers. -/

open Sys2Proof Sys2Proof.Machine

/-- For every command c, queue l and state s, the step of s with c in front of l is exec of c on s with the queue l; with
an empty queue the step answers s itself (the idle step is the model's choice, notes/assumptions/1.md). -/
def Obligations.StepTakesFront : Prop :=
  (∀ (c : Instr) (l : List Instr) (s : State), step { s with pending := c :: l } = exec c { s with pending := l }) ∧
  (∀ s : State, s.pending = [] → step s = .next s)

/-- The noted commands of a Grain are handled in rising phase, each once. With DCLK running, GRAIN_EDGE and STONE_EDGE
answer a next state whose new Grain begins from the commit of the decided Grain: GTIME is one higher (modulo 2^64), no
request to a FIFO and no write of a running value is left, the overruns noted become those of the last Grain, and no
command is noted; what an overrun left is carried over, and with none left both copies of the device are those the new
Grain begins with. STONE_EDGE, at the edge at which GTIME mod 256 becomes 0, files the VHOLD samples of the ended
Stone. Without DCLK there is no edge. Commands that it says to complete, each on the conditions of its clauses:
grainEdge, stoneEdge. -/
def Obligations.GrainEdges : Prop :=
  (∀ l : List Noted, (inOrder l).Perm l ∧ (inOrder l).Pairwise fun a b => a.phase ≤ b.phase) ∧
  (∀ (i : GrainIn) (s : State), s.cur.clockOn = true → ∃ t, exec (.grainEdge i) s = .next t ∧ t.grain.vis = s.committed i none
      ∧ t.grain.cur = Dev.inputPhase i t.grain.vis ∧ t.grain.done = [] ∧ t.grain.carried = s.grain.left
      ∧ t.grain.vis.tb.gtime = s.decided.cur.tb.gtime + 1 ∧ t.grain.vis.stg.requests = [] ∧ t.grain.vis.stg.runWrites = []
      ∧ t.grain.vis.tb.overPrev = s.decided.cur.tb.overNow ∧ t.grain.vis.tb.overNow = []
      ∧ (s.grain.left = [] → t.vis = t.grain.vis ∧ t.cur = t.grain.cur)) ∧
  (∀ (i : GrainIn) (s : State), s.cur.clockOn = false → ∃ t, exec (.grainEdge i) s = .next t ∧ t = s) ∧
  (∀ (i : GrainIn) (z : StoneIn) (s : State), s.cur.clockOn = true → (s.cur.gtime + 1) % 256 = 0 →
      s.decided.cur.gtime = s.cur.gtime → ∃ t, exec (.stoneEdge i z) s = .next t ∧ t.grain.vis = s.committed i (some z)
      ∧ t.grain.cur = Dev.inputPhase i t.grain.vis ∧ t.grain.done = [] ∧ t.grain.carried = s.grain.left
      ∧ t.grain.vis.tb.gtime = s.decided.cur.tb.gtime + 1 ∧ t.grain.vis.stg.requests = [] ∧ t.grain.vis.stg.runWrites = []
      ∧ t.grain.vis.tb.overPrev = s.decided.cur.tb.overNow ∧ t.grain.vis.tb.overNow = []
      ∧ (s.grain.left = [] → t.vis = t.grain.vis ∧ t.cur = t.grain.cur)
      ∧ t.grain.vis.rsv.vhist.head? = some (z.vholdLow.toNat, z.vholdHigh.toNat, z.vholdLast.toNat)) ∧
  (∀ (i : GrainIn) (z : StoneIn) (s : State), s.cur.clockOn = false ∨ (s.cur.gtime + 1) % 256 ≠ 0 →
      ∃ t, exec (.stoneEdge i z) s = .next t ∧ t = s)

/-- A read of TB_GTIME_LO returns the low half of the committed GTIME and latches its upper half for that requester alone,
whose next read of TB_GTIME_HI returns it. A write of TB_WALL_OFS_HI stages both halves of the offset. A first overrun
of an engine brings its registers back to what the Grain began with, leaves all others but those of the timebase page,
sets OVR, counts, names the page in TB_OVR_SRC and adds a GRAIN_OVR record. With the return of VAON GTIME is 0,
EPOCH_LOST is set and the carry is 0; a loss of VAON leaves the always-on SRAM and device memory empty, Scruple
without state, and host memory, burned fuses and rollback counters as they were. Commands that it says to complete,
each on the conditions of its clauses: tbGtimeLoRead, tbWallOfsHiWrite, grainOverrun, vaonPowerUp, vaonLoss. -/
def Obligations.Timebase : Prop :=
  (∀ (r : Requester) (s : State), ∃ t, exec (.tbGtimeLoRead r) s = .next t
      ∧ t.vis.bus = { rdata := s.vis.tb.gtime.setWidth 32, error := false }
      ∧ t.vis.readWord r (pgTb + TB_GTIME_HI.off) = (s.vis.tb.gtime >>> 32).setWidth 32
      ∧ (∀ r2 : Requester, r2 ≠ r → t.vis.latched r2 (pgTb + TB_GTIME_HI.off) = s.vis.latched r2 (pgTb + TB_GTIME_HI.off))
      ∧ { t.vis with tb := s.vis.tb, bus := s.vis.bus } = s.vis ∧ { t.cur with tb := s.cur.tb, bus := s.cur.bus } = s.cur) ∧
  (∀ (v : Word) (s : State), ∃ t, exec (.tbWallOfsHiWrite v) s = .next t ∧ t.cur.rd (pgTb + TB_WALL_OFS_HI.off) = v
      ∧ t.cur.rd (pgTb + TB_WALL_OFS_LO.off) = s.cur.tb.wallLo.getD (s.cur.rd (pgTb + TB_WALL_OFS_LO.off))
      ∧ t.cur.tb.wallLo = none ∧ t.vis = s.vis ∧ { t.cur with regs := s.cur.regs, tb := s.cur.tb } = s.cur
      ∧ (∀ a, a ≠ pgTb + TB_WALL_OFS_LO.off → a ≠ pgTb + TB_WALL_OFS_HI.off → t.cur.rd a = s.cur.rd a)) ∧
  (∀ (page : Word) (slice : Option (Fin 156)) (p e : Nat) (s : State), pageAt page.toNat = some p → engineAt p = some e →
      s.cur.tb.overNow.contains p = false → s.cur.tb.overPrev.contains p = false →
      ∃ t, exec (.grainOverrun page slice) s = .next t ∧ t.cur.flag pgTb TB_STAT_OVR = true
      ∧ t.cur.get pgTb TB_OVR_SRC = pgIdOf p ∧ t.cur.get pgTb TB_OVR_COUNT = min (2 ^ 32 - 1) (s.cur.get pgTb TB_OVR_COUNT + 1)
      ∧ (∀ a, e ≤ a → a < engineEnd e → t.cur.rd a = s.grain.cur.rd a)
      ∧ (∀ a, a < e ∨ engineEnd e ≤ a → a / 0x1000 ≠ pgTb / 0x1000 → t.cur.rd a = s.cur.rd a)
      ∧ t.cur.fj.staged.getLast? = some { gtime := s.cur.gtime48, pgId := pgIdOf pgTb, code := 2, deg := false, flt := false, data := [pgIdOf p] }
      ∧ t.cur.tb.overNow = s.cur.tb.overNow ++ [p] ∧ t.vis = s.vis) ∧
  (∀ (s : State), s.cur.tb.vaon = false → ∃ t, exec (.vaonPowerUp) s = .next t ∧ t.vis.tb.gtime = 0 ∧ t.vis.tb.vaon = true
      ∧ t.vis.flag pgTb TB_STAT_EPOCH_LOST = true ∧ t.vis.pwr.carry = 0 ∧ t.cur.tb.gtime = 0 ∧ t.cur.tb.vaon = true
      ∧ t.cur.flag pgTb TB_STAT_EPOCH_LOST = true ∧ t.cur.pwr.carry = 0
      ∧ { t.cur with regs := s.cur.regs, tb := s.cur.tb, pwr := s.cur.pwr } = s.cur
      ∧ (∀ a, a ≠ pgTb + TB_STAT_EPOCH_LOST.off → t.cur.rd a = s.cur.rd a)) ∧
  (∀ (s : State), s.cur.tb.vaon = true → ∃ t, exec (.vaonLoss) s = .next t ∧ t.cur = t.vis ∧ t.vis.tb.vaon = false
      ∧ t.vis.aon = [] ∧ t.vis.mem = [] ∧ t.vis.scr = {} ∧ t.vis.host = s.cur.host ∧ t.vis.prt.fuses = s.cur.prt.fuses
      ∧ t.vis.su.rollback = s.cur.su.rollback)

/-- For each of the nine tasks, in every state in which the submission is decided and a check of R65 fails with reason x,
the command answers a next state in which TW_RESULT shows REFUSED, the reason and the tag, TW_REFUSALS has counted and
REFUSED is raised; journal, tasks, contexts, lanes and the counter of LSNs stand as before, and so do all memory,
staging, the charges, everything of the ledger but its note of the doorbells of the Grain, and every register but
TW_D0 to TW_D7, TW_RESULT, TW_REFUSALS and PG_IRQ_RAW of the window and RSV_REFUSALS. -/
def Obligations.RefusalChangesNothing : Prop :=
  ∀ (o : Opc) (w : Fin 64) (r : Requester) (k : TaskOp) (x : Reason) (s : State),
    s.decides w r = true → s.verdict w o k = some x →
    ∃ t, exec (o.instr w r k) s = .next t ∧
      t.cur.get (pgTw w) TW_RESULT = k.tag.toNat * 2 ^ 16 + x.code * 2 ^ 8 + 3 ∧
      t.cur.get (pgTw w) TW_REFUSALS = min (2 ^ 32 - 1) (s.cur.get (pgTw w) TW_REFUSALS + 1) ∧
      t.cur.flag (pgTw w) TW_IRQ_REFUSED = true ∧
      { t.cur with regs := s.cur.regs, irqSet := s.cur.irqSet, ldg := { t.cur.ldg with bells := s.cur.ldg.bells } } = s.cur ∧
      (∀ a, a < pgTw w + 0x40 ∨ pgTw w + 0x68 ≤ a → a ≠ pgTw w + PG_IRQ_RAW.off → a ≠ pgTw w + TW_REFUSALS.off →
        a ≠ pgRsv + RSV_REFUSALS.off → t.cur.rd a = s.cur.rd a)

/-- For each of the nine tasks, whatever its operands: a captured main-supply loss refuses it with RESERVE; otherwise
ACCEPT_EN at 0 refuses it with STARTING; otherwise, the ledger's page not powering down and no logic slice failing, an
activation refuses it with ACTIVATION; otherwise a ring disarmed now or at the Grain's edge refuses it with DISARMED.
A submission that a host event of the Grain discards leaves STATE IDLE, the descriptor cleared and the ledger as it
was but for its note of the Grain's doorbell. -/
def Obligations.LedgerWideRefusals : Prop :=
  (∀ (o : Opc) (w : Fin 64) (r : Requester) (k : TaskOp) (s : State), s.decides w r = true →
    (s.cur.flag pgRsv RSV_STAT_PF = true → s.verdict w o k = some .reserve) ∧
    (s.cur.flag pgRsv RSV_STAT_PF = false → s.cur.flag pgLdg LDG_CTL_ACCEPT_EN = false → s.verdict w o k = some .starting) ∧
    (s.cur.flag pgRsv RSV_STAT_PF = false → s.cur.flag pgLdg LDG_CTL_ACCEPT_EN = true → s.cur.prt.failing = [] → s.cur.agreed pgLdg = false →
      s.cur.flag pgLdg LDG_CTL_ACTIVATE = true → s.verdict w o k = some .activation) ∧
    (s.cur.flag pgRsv RSV_STAT_PF = false → s.cur.flag pgLdg LDG_CTL_ACCEPT_EN = true → s.cur.prt.failing = [] → s.cur.agreed pgLdg = false →
      s.cur.flag pgLdg LDG_CTL_ACTIVATE = false → s.cur.flag (pgTw w) TW_CQ_CFG_ARMED = false ∨ s.vis.flag (pgTw w) TW_CQ_CFG_ARMED = false →
      s.verdict w o k = some .disarmed)) ∧
  (∀ (o : Opc) (w : Fin 64) (r : Requester) (k : TaskOp) (s : State),
    s.cur.mayWrite r w = true → Dev.isPending s.vis s.cur w = false → s.cur.ldg.hostEventNow = true →
    s.cur.hostOwned w = true →
    ∃ t, exec (o.instr w r k) s = .next t ∧ t.cur.get (pgTw w) TW_RESULT_STATE = 0 ∧
      (∀ i, i < 8 → t.cur.rd (pgTw w + TW_D.off + 4 * i) = 0) ∧ { t.cur with regs := s.cur.regs, ldg := { t.cur.ldg with bells := s.cur.ldg.bells } } = s.cur ∧
      (∀ a, a < pgTw w + 0x40 ∨ pgTw w + 0x68 ≤ a → t.cur.rd a = s.cur.rd a))

/-- A submission that no check of R65 refuses is accepted: STATE is ACCEPTED with the tag, TW_LSN is the counter's value
and the counter is one higher, the journal holds one entry more with window, LSN, tag, opcode and lane, and what is
committed differs only in showing PENDING. OPEN_LANE puts its context in OPENING bound to lane and FIFO; APPEND takes
the lane's length as its offset, lengthens lane and context by LENGTH and is charged ceil(LENGTH / 4096) + 1
codewords; SEAL puts context and lane in SEALING; OPEN_LANE, SEAL, MARK and RELEASE are charged a record, READ, FLUSH,
ABORT and QUERY nothing; an ABORT that finds no target is met NO_TARGET. Other lanes, other contexts, holds, what is
Settled, and every register but those of the submission, the charges, PG_IRQ_RAW of the ledger and the statistics of
FIFO or seal engine stand as before, and so does memory but for the lane's descriptor. Commands that it says to
complete, each on the conditions of its clauses: openLane, append, read, seal, flush, abort, mark, release, query. -/
def Obligations.AcceptedTasks : Prop :=
  (∀ (w : Fin 64) (r : Requester) (k : TaskOp) (s : State), s.decides w r = true → s.verdict w .openLane k = none →
      ∃ t, exec (.openLane w r k) s = .next t ∧ t.cur.get (pgTw w) TW_RESULT = k.tag.toNat * 2 ^ 16 + 2
      ∧ t.cur.get64 (pgTw w) TW_LSN_LO TW_LSN_HI = s.cur.ldg.nextLsn % 2 ^ 64 ∧ t.cur.ldg.nextLsn = s.cur.ldg.nextLsn + 1
      ∧ (t.cur.ldg.journal.getLast?.map (fun e => (e.window, e.lsn, e.tag, e.opc, e.lane)) = some (w.val, s.cur.ldg.nextLsn, k.tag.toNat, .openLane, k.lane))
      ∧ t.vis = s.vis.put (pgTw w) TW_RESULT_STATE 1 ∧ (∀ n, n ≠ k.lane → t.cur.lane n = s.cur.lane n)
      ∧ (∀ c, c ≠ k.ctx → t.cur.ctx c = s.cur.ctx c) ∧ t.cur.ldg.holds = s.cur.ldg.holds ∧ t.cur.ldg.store = s.cur.ldg.store
      ∧ (∀ a, a < pgTw w + 0x40 ∨ pgTw w + 0x70 ≤ a → a ≠ pgRsv + RSV_HELD.off → a ≠ pgRsv + RSV_PROMISED.off → a ≠ pgLdg + PG_IRQ_RAW.off → t.cur.rd a = s.cur.rd a)
      ∧ (t.cur.ctx k.ctx).state = .opening ∧ (t.cur.ctx k.ctx).lane = k.lane ∧ (t.cur.ctx k.ctx).fifo = bits k.argb 0 6
      ∧ t.cur.ldg.lanes = s.cur.ldg.lanes
      ∧ (t.cur.ldg.tasks.getLast?.map (fun u => (u.window, u.lsn, u.cw, u.rc)) = some (w.val, s.cur.ldg.nextLsn, 0, 1))
      ∧ t.cur.ldg.journal.dropLast = s.cur.ldg.journal
      ∧ { t.cur with regs := s.cur.regs, irqSet := s.cur.irqSet, ldg := s.cur.ldg, rsv := s.cur.rsv } = s.cur) ∧
  (∀ (w : Fin 64) (r : Requester) (k : TaskOp) (s : State), s.decides w r = true → s.verdict w .append k = none →
      ∃ t, exec (.append w r k) s = .next t ∧ t.cur.get (pgTw w) TW_RESULT = k.tag.toNat * 2 ^ 16 + 2
      ∧ t.cur.get64 (pgTw w) TW_LSN_LO TW_LSN_HI = s.cur.ldg.nextLsn % 2 ^ 64 ∧ t.cur.ldg.nextLsn = s.cur.ldg.nextLsn + 1
      ∧ (t.cur.ldg.journal.getLast?.map (fun e => (e.window, e.lsn, e.tag, e.opc, e.lane)) = some (w.val, s.cur.ldg.nextLsn, k.tag.toNat, .append, k.lane))
      ∧ t.vis = s.vis.put (pgTw w) TW_RESULT_STATE 1 ∧ (∀ n, n ≠ k.lane → t.cur.lane n = s.cur.lane n)
      ∧ (∀ c, c ≠ k.ctx → t.cur.ctx c = s.cur.ctx c) ∧ t.cur.ldg.holds = s.cur.ldg.holds ∧ t.cur.ldg.store = s.cur.ldg.store
      ∧ (∀ a, a < pgTw w + 0x40 ∨ pgTw w + 0x70 ≤ a → a ≠ pgRsv + RSV_HELD.off → a ≠ pgRsv + RSV_PROMISED.off → a ≠ pgLdg + PG_IRQ_RAW.off → a ≠ pgFk (s.cur.ctx k.ctx).fifo + FK_STAT.off → a ≠ pgFk (s.cur.ctx k.ctx).fifo + FK_LEVEL.off → a ≠ pgFk (s.cur.ctx k.ctx).fifo + FK_FREE.off → t.cur.rd a = s.cur.rd a)
      ∧ (∀ a, (∀ b, s.cur.laneAt (k.lane) = some b → a < b ∨ b + 64 ≤ a) → memGet t.cur.mem a = memGet s.cur.mem a)
      ∧ (t.cur.ctx k.ctx).length = (s.cur.ctx k.ctx).length + k.len
      ∧ (t.cur.lane k.lane).length = (s.cur.ctx k.ctx).length + k.len
      ∧ t.cur.ldg.tasks.getLast?.map (·.offset) = some (s.cur.ctx k.ctx).length
      ∧ (t.cur.ldg.tasks.getLast?.map (fun u => (u.window, u.lsn, u.cw, u.rc)) = some (w.val, s.cur.ldg.nextLsn, ceilDiv k.len 4096 + 1, 0))
      ∧ t.cur.ldg.journal.dropLast = s.cur.ldg.journal
      ∧ { t.cur with regs := s.cur.regs, irqSet := s.cur.irqSet, mem := s.cur.mem, ldg := s.cur.ldg, rsv := s.cur.rsv, stg := s.cur.stg } = s.cur) ∧
  (∀ (w : Fin 64) (r : Requester) (k : TaskOp) (s : State), s.decides w r = true → s.verdict w .read k = none →
      ∃ t, exec (.read w r k) s = .next t ∧ t.cur.get (pgTw w) TW_RESULT = k.tag.toNat * 2 ^ 16 + 2
      ∧ t.cur.get64 (pgTw w) TW_LSN_LO TW_LSN_HI = s.cur.ldg.nextLsn % 2 ^ 64 ∧ t.cur.ldg.nextLsn = s.cur.ldg.nextLsn + 1
      ∧ (t.cur.ldg.journal.getLast?.map (fun e => (e.window, e.lsn, e.tag, e.opc, e.lane)) = some (w.val, s.cur.ldg.nextLsn, k.tag.toNat, .read, k.lane))
      ∧ t.vis = s.vis.put (pgTw w) TW_RESULT_STATE 1 ∧ (∀ n, n ≠ k.lane → t.cur.lane n = s.cur.lane n)
      ∧ (∀ c, c ≠ k.ctx → t.cur.ctx c = s.cur.ctx c) ∧ t.cur.ldg.holds = s.cur.ldg.holds ∧ t.cur.ldg.store = s.cur.ldg.store
      ∧ (∀ a, a < pgTw w + 0x40 ∨ pgTw w + 0x70 ≤ a → a ≠ pgRsv + RSV_HELD.off → a ≠ pgRsv + RSV_PROMISED.off → a ≠ pgLdg + PG_IRQ_RAW.off → t.cur.rd a = s.cur.rd a)
      ∧ (t.cur.ldg.tasks.getLast?.map (fun u => (u.lsn, u.lenAt)) = some (s.cur.ldg.nextLsn, (s.cur.lane k.lane).length))
      ∧ t.cur.ldg.lanes = s.cur.ldg.lanes ∧ t.cur.ldg.ctxs = s.cur.ldg.ctxs
      ∧ (t.cur.ldg.tasks.getLast?.map (fun u => (u.window, u.lsn, u.cw, u.rc)) = some (w.val, s.cur.ldg.nextLsn, 0, 0))
      ∧ t.cur.ldg.journal.dropLast = s.cur.ldg.journal
      ∧ { t.cur with regs := s.cur.regs, irqSet := s.cur.irqSet, ldg := s.cur.ldg, rsv := s.cur.rsv } = s.cur) ∧
  (∀ (w : Fin 64) (r : Requester) (k : TaskOp) (s : State), s.decides w r = true → s.verdict w .seal k = none →
      ∃ t, exec (.seal w r k) s = .next t ∧ t.cur.get (pgTw w) TW_RESULT = k.tag.toNat * 2 ^ 16 + 2
      ∧ t.cur.get64 (pgTw w) TW_LSN_LO TW_LSN_HI = s.cur.ldg.nextLsn % 2 ^ 64 ∧ t.cur.ldg.nextLsn = s.cur.ldg.nextLsn + 1
      ∧ (t.cur.ldg.journal.getLast?.map (fun e => (e.window, e.lsn, e.tag, e.opc, e.lane)) = some (w.val, s.cur.ldg.nextLsn, k.tag.toNat, .seal, k.lane))
      ∧ t.vis = s.vis.put (pgTw w) TW_RESULT_STATE 1 ∧ (∀ n, n ≠ k.lane → t.cur.lane n = s.cur.lane n)
      ∧ (∀ c, c ≠ k.ctx → t.cur.ctx c = s.cur.ctx c) ∧ t.cur.ldg.holds = s.cur.ldg.holds ∧ t.cur.ldg.store = s.cur.ldg.store
      ∧ (∀ a, a < pgTw w + 0x40 ∨ pgTw w + 0x70 ≤ a → a ≠ pgRsv + RSV_HELD.off → a ≠ pgRsv + RSV_PROMISED.off → a ≠ pgLdg + PG_IRQ_RAW.off → a ≠ pgChk + CHK_SEAL_STAT.off → t.cur.rd a = s.cur.rd a)
      ∧ (∀ a, (∀ b, s.cur.laneAt (k.lane) = some b → a < b ∨ b + 64 ≤ a) → memGet t.cur.mem a = memGet s.cur.mem a)
      ∧ (t.cur.ctx k.ctx).state = .sealing ∧ (t.cur.lane k.lane).state = .sealing
      ∧ (t.cur.lane k.lane).sealLsn = s.cur.ldg.nextLsn
      ∧ (t.cur.ldg.tasks.getLast?.map (fun u => (u.window, u.lsn, u.cw, u.rc)) = some (w.val, s.cur.ldg.nextLsn, 0, 1))
      ∧ t.cur.ldg.journal.dropLast = s.cur.ldg.journal
      ∧ { t.cur with regs := s.cur.regs, irqSet := s.cur.irqSet, mem := s.cur.mem, ldg := s.cur.ldg, rsv := s.cur.rsv } = s.cur) ∧
  (∀ (w : Fin 64) (r : Requester) (k : TaskOp) (s : State), s.decides w r = true → s.verdict w .flush k = none →
      ∃ t, exec (.flush w r k) s = .next t ∧ t.cur.get (pgTw w) TW_RESULT = k.tag.toNat * 2 ^ 16 + 2
      ∧ t.cur.get64 (pgTw w) TW_LSN_LO TW_LSN_HI = s.cur.ldg.nextLsn % 2 ^ 64 ∧ t.cur.ldg.nextLsn = s.cur.ldg.nextLsn + 1
      ∧ (t.cur.ldg.journal.getLast?.map (fun e => (e.window, e.lsn, e.tag, e.opc, e.lane)) = some (w.val, s.cur.ldg.nextLsn, k.tag.toNat, .flush, k.lane))
      ∧ t.vis = s.vis.put (pgTw w) TW_RESULT_STATE 1 ∧ (∀ n, n ≠ k.lane → t.cur.lane n = s.cur.lane n)
      ∧ (∀ c, c ≠ k.ctx → t.cur.ctx c = s.cur.ctx c) ∧ t.cur.ldg.holds = s.cur.ldg.holds ∧ t.cur.ldg.store = s.cur.ldg.store
      ∧ (∀ a, a < pgTw w + 0x40 ∨ pgTw w + 0x70 ≤ a → a ≠ pgRsv + RSV_HELD.off → a ≠ pgRsv + RSV_PROMISED.off → a ≠ pgLdg + PG_IRQ_RAW.off → t.cur.rd a = s.cur.rd a)
      ∧ t.cur.ldg.lanes = s.cur.ldg.lanes ∧ t.cur.ldg.ctxs = s.cur.ldg.ctxs
      ∧ { t.cur with regs := s.cur.regs, irqSet := s.cur.irqSet, ldg := s.cur.ldg, rsv := s.cur.rsv } = s.cur) ∧
  (∀ (w : Fin 64) (r : Requester) (k : TaskOp) (s : State), s.decides w r = true → s.verdict w .abort k = none →
      abortTarget s.cur w (bits k.arg0 0 16) s.cur.ldg.nextLsn = none → ∃ t, exec (.abort w r k) s = .next t
      ∧ t.cur.get (pgTw w) TW_RESULT = k.tag.toNat * 2 ^ 16 + 2
      ∧ t.cur.get64 (pgTw w) TW_LSN_LO TW_LSN_HI = s.cur.ldg.nextLsn % 2 ^ 64 ∧ t.cur.ldg.nextLsn = s.cur.ldg.nextLsn + 1
      ∧ (t.cur.ldg.journal.getLast?.map (fun e => (e.window, e.lsn, e.tag, e.opc, e.lane)) = some (w.val, s.cur.ldg.nextLsn, k.tag.toNat, .abort, k.lane))
      ∧ t.vis = s.vis.put (pgTw w) TW_RESULT_STATE 1 ∧ (∀ n, n ≠ k.lane → t.cur.lane n = s.cur.lane n)
      ∧ (∀ c, c ≠ k.ctx → t.cur.ctx c = s.cur.ctx c) ∧ t.cur.ldg.holds = s.cur.ldg.holds ∧ t.cur.ldg.store = s.cur.ldg.store
      ∧ (∀ a, a < pgTw w + 0x40 ∨ pgTw w + 0x70 ≤ a → a ≠ pgRsv + RSV_HELD.off → a ≠ pgRsv + RSV_PROMISED.off → a ≠ pgLdg + PG_IRQ_RAW.off → t.cur.rd a = s.cur.rd a)
      ∧ t.cur.ldg.journal.getLast?.map (·.met) = some (some (.noTarget, 0)) ∧ t.cur.ldg.lanes = s.cur.ldg.lanes
      ∧ t.cur.ldg.ctxs = s.cur.ldg.ctxs
      ∧ { t.cur with regs := s.cur.regs, irqSet := s.cur.irqSet, ldg := s.cur.ldg, rsv := s.cur.rsv } = s.cur) ∧
  (∀ (w : Fin 64) (r : Requester) (k : TaskOp) (s : State), s.decides w r = true → s.verdict w .mark k = none →
      ∃ t, exec (.mark w r k) s = .next t ∧ t.cur.get (pgTw w) TW_RESULT = k.tag.toNat * 2 ^ 16 + 2
      ∧ t.cur.get64 (pgTw w) TW_LSN_LO TW_LSN_HI = s.cur.ldg.nextLsn % 2 ^ 64 ∧ t.cur.ldg.nextLsn = s.cur.ldg.nextLsn + 1
      ∧ (t.cur.ldg.journal.getLast?.map (fun e => (e.window, e.lsn, e.tag, e.opc, e.lane)) = some (w.val, s.cur.ldg.nextLsn, k.tag.toNat, .mark, k.lane))
      ∧ t.vis = s.vis.put (pgTw w) TW_RESULT_STATE 1 ∧ (∀ n, n ≠ k.lane → t.cur.lane n = s.cur.lane n)
      ∧ (∀ c, c ≠ k.ctx → t.cur.ctx c = s.cur.ctx c) ∧ t.cur.ldg.holds = s.cur.ldg.holds ∧ t.cur.ldg.store = s.cur.ldg.store
      ∧ (∀ a, a < pgTw w + 0x40 ∨ pgTw w + 0x70 ≤ a → a ≠ pgRsv + RSV_HELD.off → a ≠ pgRsv + RSV_PROMISED.off → a ≠ pgLdg + PG_IRQ_RAW.off → t.cur.rd a = s.cur.rd a)
      ∧ t.cur.ldg.lanes = s.cur.ldg.lanes ∧ t.cur.ldg.ctxs = s.cur.ldg.ctxs
      ∧ (t.cur.ldg.tasks.getLast?.map (fun u => (u.window, u.lsn, u.cw, u.rc)) = some (w.val, s.cur.ldg.nextLsn, 0, 1))
      ∧ t.cur.ldg.journal.dropLast = s.cur.ldg.journal
      ∧ { t.cur with regs := s.cur.regs, irqSet := s.cur.irqSet, ldg := s.cur.ldg, rsv := s.cur.rsv } = s.cur) ∧
  (∀ (w : Fin 64) (r : Requester) (k : TaskOp) (s : State), s.decides w r = true → s.verdict w .release k = none →
      ∃ t, exec (.release w r k) s = .next t ∧ t.cur.get (pgTw w) TW_RESULT = k.tag.toNat * 2 ^ 16 + 2
      ∧ t.cur.get64 (pgTw w) TW_LSN_LO TW_LSN_HI = s.cur.ldg.nextLsn % 2 ^ 64 ∧ t.cur.ldg.nextLsn = s.cur.ldg.nextLsn + 1
      ∧ (t.cur.ldg.journal.getLast?.map (fun e => (e.window, e.lsn, e.tag, e.opc, e.lane)) = some (w.val, s.cur.ldg.nextLsn, k.tag.toNat, .release, k.lane))
      ∧ t.vis = s.vis.put (pgTw w) TW_RESULT_STATE 1 ∧ (∀ n, n ≠ k.lane → t.cur.lane n = s.cur.lane n)
      ∧ (∀ c, c ≠ k.ctx → t.cur.ctx c = s.cur.ctx c) ∧ t.cur.ldg.holds = s.cur.ldg.holds ∧ t.cur.ldg.store = s.cur.ldg.store
      ∧ (∀ a, a < pgTw w + 0x40 ∨ pgTw w + 0x70 ≤ a → a ≠ pgRsv + RSV_HELD.off → a ≠ pgRsv + RSV_PROMISED.off → a ≠ pgLdg + PG_IRQ_RAW.off → t.cur.rd a = s.cur.rd a)
      ∧ t.cur.ldg.lanes = s.cur.ldg.lanes ∧ t.cur.ldg.ctxs = s.cur.ldg.ctxs
      ∧ (t.cur.ldg.tasks.getLast?.map (fun u => (u.window, u.lsn, u.cw, u.rc)) = some (w.val, s.cur.ldg.nextLsn, 0, 1))
      ∧ t.cur.ldg.journal.dropLast = s.cur.ldg.journal
      ∧ { t.cur with regs := s.cur.regs, irqSet := s.cur.irqSet, ldg := s.cur.ldg, rsv := s.cur.rsv } = s.cur) ∧
  (∀ (w : Fin 64) (r : Requester) (k : TaskOp) (s : State), s.decides w r = true → s.verdict w .query k = none →
      ∃ t, exec (.query w r k) s = .next t ∧ t.cur.get (pgTw w) TW_RESULT = k.tag.toNat * 2 ^ 16 + 2
      ∧ t.cur.get64 (pgTw w) TW_LSN_LO TW_LSN_HI = s.cur.ldg.nextLsn % 2 ^ 64 ∧ t.cur.ldg.nextLsn = s.cur.ldg.nextLsn + 1
      ∧ (t.cur.ldg.journal.getLast?.map (fun e => (e.window, e.lsn, e.tag, e.opc, e.lane)) = some (w.val, s.cur.ldg.nextLsn, k.tag.toNat, .query, k.lane))
      ∧ t.vis = s.vis.put (pgTw w) TW_RESULT_STATE 1 ∧ (∀ n, n ≠ k.lane → t.cur.lane n = s.cur.lane n)
      ∧ (∀ c, c ≠ k.ctx → t.cur.ctx c = s.cur.ctx c) ∧ t.cur.ldg.holds = s.cur.ldg.holds ∧ t.cur.ldg.store = s.cur.ldg.store
      ∧ (∀ a, a < pgTw w + 0x40 ∨ pgTw w + 0x70 ≤ a → a ≠ pgRsv + RSV_HELD.off → a ≠ pgRsv + RSV_PROMISED.off → a ≠ pgLdg + PG_IRQ_RAW.off → t.cur.rd a = s.cur.rd a)
      ∧ t.cur.ldg.lanes = s.cur.ldg.lanes ∧ t.cur.ldg.ctxs = s.cur.ldg.ctxs
      ∧ (t.cur.ldg.tasks.getLast?.map (fun u => (u.window, u.lsn, u.cw, u.rc)) = some (w.val, s.cur.ldg.nextLsn, 0, 0))
      ∧ t.cur.ldg.journal.dropLast = s.cur.ldg.journal
      ∧ { t.cur with regs := s.cur.regs, irqSet := s.cur.irqSet, ldg := s.cur.ldg, rsv := s.cur.rsv } = s.cur)

/-- An accepted ABORT whose target's completion is staged or posted completes TOO_LATE with the target's LSN and leaves
every entry of the journal; one that finds a READ or FLUSH of the tag with its condition not met completes OK, and the
target is completed ABORTED in the same Grain; one that finds a SEAL before its signing ends it ABORTED, reopens
context and lane and completes OK; one that finds a SEAL in signing or any other task not met completes NOT_ABORTABLE
and leaves every entry. (An entry whose journal word was lost and whose condition is met leaves the journal in any
case.) In every state whose sequence numbers are sound (LsnsStaySound). -/
def Obligations.AbortRace : Prop :=
  ∀ (w : Fin 64) (r : Requester) (k : TaskOp) (e : JEntry) (s : State), s.cur.lsnOk = true → s.decides w r = true →
    s.verdict w .abort k = none → abortTarget s.cur w (bits k.arg0 0 16) s.cur.ldg.nextLsn = some e →
    ∃ t, exec (.abort w r k) s = .next t ∧
      (e.met.isSome → (∀ x ∈ s.cur.ldg.journal, x.lost = false → x ∈ t.cur.ldg.journal) ∧
        t.cur.ldg.journal.getLast?.map (·.met) = some (some (.tooLate, e.lsn))) ∧
      (e.met = none → e.opc = .read ∨ e.opc = .flush →
        (∃ n, ∀ x ∈ t.cur.ldg.journal, x.lsn = e.lsn → x.met = some (.aborted, n)) ∧
        t.cur.ldg.journal.getLast?.map (·.met) = some (some (.ok, e.lsn))) ∧
      (∀ u, e.met = none → e.opc = .seal → s.cur.task e.lsn = some u → u.signing = false → u.signed = false →
        (∀ x ∈ t.cur.ldg.journal, x.lsn = e.lsn → x.met = some (.aborted, 0)) ∧
        (t.cur.ctx u.ctx).state = .open ∧ (t.cur.lane u.lane).state = .open ∧
        t.cur.ldg.journal.getLast?.map (·.met) = some (some (.ok, e.lsn))) ∧
      (∀ u, e.met = none → e.opc = .seal → s.cur.task e.lsn = some u → u.signing = true ∨ u.signed = true →
        (∀ x ∈ s.cur.ldg.journal, x.lost = false → x ∈ t.cur.ldg.journal) ∧
        t.cur.ldg.journal.getLast?.map (·.met) = some (some (.notAbortable, e.lsn))) ∧
      (e.met = none → e.opc ≠ .read → e.opc ≠ .flush → e.opc ≠ .seal →
        (∀ x ∈ s.cur.ldg.journal, x.lost = false → x ∈ t.cur.ldg.journal) ∧
        t.cur.ldg.journal.getLast?.map (·.met) = some (some (.notAbortable, e.lsn)))

/-- While no commit runs. OPEN_LANE of a FREE lane opens context and lane, length 0, with status OK; of a lane in use it
is LANE_IN_USE, the context FREE, the lanes as before. An APPEND whose fetch has ended completes OK, or VOID with void
bytes, with its offset as RESULT. A READ whose reads have ended delivers the bytes below the first that is lost or
beyond the lane to its window's memory at ADDR and nowhere else, and RESULT counts them: OK or VOID when that is all,
RANGE at the lane's end, UNRECOVERABLE at a lost byte, DEST_FAULT where a write fails or host writes were stopped. A
signed SEAL with its record Settled leaves the context FREE and the lane SEALED, with the lane's length, DEST_FAULT if
its copy failed. A MARK puts its hold in force under its own LSN, or is RANGE or HOLD_LIMIT; a RELEASE removes its
hold, reclaims an ARCHIVED lane that no hold blocks, or is RETAINED or NO_TARGET; a QUERY writes the 64-byte record,
or is RANGE or DEST_FAULT. A failed source of a running fetch adds an LDG_VOID record. (Which lower-LSN records a task
waits for is the model's reading, notes/assumptions/34.md.) Commands that it says to complete, each on the conditions
of its clauses: openLaneComplete, appendComplete, readComplete, sealComplete, markComplete, releaseComplete,
queryComplete, ingestSourceError. -/
def Obligations.TaskCompletions : Prop :=
  (∀ (lsn : Nat) (u : TaskSt) (s : State), s.cur.rsv.committing = false → s.cur.task lsn = some u → u.opc = .openLane →
      s.cur.awaits lsn = true → s.cur.laneWaits u.lane lsn true = false → (s.cur.lane u.lane).state = .free →
      ∃ t, exec (.openLaneComplete lsn) s = .next t
      ∧ (∀ a, (∀ b, s.cur.laneAt (u.lane) = some b → a < b ∨ b + 64 ≤ a) → a < s.cur.shaAddr u.ctx ∨ s.cur.shaAddr u.ctx + Sha.start.bytes.length ≤ a → memGet t.cur.mem a = memGet s.cur.mem a)
      ∧ t.cur.result lsn = some (.ok, 0) ∧ (t.cur.ctx u.ctx).state = .open ∧ (t.cur.lane u.lane).state = .open
      ∧ (t.cur.lane u.lane).openLsn = lsn ∧ (t.cur.lane u.lane).length = 0 ∧ t.cur.ldg.holds = s.cur.ldg.holds ∧ t.vis = s.vis
      ∧ { t.cur with regs := s.cur.regs, mem := s.cur.mem, ldg := s.cur.ldg, stg := s.cur.stg } = s.cur) ∧
  (∀ (lsn : Nat) (u : TaskSt) (s : State), s.cur.rsv.committing = false → s.cur.task lsn = some u → u.opc = .openLane →
      s.cur.awaits lsn = true → s.cur.laneWaits u.lane lsn true = false → (s.cur.lane u.lane).state ≠ .free →
      ∃ t, exec (.openLaneComplete lsn) s = .next t ∧ t.cur.result lsn = some (.laneInUse, 0) ∧ t.cur.ctx u.ctx = {}
      ∧ t.cur.ldg.lanes = s.cur.ldg.lanes ∧ t.cur.ldg.holds = s.cur.ldg.holds ∧ t.vis = s.vis
      ∧ { t.cur with regs := s.cur.regs, ldg := s.cur.ldg } = s.cur) ∧
  (∀ (lsn : Nat) (u : TaskSt) (s : State), s.cur.rsv.committing = false → s.cur.task lsn = some u → u.opc = .append →
      s.cur.awaits lsn = true → u.fetching = false → ∃ t, exec (.appendComplete lsn) s = .next t
      ∧ (t.cur.result lsn = some (if u.voidBytes = 0 then .ok else .void, u.offset)) ∧ t.cur.ldg.lanes = s.cur.ldg.lanes
      ∧ t.cur.ldg.holds = s.cur.ldg.holds ∧ t.vis = s.vis ∧ { t.cur with ldg := s.cur.ldg } = s.cur) ∧
  (∀ (lsn : Nat) (u : TaskSt) (s : State), s.cur.rsv.committing = false → s.cur.task lsn = some u → u.opc = .read →
      s.cur.awaits lsn = true → s.cur.readWaits u = false → u.destStopped = false → s.cur.reading u = false →
      s.cur.goodRead u = u.length → ∃ t, exec (.readComplete lsn none) s = .next t
      ∧ (t.cur.result lsn = some (if (laneBytes s.cur.ldg.store u.lane u.readOffset u.length).2 then .void else .ok, u.length))
      ∧ memRead (t.cur.destOf u) u.addr u.length = (laneBytes s.cur.ldg.store u.lane u.readOffset u.length).1
      ∧ (∀ a, a < u.addr ∨ u.addr + u.length ≤ a → memGet t.cur.mem a = memGet s.cur.mem a)
      ∧ (∀ a, a < u.addr ∨ u.addr + u.length ≤ a → memGet t.cur.host a = memGet s.cur.host a)
      ∧ (s.cur.hostOwned u.window = true → t.cur.mem = s.cur.mem) ∧ (s.cur.hostOwned u.window = false → t.cur.host = s.cur.host)
      ∧ t.cur.ldg.lanes = s.cur.ldg.lanes ∧ t.cur.ldg.holds = s.cur.ldg.holds ∧ t.vis = s.vis
      ∧ { t.cur with regs := s.cur.regs, mem := s.cur.mem, host := s.cur.host, ldg := s.cur.ldg } = s.cur) ∧
  (∀ (lsn : Nat) (u : TaskSt) (s : State), s.cur.rsv.committing = false → s.cur.task lsn = some u → u.opc = .read →
      s.cur.awaits lsn = true → s.cur.readWaits u = false → u.destStopped = false → s.cur.reading u = false →
      s.cur.goodRead u = s.cur.readRange u → s.cur.readRange u < u.length → ∃ t, exec (.readComplete lsn none) s = .next t
      ∧ t.cur.result lsn = some (.range, (s.cur.readRange u))
      ∧ memRead (t.cur.destOf u) u.addr (s.cur.readRange u) = (laneBytes s.cur.ldg.store u.lane u.readOffset (s.cur.readRange u)).1
      ∧ (∀ a, a < u.addr ∨ u.addr + (s.cur.readRange u) ≤ a → memGet t.cur.mem a = memGet s.cur.mem a)
      ∧ (∀ a, a < u.addr ∨ u.addr + (s.cur.readRange u) ≤ a → memGet t.cur.host a = memGet s.cur.host a)
      ∧ (s.cur.hostOwned u.window = true → t.cur.mem = s.cur.mem) ∧ (s.cur.hostOwned u.window = false → t.cur.host = s.cur.host)
      ∧ t.cur.ldg.lanes = s.cur.ldg.lanes ∧ t.cur.ldg.holds = s.cur.ldg.holds ∧ t.vis = s.vis
      ∧ { t.cur with regs := s.cur.regs, mem := s.cur.mem, host := s.cur.host, ldg := s.cur.ldg } = s.cur) ∧
  (∀ (lsn : Nat) (u : TaskSt) (s : State), s.cur.rsv.committing = false → s.cur.task lsn = some u → u.opc = .read →
      s.cur.awaits lsn = true → s.cur.readWaits u = false → u.destStopped = false → s.cur.reading u = false →
      s.cur.goodRead u < s.cur.readRange u → ∃ t, exec (.readComplete lsn none) s = .next t
      ∧ t.cur.result lsn = some (.unrecoverable, (s.cur.goodRead u))
      ∧ memRead (t.cur.destOf u) u.addr (s.cur.goodRead u) = (laneBytes s.cur.ldg.store u.lane u.readOffset (s.cur.goodRead u)).1
      ∧ (∀ a, a < u.addr ∨ u.addr + (s.cur.goodRead u) ≤ a → memGet t.cur.mem a = memGet s.cur.mem a)
      ∧ (∀ a, a < u.addr ∨ u.addr + (s.cur.goodRead u) ≤ a → memGet t.cur.host a = memGet s.cur.host a)
      ∧ (s.cur.hostOwned u.window = true → t.cur.mem = s.cur.mem) ∧ (s.cur.hostOwned u.window = false → t.cur.host = s.cur.host)
      ∧ t.cur.ldg.lanes = s.cur.ldg.lanes ∧ t.cur.ldg.holds = s.cur.ldg.holds ∧ t.vis = s.vis
      ∧ { t.cur with regs := s.cur.regs, mem := s.cur.mem, host := s.cur.host, ldg := s.cur.ldg } = s.cur) ∧
  (∀ (lsn n : Nat) (u : TaskSt) (s : State), s.cur.rsv.committing = false → s.cur.task lsn = some u → u.opc = .read →
      s.cur.awaits lsn = true → s.cur.readWaits u = false → u.destStopped = false → s.cur.reading u = false →
      n < s.cur.goodRead u → ∃ t, exec (.readComplete lsn (some n)) s = .next t ∧ t.cur.result lsn = some (.destFault, n)
      ∧ memRead (t.cur.destOf u) u.addr n = (laneBytes s.cur.ldg.store u.lane u.readOffset n).1
      ∧ (∀ a, a < u.addr ∨ u.addr + n ≤ a → memGet t.cur.mem a = memGet s.cur.mem a)
      ∧ (∀ a, a < u.addr ∨ u.addr + n ≤ a → memGet t.cur.host a = memGet s.cur.host a)
      ∧ (s.cur.hostOwned u.window = true → t.cur.mem = s.cur.mem) ∧ (s.cur.hostOwned u.window = false → t.cur.host = s.cur.host)
      ∧ t.cur.ldg.lanes = s.cur.ldg.lanes ∧ t.cur.ldg.holds = s.cur.ldg.holds ∧ t.vis = s.vis
      ∧ { t.cur with regs := s.cur.regs, mem := s.cur.mem, host := s.cur.host, ldg := s.cur.ldg } = s.cur) ∧
  (∀ (lsn : Nat) (u : TaskSt) (s : State), s.cur.rsv.committing = false → s.cur.task lsn = some u → u.opc = .read →
      s.cur.awaits lsn = true → s.cur.readWaits u = false →
      (s.cur.laneAsOf u.lane u.lsn).state = .free ∨ (s.cur.laneAsOf u.lane u.lsn).state = .reclaiming → 0 < u.length →
      u.destStopped = false → s.cur.reading u = false → ∃ t, exec (.readComplete lsn none) s = .next t
      ∧ t.cur.result lsn = some (.range, 0) ∧ t.cur.mem = s.cur.mem ∧ t.cur.host = s.cur.host ∧ t.vis = s.vis
      ∧ { t.cur with regs := s.cur.regs, mem := s.cur.mem, ldg := s.cur.ldg } = s.cur) ∧
  (∀ (lsn : Nat) (fail : Option Nat) (u : TaskSt) (s : State), s.cur.rsv.committing = false → s.cur.task lsn = some u →
      u.opc = .read → s.cur.awaits lsn = true → s.cur.readWaits u = false → u.destStopped = true → 0 < s.cur.goodRead u →
      ∃ t, exec (.readComplete lsn fail) s = .next t ∧ t.cur.result lsn = some (.destFault, min u.got (s.cur.goodRead u))
      ∧ t.vis = s.vis ∧ { t.cur with regs := s.cur.regs, ldg := s.cur.ldg } = s.cur) ∧
  (∀ (lsn : Nat) (u : TaskSt) (s : State), s.cur.rsv.committing = false → s.cur.task lsn = some u → u.opc = .seal →
      s.cur.awaits lsn = true → u.signed = true → u.settled = true → ∃ t, exec (.sealComplete lsn) s = .next t
      ∧ (∀ a, (∀ b, s.cur.laneAt (u.lane) = some b → a < b ∨ b + 64 ≤ a) → memGet t.cur.mem a = memGet s.cur.mem a)
      ∧ (t.cur.result lsn = some (if u.copyFailed then .destFault else .ok, (s.cur.lane u.lane).length)) ∧ t.cur.ctx u.ctx = {}
      ∧ (t.cur.lane u.lane).state = .sealed ∧ t.cur.ldg.holds = s.cur.ldg.holds ∧ t.vis = s.vis
      ∧ { t.cur with mem := s.cur.mem, ldg := s.cur.ldg } = s.cur) ∧
  (∀ (lsn : Nat) (u : TaskSt) (s : State), s.cur.rsv.committing = false → s.cur.task lsn = some u → u.opc = .mark →
      s.cur.awaits lsn = true → s.cur.laneWaits u.lane lsn true = false → (s.cur.laneAsOf u.lane lsn).state ≠ .free →
      (s.cur.laneAsOf u.lane lsn).state ≠ .reclaiming → s.cur.ldg.holds.length < 16384 →
      ∃ t, exec (.markComplete lsn) s = .next t
      ∧ (∀ a, (∀ b, s.cur.laneAt (u.lane) = some b → a < b ∨ b + 64 ≤ a) → memGet t.cur.mem a = memGet s.cur.mem a)
      ∧ t.cur.result lsn = some (.ok, lsn)
      ∧ t.cur.ldg.holds = s.cur.ldg.holds ++ [⟨u.lsn, u.lane, u.arg0 + bits u.arg1 0 16 * 2 ^ 32, u.length, u.addr, bits u.argb 0 2⟩]
      ∧ t.vis = s.vis ∧ { t.cur with regs := s.cur.regs, mem := s.cur.mem, ldg := s.cur.ldg } = s.cur) ∧
  (∀ (lsn : Nat) (u : TaskSt) (s : State), s.cur.rsv.committing = false → s.cur.task lsn = some u → u.opc = .mark →
      s.cur.awaits lsn = true → s.cur.laneWaits u.lane lsn true = false →
      (s.cur.laneAsOf u.lane lsn).state = .free ∨ (s.cur.laneAsOf u.lane lsn).state = .reclaiming →
      ∃ t, exec (.markComplete lsn) s = .next t ∧ t.cur.result lsn = some (.range, 0) ∧ t.cur.ldg.holds = s.cur.ldg.holds
      ∧ t.vis = s.vis ∧ { t.cur with regs := s.cur.regs, ldg := s.cur.ldg } = s.cur) ∧
  (∀ (lsn : Nat) (u : TaskSt) (h : Hold) (s : State), s.cur.rsv.committing = false → s.cur.task lsn = some u →
      u.opc = .release → s.cur.awaits lsn = true → bit u.flags 2 = false → s.cur.relHold u = some h →
      s.cur.laneWaits h.lane lsn true = false → (s.cur.hostOwned u.window && h.cls != 0) = false →
      ∃ t, exec (.releaseComplete lsn) s = .next t
      ∧ (∀ a, (∀ b, s.cur.laneAt (h.lane) = some b → a < b ∨ b + 64 ≤ a) → memGet t.cur.mem a = memGet s.cur.mem a)
      ∧ t.cur.result lsn = some (.ok, 0) ∧ t.cur.ldg.holds = s.cur.ldg.holds.filter (·.id != h.id) ∧ t.vis = s.vis
      ∧ { t.cur with regs := s.cur.regs, mem := s.cur.mem, ldg := s.cur.ldg } = s.cur) ∧
  (∀ (lsn : Nat) (u : TaskSt) (h : Hold) (s : State), s.cur.rsv.committing = false → s.cur.task lsn = some u →
      u.opc = .release → s.cur.awaits lsn = true → bit u.flags 2 = false → s.cur.relHold u = some h →
      s.cur.laneWaits h.lane lsn true = false → s.cur.hostOwned u.window = true → h.cls ≠ 0 →
      ∃ t, exec (.releaseComplete lsn) s = .next t ∧ t.cur.result lsn = some (.retained, 0) ∧ t.cur.ldg.holds = s.cur.ldg.holds
      ∧ t.cur.ldg.lanes = s.cur.ldg.lanes ∧ t.vis = s.vis ∧ { t.cur with regs := s.cur.regs, ldg := s.cur.ldg } = s.cur) ∧
  (∀ (lsn : Nat) (u : TaskSt) (s : State), s.cur.rsv.committing = false → s.cur.task lsn = some u → u.opc = .release →
      s.cur.awaits lsn = true → bit u.flags 2 = false → s.cur.relHold u = none →
      ((s.cur.ldg.tasks.any fun m => m.opc == .mark && u.names m.lsn && decide (m.lsn < lsn) && !s.cur.isMet m.lsn) = false) →
      ∃ t, exec (.releaseComplete lsn) s = .next t ∧ t.cur.result lsn = some (.noTarget, 0) ∧ t.cur.ldg.holds = s.cur.ldg.holds
      ∧ t.cur.ldg.lanes = s.cur.ldg.lanes ∧ t.vis = s.vis ∧ { t.cur with regs := s.cur.regs, ldg := s.cur.ldg } = s.cur) ∧
  (∀ (lsn : Nat) (u : TaskSt) (s : State), s.cur.rsv.committing = false → s.cur.task lsn = some u → u.opc = .release →
      s.cur.awaits lsn = true → bit u.flags 2 = true → s.cur.laneWaits u.lane lsn true = false →
      s.cur.reclaimable u.lane lsn = true → ∃ t, exec (.releaseComplete lsn) s = .next t
      ∧ (∀ a, (∀ b, s.cur.laneAt (u.lane) = some b → a < b ∨ b + 64 ≤ a) → memGet t.cur.mem a = memGet s.cur.mem a)
      ∧ t.cur.result lsn = some (.ok, 0) ∧ (t.cur.lane u.lane).state = .reclaiming ∧ t.cur.ldg.holds = s.cur.ldg.holds
      ∧ t.vis = s.vis ∧ { t.cur with regs := s.cur.regs, mem := s.cur.mem, ldg := s.cur.ldg } = s.cur) ∧
  (∀ (lsn : Nat) (u : TaskSt) (s : State), s.cur.rsv.committing = false → s.cur.task lsn = some u → u.opc = .release →
      s.cur.awaits lsn = true → bit u.flags 2 = true → s.cur.laneWaits u.lane lsn true = false →
      s.cur.reclaimable u.lane lsn = false → ∃ t, exec (.releaseComplete lsn) s = .next t
      ∧ t.cur.result lsn = some (.retained, 0) ∧ t.cur.ldg.lanes = s.cur.ldg.lanes ∧ t.cur.ldg.holds = s.cur.ldg.holds
      ∧ t.vis = s.vis ∧ { t.cur with regs := s.cur.regs, ldg := s.cur.ldg } = s.cur) ∧
  (∀ (lsn len : Nat) (u : TaskSt) (x : LaneDesc) (s : State), s.cur.rsv.committing = false → s.cur.task lsn = some u →
      u.opc = .query → s.cur.awaits lsn = true → s.cur.laneWaits u.lane lsn false = false → u.destStopped = false →
      x = s.cur.laneAsOf u.lane lsn → x.state ≠ .free → len = min x.length u.lenAt →
      ∃ t, exec (.queryComplete lsn false) s = .next t ∧ t.cur.result lsn = some (.ok, x.state.code)
      ∧ memRead (t.cur.destOf u) u.addr 64 = laneRecord u.lane (s.cur.holdsAsOf u.lane lsn).length { x with archived := min x.archived len } x.state.code len (min len (s.cur.settledLen u.lane)) 0
      ∧ (∀ a, a < u.addr ∨ u.addr + 64 ≤ a → memGet t.cur.mem a = memGet s.cur.mem a)
      ∧ (∀ a, a < u.addr ∨ u.addr + 64 ≤ a → memGet t.cur.host a = memGet s.cur.host a)
      ∧ (s.cur.hostOwned u.window = true → t.cur.mem = s.cur.mem) ∧ (s.cur.hostOwned u.window = false → t.cur.host = s.cur.host)
      ∧ t.vis = s.vis ∧ { t.cur with regs := s.cur.regs, mem := s.cur.mem, ldg := s.cur.ldg } = s.cur) ∧
  (∀ (lsn : Nat) (u : TaskSt) (s : State), s.cur.rsv.committing = false → s.cur.task lsn = some u → u.opc = .query →
      s.cur.awaits lsn = true → s.cur.laneWaits u.lane lsn false = false → u.destStopped = false →
      (s.cur.laneAsOf u.lane lsn).state = .free →
      ((s.cur.ldg.tasks.any fun v => v.opc == .openLane && v.lane == u.lane && v.lsn < lsn && !s.cur.isMet v.lsn) = false) →
      ∃ t, exec (.queryComplete lsn false) s = .next t ∧ t.cur.result lsn = some (.range, 0) ∧ t.vis = s.vis
      ∧ { t.cur with regs := s.cur.regs, mem := s.cur.mem, ldg := s.cur.ldg } = s.cur) ∧
  (∀ (lsn : Nat) (fail : Bool) (u : TaskSt) (s : State), s.cur.rsv.committing = false → s.cur.task lsn = some u →
      u.opc = .query → s.cur.awaits lsn = true → s.cur.laneWaits u.lane lsn false = false → fail = true ∨ u.destStopped = true →
      ∃ t, exec (.queryComplete lsn fail) s = .next t ∧ t.cur.result lsn = some (.destFault, 0) ∧ t.cur.mem = s.cur.mem
      ∧ t.cur.host = s.cur.host ∧ t.vis = s.vis ∧ { t.cur with regs := s.cur.regs, mem := s.cur.mem, ldg := s.cur.ldg } = s.cur) ∧
  (∀ (lsn good : Nat) (u : TaskSt) (s : State), s.cur.rsv.committing = false → s.cur.task lsn = some u → u.opc = .append →
      s.cur.awaits lsn = true → u.fetching = true → ∃ t, exec (.ingestSourceError lsn good) s = .next t
      ∧ t.cur.fj.staged = s.cur.fj.staged ++ [{ gtime := s.cur.gtime48, pgId := pgIdOf pgLdg, code := 0x0101, deg := false, flt := false, data := [u.lane, lsn, lsn / 2 ^ 32, u.length - min good (u.length - 1)].map (· % 2 ^ 32) }]
      ∧ t.cur.ldg.journal = s.cur.ldg.journal ∧ t.cur.ldg.holds = s.cur.ldg.holds ∧ t.vis = s.vis
      ∧ { t.cur with regs := s.cur.regs, mem := s.cur.mem, fj := s.cur.fj, ldg := s.cur.ldg, stg := s.cur.stg } = s.cur)

/-- A posting of one met completion, the only one in the journal, of a window owned by firmware writes the 32-byte entry
at its ring position, marks it posted, counts TW_CQ_PROD and raises POSTED. Consuming n posted entries retires them
and moves TW_CQ_CONS; a value outside the range is an error and changes nothing else. Arming starts a new incarnation
with PROD and CONS at 0 and marks what was posted for re-posting; disarming and each of the four host events clear
ARMED, raise HOST_EVENT and write one LDG_HOST_EVENT record of their kind. A hold that has expired, in a restored
ledger and named by no RELEASE that is still to have its effect, leaves the holds, and its lapse record waits with the
bay of R585 and its place in settlement order. Commands that it says to complete, each on the conditions of its
clauses: completionPosting, twCqConsWrite, ringArm, ringDisarm, functionLevelReset, hotReset, linkLoss, perstAssert,
holdLapse. -/
def Obligations.RingAndHostEvents : Prop :=
  (∀ (w : Fin 64) (e : JEntry) (st : CStat) (res : Nat) (s : State), s.cur.rsv.committing = false → s.cur.ldg.journal = [e] →
      s.cur.ldg.posted = [] → e.lost = false → e.window = w.val → e.posted = false → e.met = some (st, res) →
      s.cur.flag (pgTw w) TW_CQ_CFG_ARMED = true → s.cur.hostOwned w = false → ∃ t, exec (.completionPosting) s = .next t
      ∧ t.cur.ldg.journal = [{ e with posted := true }]
      ∧ t.cur.get (pgTw w) TW_CQ_PROD_PROD = (s.cur.get (pgTw w) TW_CQ_PROD_PROD + 1) % 2 ^ 16
      ∧ t.cur.flag (pgTw w) TW_IRQ_POSTED = true
      ∧ memRead t.cur.mem (s.cur.get64 (pgTw w) TW_CQ_BASE_LO TW_CQ_BASE_HI + s.cur.get (pgTw w) TW_CQ_PROD_PROD % 2 ^ s.cur.get (pgTw w) TW_CQ_CFG_SIZE_LOG2 * 32) 32 = ringEntry e st res (1 - s.cur.get (pgTw w) TW_CQ_PROD_PROD / 2 ^ s.cur.get (pgTw w) TW_CQ_CFG_SIZE_LOG2 % 2) (b2n e.reposted) (s.cur.get (pgTw w) TW_CQ_INC_INC) ((s.cur.gtime + 1) % 2 ^ 48)
      ∧ t.vis = s.vis ∧ { t.cur with regs := s.cur.regs, irqSet := s.cur.irqSet, mem := s.cur.mem, ldg := s.cur.ldg } = s.cur) ∧
  (∀ (w : Fin 64) (r : Requester) (v : BitVec 16) (n : Nat) (s : State), s.cur.mayWrite r w = true →
      (v.toNat + 2 ^ 16 - s.cur.get (pgTw w) TW_CQ_CONS_CONS) % 2 ^ 16 = n →
      n ≤ (s.cur.get (pgTw w) TW_CQ_PROD_PROD + 2 ^ 16 - s.cur.get (pgTw w) TW_CQ_CONS_CONS) % 2 ^ 16 →
      ∃ t, exec (.twCqConsWrite w r v) s = .next t ∧ t.cur.get (pgTw w) TW_CQ_CONS_CONS = v.toNat
      ∧ (t.cur.ldg.journal = s.cur.ldg.journal.filter fun e => !((((s.cur.ldg.journal.filter fun e => e.window == w.val && e.posted).take n).map (·.lsn)).contains e.lsn))
      ∧ t.vis = s.vis ∧ { t.cur with regs := s.cur.regs, ldg := s.cur.ldg } = s.cur
      ∧ (∀ a, a ≠ pgTw w + TW_CQ_CONS.off → t.cur.rd a = s.cur.rd a)) ∧
  (∀ (w : Fin 64) (r : Requester) (v : BitVec 16) (s : State), s.cur.mayWrite r w = true →
      (s.cur.get (pgTw w) TW_CQ_PROD_PROD + 2 ^ 16 - s.cur.get (pgTw w) TW_CQ_CONS_CONS) % 2 ^ 16 < (v.toNat + 2 ^ 16 - s.cur.get (pgTw w) TW_CQ_CONS_CONS) % 2 ^ 16 →
      ∃ t, exec (.twCqConsWrite w r v) s = .next t ∧ t.cur.ldg = s.cur.ldg
      ∧ t.cur = s.cur.err (pgTw w) .consRange TW_CQ_CONS.off r.code (pgTw w + TW_CQ_CONS.off) ∧ t.vis = s.vis
      ∧ { t.cur with regs := s.cur.regs, ldg := s.cur.ldg } = s.cur) ∧
  (∀ (w : Fin 64) (r : Requester) (v : Word) (s : State), s.cur.mayWrite r w = true →
      s.cur.flag (pgTw w) TW_CQ_CFG_ARMED = false → s.cur.outstanding w ≤ 2 ^ clampN 4 12 (bits v.toNat 0 4) →
      ∃ t, exec (.ringArm w r v) s = .next t ∧ t.cur.flag (pgTw w) TW_CQ_CFG_ARMED = true
      ∧ t.cur.get (pgTw w) TW_CQ_INC_INC = (s.cur.get (pgTw w) TW_CQ_INC_INC + 1) % 2 ^ 16
      ∧ t.cur.get (pgTw w) TW_CQ_PROD_PROD = 0 ∧ t.cur.get (pgTw w) TW_CQ_CONS_CONS = 0
      ∧ t.cur.ringSize w = 2 ^ clampN 4 12 (bits v.toNat 0 4) ∧ t.cur.quota w = clampN 1 4096 (bits v.toNat 16 13)
      ∧ (t.cur.ldg.journal = s.cur.ldg.journal.map fun e => if e.window == w.val then { e with posted := false, reposted := e.posted || e.reposted } else e)
      ∧ t.vis = s.vis ∧ { t.cur with regs := s.cur.regs, ldg := s.cur.ldg } = s.cur) ∧
  (∀ (w : Fin 64) (r : Requester) (v : Word) (s : State), s.cur.mayWrite r w = true →
      s.cur.flag (pgTw w) TW_CQ_CFG_ARMED = true → ∃ t, exec (.ringDisarm w r v) s = .next t
      ∧ t.cur.flag (pgTw w) TW_CQ_CFG_ARMED = false ∧ t.cur.flag pgLdg LDG_IRQ_HOST_EVENT = true
      ∧ t.cur.fj.staged.length = s.cur.fj.staged.length + 1
      ∧ (t.cur.fj.staged.getLast?.map (fun x => (x.pgId, x.code, x.data)) = some (pgIdOf pgLdg, 0x0102, [5, 2 ^ w.val % 2 ^ 32, 2 ^ w.val / 2 ^ 32, s.cur.outstanding w % 2 ^ 32]))
      ∧ t.cur.get (pgTw w) TW_CQ_CFG_SIZE_LOG2 = s.cur.get (pgTw w) TW_CQ_CFG_SIZE_LOG2 ∧ t.vis = s.vis
      ∧ { t.cur with regs := s.cur.regs, irqSet := s.cur.irqSet, fj := s.cur.fj } = s.cur) ∧
  (∀ (goods : List (Nat × Nat)) (s : State), s.cur.flag pgPcie PCIE_STAT_DL_UP = true →
      ∃ t, exec (.functionLevelReset goods) s = .next t
      ∧ (∀ w, w < 64 → s.cur.hostOwned w = true → t.cur.flag (pgTw w) TW_CQ_CFG_ARMED = false)
      ∧ (∀ w, w < 64 → s.cur.hostOwned w = false → t.cur.flag (pgTw w) TW_CQ_CFG_ARMED = s.cur.flag (pgTw w) TW_CQ_CFG_ARMED)
      ∧ t.cur.ldg.hostEventNow = true ∧ t.cur.ldg.journal = s.cur.ldg.journal ∧ t.cur.flag pgLdg LDG_IRQ_HOST_EVENT = true
      ∧ (t.cur.fj.staged.getLast?.map (fun x => (x.pgId, x.code, x.data.head?)) = some (pgIdOf pgLdg, 0x0102, some 1))
      ∧ t.vis = s.vis
      ∧ { t.cur with regs := s.cur.regs, irqSet := s.cur.irqSet, mem := s.cur.mem, host := s.cur.host, fresh := s.cur.fresh, fj := s.cur.fj, ldg := s.cur.ldg, stg := s.cur.stg, lnk := s.cur.lnk } = s.cur) ∧
  (∀ (goods : List (Nat × Nat)) (s : State), s.cur.flag pgPcie PCIE_STAT_DL_UP = true → ∃ t, exec (.hotReset goods) s = .next t
      ∧ (∀ w, w < 64 → s.cur.hostOwned w = true → t.cur.flag (pgTw w) TW_CQ_CFG_ARMED = false)
      ∧ (∀ w, w < 64 → s.cur.hostOwned w = false → t.cur.flag (pgTw w) TW_CQ_CFG_ARMED = s.cur.flag (pgTw w) TW_CQ_CFG_ARMED)
      ∧ t.cur.ldg.hostEventNow = true ∧ t.cur.ldg.journal = s.cur.ldg.journal ∧ t.cur.flag pgLdg LDG_IRQ_HOST_EVENT = true
      ∧ (t.cur.fj.staged.getLast?.map (fun x => (x.pgId, x.code, x.data.head?)) = some (pgIdOf pgLdg, 0x0102, some 2))
      ∧ t.vis = s.vis
      ∧ { t.cur with regs := s.cur.regs, irqSet := s.cur.irqSet, mem := s.cur.mem, host := s.cur.host, fresh := s.cur.fresh, fj := s.cur.fj, ldg := s.cur.ldg, stg := s.cur.stg, lnk := s.cur.lnk } = s.cur) ∧
  (∀ (goods : List (Nat × Nat)) (s : State), s.cur.flag pgPcie PCIE_STAT_DL_UP = true → ∃ t, exec (.linkLoss goods) s = .next t
      ∧ (∀ w, w < 64 → s.cur.hostOwned w = true → t.cur.flag (pgTw w) TW_CQ_CFG_ARMED = false)
      ∧ (∀ w, w < 64 → s.cur.hostOwned w = false → t.cur.flag (pgTw w) TW_CQ_CFG_ARMED = s.cur.flag (pgTw w) TW_CQ_CFG_ARMED)
      ∧ t.cur.ldg.hostEventNow = true ∧ t.cur.ldg.journal = s.cur.ldg.journal ∧ t.cur.flag pgLdg LDG_IRQ_HOST_EVENT = true
      ∧ (t.cur.fj.staged.getLast?.map (fun x => (x.pgId, x.code, x.data.head?)) = some (pgIdOf pgLdg, 0x0102, some 3))
      ∧ t.vis = s.vis
      ∧ { t.cur with regs := s.cur.regs, irqSet := s.cur.irqSet, mem := s.cur.mem, host := s.cur.host, fresh := s.cur.fresh, fj := s.cur.fj, ldg := s.cur.ldg, stg := s.cur.stg, lnk := s.cur.lnk } = s.cur) ∧
  (∀ (goods : List (Nat × Nat)) (s : State), s.cur.flag pgPcie PCIE_STAT_PERST = false → s.cur.lnk.eventNow = 0 →
      ∃ t, exec (.perstAssert goods) s = .next t
      ∧ (∀ w, w < 64 → s.cur.hostOwned w = true → t.cur.flag (pgTw w) TW_CQ_CFG_ARMED = false)
      ∧ (∀ w, w < 64 → s.cur.hostOwned w = false → t.cur.flag (pgTw w) TW_CQ_CFG_ARMED = s.cur.flag (pgTw w) TW_CQ_CFG_ARMED)
      ∧ t.cur.ldg.hostEventNow = true ∧ t.cur.ldg.journal = s.cur.ldg.journal ∧ t.cur.flag pgLdg LDG_IRQ_HOST_EVENT = true
      ∧ (t.cur.fj.staged.getLast?.map (fun x => (x.pgId, x.code, x.data.head?)) = some (pgIdOf pgLdg, 0x0102, some 4))
      ∧ t.vis = s.vis
      ∧ { t.cur with regs := s.cur.regs, irqSet := s.cur.irqSet, mem := s.cur.mem, host := s.cur.host, fresh := s.cur.fresh, fj := s.cur.fj, ldg := s.cur.ldg, stg := s.cur.stg, lnk := s.cur.lnk } = s.cur) ∧
  (∀ (id : Nat) (h : Hold) (s : State), s.cur.rsv.committing = false → s.cur.ldg.holds.find? (·.id == id) = some h →
      h.expiry ≠ 0 → h.expiry ≤ s.cur.gtime → ((s.cur.ldg.tasks.any fun u => u.names id && !s.cur.isMet u.lsn) = false) →
      s.cur.flag pgLdg LDG_STAT_RESTORED = true → ∃ t, exec (.holdLapse id) s = .next t
      ∧ (∀ a, (∀ b, s.cur.laneAt (h.lane) = some b → a < b ∨ b + 64 ≤ a) → memGet t.cur.mem a = memGet s.cur.mem a)
      ∧ t.cur.ldg.holds = s.cur.ldg.holds.filter (·.id != id)
      ∧ t.cur.ldg.background = s.cur.ldg.background ++ [{ kind := .lapse h s.cur.gtime48, lane := h.lane, bay := s.vis.bestBay, behind := s.cur.ldg.nextLsn - 1 }]
      ∧ t.cur.ldg.journal = s.cur.ldg.journal ∧ t.cur.ldg.tasks = s.cur.ldg.tasks ∧ t.vis = s.vis
      ∧ { t.cur with mem := s.cur.mem, ldg := s.cur.ldg } = s.cur)

/-- A write to a busy window is an error and changes nothing else. ACTIVATE starts the drain, which ends when every
accepted task is met and settled and raises QUIESCED; its end is taken at the edge. ACCEPT_EN is set when the ledger
is restored and its regions are placed, and is ignored before the restore, an error before the placing. With no commit
in a bay that can be read the restore of an empty ledger leaves it empty, the counter at 1 and the limit at 2^20; a
restore with a commit first makes its bays recovering, and then takes from a good, unreplayed copy the counter, the
journal as a restart posts it again, and its sequence number. Reads of the low halves latch the high halves. (How a
restart without a readable commit starts and what its report carries is the model's choice, notes/assumptions/48.md.)
Commands that it says to complete, each on the conditions of its clauses: doorbellBusyWrite, activateSet,
activationQuiesced, activateClear, acceptEnWrite, ledgerRestore, ldgNextLsnLoRead, ldgLsnLimitLoRead. -/
def Obligations.LedgerControl : Prop :=
  (∀ (w : Fin 64) (r : Requester) (off : Fin 9) (s : State), s.cur.mayWrite r w = true → Dev.isPending s.vis s.cur w = true →
      ∃ t, exec (.doorbellBusyWrite w r off) s = .next t
      ∧ t.cur = s.cur.err (pgTw w) .doorbellBusy (TW_D.off + 4 * off.val) r.code (pgTw w + (TW_D.off + 4 * off.val))
      ∧ t.vis = s.vis ∧ { t.cur with regs := s.cur.regs } = s.cur) ∧
  (∀ (s : State), s.cur.flag pgLdg LDG_CTL_ACTIVATE = false → ∃ t, exec (.activateSet) s = .next t
      ∧ t.cur.flag pgLdg LDG_CTL_ACTIVATE = true ∧ t.cur.flag pgLdg LDG_STAT_DRAINING = true
      ∧ t.cur.flag pgLdg LDG_STAT_ACCEPTING = false ∧ t.vis = s.vis ∧ { t.cur with regs := s.cur.regs } = s.cur
      ∧ (∀ a, a ≠ pgLdg + LDG_CTL.off → a ≠ pgLdg + LDG_STAT.off → t.cur.rd a = s.cur.rd a)) ∧
  (∀ (s : State), s.cur.rsv.committing = false → s.cur.flag pgLdg LDG_STAT_DRAINING = true →
      s.cur.ldg.journal.all (·.met.isSome) = true → s.cur.ldg.tasks.all (·.settled) = true →
      ∃ t, exec (.activationQuiesced) s = .next t ∧ t.cur.flag pgLdg LDG_STAT_DRAINING = false
      ∧ t.cur.flag pgLdg LDG_STAT_QUIESCED = true ∧ t.cur.flag pgLdg LDG_IRQ_QUIESCED = true ∧ t.vis = s.vis
      ∧ { t.cur with regs := s.cur.regs, irqSet := s.cur.irqSet } = s.cur
      ∧ (∀ a, a ≠ pgLdg + LDG_STAT.off → a ≠ pgLdg + PG_IRQ_RAW.off → t.cur.rd a = s.cur.rd a)) ∧
  (∀ (s : State), ∃ t, exec (.activateClear) s = .next t ∧ t.cur.flag pgLdg LDG_STAT_QUIESCED = false
      ∧ t.cur.ldg = { s.cur.ldg with activateClear := true } ∧ t.vis = s.vis
      ∧ { t.cur with regs := s.cur.regs, ldg := s.cur.ldg } = s.cur ∧ (∀ a, a ≠ pgLdg + LDG_STAT.off → t.cur.rd a = s.cur.rd a)) ∧
  (∀ (r : Requester) (s : State), s.vis.placed = true → s.cur.flag pgLdg LDG_STAT_RESTORED = true →
      ∃ t, exec (.acceptEnWrite r true) s = .next t ∧ t.cur.flag pgLdg LDG_CTL_ACCEPT_EN = true ∧ t.vis = s.vis
      ∧ { t.cur with regs := s.cur.regs } = s.cur
      ∧ (∀ a, a ≠ pgLdg + LDG_CTL.off → a ≠ pgLdg + LDG_STAT.off → t.cur.rd a = s.cur.rd a)) ∧
  (∀ (r : Requester) (s : State), s.vis.placed = true → s.cur.flag pgLdg LDG_STAT_RESTORED = false →
      ∃ t, exec (.acceptEnWrite r true) s = .next t ∧ t.cur = s.cur ∧ t.vis = s.vis ∧ { t.cur with regs := s.cur.regs } = s.cur) ∧
  (∀ (r : Requester) (s : State), ∃ t, exec (.acceptEnWrite r false) s = .next t ∧ t.cur.flag pgLdg LDG_CTL_ACCEPT_EN = false
      ∧ t.cur.flag pgLdg LDG_STAT_ACCEPTING = false ∧ t.vis = s.vis ∧ { t.cur with regs := s.cur.regs } = s.cur
      ∧ (∀ a, a ≠ pgLdg + LDG_CTL.off → a ≠ pgLdg + LDG_STAT.off → t.cur.rd a = s.cur.rd a)) ∧
  (∀ (r : Requester) (s : State), s.vis.placed = false → ∃ t, exec (.acceptEnWrite r true) s = .next t
      ∧ t.cur = s.cur.errAt pgLdg LDG_CTL .cfgRange r ∧ t.vis = s.vis ∧ { t.cur with regs := s.cur.regs } = s.cur) ∧
  (∀ (corrupt : List (Nat × Nat)) (lost fails : List Nat) (s : State), s.cur.flag pgLdg LDG_STAT_RESTORED = false →
      s.vis.placed = true → s.vis.restoreWaits = false → s.cur.restoreWaits = false → s.cur.rsv.committing = false →
      s.cur.foundCopies = [] → s.cur.ldg.tasks = [] → s.cur.ldg.journal = [] →
      ∃ t, exec (.ledgerRestore corrupt lost fails) s = .next t ∧ t.cur.ldg.nextLsn = 1 ∧ t.cur.ldg.limit = 2 ^ 20
      ∧ t.cur.rsv.flashLimit = 2 ^ 20 ∧ t.cur.ldg.journal = [] ∧ t.cur.ldg.tasks = []
      ∧ t.cur.flag pgLdg LDG_STAT_RESTORED = true ∧ t.cur.flag pgLdg PG_STAT_READY = true ∧ t.vis = s.vis) ∧
  (∀ (corrupt : List (Nat × Nat)) (lost fails : List Nat) (s : State), s.cur.flag pgLdg LDG_STAT_RESTORED = false →
      s.vis.placed = true → s.vis.restoreWaits = false → s.cur.restoreWaits = false → s.cur.rsv.committing = false →
      (((replayBays s.cur.foundCopies (restoreSeq s.cur.foundCopies corrupt)).any fun b => !(s.vis.bay b).recovering) = true) →
      ∃ t, exec (.ledgerRestore corrupt lost fails) s = .next t
      ∧ (∀ b, b < 4 → (t.cur.bay b).recovering = ((s.cur.bay b).recovering || (replayBays s.cur.foundCopies (restoreSeq s.cur.foundCopies corrupt)).contains b))
      ∧ t.cur.ldg = s.cur.ldg ∧ t.cur.regs = s.cur.regs ∧ t.cur.rsv = s.cur.rsv ∧ t.vis = s.vis) ∧
  (∀ (lost fails : List Nat) (c : Commit) (s : State), s.cur.flag pgLdg LDG_STAT_RESTORED = false → s.vis.placed = true →
      s.vis.restoreWaits = false → s.cur.restoreWaits = false → s.cur.rsv.committing = false → s.cur.foundCopies = [c] →
      s.cur.rsv.commits = [c] → c.good = true → c.replayed = false → c.orderly = false → c.bay < 4 →
      (s.vis.bay c.bay).recovering = true → ∃ t, exec (.ledgerRestore [] lost fails) s = .next t ∧ t.cur.ldg.nextLsn = c.nextLsn
      ∧ (c.tasks = [] → c.items = [] → t.cur.ldg.journal = (restoredJournal c.journal).filter fun e => !(e.lost && e.met.isSome))
      ∧ t.cur.flag pgLdg LDG_STAT_RESTORED = true ∧ t.cur.get64 pgRsv RSV_COMMIT_SEQ_LO RSV_COMMIT_SEQ_HI = c.seq % 2 ^ 64
      ∧ (t.cur.bay c.bay).recovering = false ∧ t.vis = s.vis) ∧
  (∀ (r : Requester) (s : State), ∃ t, exec (.ldgNextLsnLoRead r) s = .next t
      ∧ t.vis.bus = { rdata := BitVec.ofNat 32 s.vis.ldg.nextLsn, error := false }
      ∧ t.vis.readWord r (pgLdg + LDG_NEXT_LSN_HI.off) = BitVec.ofNat 32 (s.vis.ldg.nextLsn / 2 ^ 32)
      ∧ { t.vis with tb := s.vis.tb, bus := s.vis.bus } = s.vis ∧ { t.cur with tb := s.cur.tb, bus := s.cur.bus } = s.cur) ∧
  (∀ (r : Requester) (s : State), ∃ t, exec (.ldgLsnLimitLoRead r) s = .next t
      ∧ t.vis.bus = { rdata := BitVec.ofNat 32 s.vis.ldg.limit, error := false }
      ∧ t.vis.readWord r (pgLdg + LDG_LSN_LIMIT_HI.off) = BitVec.ofNat 32 (s.vis.ldg.limit / 2 ^ 32)
      ∧ { t.vis with tb := s.vis.tb, bus := s.vis.bus } = s.vis ∧ { t.cur with tb := s.cur.tb, bus := s.cur.bus } = s.cur)

/-- MEAS_GO requests a measurement; it starts at a Stone edge with STABLE and enough headroom and drives HOLD_CHG_EN low.
A result counts once its Grains have passed. One with V0 not above V3, a C below C_MIN_UF or an ESR above ESR_MAX_MOHM
is a failure: the values in use stay, MEAS_FAILS counts, MEAS_FAIL is raised and an RSV_MEAS record is written, and
the third in a row leaves C at 0. A good first result is adopted without confirmation. Later a C that is worse or
equal is adopted and its candidate dropped; a better one without a candidate becomes the candidate; with one the lower
of the two is adopted. In every state without a main-supply loss, with a C value in use, a good VHOLD sampler and no
derating waiting, the recompute gives AVAIL by the formula of the chapter, BELOW_MIN and DEFICIT by comparison, and an
RSV_DEFICIT record only when DEFICIT rises. (The ESR 0 of a V2 below V1, and the cut of C to 32 bits, are the model's
choice, notes/assumptions/43.md.) Commands that it says to complete, each on the conditions of its clauses: measGo,
measPeriodExpiry, measStart, measResult. -/
def Obligations.BankMeasurement : Prop :=
  (∀ (d : Dev) (vf e a : Nat), d.flag pgRsv RSV_STAT_PF = false → d.flag pgRsv RSV_STAT_VALID = true → d.vholdBad = false →
    d.cal.derate = none →
    vf = d.get pgRsv RSV_FLOOR_V_FLOOR_MV + d.get pgRsv RSV_FLOOR_I_FLOOR_MA * d.get pgBank BANK_ESR_ESR_MOHM / 1000 →
    e = (if d.get pgBank BANK_V_VHOLD_MIN_MV ≤ vf then 0
      else d.get pgBank BANK_C * (d.get pgBank BANK_V_VHOLD_MIN_MV ^ 2 - vf ^ 2) / 2000000000) →
    a = min (e * min 1000 (d.get pgRsv RSV_FACTORS_ETA_PM) / 1000 * min 1000 (d.get pgRsv RSV_FACTORS_DERATE_PM) / 1000)
      0xFFFFFFFF →
    d.recompute.get pgRsv RSV_AVAIL = a ∧
      d.recompute.flag pgRsv RSV_STAT_BELOW_MIN = decide (a < d.get pgRsv RSV_E_FIXED +
        d.get pgRsv RSV_MIN_MIN_CW * d.get pgRsv RSV_E_UNIT_E_CW) ∧
      d.recompute.flag pgRsv RSV_STAT_DEFICIT = decide (a < d.promised) ∧
      d.recompute.flag pgFsch FSCH_STAT_URGENT = decide (a < d.promised) ∧
      d.recompute.fj.staged = d.fj.staged ++
        (if a < d.promised ∧ d.flag pgRsv RSV_STAT_DEFICIT = false then
          [{ gtime := d.gtime48, pgId := pgIdOf pgRsv, code := 0x0202, deg := false, flt := false,
             data := [a % 2 ^ 32, d.promised % 2 ^ 32] }]
        else [])) ∧
  (∀ (s : State), ∃ t, exec (.measGo) s = .next t ∧ t.cur.rsv.measRequest = true ∧ t.cur.flag pgBank BANK_CTL_MEAS_GO = true
      ∧ t.vis = s.vis ∧ { t.cur with regs := s.cur.regs, rsv := s.cur.rsv } = s.cur
      ∧ (∀ a, a ≠ pgBank + BANK_CTL.off → t.cur.rd a = s.cur.rd a)) ∧
  (∀ (s : State), s.cur.flag pgBank BANK_CTL_MEAS_AUTO = true →
      max 1 (s.cur.get pgBank BANK_MEAS_CFG_PERIOD_STONES) ≤ s.cur.rsv.periodStones → ∃ t, exec (.measPeriodExpiry) s = .next t
      ∧ t.cur.rsv = { s.cur.rsv with measRequest := true, periodStones := 0 } ∧ t.vis = s.vis
      ∧ { t.cur with rsv := s.cur.rsv } = s.cur) ∧
  (∀ (s : State), Dev.measMayStart s.vis s.cur = true → ∃ t, exec (.measStart) s = .next t
      ∧ t.cur.flag pgBank BANK_STAT_MEAS_BUSY = true ∧ t.cur.flag pgBank BANK_CTL_MEAS_GO = false ∧ t.cur.holdChgEn = false
      ∧ t.cur.rsv = { s.cur.rsv with measRequest := false, mustMeasure := false, measStart := s.cur.gtime } ∧ t.vis = s.vis
      ∧ { t.cur with regs := s.cur.regs, rsv := s.cur.rsv } = s.cur
      ∧ (∀ a, a ≠ pgBank + BANK_STAT.off → a ≠ pgBank + BANK_CTL.off → t.cur.rd a = s.cur.rd a)) ∧
  (∀ (v0 v1 v2 v3 : Nat) (s : State), s.cur.flag pgBank BANK_STAT_MEAS_BUSY = true →
      s.cur.rsv.measStart + s.cur.measGrains ≤ s.cur.gtime →
      v0 ≤ v3 ∨ capOf s.cur.pulseMa s.cur.pulseGrains (v0 - v3) < s.cur.get pgBank BANK_PLAUS_C_MIN_UF * 1000 ∨ s.cur.get pgBank BANK_PLAUS_ESR_MAX_MOHM < min 0xFFFF ((v2 - v1) / s.cur.pulseMa) →
      ∃ t, exec (.measResult v0 v1 v2 v3) s = .next t ∧ t.cur.flag pgBank BANK_STAT_MEAS_BUSY = false
      ∧ t.cur.get pgBank BANK_ESR_MEAS_FAILS = min 3 (s.cur.get pgBank BANK_ESR_MEAS_FAILS + 1)
      ∧ t.cur.flag pgBank BANK_IRQ_MEAS_DONE = true ∧ t.cur.flag pgBank BANK_IRQ_MEAS_FAIL = true ∧ t.cur.rsv = s.cur.rsv
      ∧ (t.cur.get pgBank BANK_C = if 2 ≤ s.cur.get pgBank BANK_ESR_MEAS_FAILS then 0 else s.cur.get pgBank BANK_C)
      ∧ t.cur.fj.staged = s.cur.fj.staged ++ [{ gtime := s.cur.gtime48, pgId := pgIdOf pgBank, code := 0x0201, deg := false, flt := false, data := [] }]
      ∧ t.vis = s.vis ∧ { t.cur with regs := s.cur.regs, irqSet := s.cur.irqSet, fj := s.cur.fj, rsv := s.cur.rsv } = s.cur
      ∧ (∀ a, a ≠ pgBank + BANK_STAT.off → a ≠ pgBank + BANK_ESR.off → a ≠ pgBank + BANK_C.off → a ≠ pgBank + PG_IRQ_RAW.off → t.cur.rd a = s.cur.rd a)) ∧
  (∀ (v0 v1 v2 v3 c e : Nat) (s : State), s.cur.flag pgBank BANK_STAT_MEAS_BUSY = true →
      s.cur.rsv.measStart + s.cur.measGrains ≤ s.cur.gtime → v3 < v0 → capOf s.cur.pulseMa s.cur.pulseGrains (v0 - v3) = c →
      min 0xFFFF ((v2 - v1) / s.cur.pulseMa) = e → s.cur.get pgBank BANK_PLAUS_C_MIN_UF * 1000 ≤ c →
      e ≤ s.cur.get pgBank BANK_PLAUS_ESR_MAX_MOHM → s.cur.flag pgRsv RSV_STAT_VALID = false →
      ∃ t, exec (.measResult v0 v1 v2 v3) s = .next t ∧ t.cur.get pgBank BANK_ESR_MEAS_FAILS = 0
      ∧ t.cur.flag pgBank BANK_IRQ_MEAS_DONE = true ∧ t.cur.fj = s.cur.fj ∧ t.cur.get pgBank BANK_C = s.cur.get pgBank BANK_C
      ∧ t.cur.rsv = { s.cur.rsv with adoptC := some c, adoptEsr := some e, candC := none, candEsr := none } ∧ t.vis = s.vis
      ∧ { t.cur with regs := s.cur.regs, irqSet := s.cur.irqSet, fj := s.cur.fj, rsv := s.cur.rsv } = s.cur) ∧
  (∀ (v0 v1 v2 v3 c e : Nat) (s : State), s.cur.flag pgBank BANK_STAT_MEAS_BUSY = true →
      s.cur.rsv.measStart + s.cur.measGrains ≤ s.cur.gtime → v3 < v0 → capOf s.cur.pulseMa s.cur.pulseGrains (v0 - v3) = c →
      min 0xFFFF ((v2 - v1) / s.cur.pulseMa) = e → s.cur.get pgBank BANK_PLAUS_C_MIN_UF * 1000 ≤ c →
      e ≤ s.cur.get pgBank BANK_PLAUS_ESR_MAX_MOHM → s.cur.flag pgRsv RSV_STAT_VALID = true → s.cur.get pgBank BANK_C ≠ 0 →
      c ≤ s.cur.get pgBank BANK_C → s.cur.get pgBank BANK_ESR_ESR_MOHM ≤ e → ∃ t, exec (.measResult v0 v1 v2 v3) s = .next t
      ∧ t.cur.get pgBank BANK_ESR_MEAS_FAILS = 0 ∧ t.cur.flag pgBank BANK_IRQ_MEAS_DONE = true ∧ t.cur.fj = s.cur.fj
      ∧ t.cur.get pgBank BANK_C = s.cur.get pgBank BANK_C
      ∧ t.cur.rsv = { s.cur.rsv with adoptC := some c, candC := none, adoptEsr := some e, candEsr := none } ∧ t.vis = s.vis
      ∧ { t.cur with regs := s.cur.regs, irqSet := s.cur.irqSet, fj := s.cur.fj, rsv := s.cur.rsv } = s.cur) ∧
  (∀ (v0 v1 v2 v3 c e : Nat) (s : State), s.cur.flag pgBank BANK_STAT_MEAS_BUSY = true →
      s.cur.rsv.measStart + s.cur.measGrains ≤ s.cur.gtime → v3 < v0 → capOf s.cur.pulseMa s.cur.pulseGrains (v0 - v3) = c →
      min 0xFFFF ((v2 - v1) / s.cur.pulseMa) = e → s.cur.get pgBank BANK_PLAUS_C_MIN_UF * 1000 ≤ c →
      e ≤ s.cur.get pgBank BANK_PLAUS_ESR_MAX_MOHM → s.cur.flag pgRsv RSV_STAT_VALID = true → s.cur.get pgBank BANK_C ≠ 0 →
      s.cur.get pgBank BANK_C < c → s.cur.rsv.candC = none → ∃ t, exec (.measResult v0 v1 v2 v3) s = .next t
      ∧ t.cur.get pgBank BANK_ESR_MEAS_FAILS = 0 ∧ t.cur.flag pgBank BANK_IRQ_MEAS_DONE = true ∧ t.cur.fj = s.cur.fj
      ∧ t.cur.get pgBank BANK_C = s.cur.get pgBank BANK_C ∧ t.cur.rsv.candC = some c ∧ t.cur.rsv.adoptC = none ∧ t.vis = s.vis
      ∧ { t.cur with regs := s.cur.regs, irqSet := s.cur.irqSet, fj := s.cur.fj, rsv := s.cur.rsv } = s.cur) ∧
  (∀ (v0 v1 v2 v3 c e k : Nat) (s : State), s.cur.flag pgBank BANK_STAT_MEAS_BUSY = true →
      s.cur.rsv.measStart + s.cur.measGrains ≤ s.cur.gtime → v3 < v0 → capOf s.cur.pulseMa s.cur.pulseGrains (v0 - v3) = c →
      min 0xFFFF ((v2 - v1) / s.cur.pulseMa) = e → s.cur.get pgBank BANK_PLAUS_C_MIN_UF * 1000 ≤ c →
      e ≤ s.cur.get pgBank BANK_PLAUS_ESR_MAX_MOHM → s.cur.flag pgRsv RSV_STAT_VALID = true → s.cur.get pgBank BANK_C ≠ 0 →
      s.cur.get pgBank BANK_C < c → s.cur.rsv.candC = some k → ∃ t, exec (.measResult v0 v1 v2 v3) s = .next t
      ∧ t.cur.get pgBank BANK_ESR_MEAS_FAILS = 0 ∧ t.cur.flag pgBank BANK_IRQ_MEAS_DONE = true ∧ t.cur.fj = s.cur.fj
      ∧ t.cur.get pgBank BANK_C = s.cur.get pgBank BANK_C ∧ t.cur.rsv.candC = none ∧ t.cur.rsv.adoptC = some (min k c)
      ∧ t.vis = s.vis ∧ { t.cur with regs := s.cur.regs, irqSet := s.cur.irqSet, fj := s.cur.fj, rsv := s.cur.rsv } = s.cur)

/-- The line asserts when VMOT has been below VMOT_FAIL_MV for DEBOUNCE_US outside OFF, and switches the sink off. Its
capture in a running device sets PF, ends acceptance and gives up a signing; with no fetch running, journal, contexts,
lanes and holds stand. The commit begins once, with a copy in every bay that is writable for what is Held, under the
next sequence number and with the counter of LSNs, HOLD_CHG_EN low; before the restore it writes no copy. A close
record closes its bay's copy, or fails it where two elements of a row failed; the floor voltage fails every copy that
is open. When no copy is open the end is a power-on reset with VMOT back, OFF without, and both keep GTIME, and the
reset the host's memory, the always-on SRAM and as many commits. (Which bay's copy takes an item is the model's
reading, notes/assumptions/45.md.) Commands that it says to complete, each on the conditions of its clauses:
powerFailAssert, supplyLossCapture, commitSequence, closeRecordWrite, commitFloorReached, commitEnd,
rsvCommitSeqLoRead. -/
def Obligations.PowerLossCommit : Prop :=
  (∀ (mv us : Nat) (s : State), s.cur.rsv.pfLine = false → s.cur.pwr.phase ≠ .off →
      mv < s.cur.get pgBank BANK_PF_CFG_VMOT_FAIL_MV → s.cur.get pgBank BANK_PF_CFG_DEBOUNCE_US ≤ us →
      ∃ t, exec (.powerFailAssert mv us) s = .next t ∧ t.cur.rsv = { s.cur.rsv with pfLine := true }
      ∧ t.cur.flag pgBank BANK_STAT_PF_LINE = true ∧ t.cur.flag pgBank BANK_STAT_MEAS_BUSY = false
      ∧ { t.cur with regs := s.cur.regs, rsv := s.cur.rsv } = s.cur
      ∧ (∀ a, a ≠ pgBank + BANK_STAT.off → t.cur.rd a = s.cur.rd a)) ∧
  (∀ (goods : List (Nat × Nat)) (s : State), s.cur.rsv.pfLine = true → s.cur.flag pgRsv RSV_STAT_PF = false →
      s.cur.clockOn = true → s.cur.pwr.lossWake = false → (∀ u ∈ s.cur.ldg.tasks, u.opc ≠ .append ∨ u.fetching = false) →
      ∃ t, exec (.supplyLossCapture goods) s = .next t ∧ t.cur.flag pgRsv RSV_STAT_PF = true
      ∧ t.cur.flag pgLdg LDG_STAT_ACCEPTING = false
      ∧ t.cur.rsv = { s.cur.rsv with lossGrain := some s.cur.gtime, measRequest := false }
      ∧ t.cur.ldg = { s.cur.ldg with tasks := t.cur.ldg.tasks } ∧ (∀ u ∈ t.cur.ldg.tasks, u.signing = false)
      ∧ t.cur.stg = { s.cur.stg with signing := none } ∧ t.vis = s.vis) ∧
  (∀ (s : State), s.cur.flag pgRsv RSV_STAT_PF = true → s.cur.rsv.committing = false →
      s.cur.flag pgLdg LDG_STAT_RESTORED = true → ∃ t, exec (.commitSequence) s = .next t ∧ t.cur.rsv.committing = true
      ∧ t.cur.holdChgEn = false ∧ t.cur.ldg = { s.cur.ldg with tasks := t.cur.ldg.tasks, voidsDue := [] }
      ∧ t.cur.flag pgFsch FSCH_STAT_COMMIT = true
      ∧ (∀ b, b < 4 → s.cur.bayDrains b = true → (t.cur.rsv.commits.any fun c => c.bay == b && c.seq == s.cur.rsv.commitSeq + 1 && !c.closed && c.nextLsn == s.cur.ldg.nextLsn) = true)
      ∧ t.vis = s.vis) ∧
  (∀ (s : State), s.cur.flag pgRsv RSV_STAT_PF = true → s.cur.rsv.committing = false →
      s.cur.flag pgLdg LDG_STAT_RESTORED = false → ∃ t, exec (.commitSequence) s = .next t
      ∧ t.cur.rsv = { s.cur.rsv with committing := true } ∧ t.cur.holdChgEn = false ∧ t.cur.flag pgFsch FSCH_STAT_COMMIT = true
      ∧ t.vis = s.vis) ∧
  (∀ (s : State), s.cur.flag pgRsv RSV_STAT_PF = false → ∃ t, exec (.commitSequence) s = .next t ∧ t.cur = s.cur ∧ t.vis = s.vis) ∧
  (∀ (b : Fin 4) (mv : BitVec 16) (fails : List (Nat × Nat)) (c : Commit) (s : State), s.cur.rsv.committing = true →
      s.cur.rsv.commits = [c] → s.cur.copyOpen c = true → c.bay = b.val → ∃ t, exec (.closeRecordWrite b mv fails) s = .next t
      ∧ ((t.cur.rsv.commits.map fun x => { x with crc := c.crc }) = [{ c with closed := !rowLost fails, failed := rowLost fails, vholdMv := mv.toNat, fails := fails }])
      ∧ t.cur.rsv.commitSeq = s.cur.rsv.commitSeq ∧ t.cur.ldg = s.cur.ldg ∧ t.vis = s.vis
      ∧ { t.cur with fresh := s.cur.fresh, rsv := s.cur.rsv, fls := s.cur.fls } = s.cur) ∧
  (∀ (mv : BitVec 16) (c : Commit) (s : State), s.cur.rsv.committing = true → s.cur.rsv.commits = [c] →
      s.cur.copyOpen c = true → mv.toNat ≤ s.cur.get pgRsv RSV_FLOOR_V_FLOOR_MV → ∃ t, exec (.commitFloorReached mv) s = .next t
      ∧ t.cur.rsv = { s.cur.rsv with commits := [{ c with failed := true }] } ∧ t.cur.ldg = s.cur.ldg ∧ t.vis = s.vis
      ∧ { t.cur with rsv := s.cur.rsv, fls := s.cur.fls } = s.cur) ∧
  (∀ (mv : Nat) (s : State), s.cur.rsv.committing = true → s.cur.pwr.phase ≠ .off →
      ((s.cur.copies.any fun c => !c.closed && !c.failed) = false) → s.cur.get pgBank BANK_PF_CFG_VMOT_FAIL_MV + 500 ≤ mv →
      ∃ t, exec (.commitEnd mv) s = .next t ∧ t.cur = t.vis ∧ t.cur.su.step = 1 ∧ t.cur.tb.gtime = s.cur.tb.gtime
      ∧ t.cur.host = s.cur.host ∧ t.cur.aon = s.cur.aon ∧ t.cur.mem = [] ∧ t.cur.get pgRst RST_CAUSE = 4
      ∧ t.cur.rsv.commits.length = s.cur.rsv.commits.length ∧ t.cur.rsv.committing = false) ∧
  (∀ (mv : Nat) (s : State), s.cur.rsv.committing = true → s.cur.pwr.phase ≠ .off →
      ((s.cur.copies.any fun c => !c.closed && !c.failed) = false) → mv < s.cur.get pgBank BANK_PF_CFG_VMOT_FAIL_MV + 500 →
      ∃ t, exec (.commitEnd mv) s = .next t ∧ t.cur = t.vis ∧ t.cur.pwr.phase = .off ∧ t.cur.rsv.pfLine = false
      ∧ t.cur.clockOn = false ∧ t.cur.tb.gtime = s.cur.tb.gtime) ∧
  (∀ (r : Requester) (s : State), ∃ t, exec (.rsvCommitSeqLoRead r) s = .next t
      ∧ t.vis.bus = { rdata := s.vis.rd (pgRsv + RSV_COMMIT_SEQ_LO.off), error := false }
      ∧ t.vis.readWord r (pgRsv + RSV_COMMIT_SEQ_HI.off) = s.vis.rd (pgRsv + RSV_COMMIT_SEQ_HI.off)
      ∧ { t.vis with tb := s.vis.tb, bus := s.vis.bus } = s.vis ∧ { t.cur with tb := s.cur.tb, bus := s.cur.bus } = s.cur)

/-- The first word of the packet at the tail opens it and marks its FIFO active; the last word of the only packet ends it:
W stands behind its ceil(LENGTH / 64) words, the promise returns, the context's running CRC is carried over the bytes
that were still to come and stands in the end record, and the fetch has ended. FK_CFG, FLUSH and DIAG_EN writes are
put before the edge's judgement, FK_CFG only when in range and without overlap. At the edge a FLUSH of a FIFO that is
not HELD puts D, H and S at W, one of a HELD FIFO records FLUSH_HELD, a new FK_CFG is taken while nothing is held and
else CFG_BUSY. The diagnostic port pushes and pops 64-bit parts while DIAG_EN is 1; FK_DIAG_END pads the last word and
gives it VALID. A pointer failure stops the drain with its record. Commands that it says to complete, each on the
conditions of its clauses: packetFirstWord, packetLastWord, fkCfgWrite, fkFlush, fkDiagEnWrite, fkDiagHiWrite,
fkDiagEndWrite, fkDiagLoRead, fkPointerFailure. -/
def Obligations.StagingCommands : Prop :=
  (∀ (d : Dev) (k v r : Nat), k < 64 → d.flag (pgFk k) FK_CTL_DIAG_EN = false →
    ((d.fifo k).held = false → let f := (d.applyRequest (k, 1, v, r)).fifo k
      f.w = (d.fifo k).w ∧ f.d = (d.fifo k).w ∧ f.h = (d.fifo k).w ∧ f.s = (d.fifo k).w ∧
      (d.applyRequest (k, 1, v, r)).flag (pgFk k) FK_STAT_EMPTY = true) ∧
    ((d.fifo k).held = true → (d.applyRequest (k, 1, v, r)).fifo k = d.fifo k ∧
      (d.flag (pgFk k) PG_ERR_INFO_VALID = false →
        (d.applyRequest (k, 1, v, r)).get (pgFk k) PG_ERR_INFO_CODE = ErrCode.flushHeld.value)) ∧
    ((d.fifo k).held = false → v < 2 ^ 25 → (d.applyRequest (k, 0, v, r)).get (pgFk k) FK_CFG = v) ∧
    ((d.fifo k).held = true → (d.applyRequest (k, 0, v, r)).get (pgFk k) FK_CFG = d.get (pgFk k) FK_CFG ∧
      (d.flag (pgFk k) PG_ERR_INFO_VALID = false →
        (d.applyRequest (k, 0, v, r)).get (pgFk k) PG_ERR_INFO_CODE = ErrCode.cfgBusy.value)) ∧
    (∀ q, (d.applyRequest (k, q, v, r)).flag (pgFk k) FK_CTL_FLUSH = false)) ∧
  (∀ (k : Fin 64) (p : Packet) (s : State), (s.cur.fifo k).current = some p → p.opened = false →
      ∃ t, exec (.packetFirstWord k) s = .next t ∧ (t.cur.fifo k).work = s.cur.crcOf p.ctx
      ∧ ((t.cur.fifo k).packets = (s.cur.fifo k).packets.map (fun q => if q.lsn == p.lsn then { q with opened := true, start := (s.cur.fifo k).w } else q))
      ∧ (t.cur.fifo k).w = (s.cur.fifo k).w ∧ bit (t.cur.get (pgCv (k.val / 8)) CV_STAT_ACTIVE) (k.val % 8) = true
      ∧ t.vis = s.vis ∧ { t.cur with regs := s.cur.regs, stg := s.cur.stg } = s.cur
      ∧ (∀ a, a ≠ pgCv (k.val / 8) + CV_STAT.off → t.cur.rd a = s.cur.rd a)) ∧
  (∀ (k : Fin 64) (p : Packet) (u : TaskSt) (c : Nat) (s : State), (s.cur.fifo k).packets = [p] → p.closed = false →
      p.opened = true → p.stop = none → s.cur.task p.lsn = some u → p.bytes.length ≤ u.length →
      c = crcRun (s.cur.ctx u.ctx).poly (s.cur.fifo k).work ((s.cur.source u u.length).drop p.bytes.length) 0 →
      ∃ t, exec (.packetLastWord k) s = .next t ∧ (t.cur.fifo k).w = (s.cur.fifo k).w + (ceilDiv u.length 64 - p.words)
      ∧ (t.cur.fifo k).promised = 0 ∧ t.cur.crcOf u.ctx = c
      ∧ ((t.cur.fifo k).packets.map (fun q => (q.closed, q.voidBytes)) = [(true, 0)])
      ∧ (t.cur.ldg = { s.cur.ldg with tasks := s.cur.ldg.tasks.map (fun q => if q.lsn == u.lsn then { q with fetching := false, voidBytes := 0 } else q) })
      ∧ bit (t.cur.get (pgCv (k.val / 8)) CV_STAT_ACTIVE) (k.val % 8) = false ∧ t.vis = s.vis
      ∧ { t.cur with regs := s.cur.regs, mem := s.cur.mem, ldg := s.cur.ldg, stg := s.cur.stg } = s.cur) ∧
  (∀ (k : Fin 64) (r : Requester) (v : Word) (s : State), bits v.toNat 16 9 + bits v.toNat 0 10 ≤ 512 →
      (((List.range (bits v.toNat 0 10)).any fun i => s.vis.retiredItem 1 (bits v.toNat 16 9 + i)) = false) →
      (∀ j, j < 64 → j = k.val ∨ unitsMeet (bits v.toNat 16 9) (bits v.toNat 0 10) (s.vis.get (pgFk j) FK_CFG_BASE_4K) (s.vis.unitSpan (s.vis.get (pgFk j) FK_CFG_BASE_4K) (s.vis.get (pgFk j) FK_CFG_SIZE_4K)) = false) →
      ∃ t, exec (.fkCfgWrite k r v) s = .next t
      ∧ t.cur.stg = { s.cur.stg with requests := s.cur.stg.requests ++ [(k.val, 0, v.toNat % 2 ^ 25, r.code)] }
      ∧ t.cur.regs = s.cur.regs ∧ t.vis = s.vis ∧ { t.cur with regs := s.cur.regs, stg := s.cur.stg } = s.cur) ∧
  (∀ (k : Fin 64) (r : Requester) (v : Word) (s : State),
      (512 < bits v.toNat 16 9 + bits v.toNat 0 10 ∨ ((List.range (bits v.toNat 0 10)).any fun i => s.vis.retiredItem 1 (bits v.toNat 16 9 + i)) = true) →
      ∃ t, exec (.fkCfgWrite k r v) s = .next t ∧ t.cur = s.cur.err (pgFk k) .cfgRange FK_CFG.off r.code (pgFk k + FK_CFG.off)
      ∧ t.vis = s.vis ∧ { t.cur with regs := s.cur.regs, stg := s.cur.stg } = s.cur) ∧
  (∀ (k : Fin 64) (r : Requester) (v : Word) (j : Fin 64) (s : State), bits v.toNat 16 9 + bits v.toNat 0 10 ≤ 512 →
      (((List.range (bits v.toNat 0 10)).any fun i => s.vis.retiredItem 1 (bits v.toNat 16 9 + i)) = false) → j ≠ k →
      unitsMeet (bits v.toNat 16 9) (bits v.toNat 0 10) (s.vis.get (pgFk j) FK_CFG_BASE_4K) (s.vis.unitSpan (s.vis.get (pgFk j) FK_CFG_BASE_4K) (s.vis.get (pgFk j) FK_CFG_SIZE_4K)) = true →
      ∃ t, exec (.fkCfgWrite k r v) s = .next t ∧ t.cur = s.cur.err (pgFk k) .cfgOverlap FK_CFG.off r.code (pgFk k + FK_CFG.off)
      ∧ t.vis = s.vis ∧ { t.cur with regs := s.cur.regs, stg := s.cur.stg } = s.cur) ∧
  (∀ (k : Fin 64) (r : Requester) (s : State), ∃ t, exec (.fkFlush k r) s = .next t
      ∧ t.cur.stg = { s.cur.stg with requests := s.cur.stg.requests ++ [(k.val, 1, 1, r.code)] }
      ∧ t.cur.flag (pgFk k) FK_CTL_FLUSH = true ∧ t.vis = s.vis ∧ { t.cur with regs := s.cur.regs, stg := s.cur.stg } = s.cur
      ∧ (∀ a, a ≠ pgFk k + FK_CTL.off → t.cur.rd a = s.cur.rd a)) ∧
  (∀ (k : Fin 64) (r : Requester) (on : Bool) (s : State), ∃ t, exec (.fkDiagEnWrite k r on) s = .next t
      ∧ t.cur.stg = { s.cur.stg with requests := s.cur.stg.requests ++ [(k.val, 2, b2n on, r.code)] } ∧ t.vis = s.vis
      ∧ { t.cur with stg := s.cur.stg } = s.cur) ∧
  (∀ (k : Fin 64) (v : Word) (s : State), s.cur.flag (pgFk k) FK_CTL_DIAG_EN = true →
      (s.cur.fifo k).w - (s.cur.fifo k).s < s.cur.fifoWords k → ∃ t, exec (.fkDiagHiWrite k v) s = .next t
      ∧ (t.cur.fifo k).diagParts = (s.cur.fifo k).diagParts ++ [s.cur.get (pgFk k) FK_DIAG_LO + v.toNat * 2 ^ 32]
      ∧ ((t.cur.fifo k).w = (s.cur.fifo k).w + (if ((s.cur.fifo k).diagParts.length + 1) % 8 = 0 then 1 else 0))
      ∧ (t.cur.fifo k).s = (s.cur.fifo k).s ∧ t.vis = s.vis
      ∧ { t.cur with regs := s.cur.regs, irqSet := s.cur.irqSet, stg := s.cur.stg } = s.cur) ∧
  (∀ (k : Fin 64) (v : Word) (s : State), s.cur.flag (pgFk k) FK_CTL_DIAG_EN = true →
      s.cur.fifoWords k ≤ (s.cur.fifo k).w - (s.cur.fifo k).s → ∃ t, exec (.fkDiagHiWrite k v) s = .next t
      ∧ t.cur.stg = s.cur.stg ∧ t.cur.flag (pgFk k) FK_STAT_OVERRUN = true ∧ t.cur.flag (pgFk k) FK_IRQ_OVERRUN = true
      ∧ t.vis = s.vis ∧ { t.cur with regs := s.cur.regs, irqSet := s.cur.irqSet, stg := s.cur.stg } = s.cur
      ∧ (∀ a, a ≠ pgFk k + FK_STAT.off → a ≠ pgFk k + PG_IRQ_RAW.off → t.cur.rd a = s.cur.rd a)) ∧
  (∀ (k : Fin 64) (v : Word) (s : State), s.cur.flag (pgFk k) FK_CTL_DIAG_EN = true →
      ∃ t, exec (.fkDiagEndWrite k v) s = .next t
      ∧ (t.cur.fifo k).diagParts.length = ceilDiv (s.cur.fifo k).diagParts.length 8 * 8
      ∧ ((t.cur.fifo k).w = (s.cur.fifo k).w + (if (s.cur.fifo k).diagParts.length % 8 = 0 then 0 else 1))
      ∧ (t.cur.fifo k).packets = (s.cur.fifo k).packets
      ∧ ((t.cur.fifo k).w ≠ (s.cur.fifo k).s → (t.cur.fifo k).diagEnds.getLast? = some ((t.cur.fifo k).w - 1, bits v.toNat 0 6))
      ∧ t.vis = s.vis ∧ { t.cur with regs := s.cur.regs, stg := s.cur.stg } = s.cur) ∧
  (∀ (k : Fin 64) (r : Requester) (v : Nat) (l : List Nat) (s : State), s.cur.flag (pgFk k) FK_CTL_DIAG_EN = true →
      (s.cur.fifo k).d ≠ (s.cur.fifo k).w → (s.cur.fifo k).diagParts = v :: l → (s.cur.fifo k).diagPop = 0 →
      ∃ t, exec (.fkDiagLoRead k r) s = .next t ∧ t.vis.bus = { rdata := BitVec.ofNat 32 v, error := false }
      ∧ t.vis.latched r (pgFk k + FK_DIAG_HI.off) = BitVec.ofNat 32 (v / 2 ^ 32) ∧ (t.vis.fifo k).diagPop = 1
      ∧ (t.vis.fifo k).d = (s.cur.fifo k).d ∧ t.vis.regs = s.vis.regs
      ∧ { t.cur with regs := s.cur.regs, irqSet := s.cur.irqSet, tb := s.cur.tb, bus := s.cur.bus, stg := s.cur.stg } = s.cur) ∧
  (∀ (k : Fin 64) (ovr : Bool) (s : State), ∃ t, exec (.fkPointerFailure k ovr) s = .next t ∧ (t.cur.fifo k).drainStopped = true
      ∧ (t.cur.flag (pgFk k) (if ovr then FK_STAT_OVERRUN else FK_STAT_UNDERRUN) = true)
      ∧ (t.cur.fj.staged = s.cur.fj.staged ++ [{ gtime := s.cur.gtime48, pgId := pgIdOf (pgFk k), code := if ovr then 0x0301 else 0x0302, deg := false, flt := false, data := [] }])
      ∧ (ovr = true → t.cur.fls = s.cur.fls) ∧ (t.cur.fifo k).packets = (s.cur.fifo k).packets ∧ t.vis = s.vis
      ∧ { t.cur with regs := s.cur.regs, irqSet := s.cur.irqSet, fj := s.cur.fj, stg := s.cur.stg, fls := s.cur.fls } = s.cur
      ∧ (∀ a, a ≠ pgFk k + FK_STAT.off → a ≠ pgFk k + PG_IRQ_RAW.off → t.cur.rd a = s.cur.rd a))

/-- The final value of each polynomial of R150 over the bytes "123456789" is the one its table gives. -/
def Obligations.CheckValues : Prop :=
  let b : List Byte := [0x31, 0x32, 0x33, 0x34, 0x35, 0x36, 0x37, 0x38, 0x39]
  [0, 1, 2, 3].map (fun p => crcFinal p (crcRun p (crcInit p) b 0)) = [0xE3069283, 0xCBF43926, 0x6C40DF5F0B497347, 0x29B1]

/-- A read of CV_RUN_LO gives the committed running value of the selected context and latches its high half; a write of
the low half stands in the requester's latch until CV_RUN_HI puts the pair before the edge. SHA_BLOCK_ABSORB carries
the lane's hash state over the word at H; the last word's void bytes count, and the intermediate hash completes the
end record. Signing starts for the SEAL of the lowest LSN when every lower APPEND of its lane is Settled, and without
a sound key completes it SEAL_FAULT; at its end the manifest is kept as the Held seal record and its first min(LENGTH,
256) bytes stand at ADDR in the memory of the SEAL's window, or the copy has failed and memory is as before, or a
fault ends that SEAL alone. Commands that it says to complete, each on the conditions of its clauses: cvRunLoRead,
cvRunLoWrite, cvRunHiWrite, shaBlockAbsorb, sealSignStart, sealSignDone. -/
def Obligations.CheckAndSeals : Prop :=
  (∀ (k : Fin 8) (r : Requester) (c : Nat) (s : State), s.vis.get (pgCv k) CV_CTX_SEL_CTX = c →
      ∃ t, exec (.cvRunLoRead k r) s = .next t ∧ t.vis.bus = { rdata := BitVec.ofNat 32 (s.vis.crcOf c), error := false }
      ∧ t.vis.readWord r (pgCv k + CV_RUN_HI.off) = BitVec.ofNat 32 (s.vis.crcOf c / 2 ^ 32)
      ∧ { t.vis with tb := s.vis.tb, bus := s.vis.bus } = s.vis ∧ { t.cur with tb := s.cur.tb, bus := s.cur.bus } = s.cur) ∧
  (∀ (k : Fin 8) (r : Requester) (v : Word) (s : State), ∃ t, exec (.cvRunLoWrite k r v) s = .next t
      ∧ t.cur.tb.wrLatch.find? (·.1 == latchKey r (pgCv k + CV_RUN_LO.off)) = some (latchKey r (pgCv k + CV_RUN_LO.off), v)
      ∧ (∀ x ∈ s.cur.tb.wrLatch, x.1 ≠ latchKey r (pgCv k + CV_RUN_LO.off) → x ∈ t.cur.tb.wrLatch)
      ∧ { t.cur.tb with wrLatch := s.cur.tb.wrLatch } = s.cur.tb ∧ t.vis = s.vis ∧ { t.cur with tb := s.cur.tb } = s.cur) ∧
  (∀ (k : Fin 8) (r : Requester) (v lo : Word) (c : Nat) (s : State),
      s.cur.tb.wrLatch.find? (·.1 == latchKey r (pgCv k + CV_RUN_LO.off)) = some (latchKey r (pgCv k + CV_RUN_LO.off), lo) →
      s.cur.get (pgCv k) CV_CTX_SEL_CTX = c → ∃ t, exec (.cvRunHiWrite k r v) s = .next t
      ∧ t.cur.stg = { s.cur.stg with runWrites := s.cur.stg.runWrites ++ [(k.val, r.code, c, lo.toNat + v.toNat * 2 ^ 32)] }
      ∧ (∀ x ∈ t.cur.tb.wrLatch, x.1 ≠ latchKey r (pgCv k + CV_RUN_LO.off)) ∧ t.vis = s.vis
      ∧ { t.cur with tb := s.cur.tb, stg := s.cur.stg } = s.cur) ∧
  (∀ (k : Fin 64) (p : Packet) (s : State), (s.cur.fifo k).packets.find? (!·.hashed) = some p → (s.cur.ctx p.ctx).sha = true →
      s.cur.sliceBad 153 = false → (s.cur.fifo k).h = p.start → 1 < p.words → ∃ t, exec (.shaBlockAbsorb k) s = .next t
      ∧ (t.cur.fifo k).h = (s.cur.fifo k).h + 1 ∧ (t.cur.fifo k).w = (s.cur.fifo k).w
      ∧ t.cur.mem = (s.cur.setSha p.ctx ((s.cur.shaOf p.ctx).absorb (p.bytes.take 64) 0)).mem ∧ t.vis = s.vis
      ∧ { t.cur with mem := s.cur.mem, stg := s.cur.stg } = s.cur) ∧
  (∀ (k : Fin 64) (p : Packet) (x : Sha) (s : State), (s.cur.fifo k).packets = [p] → p.hashed = false → p.closed = true →
      (s.cur.ctx p.ctx).sha = true → s.cur.sliceBad 153 = false → (s.cur.fifo k).h + 1 = p.start + p.words →
      x = (s.cur.shaOf p.ctx).absorb ((p.bytes.drop (64 * (p.words - 1))).take 64) p.voidBytes →
      ∃ t, exec (.shaBlockAbsorb k) s = .next t ∧ (t.cur.fifo k).h = p.start + p.words
      ∧ (t.cur.fifo k).packets = [{ p with hashed := true, endRec := p.endRec.take 32 ++ x.h.flatMap (beBytes 4) }]
      ∧ t.vis = s.vis ∧ { t.cur with mem := s.cur.mem, stg := s.cur.stg } = s.cur) ∧
  (∀ (u : TaskSt) (s : State), s.cur.rsv.committing = false → s.cur.nextSeal = some u → s.cur.stg.signing = none →
      s.cur.sealReady u = true → s.cur.flag pgRsv RSV_STAT_PF = false → s.cur.sliceBad 154 = false →
      s.cur.flag pgChk CHK_SEAL_STAT_KEY_OK = true → ∃ t, exec (.sealSignStart) s = .next t
      ∧ t.cur.stg = { s.cur.stg with signing := some (u.lsn, s.cur.gtime48) } ∧ t.cur.flag pgChk CHK_SEAL_STAT_SIGNING = true
      ∧ t.cur.ldg.journal = s.cur.ldg.journal
      ∧ (t.cur.ldg.tasks = s.cur.ldg.tasks.map (fun q => if q.lsn == u.lsn then { q with signing := true } else q))
      ∧ t.vis = s.vis ∧ { t.cur with regs := s.cur.regs, ldg := s.cur.ldg, stg := s.cur.stg } = s.cur
      ∧ (∀ a, a ≠ pgChk + CHK_SEAL_STAT.off → t.cur.rd a = s.cur.rd a)) ∧
  (∀ (u : TaskSt) (s : State), s.cur.rsv.committing = false → s.cur.nextSeal = some u → s.cur.stg.signing = none →
      s.cur.sealReady u = true → s.cur.flag pgRsv RSV_STAT_PF = false → s.cur.sliceBad 154 = false →
      s.cur.flag pgChk CHK_SEAL_STAT_KEY_OK = false → s.cur.awaits u.lsn = true → ∃ t, exec (.sealSignStart) s = .next t
      ∧ t.cur.result u.lsn = some (.sealFault, 0) ∧ (t.cur.ctx u.ctx).state = .open ∧ (t.cur.lane u.lane).state = .open
      ∧ t.cur.fj.staged = s.cur.fj.staged ++ [{ gtime := s.cur.gtime48, pgId := pgIdOf pgChk, code := 0x0305, deg := false, flt := false, data := [u.lane, u.lsn, u.lsn / 2 ^ 32, 1].map (· % 2 ^ 32) }]
      ∧ t.vis = s.vis
      ∧ { t.cur with regs := s.cur.regs, mem := s.cur.mem, fj := s.cur.fj, ldg := s.cur.ldg, stg := s.cur.stg } = s.cur) ∧
  (∀ (lsn g : Nat) (u : TaskSt) (m : List Byte) (s : State), s.cur.rsv.committing = false → s.cur.stg.signing = some (lsn, g) →
      s.cur.task lsn = some u → u.destStopped = false → m = (s.cur.manifest u g).take (min u.length 256) →
      ∃ t, exec (.sealSignDone false false) s = .next t ∧ t.cur.stg.signing = none
      ∧ t.cur.stg.manifests = s.cur.stg.manifests ++ [(lsn, s.cur.manifest u g)]
      ∧ t.cur.get pgChk CHK_SEAL_COUNT_COUNT = min (2 ^ 32 - 1) (s.cur.get pgChk CHK_SEAL_COUNT_COUNT + 1)
      ∧ ((t.cur.ldg.tasks.filter (·.lsn == lsn)).all (fun q => q.signed && q.hasRecord && !q.signing && q.copyFailed == false) = true)
      ∧ t.cur.ldg.journal = s.cur.ldg.journal ∧ t.cur.ldg.ctxs = s.cur.ldg.ctxs ∧ t.cur.ldg.lanes = s.cur.ldg.lanes
      ∧ memRead (t.cur.destOf u) u.addr m.length = m
      ∧ (∀ a, a < u.addr ∨ u.addr + m.length ≤ a → memGet t.cur.mem a = memGet s.cur.mem a)
      ∧ (∀ a, a < u.addr ∨ u.addr + m.length ≤ a → memGet t.cur.host a = memGet s.cur.host a)
      ∧ (s.cur.hostOwned u.window = true → t.cur.mem = s.cur.mem) ∧ (s.cur.hostOwned u.window = false → t.cur.host = s.cur.host)
      ∧ t.vis = s.vis
      ∧ { t.cur with regs := s.cur.regs, mem := s.cur.mem, host := s.cur.host, ldg := s.cur.ldg, stg := s.cur.stg } = s.cur) ∧
  (∀ (lsn g : Nat) (u : TaskSt) (s : State), s.cur.rsv.committing = false → s.cur.stg.signing = some (lsn, g) →
      s.cur.task lsn = some u → u.destStopped = false → 0 < u.length → ∃ t, exec (.sealSignDone false true) s = .next t
      ∧ t.cur.stg.signing = none ∧ t.cur.stg.manifests = s.cur.stg.manifests ++ [(lsn, s.cur.manifest u g)]
      ∧ t.cur.get pgChk CHK_SEAL_COUNT_COUNT = min (2 ^ 32 - 1) (s.cur.get pgChk CHK_SEAL_COUNT_COUNT + 1)
      ∧ ((t.cur.ldg.tasks.filter (·.lsn == lsn)).all (fun q => q.signed && q.hasRecord && !q.signing && q.copyFailed == true) = true)
      ∧ t.cur.ldg.journal = s.cur.ldg.journal ∧ t.cur.ldg.ctxs = s.cur.ldg.ctxs ∧ t.cur.ldg.lanes = s.cur.ldg.lanes
      ∧ t.cur.mem = s.cur.mem ∧ t.cur.host = s.cur.host ∧ t.vis = s.vis
      ∧ { t.cur with regs := s.cur.regs, mem := s.cur.mem, host := s.cur.host, ldg := s.cur.ldg, stg := s.cur.stg } = s.cur) ∧
  (∀ (lsn g : Nat) (u : TaskSt) (f : Bool) (s : State), s.cur.rsv.committing = false → s.cur.stg.signing = some (lsn, g) →
      s.cur.task lsn = some u → u.destStopped = true → ∃ t, exec (.sealSignDone false f) s = .next t ∧ t.cur.stg.signing = none
      ∧ t.cur.stg.manifests = s.cur.stg.manifests ++ [(lsn, s.cur.manifest u g)]
      ∧ t.cur.get pgChk CHK_SEAL_COUNT_COUNT = min (2 ^ 32 - 1) (s.cur.get pgChk CHK_SEAL_COUNT_COUNT + 1)
      ∧ ((t.cur.ldg.tasks.filter (·.lsn == lsn)).all (fun q => q.signed && q.hasRecord && !q.signing && q.copyFailed == false) = true)
      ∧ t.cur.ldg.journal = s.cur.ldg.journal ∧ t.cur.ldg.ctxs = s.cur.ldg.ctxs ∧ t.cur.ldg.lanes = s.cur.ldg.lanes
      ∧ t.cur.mem = s.cur.mem ∧ t.cur.host = s.cur.host ∧ t.vis = s.vis
      ∧ { t.cur with regs := s.cur.regs, mem := s.cur.mem, host := s.cur.host, ldg := s.cur.ldg, stg := s.cur.stg } = s.cur) ∧
  (∀ (lsn g : Nat) (u : TaskSt) (f : Bool) (s : State), s.cur.rsv.committing = false → s.cur.stg.signing = some (lsn, g) →
      s.cur.task lsn = some u → s.cur.awaits lsn = true → ∃ t, exec (.sealSignDone true f) s = .next t
      ∧ t.cur.stg.signing = none ∧ t.cur.stg.manifests = s.cur.stg.manifests ∧ t.cur.result lsn = some (.sealFault, 0)
      ∧ (t.cur.ctx u.ctx).state = .open ∧ t.cur.flag pgChk CHK_SEAL_STAT_KEY_FAULT = true
      ∧ t.cur.flag pgChk CHK_IRQ_KEY_FAULT = true
      ∧ t.cur.flag pgChk CHK_SEAL_STAT_KEY_OK = s.cur.flag pgChk CHK_SEAL_STAT_KEY_OK ∧ t.vis = s.vis
      ∧ { t.cur with regs := s.cur.regs, irqSet := s.cur.irqSet, mem := s.cur.mem, fj := s.cur.fj, ldg := s.cur.ldg, stg := s.cur.stg } = s.cur)

/-- For every channel, when the operation on its bus stands at an instruction of that op: CMD, ADDR, DIN, DOUT, WAIT,
DATA, PLANE, RTDATA and NOP put their bus cycles and go on at the next word (PLANE, after a plane that is not last, at
its target word with the next plane). YIELD takes the operation off the bus until half its limit has passed. STATUS
yields again when not ready, fails with STATUS on a fail-mask bit, and goes on otherwise. A reserved op ends the
operation with failure. END completes it: a program is followed by its verify, a suspend leaves its target suspended,
a manual operation holds its result. Commands that it says to complete, each on the conditions of its clauses: rcpCmd,
rcpAddr, rcpDin, rcpDout, rcpWait, rcpData, rcpPlane, rcpRtdata, rcpNop, rcpYield, rcpStatus, rcpBadOp, rcpEnd. -/
def Obligations.RecipeInstructions : Prop :=
  (∀ (k : Fin 17) (o : FlashOp) (w : Nat) (s : State), (s.cur.instr k (fun x => x == 1) = some (o, w)) →
      ∃ t, exec (.rcpCmd k) s = .next t
      ∧ (t.cur.fls = (s.cur.updChan k fun c => { c with out := c.out ++ [.cmd (bits w 0 8)], ops := updWhere (·.id == o.id) (fun x => { x with pc := x.pc + 1 }) c.ops }).fls)
      ∧ { t.cur with regs := s.cur.regs, fls := s.cur.fls } = s.cur
      ∧ (∀ a, a ≠ pgFch k + FCH_LUN_STAT.off → t.cur.rd a = s.cur.rd a)) ∧
  (∀ (k : Fin 17) (o : FlashOp) (w : Nat) (s : State), (s.cur.instr k (fun x => x == 2) = some (o, w)) → bits w 26 2 = 2 →
      ∃ t, exec (.rcpAddr k) s = .next t
      ∧ (t.cur.fls = (s.cur.updChan k fun c => { c with out := c.out ++ (s.cur.colBytes o.at ++ s.cur.rowBytes o.at).map .addr, ops := updWhere (·.id == o.id) (fun x => { x with pc := x.pc + 1 }) c.ops }).fls)
      ∧ { t.cur with regs := s.cur.regs, fls := s.cur.fls } = s.cur
      ∧ (∀ a, a ≠ pgFch k + FCH_LUN_STAT.off → t.cur.rd a = s.cur.rd a)) ∧
  (∀ (k : Fin 17) (o : FlashOp) (w : Nat) (s : State), (s.cur.instr k (fun x => x == 2) = some (o, w)) → bits w 26 2 = 0 →
      ∃ t, exec (.rcpAddr k) s = .next t
      ∧ (t.cur.fls = (s.cur.updChan k fun c => { c with out := c.out ++ (s.cur.colBytes o.at).map .addr, ops := updWhere (·.id == o.id) (fun x => { x with pc := x.pc + 1 }) c.ops }).fls)
      ∧ { t.cur with regs := s.cur.regs, fls := s.cur.fls } = s.cur
      ∧ (∀ a, a ≠ pgFch k + FCH_LUN_STAT.off → t.cur.rd a = s.cur.rd a)) ∧
  (∀ (k : Fin 17) (o : FlashOp) (w : Nat) (s : State), (s.cur.instr k (fun x => x == 2) = some (o, w)) → bits w 26 2 = 1 →
      ∃ t, exec (.rcpAddr k) s = .next t
      ∧ (t.cur.fls = (s.cur.updChan k fun c => { c with out := c.out ++ (s.cur.rowBytes o.at).map .addr, ops := updWhere (·.id == o.id) (fun x => { x with pc := x.pc + 1 }) c.ops }).fls)
      ∧ { t.cur with regs := s.cur.regs, fls := s.cur.fls } = s.cur
      ∧ (∀ a, a ≠ pgFch k + FCH_LUN_STAT.off → t.cur.rd a = s.cur.rd a)) ∧
  (∀ (k : Fin 17) (o : FlashOp) (w : Nat) (s : State), (s.cur.instr k (fun x => x == 2) = some (o, w)) → bits w 26 2 = 3 →
      ∃ t, exec (.rcpAddr k) s = .next t
      ∧ (t.cur.fls = (s.cur.updChan k fun c => { c with out := c.out ++ [.addr (bits w 0 8)], ops := updWhere (·.id == o.id) (fun x => { x with pc := x.pc + 1 }) c.ops }).fls)
      ∧ { t.cur with regs := s.cur.regs, fls := s.cur.fls } = s.cur
      ∧ (∀ a, a ≠ pgFch k + FCH_LUN_STAT.off → t.cur.rd a = s.cur.rd a)) ∧
  (∀ (k : Fin 17) (o : FlashOp) (w : Nat) (pg : Nat × Nat × Nat × Nat) (p : ElemPage) (s : State),
      (s.cur.instr k (fun x => x == 3) = some (o, w)) → bit w 27 = false → o.page = some pg → s.cur.pageOfOp pg = some p →
      s.cur.burst (pfaBay o.pfa) (bits w 0 16) ≤ (s.cur.planeBytes (pfaBay o.pfa) o.plane p).length →
      ((planeCws (s.cur.get (pgBay (pfaBay o.pfa)) BAY_GEOM0_PAGE_CW) o.plane p).all (fun x => x.1.kind != 1) = true) →
      ∃ t, exec (.rcpDin k) s = .next t
      ∧ (t.cur.fls = (s.cur.updChan k fun c => { c with out := c.out ++ [.dataIn ((s.cur.planeBytes (pfaBay o.pfa) o.plane p).take (s.cur.burst (pfaBay o.pfa) (bits w 0 16)))], ops := updWhere (·.id == o.id) (fun x => { x with pc := x.pc + 1 }) c.ops }).fls)
      ∧ { t.cur with regs := s.cur.regs, fls := s.cur.fls } = s.cur
      ∧ (∀ a, a ≠ pgFch k + FCH_LUN_STAT.off → t.cur.rd a = s.cur.rd a)) ∧
  (∀ (k : Fin 17) (o : FlashOp) (w : Nat) (pg : Nat × Nat × Nat × Nat) (p : ElemPage) (s : State),
      (s.cur.instr k (fun x => x == 3) = some (o, w)) → bit w 27 = false → o.page = some pg → s.cur.pageOfOp pg = some p →
      s.cur.burst (pfaBay o.pfa) (bits w 0 16) ≤ (s.cur.planeBytes (pfaBay o.pfa) o.plane p).length →
      ∃ t, exec (.rcpDin k) s = .next t
      ∧ (t.cur.chan k = { s.cur.chan k with out := (s.cur.chan k).out ++ [.dataIn ((s.cur.planeBytes (pfaBay o.pfa) o.plane p).take (s.cur.burst (pfaBay o.pfa) (bits w 0 16)))], ops := updWhere (·.id == o.id) (fun x => { x with pc := x.pc + 1 }) (s.cur.chan k).ops })
      ∧ t.cur.stg = (s.cur.drainPlane (pfaBay o.pfa) o.plane p).stg
      ∧ { t.cur with regs := s.cur.regs, stg := s.cur.stg, fls := s.cur.fls } = s.cur) ∧
  (∀ (k : Fin 17) (o : FlashOp) (w : Nat) (s : State), (s.cur.instr k (fun x => x == 3) = some (o, w)) → bit w 27 = false →
      o.page.bind s.cur.pageOfOp = none → ∃ t, exec (.rcpDin k) s = .next t
      ∧ (∃ l : List Byte, l.length = s.cur.burst (pfaBay o.pfa) (bits w 0 16) ∧ t.cur.fls = (s.cur.updChan k fun c => { c with out := c.out ++ [.dataIn l], ops := updWhere (·.id == o.id) (fun x => { x with pc := x.pc + 1 }) c.ops }).fls)
      ∧ { t.cur with regs := s.cur.regs, fresh := s.cur.fresh, fls := s.cur.fls } = s.cur
      ∧ (∀ a, a ≠ pgFch k + FCH_LUN_STAT.off → t.cur.rd a = s.cur.rd a)) ∧
  (∀ (k : Fin 17) (o : FlashOp) (w : Nat) (s : State), (s.cur.instr k (fun x => x == 3) = some (o, w)) → bit w 27 = true →
      s.cur.burst (pfaBay o.pfa) (bits w 0 16) ≤ o.len → ∃ t, exec (.rcpDin k) s = .next t
      ∧ (t.cur.fls = (s.cur.updChan k fun c => { c with out := c.out ++ [.dataIn (memRead s.cur.mem o.buf (s.cur.burst (pfaBay o.pfa) (bits w 0 16)))], ops := updWhere (·.id == o.id) (fun x => { x with pc := x.pc + 1 }) c.ops }).fls)
      ∧ { t.cur with regs := s.cur.regs, fls := s.cur.fls } = s.cur
      ∧ (∀ a, a ≠ pgFch k + FCH_LUN_STAT.off → t.cur.rd a = s.cur.rd a)) ∧
  (∀ (k : Fin 17) (o : FlashOp) (w : Nat) (data : List Byte) (s : State), (s.cur.instr k (fun x => x == 4) = some (o, w)) →
      bit w 27 = false → ∃ t, exec (.rcpDout k data) s = .next t
      ∧ (t.cur.fls = (s.cur.updChan k fun c => { c with out := c.out ++ [.dataOut (s.cur.burst (pfaBay o.pfa) (bits w 0 16))], ops := updWhere (·.id == o.id) (fun x => { x with pc := x.pc + 1 }) c.ops }).fls)
      ∧ { t.cur with regs := s.cur.regs, fls := s.cur.fls } = s.cur
      ∧ (∀ a, a ≠ pgFch k + FCH_LUN_STAT.off → t.cur.rd a = s.cur.rd a)) ∧
  (∀ (k : Fin 17) (o : FlashOp) (w : Nat) (data : List Byte) (s : State), (s.cur.instr k (fun x => x == 4) = some (o, w)) →
      bit w 27 = true → ∃ t, exec (.rcpDout k data) s = .next t
      ∧ (t.cur.fls = (s.cur.updChan k fun c => { c with out := c.out ++ [.dataOut (s.cur.burst (pfaBay o.pfa) (bits w 0 16))], ops := updWhere (·.id == o.id) (fun x => { x with pc := x.pc + 1 }) c.ops }).fls)
      ∧ t.cur.mem = memWrite s.cur.mem o.buf (data.take (min (s.cur.burst (pfaBay o.pfa) (bits w 0 16)) o.len))
      ∧ { t.cur with regs := s.cur.regs, mem := s.cur.mem, fls := s.cur.fls } = s.cur
      ∧ (∀ a, a ≠ pgFch k + FCH_LUN_STAT.off → t.cur.rd a = s.cur.rd a)) ∧
  (∀ (k : Fin 17) (o : FlashOp) (w : Nat) (s : State), (s.cur.instr k (fun x => x == 5) = some (o, w)) →
      ∃ t, exec (.rcpWait k) s = .next t
      ∧ (t.cur.fls = (s.cur.updChan k fun c => { c with out := c.out ++ [.idle (s.cur.waitCk (pfaPhys o.pfa) (s.cur.opRate o) w)], ops := updWhere (·.id == o.id) (fun x => { x with pc := x.pc + 1 }) c.ops }).fls)
      ∧ { t.cur with regs := s.cur.regs, fls := s.cur.fls } = s.cur
      ∧ (∀ a, a ≠ pgFch k + FCH_LUN_STAT.off → t.cur.rd a = s.cur.rd a)) ∧
  (∀ (k : Fin 17) (o : FlashOp) (w : Nat) (s : State), (s.cur.instr k (fun x => x == 8) = some (o, w)) →
      ∃ t, exec (.rcpData k) s = .next t
      ∧ (t.cur.fls = (s.cur.updChan k fun c => { c with out := c.out ++ [.dataByte (bits w 0 8)], ops := updWhere (·.id == o.id) (fun x => { x with pc := x.pc + 1 }) c.ops }).fls)
      ∧ { t.cur with regs := s.cur.regs, fls := s.cur.fls } = s.cur
      ∧ (∀ a, a ≠ pgFch k + FCH_LUN_STAT.off → t.cur.rd a = s.cur.rd a)) ∧
  (∀ (k : Fin 17) (o : FlashOp) (w : Nat) (s : State), (s.cur.instr k (fun x => x == 9) = some (o, w)) →
      o.planes.length ≤ o.plane → ∃ t, exec (.rcpPlane k) s = .next t
      ∧ (t.cur.fls = (s.cur.updChan k fun c => { c with out := c.out ++ [.cmd (bits w 0 8)], ops := updWhere (·.id == o.id) (fun x => { x with pc := x.pc + 1 }) c.ops }).fls)
      ∧ { t.cur with regs := s.cur.regs, fls := s.cur.fls } = s.cur
      ∧ (∀ a, a ≠ pgFch k + FCH_LUN_STAT.off → t.cur.rd a = s.cur.rd a)) ∧
  (∀ (k : Fin 17) (o : FlashOp) (w : Nat) (s : State), (s.cur.instr k (fun x => x == 9) = some (o, w)) →
      o.plane < o.planes.length → ∃ t, exec (.rcpPlane k) s = .next t
      ∧ (t.cur.fls = (s.cur.updChan k fun c => { c with out := c.out ++ [.cmd (bits w 8 8)], ops := updWhere (·.id == o.id) (fun x => { x with plane := x.plane + 1, pc := bits w 16 9 }) c.ops }).fls)
      ∧ { t.cur with regs := s.cur.regs, fls := s.cur.fls } = s.cur
      ∧ (∀ a, a ≠ pgFch k + FCH_LUN_STAT.off → t.cur.rd a = s.cur.rd a)) ∧
  (∀ (k : Fin 17) (o : FlashOp) (w : Nat) (s : State), (s.cur.instr k (fun x => x == 10) = some (o, w)) →
      ∃ t, exec (.rcpRtdata k) s = .next t
      ∧ (t.cur.fls = (s.cur.updChan k fun c => { c with out := c.out ++ [.dataByte (bits (s.cur.entryOf o) (8 * bits w 0 3) 8)], ops := updWhere (·.id == o.id) (fun x => { x with pc := x.pc + 1 }) c.ops }).fls)
      ∧ { t.cur with regs := s.cur.regs, fls := s.cur.fls } = s.cur
      ∧ (∀ a, a ≠ pgFch k + FCH_LUN_STAT.off → t.cur.rd a = s.cur.rd a)) ∧
  (∀ (k : Fin 17) (o : FlashOp) (w : Nat) (s : State), (s.cur.instr k (fun x => x == 15) = some (o, w)) →
      ∃ t, exec (.rcpNop k) s = .next t ∧ (t.cur.fls = (s.cur.updOp k o.id fun x => { x with pc := x.pc + 1 }).fls)
      ∧ { t.cur with regs := s.cur.regs, fls := s.cur.fls } = s.cur
      ∧ (∀ a, a ≠ pgFch k + FCH_LUN_STAT.off → t.cur.rd a = s.cur.rd a)) ∧
  (∀ (k : Fin 17) (o : FlashOp) (w : Nat) (s : State), (s.cur.instr k (fun x => x == 6) = some (o, w)) →
      ∃ t, exec (.rcpYield k) s = .next t
      ∧ (t.cur.fls = (s.cur.updChan k fun c => { c with current := none, ce := none, ops := updWhere (·.id == o.id) (fun x => { x with stage := .yielded, expect := (bits w 16 4), pc := o.pc + 1, plane := 0, due := s.cur.gtime + s.cur.expectOf (pfaPhys o.pfa) (bits w 16 4), started := s.cur.gtime }) c.ops }).fls)
      ∧ { t.cur with regs := s.cur.regs, fls := s.cur.fls } = s.cur
      ∧ (∀ a, a ≠ pgFch k + FCH_LUN_STAT.off → t.cur.rd a = s.cur.rd a)) ∧
  (∀ (k : Fin 17) (o : FlashOp) (w : Nat) (x : Byte) (s : State), (s.cur.instr k (fun x => x == 7) = some (o, w)) →
      o.kind ≠ .poll → x.toNat &&& bits w 8 8 ≠ bits w 8 8 → ∃ t, exec (.rcpStatus k x) s = .next t
      ∧ t.cur.get (pgFch k) SEQ_STAT_STATUS_BYTE = x.toNat ∧ (t.cur.chan k).out = (s.cur.chan k).out ++ s.cur.statusCycles o w
      ∧ (t.cur.chan k).current = none
      ∧ ((t.cur.chan k).ops = updWhere (·.id == o.id) (fun y => { y with stage := .yielded, expect := o.expect, pc := o.pc, plane := 0, due := s.cur.gtime + s.cur.expectOf (pfaPhys o.pfa) o.expect }) (s.cur.chan k).ops)
      ∧ { t.cur with regs := s.cur.regs, fls := s.cur.fls } = s.cur
      ∧ (∀ a, a ≠ pgFch k + FCH_LUN_STAT.off → a ≠ pgFch k + SEQ_STAT.off → t.cur.rd a = s.cur.rd a)) ∧
  (∀ (k : Fin 17) (o : FlashOp) (w : Nat) (x : Byte) (s : State), (s.cur.instr k (fun x => x == 7) = some (o, w)) →
      o.kind = .poll ∨ (x.toNat &&& bits w 8 8 = bits w 8 8 ∧ x.toNat &&& bits w 0 8 = 0) →
      ∃ t, exec (.rcpStatus k x) s = .next t ∧ t.cur.get (pgFch k) SEQ_STAT_STATUS_BYTE = x.toNat
      ∧ (t.cur.chan k).out = (s.cur.chan k).out ++ s.cur.statusCycles o w ∧ (t.cur.chan k).current = some o.id
      ∧ ((t.cur.chan k).ops = updWhere (·.id == o.id) (fun y => { y with pc := y.pc + 1 }) (s.cur.chan k).ops)
      ∧ { t.cur with regs := s.cur.regs, fls := s.cur.fls } = s.cur
      ∧ (∀ a, a ≠ pgFch k + FCH_LUN_STAT.off → a ≠ pgFch k + SEQ_STAT.off → t.cur.rd a = s.cur.rd a)) ∧
  (∀ (k : Fin 17) (o : FlashOp) (w : Nat) (x : Byte) (s : State), (s.cur.instr k (fun x => x == 7) = some (o, w)) →
      (o.kind = .read ∧ o.acc = []) ∨ (o.kind = .erase ∧ o.page = none) ∨ o.kind = .reset →
      x.toNat &&& bits w 8 8 = bits w 8 8 → x.toNat &&& bits w 0 8 ≠ 0 → ∃ t, exec (.rcpStatus k x) s = .next t
      ∧ t.cur.get (pgFch k) SEQ_STAT_STATUS_BYTE = x.toNat ∧ (t.cur.chan k).out = (s.cur.chan k).out ++ s.cur.statusCycles o w
      ∧ (t.cur.chan k).current = none ∧ (t.cur.chan k).ops = (s.cur.chan k).ops.filter (·.id != o.id)
      ∧ (t.cur.chan k).opCount = (s.cur.chan k).opCount + 1 ∧ t.cur.flag (pgFch k) FCH_IRQ_OP_FAIL = true
      ∧ { t.cur with regs := s.cur.regs, irqSet := s.cur.irqSet, fls := s.cur.fls } = s.cur
      ∧ (∀ a, a ≠ pgFch k + FCH_LUN_STAT.off → a ≠ pgFch k + SEQ_STAT.off → a ≠ pgFch k + PG_IRQ_RAW.off → t.cur.rd a = s.cur.rd a)) ∧
  (∀ (k : Fin 17) (o : FlashOp) (w : Nat) (s : State), (s.cur.instr k (fun x => 11 ≤ x && x ≤ 14) = some (o, w)) →
      (o.kind = .read ∧ o.acc = []) ∨ (o.kind = .erase ∧ o.page = none) ∨ o.kind = .reset → ∃ t, exec (.rcpBadOp k) s = .next t
      ∧ (t.cur.chan k).current = none ∧ (t.cur.chan k).ops = (s.cur.chan k).ops.filter (·.id != o.id)
      ∧ (t.cur.chan k).opCount = (s.cur.chan k).opCount + 1 ∧ t.cur.flag (pgFch k) FCH_IRQ_OP_FAIL = true ∧ t.vis = s.vis
      ∧ { t.cur with regs := s.cur.regs, irqSet := s.cur.irqSet, fls := s.cur.fls } = s.cur
      ∧ (∀ a, a ≠ pgFch k + FCH_LUN_STAT.off → a ≠ pgFch k + PG_IRQ_RAW.off → t.cur.rd a = s.cur.rd a)) ∧
  (∀ (k : Fin 17) (o : FlashOp) (w : Nat) (s : State), (s.cur.instr k (fun x => x == 0) = some (o, w)) → o.pre = false →
      (o.kind = .read ∧ o.acc = []) ∨ (o.kind = .erase ∧ o.page = none) → pfaPhys o.pfa < 16 → ∃ t, exec (.rcpEnd k) s = .next t
      ∧ (t.cur.chan k).current = none ∧ (t.cur.chan k).ops = (s.cur.chan k).ops.filter (·.id != o.id)
      ∧ (t.cur.chan k).opCount = (s.cur.chan k).opCount + 1
      ∧ (tabGet (fun _ => 0) (t.cur.chan (pfaPhys o.pfa)).touts (lunBit o.pfa) = 0)
      ∧ (tabGet (fun _ => 0) (t.cur.bmap (pfaBay o.pfa)).fails (lunKey o.pfa) = 0)
      ∧ { t.cur with regs := s.cur.regs, fls := s.cur.fls } = s.cur
      ∧ (∀ a, a ≠ pgFch k + FCH_LUN_STAT.off → t.cur.rd a = s.cur.rd a)) ∧
  (∀ (k : Fin 17) (o : FlashOp) (w : Nat) (s : State), (s.cur.instr k (fun x => x == 0) = some (o, w)) → o.pre = true →
      pfaBay o.pfa < 4 → ∃ t, exec (.rcpEnd k) s = .next t ∧ (t.cur.chan k).current = some o.id
      ∧ ((t.cur.chan k).ops = updWhere (·.id == o.id) (fun x => { x with pre := false, plane := 0, pc := s.cur.slotStart (pfaBay o.pfa) o.slot }) (s.cur.chan k).ops)
      ∧ (t.cur.bmap (pfaBay o.pfa) = { s.cur.bmap (pfaBay o.pfa) with inForce := tabSet (fun _ => 0) (s.cur.bmap (pfaBay o.pfa)).inForce (lunKey o.pfa) o.entry })
      ∧ { t.cur with regs := s.cur.regs, fls := s.cur.fls } = s.cur
      ∧ (∀ a, a ≠ pgFch k + FCH_LUN_STAT.off → t.cur.rd a = s.cur.rd a)) ∧
  (∀ (k : Fin 17) (o : FlashOp) (w : Nat) (pg : Nat × Nat × Nat × Nat) (s : State),
      (s.cur.instr k (fun x => x == 0) = some (o, w)) → o.pre = false → o.kind = .program → o.page = some pg →
      ∃ t, exec (.rcpEnd k) s = .next t ∧ (t.cur.chan k).current = none
      ∧ ((t.cur.chan k).ops = (s.cur.chan k).ops.filter (·.id != o.id) ++ [{ o with kind := .verify, slot := if o.planes.isEmpty then 0 else 1, stage := .queued, pc := 0, plane := 0, started := 0, due := 0, id := (s.cur.chan k).nextId, queuedAt := s.cur.gtime }])
      ∧ { t.cur with regs := s.cur.regs, fls := s.cur.fls } = s.cur
      ∧ (∀ a, a ≠ pgFch k + FCH_LUN_STAT.off → t.cur.rd a = s.cur.rd a)) ∧
  (∀ (k : Fin 17) (o : FlashOp) (w : Nat) (s : State), (s.cur.instr k (fun x => x == 0) = some (o, w)) → o.pre = false →
      o.kind = .manual → ∃ t, exec (.rcpEnd k) s = .next t ∧ (t.cur.chan k).current = none
      ∧ (t.cur.chan k).ops = (s.cur.chan k).ops.filter (·.id != o.id) ∧ (t.cur.chan k).opCount = (s.cur.chan k).opCount + 1
      ∧ (t.cur.chan k).manualEnd = some (0, pfaBay o.pfa) ∧ { t.cur with regs := s.cur.regs, fls := s.cur.fls } = s.cur
      ∧ (∀ a, a ≠ pgFch k + FCH_LUN_STAT.off → t.cur.rd a = s.cur.rd a)) ∧
  (∀ (k : Fin 17) (o : FlashOp) (w : Nat) (s : State), (s.cur.instr k (fun x => x == 0) = some (o, w)) → o.pre = false →
      o.kind = .suspend → ∃ t, exec (.rcpEnd k) s = .next t ∧ (t.cur.chan k).current = none
      ∧ ((t.cur.chan k).ops = updWhere (·.id == o.target) (fun x => { x with stage := .suspended }) ((s.cur.chan k).ops.filter (·.id != o.id)))
      ∧ { t.cur with regs := s.cur.regs, fls := s.cur.fls } = s.cur
      ∧ (∀ a, a ≠ pgFch k + FCH_LUN_STAT.off → t.cur.rd a = s.cur.rd a)) ∧
  (∀ (k : Fin 17) (o : FlashOp) (w : Nat) (s : State), (s.cur.instr k (fun x => x == 0) = some (o, w)) → o.pre = false →
      o.kind = .resume → ∃ t, exec (.rcpEnd k) s = .next t ∧ (t.cur.chan k).current = none
      ∧ ((t.cur.chan k).ops = updWhere (·.id == o.target) (fun x => { x with stage := .yielded }) ((s.cur.chan k).ops.filter (·.id != o.id)))
      ∧ { t.cur with regs := s.cur.regs, fls := s.cur.fls } = s.cur
      ∧ (∀ a, a ≠ pgFch k + FCH_LUN_STAT.off → t.cur.rd a = s.cur.rd a)) ∧
  (∀ (k : Fin 17) (o : FlashOp) (w : Nat) (s : State), (s.cur.instr k (fun x => x == 0) = some (o, w)) → o.pre = false →
      o.kind = .reset → pfaBay o.pfa < 4 → ∃ t, exec (.rcpEnd k) s = .next t ∧ (t.cur.chan k).current = none
      ∧ (t.cur.chan k).ops = (s.cur.chan k).ops.filter (·.id != o.id) ∧ (t.cur.chan k).opCount = (s.cur.chan k).opCount + 1
      ∧ (tabGet (fun _ => 0) (t.cur.bmap (pfaBay o.pfa)).inForce (lunKey o.pfa) = 0)
      ∧ { t.cur with regs := s.cur.regs, fls := s.cur.fls } = s.cur
      ∧ (∀ a, a ≠ pgFch k + FCH_LUN_STAT.off → t.cur.rd a = s.cur.rd a))

/-- The first planned item of a channel whose bus is free begins at its slot's first word, or fails with ADDR_RANGE when
its address is outside the geometry or names a LUN not enabled. A poll that shows ready resumes its recipe, else it is
polled in the next Grain. An operation busy past its limit is reported failed, its LUN is reset, and FCH_TIMEOUT is
recorded. A program or erase is suspended only under the four conditions of R184, and resumed when no class 3 read
waits for its LUN; a suspend not ready in time ends its target as finished or as timed out. Commands that it says to
complete, each on the conditions of its clauses: flashBusItem, lunPoll, arrayTimeout, suspendWaitExpiry,
suspendTimeout, operationResume. -/
def Obligations.FlashScheduling : Prop :=
  (∀ (k : Fin 17) (id : Nat) (o : FlashOp) (l : List (Nat × Bool)) (s : State), (s.cur.chan k).current = none →
      (s.cur.chan k).plan = (id, false) :: l → s.cur.op k id = some o →
      lunTaken (s.cur.chan k).ops (s.cur.prepare k o) = false →
      ((s.cur.prepare k o).pfa :: (s.cur.prepare k o).planes).all s.cur.pfaOk = true → o.kind ≠ .suspend → o.kind ≠ .resume →
      ∃ t, exec (.flashBusItem k) s = .next t ∧ (t.cur.chan k).current = some id ∧ (t.cur.chan k).plan = l
      ∧ (t.cur.chan k).ce = some (pfaCe o.pfa)
      ∧ (t.cur.chan k).out = [.select (pfaCe o.pfa), .idle (s.cur.setupCk (pfaPhys o.pfa) (s.cur.opRate (s.cur.prepare k o)))]
      ∧ ((t.cur.chan k).ops = updWhere (·.id == id) (fun x => { (s.cur.prepare k o) with id := x.id, stage := .onBus, plane := 0, pc := s.cur.firstWord (s.cur.prepare k o) }) (s.cur.chan k).ops)
      ∧ (t.cur.chan k).busyPs = (s.cur.chan k).busyPs + s.cur.startPs (s.cur.prepare k o) ∧ t.vis = s.vis
      ∧ { t.cur with regs := s.cur.regs, fls := s.cur.fls } = s.cur
      ∧ (∀ a, a ≠ pgFch k + FCH_LUN_STAT.off → t.cur.rd a = s.cur.rd a)) ∧
  (∀ (k : Fin 17) (id : Nat) (o : FlashOp) (l : List (Nat × Bool)) (u : FlashOp) (s : State), (s.cur.chan k).current = none →
      (s.cur.chan k).plan = (id, false) :: l → s.cur.op k id = some o →
      lunTaken (s.cur.chan k).ops (s.cur.prepare k o) = false →
      ((s.cur.prepare k o).pfa :: (s.cur.prepare k o).planes).all s.cur.pfaOk = true → o.kind = .suspend → o.target ≠ id →
      s.cur.op k o.target = some u → ∃ t, exec (.flashBusItem k) s = .next t ∧ (t.cur.chan k).current = some id
      ∧ ((t.cur.op k o.target).map (fun x => (x.susp, x.suspAt)) = some (u.susp + 1, s.cur.gtime)) ∧ t.vis = s.vis
      ∧ { t.cur with regs := s.cur.regs, fls := s.cur.fls } = s.cur
      ∧ (∀ a, a ≠ pgFch k + FCH_LUN_STAT.off → t.cur.rd a = s.cur.rd a)) ∧
  (∀ (k : Fin 17) (id : Nat) (o : FlashOp) (l : List (Nat × Bool)) (u : FlashOp) (s : State), (s.cur.chan k).current = none →
      (s.cur.chan k).plan = (id, false) :: l → s.cur.op k id = some o →
      lunTaken (s.cur.chan k).ops (s.cur.prepare k o) = false →
      ((s.cur.prepare k o).pfa :: (s.cur.prepare k o).planes).all s.cur.pfaOk = true → o.kind = .resume → o.target ≠ id →
      s.cur.op k o.target = some u → ∃ t, exec (.flashBusItem k) s = .next t ∧ (t.cur.chan k).current = some id
      ∧ ((t.cur.op k o.target).map (fun x => (x.started, x.due)) = some (u.started + (s.cur.gtime - u.suspAt), u.due + (s.cur.gtime - u.suspAt)))
      ∧ t.vis = s.vis ∧ { t.cur with regs := s.cur.regs, fls := s.cur.fls } = s.cur
      ∧ (∀ a, a ≠ pgFch k + FCH_LUN_STAT.off → t.cur.rd a = s.cur.rd a)) ∧
  (∀ (k : Fin 17) (id : Nat) (o : FlashOp) (l : List (Nat × Bool)) (s : State), (s.cur.chan k).current = none →
      (s.cur.chan k).plan = (id, false) :: l → s.cur.op k id = some o →
      lunTaken (s.cur.chan k).ops (s.cur.prepare k o) = false →
      ((s.cur.prepare k o).pfa :: (s.cur.prepare k o).planes).all s.cur.pfaOk = false →
      (o.kind = .read ∧ o.acc = []) ∨ (o.kind = .erase ∧ o.page = none) ∨ o.kind = .reset →
      ∃ t, exec (.flashBusItem k) s = .next t ∧ (t.cur.chan k).current = none ∧ (t.cur.chan k).plan = l.filter (·.1 != id)
      ∧ (t.cur.chan k).ops = (s.cur.chan k).ops.filter (·.id != id) ∧ t.cur.flag (pgFch k) FCH_IRQ_OP_FAIL = true
      ∧ t.vis = s.vis ∧ { t.cur with regs := s.cur.regs, irqSet := s.cur.irqSet, fls := s.cur.fls } = s.cur
      ∧ (∀ a, a ≠ pgFch k + FCH_LUN_STAT.off → a ≠ pgFch k + PG_IRQ_RAW.off → t.cur.rd a = s.cur.rd a)) ∧
  (∀ (k : Fin 17) (s : State), (s.cur.chan k).current.isSome = true ∨ (s.cur.chan k).plan = [] →
      ∃ t, exec (.flashBusItem k) s = .next t ∧ t.cur = s.cur ∧ t.vis = s.vis
      ∧ { t.cur with regs := s.cur.regs, irqSet := s.cur.irqSet, fls := s.cur.fls } = s.cur) ∧
  (∀ (k : Fin 17) (id : Nat) (o : FlashOp) (l : List (Nat × Bool)) (x : Byte) (s : State), (s.cur.chan k).current = none →
      (s.cur.chan k).plan = (id, true) :: l → s.cur.op k id = some o → s.cur.ready o x = true →
      ∃ t, exec (.lunPoll k x) s = .next t ∧ (t.cur.chan k).current = some id
      ∧ ((t.cur.chan k).plan.all (fun y => l.contains y) = true) ∧ (t.cur.chan k).ce = some (pfaCe o.pfa)
      ∧ (t.cur.chan k).out = [.select (pfaCe o.pfa), .idle (s.cur.setupCk (pfaPhys o.pfa) (s.cur.opRate o))] ++ (s.cur.pollOf o).1
      ∧ ((t.cur.chan k).ops = updWhere (·.id == id) (fun y => { y with stage := .onBus }) (s.cur.chan k).ops)
      ∧ (t.cur.chan k).busyPs = (s.cur.chan k).busyPs + s.cur.pollPs o + s.cur.resumePs o
      ∧ t.cur.get (pgFch k) SEQ_STAT_STATUS_BYTE = x.toNat ∧ t.vis = s.vis
      ∧ { t.cur with regs := s.cur.regs, fls := s.cur.fls } = s.cur
      ∧ (∀ a, a ≠ pgFch k + FCH_LUN_STAT.off → a ≠ pgFch k + SEQ_STAT.off → t.cur.rd a = s.cur.rd a)) ∧
  (∀ (k : Fin 17) (id : Nat) (o : FlashOp) (l : List (Nat × Bool)) (x : Byte) (s : State), (s.cur.chan k).current = none →
      (s.cur.chan k).plan = (id, true) :: l → s.cur.op k id = some o → s.cur.ready o x = false →
      ∃ t, exec (.lunPoll k x) s = .next t ∧ (t.cur.chan k).current = none ∧ (t.cur.chan k).plan = l ∧ (t.cur.chan k).ce = none
      ∧ (t.cur.chan k).out = [.select (pfaCe o.pfa), .idle (s.cur.setupCk (pfaPhys o.pfa) (s.cur.opRate o))] ++ (s.cur.pollOf o).1
      ∧ ((t.cur.chan k).ops = updWhere (·.id == id) (fun y => { y with due := s.cur.gtime + 1 }) (s.cur.chan k).ops)
      ∧ (t.cur.chan k).busyPs = (s.cur.chan k).busyPs + s.cur.pollPs o ∧ t.cur.get (pgFch k) SEQ_STAT_STATUS_BYTE = x.toNat
      ∧ t.vis = s.vis ∧ { t.cur with regs := s.cur.regs, fls := s.cur.fls } = s.cur
      ∧ (∀ a, a ≠ pgFch k + FCH_LUN_STAT.off → a ≠ pgFch k + SEQ_STAT.off → t.cur.rd a = s.cur.rd a)) ∧
  (∀ (k : Fin 17) (id n : Nat) (o : FlashOp) (s : State), s.cur.op k id = some o →
      s.cur.limitOf (pfaPhys o.pfa) o.expect = some n → o.stage = .yielded →
      (o.kind = .read ∧ o.acc = []) ∨ (o.kind = .erase ∧ o.page = none) → pfaPhys o.pfa < 16 → o.started + n < s.cur.gtime →
      ∃ t, exec (.arrayTimeout k id) s = .next t
      ∧ (t.cur.chan k).ops = (s.cur.chan k).ops.filter (·.id != id) ++ [{ id := (s.cur.chan k).nextId, kind := .reset, slot := 9, pfa := o.pfa, cls := 1, queuedAt := s.cur.gtime }]
      ∧ t.cur.flag (pgFch k) FCH_IRQ_TIMEOUT = true ∧ t.cur.flag (pgFch k) FCH_IRQ_OP_FAIL = true
      ∧ (tabGet (fun _ => 0) (t.cur.chan (pfaPhys o.pfa)).touts (lunBit o.pfa) = tabGet (fun _ => 0) (s.cur.chan (pfaPhys o.pfa)).touts (lunBit o.pfa) + 1)
      ∧ t.cur.fj.staged = s.cur.fj.staged ++ [{ gtime := s.cur.gtime48, pgId := pgIdOf (pgFch k), code := 0x0401, deg := false, flt := false, data := [lunBit o.pfa, o.slot].map (· % 2 ^ 32) }]
      ∧ t.vis = s.vis ∧ { t.cur with regs := s.cur.regs, irqSet := s.cur.irqSet, fj := s.cur.fj, fls := s.cur.fls } = s.cur
      ∧ (∀ a, a ≠ pgFch k + FCH_LUN_STAT.off → a ≠ pgFch k + PG_IRQ_RAW.off → t.cur.rd a = s.cur.rd a)) ∧
  (∀ (k : Fin 17) (id n : Nat) (o : FlashOp) (s : State), s.cur.op k id = some o →
      o.stage ≠ .yielded ∨ o.kind = .suspend ∨ (s.cur.limitOf (pfaPhys o.pfa) o.expect = some n ∧ s.cur.gtime ≤ o.started + n) →
      ∃ t, exec (.arrayTimeout k id) s = .next t ∧ t.cur = s.cur ∧ t.vis = s.vis
      ∧ { t.cur with regs := s.cur.regs, irqSet := s.cur.irqSet, fj := s.cur.fj, fls := s.cur.fls } = s.cur) ∧
  (∀ (k : Fin 17) (id n : Nat) (o : FlashOp) (a z : Nat) (s : State), s.cur.op k id = some o → suspendSlots o = some (a, z) →
      o.stage = .yielded → s.cur.slotStart (pfaBay o.pfa) a ≠ 0 → s.cur.slotStart (pfaBay o.pfa) z ≠ 0 →
      s.vis.flag pgFsch FSCH_STAT_URGENT = false → o.susp < s.cur.get (pgFch k) FCH_SUSP_MAX_SUSP →
      n = s.cur.get (pgFch k) FCH_SUSP_SUSP_WAIT_G →
      ((s.cur.readsFor k o).any (fun r => r.stage == .queued && decide (r.queuedAt + n ≤ s.cur.gtime + 1)) = true) →
      ((s.cur.chan k).ops.any (fun x => x.kind == .suspend && x.target == id) = false) →
      ∃ t, exec (.suspendWaitExpiry k id) s = .next t
      ∧ (t.cur.fls = (s.cur.updChan k fun c => { c with ops := c.ops ++ [{ id := c.nextId, kind := .suspend, slot := a, pfa := o.pfa, cls := 3, target := id, queuedAt := s.cur.gtime }], nextId := c.nextId + 1 }).fls)
      ∧ t.vis = s.vis ∧ { t.cur with fls := s.cur.fls } = s.cur) ∧
  (∀ (k : Fin 17) (id : Nat) (s : State),
      s.vis.flag pgFsch FSCH_STAT_URGENT = true ∨ s.cur.get (pgFch k) FCH_SUSP_MAX_SUSP = 0 →
      ∃ t, exec (.suspendWaitExpiry k id) s = .next t ∧ t.cur = s.cur ∧ t.vis = s.vis ∧ { t.cur with fls := s.cur.fls } = s.cur) ∧
  (∀ (k : Fin 17) (id n : Nat) (o : FlashOp) (u : FlashOp) (x : Byte) (s : State), s.cur.op k id = some o → o.kind = .suspend →
      o.stage = .yielded → n = s.cur.get (pgFch k) FCH_ATO1_TSUSP_G → o.started + n ≤ s.cur.gtime →
      s.cur.op k o.target = some u → u.kind = .erase → u.page = none → u.id ≠ id → s.cur.ready o x = true →
      ∃ t, exec (.suspendTimeout k id x) s = .next t
      ∧ (t.cur.chan k).ops = ((s.cur.chan k).ops.filter (·.id != id)).filter (·.id != u.id)
      ∧ (bit x.toNat 0 = false → t.cur.flag (pgFch k) FCH_IRQ_OP_FAIL = s.cur.flag (pgFch k) FCH_IRQ_OP_FAIL)
      ∧ (bit x.toNat 0 = true → t.cur.flag (pgFch k) FCH_IRQ_OP_FAIL = true) ∧ t.vis = s.vis
      ∧ { t.cur with regs := s.cur.regs, irqSet := s.cur.irqSet, fls := s.cur.fls } = s.cur
      ∧ (∀ a, a ≠ pgFch k + FCH_LUN_STAT.off → a ≠ pgFch k + PG_IRQ_RAW.off → t.cur.rd a = s.cur.rd a)) ∧
  (∀ (k : Fin 17) (id n : Nat) (o : FlashOp) (u : FlashOp) (x : Byte) (s : State), s.cur.op k id = some o → o.kind = .suspend →
      o.stage = .yielded → n = s.cur.get (pgFch k) FCH_ATO1_TSUSP_G → o.started + n ≤ s.cur.gtime →
      s.cur.op k o.target = some u → u.kind = .erase → u.page = none → u.id ≠ id → s.cur.ready o x = false →
      ∃ t, exec (.suspendTimeout k id x) s = .next t
      ∧ (t.cur.chan k).ops = ((s.cur.chan k).ops.filter (·.id != id)).filter (·.id != u.id) ++ [{ id := (s.cur.chan k).nextId, kind := .reset, slot := 9, pfa := u.pfa, cls := 1, queuedAt := s.cur.gtime }]
      ∧ t.cur.flag (pgFch k) FCH_IRQ_TIMEOUT = true ∧ t.cur.flag (pgFch k) FCH_IRQ_OP_FAIL = true
      ∧ (t.cur.fj.staged.getLast?.map (fun y => (y.pgId, y.code)) = some (pgIdOf (pgFch k), 0x0401)) ∧ t.vis = s.vis
      ∧ { t.cur with regs := s.cur.regs, irqSet := s.cur.irqSet, fj := s.cur.fj, fls := s.cur.fls } = s.cur
      ∧ (∀ a, a ≠ pgFch k + FCH_LUN_STAT.off → a ≠ pgFch k + PG_IRQ_RAW.off → t.cur.rd a = s.cur.rd a)) ∧
  (∀ (k : Fin 17) (id a z : Nat) (o : FlashOp) (s : State), s.cur.op k id = some o → suspendSlots o = some (a, z) →
      o.stage = .suspended → s.cur.readsFor k o = [] →
      ((s.cur.chan k).ops.any (fun x => x.kind == .resume && x.target == id) = false) →
      ∃ t, exec (.operationResume k id) s = .next t
      ∧ (t.cur.fls = (s.cur.updChan k fun c => { c with ops := c.ops ++ [{ id := c.nextId, kind := .resume, slot := z, pfa := o.pfa, cls := 1, target := id, queuedAt := s.cur.gtime }], nextId := c.nextId + 1 }).fls)
      ∧ t.vis = s.vis ∧ { t.cur with fls := s.cur.fls } = s.cur) ∧
  (∀ (k : Fin 17) (id : Nat) (o : FlashOp) (s : State), s.cur.op k id = some o →
      o.stage ≠ .suspended ∨ s.cur.readsFor k o ≠ [] → ∃ t, exec (.operationResume k id) s = .next t ∧ t.cur = s.cur
      ∧ t.vis = s.vis ∧ { t.cur with fls := s.cur.fls } = s.cur)

/-- Training reports both eyes and the DQS phase and sets TRAINED exactly when both are at least 30 percent; a failure
while the bay is identified puts it in FAULT with code 6. A write of BAY_RCP_DATA stores the word and advances ADDR,
and is refused in WRITABLE and RELEASING. A failing sequencer is isolated and served by FCH16; a second failure
disables its channel. FCH16 plans from the 25th Grain. A manual operation is queued in class 3 under the conditions of
R200 and reports its end. Commands that it says to complete, each on the conditions of its clauses: phyTrain,
bayRcpDataWrite, sequencerFail, spareTakeover, manualGo, manualOpEnd. -/
def Obligations.ChannelControl : Prop :=
  (∀ (k : Fin 17) (wr rd ph : Byte) (s : State), s.cur.get (pgFch k) FCH_PHY_CFG_MODE ≠ 0 → 30 ≤ wr.toNat → 30 ≤ rd.toNat →
      ∃ t, exec (.phyTrain k wr rd ph) s = .next t ∧ t.cur.flag (pgFch k) FCH_TRAIN_TRAINED = true
      ∧ t.cur.get (pgFch k) FCH_TRAIN_WR_EYE_PCT = wr.toNat ∧ t.cur.get (pgFch k) FCH_TRAIN_RD_EYE_PCT = rd.toNat
      ∧ t.cur.get (pgFch k) FCH_TRAIN_DQS_PH = ph.toNat
      ∧ (t.cur.fls = (s.cur.updChan k fun c => { c with trainedPh := ph.toNat }).fls) ∧ t.vis = s.vis
      ∧ { t.cur with regs := s.cur.regs, fls := s.cur.fls } = s.cur
      ∧ (∀ a, a ≠ pgFch k + FCH_TRAIN.off → t.cur.rd a = s.cur.rd a)) ∧
  (∀ (k : Fin 16) (wr rd ph : Byte) (s : State), s.cur.get (pgFch k) FCH_PHY_CFG_MODE ≠ 0 → wr.toNat < 30 ∨ rd.toNat < 30 →
      s.cur.bayState (k.val / 4) = 3 → ∃ t, exec (.phyTrain (k.castSucc) wr rd ph) s = .next t
      ∧ t.cur.flag (pgFch k) FCH_TRAIN_TRAINED = false ∧ t.cur.bayState (k.val / 4) = 9
      ∧ t.cur.get (pgBay (k.val / 4)) BAY_STAT_IDENT_CODE = 6 ∧ t.cur.flag (pgBay (k.val / 4)) BAY_IRQ_FAULT = true
      ∧ t.cur.fj.staged = s.cur.fj.staged ++ [{ gtime := s.cur.gtime48, pgId := pgIdOf (pgBay (k.val / 4)), code := 0x0402, deg := false, flt := false, data := [6] }]
      ∧ t.vis = s.vis ∧ { t.cur with regs := s.cur.regs, irqSet := s.cur.irqSet, fj := s.cur.fj, fls := s.cur.fls } = s.cur
      ∧ (∀ a, a ≠ pgFch k + FCH_TRAIN.off → a ≠ pgBay (k.val / 4) + BAY_STAT.off → a ≠ pgBay (k.val / 4) + PG_IRQ_RAW.off → t.cur.rd a = s.cur.rd a)) ∧
  (∀ (b : Fin 4) (r : Requester) (v : Word) (s : State), s.vis.bayState b ≠ 5 → s.vis.bayState b ≠ 6 →
      ∃ t, exec (.bayRcpDataWrite b r v) s = .next t ∧ t.cur.recipeWord b (bits (s.cur.get (pgBay b) BAY_RCP_ADDR) 0 9) = v
      ∧ t.cur.get (pgBay b) BAY_RCP_ADDR = (bits (s.cur.get (pgBay b) BAY_RCP_ADDR) 0 9 + 1) % 512
      ∧ (∀ i, i < 2048 → i ≠ b.val * 512 + bits (s.cur.get (pgBay b) BAY_RCP_ADDR) 0 9 → tabGet (fun _ => none) t.cur.fls.recipes i = tabGet (fun _ => none) s.cur.fls.recipes i)
      ∧ t.vis = s.vis ∧ { t.cur with regs := s.cur.regs, fls := s.cur.fls } = s.cur
      ∧ (∀ a, a ≠ pgBay b + BAY_RCP_ADDR.off → a ≠ pgBay b + BAY_RCP_DATA.off → t.cur.rd a = s.cur.rd a)) ∧
  (∀ (b : Fin 4) (r : Requester) (v : Word) (s : State), s.vis.bayState b = 5 ∨ s.vis.bayState b = 6 →
      ∃ t, exec (.bayRcpDataWrite b r v) s = .next t
      ∧ t.cur = s.cur.err (pgBay b) .rcpBusy BAY_RCP_DATA.off r.code (pgBay b + BAY_RCP_DATA.off) ∧ t.vis = s.vis
      ∧ { t.cur with regs := s.cur.regs, fls := s.cur.fls } = s.cur) ∧
  (∀ (k : Fin 16) (s : State), s.cur.flag (pgFch 16) FCH_SPARE_ACTIVE = false → (s.cur.chan 16).disabled = false →
      (s.cur.chan 16).ops.any (·.kind == .manual) = false →
      ((s.cur.chan k).ops.any (fun o => o.stage == .onBus && o.kind == .program) = false) →
      ∃ t, exec (.sequencerFail (k.castSucc)) s = .next t ∧ t.cur.flag (pgFch 16) FCH_SPARE_ACTIVE = true
      ∧ t.cur.get (pgFch 16) FCH_SPARE_SERVES = k.val ∧ t.cur.flag (pgFch k) FCH_SPARE_REMAPPED = true
      ∧ t.cur.flag pgFsch FSCH_STAT_SPARE_USED = true ∧ t.cur.flag (pgFch k) FCH_IRQ_REMAP = true
      ∧ (t.cur.fls = (s.cur.updChan k fun c => { c with ops := c.ops.map (·.back), plan := [], next := [], current := none, ce := none, planPs := 0, nextPs := 0, isolated := true, failedAt := some s.cur.gtime }).fls)
      ∧ t.vis = s.vis ∧ { t.cur with regs := s.cur.regs, irqSet := s.cur.irqSet, fls := s.cur.fls } = s.cur
      ∧ (∀ a, a ≠ pgFch k + FCH_SPARE.off → a ≠ pgFch 16 + FCH_SPARE.off → a ≠ pgFsch + FSCH_STAT.off → a ≠ pgFch k + PG_IRQ_RAW.off → a ≠ pgFch k + FCH_LUN_STAT.off → t.cur.rd a = s.cur.rd a)) ∧
  (∀ (k : Fin 16) (o : FlashOp) (s : State), s.cur.flag (pgFch 16) FCH_SPARE_ACTIVE = false → (s.cur.chan 16).disabled = false →
      (s.cur.chan 16).ops.any (·.kind == .manual) = false → (s.cur.chan k).ops = [o] → o.stage = .onBus → o.kind = .program →
      ∃ t, exec (.sequencerFail (k.castSucc)) s = .next t ∧ t.cur.flag (pgFch 16) FCH_SPARE_ACTIVE = true
      ∧ t.cur.get (pgFch 16) FCH_SPARE_SERVES = k.val ∧ t.cur.flag (pgFch k) FCH_SPARE_REMAPPED = true
      ∧ t.cur.flag pgFsch FSCH_STAT_SPARE_USED = true ∧ t.cur.flag (pgFch k) FCH_IRQ_REMAP = true
      ∧ (t.cur.chan k).ops = [{ o with stage := .queued, pc := 0, plane := 0, started := 0 }, { id := (s.cur.chan k).nextId, kind := .reset, slot := 9, pfa := o.pfa, cls := 1, queuedAt := s.cur.gtime }]
      ∧ (t.cur.chan k).isolated = true ∧ t.vis = s.vis
      ∧ { t.cur with regs := s.cur.regs, irqSet := s.cur.irqSet, fls := s.cur.fls } = s.cur
      ∧ (∀ a, a ≠ pgFch k + FCH_SPARE.off → a ≠ pgFch 16 + FCH_SPARE.off → a ≠ pgFsch + FSCH_STAT.off → a ≠ pgFch k + PG_IRQ_RAW.off → a ≠ pgFch k + FCH_LUN_STAT.off → t.cur.rd a = s.cur.rd a)) ∧
  (∀ (k : Fin 16) (o : FlashOp) (s : State), s.cur.flag (pgFch 16) FCH_SPARE_ACTIVE = false → (s.cur.chan 16).disabled = false →
      (s.cur.chan 16).ops.find? (·.kind == .manual) = some o → ∃ t, exec (.sequencerFail (k.castSucc)) s = .next t
      ∧ t.cur.flag (pgFch 16) FCH_SPARE_ACTIVE = true ∧ t.cur.get (pgFch 16) FCH_SPARE_SERVES = k.val
      ∧ t.cur.flag (pgFch k) FCH_SPARE_REMAPPED = true ∧ t.cur.flag pgFsch FSCH_STAT_SPARE_USED = true
      ∧ t.cur.flag (pgFch k) FCH_IRQ_REMAP = true ∧ (t.cur.chan 16).manualEnd = some (5, pfaBay o.pfa)
      ∧ (t.cur.chan k).isolated = true ∧ t.vis = s.vis
      ∧ { t.cur with regs := s.cur.regs, irqSet := s.cur.irqSet, fls := s.cur.fls } = s.cur) ∧
  (∀ (k : Fin 16) (s : State), s.cur.flag (pgFch 16) FCH_SPARE_ACTIVE = true ∨ (s.cur.chan 16).disabled = true →
      (s.cur.chan 16).ops.any (·.kind == .manual) = false → ∃ t, exec (.sequencerFail (k.castSucc)) s = .next t
      ∧ (t.cur.fls = (s.cur.updChan k fun c => { c with disabled := true, plan := [], next := [], current := none, ce := none }).fls)
      ∧ t.cur.flag (pgFch k) PG_STAT_DEGRADED = true ∧ t.cur.flag pgFsch PG_STAT_DEGRADED = true
      ∧ t.cur.get (pgFch 16) FCH_SPARE_SERVES = s.cur.get (pgFch 16) FCH_SPARE_SERVES ∧ t.vis = s.vis
      ∧ { t.cur with regs := s.cur.regs, irqSet := s.cur.irqSet, fls := s.cur.fls } = s.cur) ∧
  (∀ (s : State), s.cur.flag (pgFch 16) FCH_SPARE_ACTIVE = false → (s.cur.chan 16).ops.any (·.kind == .manual) = false →
      ∃ t, exec (.sequencerFail 16) s = .next t
      ∧ (t.cur.fls = (s.cur.updChan 16 fun c => { c with disabled := true, plan := [], next := [], current := none, ce := none }).fls)
      ∧ t.cur.flag (pgFch 16) PG_STAT_DEGRADED = true ∧ t.cur.flag pgFsch PG_STAT_DEGRADED = true ∧ t.vis = s.vis
      ∧ { t.cur with regs := s.cur.regs, irqSet := s.cur.irqSet, fls := s.cur.fls } = s.cur) ∧
  (∀ (k : Fin 17) (g : Nat) (s : State), (s.cur.chan k).failedAt = some g → (s.cur.chan k).isolated = true →
      g + 25 ≤ s.cur.gtime → ∃ t, exec (.spareTakeover k) s = .next t ∧ (t.cur.chan k).isolated = false
      ∧ ((t.cur.chan k).ops.take (s.cur.chan k).ops.length = (s.cur.chan k).ops.map (fun o => if o.stage == .yielded then { o with due := s.cur.gtime } else o))
      ∧ (∀ i, i < 16 → bit (s.cur.get (pgFch k) FCH_TGT_LUN_EN) i = true → (t.cur.chan k).ops.any (fun o => lunBit o.pfa == i && (o.kind == .poll || (o.stage == .yielded && decide (o.due = s.cur.gtime)))) = true)
      ∧ t.vis = s.vis ∧ { t.cur with fls := s.cur.fls } = s.cur) ∧
  (∀ (k : Fin 17) (g : Nat) (s : State), (s.cur.chan k).failedAt = some g → s.cur.gtime < g + 25 →
      ∃ t, exec (.spareTakeover k) s = .next t ∧ t.cur = s.cur ∧ t.vis = s.vis ∧ { t.cur with fls := s.cur.fls } = s.cur) ∧
  (∀ (k : Fin 16) (r : Requester) (v : Word) (pfa : Nat) (s : State), bit v.toNat 1 = true →
      s.cur.flag (pgFch k) SEQ_STAT_BUSY = false → s.cur.starts (pgFch k) = true →
      s.cur.get64 (pgFch k) SEQ_BUF_LO SEQ_BUF_HI % 64 = 0 →
      k.val * 2 ^ 60 + s.cur.get64 (pgFch k) SEQ_ARG_LO SEQ_ARG_HI % 2 ^ 60 = pfa →
      writesSlot (bits v.toNat 16 5) = false ∨ s.vis.bayState (pfaBay pfa) = 5 →
      ((s.cur.chan (pfaPhys pfa)).ops.all (fun o => o.kind == .manual || lunBit o.pfa != lunBit pfa) = true) →
      ∃ t, exec (.manualGo (k.castSucc) r v) s = .next t ∧ t.cur.flag (pgFch k) SEQ_CTL_GO = true
      ∧ t.cur.flag (pgFch k) SEQ_STAT_BUSY = true ∧ t.cur.get (pgFch k) SEQ_CTL_SLOT = bits v.toNat 16 5
      ∧ (t.cur.chan k).ops = (s.cur.chan k).ops ++ [{ id := (s.cur.chan k).nextId, kind := .manual, slot := bits v.toNat 16 5, pfa := pfa, cls := 3, queuedAt := s.cur.gtime, buf := s.cur.get64 (pgFch k) SEQ_BUF_LO SEQ_BUF_HI, len := s.cur.get (pgFch k) SEQ_LEN }]
      ∧ t.vis = s.vis ∧ { t.cur with regs := s.cur.regs, fls := s.cur.fls } = s.cur
      ∧ (∀ a, a ≠ pgFch k + SEQ_CTL.off → a ≠ pgFch k + SEQ_STAT.off → t.cur.rd a = s.cur.rd a)) ∧
  (∀ (r : Requester) (v : Word) (pfa : Nat) (s : State), bit v.toNat 1 = true → s.cur.flag (pgFch 16) SEQ_STAT_BUSY = false →
      s.cur.starts (pgFch 16) = true → s.cur.get64 (pgFch 16) SEQ_BUF_LO SEQ_BUF_HI % 64 = 0 →
      s.cur.get64 (pgFch 16) SEQ_ARG_LO SEQ_ARG_HI = pfa → writesSlot (bits v.toNat 16 5) = false →
      ((s.cur.chan (pfaPhys pfa)).ops.all (fun o => o.kind == .manual || lunBit o.pfa != lunBit pfa) = true) →
      s.cur.flag (pgFch 16) FCH_SPARE_ACTIVE = false → s.vis.bayState (pfaBay pfa) = 9 →
      ∃ t, exec (.manualGo 16 r v) s = .next t ∧ t.cur.flag (pgFch 16) SEQ_CTL_GO = true
      ∧ t.cur.flag (pgFch 16) SEQ_STAT_BUSY = true ∧ t.cur.get (pgFch 16) SEQ_CTL_SLOT = bits v.toNat 16 5
      ∧ (t.cur.chan 16).ops = (s.cur.chan 16).ops ++ [{ id := (s.cur.chan 16).nextId, kind := .manual, slot := bits v.toNat 16 5, pfa := pfa, cls := 3, queuedAt := s.cur.gtime, buf := s.cur.get64 (pgFch 16) SEQ_BUF_LO SEQ_BUF_HI, len := s.cur.get (pgFch 16) SEQ_LEN }]
      ∧ (t.cur.bay (pfaBay pfa)).pwren = true ∧ (t.cur.bay (pfaBay pfa)).manualPower = some { since := s.cur.gtime }
      ∧ t.vis = s.vis ∧ { t.cur with regs := s.cur.regs, fls := s.cur.fls } = s.cur
      ∧ (∀ a, a ≠ pgFch 16 + SEQ_CTL.off → a ≠ pgFch 16 + SEQ_STAT.off → t.cur.rd a = s.cur.rd a)) ∧
  (∀ (r : Requester) (v : Word) (pfa : Nat) (s : State), bit v.toNat 1 = true → s.cur.flag (pgFch 16) SEQ_STAT_BUSY = false →
      s.cur.starts (pgFch 16) = true → s.cur.get64 (pgFch 16) SEQ_BUF_LO SEQ_BUF_HI % 64 = 0 →
      s.cur.get64 (pgFch 16) SEQ_ARG_LO SEQ_ARG_HI = pfa → writesSlot (bits v.toNat 16 5) = false →
      ((s.cur.chan (pfaPhys pfa)).ops.all (fun o => o.kind == .manual || lunBit o.pfa != lunBit pfa) = true) →
      s.cur.flag (pgFch 16) FCH_SPARE_ACTIVE = false → s.vis.bayState (pfaBay pfa) = 4 →
      ∃ t, exec (.manualGo 16 r v) s = .next t ∧ t.cur.flag (pgFch 16) SEQ_CTL_GO = true
      ∧ t.cur.flag (pgFch 16) SEQ_STAT_BUSY = true ∧ t.cur.get (pgFch 16) SEQ_CTL_SLOT = bits v.toNat 16 5
      ∧ (t.cur.chan 16).ops = (s.cur.chan 16).ops ++ [{ id := (s.cur.chan 16).nextId, kind := .manual, slot := bits v.toNat 16 5, pfa := pfa, cls := 3, queuedAt := s.cur.gtime, buf := s.cur.get64 (pgFch 16) SEQ_BUF_LO SEQ_BUF_HI, len := s.cur.get (pgFch 16) SEQ_LEN }]
      ∧ t.cur.fls.bays = s.cur.fls.bays ∧ t.vis = s.vis ∧ { t.cur with regs := s.cur.regs, fls := s.cur.fls } = s.cur
      ∧ (∀ a, a ≠ pgFch 16 + SEQ_CTL.off → a ≠ pgFch 16 + SEQ_STAT.off → t.cur.rd a = s.cur.rd a)) ∧
  (∀ (k : Fin 16) (r : Requester) (v : Word) (pfa : Nat) (s : State), bit v.toNat 1 = true →
      s.cur.flag (pgFch k) SEQ_STAT_BUSY = false → s.cur.starts (pgFch k) = true →
      s.cur.get64 (pgFch k) SEQ_BUF_LO SEQ_BUF_HI % 64 = 0 →
      k.val * 2 ^ 60 + s.cur.get64 (pgFch k) SEQ_ARG_LO SEQ_ARG_HI % 2 ^ 60 = pfa →
      ((writesSlot (bits v.toNat 16 5) = true ∧ s.vis.bayState (pfaBay pfa) ≠ 5) ∨ (s.cur.chan (pfaPhys pfa)).ops.any (fun o => o.kind != .manual && lunBit o.pfa == lunBit pfa) = true) →
      ∃ t, exec (.manualGo (k.castSucc) r v) s = .next t ∧ t.cur.fls = s.cur.fls
      ∧ t.cur.flag (pgFch k) SEQ_CTL_GO = s.cur.flag (pgFch k) SEQ_CTL_GO ∧ t.cur.flag (pgFch k) SEQ_STAT_BUSY = false
      ∧ (s.cur.flag (pgFch k) PG_ERR_INFO_VALID = false → t.cur.get (pgFch k) PG_ERR_INFO_CODE = ErrCode.manualState.value)
      ∧ t.vis = s.vis ∧ { t.cur with regs := s.cur.regs, fls := s.cur.fls } = s.cur) ∧
  (∀ (k : Fin 16) (code b : Nat) (s : State), (s.cur.chan k).manualEnd = some (code, b) → code < 256 →
      ∃ t, exec (.manualOpEnd (k.castSucc)) s = .next t ∧ t.cur.flag (pgFch k) SEQ_STAT_BUSY = false
      ∧ (t.cur.flag (pgFch k) (if code = 0 then SEQ_STAT_DONE else SEQ_STAT_FAIL) = true)
      ∧ t.cur.get (pgFch k) SEQ_STAT_ERR = code ∧ t.cur.flag (pgFch k) FCH_IRQ_MANUAL_DONE = true
      ∧ (t.cur.fls = (s.cur.updChan k fun c => { c with manualEnd := none }).fls) ∧ t.vis = s.vis
      ∧ { t.cur with regs := s.cur.regs, irqSet := s.cur.irqSet, fls := s.cur.fls } = s.cur
      ∧ (∀ a, a ≠ pgFch k + SEQ_STAT.off → a ≠ pgFch k + PG_IRQ_RAW.off → t.cur.rd a = s.cur.rd a)) ∧
  (∀ (code b : Nat) (s : State), (s.cur.chan 16).manualEnd = some (code, b) → code < 256 → b < 4 →
      (s.cur.bay b).manualPower.isSome = true → ∃ t, exec (.manualOpEnd 16) s = .next t
      ∧ t.cur.flag (pgFch 16) SEQ_STAT_BUSY = false
      ∧ (t.cur.flag (pgFch 16) (if code = 0 then SEQ_STAT_DONE else SEQ_STAT_FAIL) = true)
      ∧ t.cur.get (pgFch 16) SEQ_STAT_ERR = code ∧ t.cur.flag (pgFch 16) FCH_IRQ_MANUAL_DONE = true
      ∧ (t.cur.chan 16).manualEnd = none ∧ (t.cur.bay b).pwren = false ∧ (t.cur.bay b).manualPower = none
      ∧ t.cur.flag (pgBay b) BAY_STAT_PGOOD = false ∧ t.vis = s.vis
      ∧ { t.cur with regs := s.cur.regs, irqSet := s.cur.irqSet, fls := s.cur.fls } = s.cur
      ∧ (∀ a, a ≠ pgFch 16 + SEQ_STAT.off → a ≠ pgFch 16 + PG_IRQ_RAW.off → a ≠ pgBay b + BAY_STAT.off → t.cur.rd a = s.cur.rd a))

/-- Each transition of R190 takes place exactly under its cause, and the lock, the supply and the interrupts follow the
state entered: presence low brings an EMPTY bay to INSERTING and high brings it back; ARM and the insertion debounce
power it; power-good and its settle time lead to identification, its absence to FAULT; WRITE_EN makes a prepared READY
bay WRITABLE or starts formatting of a blank one; RELEASE takes a WRITABLE bay to RELEASING and a READY one to
RELEASED; a bay that loses presence goes to EMPTY, from a running state as a forced removal with its record. A power
loss holds WRITABLE and RELEASING bays as they are. Commands that it says to complete, each on the conditions of its
clauses: bayPresenceLow, bayPresenceHigh, insertDebounceExpiry, bayArmWrite, bayPgood, baySettleExpiry, bayPgTimeout,
bayWriteEnWrite, bayRelease, bayReleasingDone, bayRemovalDebounce, bayBecomesWritable, bayIdentify. -/
def Obligations.BayTransitions : Prop :=
  (∀ (b : Fin 4) (s : State), s.cur.bayState b = 0 → 5 ≤ s.cur.su.step → ∃ t, exec (.bayPresenceLow b) s = .next t
      ∧ t.cur.bayState b = 1
      ∧ (t.cur.fls = (s.cur.updBay b fun x => { x with presLow := true, presSince := s.cur.gtime, absentSince := none, since := s.cur.gtime }).fls)
      ∧ t.cur.flag (pgBay b) BAY_IRQ_STATE = true ∧ t.vis = s.vis
      ∧ { t.cur with regs := s.cur.regs, irqSet := s.cur.irqSet, fls := s.cur.fls } = s.cur
      ∧ (∀ a, a ≠ pgBay b + BAY_STAT.off → a ≠ pgBay b + PG_IRQ_RAW.off → t.cur.rd a = s.cur.rd a)) ∧
  (∀ (b : Fin 4) (s : State), s.cur.bayState b ≠ 0 ∨ s.cur.su.step < 5 → ∃ t, exec (.bayPresenceLow b) s = .next t
      ∧ t.cur.regs = s.cur.regs
      ∧ (t.cur.fls = (s.cur.updBay b fun x => { x with presLow := true, presSince := s.cur.gtime, absentSince := none }).fls)
      ∧ t.vis = s.vis ∧ { t.cur with regs := s.cur.regs, fls := s.cur.fls } = s.cur) ∧
  (∀ (b : Fin 4) (s : State), s.cur.bayState b = 1 → ∃ t, exec (.bayPresenceHigh b) s = .next t ∧ t.cur.bayState b = 0
      ∧ (t.cur.bay b).presLow = false ∧ (t.cur.bay b).absentSince = some s.cur.gtime ∧ t.vis = s.vis
      ∧ { t.cur with regs := s.cur.regs, irqSet := s.cur.irqSet, fls := s.cur.fls } = s.cur
      ∧ (∀ a, a ≠ pgBay b + BAY_STAT.off → a ≠ pgBay b + PG_IRQ_RAW.off → a ≠ pgBay b + BAY_CTL.off → t.cur.rd a = s.cur.rd a)) ∧
  (∀ (b : Fin 4) (s : State), s.cur.bayState b ≠ 1 → ∃ t, exec (.bayPresenceHigh b) s = .next t ∧ t.cur.regs = s.cur.regs
      ∧ (t.cur.bay b) = { s.cur.bay b with presLow := false, absentSince := some s.cur.gtime } ∧ t.vis = s.vis
      ∧ { t.cur with regs := s.cur.regs, fls := s.cur.fls } = s.cur) ∧
  (∀ (b : Fin 4) (s : State), s.cur.bayState b = 1 → (s.cur.bay b).presLow = true →
      (s.cur.bay b).presSince + s.cur.get (pgBay b) BAY_PRES_CFG_INS_DEB_G ≤ s.cur.gtime + 1 →
      s.cur.flag (pgBay b) BAY_CTL_ARM = true → ∃ t, exec (.insertDebounceExpiry b) s = .next t ∧ t.cur.bayState b = 2
      ∧ t.cur.flag (pgBay b) BAY_STAT_PRESENT = true ∧ t.cur.flag (pgBay b) BAY_STAT_LOCK_OUT = true
      ∧ (t.cur.bay b).pwren = true
      ∧ t.cur.get (pgBay b) BAY_EVENTS_INSERTS = min (2 ^ 16 - 1) (s.cur.get (pgBay b) BAY_EVENTS_INSERTS + 1) ∧ t.vis = s.vis
      ∧ { t.cur with regs := s.cur.regs, irqSet := s.cur.irqSet, fls := s.cur.fls } = s.cur
      ∧ (∀ a, a ≠ pgBay b + BAY_STAT.off → a ≠ pgBay b + PG_IRQ_RAW.off → a ≠ pgBay b + BAY_EVENTS.off → t.cur.rd a = s.cur.rd a)) ∧
  (∀ (b : Fin 4) (s : State), s.cur.bayState b = 1 → (s.cur.bay b).presLow = true →
      (s.cur.bay b).presSince + s.cur.get (pgBay b) BAY_PRES_CFG_INS_DEB_G ≤ s.cur.gtime + 1 →
      ∃ t, exec (.bayArmWrite b true) s = .next t ∧ t.cur.bayState b = 2 ∧ t.cur.flag (pgBay b) BAY_STAT_PRESENT = true
      ∧ t.cur.flag (pgBay b) BAY_STAT_LOCK_OUT = true ∧ (t.cur.bay b).pwren = true
      ∧ t.cur.get (pgBay b) BAY_EVENTS_INSERTS = min (2 ^ 16 - 1) (s.cur.get (pgBay b) BAY_EVENTS_INSERTS + 1)
      ∧ t.cur.flag (pgBay b) BAY_CTL_ARM = true ∧ t.vis = s.vis
      ∧ { t.cur with regs := s.cur.regs, irqSet := s.cur.irqSet, fls := s.cur.fls } = s.cur
      ∧ (∀ a, a ≠ pgBay b + BAY_STAT.off → a ≠ pgBay b + PG_IRQ_RAW.off → a ≠ pgBay b + BAY_EVENTS.off → a ≠ pgBay b + BAY_CTL.off → t.cur.rd a = s.cur.rd a)) ∧
  (∀ (b : Fin 4) (s : State), s.cur.bayState b = 1 → (s.cur.bay b).presLow = true →
      (s.cur.bay b).presSince + s.cur.get (pgBay b) BAY_PRES_CFG_INS_DEB_G ≤ s.cur.gtime + 1 →
      s.cur.flag (pgBay b) BAY_CTL_ARM = false → ∃ t, exec (.insertDebounceExpiry b) s = .next t
      ∧ t.cur.flag (pgBay b) BAY_STAT_PRESENT = true ∧ t.cur.bayState b = 1 ∧ t.cur.fls = s.cur.fls ∧ t.vis = s.vis
      ∧ { t.cur with regs := s.cur.regs, fls := s.cur.fls } = s.cur
      ∧ (∀ a, a ≠ pgBay b + BAY_STAT.off → t.cur.rd a = s.cur.rd a)) ∧
  (∀ (b : Fin 4) (s : State), ∃ t, exec (.bayArmWrite b false) s = .next t ∧ t.cur.flag (pgBay b) BAY_CTL_ARM = false
      ∧ t.cur.bayState b = s.cur.bayState b ∧ t.cur.fls = s.cur.fls ∧ t.vis = s.vis
      ∧ { t.cur with regs := s.cur.regs, fls := s.cur.fls } = s.cur
      ∧ (∀ a, a ≠ pgBay b + BAY_CTL.off → a ≠ pgBay b + BAY_STAT.off → t.cur.rd a = s.cur.rd a)) ∧
  (∀ (b : Fin 4) (s : State), (s.cur.bay b).pwren = true → ∃ t, exec (.bayPgood b) s = .next t
      ∧ t.cur.flag (pgBay b) BAY_STAT_PGOOD = true
      ∧ (t.cur.fls = (s.cur.updBay b fun x => { x with goodAt := some s.cur.gtime, manualPower := x.manualPower.map fun p => { p with goodAt := some s.cur.gtime } }).fls)
      ∧ t.vis = s.vis ∧ { t.cur with regs := s.cur.regs, fls := s.cur.fls } = s.cur
      ∧ (∀ a, a ≠ pgBay b + BAY_STAT.off → t.cur.rd a = s.cur.rd a)) ∧
  (∀ (b : Fin 4) (s : State), (s.cur.bay b).pwren = false → ∃ t, exec (.bayPgood b) s = .next t ∧ t.cur = s.cur ∧ t.vis = s.vis
      ∧ { t.cur with regs := s.cur.regs, fls := s.cur.fls } = s.cur) ∧
  (∀ (b : Fin 4) (g : Nat) (s : State), s.cur.bayState b = 2 → (s.cur.bay b).goodAt = some g →
      g + s.cur.get (pgBay b) BAY_PWR_CFG_SETTLE_G ≤ s.cur.gtime → ∃ t, exec (.baySettleExpiry b) s = .next t
      ∧ t.cur.bayState b = 3 ∧ t.cur.flag (pgBay b) BAY_STAT_LOCK_OUT = true ∧ t.vis = s.vis
      ∧ { t.cur with regs := s.cur.regs, irqSet := s.cur.irqSet, fls := s.cur.fls } = s.cur
      ∧ (∀ a, a ≠ pgBay b + BAY_STAT.off → a ≠ pgBay b + PG_IRQ_RAW.off → t.cur.rd a = s.cur.rd a)) ∧
  (∀ (b : Fin 4) (s : State), s.cur.bayState b = 2 → (s.cur.bay b).goodAt = none →
      (s.cur.bay b).since + s.cur.get (pgBay b) BAY_PWR_CFG_PG_TO_G ≤ s.cur.gtime → ∃ t, exec (.bayPgTimeout b) s = .next t
      ∧ t.cur.bayState b = 9 ∧ t.cur.flag (pgBay b) BAY_STAT_LOCK_OUT = false ∧ (t.cur.bay b).pwren = false
      ∧ t.cur.flag (pgBay b) BAY_IRQ_FAULT = true ∧ t.vis = s.vis
      ∧ { t.cur with regs := s.cur.regs, irqSet := s.cur.irqSet, fls := s.cur.fls } = s.cur
      ∧ (∀ a, a ≠ pgBay b + BAY_STAT.off → a ≠ pgBay b + PG_IRQ_RAW.off → t.cur.rd a = s.cur.rd a)) ∧
  (∀ (b : Fin 4) (p : BayPower) (o : FlashOp) (s : State), s.cur.bayState b ≠ 2 → (s.cur.bay b).manualPower = some p →
      p.goodAt = none → p.since + s.cur.get (pgBay b) BAY_PWR_CFG_PG_TO_G ≤ s.cur.gtime →
      ((s.cur.chan 16).ops.find? (fun o => o.kind == .manual && pfaBay o.pfa == b.val) = some o) →
      ∃ t, exec (.bayPgTimeout b) s = .next t ∧ (t.cur.chan 16).manualEnd = some (5, pfaBay o.pfa) ∧ t.cur.op 16 o.id = none
      ∧ t.cur.bayState b = s.cur.bayState b ∧ t.vis = s.vis
      ∧ { t.cur with regs := s.cur.regs, irqSet := s.cur.irqSet, fls := s.cur.fls } = s.cur) ∧
  (∀ (b : Fin 4) (s : State), s.vis.flag pgRsv RSV_STAT_PF = false → s.cur.flag pgRsv RSV_STAT_PF = false →
      s.cur.bayState b = 4 → s.cur.flag (pgFstr b) FSTR_STAT_BLANK = false → s.cur.flag (pgBay b) BAY_CTL_RELEASE = false →
      (s.cur.setB (pgBay b) BAY_CTL_WRITE_EN true).canWrite b = true → ∃ t, exec (.bayWriteEnWrite b true) s = .next t
      ∧ t.cur.bayState b = 5 ∧ t.cur.flag (pgBay b) BAY_CTL_WRITE_EN = true ∧ t.cur.flag (pgBay b) BAY_STAT_LOCK_OUT = true
      ∧ t.cur.ldg = s.cur.ldg ∧ t.vis = s.vis
      ∧ { t.cur with regs := s.cur.regs, irqSet := s.cur.irqSet, ldg := s.cur.ldg, fls := s.cur.fls } = s.cur
      ∧ (∀ a, a ≠ pgBay b + BAY_STAT.off → a ≠ pgBay b + PG_IRQ_RAW.off → a ≠ pgBay b + BAY_CTL.off → t.cur.rd a = s.cur.rd a)) ∧
  (∀ (b : Fin 4) (s : State), s.vis.flag pgRsv RSV_STAT_PF = false → s.cur.flag pgRsv RSV_STAT_PF = false →
      s.cur.bayState b = 4 → s.cur.flag (pgFstr b) FSTR_STAT_BLANK = true → s.cur.flag (pgBay b) BAY_CTL_RELEASE = false →
      ∃ t, exec (.bayWriteEnWrite b true) s = .next t ∧ t.cur.bayState b = 4 ∧ t.cur.flag (pgFstr b) FSTR_STAT_FORMATTING = true
      ∧ (t.cur.bmap b).formatStep = 1 ∧ t.vis = s.vis ∧ { t.cur with regs := s.cur.regs, fls := s.cur.fls } = s.cur
      ∧ (∀ a, a ≠ pgFstr b + FSTR_STAT.off → a ≠ pgBay b + BAY_CTL.off → t.cur.rd a = s.cur.rd a)) ∧
  (∀ (b : Fin 4) (x : Nat) (s : State), s.vis.flag pgRsv RSV_STAT_PF = false → s.cur.flag pgRsv RSV_STAT_PF = false →
      s.cur.bayState b = 5 → s.vis.targetBay b = some x → ∃ t, exec (.bayWriteEnWrite b false) s = .next t
      ∧ t.cur.bayState b = 6 ∧ t.cur.flag (pgBay b) BAY_STAT_LOCK_OUT = true ∧ t.cur.ldg.tasks = s.cur.ldg.tasks
      ∧ (t.cur.ldg.ctxs = s.cur.ldg.ctxs.map (fun p => if p.2.bay == b.val && p.2.state != .free then (p.1, { p.2 with bay := x }) else p))
      ∧ t.vis = s.vis ∧ { t.cur with regs := s.cur.regs, irqSet := s.cur.irqSet, ldg := s.cur.ldg, fls := s.cur.fls } = s.cur
      ∧ (∀ a, a ≠ pgBay b + BAY_STAT.off → a ≠ pgBay b + PG_IRQ_RAW.off → a ≠ pgBay b + BAY_CTL.off → t.cur.rd a = s.cur.rd a)) ∧
  (∀ (b : Fin 4) (x : Nat) (s : State), s.vis.flag pgRsv RSV_STAT_PF = false → s.cur.flag pgRsv RSV_STAT_PF = false →
      s.cur.bayState b = 5 → s.vis.targetBay b = some x → ∃ t, exec (.bayRelease b) s = .next t ∧ t.cur.bayState b = 6
      ∧ t.cur.flag (pgBay b) BAY_CTL_RELEASE = true ∧ t.cur.ldg.tasks = s.cur.ldg.tasks
      ∧ (t.cur.ldg.ctxs = s.cur.ldg.ctxs.map (fun p => if p.2.bay == b.val && p.2.state != .free then (p.1, { p.2 with bay := x }) else p))
      ∧ t.vis = s.vis ∧ { t.cur with regs := s.cur.regs, irqSet := s.cur.irqSet, ldg := s.cur.ldg, fls := s.cur.fls } = s.cur
      ∧ (∀ a, a ≠ pgBay b + BAY_STAT.off → a ≠ pgBay b + PG_IRQ_RAW.off → a ≠ pgBay b + BAY_CTL.off → t.cur.rd a = s.cur.rd a)) ∧
  (∀ (b : Fin 4) (s : State), s.vis.flag pgRsv RSV_STAT_PF = false → s.cur.flag pgRsv RSV_STAT_PF = false →
      s.cur.bayState b = 4 ∨ s.cur.bayState b = 8 ∨ s.cur.bayState b = 9 → s.cur.bayOps b = [] →
      ∃ t, exec (.bayRelease b) s = .next t ∧ t.cur.bayState b = 7 ∧ t.cur.flag (pgBay b) BAY_CTL_RELEASE = false
      ∧ t.cur.flag (pgBay b) BAY_IRQ_RELEASED = true ∧ t.cur.flag (pgBay b) BAY_STAT_LOCK_OUT = false
      ∧ (t.cur.bay b).pwren = false ∧ t.vis = s.vis
      ∧ { t.cur with regs := s.cur.regs, irqSet := s.cur.irqSet, fls := s.cur.fls } = s.cur
      ∧ (∀ a, a ≠ pgBay b + BAY_STAT.off → a ≠ pgBay b + PG_IRQ_RAW.off → a ≠ pgBay b + BAY_CTL.off → t.cur.rd a = s.cur.rd a)) ∧
  (∀ (b : Fin 4) (s : State), s.cur.flag pgRsv RSV_STAT_PF = true → ∃ t, exec (.bayRelease b) s = .next t
      ∧ t.cur.flag (pgBay b) BAY_CTL_RELEASE = true ∧ t.cur.bayState b = s.cur.bayState b ∧ t.vis = s.vis
      ∧ { t.cur with regs := s.cur.regs } = s.cur ∧ (∀ a, a ≠ pgBay b + BAY_CTL.off → t.cur.rd a = s.cur.rd a)) ∧
  (∀ (b : Fin 4) (s : State), s.vis.flag pgRsv RSV_STAT_PF = false → s.cur.flag pgRsv RSV_STAT_PF = false →
      s.cur.bayState b = 6 → s.cur.heldIn b = 0 → (s.cur.ldg.background.any (fun x => x.bay == some b.val) = false) →
      s.cur.bayOps b = [] → ((s.cur.bmap b).stripes.all (fun x => !x.isOpen) = true) →
      ∃ t, exec (.bayReleasingDone b) s = .next t ∧ (t.cur.bayState b = if s.cur.flag (pgBay b) BAY_CTL_RELEASE then 7 else 4)
      ∧ t.cur.flag (pgBay b) BAY_STAT_LOCK_OUT = !s.cur.flag (pgBay b) BAY_CTL_RELEASE ∧ t.vis = s.vis
      ∧ { t.cur with regs := s.cur.regs, irqSet := s.cur.irqSet, fls := s.cur.fls } = s.cur
      ∧ (∀ a, a ≠ pgBay b + BAY_STAT.off → a ≠ pgBay b + PG_IRQ_RAW.off → a ≠ pgBay b + BAY_CTL.off → t.cur.rd a = s.cur.rd a)) ∧
  (∀ (b : Fin 4) (s : State), 0 < s.cur.heldIn b ∨ s.vis.flag pgRsv RSV_STAT_PF = true →
      ∃ t, exec (.bayReleasingDone b) s = .next t ∧ t.cur = s.cur ∧ t.vis = s.vis
      ∧ { t.cur with regs := s.cur.regs, irqSet := s.cur.irqSet, fresh := s.cur.fresh, ldg := s.cur.ldg, fls := s.cur.fls } = s.cur) ∧
  (∀ (b : Fin 4) (g : Nat) (s : State), (s.cur.bay b).absentSince = some g →
      g + max 1 (s.cur.get (pgBay b) BAY_PRES_CFG_REM_DEB_G) ≤ s.cur.gtime + 1 → s.cur.bayState b = 7 ∨ s.cur.bayState b = 9 →
      ∃ t, exec (.bayRemovalDebounce b) s = .next t ∧ t.cur.bayState b = 0 ∧ t.cur.flag (pgBay b) BAY_STAT_PRESENT = false
      ∧ t.cur.flag (pgBay b) BAY_STAT_FORCED = s.cur.flag (pgBay b) BAY_STAT_FORCED ∧ t.vis = s.vis
      ∧ { t.cur with regs := s.cur.regs, irqSet := s.cur.irqSet, rsv := s.cur.rsv, fls := s.cur.fls } = s.cur
      ∧ (∀ a, a ≠ pgBay b + BAY_STAT.off → a ≠ pgBay b + PG_IRQ_RAW.off → a ≠ pgBay b + BAY_CTL.off → t.cur.rd a = s.cur.rd a)) ∧
  (∀ (b : Fin 4) (g x : Nat) (s : State), (s.cur.bay b).absentSince = some g →
      g + max 1 (s.cur.get (pgBay b) BAY_PRES_CFG_REM_DEB_G) ≤ s.cur.gtime + 1 → 2 ≤ s.cur.bayState b →
      s.cur.bayState b ≤ 6 ∨ s.cur.bayState b = 8 → s.cur.rsv.committing = false → s.vis.targetBay b = some x →
      ∃ t, exec (.bayRemovalDebounce b) s = .next t ∧ t.cur.bayState b = 0 ∧ t.cur.flag (pgBay b) BAY_STAT_FORCED = true
      ∧ t.cur.flag (pgBay b) BAY_IRQ_FORCED = true ∧ t.cur.flag (pgBay b) BAY_STAT_LOCK_OUT = false
      ∧ t.cur.get (pgBay b) BAY_EVENTS_FORCED = min (2 ^ 16 - 1) (s.cur.get (pgBay b) BAY_EVENTS_FORCED + 1)
      ∧ t.cur.fj.staged = s.cur.fj.staged ++ [{ gtime := s.cur.gtime48, pgId := pgIdOf (pgBay b), code := 0x0403, deg := false, flt := false, data := [s.cur.bayState b % 2 ^ 32, s.cur.heldIn b % 2 ^ 32, s.cur.get (pgBay b) BAY_STAT_LOCK_OUT % 2 ^ 32] }]
      ∧ (t.cur.ldg.background = updWhere (·.bay == some b.val) (fun y => { y with bay := some x, delta := none }) s.cur.ldg.background)
      ∧ (t.cur.ldg.tasks = updWhere (·.boundTo b) (fun y => { y with bay := some x }) s.cur.ldg.tasks) ∧ t.vis = s.vis
      ∧ { t.cur with regs := s.cur.regs, irqSet := s.cur.irqSet, fresh := s.cur.fresh, fj := s.cur.fj, ldg := s.cur.ldg, rsv := s.cur.rsv, fls := s.cur.fls } = s.cur) ∧
  (∀ (b : Fin 4) (g : Nat) (x y : Commit) (s : State), (s.cur.bay b).absentSince = some g →
      g + max 1 (s.cur.get (pgBay b) BAY_PRES_CFG_REM_DEB_G) ≤ s.cur.gtime + 1 → 2 ≤ s.cur.bayState b →
      s.cur.bayState b ≤ 6 ∨ s.cur.bayState b = 8 → s.cur.rsv.committing = true → s.cur.rsv.commits = [x, y] → x.bay = b.val →
      y.bay ≠ b.val → s.cur.copyOpen x = true → s.cur.copyOpen y = true → s.cur.bayDrains y.bay = true →
      ∃ t, exec (.bayRemovalDebounce b) s = .next t ∧ t.cur.bayState b = 0 ∧ t.cur.flag (pgBay b) BAY_STAT_FORCED = true
      ∧ t.cur.ldg = s.cur.ldg
      ∧ t.cur.rsv.commits = [{ x with failed := true, items := [], bytes := [], seals := [], records := [] }, s.cur.addItems y x]
      ∧ t.vis = s.vis
      ∧ { t.cur with regs := s.cur.regs, irqSet := s.cur.irqSet, fresh := s.cur.fresh, fj := s.cur.fj, ldg := s.cur.ldg, rsv := s.cur.rsv, fls := s.cur.fls } = s.cur) ∧
  (∀ (b : Fin 4) (g : Nat) (s : State), (s.cur.bay b).absentSince = some g →
      s.cur.gtime + 1 < g + max 1 (s.cur.get (pgBay b) BAY_PRES_CFG_REM_DEB_G) → ∃ t, exec (.bayRemovalDebounce b) s = .next t
      ∧ t.cur = s.cur ∧ t.vis = s.vis
      ∧ { t.cur with regs := s.cur.regs, irqSet := s.cur.irqSet, fresh := s.cur.fresh, fj := s.cur.fj, ldg := s.cur.ldg, rsv := s.cur.rsv, fls := s.cur.fls } = s.cur) ∧
  (∀ (b : Fin 4) (s : State), (s.cur.bay b).absentSince = none → ∃ t, exec (.bayRemovalDebounce b) s = .next t ∧ t.cur = s.cur
      ∧ t.vis = s.vis
      ∧ { t.cur with regs := s.cur.regs, irqSet := s.cur.irqSet, fresh := s.cur.fresh, fj := s.cur.fj, ldg := s.cur.ldg, rsv := s.cur.rsv, fls := s.cur.fls } = s.cur) ∧
  (∀ (b : Fin 4) (x : Nat) (s : State), s.vis.bayState b = 5 → s.vis.bestBay = some x →
      ∃ t, exec (.bayBecomesWritable b) s = .next t
      ∧ (t.cur.ldg.tasks = updWhere (·.unbound) (fun y => { y with bay := some x }) s.cur.ldg.tasks)
      ∧ (t.cur.ldg.background = updWhere (·.bay.isNone) (fun y => { y with bay := some x, delta := none }) s.cur.ldg.background)
      ∧ (∀ p ∈ t.cur.ldg.ctxs, p.2.state ≠ .free → p.2.bay < 4 → s.vis.bayWritable p.2.bay = true)
      ∧ t.cur.ldg.journal = s.cur.ldg.journal ∧ t.vis = s.vis ∧ { t.cur with ldg := s.cur.ldg, fls := s.cur.fls } = s.cur) ∧
  (∀ (b : Fin 4) (s : State), s.vis.bayState b ≠ 5 → ∃ t, exec (.bayBecomesWritable b) s = .next t ∧ t.cur = s.cur
      ∧ t.vis = s.vis ∧ { t.cur with fresh := s.cur.fresh, ldg := s.cur.ldg, fls := s.cur.fls } = s.cur) ∧
  (∀ (b : Fin 4) (ts us : List Target) (m : Option Magazine) (z : Bool) (code : Nat) (s : State), s.cur.bayState b = 3 →
      (us = ts.filter (fun x => targetKind x != 0)) →
      (z = us.all (fun x => s.cur.get (pgFch (4 * b.val + x.chan.val)) FCH_PHY_CFG_MODE == 0 || s.cur.flag (pgFch (4 * b.val + x.chan.val)) FCH_TRAIN_TRAINED)) →
      identCheck us z = .inl code → code < 16 → ∃ t, exec (.bayIdentify b ts m) s = .next t ∧ t.cur.bayState b = 9
      ∧ t.cur.get (pgBay b) BAY_STAT_IDENT_CODE = code ∧ t.cur.flag (pgBay b) BAY_IRQ_FAULT = true ∧ (t.cur.bay b).pwren = false
      ∧ (t.cur.fj.staged.getLast?.map (fun y => (y.pgId, y.code, y.data)) = some (pgIdOf (pgBay b), 0x0402, [code]))
      ∧ t.vis = s.vis ∧ { t.cur with regs := s.cur.regs, irqSet := s.cur.irqSet, fj := s.cur.fj, fls := s.cur.fls } = s.cur
      ∧ (∀ a, a ≠ pgBay b + BAY_STAT.off → a ≠ pgBay b + PG_IRQ_RAW.off → t.cur.rd a = s.cur.rd a)) ∧
  (∀ (b : Fin 4) (ts us : List Target) (m : Option Magazine) (z : Bool) (g : Geom) (x : Target) (i : Nat) (s : State),
      s.cur.bayState b = 3 → (us = ts.filter (fun x => targetKind x != 0)) →
      (z = us.all (fun x => s.cur.get (pgFch (4 * b.val + x.chan.val)) FCH_PHY_CFG_MODE == 0 || s.cur.flag (pgFch (4 * b.val + x.chan.val)) FCH_TRAIN_TRAINED)) →
      identCheck us z = .inr (g, x, i) → g.pagesPerBlock < 2 ^ 16 → g.blocksPerLun < 2 ^ 16 → g.blockBits < 32 →
      g.pageBits < 16 → g.pageBytes ≤ 32768 → ∃ t, exec (.bayIdentify b ts m) s = .next t ∧ t.cur.bayState b = 4
      ∧ t.cur.get (pgBay b) BAY_GEOM0_PAGES_PER_BLOCK = g.pagesPerBlock
      ∧ t.cur.get (pgBay b) BAY_GEOM0_PAGE_CW = g.pageBytes / 4096
      ∧ t.cur.get (pgBay b) BAY_GEOM1_BLOCKS_PER_LUN = g.blocksPerLun ∧ t.cur.get (pgBay b) BAY_GEOM1_BLOCK_BITS = g.blockBits
      ∧ t.cur.get (pgBay b) BAY_GEOM1_PAGE_BITS = g.pageBits ∧ t.cur.get (pgBay b) BAY_IDENT_KIND = targetKind x
      ∧ (∀ (c : Fin 4) (y : Target) (q : ParamCopy) (n : Nat), (us.filter fun u => u.chan == c).head? = some y → targetCopy y = some (q, n) → t.cur.get (pgFch (4 * b.val + c.val)) FCH_ATO1_TR_G = 2 * q.geom.tR % 2 ^ 16 ∧ t.cur.get (pgFch (4 * b.val + c.val)) FCH_ATO0_TBERS_G = 2 * q.geom.tBers % 2 ^ 16)
      ∧ (∀ c e : Fin 4, bit (t.cur.get (pgFch (4 * b.val + c.val)) FCH_TGT_CE_PRES) e.val = us.any fun u => u.chan == c && u.ce == e)
      ∧ t.cur.flag (pgFstr b) FSTR_STAT_BLANK = m.isNone ∧ t.cur.flag (pgBay b) BAY_STAT_LOCK_OUT = true ∧ t.vis = s.vis
      ∧ { t.cur with regs := s.cur.regs, irqSet := s.cur.irqSet, rsv := s.cur.rsv, fls := s.cur.fls } = s.cur) ∧
  (∀ (b : Fin 4) (ts : List Target) (m : Option Magazine) (s : State), s.cur.bayState b ≠ 3 →
      ∃ t, exec (.bayIdentify b ts m) s = .next t ∧ t.cur = s.cur ∧ t.vis = s.vis
      ∧ { t.cur with regs := s.cur.regs, irqSet := s.cur.irqSet, fj := s.cur.fj, rsv := s.cur.rsv, fls := s.cur.fls } = s.cur)

/-- The end of a decode takes its codeword read where R210 says. Parity checks met within the limit end the read at its
step: step 1 changes statistics only, step 2 makes its entry the die's learned entry, step 3 counts a soft decode and
marks the stripe for reclaim, step 4 marks the block set for retirement too. A decode that fails leads to the next
entry of the walk, then to two soft reads, then to the other elements of the row; the last part of these sends the XOR
to a codec. At step 4 a failure makes the codeword unrecoverable, with UNRECOV, STRIPE_DOUBLE, the record with lane
and LSN, and the range noted for the READ that it served. The codec goes to the read that waits. A scrub read begins a
read in class 5, and does nothing with SCRUB_H at 0. Commands that it says to complete, each on the conditions of its
clauses: codewordRead, scrubRead. -/
def Obligations.CodewordReads : Prop :=
  (∀ (c : Fin 16) (met : Option (Nat × Nat)) (x : Codec) (a : Access) (i n : Nat) (s : State), s.cur.fls.codecs[c] = some x →
      s.cur.accessOf x.access = some a → a.bay < 4 → s.cur.fls.decode = [] → met = some (i, n) → i ≤ x.limit →
      a.readBad = false → a.why.isPart = false → a.step = 1 → n ≤ s.cur.get pgFint FINT_VERIFY_REFRESH_BITS →
      ∃ t, exec (.codewordRead c met) s = .next t ∧ t.cur.fls.codecs[c] = none ∧ t.cur.accessOf a.id = none
      ∧ t.cur.fls.lastRead = some (1, a.entry) ∧ (t.cur.bmap a.bay).corrAcc = (s.cur.bmap a.bay).corrAcc + n
      ∧ (t.cur.bmap a.bay).retryAcc = (s.cur.bmap a.bay).retryAcc + (a.tried.length - 1)
      ∧ (t.cur.bmap a.bay).readAcc = (s.cur.bmap a.bay).readAcc + 1 ∧ (t.cur.bmap a.bay).stripes = (s.cur.bmap a.bay).stripes
      ∧ (t.cur.bmap a.bay).learned = (s.cur.bmap a.bay).learned ∧ (t.cur.bmap a.bay).sets = (s.cur.bmap a.bay).sets
      ∧ t.vis = s.vis ∧ { t.cur with regs := s.cur.regs, ldg := s.cur.ldg, fls := s.cur.fls, mc := s.cur.mc } = s.cur
      ∧ t.cur.regs = s.cur.regs) ∧
  (∀ (c : Fin 16) (met : Option (Nat × Nat)) (x : Codec) (a : Access) (i n : Nat) (s : State), s.cur.fls.codecs[c] = some x →
      s.cur.accessOf x.access = some a → a.bay < 4 → s.cur.fls.decode = [] → met = some (i, n) → i ≤ x.limit →
      a.readBad = false → a.why.isPart = false → a.step = 1 → s.cur.get pgFint FINT_VERIFY_REFRESH_BITS < n →
      ∃ t, exec (.codewordRead c met) s = .next t ∧ t.cur.fls.codecs[c] = none ∧ t.cur.accessOf a.id = none
      ∧ t.cur.fls.lastRead = some (1, a.entry) ∧ (t.cur.bmap a.bay).corrAcc = (s.cur.bmap a.bay).corrAcc + n
      ∧ (t.cur.bmap a.bay).retryAcc = (s.cur.bmap a.bay).retryAcc + (a.tried.length - 1)
      ∧ (t.cur.bmap a.bay).readAcc = (s.cur.bmap a.bay).readAcc + 1
      ∧ (((t.cur.stripe a.bay a.stripe).map (·.reclaim)) = (s.cur.stripe a.bay a.stripe).map fun _ => true) ∧ t.vis = s.vis
      ∧ { t.cur with regs := s.cur.regs, ldg := s.cur.ldg, fls := s.cur.fls, mc := s.cur.mc } = s.cur ∧ t.cur.regs = s.cur.regs) ∧
  (∀ (c : Fin 16) (met : Option (Nat × Nat)) (x : Codec) (a : Access) (i n : Nat) (s : State), s.cur.fls.codecs[c] = some x →
      s.cur.accessOf x.access = some a → a.bay < 4 → s.cur.fls.decode = [] → met = some (i, n) → i ≤ x.limit →
      a.readBad = false → a.why.isPart = false → a.step = 2 → ∃ t, exec (.codewordRead c met) s = .next t
      ∧ t.cur.fls.codecs[c] = none ∧ t.cur.accessOf a.id = none ∧ t.cur.fls.lastRead = some (2, a.entry)
      ∧ (t.cur.bmap a.bay).corrAcc = (s.cur.bmap a.bay).corrAcc + n
      ∧ (t.cur.bmap a.bay).retryAcc = (s.cur.bmap a.bay).retryAcc + (a.tried.length - 1)
      ∧ (t.cur.bmap a.bay).readAcc = (s.cur.bmap a.bay).readAcc + 1
      ∧ (tabGet (fun _ => 0) (t.cur.bmap a.bay).learned (s.cur.tableAt a.bay a.stripe a.element).1 = a.entry)
      ∧ t.cur.fls.decRetry = s.cur.fls.decRetry + 1 ∧ t.vis = s.vis
      ∧ { t.cur with regs := s.cur.regs, ldg := s.cur.ldg, fls := s.cur.fls, mc := s.cur.mc } = s.cur ∧ t.cur.regs = s.cur.regs) ∧
  (∀ (c : Fin 16) (met : Option (Nat × Nat)) (x : Codec) (a : Access) (i n : Nat) (s : State), s.cur.fls.codecs[c] = some x →
      s.cur.accessOf x.access = some a → a.bay < 4 → s.cur.fls.decode = [] → met = some (i, n) → i ≤ x.limit →
      a.readBad = false → a.why.isPart = false → a.step = 3 → ∃ t, exec (.codewordRead c met) s = .next t
      ∧ t.cur.fls.codecs[c] = none ∧ t.cur.accessOf a.id = none ∧ t.cur.fls.lastRead = some (3, a.entry)
      ∧ (t.cur.bmap a.bay).corrAcc = (s.cur.bmap a.bay).corrAcc + n
      ∧ (t.cur.bmap a.bay).retryAcc = (s.cur.bmap a.bay).retryAcc + (a.tried.length - 1)
      ∧ (t.cur.bmap a.bay).readAcc = (s.cur.bmap a.bay).readAcc + 1
      ∧ (((t.cur.stripe a.bay a.stripe).map (·.reclaim)) = (s.cur.stripe a.bay a.stripe).map fun _ => true)
      ∧ (t.cur.bset a.bay (s.cur.tableAt a.bay a.stripe a.element).1 (s.cur.tableAt a.bay a.stripe a.element).2).soft = (s.cur.bset a.bay (s.cur.tableAt a.bay a.stripe a.element).1 (s.cur.tableAt a.bay a.stripe a.element).2).soft + 1
      ∧ t.cur.fls.decSoft = s.cur.fls.decSoft + 1 ∧ t.vis = s.vis
      ∧ { t.cur with regs := s.cur.regs, ldg := s.cur.ldg, fls := s.cur.fls, mc := s.cur.mc } = s.cur ∧ t.cur.regs = s.cur.regs) ∧
  (∀ (c : Fin 16) (met : Option (Nat × Nat)) (x : Codec) (a : Access) (i n : Nat) (s : State), s.cur.fls.codecs[c] = some x →
      s.cur.accessOf x.access = some a → a.bay < 4 → s.cur.fls.decode = [] → met = some (i, n) → i ≤ x.limit →
      a.readBad = false → a.why.isPart = false → a.step = 4 →
      s.cur.isDead a.bay (s.cur.tableAt a.bay a.stripe a.element).1 = false → ∃ t, exec (.codewordRead c met) s = .next t
      ∧ t.cur.fls.codecs[c] = none ∧ t.cur.accessOf a.id = none ∧ t.cur.fls.lastRead = some (4, a.entry)
      ∧ (t.cur.bmap a.bay).corrAcc = (s.cur.bmap a.bay).corrAcc + n
      ∧ (t.cur.bmap a.bay).retryAcc = (s.cur.bmap a.bay).retryAcc + (a.tried.length - 1)
      ∧ (t.cur.bmap a.bay).readAcc = (s.cur.bmap a.bay).readAcc + 1
      ∧ (((t.cur.stripe a.bay a.stripe).map (·.reclaim)) = (s.cur.stripe a.bay a.stripe).map fun _ => true)
      ∧ (t.cur.bset a.bay (s.cur.tableAt a.bay a.stripe a.element).1 (s.cur.tableAt a.bay a.stripe a.element).2).retire = true
      ∧ t.cur.fls.decParity = s.cur.fls.decParity + 1 ∧ t.vis = s.vis
      ∧ { t.cur with regs := s.cur.regs, ldg := s.cur.ldg, fls := s.cur.fls, mc := s.cur.mc } = s.cur ∧ t.cur.regs = s.cur.regs) ∧
  (∀ (c : Fin 16) (met : Option (Nat × Nat)) (x : Codec) (a : Access) (e : Nat) (s : State), s.cur.fls.codecs[c] = some x →
      s.cur.accessOf x.access = some a → a.bay < 4 → s.cur.fls.decode = [] →
      (met.all (fun m => a.readBad || decide (x.limit < m.1)) = true) → a.step < 3 → s.cur.slotStart a.bay 19 ≠ 0 →
      a.tried.length ≤ s.cur.get pgFint FINT_RETRY_WALK_MAX → a.tried.length < 16 →
      e = ((a.tried.head?).getD 0 + a.tried.length) % 16 → ∃ t, exec (.codewordRead c met) s = .next t
      ∧ t.cur.fls.codecs[c] = none
      ∧ t.cur.accessOf a.id = some { a with readBad := false, step := 2, entry := e, tried := a.tried ++ [e] }
      ∧ ((t.cur.chan (4 * a.bay + dieChan (s.cur.tableAt a.bay a.stripe a.element).1)).ops.map (fun o => (o.kind, o.cls, o.rt, o.soft, o.acc)) = (s.cur.chan (4 * a.bay + dieChan (s.cur.tableAt a.bay a.stripe a.element).1)).ops.map (fun o => (o.kind, o.cls, o.rt, o.soft, o.acc)) ++ [(.read, a.cls, e, 0, [a.id])])
      ∧ t.cur.fls.maps = s.cur.fls.maps ∧ t.vis = s.vis
      ∧ { t.cur with regs := s.cur.regs, ldg := s.cur.ldg, fls := s.cur.fls, mc := s.cur.mc } = s.cur ∧ t.cur.regs = s.cur.regs) ∧
  (∀ (c : Fin 16) (met : Option (Nat × Nat)) (x : Codec) (a : Access) (s : State), s.cur.fls.codecs[c] = some x →
      s.cur.accessOf x.access = some a → a.bay < 4 → s.cur.fls.decode = [] →
      (met.all (fun m => a.readBad || decide (x.limit < m.1)) = true) → a.step < 3 → s.cur.slotStart a.bay 19 ≠ 0 →
      s.cur.get pgFint FINT_RETRY_WALK_MAX < a.tried.length ∨ 16 ≤ a.tried.length → s.cur.get pgFint FINT_RETRY_SOFT_DELTA ≠ 0 →
      ∃ t, exec (.codewordRead c met) s = .next t
      ∧ t.cur.accessOf a.id = some { a with readBad := false, step := 3, softReads := 0 }
      ∧ ((t.cur.chan (4 * a.bay + dieChan (s.cur.tableAt a.bay a.stripe a.element).1)).ops.map (fun o => (o.kind, o.cls, o.rt, o.soft, o.acc)) = (s.cur.chan (4 * a.bay + dieChan (s.cur.tableAt a.bay a.stripe a.element).1)).ops.map (fun o => (o.kind, o.cls, o.rt, o.soft, o.acc)) ++ [(.read, a.cls, a.entry, 1, [a.id]), (.read, a.cls, a.entry, 2, [a.id])])
      ∧ t.cur.fls.maps = s.cur.fls.maps ∧ t.vis = s.vis
      ∧ { t.cur with regs := s.cur.regs, ldg := s.cur.ldg, fls := s.cur.fls, mc := s.cur.mc } = s.cur ∧ t.cur.regs = s.cur.regs) ∧
  (∀ (c : Fin 16) (met : Option (Nat × Nat)) (x : Codec) (a : Access) (r : Row) (s : State), s.cur.fls.codecs[c] = some x →
      s.cur.accessOf x.access = some a → a.bay < 4 → s.cur.fls.decode = [] →
      (met.all (fun m => a.readBad || decide (x.limit < m.1)) = true) →
      a.step = 3 ∨ (a.step < 3 ∧ s.cur.slotStart a.bay 19 = 0) → a.why.isPart = false → a.id < s.cur.fls.nextAccess →
      s.cur.rowAt a.bay a.stripe a.row = some r → r.parity = true → s.cur.get64 (pgFstr a.bay) FSTR_DEAD_LO FSTR_DEAD_HI = 0 →
      ∃ t, exec (.codewordRead c met) s = .next t ∧ (t.cur.accessOf a.id).map (·.step) = some 4
      ∧ ((r.pages.filter (·.element != a.element)).all (fun p => t.cur.fls.accesses.any fun z => z.why == .part a.id && z.element == p.element && z.row == a.row && z.step == 1) = true)
      ∧ t.cur.fls.maps = s.cur.fls.maps ∧ t.vis = s.vis
      ∧ { t.cur with regs := s.cur.regs, fls := s.cur.fls, mc := s.cur.mc } = s.cur ∧ t.cur.regs = s.cur.regs) ∧
  (∀ (c : Fin 16) (met : Option (Nat × Nat)) (x : Codec) (a : Access) (w : Codeword) (z : Nat) (s : State),
      s.cur.fls.codecs[c] = some x → s.cur.accessOf x.access = some a → a.bay < 4 → s.cur.fls.decode = [] →
      (met.all (fun m => a.readBad || decide (x.limit < m.1)) = true) → a.step = 4 → a.why.isPart = false →
      s.cur.isDead a.bay (s.cur.tableAt a.bay a.stripe a.element).1 = false → s.cur.accessCw a = some w →
      z = s.cur.lsnAt w.lane w.offset → ∃ t, exec (.codewordRead c met) s = .next t ∧ t.cur.accessOf a.id = none
      ∧ t.cur.fls.lastRead = some (5, a.entry)
      ∧ (t.cur.bset a.bay (s.cur.tableAt a.bay a.stripe a.element).1 (s.cur.tableAt a.bay a.stripe a.element).2).retire = true
      ∧ t.cur.fls.decFail = s.cur.fls.decFail + 1 ∧ t.cur.flag pgFint FINT_IRQ_UNRECOV = true
      ∧ t.cur.flag (pgFstr a.bay) FSTR_IRQ_STRIPE_DOUBLE = true ∧ t.cur.flag (pgFstr a.bay) PG_STAT_DEGRADED = true
      ∧ t.cur.fj.staged = s.cur.fj.staged ++ [{ gtime := s.cur.gtime48, pgId := pgIdOf (pgFstr a.bay), code := 0x0503, deg := true, flt := false, data := [w.lane, z, z / 2 ^ 32].map (· % 2 ^ 32) }]
      ∧ (∀ n, a.why = .task n → w.kind = 1 → t.cur.ldg.tasks = updWhere (·.lsn == n) (fun u => { u with lost := u.lost ++ [(w.offset, w.valid)] }) s.cur.ldg.tasks)
      ∧ t.vis = s.vis
      ∧ { t.cur with regs := s.cur.regs, irqSet := s.cur.irqSet, fj := s.cur.fj, ldg := s.cur.ldg, fls := s.cur.fls, mc := s.cur.mc } = s.cur) ∧
  (∀ (c : Fin 16) (met : Option (Nat × Nat)) (x : Codec) (a : Access) (i n : Nat) (p : Access) (s : State),
      s.cur.fls.codecs[c] = some x → s.cur.accessOf x.access = some a → a.bay < 4 → s.cur.fls.decode = [] → met = some (i, n) →
      i ≤ x.limit → a.readBad = false → a.why = .part p.id → a.id ≠ p.id → s.cur.accessOf p.id = some p → p.parts = [a.id] →
      p.partFailed = false → s.cur.sliceBad (131 + c.val) = false → s.cur.prt.testing.any (·.1 == 131 + c.val) = false →
      ∃ t, exec (.codewordRead c met) s = .next t ∧ t.cur.accessOf a.id = none
      ∧ t.cur.accessOf p.id = some { p with parts := [] }
      ∧ (t.cur.fls.codecs.toList.any (fun y => y.any (·.access == p.id)) = true) ∧ t.vis = s.vis
      ∧ { t.cur with regs := s.cur.regs, ldg := s.cur.ldg, fls := s.cur.fls, mc := s.cur.mc } = s.cur ∧ t.cur.regs = s.cur.regs) ∧
  (∀ (c : Fin 16) (met : Option (Nat × Nat)) (x : Codec) (z : Nat) (s : State), s.cur.fls.codecs[c] = some x →
      s.cur.accessOf x.access = none → s.cur.fls.decode = [z] → s.cur.sliceBad (131 + c.val) = false →
      s.cur.prt.testing.any (·.1 == 131 + c.val) = false → (((List.range c.val).all fun i => !s.cur.codecFree i) = true) →
      ∃ t, exec (.codewordRead c met) s = .next t ∧ t.cur.fls.codecs[c].map (·.access) = some z ∧ t.cur.fls.decode = []
      ∧ t.vis = s.vis ∧ { t.cur with fls := s.cur.fls, mc := s.cur.mc } = s.cur) ∧
  (∀ (c : Fin 16) (met : Option (Nat × Nat)) (s : State), s.cur.fls.codecs[c] = none →
      ∃ t, exec (.codewordRead c met) s = .next t ∧ t.cur = s.cur ∧ t.vis = s.vis
      ∧ { t.cur with regs := s.cur.regs, irqSet := s.cur.irqSet, fj := s.cur.fj, ldg := s.cur.ldg, fls := s.cur.fls, mc := s.cur.mc } = s.cur) ∧
  (∀ (b : Fin 4) (st r e cw : Nat) (x : Row) (p : ElemPage) (s : State), s.cur.get pgFint FINT_SCRUB_SCRUB_H ≠ 0 →
      s.cur.rowAt b st r = some x → x.parity = true → p ∈ x.pages → p.element = e → p.verified = true → cw < p.cws.length →
      s.cur.isDead b (s.cur.tableAt b st e).1 = false → ∃ t, exec (.scrubRead b st r e cw) s = .next t
      ∧ t.cur.fls.accesses.getLast? = some { id := s.cur.fls.nextAccess, why := .scrub, bay := b, stripe := st, row := r, element := e, cw := cw, cls := 5, entry := s.cur.firstEntry b (s.cur.tableAt b st e).1, tried := [s.cur.firstEntry b (s.cur.tableAt b st e).1] }
      ∧ t.cur.fls.nextAccess = s.cur.fls.nextAccess + 1
      ∧ ((t.cur.chan (4 * b.val + dieChan (s.cur.tableAt b st e).1)).ops.getLast?.map (fun o => (o.kind, o.cls, o.acc)) = some (.read, 5, [s.cur.fls.nextAccess]))
      ∧ t.vis = s.vis ∧ { t.cur with regs := s.cur.regs, fls := s.cur.fls, mc := s.cur.mc } = s.cur ∧ t.cur.regs = s.cur.regs) ∧
  (∀ (b : Fin 4) (st r e cw : Nat) (s : State), s.cur.get pgFint FINT_SCRUB_SCRUB_H = 0 ∨ s.cur.rowAt b st r = none →
      ∃ t, exec (.scrubRead b st r e cw) s = .next t ∧ t.cur = s.cur ∧ t.vis = s.vis
      ∧ { t.cur with regs := s.cur.regs, irqSet := s.cur.irqSet, fj := s.cur.fj, ldg := s.cur.ldg, fls := s.cur.fls, mc := s.cur.mc } = s.cur)

/-- A page whose program is good and whose codewords decode within the limits with the metadata sent is verified;
otherwise the rows from its own on that have no parity leave the stripe, the stripe closes and the block set waits for
retirement, MISWRITE being recorded when the metadata differ; a page of a rebuild is noted verified. A row left open
ROW_CLOSE_G Grains is closed. Its parity page is programmed once every data page is verified, each codeword the XOR of
those of the data pages. An entry is Settled only when all that holds it is verified. A gather whose rows are verified
changes the bale's entry and becomes a map delta. A stripe's reclaim reads what is live, erases every element when
nothing live is left, and frees the stripe when the erases are good. The stale record of a RECLAIMING lane is made
once. (The order among equal stripes and block sets is the model's choice, notes/assumptions/54.md.) Commands that it
says to complete, each on the conditions of its clauses: programVerify, rowCloseExpiry, parityProgram, entrySettle,
baleGather, stripeReclaim, staleRecordWrite. -/
def Obligations.StripesAndSettlement : Prop :=
  (∀ (b : Fin 4) (st r e : Nat) (cws : List (Option (Nat × Nat × List Byte))) (p : ElemPage) (s : State),
      s.cur.pageOfOp (b.val, st, r, e) = some p → p.full = true →
      ((s.cur.bayOps b).any (fun o => o.kind == .verify && o.page == some (b.val, st, r, e)) = false) →
      s.cur.rebuiltPage b st r e = false → p.verified = false → p.programmed = true → p.failed = false →
      s.cur.miswritten b p cws = false → s.cur.verifyBad p cws = false → ∃ t, exec (.programVerify b st r e cws) s = .next t
      ∧ (((t.cur.stripe b st).bind (·.rows.find? (·.row == r))).bind (·.pages.find? (·.element == e))).map (·.verified) = some true
      ∧ (((t.cur.stripe b st).bind (·.rows.find? (·.row == r))).map (·.parity) = (s.cur.rowAt b st r).map (fun x => x.parity || e == parityElem (s.cur.width b) r))
      ∧ ((t.cur.bmap b).corrAcc = (s.cur.bmap b).corrAcc + (cws.map fun c => (c.map (·.2.1)).getD 0).sum)
      ∧ t.cur.fls.placed = s.cur.fls.placed ∧ t.vis = s.vis ∧ { t.cur with fls := s.cur.fls } = s.cur) ∧
  (∀ (b : Fin 4) (st r e : Nat) (cws : List (Option (Nat × Nat × List Byte))) (p : ElemPage) (y : Stripe) (s : State),
      s.cur.pageOfOp (b.val, st, r, e) = some p → p.full = true →
      ((s.cur.bayOps b).any (fun o => o.kind == .verify && o.page == some (b.val, st, r, e)) = false) →
      s.cur.rebuiltPage b st r e = false → p.verified = false → s.cur.stripe b st = some y →
      p.programmed = true ∨ p.failed = true → p.failed = true ∨ s.cur.miswritten b p cws = true ∨ s.cur.verifyBad p cws = true →
      (y.rows.all (fun z => z.closed || (decide (r ≤ z.row) && !z.parity)) = true) →
      ∃ t, exec (.programVerify b st r e cws) s = .next t ∧ (t.cur.stripe b st).map (·.isOpen) = some false
      ∧ ((t.cur.stripe b st).map (·.rows) = some (y.rows.filter fun z => !(decide (r ≤ z.row) && !z.parity)))
      ∧ (t.cur.bset b (s.cur.tableAt b st e).1 (s.cur.tableAt b st e).2).retire = true ∧ t.cur.ldg = s.cur.ldg
      ∧ ((t.cur.bmap b).corrAcc = (s.cur.bmap b).corrAcc + (cws.map fun c => (c.map (·.2.1)).getD 0).sum)
      ∧ (s.cur.miswritten b p cws = true → t.cur.flag pgFint FINT_IRQ_MISWRITE = true ∧ t.cur.fj.staged = s.cur.fj.staged ++ [{ gtime := s.cur.gtime48, pgId := pgIdOf pgFint, code := 0x0501, deg := false, flt := false, data := [p.die, st, r].map (· % 2 ^ 32) }])
      ∧ (s.cur.miswritten b p cws = false → t.cur.fj = s.cur.fj) ∧ t.vis = s.vis
      ∧ { t.cur with regs := s.cur.regs, irqSet := s.cur.irqSet, fj := s.cur.fj, fls := s.cur.fls, mc := s.cur.mc } = s.cur) ∧
  (∀ (b : Fin 4) (st r e : Nat) (cws : List (Option (Nat × Nat × List Byte))) (p : ElemPage) (s : State),
      s.cur.pageOfOp (b.val, st, r, e) = some p → p.full = true →
      ((s.cur.bayOps b).any (fun o => o.kind == .verify && o.page == some (b.val, st, r, e)) = false) →
      s.cur.rebuiltPage b st r e = true → s.cur.miswritten b p cws = false → s.cur.verifyBad p cws = false →
      ∃ t, exec (.programVerify b st r e cws) s = .next t
      ∧ ((t.cur.bmap b).rebuild = (s.cur.bmap b).rebuild.map fun z => { z with pages := z.pages.map fun q => if q.1 == r then (q.1, q.2.1, true) else q })
      ∧ (t.cur.bmap b).stripes = (s.cur.bmap b).stripes
      ∧ ((t.cur.bmap b).corrAcc = (s.cur.bmap b).corrAcc + (cws.map fun c => (c.map (·.2.1)).getD 0).sum) ∧ t.vis = s.vis
      ∧ { t.cur with fls := s.cur.fls } = s.cur) ∧
  (∀ (b : Fin 4) (st r e : Nat) (cws : List (Option (Nat × Nat × List Byte))) (s : State),
      (s.cur.pageOfOp (b.val, st, r, e) = none ∨ (s.cur.bayOps b).any (fun o => o.kind == .verify && o.page == some (b.val, st, r, e)) = true) →
      ∃ t, exec (.programVerify b st r e cws) s = .next t ∧ t.cur = s.cur ∧ t.vis = s.vis
      ∧ { t.cur with regs := s.cur.regs, irqSet := s.cur.irqSet, fj := s.cur.fj, fls := s.cur.fls, mc := s.cur.mc } = s.cur) ∧
  (∀ (b : Fin 4) (st r : Nat) (x : Row) (s : State), s.cur.rowAt b st r = some x → x.closed = false →
      x.pages.all (·.cws.isEmpty) = false → x.since + max 1 (s.cur.get (pgFstr b) FSTR_ROW_ROW_CLOSE_G) ≤ s.cur.gtime →
      (s.cur.bmap b).deltas = [] → ∃ t, exec (.rowCloseExpiry b st r) s = .next t
      ∧ ((t.cur.stripe b st).bind (·.rows.find? (·.row == r))).map (·.closed) = some true
      ∧ ((t.cur.stripe b st).bind (·.rows.find? (·.row == r))).map (·.pages.all (·.full)) = some true ∧ t.vis = s.vis
      ∧ { t.cur with regs := s.cur.regs, fresh := s.cur.fresh, fls := s.cur.fls, mc := s.cur.mc } = s.cur) ∧
  (∀ (b : Fin 4) (st r : Nat) (x : Row) (s : State), s.cur.rowAt b st r = some x →
      x.closed = true ∨ x.pages.all (·.cws.isEmpty) = true ∨ s.cur.gtime < x.since + 1 →
      ∃ t, exec (.rowCloseExpiry b st r) s = .next t ∧ t.cur = s.cur ∧ t.vis = s.vis
      ∧ { t.cur with regs := s.cur.regs, fresh := s.cur.fresh, fls := s.cur.fls, mc := s.cur.mc } = s.cur) ∧
  (∀ (b : Fin 4) (st r : Nat) (x : Row) (s : State), s.cur.rowAt b st r = some x → x.row = r → x.closed = true →
      x.parityQueued = false → x.pages.all (·.verified) = true →
      s.cur.isDead b (s.cur.tableAt b st (parityElem (s.cur.width b) r)).1 = false →
      ∃ t, exec (.parityProgram b st r) s = .next t
      ∧ (((t.cur.stripe b st).bind (·.rows.find? (·.row == r))).map (fun z => (z.parityQueued, z.pages.length)) = some (true, x.pages.length + 1))
      ∧ ((((t.cur.stripe b st).bind (·.rows.find? (·.row == r))).bind (·.pages.getLast?)).map (fun p => (p.element, p.full)) = some ((parityElem (s.cur.width b) r), true))
      ∧ (((((t.cur.stripe b st).bind (·.rows.find? (·.row == r))).bind (·.pages.getLast?)).map fun p => p.cws.map fun c => c.data) = some ((List.range (s.cur.pageCws b)).map fun i => s.cur.parityData b x i))
      ∧ ((((t.cur.stripe b st).bind (·.rows.find? (·.row == r))).bind (·.pages.getLast?)).any (fun p => p.cws.all (·.kind == 3)) = true)
      ∧ (t.cur.bmap b).wseq = (s.cur.bmap b).wseq + 1
      ∧ ((t.cur.chan (4 * b.val + (s.cur.tableAt b st (parityElem (s.cur.width b) r)).1 % 4)).ops.getLast?.map (fun o => (o.kind, o.page)) = some (.program, some (b.val, st, r, (parityElem (s.cur.width b) r))))
      ∧ t.vis = s.vis ∧ { t.cur with fls := s.cur.fls } = s.cur) ∧
  (∀ (b : Fin 4) (st r : Nat) (x : Row) (s : State), s.cur.rowAt b st r = some x →
      x.closed = false ∨ x.parityQueued = true ∨ x.pages.all (·.verified) = false →
      ∃ t, exec (.parityProgram b st r) s = .next t ∧ t.cur = s.cur ∧ t.vis = s.vis ∧ { t.cur with fls := s.cur.fls } = s.cur) ∧
  (∀ (lsn b : Nat) (u : TaskSt) (s : State), s.cur.rsv.committing = false → s.cur.task lsn = some u →
      (s.vis.task lsn).bind (·.bay) = some b → u.bay = some b → u.settled = false → s.vis.isPlaced u = true →
      s.cur.isPlaced u = true → s.vis.allVerified b lsn = true → u.opc ≠ .append → u.changesLane = false →
      ∃ t, exec (.entrySettle lsn) s = .next t ∧ ((t.cur.ldg.tasks.all fun q => q.lsn != lsn || q.settled) = true)
      ∧ t.cur.ldg.holds = s.cur.ldg.holds ∧ t.cur.ldg.lanes = s.cur.ldg.lanes ∧ t.cur.fls = s.cur.fls ∧ t.vis = s.vis
      ∧ { t.cur with regs := s.cur.regs, host := s.cur.host, fresh := s.cur.fresh, ldg := s.cur.ldg, fls := s.cur.fls } = s.cur) ∧
  (∀ (lsn : Nat) (b : Fin 4) (u : TaskSt) (s : State), s.cur.rsv.committing = false → s.cur.task lsn = some u →
      (s.vis.task lsn).bind (·.bay) = some b.val → u.bay = some b.val → u.settled = false → s.vis.isPlaced u = true →
      s.cur.isPlaced u = true → s.vis.allVerified b lsn = true → u.opc ≠ .append → u.changesLane = true →
      ∃ t, exec (.entrySettle lsn) s = .next t ∧ ((t.cur.ldg.tasks.all fun q => q.lsn != lsn || q.settled) = true)
      ∧ t.cur.ldg.lanes = s.cur.ldg.lanes
      ∧ (t.cur.bmap b).deltas = (s.cur.bmap b).deltas ++ [((s.cur.bmap b).deltaNo, .lane u.lane)] ∧ t.vis = s.vis
      ∧ { t.cur with regs := s.cur.regs, host := s.cur.host, fresh := s.cur.fresh, ldg := s.cur.ldg, fls := s.cur.fls, mc := s.cur.mc } = s.cur) ∧
  (∀ (lsn b : Nat) (u : TaskSt) (p : Packet) (s : State), s.cur.rsv.committing = false → s.cur.task lsn = some u →
      (s.vis.task lsn).bind (·.bay) = some b → u.bay = some b → u.settled = false → s.vis.isPlaced u = true →
      s.cur.isPlaced u = true → s.vis.allVerified b lsn = true → u.opc = .append → s.vis.mc.extents.contains lsn = true →
      (s.cur.fifo u.fifo).packets.find? (·.lsn == lsn) = some p → ∃ t, exec (.entrySettle lsn) s = .next t
      ∧ ((t.cur.ldg.tasks.all fun q => q.lsn != lsn || q.settled) = true)
      ∧ t.cur.ldg.store = s.cur.ldg.store ++ [{ lane := u.lane, lsn := lsn, offset := u.offset, bytes := p.bytes, voidBytes := p.voidBytes, bay := u.bay, bad := s.cur.markedOf b lsn, endRec := p.endRec }]
      ∧ (t.cur.lane u.lane).length = (s.cur.lane u.lane).length ∧ t.vis = s.vis
      ∧ { t.cur with regs := s.cur.regs, mem := s.cur.mem, host := s.cur.host, fresh := s.cur.fresh, ldg := s.cur.ldg, stg := s.cur.stg, fls := s.cur.fls } = s.cur) ∧
  (∀ (lsn b : Nat) (u : TaskSt) (s : State), s.cur.task lsn = some u → u.bay = some b →
      s.vis.isPlaced u = false ∨ s.vis.allVerified b lsn = false → ∃ t, exec (.entrySettle lsn) s = .next t
      ∧ t.cur.ldg.tasks = s.cur.ldg.tasks ∧ t.cur.ldg.journal = s.cur.ldg.journal ∧ t.cur.ldg.store = s.cur.ldg.store
      ∧ t.vis = s.vis
      ∧ { t.cur with regs := s.cur.regs, host := s.cur.host, fresh := s.cur.fresh, ldg := s.cur.ldg, fls := s.cur.fls } = s.cur) ∧
  (∀ (b : Fin 4) (lane bale : Nat) (g : Gather) (s : State),
      (s.cur.fls.gathers.find? (fun g => g.lane == lane && g.bale == bale) = some g) → g.bay < 4 → bale < 2 → g.delta = none →
      g.count ≠ 0 → s.vis.fls.gathers.contains g = true → s.vis.gatherVerified g = true →
      s.cur.memNat (s.cur.descAddr lane + 64 + 16 * bale + 10) 6 = 0 →
      ((s.cur.baleCws lane bale).all (fun c => !c.unrec) = true) → ∃ t, exec (.baleGather b lane bale) s = .next t
      ∧ t.cur.mem = memWrite s.cur.mem (s.cur.descAddr lane + 64 + 16 * bale) (gatheredEntry g.bay g.stripe g.slot g.count)
      ∧ (t.cur.fls.gathers = s.cur.fls.gathers.map (fun y => if y == g then { g with delta := some (s.cur.bmap g.bay).deltaNo } else y))
      ∧ (t.cur.bmap g.bay).deltas = (s.cur.bmap g.bay).deltas ++ [((s.cur.bmap g.bay).deltaNo, .gathered lane bale)]
      ∧ t.cur.ldg = s.cur.ldg ∧ { t.cur with mem := s.cur.mem, ldg := s.cur.ldg, fls := s.cur.fls, mc := s.cur.mc } = s.cur) ∧
  (∀ (b : Fin 4) (lane bale : Nat) (s : State), (s.cur.fls.gathers.find? (fun g => g.lane == lane && g.bale == bale) = none) →
      s.vis.flag pgFsch FSCH_STAT_URGENT = false → s.cur.gatherReady b lane bale = true →
      s.cur.get64 (pgFstr 0) FSTR_DEAD_LO FSTR_DEAD_HI = 0 → (s.cur.bmap 1).stripes = [] → (s.cur.bmap 2).stripes = [] →
      (s.cur.bmap 3).stripes = [] → s.cur.baleHome lane bale = none → ∃ t, exec (.baleGather b lane bale) s = .next t
      ∧ t.cur.fls.gathers = s.cur.fls.gathers ++ [{ lane := lane, bale := bale, bay := b }]
      ∧ (((s.cur.logPlaces lane (bale * 2 ^ 20) (min (s.cur.lane lane).length ((bale + 1) * 2 ^ 20))).all fun q => t.cur.fls.accesses.any fun z => z.why == .gather lane bale && z.bay == q.1 && z.stripe == q.2.1 && z.row == q.2.2.1 && z.element == q.2.2.2.1 && z.cw == q.2.2.2.2 && z.cls == 5) = true)
      ∧ { t.cur with regs := s.cur.regs, fls := s.cur.fls } = s.cur) ∧
  (∀ (b : Fin 4) (lane bale : Nat) (s : State), (s.cur.fls.gathers.find? (fun g => g.lane == lane && g.bale == bale) = none) →
      s.cur.gatherReady b lane bale = false ∨ s.vis.flag pgFsch FSCH_STAT_URGENT = true →
      ∃ t, exec (.baleGather b lane bale) s = .next t ∧ t.cur = s.cur
      ∧ { t.cur with regs := s.cur.regs, irqSet := s.cur.irqSet, mem := s.cur.mem, fresh := s.cur.fresh, fj := s.cur.fj, ldg := s.cur.ldg, fls := s.cur.fls, mc := s.cur.mc } = s.cur) ∧
  (∀ (b : Fin 4) (st : Nat) (x : Stripe) (s : State), s.cur.stripe b st = some x → s.vis.flag pgFsch FSCH_STAT_URGENT = false →
      x.isOpen = false → x.rows.all (·.parity) = true → s.cur.takesData b = true → x.erasing = false → x.reading = false →
      x.bale = false → x.reclaim = true ∨ s.cur.fewLive b x = true → s.cur.get64 (pgFstr b) FSTR_DEAD_LO FSTR_DEAD_HI = 0 →
      ∃ t, exec (.stripeReclaim b st) s = .next t ∧ (t.cur.stripe b st).map (·.reading) = some true
      ∧ (((s.cur.liveCws b x ++ s.cur.carriedCws b x).all fun q => t.cur.fls.accesses.any fun z => z.why == .reclaim b st && z.row == q.1.2.2.1 && z.element == q.1.2.2.2.1 && z.cw == q.1.2.2.2.2 && z.cls == 5) = true)
      ∧ (t.cur.bmap b).sets = (s.cur.bmap b).sets ∧ { t.cur with regs := s.cur.regs, fls := s.cur.fls } = s.cur
      ∧ t.cur.regs = s.cur.regs) ∧
  (∀ (b : Fin 4) (st : Nat) (x : Stripe) (s : State), s.cur.stripe b st = some x → s.vis.flag pgFsch FSCH_STAT_URGENT = false →
      x.isOpen = false → x.rows.all (·.parity) = true → s.cur.takesData b = true → x.erasing = false → x.reading = true →
      (s.cur.fls.accesses.any (fun a => a.why == .reclaim b st) = false) →
      x.bale = true ∨ s.cur.liveCws b x ++ s.cur.carriedCws b x = [] → ∃ t, exec (.stripeReclaim b st) s = .next t
      ∧ ((t.cur.stripe b st).map (fun y => (y.reading, y.erasing)) = some (false, true))
      ∧ (t.cur.bmap b).sets = (s.cur.bmap b).sets ∧ { t.cur with fls := s.cur.fls } = s.cur) ∧
  (∀ (b : Fin 4) (st : Nat) (x : Stripe) (l : List Nat) (s : State), s.cur.stripe b st = some x →
      s.vis.flag pgFsch FSCH_STAT_URGENT = false → x.isOpen = false → x.rows.all (·.parity) = true → s.cur.takesData b = true →
      x.erasing = true → x.eraseLeft = none → x.rows = [] → s.cur.beingRead b x = false →
      (l = (List.range (s.cur.width b)).filter (fun e => !s.cur.isDead b (s.cur.tableAt b st e).1 && (s.cur.bset b (s.cur.tableAt b st e).1 (s.cur.tableAt b st e).2).state != .retired)) →
      ∃ t, exec (.stripeReclaim b st) s = .next t
      ∧ ((t.cur.stripe b st).map (fun y => (y.eraseLeft, y.erased)) = some (some l, []))
      ∧ ((l.all fun e => (t.cur.chan (4 * b.val + dieChan (s.cur.tableAt b st e).1)).ops.any fun o => o.kind == .erase && o.page == some (b.val, st, 0, e) && o.cls == 5) = true)
      ∧ (t.cur.bmap b).sets = (s.cur.bmap b).sets ∧ { t.cur with fls := s.cur.fls } = s.cur) ∧
  (∀ (b : Fin 4) (st : Nat) (x : Stripe) (l : List Nat) (s : State), s.cur.stripe b st = some x →
      s.vis.flag pgFsch FSCH_STAT_URGENT = false → x.isOpen = false → x.rows.all (·.parity) = true → s.cur.takesData b = true →
      x.id = st → x.erasing = true → x.eraseLeft = some l → (l.all (fun e => x.erased.any (·.1 == e)) = true) →
      x.erased.all (·.2) = true →
      ((List.range (s.cur.width b)).all (fun e => !(s.cur.bset b (s.cur.tableAt b st e).1 (s.cur.tableAt b st e).2).retire && decide ((s.cur.bset b (s.cur.tableAt b st e).1 (s.cur.tableAt b st e).2).erases + s.cur.width b < s.cur.get (pgFstr b) FSTR_THRESH_PE_LIMIT)) = true) →
      s.cur.get (pgBay b) BAY_FREE < 2 ^ 32 - 1 → ∃ t, exec (.stripeReclaim b st) s = .next t ∧ t.cur.stripe b st = none
      ∧ t.cur.get (pgBay b) BAY_FREE = s.cur.get (pgBay b) BAY_FREE + 1 ∧ t.cur.ldg = s.cur.ldg ∧ t.cur.fj = s.cur.fj
      ∧ { t.cur with regs := s.cur.regs, irqSet := s.cur.irqSet, mem := s.cur.mem, fresh := s.cur.fresh, fj := s.cur.fj, ldg := s.cur.ldg, fls := s.cur.fls, mc := s.cur.mc } = s.cur
      ∧ (∀ a, a ≠ pgBay b + BAY_FREE.off → a ≠ pgFstr b + FSTR_WEAR.off → t.cur.rd a = s.cur.rd a)) ∧
  (∀ (b : Fin 4) (st : Nat) (x : Stripe) (s : State), s.cur.stripe b st = some x →
      x.isOpen = true ∨ s.vis.flag pgFsch FSCH_STAT_URGENT = true → ∃ t, exec (.stripeReclaim b st) s = .next t ∧ t.cur = s.cur
      ∧ { t.cur with regs := s.cur.regs, irqSet := s.cur.irqSet, mem := s.cur.mem, fresh := s.cur.fresh, fj := s.cur.fj, ldg := s.cur.ldg, fls := s.cur.fls, mc := s.cur.mc } = s.cur) ∧
  (∀ (lane : Nat) (s : State), (s.cur.lane lane).state = .reclaiming → (s.vis.lane lane).state = .reclaiming →
      (s.cur.ldg.tasks.any (fun k => k.opc == .release && k.lane == lane && bit k.flags 2 && !k.settled) = false) →
      (s.cur.ldg.background.any (fun x => x.kind == .stale && x.lane == lane) = false) →
      s.cur.looksBelow lane (s.cur.lane lane).reclaimLsn = false → ∃ t, exec (.staleRecordWrite lane) s = .next t
      ∧ t.cur.ldg = { s.cur.ldg with background := s.cur.ldg.background ++ [{ kind := .stale, lane := lane, bay := s.vis.bestBay, behind := s.cur.ldg.nextLsn - 1 }] }
      ∧ t.vis = s.vis ∧ { t.cur with ldg := s.cur.ldg } = s.cur) ∧
  (∀ (lane : Nat) (s : State),
      ((s.cur.lane lane).state ≠ .reclaiming ∨ s.cur.ldg.tasks.any (fun k => k.opc == .release && k.lane == lane && bit k.flags 2 && !k.settled) = true ∨ s.cur.ldg.background.any (fun x => x.kind == .stale && x.lane == lane) = true ∨ s.cur.looksBelow lane (s.cur.lane lane).reclaimLsn = true) →
      ∃ t, exec (.staleRecordWrite lane) s = .next t ∧ t.cur = s.cur ∧ t.vis = s.vis ∧ { t.cur with ldg := s.cur.ldg } = s.cur)

/-- A die with a cause of R225, and one that firmware names, has its bit set in FSTR_DEAD with DIE_LOST raised, recorded
and DEGRADED set, and its rebuild is listed. The rebuild is active from the next Grain; a stripe whose rebuilt pages
are verified names its target in stripe_table; the rebuild ends with REBUILT, or goes on with the next lost die.
Formatting sets the width and the groups and clears BLANK. A prepared commit area is ready, and a READY bay with both
becomes WRITABLE; an area that cannot be prepared is recorded, and its bay leaves WRITABLE. Wear levelling marks one
closed stripe when the spread exceeds WL_SPREAD. (The order among equal stripes, dies and block sets is the model's
choice, notes/assumptions/54.md.) Commands that it says to complete, each on the conditions of its clauses: dieLost,
fstrDieFailGo, dieRebuild, rebuildStripeDone, rebuildComplete, bayFormat, commitAreaPrepare, wearLevel. -/
def Obligations.DiesAndFormatting : Prop :=
  (∀ (b : Fin 4) (x : Fin 64) (s : State), s.cur.dieCause b x = true → s.cur.isDead b x.val = false → x.val < s.cur.dieCount b →
      (s.cur.bmap b).rebuild = none → ∃ t, exec (.dieLost b x) s = .next t
      ∧ bit (t.cur.get64 (pgFstr b) FSTR_DEAD_LO FSTR_DEAD_HI) x.val = true ∧ t.cur.flag (pgFstr b) FSTR_IRQ_DIE_LOST = true
      ∧ t.cur.flag (pgFstr b) PG_STAT_DEGRADED = true
      ∧ t.cur.fj.staged.take (s.cur.fj.staged.length + 1) = s.cur.fj.staged ++ [{ gtime := s.cur.gtime48, pgId := pgIdOf (pgFstr b), code := 0x0502, deg := true, flt := false, data := [x.val % 2 ^ 32] }]
      ∧ (t.cur.bmap b).rebuild.map (·.die) = some x.val ∧ t.cur.get (pgFstr b) FSTR_REBUILD_DIE = x.val ∧ t.vis = s.vis
      ∧ { t.cur with regs := s.cur.regs, irqSet := s.cur.irqSet, fresh := s.cur.fresh, fj := s.cur.fj, ldg := s.cur.ldg, fls := s.cur.fls, mc := s.cur.mc } = s.cur) ∧
  (∀ (b : Fin 4) (x : Fin 64) (s : State), s.cur.dieCause b x = false ∨ s.cur.isDead b x = true →
      ∃ t, exec (.dieLost b x) s = .next t ∧ t.cur = s.cur ∧ t.vis = s.vis
      ∧ { t.cur with regs := s.cur.regs, irqSet := s.cur.irqSet, fresh := s.cur.fresh, fj := s.cur.fj, ldg := s.cur.ldg, fls := s.cur.fls, mc := s.cur.mc } = s.cur) ∧
  (∀ (b : Fin 4) (v : Word) (s : State), s.cur.isDead b (bits v.toNat 0 6) = false → (bits v.toNat 0 6) < s.cur.dieCount b →
      (s.cur.bmap b).rebuild = none → ∃ t, exec (.fstrDieFailGo b v) s = .next t
      ∧ bit (t.cur.get64 (pgFstr b) FSTR_DEAD_LO FSTR_DEAD_HI) (bits v.toNat 0 6) = true
      ∧ t.cur.flag (pgFstr b) FSTR_IRQ_DIE_LOST = true ∧ t.cur.flag (pgFstr b) PG_STAT_DEGRADED = true
      ∧ t.cur.fj.staged.take (s.cur.fj.staged.length + 1) = s.cur.fj.staged ++ [{ gtime := s.cur.gtime48, pgId := pgIdOf (pgFstr b), code := 0x0502, deg := true, flt := false, data := [(bits v.toNat 0 6) % 2 ^ 32] }]
      ∧ (t.cur.bmap b).rebuild.map (·.die) = some (bits v.toNat 0 6)
      ∧ t.cur.get (pgFstr b) FSTR_REBUILD_DIE = (bits v.toNat 0 6) ∧ t.vis = s.vis
      ∧ { t.cur with regs := s.cur.regs, irqSet := s.cur.irqSet, fresh := s.cur.fresh, fj := s.cur.fj, ldg := s.cur.ldg, fls := s.cur.fls, mc := s.cur.mc } = s.cur) ∧
  (∀ (b : Fin 4) (s : State), (s.vis.bmap b).rebuild ≠ none → ∃ t, exec (.dieRebuild b) s = .next t
      ∧ t.cur.flag (pgFstr b) FSTR_REBUILD_ACTIVE = true ∧ t.vis = s.vis ∧ { t.cur with regs := s.cur.regs } = s.cur
      ∧ (∀ a, a ≠ pgFstr b + FSTR_REBUILD.off → t.cur.rd a = s.cur.rd a)) ∧
  (∀ (b : Fin 4) (s : State), (s.vis.bmap b).rebuild = none → ∃ t, exec (.dieRebuild b) s = .next t ∧ t.cur = s.cur
      ∧ t.vis = s.vis ∧ { t.cur with regs := s.cur.regs } = s.cur) ∧
  (∀ (b : Fin 4) (r q : Rebuild) (st : Nat) (l : List Nat) (z : Nat × Nat) (s : State), (s.cur.bmap b).rebuild = some r →
      r.left = st :: l → r.place = some z → r.written = true → r.failed = false → r.pages.all (·.2.2) = true →
      (s.vis.bmap b).rebuild = some q → q.place = some z → q.pages.all (·.2.2) = true →
      s.cur.flag (pgFstr b) FSTR_REBUILD_ACTIVE = true → z.2 < 65536 → ∃ t, exec (.rebuildStripeDone b) s = .next t
      ∧ ((s.cur.elemsOn b st r.die).all (fun e => t.cur.tableAt b st e == z) = true)
      ∧ (t.cur.bmap b).rebuild = some { die := r.die, left := l } ∧ t.cur.get (pgFstr b) FSTR_REBUILD_LEFT = min 0xFFFF l.length
      ∧ t.vis = s.vis ∧ { t.cur with regs := s.cur.regs, fls := s.cur.fls, mc := s.cur.mc } = s.cur
      ∧ (∀ a, a ≠ pgFstr b + FSTR_REBUILD.off → t.cur.rd a = s.cur.rd a)) ∧
  (∀ (b : Fin 4) (r : Rebuild) (s : State), (s.cur.bmap b).rebuild = some r → r.left = [] → (s.cur.bmap b).waiting = [] →
      s.cur.flag (pgFstr b) FSTR_REBUILD_ACTIVE = true → ∃ t, exec (.rebuildComplete b) s = .next t
      ∧ (t.cur.bmap b).rebuild = none ∧ t.cur.flag (pgFstr b) FSTR_REBUILD_ACTIVE = false
      ∧ t.cur.flag (pgFstr b) FSTR_IRQ_REBUILT = true ∧ t.vis = s.vis
      ∧ { t.cur with regs := s.cur.regs, irqSet := s.cur.irqSet, fls := s.cur.fls } = s.cur
      ∧ (∀ a, a ≠ pgFstr b + FSTR_REBUILD.off → a ≠ pgFstr b + PG_IRQ_RAW.off → t.cur.rd a = s.cur.rd a)) ∧
  (∀ (b : Fin 4) (r : Rebuild) (x : Nat) (l : List Nat) (s : State), (s.cur.bmap b).rebuild = some r → r.left = [] →
      (s.cur.bmap b).waiting = x :: l → x < 64 → s.cur.flag (pgFstr b) FSTR_REBUILD_ACTIVE = true →
      ∃ t, exec (.rebuildComplete b) s = .next t ∧ (t.cur.bmap b).rebuild = some { die := x, left := s.cur.rebuildOrder b x }
      ∧ (t.cur.bmap b).waiting = l ∧ t.cur.flag (pgFstr b) FSTR_REBUILD_ACTIVE = true
      ∧ t.cur.get (pgFstr b) FSTR_REBUILD_DIE = x ∧ t.cur.flag (pgFstr b) FSTR_IRQ_REBUILT = true ∧ t.vis = s.vis
      ∧ { t.cur with regs := s.cur.regs, irqSet := s.cur.irqSet, fls := s.cur.fls } = s.cur
      ∧ (∀ a, a ≠ pgFstr b + FSTR_REBUILD.off → a ≠ pgFstr b + PG_IRQ_RAW.off → t.cur.rd a = s.cur.rd a)) ∧
  (∀ (b : Fin 4) (bad : List (Nat × Nat)) (w : Nat) (s : State), s.cur.flag (pgFstr b) FSTR_STAT_FORMATTING = true →
      (s.cur.bmap b).formatStep = 1 → w = max 4 (min 16 (s.cur.get (pgFstr b) FSTR_CFG_WIDTH)) →
      ∃ t, exec (.bayFormat b bad) s = .next t ∧ t.cur.get (pgFstr b) FSTR_GEOM_WIDTH = w
      ∧ t.cur.get (pgFstr b) FSTR_GEOM_GROUPS = s.cur.dieCount b / w
      ∧ t.cur.get (pgFstr b) FSTR_GEOM_FREE_DIES = s.cur.dieCount b % w ∧ t.cur.flag (pgFstr b) FSTR_STAT_BLANK = false
      ∧ t.cur.flag (pgFstr b) FSTR_STAT_MAP_OK = true ∧ t.cur.flag (pgFstr b) FSTR_STAT_FORMATTING = true
      ∧ (t.cur.bmap b).formatStep = 2 ∧ (t.cur.bmap b).learned = [] ∧ (t.cur.bmap b).retry = (s.cur.bmap b).retry
      ∧ t.vis = s.vis ∧ { t.cur with regs := s.cur.regs, fls := s.cur.fls, mc := s.cur.mc } = s.cur
      ∧ (∀ a, a ≠ pgFstr b + FSTR_GEOM.off → a ≠ pgFstr b + FSTR_STAT.off → a ≠ pgFstr b + FSTR_WEAR.off → a ≠ pgBay b + BAY_FREE.off → t.cur.rd a = s.cur.rd a)) ∧
  (∀ (b : Fin 4) (a : Fin 2) (s : State), s.cur.slotStart b 20 ≠ 0 → s.cur.slotStart b 21 ≠ 0 → s.cur.slotStart b 22 ≠ 0 →
      s.cur.flag (pgFstr b) FSTR_STAT_MAP_OK = true → s.cur.restorePoint b a = false →
      s.cur.flag (pgFstr b) FSTR_STAT_FORMATTING = true → s.cur.flag (pgBay b) BAY_CTL_RELEASE = false → s.cur.bayState b = 4 →
      ∃ t, exec (.commitAreaPrepare b a true) s = .next t ∧ (t.cur.bmap b).areas[a.val]? = some { ready := true }
      ∧ (t.cur.bmap b).deltas = (s.cur.bmap b).deltas ++ [((s.cur.bmap b).deltaNo, .full)]
      ∧ (t.cur.rsv.commits = s.cur.rsv.commits.filter (fun c => !(c.bay == b.val && c.area == a.val))) ∧ t.cur.ldg = s.cur.ldg
      ∧ t.vis = s.vis
      ∧ { t.cur with regs := s.cur.regs, ldg := s.cur.ldg, rsv := s.cur.rsv, fls := s.cur.fls, mc := s.cur.mc } = s.cur
      ∧ t.cur.regs = s.cur.regs) ∧
  (∀ (b : Fin 4) (a : Fin 2) (s : State), s.cur.slotStart b 20 ≠ 0 → s.cur.slotStart b 21 ≠ 0 → s.cur.slotStart b 22 ≠ 0 →
      s.cur.flag (pgFstr b) FSTR_STAT_MAP_OK = true → s.cur.restorePoint b a = false → s.vis.flag pgRsv RSV_STAT_PF = false →
      s.cur.flag pgRsv RSV_STAT_PF = false → s.cur.flag (pgFstr b) FSTR_STAT_FORMATTING = false →
      s.cur.flag (pgFstr b) FSTR_STAT_BLANK = false → s.cur.flag (pgFstr b) FSTR_STAT_FULL_RO = false →
      s.cur.flag (pgBay b) BAY_CTL_WRITE_EN = true → s.cur.flag (pgBay b) BAY_CTL_RELEASE = false → s.cur.bayState b = 4 →
      (s.cur.bay b).recovering = false → ((s.cur.bmap b).areas[1 - a.val]?).map (·.ready) = some true →
      ∃ t, exec (.commitAreaPrepare b a true) s = .next t ∧ (t.cur.bmap b).areas[a.val]? = some { ready := true }
      ∧ (t.cur.bmap b).deltas = (s.cur.bmap b).deltas ++ [((s.cur.bmap b).deltaNo, .full)]
      ∧ (t.cur.rsv.commits = s.cur.rsv.commits.filter (fun c => !(c.bay == b.val && c.area == a.val))) ∧ t.cur.ldg = s.cur.ldg
      ∧ t.cur.bayState b = 5 ∧ t.cur.flag (pgBay b) BAY_STAT_LOCK_OUT = true ∧ t.vis = s.vis
      ∧ { t.cur with regs := s.cur.regs, irqSet := s.cur.irqSet, ldg := s.cur.ldg, rsv := s.cur.rsv, fls := s.cur.fls, mc := s.cur.mc } = s.cur
      ∧ (∀ a, a ≠ pgBay b + BAY_STAT.off → a ≠ pgBay b + PG_IRQ_RAW.off → t.cur.rd a = s.cur.rd a)) ∧
  (∀ (b : Fin 4) (a : Fin 2) (s : State), s.cur.slotStart b 20 ≠ 0 → s.cur.slotStart b 21 ≠ 0 → s.cur.slotStart b 22 ≠ 0 →
      s.cur.flag (pgFstr b) FSTR_STAT_MAP_OK = true → s.cur.restorePoint b a = false → s.cur.bayState b ≠ 5 →
      ∃ t, exec (.commitAreaPrepare b a false) s = .next t
      ∧ t.cur.fj.staged = s.cur.fj.staged ++ [{ gtime := s.cur.gtime48, pgId := pgIdOf (pgFstr b), code := 0x0504, deg := false, flt := false, data := [a.val] }]
      ∧ t.cur.regs = s.cur.regs ∧ t.vis = s.vis ∧ { t.cur with regs := s.cur.regs, fj := s.cur.fj } = s.cur) ∧
  (∀ (b : Fin 4) (a : Fin 2) (s : State), s.cur.slotStart b 20 ≠ 0 → s.cur.slotStart b 21 ≠ 0 → s.cur.slotStart b 22 ≠ 0 →
      s.cur.flag (pgFstr b) FSTR_STAT_MAP_OK = true → s.cur.restorePoint b a = false → s.cur.bayState b = 5 →
      s.vis.flag pgRsv RSV_STAT_PF = false → s.cur.flag pgRsv RSV_STAT_PF = false →
      ∃ t, exec (.commitAreaPrepare b a false) s = .next t
      ∧ t.cur.fj.staged = s.cur.fj.staged ++ [{ gtime := s.cur.gtime48, pgId := pgIdOf (pgFstr b), code := 0x0504, deg := false, flt := false, data := [a.val] }]
      ∧ t.cur.bayState b = 4 ∧ t.cur.flag (pgBay b) BAY_STAT_LOCK_OUT = true ∧ t.cur.heldIn b = 0 ∧ t.vis = s.vis
      ∧ { t.cur with regs := s.cur.regs, irqSet := s.cur.irqSet, fresh := s.cur.fresh, fj := s.cur.fj, ldg := s.cur.ldg, rsv := s.cur.rsv, fls := s.cur.fls, mc := s.cur.mc } = s.cur) ∧
  (∀ (b : Fin 4) (a : Fin 2) (ok : Bool) (s : State),
      s.cur.slotStart b 20 = 0 ∨ s.cur.slotStart b 21 = 0 ∨ s.cur.slotStart b 22 = 0 ∨ s.cur.restorePoint b a = true →
      ∃ t, exec (.commitAreaPrepare b a ok) s = .next t ∧ t.cur = s.cur ∧ t.vis = s.vis
      ∧ { t.cur with regs := s.cur.regs, irqSet := s.cur.irqSet, fresh := s.cur.fresh, fj := s.cur.fj, ldg := s.cur.ldg, rsv := s.cur.rsv, fls := s.cur.fls, mc := s.cur.mc } = s.cur) ∧
  (∀ (b : Fin 4) (y : Stripe) (s : State),
      s.cur.get (pgFstr b) FSTR_WEAR_PE_MIN + s.cur.get (pgFstr b) FSTR_WL_WL_SPREAD < s.cur.get (pgFstr b) FSTR_WEAR_PE_MAX →
      (s.cur.bmap b).stripes = [y] → y.isOpen = false → ∃ t, exec (.wearLevel b) s = .next t
      ∧ (t.cur.bmap b).stripes = [{ y with reclaim := true }] ∧ (t.cur.bmap b).sets = (s.cur.bmap b).sets ∧ t.vis = s.vis
      ∧ { t.cur with fls := s.cur.fls } = s.cur ∧ t.cur.regs = s.cur.regs) ∧
  (∀ (b : Fin 4) (s : State),
      s.cur.get (pgFstr b) FSTR_WEAR_PE_MAX ≤ s.cur.get (pgFstr b) FSTR_WEAR_PE_MIN + s.cur.get (pgFstr b) FSTR_WL_WL_SPREAD →
      ∃ t, exec (.wearLevel b) s = .next t ∧ t.cur = s.cur ∧ t.vis = s.vis ∧ { t.cur with fls := s.cur.fls } = s.cur)

/-- A request beyond the usable external memory ends in a bus error with MEM_RANGE. Otherwise a hit is served and touches
the PLRU bits, and a line in the eviction buffer returns to its set; the first miss becomes the outstanding one; a
request to that line waits with it; another miss stalls, and so does whatever a stalled stream asks for behind it. A
fill installs the line in the victim way of R239, waits for an eviction buffer entry where the way holds a line and
none is free, and with an uncorrectable error gives a bus error and its record. The line store writes its lowest dirty
line back. A preload takes the named unlocked ways and ends with DONE, or is refused with PRE_WAYS. ENABLE written 0
starts a drain that ends when no dirty line is left. MC_LOCK is ignored during a preload or drain and keeps the
ledger's STORE ways; lines of STORE ways leave Peck. (The treatment of STORE without LOCK, of the eviction buffer when
full and of a repeated preload is the model's choice, notes/assumptions/80.md.) Commands that it says to complete,
each on the conditions of its clauses: cacheRequest, cacheFill, lineStoreWriteback, mcPreloadGo, mcPreloadDone,
mcDisable, mcDrainEnd, mcLockWrite. -/
def Obligations.PeckCache : Prop :=
  (∀ (st : Fin 32) (a : Nat) (w : Bool) (s : State), a < extBase ∨ extBase + s.cur.extSize ≤ a →
      ∃ t, exec (.cacheRequest st a w) s = .next t ∧ t.cur.bus = { rdata := 0, error := true } ∧ t.cur.mc = s.cur.mc
      ∧ t.cur.fj.staged = s.cur.fj.staged ++ [{ gtime := s.cur.gtime48, pgId := pgIdOf pgMc, code := 0x0601, deg := false, flt := false, data := [a, a / 2 ^ 32].map (· % 2 ^ 32) }]
      ∧ t.vis = s.vis ∧ { t.cur with regs := s.cur.regs, bus := s.cur.bus, fj := s.cur.fj, mc := s.cur.mc } = s.cur
      ∧ t.cur.regs = s.cur.regs) ∧
  (∀ (st : Fin 32) (a : Nat) (w : Bool) (x : CLine) (s : State), extBase ≤ a → a < extBase + s.cur.extSize →
      s.cur.flag pgDdr PG_STAT_FAULT = false → s.cur.mc.stalled.any (·.stream == st.val) = false →
      s.cur.lookup (a / 64) = some x → ∃ t, exec (.cacheRequest st a w) s = .next t ∧ t.cur.mc.hits = s.cur.mc.hits + 1
      ∧ t.cur.mc.miss = s.cur.mc.miss ∧ t.cur.mc.stalled = s.cur.mc.stalled
      ∧ (t.cur.cset (setOf (a / 64)) = { lines := updWhere (·.way == x.way) (fun y => { y with dirty := y.dirty || w }) (s.cur.cset (setOf (a / 64))).lines, plru := plruTouch 4 (16 + x.way) (s.cur.cset (setOf (a / 64))).plru })
      ∧ t.vis = s.vis ∧ { t.cur with regs := s.cur.regs, mc := s.cur.mc } = s.cur
      ∧ (∀ a, a ≠ pgMc + MC_STAT.off → a ≠ pgMc + MC_LS.off → t.cur.rd a = s.cur.rd a)) ∧
  (∀ (st : Fin 32) (a : Nat) (w : Bool) (e : Evict) (y : Nat) (s : State), extBase ≤ a → a < extBase + s.cur.extSize →
      s.cur.flag pgDdr PG_STAT_FAULT = false → s.cur.mc.stalled.any (·.stream == st.val) = false →
      s.cur.flag pgMc MC_CTL_ENABLE = true → s.cur.flag pgMc MC_STAT_DRAINING = false → s.cur.lookup (a / 64) = none →
      s.cur.mc.evict.find? (·.line == a / 64) = some e → e.line = a / 64 → (s.cur.cset (setOf (a / 64))).lines = [] →
      victim (s.cur.cset (setOf (a / 64))) (s.cur.barred (setOf (a / 64))) = some y →
      ∃ t, exec (.cacheRequest st a w) s = .next t ∧ t.cur.mc.hits = s.cur.mc.hits + 1
      ∧ t.cur.lookup (a / 64) = some { way := y, tag := tagOf (a / 64), dirty := (e.dirty && e.taken.isNone) || w }
      ∧ t.cur.mc.evict.any (·.line == a / 64) = false ∧ t.vis = s.vis
      ∧ { t.cur with regs := s.cur.regs, mc := s.cur.mc } = s.cur) ∧
  (∀ (st : Fin 32) (a : Nat) (w : Bool) (s : State), extBase ≤ a → a < extBase + s.cur.extSize →
      s.cur.flag pgDdr PG_STAT_FAULT = false → s.cur.mc.stalled.any (·.stream == st.val) = false →
      s.cur.flag pgMc MC_CTL_ENABLE = true → s.cur.flag pgMc MC_STAT_DRAINING = false → s.cur.lookup (a / 64) = none →
      s.cur.mc.evict.any (·.line == a / 64) = false → s.cur.mc.miss = none → ∃ t, exec (.cacheRequest st a w) s = .next t
      ∧ t.cur.mc.miss = some [{ stream := st.val, line := a / 64, write := w }] ∧ t.cur.mc.misses = s.cur.mc.misses + 1
      ∧ t.cur.mc.sets = s.cur.mc.sets ∧ t.cur.regs = s.cur.regs ∧ t.vis = s.vis
      ∧ { t.cur with regs := s.cur.regs, mc := s.cur.mc } = s.cur) ∧
  (∀ (st : Fin 32) (a : Nat) (w : Bool) (l : List CReq) (s : State), extBase ≤ a → a < extBase + s.cur.extSize →
      s.cur.flag pgDdr PG_STAT_FAULT = false → s.cur.mc.stalled.any (·.stream == st.val) = false →
      s.cur.flag pgMc MC_CTL_ENABLE = true → s.cur.flag pgMc MC_STAT_DRAINING = false → s.cur.lookup (a / 64) = none →
      s.cur.mc.evict.any (·.line == a / 64) = false → s.cur.mc.miss = some l → l.any (·.line == a / 64) = true →
      ∃ t, exec (.cacheRequest st a w) s = .next t
      ∧ t.cur.mc.miss = some (l ++ [{ stream := st.val, line := a / 64, write := w }]) ∧ t.cur.mc.stalled = s.cur.mc.stalled
      ∧ t.cur.mc.sets = s.cur.mc.sets ∧ t.cur.regs = s.cur.regs ∧ t.vis = s.vis
      ∧ { t.cur with regs := s.cur.regs, mc := s.cur.mc } = s.cur) ∧
  (∀ (st : Fin 32) (a : Nat) (w : Bool) (l : List CReq) (s : State), extBase ≤ a → a < extBase + s.cur.extSize →
      s.cur.flag pgDdr PG_STAT_FAULT = false → s.cur.mc.stalled.any (·.stream == st.val) = false →
      s.cur.flag pgMc MC_CTL_ENABLE = true → s.cur.flag pgMc MC_STAT_DRAINING = false → s.cur.lookup (a / 64) = none →
      s.cur.mc.evict.any (·.line == a / 64) = false → s.cur.mc.miss = some l → l.any (·.line == a / 64) = false →
      ∃ t, exec (.cacheRequest st a w) s = .next t ∧ t.cur.mc.miss = some l
      ∧ t.cur.mc.stalled = s.cur.mc.stalled ++ [{ stream := st.val, line := a / 64, write := w }]
      ∧ t.cur.mc.sets = s.cur.mc.sets ∧ t.cur.regs = s.cur.regs ∧ t.vis = s.vis
      ∧ { t.cur with regs := s.cur.regs, mc := s.cur.mc } = s.cur) ∧
  (∀ (st : Fin 32) (a : Nat) (w : Bool) (s : State), extBase ≤ a → a < extBase + s.cur.extSize →
      s.cur.flag pgDdr PG_STAT_FAULT = false → s.cur.mc.stalled.any (·.stream == st.val) = true →
      ∃ t, exec (.cacheRequest st a w) s = .next t
      ∧ t.cur.mc.stalled = s.cur.mc.stalled ++ [{ stream := st.val, line := a / 64, write := w }]
      ∧ t.cur.mc.sets = s.cur.mc.sets ∧ t.cur.mc.miss = s.cur.mc.miss ∧ t.cur.regs = s.cur.regs ∧ t.vis = s.vis
      ∧ { t.cur with regs := s.cur.regs, mc := s.cur.mc } = s.cur) ∧
  (∀ (line way : Nat) (q : CReq) (l : List CReq) (s : State), s.cur.mc.miss = some (q :: l) → q.line = line →
      s.cur.mc.returned = false → s.cur.mc.stalled = [] →
      victim (s.cur.cset (setOf line)) (s.cur.barred (setOf line)) = some way →
      (s.cur.cset (setOf line)).lines.any (·.way == way) = false → s.cur.flag pgMc MC_CTL_ENABLE = true →
      s.cur.flag pgMc MC_STAT_DRAINING = false → ∃ t, exec (.cacheFill line none) s = .next t ∧ t.cur.mc.miss = none
      ∧ ((t.cur.cset (setOf line)).lines = (s.cur.cset (setOf line)).lines.filter (fun y => y.way != way && y.tag != tagOf line) ++ [{ way := way, tag := tagOf line, dirty := (q :: l).any (·.write) }])
      ∧ (t.cur.cset (setOf line)).plru = plruTouch 4 (16 + way) (s.cur.cset (setOf line)).plru ∧ t.vis = s.vis
      ∧ { t.cur with regs := s.cur.regs, mc := s.cur.mc } = s.cur
      ∧ (∀ a, a ≠ pgMc + MC_STAT.off → a ≠ pgMc + MC_LS.off → t.cur.rd a = s.cur.rd a)) ∧
  (∀ (line way : Nat) (q : CReq) (l : List CReq) (s : State), s.cur.mc.miss = some (q :: l) → q.line = line →
      s.cur.mc.returned = false → s.cur.mc.stalled = [] →
      victim (s.cur.cset (setOf line)) (s.cur.barred (setOf line)) = some way →
      (s.cur.cset (setOf line)).lines.any (·.way == way) = false → s.cur.flag pgMc MC_CTL_ENABLE = true →
      s.cur.flag pgMc MC_STAT_DRAINING = false → s.cur.flag pgDdr DDR_CFG_ECC_EN = true →
      s.cur.mc.store.any (·.1 == line) = false → ∃ t, exec (.cacheFill line (some false)) s = .next t ∧ t.cur.mc.miss = none
      ∧ ((t.cur.cset (setOf line)).lines = (s.cur.cset (setOf line)).lines.filter (fun y => y.way != way && y.tag != tagOf line) ++ [{ way := way, tag := tagOf line, dirty := (q :: l).any (·.write) }])
      ∧ (t.cur.cset (setOf line)).plru = plruTouch 4 (16 + way) (s.cur.cset (setOf line)).plru
      ∧ t.cur.get pgDdr DDR_ECC_CORR = min (2 ^ 16 - 1) (s.cur.get pgDdr DDR_ECC_CORR + 1) ∧ t.vis = s.vis
      ∧ { t.cur with regs := s.cur.regs, mc := s.cur.mc } = s.cur
      ∧ (∀ a, a ≠ pgMc + MC_STAT.off → a ≠ pgMc + MC_LS.off → a ≠ pgDdr + DDR_ECC.off → t.cur.rd a = s.cur.rd a)) ∧
  (∀ (line : Nat) (q : CReq) (l : List CReq) (s : State), s.cur.mc.miss = some (q :: l) → q.line = line →
      s.cur.mc.returned = false → s.cur.mc.stalled = [] → s.cur.flag pgDdr DDR_CFG_ECC_EN = true →
      s.cur.mc.store.any (·.1 == line) = false → ∃ t, exec (.cacheFill line (some true)) s = .next t ∧ t.cur.mc.miss = none
      ∧ t.cur.mc.sets = s.cur.mc.sets ∧ t.cur.bus = { rdata := 0, error := true }
      ∧ t.cur.fj.staged = s.cur.fj.staged ++ [{ gtime := s.cur.gtime48, pgId := pgIdOf pgDdr, code := 0x0604, deg := false, flt := false, data := [line * 64, line * 64 / 2 ^ 32].map (· % 2 ^ 32) }]
      ∧ t.cur.get pgDdr DDR_ECC_UNCORR = min (2 ^ 16 - 1) (s.cur.get pgDdr DDR_ECC_UNCORR + 1) ∧ t.vis = s.vis
      ∧ { t.cur with regs := s.cur.regs, bus := s.cur.bus, fj := s.cur.fj, mc := s.cur.mc } = s.cur
      ∧ (∀ a, a ≠ pgMc + MC_STAT.off → a ≠ pgMc + MC_LS.off → a ≠ pgDdr + DDR_ECC.off → t.cur.rd a = s.cur.rd a)) ∧
  (∀ (line way : Nat) (q : CReq) (l : List CReq) (s : State), s.cur.mc.miss = some (q :: l) → q.line = line →
      s.cur.mc.returned = false → victim (s.cur.cset (setOf line)) (s.cur.barred (setOf line)) = some way →
      (s.cur.cset (setOf line)).lines.any (·.way == way) = true → s.cur.evictRoom = false →
      s.cur.flag pgMc MC_CTL_ENABLE = true → s.cur.flag pgMc MC_STAT_DRAINING = false →
      ∃ t, exec (.cacheFill line none) s = .next t ∧ t.cur.mc.returned = true ∧ t.cur.mc.miss = some (q :: l)
      ∧ t.cur.mc.sets = s.cur.mc.sets ∧ t.vis = s.vis ∧ { t.cur with regs := s.cur.regs, mc := s.cur.mc } = s.cur
      ∧ (∀ a, a ≠ pgMc + MC_STAT.off → a ≠ pgMc + MC_LS.off → t.cur.rd a = s.cur.rd a)) ∧
  (∀ (line : Nat) (e : Option Bool) (s : State), s.cur.mc.miss = none → s.cur.mc.prefetch.contains line = false →
      ∃ t, exec (.cacheFill line e) s = .next t ∧ t.cur = s.cur ∧ t.vis = s.vis
      ∧ { t.cur with regs := s.cur.regs, bus := s.cur.bus, fj := s.cur.fj, mc := s.cur.mc } = s.cur) ∧
  (∀ (a : Nat) (s : State), (a, true) ∈ s.cur.mc.store → (∀ p ∈ s.cur.mc.store, p.2 = true → a ≤ p.1) → s.cur.mc.evict = [] →
      s.cur.mc.returned = false → s.cur.flag pgDdr DDR_CFG_ECC_EN = false → ∃ t, exec (.lineStoreWriteback) s = .next t
      ∧ (t.cur.mc = { s.cur.mc with store := s.cur.mc.store.map fun p => if p.1 == a then (p.1, false) else p }) ∧ t.vis = s.vis
      ∧ { t.cur with regs := s.cur.regs, mc := s.cur.mc } = s.cur
      ∧ (∀ a, a ≠ pgMc + MC_STAT.off → a ≠ pgMc + MC_LS.off → t.cur.rd a = s.cur.rd a)) ∧
  (∀ (a : Nat) (s : State), (a, true) ∈ s.cur.mc.store → (∀ p ∈ s.cur.mc.store, p.2 = true → a ≤ p.1) → s.cur.mc.evict = [] →
      s.cur.mc.returned = false → s.cur.flag pgDdr DDR_CFG_ECC_EN = true → extBase / 64 ≤ a →
      a < (extBase + s.cur.extSize) / 64 → a ≠ s.cur.checkLine a → ∃ t, exec (.lineStoreWriteback) s = .next t
      ∧ (t.cur.mc.store = storePut s.cur.storeCap (s.cur.mc.store.map fun p => if p.1 == a then (p.1, false) else p) (s.cur.checkLine a) true)
      ∧ t.vis = s.vis ∧ { t.cur with regs := s.cur.regs, mc := s.cur.mc } = s.cur
      ∧ (∀ a, a ≠ pgMc + MC_STAT.off → a ≠ pgMc + MC_LS.off → t.cur.rd a = s.cur.rd a)) ∧
  (∀ (r : Requester) (v : Word) (s : State), s.cur.flag pgMc MC_PRE_CTL_BUSY = false → s.cur.starts pgMc = true →
      s.cur.get pgMc MC_PRE_WAYS_WAYS ≠ 0 → s.cur.get pgMc MC_PRE_WAYS_WAYS &&& s.cur.lockMask = 0 →
      ∃ t, exec (.mcPreloadGo r v) s = .next t ∧ t.cur.flag pgMc MC_PRE_CTL_BUSY = true
      ∧ t.cur.mc = { s.cur.mc with preload := some { first := s.cur.get64 pgMc MC_PRE_ADDR_LO MC_PRE_ADDR_HI / 64, count := bits v.toNat 0 16 + 1, ways := s.cur.get pgMc MC_PRE_WAYS_WAYS } }
      ∧ t.cur.get pgMc MC_PRE_CTL_LINES_M1 = bits v.toNat 0 16 ∧ t.cur.get pgMc MC_PRE_CTL_MISSED = 0 ∧ t.vis = s.vis
      ∧ { t.cur with regs := s.cur.regs, mc := s.cur.mc } = s.cur ∧ (∀ a, a ≠ pgMc + MC_PRE_CTL.off → t.cur.rd a = s.cur.rd a)) ∧
  (∀ (r : Requester) (v : Word) (s : State), s.cur.flag pgMc MC_PRE_CTL_BUSY = false → s.cur.starts pgMc = true →
      s.cur.get pgMc MC_PRE_WAYS_WAYS = 0 ∨ s.cur.get pgMc MC_PRE_WAYS_WAYS &&& s.cur.lockMask ≠ 0 →
      ∃ t, exec (.mcPreloadGo r v) s = .next t ∧ t.cur.flag pgMc MC_PRE_CTL_BUSY = false ∧ t.cur.mc = s.cur.mc
      ∧ (s.cur.flag pgMc PG_ERR_INFO_VALID = false → t.cur.get pgMc PG_ERR_INFO_CODE = ErrCode.preWays.value) ∧ t.vis = s.vis
      ∧ { t.cur with regs := s.cur.regs, mc := s.cur.mc } = s.cur) ∧
  (∀ (p : Preload) (s : State), s.cur.mc.preload = some p → (Dev.preloadRun p.count s.cur p).2.count = 0 →
      ∃ t, exec (.mcPreloadDone) s = .next t ∧ t.cur.mc.preload = none ∧ t.cur.flag pgMc MC_PRE_CTL_BUSY = false
      ∧ t.cur.flag pgMc MC_PRE_CTL_DONE = true ∧ t.vis = s.vis
      ∧ { t.cur with regs := s.cur.regs, fj := s.cur.fj, mc := s.cur.mc } = s.cur
      ∧ (∀ a, a ≠ pgMc + MC_PRE_CTL.off → a ≠ pgMc + MC_STAT.off → a ≠ pgMc + MC_LS.off → t.cur.rd a = s.cur.rd a)) ∧
  (∀ (p : Preload) (w : Nat) (s : State), s.cur.mc.preload = some p → p.count = 1 → p.filled = [] → extBase / 64 ≤ p.first →
      p.first < (extBase + s.cur.extSize) / 64 → s.cur.lookup p.first = none → s.cur.mc.evict = [] →
      ((List.range 16).find? (fun w => bit p.ways w && !bit (s.cur.lockMask ||| s.cur.retiredWays (setOf p.first)) w) = some w) →
      ∃ t, exec (.mcPreloadDone) s = .next t
      ∧ ((t.cur.cset (setOf p.first)).lines.any (fun x => x == { way := w, tag := tagOf p.first, dirty := false }) = true)
      ∧ (t.cur.cset (setOf p.first)).plru = (s.cur.cset (setOf p.first)).plru
      ∧ t.cur.get pgMc MC_PRE_CTL_MISSED = s.cur.get pgMc MC_PRE_CTL_MISSED ∧ t.cur.flag pgMc MC_PRE_CTL_DONE = true
      ∧ t.vis = s.vis ∧ { t.cur with regs := s.cur.regs, mc := s.cur.mc } = s.cur
      ∧ (∀ a, a ≠ pgMc + MC_PRE_CTL.off → a ≠ pgMc + MC_STAT.off → a ≠ pgMc + MC_LS.off → t.cur.rd a = s.cur.rd a)) ∧
  (∀ (s : State), s.cur.mc.preload = none → ∃ t, exec (.mcPreloadDone) s = .next t ∧ t.cur = s.cur ∧ t.vis = s.vis
      ∧ { t.cur with regs := s.cur.regs, fj := s.cur.fj, mc := s.cur.mc } = s.cur) ∧
  (∀ (v : Word) (s : State), s.cur.flag pgMc MC_CTL_ENABLE = true → ∃ t, exec (.mcDisable v) s = .next t
      ∧ t.cur.flag pgMc MC_CTL_ENABLE = true ∧ t.cur.flag pgMc MC_STAT_DRAINING = true
      ∧ t.cur.flag pgMc MC_CTL_PF_EN = bit v.toNat 1 ∧ t.vis = s.vis ∧ { t.cur with regs := s.cur.regs } = s.cur
      ∧ (∀ a, a ≠ pgMc + MC_CTL.off → a ≠ pgMc + MC_STAT.off → t.cur.rd a = s.cur.rd a)) ∧
  (∀ (v : Word) (s : State), s.cur.flag pgMc MC_CTL_ENABLE = false → ∃ t, exec (.mcDisable v) s = .next t
      ∧ t.cur.flag pgMc MC_CTL_ENABLE = false ∧ t.cur.flag pgMc MC_CTL_PF_EN = bit v.toNat 1 ∧ t.vis = s.vis
      ∧ { t.cur with regs := s.cur.regs } = s.cur ∧ (∀ a, a ≠ pgMc + MC_CTL.off → t.cur.rd a = s.cur.rd a)) ∧
  (∀ (s : State), s.cur.flag pgMc MC_STAT_DRAINING = true →
      (s.cur.mc.sets.all (fun p => p.2.lines.all fun x => !x.dirty || bit s.cur.lockMask x.way) = true) →
      ∃ t, exec (.mcDrainEnd) s = .next t ∧ t.cur.flag pgMc MC_CTL_ENABLE = false ∧ t.cur.flag pgMc MC_STAT_DRAINING = false
      ∧ ((t.cur.mc.sets.all fun p => p.2.lines.all fun x => bit s.cur.lockMask x.way) = true) ∧ t.cur.mc.store = s.cur.mc.store
      ∧ t.vis = s.vis ∧ { t.cur with regs := s.cur.regs, mc := s.cur.mc } = s.cur
      ∧ (∀ a, a ≠ pgMc + MC_CTL.off → a ≠ pgMc + MC_STAT.off → a ≠ pgMc + MC_LS.off → t.cur.rd a = s.cur.rd a)) ∧
  (∀ (i : Nat) (x : CLine) (n : Nat) (s : State), s.cur.flag pgMc MC_STAT_DRAINING = true →
      s.cur.mc.sets = [(i, { lines := [x], plru := n })] → x.dirty = true → bit s.cur.lockMask x.way = false →
      s.cur.storeDirty < s.cur.storeCap → ∃ t, exec (.mcDrainEnd) s = .next t ∧ t.cur.flag pgMc MC_CTL_ENABLE = false
      ∧ t.cur.flag pgMc MC_STAT_DRAINING = false
      ∧ t.cur.mc.store = storePut s.cur.storeCap s.cur.mc.store (lineFrom i x.tag) true ∧ t.vis = s.vis
      ∧ { t.cur with regs := s.cur.regs, mc := s.cur.mc } = s.cur
      ∧ (∀ a, a ≠ pgMc + MC_CTL.off → a ≠ pgMc + MC_STAT.off → a ≠ pgMc + MC_LS.off → t.cur.rd a = s.cur.rd a)) ∧
  (∀ (s : State), s.cur.flag pgMc MC_STAT_DRAINING = false → ∃ t, exec (.mcDrainEnd) s = .next t ∧ t.cur = s.cur ∧ t.vis = s.vis
      ∧ { t.cur with regs := s.cur.regs, mc := s.cur.mc } = s.cur) ∧
  (∀ (v : Word) (s : State), s.cur.flag pgMc MC_PRE_CTL_BUSY = false → s.cur.flag pgMc MC_STAT_DRAINING = false →
      s.vis.flag pgLdg LDG_STAT_RESTORED = false ∨ (s.cur.get pgMc MC_LOCK_STORE &&& 0xF000) &&& (bits v.toNat 16 16 ^^^ 0xFFFF) = 0 →
      ∃ t, exec (.mcLockWrite v) s = .next t ∧ t.cur.get pgMc MC_LOCK_LOCK = bits v.toNat 0 16
      ∧ t.cur.get pgMc MC_LOCK_STORE = bits v.toNat 16 16
      ∧ (∀ i, i < 2048 → (t.cur.cset i).lines = (s.cur.cset i).lines.filter fun x => !bit (bits v.toNat 16 16) x.way)
      ∧ t.vis = s.vis ∧ { t.cur with regs := s.cur.regs, mc := s.cur.mc } = s.cur
      ∧ (∀ a, a ≠ pgMc + MC_LOCK.off → a ≠ pgMc + MC_STAT.off → a ≠ pgMc + MC_LS.off → t.cur.rd a = s.cur.rd a)) ∧
  (∀ (v : Word) (s : State),
      s.cur.flag pgMc MC_PRE_CTL_BUSY = true ∨ s.cur.flag pgMc MC_STAT_DRAINING = true ∨ (s.vis.flag pgLdg LDG_STAT_RESTORED = true ∧ (s.cur.get pgMc MC_LOCK_STORE &&& 0xF000) &&& (bits v.toNat 16 16 ^^^ 0xFFFF) ≠ 0) →
      ∃ t, exec (.mcLockWrite v) s = .next t ∧ t.cur = s.cur ∧ t.vis = s.vis
      ∧ { t.cur with regs := s.cur.regs, mc := s.cur.mc } = s.cur)

/-- The extents of a placed entry are written before it is reported Settled; while the pool has no page the entry waits,
POOL_EMPTY is raised and recorded once. A checkpoint is written and clears the count of deltas once DELTAS have
gathered. Training whose steps all end at some rate sets TRAINED, and DERATED exactly when that rate is below RATE;
training that fails at the lowest rate sets FAULT and writes DDR_TRAIN; a report that breaks off changes nothing. (How
a training step repeats at lower rates is the model's choice, notes/assumptions/83.md.) Commands that it says to
complete, each on the conditions of its clauses: mapExtentWrite, mapCheckpoint, ddrTrain. -/
def Obligations.MapTablesAndDdr : Prop :=
  (∀ (lsn b : Nat) (x : Nat × Nat × Codeword) (d : Dev) (s : State),
      ((s.vis.task lsn).bind (fun t => if s.vis.isPlaced t then t.bay else none) = some b) →
      s.cur.mc.extents.contains lsn = false → s.cur.get64 pgMap MAP_DESC_BASE_LO MAP_DESC_BASE_HI ≠ 0 →
      s.vis.placesOf b lsn = [x] → s.cur.addExtent x.2.2.lane x.2.2.offset b x.2.2.valid x.1 x.2.1 = some d →
      ∃ t, exec (.mapExtentWrite lsn) s = .next t ∧ t.cur.mem = d.mem ∧ t.cur.mc.extents = lsn :: d.mc.extents
      ∧ t.cur.ldg = s.cur.ldg ∧ t.vis = s.vis
      ∧ { t.cur with regs := s.cur.regs, irqSet := s.cur.irqSet, mem := s.cur.mem, mc := s.cur.mc } = s.cur) ∧
  (∀ (lsn b : Nat) (x : Nat × Nat × Codeword) (s : State),
      ((s.vis.task lsn).bind (fun t => if s.vis.isPlaced t then t.bay else none) = some b) →
      s.cur.mc.extents.contains lsn = false → s.cur.get64 pgMap MAP_DESC_BASE_LO MAP_DESC_BASE_HI ≠ 0 →
      s.vis.placesOf b lsn = [x] → s.cur.mc.poolWait.contains lsn = false →
      s.cur.addExtent x.2.2.lane x.2.2.offset b x.2.2.valid x.1 x.2.1 = none → ∃ t, exec (.mapExtentWrite lsn) s = .next t
      ∧ t.cur.mem = s.cur.mem ∧ t.cur.mc = { s.cur.mc with poolWait := lsn :: s.cur.mc.poolWait }
      ∧ t.cur.flag pgMap MAP_IRQ_POOL_EMPTY = true
      ∧ t.cur.fj.staged = s.cur.fj.staged ++ [{ gtime := s.cur.gtime48, pgId := pgIdOf pgMap, code := 0x0602, deg := false, flt := false, data := [lsn, lsn / 2 ^ 32].map (· % 2 ^ 32) }]
      ∧ t.vis = s.vis
      ∧ { t.cur with regs := s.cur.regs, irqSet := s.cur.irqSet, mem := s.cur.mem, fj := s.cur.fj, mc := s.cur.mc } = s.cur
      ∧ (∀ a, a ≠ pgMap + PG_IRQ_RAW.off → t.cur.rd a = s.cur.rd a)) ∧
  (∀ (lsn : Nat) (s : State), s.vis.task lsn = none ∨ s.cur.mc.extents.contains lsn = true →
      ∃ t, exec (.mapExtentWrite lsn) s = .next t ∧ t.cur = s.cur ∧ t.vis = s.vis
      ∧ { t.cur with regs := s.cur.regs, irqSet := s.cur.irqSet, mem := s.cur.mem, fj := s.cur.fj, mc := s.cur.mc } = s.cur) ∧
  (∀ (b : Fin 4) (s : State), (max 1 (s.cur.get pgMap MAP_CKPT) ≤ tabGet (fun _ => 0) s.cur.mc.deltas b) →
      ∃ t, exec (.mapCheckpoint b) s = .next t ∧ (tabGet (fun _ => 0) t.cur.mc.deltas b = 0)
      ∧ (∀ c, c ≠ b.val → tabGet (fun _ => 0) t.cur.mc.deltas c = tabGet (fun _ => 0) s.cur.mc.deltas c)
      ∧ (t.cur.bmap b).deltas = (s.cur.bmap b).deltas ++ [((s.cur.bmap b).deltaNo, .checkpoint)]
      ∧ (t.cur.bmap b).deltaNo = (s.cur.bmap b).deltaNo + 1 ∧ t.vis = s.vis
      ∧ { t.cur with fls := s.cur.fls, mc := s.cur.mc } = s.cur) ∧
  (∀ (b : Fin 4) (s : State), (tabGet (fun _ => 0) s.cur.mc.deltas b < max 1 (s.cur.get pgMap MAP_CKPT)) →
      ∃ t, exec (.mapCheckpoint b) s = .next t ∧ t.cur = s.cur ∧ t.vis = s.vis
      ∧ { t.cur with fls := s.cur.fls, mc := s.cur.mc } = s.cur) ∧
  (∀ (eyes : List (List Nat)) (x : Nat) (s : State), ddrTrain (s.cur.get pgDdr DDR_CFG_RATE) eyes = some (some x) →
      eyes.length = 5 ∨ (eyes.length = 2 ∧ s.cur.mc.dqDue = true) → ∃ t, exec (.ddrTrain eyes) s = .next t
      ∧ t.cur.flag pgDdr DDR_STAT_TRAINED = true ∧ t.cur.flag pgDdr DDR_STAT_DERATED = decide (x < s.cur.get pgDdr DDR_CFG_RATE)
      ∧ t.cur.flag pgDdr DDR_STAT_SELF_REFRESH = false ∧ t.cur.mc = { s.cur.mc with everTrained := true, dqDue := false }
      ∧ t.vis = s.vis ∧ { t.cur with regs := s.cur.regs, mc := s.cur.mc } = s.cur
      ∧ (∀ a, a ≠ pgDdr + DDR_STAT.off → a ≠ pgDdr + PG_STAT.off → t.cur.rd a = s.cur.rd a)) ∧
  (∀ (eyes : List (List Nat)) (s : State), ddrTrain (s.cur.get pgDdr DDR_CFG_RATE) eyes = some none →
      ∃ t, exec (.ddrTrain eyes) s = .next t ∧ t.cur.flag pgDdr DDR_STAT_TRAINED = false ∧ t.cur.flag pgDdr PG_STAT_FAULT = true
      ∧ t.cur.fj.staged = s.cur.fj.staged ++ [{ gtime := s.cur.gtime48, pgId := pgIdOf pgDdr, code := 0x0603, deg := false, flt := true, data := [s.cur.get pgDdr DDR_CFG_RATE % 2 ^ 32] }]
      ∧ t.vis = s.vis ∧ { t.cur with regs := s.cur.regs, fj := s.cur.fj } = s.cur
      ∧ (∀ a, a ≠ pgDdr + DDR_STAT.off → a ≠ pgDdr + PG_STAT.off → t.cur.rd a = s.cur.rd a)) ∧
  (∀ (eyes : List (List Nat)) (s : State),
      ddrTrain (s.cur.get pgDdr DDR_CFG_RATE) eyes = none ∨ (eyes.length ≠ 5 ∧ eyes.length ≠ 2 ∧ ddrTrain (s.cur.get pgDdr DDR_CFG_RATE) eyes ≠ some none) →
      ∃ t, exec (.ddrTrain eyes) s = .next t ∧ t.cur = s.cur ∧ t.vis = s.vis
      ∧ { t.cur with regs := s.cur.regs, fj := s.cur.fj, mc := s.cur.mc } = s.cur)

/-- A rotation step hands the slice in turn over, and after 16 Grains applies its plausible calibration or keeps the old
one and counts a failure. A failed slice is replaced by the fifth with FTH_SLICE; a second one fails the channel.
Defects mark frames. Lock is entered after LOCK_N syncs, kept by accepted ones, bridged by inserted ones and lost
after LOSE_N of them with SYNC_LOST; a slip re-phases only when confirmed at the same offset. Eight ADIP unit syncs in
a row set wobble lock and eight misses clear it. (That the gain is held while RUN is 0 is the model's choice,
notes/assumptions/151.md.) Commands that it says to complete, each on the conditions of its clauses: adcRotationStep,
adcSliceFail, defectBegin, defectEnd, timingLock, syncLock, syncAccept, syncInsert, syncSlip, wobbleLock. -/
def Obligations.ReadChannelFrames : Prop :=
  (∀ (k : Fin 5) (o g w : Int) (s : State), s.cur.flag (pgFth k) FTH_ADC_ROTATE = true →
      s.cur.get (pgFth k) FTH_ADC_FAILED = 0 → (s.cur.fthc k).stepAt = none → (s.cur.fthc k).step < 4 →
      ∃ t, exec (.adcRotationStep k o g w) s = .next t ∧ t.cur.get (pgFth k) FTH_ADC_STANDIN = (s.cur.fthc k).step
      ∧ (t.cur.fth = (s.cur.updFth k fun c => { c with stepAt := some s.cur.gtime }).fth) ∧ t.vis = s.vis
      ∧ { t.cur with regs := s.cur.regs, fth := s.cur.fth } = s.cur ∧ (∀ a, a ≠ pgFth k + FTH_ADC.off → t.cur.rd a = s.cur.rd a)) ∧
  (∀ (k : Fin 5) (o g w : Int) (x : Nat) (s : State), s.cur.flag (pgFth k) FTH_ADC_ROTATE = true →
      s.cur.get (pgFth k) FTH_ADC_FAILED = 0 → (s.cur.fthc k).stepAt = some x → x + 16 ≤ s.cur.gtime → (s.cur.fthc k).step < 4 →
      plausible o g w = true → ∃ t, exec (.adcRotationStep k o g w) s = .next t ∧ t.cur.get (pgFth k) FTH_ADC_STANDIN = 7
      ∧ (t.cur.fthc k).step = (s.cur.fthc k).step + 1 ∧ (t.cur.fthc k).stepAt = none
      ∧ (t.cur.fthc k).slices[(s.cur.fthc k).step]? = some { offset := o, gain := g, skew := w } ∧ t.vis = s.vis
      ∧ { t.cur with regs := s.cur.regs, fth := s.cur.fth } = s.cur ∧ (∀ a, a ≠ pgFth k + FTH_ADC.off → t.cur.rd a = s.cur.rd a)) ∧
  (∀ (k : Fin 5) (o g w : Int) (x : Nat) (s : State), s.cur.flag (pgFth k) FTH_ADC_ROTATE = true →
      s.cur.get (pgFth k) FTH_ADC_FAILED = 0 → (s.cur.fthc k).stepAt = some x → x + 16 ≤ s.cur.gtime → (s.cur.fthc k).step < 4 →
      plausible o g w = false → ∃ t, exec (.adcRotationStep k o g w) s = .next t
      ∧ (((t.cur.fthc k).slices[(s.cur.fthc k).step]?).map (fun y => (y.offset, y.gain, y.skew, y.fails)) = ((s.cur.fthc k).slices[(s.cur.fthc k).step]?).map (fun y => (y.offset, y.gain, y.skew, y.fails + 1)))
      ∧ t.vis = s.vis ∧ { t.cur with regs := s.cur.regs, fth := s.cur.fth } = s.cur
      ∧ (∀ a, a ≠ pgFth k + FTH_ADC.off → t.cur.rd a = s.cur.rd a)) ∧
  (∀ (k : Fin 5) (o g w : Int) (s : State),
      s.cur.flag (pgFth k) FTH_ADC_ROTATE = false ∨ s.cur.get (pgFth k) FTH_ADC_FAILED ≠ 0 →
      ∃ t, exec (.adcRotationStep k o g w) s = .next t ∧ t.cur = s.cur ∧ t.vis = s.vis
      ∧ { t.cur with regs := s.cur.regs, fth := s.cur.fth } = s.cur) ∧
  (∀ (k : Fin 5) (o g w : Int) (x : Nat) (s : State), s.cur.flag (pgFth k) FTH_ADC_ROTATE = true →
      s.cur.get (pgFth k) FTH_ADC_FAILED = 0 → (s.cur.fthc k).stepAt = some x → x + 16 ≤ s.cur.gtime → (s.cur.fthc k).step = 4 →
      ∃ t, exec (.adcRotationStep k o g w) s = .next t
      ∧ (s.cur.flag (pgFth k) PG_STAT_STALE = true → t.cur.flag (pgFth k) PG_STAT_STALE = false) ∧ (t.cur.fthc k).step = 0
      ∧ (t.cur.fthc k).stepAt = none ∧ t.vis = s.vis ∧ { t.cur with regs := s.cur.regs, fth := s.cur.fth } = s.cur) ∧
  (∀ (k : Fin 5) (sl : Fin 5) (s : State), s.cur.get (pgFth k) FTH_ADC_FAILED = 0 →
      ∃ t, exec (.adcSliceFail k sl true) s = .next t ∧ t.cur.get (pgFth k) FTH_ADC_FAILED = 2 ^ sl.val
      ∧ (t.cur.get (pgFth k) FTH_ADC_STANDIN = (if sl.val < 4 then sl.val else 7))
      ∧ t.cur.flag (pgFth k) FTH_IRQ_SLICE_FAIL = true
      ∧ t.cur.fj.staged = s.cur.fj.staged ++ [{ gtime := s.cur.gtime48, pgId := pgIdOf (pgFth k), code := 0x0701, deg := false, flt := false, data := [sl.val] }]
      ∧ (t.cur.fthc k).frame ∈ (t.cur.fthc k).lowConf ∧ (t.cur.fthc k).stepAt = none ∧ t.vis = s.vis
      ∧ { t.cur with regs := s.cur.regs, irqSet := s.cur.irqSet, host := s.cur.host, fresh := s.cur.fresh, fj := s.cur.fj, fth := s.cur.fth } = s.cur
      ∧ (∀ a, a ≠ pgFth k + FTH_ADC.off → a ≠ pgFth k + PG_IRQ_RAW.off → t.cur.rd a = s.cur.rd a)) ∧
  (∀ (sl : Fin 5) (s : State), s.cur.get (pgFth 4) FTH_ADC_FAILED ≠ 0 → bit (s.cur.get (pgFth 4) FTH_ADC_FAILED) sl = false →
      ∃ t, exec (.adcSliceFail 4 sl true) s = .next t ∧ t.cur.flag (pgFth 4) PG_STAT_DEGRADED = true
      ∧ t.cur.flag (pgFth 4) FTH_CTL_RUN = false ∧ (t.cur.fthc 4).job = none ∧ t.vis = s.vis
      ∧ { t.cur with regs := s.cur.regs, irqSet := s.cur.irqSet, host := s.cur.host, fresh := s.cur.fresh, fj := s.cur.fj, ldg := s.cur.ldg, fth := s.cur.fth } = s.cur) ∧
  (∀ (k : Fin 5) (sl : Fin 5) (s : State), (((s.cur.fthc k).slices[sl.val]?).getD {}).fails < 2 →
      ∃ t, exec (.adcSliceFail k sl false) s = .next t ∧ t.cur = s.cur ∧ t.vis = s.vis
      ∧ { t.cur with regs := s.cur.regs, irqSet := s.cur.irqSet, mem := s.cur.mem, host := s.cur.host, fresh := s.cur.fresh, fj := s.cur.fj, ldg := s.cur.ldg, fth := s.cur.fth } = s.cur) ∧
  (∀ (k : Fin 5) (env mean bits : Nat) (s : State), max 1 (s.cur.get (pgFth k) FTH_DEFECT_DEF_MIN_CB) ≤ bits →
      100 * env < s.cur.get (pgFth k) FTH_DEFECT_DEF_THR_PCT * mean → (s.cur.fthc k).defect = false →
      ∃ t, exec (.defectBegin k env mean bits) s = .next t ∧ (t.cur.fthc k).defect = true
      ∧ (t.cur.fthc k).defAcc = (s.cur.fthc k).defAcc + 1
      ∧ (s.cur.flag (pgFth k) FTH_CTL_DEFECT_EN = true → (s.cur.fthc k).frame ∈ (t.cur.fthc k).defFrames)
      ∧ (s.cur.flag (pgFth k) FTH_CTL_DEFECT_EN = false → (t.cur.fthc k).defFrames = (s.cur.fthc k).defFrames) ∧ t.vis = s.vis
      ∧ { t.cur with fth := s.cur.fth } = s.cur) ∧
  (∀ (k : Fin 5) (env mean bits : Nat) (s : State),
      bits < max 1 (s.cur.get (pgFth k) FTH_DEFECT_DEF_MIN_CB) ∨ s.cur.get (pgFth k) FTH_DEFECT_DEF_THR_PCT * mean ≤ 100 * env →
      ∃ t, exec (.defectBegin k env mean bits) s = .next t ∧ t.cur = s.cur ∧ t.vis = s.vis
      ∧ { t.cur with fth := s.cur.fth } = s.cur) ∧
  (∀ (k : Fin 5) (env mean bits : Nat) (s : State), max 1 (s.cur.get (pgFth k) FTH_DEFECT_DEF_MIN_CB) ≤ bits →
      s.cur.get (pgFth k) FTH_DEFECT_DEF_THR_PCT * mean ≤ 100 * env → ∃ t, exec (.defectEnd k env mean bits) s = .next t
      ∧ (t.cur.fth = (s.cur.updFth k fun c => { c with defect := false }).fth) ∧ t.vis = s.vis
      ∧ { t.cur with fth := s.cur.fth } = s.cur) ∧
  (∀ (k : Fin 5) (env mean bits : Nat) (s : State),
      bits < max 1 (s.cur.get (pgFth k) FTH_DEFECT_DEF_MIN_CB) ∨ 100 * env < s.cur.get (pgFth k) FTH_DEFECT_DEF_THR_PCT * mean →
      ∃ t, exec (.defectEnd k env mean bits) s = .next t ∧ t.cur = s.cur ∧ t.vis = s.vis
      ∧ { t.cur with fth := s.cur.fth } = s.cur) ∧
  (∀ (k : Fin 5) (kbps : Nat) (s : State), kbps ≤ 800000 → s.cur.startRate k * 95 ≤ kbps * 100 →
      kbps * 100 ≤ s.cur.startRate k * 105 → ∃ t, exec (.timingLock k true kbps) s = .next t
      ∧ t.cur.flag (pgFth k) FTH_TR_LOCKED = true ∧ t.vis = s.vis ∧ { t.cur with regs := s.cur.regs } = s.cur
      ∧ (∀ a, a ≠ pgFth k + FTH_TR.off → t.cur.rd a = s.cur.rd a)) ∧
  (∀ (k : Fin 5) (kbps : Nat) (s : State), s.cur.flag (pgFth k) FTH_TR_LOCKED = false →
      800000 < kbps ∨ kbps * 100 < s.cur.startRate k * 95 ∨ s.cur.startRate k * 105 < kbps * 100 →
      ∃ t, exec (.timingLock k true kbps) s = .next t ∧ t.cur = s.cur ∧ t.vis = s.vis
      ∧ { t.cur with regs := s.cur.regs } = s.cur) ∧
  (∀ (k : Fin 5) (kbps : Nat) (s : State), ∃ t, exec (.timingLock k false kbps) s = .next t
      ∧ t.cur.flag (pgFth k) FTH_TR_LOCKED = false ∧ t.vis = s.vis ∧ { t.cur with regs := s.cur.regs } = s.cur
      ∧ (∀ a, a ≠ pgFth k + FTH_TR.off → t.cur.rd a = s.cur.rd a)) ∧
  (∀ (k : Fin 5) (e : Bool) (gap : Nat) (s : State), (s.cur.fthc k).locked = false →
      (max 1 (s.cur.get (pgFth k) FTH_SYNC_LOCK_N) ≤ (if e then (s.cur.fthc k).lockCount + 1 else 1)) →
      ∃ t, exec (.syncLock k e gap) s = .next t
      ∧ (t.cur.fth = (s.cur.updFth k fun c => { c with locked := true, lockCount := 0, inserted := 0, slip := none, frame := c.frame + gap, place := none, lostFrame := none, outages := c.outages ++ (c.lostFrame.toList.map fun a => (a, c.frame + gap)) }).fth)
      ∧ t.vis = s.vis ∧ { t.cur with fth := s.cur.fth } = s.cur) ∧
  (∀ (k : Fin 5) (e : Bool) (gap : Nat) (s : State), (s.cur.fthc k).locked = false →
      ((if e then (s.cur.fthc k).lockCount + 1 else 1) < max 1 (s.cur.get (pgFth k) FTH_SYNC_LOCK_N)) →
      ∃ t, exec (.syncLock k e gap) s = .next t
      ∧ (t.cur.fth = (s.cur.updFth k fun c => { c with lockCount := if e then c.lockCount + 1 else 1 }).fth) ∧ t.vis = s.vis
      ∧ { t.cur with fth := s.cur.fth } = s.cur) ∧
  (∀ (k : Fin 5) (off : Int) (idOk : Bool) (s : State), (s.cur.fthc k).locked = true → -2 ≤ off → off ≤ 2 →
      ((s.cur.fthc k).nextFrame (s.cur.get (pgFth k) FTH_CTL_FORMAT == 2) (s.cur.flag (pgFth k) FTH_CTL_DEFECT_EN)).linking (s.cur.get (pgFth k) FTH_CTL_FORMAT == 2) = false →
      ∃ t, exec (.syncAccept k off idOk none) s = .next t ∧ (t.cur.fthc k).locked = true
      ∧ (t.cur.fthc k).frame = (s.cur.fthc k).frame + 1 ∧ (t.cur.fthc k).phase = (s.cur.fthc k).phase + off
      ∧ (t.cur.fthc k).inserted = 0 ∧ (t.cur.fthc k).slip = none ∧ (t.cur.fthc k).erased = (s.cur.fthc k).erased
      ∧ (idOk = true → (t.cur.fthc k).lowConf = (s.cur.fthc k).lowConf)
      ∧ (idOk = false → (t.cur.fthc k).frame ∈ (t.cur.fthc k).lowConf) ∧ t.vis = s.vis ∧ { t.cur with fth := s.cur.fth } = s.cur) ∧
  (∀ (k : Fin 5) (off : Int) (idOk : Bool) (s : State), (s.cur.fthc k).locked = true → -2 ≤ off → off ≤ 2 →
      ((s.cur.fthc k).nextFrame (s.cur.get (pgFth k) FTH_CTL_FORMAT == 2) (s.cur.flag (pgFth k) FTH_CTL_DEFECT_EN)).linking (s.cur.get (pgFth k) FTH_CTL_FORMAT == 2) = true →
      ∃ t, exec (.syncAccept k off idOk none) s = .next t ∧ (t.cur.fthc k).phase = (s.cur.fthc k).phase
      ∧ (t.cur.fthc k).inserted = (s.cur.fthc k).inserted ∧ (t.cur.fthc k).lowConf = (s.cur.fthc k).lowConf
      ∧ (t.cur.fthc k).frame = (s.cur.fthc k).frame + 1 ∧ t.vis = s.vis ∧ { t.cur with fth := s.cur.fth } = s.cur) ∧
  (∀ (k : Fin 5) (off : Int) (idOk : Bool) (pl : Option Nat) (s : State), (s.cur.fthc k).locked = false ∨ off < -2 ∨ 2 < off →
      ∃ t, exec (.syncAccept k off idOk pl) s = .next t ∧ t.cur.fth = s.cur.fth ∧ t.vis = s.vis
      ∧ { t.cur with fth := s.cur.fth } = s.cur) ∧
  (∀ (k : Fin 5) (s : State), (s.cur.fthc k).locked = true →
      ((s.cur.fthc k).nextFrame (s.cur.get (pgFth k) FTH_CTL_FORMAT == 2) (s.cur.flag (pgFth k) FTH_CTL_DEFECT_EN)).linking (s.cur.get (pgFth k) FTH_CTL_FORMAT == 2) = false →
      (s.cur.fthc k).inserted + 1 < max 1 (s.cur.get (pgFth k) FTH_SYNC_LOSE_N) → ∃ t, exec (.syncInsert k) s = .next t
      ∧ (t.cur.fthc k).locked = true ∧ (t.cur.fthc k).frame = (s.cur.fthc k).frame + 1
      ∧ (t.cur.fthc k).phase = (s.cur.fthc k).phase ∧ (t.cur.fthc k).frame ∈ (t.cur.fthc k).erased
      ∧ (t.cur.fthc k).inserted = (s.cur.fthc k).inserted + 1 ∧ (t.cur.fthc k).missAcc = (s.cur.fthc k).missAcc + 1
      ∧ (t.cur.fthc k).slip = none ∧ t.vis = s.vis ∧ { t.cur with fth := s.cur.fth } = s.cur) ∧
  (∀ (k : Fin 5) (s : State), (s.cur.fthc k).locked = true →
      ((s.cur.fthc k).nextFrame (s.cur.get (pgFth k) FTH_CTL_FORMAT == 2) (s.cur.flag (pgFth k) FTH_CTL_DEFECT_EN)).linking (s.cur.get (pgFth k) FTH_CTL_FORMAT == 2) = false →
      max 1 (s.cur.get (pgFth k) FTH_SYNC_LOSE_N) ≤ (s.cur.fthc k).inserted + 1 → ∃ t, exec (.syncInsert k) s = .next t
      ∧ (t.cur.fthc k).locked = false ∧ (t.cur.fthc k).lostAt = s.cur.gtime
      ∧ (t.cur.fthc k).lostFrame = some ((s.cur.fthc k).frame + 1) ∧ t.cur.flag (pgFth k) FTH_IRQ_SYNC_LOST = true
      ∧ t.vis = s.vis ∧ { t.cur with regs := s.cur.regs, irqSet := s.cur.irqSet, fth := s.cur.fth } = s.cur
      ∧ (∀ a, a ≠ pgFth k + PG_IRQ_RAW.off → t.cur.rd a = s.cur.rd a)) ∧
  (∀ (k : Fin 5) (s : State), (s.cur.fthc k).locked = true →
      ((s.cur.fthc k).nextFrame (s.cur.get (pgFth k) FTH_CTL_FORMAT == 2) (s.cur.flag (pgFth k) FTH_CTL_DEFECT_EN)).linking (s.cur.get (pgFth k) FTH_CTL_FORMAT == 2) = true →
      ∃ t, exec (.syncInsert k) s = .next t ∧ (t.cur.fthc k).locked = true ∧ (t.cur.fthc k).inserted = (s.cur.fthc k).inserted
      ∧ (t.cur.fthc k).missAcc = (s.cur.fthc k).missAcc ∧ (t.cur.fthc k).erased = (s.cur.fthc k).erased
      ∧ (t.cur.fthc k).phase = (s.cur.fthc k).phase ∧ t.vis = s.vis ∧ { t.cur with fth := s.cur.fth } = s.cur) ∧
  (∀ (k : Fin 5) (s : State), (s.cur.fthc k).locked = false → ∃ t, exec (.syncInsert k) s = .next t ∧ t.cur = s.cur
      ∧ t.vis = s.vis ∧ { t.cur with regs := s.cur.regs, irqSet := s.cur.irqSet, fth := s.cur.fth } = s.cur) ∧
  (∀ (k : Fin 5) (off : Int) (s : State), (s.cur.fthc k).locked = true →
      ((s.cur.fthc k).nextFrame (s.cur.get (pgFth k) FTH_CTL_FORMAT == 2) (s.cur.flag (pgFth k) FTH_CTL_DEFECT_EN)).linking (s.cur.get (pgFth k) FTH_CTL_FORMAT == 2) = false →
      (off.natAbs : Nat) ≤ max 3 (min 64 (s.cur.get (pgFth k) FTH_SYNC_SLIP_MAX)) → 3 ≤ off.natAbs →
      (s.cur.fthc k).slip = none → ∃ t, exec (.syncSlip k off) s = .next t ∧ (t.cur.fthc k).slip = some off
      ∧ (t.cur.fthc k).locked = true ∧ (t.cur.fthc k).inserted = (s.cur.fthc k).inserted
      ∧ (t.cur.fthc k).phase = (s.cur.fthc k).phase ∧ (s.cur.fthc k).frame ∈ (t.cur.fthc k).lowConf
      ∧ (t.cur.fthc k).frame ∈ (t.cur.fthc k).slipped ∧ t.vis = s.vis ∧ { t.cur with fth := s.cur.fth } = s.cur) ∧
  (∀ (k : Fin 5) (off x : Int) (s : State), (s.cur.fthc k).locked = true →
      ((s.cur.fthc k).nextFrame (s.cur.get (pgFth k) FTH_CTL_FORMAT == 2) (s.cur.flag (pgFth k) FTH_CTL_DEFECT_EN)).linking (s.cur.get (pgFth k) FTH_CTL_FORMAT == 2) = false →
      (off.natAbs : Nat) ≤ max 3 (min 64 (s.cur.get (pgFth k) FTH_SYNC_SLIP_MAX)) → 3 ≤ off.natAbs →
      (s.cur.fthc k).slip = some x → (off - x).natAbs ≤ 2 → ∃ t, exec (.syncSlip k off) s = .next t ∧ (t.cur.fthc k).slip = none
      ∧ (t.cur.fthc k).inserted = 0 ∧ (t.cur.fthc k).phase = (s.cur.fthc k).phase + off
      ∧ (s.cur.fthc k).frame ∈ (t.cur.fthc k).lowConf ∧ (t.cur.fthc k).frame ∈ (t.cur.fthc k).slipped ∧ t.vis = s.vis
      ∧ { t.cur with fth := s.cur.fth } = s.cur) ∧
  (∀ (k : Fin 5) (off x : Int) (s : State), (s.cur.fthc k).locked = true →
      ((s.cur.fthc k).nextFrame (s.cur.get (pgFth k) FTH_CTL_FORMAT == 2) (s.cur.flag (pgFth k) FTH_CTL_DEFECT_EN)).linking (s.cur.get (pgFth k) FTH_CTL_FORMAT == 2) = false →
      (off.natAbs : Nat) ≤ max 3 (min 64 (s.cur.get (pgFth k) FTH_SYNC_SLIP_MAX)) → 3 ≤ off.natAbs →
      (s.cur.fthc k).slip = some x → 2 < (off - x).natAbs →
      (s.cur.fthc k).inserted + 1 < max 1 (s.cur.get (pgFth k) FTH_SYNC_LOSE_N) → ∃ t, exec (.syncSlip k off) s = .next t
      ∧ (t.cur.fthc k).slip = none ∧ (t.cur.fthc k).phase = (s.cur.fthc k).phase ∧ (t.cur.fthc k).frame ∈ (t.cur.fthc k).erased
      ∧ (t.cur.fthc k).inserted = (s.cur.fthc k).inserted + 1 ∧ (t.cur.fthc k).locked = true ∧ t.vis = s.vis
      ∧ { t.cur with regs := s.cur.regs, irqSet := s.cur.irqSet, fth := s.cur.fth } = s.cur) ∧
  (∀ (k : Fin 5) (off : Int) (s : State),
      (s.cur.fthc k).locked = false ∨ off.natAbs < 3 ∨ max 3 (min 64 (s.cur.get (pgFth k) FTH_SYNC_SLIP_MAX)) < off.natAbs →
      ∃ t, exec (.syncSlip k off) s = .next t ∧ t.cur.fth = s.cur.fth ∧ t.vis = s.vis
      ∧ { t.cur with regs := s.cur.regs, irqSet := s.cur.irqSet, fth := s.cur.fth } = s.cur) ∧
  (∀ (k : Fin 5) (a : Nat) (khz since : BitVec 16) (s : State), 7 ≤ (s.cur.fthc k).wobHits → a < 2 ^ 31 →
      ∃ t, exec (.wobbleLock k true (some a) khz since) s = .next t ∧ t.cur.flag (pgFth k) FTH_WOB_LOCKED = true
      ∧ t.cur.get (pgFth k) FTH_WOB_ADIP = a ∧ t.cur.get (pgFth k) FTH_WOB_STAT_WOB_KHZ = khz.toNat
      ∧ (t.cur.fth = (s.cur.updFth k fun c => { c with wobHits := c.wobHits + 1, wobMiss := 0 }).fth) ∧ t.vis = s.vis
      ∧ { t.cur with regs := s.cur.regs, fth := s.cur.fth } = s.cur
      ∧ (∀ a, a ≠ pgFth k + FTH_WOB.off → a ≠ pgFth k + FTH_WOB_STAT.off → t.cur.rd a = s.cur.rd a)) ∧
  (∀ (k : Fin 5) (a : Nat) (khz since : BitVec 16) (s : State), 7 ≤ (s.cur.fthc k).wobMiss →
      ∃ t, exec (.wobbleLock k false (some a) khz since) s = .next t ∧ t.cur.flag (pgFth k) FTH_WOB_LOCKED = false
      ∧ t.cur.get (pgFth k) FTH_WOB_ADIP = s.cur.get (pgFth k) FTH_WOB_ADIP
      ∧ (t.cur.fth = (s.cur.updFth k fun c => { c with wobHits := 0, wobMiss := c.wobMiss + 1 }).fth) ∧ t.vis = s.vis
      ∧ { t.cur with regs := s.cur.regs, fth := s.cur.fth } = s.cur
      ∧ (∀ a, a ≠ pgFth k + FTH_WOB.off → a ≠ pgFth k + FTH_WOB_STAT.off → t.cur.rd a = s.cur.rd a)) ∧
  (∀ (k : Fin 5) (khz since : BitVec 16) (hit : Bool) (s : State), (s.cur.fthc k).wobHits + 1 < 8 →
      (s.cur.fthc k).wobMiss + 1 < 8 → ∃ t, exec (.wobbleLock k hit none khz since) s = .next t
      ∧ t.cur.flag (pgFth k) FTH_WOB_LOCKED = s.cur.flag (pgFth k) FTH_WOB_LOCKED ∧ t.vis = s.vis
      ∧ { t.cur with regs := s.cur.regs, fth := s.cur.fth } = s.cur
      ∧ (∀ a, a ≠ pgFth k + FTH_WOB.off → a ≠ pgFth k + FTH_WOB_STAT.off → t.cur.rd a = s.cur.rd a))

/-- GO starts a job whose conditions hold and is otherwise refused with JOB_STATE. ABORT, a sync time-out and a start
time-out end it with their END. A cluster that passes the first pass is delivered and its record waits OK; one that
fails waits for the slot, which the lowest takes when free, and carries RETAIN_BUSY otherwise. Iteration ends OK_ITER,
FAILED, BUFFER or BUDGET, and the slot is free. Records are posted in order with their phase. A failed channel is
served by FTH4 when it is free, with FTH_REMAP. (That RING_FULL counts the records that wait is the model's choice,
notes/assumptions/151.md.) Commands that it says to complete, each on the conditions of its clauses: fthJobGo,
fthJobAbort, fthSyncTimeout, fthStartTimeout, clusterFirstPass, iterRetain, outerIteration, iterBudgetExpiry,
clusterRecordPost, fthResConsWrite, fthResCfgWrite, fthMapWrite, readChannelFail. -/
def Obligations.ReadJobs : Prop :=
  (∀ (k : Fin 5) (r : Requester) (v : Word) (s : State), bits v.toNat 0 2 ≠ 3 → (s.cur.fthc k).job = none →
      s.cur.starts (pgFth k) = true → s.cur.flag (pgFth k) FTH_CTL_RUN = true → s.cur.get (pgFth k) FTH_MAP_PORT ≤ 3 →
      s.cur.get64 (pgFth k) FTH_JOB_DST_LO FTH_JOB_DST_HI % 64 = 0 →
      s.cur.get (pgFth k) FTH_CTL_FORMAT = 2 ∨ s.cur.get (pgFth k) FTH_JOB_ADDR % 32 = 0 →
      ∃ t, exec (.fthJobGo k r v) s = .next t ∧ t.cur.flag (pgFth k) FTH_JOB_STAT_ACTIVE = true
      ∧ t.cur.get (pgFth k) FTH_JOB_STAT_END = 0 ∧ t.cur.get (pgFth k) FTH_JOB_STAT_DONE_CNT = 0
      ∧ (t.cur.fth = (s.cur.updFth k fun c => { c with lostAt := s.cur.gtime, job := some { kind := bits v.toNat 0 2, seq := bits v.toNat 16 8, addr := s.cur.get (pgFth k) FTH_JOB_ADDR, dst := s.cur.get64 (pgFth k) FTH_JOB_DST_LO FTH_JOB_DST_HI, count := max 1 (s.cur.get (pgFth k) FTH_JOB_CNT_CLUSTERS), goAt := s.cur.gtime } }).fth)
      ∧ t.vis = s.vis ∧ { t.cur with regs := s.cur.regs, fth := s.cur.fth } = s.cur
      ∧ (∀ a, a ≠ pgFth k + FTH_JOB_CTL.off → a ≠ pgFth k + FTH_JOB_STAT.off → t.cur.rd a = s.cur.rd a)) ∧
  (∀ (k : Fin 5) (r : Requester) (v : Word) (s : State), bits v.toNat 0 2 ≠ 3 →
      (s.cur.fthc k).job ≠ none ∨ s.cur.starts (pgFth k) = false ∨ s.cur.flag (pgFth k) FTH_CTL_RUN = false ∨ 3 < s.cur.get (pgFth k) FTH_MAP_PORT →
      ∃ t, exec (.fthJobGo k r v) s = .next t ∧ t.cur.fth = s.cur.fth
      ∧ t.cur.flag (pgFth k) FTH_JOB_STAT_ACTIVE = s.cur.flag (pgFth k) FTH_JOB_STAT_ACTIVE
      ∧ (s.cur.flag (pgFth k) PG_ERR_INFO_VALID = false → t.cur.get (pgFth k) PG_ERR_INFO_CODE = ErrCode.jobState.value)
      ∧ t.vis = s.vis ∧ { t.cur with regs := s.cur.regs, fth := s.cur.fth } = s.cur) ∧
  (∀ (k : Fin 5) (j : FJob) (s : State), (s.cur.fthc k).job = some j → ∃ t, exec (.fthJobAbort k false) s = .next t
      ∧ t.cur.get (pgFth k) FTH_JOB_STAT_END = 2 ∧ t.cur.flag (pgFth k) FTH_JOB_STAT_ACTIVE = false
      ∧ t.cur.flag (pgFth k) FTH_IRQ_JOB_END = true ∧ (t.cur.fthc k).job = none ∧ t.cur.mem = s.cur.mem
      ∧ (∀ r ∈ (t.cur.fthc k).recs, r.status ≠ none) ∧ t.vis = s.vis
      ∧ { t.cur with regs := s.cur.regs, irqSet := s.cur.irqSet, host := s.cur.host, fresh := s.cur.fresh, fth := s.cur.fth } = s.cur) ∧
  (∀ (k : Fin 5) (j : FJob) (s : State), (s.cur.fthc k).job = some j → ∃ t, exec (.fthJobAbort k true) s = .next t
      ∧ t.cur.get (pgFth k) FTH_JOB_STAT_END = 2 ∧ t.cur.flag (pgFth k) FTH_JOB_STAT_ACTIVE = false
      ∧ t.cur.flag (pgFth k) FTH_IRQ_JOB_END = true ∧ (t.cur.fthc k).job = none ∧ t.cur.mem = s.cur.mem
      ∧ (∀ r ∈ (t.cur.fthc k).recs, r.status ≠ none) ∧ t.cur.flag (pgFth k) FTH_CTL_RUN = false ∧ t.vis = s.vis
      ∧ { t.cur with regs := s.cur.regs, irqSet := s.cur.irqSet, host := s.cur.host, fresh := s.cur.fresh, fth := s.cur.fth } = s.cur) ∧
  (∀ (k : Fin 5) (j : FJob) (s : State), (s.cur.fthc k).job = some j → (s.cur.fthc k).locked = false →
      (s.cur.fthc k).lostAt + s.cur.get (pgFth k) FTH_SYNC_SYNC_TO_G ≤ s.cur.gtime → ∃ t, exec (.fthSyncTimeout k) s = .next t
      ∧ t.cur.get (pgFth k) FTH_JOB_STAT_END = 4 ∧ t.cur.flag (pgFth k) FTH_JOB_STAT_ACTIVE = false
      ∧ t.cur.flag (pgFth k) FTH_IRQ_JOB_END = true ∧ (t.cur.fthc k).job = none ∧ t.cur.mem = s.cur.mem
      ∧ (∀ r ∈ (t.cur.fthc k).recs, r.status ≠ none) ∧ t.vis = s.vis
      ∧ { t.cur with regs := s.cur.regs, irqSet := s.cur.irqSet, fth := s.cur.fth } = s.cur) ∧
  (∀ (k : Fin 5) (s : State),
      (s.cur.fthc k).locked = true ∨ s.cur.gtime < (s.cur.fthc k).lostAt + s.cur.get (pgFth k) FTH_SYNC_SYNC_TO_G →
      ∃ t, exec (.fthSyncTimeout k) s = .next t ∧ t.cur = s.cur ∧ t.vis = s.vis
      ∧ { t.cur with regs := s.cur.regs, irqSet := s.cur.irqSet, fth := s.cur.fth } = s.cur) ∧
  (∀ (k : Fin 5) (j : FJob) (s : State), (s.cur.fthc k).job = some j → j.next = none → j.kind ≠ 2 →
      j.goAt + max 1 (s.cur.get (pgFth k) FTH_JOB_CNT_ADDR_TO_G) ≤ s.cur.gtime → ∃ t, exec (.fthStartTimeout k) s = .next t
      ∧ t.cur.get (pgFth k) FTH_JOB_STAT_END = 5 ∧ t.cur.flag (pgFth k) FTH_JOB_STAT_ACTIVE = false
      ∧ t.cur.flag (pgFth k) FTH_IRQ_JOB_END = true ∧ (t.cur.fthc k).job = none ∧ t.cur.mem = s.cur.mem
      ∧ (∀ r ∈ (t.cur.fthc k).recs, r.status ≠ none) ∧ t.vis = s.vis
      ∧ { t.cur with regs := s.cur.regs, irqSet := s.cur.irqSet, fth := s.cur.fth } = s.cur) ∧
  (∀ (k : Fin 5) (j : FJob) (s : State), (s.cur.fthc k).job = some j → j.next ≠ none ∨ j.kind = 2 ∨ s.cur.gtime < j.goAt + 1 →
      ∃ t, exec (.fthStartTimeout k) s = .next t ∧ t.cur = s.cur ∧ t.vis = s.vis
      ∧ { t.cur with regs := s.cur.regs, irqSet := s.cur.irqSet, fth := s.cur.fth } = s.cur) ∧
  (∀ (k : Fin 5) (j : FJob) (o : ClusterObs) (s : State), (s.cur.fthc k).job = some j → j.kind ≠ 2 → j.index < j.count →
      (s.cur.fthc k).recs.length < s.cur.fthFree k → s.cur.get (pgFth k) FTH_CTL_FORMAT ≠ 2 → o.addr = j.next.getD j.addr →
      o.uncorr = 0 → ∃ t, exec (.clusterFirstPass k o) s = .next t
      ∧ t.cur.taps k = (s.cur.adapt k o (s.cur.decodeFirst k o).1 (s.cur.decodeFirst k o).2.1 ((s.cur.fthc k).marksOf o.first (frameCount false))).taps k
      ∧ (((t.cur.fthc k).recs).map (fun r => { r with held := none }) = ((s.cur.fthc k).recs ++ [s.cur.firstPass k (s.cur.fthc k) j o o.addr (s.cur.decodeFirst k o).2.2.2 none]).map (fun r => { r with held := none }))
      ∧ (((t.cur.fthc k).job.map fun j => (j.index, j.next)) = some (j.index + 1, some (o.addr + 32)))
      ∧ (j.kind = 0 → (s.cur.firstPass k (s.cur.fthc k) j o o.addr (s.cur.decodeFirst k o).2.2.2 none).status = some 0 → t.cur.mem = memWrite s.cur.mem (j.dst + 65536 * j.index) (s.cur.decodeFirst k o).2.2.2.data)
      ∧ (j.kind = 1 → (s.cur.firstPass k (s.cur.fthc k) j o o.addr (s.cur.decodeFirst k o).2.2.2 none).status = some 0 → t.cur.mem = s.cur.mem ∧ (t.cur.fthc k).compare = (s.cur.fthc k).compare ++ [s.cur.firstPass k (s.cur.fthc k) j o o.addr (s.cur.decodeFirst k o).2.2.2 none])
      ∧ ((s.cur.firstPass k (s.cur.fthc k) j o o.addr (s.cur.decodeFirst k o).2.2.2 none).status = none → t.cur.mem = s.cur.mem ∧ ((t.cur.fthc k).recs.getLast?.map (fun r => (r.waits, r.held.isSome))) = some (true, s.vis.fth.slot.isNone))
      ∧ t.vis = s.vis ∧ { t.cur with regs := s.cur.regs, mem := s.cur.mem, fth := s.cur.fth } = s.cur) ∧
  (∀ (k : Fin 5) (j : FJob) (o : ClusterObs) (s : State), (s.cur.fthc k).job = some j → j.kind ≠ 2 → j.index < j.count →
      (s.cur.fthc k).recs.length < s.cur.fthFree k → s.cur.get (pgFth k) FTH_CTL_FORMAT ≠ 2 → o.addr = j.next.getD j.addr →
      o.uncorr = 0 → j.kind = 0 → (s.cur.fthc k).remap = true → ∃ t, exec (.clusterFirstPass k o) s = .next t
      ∧ ((t.cur.fthc k).recs.getLast?.map (·.status)) = some (some 7) ∧ t.cur.mem = s.cur.mem ∧ t.vis = s.vis
      ∧ { t.cur with regs := s.cur.regs, fth := s.cur.fth } = s.cur) ∧
  (∀ (k : Fin 5) (j : FJob) (o : ClusterObs) (s : State), (s.cur.fthc k).job = some j → j.kind ≠ 2 → j.index < j.count →
      (s.cur.fthc k).recs.length < s.cur.fthFree k → s.cur.get (pgFth k) FTH_CTL_FORMAT ≠ 2 → o.addr = j.next.getD j.addr →
      o.uncorr = 0 → j.kind = 0 → (s.cur.fthc k).remap = false → (s.cur.fthc k).lostIn o.first (frameCount false) = true →
      ∃ t, exec (.clusterFirstPass k o) s = .next t ∧ ((t.cur.fthc k).recs.getLast?.map (·.status)) = some (some 4)
      ∧ t.cur.mem = s.cur.mem ∧ t.vis = s.vis ∧ { t.cur with regs := s.cur.regs, fth := s.cur.fth } = s.cur) ∧
  (∀ (k : Fin 5) (j : FJob) (o : ClusterObs) (s : State), (s.cur.fthc k).job = some j → j.kind ≠ 2 → j.index < j.count →
      (s.cur.fthc k).recs.length < s.cur.fthFree k → s.cur.get (pgFth k) FTH_CTL_FORMAT ≠ 2 → o.addr = j.next.getD j.addr →
      0 < o.uncorr → j.kind = 0 → (s.cur.fthc k).remap = false → (s.cur.fthc k).lostIn o.first (frameCount false) = false →
      ∃ t, exec (.clusterFirstPass k o) s = .next t ∧ ((t.cur.fthc k).recs.getLast?.map (·.status)) = some (some 0x0A)
      ∧ t.cur.mem = s.cur.mem ∧ t.cur.flag pgFthx FTH_IRQ_BUF_UNCORR = s.cur.flag pgFthx FTH_IRQ_BUF_UNCORR
      ∧ t.cur.flag (pgFth k) FTH_IRQ_BUF_UNCORR = true
      ∧ t.cur.fj.staged = s.cur.fj.staged ++ [{ gtime := s.cur.gtime48, pgId := pgIdOf (pgFth k), code := 0x0703, deg := false, flt := false, data := [o.addr, o.uncorr].map (· % 2 ^ 32) }]
      ∧ t.vis = s.vis ∧ { t.cur with regs := s.cur.regs, irqSet := s.cur.irqSet, fj := s.cur.fj, fth := s.cur.fth } = s.cur) ∧
  (∀ (k : Fin 5) (j : FJob) (o : ClusterObs) (s : State), (s.cur.fthc k).job = some j → j.kind ≠ 2 → j.index < j.count →
      (s.cur.fthc k).recs.length < s.cur.fthFree k → s.cur.get (pgFth k) FTH_CTL_FORMAT = 2 → o.uncorr = 0 →
      ∃ t, exec (.clusterFirstPass k o) s = .next t
      ∧ (((s.cur.decodeFirst k o).2.2.2.addr).getD (j.next.getD (j.addr - 1)) = j.next.getD j.addr → ((t.cur.fthc k).recs).map (fun r => { r with held := none }) = ((s.cur.fthc k).recs ++ [s.cur.firstPass k (s.cur.fthc k) j o (((s.cur.decodeFirst k o).2.2.2.addr).getD (j.next.getD (j.addr - 1))) (s.cur.decodeFirst k o).2.2.2 none]).map (fun r => { r with held := none }))
      ∧ (((s.cur.decodeFirst k o).2.2.2.addr).getD (j.next.getD (j.addr - 1)) = j.next.getD j.addr → ((t.cur.fthc k).job.map fun j => (j.index, j.next)) = some (j.index + 1, some (j.next.getD j.addr + 1)))
      ∧ (j.next ≠ none → ((s.cur.decodeFirst k o).2.2.2.addr).getD (j.next.getD (j.addr - 1)) ≠ j.next.getD j.addr → t.cur.get (pgFth k) FTH_JOB_STAT_END = 3 ∧ (t.cur.fthc k).job = none)
      ∧ t.vis = s.vis
      ∧ { t.cur with regs := s.cur.regs, irqSet := s.cur.irqSet, mem := s.cur.mem, fj := s.cur.fj, fth := s.cur.fth } = s.cur) ∧
  (∀ (k : Fin 5) (j : FJob) (o : ClusterObs) (s : State), (s.cur.fthc k).job = some j → j.kind ≠ 2 → j.index < j.count →
      s.cur.get (pgFth k) FTH_CTL_FORMAT ≠ 2 → (j.next = none ∧ j.addr < o.addr) ∨ (j.next ≠ none ∧ j.next ≠ some o.addr) →
      ∃ t, exec (.clusterFirstPass k o) s = .next t ∧ t.cur.get (pgFth k) FTH_JOB_STAT_END = 3
      ∧ t.cur.flag (pgFth k) FTH_IRQ_JOB_END = true ∧ (t.cur.fthc k).job = none ∧ t.cur.mem = s.cur.mem ∧ t.vis = s.vis
      ∧ { t.cur with regs := s.cur.regs, irqSet := s.cur.irqSet, fth := s.cur.fth } = s.cur) ∧
  (∀ (k : Fin 5) (j : FJob) (o : ClusterObs) (s : State), (s.cur.fthc k).job = some j → j.kind ≠ 2 → j.index < j.count →
      s.cur.get (pgFth k) FTH_CTL_FORMAT ≠ 2 → j.next = none → o.addr < j.addr → ∃ t, exec (.clusterFirstPass k o) s = .next t
      ∧ (t.cur.fthc k).job = some j ∧ (t.cur.fthc k).recs = (s.cur.fthc k).recs
      ∧ (s.cur.flag (pgFth k) FTH_CTL_EQ_ADAPT = false → t.cur.regs = s.cur.regs) ∧ t.vis = s.vis
      ∧ { t.cur with regs := s.cur.regs, fth := s.cur.fth } = s.cur) ∧
  (∀ (k : Fin 5) (j : FJob) (o : ClusterObs) (s : State), (s.cur.fthc k).job = some j → j.kind ≠ 2 → j.index < j.count →
      s.cur.fthFree k ≤ (s.cur.fthc k).recs.length → s.cur.get (pgFth k) FTH_CTL_FORMAT ≠ 2 → o.addr = j.next.getD j.addr →
      ∃ t, exec (.clusterFirstPass k o) s = .next t ∧ t.cur.get (pgFth k) FTH_JOB_STAT_END = 6
      ∧ t.cur.flag (pgFth k) FTH_IRQ_JOB_END = true ∧ (t.cur.fthc k).job = none ∧ t.cur.mem = s.cur.mem ∧ t.vis = s.vis
      ∧ { t.cur with regs := s.cur.regs, irqSet := s.cur.irqSet, fth := s.cur.fth } = s.cur) ∧
  (∀ (k : Fin 5) (j : FJob) (o : ClusterObs) (s : State), (s.cur.fthc k).job = some j → j.kind = 2 → j.index + 1 < j.count →
      ∃ t, exec (.clusterFirstPass k o) s = .next t
      ∧ (t.cur.mem = memWrite s.cur.mem (j.dst + 65536 * j.index) (padTo 65536 ((s.cur.equalised k o.values).map fun v => BitVec.ofInt 8 v)))
      ∧ (t.cur.fthc k).job = some { j with index := j.index + 1, next := some 0 } ∧ (t.cur.fthc k).recs = (s.cur.fthc k).recs
      ∧ t.cur.regs = s.cur.regs ∧ t.vis = s.vis ∧ { t.cur with regs := s.cur.regs, mem := s.cur.mem, fth := s.cur.fth } = s.cur) ∧
  (∀ (k : Fin 5) (o : ClusterObs) (s : State), (s.cur.fthc k).job = none → ∃ t, exec (.clusterFirstPass k o) s = .next t
      ∧ (t.cur = s.cur.updFth k fun c => c.dropMarks (o.first + frameCount (s.cur.get (pgFth k) FTH_CTL_FORMAT == 2)))
      ∧ t.vis = s.vis) ∧
  (∀ (k : Fin 5) (x : FRec) (h : Held) (s : State), (s.cur.fthc k).recs = [x] → x.waits = true → x.held = some h →
      s.cur.fth.slot = none → s.vis.fth.slot = none → s.cur.flag (pgFth k) FTH_CTL_ITER_EN = true →
      s.cur.retiredItem 2 4 = false → ∃ t, exec (.iterRetain k) s = .next t
      ∧ t.cur.fth.slot = some { chan := k, addr := x.addr, failing := x.firstFail, since := s.cur.gtime, held := h }
      ∧ (t.cur.fthc k).recs = [{ x with waits := false, held := none }] ∧ (t.cur.fthc k).retAcc = (s.cur.fthc k).retAcc + 1
      ∧ t.cur.flag pgFthx FTHX_ITER_STAT_BUSY = true ∧ t.cur.get pgFthx FTHX_ITER_STAT_CHAN = k.val ∧ t.vis = s.vis
      ∧ { t.cur with regs := s.cur.regs, fth := s.cur.fth } = s.cur
      ∧ (∀ a, a ≠ pgFthx + FTHX_ITER_STAT.off → t.cur.rd a = s.cur.rd a)) ∧
  (∀ (k : Fin 5) (x : FRec) (s : State), (s.cur.fthc k).recs = [x] → x.waits = true →
      x.held = none ∨ s.cur.fth.slot ≠ none ∨ s.vis.fth.slot ≠ none ∨ s.cur.flag (pgFth k) FTH_CTL_ITER_EN = false →
      ∃ t, exec (.iterRetain k) s = .next t ∧ (t.cur.fthc k).recs = [{ x with waits := false, status := some 3, held := none }]
      ∧ t.cur.fth.slot = s.cur.fth.slot ∧ t.cur.regs = s.cur.regs ∧ t.vis = s.vis
      ∧ { t.cur with regs := s.cur.regs, fth := s.cur.fth } = s.cur) ∧
  (∀ (de : Bool) (sl : RetSlot) (x : FRec) (s : State), s.cur.fth.slot = some sl → sl.chan < 5 →
      (s.cur.fthc sl.chan).recs = [x] → x.status = none → x.waits = false → x.addr = sl.addr → x.kind = 0 →
      ∃ t, exec (.outerIteration false de) s = .next t
      ∧ ((s.cur.iterate sl).passes = true → t.cur.fth.slot = none ∧ (t.cur.fthc sl.chan).recs.map (fun r => (r.status, r.iter)) = [(some (if de then 8 else 1), sl.iter + 1)])
      ∧ ((s.cur.iterate sl).passes = true → de = false → t.cur.mem = memWrite s.cur.mem (((s.cur.fthc sl.chan).job.map (·.dst)).getD 0 + 65536 * x.index) (s.cur.iterate sl).data)
      ∧ ((s.cur.iterate sl).passes = false → t.cur.mem = s.cur.mem)
      ∧ ((s.cur.iterate sl).passes = false → (max 1 (min 8 (s.cur.get (pgFth sl.chan) FTH_ITER_ITER_MAX)) ≤ sl.iter + 1 ∨ (sl.failing ≤ (s.cur.iterate sl).failing.length ∧ max 1 (min 4 (s.cur.get (pgFth sl.chan) FTH_ITER_STALL_ITER)) ≤ sl.stall + 1)) → t.cur.fth.slot = none ∧ (t.cur.fthc sl.chan).recs.map (fun r => (r.status, r.iter)) = [(some 2, sl.iter + 1)])
      ∧ ((s.cur.iterate sl).passes = false → ¬(max 1 (min 8 (s.cur.get (pgFth sl.chan) FTH_ITER_ITER_MAX)) ≤ sl.iter + 1 ∨ (sl.failing ≤ (s.cur.iterate sl).failing.length ∧ max 1 (min 4 (s.cur.get (pgFth sl.chan) FTH_ITER_STALL_ITER)) ≤ sl.stall + 1)) → (t.cur.fthc sl.chan).recs = [x] ∧ (t.cur.fth.slot.map fun y => (y.iter, y.failing, y.held.words)) = some (sl.iter + 1, (s.cur.iterate sl).failing.length, (s.cur.iterate sl).words))
      ∧ t.vis = s.vis ∧ { t.cur with regs := s.cur.regs, irqSet := s.cur.irqSet, mem := s.cur.mem, fth := s.cur.fth } = s.cur) ∧
  (∀ (de : Bool) (sl : RetSlot) (x : FRec) (s : State), s.cur.fth.slot = some sl → sl.chan < 5 →
      (s.cur.fthc sl.chan).recs = [x] → x.status = none → x.waits = false → x.addr = sl.addr → x.kind = 0 →
      ∃ t, exec (.outerIteration true de) s = .next t ∧ t.cur.fth.slot = none
      ∧ ((t.cur.fthc sl.chan).recs.map (fun r => (r.status, r.iter)) = [(some 0x0A, sl.iter + 1)]) ∧ t.cur.mem = s.cur.mem
      ∧ t.cur.flag (pgFth sl.chan) FTH_IRQ_BUF_UNCORR = true ∧ t.cur.flag pgFthx FTHX_ITER_STAT_BUSY = false
      ∧ t.cur.fj.staged = s.cur.fj.staged ++ [{ gtime := s.cur.gtime48, pgId := pgIdOf pgFthx, code := 0x0703, deg := false, flt := false, data := [sl.addr, 1].map (· % 2 ^ 32) }]
      ∧ t.vis = s.vis ∧ { t.cur with regs := s.cur.regs, irqSet := s.cur.irqSet, fj := s.cur.fj, fth := s.cur.fth } = s.cur) ∧
  (∀ (u de : Bool) (s : State), s.cur.fth.slot = none → ∃ t, exec (.outerIteration u de) s = .next t ∧ t.cur = s.cur
      ∧ t.vis = s.vis
      ∧ { t.cur with regs := s.cur.regs, irqSet := s.cur.irqSet, mem := s.cur.mem, fj := s.cur.fj, fth := s.cur.fth } = s.cur) ∧
  (∀ (sl : RetSlot) (x : FRec) (s : State), s.cur.fth.slot = some sl → sl.chan < 5 → (s.cur.fthc sl.chan).recs = [x] →
      x.status = none → x.waits = false → x.addr = sl.addr → x.kind = 0 →
      sl.since + max 1 (s.cur.get pgFthx FTHX_BUDGET_ITER_BUDGET_G) ≤ s.cur.gtime → ∃ t, exec (.iterBudgetExpiry) s = .next t
      ∧ t.cur.fth.slot = none ∧ (t.cur.fthc sl.chan).recs.map (·.status) = [some 9]
      ∧ t.cur.flag pgFthx FTHX_ITER_STAT_BUSY = false ∧ t.vis = s.vis
      ∧ { t.cur with regs := s.cur.regs, irqSet := s.cur.irqSet, fth := s.cur.fth } = s.cur
      ∧ (∀ a, a ≠ pgFthx + FTHX_ITER_STAT.off → a ≠ pgFthx + PG_IRQ_RAW.off → t.cur.rd a = s.cur.rd a)) ∧
  (∀ (sl : RetSlot) (s : State), s.cur.fth.slot = some sl → s.cur.gtime < sl.since + 1 →
      ∃ t, exec (.iterBudgetExpiry) s = .next t ∧ t.cur = s.cur ∧ t.vis = s.vis
      ∧ { t.cur with regs := s.cur.regs, irqSet := s.cur.irqSet, mem := s.cur.mem, fth := s.cur.fth } = s.cur) ∧
  (∀ (k : Fin 5) (x : FRec) (z : Nat) (s : State), (s.cur.fthc k).recs = [x] → x.status = some z → s.cur.fthFree k ≠ 0 →
      (s.cur.fthc k).job = none → ∃ t, exec (.clusterRecordPost k) s = .next t ∧ (t.cur.fthc k).recs = []
      ∧ t.cur.get (pgFth k) FTH_RES_PROD_PROD = (s.cur.get (pgFth k) FTH_RES_PROD_PROD + 1) % 2 ^ 16
      ∧ t.cur.flag (pgFth k) FTH_IRQ_POSTED = true
      ∧ t.cur.mem = memWrite s.cur.mem (s.cur.get64 (pgFth k) FTH_RES_BASE_LO FTH_RES_BASE_HI / 32 * 32 + s.cur.get (pgFth k) FTH_RES_PROD_PROD % 2 ^ s.cur.fthLog2 k * 32) (x.bytes (1 - s.cur.get (pgFth k) FTH_RES_PROD_PROD / 2 ^ s.cur.fthLog2 k % 2) ((s.cur.gtime + 1) % 2 ^ 48))
      ∧ t.cur.get (pgFth k) FTH_JOB_STAT_DONE_CNT = min 0xFFFF (s.cur.get (pgFth k) FTH_JOB_STAT_DONE_CNT + 1) ∧ t.vis = s.vis
      ∧ { t.cur with regs := s.cur.regs, irqSet := s.cur.irqSet, mem := s.cur.mem, fth := s.cur.fth } = s.cur
      ∧ (∀ a, a ≠ pgFth k + FTH_RES_PROD.off → a ≠ pgFth k + FTH_JOB_STAT.off → a ≠ pgFth k + PG_IRQ_RAW.off → t.cur.rd a = s.cur.rd a)) ∧
  (∀ (k : Fin 5) (x : FRec) (z : Nat) (j : FJob) (s : State), (s.cur.fthc k).recs = [x] → x.status = some z →
      s.cur.fthFree k ≠ 0 → (s.cur.fthc k).job = some j → j.posted + 1 < j.count → ∃ t, exec (.clusterRecordPost k) s = .next t
      ∧ (t.cur.fthc k).recs = [] ∧ t.cur.get (pgFth k) FTH_RES_PROD_PROD = (s.cur.get (pgFth k) FTH_RES_PROD_PROD + 1) % 2 ^ 16
      ∧ t.cur.flag (pgFth k) FTH_IRQ_POSTED = true
      ∧ t.cur.mem = memWrite s.cur.mem (s.cur.get64 (pgFth k) FTH_RES_BASE_LO FTH_RES_BASE_HI / 32 * 32 + s.cur.get (pgFth k) FTH_RES_PROD_PROD % 2 ^ s.cur.fthLog2 k * 32) (x.bytes (1 - s.cur.get (pgFth k) FTH_RES_PROD_PROD / 2 ^ s.cur.fthLog2 k % 2) ((s.cur.gtime + 1) % 2 ^ 48))
      ∧ t.cur.get (pgFth k) FTH_JOB_STAT_DONE_CNT = min 0xFFFF (s.cur.get (pgFth k) FTH_JOB_STAT_DONE_CNT + 1)
      ∧ (t.cur.fthc k).job = some { j with posted := j.posted + 1 } ∧ t.vis = s.vis
      ∧ { t.cur with regs := s.cur.regs, irqSet := s.cur.irqSet, mem := s.cur.mem, fth := s.cur.fth } = s.cur
      ∧ (∀ a, a ≠ pgFth k + FTH_RES_PROD.off → a ≠ pgFth k + FTH_JOB_STAT.off → a ≠ pgFth k + PG_IRQ_RAW.off → t.cur.rd a = s.cur.rd a)) ∧
  (∀ (k : Fin 5) (x : FRec) (z : Nat) (j : FJob) (s : State), (s.cur.fthc k).recs = [x] → x.status = some z →
      s.cur.fthFree k ≠ 0 → (s.cur.fthc k).job = some j → j.count ≤ j.posted + 1 → ∃ t, exec (.clusterRecordPost k) s = .next t
      ∧ (t.cur.fthc k).recs = [] ∧ t.cur.get (pgFth k) FTH_RES_PROD_PROD = (s.cur.get (pgFth k) FTH_RES_PROD_PROD + 1) % 2 ^ 16
      ∧ t.cur.flag (pgFth k) FTH_IRQ_POSTED = true
      ∧ t.cur.mem = memWrite s.cur.mem (s.cur.get64 (pgFth k) FTH_RES_BASE_LO FTH_RES_BASE_HI / 32 * 32 + s.cur.get (pgFth k) FTH_RES_PROD_PROD % 2 ^ s.cur.fthLog2 k * 32) (x.bytes (1 - s.cur.get (pgFth k) FTH_RES_PROD_PROD / 2 ^ s.cur.fthLog2 k % 2) ((s.cur.gtime + 1) % 2 ^ 48))
      ∧ t.cur.get (pgFth k) FTH_JOB_STAT_DONE_CNT = min 0xFFFF (s.cur.get (pgFth k) FTH_JOB_STAT_DONE_CNT + 1)
      ∧ (t.cur.fthc k).job = none ∧ t.cur.get (pgFth k) FTH_JOB_STAT_END = 1 ∧ t.cur.flag (pgFth k) FTH_JOB_STAT_ACTIVE = false
      ∧ t.cur.flag (pgFth k) FTH_IRQ_JOB_END = true ∧ t.vis = s.vis
      ∧ { t.cur with regs := s.cur.regs, irqSet := s.cur.irqSet, mem := s.cur.mem, fth := s.cur.fth } = s.cur
      ∧ (∀ a, a ≠ pgFth k + FTH_RES_PROD.off → a ≠ pgFth k + FTH_JOB_STAT.off → a ≠ pgFth k + PG_IRQ_RAW.off → t.cur.rd a = s.cur.rd a)) ∧
  (∀ (k : Fin 5) (x : FRec) (s : State), (s.cur.fthc k).recs.head? = some x → x.status = none ∨ s.cur.fthFree k = 0 →
      ∃ t, exec (.clusterRecordPost k) s = .next t ∧ t.cur = s.cur ∧ t.vis = s.vis
      ∧ { t.cur with regs := s.cur.regs, irqSet := s.cur.irqSet, mem := s.cur.mem, fth := s.cur.fth } = s.cur) ∧
  (∀ (k : Fin 5) (r : Requester) (v : BitVec 16) (s : State),
      (v.toNat + 2 ^ 16 - s.cur.get (pgFth k) FTH_RES_CONS) % 2 ^ 16 ≤ (s.cur.get (pgFth k) FTH_RES_PROD_PROD + 2 ^ 16 - s.cur.get (pgFth k) FTH_RES_CONS) % 2 ^ 16 →
      ∃ t, exec (.fthResConsWrite k r v) s = .next t ∧ t.cur.get (pgFth k) FTH_RES_CONS = v.toNat ∧ t.vis = s.vis
      ∧ { t.cur with regs := s.cur.regs } = s.cur ∧ (∀ a, a ≠ pgFth k + FTH_RES_CONS.off → t.cur.rd a = s.cur.rd a)) ∧
  (∀ (k : Fin 5) (r : Requester) (v : BitVec 16) (s : State),
      (s.cur.get (pgFth k) FTH_RES_PROD_PROD + 2 ^ 16 - s.cur.get (pgFth k) FTH_RES_CONS) % 2 ^ 16 < (v.toNat + 2 ^ 16 - s.cur.get (pgFth k) FTH_RES_CONS) % 2 ^ 16 →
      ∃ t, exec (.fthResConsWrite k r v) s = .next t
      ∧ t.cur = s.cur.err (pgFth k) .consRange FTH_RES_CONS.off r.code (pgFth k + FTH_RES_CONS.off) ∧ t.vis = s.vis
      ∧ { t.cur with regs := s.cur.regs } = s.cur) ∧
  (∀ (k : Fin 5) (v : Word) (s : State), (s.cur.fthc k).job = none → ∃ t, exec (.fthResCfgWrite k v) s = .next t
      ∧ t.cur.get (pgFth k) FTH_RES_CFG_SIZE_LOG2 = max 4 (min 10 (bits v.toNat 0 4))
      ∧ t.cur.get (pgFth k) FTH_RES_PROD_PROD = 0 ∧ t.cur.get (pgFth k) FTH_RES_CONS = 0
      ∧ t.cur.get (pgFth k) FTH_RES_PROD_PHASE = 1 ∧ t.vis = s.vis ∧ { t.cur with regs := s.cur.regs } = s.cur
      ∧ (∀ a, a ≠ pgFth k + FTH_RES_CFG.off → a ≠ pgFth k + FTH_RES_PROD.off → a ≠ pgFth k + FTH_RES_CONS.off → t.cur.rd a = s.cur.rd a)) ∧
  (∀ (k : Fin 5) (v : Word) (s : State), (s.cur.fthc k).job ≠ none → ∃ t, exec (.fthResCfgWrite k v) s = .next t ∧ t.cur = s.cur
      ∧ t.vis = s.vis ∧ { t.cur with regs := s.cur.regs } = s.cur) ∧
  (∀ (k : Fin 5) (r : Requester) (v : Word) (s : State), s.cur.flag (pgFth k) FTH_CTL_RUN = false →
      s.cur.flag (pgFth k) FTH_MAP_ACTIVE = false →
      (bits v.toNat 0 3 = 7 ∨ (bits v.toNat 0 3 ≤ 3 ∧ [0, 1, 2, 3, 4].all (fun i => i == k.val || s.cur.get (pgFth i) FTH_MAP_PORT != bits v.toNat 0 3) = true)) →
      ∃ t, exec (.fthMapWrite k r v) s = .next t ∧ t.cur.get (pgFth k) FTH_MAP_PORT = bits v.toNat 0 3 ∧ t.vis = s.vis
      ∧ { t.cur with regs := s.cur.regs } = s.cur ∧ (∀ a, a ≠ pgFth k + FTH_MAP.off → t.cur.rd a = s.cur.rd a)) ∧
  (∀ (k : Fin 5) (r : Requester) (v : Word) (s : State),
      (s.cur.flag (pgFth k) FTH_CTL_RUN = true ∨ (bits v.toNat 0 3 ≤ 3 ∧ [0, 1, 2, 3, 4].all (fun i => i == k.val || s.cur.get (pgFth i) FTH_MAP_PORT != bits v.toNat 0 3) = false)) →
      ∃ t, exec (.fthMapWrite k r v) s = .next t
      ∧ t.cur = s.cur.err (pgFth k) .mapBusy FTH_MAP.off r.code (pgFth k + FTH_MAP.off) ∧ t.vis = s.vis
      ∧ { t.cur with regs := s.cur.regs } = s.cur) ∧
  (∀ (k : Fin 4) (s : State), s.cur.flag (pgFth 4) FTH_MAP_ACTIVE = false → 3 < s.cur.get (pgFth 4) FTH_MAP_PORT →
      ∃ t, exec (.readChannelFail k.castSucc) s = .next t ∧ t.cur.flag (pgFth 4) FTH_MAP_ACTIVE = true
      ∧ t.cur.get (pgFth 4) FTH_MAP_PORT = s.cur.get (pgFth k) FTH_MAP_PORT ∧ t.cur.flag (pgFth k) FTH_MAP_REMAPPED = true
      ∧ t.cur.flag (pgFth k) FTH_IRQ_REMAP = true ∧ t.cur.flag (pgFth k) FTH_WOB_LOCKED = false
      ∧ t.cur.flag (pgFth k) FTH_TR_LOCKED = false ∧ (t.cur.fthc k).remap = true ∧ (t.cur.fthc k).job = (s.cur.fthc k).job
      ∧ t.cur.fth.slot = s.cur.fth.slot
      ∧ t.cur.fj.staged = s.cur.fj.staged ++ [{ gtime := s.cur.gtime48, pgId := pgIdOf (pgFth k), code := 0x0702, deg := false, flt := false, data := [k.val] }]
      ∧ t.vis = s.vis
      ∧ { t.cur with regs := s.cur.regs, irqSet := s.cur.irqSet, host := s.cur.host, fresh := s.cur.fresh, fj := s.cur.fj, fth := s.cur.fth } = s.cur) ∧
  (∀ (k : Fin 4) (s : State), s.cur.flag (pgFth 4) FTH_MAP_ACTIVE = true → ∃ t, exec (.readChannelFail k.castSucc) s = .next t
      ∧ t.cur.flag (pgFth k) PG_STAT_DEGRADED = true ∧ t.cur.flag (pgFth k) FTH_CTL_RUN = false ∧ (t.cur.fthc k).job = none
      ∧ t.cur.get (pgFth 4) FTH_MAP_PORT = s.cur.get (pgFth 4) FTH_MAP_PORT ∧ t.vis = s.vis
      ∧ { t.cur with regs := s.cur.regs, irqSet := s.cur.irqSet, host := s.cur.host, fresh := s.cur.fresh, fj := s.cur.fj, ldg := s.cur.ldg, fth := s.cur.fth } = s.cur)

/-- ENC_GO starts a request of aligned addresses, answers ALIGN for others and is ignored while one runs; each cluster
writes its image to its slot and the last ends the request, as an error does. A burn job starts when its conditions
hold and is otherwise ignored with JOB_STATE. A recording starts where the resume point passes at the next cluster's
place with no cause in force: it sends the five levels and the light comes on; each cluster burned posts its BURN
record and the last ends the job with COUNT. A changed level is sent once, at CS_N times outside the marks; a level
clamped for LIMIT_G Grains in a row gives POWER_LIMIT and one record. Commands that it says to complete, each on the
conditions of its clauses: encGo, encClusterDone, burnJobGo, recordingStart, clusterBurned, levelSpiSend,
powerClampLimit. -/
def Obligations.EncoderAndBurnJobs : Prop :=
  (∀ (v : Word) (s : State), s.cur.flag pgWenc ENC_STAT_BUSY = false → s.cur.starts pgWenc = true →
      s.cur.get64 pgWenc ENC_SRC_LO ENC_SRC_HI % 4096 = 0 → s.cur.get64 pgWenc ENC_UCD_LO ENC_UCD_HI % 4096 = 0 →
      s.cur.get64 pgWenc ENC_DST_LO ENC_DST_HI % 4096 = 0 → ∃ t, exec (.encGo v) s = .next t
      ∧ t.cur.flag pgWenc ENC_STAT_BUSY = true ∧ t.cur.get pgWenc ENC_STAT_DONE = 0 ∧ t.cur.get pgWenc ENC_STAT_ERR = 0
      ∧ t.cur.owp = { s.cur.owp with enc := some { addr := s.cur.get pgWenc ENC_ADDR, count := max 1 (bits v.toNat 0 16), src := s.cur.get64 pgWenc ENC_SRC_LO ENC_SRC_HI, ucd := s.cur.get64 pgWenc ENC_UCD_LO ENC_UCD_HI, dst := s.cur.get64 pgWenc ENC_DST_LO ENC_DST_HI, ref := s.cur.get64 pgWenc ENC_REF_LO ENC_REF_HI, layer := bits v.toNat 20 4, format := bits v.toNat 16 2 % 3 } }
      ∧ t.vis = s.vis ∧ { t.cur with regs := s.cur.regs, owp := s.cur.owp } = s.cur
      ∧ (∀ a, a ≠ pgWenc + ENC_CTL.off → a ≠ pgWenc + ENC_STAT.off → t.cur.rd a = s.cur.rd a)) ∧
  (∀ (v : Word) (s : State), s.cur.flag pgWenc ENC_STAT_BUSY = true ∨ s.cur.starts pgWenc = false →
      ∃ t, exec (.encGo v) s = .next t ∧ t.cur.owp = s.cur.owp ∧ t.cur.get pgWenc ENC_STAT = s.cur.get pgWenc ENC_STAT
      ∧ t.vis = s.vis ∧ { t.cur with regs := s.cur.regs, owp := s.cur.owp } = s.cur
      ∧ (∀ a, a ≠ pgWenc + ENC_CTL.off → t.cur.rd a = s.cur.rd a)) ∧
  (∀ (v : Word) (s : State), s.cur.flag pgWenc ENC_STAT_BUSY = false → s.cur.starts pgWenc = true →
      s.cur.get64 pgWenc ENC_SRC_LO ENC_SRC_HI % 4096 ≠ 0 ∨ s.cur.get64 pgWenc ENC_UCD_LO ENC_UCD_HI % 4096 ≠ 0 ∨ s.cur.get64 pgWenc ENC_DST_LO ENC_DST_HI % 4096 ≠ 0 →
      ∃ t, exec (.encGo v) s = .next t ∧ t.cur.get pgWenc ENC_STAT_ERR = 3 ∧ t.cur.flag pgWenc ENC_STAT_BUSY = false
      ∧ t.cur.owp = s.cur.owp ∧ t.vis = s.vis ∧ { t.cur with regs := s.cur.regs, owp := s.cur.owp } = s.cur
      ∧ (∀ a, a ≠ pgWenc + ENC_CTL.off → a ≠ pgWenc + ENC_STAT.off → t.cur.rd a = s.cur.rd a)) ∧
  (∀ (r : EncReq) (s : State), s.cur.owp.enc = some r → r.format ≠ 2 → r.index + 1 < r.count → r.count ≤ 65536 →
      ∃ t, exec (.encClusterDone 0) s = .next t
      ∧ t.cur.mem = memWrite s.cur.mem (r.dst + r.index * 81920) (bdImage (r.addr + 32 * r.index) (padTo 65536 (memRead s.cur.mem (r.src + r.index * 65536) 65536)) (padTo 576 (memRead s.cur.mem (r.ucd + r.index * 1024) 576)))
      ∧ t.cur.get pgWenc ENC_STAT_DONE = r.index + 1
      ∧ t.cur.owp = { s.cur.owp with enc := some { r with index := r.index + 1 } } ∧ t.vis = s.vis
      ∧ { t.cur with regs := s.cur.regs, mem := s.cur.mem, owp := s.cur.owp } = s.cur
      ∧ (∀ a, a ≠ pgWenc + ENC_STAT.off → t.cur.rd a = s.cur.rd a)) ∧
  (∀ (r : EncReq) (s : State), s.cur.owp.enc = some r → r.format = 2 → r.index + 1 < r.count → r.count ≤ 65536 →
      ∃ t, exec (.encClusterDone 0) s = .next t
      ∧ t.cur.mem = memWrite s.cur.mem (r.dst + r.index * 81920) (denseImage (denseStream crc32c (denseHeader (r.addr + r.index) r.layer r.ref s.cur.gtime48 (memRead s.cur.mem (r.ucd + r.index * 1024 + 32) 224)) (padTo 65536 (memRead s.cur.mem (r.src + r.index * 65536) 65536))))
      ∧ t.cur.get pgWenc ENC_STAT_DONE = r.index + 1
      ∧ t.cur.owp = { s.cur.owp with enc := some { r with index := r.index + 1 } } ∧ t.vis = s.vis
      ∧ { t.cur with regs := s.cur.regs, mem := s.cur.mem, owp := s.cur.owp } = s.cur
      ∧ (∀ a, a ≠ pgWenc + ENC_STAT.off → t.cur.rd a = s.cur.rd a)) ∧
  (∀ (r : EncReq) (s : State), s.cur.owp.enc = some r → r.index + 1 = r.count → r.count < 65536 →
      ∃ t, exec (.encClusterDone 0) s = .next t ∧ t.cur.mem = memWrite s.cur.mem (r.dst + r.index * 81920) (s.cur.encImage r)
      ∧ t.cur.get pgWenc ENC_STAT_DONE = r.count ∧ t.cur.get pgWenc ENC_STAT_ERR = 0 ∧ t.cur.owp.enc = none
      ∧ t.cur.flag pgWenc ENC_STAT_BUSY = false ∧ t.cur.flag pgWenc WENC_IRQ_ENC_DONE = true ∧ t.vis = s.vis
      ∧ { t.cur with regs := s.cur.regs, irqSet := s.cur.irqSet, mem := s.cur.mem, owp := s.cur.owp } = s.cur) ∧
  (∀ (e : Fin 3) (r : EncReq) (s : State), s.cur.owp.enc = some r → e ≠ 0 → ∃ t, exec (.encClusterDone e) s = .next t
      ∧ t.cur.get pgWenc ENC_STAT_ERR = e.val ∧ t.cur.owp.enc = none ∧ t.cur.flag pgWenc ENC_STAT_BUSY = false
      ∧ t.cur.flag pgWenc WENC_IRQ_ENC_DONE = true ∧ t.vis = s.vis
      ∧ { t.cur with regs := s.cur.regs, irqSet := s.cur.irqSet, owp := s.cur.owp } = s.cur) ∧
  (∀ (e : Fin 3) (s : State), s.cur.owp.enc = none → ∃ t, exec (.encClusterDone e) s = .next t ∧ t.cur = s.cur ∧ t.vis = s.vis
      ∧ { t.cur with regs := s.cur.regs, irqSet := s.cur.irqSet, mem := s.cur.mem, owp := s.cur.owp } = s.cur) ∧
  (∀ (p : Fin 4) (r : Requester) (v : Word) (k : Nat) (s : State), (s.cur.port p).job = none → s.cur.starts (pgOwp p) = true →
      s.vis.serving p = some k → s.vis.get (pgFth k) FTH_CTL_FORMAT = s.cur.get (pgOwp p) WP_CTL_FORMAT →
      s.cur.speed p ≤ maxSpeed (s.cur.get (pgOwp p) WP_CTL_FORMAT) (s.cur.get (pgOwp p) WP_CTL_RE_MEDIA) →
      s.cur.get (pgOwp p) WP_CTL_FORMAT = 2 ∨ s.cur.get (pgOwp p) WP_JOB_ADDR % 32 = 0 →
      ∃ t, exec (.burnJobGo p r v) s = .next t ∧ t.cur.get (pgOwp p) WP_JOB_STAT_STATE = 1
      ∧ t.cur.get (pgOwp p) WP_JOB_STAT_END = 0 ∧ t.cur.get (pgOwp p) WP_JOB_STAT_DONE_CNT = 0
      ∧ t.cur.get (pgOwp p) WP_JOB_STAT_INH_COUNT = 0
      ∧ (t.cur.owp = (s.cur.updPort p fun o => { o with clamped := Vector.replicate 4 0, struck := 0, job := some { seq := bits v.toNat 16 8, addr := s.cur.get (pgOwp p) WP_JOB_ADDR, src := s.cur.get64 (pgOwp p) WP_JOB_SRC_LO WP_JOB_SRC_HI / 4096 * 4096, count := max 1 (bits (s.cur.get (pgOwp p) WP_JOB_CNT) 0 16), armedAt := s.cur.gtime } }).owp)
      ∧ t.vis = s.vis ∧ { t.cur with regs := s.cur.regs, owp := s.cur.owp } = s.cur
      ∧ (∀ a, a ≠ pgOwp p + WP_JOB_CTL.off → a ≠ pgOwp p + WP_JOB_STAT.off → t.cur.rd a = s.cur.rd a)) ∧
  (∀ (p : Fin 4) (r : Requester) (v : Word) (s : State),
      (s.cur.port p).job ≠ none ∨ s.cur.starts (pgOwp p) = false ∨ s.vis.serving p = none ∨ maxSpeed (s.cur.get (pgOwp p) WP_CTL_FORMAT) (s.cur.get (pgOwp p) WP_CTL_RE_MEDIA) < s.cur.speed p ∨ (s.cur.get (pgOwp p) WP_CTL_FORMAT ≠ 2 ∧ s.cur.get (pgOwp p) WP_JOB_ADDR % 32 ≠ 0) →
      ∃ t, exec (.burnJobGo p r v) s = .next t ∧ t.cur.owp = s.cur.owp
      ∧ t.cur.get (pgOwp p) WP_JOB_STAT = s.cur.get (pgOwp p) WP_JOB_STAT
      ∧ (s.cur.flag (pgOwp p) PG_ERR_INFO_VALID = false → t.cur.get (pgOwp p) PG_ERR_INFO_CODE = ErrCode.jobState.value)
      ∧ t.vis = s.vis ∧ { t.cur with regs := s.cur.regs, owp := s.cur.owp } = s.cur) ∧
  (∀ (p : Fin 4) (x : Place) (j : BurnJob) (s : State), (s.cur.port p).job = some j →
      s.cur.get (pgOwp p) WP_JOB_STAT_STATE = 1 → Dev.causesNow s.vis s.cur p = 0 →
      s.cur.burnPlace p (s.cur.burnAddr p j) = (x.word, x.unit, x.wob) → x.bit.natAbs ≤ 1 → s.cur.owpFree p ≠ 0 →
      ∃ t, exec (.recordingStart p x) s = .next t ∧ t.cur.get (pgOwp p) WP_JOB_STAT_STATE = 2 ∧ (t.cur.port p).light = true
      ∧ (t.cur.port p).job = (s.cur.port p).job ∧ (t.cur.port p).written = []
      ∧ ((t.cur.port p).sent.toList = (List.range 5).map (fun i => some (s.cur.levelCode p (s.vis.get (pgOps p) OPS_DRIVE1_G) i).2))
      ∧ ((t.cur.port p).spi = (s.cur.port p).spi ++ (List.range 5).map (fun i => s.cur.spiFrame p i (s.cur.levelCode p (s.vis.get (pgOps p) OPS_DRIVE1_G) i).2))
      ∧ t.vis = s.vis ∧ (∀ a, a ≠ pgOwp p + WP_JOB_STAT.off → t.cur.rd a = s.cur.rd a)) ∧
  (∀ (p : Fin 4) (x : Place) (j : BurnJob) (s : State), (s.cur.port p).job = some j →
      s.cur.get (pgOwp p) WP_JOB_STAT_STATE = 1 → Dev.causesNow s.vis s.cur p = 0 →
      s.cur.burnPlace p (s.cur.burnAddr p j) = (x.word, x.unit, x.wob) → x.bit.natAbs ≤ 1 → s.cur.owpFree p = 0 →
      ∃ t, exec (.recordingStart p x) s = .next t ∧ t.cur.get (pgOwp p) WP_JOB_STAT_END = 5 ∧ (t.cur.port p).light = false
      ∧ (t.cur.port p).job = none ∧ t.vis = s.vis
      ∧ (∀ a, a ≠ pgOwp p + WP_JOB_STAT.off → a ≠ pgOwp p + PG_IRQ_RAW.off → t.cur.rd a = s.cur.rd a)) ∧
  (∀ (p : Fin 4) (x : Place) (j : BurnJob) (s : State), (s.cur.port p).job = some j →
      s.cur.get (pgOwp p) WP_JOB_STAT_STATE ≠ 1 ∨ Dev.causesNow s.vis s.cur p ≠ 0 ∨ s.cur.burnPlace p (s.cur.burnAddr p j) ≠ (x.word, x.unit, x.wob) ∨ 1 < x.bit.natAbs →
      ∃ t, exec (.recordingStart p x) s = .next t ∧ t.cur = s.cur ∧ t.vis = s.vis) ∧
  (∀ (p : Fin 4) (j : BurnJob) (s : State), (s.cur.port p).job = some j → (s.cur.port p).light = true → j.posted + 1 < j.count →
      2 ≤ s.cur.owpFree p → ∃ t, exec (.clusterBurned p) s = .next t
      ∧ t.cur.mem = memWrite s.cur.mem (s.cur.owpSlot p) (owpRecord (s.cur.burnAddr p j) (s.cur.owpPhase p) 1 0 0 0 ((((s.cur.port p).sent[0]?).getD none).getD 0) ((s.cur.gtime + 1) % 2 ^ 48) j.seq)
      ∧ (t.cur.port p).written = ((s.cur.burnSlots p j (lastSlot (s.cur.burnDense p))).port p).written
      ∧ (t.cur.port p).job = some { j with index := j.index + 1, posted := j.posted + 1 } ∧ (t.cur.port p).light = true
      ∧ t.cur.get (pgOwp p) WP_RES_PROD_PROD = (s.cur.get (pgOwp p) WP_RES_PROD_PROD + 1) % 2 ^ 16
      ∧ t.cur.get (pgOwp p) WP_JOB_STAT_DONE_CNT = min 0xFFFF (j.posted + 1) ∧ t.cur.flag (pgOwp p) OWP_IRQ_POSTED = true
      ∧ t.vis = s.vis ∧ { t.cur with regs := s.cur.regs, irqSet := s.cur.irqSet, mem := s.cur.mem, owp := s.cur.owp } = s.cur
      ∧ (∀ a, a ≠ pgOwp p + WP_RES_PROD.off → a ≠ pgOwp p + WP_JOB_STAT.off → a ≠ pgOwp p + PG_IRQ_RAW.off → t.cur.rd a = s.cur.rd a)) ∧
  (∀ (p : Fin 4) (j : BurnJob) (s : State), (s.cur.port p).job = some j → (s.cur.port p).light = true → j.posted + 1 = j.count →
      1 ≤ s.cur.owpFree p → ∃ t, exec (.clusterBurned p) s = .next t
      ∧ t.cur.mem = memWrite s.cur.mem (s.cur.owpSlot p) (owpRecord (s.cur.burnAddr p j) (s.cur.owpPhase p) 1 0 0 0 ((((s.cur.port p).sent[0]?).getD none).getD 0) ((s.cur.gtime + 1) % 2 ^ 48) j.seq)
      ∧ (t.cur.port p).written = (((s.cur.burnSlots p j (lastSlot (s.cur.burnDense p))).burnBits p (burnTail (s.cur.burnDense p) true)).port p).written
      ∧ (t.cur.port p).job = none ∧ (t.cur.port p).light = false ∧ t.cur.get (pgOwp p) WP_JOB_STAT_END = 1
      ∧ t.cur.get (pgOwp p) WP_JOB_STAT_STATE = 0 ∧ t.cur.flag (pgOwp p) OWP_IRQ_JOB_END = true ∧ t.vis = s.vis
      ∧ { t.cur with regs := s.cur.regs, irqSet := s.cur.irqSet, mem := s.cur.mem, owp := s.cur.owp } = s.cur
      ∧ (∀ a, a ≠ pgOwp p + WP_RES_PROD.off → a ≠ pgOwp p + WP_JOB_STAT.off → a ≠ pgOwp p + PG_IRQ_RAW.off → t.cur.rd a = s.cur.rd a)) ∧
  (∀ (p : Fin 4) (j : BurnJob) (s : State), (s.cur.port p).job = some j → (s.cur.port p).light = true → j.posted + 1 < j.count →
      s.cur.owpFree p = 1 → ∃ t, exec (.clusterBurned p) s = .next t
      ∧ t.cur.mem = memWrite s.cur.mem (s.cur.owpSlot p) (owpRecord (s.cur.burnAddr p j) (s.cur.owpPhase p) 1 0 0 0 ((((s.cur.port p).sent[0]?).getD none).getD 0) ((s.cur.gtime + 1) % 2 ^ 48) j.seq)
      ∧ (t.cur.port p).job = none ∧ t.cur.get (pgOwp p) WP_JOB_STAT_END = 5 ∧ t.vis = s.vis
      ∧ { t.cur with regs := s.cur.regs, irqSet := s.cur.irqSet, mem := s.cur.mem, owp := s.cur.owp } = s.cur
      ∧ (∀ a, a ≠ pgOwp p + WP_RES_PROD.off → a ≠ pgOwp p + WP_JOB_STAT.off → a ≠ pgOwp p + PG_IRQ_RAW.off → t.cur.rd a = s.cur.rd a)) ∧
  (∀ (p : Fin 4) (s : State), (s.cur.port p).job = none ∨ (s.cur.port p).light = false →
      ∃ t, exec (.clusterBurned p) s = .next t ∧ t.cur = s.cur ∧ t.vis = s.vis
      ∧ { t.cur with regs := s.cur.regs, irqSet := s.cur.irqSet, mem := s.cur.mem, owp := s.cur.owp } = s.cur) ∧
  (∀ (p : Fin 4) (i : Fin 5) (on : Option Light) (s : State), (s.cur.port p).light = true → on = none ∨ on = some .ps →
      (s.cur.port p).sent[i.val]? ≠ some (some (s.cur.levelCode p (s.vis.get (pgOps p) OPS_DRIVE1_G) i).2) →
      ∃ t, exec (.levelSpiSend p i on) s = .next t
      ∧ (t.cur.port p).sent[i.val]? = some (some (s.cur.levelCode p (s.vis.get (pgOps p) OPS_DRIVE1_G) i).2)
      ∧ (t.cur.port p).spi = (s.cur.port p).spi ++ [s.cur.spiFrame p i (s.cur.levelCode p (s.vis.get (pgOps p) OPS_DRIVE1_G) i).2]
      ∧ (t.cur.port p).job = (s.cur.port p).job ∧ t.vis = s.vis ∧ { t.cur with owp := s.cur.owp } = s.cur) ∧
  (∀ (p : Fin 4) (i : Fin 5) (on : Option Light) (s : State),
      (s.cur.port p).light = false ∨ (on ≠ none ∧ on ≠ some .ps) ∨ (s.cur.port p).sent[i.val]? = some (some (s.cur.levelCode p (s.vis.get (pgOps p) OPS_DRIVE1_G) i).2) →
      ∃ t, exec (.levelSpiSend p i on) s = .next t ∧ t.cur = s.cur ∧ t.vis = s.vis ∧ { t.cur with owp := s.cur.owp } = s.cur) ∧
  (∀ (p : Fin 4) (s : State),
      ((List.range 4).any (fun i => decide (max 1 (s.cur.get (pgOwp p) WP_CEIL_LIMIT_G) ≤ ((s.cur.port p).clamped[i]?).getD 0)) = true) →
      (s.cur.port p).limited = false → ∃ t, exec (.powerClampLimit p) s = .next t ∧ (t.cur.port p).limited = true
      ∧ t.cur.flag (pgOwp p) OWP_IRQ_POWER_LIMIT = true
      ∧ t.cur.fj.staged = s.cur.fj.staged ++ [{ gtime := s.cur.gtime48, pgId := pgIdOf (pgOwp p), code := 0x0801, deg := false, flt := false, data := [(s.cur.levelCode p (s.vis.get (pgOps p) OPS_DRIVE1_G) 0).1] }]
      ∧ t.vis = s.vis ∧ { t.cur with regs := s.cur.regs, irqSet := s.cur.irqSet, fj := s.cur.fj, owp := s.cur.owp } = s.cur
      ∧ (∀ a, a ≠ pgOwp p + PG_IRQ_RAW.off → t.cur.rd a = s.cur.rd a)) ∧
  (∀ (p : Fin 4) (s : State),
      ((List.range 4).any (fun i => decide (max 1 (s.cur.get (pgOwp p) WP_CEIL_LIMIT_G) ≤ ((s.cur.port p).clamped[i]?).getD 0)) = false ∨ (s.cur.port p).limited = true) →
      ∃ t, exec (.powerClampLimit p) s = .next t ∧ t.cur = s.cur ∧ t.vis = s.vis
      ∧ { t.cur with regs := s.cur.regs, irqSet := s.cur.irqSet, fj := s.cur.fj, owp := s.cur.owp } = s.cur)

/-- A cause whose bit is enabled that strikes a recording sets its cause bit, turns the light off, puts the job in
INHIBITED, logs WP_INHIBIT and gives an INTERRUPTED record for the cluster being written. More than MAX_INH inhibits
end the job INHIBIT_LIMIT. A disabled cause does nothing. A job rearms after RESUME_G cause-free Grains with wobble
lock, ends POSITION_TO after POS_TO_G Grains without a start, and ends ABORT on an abort. (The address of an inhibit
with no frame written is the model's choice, notes/assumptions/151.md.) Commands that it says to complete, each on the
conditions of its clauses: fastInhibit, immediateInhibit, grainInhibit, burnRearm, positionTimeout, burnJobAbort. -/
def Obligations.Inhibits : Prop :=
  (∀ (p : Fin 4) (j : BurnJob) (f : Nat) (s : State), (s.cur.port p).job = some j → (s.cur.port p).light = true →
      s.cur.shockOut = true → (1 &&& s.cur.get (pgOwp p) WP_INH_CAUSE_EN) ≠ 0 → f < lastSlot (s.cur.burnDense p) →
      j.posted + 1 < j.count → 2 ≤ s.cur.owpFree p → j.inhibits + 1 ≤ s.cur.get (pgOwp p) WP_RESUME_MAX_INH →
      ∃ t, exec (.fastInhibit p .shock (some f)) s = .next t ∧ t.cur.get (pgOwp p) WP_JOB_STAT_STATE = 3
      ∧ (t.cur.port p).light = false
      ∧ t.cur.get (pgOwp p) WP_INH_CAUSE = s.cur.get (pgOwp p) WP_INH_CAUSE ||| (1 &&& s.cur.get (pgOwp p) WP_INH_CAUSE_EN)
      ∧ (t.cur.port p).job = some { j with index := j.index + 1, posted := j.posted + 1, inhibits := j.inhibits + 1 }
      ∧ (t.cur.port p).clearSince = s.cur.gtime + 1
      ∧ (t.cur.port p).struck = (s.cur.port p).struck ||| (1 &&& s.cur.get (pgOwp p) WP_INH_CAUSE_EN)
      ∧ (t.cur.port p).written = ((s.cur.burnSlots p j (f)).port p).written
      ∧ t.cur.mem = memWrite s.cur.mem (s.cur.owpSlot p) (owpRecord (s.cur.burnAddr p j) (s.cur.owpPhase p) 1 1 f (1 &&& s.cur.get (pgOwp p) WP_INH_CAUSE_EN) ((((s.cur.port p).sent[0]?).getD none).getD 0) ((s.cur.gtime + 1) % 2 ^ 48) j.seq)
      ∧ t.cur.fj.staged = s.cur.fj.staged ++ [{ gtime := s.cur.gtime48, pgId := pgIdOf (pgOwp p), code := 0x0802, deg := false, flt := false, data := [(1 &&& s.cur.get (pgOwp p) WP_INH_CAUSE_EN), s.cur.burnAddr p j, f].map (· % 2 ^ 32) }]
      ∧ t.cur.flag (pgOwp p) OWP_IRQ_INHIBIT = true ∧ t.vis = s.vis
      ∧ { t.cur with regs := s.cur.regs, irqSet := s.cur.irqSet, mem := s.cur.mem, fj := s.cur.fj, owp := s.cur.owp } = s.cur
      ∧ (∀ a, a ≠ pgOwp p + WP_RES_PROD.off → a ≠ pgOwp p + WP_JOB_STAT.off → a ≠ pgOwp p + WP_INH.off → a ≠ pgOwp p + PG_IRQ_RAW.off → t.cur.rd a = s.cur.rd a)) ∧
  (∀ (p : Fin 4) (j : BurnJob) (f : Nat) (x : Int) (s : State), (s.cur.port p).job = some j → (s.cur.port p).light = true →
      0 < s.cur.get (pgOwp p) WP_FAST_TE_FAST → (s.cur.get (pgOwp p) WP_FAST_TE_FAST : Int) < x →
      (2 &&& s.cur.get (pgOwp p) WP_INH_CAUSE_EN) ≠ 0 → f < lastSlot (s.cur.burnDense p) → j.posted + 1 < j.count →
      2 ≤ s.cur.owpFree p → j.inhibits + 1 ≤ s.cur.get (pgOwp p) WP_RESUME_MAX_INH →
      ∃ t, exec (.fastInhibit p (.track x) (some f)) s = .next t ∧ t.cur.get (pgOwp p) WP_JOB_STAT_STATE = 3
      ∧ (t.cur.port p).light = false
      ∧ t.cur.get (pgOwp p) WP_INH_CAUSE = s.cur.get (pgOwp p) WP_INH_CAUSE ||| (2 &&& s.cur.get (pgOwp p) WP_INH_CAUSE_EN)
      ∧ (t.cur.port p).job = some { j with index := j.index + 1, posted := j.posted + 1, inhibits := j.inhibits + 1 }
      ∧ (t.cur.port p).clearSince = s.cur.gtime + 1
      ∧ (t.cur.port p).struck = (s.cur.port p).struck ||| (2 &&& s.cur.get (pgOwp p) WP_INH_CAUSE_EN)
      ∧ (t.cur.port p).written = ((s.cur.burnSlots p j (f)).port p).written
      ∧ t.cur.mem = memWrite s.cur.mem (s.cur.owpSlot p) (owpRecord (s.cur.burnAddr p j) (s.cur.owpPhase p) 1 1 f (2 &&& s.cur.get (pgOwp p) WP_INH_CAUSE_EN) ((((s.cur.port p).sent[0]?).getD none).getD 0) ((s.cur.gtime + 1) % 2 ^ 48) j.seq)
      ∧ t.cur.fj.staged = s.cur.fj.staged ++ [{ gtime := s.cur.gtime48, pgId := pgIdOf (pgOwp p), code := 0x0802, deg := false, flt := false, data := [(2 &&& s.cur.get (pgOwp p) WP_INH_CAUSE_EN), s.cur.burnAddr p j, f].map (· % 2 ^ 32) }]
      ∧ t.cur.flag (pgOwp p) OWP_IRQ_INHIBIT = true ∧ t.vis = s.vis
      ∧ { t.cur with regs := s.cur.regs, irqSet := s.cur.irqSet, mem := s.cur.mem, fj := s.cur.fj, owp := s.cur.owp } = s.cur
      ∧ (∀ a, a ≠ pgOwp p + WP_RES_PROD.off → a ≠ pgOwp p + WP_JOB_STAT.off → a ≠ pgOwp p + WP_INH.off → a ≠ pgOwp p + PG_IRQ_RAW.off → t.cur.rd a = s.cur.rd a)) ∧
  (∀ (p : Fin 4) (j : BurnJob) (f : Nat) (x : Int) (s : State), (s.cur.port p).job = some j → (s.cur.port p).light = true →
      0 < s.cur.get (pgOwp p) WP_FAST_FE_FAST → x < -(s.cur.get (pgOwp p) WP_FAST_FE_FAST : Int) →
      (4 &&& s.cur.get (pgOwp p) WP_INH_CAUSE_EN) ≠ 0 → f < lastSlot (s.cur.burnDense p) → j.posted + 1 < j.count →
      2 ≤ s.cur.owpFree p → j.inhibits + 1 ≤ s.cur.get (pgOwp p) WP_RESUME_MAX_INH →
      ∃ t, exec (.fastInhibit p (.focus x) (some f)) s = .next t ∧ t.cur.get (pgOwp p) WP_JOB_STAT_STATE = 3
      ∧ (t.cur.port p).light = false
      ∧ t.cur.get (pgOwp p) WP_INH_CAUSE = s.cur.get (pgOwp p) WP_INH_CAUSE ||| (4 &&& s.cur.get (pgOwp p) WP_INH_CAUSE_EN)
      ∧ (t.cur.port p).job = some { j with index := j.index + 1, posted := j.posted + 1, inhibits := j.inhibits + 1 }
      ∧ (t.cur.port p).clearSince = s.cur.gtime + 1
      ∧ (t.cur.port p).struck = (s.cur.port p).struck ||| (4 &&& s.cur.get (pgOwp p) WP_INH_CAUSE_EN)
      ∧ (t.cur.port p).written = ((s.cur.burnSlots p j (f)).port p).written
      ∧ t.cur.mem = memWrite s.cur.mem (s.cur.owpSlot p) (owpRecord (s.cur.burnAddr p j) (s.cur.owpPhase p) 1 1 f (4 &&& s.cur.get (pgOwp p) WP_INH_CAUSE_EN) ((((s.cur.port p).sent[0]?).getD none).getD 0) ((s.cur.gtime + 1) % 2 ^ 48) j.seq)
      ∧ t.cur.fj.staged = s.cur.fj.staged ++ [{ gtime := s.cur.gtime48, pgId := pgIdOf (pgOwp p), code := 0x0802, deg := false, flt := false, data := [(4 &&& s.cur.get (pgOwp p) WP_INH_CAUSE_EN), s.cur.burnAddr p j, f].map (· % 2 ^ 32) }]
      ∧ t.cur.flag (pgOwp p) OWP_IRQ_INHIBIT = true ∧ t.vis = s.vis
      ∧ { t.cur with regs := s.cur.regs, irqSet := s.cur.irqSet, mem := s.cur.mem, fj := s.cur.fj, owp := s.cur.owp } = s.cur
      ∧ (∀ a, a ≠ pgOwp p + WP_RES_PROD.off → a ≠ pgOwp p + WP_JOB_STAT.off → a ≠ pgOwp p + WP_INH.off → a ≠ pgOwp p + PG_IRQ_RAW.off → t.cur.rd a = s.cur.rd a)) ∧
  (∀ (p : Fin 4) (x : Int) (f : Option Nat) (s : State),
      s.cur.get (pgOwp p) WP_FAST_TE_FAST = 0 ∨ (x ≤ s.cur.get (pgOwp p) WP_FAST_TE_FAST ∧ -(s.cur.get (pgOwp p) WP_FAST_TE_FAST : Int) ≤ x) ∨ bit (s.cur.get (pgOwp p) WP_INH_CAUSE_EN) 1 = false →
      ∃ t, exec (.fastInhibit p (.track x) f) s = .next t ∧ t.cur = s.cur ∧ t.vis = s.vis
      ∧ { t.cur with regs := s.cur.regs, irqSet := s.cur.irqSet, mem := s.cur.mem, fj := s.cur.fj, owp := s.cur.owp } = s.cur) ∧
  (∀ (p : Fin 4) (j : BurnJob) (f : Nat) (s : State), (s.cur.port p).job = some j → (s.cur.port p).light = true →
      (2 ^ 10 &&& s.cur.get (pgOwp p) WP_INH_CAUSE_EN) ≠ 0 → f < lastSlot (s.cur.burnDense p) → j.posted + 1 < j.count →
      2 ≤ s.cur.owpFree p → j.inhibits + 1 ≤ s.cur.get (pgOwp p) WP_RESUME_MAX_INH →
      ∃ t, exec (.immediateInhibit p true (some f)) s = .next t ∧ t.cur.get (pgOwp p) WP_JOB_STAT_STATE = 3
      ∧ (t.cur.port p).light = false
      ∧ t.cur.get (pgOwp p) WP_INH_CAUSE = s.cur.get (pgOwp p) WP_INH_CAUSE ||| (2 ^ 10 &&& s.cur.get (pgOwp p) WP_INH_CAUSE_EN)
      ∧ (t.cur.port p).job = some { j with index := j.index + 1, posted := j.posted + 1, inhibits := j.inhibits + 1 }
      ∧ (t.cur.port p).clearSince = s.cur.gtime + 1
      ∧ (t.cur.port p).struck = (s.cur.port p).struck ||| (2 ^ 10 &&& s.cur.get (pgOwp p) WP_INH_CAUSE_EN)
      ∧ (t.cur.port p).written = ((s.cur.burnSlots p j (f)).port p).written
      ∧ t.cur.mem = memWrite s.cur.mem (s.cur.owpSlot p) (owpRecord (s.cur.burnAddr p j) (s.cur.owpPhase p) 1 1 f (2 ^ 10 &&& s.cur.get (pgOwp p) WP_INH_CAUSE_EN) ((((s.cur.port p).sent[0]?).getD none).getD 0) ((s.cur.gtime + 1) % 2 ^ 48) j.seq)
      ∧ t.cur.fj.staged = s.cur.fj.staged ++ [{ gtime := s.cur.gtime48, pgId := pgIdOf (pgOwp p), code := 0x0802, deg := false, flt := false, data := [(2 ^ 10 &&& s.cur.get (pgOwp p) WP_INH_CAUSE_EN), s.cur.burnAddr p j, f].map (· % 2 ^ 32) }]
      ∧ t.cur.flag (pgOwp p) OWP_IRQ_INHIBIT = true ∧ t.vis = s.vis
      ∧ { t.cur with regs := s.cur.regs, irqSet := s.cur.irqSet, mem := s.cur.mem, fj := s.cur.fj, owp := s.cur.owp } = s.cur
      ∧ (∀ a, a ≠ pgOwp p + WP_RES_PROD.off → a ≠ pgOwp p + WP_JOB_STAT.off → a ≠ pgOwp p + WP_INH.off → a ≠ pgOwp p + PG_IRQ_RAW.off → t.cur.rd a = s.cur.rd a)) ∧
  (∀ (p : Fin 4) (j : BurnJob) (f : Nat) (s : State), (s.cur.port p).job = some j → (s.cur.port p).light = true →
      (2 ^ 6 &&& s.cur.get (pgOwp p) WP_INH_CAUSE_EN) ≠ 0 → f < lastSlot (s.cur.burnDense p) → j.posted + 1 < j.count →
      2 ≤ s.cur.owpFree p → j.inhibits + 1 ≤ s.cur.get (pgOwp p) WP_RESUME_MAX_INH →
      ∃ t, exec (.immediateInhibit p false (some f)) s = .next t ∧ t.cur.get (pgOwp p) WP_JOB_STAT_STATE = 3
      ∧ (t.cur.port p).light = false
      ∧ t.cur.get (pgOwp p) WP_INH_CAUSE = s.cur.get (pgOwp p) WP_INH_CAUSE ||| (2 ^ 6 &&& s.cur.get (pgOwp p) WP_INH_CAUSE_EN)
      ∧ (t.cur.port p).job = some { j with index := j.index + 1, posted := j.posted + 1, inhibits := j.inhibits + 1 }
      ∧ (t.cur.port p).clearSince = s.cur.gtime + 1
      ∧ (t.cur.port p).struck = (s.cur.port p).struck ||| (2 ^ 6 &&& s.cur.get (pgOwp p) WP_INH_CAUSE_EN)
      ∧ (t.cur.port p).written = ((s.cur.burnSlots p j (f)).port p).written
      ∧ t.cur.mem = memWrite s.cur.mem (s.cur.owpSlot p) (owpRecord (s.cur.burnAddr p j) (s.cur.owpPhase p) 1 1 f (2 ^ 6 &&& s.cur.get (pgOwp p) WP_INH_CAUSE_EN) ((((s.cur.port p).sent[0]?).getD none).getD 0) ((s.cur.gtime + 1) % 2 ^ 48) j.seq)
      ∧ t.cur.fj.staged = s.cur.fj.staged ++ [{ gtime := s.cur.gtime48, pgId := pgIdOf (pgOwp p), code := 0x0802, deg := false, flt := false, data := [(2 ^ 6 &&& s.cur.get (pgOwp p) WP_INH_CAUSE_EN), s.cur.burnAddr p j, f].map (· % 2 ^ 32) }]
      ∧ t.cur.flag (pgOwp p) OWP_IRQ_INHIBIT = true ∧ t.vis = s.vis
      ∧ { t.cur with regs := s.cur.regs, irqSet := s.cur.irqSet, mem := s.cur.mem, fj := s.cur.fj, owp := s.cur.owp } = s.cur
      ∧ (∀ a, a ≠ pgOwp p + WP_RES_PROD.off → a ≠ pgOwp p + WP_JOB_STAT.off → a ≠ pgOwp p + WP_INH.off → a ≠ pgOwp p + PG_IRQ_RAW.off → t.cur.rd a = s.cur.rd a)) ∧
  (∀ (p : Fin 4) (j : BurnJob) (f : Nat) (b : Bool) (s : State), (s.cur.port p).job = some j → (s.cur.port p).light = true →
      ((if b then 2 ^ 10 else 2 ^ 6) &&& s.cur.get (pgOwp p) WP_INH_CAUSE_EN ≠ 0) →
      s.cur.get (pgOwp p) WP_RESUME_MAX_INH < j.inhibits + 1 → 1 ≤ s.cur.owpFree p → f < lastSlot (s.cur.burnDense p) →
      ∃ t, exec (.immediateInhibit p b (some f)) s = .next t ∧ t.cur.get (pgOwp p) WP_JOB_STAT_END = 4
      ∧ t.cur.get (pgOwp p) WP_JOB_STAT_STATE = 0 ∧ (t.cur.port p).job = none ∧ (t.cur.port p).light = false ∧ t.vis = s.vis
      ∧ { t.cur with regs := s.cur.regs, irqSet := s.cur.irqSet, mem := s.cur.mem, fj := s.cur.fj, owp := s.cur.owp } = s.cur
      ∧ (∀ a, a ≠ pgOwp p + WP_RES_PROD.off → a ≠ pgOwp p + WP_JOB_STAT.off → a ≠ pgOwp p + WP_INH.off → a ≠ pgOwp p + PG_IRQ_RAW.off → t.cur.rd a = s.cur.rd a)) ∧
  (∀ (p : Fin 4) (j : BurnJob) (f : Nat) (s : State), (s.cur.port p).job = some j → (s.cur.port p).light = true →
      (Dev.grainCauses s.vis s.cur p &&& s.cur.get (pgOwp p) WP_INH_CAUSE_EN) ≠ 0 → f < lastSlot (s.cur.burnDense p) →
      j.posted + 1 < j.count → 2 ≤ s.cur.owpFree p → j.inhibits + 1 ≤ s.cur.get (pgOwp p) WP_RESUME_MAX_INH →
      ∃ t, exec (.grainInhibit p (some f)) s = .next t ∧ t.cur.get (pgOwp p) WP_JOB_STAT_STATE = 3
      ∧ (t.cur.port p).light = false
      ∧ t.cur.get (pgOwp p) WP_INH_CAUSE = s.cur.get (pgOwp p) WP_INH_CAUSE ||| (Dev.grainCauses s.vis s.cur p &&& s.cur.get (pgOwp p) WP_INH_CAUSE_EN)
      ∧ (t.cur.port p).job = some { j with index := j.index + 1, posted := j.posted + 1, inhibits := j.inhibits + 1 }
      ∧ (t.cur.port p).clearSince = s.cur.gtime + 1
      ∧ (t.cur.port p).struck = (s.cur.port p).struck ||| (Dev.grainCauses s.vis s.cur p &&& s.cur.get (pgOwp p) WP_INH_CAUSE_EN)
      ∧ (t.cur.port p).written = ((s.cur.burnSlots p j (f)).port p).written
      ∧ t.cur.mem = memWrite s.cur.mem (s.cur.owpSlot p) (owpRecord (s.cur.burnAddr p j) (s.cur.owpPhase p) 1 1 f (Dev.grainCauses s.vis s.cur p &&& s.cur.get (pgOwp p) WP_INH_CAUSE_EN) ((((s.cur.port p).sent[0]?).getD none).getD 0) ((s.cur.gtime + 1) % 2 ^ 48) j.seq)
      ∧ t.cur.fj.staged = s.cur.fj.staged ++ [{ gtime := s.cur.gtime48, pgId := pgIdOf (pgOwp p), code := 0x0802, deg := false, flt := false, data := [(Dev.grainCauses s.vis s.cur p &&& s.cur.get (pgOwp p) WP_INH_CAUSE_EN), s.cur.burnAddr p j, f].map (· % 2 ^ 32) }]
      ∧ t.cur.flag (pgOwp p) OWP_IRQ_INHIBIT = true ∧ t.vis = s.vis
      ∧ (∀ a, a ≠ pgOwp p + WP_RES_PROD.off → a ≠ pgOwp p + WP_JOB_STAT.off → a ≠ pgOwp p + WP_INH.off → a ≠ pgOwp p + PG_IRQ_RAW.off → t.cur.rd a = s.cur.rd a)) ∧
  (∀ (p : Fin 4) (j : BurnJob) (s : State), (s.cur.port p).job = some j → (s.cur.port p).light = true →
      (Dev.grainCauses s.vis s.cur p &&& s.cur.get (pgOwp p) WP_INH_CAUSE_EN) ≠ 0 → j.posted < j.count → 1 ≤ s.cur.owpFree p →
      j.inhibits + 1 ≤ s.cur.get (pgOwp p) WP_RESUME_MAX_INH → ∃ t, exec (.grainInhibit p none) s = .next t
      ∧ t.cur.get (pgOwp p) WP_JOB_STAT_STATE = 3 ∧ (t.cur.port p).light = false
      ∧ (t.cur.port p).job = some { j with inhibits := j.inhibits + 1 }
      ∧ t.cur.get (pgOwp p) WP_INH_CAUSE = s.cur.get (pgOwp p) WP_INH_CAUSE ||| (Dev.grainCauses s.vis s.cur p &&& s.cur.get (pgOwp p) WP_INH_CAUSE_EN)
      ∧ t.vis = s.vis
      ∧ (∀ a, a ≠ pgOwp p + WP_JOB_STAT.off → a ≠ pgOwp p + WP_INH.off → a ≠ pgOwp p + PG_IRQ_RAW.off → t.cur.rd a = s.cur.rd a)) ∧
  (∀ (p : Fin 4) (f : Option Nat) (s : State),
      (Dev.grainCauses s.vis s.cur p &&& s.cur.get (pgOwp p) WP_INH_CAUSE_EN) = 0 ∨ (s.cur.port p).light = false ∨ (s.cur.port p).job = none →
      ∃ t, exec (.grainInhibit p f) s = .next t ∧ t.cur = s.cur ∧ t.vis = s.vis) ∧
  (∀ (p : Fin 4) (k : Nat) (s : State), s.cur.get (pgOwp p) WP_JOB_STAT_STATE = 3 → Dev.causesNow s.vis s.cur p = 0 →
      s.vis.serving p = some k → s.vis.flag (pgFth k) FTH_WOB_LOCKED = true →
      (s.cur.port p).clearSince + max 1 (s.cur.get (pgOwp p) WP_RESUME_RESUME_G) ≤ s.cur.gtime →
      ∃ t, exec (.burnRearm p) s = .next t ∧ t.cur.get (pgOwp p) WP_JOB_STAT_STATE = 1
      ∧ (t.cur.owp = (s.cur.updPort p fun o => { o with job := o.job.map fun j => { j with armedAt := s.cur.gtime } }).owp)
      ∧ t.vis = s.vis ∧ (∀ a, a ≠ pgOwp p + WP_JOB_STAT.off → t.cur.rd a = s.cur.rd a)) ∧
  (∀ (p : Fin 4) (s : State),
      s.cur.get (pgOwp p) WP_JOB_STAT_STATE ≠ 3 ∨ Dev.causesNow s.vis s.cur p ≠ 0 ∨ s.vis.serving p = none ∨ s.cur.gtime < (s.cur.port p).clearSince + max 1 (s.cur.get (pgOwp p) WP_RESUME_RESUME_G) →
      ∃ t, exec (.burnRearm p) s = .next t ∧ t.cur = s.cur ∧ t.vis = s.vis) ∧
  (∀ (p : Fin 4) (j : BurnJob) (s : State), (s.cur.port p).job = some j → s.cur.get (pgOwp p) WP_JOB_STAT_STATE = 1 →
      j.armedAt + max 1 (s.cur.get (pgOwp p) WP_RESUME_POS_TO_G) ≤ s.cur.gtime → ∃ t, exec (.positionTimeout p) s = .next t
      ∧ t.cur.get (pgOwp p) WP_JOB_STAT_END = 3 ∧ t.cur.get (pgOwp p) WP_JOB_STAT_STATE = 0 ∧ (t.cur.port p).job = none
      ∧ (t.cur.port p).light = false ∧ t.cur.flag (pgOwp p) OWP_IRQ_JOB_END = true ∧ t.vis = s.vis
      ∧ { t.cur with regs := s.cur.regs, irqSet := s.cur.irqSet, owp := s.cur.owp } = s.cur
      ∧ (∀ a, a ≠ pgOwp p + WP_JOB_STAT.off → a ≠ pgOwp p + PG_IRQ_RAW.off → t.cur.rd a = s.cur.rd a)) ∧
  (∀ (p : Fin 4) (j : BurnJob) (s : State), (s.cur.port p).job = some j →
      s.cur.get (pgOwp p) WP_JOB_STAT_STATE ≠ 1 ∨ s.cur.gtime < j.armedAt + max 1 (s.cur.get (pgOwp p) WP_RESUME_POS_TO_G) →
      ∃ t, exec (.positionTimeout p) s = .next t ∧ t.cur = s.cur ∧ t.vis = s.vis
      ∧ { t.cur with regs := s.cur.regs, irqSet := s.cur.irqSet, owp := s.cur.owp } = s.cur) ∧
  (∀ (p : Fin 4) (j : BurnJob) (s : State), (s.cur.port p).job = some j → ∃ t, exec (.burnJobAbort p none) s = .next t
      ∧ t.cur.get (pgOwp p) WP_JOB_STAT_END = 2 ∧ t.cur.get (pgOwp p) WP_JOB_STAT_STATE = 0 ∧ (t.cur.port p).job = none
      ∧ (t.cur.port p).light = false ∧ t.cur.flag (pgOwp p) OWP_IRQ_JOB_END = true ∧ t.vis = s.vis
      ∧ { t.cur with regs := s.cur.regs, irqSet := s.cur.irqSet, host := s.cur.host, fresh := s.cur.fresh, ldg := s.cur.ldg, owp := s.cur.owp } = s.cur
      ∧ (∀ a, a ≠ pgOwp p + WP_JOB_STAT.off → a ≠ pgOwp p + PG_IRQ_RAW.off → t.cur.rd a = s.cur.rd a)) ∧
  (∀ (p : Fin 4) (j : BurnJob) (f : Nat) (s : State), (s.cur.port p).job = some j → (s.cur.port p).light = true →
      1 ≤ s.cur.owpFree p → f < lastSlot (s.cur.burnDense p) → ∃ t, exec (.burnJobAbort p (some f)) s = .next t
      ∧ t.cur.get (pgOwp p) WP_JOB_STAT_END = 2 ∧ t.cur.get (pgOwp p) WP_JOB_STAT_STATE = 0 ∧ (t.cur.port p).job = none
      ∧ (t.cur.port p).light = false ∧ t.cur.flag (pgOwp p) OWP_IRQ_JOB_END = true
      ∧ t.cur.mem = memWrite s.cur.mem (s.cur.owpSlot p) (owpRecord (s.cur.burnAddr p j) (s.cur.owpPhase p) 1 1 f 0 ((((s.cur.port p).sent[0]?).getD none).getD 0) ((s.cur.gtime + 1) % 2 ^ 48) j.seq)
      ∧ t.vis = s.vis
      ∧ { t.cur with regs := s.cur.regs, irqSet := s.cur.irqSet, mem := s.cur.mem, host := s.cur.host, fresh := s.cur.fresh, ldg := s.cur.ldg, owp := s.cur.owp } = s.cur
      ∧ (∀ a, a ≠ pgOwp p + WP_RES_PROD.off → a ≠ pgOwp p + WP_JOB_STAT.off → a ≠ pgOwp p + PG_IRQ_RAW.off → t.cur.rd a = s.cur.rd a))

/-- Each delivered cluster of a VERIFY job gets a VERIFY record whose status is READ_FAIL for one that could not be read,
MISMATCH for user data that differ, MARGIN for a margin exceeded and OK otherwise. OPEN takes a REQUESTED ticket of a
sealed lane, CANCEL frees one that is OPEN, VERIFIED or FAILED, a manifest whose signature the device key verifies
makes a ticket VERIFIED and any other FAILED. COMMIT charges one record and hands it to the ledger, and once it is
Settled the lane is ARCHIVED and its tickets DONE. (MARGIN for a cluster read by iteration alone is the model's
choice, notes/assumptions/151.md.) Commands that it says to complete, each on the conditions of its clauses:
verifyCompare, arOpen, arCancel, manifestVerifyDone, arCommit, archiveRecordSettle. -/
def Obligations.VerifyAndTickets : Prop :=
  (∀ (p : Fin 4) (k : Fin 5) (r : FRec) (l : List FRec) (s : State), s.cur.serving p = some k.val →
      s.cur.get (pgFth k) FTH_CTL_FORMAT ≠ 2 → (s.cur.fthc k).compare = r :: l → s.cur.owp.tickets = [] → 1 ≤ s.cur.owpFree p →
      r.status ≠ some 0 → r.status ≠ some 1 → r.status ≠ some 6 → ∃ t, exec (.verifyCompare p) s = .next t
      ∧ t.cur.mem = memWrite s.cur.mem (s.cur.owpSlot p) (owpRecord r.addr (s.cur.owpPhase p) 2 4 0 0 r.maxCorr ((s.cur.gtime + 1) % 2 ^ 48) r.seq)
      ∧ (t.cur.fth = (s.cur.updFth k fun c => { c with compare := l }).fth)
      ∧ t.cur.get (pgOwp p) WP_RES_PROD_PROD = (s.cur.get (pgOwp p) WP_RES_PROD_PROD + 1) % 2 ^ 16 ∧ t.cur.owp = s.cur.owp
      ∧ t.vis = s.vis
      ∧ { t.cur with regs := s.cur.regs, irqSet := s.cur.irqSet, mem := s.cur.mem, fj := s.cur.fj, fth := s.cur.fth, owp := s.cur.owp } = s.cur
      ∧ (∀ a, a ≠ pgOwp p + WP_RES_PROD.off → a ≠ pgOwp p + PG_IRQ_RAW.off → t.cur.rd a = s.cur.rd a)) ∧
  (∀ (p : Fin 4) (k : Fin 5) (r : FRec) (l : List FRec) (s : State), s.cur.serving p = some k.val →
      s.cur.get (pgFth k) FTH_CTL_FORMAT ≠ 2 → (s.cur.fthc k).compare = r :: l → s.cur.owp.tickets = [] → 1 ≤ s.cur.owpFree p →
      memRead s.cur.mem (s.cur.get64 (pgOwp p) WP_VFY_SRC_LO WP_VFY_SRC_HI / 4096 * 4096 + r.index * 65536) 65536 = padTo 65536 r.data →
      r.status = some 0 → r.maxCorr ≤ s.cur.get (pgOwp p) WP_VMARGIN_VM_CORR → r.ins ≤ s.cur.get (pgOwp p) WP_VMARGIN_VM_SYNC →
      r.defFrames ≤ s.cur.get (pgOwp p) WP_VMARGIN_VM_DEF → r.bis ≤ s.cur.get (pgOwp p) WP_VMARGIN_VM_BIS →
      ∃ t, exec (.verifyCompare p) s = .next t
      ∧ t.cur.mem = memWrite s.cur.mem (s.cur.owpSlot p) (owpRecord r.addr (s.cur.owpPhase p) 2 0 0 0 r.maxCorr ((s.cur.gtime + 1) % 2 ^ 48) r.seq)
      ∧ (t.cur.fth = (s.cur.updFth k fun c => { c with compare := l }).fth)
      ∧ t.cur.get (pgOwp p) WP_RES_PROD_PROD = (s.cur.get (pgOwp p) WP_RES_PROD_PROD + 1) % 2 ^ 16 ∧ t.cur.owp = s.cur.owp
      ∧ t.vis = s.vis
      ∧ { t.cur with regs := s.cur.regs, irqSet := s.cur.irqSet, mem := s.cur.mem, fj := s.cur.fj, fth := s.cur.fth, owp := s.cur.owp } = s.cur
      ∧ (∀ a, a ≠ pgOwp p + WP_RES_PROD.off → a ≠ pgOwp p + PG_IRQ_RAW.off → t.cur.rd a = s.cur.rd a)) ∧
  (∀ (p : Fin 4) (k : Fin 5) (r : FRec) (l : List FRec) (s : State), s.cur.serving p = some k.val →
      s.cur.get (pgFth k) FTH_CTL_FORMAT ≠ 2 → (s.cur.fthc k).compare = r :: l → s.cur.owp.tickets = [] → 1 ≤ s.cur.owpFree p →
      memRead s.cur.mem (s.cur.get64 (pgOwp p) WP_VFY_SRC_LO WP_VFY_SRC_HI / 4096 * 4096 + r.index * 65536) 65536 = padTo 65536 r.data →
      r.status = some 0 → s.cur.get (pgOwp p) WP_VMARGIN_VM_SYNC < r.ins ∨ s.cur.get (pgOwp p) WP_VMARGIN_VM_DEF < r.defFrames →
      ∃ t, exec (.verifyCompare p) s = .next t
      ∧ t.cur.mem = memWrite s.cur.mem (s.cur.owpSlot p) (owpRecord r.addr (s.cur.owpPhase p) 2 3 0 0 r.maxCorr ((s.cur.gtime + 1) % 2 ^ 48) r.seq)
      ∧ (t.cur.fth = (s.cur.updFth k fun c => { c with compare := l }).fth)
      ∧ t.cur.get (pgOwp p) WP_RES_PROD_PROD = (s.cur.get (pgOwp p) WP_RES_PROD_PROD + 1) % 2 ^ 16 ∧ t.cur.owp = s.cur.owp
      ∧ t.vis = s.vis
      ∧ { t.cur with regs := s.cur.regs, irqSet := s.cur.irqSet, mem := s.cur.mem, fj := s.cur.fj, fth := s.cur.fth, owp := s.cur.owp } = s.cur
      ∧ (∀ a, a ≠ pgOwp p + WP_RES_PROD.off → a ≠ pgOwp p + PG_IRQ_RAW.off → t.cur.rd a = s.cur.rd a)) ∧
  (∀ (p : Fin 4) (k : Fin 5) (r : FRec) (l : List FRec) (s : State), s.cur.serving p = some k.val →
      s.cur.get (pgFth k) FTH_CTL_FORMAT ≠ 2 → (s.cur.fthc k).compare = r :: l → s.cur.owp.tickets = [] → 1 ≤ s.cur.owpFree p →
      memRead s.cur.mem (s.cur.get64 (pgOwp p) WP_VFY_SRC_LO WP_VFY_SRC_HI / 4096 * 4096 + r.index * 65536) 65536 ≠ padTo 65536 r.data →
      r.status = some 0 → ∃ t, exec (.verifyCompare p) s = .next t
      ∧ (t.cur.mem = memWrite s.cur.mem (s.cur.owpSlot p) (owpRecord r.addr (s.cur.owpPhase p) 2 2 (((memRead s.cur.mem (s.cur.get64 (pgOwp p) WP_VFY_SRC_LO WP_VFY_SRC_HI / 4096 * 4096 + r.index * 65536) 65536).zip (padTo 65536 r.data)).filter fun x => x.1 != x.2).length 0 r.maxCorr ((s.cur.gtime + 1) % 2 ^ 48) r.seq))
      ∧ (t.cur.fth = (s.cur.updFth k fun c => { c with compare := l }).fth)
      ∧ t.cur.get (pgOwp p) WP_RES_PROD_PROD = (s.cur.get (pgOwp p) WP_RES_PROD_PROD + 1) % 2 ^ 16 ∧ t.cur.owp = s.cur.owp
      ∧ t.vis = s.vis
      ∧ { t.cur with regs := s.cur.regs, irqSet := s.cur.irqSet, mem := s.cur.mem, fj := s.cur.fj, fth := s.cur.fth, owp := s.cur.owp } = s.cur
      ∧ (∀ a, a ≠ pgOwp p + WP_RES_PROD.off → a ≠ pgOwp p + PG_IRQ_RAW.off → t.cur.rd a = s.cur.rd a)) ∧
  (∀ (p : Fin 4) (k : Fin 5) (r : FRec) (l : List FRec) (s : State), s.cur.serving p = some k.val →
      s.cur.get (pgFth k) FTH_CTL_FORMAT = 2 → (s.cur.fthc k).compare = r :: l → s.cur.owp.tickets = [] → 1 ≤ s.cur.owpFree p →
      memRead s.cur.mem (s.cur.get64 (pgOwp p) WP_VFY_SRC_LO WP_VFY_SRC_HI / 4096 * 4096 + r.index * 65536) 65536 = padTo 65536 r.data →
      r.status = some 0 → r.maxCorr ≤ s.cur.get (pgOwp p) WP_VMARGIN_VM_CORR * 16 →
      r.ins ≤ s.cur.get (pgOwp p) WP_VMARGIN_VM_SYNC → r.defFrames ≤ s.cur.get (pgOwp p) WP_VMARGIN_VM_DEF →
      ∃ t, exec (.verifyCompare p) s = .next t
      ∧ t.cur.mem = memWrite s.cur.mem (s.cur.owpSlot p) (owpRecord r.addr (s.cur.owpPhase p) 2 0 0 0 r.maxCorr ((s.cur.gtime + 1) % 2 ^ 48) r.seq)
      ∧ (t.cur.fth = (s.cur.updFth k fun c => { c with compare := l }).fth)
      ∧ t.cur.get (pgOwp p) WP_RES_PROD_PROD = (s.cur.get (pgOwp p) WP_RES_PROD_PROD + 1) % 2 ^ 16 ∧ t.cur.owp = s.cur.owp
      ∧ t.vis = s.vis
      ∧ { t.cur with regs := s.cur.regs, irqSet := s.cur.irqSet, mem := s.cur.mem, fj := s.cur.fj, fth := s.cur.fth, owp := s.cur.owp } = s.cur
      ∧ (∀ a, a ≠ pgOwp p + WP_RES_PROD.off → a ≠ pgOwp p + PG_IRQ_RAW.off → t.cur.rd a = s.cur.rd a)) ∧
  (∀ (p : Fin 4) (k : Fin 5) (r : FRec) (l : List FRec) (s : State), s.cur.serving p = some k.val →
      s.cur.get (pgFth k) FTH_CTL_FORMAT ≠ 2 → (s.cur.fthc k).compare = r :: l → s.cur.owp.tickets = [] → 1 ≤ s.cur.owpFree p →
      r.status = some 6 → ∃ t, exec (.verifyCompare p) s = .next t
      ∧ t.cur.mem = memWrite s.cur.mem (s.cur.owpSlot p) (owpRecord r.addr (s.cur.owpPhase p) 2 5 0 0 r.maxCorr ((s.cur.gtime + 1) % 2 ^ 48) r.seq)
      ∧ (t.cur.fth = (s.cur.updFth k fun c => { c with compare := l }).fth)
      ∧ t.cur.get (pgOwp p) WP_RES_PROD_PROD = (s.cur.get (pgOwp p) WP_RES_PROD_PROD + 1) % 2 ^ 16 ∧ t.cur.owp = s.cur.owp
      ∧ t.vis = s.vis
      ∧ { t.cur with regs := s.cur.regs, irqSet := s.cur.irqSet, mem := s.cur.mem, fj := s.cur.fj, fth := s.cur.fth, owp := s.cur.owp } = s.cur
      ∧ (∀ a, a ≠ pgOwp p + WP_RES_PROD.off → a ≠ pgOwp p + PG_IRQ_RAW.off → t.cur.rd a = s.cur.rd a)) ∧
  (∀ (p : Fin 4) (s : State), s.cur.serving p = none → ∃ t, exec (.verifyCompare p) s = .next t ∧ t.cur = s.cur ∧ t.vis = s.vis
      ∧ { t.cur with regs := s.cur.regs, irqSet := s.cur.irqSet, mem := s.cur.mem, fj := s.cur.fj, fth := s.cur.fth, owp := s.cur.owp } = s.cur) ∧
  (∀ (i : Fin 4096) (s : State), s.cur.ticketState i = 1 →
      (s.vis.lane (bits (s.cur.ticketNat i 0 4) 0 20)).state = .sealed ∨ (s.vis.lane (bits (s.cur.ticketNat i 0 4) 0 20)).state = .archived →
      (s.cur.ticketStep i = 32 → s.cur.ticketNat i 4 4 % 32 = 0) → ∃ t, exec (.arOpen i) s = .next t
      ∧ t.cur.get pgWarc AR_STAT_RESULT = 0 ∧ t.cur.get pgWarc AR_STAT_INDEX = i.val
      ∧ t.cur.flag pgWarc WARC_IRQ_CMD_DONE = true ∧ t.cur.ticketState i = 2
      ∧ t.cur.ticketNat i 24 8 = (s.vis.lane (bits (s.cur.ticketNat i 0 4) 0 20)).length % 2 ^ 64
      ∧ t.cur.ticketNat i 32 8 = (s.vis.lane (bits (s.cur.ticketNat i 0 4) 0 20)).sealLsn % 2 ^ 64
      ∧ t.cur.ticketNat i 12 4 = ceilDiv (bits (s.cur.ticketNat i 8 4) 0 16 + (s.vis.lane (bits (s.cur.ticketNat i 0 4) 0 20)).length + 256) 65536 % 2 ^ 32
      ∧ t.cur.owp = { s.cur.owp with tickets := s.cur.owp.tickets ++ [{ index := i, crc := crcInit (s.vis.lane (bits (s.cur.ticketNat i 0 4) 0 20)).poly, sha := Sha.start }] }
      ∧ (∀ a, a < s.cur.ticketAddr i ∨ s.cur.ticketAddr i + 64 ≤ a → memGet t.cur.mem a = memGet s.cur.mem a) ∧ t.vis = s.vis
      ∧ { t.cur with regs := s.cur.regs, irqSet := s.cur.irqSet, mem := s.cur.mem, owp := s.cur.owp } = s.cur
      ∧ (∀ a, a ≠ pgWarc + AR_CMD.off → a ≠ pgWarc + AR_STAT.off → a ≠ pgWarc + PG_IRQ_RAW.off → t.cur.rd a = s.cur.rd a)) ∧
  (∀ (i : Fin 4096) (s : State), s.cur.ticketState i ≠ 1 → ∃ t, exec (.arOpen i) s = .next t
      ∧ t.cur.get pgWarc AR_STAT_RESULT = 3 ∧ t.cur.get pgWarc AR_STAT_INDEX = i.val
      ∧ t.cur.flag pgWarc WARC_IRQ_CMD_DONE = true ∧ t.cur.mem = s.cur.mem ∧ t.cur.owp = s.cur.owp ∧ t.vis = s.vis
      ∧ { t.cur with regs := s.cur.regs, irqSet := s.cur.irqSet, mem := s.cur.mem, owp := s.cur.owp } = s.cur
      ∧ (∀ a, a ≠ pgWarc + AR_CMD.off → a ≠ pgWarc + AR_STAT.off → a ≠ pgWarc + PG_IRQ_RAW.off → t.cur.rd a = s.cur.rd a)) ∧
  (∀ (i : Fin 4096) (s : State), s.cur.ticketState i = 1 → (s.vis.lane (bits (s.cur.ticketNat i 0 4) 0 20)).state ≠ .sealed →
      (s.vis.lane (bits (s.cur.ticketNat i 0 4) 0 20)).state ≠ .archived → ∃ t, exec (.arOpen i) s = .next t
      ∧ t.cur.get pgWarc AR_STAT_RESULT = 1 ∧ t.cur.get pgWarc AR_STAT_INDEX = i.val
      ∧ t.cur.flag pgWarc WARC_IRQ_CMD_DONE = true ∧ t.cur.mem = s.cur.mem ∧ t.cur.owp = s.cur.owp ∧ t.vis = s.vis
      ∧ { t.cur with regs := s.cur.regs, irqSet := s.cur.irqSet, mem := s.cur.mem, owp := s.cur.owp } = s.cur
      ∧ (∀ a, a ≠ pgWarc + AR_CMD.off → a ≠ pgWarc + AR_STAT.off → a ≠ pgWarc + PG_IRQ_RAW.off → t.cur.rd a = s.cur.rd a)) ∧
  (∀ (i : Fin 4096) (s : State), (s.cur.ticketState i = 2 ∨ s.cur.ticketState i = 3 ∨ s.cur.ticketState i = 4) →
      ∃ t, exec (.arCancel i) s = .next t ∧ t.cur.get pgWarc AR_STAT_RESULT = 0 ∧ t.cur.get pgWarc AR_STAT_INDEX = i.val
      ∧ t.cur.flag pgWarc WARC_IRQ_CMD_DONE = true ∧ t.cur.ticketState i = 0
      ∧ (t.cur.owp = { s.cur.owp with tickets := s.cur.owp.tickets.filter (fun x => x.index != i.val) })
      ∧ (∀ a, a < s.cur.ticketAddr i ∨ s.cur.ticketAddr i + 64 ≤ a → memGet t.cur.mem a = memGet s.cur.mem a) ∧ t.vis = s.vis
      ∧ { t.cur with regs := s.cur.regs, irqSet := s.cur.irqSet, mem := s.cur.mem, owp := s.cur.owp } = s.cur
      ∧ (∀ a, a ≠ pgWarc + AR_CMD.off → a ≠ pgWarc + AR_STAT.off → a ≠ pgWarc + PG_IRQ_RAW.off → t.cur.rd a = s.cur.rd a)) ∧
  (∀ (i : Fin 4096) (s : State), ¬(s.cur.ticketState i = 2 ∨ s.cur.ticketState i = 3 ∨ s.cur.ticketState i = 4) →
      ∃ t, exec (.arCancel i) s = .next t ∧ t.cur.get pgWarc AR_STAT_RESULT = 3 ∧ t.cur.get pgWarc AR_STAT_INDEX = i.val
      ∧ t.cur.flag pgWarc WARC_IRQ_CMD_DONE = true ∧ t.cur.owp = s.cur.owp ∧ t.cur.mem = s.cur.mem ∧ t.vis = s.vis
      ∧ { t.cur with regs := s.cur.regs, irqSet := s.cur.irqSet, mem := s.cur.mem, owp := s.cur.owp } = s.cur
      ∧ (∀ a, a ≠ pgWarc + AR_CMD.off → a ≠ pgWarc + AR_STAT.off → a ≠ pgWarc + PG_IRQ_RAW.off → t.cur.rd a = s.cur.rd a)) ∧
  (∀ (i : Fin 4096) (x : Ticket) (s : State), (s.cur.owp.tickets.find? (fun x => x.index == i.val && x.signature) = some x) →
      s.vis.stg.signing = none → s.cur.get64 pgWarc AR_TBL_BASE_LO AR_TBL_BASE_HI ≠ 0 →
      ∃ t, exec (.manifestVerifyDone i) s = .next t
      ∧ (s.cur.manifestSigned x.manifest = true → t.cur.ticketState i = 3 ∧ t.cur.flag pgWarc WARC_IRQ_VERIFIED = true ∧ t.cur.fj = s.cur.fj)
      ∧ (s.cur.manifestSigned x.manifest = false → t.cur.ticketState i = 4 ∧ t.cur.flag pgWarc WARC_IRQ_FAILED = true)
      ∧ (s.cur.manifestSigned x.manifest = false → t.cur.fj.staged = s.cur.fj.staged ++ [{ gtime := s.cur.gtime48, pgId := pgIdOf pgWarc, code := 0x0803, deg := false, flt := false, data := [bits (s.cur.ticketNat i 0 4) 0 20, 3] }])
      ∧ (t.cur.owp = { s.cur.owp with tickets := s.cur.owp.tickets.filter (fun x => x.index != i.val) })
      ∧ (∀ a, a < s.cur.ticketAddr i ∨ s.cur.ticketAddr i + 64 ≤ a → memGet t.cur.mem a = memGet s.cur.mem a) ∧ t.vis = s.vis
      ∧ { t.cur with regs := s.cur.regs, irqSet := s.cur.irqSet, mem := s.cur.mem, fj := s.cur.fj, owp := s.cur.owp } = s.cur
      ∧ (∀ a, a ≠ pgWarc + PG_IRQ_RAW.off → a ≠ pgWarc + AR_COUNT_FAILED.off → t.cur.rd a = s.cur.rd a)) ∧
  (∀ (i : Fin 4096) (s : State),
      (s.cur.owp.tickets.find? (fun x => x.index == i.val && x.signature) = none ∨ s.vis.stg.signing ≠ none) →
      ∃ t, exec (.manifestVerifyDone i) s = .next t ∧ t.cur = s.cur ∧ t.vis = s.vis
      ∧ { t.cur with regs := s.cur.regs, irqSet := s.cur.irqSet, mem := s.cur.mem, fj := s.cur.fj, owp := s.cur.owp } = s.cur) ∧
  (∀ (i : Fin 4096) (s : State), s.cur.rsv.committing = false → s.cur.ticketState i = 3 →
      (s.cur.lane (bits (s.cur.ticketNat i 0 4) 0 20)).state = .sealed →
      (s.cur.lane (bits (s.cur.ticketNat i 0 4) 0 20)).sealLsn = s.cur.ticketNat i 32 8 → s.cur.flag pgRsv RSV_STAT_PF = false →
      s.cur.flag pgLdg LDG_CTL_ACCEPT_EN = true → s.cur.flag pgLdg LDG_CTL_ACTIVATE = false →
      s.vis.flag pgRsv RSV_STAT_BELOW_MIN = false → s.vis.flag pgRsv RSV_STAT_DEFICIT = false →
      s.cur.promised + s.cur.get pgRsv RSV_E_UNIT_E_REC ≤ s.vis.get pgRsv RSV_AVAIL → ∃ t, exec (.arCommit i) s = .next t
      ∧ t.cur.get pgWarc AR_STAT_RESULT = 0 ∧ t.cur.get pgWarc AR_STAT_INDEX = i.val
      ∧ t.cur.flag pgWarc WARC_IRQ_CMD_DONE = true ∧ t.cur.ticketState i = 5
      ∧ t.cur.ldg = { s.cur.ldg with background := s.cur.ldg.background ++ [{ kind := .archive (s.cur.ticketNat i 16 8), lane := bits (s.cur.ticketNat i 0 4) 0 20, bay := s.vis.bestBay, behind := s.cur.ldg.nextLsn - 1 }] }
      ∧ t.cur.owp = { s.cur.owp with commits := s.cur.owp.commits ++ [(i.val, bits (s.cur.ticketNat i 0 4) 0 20)] }
      ∧ t.cur.get pgRsv RSV_HELD_HELD_REC = (s.cur.get pgRsv RSV_HELD_HELD_REC + 1) % 2 ^ RSV_HELD_HELD_REC.width
      ∧ (∀ a, a < s.cur.ticketAddr i ∨ s.cur.ticketAddr i + 64 ≤ a → memGet t.cur.mem a = memGet s.cur.mem a) ∧ t.vis = s.vis
      ∧ { t.cur with regs := s.cur.regs, irqSet := s.cur.irqSet, mem := s.cur.mem, ldg := s.cur.ldg, owp := s.cur.owp } = s.cur
      ∧ (∀ a, a ≠ pgWarc + AR_CMD.off → a ≠ pgWarc + AR_STAT.off → a ≠ pgWarc + PG_IRQ_RAW.off → a ≠ pgRsv + RSV_HELD.off → a ≠ pgRsv + RSV_PROMISED.off → t.cur.rd a = s.cur.rd a)) ∧
  (∀ (i : Fin 4096) (s : State), s.cur.rsv.committing = false → s.cur.ticketState i = 3 →
      (s.cur.lane (bits (s.cur.ticketNat i 0 4) 0 20)).state = .sealed →
      (s.cur.lane (bits (s.cur.ticketNat i 0 4) 0 20)).sealLsn = s.cur.ticketNat i 32 8 → s.cur.flag pgRsv RSV_STAT_PF = false →
      s.cur.flag pgLdg LDG_CTL_ACCEPT_EN = true → s.cur.flag pgLdg LDG_CTL_ACTIVATE = false →
      s.vis.get pgRsv RSV_AVAIL < s.cur.promised + s.cur.get pgRsv RSV_E_UNIT_E_REC → ∃ t, exec (.arCommit i) s = .next t
      ∧ t.cur.get pgWarc AR_STAT_RESULT = 4 ∧ t.cur.get pgWarc AR_STAT_INDEX = i.val
      ∧ t.cur.flag pgWarc WARC_IRQ_CMD_DONE = true ∧ t.cur.mem = s.cur.mem ∧ t.cur.ldg = s.cur.ldg ∧ t.cur.owp = s.cur.owp
      ∧ t.vis = s.vis
      ∧ { t.cur with regs := s.cur.regs, irqSet := s.cur.irqSet, mem := s.cur.mem, ldg := s.cur.ldg, owp := s.cur.owp } = s.cur
      ∧ (∀ a, a ≠ pgWarc + AR_CMD.off → a ≠ pgWarc + AR_STAT.off → a ≠ pgWarc + PG_IRQ_RAW.off → t.cur.rd a = s.cur.rd a)) ∧
  (∀ (i : Fin 4096) (s : State), s.cur.rsv.committing = false → s.cur.ticketState i ≠ 3 → ∃ t, exec (.arCommit i) s = .next t
      ∧ t.cur.get pgWarc AR_STAT_RESULT = 3 ∧ t.cur.get pgWarc AR_STAT_INDEX = i.val
      ∧ t.cur.flag pgWarc WARC_IRQ_CMD_DONE = true ∧ t.cur.mem = s.cur.mem ∧ t.cur.ldg = s.cur.ldg ∧ t.cur.owp = s.cur.owp
      ∧ t.vis = s.vis
      ∧ { t.cur with regs := s.cur.regs, irqSet := s.cur.irqSet, mem := s.cur.mem, ldg := s.cur.ldg, owp := s.cur.owp } = s.cur
      ∧ (∀ a, a ≠ pgWarc + AR_CMD.off → a ≠ pgWarc + AR_STAT.off → a ≠ pgWarc + PG_IRQ_RAW.off → t.cur.rd a = s.cur.rd a)) ∧
  (∀ (x : BgRec) (ref : Nat) (s : State), s.cur.rsv.committing = false → s.cur.ldg.background = [x] → x.kind = .archive ref →
      s.vis.recordSettled x = true → ∃ t, exec (.archiveRecordSettle x.lane) s = .next t ∧ (t.cur.lane x.lane).state = .archived
      ∧ (t.cur.lane x.lane).discRef = ref ∧ (t.cur.lane x.lane).archived = (s.cur.lane x.lane).length
      ∧ (t.cur.lane x.lane).length = (s.cur.lane x.lane).length ∧ (t.cur.lane x.lane).settled = (s.cur.lane x.lane).settled
      ∧ (∀ m, m ≠ x.lane → t.cur.lane m = s.cur.lane m) ∧ t.cur.ldg.background = []
      ∧ (t.cur.owp.commits = s.cur.owp.commits.filter (fun c => some c != s.cur.owp.commits.find? (fun c => c.2 == x.lane)))
      ∧ t.cur.flag pgWarc WARC_IRQ_ARCHIVED = true ∧ t.cur.get pgRsv RSV_HELD_HELD_REC = s.cur.get pgRsv RSV_HELD_HELD_REC - 1
      ∧ t.vis = s.vis
      ∧ { t.cur with regs := s.cur.regs, irqSet := s.cur.irqSet, mem := s.cur.mem, ldg := s.cur.ldg, owp := s.cur.owp } = s.cur
      ∧ (∀ a, a ≠ pgWarc + PG_IRQ_RAW.off → a ≠ pgWarc + AR_COUNT_DONE.off → a ≠ pgRsv + RSV_HELD.off → a ≠ pgRsv + RSV_PROMISED.off → t.cur.rd a = s.cur.rd a)) ∧
  (∀ (n : Nat) (s : State), s.cur.ldg.background = [] → ∃ t, exec (.archiveRecordSettle n) s = .next t ∧ t.cur = s.cur
      ∧ t.vis = s.vis
      ∧ { t.cur with regs := s.cur.regs, irqSet := s.cur.irqSet, mem := s.cur.mem, ldg := s.cur.ldg, owp := s.cur.owp } = s.cur)

/-- STOP puts the port in IDLE with FOCUS, TRACKING, LENS and SPINDLE open and drives at 0, ends a running command ABORTED
and clears a driver fault whose cause is gone. FOCUS_ON, TRACK_ON, TRACK_OFF, JUMP, LAYER and LENS_HOLD act from the
states that accept them; otherwise, and while the page takes no start, they are refused with STATE, with BUSY while a
search or jump runs, after a command of the same Grain or during a burn, and with RANGE. A refusal changes only
RESULT, CMD_FAIL and the note that a command was taken. Commands that it says to complete, each on the conditions of
its clauses: opsStop, focusOn, trackOn, trackOff, jump, layer, lensHold. -/
def Obligations.PortCommands : Prop :=
  (∀ (p : Fin 4) (arg : BitVec 8) (s : State), (s.cur.optPort p).cmdTaken = false → (s.cur.optPort p).op = .none →
      ∃ t, exec (.opsStop p arg) s = .next t ∧ t.cur.get (pgOps p) OPS_STAT_STATE = 0 ∧ t.cur.get (pgOps p) OPS_STAT_RESULT = 0
      ∧ t.cur.flag (pgOps p) OPS_IRQ_CMD_DONE = true ∧ (t.cur.optPort p).op = .none ∧ t.cur.getI (pgOps p) OPS_DRIVE0_FCS = 0
      ∧ t.cur.getI (pgOps p) OPS_DRIVE0_TRK = 0 ∧ (t.cur.optPort p).demand = 0 ∧ (t.cur.optPort p).sled = none
      ∧ bit (t.cur.get (pgOps p) OPS_LOOP_CLOSED) 0 = false ∧ bit (t.cur.get (pgOps p) OPS_LOOP_CLOSED) 1 = false
      ∧ bit (t.cur.get (pgOps p) OPS_LOOP_CLOSED) 4 = false ∧ bit (t.cur.get (pgOps p) OPS_LOOP_CLOSED) 6 = false
      ∧ t.cur.getI (pgOps p) OPS_DRIVE1_TLT = s.cur.getI (pgOps p) OPS_DRIVE1_TLT
      ∧ ((s.cur.optPort p).drvFault = true → (s.cur.optPort p).drvCause = false → t.cur.flag (pgOps p) PG_STAT_FAULT = false ∧ (t.cur.optPort p).drvFault = false)
      ∧ t.vis = s.vis
      ∧ (∀ a, a ≠ pgOps p + OPS_STAT.off → a ≠ pgOps p + OPS_LOOP.off → a ≠ pgOps p + OPS_DRIVE0.off → a ≠ pgOps p + PG_IRQ_RAW.off → a ≠ pgOps p + PG_STAT.off → t.cur.rd a = s.cur.rd a)) ∧
  (∀ (p : Fin 4) (arg : BitVec 8) (s : State), (s.cur.optPort p).cmdTaken = false → (s.cur.optPort p).op ≠ .none →
      ∃ t, exec (.opsStop p arg) s = .next t ∧ t.cur.get (pgOps p) OPS_STAT_STATE = 0 ∧ t.cur.get (pgOps p) OPS_STAT_RESULT = 6
      ∧ t.cur.flag (pgOps p) OPS_IRQ_CMD_FAIL = true ∧ (t.cur.optPort p).op = .none ∧ t.cur.getI (pgOps p) OPS_DRIVE0_FCS = 0
      ∧ t.cur.getI (pgOps p) OPS_DRIVE0_TRK = 0 ∧ (t.cur.optPort p).demand = 0
      ∧ bit (t.cur.get (pgOps p) OPS_LOOP_CLOSED) 0 = false ∧ bit (t.cur.get (pgOps p) OPS_LOOP_CLOSED) 1 = false
      ∧ bit (t.cur.get (pgOps p) OPS_LOOP_CLOSED) 4 = false ∧ bit (t.cur.get (pgOps p) OPS_LOOP_CLOSED) 6 = false
      ∧ t.vis = s.vis
      ∧ (∀ a, a ≠ pgOps p + OPS_STAT.off → a ≠ pgOps p + OPS_LOOP.off → a ≠ pgOps p + OPS_DRIVE0.off → a ≠ pgOps p + PG_IRQ_RAW.off → a ≠ pgOps p + PG_STAT.off → t.cur.rd a = s.cur.rd a)) ∧
  (∀ (p : Fin 4) (arg : BitVec 8) (s : State), (s.cur.optPort p).cmdTaken = false → s.cur.get (pgOps p) OPS_STAT_STATE ≠ 7 →
      s.cur.starts (pgOps p) = true → s.vis.get (pgOps p) OPS_STAT_STATE = 0 → ∃ t, exec (.focusOn p arg) s = .next t
      ∧ t.cur.get (pgOps p) OPS_STAT_STATE = 1 ∧ t.cur.get (pgOps p) OPS_STAT_RESULT = 15
      ∧ (t.cur.optPort p).op = .search false 0 false
      ∧ t.cur.getI (pgOps p) OPS_DRIVE0_FCS = limitCode (s.cur.get (pgOps p) OPS_ILIM_FCS_MA) (s.cur.getI (pgOps p) OPS_SEARCH_FS_START)
      ∧ (t.cur.optPort p).settle = 0 ∧ t.vis = s.vis
      ∧ (∀ a, a ≠ pgOps p + OPS_STAT.off → a ≠ pgOps p + OPS_DRIVE0.off → t.cur.rd a = s.cur.rd a)) ∧
  (∀ (p : Fin 4) (arg : BitVec 8) (s : State), (s.cur.optPort p).cmdTaken = false → s.cur.get (pgOps p) OPS_STAT_STATE ≠ 7 →
      s.cur.starts (pgOps p) = true → s.vis.get (pgOps p) OPS_STAT_STATE = 2 → ∃ t, exec (.trackOn p arg) s = .next t
      ∧ t.cur.get (pgOps p) OPS_STAT_RESULT = 15 ∧ (t.cur.optPort p).op = .trackOn
      ∧ bit (t.cur.get (pgOps p) OPS_LOOP_CLOSED) 1 = true ∧ (t.cur.optPort p).settle = 0
      ∧ (t.cur.optPort p).settleFrom = s.cur.gtime + 2 ∧ t.vis = s.vis) ∧
  (∀ (p : Fin 4) (arg : BitVec 8) (s : State), (s.cur.optPort p).cmdTaken = false → s.cur.get (pgOps p) OPS_STAT_STATE ≠ 7 →
      s.cur.starts (pgOps p) = true → s.vis.get (pgOps p) OPS_STAT_STATE = 3 ∨ s.vis.get (pgOps p) OPS_STAT_STATE = 6 →
      s.vis.get (pgOwp p) WP_JOB_STAT_STATE ≠ 2 → ∃ t, exec (.trackOff p arg) s = .next t
      ∧ t.cur.get (pgOps p) OPS_STAT_STATE = 2 ∧ t.cur.get (pgOps p) OPS_STAT_RESULT = 0 ∧ (t.cur.optPort p).op = .none
      ∧ bit (t.cur.get (pgOps p) OPS_LOOP_CLOSED) 1 = false ∧ bit (t.cur.get (pgOps p) OPS_LOOP_CLOSED) 6 = false
      ∧ bit (t.cur.get (pgOps p) OPS_LOOP_CLOSED) 0 = bit (s.cur.get (pgOps p) OPS_LOOP_CLOSED) 0
      ∧ t.cur.getI (pgOps p) OPS_DRIVE0_TRK = 0 ∧ t.cur.getI (pgOps p) OPS_DRIVE0_FCS = s.cur.getI (pgOps p) OPS_DRIVE0_FCS
      ∧ t.cur.flag (pgOps p) OPS_IRQ_CMD_DONE = true ∧ t.vis = s.vis
      ∧ (∀ a, a ≠ pgOps p + OPS_STAT.off → a ≠ pgOps p + OPS_LOOP.off → a ≠ pgOps p + OPS_DRIVE0.off → a ≠ pgOps p + PG_IRQ_RAW.off → t.cur.rd a = s.cur.rd a)) ∧
  (∀ (p : Fin 4) (arg : BitVec 8) (s : State), (s.cur.optPort p).cmdTaken = false → s.cur.get (pgOps p) OPS_STAT_STATE ≠ 7 →
      s.cur.starts (pgOps p) = true → s.vis.get (pgOps p) OPS_STAT_STATE = 3 → s.vis.get (pgOwp p) WP_JOB_STAT_STATE ≠ 2 →
      (sext 8 arg.toNat) ≠ 0 → (sext 8 arg.toNat).natAbs ≤ clampN 1 127 (s.cur.get (pgOps p) OPS_JUMP_JUMP_MAX) →
      ∃ t, exec (.jump p arg) s = .next t ∧ t.cur.get (pgOps p) OPS_STAT_STATE = 4 ∧ t.cur.get (pgOps p) OPS_STAT_RESULT = 15
      ∧ bit (t.cur.get (pgOps p) OPS_LOOP_CLOSED) 1 = false
      ∧ (t.cur.optPort p).op = .jump (sext 8 arg.toNat) (s.vis.getI (pgOps p) OPS_DRIVE0_TRK) s.cur.gtime 0 .kick
      ∧ t.cur.getI (pgOps p) OPS_DRIVE0_TRK = limitCode (s.cur.get (pgOps p) OPS_ILIM_TRK_MA) (s.vis.getI (pgOps p) OPS_DRIVE0_TRK + (sext 8 arg.toNat).sign * s.cur.getI (pgOps p) OPS_JUMP_KICK)
      ∧ t.vis = s.vis
      ∧ (∀ a, a ≠ pgOps p + OPS_STAT.off → a ≠ pgOps p + OPS_LOOP.off → a ≠ pgOps p + OPS_DRIVE0.off → t.cur.rd a = s.cur.rd a)) ∧
  (∀ (p : Fin 4) (arg : BitVec 8) (s : State), (s.cur.optPort p).cmdTaken = false → s.cur.get (pgOps p) OPS_STAT_STATE ≠ 7 →
      s.cur.starts (pgOps p) = true → s.vis.get (pgOps p) OPS_STAT_STATE = 3 → s.vis.get (pgOwp p) WP_JOB_STAT_STATE ≠ 2 →
      (sext 8 arg.toNat) = 0 ∨ clampN 1 127 (s.cur.get (pgOps p) OPS_JUMP_JUMP_MAX) < (sext 8 arg.toNat).natAbs →
      ∃ t, exec (.jump p arg) s = .next t ∧ t.cur.get (pgOps p) OPS_STAT_RESULT = 7
      ∧ t.cur.get (pgOps p) OPS_STAT_STATE = s.cur.get (pgOps p) OPS_STAT_STATE ∧ t.cur.flag (pgOps p) OPS_IRQ_CMD_FAIL = true
      ∧ (t.cur.optPort p) = { (s.cur.optPort p) with cmdTaken := true } ∧ t.vis = s.vis
      ∧ (∀ a, a ≠ pgOps p + OPS_STAT.off → a ≠ pgOps p + PG_IRQ_RAW.off → t.cur.rd a = s.cur.rd a)) ∧
  (∀ (p : Fin 4) (arg : BitVec 8) (s : State), (s.cur.optPort p).cmdTaken = false → s.cur.get (pgOps p) OPS_STAT_STATE ≠ 7 →
      s.cur.starts (pgOps p) = true → s.vis.get (pgOps p) OPS_STAT_STATE = 3 → s.vis.get (pgOwp p) WP_JOB_STAT_STATE = 2 →
      ∃ t, exec (.jump p arg) s = .next t ∧ t.cur.get (pgOps p) OPS_STAT_RESULT = 1
      ∧ t.cur.get (pgOps p) OPS_STAT_STATE = s.cur.get (pgOps p) OPS_STAT_STATE ∧ t.cur.flag (pgOps p) OPS_IRQ_CMD_FAIL = true
      ∧ (t.cur.optPort p) = { (s.cur.optPort p) with cmdTaken := true } ∧ t.vis = s.vis
      ∧ (∀ a, a ≠ pgOps p + OPS_STAT.off → a ≠ pgOps p + PG_IRQ_RAW.off → t.cur.rd a = s.cur.rd a)) ∧
  (∀ (p : Fin 4) (arg : BitVec 8) (s : State), (s.cur.optPort p).cmdTaken = false → s.cur.get (pgOps p) OPS_STAT_STATE ≠ 7 →
      s.cur.starts (pgOps p) = true → s.vis.get (pgOps p) OPS_STAT_STATE = 2 ∨ s.vis.get (pgOps p) OPS_STAT_STATE = 3 →
      s.vis.get (pgOwp p) WP_JOB_STAT_STATE ≠ 2 → 0 ≤ (sext 8 arg.toNat) → (sext 8 arg.toNat) ≤ 3 →
      (sext 8 arg.toNat) ≠ s.cur.get (pgOps p) OPS_STAT_LAYER → ∃ t, exec (.layer p arg) s = .next t
      ∧ t.cur.get (pgOps p) OPS_STAT_STATE = 5 ∧ t.cur.get (pgOps p) OPS_STAT_RESULT = 15
      ∧ bit (t.cur.get (pgOps p) OPS_LOOP_CLOSED) 0 = false ∧ bit (t.cur.get (pgOps p) OPS_LOOP_CLOSED) 1 = false
      ∧ bit (t.cur.get (pgOps p) OPS_LOOP_CLOSED) 6 = false
      ∧ (t.cur.optPort p).op = .layer (sext 8 arg.toNat).toNat (s.vis.get (pgOps p) OPS_STAT_STATE == 3) (s.vis.getI (pgOps p) OPS_DRIVE0_FCS) s.cur.gtime s.cur.gtime .kick
      ∧ t.cur.getI (pgOps p) OPS_DRIVE0_FCS = limitCode (s.cur.get (pgOps p) OPS_ILIM_FCS_MA) (s.vis.getI (pgOps p) OPS_DRIVE0_FCS + s.cur.layerDir p (sext 8 arg.toNat).toNat * s.cur.getI (pgOps p) OPS_FCODE_LJ_KICK)
      ∧ t.cur.getI (pgOps p) OPS_DRIVE0_TRK = limitCode (s.cur.get (pgOps p) OPS_ILIM_TRK_MA) (s.vis.getI (pgOps p) OPS_DRIVE0_TRK)
      ∧ t.vis = s.vis
      ∧ (∀ a, a ≠ pgOps p + OPS_STAT.off → a ≠ pgOps p + OPS_LOOP.off → a ≠ pgOps p + OPS_DRIVE0.off → t.cur.rd a = s.cur.rd a)) ∧
  (∀ (p : Fin 4) (arg : BitVec 8) (s : State), (s.cur.optPort p).cmdTaken = false → s.cur.get (pgOps p) OPS_STAT_STATE ≠ 7 →
      s.cur.starts (pgOps p) = true → s.vis.get (pgOps p) OPS_STAT_STATE = 2 ∨ s.vis.get (pgOps p) OPS_STAT_STATE = 3 →
      s.vis.get (pgOwp p) WP_JOB_STAT_STATE ≠ 2 → (sext 8 arg.toNat) = s.cur.get (pgOps p) OPS_STAT_LAYER →
      ∃ t, exec (.layer p arg) s = .next t ∧ t.cur.get (pgOps p) OPS_STAT_STATE = s.cur.get (pgOps p) OPS_STAT_STATE
      ∧ t.cur.get (pgOps p) OPS_STAT_RESULT = 0 ∧ t.cur.flag (pgOps p) OPS_IRQ_CMD_DONE = true ∧ t.vis = s.vis
      ∧ (∀ a, a ≠ pgOps p + OPS_STAT.off → a ≠ pgOps p + PG_IRQ_RAW.off → t.cur.rd a = s.cur.rd a)) ∧
  (∀ (p : Fin 4) (arg : BitVec 8) (s : State), (s.cur.optPort p).cmdTaken = false → s.cur.get (pgOps p) OPS_STAT_STATE ≠ 7 →
      s.cur.starts (pgOps p) = true → s.vis.get (pgOps p) OPS_STAT_STATE = 2 ∨ s.vis.get (pgOps p) OPS_STAT_STATE = 3 →
      s.vis.get (pgOwp p) WP_JOB_STAT_STATE ≠ 2 → (sext 8 arg.toNat) < 0 ∨ 3 < (sext 8 arg.toNat) →
      ∃ t, exec (.layer p arg) s = .next t ∧ t.cur.get (pgOps p) OPS_STAT_RESULT = 7
      ∧ t.cur.get (pgOps p) OPS_STAT_STATE = s.cur.get (pgOps p) OPS_STAT_STATE ∧ t.cur.flag (pgOps p) OPS_IRQ_CMD_FAIL = true
      ∧ (t.cur.optPort p) = { (s.cur.optPort p) with cmdTaken := true } ∧ t.vis = s.vis
      ∧ (∀ a, a ≠ pgOps p + OPS_STAT.off → a ≠ pgOps p + PG_IRQ_RAW.off → t.cur.rd a = s.cur.rd a)) ∧
  (∀ (p : Fin 4) (arg : BitVec 8) (s : State), (s.cur.optPort p).cmdTaken = false → s.cur.get (pgOps p) OPS_STAT_STATE ≠ 7 →
      s.cur.starts (pgOps p) = true → s.vis.get (pgOps p) OPS_STAT_STATE = 2 ∨ s.vis.get (pgOps p) OPS_STAT_STATE = 3 →
      s.vis.get (pgOwp p) WP_JOB_STAT_STATE ≠ 2 → ∃ t, exec (.lensHold p arg) s = .next t
      ∧ t.cur.get (pgOps p) OPS_STAT_STATE = 6 ∧ t.cur.get (pgOps p) OPS_STAT_RESULT = 0 ∧ (t.cur.optPort p).op = .none
      ∧ bit (t.cur.get (pgOps p) OPS_LOOP_CLOSED) 6 = true ∧ bit (t.cur.get (pgOps p) OPS_LOOP_CLOSED) 1 = false
      ∧ t.cur.flag (pgOps p) OPS_IRQ_CMD_DONE = true ∧ t.vis = s.vis) ∧
  (∀ (p : Fin 4) (arg : BitVec 8) (s : State), (s.cur.optPort p).cmdTaken = false →
      s.cur.get (pgOps p) OPS_STAT_STATE = 7 ∨ ((s.cur.optPort p).op = .none ∧ s.vis.get (pgOps p) OPS_STAT_STATE ≠ 0) →
      ∃ t, exec (.focusOn p arg) s = .next t ∧ t.cur.get (pgOps p) OPS_STAT_RESULT = 2
      ∧ t.cur.get (pgOps p) OPS_STAT_STATE = s.cur.get (pgOps p) OPS_STAT_STATE ∧ t.cur.flag (pgOps p) OPS_IRQ_CMD_FAIL = true
      ∧ (t.cur.optPort p) = { (s.cur.optPort p) with cmdTaken := true } ∧ t.vis = s.vis
      ∧ (∀ a, a ≠ pgOps p + OPS_STAT.off → a ≠ pgOps p + PG_IRQ_RAW.off → t.cur.rd a = s.cur.rd a)) ∧
  (∀ (p : Fin 4) (arg : BitVec 8) (s : State), (s.cur.optPort p).cmdTaken = false → s.cur.get (pgOps p) OPS_STAT_STATE ≠ 7 →
      s.cur.starts (pgOps p) = false → (s.cur.optPort p).op = .none → ∃ t, exec (.focusOn p arg) s = .next t
      ∧ t.cur.get (pgOps p) OPS_STAT_RESULT = 2 ∧ t.cur.get (pgOps p) OPS_STAT_STATE = s.cur.get (pgOps p) OPS_STAT_STATE
      ∧ t.cur.flag (pgOps p) OPS_IRQ_CMD_FAIL = true ∧ (t.cur.optPort p) = { (s.cur.optPort p) with cmdTaken := true }
      ∧ t.vis = s.vis ∧ (∀ a, a ≠ pgOps p + OPS_STAT.off → a ≠ pgOps p + PG_IRQ_RAW.off → t.cur.rd a = s.cur.rd a)) ∧
  (∀ (p : Fin 4) (arg : BitVec 8) (s : State), (s.cur.optPort p).cmdTaken = false → s.cur.get (pgOps p) OPS_STAT_STATE ≠ 7 →
      s.vis.get (pgOps p) OPS_STAT_STATE = 1 ∨ s.vis.get (pgOps p) OPS_STAT_STATE = 4 ∨ s.vis.get (pgOps p) OPS_STAT_STATE = 5 →
      (s.cur.optPort p).op ≠ .none → ∃ t, exec (.focusOn p arg) s = .next t ∧ t.cur.get (pgOps p) OPS_STAT_RESULT = 1
      ∧ t.cur.get (pgOps p) OPS_STAT_STATE = s.cur.get (pgOps p) OPS_STAT_STATE ∧ t.cur.flag (pgOps p) OPS_IRQ_CMD_FAIL = true
      ∧ (t.cur.optPort p) = { (s.cur.optPort p) with cmdTaken := true } ∧ t.vis = s.vis
      ∧ (∀ a, a ≠ pgOps p + OPS_STAT.off → a ≠ pgOps p + PG_IRQ_RAW.off → t.cur.rd a = s.cur.rd a)) ∧
  (∀ (p : Fin 4) (arg : BitVec 8) (s : State), (s.cur.optPort p).cmdTaken = true → ∃ t, exec (.focusOn p arg) s = .next t
      ∧ t.cur.get (pgOps p) OPS_STAT_RESULT = 1 ∧ t.cur.get (pgOps p) OPS_STAT_STATE = s.cur.get (pgOps p) OPS_STAT_STATE
      ∧ (t.cur.optPort p) = (s.cur.optPort p) ∧ t.cur.flag (pgOps p) OPS_IRQ_CMD_FAIL = true ∧ t.vis = s.vis
      ∧ (∀ a, a ≠ pgOps p + OPS_STAT.off → a ≠ pgOps p + PG_IRQ_RAW.off → t.cur.rd a = s.cur.rd a)) ∧
  (∀ (p : Fin 4) (arg : BitVec 8) (s : State), (s.cur.optPort p).cmdTaken = false →
      s.cur.get (pgOps p) OPS_STAT_STATE = 7 ∨ ((s.cur.optPort p).op = .none ∧ s.vis.get (pgOps p) OPS_STAT_STATE ≠ 2) →
      ∃ t, exec (.trackOn p arg) s = .next t ∧ t.cur.get (pgOps p) OPS_STAT_RESULT = 2
      ∧ t.cur.get (pgOps p) OPS_STAT_STATE = s.cur.get (pgOps p) OPS_STAT_STATE ∧ t.cur.flag (pgOps p) OPS_IRQ_CMD_FAIL = true
      ∧ (t.cur.optPort p) = { (s.cur.optPort p) with cmdTaken := true } ∧ t.vis = s.vis
      ∧ (∀ a, a ≠ pgOps p + OPS_STAT.off → a ≠ pgOps p + PG_IRQ_RAW.off → t.cur.rd a = s.cur.rd a)) ∧
  (∀ (p : Fin 4) (arg : BitVec 8) (s : State), (s.cur.optPort p).cmdTaken = false → s.cur.get (pgOps p) OPS_STAT_STATE ≠ 7 →
      s.cur.starts (pgOps p) = false → (s.cur.optPort p).op = .none → ∃ t, exec (.trackOn p arg) s = .next t
      ∧ t.cur.get (pgOps p) OPS_STAT_RESULT = 2 ∧ t.cur.get (pgOps p) OPS_STAT_STATE = s.cur.get (pgOps p) OPS_STAT_STATE
      ∧ t.cur.flag (pgOps p) OPS_IRQ_CMD_FAIL = true ∧ (t.cur.optPort p) = { (s.cur.optPort p) with cmdTaken := true }
      ∧ t.vis = s.vis ∧ (∀ a, a ≠ pgOps p + OPS_STAT.off → a ≠ pgOps p + PG_IRQ_RAW.off → t.cur.rd a = s.cur.rd a)) ∧
  (∀ (p : Fin 4) (arg : BitVec 8) (s : State), (s.cur.optPort p).cmdTaken = false → s.cur.get (pgOps p) OPS_STAT_STATE ≠ 7 →
      s.vis.get (pgOps p) OPS_STAT_STATE = 1 ∨ s.vis.get (pgOps p) OPS_STAT_STATE = 4 ∨ s.vis.get (pgOps p) OPS_STAT_STATE = 5 →
      (s.cur.optPort p).op ≠ .none → ∃ t, exec (.trackOn p arg) s = .next t ∧ t.cur.get (pgOps p) OPS_STAT_RESULT = 1
      ∧ t.cur.get (pgOps p) OPS_STAT_STATE = s.cur.get (pgOps p) OPS_STAT_STATE ∧ t.cur.flag (pgOps p) OPS_IRQ_CMD_FAIL = true
      ∧ (t.cur.optPort p) = { (s.cur.optPort p) with cmdTaken := true } ∧ t.vis = s.vis
      ∧ (∀ a, a ≠ pgOps p + OPS_STAT.off → a ≠ pgOps p + PG_IRQ_RAW.off → t.cur.rd a = s.cur.rd a)) ∧
  (∀ (p : Fin 4) (arg : BitVec 8) (s : State), (s.cur.optPort p).cmdTaken = true → ∃ t, exec (.trackOn p arg) s = .next t
      ∧ t.cur.get (pgOps p) OPS_STAT_RESULT = 1 ∧ t.cur.get (pgOps p) OPS_STAT_STATE = s.cur.get (pgOps p) OPS_STAT_STATE
      ∧ (t.cur.optPort p) = (s.cur.optPort p) ∧ t.cur.flag (pgOps p) OPS_IRQ_CMD_FAIL = true ∧ t.vis = s.vis
      ∧ (∀ a, a ≠ pgOps p + OPS_STAT.off → a ≠ pgOps p + PG_IRQ_RAW.off → t.cur.rd a = s.cur.rd a)) ∧
  (∀ (p : Fin 4) (arg : BitVec 8) (s : State), (s.cur.optPort p).cmdTaken = false →
      s.cur.get (pgOps p) OPS_STAT_STATE = 7 ∨ ((s.cur.optPort p).op = .none ∧ s.vis.get (pgOps p) OPS_STAT_STATE ≠ 3 ∧ s.vis.get (pgOps p) OPS_STAT_STATE ≠ 6) →
      ∃ t, exec (.trackOff p arg) s = .next t ∧ t.cur.get (pgOps p) OPS_STAT_RESULT = 2
      ∧ t.cur.get (pgOps p) OPS_STAT_STATE = s.cur.get (pgOps p) OPS_STAT_STATE ∧ t.cur.flag (pgOps p) OPS_IRQ_CMD_FAIL = true
      ∧ (t.cur.optPort p) = { (s.cur.optPort p) with cmdTaken := true } ∧ t.vis = s.vis
      ∧ (∀ a, a ≠ pgOps p + OPS_STAT.off → a ≠ pgOps p + PG_IRQ_RAW.off → t.cur.rd a = s.cur.rd a)) ∧
  (∀ (p : Fin 4) (arg : BitVec 8) (s : State), (s.cur.optPort p).cmdTaken = false → s.cur.get (pgOps p) OPS_STAT_STATE ≠ 7 →
      s.cur.starts (pgOps p) = false → (s.cur.optPort p).op = .none → ∃ t, exec (.trackOff p arg) s = .next t
      ∧ t.cur.get (pgOps p) OPS_STAT_RESULT = 2 ∧ t.cur.get (pgOps p) OPS_STAT_STATE = s.cur.get (pgOps p) OPS_STAT_STATE
      ∧ t.cur.flag (pgOps p) OPS_IRQ_CMD_FAIL = true ∧ (t.cur.optPort p) = { (s.cur.optPort p) with cmdTaken := true }
      ∧ t.vis = s.vis ∧ (∀ a, a ≠ pgOps p + OPS_STAT.off → a ≠ pgOps p + PG_IRQ_RAW.off → t.cur.rd a = s.cur.rd a)) ∧
  (∀ (p : Fin 4) (arg : BitVec 8) (s : State), (s.cur.optPort p).cmdTaken = false → s.cur.get (pgOps p) OPS_STAT_STATE ≠ 7 →
      s.vis.get (pgOps p) OPS_STAT_STATE = 1 ∨ s.vis.get (pgOps p) OPS_STAT_STATE = 4 ∨ s.vis.get (pgOps p) OPS_STAT_STATE = 5 →
      (s.cur.optPort p).op ≠ .none → ∃ t, exec (.trackOff p arg) s = .next t ∧ t.cur.get (pgOps p) OPS_STAT_RESULT = 1
      ∧ t.cur.get (pgOps p) OPS_STAT_STATE = s.cur.get (pgOps p) OPS_STAT_STATE ∧ t.cur.flag (pgOps p) OPS_IRQ_CMD_FAIL = true
      ∧ (t.cur.optPort p) = { (s.cur.optPort p) with cmdTaken := true } ∧ t.vis = s.vis
      ∧ (∀ a, a ≠ pgOps p + OPS_STAT.off → a ≠ pgOps p + PG_IRQ_RAW.off → t.cur.rd a = s.cur.rd a)) ∧
  (∀ (p : Fin 4) (arg : BitVec 8) (s : State), (s.cur.optPort p).cmdTaken = true → ∃ t, exec (.trackOff p arg) s = .next t
      ∧ t.cur.get (pgOps p) OPS_STAT_RESULT = 1 ∧ t.cur.get (pgOps p) OPS_STAT_STATE = s.cur.get (pgOps p) OPS_STAT_STATE
      ∧ (t.cur.optPort p) = (s.cur.optPort p) ∧ t.cur.flag (pgOps p) OPS_IRQ_CMD_FAIL = true ∧ t.vis = s.vis
      ∧ (∀ a, a ≠ pgOps p + OPS_STAT.off → a ≠ pgOps p + PG_IRQ_RAW.off → t.cur.rd a = s.cur.rd a)) ∧
  (∀ (p : Fin 4) (arg : BitVec 8) (s : State), (s.cur.optPort p).cmdTaken = false →
      s.cur.get (pgOps p) OPS_STAT_STATE = 7 ∨ ((s.cur.optPort p).op = .none ∧ s.vis.get (pgOps p) OPS_STAT_STATE ≠ 3) →
      ∃ t, exec (.jump p arg) s = .next t ∧ t.cur.get (pgOps p) OPS_STAT_RESULT = 2
      ∧ t.cur.get (pgOps p) OPS_STAT_STATE = s.cur.get (pgOps p) OPS_STAT_STATE ∧ t.cur.flag (pgOps p) OPS_IRQ_CMD_FAIL = true
      ∧ (t.cur.optPort p) = { (s.cur.optPort p) with cmdTaken := true } ∧ t.vis = s.vis
      ∧ (∀ a, a ≠ pgOps p + OPS_STAT.off → a ≠ pgOps p + PG_IRQ_RAW.off → t.cur.rd a = s.cur.rd a)) ∧
  (∀ (p : Fin 4) (arg : BitVec 8) (s : State), (s.cur.optPort p).cmdTaken = false → s.cur.get (pgOps p) OPS_STAT_STATE ≠ 7 →
      s.cur.starts (pgOps p) = false → (s.cur.optPort p).op = .none → ∃ t, exec (.jump p arg) s = .next t
      ∧ t.cur.get (pgOps p) OPS_STAT_RESULT = 2 ∧ t.cur.get (pgOps p) OPS_STAT_STATE = s.cur.get (pgOps p) OPS_STAT_STATE
      ∧ t.cur.flag (pgOps p) OPS_IRQ_CMD_FAIL = true ∧ (t.cur.optPort p) = { (s.cur.optPort p) with cmdTaken := true }
      ∧ t.vis = s.vis ∧ (∀ a, a ≠ pgOps p + OPS_STAT.off → a ≠ pgOps p + PG_IRQ_RAW.off → t.cur.rd a = s.cur.rd a)) ∧
  (∀ (p : Fin 4) (arg : BitVec 8) (s : State), (s.cur.optPort p).cmdTaken = false → s.cur.get (pgOps p) OPS_STAT_STATE ≠ 7 →
      s.vis.get (pgOps p) OPS_STAT_STATE = 1 ∨ s.vis.get (pgOps p) OPS_STAT_STATE = 4 ∨ s.vis.get (pgOps p) OPS_STAT_STATE = 5 →
      (s.cur.optPort p).op ≠ .none → ∃ t, exec (.jump p arg) s = .next t ∧ t.cur.get (pgOps p) OPS_STAT_RESULT = 1
      ∧ t.cur.get (pgOps p) OPS_STAT_STATE = s.cur.get (pgOps p) OPS_STAT_STATE ∧ t.cur.flag (pgOps p) OPS_IRQ_CMD_FAIL = true
      ∧ (t.cur.optPort p) = { (s.cur.optPort p) with cmdTaken := true } ∧ t.vis = s.vis
      ∧ (∀ a, a ≠ pgOps p + OPS_STAT.off → a ≠ pgOps p + PG_IRQ_RAW.off → t.cur.rd a = s.cur.rd a)) ∧
  (∀ (p : Fin 4) (arg : BitVec 8) (s : State), (s.cur.optPort p).cmdTaken = true → ∃ t, exec (.jump p arg) s = .next t
      ∧ t.cur.get (pgOps p) OPS_STAT_RESULT = 1 ∧ t.cur.get (pgOps p) OPS_STAT_STATE = s.cur.get (pgOps p) OPS_STAT_STATE
      ∧ (t.cur.optPort p) = (s.cur.optPort p) ∧ t.cur.flag (pgOps p) OPS_IRQ_CMD_FAIL = true ∧ t.vis = s.vis
      ∧ (∀ a, a ≠ pgOps p + OPS_STAT.off → a ≠ pgOps p + PG_IRQ_RAW.off → t.cur.rd a = s.cur.rd a)) ∧
  (∀ (p : Fin 4) (arg : BitVec 8) (s : State), (s.cur.optPort p).cmdTaken = false →
      s.cur.get (pgOps p) OPS_STAT_STATE = 7 ∨ ((s.cur.optPort p).op = .none ∧ s.vis.get (pgOps p) OPS_STAT_STATE ≠ 2 ∧ s.vis.get (pgOps p) OPS_STAT_STATE ≠ 3) →
      ∃ t, exec (.layer p arg) s = .next t ∧ t.cur.get (pgOps p) OPS_STAT_RESULT = 2
      ∧ t.cur.get (pgOps p) OPS_STAT_STATE = s.cur.get (pgOps p) OPS_STAT_STATE ∧ t.cur.flag (pgOps p) OPS_IRQ_CMD_FAIL = true
      ∧ (t.cur.optPort p) = { (s.cur.optPort p) with cmdTaken := true } ∧ t.vis = s.vis
      ∧ (∀ a, a ≠ pgOps p + OPS_STAT.off → a ≠ pgOps p + PG_IRQ_RAW.off → t.cur.rd a = s.cur.rd a)) ∧
  (∀ (p : Fin 4) (arg : BitVec 8) (s : State), (s.cur.optPort p).cmdTaken = false → s.cur.get (pgOps p) OPS_STAT_STATE ≠ 7 →
      s.cur.starts (pgOps p) = false → (s.cur.optPort p).op = .none → ∃ t, exec (.layer p arg) s = .next t
      ∧ t.cur.get (pgOps p) OPS_STAT_RESULT = 2 ∧ t.cur.get (pgOps p) OPS_STAT_STATE = s.cur.get (pgOps p) OPS_STAT_STATE
      ∧ t.cur.flag (pgOps p) OPS_IRQ_CMD_FAIL = true ∧ (t.cur.optPort p) = { (s.cur.optPort p) with cmdTaken := true }
      ∧ t.vis = s.vis ∧ (∀ a, a ≠ pgOps p + OPS_STAT.off → a ≠ pgOps p + PG_IRQ_RAW.off → t.cur.rd a = s.cur.rd a)) ∧
  (∀ (p : Fin 4) (arg : BitVec 8) (s : State), (s.cur.optPort p).cmdTaken = false → s.cur.get (pgOps p) OPS_STAT_STATE ≠ 7 →
      s.vis.get (pgOps p) OPS_STAT_STATE = 1 ∨ s.vis.get (pgOps p) OPS_STAT_STATE = 4 ∨ s.vis.get (pgOps p) OPS_STAT_STATE = 5 →
      (s.cur.optPort p).op ≠ .none → ∃ t, exec (.layer p arg) s = .next t ∧ t.cur.get (pgOps p) OPS_STAT_RESULT = 1
      ∧ t.cur.get (pgOps p) OPS_STAT_STATE = s.cur.get (pgOps p) OPS_STAT_STATE ∧ t.cur.flag (pgOps p) OPS_IRQ_CMD_FAIL = true
      ∧ (t.cur.optPort p) = { (s.cur.optPort p) with cmdTaken := true } ∧ t.vis = s.vis
      ∧ (∀ a, a ≠ pgOps p + OPS_STAT.off → a ≠ pgOps p + PG_IRQ_RAW.off → t.cur.rd a = s.cur.rd a)) ∧
  (∀ (p : Fin 4) (arg : BitVec 8) (s : State), (s.cur.optPort p).cmdTaken = true → ∃ t, exec (.layer p arg) s = .next t
      ∧ t.cur.get (pgOps p) OPS_STAT_RESULT = 1 ∧ t.cur.get (pgOps p) OPS_STAT_STATE = s.cur.get (pgOps p) OPS_STAT_STATE
      ∧ (t.cur.optPort p) = (s.cur.optPort p) ∧ t.cur.flag (pgOps p) OPS_IRQ_CMD_FAIL = true ∧ t.vis = s.vis
      ∧ (∀ a, a ≠ pgOps p + OPS_STAT.off → a ≠ pgOps p + PG_IRQ_RAW.off → t.cur.rd a = s.cur.rd a)) ∧
  (∀ (p : Fin 4) (arg : BitVec 8) (s : State), (s.cur.optPort p).cmdTaken = false →
      s.cur.get (pgOps p) OPS_STAT_STATE = 7 ∨ ((s.cur.optPort p).op = .none ∧ s.vis.get (pgOps p) OPS_STAT_STATE ≠ 2 ∧ s.vis.get (pgOps p) OPS_STAT_STATE ≠ 3) →
      ∃ t, exec (.lensHold p arg) s = .next t ∧ t.cur.get (pgOps p) OPS_STAT_RESULT = 2
      ∧ t.cur.get (pgOps p) OPS_STAT_STATE = s.cur.get (pgOps p) OPS_STAT_STATE ∧ t.cur.flag (pgOps p) OPS_IRQ_CMD_FAIL = true
      ∧ (t.cur.optPort p) = { (s.cur.optPort p) with cmdTaken := true } ∧ t.vis = s.vis
      ∧ (∀ a, a ≠ pgOps p + OPS_STAT.off → a ≠ pgOps p + PG_IRQ_RAW.off → t.cur.rd a = s.cur.rd a)) ∧
  (∀ (p : Fin 4) (arg : BitVec 8) (s : State), (s.cur.optPort p).cmdTaken = false → s.cur.get (pgOps p) OPS_STAT_STATE ≠ 7 →
      s.cur.starts (pgOps p) = false → (s.cur.optPort p).op = .none → ∃ t, exec (.lensHold p arg) s = .next t
      ∧ t.cur.get (pgOps p) OPS_STAT_RESULT = 2 ∧ t.cur.get (pgOps p) OPS_STAT_STATE = s.cur.get (pgOps p) OPS_STAT_STATE
      ∧ t.cur.flag (pgOps p) OPS_IRQ_CMD_FAIL = true ∧ (t.cur.optPort p) = { (s.cur.optPort p) with cmdTaken := true }
      ∧ t.vis = s.vis ∧ (∀ a, a ≠ pgOps p + OPS_STAT.off → a ≠ pgOps p + PG_IRQ_RAW.off → t.cur.rd a = s.cur.rd a)) ∧
  (∀ (p : Fin 4) (arg : BitVec 8) (s : State), (s.cur.optPort p).cmdTaken = false → s.cur.get (pgOps p) OPS_STAT_STATE ≠ 7 →
      s.vis.get (pgOps p) OPS_STAT_STATE = 1 ∨ s.vis.get (pgOps p) OPS_STAT_STATE = 4 ∨ s.vis.get (pgOps p) OPS_STAT_STATE = 5 →
      (s.cur.optPort p).op ≠ .none → ∃ t, exec (.lensHold p arg) s = .next t ∧ t.cur.get (pgOps p) OPS_STAT_RESULT = 1
      ∧ t.cur.get (pgOps p) OPS_STAT_STATE = s.cur.get (pgOps p) OPS_STAT_STATE ∧ t.cur.flag (pgOps p) OPS_IRQ_CMD_FAIL = true
      ∧ (t.cur.optPort p) = { (s.cur.optPort p) with cmdTaken := true } ∧ t.vis = s.vis
      ∧ (∀ a, a ≠ pgOps p + OPS_STAT.off → a ≠ pgOps p + PG_IRQ_RAW.off → t.cur.rd a = s.cur.rd a)) ∧
  (∀ (p : Fin 4) (arg : BitVec 8) (s : State), (s.cur.optPort p).cmdTaken = true → ∃ t, exec (.lensHold p arg) s = .next t
      ∧ t.cur.get (pgOps p) OPS_STAT_RESULT = 1 ∧ t.cur.get (pgOps p) OPS_STAT_STATE = s.cur.get (pgOps p) OPS_STAT_STATE
      ∧ (t.cur.optPort p) = (s.cur.optPort p) ∧ t.cur.flag (pgOps p) OPS_IRQ_CMD_FAIL = true ∧ t.vis = s.vis
      ∧ (∀ a, a ≠ pgOps p + OPS_STAT.off → a ≠ pgOps p + PG_IRQ_RAW.off → t.cur.rd a = s.cur.rd a))

/-- A search counts S-curves, closes the focus loop on layer FS_LAYER at crossing FS_LAYER + 1, is FOCUSED after FOK_G
Grains in the window, sweeps back once and fails with SEARCH_FAIL. A jump brakes at |n| crossings, closes at 2|n|, is
TRACKING after TOK_G Grains and ends JUMP_FAIL after JUMP_TO_G Grains. A layer jump coasts after LJ_KICK_G Grains,
brakes once the sum has returned, coasts again after LJ_BRAKE_G and ends LAYER_FAIL after LJ_TO_G Grains. An event
that is not due changes nothing. Commands that it says to complete, each on the conditions of its clauses:
sCurveCrossing, searchSweepEnd, focusSettled, trackCrossingCount, trackingSettled, jumpTimeout, layerJumpTimeout,
layerKickEnd, layerCoastEnd, layerBrakeEnd. -/
def Obligations.SearchAndJumps : Prop :=
  (∀ (p : Fin 4) (b : Bool) (c : Nat) (s : State), (s.cur.optPort p).op = .search b c false → 0 < s.cur.sCurves p →
      c + s.cur.sCurves p < s.cur.get (pgOps p) OPS_SEARCH2_FS_LAYER + 1 → ∃ t, exec (.sCurveCrossing p) s = .next t
      ∧ (t.cur.optPort p) = { (s.cur.optPort p) with cross0 := 0, op := .search b (c + s.cur.sCurves p) false } ∧ t.vis = s.vis
      ∧ { t.cur with ell := s.cur.ell } = s.cur) ∧
  (∀ (p : Fin 4) (b : Bool) (c : Nat) (s : State), (s.cur.optPort p).op = .search b c false → 0 < s.cur.sCurves p →
      s.cur.get (pgOps p) OPS_SEARCH2_FS_LAYER + 1 ≤ c + s.cur.sCurves p → ∃ t, exec (.sCurveCrossing p) s = .next t
      ∧ (t.cur.optPort p).op = .search b (c + s.cur.sCurves p) true ∧ bit (t.cur.get (pgOps p) OPS_LOOP_CLOSED) 0 = true
      ∧ t.cur.get (pgOps p) OPS_STAT_LAYER = s.cur.get (pgOps p) OPS_SEARCH2_FS_LAYER
      ∧ t.cur.get (pgOps p) OPS_STAT_STATE = s.cur.get (pgOps p) OPS_STAT_STATE ∧ (t.cur.optPort p).settle = 0 ∧ t.vis = s.vis
      ∧ { t.cur with regs := s.cur.regs, ell := s.cur.ell } = s.cur) ∧
  (∀ (p : Fin 4) (s : State), s.cur.sCurves p = 0 → ∃ t, exec (.sCurveCrossing p) s = .next t ∧ t.cur = s.cur ∧ t.vis = s.vis
      ∧ { t.cur with regs := s.cur.regs, ell := s.cur.ell } = s.cur) ∧
  (∀ (p : Fin 4) (c : Nat) (s : State), (s.cur.optPort p).op = .search false c false →
      s.vis.getI (pgOps p) OPS_DRIVE0_FCS = limitCode (s.cur.get (pgOps p) OPS_ILIM_FCS_MA) (s.cur.getI (pgOps p) OPS_SEARCH_FS_END) →
      ∃ t, exec (.searchSweepEnd p) s = .next t ∧ (t.cur.optPort p).op = .search true 0 false
      ∧ t.cur.get (pgOps p) OPS_STAT_STATE = s.cur.get (pgOps p) OPS_STAT_STATE ∧ t.vis = s.vis
      ∧ { t.cur with regs := s.cur.regs, ell := s.cur.ell } = s.cur
      ∧ (∀ a, a ≠ pgOps p + OPS_DRIVE0.off → t.cur.rd a = s.cur.rd a)) ∧
  (∀ (p : Fin 4) (c : Nat) (s : State), (s.cur.optPort p).op = .search true c false →
      s.vis.getI (pgOps p) OPS_DRIVE0_FCS = limitCode (s.cur.get (pgOps p) OPS_ILIM_FCS_MA) (s.cur.getI (pgOps p) OPS_SEARCH_FS_START) →
      ∃ t, exec (.searchSweepEnd p) s = .next t ∧ (t.cur.optPort p).op = .none ∧ t.cur.get (pgOps p) OPS_STAT_STATE = 0
      ∧ t.cur.get (pgOps p) OPS_STAT_RESULT = 3 ∧ t.cur.getI (pgOps p) OPS_DRIVE0_FCS = 0
      ∧ t.cur.flag (pgOps p) OPS_IRQ_CMD_FAIL = true ∧ t.vis = s.vis
      ∧ { t.cur with regs := s.cur.regs, irqSet := s.cur.irqSet, ell := s.cur.ell } = s.cur
      ∧ (∀ a, a ≠ pgOps p + OPS_DRIVE0.off → a ≠ pgOps p + OPS_STAT.off → a ≠ pgOps p + PG_IRQ_RAW.off → t.cur.rd a = s.cur.rd a)) ∧
  (∀ (p : Fin 4) (c : Nat) (s : State), (s.cur.optPort p).op = .search false c false →
      s.vis.getI (pgOps p) OPS_DRIVE0_FCS ≠ limitCode (s.cur.get (pgOps p) OPS_ILIM_FCS_MA) (s.cur.getI (pgOps p) OPS_SEARCH_FS_END) →
      ∃ t, exec (.searchSweepEnd p) s = .next t ∧ t.cur = s.cur ∧ t.vis = s.vis
      ∧ { t.cur with regs := s.cur.regs, irqSet := s.cur.irqSet, ell := s.cur.ell } = s.cur) ∧
  (∀ (p : Fin 4) (b : Bool) (c : Nat) (s : State), (s.cur.optPort p).op = .search b c true →
      s.cur.get (pgOps p) OPS_TIMES_FOK_G ≤ (s.cur.optPort p).settle → ∃ t, exec (.focusSettled p) s = .next t
      ∧ t.cur.get (pgOps p) OPS_STAT_STATE = 2 ∧ t.cur.get (pgOps p) OPS_STAT_RESULT = 0 ∧ (t.cur.optPort p).op = .none
      ∧ t.cur.flag (pgOps p) OPS_IRQ_CMD_DONE = true ∧ t.vis = s.vis
      ∧ (∀ a, a ≠ pgOps p + OPS_STAT.off → a ≠ pgOps p + PG_IRQ_RAW.off → t.cur.rd a = s.cur.rd a)) ∧
  (∀ (p : Fin 4) (h : Int) (st a m : Nat) (s : State), (s.cur.optPort p).op = .layer m false h st a .focus →
      s.cur.get (pgOps p) OPS_TIMES_FOK_G ≤ (s.cur.optPort p).settle → s.cur.get (pgOps p) OPS_STAT_LAYER = m →
      ∃ t, exec (.focusSettled p) s = .next t ∧ t.cur.get (pgOps p) OPS_STAT_STATE = 2 ∧ t.cur.get (pgOps p) OPS_STAT_RESULT = 0
      ∧ (t.cur.optPort p).op = .none ∧ t.cur.flag (pgOps p) OPS_IRQ_CMD_DONE = true ∧ t.vis = s.vis
      ∧ (∀ a, a ≠ pgOps p + OPS_STAT.off → a ≠ pgOps p + PG_IRQ_RAW.off → t.cur.rd a = s.cur.rd a)) ∧
  (∀ (p : Fin 4) (h : Int) (st a m : Nat) (s : State), (s.cur.optPort p).op = .layer m true h st a .focus →
      s.cur.get (pgOps p) OPS_TIMES_FOK_G ≤ (s.cur.optPort p).settle → s.cur.get (pgOps p) OPS_STAT_LAYER = m →
      ∃ t, exec (.focusSettled p) s = .next t ∧ (t.cur.optPort p).op = .layer m true h st a .tracking
      ∧ bit (t.cur.get (pgOps p) OPS_LOOP_CLOSED) 1 = true ∧ (t.cur.optPort p).settle = 0 ∧ t.vis = s.vis) ∧
  (∀ (p : Fin 4) (b : Bool) (h : Int) (st a m : Nat) (s : State), (s.cur.optPort p).op = .layer m b h st a .focus →
      s.cur.get (pgOps p) OPS_TIMES_FOK_G ≤ (s.cur.optPort p).settle → s.cur.get (pgOps p) OPS_STAT_LAYER ≠ m →
      ∃ t, exec (.focusSettled p) s = .next t
      ∧ (t.cur.optPort p).op = .layer m b (s.vis.getI (pgOps p) OPS_DRIVE0_FCS) s.cur.gtime s.cur.gtime .kick
      ∧ bit (t.cur.get (pgOps p) OPS_LOOP_CLOSED) 0 = false
      ∧ t.cur.getI (pgOps p) OPS_DRIVE0_FCS = limitCode (s.cur.get (pgOps p) OPS_ILIM_FCS_MA) (s.vis.getI (pgOps p) OPS_DRIVE0_FCS + s.cur.layerDir p m * s.cur.getI (pgOps p) OPS_FCODE_LJ_KICK)
      ∧ t.vis = s.vis
      ∧ (∀ a, a ≠ pgOps p + OPS_DRIVE0.off → a ≠ pgOps p + OPS_STAT.off → a ≠ pgOps p + OPS_LOOP.off → t.cur.rd a = s.cur.rd a)) ∧
  (∀ (p : Fin 4) (s : State), (s.cur.optPort p).settle < s.cur.get (pgOps p) OPS_TIMES_FOK_G →
      ∃ t, exec (.focusSettled p) s = .next t ∧ t.cur = s.cur ∧ t.vis = s.vis) ∧
  (∀ (p : Fin 4) (n h : Int) (st c : Nat) (s : State), (s.cur.optPort p).op = .jump n h st c .kick → n.natAbs ≤ c →
      c < 2 * n.natAbs → ∃ t, exec (.trackCrossingCount p) s = .next t
      ∧ t.cur.getI (pgOps p) OPS_DRIVE0_TRK = limitCode (s.cur.get (pgOps p) OPS_ILIM_TRK_MA) (h - n.sign * s.cur.getI (pgOps p) OPS_JUMP_KICK)
      ∧ (t.cur.optPort p) = { (s.cur.optPort p) with op := .jump n h st c .brake } ∧ t.vis = s.vis
      ∧ { t.cur with regs := s.cur.regs, ell := s.cur.ell } = s.cur
      ∧ (∀ a, a ≠ pgOps p + OPS_DRIVE0.off → t.cur.rd a = s.cur.rd a)) ∧
  (∀ (p : Fin 4) (n h : Int) (st c : Nat) (s : State), (s.cur.optPort p).op = .jump n h st c .brake → 2 * n.natAbs ≤ c →
      ∃ t, exec (.trackCrossingCount p) s = .next t ∧ (t.cur.optPort p).op = .jump n h st c .settle
      ∧ bit (t.cur.get (pgOps p) OPS_LOOP_CLOSED) 1 = true ∧ (t.cur.optPort p).settle = 0
      ∧ (t.cur.optPort p).settleFrom = s.cur.gtime + 2 ∧ t.vis = s.vis
      ∧ { t.cur with regs := s.cur.regs, ell := s.cur.ell } = s.cur) ∧
  (∀ (p : Fin 4) (n h : Int) (st c : Nat) (s : State), (s.cur.optPort p).op = .jump n h st c .kick → c < n.natAbs →
      ∃ t, exec (.trackCrossingCount p) s = .next t ∧ t.cur = s.cur ∧ t.vis = s.vis
      ∧ { t.cur with regs := s.cur.regs, ell := s.cur.ell } = s.cur) ∧
  (∀ (p : Fin 4) (s : State), (s.cur.optPort p).op = .trackOn → s.cur.get (pgOps p) OPS_TIMES_TOK_G ≤ (s.cur.optPort p).settle →
      ∃ t, exec (.trackingSettled p) s = .next t ∧ t.cur.get (pgOps p) OPS_STAT_STATE = 3
      ∧ t.cur.get (pgOps p) OPS_STAT_RESULT = 0 ∧ (t.cur.optPort p).op = .none ∧ t.cur.flag (pgOps p) OPS_IRQ_CMD_DONE = true
      ∧ t.vis = s.vis ∧ { t.cur with regs := s.cur.regs, irqSet := s.cur.irqSet, ell := s.cur.ell } = s.cur
      ∧ (∀ a, a ≠ pgOps p + OPS_STAT.off → a ≠ pgOps p + PG_IRQ_RAW.off → t.cur.rd a = s.cur.rd a)) ∧
  (∀ (p : Fin 4) (n h : Int) (st c : Nat) (s : State), (s.cur.optPort p).op = .jump n h st c .settle →
      s.cur.get (pgOps p) OPS_TIMES_TOK_G ≤ (s.cur.optPort p).settle → ∃ t, exec (.trackingSettled p) s = .next t
      ∧ t.cur.get (pgOps p) OPS_STAT_STATE = 3 ∧ t.cur.get (pgOps p) OPS_STAT_RESULT = 0 ∧ (t.cur.optPort p).op = .none
      ∧ t.cur.flag (pgOps p) OPS_IRQ_CMD_DONE = true ∧ t.vis = s.vis
      ∧ { t.cur with regs := s.cur.regs, irqSet := s.cur.irqSet, ell := s.cur.ell } = s.cur
      ∧ (∀ a, a ≠ pgOps p + OPS_STAT.off → a ≠ pgOps p + PG_IRQ_RAW.off → t.cur.rd a = s.cur.rd a)) ∧
  (∀ (p : Fin 4) (b : Bool) (h : Int) (st a m : Nat) (s : State), (s.cur.optPort p).op = .layer m b h st a .tracking →
      s.cur.get (pgOps p) OPS_TIMES_TOK_G ≤ (s.cur.optPort p).settle → ∃ t, exec (.trackingSettled p) s = .next t
      ∧ t.cur.get (pgOps p) OPS_STAT_STATE = 3 ∧ t.cur.get (pgOps p) OPS_STAT_RESULT = 0 ∧ (t.cur.optPort p).op = .none
      ∧ t.cur.flag (pgOps p) OPS_IRQ_CMD_DONE = true ∧ t.vis = s.vis
      ∧ { t.cur with regs := s.cur.regs, irqSet := s.cur.irqSet, ell := s.cur.ell } = s.cur
      ∧ (∀ a, a ≠ pgOps p + OPS_STAT.off → a ≠ pgOps p + PG_IRQ_RAW.off → t.cur.rd a = s.cur.rd a)) ∧
  (∀ (p : Fin 4) (s : State), (s.cur.optPort p).settle < s.cur.get (pgOps p) OPS_TIMES_TOK_G →
      ∃ t, exec (.trackingSettled p) s = .next t ∧ t.cur = s.cur ∧ t.vis = s.vis
      ∧ { t.cur with regs := s.cur.regs, irqSet := s.cur.irqSet, ell := s.cur.ell } = s.cur) ∧
  (∀ (p : Fin 4) (n h : Int) (st c : Nat) (s : State), (s.cur.optPort p).op = .jump n h st c .kick → c < 2 * n.natAbs →
      st + max 1 (s.cur.get (pgOps p) OPS_TIMES_JUMP_TO_G) ≤ s.cur.gtime → ∃ t, exec (.jumpTimeout p) s = .next t
      ∧ t.cur.get (pgOps p) OPS_STAT_STATE = 2 ∧ t.cur.get (pgOps p) OPS_STAT_RESULT = 4 ∧ (t.cur.optPort p).op = .none
      ∧ t.cur.getI (pgOps p) OPS_DRIVE0_TRK = 0 ∧ t.cur.flag (pgOps p) OPS_IRQ_CMD_FAIL = true
      ∧ t.cur.fj.staged = s.cur.fj.staged ++ [{ gtime := s.cur.gtime48, pgId := pgIdOf (pgOps p), code := 0x0904, deg := false, flt := false, data := [] }]
      ∧ t.vis = s.vis ∧ { t.cur with regs := s.cur.regs, irqSet := s.cur.irqSet, fj := s.cur.fj, ell := s.cur.ell } = s.cur
      ∧ (∀ a, a ≠ pgOps p + OPS_DRIVE0.off → a ≠ pgOps p + OPS_STAT.off → a ≠ pgOps p + PG_IRQ_RAW.off → t.cur.rd a = s.cur.rd a)) ∧
  (∀ (p : Fin 4) (n h : Int) (st c : Nat) (ph : JumpPhase) (s : State), (s.cur.optPort p).op = .jump n h st c ph →
      2 * n.natAbs ≤ c ∨ s.cur.gtime < st + max 1 (s.cur.get (pgOps p) OPS_TIMES_JUMP_TO_G) →
      ∃ t, exec (.jumpTimeout p) s = .next t ∧ t.cur = s.cur ∧ t.vis = s.vis
      ∧ { t.cur with regs := s.cur.regs, irqSet := s.cur.irqSet, fj := s.cur.fj, ell := s.cur.ell } = s.cur) ∧
  (∀ (p : Fin 4) (b : Bool) (h : Int) (st a m : Nat) (ph : LayerPhase) (s : State),
      (s.cur.optPort p).op = .layer m b h st a ph → ph.isOpen = true → st + s.cur.get (pgOps p) OPS_LJ_LJ_TO_G ≤ s.cur.gtime →
      s.cur.get (pgOps p) OPS_FL_FL_ACTION = 3 → ∃ t, exec (.layerJumpTimeout p) s = .next t
      ∧ t.cur.get (pgOps p) OPS_STAT_STATE = 7 ∧ t.cur.get (pgOps p) OPS_STAT_RESULT = 5 ∧ (t.cur.optPort p).op = .none
      ∧ t.cur.flag (pgOps p) OPS_IRQ_CMD_FAIL = true ∧ t.cur.flag (pgOps p) OPS_IRQ_SAFE = true
      ∧ bit (t.cur.get (pgOps p) OPS_LOOP_CLOSED) 0 = false ∧ t.vis = s.vis
      ∧ (∀ a, a ≠ pgOps p + OPS_DRIVE0.off → a ≠ pgOps p + OPS_DRIVE1.off → a ≠ pgOps p + OPS_STAT.off → a ≠ pgOps p + OPS_LOOP.off → a ≠ pgOps p + PG_IRQ_RAW.off → t.cur.rd a = s.cur.rd a)) ∧
  (∀ (p : Fin 4) (b : Bool) (h : Int) (st a m : Nat) (ph : LayerPhase) (s : State),
      (s.cur.optPort p).op = .layer m b h st a ph → ph.isOpen = true → st + s.cur.get (pgOps p) OPS_LJ_LJ_TO_G ≤ s.cur.gtime →
      s.cur.get (pgOps p) OPS_FL_FL_ACTION = 0 → ∃ t, exec (.layerJumpTimeout p) s = .next t
      ∧ t.cur.get (pgOps p) OPS_STAT_STATE = s.cur.get (pgOps p) OPS_STAT_STATE ∧ t.cur.get (pgOps p) OPS_STAT_RESULT = 5
      ∧ (t.cur.optPort p) = { (s.cur.optPort p) with op := .none } ∧ t.cur.flag (pgOps p) OPS_IRQ_CMD_FAIL = true
      ∧ t.vis = s.vis ∧ (∀ a, a ≠ pgOps p + OPS_STAT.off → a ≠ pgOps p + PG_IRQ_RAW.off → t.cur.rd a = s.cur.rd a)) ∧
  (∀ (p : Fin 4) (b : Bool) (h : Int) (st a m : Nat) (ph : LayerPhase) (s : State),
      (s.cur.optPort p).op = .layer m b h st a ph → ph.isOpen = false ∨ s.cur.gtime < st + s.cur.get (pgOps p) OPS_LJ_LJ_TO_G →
      ∃ t, exec (.layerJumpTimeout p) s = .next t ∧ t.cur = s.cur ∧ t.vis = s.vis) ∧
  (∀ (p : Fin 4) (b : Bool) (h : Int) (st a m : Nat) (s : State), (s.cur.optPort p).op = .layer m b h st a .kick →
      st + s.cur.get (pgOps p) OPS_LJ_LJ_KICK_G ≤ s.cur.gtime → ∃ t, exec (.layerKickEnd p) s = .next t
      ∧ t.cur.getI (pgOps p) OPS_DRIVE0_FCS = limitCode (s.cur.get (pgOps p) OPS_ILIM_FCS_MA) h
      ∧ (t.cur.optPort p) = { (s.cur.optPort p) with op := .layer m b h st s.cur.gtime (.coast false) } ∧ t.vis = s.vis
      ∧ { t.cur with regs := s.cur.regs, ell := s.cur.ell } = s.cur
      ∧ (∀ a, a ≠ pgOps p + OPS_DRIVE0.off → t.cur.rd a = s.cur.rd a)) ∧
  (∀ (p : Fin 4) (b : Bool) (h : Int) (st a m : Nat) (s : State), (s.cur.optPort p).op = .layer m b h st a .kick →
      s.cur.gtime < st + s.cur.get (pgOps p) OPS_LJ_LJ_KICK_G → ∃ t, exec (.layerKickEnd p) s = .next t ∧ t.cur = s.cur
      ∧ t.vis = s.vis ∧ { t.cur with regs := s.cur.regs, ell := s.cur.ell } = s.cur) ∧
  (∀ (p : Fin 4) (b : Bool) (h : Int) (st a m : Nat) (s : State), (s.cur.optPort p).op = .layer m b h st a (.coast true) →
      s.cur.sumOn p < (s.cur.optPort p).row 7 → ∃ t, exec (.layerCoastEnd p) s = .next t
      ∧ t.cur.getI (pgOps p) OPS_DRIVE0_FCS = limitCode (s.cur.get (pgOps p) OPS_ILIM_FCS_MA) (h - s.cur.layerDir p m * s.cur.getI (pgOps p) OPS_FCODE_LJ_KICK)
      ∧ (t.cur.optPort p) = { (s.cur.optPort p) with op := .layer m b h st s.cur.gtime .brake } ∧ t.vis = s.vis
      ∧ { t.cur with regs := s.cur.regs, ell := s.cur.ell } = s.cur
      ∧ (∀ a, a ≠ pgOps p + OPS_DRIVE0.off → t.cur.rd a = s.cur.rd a)) ∧
  (∀ (p : Fin 4) (b : Bool) (h : Int) (st a m : Nat) (l : Bool) (s : State),
      (s.cur.optPort p).op = .layer m b h st a (.coast l) → l = false ∨ (s.cur.optPort p).row 7 ≤ s.cur.sumOn p →
      ∃ t, exec (.layerCoastEnd p) s = .next t ∧ t.cur = s.cur ∧ t.vis = s.vis
      ∧ { t.cur with regs := s.cur.regs, ell := s.cur.ell } = s.cur) ∧
  (∀ (p : Fin 4) (b : Bool) (h : Int) (st a m : Nat) (s : State), (s.cur.optPort p).op = .layer m b h st a .brake →
      s.cur.sCurves p = 0 → a + s.cur.get (pgOps p) OPS_LJ_LJ_BRAKE_G ≤ s.cur.gtime → ∃ t, exec (.layerBrakeEnd p) s = .next t
      ∧ t.cur.getI (pgOps p) OPS_DRIVE0_FCS = limitCode (s.cur.get (pgOps p) OPS_ILIM_FCS_MA) h
      ∧ (t.cur.optPort p) = { (s.cur.optPort p) with op := .layer m b h st a .after } ∧ t.vis = s.vis
      ∧ { t.cur with regs := s.cur.regs, ell := s.cur.ell } = s.cur
      ∧ (∀ a, a ≠ pgOps p + OPS_DRIVE0.off → t.cur.rd a = s.cur.rd a)) ∧
  (∀ (p : Fin 4) (b : Bool) (h : Int) (st a m : Nat) (s : State), (s.cur.optPort p).op = .layer m b h st a .brake →
      0 < s.cur.sCurves p → a + 2 ≤ s.cur.gtime → ∃ t, exec (.layerBrakeEnd p) s = .next t
      ∧ bit (t.cur.get (pgOps p) OPS_LOOP_CLOSED) 0 = true
      ∧ t.cur.get (pgOps p) OPS_STAT_LAYER = (s.cur.get (pgOps p) OPS_STAT_LAYER + s.cur.layerDir p m).toNat % 4
      ∧ (t.cur.optPort p).op = .layer m b h st s.cur.gtime .focus ∧ (t.cur.optPort p).settle = 0 ∧ t.vis = s.vis
      ∧ { t.cur with regs := s.cur.regs, ell := s.cur.ell } = s.cur) ∧
  (∀ (p : Fin 4) (b : Bool) (h : Int) (st a m : Nat) (s : State), (s.cur.optPort p).op = .layer m b h st a .brake →
      s.cur.sCurves p = 0 → s.cur.gtime < a + s.cur.get (pgOps p) OPS_LJ_LJ_BRAKE_G → ∃ t, exec (.layerBrakeEnd p) s = .next t
      ∧ t.cur = s.cur ∧ t.vis = s.vis ∧ { t.cur with regs := s.cur.regs, ell := s.cur.ell } = s.cur)

/-- Selecting a slot loads the shadow from its values in use, a commit with GO stages the shadow for the next edge, and
OPS_LOOP opens and closes TILT, LASER, SPINDLE and SLED except in SAFE. A table in use by a running LEARN slot refuses
data with FF_BUSY. A following error, a focus loss and a driver fault are logged and take their action; PORT_SAFE
opens every loop but SPINDLE. A failed lane is replaced by the spare, and a second one is lost. Commands that it says
to complete, each on the conditions of its clauses: ellSlotSelWrite, slotCommit, opsLoopWrite, ellFfDataWrite,
followingError, focusLoss, driverFault, servoLaneFail. -/
def Obligations.ServoSlots : Prop :=
  (∀ (e : Fin 2) (v : Word) (s : State), ∃ t, exec (.ellSlotSelWrite e v) s = .next t
      ∧ t.cur.get (pgEll e) ELL_SLOT_SEL_SLOT = (bits v.toNat 0 6)
      ∧ (t.cur.ell = (s.cur.updEngine e fun g => { g with shadow := s.vis.slotWords e (bits v.toNat 0 6) }).ell) ∧ t.vis = s.vis
      ∧ (∀ a, a ≠ pgEll e + ELL_SLOT_SEL.off → t.cur.rd a = s.cur.rd a)) ∧
  (∀ (e : Fin 2) (v : Word) (s : State), bit v.toNat 0 = true → ∃ t, exec (.slotCommit e v) s = .next t
      ∧ (t.cur.ell = (s.cur.updEngine e fun g => { g with commits := g.commits.filter (fun c => c.slot != (s.cur.get (pgEll e) ELL_SLOT_SEL_SLOT)) ++ [{ slot := (s.cur.get (pgEll e) ELL_SLOT_SEL_SLOT), words := (if (s.cur.engine e).shadow.isEmpty then s.cur.slotWords e (s.cur.get (pgEll e) ELL_SLOT_SEL_SLOT) else (s.cur.engine e).shadow), clr := bit v.toNat 1 }] }).ell)
      ∧ t.vis = s.vis) ∧
  (∀ (e : Fin 2) (v : Word) (s : State), bit v.toNat 0 = false → ∃ t, exec (.slotCommit e v) s = .next t ∧ t.cur = s.cur
      ∧ t.vis = s.vis) ∧
  (∀ (p : Fin 4) (v : Word) (s : State), s.cur.get (pgOps p) OPS_STAT_STATE ≠ 7 → s.cur.starts (pgOps p) = false →
      ∃ t, exec (.opsLoopWrite p v) s = .next t
      ∧ (∀ l ∈ [2, 3, 4, 5], t.cur.loopClosed p l = (s.cur.loopClosed p l && bit v.toNat l))
      ∧ (∀ l ∈ [0, 1, 6], t.cur.loopClosed p l = s.cur.loopClosed p l)
      ∧ t.cur.get (pgOps p) OPS_STAT_STATE = s.cur.get (pgOps p) OPS_STAT_STATE ∧ t.vis = s.vis) ∧
  (∀ (p : Fin 4) (v : Word) (s : State), s.cur.get (pgOps p) OPS_STAT_STATE ≠ 7 → s.cur.starts (pgOps p) = true →
      ∃ t, exec (.opsLoopWrite p v) s = .next t ∧ (∀ l ∈ [2, 3, 4, 5], t.cur.loopClosed p l = bit v.toNat l)
      ∧ (∀ l ∈ [0, 1, 6], t.cur.loopClosed p l = s.cur.loopClosed p l)
      ∧ t.cur.get (pgOps p) OPS_STAT_STATE = s.cur.get (pgOps p) OPS_STAT_STATE ∧ t.vis = s.vis) ∧
  (∀ (p : Fin 4) (v : Word) (s : State), s.cur.get (pgOps p) OPS_STAT_STATE = 7 → ∃ t, exec (.opsLoopWrite p v) s = .next t
      ∧ t.cur = s.cur ∧ t.vis = s.vis) ∧
  (∀ (e : Fin 2) (r : Requester) (v : Word) (s : State), s.vis.enabled (pgEll e) = false →
      ∃ t, exec (.ellFfDataWrite e r v) s = .next t ∧ t.cur.rd (pgFf e + 4 * bits (s.cur.get (pgEll e) ELL_FF_SEL_SEL) 0 9) = v
      ∧ t.vis = s.vis ∧ { t.cur with regs := s.cur.regs } = s.cur
      ∧ (∀ a, a ≠ pgFf e + 4 * bits (s.cur.get (pgEll e) ELL_FF_SEL_SEL) 0 9 → t.cur.rd a = s.cur.rd a)) ∧
  (∀ (e : Fin 2) (r : Requester) (v : Word) (i : Fin 64) (s : State), s.vis.enabled (pgEll e) = true →
      slotEn (s.vis.slotWords e i) = true → slotType (s.vis.slotWords e i) = 6 → slotLearn (s.vis.slotWords e i) = true →
      slotFfTab (s.vis.slotWords e i) = bits (s.cur.get (pgEll e) ELL_FF_SEL_SEL) 7 2 →
      s.vis.loopClosed (2 * e.val + slotPort (s.vis.slotWords e i)) (slotLoop (s.vis.slotWords e i)) = true →
      ∃ t, exec (.ellFfDataWrite e r v) s = .next t
      ∧ t.cur = s.cur.err (pgEll e) .ffBusy ELL_FF_DATA.off r.code (pgEll e + ELL_FF_DATA.off) ∧ t.vis = s.vis
      ∧ { t.cur with regs := s.cur.regs } = s.cur) ∧
  (∀ (e : Fin 2) (i : Fin 64) (s : State), slotEn (s.cur.slotWords e i) = true → slotFeEn (s.cur.slotWords e i) = true →
      s.cur.loopClosed (2 * e.val + slotPort (s.cur.slotWords e i)) (slotLoop (s.cur.slotWords e i)) = true →
      ((s.cur.engine e).slot i).follow = false → slotTimer (s.cur.slotWords e i) ≤ ((s.cur.engine e).slot i).fe →
      slotSafe (s.cur.slotWords e i) = 0 → ∃ t, exec (.followingError e i) s = .next t
      ∧ t.cur.flag (pgEll e) ELL_IRQ_FOLLOW = true
      ∧ t.cur.fj.staged = s.cur.fj.staged ++ [{ gtime := s.cur.gtime48, pgId := pgIdOf (pgEll e), code := 0x0901, deg := false, flt := false, data := [i.val, slotLoop (s.cur.slotWords e i), ofInt 32 (Dev.watchValue s.vis s.cur e i (s.cur.slotWords e i))] }]
      ∧ (t.cur.ell = (s.cur.updSlot e i fun t => { t with follow := true }).ell) ∧ t.vis = s.vis
      ∧ (∀ a, a ≠ pgEll e + PG_IRQ_RAW.off → t.cur.rd a = s.cur.rd a)) ∧
  (∀ (e : Fin 2) (i : Fin 64) (s : State), slotEn (s.cur.slotWords e i) = true → slotFeEn (s.cur.slotWords e i) = true →
      s.cur.loopClosed (2 * e.val + slotPort (s.cur.slotWords e i)) (slotLoop (s.cur.slotWords e i)) = true →
      ((s.cur.engine e).slot i).follow = false → slotTimer (s.cur.slotWords e i) ≤ ((s.cur.engine e).slot i).fe →
      slotSafe (s.cur.slotWords e i) = 1 → ∃ t, exec (.followingError e i) s = .next t
      ∧ t.cur.flag (pgEll e) ELL_IRQ_FOLLOW = true
      ∧ t.cur.fj.staged = s.cur.fj.staged ++ [{ gtime := s.cur.gtime48, pgId := pgIdOf (pgEll e), code := 0x0901, deg := false, flt := false, data := [i.val, slotLoop (s.cur.slotWords e i), ofInt 32 (Dev.watchValue s.vis s.cur e i (s.cur.slotWords e i))] }]
      ∧ (t.cur.ell = (s.cur.updSlot e i fun t => { t with follow := true, hold := true }).ell) ∧ t.vis = s.vis
      ∧ (∀ a, a ≠ pgEll e + PG_IRQ_RAW.off → t.cur.rd a = s.cur.rd a)) ∧
  (∀ (e : Fin 2) (i : Fin 64) (s : State), slotEn (s.cur.slotWords e i) = true → slotFeEn (s.cur.slotWords e i) = true →
      s.cur.loopClosed (2 * e.val + slotPort (s.cur.slotWords e i)) (slotLoop (s.cur.slotWords e i)) = true →
      ((s.cur.engine e).slot i).follow = false → slotTimer (s.cur.slotWords e i) ≤ ((s.cur.engine e).slot i).fe →
      slotSafe (s.cur.slotWords e i) = 3 → ∃ t, exec (.followingError e i) s = .next t
      ∧ t.cur.flag (pgEll e) ELL_IRQ_FOLLOW = true
      ∧ t.cur.fj.staged = s.cur.fj.staged ++ [{ gtime := s.cur.gtime48, pgId := pgIdOf (pgEll e), code := 0x0901, deg := false, flt := false, data := [i.val, slotLoop (s.cur.slotWords e i), ofInt 32 (Dev.watchValue s.vis s.cur e i (s.cur.slotWords e i))] }]
      ∧ t.cur.get (pgOps (2 * e.val + slotPort (s.cur.slotWords e i))) OPS_STAT_STATE = 7
      ∧ (∀ l ∈ [0, 1, 2, 3, 5, 6], t.cur.loopClosed (2 * e.val + slotPort (s.cur.slotWords e i)) l = false)
      ∧ t.cur.loopClosed (2 * e.val + slotPort (s.cur.slotWords e i)) 4 = s.cur.loopClosed (2 * e.val + slotPort (s.cur.slotWords e i)) 4
      ∧ t.cur.getI (pgOps (2 * e.val + slotPort (s.cur.slotWords e i))) OPS_DRIVE0_TRK = 0
      ∧ t.cur.getI (pgOps (2 * e.val + slotPort (s.cur.slotWords e i))) OPS_DRIVE1_TLT = 0 ∧ t.vis = s.vis) ∧
  (∀ (e : Fin 2) (i : Fin 64) (s : State),
      slotFeEn (s.cur.slotWords e i) = false ∨ s.cur.loopClosed (2 * e.val + slotPort (s.cur.slotWords e i)) (slotLoop (s.cur.slotWords e i)) = false ∨ ((s.cur.engine e).slot i).follow = true ∨ ((s.cur.engine e).slot i).fe < slotTimer (s.cur.slotWords e i) →
      ∃ t, exec (.followingError e i) s = .next t ∧ t.cur = s.cur ∧ t.vis = s.vis) ∧
  (∀ (p : Fin 4) (s : State), s.cur.loopClosed p 0 = true → (s.cur.optPort p).lost = false →
      max 1 (s.cur.get (pgOps p) OPS_FL_FL_G) ≤ (s.cur.optPort p).flCount → s.cur.get (pgOps p) OPS_FL_FL_ACTION = 3 →
      ∃ t, exec (.focusLoss p) s = .next t ∧ t.cur.flag (pgOps p) OPS_IRQ_FOCUS_LOST = true ∧ (t.cur.optPort p).lost = true
      ∧ t.cur.fj.staged = s.cur.fj.staged ++ [{ gtime := s.cur.gtime48, pgId := pgIdOf (pgOps p), code := 0x0902, deg := false, flt := false, data := [] }]
      ∧ t.cur.get (pgOps p) OPS_STAT_STATE = 7 ∧ t.cur.flag (pgOps p) OPS_IRQ_SAFE = true
      ∧ (∀ l ∈ [0, 1, 2, 3, 5, 6], t.cur.loopClosed p l = false) ∧ t.cur.loopClosed p 4 = s.cur.loopClosed p 4
      ∧ t.cur.getI (pgOps p) OPS_DRIVE0_TRK = 0 ∧ t.cur.getI (pgOps p) OPS_DRIVE1_TLT = 0
      ∧ t.cur.getI (pgOps p) OPS_DRIVE0_FCS = limitCode (s.cur.get (pgOps p) OPS_ILIM_FCS_MA) (s.cur.getI (pgOps p) OPS_FCODE_PARK)
      ∧ (t.cur.optPort p).op = .none ∧ (t.cur.optPort p).sled = none ∧ t.vis = s.vis
      ∧ (∀ a, a ≠ pgOps p + OPS_DRIVE0.off → a ≠ pgOps p + OPS_DRIVE1.off → a ≠ pgOps p + OPS_STAT.off → a ≠ pgOps p + OPS_LOOP.off → a ≠ pgOps p + PG_IRQ_RAW.off → t.cur.rd a = s.cur.rd a)) ∧
  (∀ (p : Fin 4) (s : State), s.cur.loopClosed p 0 = true → (s.cur.optPort p).lost = false →
      max 1 (s.cur.get (pgOps p) OPS_FL_FL_G) ≤ (s.cur.optPort p).flCount → s.cur.get (pgOps p) OPS_FL_FL_ACTION = 0 →
      ∃ t, exec (.focusLoss p) s = .next t ∧ t.cur.flag (pgOps p) OPS_IRQ_FOCUS_LOST = true ∧ (t.cur.optPort p).lost = true
      ∧ t.cur.fj.staged = s.cur.fj.staged ++ [{ gtime := s.cur.gtime48, pgId := pgIdOf (pgOps p), code := 0x0902, deg := false, flt := false, data := [] }]
      ∧ t.cur.get (pgOps p) OPS_STAT_STATE = s.cur.get (pgOps p) OPS_STAT_STATE ∧ t.cur.loopClosed p 0 = true ∧ t.vis = s.vis
      ∧ (∀ a, a ≠ pgOps p + PG_IRQ_RAW.off → t.cur.rd a = s.cur.rd a)) ∧
  (∀ (p : Fin 4) (s : State),
      s.cur.loopClosed p 0 = false ∨ (s.cur.optPort p).flCount < max 1 (s.cur.get (pgOps p) OPS_FL_FL_G) →
      ∃ t, exec (.focusLoss p) s = .next t ∧ t.cur = s.cur ∧ t.vis = s.vis) ∧
  (∀ (p : Fin 4) (s : State), ∃ t, exec (.driverFault p) s = .next t ∧ t.cur.get (pgOps p) OPS_STAT_STATE = 7
      ∧ t.cur.flag (pgOps p) OPS_IRQ_SAFE = true ∧ (∀ l ∈ [0, 1, 2, 3, 5, 6], t.cur.loopClosed p l = false)
      ∧ t.cur.loopClosed p 4 = s.cur.loopClosed p 4 ∧ t.cur.getI (pgOps p) OPS_DRIVE0_TRK = 0
      ∧ t.cur.getI (pgOps p) OPS_DRIVE1_TLT = 0
      ∧ t.cur.getI (pgOps p) OPS_DRIVE0_FCS = limitCode (s.cur.get (pgOps p) OPS_ILIM_FCS_MA) (s.cur.getI (pgOps p) OPS_FCODE_PARK)
      ∧ (t.cur.optPort p).op = .none ∧ (t.cur.optPort p).sled = none ∧ t.cur.flag (pgOps p) OPS_IRQ_DRV_FAULT = true
      ∧ t.cur.flag (pgOps p) PG_STAT_FAULT = true ∧ (t.cur.optPort p).drvFault = true
      ∧ t.cur.fj.staged = s.cur.fj.staged ++ [{ gtime := s.cur.gtime48, pgId := pgIdOf (pgOps p), code := 0x0903, deg := false, flt := true, data := [] }]
      ∧ t.vis = s.vis
      ∧ (∀ a, a ≠ pgOps p + OPS_DRIVE0.off → a ≠ pgOps p + OPS_DRIVE1.off → a ≠ pgOps p + OPS_STAT.off → a ≠ pgOps p + OPS_LOOP.off → a ≠ pgOps p + PG_IRQ_RAW.off → a ≠ pgOps p + PG_STAT.off → t.cur.rd a = s.cur.rd a)) ∧
  (∀ (e : Fin 2) (lane : Fin 8) (s : State), (s.cur.engine e).spare = none → ∃ t, exec (.servoLaneFail e lane) s = .next t
      ∧ t.cur.flag (pgEll e) ELL_STAT_SPARE_USED = true ∧ t.cur.get (pgEll e) ELL_STAT_STANDIN = lane.val
      ∧ bit (t.cur.get (pgEll e) ELL_STAT_LANE_FAILED) lane = true ∧ t.cur.flag (pgEll e) ELL_IRQ_LANE_REMAP = true
      ∧ (t.cur.ell = (s.cur.updEngine e fun g => { g with lost := true, spare := some lane.val }).ell)
      ∧ t.cur.fj.staged = s.cur.fj.staged ++ [{ gtime := s.cur.gtime48, pgId := pgIdOf (pgEll e), code := 0x0905, deg := false, flt := false, data := [lane.val] }]
      ∧ t.vis = s.vis) ∧
  (∀ (e : Fin 2) (lane : Fin 8) (s : State), (s.cur.engine e).spare ≠ none → ∃ t, exec (.servoLaneFail e lane) s = .next t
      ∧ (t.cur.engine e).lost = true ∧ bit (t.cur.engine e).dead lane = true ∧ t.cur.flag (pgEll e) PG_STAT_DEGRADED = true
      ∧ (t.cur.engine e).spare = (s.cur.engine e).spare ∧ t.vis = s.vis)

/-- COAST releases the bridges and sets OFF outside FAULT; START aligns from OFF, or runs at once under Hall commutation;
BRAKE brakes at full strength; CLEAR leaves FAULT when the cause is absent. Others are refused with STATE, CAUSE or,
as a second command of the Grain, BUSY. After ALIGN_G the ramp begins; without handover it is tried again after a
pause and then ends START_FAIL; six valid crossings enter RUN with OBS_LOCK. Commands that it says to complete, each
on the conditions of its clauses: cmtCoast, cmtStart, cmtBrake, cmtClear, alignEnd, rampEnd, startRetry,
observerHandover. -/
def Obligations.MotorCommands : Prop :=
  (∀ (c : Fin 6) (s : State), (s.cur.motor c).cmdTaken = false → s.cur.motorState c ≠ 6 → s.vis.motorState c ≠ 6 →
      ∃ t, exec (.cmtCoast c) s = .next t ∧ t.cur.motorState c = 0 ∧ (t.cur.motor c).drive = .coast ∧ (t.cur.motor c).duty = 0
      ∧ t.cur.flag (pgCmt c) CMT_STAT_OBS_LOCK = false ∧ t.cur.flag (pgCmt c) CMT_STAT_ANGLE_VALID = false
      ∧ t.cur.get (pgCmt c) CMT_STAT_RESULT = 0 ∧ t.cur.flag (pgCmt c) CMT_IRQ_CMD_DONE = true ∧ t.vis = s.vis
      ∧ { t.cur with regs := s.cur.regs, irqSet := s.cur.irqSet, cmt := s.cur.cmt } = s.cur
      ∧ (∀ a, a ≠ pgCmt c + CMT_STAT.off → a ≠ pgCmt c + PG_IRQ_RAW.off → t.cur.rd a = s.cur.rd a)) ∧
  (∀ (c : Fin 6) (s : State), (s.cur.motor c).cmdTaken = false → s.cur.motorState c = 6 → ∃ t, exec (.cmtCoast c) s = .next t
      ∧ t.cur.get (pgCmt c) CMT_STAT_RESULT = 1 ∧ t.cur.motorState c = 6 ∧ t.cur.flag (pgCmt c) CMT_IRQ_CMD_FAIL = true
      ∧ (t.cur.motor c) = { (s.cur.motor c) with cmdTaken := true } ∧ t.vis = s.vis
      ∧ { t.cur with regs := s.cur.regs, irqSet := s.cur.irqSet, cmt := s.cur.cmt } = s.cur
      ∧ (∀ a, a ≠ pgCmt c + CMT_STAT.off → a ≠ pgCmt c + PG_IRQ_RAW.off → t.cur.rd a = s.cur.rd a)) ∧
  (∀ (c : Fin 6) (s : State), (s.cur.motor c).cmdTaken = false → s.cur.motorState c ≠ 6 → s.vis.motorState c = 0 →
      s.cur.starts (pgCmt c) = true → s.cur.flag (pgCmt c) CMT_CTL_HALL_EN = false → ∃ t, exec (.cmtStart c) s = .next t
      ∧ t.cur.motorState c = 1 ∧ (t.cur.get (pgCmt c) CMT_STAT_SECTOR = (if s.cur.motorDir c then 5 else 0))
      ∧ (t.cur.motor c).drive = .motor (min 0x8000 (s.cur.get (pgCmt c) CMT_START2_START_DUTY)) ∧ (t.cur.motor c).pause = false
      ∧ (t.cur.motor c).since = s.cur.gtime ∧ (t.cur.motor c).tries = 1 ∧ t.vis = s.vis
      ∧ { t.cur with regs := s.cur.regs, cmt := s.cur.cmt } = s.cur
      ∧ (∀ a, a ≠ pgCmt c + CMT_STAT.off → t.cur.rd a = s.cur.rd a)) ∧
  (∀ (c : Fin 6) (n : Nat) (s : State), (s.cur.motor c).cmdTaken = false → s.cur.motorState c ≠ 6 → s.vis.motorState c = 0 →
      s.cur.starts (pgCmt c) = true → s.cur.flag (pgCmt c) CMT_CTL_HALL_EN = true →
      s.cur.hallSector c (s.cur.motor c).hall = some n → ∃ t, exec (.cmtStart c) s = .next t ∧ t.cur.motorState c = 3
      ∧ t.cur.get (pgCmt c) CMT_STAT_SECTOR = n ∧ t.cur.flag (pgCmt c) CMT_STAT_OBS_LOCK = false
      ∧ t.cur.flag (pgCmt c) CMT_STAT_ANGLE_VALID = true ∧ (t.cur.motor c).hallOff = false ∧ (t.cur.motor c).turn = 0
      ∧ t.cur.get (pgCmt c) CMT_STAT_RESULT = 0 ∧ t.cur.flag (pgCmt c) CMT_IRQ_CMD_DONE = true ∧ t.vis = s.vis
      ∧ { t.cur with regs := s.cur.regs, irqSet := s.cur.irqSet, cmt := s.cur.cmt } = s.cur
      ∧ (∀ a, a ≠ pgCmt c + CMT_STAT.off → a ≠ pgCmt c + PG_IRQ_RAW.off → t.cur.rd a = s.cur.rd a)) ∧
  (∀ (c : Fin 6) (s : State), (s.cur.motor c).cmdTaken = false → s.cur.motorState c ≠ 6 → s.vis.motorState c = 0 →
      s.cur.starts (pgCmt c) = true → s.cur.flag (pgCmt c) CMT_CTL_HALL_EN = true →
      s.cur.hallSector c (s.cur.motor c).hall = none → ∃ t, exec (.cmtStart c) s = .next t ∧ t.cur.motorState c = 3
      ∧ t.cur.get (pgCmt c) CMT_STAT_SECTOR = s.cur.get (pgCmt c) CMT_STAT_SECTOR
      ∧ t.cur.flag (pgCmt c) CMT_STAT_ANGLE_VALID = true ∧ (t.cur.motor c).hallOff = false
      ∧ t.cur.get (pgCmt c) CMT_STAT_RESULT = 0 ∧ t.vis = s.vis
      ∧ { t.cur with regs := s.cur.regs, irqSet := s.cur.irqSet, cmt := s.cur.cmt } = s.cur
      ∧ (∀ a, a ≠ pgCmt c + CMT_STAT.off → a ≠ pgCmt c + PG_IRQ_RAW.off → t.cur.rd a = s.cur.rd a)) ∧
  (∀ (c : Fin 6) (s : State), (s.cur.motor c).cmdTaken = false →
      s.cur.motorState c = 6 ∨ s.vis.motorState c ≠ 0 ∨ s.cur.starts (pgCmt c) = false → ∃ t, exec (.cmtStart c) s = .next t
      ∧ t.cur.get (pgCmt c) CMT_STAT_RESULT = 1 ∧ t.cur.motorState c = s.cur.motorState c
      ∧ t.cur.flag (pgCmt c) CMT_IRQ_CMD_FAIL = true ∧ (t.cur.motor c) = { (s.cur.motor c) with cmdTaken := true }
      ∧ t.vis = s.vis ∧ { t.cur with regs := s.cur.regs, irqSet := s.cur.irqSet, cmt := s.cur.cmt } = s.cur
      ∧ (∀ a, a ≠ pgCmt c + CMT_STAT.off → a ≠ pgCmt c + PG_IRQ_RAW.off → t.cur.rd a = s.cur.rd a)) ∧
  (∀ (c : Fin 6) (s : State), (s.cur.motor c).cmdTaken = false → s.cur.motorState c ≠ 6 →
      s.vis.motorState c = 2 ∨ s.vis.motorState c = 3 ∨ s.vis.motorState c = 4 → ∃ t, exec (.cmtBrake c) s = .next t
      ∧ t.cur.motorState c = 5 ∧ (t.cur.motor c).drive = Dev.brakeDrive s.vis (s.cur.motorGo c 5) c 0x8000
      ∧ (t.cur.motor c).after = .command ∧ (t.cur.motor c).measured = false ∧ (t.cur.motor c).duty = 0
      ∧ t.cur.flag (pgCmt c) CMT_STAT_OBS_LOCK = false ∧ t.cur.flag (pgCmt c) CMT_STAT_ANGLE_VALID = false ∧ t.vis = s.vis
      ∧ { t.cur with regs := s.cur.regs, cmt := s.cur.cmt } = s.cur
      ∧ (∀ a, a ≠ pgCmt c + CMT_STAT.off → t.cur.rd a = s.cur.rd a)) ∧
  (∀ (c : Fin 6) (s : State), (s.cur.motor c).cmdTaken = false →
      s.cur.motorState c = 6 ∨ (s.vis.motorState c ≠ 2 ∧ s.vis.motorState c ≠ 3 ∧ s.vis.motorState c ≠ 4) →
      ∃ t, exec (.cmtBrake c) s = .next t ∧ t.cur.get (pgCmt c) CMT_STAT_RESULT = 1 ∧ t.cur.motorState c = s.cur.motorState c
      ∧ t.cur.flag (pgCmt c) CMT_IRQ_CMD_FAIL = true ∧ (t.cur.motor c) = { (s.cur.motor c) with cmdTaken := true }
      ∧ t.vis = s.vis ∧ { t.cur with regs := s.cur.regs, irqSet := s.cur.irqSet, cmt := s.cur.cmt } = s.cur
      ∧ (∀ a, a ≠ pgCmt c + CMT_STAT.off → a ≠ pgCmt c + PG_IRQ_RAW.off → t.cur.rd a = s.cur.rd a)) ∧
  (∀ (c : Fin 6) (s : State), (s.cur.motor c).cmdTaken = false → s.cur.motorState c = 6 →
      (s.cur.get (pgCmt c) CMT_STAT_FAULT_CODE ≠ 4 ∧ (s.cur.motor c).cause = false) ∨ (s.cur.get (pgCmt c) CMT_STAT_FAULT_CODE = 4 ∧ max 1 (s.cur.get pgVbus VBUS_LIMIT_OV_G) ≤ s.cur.cmt.okCount) →
      ∃ t, exec (.cmtClear c) s = .next t ∧ t.cur.motorState c = 0 ∧ (t.cur.motor c).drive = .coast ∧ (t.cur.motor c).duty = 0
      ∧ t.cur.flag (pgCmt c) CMT_STAT_OBS_LOCK = false ∧ t.cur.flag (pgCmt c) CMT_STAT_ANGLE_VALID = false
      ∧ t.cur.get (pgCmt c) CMT_STAT_FAULT_CODE = 0 ∧ t.cur.flag (pgCmt c) PG_STAT_FAULT = false
      ∧ t.cur.get (pgCmt c) CMT_STAT_RESULT = 0 ∧ t.cur.flag (pgCmt c) CMT_IRQ_CMD_DONE = true ∧ t.vis = s.vis
      ∧ { t.cur with regs := s.cur.regs, irqSet := s.cur.irqSet, cmt := s.cur.cmt } = s.cur
      ∧ (∀ a, a ≠ pgCmt c + CMT_STAT.off → a ≠ pgCmt c + PG_IRQ_RAW.off → a ≠ pgCmt c + PG_STAT.off → t.cur.rd a = s.cur.rd a)) ∧
  (∀ (c : Fin 6) (s : State), (s.cur.motor c).cmdTaken = false → s.cur.motorState c = 6 →
      (s.cur.get (pgCmt c) CMT_STAT_FAULT_CODE ≠ 4 ∧ (s.cur.motor c).cause = true) ∨ (s.cur.get (pgCmt c) CMT_STAT_FAULT_CODE = 4 ∧ s.cur.cmt.okCount < max 1 (s.cur.get pgVbus VBUS_LIMIT_OV_G)) →
      ∃ t, exec (.cmtClear c) s = .next t ∧ t.cur.motorState c = 6 ∧ t.cur.get (pgCmt c) CMT_STAT_RESULT = 4
      ∧ t.cur.flag (pgCmt c) CMT_IRQ_CMD_FAIL = true ∧ (t.cur.motor c) = { (s.cur.motor c) with cmdTaken := true }
      ∧ t.vis = s.vis ∧ { t.cur with regs := s.cur.regs, irqSet := s.cur.irqSet, cmt := s.cur.cmt } = s.cur
      ∧ (∀ a, a ≠ pgCmt c + CMT_STAT.off → a ≠ pgCmt c + PG_IRQ_RAW.off → t.cur.rd a = s.cur.rd a)) ∧
  (∀ (c : Fin 6) (s : State), (s.cur.motor c).cmdTaken = false → s.cur.motorState c ≠ 6 → s.vis.motorState c ≠ 6 →
      ∃ t, exec (.cmtClear c) s = .next t ∧ t.cur.get (pgCmt c) CMT_STAT_RESULT = 1 ∧ t.cur.motorState c = s.cur.motorState c
      ∧ t.cur.flag (pgCmt c) CMT_IRQ_CMD_FAIL = true ∧ t.vis = s.vis
      ∧ { t.cur with regs := s.cur.regs, irqSet := s.cur.irqSet, cmt := s.cur.cmt } = s.cur
      ∧ (∀ a, a ≠ pgCmt c + CMT_STAT.off → a ≠ pgCmt c + PG_IRQ_RAW.off → t.cur.rd a = s.cur.rd a)) ∧
  (∀ (c : Fin 6) (s : State), (s.cur.motor c).cmdTaken = true → ∃ t, exec (.cmtCoast c) s = .next t
      ∧ t.cur.get (pgCmt c) CMT_STAT_RESULT = 2 ∧ t.cur.motorState c = s.cur.motorState c ∧ (t.cur.motor c) = (s.cur.motor c)
      ∧ t.cur.flag (pgCmt c) CMT_IRQ_CMD_FAIL = true ∧ t.vis = s.vis
      ∧ { t.cur with regs := s.cur.regs, irqSet := s.cur.irqSet, cmt := s.cur.cmt } = s.cur
      ∧ (∀ a, a ≠ pgCmt c + CMT_STAT.off → a ≠ pgCmt c + PG_IRQ_RAW.off → t.cur.rd a = s.cur.rd a)) ∧
  (∀ (c : Fin 6) (s : State), (s.cur.motor c).cmdTaken = true → ∃ t, exec (.cmtStart c) s = .next t
      ∧ t.cur.get (pgCmt c) CMT_STAT_RESULT = 2 ∧ t.cur.motorState c = s.cur.motorState c ∧ (t.cur.motor c) = (s.cur.motor c)
      ∧ t.cur.flag (pgCmt c) CMT_IRQ_CMD_FAIL = true ∧ t.vis = s.vis
      ∧ { t.cur with regs := s.cur.regs, irqSet := s.cur.irqSet, cmt := s.cur.cmt } = s.cur
      ∧ (∀ a, a ≠ pgCmt c + CMT_STAT.off → a ≠ pgCmt c + PG_IRQ_RAW.off → t.cur.rd a = s.cur.rd a)) ∧
  (∀ (c : Fin 6) (s : State), (s.cur.motor c).cmdTaken = true → ∃ t, exec (.cmtBrake c) s = .next t
      ∧ t.cur.get (pgCmt c) CMT_STAT_RESULT = 2 ∧ t.cur.motorState c = s.cur.motorState c ∧ (t.cur.motor c) = (s.cur.motor c)
      ∧ t.cur.flag (pgCmt c) CMT_IRQ_CMD_FAIL = true ∧ t.vis = s.vis
      ∧ { t.cur with regs := s.cur.regs, irqSet := s.cur.irqSet, cmt := s.cur.cmt } = s.cur
      ∧ (∀ a, a ≠ pgCmt c + CMT_STAT.off → a ≠ pgCmt c + PG_IRQ_RAW.off → t.cur.rd a = s.cur.rd a)) ∧
  (∀ (c : Fin 6) (s : State), (s.cur.motor c).cmdTaken = true → ∃ t, exec (.cmtClear c) s = .next t
      ∧ t.cur.get (pgCmt c) CMT_STAT_RESULT = 2 ∧ t.cur.motorState c = s.cur.motorState c ∧ (t.cur.motor c) = (s.cur.motor c)
      ∧ t.cur.flag (pgCmt c) CMT_IRQ_CMD_FAIL = true ∧ t.vis = s.vis
      ∧ { t.cur with regs := s.cur.regs, irqSet := s.cur.irqSet, cmt := s.cur.cmt } = s.cur
      ∧ (∀ a, a ≠ pgCmt c + CMT_STAT.off → a ≠ pgCmt c + PG_IRQ_RAW.off → t.cur.rd a = s.cur.rd a)) ∧
  (∀ (c : Fin 6) (s : State), s.cur.motorState c = 1 →
      (s.cur.motor c).since + s.cur.get (pgCmt c) CMT_START0_ALIGN_G ≤ s.cur.gtime → ∃ t, exec (.alignEnd c) s = .next t
      ∧ t.cur.motorState c = 2 ∧ (t.cur.motor c).run = 0 ∧ (t.cur.motor c).since = s.cur.gtime
      ∧ (t.cur.motor c).drive = (s.cur.motor c).drive ∧ t.vis = s.vis
      ∧ { t.cur with regs := s.cur.regs, cmt := s.cur.cmt } = s.cur
      ∧ (∀ a, a ≠ pgCmt c + CMT_STAT.off → t.cur.rd a = s.cur.rd a)) ∧
  (∀ (c : Fin 6) (s : State),
      s.cur.motorState c ≠ 1 ∨ s.cur.gtime < (s.cur.motor c).since + s.cur.get (pgCmt c) CMT_START0_ALIGN_G →
      ∃ t, exec (.alignEnd c) s = .next t ∧ t.cur = s.cur ∧ t.vis = s.vis
      ∧ { t.cur with regs := s.cur.regs, cmt := s.cur.cmt } = s.cur) ∧
  (∀ (c : Fin 6) (s : State), s.cur.motorState c = 2 → (s.cur.motor c).pause = false →
      (s.cur.motor c).since + max 1 (s.cur.get (pgCmt c) CMT_START0_RAMP_G) ≤ s.cur.gtime →
      (s.cur.motor c).tries < max 1 (s.cur.get (pgCmt c) CMT_START2_START_TRIES) → ∃ t, exec (.rampEnd c) s = .next t
      ∧ t.cur.motorState c = 2
      ∧ (t.cur.motor c) = { (s.cur.motor c) with drive := .coast, duty := 0, plan := none, pause := true, since := s.cur.gtime }
      ∧ t.vis = s.vis ∧ { t.cur with cmt := s.cur.cmt } = s.cur) ∧
  (∀ (c : Fin 6) (s : State), s.cur.motorState c = 2 → (s.cur.motor c).pause = false →
      (s.cur.motor c).since + max 1 (s.cur.get (pgCmt c) CMT_START0_RAMP_G) ≤ s.cur.gtime →
      max 1 (s.cur.get (pgCmt c) CMT_START2_START_TRIES) ≤ (s.cur.motor c).tries → ∃ t, exec (.rampEnd c) s = .next t
      ∧ t.cur.motorState c = 6 ∧ (t.cur.motor c).drive = .coast ∧ (t.cur.motor c).duty = 0
      ∧ t.cur.flag (pgCmt c) CMT_STAT_OBS_LOCK = false ∧ t.cur.flag (pgCmt c) CMT_STAT_ANGLE_VALID = false
      ∧ t.cur.get (pgCmt c) CMT_STAT_FAULT_CODE = 1 ∧ t.cur.flag (pgCmt c) CMT_IRQ_CMD_FAIL = true
      ∧ t.cur.fj.staged = s.cur.fj.staged ++ [{ gtime := s.cur.gtime48, pgId := pgIdOf (pgCmt c), code := 0x0A01, deg := false, flt := false, data := [] }]
      ∧ t.vis = s.vis ∧ { t.cur with regs := s.cur.regs, irqSet := s.cur.irqSet, fj := s.cur.fj, cmt := s.cur.cmt } = s.cur
      ∧ (∀ a, a ≠ pgCmt c + CMT_STAT.off → a ≠ pgCmt c + PG_IRQ_RAW.off → t.cur.rd a = s.cur.rd a)) ∧
  (∀ (c : Fin 6) (s : State),
      s.cur.motorState c ≠ 2 ∨ (s.cur.motor c).pause = true ∨ s.cur.gtime < (s.cur.motor c).since + max 1 (s.cur.get (pgCmt c) CMT_START0_RAMP_G) →
      ∃ t, exec (.rampEnd c) s = .next t ∧ t.cur = s.cur ∧ t.vis = s.vis
      ∧ { t.cur with regs := s.cur.regs, irqSet := s.cur.irqSet, fj := s.cur.fj, cmt := s.cur.cmt } = s.cur) ∧
  (∀ (c : Fin 6) (s : State), (s.cur.motor c).pause = true →
      (s.cur.motor c).since + s.cur.get (pgCmt c) CMT_START0_ALIGN_G ≤ s.cur.gtime → ∃ t, exec (.startRetry c) s = .next t
      ∧ t.cur.motorState c = 1 ∧ (t.cur.get (pgCmt c) CMT_STAT_SECTOR = (if s.cur.motorDir c then 5 else 0))
      ∧ (t.cur.motor c).drive = .motor (min 0x8000 (s.cur.get (pgCmt c) CMT_START2_START_DUTY)) ∧ (t.cur.motor c).pause = false
      ∧ (t.cur.motor c).since = s.cur.gtime ∧ (t.cur.motor c).tries = (s.cur.motor c).tries + 1 ∧ t.vis = s.vis
      ∧ { t.cur with regs := s.cur.regs, cmt := s.cur.cmt } = s.cur
      ∧ (∀ a, a ≠ pgCmt c + CMT_STAT.off → t.cur.rd a = s.cur.rd a)) ∧
  (∀ (c : Fin 6) (s : State),
      (s.cur.motor c).pause = false ∨ s.cur.gtime < (s.cur.motor c).since + s.cur.get (pgCmt c) CMT_START0_ALIGN_G →
      ∃ t, exec (.startRetry c) s = .next t ∧ t.cur = s.cur ∧ t.vis = s.vis
      ∧ { t.cur with regs := s.cur.regs, cmt := s.cur.cmt } = s.cur) ∧
  (∀ (c : Fin 6) (s : State), s.cur.motorState c = 2 → (s.cur.motor c).pause = false → 6 ≤ (s.cur.motor c).run →
      ∃ t, exec (.observerHandover c) s = .next t ∧ t.cur.motorState c = 3 ∧ t.cur.flag (pgCmt c) CMT_STAT_OBS_LOCK = true
      ∧ t.cur.flag (pgCmt c) CMT_STAT_ANGLE_VALID = true ∧ (t.cur.motor c).turn = 0 ∧ (t.cur.motor c).missed = 0
      ∧ t.cur.get (pgCmt c) CMT_STAT_RESULT = 0 ∧ t.cur.flag (pgCmt c) CMT_IRQ_CMD_DONE = true ∧ t.vis = s.vis
      ∧ { t.cur with regs := s.cur.regs, irqSet := s.cur.irqSet, cmt := s.cur.cmt } = s.cur
      ∧ (∀ a, a ≠ pgCmt c + CMT_STAT.off → a ≠ pgCmt c + PG_IRQ_RAW.off → t.cur.rd a = s.cur.rd a)) ∧
  (∀ (c : Fin 6) (s : State), s.cur.motorState c ≠ 2 ∨ (s.cur.motor c).pause = true ∨ (s.cur.motor c).run < 6 →
      ∃ t, exec (.observerHandover c) s = .next t ∧ t.cur = s.cur ∧ t.vis = s.vis
      ∧ { t.cur with regs := s.cur.regs, irqSet := s.cur.irqSet, cmt := s.cur.cmt } = s.cur)

/-- A valid crossing updates the period estimate and plans the commutation T/2 less the advance after it; a due plan
advances the sector, late ones at the edge and counted. A missed window commutates as a flywheel. MISS_MAX missed
sectors, or a period below 24 µs, release the gates and enter CATCH with CMT_ROTOR_LOST. A catch re-enters RUN at a
duty that matches the back-EMF, and a failed one brakes. A stopped brake goes OFF or restarts, a late one ends LOCKED,
as a rotor without events does. Hall edges set the sector or raise CMT_HALL. Commands that it says to complete, each
on the conditions of its clauses: bemfCrossing, commutation, crossingWindowMiss, rotorLost, catchSuccess, catchFail,
brakeSpeedWindow, brakeStopped, brakeTimeout, lockedRotor, hallEdge. -/
def Obligations.Commutation : Prop :=
  (∀ (c : Fin 6) (a : Fin 400) (r cl : Bool) (s : State), s.cur.motorState c = 3 →
      s.cur.flag (pgCmt c) CMT_STAT_OBS_LOCK = true → s.cur.crossingValid c ((s.cur.gtime - 1) * 400 + a.val) r cl = true →
      ∃ t, exec (.bemfCrossing c a r cl) s = .next t
      ∧ (t.cur.motor c) = { (s.cur.motor c).observe ((s.cur.gtime - 1) * 400 + a.val) s.cur.gtime with run := (s.cur.motor c).run + 1, plan := (t.cur.motor c).plan }
      ∧ (t.cur.motor c).plan = some (((s.cur.gtime - 1) * 400 + a.val) + (t.cur.motor c).period / 2 - min 64 (s.cur.get (pgCmt c) CMT_COMM_ADV) * (t.cur.motor c).period / 256)
      ∧ t.vis = s.vis ∧ { t.cur with cmt := s.cur.cmt } = s.cur) ∧
  (∀ (c : Fin 6) (a : Fin 400) (r cl : Bool) (s : State), s.cur.motorState c = 2 → (s.cur.motor c).pause = false →
      s.cur.crossingValid c ((s.cur.gtime - 1) * 400 + a.val) r cl = true → ∃ t, exec (.bemfCrossing c a r cl) s = .next t
      ∧ (t.cur.motor c) = { (s.cur.motor c).observe ((s.cur.gtime - 1) * 400 + a.val) s.cur.gtime with run := (s.cur.motor c).run + 1, plan := (t.cur.motor c).plan }
      ∧ (6 ≤ (s.cur.motor c).run + 1 → (t.cur.motor c).plan = some (((s.cur.gtime - 1) * 400 + a.val) + (t.cur.motor c).period / 2 - min 64 (s.cur.get (pgCmt c) CMT_COMM_ADV) * (t.cur.motor c).period / 256))
      ∧ ((s.cur.motor c).run + 1 < 6 → (t.cur.motor c).plan = (s.cur.motor c).plan) ∧ t.vis = s.vis
      ∧ { t.cur with cmt := s.cur.cmt } = s.cur) ∧
  (∀ (c : Fin 6) (a : Fin 400) (r cl : Bool) (s : State), s.cur.motorState c = 2 → (s.cur.motor c).pause = false →
      s.cur.crossingValid c ((s.cur.gtime - 1) * 400 + a.val) r cl = false → ∃ t, exec (.bemfCrossing c a r cl) s = .next t
      ∧ (t.cur.motor c) = { (s.cur.motor c) with run := 0 } ∧ t.vis = s.vis ∧ { t.cur with cmt := s.cur.cmt } = s.cur) ∧
  (∀ (c : Fin 6) (a : Fin 400) (r cl : Bool) (s : State), s.cur.motorState c = 3 →
      s.cur.crossingValid c ((s.cur.gtime - 1) * 400 + a.val) r cl = false → ∃ t, exec (.bemfCrossing c a r cl) s = .next t
      ∧ t.cur = s.cur ∧ t.vis = s.vis ∧ { t.cur with cmt := s.cur.cmt } = s.cur) ∧
  (∀ (c : Fin 6) (x : Nat) (s : State), s.cur.motorState c = 3 → (s.cur.motor c).plan = some x → ((s.cur.gtime + 1) * 400) ≤ x →
      x < ((s.cur.gtime + 1) * 400) + 400 → ∃ t, exec (.commutation c) s = .next t
      ∧ t.cur.get (pgCmt c) CMT_STAT_SECTOR = s.cur.nextSector c (s.cur.sector c) ∧ (t.cur.motor c).plan = none
      ∧ (t.cur.motor c).commAt = x ∧ (t.cur.motor c).turn = ((s.cur.motor c).turn + 1) % (6 * s.cur.polePairs c)
      ∧ (t.cur.motor c).comms = (s.cur.motor c).comms + 1 ∧ (t.cur.motor c).lateAcc = (s.cur.motor c).lateAcc ∧ t.vis = s.vis
      ∧ { t.cur with regs := s.cur.regs, cmt := s.cur.cmt } = s.cur
      ∧ (∀ a, a ≠ pgCmt c + CMT_STAT.off → t.cur.rd a = s.cur.rd a)) ∧
  (∀ (c : Fin 6) (x : Nat) (s : State), s.cur.motorState c = 3 → (s.cur.motor c).plan = some x → x < ((s.cur.gtime + 1) * 400) →
      ∃ t, exec (.commutation c) s = .next t ∧ t.cur.get (pgCmt c) CMT_STAT_SECTOR = s.cur.nextSector c (s.cur.sector c)
      ∧ (t.cur.motor c).plan = none ∧ (t.cur.motor c).commAt = ((s.cur.gtime + 1) * 400)
      ∧ (t.cur.motor c).turn = ((s.cur.motor c).turn + 1) % (6 * s.cur.polePairs c)
      ∧ (t.cur.motor c).comms = (s.cur.motor c).comms + 1 ∧ (t.cur.motor c).lateAcc = (s.cur.motor c).lateAcc + 1
      ∧ t.vis = s.vis ∧ { t.cur with regs := s.cur.regs, cmt := s.cur.cmt } = s.cur
      ∧ (∀ a, a ≠ pgCmt c + CMT_STAT.off → t.cur.rd a = s.cur.rd a)) ∧
  (∀ (c : Fin 6) (x : Nat) (s : State), (s.cur.motor c).plan = some x → ((s.cur.gtime + 1) * 400) + 400 ≤ x →
      ∃ t, exec (.commutation c) s = .next t ∧ t.cur = s.cur ∧ t.vis = s.vis
      ∧ { t.cur with regs := s.cur.regs, cmt := s.cur.cmt } = s.cur) ∧
  (∀ (c : Fin 6) (x : Nat) (s : State), s.cur.motorState c = 3 → s.cur.flag (pgCmt c) CMT_STAT_OBS_LOCK = true →
      (s.cur.motor c).predicted = some x → x + s.cur.halfWindow c < s.cur.gtime * 400 →
      ∃ t, exec (.crossingWindowMiss c) s = .next t
      ∧ (t.cur.motor c) = { (s.cur.motor c) with lastX := some x, plan := some (s.cur.commutationAt c x), missed := (s.cur.motor c).missed + 1, missAcc := (s.cur.motor c).missAcc + 1 }
      ∧ t.vis = s.vis ∧ { t.cur with cmt := s.cur.cmt } = s.cur) ∧
  (∀ (c : Fin 6) (x : Nat) (s : State), (s.cur.motor c).predicted = some x → s.cur.gtime * 400 ≤ x + s.cur.halfWindow c →
      ∃ t, exec (.crossingWindowMiss c) s = .next t ∧ t.cur = s.cur ∧ t.vis = s.vis ∧ { t.cur with cmt := s.cur.cmt } = s.cur) ∧
  (∀ (c : Fin 6) (s : State), s.cur.motorState c = 3 → s.cur.flag (pgCmt c) CMT_STAT_OBS_LOCK = true →
      max 1 (s.cur.get (pgCmt c) CMT_OBS_MISS_MAX) ≤ (s.cur.motor c).missed ∨ ((s.cur.motor c).gaps.length = 2 ∧ (s.cur.motor c).period < 2400) →
      ∃ t, exec (.rotorLost c) s = .next t ∧ t.cur.motorState c = 4 ∧ (t.cur.motor c).drive = .coast ∧ (t.cur.motor c).duty = 0
      ∧ t.cur.flag (pgCmt c) CMT_STAT_OBS_LOCK = false ∧ t.cur.flag (pgCmt c) CMT_STAT_ANGLE_VALID = false
      ∧ t.cur.flag (pgCmt c) CMT_IRQ_ROTOR_LOST = true
      ∧ t.cur.fj.staged = s.cur.fj.staged ++ [{ gtime := s.cur.gtime48, pgId := pgIdOf (pgCmt c), code := 0x0A02, deg := false, flt := false, data := [s.cur.get (pgCmt c) CMT_SPEED_RPM, ofInt 16 (s.cur.motor c).duty] }]
      ∧ t.vis = s.vis ∧ { t.cur with regs := s.cur.regs, irqSet := s.cur.irqSet, fj := s.cur.fj, cmt := s.cur.cmt } = s.cur
      ∧ (∀ a, a ≠ pgCmt c + CMT_STAT.off → a ≠ pgCmt c + PG_IRQ_RAW.off → t.cur.rd a = s.cur.rd a)) ∧
  (∀ (c : Fin 6) (s : State),
      s.cur.motorState c ≠ 3 ∨ ((s.cur.motor c).missed < max 1 (s.cur.get (pgCmt c) CMT_OBS_MISS_MAX) ∧ 2400 ≤ (s.cur.motor c).period) →
      ∃ t, exec (.rotorLost c) s = .next t ∧ t.cur = s.cur ∧ t.vis = s.vis
      ∧ { t.cur with regs := s.cur.regs, irqSet := s.cur.irqSet, fj := s.cur.fj, cmt := s.cur.cmt } = s.cur) ∧
  (∀ (c : Fin 6) (x : Nat) (n : Fin 6) (s : State), s.cur.motorState c = 4 →
      s.cur.get (pgCmt c) CMT_CATCH_CATCH_MIN_RPM ≤ s.cur.rpmOf c x → ∃ t, exec (.catchSuccess c true x n) s = .next t
      ∧ t.cur.motorState c = 3 ∧ t.cur.flag (pgCmt c) CMT_STAT_OBS_LOCK = true
      ∧ t.cur.flag (pgCmt c) CMT_STAT_ANGLE_VALID = true ∧ t.cur.get (pgCmt c) CMT_STAT_SECTOR = n.val
      ∧ t.cur.get (pgCmt c) CMT_SPEED_RPM = min 0xFFFF (s.cur.rpmOf c x)
      ∧ ((t.cur.motor c).duty = ((let mv := s.cur.get pgVbus VBUS_VMAX_VMAX_MV; if mv = 0 then 0 else min 0x7FFF (s.cur.rpmOf c x * s.cur.get (pgCmt c) CMT_KE_KE_MV * 32768 / (1000 * mv))) : Nat))
      ∧ ((t.cur.motor c).drive = .motor (let mv := s.cur.get pgVbus VBUS_VMAX_VMAX_MV; if mv = 0 then 0 else min 0x7FFF (s.cur.rpmOf c x * s.cur.get (pgCmt c) CMT_KE_KE_MV * 32768 / (1000 * mv))))
      ∧ (t.cur.motor c).period = x ∧ t.vis = s.vis ∧ { t.cur with regs := s.cur.regs, cmt := s.cur.cmt } = s.cur
      ∧ (∀ a, a ≠ pgCmt c + CMT_STAT.off → a ≠ pgCmt c + CMT_SPEED.off → t.cur.rd a = s.cur.rd a)) ∧
  (∀ (c : Fin 6) (x : Nat) (n : Fin 6) (f : Bool) (s : State),
      s.cur.motorState c ≠ 4 ∨ f = false ∨ s.cur.rpmOf c x < s.cur.get (pgCmt c) CMT_CATCH_CATCH_MIN_RPM →
      ∃ t, exec (.catchSuccess c f x n) s = .next t ∧ t.cur = s.cur ∧ t.vis = s.vis
      ∧ { t.cur with regs := s.cur.regs, cmt := s.cur.cmt } = s.cur) ∧
  (∀ (c : Fin 6) (f : Bool) (x : Nat) (s : State), s.cur.motorState c = 4 →
      f = false ∨ s.cur.rpmOf c x < s.cur.get (pgCmt c) CMT_CATCH_CATCH_MIN_RPM →
      ∃ t, exec (.catchFail c (some (f, x))) s = .next t ∧ t.cur.motorState c = 5 ∧ (t.cur.motor c).drive = .short 0x8000
      ∧ ((t.cur.motor c).after = (if s.cur.flag (pgCmt c) CMT_CTL_RESTART then .restart else .off))
      ∧ (t.cur.motor c).measured = false ∧ t.vis = s.vis ∧ { t.cur with regs := s.cur.regs, cmt := s.cur.cmt } = s.cur
      ∧ (∀ a, a ≠ pgCmt c + CMT_STAT.off → t.cur.rd a = s.cur.rd a)) ∧
  (∀ (c : Fin 6) (s : State), s.cur.motorState c = 4 →
      (s.cur.motor c).since + s.cur.get (pgCmt c) CMT_CATCH_CATCH_G ≤ s.cur.gtime → ∃ t, exec (.catchFail c none) s = .next t
      ∧ t.cur.motorState c = 5 ∧ (t.cur.motor c).drive = .short 0x8000
      ∧ ((t.cur.motor c).after = (if s.cur.flag (pgCmt c) CMT_CTL_RESTART then .restart else .off))
      ∧ (t.cur.motor c).measured = false ∧ t.vis = s.vis ∧ { t.cur with regs := s.cur.regs, cmt := s.cur.cmt } = s.cur
      ∧ (∀ a, a ≠ pgCmt c + CMT_STAT.off → t.cur.rd a = s.cur.rd a)) ∧
  (∀ (c : Fin 6) (s : State),
      s.cur.motorState c ≠ 4 ∨ s.cur.gtime < (s.cur.motor c).since + s.cur.get (pgCmt c) CMT_CATCH_CATCH_G →
      ∃ t, exec (.catchFail c none) s = .next t ∧ t.cur = s.cur ∧ t.vis = s.vis
      ∧ { t.cur with regs := s.cur.regs, cmt := s.cur.cmt } = s.cur) ∧
  (∀ (c : Fin 6) (r : BitVec 16) (s : State), s.cur.motorState c = 5 → brakeWindow (s.cur.motor c).since s.cur.gtime = true →
      ∃ t, exec (.brakeSpeedWindow c r) s = .next t ∧ t.cur.get (pgCmt c) CMT_SPEED_RPM = r.toNat
      ∧ (t.cur.motor c) = { (s.cur.motor c) with measured := true, drive := .coast } ∧ t.vis = s.vis
      ∧ { t.cur with regs := s.cur.regs, cmt := s.cur.cmt } = s.cur
      ∧ (∀ a, a ≠ pgCmt c + CMT_SPEED.off → t.cur.rd a = s.cur.rd a)) ∧
  (∀ (c : Fin 6) (r : BitVec 16) (s : State), s.cur.motorState c ≠ 5 ∨ brakeWindow (s.cur.motor c).since s.cur.gtime = false →
      ∃ t, exec (.brakeSpeedWindow c r) s = .next t ∧ t.cur = s.cur ∧ t.vis = s.vis
      ∧ { t.cur with regs := s.cur.regs, cmt := s.cur.cmt } = s.cur) ∧
  (∀ (c : Fin 6) (s : State), s.cur.motorState c = 5 → (s.cur.motor c).measured = true →
      s.cur.get (pgCmt c) CMT_SPEED_RPM < s.cur.get (pgCmt c) CMT_BRAKE_STOP_RPM → (s.cur.motor c).after = .command →
      ∃ t, exec (.brakeStopped c) s = .next t ∧ t.cur.motorState c = 0 ∧ (t.cur.motor c).drive = .coast
      ∧ (t.cur.motor c).duty = 0 ∧ t.cur.flag (pgCmt c) CMT_STAT_OBS_LOCK = false
      ∧ t.cur.flag (pgCmt c) CMT_STAT_ANGLE_VALID = false ∧ t.cur.get (pgCmt c) CMT_STAT_RESULT = 0
      ∧ t.cur.flag (pgCmt c) CMT_IRQ_CMD_DONE = true ∧ t.vis = s.vis
      ∧ { t.cur with regs := s.cur.regs, irqSet := s.cur.irqSet, cmt := s.cur.cmt } = s.cur
      ∧ (∀ a, a ≠ pgCmt c + CMT_STAT.off → a ≠ pgCmt c + PG_IRQ_RAW.off → t.cur.rd a = s.cur.rd a)) ∧
  (∀ (c : Fin 6) (s : State), s.cur.motorState c = 5 → (s.cur.motor c).measured = true →
      s.cur.get (pgCmt c) CMT_SPEED_RPM < s.cur.get (pgCmt c) CMT_BRAKE_STOP_RPM → (s.cur.motor c).after = .restart →
      ∃ t, exec (.brakeStopped c) s = .next t ∧ t.cur.motorState c = 1
      ∧ (t.cur.get (pgCmt c) CMT_STAT_SECTOR = (if s.cur.motorDir c then 5 else 0))
      ∧ (t.cur.motor c).drive = .motor (min 0x8000 (s.cur.get (pgCmt c) CMT_START2_START_DUTY)) ∧ (t.cur.motor c).pause = false
      ∧ (t.cur.motor c).since = s.cur.gtime ∧ (t.cur.motor c).tries = 1 ∧ t.vis = s.vis
      ∧ { t.cur with regs := s.cur.regs, cmt := s.cur.cmt } = s.cur
      ∧ (∀ a, a ≠ pgCmt c + CMT_STAT.off → t.cur.rd a = s.cur.rd a)) ∧
  (∀ (c : Fin 6) (s : State), s.cur.motorState c = 5 → (s.cur.motor c).measured = true →
      s.cur.get (pgCmt c) CMT_SPEED_RPM < s.cur.get (pgCmt c) CMT_BRAKE_STOP_RPM → (s.cur.motor c).after = .off →
      ∃ t, exec (.brakeStopped c) s = .next t ∧ t.cur.motorState c = 0 ∧ (t.cur.motor c).drive = .coast
      ∧ (t.cur.motor c).duty = 0 ∧ t.cur.flag (pgCmt c) CMT_STAT_OBS_LOCK = false
      ∧ t.cur.flag (pgCmt c) CMT_STAT_ANGLE_VALID = false ∧ t.cur.flag (pgCmt c) CMT_IRQ_CMD_FAIL = true ∧ t.vis = s.vis
      ∧ { t.cur with regs := s.cur.regs, irqSet := s.cur.irqSet, cmt := s.cur.cmt } = s.cur
      ∧ (∀ a, a ≠ pgCmt c + CMT_STAT.off → a ≠ pgCmt c + PG_IRQ_RAW.off → t.cur.rd a = s.cur.rd a)) ∧
  (∀ (c : Fin 6) (s : State),
      s.cur.motorState c ≠ 5 ∨ (s.cur.motor c).measured = false ∨ s.cur.get (pgCmt c) CMT_BRAKE_STOP_RPM ≤ s.cur.get (pgCmt c) CMT_SPEED_RPM →
      ∃ t, exec (.brakeStopped c) s = .next t ∧ t.cur = s.cur ∧ t.vis = s.vis
      ∧ { t.cur with regs := s.cur.regs, irqSet := s.cur.irqSet, cmt := s.cur.cmt } = s.cur) ∧
  (∀ (c : Fin 6) (s : State), s.cur.motorState c = 5 →
      (s.cur.motor c).since + 256 * s.cur.get (pgCmt c) CMT_BRAKE_BRAKE_MAX_S ≤ s.cur.gtime →
      ∃ t, exec (.brakeTimeout c) s = .next t ∧ t.cur.motorState c = 6 ∧ (t.cur.motor c).drive = .coast
      ∧ (t.cur.motor c).duty = 0 ∧ t.cur.flag (pgCmt c) CMT_STAT_OBS_LOCK = false
      ∧ t.cur.flag (pgCmt c) CMT_STAT_ANGLE_VALID = false ∧ t.cur.get (pgCmt c) CMT_STAT_FAULT_CODE = 2
      ∧ t.cur.flag (pgCmt c) CMT_IRQ_CMD_FAIL = true ∧ t.vis = s.vis
      ∧ { t.cur with regs := s.cur.regs, irqSet := s.cur.irqSet, cmt := s.cur.cmt } = s.cur
      ∧ (∀ a, a ≠ pgCmt c + CMT_STAT.off → a ≠ pgCmt c + PG_IRQ_RAW.off → t.cur.rd a = s.cur.rd a)) ∧
  (∀ (c : Fin 6) (s : State),
      s.cur.motorState c ≠ 5 ∨ s.cur.gtime < (s.cur.motor c).since + 256 * s.cur.get (pgCmt c) CMT_BRAKE_BRAKE_MAX_S →
      ∃ t, exec (.brakeTimeout c) s = .next t ∧ t.cur = s.cur ∧ t.vis = s.vis
      ∧ { t.cur with regs := s.cur.regs, irqSet := s.cur.irqSet, cmt := s.cur.cmt } = s.cur) ∧
  (∀ (c : Fin 6) (s : State), s.cur.motorState c = 2 ∨ s.cur.motorState c = 3 → 0 < (s.cur.motor c).duty →
      (s.cur.motor c).lastEvent + s.cur.get (pgCmt c) CMT_OBS_LOCK_G ≤ s.cur.gtime → ∃ t, exec (.lockedRotor c) s = .next t
      ∧ t.cur.motorState c = 6 ∧ (t.cur.motor c).drive = .coast ∧ (t.cur.motor c).duty = 0
      ∧ t.cur.flag (pgCmt c) CMT_STAT_OBS_LOCK = false ∧ t.cur.flag (pgCmt c) CMT_STAT_ANGLE_VALID = false
      ∧ t.cur.get (pgCmt c) CMT_STAT_FAULT_CODE = 2 ∧ t.cur.flag (pgCmt c) CMT_IRQ_LOCKED = true
      ∧ t.cur.fj.staged = s.cur.fj.staged ++ [{ gtime := s.cur.gtime48, pgId := pgIdOf (pgCmt c), code := 0x0A03, deg := false, flt := false, data := [] }]
      ∧ t.vis = s.vis ∧ { t.cur with regs := s.cur.regs, irqSet := s.cur.irqSet, fj := s.cur.fj, cmt := s.cur.cmt } = s.cur
      ∧ (∀ a, a ≠ pgCmt c + CMT_STAT.off → a ≠ pgCmt c + PG_IRQ_RAW.off → t.cur.rd a = s.cur.rd a)) ∧
  (∀ (c : Fin 6) (s : State),
      (s.cur.motorState c ≠ 2 ∧ s.cur.motorState c ≠ 3) ∨ (s.cur.motor c).duty ≤ 0 ∨ s.cur.gtime < (s.cur.motor c).lastEvent + s.cur.get (pgCmt c) CMT_OBS_LOCK_G →
      ∃ t, exec (.lockedRotor c) s = .next t ∧ t.cur = s.cur ∧ t.vis = s.vis
      ∧ { t.cur with regs := s.cur.regs, irqSet := s.cur.irqSet, fj := s.cur.fj, cmt := s.cur.cmt } = s.cur) ∧
  (∀ (c : Fin 6) (code : BitVec 3) (a : Fin 400) (n : Nat) (s : State), s.cur.motorState c = 3 →
      s.cur.flag (pgCmt c) CMT_CTL_HALL_EN = true → (s.cur.motor c).hallOff = false → s.cur.hallSector c code.toNat = some n →
      n = (s.cur.sector c + 1) % 6 ∨ n = (s.cur.sector c + 5) % 6 → ∃ t, exec (.hallEdge c code a) s = .next t
      ∧ t.cur.get (pgCmt c) CMT_STAT_SECTOR = n ∧ t.cur.motorState c = 3 ∧ (t.cur.motor c).hall = code.toNat
      ∧ (t.cur.motor c).lastX = some ((s.cur.gtime - 1) * 400 + a.val) ∧ (t.cur.motor c).commAt = ((s.cur.gtime + 1) * 400)
      ∧ (t.cur.motor c).turn = ((s.cur.motor c).turn + 1) % (6 * s.cur.polePairs c)
      ∧ (t.cur.motor c).comms = (s.cur.motor c).comms + 1 ∧ (t.cur.motor c).lastEvent = s.cur.gtime ∧ t.vis = s.vis
      ∧ { t.cur with regs := s.cur.regs, cmt := s.cur.cmt } = s.cur
      ∧ (∀ a, a ≠ pgCmt c + CMT_STAT.off → t.cur.rd a = s.cur.rd a)) ∧
  (∀ (c : Fin 6) (code : BitVec 3) (a : Fin 400) (s : State), s.cur.motorState c = 3 →
      s.cur.flag (pgCmt c) CMT_CTL_HALL_EN = true → (s.cur.motor c).hallOff = false →
      (match s.cur.hallSector c code.toNat with | some n => n == (s.cur.sector c + 1) % 6 || n == (s.cur.sector c + 5) % 6 | none => false) = false →
      s.cur.get (pgCmt c) CMT_SPEED_RPM ≤ s.cur.get (pgCmt c) CMT_START1_HANDOVER_RPM →
      ∃ t, exec (.hallEdge c code a) s = .next t ∧ t.cur.motorState c = 6 ∧ (t.cur.motor c).drive = .coast
      ∧ (t.cur.motor c).duty = 0 ∧ t.cur.flag (pgCmt c) CMT_STAT_OBS_LOCK = false
      ∧ t.cur.flag (pgCmt c) CMT_STAT_ANGLE_VALID = false ∧ t.cur.get (pgCmt c) CMT_STAT_FAULT_CODE = 5
      ∧ t.cur.flag (pgCmt c) CMT_IRQ_HALL_FAULT = true
      ∧ t.cur.fj.staged = s.cur.fj.staged ++ [{ gtime := s.cur.gtime48, pgId := pgIdOf (pgCmt c), code := 0x0A04, deg := false, flt := false, data := [code.toNat] }]
      ∧ t.vis = s.vis ∧ { t.cur with regs := s.cur.regs, irqSet := s.cur.irqSet, fj := s.cur.fj, cmt := s.cur.cmt } = s.cur
      ∧ (∀ a, a ≠ pgCmt c + CMT_STAT.off → a ≠ pgCmt c + PG_IRQ_RAW.off → t.cur.rd a = s.cur.rd a)) ∧
  (∀ (c : Fin 6) (code : BitVec 3) (a : Fin 400) (s : State), s.cur.motorState c = 3 →
      s.cur.flag (pgCmt c) CMT_CTL_HALL_EN = true → (s.cur.motor c).hallOff = false →
      (match s.cur.hallSector c code.toNat with | some n => n == (s.cur.sector c + 1) % 6 || n == (s.cur.sector c + 5) % 6 | none => false) = false →
      s.cur.get (pgCmt c) CMT_START1_HANDOVER_RPM < s.cur.get (pgCmt c) CMT_SPEED_RPM →
      ∃ t, exec (.hallEdge c code a) s = .next t ∧ t.cur.motorState c = 3 ∧ t.cur.flag (pgCmt c) CMT_STAT_OBS_LOCK = true
      ∧ (t.cur.motor c).hallOff = true ∧ t.cur.flag (pgCmt c) CMT_IRQ_HALL_FAULT = true
      ∧ t.cur.fj.staged = s.cur.fj.staged ++ [{ gtime := s.cur.gtime48, pgId := pgIdOf (pgCmt c), code := 0x0A04, deg := false, flt := false, data := [code.toNat] }]
      ∧ t.vis = s.vis ∧ { t.cur with regs := s.cur.regs, irqSet := s.cur.irqSet, fj := s.cur.fj, cmt := s.cur.cmt } = s.cur
      ∧ (∀ a, a ≠ pgCmt c + CMT_STAT.off → a ≠ pgCmt c + PG_IRQ_RAW.off → t.cur.rd a = s.cur.rd a)) ∧
  (∀ (c : Fin 6) (code : BitVec 3) (a : Fin 400) (s : State),
      s.cur.motorState c ≠ 3 ∨ s.cur.flag (pgCmt c) CMT_CTL_HALL_EN = false ∨ (s.cur.motor c).hallOff = true →
      ∃ t, exec (.hallEdge c code a) s = .next t ∧ (t.cur.motor c) = { (s.cur.motor c) with hall := code.toNat } ∧ t.vis = s.vis
      ∧ { t.cur with cmt := s.cur.cmt } = s.cur)

/-- Above ILIM_MA the high side is off to the end of the PWM period. The chopper turns on at CHOP_ON_MV and off at
CHOP_OFF_MV; too little current while on or a current while off sets CHOP_FAULT or CHOP_STUCK, stops regeneration and
writes CMT_CHOP. OV_G Grains at LIMIT_MV, or a sample at ABS_MV, put all six channels in FAULT with OV. A gate fault
puts its channel in FAULT with its code and its cause recorded. Commands that it says to complete, each on the
conditions of its clauses: currentLimit, chopperOn, chopperOff, chopperFault, vmotLimit, vmotAbsolute, gateFault. -/
def Obligations.MotorBus : Prop :=
  (∀ (c : Fin 6) (a : Fin 400) (ma : BitVec 16) (s : State), s.cur.get (pgCmt c) CMT_ILIM_ILIM_MA < ma.toNat →
      (s.cur.motor c).pwmFrom ≤ s.cur.gtime * 400 + a.val → ∃ t, exec (.currentLimit c a ma) s = .next t
      ∧ s.cur.gtime * 400 + a.val < (t.cur.motor c).hiOffUntil
      ∧ (t.cur.motor c).hiOffUntil ≤ s.cur.gtime * 400 + a.val + 2 * clampN 500 2500 (s.cur.get (pgCmt c) CMT_PWM_TOP)
      ∧ ((t.cur.motor c).hiOffUntil - (s.cur.motor c).pwmFrom) % (2 * clampN 500 2500 (s.cur.get (pgCmt c) CMT_PWM_TOP)) = 0
      ∧ (t.cur.motor c) = { (s.cur.motor c) with hiOffUntil := (t.cur.motor c).hiOffUntil } ∧ t.vis = s.vis
      ∧ { t.cur with cmt := s.cur.cmt } = s.cur) ∧
  (∀ (c : Fin 6) (a : Fin 400) (ma : BitVec 16) (s : State), ma.toNat ≤ s.cur.get (pgCmt c) CMT_ILIM_ILIM_MA →
      ∃ t, exec (.currentLimit c a ma) s = .next t ∧ t.cur = s.cur ∧ t.vis = s.vis ∧ { t.cur with cmt := s.cur.cmt } = s.cur) ∧
  (∀ (mv : BitVec 16) (s : State), s.cur.get pgVbus VBUS_CHOP_CHOP_ON_MV ≤ mv.toNat →
      s.cur.flag pgVbus VBUS_CTL_CHOP_EN = true → s.cur.flag pgRsv RSV_STAT_PF = false → ∃ t, exec (.chopperOn mv) s = .next t
      ∧ t.cur.flag pgVbus VBUS_STAT_CHOP_ON = true ∧ { t.cur with regs := s.cur.regs } = s.cur
      ∧ (∀ a, a ≠ pgVbus + VBUS_STAT.off → t.cur.rd a = s.cur.rd a)) ∧
  (∀ (mv : BitVec 16) (s : State),
      mv.toNat < s.cur.get pgVbus VBUS_CHOP_CHOP_ON_MV ∨ s.cur.flag pgVbus VBUS_CTL_CHOP_EN = false ∨ s.cur.flag pgRsv RSV_STAT_PF = true →
      ∃ t, exec (.chopperOn mv) s = .next t ∧ t.cur = s.cur ∧ { t.cur with regs := s.cur.regs } = s.cur) ∧
  (∀ (mv : BitVec 16) (s : State), mv.toNat ≤ s.cur.get pgVbus VBUS_CHOP_CHOP_OFF_MV → ∃ t, exec (.chopperOff mv) s = .next t
      ∧ t.cur.flag pgVbus VBUS_STAT_CHOP_ON = false ∧ { t.cur with regs := s.cur.regs } = s.cur
      ∧ (∀ a, a ≠ pgVbus + VBUS_STAT.off → t.cur.rd a = s.cur.rd a)) ∧
  (∀ (mv : BitVec 16) (s : State), s.cur.get pgVbus VBUS_CHOP_CHOP_OFF_MV < mv.toNat → ∃ t, exec (.chopperOff mv) s = .next t
      ∧ t.cur = s.cur ∧ { t.cur with regs := s.cur.regs } = s.cur) ∧
  (∀ (ma us : BitVec 16) (s : State), s.cur.flag pgVbus VBUS_STAT_CHOP_ON = true →
      ma.toNat < s.cur.get pgVbus VBUS_CHK_CHOP_IMIN_MA → max 1 (s.cur.get pgVbus VBUS_CHK_CHK_US) ≤ us.toNat →
      ∃ t, exec (.chopperFault ma us) s = .next t ∧ t.cur.flag pgVbus VBUS_STAT_CHOP_FAULT = true
      ∧ t.cur.flag pgVbus VBUS_IRQ_CHOP_FAULT = true
      ∧ t.cur.fj.staged = s.cur.fj.staged ++ [{ gtime := s.cur.gtime48, pgId := pgIdOf pgVbus, code := 0x0A05, deg := false, flt := false, data := [] }]
      ∧ (∀ c : Fin 6, (t.cur.motor c).drive = (match (s.cur.motor c).drive with | .regen b => .short b | x => x))
      ∧ t.vis = s.vis ∧ { t.cur with regs := s.cur.regs, irqSet := s.cur.irqSet, fj := s.cur.fj, cmt := s.cur.cmt } = s.cur
      ∧ (∀ a, a ≠ pgVbus + VBUS_STAT.off → a ≠ pgVbus + PG_IRQ_RAW.off → t.cur.rd a = s.cur.rd a)) ∧
  (∀ (ma us : BitVec 16) (s : State), s.cur.flag pgVbus VBUS_STAT_CHOP_ON = false →
      s.cur.get pgVbus VBUS_CHK_CHOP_IMIN_MA < ma.toNat → ∃ t, exec (.chopperFault ma us) s = .next t
      ∧ t.cur.flag pgVbus VBUS_STAT_CHOP_STUCK = true ∧ t.cur.flag pgVbus VBUS_IRQ_CHOP_STUCK = true
      ∧ t.cur.fj.staged = s.cur.fj.staged ++ [{ gtime := s.cur.gtime48, pgId := pgIdOf pgVbus, code := 0x0A05, deg := false, flt := false, data := [] }]
      ∧ (∀ c : Fin 6, (t.cur.motor c).drive = (match (s.cur.motor c).drive with | .regen b => .short b | x => x))
      ∧ t.vis = s.vis ∧ { t.cur with regs := s.cur.regs, irqSet := s.cur.irqSet, fj := s.cur.fj, cmt := s.cur.cmt } = s.cur
      ∧ (∀ a, a ≠ pgVbus + VBUS_STAT.off → a ≠ pgVbus + PG_IRQ_RAW.off → t.cur.rd a = s.cur.rd a)) ∧
  (∀ (ma us : BitVec 16) (s : State),
      (s.cur.flag pgVbus VBUS_STAT_CHOP_ON = true ∧ (s.cur.get pgVbus VBUS_CHK_CHOP_IMIN_MA ≤ ma.toNat ∨ us.toNat < s.cur.get pgVbus VBUS_CHK_CHK_US)) ∨ (s.cur.flag pgVbus VBUS_STAT_CHOP_ON = false ∧ ma.toNat ≤ s.cur.get pgVbus VBUS_CHK_CHOP_IMIN_MA) →
      ∃ t, exec (.chopperFault ma us) s = .next t ∧ t.cur = s.cur ∧ t.vis = s.vis
      ∧ { t.cur with regs := s.cur.regs, irqSet := s.cur.irqSet, fj := s.cur.fj, cmt := s.cur.cmt } = s.cur) ∧
  (∀ (s : State), max 1 (s.cur.get pgVbus VBUS_LIMIT_OV_G) ≤ s.cur.cmt.ovCount → ∃ t, exec (.vmotLimit) s = .next t
      ∧ (∀ c : Fin 6, t.cur.motorState c = 6 ∧ (t.cur.motor c).drive = .coast ∧ t.cur.get (pgCmt c) CMT_STAT_FAULT_CODE = 4)
      ∧ t.cur.flag pgVbus VBUS_STAT_OV_TRIP = true ∧ t.cur.flag pgVbus VBUS_IRQ_VMOT_LIMIT = true
      ∧ t.cur.fj.staged = s.cur.fj.staged ++ [{ gtime := s.cur.gtime48, pgId := pgIdOf pgVbus, code := 0x0A06, deg := false, flt := false, data := [s.cur.get pgVbus VBUS_VMAX_VMAX_MV] }]
      ∧ t.vis = s.vis ∧ { t.cur with regs := s.cur.regs, irqSet := s.cur.irqSet, fj := s.cur.fj, cmt := s.cur.cmt } = s.cur) ∧
  (∀ (s : State), s.cur.cmt.ovCount < max 1 (s.cur.get pgVbus VBUS_LIMIT_OV_G) → ∃ t, exec (.vmotLimit) s = .next t
      ∧ t.cur = s.cur ∧ t.vis = s.vis
      ∧ { t.cur with regs := s.cur.regs, irqSet := s.cur.irqSet, fj := s.cur.fj, cmt := s.cur.cmt } = s.cur) ∧
  (∀ (mv : BitVec 16) (s : State), min 40000 (s.cur.get pgVbus VBUS_ABS_ABS_MV) ≤ mv.toNat →
      ∃ t, exec (.vmotAbsolute mv) s = .next t
      ∧ (∀ c : Fin 6, t.cur.motorState c = 6 ∧ (t.cur.motor c).drive = .coast ∧ t.cur.get (pgCmt c) CMT_STAT_FAULT_CODE = 4)
      ∧ t.cur.flag pgVbus VBUS_STAT_OV_TRIP = true ∧ t.cur.flag pgVbus VBUS_IRQ_VMOT_ABS = true
      ∧ t.cur.fj.staged = s.cur.fj.staged ++ [{ gtime := s.cur.gtime48, pgId := pgIdOf pgVbus, code := 0x0A06, deg := false, flt := false, data := [mv.toNat] }]
      ∧ t.vis = s.vis ∧ { t.cur with regs := s.cur.regs, irqSet := s.cur.irqSet, fj := s.cur.fj, cmt := s.cur.cmt } = s.cur) ∧
  (∀ (mv : BitVec 16) (s : State), mv.toNat < min 40000 (s.cur.get pgVbus VBUS_ABS_ABS_MV) →
      ∃ t, exec (.vmotAbsolute mv) s = .next t ∧ t.cur = s.cur ∧ t.vis = s.vis
      ∧ { t.cur with regs := s.cur.regs, irqSet := s.cur.irqSet, fj := s.cur.fj, cmt := s.cur.cmt } = s.cur) ∧
  (∀ (c : Fin 6) (z : Fin 5) (s : State), ∃ t, exec (.gateFault c z) s = .next t ∧ t.cur.motorState c = 6
      ∧ (t.cur.motor c).drive = .coast ∧ (t.cur.motor c).duty = 0 ∧ t.cur.flag (pgCmt c) CMT_STAT_OBS_LOCK = false
      ∧ t.cur.flag (pgCmt c) CMT_STAT_ANGLE_VALID = false
      ∧ (t.cur.get (pgCmt c) CMT_STAT_FAULT_CODE = (if z = 1 then 6 else if z = 4 then 7 else 3))
      ∧ t.cur.flag (pgCmt c) CMT_IRQ_GATE_FAULT = true ∧ t.cur.flag (pgCmt c) PG_STAT_FAULT = true
      ∧ (t.cur.motor c).cause = true
      ∧ t.cur.fj.staged = s.cur.fj.staged ++ [{ gtime := s.cur.gtime48, pgId := pgIdOf (pgCmt c), code := 0x0A07, deg := false, flt := true, data := [z.val + 1] }]
      ∧ t.vis = s.vis ∧ { t.cur with regs := s.cur.regs, irqSet := s.cur.irqSet, fj := s.cur.fj, cmt := s.cur.cmt } = s.cur
      ∧ (∀ a, a ≠ pgCmt c + CMT_STAT.off → a ≠ pgCmt c + PG_IRQ_RAW.off → a ≠ pgCmt c + PG_STAT.off → t.cur.rd a = s.cur.rd a))

/-- ENABLE, DISABLE, MOVE_ABS, MOVE_REL, STOP, HALT, HOME, SET_POS, GEAR_ON and CLEAR act from the states that accept
them; otherwise they are refused with STATE, a move of a moving sled or beside a sled request and a second command of
the Grain with BUSY, and a target out of range with RANGE, changing only RESULT, CMD_FAIL and the note that a command
was taken. Behind a main-supply loss a command only leaves that note. For a move from rest that fits the planner
stages min(VMAX, max(ACC, VMIN)); for a stop max(v - d, VMIN), or 0 from VMIN. (RESULT and DONE of ENABLE to CLEAR,
HALT among them, are the model's reading, notes/assumptions/104.md and 153.md.) Commands that it says to complete,
each on the conditions of its clauses: chnEnable, chnDisable, moveAbs, moveRel, chnStop, halt, home, setPos, gearOn,
chnClear. -/
def Obligations.AxisCommands : Prop :=
  (∀ (n : Fin 12) (s : State), (s.cur.axis n).cmdTaken = false ∧ s.cur.rsv.pfLine = false →
      s.vis.axisState n = s.cur.axisState n → s.cur.axisState n = 0 → ∃ t, exec (.chnEnable n) s = .next t
      ∧ t.cur.axisState n = 1 ∧ t.cur.get (pgAx n) CHN_STAT_RESULT = 0
      ∧ (n.val < 4 → (Dev.axisGrain s.vis t.cur n).get (pgAx n) CHN_ISTAT_I_NOW = min 600 (s.cur.get (pgAx n) CHN_CUR_IHOLD))
      ∧ (t.cur.axis n) = { (s.cur.axis n) with cmdTaken := true, since := s.cur.gtime } ∧ t.vis = s.vis
      ∧ { t.cur with regs := s.cur.regs, axes := s.cur.axes } = s.cur
      ∧ (∀ a, a ≠ pgAx n + CHN_STAT.off → t.cur.rd a = s.cur.rd a)) ∧
  (∀ (n : Fin 12) (s : State), (s.cur.axis n).cmdTaken = false ∧ s.cur.rsv.pfLine = false →
      s.vis.axisState n = s.cur.axisState n → s.cur.axisState n = 1 ∨ s.cur.axisState n = 6 →
      ∃ t, exec (.chnDisable n) s = .next t ∧ t.cur.axisState n = 0 ∧ t.cur.get (pgAx n) CHN_STAT_RESULT = 0
      ∧ t.cur.get (pgAx n) CHN_STAT_FAULT_CODE = 0
      ∧ (n.val < 4 → t.cur.get (pgAx n) CHN_ISTAT_I_NOW = 0 ∧ t.cur.flag (pgAx n) CHN_STAT_REF = false)
      ∧ (4 ≤ n.val → t.cur.flag (pgAx n) CHN_STAT_REF = s.cur.flag (pgAx n) CHN_STAT_REF) ∧ t.vis = s.vis
      ∧ { t.cur with regs := s.cur.regs, axes := s.cur.axes } = s.cur
      ∧ (∀ a, a ≠ pgAx n + CHN_STAT.off → a ≠ pgAx n + CHN_ISTAT.off → t.cur.rd a = s.cur.rd a)) ∧
  (∀ (n : Fin 12) (s : State), (s.cur.axis n).cmdTaken = false ∧ s.cur.rsv.pfLine = false →
      s.vis.axisState n = s.cur.axisState n → (s.cur.axis n).sled = false → s.cur.starts (pgAx n) = true →
      s.cur.axisState n = 1 ∨ (4 ≤ n.val ∧ (s.cur.axisState n = 2 ∨ s.cur.axisState n = 3)) →
      (s.cur.posRange n).1 ≤ s.cur.getI (pgAx n) CHN_TARGET_TARGET →
      s.cur.getI (pgAx n) CHN_TARGET_TARGET ≤ (s.cur.posRange n).2 → ∃ t, exec (.moveAbs n) s = .next t ∧ t.cur.axisState n = 2
      ∧ (t.cur.axis n).target = s.cur.getI (pgAx n) CHN_TARGET_TARGET ∧ (t.cur.axis n).sled = false
      ∧ (t.cur.axis n).cmdTaken = true ∧ (t.cur.axis n).reversing = false
      ∧ t.cur.get (pgAx n) CHN_STAT_RESULT = s.cur.get (pgAx n) CHN_STAT_RESULT ∧ t.vis = s.vis
      ∧ { t.cur with regs := s.cur.regs, axes := s.cur.axes } = s.cur
      ∧ (∀ a, a ≠ pgAx n + CHN_STAT.off → t.cur.rd a = s.cur.rd a)) ∧
  (∀ (n : Fin 12) (s : State), (s.cur.axis n).cmdTaken = false ∧ s.cur.rsv.pfLine = false →
      s.vis.axisState n = s.cur.axisState n → (s.cur.axis n).sled = false → s.cur.starts (pgAx n) = true →
      s.cur.axisState n = 1 → (s.cur.posRange n).1 ≤ s.cur.getI (pgAx n) CHN_TARGET_TARGET →
      s.cur.getI (pgAx n) CHN_TARGET_TARGET ≤ (s.cur.posRange n).2 → s.vis.get (pgAx n) CHN_VEL_V = 0 →
      (s.cur.axis n).phase = 0 → (s.cur.axis n).posSet = none → s.cur.getI (pgAx n) CHN_TARGET_TARGET ≠ s.cur.axisPos n →
      s.cur.softLimits n = false →
      fitsDist (s.cur.axVmin n) (s.cur.axDecUse n) ((s.cur.getI (pgAx n) CHN_TARGET_TARGET - s.cur.axisPos n).natAbs * 2 ^ 40) (min (s.cur.axVmax n) (max (s.cur.axAcc n) (s.cur.axVmin n))) = true →
      ∃ t, exec (.moveAbs n) s = .next t
      ∧ (Dev.axisPlan s.vis t.cur n).get (pgAx n) CHN_VEL_V = min (s.cur.axVmax n) (max (s.cur.axAcc n) (s.cur.axVmin n))
      ∧ (Dev.axisPlan s.vis t.cur n).flag (pgAx n) CHN_STAT_DIR = decide (s.cur.getI (pgAx n) CHN_TARGET_TARGET < s.cur.axisPos n)
      ∧ t.cur.axisState n = 2 ∧ t.vis = s.vis ∧ { t.cur with regs := s.cur.regs, axes := s.cur.axes } = s.cur
      ∧ (∀ a, a ≠ pgAx n + CHN_STAT.off → t.cur.rd a = s.cur.rd a)) ∧
  (∀ (n : Fin 12) (s : State), (s.cur.axis n).cmdTaken = false ∧ s.cur.rsv.pfLine = false →
      s.vis.axisState n = s.cur.axisState n → (s.cur.axis n).sled = false → s.cur.starts (pgAx n) = true →
      s.cur.axisState n = 1 ∨ (4 ≤ n.val ∧ (s.cur.axisState n = 2 ∨ s.cur.axisState n = 3)) →
      s.cur.getI (pgAx n) CHN_TARGET_TARGET < (s.cur.posRange n).1 ∨ (s.cur.posRange n).2 < s.cur.getI (pgAx n) CHN_TARGET_TARGET →
      ∃ t, exec (.moveAbs n) s = .next t ∧ t.cur.get (pgAx n) CHN_STAT_RESULT = 3 ∧ t.cur.axisState n = s.cur.axisState n
      ∧ t.cur.flag (pgAx n) AX_IRQ_CMD_FAIL = true ∧ (t.cur.axis n) = { (s.cur.axis n) with cmdTaken := true } ∧ t.vis = s.vis
      ∧ { t.cur with regs := s.cur.regs, irqSet := s.cur.irqSet, axes := s.cur.axes } = s.cur
      ∧ (∀ a, a ≠ pgAx n + CHN_STAT.off → a ≠ pgAx n + PG_IRQ_RAW.off → t.cur.rd a = s.cur.rd a)) ∧
  (∀ (n : Fin 12) (s : State), (s.cur.axis n).cmdTaken = false ∧ s.cur.rsv.pfLine = false →
      (s.cur.axis n).sled = true ∨ (n.val < 4 ∧ s.vis.axisState n = s.cur.axisState n ∧ s.cur.axisState n = 2) →
      ∃ t, exec (.moveAbs n) s = .next t ∧ t.cur.get (pgAx n) CHN_STAT_RESULT = 2 ∧ t.cur.axisState n = s.cur.axisState n
      ∧ t.cur.flag (pgAx n) AX_IRQ_CMD_FAIL = true ∧ (t.cur.axis n) = { (s.cur.axis n) with cmdTaken := true } ∧ t.vis = s.vis
      ∧ { t.cur with regs := s.cur.regs, irqSet := s.cur.irqSet, axes := s.cur.axes } = s.cur
      ∧ (∀ a, a ≠ pgAx n + CHN_STAT.off → a ≠ pgAx n + PG_IRQ_RAW.off → t.cur.rd a = s.cur.rd a)) ∧
  (∀ (n : Fin 12) (s : State), (s.cur.axis n).cmdTaken = false ∧ s.cur.rsv.pfLine = false →
      s.vis.axisState n = s.cur.axisState n → (s.cur.axis n).sled = false →
      (s.cur.axisState n ≠ 1 ∧ s.cur.axisState n ≠ 2 ∧ s.cur.axisState n ≠ 3) ∨ (n.val < 4 ∧ s.cur.axisState n = 3) ∨ (s.cur.starts (pgAx n) = false ∧ (4 ≤ n.val ∨ s.cur.axisState n ≠ 2)) →
      ∃ t, exec (.moveAbs n) s = .next t ∧ t.cur.get (pgAx n) CHN_STAT_RESULT = 1 ∧ t.cur.axisState n = s.cur.axisState n
      ∧ t.cur.flag (pgAx n) AX_IRQ_CMD_FAIL = true ∧ (t.cur.axis n) = { (s.cur.axis n) with cmdTaken := true } ∧ t.vis = s.vis
      ∧ { t.cur with regs := s.cur.regs, irqSet := s.cur.irqSet, axes := s.cur.axes } = s.cur
      ∧ (∀ a, a ≠ pgAx n + CHN_STAT.off → a ≠ pgAx n + PG_IRQ_RAW.off → t.cur.rd a = s.cur.rd a)) ∧
  (∀ (n : Fin 12) (s : State), (s.cur.axis n).cmdTaken = false ∧ s.cur.rsv.pfLine = false →
      s.vis.axisState n = s.cur.axisState n → (s.cur.axis n).sled = false → s.cur.starts (pgAx n) = true →
      s.cur.axisState n = 1 ∨ (4 ≤ n.val ∧ (s.cur.axisState n = 2 ∨ s.cur.axisState n = 3)) →
      (s.cur.posRange n).1 ≤ (s.cur.axisPos n + s.cur.getI (pgAx n) CHN_TARGET_TARGET) →
      (s.cur.axisPos n + s.cur.getI (pgAx n) CHN_TARGET_TARGET) ≤ (s.cur.posRange n).2 → ∃ t, exec (.moveRel n) s = .next t
      ∧ t.cur.axisState n = 2 ∧ (t.cur.axis n).target = (s.cur.axisPos n + s.cur.getI (pgAx n) CHN_TARGET_TARGET)
      ∧ (t.cur.axis n).sled = false ∧ (t.cur.axis n).cmdTaken = true ∧ (t.cur.axis n).reversing = false
      ∧ t.cur.get (pgAx n) CHN_STAT_RESULT = s.cur.get (pgAx n) CHN_STAT_RESULT ∧ t.vis = s.vis
      ∧ { t.cur with regs := s.cur.regs, axes := s.cur.axes } = s.cur
      ∧ (∀ a, a ≠ pgAx n + CHN_STAT.off → t.cur.rd a = s.cur.rd a)) ∧
  (∀ (n : Fin 12) (s : State), (s.cur.axis n).cmdTaken = false ∧ s.cur.rsv.pfLine = false →
      s.vis.axisState n = s.cur.axisState n → (s.cur.axis n).sled = false → s.cur.starts (pgAx n) = true →
      s.cur.axisState n = 1 → (s.cur.posRange n).1 ≤ (s.cur.axisPos n + s.cur.getI (pgAx n) CHN_TARGET_TARGET) →
      (s.cur.axisPos n + s.cur.getI (pgAx n) CHN_TARGET_TARGET) ≤ (s.cur.posRange n).2 → s.vis.get (pgAx n) CHN_VEL_V = 0 →
      (s.cur.axis n).phase = 0 → (s.cur.axis n).posSet = none →
      (s.cur.axisPos n + s.cur.getI (pgAx n) CHN_TARGET_TARGET) ≠ s.cur.axisPos n → s.cur.softLimits n = false →
      fitsDist (s.cur.axVmin n) (s.cur.axDecUse n) (((s.cur.axisPos n + s.cur.getI (pgAx n) CHN_TARGET_TARGET) - s.cur.axisPos n).natAbs * 2 ^ 40) (min (s.cur.axVmax n) (max (s.cur.axAcc n) (s.cur.axVmin n))) = true →
      ∃ t, exec (.moveRel n) s = .next t
      ∧ (Dev.axisPlan s.vis t.cur n).get (pgAx n) CHN_VEL_V = min (s.cur.axVmax n) (max (s.cur.axAcc n) (s.cur.axVmin n))
      ∧ (Dev.axisPlan s.vis t.cur n).flag (pgAx n) CHN_STAT_DIR = decide ((s.cur.axisPos n + s.cur.getI (pgAx n) CHN_TARGET_TARGET) < s.cur.axisPos n)
      ∧ t.cur.axisState n = 2 ∧ t.vis = s.vis ∧ { t.cur with regs := s.cur.regs, axes := s.cur.axes } = s.cur
      ∧ (∀ a, a ≠ pgAx n + CHN_STAT.off → t.cur.rd a = s.cur.rd a)) ∧
  (∀ (n : Fin 12) (s : State), (s.cur.axis n).cmdTaken = false ∧ s.cur.rsv.pfLine = false →
      s.vis.axisState n = s.cur.axisState n → (s.cur.axis n).sled = false → s.cur.starts (pgAx n) = true →
      s.cur.axisState n = 1 ∨ (4 ≤ n.val ∧ (s.cur.axisState n = 2 ∨ s.cur.axisState n = 3)) →
      (s.cur.axisPos n + s.cur.getI (pgAx n) CHN_TARGET_TARGET) < (s.cur.posRange n).1 ∨ (s.cur.posRange n).2 < (s.cur.axisPos n + s.cur.getI (pgAx n) CHN_TARGET_TARGET) →
      ∃ t, exec (.moveRel n) s = .next t ∧ t.cur.get (pgAx n) CHN_STAT_RESULT = 3 ∧ t.cur.axisState n = s.cur.axisState n
      ∧ t.cur.flag (pgAx n) AX_IRQ_CMD_FAIL = true ∧ (t.cur.axis n) = { (s.cur.axis n) with cmdTaken := true } ∧ t.vis = s.vis
      ∧ { t.cur with regs := s.cur.regs, irqSet := s.cur.irqSet, axes := s.cur.axes } = s.cur
      ∧ (∀ a, a ≠ pgAx n + CHN_STAT.off → a ≠ pgAx n + PG_IRQ_RAW.off → t.cur.rd a = s.cur.rd a)) ∧
  (∀ (n : Fin 12) (s : State), (s.cur.axis n).cmdTaken = false ∧ s.cur.rsv.pfLine = false →
      (s.cur.axis n).sled = true ∨ (n.val < 4 ∧ s.vis.axisState n = s.cur.axisState n ∧ s.cur.axisState n = 2) →
      ∃ t, exec (.moveRel n) s = .next t ∧ t.cur.get (pgAx n) CHN_STAT_RESULT = 2 ∧ t.cur.axisState n = s.cur.axisState n
      ∧ t.cur.flag (pgAx n) AX_IRQ_CMD_FAIL = true ∧ (t.cur.axis n) = { (s.cur.axis n) with cmdTaken := true } ∧ t.vis = s.vis
      ∧ { t.cur with regs := s.cur.regs, irqSet := s.cur.irqSet, axes := s.cur.axes } = s.cur
      ∧ (∀ a, a ≠ pgAx n + CHN_STAT.off → a ≠ pgAx n + PG_IRQ_RAW.off → t.cur.rd a = s.cur.rd a)) ∧
  (∀ (n : Fin 12) (s : State), (s.cur.axis n).cmdTaken = false ∧ s.cur.rsv.pfLine = false →
      s.vis.axisState n = s.cur.axisState n → (s.cur.axis n).sled = false →
      (s.cur.axisState n ≠ 1 ∧ s.cur.axisState n ≠ 2 ∧ s.cur.axisState n ≠ 3) ∨ (n.val < 4 ∧ s.cur.axisState n = 3) ∨ (s.cur.starts (pgAx n) = false ∧ (4 ≤ n.val ∨ s.cur.axisState n ≠ 2)) →
      ∃ t, exec (.moveRel n) s = .next t ∧ t.cur.get (pgAx n) CHN_STAT_RESULT = 1 ∧ t.cur.axisState n = s.cur.axisState n
      ∧ t.cur.flag (pgAx n) AX_IRQ_CMD_FAIL = true ∧ (t.cur.axis n) = { (s.cur.axis n) with cmdTaken := true } ∧ t.vis = s.vis
      ∧ { t.cur with regs := s.cur.regs, irqSet := s.cur.irqSet, axes := s.cur.axes } = s.cur
      ∧ (∀ a, a ≠ pgAx n + CHN_STAT.off → a ≠ pgAx n + PG_IRQ_RAW.off → t.cur.rd a = s.cur.rd a)) ∧
  (∀ (n : Fin 12) (s : State), (s.cur.axis n).cmdTaken = false ∧ s.cur.rsv.pfLine = false →
      s.vis.axisState n = s.cur.axisState n → s.cur.axisState n = 2 ∨ s.cur.axisState n = 4 ∨ s.cur.axisState n = 5 →
      ∃ t, exec (.chnStop n) s = .next t ∧ t.cur.axisState n = 3 ∧ (t.cur.axis n).sled = false
      ∧ (t.cur.axis n).reversing = false ∧ (t.cur.axis n).after = .idle ∧ (t.cur.axis n).lag = 0
      ∧ t.cur.flag (pgAx n) CHN_STAT_GEAR_LAG = false ∧ t.vis = s.vis
      ∧ { t.cur with regs := s.cur.regs, axes := s.cur.axes } = s.cur
      ∧ (∀ a, a ≠ pgAx n + CHN_STAT.off → t.cur.rd a = s.cur.rd a)) ∧
  (∀ (n : Fin 12) (s : State), (s.cur.axis n).cmdTaken = false ∧ s.cur.rsv.pfLine = false →
      s.vis.axisState n = s.cur.axisState n → s.cur.axisState n = 2 ∨ s.cur.axisState n = 4 ∨ s.cur.axisState n = 5 →
      s.cur.softLimits n = false → (s.cur.axis n).switched = false → ∃ t, exec (.chnStop n) s = .next t ∧ t.cur.axisState n = 3
      ∧ ((Dev.axisPlan s.vis t.cur n).get (pgAx n) CHN_VEL_V = (if s.cur.axVmin n < s.vis.get (pgAx n) CHN_VEL_V then max (s.vis.get (pgAx n) CHN_VEL_V - s.cur.axDecUse n) (s.cur.axVmin n) else 0))
      ∧ t.vis = s.vis ∧ { t.cur with regs := s.cur.regs, axes := s.cur.axes } = s.cur
      ∧ (∀ a, a ≠ pgAx n + CHN_STAT.off → t.cur.rd a = s.cur.rd a)) ∧
  (∀ (n : Fin 12) (s : State), (s.cur.axis n).cmdTaken = false ∧ s.cur.rsv.pfLine = false →
      s.vis.axisState n = s.cur.axisState n → (s.cur.axis n).sled = false →
      s.cur.axisState n ≠ 2 ∧ s.cur.axisState n ≠ 4 ∧ s.cur.axisState n ≠ 5 → ∃ t, exec (.chnStop n) s = .next t
      ∧ t.cur.get (pgAx n) CHN_STAT_RESULT = 1 ∧ t.cur.axisState n = s.cur.axisState n
      ∧ t.cur.flag (pgAx n) AX_IRQ_CMD_FAIL = true ∧ (t.cur.axis n) = { (s.cur.axis n) with cmdTaken := true } ∧ t.vis = s.vis
      ∧ { t.cur with regs := s.cur.regs, irqSet := s.cur.irqSet, axes := s.cur.axes } = s.cur
      ∧ (∀ a, a ≠ pgAx n + CHN_STAT.off → a ≠ pgAx n + PG_IRQ_RAW.off → t.cur.rd a = s.cur.rd a)) ∧
  (∀ (n : Fin 12) (s : State), (s.cur.axis n).cmdTaken = false ∧ s.cur.rsv.pfLine = false →
      s.vis.axisState n = s.cur.axisState n →
      s.cur.axisState n = 2 ∨ s.cur.axisState n = 3 ∨ s.cur.axisState n = 4 ∨ s.cur.axisState n = 5 →
      ∃ t, exec (.halt n) s = .next t ∧ t.cur.axisState n = 1 ∧ t.cur.get (pgAx n) CHN_VEL_V = 0
      ∧ t.cur.get (pgAx n) CHN_STAT_RESULT = 0 ∧ t.cur.flag (pgAx n) AX_IRQ_DONE = true ∧ (t.cur.axis n).lag = 0
      ∧ (t.cur.flag (pgAx n) CHN_STAT_REF = (if n.val < 4 ∧ s.cur.axVmin n < s.vis.get (pgAx n) CHN_VEL_V then false else s.cur.flag (pgAx n) CHN_STAT_REF))
      ∧ t.vis = s.vis ∧ { t.cur with regs := s.cur.regs, irqSet := s.cur.irqSet, axes := s.cur.axes } = s.cur
      ∧ (∀ a, a ≠ pgAx n + CHN_STAT.off → a ≠ pgAx n + PG_IRQ_RAW.off → a ≠ pgAx n + CHN_VEL.off → a ≠ pgAx n + CHN_ISTAT.off → a ≠ pgAx n + CHN_DEC_USE.off → t.cur.rd a = s.cur.rd a)) ∧
  (∀ (n : Fin 12) (s : State), (s.cur.axis n).cmdTaken = false ∧ s.cur.rsv.pfLine = false →
      s.vis.axisState n = s.cur.axisState n → (s.cur.axis n).sled = false →
      s.cur.axisState n = 0 ∨ s.cur.axisState n = 1 ∨ s.cur.axisState n = 6 → ∃ t, exec (.halt n) s = .next t
      ∧ t.cur.get (pgAx n) CHN_STAT_RESULT = 1 ∧ t.cur.axisState n = s.cur.axisState n
      ∧ t.cur.flag (pgAx n) AX_IRQ_CMD_FAIL = true ∧ (t.cur.axis n) = { (s.cur.axis n) with cmdTaken := true } ∧ t.vis = s.vis
      ∧ { t.cur with regs := s.cur.regs, irqSet := s.cur.irqSet, axes := s.cur.axes } = s.cur
      ∧ (∀ a, a ≠ pgAx n + CHN_STAT.off → a ≠ pgAx n + PG_IRQ_RAW.off → t.cur.rd a = s.cur.rd a)) ∧
  (∀ (n : Fin 12) (s : State), (s.cur.axis n).cmdTaken = false ∧ s.cur.rsv.pfLine = false →
      s.vis.axisState n = s.cur.axisState n → (s.cur.axis n).sled = false → s.cur.starts (pgAx n) = true →
      s.cur.axisState n = 1 → ∃ t, exec (.home n) s = .next t ∧ t.cur.axisState n = 4 ∧ (t.cur.axis n).homeAt = none
      ∧ (t.cur.axis n).since = s.cur.gtime ∧ (t.cur.axis n).cmdTaken = true ∧ t.vis = s.vis
      ∧ { t.cur with regs := s.cur.regs, axes := s.cur.axes } = s.cur
      ∧ (∀ a, a ≠ pgAx n + CHN_STAT.off → t.cur.rd a = s.cur.rd a)) ∧
  (∀ (n : Fin 12) (s : State), (s.cur.axis n).cmdTaken = false ∧ s.cur.rsv.pfLine = false → (s.cur.axis n).sled = true →
      ∃ t, exec (.home n) s = .next t ∧ t.cur.get (pgAx n) CHN_STAT_RESULT = 2 ∧ t.cur.axisState n = s.cur.axisState n
      ∧ t.cur.flag (pgAx n) AX_IRQ_CMD_FAIL = true ∧ (t.cur.axis n) = { (s.cur.axis n) with cmdTaken := true } ∧ t.vis = s.vis
      ∧ { t.cur with regs := s.cur.regs, irqSet := s.cur.irqSet, axes := s.cur.axes } = s.cur
      ∧ (∀ a, a ≠ pgAx n + CHN_STAT.off → a ≠ pgAx n + PG_IRQ_RAW.off → t.cur.rd a = s.cur.rd a)) ∧
  (∀ (n : Fin 12) (s : State), (s.cur.axis n).cmdTaken = false ∧ s.cur.rsv.pfLine = false →
      s.vis.axisState n = s.cur.axisState n → (s.cur.axis n).sled = false →
      (s.cur.axisState n ≠ 1) ∨ s.cur.starts (pgAx n) = false → ∃ t, exec (.home n) s = .next t
      ∧ t.cur.get (pgAx n) CHN_STAT_RESULT = 1 ∧ t.cur.axisState n = s.cur.axisState n
      ∧ t.cur.flag (pgAx n) AX_IRQ_CMD_FAIL = true ∧ (t.cur.axis n) = { (s.cur.axis n) with cmdTaken := true } ∧ t.vis = s.vis
      ∧ { t.cur with regs := s.cur.regs, irqSet := s.cur.irqSet, axes := s.cur.axes } = s.cur
      ∧ (∀ a, a ≠ pgAx n + CHN_STAT.off → a ≠ pgAx n + PG_IRQ_RAW.off → t.cur.rd a = s.cur.rd a)) ∧
  (∀ (n : Fin 12) (s : State), (s.cur.axis n).cmdTaken = false ∧ s.cur.rsv.pfLine = false →
      s.vis.axisState n = s.cur.axisState n → s.cur.axisState n = 1 → ∃ t, exec (.setPos n) s = .next t
      ∧ t.cur.get (pgAx n) CHN_STAT_RESULT = 0 ∧ t.cur.axisState n = 1 ∧ t.cur.flag (pgAx n) CHN_STAT_REF = true
      ∧ (t.cur.axis n) = { (s.cur.axis n) with cmdTaken := true, posSet := some (s.cur.getI (pgAx n) CHN_TARGET_TARGET) }
      ∧ t.vis = s.vis ∧ { t.cur with regs := s.cur.regs, axes := s.cur.axes } = s.cur
      ∧ (∀ a, a ≠ pgAx n + CHN_STAT.off → t.cur.rd a = s.cur.rd a)) ∧
  (∀ (n : Fin 12) (s : State), (s.cur.axis n).cmdTaken = false ∧ s.cur.rsv.pfLine = false →
      s.vis.axisState n = s.cur.axisState n → (s.cur.axis n).sled = false → s.cur.axisState n ≠ 1 →
      ∃ t, exec (.setPos n) s = .next t ∧ t.cur.get (pgAx n) CHN_STAT_RESULT = 1 ∧ t.cur.axisState n = s.cur.axisState n
      ∧ t.cur.flag (pgAx n) AX_IRQ_CMD_FAIL = true ∧ (t.cur.axis n) = { (s.cur.axis n) with cmdTaken := true } ∧ t.vis = s.vis
      ∧ { t.cur with regs := s.cur.regs, irqSet := s.cur.irqSet, axes := s.cur.axes } = s.cur
      ∧ (∀ a, a ≠ pgAx n + CHN_STAT.off → a ≠ pgAx n + PG_IRQ_RAW.off → t.cur.rd a = s.cur.rd a)) ∧
  (∀ (n : Fin 12) (s : State), (s.cur.axis n).cmdTaken = false ∧ s.cur.rsv.pfLine = false →
      s.vis.axisState n = s.cur.axisState n → s.cur.starts (pgAx n) = true → 4 ≤ n.val → s.cur.axisState n = 1 →
      ∃ t, exec (.gearOn n) s = .next t ∧ t.cur.axisState n = 5 ∧ t.cur.get (pgAx n) CHN_STAT_RESULT = 0
      ∧ (t.cur.axis n).master = s.cur.getI pgCenc (CENC_POS_COUNT.idx (s.cur.get (pgAx n) CHN_CTL_MASTER))
      ∧ (t.cur.axis n).masterOld = s.cur.getI pgCenc (CENC_POS_COUNT.idx (s.cur.get (pgAx n) CHN_CTL_MASTER))
      ∧ (t.cur.axis n).frac = 0 ∧ (t.cur.axis n).lag = 0 ∧ t.vis = s.vis
      ∧ { t.cur with regs := s.cur.regs, axes := s.cur.axes } = s.cur
      ∧ (∀ a, a ≠ pgAx n + CHN_STAT.off → t.cur.rd a = s.cur.rd a)) ∧
  (∀ (n : Fin 12) (s : State), (s.cur.axis n).cmdTaken = false ∧ s.cur.rsv.pfLine = false →
      s.vis.axisState n = s.cur.axisState n → (s.cur.axis n).sled = false →
      n.val < 4 ∨ s.cur.axisState n ≠ 1 ∨ s.cur.starts (pgAx n) = false → ∃ t, exec (.gearOn n) s = .next t
      ∧ t.cur.get (pgAx n) CHN_STAT_RESULT = 1 ∧ t.cur.axisState n = s.cur.axisState n
      ∧ t.cur.flag (pgAx n) AX_IRQ_CMD_FAIL = true ∧ (t.cur.axis n) = { (s.cur.axis n) with cmdTaken := true } ∧ t.vis = s.vis
      ∧ { t.cur with regs := s.cur.regs, irqSet := s.cur.irqSet, axes := s.cur.axes } = s.cur
      ∧ (∀ a, a ≠ pgAx n + CHN_STAT.off → a ≠ pgAx n + PG_IRQ_RAW.off → t.cur.rd a = s.cur.rd a)) ∧
  (∀ (n : Fin 12) (s : State), (s.cur.axis n).cmdTaken = false ∧ s.cur.rsv.pfLine = false → s.cur.axisState n = 6 →
      s.cur.get (pgAx n) CHN_STAT_FAULT_CODE ≠ 4 ∨ s.vis.tb.linkUp = true → ∃ t, exec (.chnClear n) s = .next t
      ∧ t.cur.axisState n = 1 ∧ t.cur.get (pgAx n) CHN_STAT_RESULT = 0 ∧ t.cur.get (pgAx n) CHN_STAT_FAULT_CODE = 0
      ∧ t.vis = s.vis ∧ { t.cur with regs := s.cur.regs, axes := s.cur.axes } = s.cur
      ∧ (∀ a, a ≠ pgAx n + CHN_STAT.off → a ≠ pgAx n + CHN_ISTAT.off → t.cur.rd a = s.cur.rd a)) ∧
  (∀ (n : Fin 12) (s : State), (s.cur.axis n).cmdTaken = false ∧ s.cur.rsv.pfLine = false → s.cur.axisState n = 6 →
      s.cur.get (pgAx n) CHN_STAT_FAULT_CODE = 4 → s.vis.tb.linkUp = false → ∃ t, exec (.chnClear n) s = .next t
      ∧ t.cur.get (pgAx n) CHN_STAT_RESULT = 1 ∧ t.cur.axisState n = s.cur.axisState n
      ∧ t.cur.flag (pgAx n) AX_IRQ_CMD_FAIL = true ∧ (t.cur.axis n) = { (s.cur.axis n) with cmdTaken := true } ∧ t.vis = s.vis
      ∧ { t.cur with regs := s.cur.regs, irqSet := s.cur.irqSet, axes := s.cur.axes } = s.cur
      ∧ (∀ a, a ≠ pgAx n + CHN_STAT.off → a ≠ pgAx n + PG_IRQ_RAW.off → t.cur.rd a = s.cur.rd a)) ∧
  (∀ (n : Fin 12) (s : State), (s.cur.axis n).cmdTaken = false ∧ s.cur.rsv.pfLine = false →
      s.vis.axisState n = s.cur.axisState n → (s.cur.axis n).sled = false → s.cur.axisState n ≠ 6 →
      ∃ t, exec (.chnClear n) s = .next t ∧ t.cur.get (pgAx n) CHN_STAT_RESULT = 1 ∧ t.cur.axisState n = s.cur.axisState n
      ∧ t.cur.flag (pgAx n) AX_IRQ_CMD_FAIL = true ∧ (t.cur.axis n) = { (s.cur.axis n) with cmdTaken := true } ∧ t.vis = s.vis
      ∧ { t.cur with regs := s.cur.regs, irqSet := s.cur.irqSet, axes := s.cur.axes } = s.cur
      ∧ (∀ a, a ≠ pgAx n + CHN_STAT.off → a ≠ pgAx n + PG_IRQ_RAW.off → t.cur.rd a = s.cur.rd a)) ∧
  (∀ (n : Fin 12) (s : State), (s.cur.axis n).cmdTaken = false ∧ s.cur.rsv.pfLine = false →
      s.vis.axisState n = s.cur.axisState n → (s.cur.axis n).sled = false → s.cur.axisState n ≠ 0 →
      ∃ t, exec (.chnEnable n) s = .next t ∧ t.cur.get (pgAx n) CHN_STAT_RESULT = 1 ∧ t.cur.axisState n = s.cur.axisState n
      ∧ t.cur.flag (pgAx n) AX_IRQ_CMD_FAIL = true ∧ (t.cur.axis n) = { (s.cur.axis n) with cmdTaken := true } ∧ t.vis = s.vis
      ∧ { t.cur with regs := s.cur.regs, irqSet := s.cur.irqSet, axes := s.cur.axes } = s.cur
      ∧ (∀ a, a ≠ pgAx n + CHN_STAT.off → a ≠ pgAx n + PG_IRQ_RAW.off → t.cur.rd a = s.cur.rd a)) ∧
  (∀ (n : Fin 12) (s : State), (s.cur.axis n).cmdTaken = false ∧ s.cur.rsv.pfLine = false →
      s.vis.axisState n = s.cur.axisState n → (s.cur.axis n).sled = false → s.cur.axisState n ≠ 1 ∧ s.cur.axisState n ≠ 6 →
      ∃ t, exec (.chnDisable n) s = .next t ∧ t.cur.get (pgAx n) CHN_STAT_RESULT = 1 ∧ t.cur.axisState n = s.cur.axisState n
      ∧ t.cur.flag (pgAx n) AX_IRQ_CMD_FAIL = true ∧ (t.cur.axis n) = { (s.cur.axis n) with cmdTaken := true } ∧ t.vis = s.vis
      ∧ { t.cur with regs := s.cur.regs, irqSet := s.cur.irqSet, axes := s.cur.axes } = s.cur
      ∧ (∀ a, a ≠ pgAx n + CHN_STAT.off → a ≠ pgAx n + PG_IRQ_RAW.off → t.cur.rd a = s.cur.rd a)) ∧
  (∀ (n : Fin 12) (s : State), s.cur.rsv.pfLine = true → ∃ t, exec (.chnEnable n) s = .next t
      ∧ (t.cur.axis n) = { (s.cur.axis n) with cmdTaken := true } ∧ t.cur.regs = s.cur.regs ∧ t.vis = s.vis
      ∧ { t.cur with regs := s.cur.regs, axes := s.cur.axes } = s.cur) ∧
  (∀ (n : Fin 12) (s : State), (s.cur.axis n).cmdTaken = true → s.cur.rsv.pfLine = false → ∃ t, exec (.chnEnable n) s = .next t
      ∧ t.cur.get (pgAx n) CHN_STAT_RESULT = 2 ∧ t.cur.axisState n = s.cur.axisState n
      ∧ t.cur.flag (pgAx n) AX_IRQ_CMD_FAIL = true ∧ (t.cur.axis n) = (s.cur.axis n) ∧ t.vis = s.vis
      ∧ { t.cur with regs := s.cur.regs, irqSet := s.cur.irqSet, axes := s.cur.axes } = s.cur
      ∧ (∀ a, a ≠ pgAx n + CHN_STAT.off → a ≠ pgAx n + PG_IRQ_RAW.off → t.cur.rd a = s.cur.rd a)) ∧
  (∀ (n : Fin 12) (s : State), s.cur.rsv.pfLine = true → ∃ t, exec (.chnDisable n) s = .next t
      ∧ (t.cur.axis n) = { (s.cur.axis n) with cmdTaken := true } ∧ t.cur.regs = s.cur.regs ∧ t.vis = s.vis
      ∧ { t.cur with regs := s.cur.regs, axes := s.cur.axes } = s.cur) ∧
  (∀ (n : Fin 12) (s : State), (s.cur.axis n).cmdTaken = true → s.cur.rsv.pfLine = false → ∃ t, exec (.chnDisable n) s = .next t
      ∧ t.cur.get (pgAx n) CHN_STAT_RESULT = 2 ∧ t.cur.axisState n = s.cur.axisState n
      ∧ t.cur.flag (pgAx n) AX_IRQ_CMD_FAIL = true ∧ (t.cur.axis n) = (s.cur.axis n) ∧ t.vis = s.vis
      ∧ { t.cur with regs := s.cur.regs, irqSet := s.cur.irqSet, axes := s.cur.axes } = s.cur
      ∧ (∀ a, a ≠ pgAx n + CHN_STAT.off → a ≠ pgAx n + PG_IRQ_RAW.off → t.cur.rd a = s.cur.rd a)) ∧
  (∀ (n : Fin 12) (s : State), s.cur.rsv.pfLine = true → ∃ t, exec (.moveAbs n) s = .next t
      ∧ (t.cur.axis n) = { (s.cur.axis n) with cmdTaken := true } ∧ t.cur.regs = s.cur.regs ∧ t.vis = s.vis
      ∧ { t.cur with regs := s.cur.regs, axes := s.cur.axes } = s.cur) ∧
  (∀ (n : Fin 12) (s : State), (s.cur.axis n).cmdTaken = true → s.cur.rsv.pfLine = false → ∃ t, exec (.moveAbs n) s = .next t
      ∧ t.cur.get (pgAx n) CHN_STAT_RESULT = 2 ∧ t.cur.axisState n = s.cur.axisState n
      ∧ t.cur.flag (pgAx n) AX_IRQ_CMD_FAIL = true ∧ (t.cur.axis n) = (s.cur.axis n) ∧ t.vis = s.vis
      ∧ { t.cur with regs := s.cur.regs, irqSet := s.cur.irqSet, axes := s.cur.axes } = s.cur
      ∧ (∀ a, a ≠ pgAx n + CHN_STAT.off → a ≠ pgAx n + PG_IRQ_RAW.off → t.cur.rd a = s.cur.rd a)) ∧
  (∀ (n : Fin 12) (s : State), s.cur.rsv.pfLine = true → ∃ t, exec (.moveRel n) s = .next t
      ∧ (t.cur.axis n) = { (s.cur.axis n) with cmdTaken := true } ∧ t.cur.regs = s.cur.regs ∧ t.vis = s.vis
      ∧ { t.cur with regs := s.cur.regs, axes := s.cur.axes } = s.cur) ∧
  (∀ (n : Fin 12) (s : State), (s.cur.axis n).cmdTaken = true → s.cur.rsv.pfLine = false → ∃ t, exec (.moveRel n) s = .next t
      ∧ t.cur.get (pgAx n) CHN_STAT_RESULT = 2 ∧ t.cur.axisState n = s.cur.axisState n
      ∧ t.cur.flag (pgAx n) AX_IRQ_CMD_FAIL = true ∧ (t.cur.axis n) = (s.cur.axis n) ∧ t.vis = s.vis
      ∧ { t.cur with regs := s.cur.regs, irqSet := s.cur.irqSet, axes := s.cur.axes } = s.cur
      ∧ (∀ a, a ≠ pgAx n + CHN_STAT.off → a ≠ pgAx n + PG_IRQ_RAW.off → t.cur.rd a = s.cur.rd a)) ∧
  (∀ (n : Fin 12) (s : State), s.cur.rsv.pfLine = true → ∃ t, exec (.chnStop n) s = .next t
      ∧ (t.cur.axis n) = { (s.cur.axis n) with cmdTaken := true } ∧ t.cur.regs = s.cur.regs ∧ t.vis = s.vis
      ∧ { t.cur with regs := s.cur.regs, axes := s.cur.axes } = s.cur) ∧
  (∀ (n : Fin 12) (s : State), (s.cur.axis n).cmdTaken = true → s.cur.rsv.pfLine = false → ∃ t, exec (.chnStop n) s = .next t
      ∧ t.cur.get (pgAx n) CHN_STAT_RESULT = 2 ∧ t.cur.axisState n = s.cur.axisState n
      ∧ t.cur.flag (pgAx n) AX_IRQ_CMD_FAIL = true ∧ (t.cur.axis n) = (s.cur.axis n) ∧ t.vis = s.vis
      ∧ { t.cur with regs := s.cur.regs, irqSet := s.cur.irqSet, axes := s.cur.axes } = s.cur
      ∧ (∀ a, a ≠ pgAx n + CHN_STAT.off → a ≠ pgAx n + PG_IRQ_RAW.off → t.cur.rd a = s.cur.rd a)) ∧
  (∀ (n : Fin 12) (s : State), s.cur.rsv.pfLine = true → ∃ t, exec (.halt n) s = .next t
      ∧ (t.cur.axis n) = { (s.cur.axis n) with cmdTaken := true } ∧ t.cur.regs = s.cur.regs ∧ t.vis = s.vis
      ∧ { t.cur with regs := s.cur.regs, axes := s.cur.axes } = s.cur) ∧
  (∀ (n : Fin 12) (s : State), (s.cur.axis n).cmdTaken = true → s.cur.rsv.pfLine = false → ∃ t, exec (.halt n) s = .next t
      ∧ t.cur.get (pgAx n) CHN_STAT_RESULT = 2 ∧ t.cur.axisState n = s.cur.axisState n
      ∧ t.cur.flag (pgAx n) AX_IRQ_CMD_FAIL = true ∧ (t.cur.axis n) = (s.cur.axis n) ∧ t.vis = s.vis
      ∧ { t.cur with regs := s.cur.regs, irqSet := s.cur.irqSet, axes := s.cur.axes } = s.cur
      ∧ (∀ a, a ≠ pgAx n + CHN_STAT.off → a ≠ pgAx n + PG_IRQ_RAW.off → t.cur.rd a = s.cur.rd a)) ∧
  (∀ (n : Fin 12) (s : State), s.cur.rsv.pfLine = true → ∃ t, exec (.home n) s = .next t
      ∧ (t.cur.axis n) = { (s.cur.axis n) with cmdTaken := true } ∧ t.cur.regs = s.cur.regs ∧ t.vis = s.vis
      ∧ { t.cur with regs := s.cur.regs, axes := s.cur.axes } = s.cur) ∧
  (∀ (n : Fin 12) (s : State), (s.cur.axis n).cmdTaken = true → s.cur.rsv.pfLine = false → ∃ t, exec (.home n) s = .next t
      ∧ t.cur.get (pgAx n) CHN_STAT_RESULT = 2 ∧ t.cur.axisState n = s.cur.axisState n
      ∧ t.cur.flag (pgAx n) AX_IRQ_CMD_FAIL = true ∧ (t.cur.axis n) = (s.cur.axis n) ∧ t.vis = s.vis
      ∧ { t.cur with regs := s.cur.regs, irqSet := s.cur.irqSet, axes := s.cur.axes } = s.cur
      ∧ (∀ a, a ≠ pgAx n + CHN_STAT.off → a ≠ pgAx n + PG_IRQ_RAW.off → t.cur.rd a = s.cur.rd a)) ∧
  (∀ (n : Fin 12) (s : State), s.cur.rsv.pfLine = true → ∃ t, exec (.setPos n) s = .next t
      ∧ (t.cur.axis n) = { (s.cur.axis n) with cmdTaken := true } ∧ t.cur.regs = s.cur.regs ∧ t.vis = s.vis
      ∧ { t.cur with regs := s.cur.regs, axes := s.cur.axes } = s.cur) ∧
  (∀ (n : Fin 12) (s : State), (s.cur.axis n).cmdTaken = true → s.cur.rsv.pfLine = false → ∃ t, exec (.setPos n) s = .next t
      ∧ t.cur.get (pgAx n) CHN_STAT_RESULT = 2 ∧ t.cur.axisState n = s.cur.axisState n
      ∧ t.cur.flag (pgAx n) AX_IRQ_CMD_FAIL = true ∧ (t.cur.axis n) = (s.cur.axis n) ∧ t.vis = s.vis
      ∧ { t.cur with regs := s.cur.regs, irqSet := s.cur.irqSet, axes := s.cur.axes } = s.cur
      ∧ (∀ a, a ≠ pgAx n + CHN_STAT.off → a ≠ pgAx n + PG_IRQ_RAW.off → t.cur.rd a = s.cur.rd a)) ∧
  (∀ (n : Fin 12) (s : State), s.cur.rsv.pfLine = true → ∃ t, exec (.gearOn n) s = .next t
      ∧ (t.cur.axis n) = { (s.cur.axis n) with cmdTaken := true } ∧ t.cur.regs = s.cur.regs ∧ t.vis = s.vis
      ∧ { t.cur with regs := s.cur.regs, axes := s.cur.axes } = s.cur) ∧
  (∀ (n : Fin 12) (s : State), (s.cur.axis n).cmdTaken = true → s.cur.rsv.pfLine = false → ∃ t, exec (.gearOn n) s = .next t
      ∧ t.cur.get (pgAx n) CHN_STAT_RESULT = 2 ∧ t.cur.axisState n = s.cur.axisState n
      ∧ t.cur.flag (pgAx n) AX_IRQ_CMD_FAIL = true ∧ (t.cur.axis n) = (s.cur.axis n) ∧ t.vis = s.vis
      ∧ { t.cur with regs := s.cur.regs, irqSet := s.cur.irqSet, axes := s.cur.axes } = s.cur
      ∧ (∀ a, a ≠ pgAx n + CHN_STAT.off → a ≠ pgAx n + PG_IRQ_RAW.off → t.cur.rd a = s.cur.rd a)) ∧
  (∀ (n : Fin 12) (s : State), s.cur.rsv.pfLine = true → ∃ t, exec (.chnClear n) s = .next t
      ∧ (t.cur.axis n) = { (s.cur.axis n) with cmdTaken := true } ∧ t.cur.regs = s.cur.regs ∧ t.vis = s.vis
      ∧ { t.cur with regs := s.cur.regs, axes := s.cur.axes } = s.cur) ∧
  (∀ (n : Fin 12) (s : State), (s.cur.axis n).cmdTaken = true → s.cur.rsv.pfLine = false → ∃ t, exec (.chnClear n) s = .next t
      ∧ t.cur.get (pgAx n) CHN_STAT_RESULT = 2 ∧ t.cur.axisState n = s.cur.axisState n
      ∧ t.cur.flag (pgAx n) AX_IRQ_CMD_FAIL = true ∧ (t.cur.axis n) = (s.cur.axis n) ∧ t.vis = s.vis
      ∧ { t.cur with regs := s.cur.regs, irqSet := s.cur.irqSet, axes := s.cur.axes } = s.cur
      ∧ (∀ a, a ≠ pgAx n + CHN_STAT.off → a ≠ pgAx n + PG_IRQ_RAW.off → t.cur.rd a = s.cur.rd a))

/-- A move ends OK when its target step has been captured at VMIN or below. A sled request moves an IDLE sled and is
dropped otherwise. A stall at STALL_G or DEV_G, a geared axis at a limit and a missing home switch end in FAULT with
CHN_STALL, CHN_LIMIT or CHN_HOME. A gear change in the crossing Grain is split between the ratios. Illegal
transitions, index pulses and writes of an encoder count act as the rules say. Commands that it says to complete, each
on the conditions of its clauses: moveTargetReached, sledMoveRequest, sledStall, deviationStall, softLimitReached,
homeInput, homeTimeout, gearSwitch, gearArm, encoderIllegal, encoderIndex, cencPosWrite. -/
def Obligations.AxisEvents : Prop :=
  (∀ (n : Fin 12) (s : State), s.cur.axisState n = 2 → (s.cur.axis n).reversing = false →
      s.cur.axisPos n = (s.cur.axis n).target → s.vis.get (pgAx n) CHN_VEL_V ≤ s.cur.axVmin n → (s.cur.axis n).sled = false →
      s.cur.rsv.pfLine = false → ∃ t, exec (.moveTargetReached n) s = .next t ∧ t.cur.axisState n = 1
      ∧ t.cur.get (pgAx n) CHN_VEL_V = 0 ∧ t.cur.get (pgAx n) CHN_DEC_USE_A = s.cur.axDec n ∧ (t.cur.axis n).sled = false
      ∧ t.cur.get (pgAx n) CHN_STAT_RESULT = 0 ∧ t.cur.flag (pgAx n) AX_IRQ_DONE = true ∧ t.vis = s.vis
      ∧ { t.cur with regs := s.cur.regs, irqSet := s.cur.irqSet, axes := s.cur.axes } = s.cur
      ∧ (∀ a, a ≠ pgAx n + CHN_STAT.off → a ≠ pgAx n + PG_IRQ_RAW.off → a ≠ pgAx n + CHN_VEL.off → a ≠ pgAx n + CHN_ISTAT.off → a ≠ pgAx n + CHN_DEC_USE.off → t.cur.rd a = s.cur.rd a)) ∧
  (∀ (n : Fin 12) (s : State), s.cur.axisState n = 2 → (s.cur.axis n).reversing = false →
      s.cur.axisPos n = (s.cur.axis n).target → s.vis.get (pgAx n) CHN_VEL_V ≤ s.cur.axVmin n →
      (s.cur.axis n).sled = true ∨ s.cur.rsv.pfLine = true → ∃ t, exec (.moveTargetReached n) s = .next t
      ∧ t.cur.axisState n = 1 ∧ t.cur.get (pgAx n) CHN_VEL_V = 0 ∧ t.cur.get (pgAx n) CHN_DEC_USE_A = s.cur.axDec n
      ∧ (t.cur.axis n).sled = false ∧ t.cur.get (pgAx n) CHN_STAT_RESULT = s.cur.get (pgAx n) CHN_STAT_RESULT ∧ t.vis = s.vis
      ∧ { t.cur with regs := s.cur.regs, axes := s.cur.axes } = s.cur
      ∧ (∀ a, a ≠ pgAx n + CHN_STAT.off → a ≠ pgAx n + CHN_VEL.off → a ≠ pgAx n + CHN_ISTAT.off → a ≠ pgAx n + CHN_DEC_USE.off → t.cur.rd a = s.cur.rd a)) ∧
  (∀ (n : Fin 12) (s : State),
      s.cur.axisState n ≠ 2 ∨ s.cur.axisPos n ≠ (s.cur.axis n).target ∨ s.cur.axVmin n < s.vis.get (pgAx n) CHN_VEL_V →
      ∃ t, exec (.moveTargetReached n) s = .next t ∧ t.cur = s.cur ∧ t.vis = s.vis
      ∧ { t.cur with regs := s.cur.regs, irqSet := s.cur.irqSet, axes := s.cur.axes } = s.cur) ∧
  (∀ (n : Fin 4) (m : Int) (s : State), (s.vis.optPort n).sled = some m → s.cur.axisState n = 1 → s.cur.starts (pgAx n) = true →
      (s.cur.posRange n).1 ≤ (s.cur.axisPos n + m) → (s.cur.axisPos n + m) ≤ (s.cur.posRange n).2 →
      ∃ t, exec (.sledMoveRequest n) s = .next t ∧ t.cur.axisState n = 2 ∧ (t.cur.axis n).target = (s.cur.axisPos n + m)
      ∧ (t.cur.axis n).sled = true ∧ t.cur.get (pgAx n) CHN_STAT_RESULT = s.cur.get (pgAx n) CHN_STAT_RESULT ∧ t.vis = s.vis
      ∧ { t.cur with regs := s.cur.regs, axes := s.cur.axes } = s.cur
      ∧ (∀ a, a ≠ pgAx n + CHN_STAT.off → t.cur.rd a = s.cur.rd a)) ∧
  (∀ (n : Fin 4) (m : Int) (s : State), (s.vis.optPort n).sled = some m →
      s.cur.axisState n ≠ 1 ∨ s.cur.starts (pgAx n) = false ∨ (s.cur.axisPos n + m) < (s.cur.posRange n).1 ∨ (s.cur.posRange n).2 < (s.cur.axisPos n + m) →
      ∃ t, exec (.sledMoveRequest n) s = .next t ∧ t.cur = s.cur ∧ t.vis = s.vis
      ∧ { t.cur with regs := s.cur.regs, axes := s.cur.axes } = s.cur) ∧
  (∀ (n : Fin 4) (s : State), 2 ≤ s.cur.axisState n → s.cur.axisState n ≠ 6 →
      max 1 (s.cur.get (pgAx n) CHN_LOAD_STALL_G) ≤ (s.cur.axis n).stall → ∃ t, exec (.sledStall n) s = .next t
      ∧ t.cur.axisState n = 6 ∧ t.cur.get (pgAx n) CHN_VEL_V = 0 ∧ t.cur.get (pgAx n) CHN_STAT_FAULT_CODE = 1
      ∧ t.cur.flag (pgAx n) AX_IRQ_FAULT = true ∧ (t.cur.axis n).lag = 0 ∧ t.cur.flag (pgAx n) CHN_STAT_REF = false
      ∧ t.cur.fj.staged = s.cur.fj.staged ++ [{ gtime := s.cur.gtime48, pgId := pgIdOf (pgAx n), code := 0x0B01, deg := false, flt := false, data := [ofInt 32 (s.cur.axisPos n), s.cur.get (pgAx n) CHN_VEL_V] }]
      ∧ t.vis = s.vis ∧ { t.cur with regs := s.cur.regs, irqSet := s.cur.irqSet, fj := s.cur.fj, axes := s.cur.axes } = s.cur
      ∧ (∀ a, a ≠ pgAx n + CHN_STAT.off → a ≠ pgAx n + CHN_VEL.off → a ≠ pgAx n + CHN_DEC_USE.off → a ≠ pgAx n + PG_IRQ_RAW.off → t.cur.rd a = s.cur.rd a)) ∧
  (∀ (n : Fin 4) (s : State), (s.cur.axis n).stall < max 1 (s.cur.get (pgAx n) CHN_LOAD_STALL_G) →
      ∃ t, exec (.sledStall n) s = .next t ∧ t.cur = s.cur ∧ t.vis = s.vis
      ∧ { t.cur with regs := s.cur.regs, irqSet := s.cur.irqSet, fj := s.cur.fj, axes := s.cur.axes } = s.cur) ∧
  (∀ (n : Fin 12) (s : State), 4 ≤ n.val → s.cur.axisState n ≠ 0 ∧ s.cur.axisState n ≠ 6 →
      max 1 (s.cur.get (pgAx n) CHN_DEV_DEV_G) ≤ (s.cur.axis n).dev → ∃ t, exec (.deviationStall n) s = .next t
      ∧ t.cur.axisState n = 6 ∧ t.cur.get (pgAx n) CHN_VEL_V = 0 ∧ t.cur.get (pgAx n) CHN_STAT_FAULT_CODE = 1
      ∧ t.cur.flag (pgAx n) AX_IRQ_FAULT = true ∧ (t.cur.axis n).lag = 0 ∧ (t.cur.axis n).posSet = some (s.cur.encSteps n)
      ∧ t.cur.flag (pgAx n) CHN_STAT_REF = s.cur.flag (pgAx n) CHN_STAT_REF
      ∧ t.cur.fj.staged = s.cur.fj.staged ++ [{ gtime := s.cur.gtime48, pgId := pgIdOf (pgAx n), code := 0x0B01, deg := false, flt := false, data := [ofInt 32 (s.cur.axisPos n), s.cur.get (pgAx n) CHN_VEL_V] }]
      ∧ t.vis = s.vis ∧ { t.cur with regs := s.cur.regs, irqSet := s.cur.irqSet, fj := s.cur.fj, axes := s.cur.axes } = s.cur
      ∧ (∀ a, a ≠ pgAx n + CHN_STAT.off → a ≠ pgAx n + CHN_VEL.off → a ≠ pgAx n + CHN_DEC_USE.off → a ≠ pgAx n + PG_IRQ_RAW.off → t.cur.rd a = s.cur.rd a)) ∧
  (∀ (n : Fin 12) (s : State),
      n.val < 4 ∨ s.cur.axisState n = 0 ∨ s.cur.axisState n = 6 ∨ (s.cur.axis n).dev < max 1 (s.cur.get (pgAx n) CHN_DEV_DEV_G) →
      ∃ t, exec (.deviationStall n) s = .next t ∧ t.cur = s.cur ∧ t.vis = s.vis
      ∧ { t.cur with regs := s.cur.regs, irqSet := s.cur.irqSet, fj := s.cur.fj, axes := s.cur.axes } = s.cur) ∧
  (∀ (n : Fin 12) (s : State), s.cur.axisState n = 5 →
      s.cur.axisPos n ≤ (s.cur.posRange n).1 ∨ (s.cur.posRange n).2 ≤ s.cur.axisPos n →
      ∃ t, exec (.softLimitReached n) s = .next t ∧ t.cur.axisState n = 6 ∧ t.cur.get (pgAx n) CHN_VEL_V = 0
      ∧ t.cur.get (pgAx n) CHN_STAT_FAULT_CODE = 3 ∧ t.cur.flag (pgAx n) AX_IRQ_FAULT = true ∧ (t.cur.axis n).lag = 0
      ∧ t.cur.fj.staged = s.cur.fj.staged ++ [{ gtime := s.cur.gtime48, pgId := pgIdOf (pgAx n), code := 0x0B03, deg := false, flt := false, data := [ofInt 32 (s.cur.axisPos n)] }]
      ∧ t.vis = s.vis ∧ { t.cur with regs := s.cur.regs, irqSet := s.cur.irqSet, fj := s.cur.fj, axes := s.cur.axes } = s.cur
      ∧ (∀ a, a ≠ pgAx n + CHN_STAT.off → a ≠ pgAx n + CHN_VEL.off → a ≠ pgAx n + CHN_DEC_USE.off → a ≠ pgAx n + PG_IRQ_RAW.off → t.cur.rd a = s.cur.rd a)) ∧
  (∀ (n : Fin 12) (s : State),
      s.cur.axisState n ≠ 5 ∨ ((s.cur.posRange n).1 < s.cur.axisPos n ∧ s.cur.axisPos n < (s.cur.posRange n).2) →
      ∃ t, exec (.softLimitReached n) s = .next t ∧ t.cur = s.cur ∧ t.vis = s.vis
      ∧ { t.cur with regs := s.cur.regs, irqSet := s.cur.irqSet, fj := s.cur.fj, axes := s.cur.axes } = s.cur) ∧
  (∀ (n : Fin 12) (clk : Fin 500) (s : State), s.cur.axisState n = 4 → (s.cur.axis n).homeAt = none →
      ∃ t, exec (.homeInput n clk) s = .next t ∧ t.cur.axisState n = 3
      ∧ ((t.cur.axis n).homeAt = some ((s.cur.axis n).gPos + (if (s.cur.axis n).gNeg then -((((s.cur.axis n).gPhase + (s.cur.axis n).gVel * (clk.val + 1)) / 2 ^ 40 : Nat) : Int) else ((((s.cur.axis n).gPhase + (s.cur.axis n).gVel * (clk.val + 1)) / 2 ^ 40 : Nat) : Int))))
      ∧ (t.cur.axis n).after = .home ∧ t.vis = s.vis ∧ { t.cur with regs := s.cur.regs, axes := s.cur.axes } = s.cur
      ∧ (∀ a, a ≠ pgAx n + CHN_STAT.off → t.cur.rd a = s.cur.rd a)) ∧
  (∀ (n : Fin 12) (clk : Fin 500) (s : State), s.cur.axisState n ≠ 4 ∨ (s.cur.axis n).homeAt ≠ none →
      ∃ t, exec (.homeInput n clk) s = .next t ∧ t.cur = s.cur ∧ t.vis = s.vis
      ∧ { t.cur with regs := s.cur.regs, axes := s.cur.axes } = s.cur) ∧
  (∀ (n : Fin 12) (s : State), s.cur.axisState n = 4 → (s.cur.axis n).switched = false →
      (s.cur.axis n).since + 256 * max 1 (s.cur.get (pgAx n) CHN_HOME_CFG_HOME_TO_S) ≤ s.cur.gtime →
      ∃ t, exec (.homeTimeout n) s = .next t ∧ t.cur.axisState n = 3 ∧ (t.cur.axis n).after = .homeFail ∧ t.vis = s.vis
      ∧ { t.cur with regs := s.cur.regs, irqSet := s.cur.irqSet, axes := s.cur.axes } = s.cur
      ∧ (∀ a, a ≠ pgAx n + CHN_STAT.off → a ≠ pgAx n + PG_IRQ_RAW.off → a ≠ pgAx n + CHN_VEL.off → a ≠ pgAx n + CHN_ISTAT.off → a ≠ pgAx n + CHN_DEC_USE.off → t.cur.rd a = s.cur.rd a)) ∧
  (∀ (n : Fin 12) (s : State),
      s.cur.axisState n ≠ 4 ∨ s.cur.gtime < (s.cur.axis n).since + 256 * max 1 (s.cur.get (pgAx n) CHN_HOME_CFG_HOME_TO_S) →
      ∃ t, exec (.homeTimeout n) s = .next t ∧ t.cur = s.cur ∧ t.vis = s.vis
      ∧ { t.cur with regs := s.cur.regs, irqSet := s.cur.irqSet, axes := s.cur.axes } = s.cur) ∧
  (∀ (n : Fin 12) (s : State), s.cur.axisState n = 5 → s.cur.flag (pgAx n) CHN_STEP_CFG_ARM = true →
      ((s.cur.axis n).masterOld < s.cur.getI (pgAx n) CHN_GEAR_POS_POS ∧ s.cur.getI (pgAx n) CHN_GEAR_POS_POS ≤ (s.cur.axis n).master) ∨ ((s.cur.axis n).master ≤ s.cur.getI (pgAx n) CHN_GEAR_POS_POS ∧ s.cur.getI (pgAx n) CHN_GEAR_POS_POS < (s.cur.axis n).masterOld) →
      ∃ t, exec (.gearSwitch n) s = .next t ∧ t.cur.getI (pgAx n) CHN_GEAR_RATIO_RATIO = s.cur.getI (pgAx n) CHN_GEAR_NEXT_RATIO
      ∧ t.cur.flag (pgAx n) CHN_STEP_CFG_ARM = false ∧ t.cur.flag (pgAx n) AX_IRQ_GEAR_SWITCH = true ∧ t.cur.axisState n = 5
      ∧ (t.cur.axis n) = { (s.cur.axis n) with masterOld := s.cur.getI (pgAx n) CHN_GEAR_POS_POS, fracOld := (s.cur.axis n).fracOld + (s.cur.getI (pgAx n) CHN_GEAR_POS_POS - (s.cur.axis n).masterOld) * s.cur.getI (pgAx n) CHN_GEAR_RATIO_RATIO, switched := true }
      ∧ ((Dev.axisPlan s.vis t.cur n).axis n).frac = ((s.cur.axis n).fracOld + ((s.cur.getI (pgAx n) CHN_GEAR_POS_POS - (s.cur.axis n).masterOld) * s.cur.getI (pgAx n) CHN_GEAR_RATIO_RATIO + ((s.cur.axis n).master - s.cur.getI (pgAx n) CHN_GEAR_POS_POS) * s.cur.getI (pgAx n) CHN_GEAR_NEXT_RATIO)) % 65536
      ∧ t.vis = s.vis ∧ { t.cur with regs := s.cur.regs, irqSet := s.cur.irqSet, axes := s.cur.axes } = s.cur
      ∧ (∀ a, a ≠ pgAx n + CHN_GEAR_RATIO.off → a ≠ pgAx n + CHN_STEP_CFG.off → a ≠ pgAx n + PG_IRQ_RAW.off → t.cur.rd a = s.cur.rd a)) ∧
  (∀ (n : Fin 12) (s : State),
      s.cur.axisState n ≠ 5 ∨ s.cur.flag (pgAx n) CHN_STEP_CFG_ARM = false ∨ (s.cur.axis n).masterOld = (s.cur.axis n).master →
      ∃ t, exec (.gearSwitch n) s = .next t ∧ t.cur = s.cur ∧ t.vis = s.vis
      ∧ { t.cur with regs := s.cur.regs, irqSet := s.cur.irqSet, axes := s.cur.axes } = s.cur) ∧
  (∀ (n : Fin 12) (v : Word) (s : State), 4 ≤ n.val → bit v.toNat 1 = true → ∃ t, exec (.gearArm n v) s = .next t
      ∧ t.cur.flag (pgAx n) CHN_STEP_CFG_ARM = true ∧ t.vis = s.vis ∧ { t.cur with regs := s.cur.regs } = s.cur
      ∧ (∀ a, a ≠ pgAx n + CHN_STEP_CFG.off → t.cur.rd a = s.cur.rd a)) ∧
  (∀ (n : Fin 12) (v : Word) (s : State), n.val < 4 ∨ bit v.toNat 1 = false → ∃ t, exec (.gearArm n v) s = .next t
      ∧ t.cur = s.cur ∧ t.vis = s.vis ∧ { t.cur with regs := s.cur.regs } = s.cur) ∧
  (∀ (e : Fin 8) (s : State), ∃ t, exec (.encoderIllegal e) s = .next t ∧ bit (t.cur.get pgCenc CENC_ERR_ILLEGAL) e = true
      ∧ (∀ n : Fin 12, s.cur.usesEncoder n e = true → t.cur.flag (pgAx n) AX_IRQ_ENC_ERR = true)
      ∧ t.cur.fj.staged = s.cur.fj.staged ++ [{ gtime := s.cur.gtime48, pgId := pgIdOf pgCenc, code := 0x0B02, deg := false, flt := false, data := [e.val] }]
      ∧ t.vis = s.vis ∧ { t.cur with regs := s.cur.regs, irqSet := s.cur.irqSet, fj := s.cur.fj } = s.cur) ∧
  (∀ (e : Fin 8) (z : BitVec 16) (s : State), bit (s.cur.get pgCenc CENC_CFG_ENC) (4 * e.val + 3) = true →
      ∃ t, exec (.encoderIndex e z) s = .next t
      ∧ (t.cur.getI pgCenc (CENC_POS_COUNT.idx e) = (if bit (s.cur.get pgCenc CENC_CFG_ENC) (4 * e.val + 2) then -(sext 16 z.toNat) else sext 16 z.toNat))
      ∧ bit (t.cur.get pgCenc CENC_CFG_ENC) (4 * e.val + 3) = false ∧ t.vis = s.vis ∧ { t.cur with regs := s.cur.regs } = s.cur
      ∧ (∀ a, a ≠ pgCenc + CENC_CFG.off → a ≠ pgCenc + (CENC_POS_COUNT.idx e).off → t.cur.rd a = s.cur.rd a)) ∧
  (∀ (e : Fin 8) (z : BitVec 16) (s : State), bit (s.cur.get pgCenc CENC_CFG_ENC) (4 * e.val + 3) = false →
      ∃ t, exec (.encoderIndex e z) s = .next t ∧ t.cur = s.cur ∧ t.vis = s.vis ∧ { t.cur with regs := s.cur.regs } = s.cur) ∧
  (∀ (e : Fin 8) (v : Word) (s : State),
      ((List.range 12).any (fun n => s.cur.axisState n == 5 && s.cur.get (pgAx n) CHN_CTL_MASTER == e.val) = false) →
      ∃ t, exec (.cencPosWrite e v) s = .next t ∧ t.cur = { s.cur with encSet := s.cur.encSet.setIfInBounds e.val (some v) }
      ∧ t.vis = s.vis ∧ (t.cur.encCount e 5).get pgCenc (CENC_POS_COUNT.idx e) = v.toNat) ∧
  (∀ (e : Fin 8) (v : Word) (s : State),
      ((List.range 12).any (fun n => s.cur.axisState n == 5 && s.cur.get (pgAx n) CHN_CTL_MASTER == e.val) = true) →
      ∃ t, exec (.cencPosWrite e v) s = .next t ∧ t.cur = s.cur ∧ t.vis = s.vis)

/-- START requests a run or arms a TIMER or CHAIN channel, and is refused with the first failing check; a request beside a
pending or running one sets MISSED. STOP disarms and drops the request. A timer fires at its edges and requests the
armed channels that name it. A free engine takes the earliest request. In a Grain the run in progress moves its next
elements in order, at most 4,000, and UD_DONE counts them; memory outside these elements is unchanged. A run that has
moved every element completes: it counts and raises DONE and the chained requests. A bus error ends it with the
elements before it moved. Commands that it says to complete, each on the conditions of its clauses: udStart, udStop,
udTimerFire, udRunBegin, udRunComplete, udBusError. -/
def Obligations.UtilityDma : Prop :=
  (∀ (c : Fin 32) (n m : Nat) (d : Dev), d.ud.running = some c.val → d.ud.began ≤ d.gtime → d.ud.moved < d.udElems c →
    d.udElems c < 2 ^ 32 → (d.get (pgUd c) UD_CFG_MODE = 2 → d.udSize c = 8) → m = min (min n 4000) (d.udElems c - d.ud.moved) →
    (d.udAdvance n).mem = (d.udMove c d.ud.moved m).mem ∧ (d.udAdvance n).get (pgUd c) UD_DONE_ELEMS = d.ud.moved + m ∧
    (d.udAdvance n).ud = { d.ud with moved := d.ud.moved + m, elems := d.ud.elems + m } ∧
    (∀ a, (∀ k, d.ud.moved ≤ k → k < d.ud.moved + m → a < (d.udAddr c k).2 ∨ (d.udAddr c k).2 + d.udSize c ≤ a) →
      memGet (d.udAdvance n).mem a = memGet d.mem a)) ∧
  (∀ (c : Fin 32) (r : Requester) (s : State), s.cur.udCheck c = none → s.cur.starts (pgUd c) = false →
      ∃ t, exec (.udStart c r) s = .next t ∧ t.cur = s.cur ∧ t.vis = s.vis
      ∧ { t.cur with regs := s.cur.regs, irqSet := s.cur.irqSet, ud := s.cur.ud } = s.cur) ∧
  (∀ (c : Fin 32) (r : Requester) (s : State), s.cur.udCheck c = none → s.cur.starts (pgUd c) = true →
      s.cur.get (pgUd c) UD_TRIG_KIND = 1 ∨ s.cur.get (pgUd c) UD_TRIG_KIND = 2 → ∃ t, exec (.udStart c r) s = .next t
      ∧ t.cur.flag (pgUd c) UD_STAT_ARMED = true ∧ t.cur.get (pgUd c) UD_STAT_ERR = 0 ∧ t.cur.ud = s.cur.ud ∧ t.vis = s.vis
      ∧ { t.cur with regs := s.cur.regs, ud := s.cur.ud } = s.cur ∧ (∀ a, a ≠ pgUd c + UD_STAT.off → t.cur.rd a = s.cur.rd a)) ∧
  (∀ (c : Fin 32) (r : Requester) (s : State), s.cur.udCheck c = none → s.cur.starts (pgUd c) = true →
      s.cur.get (pgUd c) UD_TRIG_KIND ≠ 1 → s.cur.get (pgUd c) UD_TRIG_KIND ≠ 2 → s.cur.flag (pgUd c) UD_STAT_PENDING = false →
      s.cur.flag (pgUd c) UD_STAT_RUNNING = false → ∃ t, exec (.udStart c r) s = .next t
      ∧ t.cur.flag (pgUd c) UD_STAT_PENDING = true ∧ t.cur.flag (pgUd c) UD_STAT_ARMED = s.cur.flag (pgUd c) UD_STAT_ARMED
      ∧ t.cur.get (pgUd c) UD_STAT_ERR = 0 ∧ t.cur.ud = { s.cur.ud with queue := s.cur.ud.queue ++ [(s.cur.gtime, c.val)] }
      ∧ t.vis = s.vis ∧ { t.cur with regs := s.cur.regs, ud := s.cur.ud } = s.cur
      ∧ (∀ a, a ≠ pgUd c + UD_STAT.off → t.cur.rd a = s.cur.rd a)) ∧
  (∀ (c : Fin 32) (r : Requester) (s : State), s.cur.udCheck c = none → s.cur.starts (pgUd c) = true →
      s.cur.get (pgUd c) UD_TRIG_KIND ≠ 1 → s.cur.get (pgUd c) UD_TRIG_KIND ≠ 2 →
      s.cur.flag (pgUd c) UD_STAT_PENDING = true ∨ s.cur.flag (pgUd c) UD_STAT_RUNNING = true →
      ∃ t, exec (.udStart c r) s = .next t ∧ t.cur.flag (pgUd c) UD_STAT_MISSED = true
      ∧ t.cur.flag (pgUd c) UD_IRQ_MISSED = true ∧ t.cur.ud = s.cur.ud ∧ t.vis = s.vis
      ∧ { t.cur with regs := s.cur.regs, irqSet := s.cur.irqSet, ud := s.cur.ud } = s.cur
      ∧ (∀ a, a ≠ pgUd c + UD_STAT.off → a ≠ pgUd c + PG_IRQ_RAW.off → t.cur.rd a = s.cur.rd a)) ∧
  (∀ (c : Fin 32) (r : Requester) (e : Nat) (s : State), s.cur.udCheck c = some e → ∃ t, exec (.udStart c r) s = .next t
      ∧ t.cur.get (pgUd c) UD_STAT_ERR = e ∧ t.cur.flag (pgUd c) UD_IRQ_ERR = true
      ∧ t.cur.flag (pgUd c) UD_STAT_PENDING = s.cur.flag (pgUd c) UD_STAT_PENDING
      ∧ t.cur.flag (pgUd c) UD_STAT_ARMED = s.cur.flag (pgUd c) UD_STAT_ARMED
      ∧ (s.cur.flag (pgUd c) PG_ERR_INFO_VALID = false → t.cur.get (pgUd c) PG_ERR_INFO_CODE = ErrCode.udRefused.value)
      ∧ t.vis = s.vis ∧ { t.cur with regs := s.cur.regs, irqSet := s.cur.irqSet } = s.cur
      ∧ (∀ a, a ≠ pgUd c + UD_STAT.off → a ≠ pgUd c + PG_IRQ_RAW.off → a ≠ pgUd c + PG_ERR_INFO.off → a ≠ pgUd c + PG_ERR_ADDR_LO.off → a ≠ pgUd c + PG_ERR_ADDR_HI.off → a ≠ pgUd c + PG_ERR_COUNT.off → t.cur.rd a = s.cur.rd a)) ∧
  (∀ (c : Fin 32) (s : State), ∃ t, exec (.udStop c) s = .next t ∧ t.cur.flag (pgUd c) UD_STAT_ARMED = false
      ∧ t.cur.flag (pgUd c) UD_STAT_PENDING = false ∧ t.cur.flag (pgUd c) UD_STAT_RUNNING = s.cur.flag (pgUd c) UD_STAT_RUNNING
      ∧ (t.cur.ud = { s.cur.ud with queue := s.cur.ud.queue.filter (fun x => x.2 != c.val) }) ∧ t.vis = s.vis
      ∧ { t.cur with regs := s.cur.regs, ud := s.cur.ud } = s.cur ∧ (∀ a, a ≠ pgUd c + UD_STAT.off → t.cur.rd a = s.cur.rd a)) ∧
  (∀ (x : Fin 16) (c : Fin 32) (s : State), s.vis.get pgBush (BUSH_TMR_PERIOD.idx x) ≠ 0 →
      ((s.cur.gtime : Int) - (s.vis.get pgBush (BUSH_TMR_PHASE.idx x) : Int)) % s.vis.get pgBush (BUSH_TMR_PERIOD.idx x) = 0 →
      bit s.cur.ud.fired x = false → s.cur.flag (pgUd c) UD_STAT_ARMED = true → s.cur.get (pgUd c) UD_TRIG_KIND = 1 →
      s.cur.get (pgUd c) UD_TRIG_SEL = x.val → s.cur.flag (pgUd c) UD_STAT_PENDING = false →
      s.cur.flag (pgUd c) UD_STAT_RUNNING = false → ∃ t, exec (.udTimerFire x) s = .next t
      ∧ t.cur.flag (pgUd c) UD_STAT_PENDING = true ∧ (s.cur.gtime, c.val) ∈ t.cur.ud.queue ∧ bit t.cur.ud.fired x = true
      ∧ t.vis = s.vis ∧ { t.cur with regs := s.cur.regs, irqSet := s.cur.irqSet, ud := s.cur.ud } = s.cur) ∧
  (∀ (x : Fin 16) (s : State), s.vis.get pgBush (BUSH_TMR_PERIOD.idx x) ≠ 0 →
      ((s.cur.gtime : Int) - (s.vis.get pgBush (BUSH_TMR_PHASE.idx x) : Int)) % s.vis.get pgBush (BUSH_TMR_PERIOD.idx x) = 0 →
      bit s.cur.ud.fired x = false → (∀ c : Fin 32, s.cur.flag (pgUd c) UD_STAT_ARMED = false) →
      ∃ t, exec (.udTimerFire x) s = .next t ∧ t.cur.ud = { s.cur.ud with fired := setBits s.cur.ud.fired x 1 1 }
      ∧ t.vis = s.vis ∧ { t.cur with ud := s.cur.ud } = s.cur) ∧
  (∀ (x : Fin 16) (s : State),
      s.vis.get pgBush (BUSH_TMR_PERIOD.idx x) = 0 ∨ ((s.cur.gtime : Int) - (s.vis.get pgBush (BUSH_TMR_PHASE.idx x) : Int)) % s.vis.get pgBush (BUSH_TMR_PERIOD.idx x) ≠ 0 ∨ bit s.cur.ud.fired x = true →
      ∃ t, exec (.udTimerFire x) s = .next t ∧ t.cur = s.cur ∧ t.vis = s.vis
      ∧ { t.cur with regs := s.cur.regs, irqSet := s.cur.irqSet, ud := s.cur.ud } = s.cur) ∧
  (∀ (c : Fin 32) (n : Nat) (s : State), s.cur.ud.running = none → firstRequest s.cur.ud.queue = some (n, c.val) →
      s.cur.starts pgBush = true → s.cur.udCheck c = none → ∃ t, exec (.udRunBegin) s = .next t
      ∧ t.cur.flag (pgUd c) UD_STAT_RUNNING = true ∧ t.cur.flag (pgUd c) UD_STAT_PENDING = false
      ∧ t.cur.get (pgUd c) UD_DONE_ELEMS = 0 ∧ t.cur.get (pgUd c) UD_STAT_ERR = 0 ∧ t.cur.flag (pgBush) BUSH_STAT_BUSY = true
      ∧ t.cur.get pgBush BUSH_STAT_CHAN = c.val
      ∧ (t.cur.ud = { s.cur.ud with running := some c.val, began := s.cur.gtime + 1, moved := 0, queue := s.cur.ud.queue.filter (fun x => x.2 != c.val) })
      ∧ t.vis = s.vis ∧ { t.cur with regs := s.cur.regs, ud := s.cur.ud } = s.cur
      ∧ (∀ a, a ≠ pgUd c + UD_STAT.off → a ≠ pgUd c + UD_DONE.off → a ≠ pgBush + BUSH_STAT.off → t.cur.rd a = s.cur.rd a)) ∧
  (∀ (c : Fin 32) (n : Nat) (e : Nat) (s : State), s.cur.ud.running = none → firstRequest s.cur.ud.queue = some (n, c.val) →
      s.cur.starts pgBush = true → s.cur.udCheck c = some e → ∃ t, exec (.udRunBegin) s = .next t
      ∧ t.cur.flag (pgUd c) UD_STAT_RUNNING = s.cur.flag (pgUd c) UD_STAT_RUNNING ∧ t.cur.flag (pgUd c) UD_STAT_PENDING = false
      ∧ t.cur.get (pgUd c) UD_STAT_ERR = e ∧ t.cur.flag (pgUd c) UD_IRQ_ERR = true ∧ t.cur.ud.running = none ∧ t.vis = s.vis
      ∧ { t.cur with regs := s.cur.regs, irqSet := s.cur.irqSet, ud := s.cur.ud } = s.cur
      ∧ (∀ a, a ≠ pgUd c + UD_STAT.off → a ≠ pgUd c + PG_IRQ_RAW.off → a ≠ pgUd c + PG_ERR_INFO.off → a ≠ pgUd c + PG_ERR_ADDR_LO.off → a ≠ pgUd c + PG_ERR_ADDR_HI.off → a ≠ pgUd c + PG_ERR_COUNT.off → t.cur.rd a = s.cur.rd a)) ∧
  (∀ (s : State), s.cur.ud.running ≠ none ∨ s.cur.ud.queue = [] ∨ s.cur.starts pgBush = false →
      ∃ t, exec (.udRunBegin) s = .next t ∧ t.cur = s.cur ∧ t.vis = s.vis
      ∧ { t.cur with regs := s.cur.regs, irqSet := s.cur.irqSet, ud := s.cur.ud } = s.cur) ∧
  (∀ (c : Fin 32) (s : State), s.cur.ud.running = some c.val → s.cur.udElems c ≤ s.cur.ud.moved →
      ∃ t, exec (.udRunComplete) s = .next t ∧ t.cur.flag (pgUd c) UD_STAT_RUNNING = false
      ∧ t.cur.flag (pgBush) BUSH_STAT_BUSY = false ∧ t.cur.ud.running = none
      ∧ t.cur.get (pgUd c) UD_DONE_ELEMS = s.cur.get (pgUd c) UD_DONE_ELEMS ∧ t.cur.get (pgUd c) UD_STAT_ERR = 0
      ∧ t.cur.get (pgUd c) UD_COUNT_RUNS = satInc 0xFFFFFFFF (s.cur.get (pgUd c) UD_COUNT_RUNS)
      ∧ t.cur.flag (pgUd c) UD_IRQ_DONE = true ∧ t.vis = s.vis
      ∧ { t.cur with regs := s.cur.regs, irqSet := s.cur.irqSet, ud := s.cur.ud } = s.cur) ∧
  (∀ (c : Fin 32) (s : State), s.cur.ud.running = some c.val → s.cur.udElems c ≤ s.cur.ud.moved →
      (∀ y : Fin 32, s.cur.flag (pgUd y) UD_STAT_ARMED = true → s.cur.get (pgUd y) UD_TRIG_KIND ≠ 2 ∨ s.cur.get (pgUd y) UD_TRIG_SEL ≠ c.val) →
      ∃ t, exec (.udRunComplete) s = .next t ∧ t.cur.flag (pgUd c) UD_STAT_RUNNING = false
      ∧ t.cur.flag (pgBush) BUSH_STAT_BUSY = false ∧ t.cur.ud.running = none
      ∧ t.cur.get (pgUd c) UD_DONE_ELEMS = s.cur.get (pgUd c) UD_DONE_ELEMS ∧ t.cur.get (pgUd c) UD_STAT_ERR = 0
      ∧ t.cur.get (pgUd c) UD_COUNT_RUNS = satInc 0xFFFFFFFF (s.cur.get (pgUd c) UD_COUNT_RUNS)
      ∧ t.cur.flag (pgUd c) UD_IRQ_DONE = true ∧ t.cur.ud = { s.cur.ud with running := none } ∧ t.vis = s.vis
      ∧ { t.cur with regs := s.cur.regs, irqSet := s.cur.irqSet, ud := s.cur.ud } = s.cur
      ∧ (∀ a, a ≠ pgUd c + UD_STAT.off → a ≠ pgUd c + UD_COUNT.off → a ≠ pgUd c + PG_IRQ_RAW.off → a ≠ pgBush + BUSH_STAT.off → t.cur.rd a = s.cur.rd a)) ∧
  (∀ (c : Fin 32) (y : Fin 32) (s : State), s.cur.ud.running = some c.val → s.cur.udElems c ≤ s.cur.ud.moved → y ≠ c →
      s.cur.flag (pgUd y) UD_STAT_ARMED = true → s.cur.get (pgUd y) UD_TRIG_KIND = 2 → s.cur.get (pgUd y) UD_TRIG_SEL = c.val →
      s.cur.flag (pgUd y) UD_STAT_PENDING = false → s.cur.flag (pgUd y) UD_STAT_RUNNING = false →
      ∃ t, exec (.udRunComplete) s = .next t ∧ t.cur.flag (pgUd y) UD_STAT_PENDING = true
      ∧ (s.cur.gtime, y.val) ∈ t.cur.ud.queue ∧ t.vis = s.vis
      ∧ { t.cur with regs := s.cur.regs, irqSet := s.cur.irqSet, ud := s.cur.ud } = s.cur) ∧
  (∀ (c : Fin 32) (s : State), s.cur.ud.running = none ∨ (s.cur.ud.running = some c.val ∧ s.cur.ud.moved < s.cur.udElems c) →
      ∃ t, exec (.udRunComplete) s = .next t ∧ t.cur = s.cur ∧ t.vis = s.vis
      ∧ { t.cur with regs := s.cur.regs, irqSet := s.cur.irqSet, ud := s.cur.ud } = s.cur) ∧
  (∀ (c : Fin 32) (s : State), s.cur.ud.running = some c.val → s.cur.ud.moved < s.cur.udElems c → s.cur.ud.began < s.cur.gtime →
      ∃ t, exec (.udBusError false) s = .next t ∧ t.cur.flag (pgUd c) UD_STAT_RUNNING = false
      ∧ t.cur.flag (pgBush) BUSH_STAT_BUSY = false ∧ t.cur.ud.running = none
      ∧ t.cur.get (pgUd c) UD_DONE_ELEMS = s.cur.get (pgUd c) UD_DONE_ELEMS ∧ t.cur.get (pgUd c) UD_STAT_ERR = 5
      ∧ t.cur.flag (pgUd c) UD_IRQ_ERR = true
      ∧ t.cur.fj.staged = s.cur.fj.staged ++ [{ gtime := s.cur.gtime48, pgId := pgIdOf (pgUd c), code := 0x0C01, deg := false, flt := false, data := [c.val, (s.cur.udAddr c s.cur.ud.moved).1 % 2 ^ 32, (s.cur.udAddr c s.cur.ud.moved).1 / 2 ^ 32 % 2 ^ 32] }]
      ∧ t.cur.ud = { s.cur.ud with running := none } ∧ t.vis = s.vis
      ∧ { t.cur with regs := s.cur.regs, irqSet := s.cur.irqSet, fj := s.cur.fj, ud := s.cur.ud } = s.cur
      ∧ (∀ a, a ≠ pgUd c + UD_STAT.off → a ≠ pgUd c + PG_IRQ_RAW.off → a ≠ pgBush + BUSH_STAT.off → t.cur.rd a = s.cur.rd a)) ∧
  (∀ (c : Fin 32) (s : State), s.cur.ud.running = some c.val → s.cur.ud.moved < s.cur.udElems c → s.cur.ud.began < s.cur.gtime →
      ∃ t, exec (.udBusError true) s = .next t ∧ t.cur.flag (pgUd c) UD_STAT_RUNNING = false
      ∧ t.cur.flag (pgBush) BUSH_STAT_BUSY = false ∧ t.cur.ud.running = none
      ∧ t.cur.get (pgUd c) UD_DONE_ELEMS = s.cur.get (pgUd c) UD_DONE_ELEMS ∧ t.cur.get (pgUd c) UD_STAT_ERR = 6
      ∧ t.cur.flag (pgUd c) UD_IRQ_ERR = true
      ∧ t.cur.fj.staged = s.cur.fj.staged ++ [{ gtime := s.cur.gtime48, pgId := pgIdOf (pgUd c), code := 0x0C01, deg := false, flt := false, data := [c.val, (s.cur.udAddr c s.cur.ud.moved).2 % 2 ^ 32, (s.cur.udAddr c s.cur.ud.moved).2 / 2 ^ 32 % 2 ^ 32] }]
      ∧ t.cur.ud = { s.cur.ud with running := none } ∧ t.vis = s.vis
      ∧ { t.cur with regs := s.cur.regs, irqSet := s.cur.irqSet, fj := s.cur.fj, ud := s.cur.ud } = s.cur
      ∧ (∀ a, a ≠ pgUd c + UD_STAT.off → a ≠ pgUd c + PG_IRQ_RAW.off → a ≠ pgBush + BUSH_STAT.off → t.cur.rd a = s.cur.rd a)) ∧
  (∀ (c : Fin 32) (w : Bool) (s : State),
      s.cur.ud.running = none ∨ (s.cur.ud.running = some c.val ∧ (s.cur.udElems c ≤ s.cur.ud.moved ∨ s.cur.gtime ≤ s.cur.ud.began)) →
      ∃ t, exec (.udBusError w) s = .next t ∧ t.cur = s.cur ∧ t.vis = s.vis
      ∧ { t.cur with regs := s.cur.regs, irqSet := s.cur.irqSet, fj := s.cur.fj, ud := s.cur.ud } = s.cur)

/-- GO with a valid TARGET stages PREPARE for the first step that is not stopped, and errs with ENTRY_BUSY during an
entry. A step whose members all AGREE stops and the next is prepared; DELAY waits; REFUSE, silence for 64 Grains or a
DELAY past its limit aborts: the reason is recorded, ABORTED raised, and the stopped steps are re-woken one by one
before a retry or RUN or IDLE. Of several refusals in one Grain the lowest PG_ID stands. At COMMIT, IDLE is entered,
or COMMIT is written to the pages, DCLK stops and GTIME holds. Commands that it says to complete, each on the
conditions of its clauses: pwrGo, pwrAnswer, pwrCommit, pwrNoAnswer, pwrDelayLimit, pwrRetry, rollbackStep. -/
def Obligations.PowerEntries : Prop :=
  (∀ (r : Requester) (v : Word) (s : State), s.cur.enabled pgPwr = true → s.cur.sliceBad 155 = false → 1 ≤ bits v.toNat 24 3 →
      bits v.toNat 24 3 ≤ 4 → s.cur.pwr.phase = .awake → bit s.cur.pwr.stopped 1 = false → ∃ t, exec (.pwrGo r v) s = .next t
      ∧ t.cur.pwr = { s.cur.pwr with phase := .entry 1 (s.cur.gtime + 1), target := bits v.toNat 24 3, retries := 0, retry := false, refused := none, answers := [], seq := (s.cur.pwr.seq + 1) % 2 ^ 16 }
      ∧ t.cur.flag pgPwr PWR_STAT_BUSY = true ∧ t.cur.get pgPwr PWR_STAT_STEP = 1
      ∧ t.cur.get pgPwr PWR_CTL_TARGET = bits v.toNat 24 3 ∧ t.cur.get pgPwr PWR_CTL_WAKE_TO = bits v.toNat 0 1
      ∧ (∀ a, a ≠ pgPwr + PWR_CTL.off → a ≠ pgPwr + PWR_STAT.off → t.cur.rd a = s.cur.rd a) ∧ t.vis = s.vis
      ∧ { t.cur with regs := s.cur.regs, pwr := s.cur.pwr } = s.cur) ∧
  (∀ (r : Requester) (v : Word) (s : State), s.cur.enabled pgPwr = true → s.cur.sliceBad 155 = false → 2 ≤ bits v.toNat 24 3 →
      bits v.toNat 24 3 ≤ 4 → s.cur.pwr.phase = .awake → bit s.cur.pwr.stopped 1 = true → bit s.cur.pwr.stopped 2 = false →
      ∃ t, exec (.pwrGo r v) s = .next t
      ∧ t.cur.pwr = { s.cur.pwr with phase := .entry 2 (s.cur.gtime + 1), target := bits v.toNat 24 3, retries := 0, retry := false, refused := none, answers := [], seq := (s.cur.pwr.seq + 1) % 2 ^ 16 }
      ∧ t.cur.flag pgPwr PWR_STAT_BUSY = true ∧ t.cur.get pgPwr PWR_STAT_STEP = 2
      ∧ t.cur.rd (pgPcie + PG_PWR_REQ.off) = BitVec.ofNat 32 (2 ^ 28 + bits v.toNat 24 3 * 2 ^ 24 + (s.cur.pwr.seq + 1) % 2 ^ 16)
      ∧ (∀ a, a % 0x1000 ≠ PG_PWR_REQ.off → a ≠ pgDdr + DDR_STAT.off → a ≠ pgPwr + PWR_CTL.off → a ≠ pgPwr + PWR_STAT.off → t.cur.rd a = s.cur.rd a)
      ∧ t.vis = s.vis ∧ { t.cur with regs := s.cur.regs, pwr := s.cur.pwr } = s.cur) ∧
  (∀ (r : Requester) (v : Word) (s : State), s.cur.enabled pgPwr = true → s.cur.sliceBad 155 = false → 1 ≤ bits v.toNat 24 3 →
      bits v.toNat 24 3 ≤ 4 → s.cur.pwr.phase ≠ .awake → ∃ t, exec (.pwrGo r v) s = .next t ∧ t.cur.pwr = s.cur.pwr
      ∧ t.cur.get pgPwr PWR_CTL_TARGET = bits v.toNat 24 3
      ∧ (s.cur.get pgPwr PG_ERR_INFO_VALID = 0 → t.cur.get pgPwr PG_ERR_INFO_CODE = ErrCode.entryBusy.value) ∧ t.vis = s.vis
      ∧ { t.cur with regs := s.cur.regs, pwr := s.cur.pwr } = s.cur
      ∧ (∀ a, a ≠ pgPwr + PWR_CTL.off → a ≠ pgPwr + PG_ERR_INFO.off → a ≠ pgPwr + PG_ERR_ADDR_LO.off → a ≠ pgPwr + PG_ERR_ADDR_HI.off → a ≠ pgPwr + PG_ERR_COUNT.off → t.cur.rd a = s.cur.rd a)) ∧
  (∀ (r : Requester) (v : Word) (s : State),
      bits v.toNat 24 3 = 0 ∨ 4 < bits v.toNat 24 3 ∨ s.cur.enabled pgPwr = false ∨ s.cur.sliceBad 155 = true →
      ∃ t, exec (.pwrGo r v) s = .next t ∧ t.cur.pwr = s.cur.pwr ∧ t.cur.get pgPwr PWR_CTL_TARGET = bits v.toNat 24 3
      ∧ t.vis = s.vis ∧ { t.cur with regs := s.cur.regs, pwr := s.cur.pwr } = s.cur
      ∧ (∀ a, a ≠ pgPwr + PWR_CTL.off → t.cur.rd a = s.cur.rd a)) ∧
  (∀ (who : Nat) (busy : Bool) (st since : Nat) (rs : Nat) (s : State), s.cur.pwr.phase = .entry st since →
      since < s.cur.gtime → who ∈ stepMembers st → 32 ≤ who → st < 13 → s.vis.pageAnswer who busy = (3, rs) →
      ((if s.cur.pwr.idle then 2 else 1) < st) → ∃ t, exec (.pwrAnswer who busy) s = .next t
      ∧ t.cur.get pgPwr PWR_STAT_LAST_REASON = rs ∧ t.cur.flag pgPwr PWR_IRQ_ABORTED = true
      ∧ t.cur.pwr = { s.cur.pwr with phase := .rollback st (st - 1) (s.cur.gtime + 1), retry := decide (rs < 11 ∧ s.cur.pwr.retries < s.cur.get pgPwr PWR_CFG_RETRY_N), abortAt := s.cur.gtime, refused := some (pgIdOf who), answers := [] }
      ∧ (∀ a ∈ stepMembers (st), 32 ≤ a → t.cur.rd (a + PG_PWR_REQ.off) = BitVec.ofNat 32 (3 * 2 ^ 28 + t.cur.pwr.target * 2 ^ 24 + t.cur.pwr.seq % 2 ^ 16))
      ∧ (st = 8 → t.cur.flag pgDdr DDR_STAT_SELF_REFRESH = false) ∧ t.cur.get pgPwr PWR_STAT_STEP = st - 1
      ∧ (s.cur.flag pgPwr PWR_CFG_ACCT = true → t.cur.get pgPwr PWR_ACCT0_ACCT = satInc (2 ^ 32 - 1) (s.cur.get pgPwr PWR_ACCT0_ACCT) ∧ t.cur.get pgPwr PWR_ACCT1_ACCT = Option.getD (some (pgIdOf who)) 0)
      ∧ (∀ a, a % 0x1000 ≠ PG_PWR_REQ.off → a ≠ pgDdr + DDR_STAT.off → a % 0x1000 ≠ PG_PWR_RESP.off → a ≠ pgPwr + PWR_STAT.off → a ≠ pgPwr + PWR_ACCT0.off → a ≠ pgPwr + PWR_ACCT1.off → a ≠ pgPwr + PG_IRQ_RAW.off → t.cur.rd a = s.cur.rd a)
      ∧ t.vis = s.vis ∧ { t.cur with regs := s.cur.regs, irqSet := s.cur.irqSet, pwr := s.cur.pwr } = s.cur) ∧
  (∀ (who : Nat) (busy : Bool) (st since : Nat) (rs : Nat) (s : State), s.cur.pwr.phase = .entry st since →
      since < s.cur.gtime → who ∈ stepMembers st → 32 ≤ who → s.vis.pageAnswer who busy = (3, rs) →
      (st ≤ (if s.cur.pwr.idle then 2 else 1)) → ∃ t, exec (.pwrAnswer who busy) s = .next t
      ∧ t.cur.get pgPwr PWR_STAT_LAST_REASON = rs ∧ t.cur.flag pgPwr PWR_IRQ_ABORTED = true
      ∧ (t.cur.pwr.phase = (if s.cur.pwr.retries < s.cur.get pgPwr PWR_CFG_RETRY_N then .retryWait else .awake))
      ∧ t.cur.pwr.stopped = s.cur.pwr.stopped ∧ t.cur.get pgPwr PWR_STAT_STEP = 0
      ∧ (∀ a ∈ stepMembers (st), 32 ≤ a → t.cur.rd (a + PG_PWR_REQ.off) = BitVec.ofNat 32 (3 * 2 ^ 28 + t.cur.pwr.target * 2 ^ 24 + t.cur.pwr.seq % 2 ^ 16))
      ∧ (st = 8 → t.cur.flag pgDdr DDR_STAT_SELF_REFRESH = false)
      ∧ (s.cur.pwr.retries < s.cur.get pgPwr PWR_CFG_RETRY_N ∨ t.cur.flag pgPwr PWR_STAT_BUSY = false) ∧ t.vis = s.vis
      ∧ { t.cur with regs := s.cur.regs, irqSet := s.cur.irqSet, pwr := s.cur.pwr } = s.cur) ∧
  (∀ (who : Nat) (busy : Bool) (st since : Nat) (s : State), s.cur.pwr.phase = .entry st since → since < s.cur.gtime →
      who ∈ stepMembers st → s.vis.pageAnswer who busy = (1, 0) →
      (∃ m ∈ stepMembers st, m ≠ who ∧ ∀ x ∈ s.cur.pwr.answers, x.1 = m → x.2.1 ≠ 1) →
      ∃ t, exec (.pwrAnswer who busy) s = .next t ∧ t.cur.pwr = { s.cur.pwr with answers := t.cur.pwr.answers }
      ∧ (32 ≤ who → t.cur.rd (who + PG_PWR_RESP.off) = BitVec.ofNat 32 (1 * 2 ^ 30 + 0 * 2 ^ 16 + s.cur.pwr.seq % 2 ^ 16))
      ∧ (who = pgDdr → t.cur.flag pgDdr DDR_STAT_SELF_REFRESH = true)
      ∧ (∀ a, a ≠ who + PG_PWR_RESP.off → a ≠ pgDdr + DDR_STAT.off → t.cur.rd a = s.cur.rd a)
      ∧ (t.cur.pwr.answers.map (fun x => (x.1, x.2.1)) = (who, 1) :: (s.cur.pwr.answers.filter fun x => x.1 != who).map (fun x => (x.1, x.2.1)))
      ∧ t.vis = s.vis ∧ { t.cur with regs := s.cur.regs, pwr := s.cur.pwr } = s.cur) ∧
  (∀ (who : Nat) (busy : Bool) (st since : Nat) (s : State), s.cur.pwr.phase = .entry st since → since < s.cur.gtime →
      who ∈ stepMembers st → s.vis.pageAnswer who busy = (2, 0) → ∃ t, exec (.pwrAnswer who busy) s = .next t
      ∧ t.cur.pwr = { s.cur.pwr with answers := t.cur.pwr.answers }
      ∧ (32 ≤ who → t.cur.rd (who + PG_PWR_RESP.off) = BitVec.ofNat 32 (2 * 2 ^ 30 + 0 * 2 ^ 16 + s.cur.pwr.seq % 2 ^ 16))
      ∧ (∀ a, a ≠ who + PG_PWR_RESP.off → a ≠ pgDdr + DDR_STAT.off → t.cur.rd a = s.cur.rd a)
      ∧ ((s.cur.pwr.answers.find? fun x => x.1 == who) = none → t.cur.pwr.answers = (who, 2, s.cur.gtime) :: (s.cur.pwr.answers.filter fun x => x.1 != who))
      ∧ t.vis = s.vis ∧ { t.cur with regs := s.cur.regs, pwr := s.cur.pwr } = s.cur) ∧
  (∀ (who : Nat) (busy : Bool) (st since : Nat) (s : State), s.cur.pwr.phase = .entry st since → since < s.cur.gtime →
      who ∈ stepMembers st → s.vis.pageAnswer who busy = (1, 0) →
      (∀ m ∈ stepMembers st, m = who ∨ ∃ x ∈ s.cur.pwr.answers, x.1 = m ∧ x.2.1 = 1) → st < 12 → s.cur.pwr.target ≠ 1 →
      bit s.cur.pwr.stopped (st + 1) = false → ∃ t, exec (.pwrAnswer who busy) s = .next t
      ∧ t.cur.pwr = { s.cur.pwr with phase := .entry (st + 1) (s.cur.gtime + 1), stopped := setBits s.cur.pwr.stopped st 1 1, answers := [] }
      ∧ (32 ≤ who → t.cur.rd (who + PG_PWR_RESP.off) = BitVec.ofNat 32 (1 * 2 ^ 30 + 0 * 2 ^ 16 + s.cur.pwr.seq % 2 ^ 16))
      ∧ (who = pgDdr → t.cur.flag pgDdr DDR_STAT_SELF_REFRESH = true)
      ∧ (∀ a ∈ stepMembers (st + 1), 32 ≤ a → t.cur.rd (a + PG_PWR_REQ.off) = BitVec.ofNat 32 (1 * 2 ^ 28 + t.cur.pwr.target * 2 ^ 24 + t.cur.pwr.seq % 2 ^ 16))
      ∧ t.cur.get pgPwr PWR_STAT_STEP = st + 1
      ∧ (∀ a, a % 0x1000 ≠ PG_PWR_REQ.off → a ≠ pgDdr + DDR_STAT.off → a % 0x1000 ≠ PG_PWR_RESP.off → a ≠ pgPwr + PWR_STAT.off → t.cur.rd a = s.cur.rd a)
      ∧ t.vis = s.vis ∧ { t.cur with regs := s.cur.regs, pwr := s.cur.pwr } = s.cur) ∧
  (∀ (who : Nat) (busy : Bool) (st since : Nat) (s : State), s.cur.pwr.phase = .entry st since → since < s.cur.gtime →
      who ∈ stepMembers st → s.vis.pageAnswer who busy = (1, 0) →
      (∀ m ∈ stepMembers st, m = who ∨ ∃ x ∈ s.cur.pwr.answers, x.1 = m ∧ x.2.1 = 1) →
      ((if s.cur.pwr.target = 1 then 1 else 12) ≤ st) → ∃ t, exec (.pwrAnswer who busy) s = .next t
      ∧ t.cur.pwr = { s.cur.pwr with phase := .commit, stopped := setBits s.cur.pwr.stopped st 1 1, answers := t.cur.pwr.answers }
      ∧ (32 ≤ who → t.cur.rd (who + PG_PWR_RESP.off) = BitVec.ofNat 32 (1 * 2 ^ 30 + 0 * 2 ^ 16 + s.cur.pwr.seq % 2 ^ 16))
      ∧ (who = pgDdr → t.cur.flag pgDdr DDR_STAT_SELF_REFRESH = true) ∧ t.cur.get pgPwr PWR_STAT_STEP = 0
      ∧ (∀ a, a ≠ who + PG_PWR_RESP.off → a ≠ pgDdr + DDR_STAT.off → a ≠ pgPwr + PWR_STAT.off → t.cur.rd a = s.cur.rd a)
      ∧ t.vis = s.vis ∧ { t.cur with regs := s.cur.regs, pwr := s.cur.pwr } = s.cur) ∧
  (∀ (who : Nat) (busy : Bool) (f st w p : Nat) (rs : Nat) (s : State), s.cur.pwr.phase = .rollback f st w →
      s.cur.pwr.refused = some p → s.cur.pwr.abortAt = s.cur.gtime → who ∈ stepMembers f → s.vis.pageAnswer who busy = (3, rs) →
      pgIdOf who < p → ∃ t, exec (.pwrAnswer who busy) s = .next t ∧ t.cur.pwr = { s.cur.pwr with refused := some (pgIdOf who) }
      ∧ t.cur.get pgPwr PWR_STAT_LAST_REASON = rs
      ∧ (s.cur.flag pgPwr PWR_CFG_ACCT = true → t.cur.get pgPwr PWR_ACCT1_ACCT = pgIdOf who)
      ∧ (∀ a, a ≠ who + PG_PWR_RESP.off → a ≠ pgPwr + PWR_STAT.off → a ≠ pgPwr + PWR_ACCT1.off → t.cur.rd a = s.cur.rd a)
      ∧ t.vis = s.vis ∧ { t.cur with regs := s.cur.regs, pwr := s.cur.pwr } = s.cur) ∧
  (∀ (who : Nat) (busy : Bool) (f st w : Nat) (s : State), s.cur.pwr.phase = .rollback f st w →
      s.cur.pwr.refused = none ∨ s.cur.pwr.abortAt ≠ s.cur.gtime ∨ (s.vis.pageAnswer who busy).1 ≠ 3 ∨ ¬ who ∈ stepMembers f ∨ Option.getD s.cur.pwr.refused 0 ≤ pgIdOf who →
      ∃ t, exec (.pwrAnswer who busy) s = .next t ∧ t.cur = s.cur ∧ t.vis = s.vis
      ∧ { t.cur with regs := s.cur.regs, irqSet := s.cur.irqSet, pwr := s.cur.pwr } = s.cur) ∧
  (∀ (who : Nat) (busy : Bool) (st since : Nat) (s : State), s.cur.pwr.phase = .entry st since →
      ¬ who ∈ stepMembers st ∨ s.cur.gtime ≤ since → ∃ t, exec (.pwrAnswer who busy) s = .next t ∧ t.cur = s.cur ∧ t.vis = s.vis
      ∧ { t.cur with regs := s.cur.regs, irqSet := s.cur.irqSet, pwr := s.cur.pwr } = s.cur) ∧
  (∀ (who : Nat) (busy : Bool) (s : State),
      (match s.cur.pwr.phase with | .entry _ _ | .rollback _ _ _ => false | _ => true) = true →
      ∃ t, exec (.pwrAnswer who busy) s = .next t ∧ t.cur = s.cur ∧ t.vis = s.vis
      ∧ { t.cur with regs := s.cur.regs, irqSet := s.cur.irqSet, pwr := s.cur.pwr } = s.cur) ∧
  (∀ (s : State), s.cur.pwr.phase = .commit → s.cur.pwr.target = 1 → ∃ t, exec (.pwrCommit) s = .next t
      ∧ t.cur.pwr = { s.cur.pwr with phase := .awake, idle := true } ∧ t.cur.get pgPwr PWR_STAT_STATE = 1
      ∧ t.cur.flag pgPwr PWR_STAT_BUSY = false ∧ t.cur.tb = s.cur.tb ∧ t.cur.clockOn = s.cur.clockOn
      ∧ (s.vis = s.cur → t.vis = t.cur) ∧ { t.cur with regs := s.cur.regs, pwr := s.cur.pwr } = s.cur
      ∧ (∀ a, a ≠ pgPwr + PWR_STAT.off → t.cur.rd a = s.cur.rd a)) ∧
  (∀ (s : State), s.cur.pwr.phase = .commit → s.cur.pwr.target ≠ 1 → s.cur.pwr.target ≠ 4 → ∃ t, exec (.pwrCommit) s = .next t
      ∧ t.cur.pwr = { s.cur.pwr with phase := .asleep, idle := false, ruleWake := false, gtimeCommit := s.cur.gtime, aonCommit := s.cur.pwr.aonT }
      ∧ (∀ st, st < 13 → (∀ a ∈ stepMembers (st), 32 ≤ a → t.cur.rd (a + PG_PWR_REQ.off) = BitVec.ofNat 32 (2 * 2 ^ 28 + t.cur.pwr.target * 2 ^ 24 + t.cur.pwr.seq % 2 ^ 16)))
      ∧ (∀ n, n < 4 → t.cur.get (pgAx n) CHN_ISTAT_I_NOW = 0) ∧ t.cur.flag pgPwr PWR_STAT_BUSY = false ∧ t.cur.clockOn = false
      ∧ (s.vis = s.cur → t.vis = t.cur)
      ∧ (∀ a, a % 0x1000 ≠ PG_PWR_REQ.off → (∀ n : Fin 4, a ≠ pgAx n + CHN_ISTAT.off) → a ≠ pgPwr + PWR_STAT.off → t.cur.rd a = s.cur.rd a)
      ∧ { t.cur with regs := s.cur.regs, pwr := s.cur.pwr } = s.cur) ∧
  (∀ (s : State), s.cur.pwr.phase ≠ .commit ∨ s.cur.pwr.target = 4 → ∃ t, exec (.pwrCommit) s = .next t ∧ t.cur = s.cur
      ∧ { t.cur with regs := s.cur.regs, pwr := s.cur.pwr } = s.cur) ∧
  (∀ (st since : Nat) (s : State), s.cur.pwr.phase = .entry st since → st < 13 → since + 64 ≤ s.cur.gtime →
      ((if s.cur.pwr.idle then 2 else 1) < st) → (∃ m ∈ stepMembers st, ∀ x ∈ s.cur.pwr.answers, x.1 ≠ m) →
      ∃ t, exec (.pwrNoAnswer) s = .next t ∧ t.cur.get pgPwr PWR_STAT_LAST_REASON = 9 ∧ t.cur.flag pgPwr PWR_IRQ_ABORTED = true
      ∧ t.cur.pwr = { s.cur.pwr with phase := .rollback st (st - 1) (s.cur.gtime + 1), retry := decide (9 < 11 ∧ s.cur.pwr.retries < s.cur.get pgPwr PWR_CFG_RETRY_N), abortAt := s.cur.gtime, refused := none, answers := [] }
      ∧ (∀ a ∈ stepMembers (st), 32 ≤ a → t.cur.rd (a + PG_PWR_REQ.off) = BitVec.ofNat 32 (3 * 2 ^ 28 + t.cur.pwr.target * 2 ^ 24 + t.cur.pwr.seq % 2 ^ 16))
      ∧ (st = 8 → t.cur.flag pgDdr DDR_STAT_SELF_REFRESH = false) ∧ t.cur.get pgPwr PWR_STAT_STEP = st - 1
      ∧ (s.cur.flag pgPwr PWR_CFG_ACCT = true → t.cur.get pgPwr PWR_ACCT0_ACCT = satInc (2 ^ 32 - 1) (s.cur.get pgPwr PWR_ACCT0_ACCT) ∧ t.cur.get pgPwr PWR_ACCT1_ACCT = Option.getD (none) 0)
      ∧ (∀ a, a % 0x1000 ≠ PG_PWR_REQ.off → a ≠ pgDdr + DDR_STAT.off → a ≠ pgPwr + PWR_STAT.off → a ≠ pgPwr + PWR_ACCT0.off → a ≠ pgPwr + PWR_ACCT1.off → a ≠ pgPwr + PG_IRQ_RAW.off → t.cur.rd a = s.cur.rd a)
      ∧ t.vis = s.vis ∧ { t.cur with regs := s.cur.regs, irqSet := s.cur.irqSet, pwr := s.cur.pwr } = s.cur) ∧
  (∀ (s : State), (match s.cur.pwr.phase with | .entry _ _ => false | _ => true) = true → ∃ t, exec (.pwrNoAnswer) s = .next t
      ∧ t.cur = s.cur ∧ t.vis = s.vis ∧ { t.cur with regs := s.cur.regs, irqSet := s.cur.irqSet, pwr := s.cur.pwr } = s.cur) ∧
  (∀ (st since : Nat) (s : State), s.cur.pwr.phase = .entry st since →
      (s.cur.gtime < since + 64 ∨ ∀ m ∈ stepMembers st, ∃ x ∈ s.cur.pwr.answers, x.1 = m) → ∃ t, exec (.pwrNoAnswer) s = .next t
      ∧ t.cur = s.cur ∧ t.vis = s.vis ∧ { t.cur with regs := s.cur.regs, irqSet := s.cur.irqSet, pwr := s.cur.pwr } = s.cur) ∧
  (∀ (st since : Nat) (s : State), s.cur.pwr.phase = .entry st since → st < 13 → ((if s.cur.pwr.idle then 2 else 1) < st) →
      (∃ x ∈ s.cur.pwr.answers, x.2.1 = 2 ∧ x.2.2 + max 1 (s.cur.get pgPwr PWR_CFG_DELAY_MAX_G) < s.cur.gtime) →
      ∃ t, exec (.pwrDelayLimit) s = .next t ∧ t.cur.get pgPwr PWR_STAT_LAST_REASON = 10
      ∧ t.cur.flag pgPwr PWR_IRQ_ABORTED = true
      ∧ t.cur.pwr = { s.cur.pwr with phase := .rollback st (st - 1) (s.cur.gtime + 1), retry := decide (10 < 11 ∧ s.cur.pwr.retries < s.cur.get pgPwr PWR_CFG_RETRY_N), abortAt := s.cur.gtime, refused := none, answers := [] }
      ∧ (∀ a ∈ stepMembers (st), 32 ≤ a → t.cur.rd (a + PG_PWR_REQ.off) = BitVec.ofNat 32 (3 * 2 ^ 28 + t.cur.pwr.target * 2 ^ 24 + t.cur.pwr.seq % 2 ^ 16))
      ∧ (st = 8 → t.cur.flag pgDdr DDR_STAT_SELF_REFRESH = false) ∧ t.cur.get pgPwr PWR_STAT_STEP = st - 1
      ∧ (s.cur.flag pgPwr PWR_CFG_ACCT = true → t.cur.get pgPwr PWR_ACCT0_ACCT = satInc (2 ^ 32 - 1) (s.cur.get pgPwr PWR_ACCT0_ACCT) ∧ t.cur.get pgPwr PWR_ACCT1_ACCT = Option.getD (none) 0)
      ∧ (∀ a, a % 0x1000 ≠ PG_PWR_REQ.off → a ≠ pgDdr + DDR_STAT.off → a ≠ pgPwr + PWR_STAT.off → a ≠ pgPwr + PWR_ACCT0.off → a ≠ pgPwr + PWR_ACCT1.off → a ≠ pgPwr + PG_IRQ_RAW.off → t.cur.rd a = s.cur.rd a)
      ∧ t.vis = s.vis ∧ { t.cur with regs := s.cur.regs, irqSet := s.cur.irqSet, pwr := s.cur.pwr } = s.cur) ∧
  (∀ (s : State), (match s.cur.pwr.phase with | .entry _ _ => false | _ => true) = true → ∃ t, exec (.pwrDelayLimit) s = .next t
      ∧ t.cur = s.cur ∧ t.vis = s.vis ∧ { t.cur with regs := s.cur.regs, irqSet := s.cur.irqSet, pwr := s.cur.pwr } = s.cur) ∧
  (∀ (st since : Nat) (s : State), s.cur.pwr.phase = .entry st since →
      (∀ x ∈ s.cur.pwr.answers, x.2.1 = 2 → s.cur.gtime ≤ x.2.2 + max 1 (s.cur.get pgPwr PWR_CFG_DELAY_MAX_G)) →
      ∃ t, exec (.pwrDelayLimit) s = .next t ∧ t.cur = s.cur ∧ t.vis = s.vis
      ∧ { t.cur with regs := s.cur.regs, irqSet := s.cur.irqSet, pwr := s.cur.pwr } = s.cur) ∧
  (∀ (s : State), s.cur.pwr.phase = .retryWait →
      s.cur.pwr.abortAt + 256 * max 1 (s.cur.get pgPwr PWR_CFG_RETRY_S) ≤ s.cur.gtime → bit s.cur.pwr.stopped 1 = false →
      1 ≤ s.cur.pwr.target → ∃ t, exec (.pwrRetry) s = .next t
      ∧ t.cur.pwr = { s.cur.pwr with phase := .entry 1 (s.cur.gtime + 1), target := s.cur.pwr.target, retries := s.cur.pwr.retries + 1, retry := false, refused := none, answers := [], seq := (s.cur.pwr.seq + 1) % 2 ^ 16 }
      ∧ t.cur.flag pgPwr PWR_STAT_BUSY = true ∧ t.cur.get pgPwr PWR_STAT_STEP = 1 ∧ t.vis = s.vis
      ∧ { t.cur with regs := s.cur.regs, pwr := s.cur.pwr } = s.cur ∧ (∀ a, a ≠ pgPwr + PWR_STAT.off → t.cur.rd a = s.cur.rd a)) ∧
  (∀ (s : State),
      s.cur.pwr.phase ≠ .retryWait ∨ s.cur.gtime < s.cur.pwr.abortAt + 256 * max 1 (s.cur.get pgPwr PWR_CFG_RETRY_S) →
      ∃ t, exec (.pwrRetry) s = .next t ∧ t.cur = s.cur ∧ t.vis = s.vis
      ∧ { t.cur with regs := s.cur.regs, pwr := s.cur.pwr } = s.cur) ∧
  (∀ (f st w : Nat) (s : State), s.cur.pwr.phase = .rollback f st w → w + (stepDelays st).2.2 ≤ s.cur.gtime + 1 → st < 13 →
      ((if s.cur.pwr.idle then 2 else 1) < st) → ∃ t, exec (.rollbackStep) s = .next t
      ∧ t.cur.pwr = { s.cur.pwr with phase := .rollback f (st - 1) (s.cur.gtime + 1), stopped := setBits s.cur.pwr.stopped st 1 0 }
      ∧ (∀ a ∈ stepMembers (st), 32 ≤ a → t.cur.rd (a + PG_PWR_REQ.off) = BitVec.ofNat 32 (0 * 2 ^ 28 + t.cur.pwr.target * 2 ^ 24 + t.cur.pwr.seq % 2 ^ 16))
      ∧ (st = 8 → t.cur.flag pgDdr DDR_STAT_SELF_REFRESH = false) ∧ t.cur.get pgPwr PWR_STAT_STEP = st - 1
      ∧ (∀ a, a % 0x1000 ≠ PG_PWR_REQ.off → a ≠ pgDdr + DDR_STAT.off → a ≠ pgPwr + PWR_STAT.off → t.cur.rd a = s.cur.rd a)
      ∧ t.vis = s.vis ∧ { t.cur with regs := s.cur.regs, pwr := s.cur.pwr } = s.cur) ∧
  (∀ (f st w : Nat) (s : State), s.cur.pwr.phase = .rollback f st w → w + (stepDelays st).2.2 ≤ s.cur.gtime + 1 → st < 13 →
      (st ≤ (if s.cur.pwr.idle then 2 else 1)) → ∃ t, exec (.rollbackStep) s = .next t
      ∧ (t.cur.pwr = { s.cur.pwr with phase := if s.cur.pwr.retry then .retryWait else .awake, stopped := setBits s.cur.pwr.stopped st 1 0 })
      ∧ (∀ a ∈ stepMembers (st), 32 ≤ a → t.cur.rd (a + PG_PWR_REQ.off) = BitVec.ofNat 32 (0 * 2 ^ 28 + t.cur.pwr.target * 2 ^ 24 + t.cur.pwr.seq % 2 ^ 16))
      ∧ (st = 8 → t.cur.flag pgDdr DDR_STAT_SELF_REFRESH = false) ∧ t.cur.get pgPwr PWR_STAT_STEP = 0
      ∧ (s.cur.pwr.retry = true ∨ t.cur.flag pgPwr PWR_STAT_BUSY = false)
      ∧ (∀ a, a % 0x1000 ≠ PG_PWR_REQ.off → a ≠ pgDdr + DDR_STAT.off → a ≠ pgPwr + PWR_STAT.off → t.cur.rd a = s.cur.rd a)
      ∧ t.vis = s.vis ∧ { t.cur with regs := s.cur.regs, pwr := s.cur.pwr } = s.cur) ∧
  (∀ (s : State), (match s.cur.pwr.phase with | .rollback _ _ _ => false | _ => true) = true →
      ∃ t, exec (.rollbackStep) s = .next t ∧ t.cur = s.cur ∧ t.vis = s.vis
      ∧ { t.cur with regs := s.cur.regs, pwr := s.cur.pwr } = s.cur) ∧
  (∀ (f st w : Nat) (s : State), s.cur.pwr.phase = .rollback f st w → s.cur.gtime + 1 < w + (stepDelays st).2.2 →
      ∃ t, exec (.rollbackStep) s = .next t ∧ t.cur = s.cur ∧ t.vis = s.vis
      ∧ { t.cur with regs := s.cur.regs, pwr := s.cur.pwr } = s.cur)

/-- An enabled source in SLEEP or DEEP restarts DCLK, advances GTIME by the bridged ticks, records TIME_BRIDGE and starts
step 12; from IDLE it brings up step 1; during an entry it aborts it. Each step ends after its delay, read channels
stale, ports at rest and axes IDLE; the last raises WOKEN. A supply loss in sleep wakes steps 12, 11, 7 and 6 alone.
OFF keeps closed orderly copies in the writable bays, and leaving it is a power-on reset with UNBRIDGED and no wall
time. Reads of low halves latch the high ones. Commands that it says to complete, each on the conditions of its
clauses: wake, wakeTimerExpiry, wakeStep, wakeComplete, sleepSupplyLoss, offEntry, offExit, pwrBridgeLoRead,
pwrAonTLoRead. -/
def Obligations.Wakes : Prop :=
  (∀ (src : BitVec 10) (k : Nat) (s : State), s.cur.pwr.phase = .asleep → s.cur.wakeSources s.cur.pwr.target src.toNat ≠ 0 →
      bit src.toNat 0 = false ∨ s.cur.rsv.pfLine = false → ∃ t, exec (.wake src k) s = .next t
      ∧ t.cur.tb.gtime = BitVec.ofNat 64 (s.cur.pwr.gtimeCommit + (bridge (max 1 k) (s.cur.getI pgPwr PWR_AON_ERR_VALUE) s.cur.pwr.carry (s.cur.get pgPwr PWR_CFG_AON_TOL_PPM)).1)
      ∧ t.cur.pwr = { s.cur.pwr with phase := .waking 12 t.cur.gtime, carry := (bridge (max 1 k) (s.cur.getI pgPwr PWR_AON_ERR_VALUE) s.cur.pwr.carry (s.cur.get pgPwr PWR_CFG_AON_TOL_PPM)).2.1, aonT := (s.cur.pwr.aonCommit + max 1 k) % 2 ^ 48, ruleWake := false, lossWake := false, stopped := 0x1FFE }
      ∧ t.cur.cal = { s.cur.cal with woken := !false }
      ∧ (∀ a ∈ stepMembers (12), 32 ≤ a → t.cur.rd (a + PG_PWR_REQ.off) = BitVec.ofNat 32 (4 * 2 ^ 28 + t.cur.pwr.target * 2 ^ 24 + t.cur.pwr.seq % 2 ^ 16))
      ∧ t.cur.get64 pgPwr PWR_BRIDGE_LO_VALUE PWR_BRIDGE_HI_VALUE = (bridge (max 1 k) (s.cur.getI pgPwr PWR_AON_ERR_VALUE) s.cur.pwr.carry (s.cur.get pgPwr PWR_CFG_AON_TOL_PPM)).1 % 2 ^ 64
      ∧ t.cur.get pgPwr PWR_BRIDGE_UNC_VALUE = (bridge (max 1 k) (s.cur.getI pgPwr PWR_AON_ERR_VALUE) s.cur.pwr.carry (s.cur.get pgPwr PWR_CFG_AON_TOL_PPM)).2.2 % 2 ^ 32
      ∧ t.cur.flag pgTb TB_STAT_BRIDGED = true
      ∧ t.cur.get pgPwr PWR_WAKE_SRC_SRC = s.cur.wakeSources s.cur.pwr.target src.toNat % 2 ^ 10
      ∧ t.cur.get pgPwr PWR_STAT_STEP = 12
      ∧ t.cur.fj.staged = s.cur.fj.staged ++ [{ gtime := t.cur.gtime48, pgId := pgIdOf pgPwr, code := 0x0D01, deg := false, flt := false, data := [(max 1 k) % 2 ^ 32, (max 1 k) / 2 ^ 32 % 2 ^ 32, (bridge (max 1 k) (s.cur.getI pgPwr PWR_AON_ERR_VALUE) s.cur.pwr.carry (s.cur.get pgPwr PWR_CFG_AON_TOL_PPM)).1 % 2 ^ 32, (bridge (max 1 k) (s.cur.getI pgPwr PWR_AON_ERR_VALUE) s.cur.pwr.carry (s.cur.get pgPwr PWR_CFG_AON_TOL_PPM)).1 / 2 ^ 32 % 2 ^ 32] }]
      ∧ t.cur.scr.asleep = [] ∧ (∀ a, a < 0x8000 ∨ 0x10000 ≤ a → memGet t.cur.aon a = memGet s.cur.aon a)
      ∧ (s.vis = s.cur → t.vis = t.cur)
      ∧ (∀ a, a % 0x1000 ≠ PG_PWR_REQ.off → a ≠ pgTb + TB_STAT.off → a ≠ pgPwr + PWR_STAT.off → a ≠ pgPwr + PWR_WAKE_SRC.off → a ≠ pgPwr + PWR_ACCT0.off → a ≠ pgPwr + PWR_ACCT1.off → a ≠ pgPwr + PWR_BRIDGE_LO.off → a ≠ pgPwr + PWR_BRIDGE_HI.off → a ≠ pgPwr + PWR_BRIDGE_UNC.off → a ≠ pgPwr + PWR_AON_T_LO.off → a ≠ pgPwr + PWR_AON_T_HI.off → t.cur.rd a = s.cur.rd a)
      ∧ { t.cur with regs := s.cur.regs, aon := s.cur.aon, fresh := s.cur.fresh, tb := s.cur.tb, fj := s.cur.fj, pwr := s.cur.pwr, scr := s.cur.scr, cal := s.cur.cal } = s.cur) ∧
  (∀ (src : BitVec 10) (k : Nat) (s : State), s.cur.pwr.phase = .asleep → bit src.toNat 0 = true → s.cur.rsv.pfLine = true →
      ∃ t, exec (.wake src k) s = .next t
      ∧ t.cur.tb.gtime = BitVec.ofNat 64 (s.cur.pwr.gtimeCommit + (bridge (max 1 k) (s.cur.getI pgPwr PWR_AON_ERR_VALUE) s.cur.pwr.carry (s.cur.get pgPwr PWR_CFG_AON_TOL_PPM)).1)
      ∧ t.cur.pwr = { s.cur.pwr with phase := .waking 12 t.cur.gtime, carry := (bridge (max 1 k) (s.cur.getI pgPwr PWR_AON_ERR_VALUE) s.cur.pwr.carry (s.cur.get pgPwr PWR_CFG_AON_TOL_PPM)).2.1, aonT := (s.cur.pwr.aonCommit + max 1 k) % 2 ^ 48, ruleWake := false, lossWake := true, stopped := 0x1FFE }
      ∧ t.cur.cal = { s.cur.cal with woken := !true }
      ∧ (∀ a ∈ stepMembers (12), 32 ≤ a → t.cur.rd (a + PG_PWR_REQ.off) = BitVec.ofNat 32 (4 * 2 ^ 28 + t.cur.pwr.target * 2 ^ 24 + t.cur.pwr.seq % 2 ^ 16))
      ∧ t.cur.get64 pgPwr PWR_BRIDGE_LO_VALUE PWR_BRIDGE_HI_VALUE = (bridge (max 1 k) (s.cur.getI pgPwr PWR_AON_ERR_VALUE) s.cur.pwr.carry (s.cur.get pgPwr PWR_CFG_AON_TOL_PPM)).1 % 2 ^ 64
      ∧ t.cur.get pgPwr PWR_BRIDGE_UNC_VALUE = (bridge (max 1 k) (s.cur.getI pgPwr PWR_AON_ERR_VALUE) s.cur.pwr.carry (s.cur.get pgPwr PWR_CFG_AON_TOL_PPM)).2.2 % 2 ^ 32
      ∧ t.cur.flag pgTb TB_STAT_BRIDGED = true
      ∧ t.cur.get pgPwr PWR_WAKE_SRC_SRC = (s.cur.wakeSources s.cur.pwr.target src.toNat ||| 1) % 2 ^ 10
      ∧ t.cur.get pgPwr PWR_STAT_STEP = 12
      ∧ t.cur.fj.staged = s.cur.fj.staged ++ [{ gtime := t.cur.gtime48, pgId := pgIdOf pgPwr, code := 0x0D01, deg := false, flt := false, data := [(max 1 k) % 2 ^ 32, (max 1 k) / 2 ^ 32 % 2 ^ 32, (bridge (max 1 k) (s.cur.getI pgPwr PWR_AON_ERR_VALUE) s.cur.pwr.carry (s.cur.get pgPwr PWR_CFG_AON_TOL_PPM)).1 % 2 ^ 32, (bridge (max 1 k) (s.cur.getI pgPwr PWR_AON_ERR_VALUE) s.cur.pwr.carry (s.cur.get pgPwr PWR_CFG_AON_TOL_PPM)).1 / 2 ^ 32 % 2 ^ 32] }]
      ∧ t.cur.scr.asleep = [] ∧ (∀ a, a < 0x8000 ∨ 0x10000 ≤ a → memGet t.cur.aon a = memGet s.cur.aon a)
      ∧ (s.vis = s.cur → t.vis = t.cur)
      ∧ (∀ a, a % 0x1000 ≠ PG_PWR_REQ.off → a ≠ pgTb + TB_STAT.off → a ≠ pgPwr + PWR_STAT.off → a ≠ pgPwr + PWR_WAKE_SRC.off → a ≠ pgPwr + PWR_ACCT0.off → a ≠ pgPwr + PWR_ACCT1.off → a ≠ pgPwr + PWR_BRIDGE_LO.off → a ≠ pgPwr + PWR_BRIDGE_HI.off → a ≠ pgPwr + PWR_BRIDGE_UNC.off → a ≠ pgPwr + PWR_AON_T_LO.off → a ≠ pgPwr + PWR_AON_T_HI.off → t.cur.rd a = s.cur.rd a)
      ∧ { t.cur with regs := s.cur.regs, aon := s.cur.aon, fresh := s.cur.fresh, tb := s.cur.tb, fj := s.cur.fj, pwr := s.cur.pwr, scr := s.cur.scr, cal := s.cur.cal } = s.cur) ∧
  (∀ (src : BitVec 10) (k : Nat) (s : State), s.cur.pwr.phase = .asleep → s.cur.wakeSources s.cur.pwr.target src.toNat = 0 →
      bit src.toNat 0 = false ∨ s.cur.rsv.pfLine = false → ∃ t, exec (.wake src k) s = .next t ∧ t.cur = s.cur
      ∧ (s.vis = s.cur → t.vis = s.vis)
      ∧ { t.cur with regs := s.cur.regs, irqSet := s.cur.irqSet, aon := s.cur.aon, fresh := s.cur.fresh, tb := s.cur.tb, fj := s.cur.fj, pwr := s.cur.pwr, scr := s.cur.scr, cal := s.cur.cal } = s.cur) ∧
  (∀ (src : BitVec 10) (k : Nat) (s : State), s.cur.pwr.phase = .awake →
      s.cur.pwr.idle = false ∨ s.cur.wakeSources 1 src.toNat = 0 → ∃ t, exec (.wake src k) s = .next t ∧ t.cur = s.cur
      ∧ t.vis = s.vis
      ∧ { t.cur with regs := s.cur.regs, irqSet := s.cur.irqSet, aon := s.cur.aon, fresh := s.cur.fresh, tb := s.cur.tb, fj := s.cur.fj, pwr := s.cur.pwr, scr := s.cur.scr, cal := s.cur.cal } = s.cur) ∧
  (∀ (src : BitVec 10) (k : Nat) (s : State),
      (match s.cur.pwr.phase with | .asleep | .entry _ _ | .commit | .awake => false | _ => true) = true →
      ∃ t, exec (.wake src k) s = .next t ∧ t.cur = s.cur ∧ t.vis = s.vis
      ∧ { t.cur with regs := s.cur.regs, irqSet := s.cur.irqSet, aon := s.cur.aon, fresh := s.cur.fresh, tb := s.cur.tb, fj := s.cur.fj, pwr := s.cur.pwr, scr := s.cur.scr, cal := s.cur.cal } = s.cur) ∧
  (∀ (src : BitVec 10) (k : Nat) (st since : Nat) (s : State), s.cur.pwr.phase = .entry st since ∨ s.cur.pwr.phase = .commit →
      s.cur.wakeSources s.cur.pwr.target src.toNat = 0 → ∃ t, exec (.wake src k) s = .next t ∧ t.cur = s.cur ∧ t.vis = s.vis
      ∧ { t.cur with regs := s.cur.regs, irqSet := s.cur.irqSet, aon := s.cur.aon, fresh := s.cur.fresh, tb := s.cur.tb, fj := s.cur.fj, pwr := s.cur.pwr, scr := s.cur.scr, cal := s.cur.cal } = s.cur) ∧
  (∀ (src : BitVec 10) (k : Nat) (s : State), s.cur.pwr.phase = .commit → s.cur.wakeSources s.cur.pwr.target src.toNat ≠ 0 →
      ((if s.cur.pwr.idle then 2 else 1) < (if s.cur.pwr.target = 1 then 2 else 13)) → ∃ t, exec (.wake src k) s = .next t
      ∧ t.cur.get pgPwr PWR_STAT_LAST_REASON = 11 ∧ t.cur.flag pgPwr PWR_IRQ_ABORTED = true
      ∧ (t.cur.pwr = { s.cur.pwr with phase := .rollback (if s.cur.pwr.target = 1 then 2 else 13) ((if s.cur.pwr.target = 1 then 2 else 13) - 1) (s.cur.gtime + 1), retry := decide (11 < 11 ∧ s.cur.pwr.retries < s.cur.get pgPwr PWR_CFG_RETRY_N), abortAt := s.cur.gtime, refused := none, answers := [] })
      ∧ (t.cur.get pgPwr PWR_STAT_STEP = (if s.cur.pwr.target = 1 then 2 else 13) - 1)
      ∧ (s.cur.flag pgPwr PWR_CFG_ACCT = true → t.cur.get pgPwr PWR_ACCT0_ACCT = satInc (2 ^ 32 - 1) (s.cur.get pgPwr PWR_ACCT0_ACCT) ∧ t.cur.get pgPwr PWR_ACCT1_ACCT = Option.getD (none) 0)
      ∧ (∀ a, a ≠ pgPwr + PWR_STAT.off → a ≠ pgPwr + PWR_ACCT0.off → a ≠ pgPwr + PWR_ACCT1.off → a ≠ pgPwr + PG_IRQ_RAW.off → t.cur.rd a = s.cur.rd a)
      ∧ t.vis = s.vis ∧ { t.cur with regs := s.cur.regs, irqSet := s.cur.irqSet, pwr := s.cur.pwr } = s.cur) ∧
  (∀ (src : BitVec 10) (k : Nat) (s : State), s.cur.pwr.phase = .awake → s.cur.pwr.idle = true →
      s.cur.wakeSources 1 src.toNat ≠ 0 → ∃ t, exec (.wake src k) s = .next t
      ∧ t.cur.pwr = { s.cur.pwr with phase := .waking 1 (s.cur.gtime + 1), ruleWake := false, idle := false }
      ∧ t.cur.get pgPwr PWR_WAKE_SRC_SRC = s.cur.wakeSources 1 src.toNat % 2 ^ 10 ∧ t.cur.get pgPwr PWR_STAT_STEP = 1
      ∧ t.vis = s.vis ∧ t.cur.tb = s.cur.tb ∧ t.cur.aon = s.cur.aon
      ∧ (∀ a, a % 0x1000 ≠ PG_PWR_REQ.off → a ≠ pgTb + TB_STAT.off → a ≠ pgPwr + PWR_STAT.off → a ≠ pgPwr + PWR_WAKE_SRC.off → a ≠ pgPwr + PWR_ACCT0.off → a ≠ pgPwr + PWR_ACCT1.off → a ≠ pgPwr + PWR_BRIDGE_LO.off → a ≠ pgPwr + PWR_BRIDGE_HI.off → a ≠ pgPwr + PWR_BRIDGE_UNC.off → a ≠ pgPwr + PWR_AON_T_LO.off → a ≠ pgPwr + PWR_AON_T_HI.off → t.cur.rd a = s.cur.rd a)
      ∧ { t.cur with regs := s.cur.regs, pwr := s.cur.pwr } = s.cur) ∧
  (∀ (src : BitVec 10) (k : Nat) (st since : Nat) (s : State), s.cur.pwr.phase = .entry st since → st < 13 →
      ((if s.cur.pwr.idle then 2 else 1) < st) → s.cur.wakeSources s.cur.pwr.target src.toNat ≠ 0 →
      ∃ t, exec (.wake src k) s = .next t ∧ t.cur.get pgPwr PWR_STAT_LAST_REASON = 11 ∧ t.cur.flag pgPwr PWR_IRQ_ABORTED = true
      ∧ t.cur.pwr = { s.cur.pwr with phase := .rollback st (st - 1) (s.cur.gtime + 1), retry := decide (11 < 11 ∧ s.cur.pwr.retries < s.cur.get pgPwr PWR_CFG_RETRY_N), abortAt := s.cur.gtime, refused := none, answers := [] }
      ∧ (∀ a ∈ stepMembers (st), 32 ≤ a → t.cur.rd (a + PG_PWR_REQ.off) = BitVec.ofNat 32 (3 * 2 ^ 28 + t.cur.pwr.target * 2 ^ 24 + t.cur.pwr.seq % 2 ^ 16))
      ∧ (st = 8 → t.cur.flag pgDdr DDR_STAT_SELF_REFRESH = false) ∧ t.cur.get pgPwr PWR_STAT_STEP = st - 1
      ∧ (s.cur.flag pgPwr PWR_CFG_ACCT = true → t.cur.get pgPwr PWR_ACCT0_ACCT = satInc (2 ^ 32 - 1) (s.cur.get pgPwr PWR_ACCT0_ACCT) ∧ t.cur.get pgPwr PWR_ACCT1_ACCT = Option.getD (none) 0)
      ∧ (∀ a, a % 0x1000 ≠ PG_PWR_REQ.off → a ≠ pgDdr + DDR_STAT.off → a ≠ pgPwr + PWR_STAT.off → a ≠ pgPwr + PWR_ACCT0.off → a ≠ pgPwr + PWR_ACCT1.off → a ≠ pgPwr + PG_IRQ_RAW.off → t.cur.rd a = s.cur.rd a)
      ∧ t.vis = s.vis ∧ { t.cur with regs := s.cur.regs, irqSet := s.cur.irqSet, pwr := s.cur.pwr } = s.cur) ∧
  (∀ (k : Nat) (s : State), s.cur.pwr.phase = .asleep → s.cur.get pgPwr PWR_WAKE_TMR_TICKS ≠ 0 →
      s.cur.get pgPwr PWR_WAKE_TMR_TICKS ≤ k → s.cur.wakeSources s.cur.pwr.target 0x80 ≠ 0 →
      ∃ t, exec (.wakeTimerExpiry k) s = .next t
      ∧ t.cur.tb.gtime = BitVec.ofNat 64 (s.cur.pwr.gtimeCommit + (bridge (max 1 k) (s.cur.getI pgPwr PWR_AON_ERR_VALUE) s.cur.pwr.carry (s.cur.get pgPwr PWR_CFG_AON_TOL_PPM)).1)
      ∧ t.cur.pwr = { s.cur.pwr with phase := .waking 12 t.cur.gtime, carry := (bridge (max 1 k) (s.cur.getI pgPwr PWR_AON_ERR_VALUE) s.cur.pwr.carry (s.cur.get pgPwr PWR_CFG_AON_TOL_PPM)).2.1, aonT := (s.cur.pwr.aonCommit + max 1 k) % 2 ^ 48, ruleWake := false, lossWake := false, stopped := 0x1FFE }
      ∧ t.cur.cal = { s.cur.cal with woken := !false }
      ∧ (∀ a ∈ stepMembers (12), 32 ≤ a → t.cur.rd (a + PG_PWR_REQ.off) = BitVec.ofNat 32 (4 * 2 ^ 28 + t.cur.pwr.target * 2 ^ 24 + t.cur.pwr.seq % 2 ^ 16))
      ∧ t.cur.get64 pgPwr PWR_BRIDGE_LO_VALUE PWR_BRIDGE_HI_VALUE = (bridge (max 1 k) (s.cur.getI pgPwr PWR_AON_ERR_VALUE) s.cur.pwr.carry (s.cur.get pgPwr PWR_CFG_AON_TOL_PPM)).1 % 2 ^ 64
      ∧ t.cur.get pgPwr PWR_BRIDGE_UNC_VALUE = (bridge (max 1 k) (s.cur.getI pgPwr PWR_AON_ERR_VALUE) s.cur.pwr.carry (s.cur.get pgPwr PWR_CFG_AON_TOL_PPM)).2.2 % 2 ^ 32
      ∧ t.cur.flag pgTb TB_STAT_BRIDGED = true ∧ t.cur.get pgPwr PWR_WAKE_SRC_SRC = 0x80 ∧ t.cur.get pgPwr PWR_STAT_STEP = 12
      ∧ t.cur.fj.staged = s.cur.fj.staged ++ [{ gtime := t.cur.gtime48, pgId := pgIdOf pgPwr, code := 0x0D01, deg := false, flt := false, data := [(max 1 k) % 2 ^ 32, (max 1 k) / 2 ^ 32 % 2 ^ 32, (bridge (max 1 k) (s.cur.getI pgPwr PWR_AON_ERR_VALUE) s.cur.pwr.carry (s.cur.get pgPwr PWR_CFG_AON_TOL_PPM)).1 % 2 ^ 32, (bridge (max 1 k) (s.cur.getI pgPwr PWR_AON_ERR_VALUE) s.cur.pwr.carry (s.cur.get pgPwr PWR_CFG_AON_TOL_PPM)).1 / 2 ^ 32 % 2 ^ 32] }]
      ∧ t.cur.scr.asleep = [] ∧ (∀ a, a < 0x8000 ∨ 0x10000 ≤ a → memGet t.cur.aon a = memGet s.cur.aon a)
      ∧ (s.vis = s.cur → t.vis = t.cur)
      ∧ (∀ a, a % 0x1000 ≠ PG_PWR_REQ.off → a ≠ pgTb + TB_STAT.off → a ≠ pgPwr + PWR_STAT.off → a ≠ pgPwr + PWR_WAKE_SRC.off → a ≠ pgPwr + PWR_ACCT0.off → a ≠ pgPwr + PWR_ACCT1.off → a ≠ pgPwr + PWR_BRIDGE_LO.off → a ≠ pgPwr + PWR_BRIDGE_HI.off → a ≠ pgPwr + PWR_BRIDGE_UNC.off → a ≠ pgPwr + PWR_AON_T_LO.off → a ≠ pgPwr + PWR_AON_T_HI.off → t.cur.rd a = s.cur.rd a)
      ∧ { t.cur with regs := s.cur.regs, aon := s.cur.aon, fresh := s.cur.fresh, tb := s.cur.tb, fj := s.cur.fj, pwr := s.cur.pwr, scr := s.cur.scr, cal := s.cur.cal } = s.cur) ∧
  (∀ (k : Nat) (s : State),
      s.cur.pwr.phase ≠ .asleep ∨ s.cur.get pgPwr PWR_WAKE_TMR_TICKS = 0 ∨ k < s.cur.get pgPwr PWR_WAKE_TMR_TICKS →
      ∃ t, exec (.wakeTimerExpiry k) s = .next t ∧ t.cur = s.cur
      ∧ { t.cur with regs := s.cur.regs, irqSet := s.cur.irqSet, aon := s.cur.aon, fresh := s.cur.fresh, tb := s.cur.tb, fj := s.cur.fj, pwr := s.cur.pwr, scr := s.cur.scr, cal := s.cur.cal } = s.cur) ∧
  (∀ (st w : Nat) (s : State), s.cur.pwr.phase = .waking st w → s.cur.lastStep < st → st < 13 →
      (w + (if s.cur.pwr.target = 3 then (stepDelays st).2.1 else (stepDelays st).1) ≤ s.cur.gtime + 1) → st ≠ 4 → st ≠ 5 →
      ∃ t, exec (.wakeStep) s = .next t
      ∧ (t.cur.pwr = { s.cur.pwr with phase := .waking (if s.cur.pwr.lossWake = true ∧ st = 11 then 7 else st - 1) (s.cur.gtime + 1), stopped := setBits s.cur.pwr.stopped st 1 0 })
      ∧ (∀ a ∈ stepMembers (st), 32 ≤ a → t.cur.rd (a + PG_PWR_REQ.off) = BitVec.ofNat 32 (0 * 2 ^ 28 + t.cur.pwr.target * 2 ^ 24 + t.cur.pwr.seq % 2 ^ 16))
      ∧ (∀ a ∈ stepMembers ((if s.cur.pwr.lossWake = true ∧ st = 11 then 7 else st - 1)), 32 ≤ a → t.cur.rd (a + PG_PWR_REQ.off) = BitVec.ofNat 32 (4 * 2 ^ 28 + t.cur.pwr.target * 2 ^ 24 + t.cur.pwr.seq % 2 ^ 16))
      ∧ (st = 8 → t.cur.flag pgDdr DDR_STAT_SELF_REFRESH = false)
      ∧ (t.cur.get pgPwr PWR_STAT_STEP = (if s.cur.pwr.lossWake = true ∧ st = 11 then 7 else st - 1))
      ∧ (∀ a, a % 0x1000 ≠ PG_PWR_REQ.off → a ≠ pgDdr + DDR_STAT.off → a ≠ pgPwr + PWR_STAT.off → t.cur.rd a = s.cur.rd a)
      ∧ t.vis = s.vis ∧ { t.cur with regs := s.cur.regs, pwr := s.cur.pwr } = s.cur) ∧
  (∀ (st w : Nat) (s : State), s.cur.pwr.phase = .waking st w → s.cur.lastStep < st → st < 13 →
      (w + (if s.cur.pwr.target = 3 then (stepDelays st).2.1 else (stepDelays st).1) ≤ s.cur.gtime + 1) → st = 4 →
      ∃ t, exec (.wakeStep) s = .next t
      ∧ (t.cur.pwr = { s.cur.pwr with phase := .waking (if s.cur.pwr.lossWake = true ∧ st = 11 then 7 else st - 1) (s.cur.gtime + 1), stopped := setBits s.cur.pwr.stopped st 1 0 })
      ∧ (∀ a ∈ stepMembers (st), 32 ≤ a → t.cur.rd (a + PG_PWR_REQ.off) = BitVec.ofNat 32 (0 * 2 ^ 28 + t.cur.pwr.target * 2 ^ 24 + t.cur.pwr.seq % 2 ^ 16))
      ∧ (∀ a ∈ stepMembers ((if s.cur.pwr.lossWake = true ∧ st = 11 then 7 else st - 1)), 32 ≤ a → t.cur.rd (a + PG_PWR_REQ.off) = BitVec.ofNat 32 (4 * 2 ^ 28 + t.cur.pwr.target * 2 ^ 24 + t.cur.pwr.seq % 2 ^ 16))
      ∧ (st = 8 → t.cur.flag pgDdr DDR_STAT_SELF_REFRESH = false)
      ∧ (t.cur.get pgPwr PWR_STAT_STEP = (if s.cur.pwr.lossWake = true ∧ st = 11 then 7 else st - 1))
      ∧ (∀ k, k < 5 → t.cur.flag (pgFth k) PG_STAT_STALE = true)
      ∧ (∀ k : Fin 5, (t.cur.fthc k).step = 0 ∧ (t.cur.fthc k).stepAt = none) ∧ t.vis = s.vis
      ∧ { t.cur with regs := s.cur.regs, fth := s.cur.fth, pwr := s.cur.pwr } = s.cur) ∧
  (∀ (st w : Nat) (s : State), s.cur.pwr.phase = .waking st w → s.cur.lastStep < st → st < 13 →
      (w + (if s.cur.pwr.target = 3 then (stepDelays st).2.1 else (stepDelays st).1) ≤ s.cur.gtime + 1) → st = 5 →
      ∃ t, exec (.wakeStep) s = .next t
      ∧ (t.cur.pwr = { s.cur.pwr with phase := .waking (if s.cur.pwr.lossWake = true ∧ st = 11 then 7 else st - 1) (s.cur.gtime + 1), stopped := setBits s.cur.pwr.stopped st 1 0 })
      ∧ (∀ a ∈ stepMembers (st), 32 ≤ a → t.cur.rd (a + PG_PWR_REQ.off) = BitVec.ofNat 32 (0 * 2 ^ 28 + t.cur.pwr.target * 2 ^ 24 + t.cur.pwr.seq % 2 ^ 16))
      ∧ (∀ a ∈ stepMembers ((if s.cur.pwr.lossWake = true ∧ st = 11 then 7 else st - 1)), 32 ≤ a → t.cur.rd (a + PG_PWR_REQ.off) = BitVec.ofNat 32 (4 * 2 ^ 28 + t.cur.pwr.target * 2 ^ 24 + t.cur.pwr.seq % 2 ^ 16))
      ∧ (st = 8 → t.cur.flag pgDdr DDR_STAT_SELF_REFRESH = false)
      ∧ (t.cur.get pgPwr PWR_STAT_STEP = (if s.cur.pwr.lossWake = true ∧ st = 11 then 7 else st - 1))
      ∧ (∀ k, k < 12 → s.cur.axisState k ≠ 0 → t.cur.axisState k = 1 ∧ t.cur.flag (pgAx k) CHN_STAT_REF = false)
      ∧ (∀ k, k < 12 → s.cur.axisState k = 0 → t.cur.axisState k = 0) ∧ (∀ k, k < 4 → t.cur.get (pgOps k) OPS_STAT_STATE = 0)
      ∧ t.vis = s.vis ∧ { t.cur with regs := s.cur.regs, ell := s.cur.ell, axes := s.cur.axes, pwr := s.cur.pwr } = s.cur) ∧
  (∀ (s : State), (match s.cur.pwr.phase with | .waking _ _ => false | _ => true) = true → ∃ t, exec (.wakeStep) s = .next t
      ∧ t.cur = s.cur ∧ t.vis = s.vis) ∧
  (∀ (st w : Nat) (s : State), s.cur.pwr.phase = .waking st w →
      (st ≤ s.cur.lastStep ∨ s.cur.gtime + 1 < w + (if s.cur.pwr.target = 3 then (stepDelays st).2.1 else (stepDelays st).1)) →
      ∃ t, exec (.wakeStep) s = .next t ∧ t.cur = s.cur ∧ t.vis = s.vis) ∧
  (∀ (st w : Nat) (s : State), s.cur.pwr.phase = .waking st w → s.cur.pwr.lossWake = false → st ≤ s.cur.lastStep → 1 ≤ st →
      (w + (if s.cur.pwr.target = 3 then (stepDelays st).2.1 else (stepDelays st).1) ≤ s.cur.gtime + 1) →
      ∃ t, exec (.wakeComplete) s = .next t
      ∧ t.cur.pwr = { s.cur.pwr with phase := .awake, idle := decide (st = 2), stopped := setBits s.cur.pwr.stopped st 1 0 }
      ∧ (∀ a ∈ stepMembers (st), 32 ≤ a → t.cur.rd (a + PG_PWR_REQ.off) = BitVec.ofNat 32 (0 * 2 ^ 28 + t.cur.pwr.target * 2 ^ 24 + t.cur.pwr.seq % 2 ^ 16))
      ∧ (t.cur.get pgPwr PWR_STAT_STATE = (if s.cur.pwr.target = 2 then 2 else if s.cur.pwr.target = 3 then 3 else 0))
      ∧ t.cur.flag pgPwr PWR_IRQ_WOKEN = true ∧ t.cur.get pgPwr PWR_STAT_STEP = 0
      ∧ (∀ a, a % 0x1000 ≠ PG_PWR_REQ.off → a ≠ pgDdr + DDR_STAT.off → a ≠ pgPwr + PWR_STAT.off → a ≠ pgPwr + PG_IRQ_RAW.off → t.cur.rd a = s.cur.rd a)
      ∧ t.vis = s.vis ∧ { t.cur with regs := s.cur.regs, irqSet := s.cur.irqSet, pwr := s.cur.pwr } = s.cur) ∧
  (∀ (st w : Nat) (s : State), s.cur.pwr.phase = .waking st w → s.cur.pwr.lossWake = true → st = 6 →
      (w + (if s.cur.pwr.target = 3 then (stepDelays st).2.1 else (stepDelays st).1) ≤ s.cur.gtime + 1) →
      ∃ t, exec (.wakeComplete) s = .next t
      ∧ t.cur.pwr = { s.cur.pwr with phase := .awake, idle := false, lossWake := false, stopped := setBits s.cur.pwr.stopped 6 1 0 }
      ∧ (∀ a ∈ stepMembers (6), 32 ≤ a → t.cur.rd (a + PG_PWR_REQ.off) = BitVec.ofNat 32 (0 * 2 ^ 28 + t.cur.pwr.target * 2 ^ 24 + t.cur.pwr.seq % 2 ^ 16))
      ∧ t.cur.get pgPwr PWR_STAT_STEP = 0
      ∧ (∀ a, a % 0x1000 ≠ PG_PWR_REQ.off → a ≠ pgDdr + DDR_STAT.off → a ≠ pgPwr + PWR_STAT.off → t.cur.rd a = s.cur.rd a)
      ∧ t.vis = s.vis ∧ { t.cur with regs := s.cur.regs, pwr := s.cur.pwr } = s.cur) ∧
  (∀ (s : State), (match s.cur.pwr.phase with | .waking _ _ => false | _ => true) = true → ∃ t, exec (.wakeComplete) s = .next t
      ∧ t.cur = s.cur ∧ t.vis = s.vis) ∧
  (∀ (st w : Nat) (s : State), s.cur.pwr.phase = .waking st w →
      (s.cur.lastStep < st ∨ s.cur.gtime + 1 < w + (if s.cur.pwr.target = 3 then (stepDelays st).2.1 else (stepDelays st).1)) →
      ∃ t, exec (.wakeComplete) s = .next t ∧ t.cur = s.cur ∧ t.vis = s.vis) ∧
  (∀ (k : Nat) (s : State), s.cur.pwr.phase = .asleep → s.cur.rsv.pfLine = true → ∃ t, exec (.sleepSupplyLoss k) s = .next t
      ∧ t.cur.tb.gtime = BitVec.ofNat 64 (s.cur.pwr.gtimeCommit + (bridge (max 1 k) (s.cur.getI pgPwr PWR_AON_ERR_VALUE) s.cur.pwr.carry (s.cur.get pgPwr PWR_CFG_AON_TOL_PPM)).1)
      ∧ t.cur.pwr = { s.cur.pwr with phase := .waking 12 t.cur.gtime, carry := (bridge (max 1 k) (s.cur.getI pgPwr PWR_AON_ERR_VALUE) s.cur.pwr.carry (s.cur.get pgPwr PWR_CFG_AON_TOL_PPM)).2.1, aonT := (s.cur.pwr.aonCommit + max 1 k) % 2 ^ 48, ruleWake := false, lossWake := true, stopped := 0x1FFE }
      ∧ t.cur.cal = { s.cur.cal with woken := !true }
      ∧ (∀ a ∈ stepMembers (12), 32 ≤ a → t.cur.rd (a + PG_PWR_REQ.off) = BitVec.ofNat 32 (4 * 2 ^ 28 + t.cur.pwr.target * 2 ^ 24 + t.cur.pwr.seq % 2 ^ 16))
      ∧ t.cur.get64 pgPwr PWR_BRIDGE_LO_VALUE PWR_BRIDGE_HI_VALUE = (bridge (max 1 k) (s.cur.getI pgPwr PWR_AON_ERR_VALUE) s.cur.pwr.carry (s.cur.get pgPwr PWR_CFG_AON_TOL_PPM)).1 % 2 ^ 64
      ∧ t.cur.get pgPwr PWR_BRIDGE_UNC_VALUE = (bridge (max 1 k) (s.cur.getI pgPwr PWR_AON_ERR_VALUE) s.cur.pwr.carry (s.cur.get pgPwr PWR_CFG_AON_TOL_PPM)).2.2 % 2 ^ 32
      ∧ t.cur.flag pgTb TB_STAT_BRIDGED = true ∧ t.cur.get pgPwr PWR_WAKE_SRC_SRC = 1 ∧ t.cur.get pgPwr PWR_STAT_STEP = 12
      ∧ t.cur.fj.staged = s.cur.fj.staged ++ [{ gtime := t.cur.gtime48, pgId := pgIdOf pgPwr, code := 0x0D01, deg := false, flt := false, data := [(max 1 k) % 2 ^ 32, (max 1 k) / 2 ^ 32 % 2 ^ 32, (bridge (max 1 k) (s.cur.getI pgPwr PWR_AON_ERR_VALUE) s.cur.pwr.carry (s.cur.get pgPwr PWR_CFG_AON_TOL_PPM)).1 % 2 ^ 32, (bridge (max 1 k) (s.cur.getI pgPwr PWR_AON_ERR_VALUE) s.cur.pwr.carry (s.cur.get pgPwr PWR_CFG_AON_TOL_PPM)).1 / 2 ^ 32 % 2 ^ 32] }]
      ∧ t.cur.scr.asleep = [] ∧ (∀ a, a < 0x8000 ∨ 0x10000 ≤ a → memGet t.cur.aon a = memGet s.cur.aon a) ∧ t.vis = t.cur
      ∧ (∀ a, a % 0x1000 ≠ PG_PWR_REQ.off → a ≠ pgTb + TB_STAT.off → a ≠ pgPwr + PWR_STAT.off → a ≠ pgPwr + PWR_WAKE_SRC.off → a ≠ pgPwr + PWR_ACCT0.off → a ≠ pgPwr + PWR_ACCT1.off → a ≠ pgPwr + PWR_BRIDGE_LO.off → a ≠ pgPwr + PWR_BRIDGE_HI.off → a ≠ pgPwr + PWR_BRIDGE_UNC.off → a ≠ pgPwr + PWR_AON_T_LO.off → a ≠ pgPwr + PWR_AON_T_HI.off → t.cur.rd a = s.cur.rd a)
      ∧ { t.cur with regs := s.cur.regs, aon := s.cur.aon, fresh := s.cur.fresh, tb := s.cur.tb, fj := s.cur.fj, pwr := s.cur.pwr, scr := s.cur.scr, cal := s.cur.cal } = s.cur) ∧
  (∀ (k : Nat) (s : State), s.cur.pwr.phase ≠ .asleep ∨ s.cur.rsv.pfLine = false → ∃ t, exec (.sleepSupplyLoss k) s = .next t
      ∧ t.cur = s.cur ∧ t.vis = s.vis
      ∧ { t.cur with regs := s.cur.regs, aon := s.cur.aon, fresh := s.cur.fresh, tb := s.cur.tb, fj := s.cur.fj, pwr := s.cur.pwr, scr := s.cur.scr, cal := s.cur.cal } = s.cur) ∧
  (∀ (mv : BitVec 16) (failed : BitVec 4) (s : State), s.cur.pwr.phase = .commit → s.cur.pwr.target = 4 →
      s.cur.rsv.copying = false → (∀ c ∈ s.cur.rsv.commits, c.seq ≤ s.cur.rsv.commitSeq) →
      ∃ t, exec (.offEntry mv failed) s = .next t ∧ t.cur.pwr = { s.cur.pwr with phase := .off, hold := false }
      ∧ t.cur.clockOn = false ∧ t.cur.rsv.pfLine = false ∧ t.vis = t.cur
      ∧ (t.cur.rsv.commitSeq = s.cur.rsv.commitSeq + (if s.cur.flag pgLdg LDG_STAT_RESTORED && !s.cur.commitBays.isEmpty then 1 else 0))
      ∧ (∀ c ∈ t.cur.rsv.commits, c ∈ s.cur.rsv.commits ∨ (c.seq = t.cur.rsv.commitSeq ∧ c.orderly = true ∧ c.vholdMv = mv.toNat ∧ c.failed = bit failed.toNat c.bay ∧ c.closed = !c.failed))
      ∧ { t.cur with regs := s.cur.regs, irqSet := s.cur.irqSet, mem := s.cur.mem, host := s.cur.host, fresh := s.cur.fresh, fj := s.cur.fj, ldg := s.cur.ldg, rsv := s.cur.rsv, fls := s.cur.fls, pwr := s.cur.pwr } = s.cur) ∧
  (∀ (mv : BitVec 16) (failed : BitVec 4) (s : State), s.cur.pwr.phase ≠ .commit ∨ s.cur.pwr.target ≠ 4 →
      ∃ t, exec (.offEntry mv failed) s = .next t ∧ t.cur = s.cur ∧ t.vis = s.vis
      ∧ { t.cur with regs := s.cur.regs, irqSet := s.cur.irqSet, mem := s.cur.mem, host := s.cur.host, fresh := s.cur.fresh, fj := s.cur.fj, ldg := s.cur.ldg, rsv := s.cur.rsv, fls := s.cur.fls, pwr := s.cur.pwr } = s.cur) ∧
  (∀ (s : State), s.cur.pwr.phase = .off → ∃ t, exec (.offExit) s = .next t ∧ t.cur.su.step = 1 ∧ t.cur.pwr.hold = true
      ∧ t.cur.get pgRst RST_CAUSE = 2 ∧ t.cur.flag pgPwr PWR_STAT_UNBRIDGED = true ∧ t.cur.flag pgTb TB_CTL_WALL_VALID = false
      ∧ t.cur.tb.gtime = s.cur.tb.gtime ∧ t.cur.rsv.commits.length = s.cur.rsv.commits.length
      ∧ (∃ x ∈ t.cur.fj.staged, x.code = 0x0D02 ∧ x.pgId = pgIdOf pgPwr) ∧ t.vis = t.cur) ∧
  (∀ (s : State), s.cur.pwr.phase ≠ .off → ∃ t, exec (.offExit) s = .next t ∧ t.cur = s.cur ∧ t.vis = s.vis) ∧
  (∀ (r : Requester) (s : State), ∃ t, exec (.pwrBridgeLoRead r) s = .next t
      ∧ t.vis.bus = { rdata := s.vis.rd (pgPwr + PWR_BRIDGE_LO.off), error := false }
      ∧ t.vis.readWord r (pgPwr + PWR_BRIDGE_HI.off) = s.vis.rd (pgPwr + PWR_BRIDGE_HI.off)
      ∧ { t.vis with tb := s.vis.tb, bus := s.vis.bus } = s.vis ∧ { t.cur with tb := s.cur.tb, bus := s.cur.bus } = s.cur) ∧
  (∀ (r : Requester) (s : State), ∃ t, exec (.pwrAonTLoRead r) s = .next t
      ∧ t.vis.bus = { rdata := s.vis.rd (pgPwr + PWR_AON_T_LO.off), error := false }
      ∧ t.vis.readWord r (pgPwr + PWR_AON_T_HI.off) = s.vis.rd (pgPwr + PWR_AON_T_HI.off)
      ∧ { t.vis with tb := s.vis.tb, bus := s.vis.bus } = s.vis ∧ { t.cur with tb := s.cur.tb, bus := s.cur.bus } = s.cur)

/-- A period advances AON_T by 32 ticks; with EN it captures the signals, steps the filters and evaluates the rules: an
armed rule whose condition becomes effective in its states fires, disarms and takes its action (OUT raises its pin,
LOG writes an entry at HEAD, MARK fills a free slot or counts LOST). Writes of a rule re-arm it, of a filter clear its
state, of a lane entry clear its stamps, of SCR_OUT and SCR_MARK_ACK clear bits. A minute stamps every valid entry. A
mark is resolved to each matching lane's start. Commands that it says to complete, each on the conditions of its
clauses: scrRuleWrite, scrFiltWrite, scrLaneDataWrite, scrOutClear, scrMarkAckWrite, sentinelPeriod, minuteStamp,
markResolve. -/
def Obligations.Sentinel : Prop :=
  (∀ (v : Word) (s : State), ∃ t, exec (.scrRuleWrite false v) s = .next t
      ∧ t.cur.rd (pgRule + 0x40 + 16 * s.cur.get pgScr SCR_RULE_SEL_RULE) = v &&& 0xFFFCFFFF
      ∧ t.cur.get pgRule (ruleFld (s.cur.get pgScr SCR_RULE_SEL_RULE) 2 SCR_RULE_STAT_ARMED) = 1
      ∧ (∀ a, a ≠ pgRule + 0x40 + 16 * s.cur.get pgScr SCR_RULE_SEL_RULE → a ≠ pgRule + 0x48 + 16 * s.cur.get pgScr SCR_RULE_SEL_RULE → t.cur.rd a = s.cur.rd a)
      ∧ t.vis = s.vis ∧ { t.cur with regs := s.cur.regs } = s.cur) ∧
  (∀ (v : Word) (s : State), ∃ t, exec (.scrRuleWrite true v) s = .next t
      ∧ t.cur.ruleB (s.cur.get pgScr SCR_RULE_SEL_RULE) SCR_RULE_B_MARK_MIN = clampN 1 60 (bits v.toNat 8 6)
      ∧ t.cur.ruleB (s.cur.get pgScr SCR_RULE_SEL_RULE) SCR_RULE_B_HOLD = bits v.toNat 20 12
      ∧ t.cur.ruleB (s.cur.get pgScr SCR_RULE_SEL_RULE) SCR_RULE_B_ACT = bits v.toNat 16 4
      ∧ t.cur.ruleB (s.cur.get pgScr SCR_RULE_SEL_RULE) SCR_RULE_B_OUTSEL = bits v.toNat 15 1
      ∧ t.cur.ruleB (s.cur.get pgScr SCR_RULE_SEL_RULE) SCR_RULE_B_SET = bits v.toNat 0 8
      ∧ t.cur.get pgRule (ruleFld (s.cur.get pgScr SCR_RULE_SEL_RULE) 2 SCR_RULE_STAT_ARMED) = 1
      ∧ (∀ a, a ≠ pgRule + 0x44 + 16 * s.cur.get pgScr SCR_RULE_SEL_RULE → a ≠ pgRule + 0x48 + 16 * s.cur.get pgScr SCR_RULE_SEL_RULE → t.cur.rd a = s.cur.rd a)
      ∧ t.vis = s.vis ∧ { t.cur with regs := s.cur.regs } = s.cur) ∧
  (∀ (f : Fin 8) (v : Word) (s : State), ∃ t, exec (.scrFiltWrite f v) s = .next t
      ∧ t.cur.rd (pgScr + SCR_FILT.off + 4 * f.val) = v &&& 0x1FCF ∧ t.cur.scr = { s.cur.scr with lp := s.cur.scr.lp.set f 0 }
      ∧ (∀ a, a ≠ pgScr + SCR_FILT.off + 4 * f.val → t.cur.rd a = s.cur.rd a) ∧ t.vis = s.vis
      ∧ { t.cur with regs := s.cur.regs, scr := s.cur.scr } = s.cur) ∧
  (∀ (v : Word) (s : State), ∃ t, exec (.scrLaneDataWrite v) s = .next t
      ∧ t.cur.rd (pgLane + 4 * (bits (s.cur.get pgScr SCR_LANE_SEL_SEL) 0 6)) = v &&& 0x8FFFFFFF
      ∧ (∀ a, 0x8000 + (bits (s.cur.get pgScr SCR_LANE_SEL_SEL) 0 6) * 512 ≤ a → a < 0x8200 + (bits (s.cur.get pgScr SCR_LANE_SEL_SEL) 0 6) * 512 → memGet t.cur.aon a = 0)
      ∧ (∀ a, a < 0x8000 + (bits (s.cur.get pgScr SCR_LANE_SEL_SEL) 0 6) * 512 ∨ 0x8200 + (bits (s.cur.get pgScr SCR_LANE_SEL_SEL) 0 6) * 512 ≤ a → memGet t.cur.aon a = memGet s.cur.aon a)
      ∧ (∀ a, a ≠ pgLane + 4 * (bits (s.cur.get pgScr SCR_LANE_SEL_SEL) 0 6) → t.cur.rd a = s.cur.rd a) ∧ t.vis = s.vis
      ∧ { t.cur with regs := s.cur.regs, aon := s.cur.aon } = s.cur) ∧
  (∀ (v : Word) (s : State), ∃ t, exec (.scrOutClear v) s = .next t
      ∧ t.cur.get pgScr SCR_OUT_OUT = s.cur.get pgScr SCR_OUT_OUT &&& (3 ^^^ bits v.toNat 0 2)
      ∧ (∀ a, a ≠ pgScr + SCR_OUT.off → t.cur.rd a = s.cur.rd a) ∧ t.vis = s.vis ∧ { t.cur with regs := s.cur.regs } = s.cur) ∧
  (∀ (v : Word) (s : State), ∃ t, exec (.scrMarkAckWrite v) s = .next t
      ∧ t.cur.get pgScr SCR_MARK_SLOTS = (s.cur.get pgScr SCR_MARK_SLOTS &&& (0xFFFF ^^^ bits v.toNat 0 16))
      ∧ t.cur.get pgScr SCR_MARK_ACK_SLOTS = (s.cur.get pgScr SCR_MARK_SLOTS &&& (0xFFFF ^^^ bits v.toNat 0 16))
      ∧ t.cur.get pgScr SCR_MARK_LOST = s.cur.get pgScr SCR_MARK_LOST
      ∧ (t.cur.scr = { s.cur.scr with times := s.cur.scr.times.filter fun x => bit (s.cur.get pgScr SCR_MARK_SLOTS &&& (0xFFFF ^^^ bits v.toNat 0 16)) x.1, asleep := s.cur.scr.asleep.filter fun x => bit (s.cur.get pgScr SCR_MARK_SLOTS &&& (0xFFFF ^^^ bits v.toNat 0 16)) x })
      ∧ (∀ a, a ≠ pgScr + SCR_MARK.off → a ≠ pgScr + SCR_MARK_ACK.off → t.cur.rd a = s.cur.rd a) ∧ t.vis = s.vis
      ∧ { t.cur with regs := s.cur.regs, scr := s.cur.scr } = s.cur) ∧
  (∀ (x y z vm vh tl tp : BitVec 16) (ign : Bool) (s : State), s.cur.pwr.phase ≠ .off → s.cur.flag pgScr SCR_CTL_EN = false →
      ∃ t, exec (.sentinelPeriod x y z ign vm vh tl tp none) s = .next t
      ∧ t.cur.pwr = { s.cur.pwr with aonT := (s.cur.pwr.aonT + 32) % 2 ^ 48 }
      ∧ t.cur.get64 pgPwr PWR_AON_T_LO_VALUE PWR_AON_T_HI_VALUE = (s.cur.pwr.aonT + 32) % 2 ^ 48
      ∧ (s.cur.clockOn = true → t.vis = s.vis)
      ∧ (∀ a, a ≠ pgPwr + PWR_AON_T_LO.off → a ≠ pgPwr + PWR_AON_T_HI.off → t.cur.rd a = s.cur.rd a)
      ∧ { t.cur with regs := s.cur.regs, pwr := s.cur.pwr } = s.cur) ∧
  (∀ (x y z vm vh tl tp : BitVec 16) (ign : Bool) (s : State), s.cur.pwr.phase = .off →
      ∃ t, exec (.sentinelPeriod x y z ign vm vh tl tp none) s = .next t ∧ t.cur = s.cur
      ∧ { t.cur with regs := s.cur.regs, irqSet := s.cur.irqSet, aon := s.cur.aon, pwr := s.cur.pwr, scr := s.cur.scr } = s.cur) ∧
  (∀ (x y z vm vh tl tp : BitVec 16) (ign : Bool) (s : State), s.cur.pwr.phase ≠ .off → s.cur.flag pgScr SCR_CTL_EN = true →
      (∀ q : Fin 32, s.cur.ruleA q SCR_RULE_A_CMP = 0 ∨ 4 < s.cur.ruleA q SCR_RULE_A_CMP) →
      ∃ t, exec (.sentinelPeriod x y z ign vm vh tl tp none) s = .next t
      ∧ t.cur.pwr = { s.cur.pwr with aonT := (s.cur.pwr.aonT + 32) % 2 ^ 48 }
      ∧ t.cur.get64 pgPwr PWR_AON_T_LO_VALUE PWR_AON_T_HI_VALUE = (s.cur.pwr.aonT + 32) % 2 ^ 48
      ∧ (s.cur.clockOn = true → t.vis = s.vis)
      ∧ (t.cur.signal 0 = (if (s.cur.clockOn && s.cur.domainOn 20) = true then s.cur.getI pgAcc ACC_XY_X else sext 16 x.toNat))
      ∧ (t.cur.signal 1 = (if (s.cur.clockOn && s.cur.domainOn 20) = true then s.cur.getI pgAcc ACC_XY_Y else sext 16 y.toNat))
      ∧ (t.cur.signal 2 = (if (s.cur.clockOn && s.cur.domainOn 20) = true then s.cur.getI pgAcc ACC_ZS_Z else sext 16 z.toNat))
      ∧ (t.cur.signal 3 = min 32767 ((if (s.cur.clockOn && s.cur.domainOn 20) = true then s.cur.getI pgAcc ACC_XY_X else sext 16 x.toNat).natAbs + (if (s.cur.clockOn && s.cur.domainOn 20) = true then s.cur.getI pgAcc ACC_XY_Y else sext 16 y.toNat).natAbs + (if (s.cur.clockOn && s.cur.domainOn 20) = true then s.cur.getI pgAcc ACC_ZS_Z else sext 16 z.toNat).natAbs : Nat))
      ∧ t.cur.signal 5 = sext 16 vm.toNat ∧ t.cur.signal 6 = sext 16 vh.toNat ∧ t.cur.signal 7 = sext 16 tl.toNat
      ∧ t.cur.signal 8 = sext 16 tp.toNat
      ∧ (t.cur.signal 4 = (if s.cur.signal 4 ≠ b2n ign ∧ 7 ≤ s.cur.scr.ignRun then (b2n ign : Int) else s.cur.signal 4))
      ∧ (∀ f : Fin 8, t.cur.scr.lp[f] = satI 32 (s.cur.scr.lp[f] + (t.cur.signal (s.cur.filterSrc f) * 2 ^ 16 - s.cur.scr.lp[f]) / 2 ^ (s.cur.get pgScr (SCR_FILT_K.idx f))))
      ∧ (∀ q : Fin 32, (t.cur.scrRule q).eff = false)
      ∧ (∀ a, (∀ q : Fin 32, a ≠ pgRule + 0x48 + 16 * q.val) → a ≠ pgPwr + PWR_AON_T_LO.off → a ≠ pgPwr + PWR_AON_T_HI.off → t.cur.rd a = s.cur.rd a)
      ∧ { t.cur with regs := s.cur.regs, pwr := s.cur.pwr, scr := s.cur.scr } = s.cur) ∧
  (∀ (x y z vm vh tl tp : BitVec 16) (ign : Bool) (q : Fin 32) (s : State), s.cur.pwr.phase ≠ .off →
      s.cur.flag pgScr SCR_CTL_EN = true → (∀ p : Fin 32, p ≠ q → s.cur.ruleA p SCR_RULE_A_CMP = 0) →
      s.cur.ruleA q SCR_RULE_A_CMP = 1 → s.cur.ruleA q SCR_RULE_A_LINK = 0 → s.cur.ruleA q SCR_RULE_A_OPND = 0 →
      (sext 16 (s.cur.ruleA q SCR_RULE_A_THRESH) < (if (s.cur.clockOn && s.cur.domainOn 20) = true then s.cur.getI pgAcc ACC_XY_X else sext 16 x.toNat)) →
      s.cur.ruleB q SCR_RULE_B_HOLD ≤ (s.cur.scrRule q).run + 1 → (s.cur.scrRule q).eff = false →
      s.cur.get pgRule (ruleFld q 2 SCR_RULE_STAT_ARMED) = 1 →
      statesHold s.cur.scrState (s.cur.ruleA q SCR_RULE_A_STATES) = true → s.cur.ruleB q SCR_RULE_B_ACT = 4 →
      ∃ t, exec (.sentinelPeriod x y z ign vm vh tl tp none) s = .next t ∧ (s.cur.clockOn = true → t.vis = s.vis)
      ∧ t.cur.get64 pgPwr PWR_AON_T_LO_VALUE PWR_AON_T_HI_VALUE = (s.cur.pwr.aonT + 32) % 2 ^ 48 ∧ (t.cur.scrRule q).eff = true
      ∧ t.cur.get pgRule (ruleFld q 2 SCR_RULE_STAT_ARMED) = 0
      ∧ t.cur.get pgRule (ruleFld q 2 SCR_RULE_STAT_FIRES) = satInc 0xFFFF (s.cur.get pgRule (ruleFld q 2 SCR_RULE_STAT_FIRES))
      ∧ t.cur.get pgScr SCR_OUT_OUT = setBits (s.cur.get pgScr SCR_OUT_OUT) (s.cur.ruleB q SCR_RULE_B_OUTSEL) 1 1
      ∧ t.cur.aon = s.cur.aon ∧ t.cur.pwr = { s.cur.pwr with aonT := (s.cur.pwr.aonT + 32) % 2 ^ 48 }
      ∧ (∀ a, (∀ q : Fin 32, a ≠ pgRule + 0x48 + 16 * q.val) → a ≠ pgPwr + PWR_AON_T_LO.off → a ≠ pgPwr + PWR_AON_T_HI.off → a ≠ pgScr + SCR_OUT.off → t.cur.rd a = s.cur.rd a)
      ∧ { t.cur with regs := s.cur.regs, irqSet := s.cur.irqSet, aon := s.cur.aon, pwr := s.cur.pwr, scr := s.cur.scr } = s.cur) ∧
  (∀ (x y z vm vh tl tp : BitVec 16) (ign : Bool) (q : Fin 32) (s : State), s.cur.pwr.phase ≠ .off →
      s.cur.flag pgScr SCR_CTL_EN = true → (∀ p : Fin 32, p ≠ q → s.cur.ruleA p SCR_RULE_A_CMP = 0) →
      s.cur.ruleA q SCR_RULE_A_CMP = 1 → s.cur.ruleA q SCR_RULE_A_LINK = 0 → s.cur.ruleA q SCR_RULE_A_OPND = 0 →
      (sext 16 (s.cur.ruleA q SCR_RULE_A_THRESH) < (if (s.cur.clockOn && s.cur.domainOn 20) = true then s.cur.getI pgAcc ACC_XY_X else sext 16 x.toNat)) →
      s.cur.ruleB q SCR_RULE_B_HOLD ≤ (s.cur.scrRule q).run + 1 → (s.cur.scrRule q).eff = false →
      s.cur.get pgRule (ruleFld q 2 SCR_RULE_STAT_ARMED) = 1 →
      statesHold s.cur.scrState (s.cur.ruleA q SCR_RULE_A_STATES) = true → s.cur.ruleB q SCR_RULE_B_ACT = 8 →
      s.cur.scrState ≠ 0 → bit (s.cur.get pgPwr PWR_WAKE_EN_SRC) 6 = true →
      ∃ t, exec (.sentinelPeriod x y z ign vm vh tl tp none) s = .next t ∧ (s.cur.clockOn = true → t.vis = s.vis)
      ∧ t.cur.get64 pgPwr PWR_AON_T_LO_VALUE PWR_AON_T_HI_VALUE = (s.cur.pwr.aonT + 32) % 2 ^ 48 ∧ (t.cur.scrRule q).eff = true
      ∧ t.cur.get pgRule (ruleFld q 2 SCR_RULE_STAT_ARMED) = 0
      ∧ t.cur.get pgRule (ruleFld q 2 SCR_RULE_STAT_FIRES) = satInc 0xFFFF (s.cur.get pgRule (ruleFld q 2 SCR_RULE_STAT_FIRES))
      ∧ t.cur.pwr = { s.cur.pwr with aonT := (s.cur.pwr.aonT + 32) % 2 ^ 48, ruleWake := true } ∧ t.cur.aon = s.cur.aon
      ∧ (∀ a, (∀ q : Fin 32, a ≠ pgRule + 0x48 + 16 * q.val) → a ≠ pgPwr + PWR_AON_T_LO.off → a ≠ pgPwr + PWR_AON_T_HI.off → t.cur.rd a = s.cur.rd a)
      ∧ { t.cur with regs := s.cur.regs, irqSet := s.cur.irqSet, aon := s.cur.aon, pwr := s.cur.pwr, scr := s.cur.scr } = s.cur) ∧
  (∀ (x y z vm vh tl tp : BitVec 16) (ign : Bool) (q : Fin 32) (s : State), s.cur.pwr.phase ≠ .off →
      s.cur.flag pgScr SCR_CTL_EN = true → (∀ p : Fin 32, p ≠ q → s.cur.ruleA p SCR_RULE_A_CMP = 0) →
      s.cur.ruleA q SCR_RULE_A_CMP = 1 → s.cur.ruleA q SCR_RULE_A_LINK = 0 → s.cur.ruleA q SCR_RULE_A_OPND = 0 →
      (sext 16 (s.cur.ruleA q SCR_RULE_A_THRESH) < (if (s.cur.clockOn && s.cur.domainOn 20) = true then s.cur.getI pgAcc ACC_XY_X else sext 16 x.toNat)) →
      s.cur.ruleB q SCR_RULE_B_HOLD ≤ (s.cur.scrRule q).run + 1 → (s.cur.scrRule q).eff = false →
      s.cur.get pgRule (ruleFld q 2 SCR_RULE_STAT_ARMED) = 1 →
      statesHold s.cur.scrState (s.cur.ruleA q SCR_RULE_A_STATES) = true → s.cur.ruleB q SCR_RULE_B_ACT = 2 →
      s.cur.scr.logged < 256 → ∃ t, exec (.sentinelPeriod x y z ign vm vh tl tp none) s = .next t
      ∧ (s.cur.clockOn = true → t.vis = s.vis)
      ∧ t.cur.get64 pgPwr PWR_AON_T_LO_VALUE PWR_AON_T_HI_VALUE = (s.cur.pwr.aonT + 32) % 2 ^ 48 ∧ (t.cur.scrRule q).eff = true
      ∧ t.cur.get pgRule (ruleFld q 2 SCR_RULE_STAT_ARMED) = 0
      ∧ t.cur.get pgRule (ruleFld q 2 SCR_RULE_STAT_FIRES) = satInc 0xFFFF (s.cur.get pgRule (ruleFld q 2 SCR_RULE_STAT_FIRES))
      ∧ t.cur.get pgScr SCR_LOG_HEAD = ((s.cur.get pgScr SCR_LOG_HEAD) + 1) % 256 ∧ t.cur.scr.logged = s.cur.scr.logged + 1
      ∧ t.cur.flag pgScr SCR_IRQ_LOGGED = true
      ∧ memRead t.cur.aon (0x1000 + 16 * (s.cur.get pgScr SCR_LOG_HEAD)) 16 = leBytes 6 ((s.cur.pwr.aonT + 32) % 2 ^ 48) ++ leBytes 6 s.cur.gtime48 ++ [BitVec.ofNat 8 q, BitVec.ofNat 8 (2 + s.cur.scrState * 16)] ++ leBytes 2 (ofInt 16 (sext 16 x.toNat))
      ∧ (∀ a, a < 0x1000 + 16 * (s.cur.get pgScr SCR_LOG_HEAD) ∨ 0x1010 + 16 * (s.cur.get pgScr SCR_LOG_HEAD) ≤ a → memGet t.cur.aon a = memGet s.cur.aon a)
      ∧ t.cur.pwr = { s.cur.pwr with aonT := (s.cur.pwr.aonT + 32) % 2 ^ 48 }
      ∧ (∀ a, (∀ q : Fin 32, a ≠ pgRule + 0x48 + 16 * q.val) → a ≠ pgPwr + PWR_AON_T_LO.off → a ≠ pgPwr + PWR_AON_T_HI.off → a ≠ pgScr + SCR_LOG.off → a ≠ pgScr + PG_IRQ_RAW.off → t.cur.rd a = s.cur.rd a)
      ∧ { t.cur with regs := s.cur.regs, irqSet := s.cur.irqSet, aon := s.cur.aon, pwr := s.cur.pwr, scr := s.cur.scr } = s.cur) ∧
  (∀ (x y z vm vh tl tp : BitVec 16) (ign : Bool) (q : Fin 32) (k : Nat) (s : State), s.cur.pwr.phase ≠ .off →
      s.cur.flag pgScr SCR_CTL_EN = true → (∀ p : Fin 32, p ≠ q → s.cur.ruleA p SCR_RULE_A_CMP = 0) →
      s.cur.ruleA q SCR_RULE_A_CMP = 1 → s.cur.ruleA q SCR_RULE_A_LINK = 0 → s.cur.ruleA q SCR_RULE_A_OPND = 0 →
      (sext 16 (s.cur.ruleA q SCR_RULE_A_THRESH) < (if (s.cur.clockOn && s.cur.domainOn 20) = true then s.cur.getI pgAcc ACC_XY_X else sext 16 x.toNat)) →
      s.cur.ruleB q SCR_RULE_B_HOLD ≤ (s.cur.scrRule q).run + 1 → (s.cur.scrRule q).eff = false →
      s.cur.get pgRule (ruleFld q 2 SCR_RULE_STAT_ARMED) = 1 →
      statesHold s.cur.scrState (s.cur.ruleA q SCR_RULE_A_STATES) = true → s.cur.ruleB q SCR_RULE_B_ACT = 1 → k < 16 →
      bit (s.cur.get pgScr SCR_MARK_SLOTS) k = false → (∀ p, p < k → bit (s.cur.get pgScr SCR_MARK_SLOTS) p = true) →
      ∃ t, exec (.sentinelPeriod x y z ign vm vh tl tp none) s = .next t ∧ (s.cur.clockOn = true → t.vis = s.vis)
      ∧ t.cur.get64 pgPwr PWR_AON_T_LO_VALUE PWR_AON_T_HI_VALUE = (s.cur.pwr.aonT + 32) % 2 ^ 48 ∧ (t.cur.scrRule q).eff = true
      ∧ t.cur.get pgRule (ruleFld q 2 SCR_RULE_STAT_ARMED) = 0
      ∧ t.cur.get pgRule (ruleFld q 2 SCR_RULE_STAT_FIRES) = satInc 0xFFFF (s.cur.get pgRule (ruleFld q 2 SCR_RULE_STAT_FIRES))
      ∧ t.cur.get pgScr SCR_MARK_SLOTS = setBits (s.cur.get pgScr SCR_MARK_SLOTS) k 1 1
      ∧ (t.cur.scr.times = s.cur.scr.times ++ (if s.cur.clockOn then [(k, s.cur.gtime)] else []))
      ∧ (t.cur.scr.asleep = s.cur.scr.asleep ++ (if s.cur.clockOn then [] else [k]))
      ∧ memRead t.cur.aon (0x2000 + k * 1024) 9 = leBytes 6 ((s.cur.pwr.aonT + 32) % 2 ^ 48) ++ [BitVec.ofNat 8 q, BitVec.ofNat 8 (clampN 1 60 (s.cur.ruleB q SCR_RULE_B_MARK_MIN)), BitVec.ofNat 8 (s.cur.ruleB q SCR_RULE_B_SET)]
      ∧ (∀ a, a < 0x2000 + k * 1024 ∨ 0x2010 + k * 1024 ≤ a → memGet t.cur.aon a = memGet s.cur.aon a)
      ∧ t.cur.pwr = { s.cur.pwr with aonT := (s.cur.pwr.aonT + 32) % 2 ^ 48 }
      ∧ t.cur.get pgScr SCR_MARK_ACK_SLOTS = setBits (s.cur.get pgScr SCR_MARK_SLOTS) k 1 1
      ∧ (∀ a, (∀ q : Fin 32, a ≠ pgRule + 0x48 + 16 * q.val) → a ≠ pgPwr + PWR_AON_T_LO.off → a ≠ pgPwr + PWR_AON_T_HI.off → a ≠ pgScr + SCR_MARK.off → a ≠ pgScr + SCR_MARK_ACK.off → t.cur.rd a = s.cur.rd a)
      ∧ { t.cur with regs := s.cur.regs, irqSet := s.cur.irqSet, aon := s.cur.aon, pwr := s.cur.pwr, scr := s.cur.scr } = s.cur) ∧
  (∀ (x y z vm vh tl tp : BitVec 16) (ign : Bool) (q : Fin 32) (s : State), s.cur.pwr.phase ≠ .off →
      s.cur.flag pgScr SCR_CTL_EN = true → (∀ p : Fin 32, p ≠ q → s.cur.ruleA p SCR_RULE_A_CMP = 0) →
      s.cur.ruleA q SCR_RULE_A_CMP = 1 → s.cur.ruleA q SCR_RULE_A_LINK = 0 → s.cur.ruleA q SCR_RULE_A_OPND = 0 →
      (sext 16 (s.cur.ruleA q SCR_RULE_A_THRESH) < (if (s.cur.clockOn && s.cur.domainOn 20) = true then s.cur.getI pgAcc ACC_XY_X else sext 16 x.toNat)) →
      s.cur.ruleB q SCR_RULE_B_HOLD ≤ (s.cur.scrRule q).run + 1 → (s.cur.scrRule q).eff = false →
      s.cur.get pgRule (ruleFld q 2 SCR_RULE_STAT_ARMED) = 1 →
      statesHold s.cur.scrState (s.cur.ruleA q SCR_RULE_A_STATES) = true → s.cur.ruleB q SCR_RULE_B_ACT = 1 →
      s.cur.get pgScr SCR_MARK_SLOTS = 0xFFFF → ∃ t, exec (.sentinelPeriod x y z ign vm vh tl tp none) s = .next t
      ∧ (s.cur.clockOn = true → t.vis = s.vis)
      ∧ t.cur.get64 pgPwr PWR_AON_T_LO_VALUE PWR_AON_T_HI_VALUE = (s.cur.pwr.aonT + 32) % 2 ^ 48 ∧ (t.cur.scrRule q).eff = true
      ∧ t.cur.get pgRule (ruleFld q 2 SCR_RULE_STAT_ARMED) = 0
      ∧ t.cur.get pgRule (ruleFld q 2 SCR_RULE_STAT_FIRES) = satInc 0xFFFF (s.cur.get pgRule (ruleFld q 2 SCR_RULE_STAT_FIRES))
      ∧ t.cur.get pgScr SCR_MARK_LOST = satInc 0xFFFF (s.cur.get pgScr SCR_MARK_LOST)
      ∧ t.cur.flag pgScr SCR_IRQ_MARK_LOST = true ∧ t.cur.aon = s.cur.aon
      ∧ t.cur.pwr = { s.cur.pwr with aonT := (s.cur.pwr.aonT + 32) % 2 ^ 48 }
      ∧ (∀ a, (∀ q : Fin 32, a ≠ pgRule + 0x48 + 16 * q.val) → a ≠ pgPwr + PWR_AON_T_LO.off → a ≠ pgPwr + PWR_AON_T_HI.off → a ≠ pgScr + SCR_MARK.off → a ≠ pgScr + PG_IRQ_RAW.off → t.cur.rd a = s.cur.rd a)
      ∧ { t.cur with regs := s.cur.regs, irqSet := s.cur.irqSet, aon := s.cur.aon, pwr := s.cur.pwr, scr := s.cur.scr } = s.cur) ∧
  (∀ (e : Fin 64) (s : State), s.cur.gtime % 15000000 = 0 → bit (s.cur.laneEntry e) 31 = true →
      ∃ t, exec (.minuteStamp) s = .next t
      ∧ memRead t.cur.aon (stampAt e (s.cur.gtime / 15000000)) 8 = leBytes 8 (s.cur.stampLength e % 2 ^ 40 + (s.cur.gtime / 15000000) % 2 ^ 24 * 2 ^ 40)
      ∧ (∀ a, (∀ p : Fin 64, bit (s.cur.laneEntry p) 31 = true → a < stampAt p (s.cur.gtime / 15000000) ∨ stampAt p (s.cur.gtime / 15000000) + 8 ≤ a) → memGet t.cur.aon a = memGet s.cur.aon a)
      ∧ t.vis = s.vis ∧ { t.cur with aon := s.cur.aon } = s.cur) ∧
  (∀ (s : State), s.cur.gtime % 15000000 ≠ 0 → ∃ t, exec (.minuteStamp) s = .next t ∧ t.cur = s.cur ∧ t.vis = s.vis
      ∧ { t.cur with aon := s.cur.aon, fresh := s.cur.fresh } = s.cur) ∧
  (∀ (q : Fin 16) (w : Nat) (e : Fin 64) (s : State), (s.cur.scr.times.find? (fun x => x.1 == q.val) = some (q.val, w)) →
      s.cur.clockOn = true → bit (s.cur.laneEntry e) 31 = true →
      bits (s.cur.laneEntry e) 20 8 &&& (memGet s.cur.aon ((0x2000 + q.val * 1024) + 8)).toNat ≠ 0 →
      ∃ t, exec (.markResolve q) s = .next t
      ∧ memRead t.cur.aon ((0x2000 + q.val * 1024) + 16 + 8 * e) 8 = leBytes 5 (s.cur.markStart e ((w / 15000000 : Nat) - (memGet s.cur.aon ((0x2000 + q.val * 1024) + 7)).toNat : Int)).1 ++ leBytes 3 (2 ^ 23 + b2n (s.cur.markStart e ((w / 15000000 : Nat) - (memGet s.cur.aon ((0x2000 + q.val * 1024) + 7)).toNat : Int)).2 * 2 ^ 22 + bits (s.cur.laneEntry e) 0 20)
      ∧ (t.cur.scr = { s.cur.scr with times := s.cur.scr.times.filter fun x => x.1 != q.val })
      ∧ t.cur.flag pgScr SCR_IRQ_MARK = true ∧ memRead t.cur.aon ((0x2000 + q.val * 1024) + 10) 6 = leBytes 6 w
      ∧ (∀ a, a < (0x2000 + q.val * 1024) + 9 ∨ (0x2000 + q.val * 1024) + 528 ≤ a → memGet t.cur.aon a = memGet s.cur.aon a)
      ∧ (∀ a, a ≠ pgScr + PG_IRQ_RAW.off → t.cur.rd a = s.cur.rd a) ∧ t.vis = s.vis
      ∧ { t.cur with regs := s.cur.regs, irqSet := s.cur.irqSet, aon := s.cur.aon, scr := s.cur.scr } = s.cur) ∧
  (∀ (q : Fin 16) (w : Nat) (e : Fin 64) (s : State), (s.cur.scr.times.find? (fun x => x.1 == q.val) = some (q.val, w)) →
      s.cur.clockOn = true →
      bit (s.cur.laneEntry e) 31 = false ∨ bits (s.cur.laneEntry e) 20 8 &&& (memGet s.cur.aon ((0x2000 + q.val * 1024) + 8)).toNat = 0 →
      ∃ t, exec (.markResolve q) s = .next t ∧ memRead t.cur.aon ((0x2000 + q.val * 1024) + 16 + 8 * e) 8 = List.replicate 8 0
      ∧ (t.cur.scr = { s.cur.scr with times := s.cur.scr.times.filter fun x => x.1 != q.val })
      ∧ t.cur.flag pgScr SCR_IRQ_MARK = true ∧ memRead t.cur.aon ((0x2000 + q.val * 1024) + 10) 6 = leBytes 6 w
      ∧ (∀ a, a < (0x2000 + q.val * 1024) + 9 ∨ (0x2000 + q.val * 1024) + 528 ≤ a → memGet t.cur.aon a = memGet s.cur.aon a)
      ∧ (∀ a, a ≠ pgScr + PG_IRQ_RAW.off → t.cur.rd a = s.cur.rd a) ∧ t.vis = s.vis
      ∧ { t.cur with regs := s.cur.regs, irqSet := s.cur.irqSet, aon := s.cur.aon, scr := s.cur.scr } = s.cur) ∧
  (∀ (q : Fin 16) (s : State), (s.cur.clockOn = false ∨ s.cur.scr.times.find? (fun x => x.1 == q.val) = none) →
      ∃ t, exec (.markResolve q) s = .next t ∧ t.cur = s.cur ∧ t.vis = s.vis
      ∧ { t.cur with regs := s.cur.regs, irqSet := s.cur.irqSet, aon := s.cur.aon, scr := s.cur.scr } = s.cur)

/-- A corrected read counts; at a word and bit written back before it is a hard fault. An uncorrectable one counts,
records MEM_UNCORR with array, word and requester, raises UNCORR, begins recovery and gives a software requester a bus
error. A narrow write to a word-coded array writes nothing and records NARROW. A lost journal word ends a READ
UNRECOVERABLE and withholds another completion; a lost check value is taken from the newest end record, or marked
lost. A parity error of the always-on SRAM makes its item absent. The scrubber reads SCRUB_WPG words a Grain; a pass
ends start-up mode, and recovery if it found nothing. Commands that it says to complete, each on the conditions of its
clauses: memReadCorr, memReadUncorr, memNarrowWrite, aonParityError, scrubStep. -/
def Obligations.MemoryErrors : Prop :=
  (∀ (a : Fin 11) (w b : Nat) (s : State), w < arrayWords a → b < arrayBits a → a.val ≠ 1 → a.val ≠ 2 →
      s.cur.prt.corrected.contains (a.val, w, b) = false → ∃ t, exec (.memReadCorr a w b) s = .next t
      ∧ t.cur.get (pgMem a) MEM_ECC_CORR = satInc 0xFFFF (s.cur.get (pgMem a) MEM_ECC_CORR) ∧ t.cur.prt = s.cur.prt
      ∧ (∀ x, x ≠ pgMem a + MEM_ECC.off → t.cur.rd x = s.cur.rd x) ∧ t.vis = s.vis
      ∧ { t.cur with regs := s.cur.regs, prt := s.cur.prt } = s.cur) ∧
  (∀ (a : Fin 11) (w b : Nat) (s : State), w < arrayWords a → b < arrayBits a → a.val ≠ 1 → a.val ≠ 2 →
      s.cur.prt.corrected.contains (a.val, w, b) = true → ∃ t, exec (.memReadCorr a w b) s = .next t
      ∧ t.cur.get (pgMem a) MEM_ECC_CORR = satInc 0xFFFF (s.cur.get (pgMem a) MEM_ECC_CORR)
      ∧ t.cur.prt = { s.cur.prt with hard := t.cur.prt.hard } ∧ (a.val, w, b) ∈ t.cur.prt.hard
      ∧ (∀ k : Nat × Nat × Nat, k ≠ (a.val, w, b) → (t.cur.prt.hard.contains k = s.cur.prt.hard.contains k))
      ∧ (∀ x, x ≠ pgMem a + MEM_ECC.off → t.cur.rd x = s.cur.rd x) ∧ t.vis = s.vis
      ∧ { t.cur with regs := s.cur.regs, prt := s.cur.prt } = s.cur) ∧
  (∀ (w b : Nat) (s : State), w < arrayWords 2 → b < 72 → ∃ t, exec (.memReadCorr 2 w b) s = .next t
      ∧ t.cur.get (pgMem 2) MEM_ECC_CORR = satInc 0xFFFF (s.cur.get (pgMem 2) MEM_ECC_CORR)
      ∧ t.cur.get pgFthx FTHX_ECC_CORR = satInc (2 ^ FTHX_ECC_CORR.width - 1) (s.cur.get pgFthx FTHX_ECC_CORR) ∧ t.vis = s.vis
      ∧ { t.cur with regs := s.cur.regs, prt := s.cur.prt } = s.cur
      ∧ (∀ a, a ≠ pgMem 2 + MEM_ECC.off → a ≠ pgFthx + FTHX_ECC.off → t.cur.rd a = s.cur.rd a)) ∧
  (∀ (w b k : Nat) (o : Option (Packet × Nat)) (s : State), w < arrayWords 1 → b < 72 →
      s.cur.stagingWord (w / 8) = some (k, o) → k < 64 → ∃ t, exec (.memReadCorr 1 w b) s = .next t
      ∧ t.cur.get (pgMem 1) MEM_ECC_CORR = satInc 0xFFFF (s.cur.get (pgMem 1) MEM_ECC_CORR)
      ∧ t.cur.get (pgFk k) FK_ECC_CORR = satInc (2 ^ FK_ECC_CORR.width - 1) (s.cur.get (pgFk k) FK_ECC_CORR) ∧ t.vis = s.vis
      ∧ { t.cur with regs := s.cur.regs, prt := s.cur.prt } = s.cur
      ∧ (∀ a, a ≠ pgMem 1 + MEM_ECC.off → a ≠ pgFk k + FK_ECC.off → t.cur.rd a = s.cur.rd a)) ∧
  (∀ (a : Fin 11) (w b : Nat) (s : State), arrayWords a ≤ w ∨ arrayBits a ≤ b → ∃ t, exec (.memReadCorr a w b) s = .next t
      ∧ t.cur = s.cur ∧ t.vis = s.vis
      ∧ { t.cur with regs := s.cur.regs, irqSet := s.cur.irqSet, fj := s.cur.fj, stg := s.cur.stg, prt := s.cur.prt } = s.cur) ∧
  (∀ (a : Fin 11) (w : Nat) (u : MemUser) (e : Bool) (lsn : Nat) (s : State), w < arrayWords a → a.val ≠ 1 → a.val ≠ 8 →
      a.val ≠ 9 → ∃ t, exec (.memReadUncorr a w u e lsn) s = .next t
      ∧ t.cur.get (pgMem a) MEM_ECC_UNCORR = satInc 0xFFFF (s.cur.get (pgMem a) MEM_ECC_UNCORR)
      ∧ t.cur.flag (pgProt) PROT_IRQ_UNCORR = true ∧ bit (t.cur.get (pgMem a) MEM_STAT_REPAIR_MODE) 2 = true
      ∧ t.cur.prt = { s.cur.prt with dirty := s.cur.prt.dirty.set a.val true, mode := s.cur.prt.mode.set a.val (setBits s.cur.prt.mode[a.val] 2 1 1) }
      ∧ t.cur.fj.staged = s.cur.fj.staged ++ [{ gtime := s.cur.gtime48, pgId := pgIdOf pgProt, code := 0x0E01, deg := false, flt := false, data := [a, w % 2 ^ 32, memCode u % 2 ^ 32] }]
      ∧ (∀ r, u = .soft r → t.cur.bus = { rdata := 0, error := true }) ∧ ((∀ r, u ≠ .soft r) → t.cur.bus = s.cur.bus)
      ∧ (∀ x, x ≠ pgMem a + MEM_ECC.off → x ≠ pgMem a + MEM_STAT.off → x ≠ pgProt + PG_IRQ_RAW.off → t.cur.rd x = s.cur.rd x)
      ∧ t.vis = s.vis) ∧
  (∀ (a : Fin 11) (w : Nat) (u : MemUser) (e : Bool) (lsn : Nat) (s : State), w < arrayWords a → u = .scrub →
      ∃ t, exec (.memReadUncorr a w u e lsn) s = .next t
      ∧ t.cur.get (pgMem a) MEM_ECC_UNCORR = satInc 0xFFFF (s.cur.get (pgMem a) MEM_ECC_UNCORR)
      ∧ t.cur.flag (pgProt) PROT_IRQ_UNCORR = true ∧ bit (t.cur.get (pgMem a) MEM_STAT_REPAIR_MODE) 2 = true
      ∧ t.cur.prt = { s.cur.prt with dirty := s.cur.prt.dirty.set a.val true, mode := s.cur.prt.mode.set a.val (setBits s.cur.prt.mode[a.val] 2 1 1) }
      ∧ t.cur.fj.staged = s.cur.fj.staged ++ [{ gtime := s.cur.gtime48, pgId := pgIdOf pgProt, code := 0x0E01, deg := false, flt := false, data := [a, w % 2 ^ 32, 0] }]
      ∧ (∀ x, x ≠ pgMem a + MEM_ECC.off → x ≠ pgMem a + MEM_STAT.off → x ≠ pgProt + PG_IRQ_RAW.off → t.cur.rd x = s.cur.rd x)
      ∧ t.vis = s.vis) ∧
  (∀ (w : Nat) (u : MemUser) (e : Bool) (lsn k : Nat) (p : Packet) (j : Nat) (s : State), w < arrayWords 1 → u ≠ .scrub →
      s.cur.stagingWord (w / 8) = some (k, some (p, j)) → k < 64 → ∃ t, exec (.memReadUncorr 1 w u e lsn) s = .next t
      ∧ t.cur.flag (pgFk k) FK_IRQ_UNCORR = true ∧ t.cur.flag (pgFk k) PG_STAT_DEGRADED = true
      ∧ t.cur.flag (pgProt) PROT_IRQ_UNCORR = true ∧ (∀ x ∈ (t.cur.fifo k).packets, x.lsn = p.lsn → x.bad.contains j = true)
      ∧ t.cur.fj.staged.length = s.cur.fj.staged.length + 2 ∧ t.vis = s.vis) ∧
  (∀ (a : Fin 11) (w : Nat) (u : MemUser) (e : Bool) (lsn : Nat) (s : State), arrayWords a ≤ w →
      ∃ t, exec (.memReadUncorr a w u e lsn) s = .next t ∧ t.cur = s.cur ∧ t.vis = s.vis) ∧
  (∀ (w : Nat) (u : MemUser) (bad : Bool) (lsn : Nat) (s : State), w < arrayWords 9 → u ≠ .scrub →
      (∃ e ∈ s.cur.ldg.journal, e.lsn = lsn) → (∀ e ∈ s.cur.ldg.journal, e.lsn = lsn → e.met = none ∧ e.opc = .read) →
      ∃ t, exec (.memReadUncorr 9 w u bad lsn) s = .next t
      ∧ (∀ e ∈ t.cur.ldg.journal, e.lsn = lsn → e.met = some (.unrecoverable, 0)) ∧ t.cur.flag (pgLdg) PG_STAT_DEGRADED = true
      ∧ t.cur.flag (pgProt) PROT_IRQ_UNCORR = true ∧ t.vis = s.vis) ∧
  (∀ (w : Nat) (u : MemUser) (bad : Bool) (lsn : Nat) (s : State), w < arrayWords 9 → u ≠ .scrub →
      (∃ e ∈ s.cur.ldg.journal, e.lsn = lsn) → (∀ e ∈ s.cur.ldg.journal, e.lsn = lsn → e.met = none ∧ e.opc ≠ .read) →
      ∃ t, exec (.memReadUncorr 9 w u bad lsn) s = .next t
      ∧ (∀ e ∈ t.cur.ldg.journal, e.lsn = lsn → e.lost = true ∧ e.met = none) ∧ t.cur.flag (pgLdg) PG_STAT_DEGRADED = true
      ∧ t.cur.flag (pgProt) PROT_IRQ_UNCORR = true ∧ t.vis = s.vis) ∧
  (∀ (w : Nat) (u : MemUser) (lsn : Nat) (s : State), w < arrayWords 8 → u ≠ .scrub →
      ((s.cur.stg.fifos.toList.any fun f => f.packets.any fun p => p.ctx == w && p.opened && !p.closed) = false) →
      (s.cur.ctx w).fifo < 64 → ∃ t, exec (.memReadUncorr 8 w u false lsn) s = .next t
      ∧ t.cur.crcOf w = (match s.cur.newestEnd w with | some r => leNat ((r.drop 24).take 8) | none => crcInit (s.cur.ctx w).poly)
      ∧ (∀ c, c ≠ w → t.cur.crcOf c = s.cur.crcOf c)
      ∧ t.cur.get (pgCv ((s.cur.ctx w).fifo / 8)) CV_RECOV_COUNT = satInc (2 ^ 32 - 1) (s.cur.get (pgCv ((s.cur.ctx w).fifo / 8)) CV_RECOV_COUNT)
      ∧ t.cur.flag (pgProt) PROT_IRQ_UNCORR = true ∧ t.vis = s.vis) ∧
  (∀ (w : Nat) (u : MemUser) (lsn : Nat) (s : State), w < arrayWords 8 → u ≠ .scrub →
      ((s.cur.stg.fifos.toList.any fun f => f.packets.any fun p => p.ctx == w && p.opened && !p.closed) = false) →
      ∃ t, exec (.memReadUncorr 8 w u true lsn) s = .next t ∧ (t.cur.ctx w).checkLost = true
      ∧ (∀ c, c ≠ w → t.cur.crcOf c = s.cur.crcOf c) ∧ t.cur.flag (pgChk) CHK_IRQ_CV_LOST = true
      ∧ t.cur.flag (pgChk) PG_STAT_DEGRADED = true
      ∧ (∃ x ∈ t.cur.fj.staged, x.code = 0x0304 ∧ x.pgId = pgIdOf pgChk ∧ x.deg = true) ∧ t.vis = s.vis) ∧
  (∀ (w : Nat) (u : MemUser) (e : Bool) (lsn : Nat) (s : State), w < arrayWords 8 → u ≠ .scrub →
      ((s.cur.stg.fifos.toList.any fun f => f.packets.any fun p => p.ctx == w && p.opened && !p.closed) = true) →
      ∃ t, exec (.memReadUncorr 8 w u e lsn) s = .next t ∧ t.cur.stg = s.cur.stg ∧ t.cur.flag (pgProt) PROT_IRQ_UNCORR = true
      ∧ t.vis = s.vis) ∧
  (∀ (a : Fin 11) (page : Nat) (r : Requester) (addr : BitVec 56) (s : State), wordCoded a = true →
      (pageOf page).isSome = true → ∃ t, exec (.memNarrowWrite a page r addr) s = .next t
      ∧ t.cur.bus = { rdata := 0, error := true }
      ∧ (s.cur.flag (page / 0x1000 * 0x1000) PG_ERR_INFO_VALID = false → t.cur.get (page / 0x1000 * 0x1000) PG_ERR_INFO_CODE = ErrCode.narrow.value ∧ t.cur.flag (page / 0x1000 * 0x1000) PG_ERR_INFO_VALID = true)
      ∧ t.cur.get (page / 0x1000 * 0x1000) PG_ERR_COUNT = satInc (2 ^ PG_ERR_COUNT.width - 1) (s.cur.get (page / 0x1000 * 0x1000) PG_ERR_COUNT)
      ∧ (∀ x, x ≠ (page / 0x1000 * 0x1000) + PG_ERR_INFO.off → x ≠ (page / 0x1000 * 0x1000) + PG_ERR_ADDR_LO.off → x ≠ (page / 0x1000 * 0x1000) + PG_ERR_ADDR_HI.off → x ≠ (page / 0x1000 * 0x1000) + PG_ERR_COUNT.off → t.cur.rd x = s.cur.rd x)
      ∧ t.vis = s.vis ∧ { t.cur with regs := s.cur.regs, bus := s.cur.bus } = s.cur) ∧
  (∀ (a : Fin 11) (page : Nat) (r : Requester) (addr : BitVec 56) (s : State),
      wordCoded a = false ∨ (pageOf page).isNone = true → ∃ t, exec (.memNarrowWrite a page r addr) s = .next t ∧ t.cur = s.cur
      ∧ t.vis = s.vis ∧ { t.cur with regs := s.cur.regs, bus := s.cur.bus } = s.cur) ∧
  (∀ (addr : BitVec 16) (r : Requester) (s : State), ∃ t, exec (.aonParityError .capEsr addr (.soft r)) s = .next t
      ∧ t.cur.fj.staged = s.cur.fj.staged ++ [{ gtime := s.cur.gtime48, pgId := pgIdOf pgProt, code := 0x0E04, deg := false, flt := false, data := [addr.toNat] }]
      ∧ t.cur.bus = { rdata := 0, error := true } ∧ t.cur.rsv = { s.cur.rsv with aonCE := none } ∧ t.cur.regs = s.cur.regs
      ∧ t.vis = s.vis ∧ { t.cur with regs := s.cur.regs, bus := s.cur.bus, fj := s.cur.fj, rsv := s.cur.rsv } = s.cur) ∧
  (∀ (addr : BitVec 16) (r : Requester) (s : State), ∃ t, exec (.aonParityError .carry addr (.soft r)) s = .next t
      ∧ t.cur.fj.staged = s.cur.fj.staged ++ [{ gtime := s.cur.gtime48, pgId := pgIdOf pgProt, code := 0x0E04, deg := false, flt := false, data := [addr.toNat] }]
      ∧ t.cur.bus = { rdata := 0, error := true } ∧ t.cur.pwr = { s.cur.pwr with carry := 0 } ∧ t.cur.regs = s.cur.regs
      ∧ t.vis = s.vis ∧ { t.cur with regs := s.cur.regs, bus := s.cur.bus, fj := s.cur.fj, pwr := s.cur.pwr } = s.cur) ∧
  (∀ (addr : BitVec 16) (r : Requester) (s : State), ∃ t, exec (.aonParityError .other addr (.soft r)) s = .next t
      ∧ t.cur.fj.staged = s.cur.fj.staged ++ [{ gtime := s.cur.gtime48, pgId := pgIdOf pgProt, code := 0x0E04, deg := false, flt := false, data := [addr.toNat] }]
      ∧ t.cur.bus = { rdata := 0, error := true } ∧ t.cur.regs = s.cur.regs ∧ t.vis = s.vis
      ∧ { t.cur with regs := s.cur.regs, bus := s.cur.bus, fj := s.cur.fj } = s.cur) ∧
  (∀ (addr : BitVec 16) (r : Requester) (q : Fin 16) (s : State), bit (s.cur.get pgScr SCR_MARK_SLOTS) q = true →
      ∃ t, exec (.aonParityError (.mark q) addr (.soft r)) s = .next t
      ∧ t.cur.fj.staged = s.cur.fj.staged ++ [{ gtime := s.cur.gtime48, pgId := pgIdOf pgProt, code := 0x0E04, deg := false, flt := false, data := [addr.toNat] }]
      ∧ t.cur.bus = { rdata := 0, error := true }
      ∧ t.cur.get pgScr SCR_MARK_SLOTS = setBits (s.cur.get pgScr SCR_MARK_SLOTS) q 1 0
      ∧ t.cur.get pgScr SCR_MARK_LOST = satInc 0xFFFF (s.cur.get pgScr SCR_MARK_LOST) ∧ (∀ x ∈ t.cur.scr.times, x.1 ≠ q.val)
      ∧ (∀ x ∈ t.cur.scr.asleep, x ≠ q.val)
      ∧ (∀ x, x ≠ pgScr + SCR_MARK.off → x ≠ pgScr + SCR_MARK_ACK.off → x ≠ pgScr + PG_IRQ_RAW.off → t.cur.rd x = s.cur.rd x)
      ∧ t.vis = s.vis ∧ { t.cur with regs := s.cur.regs, bus := s.cur.bus, fj := s.cur.fj, scr := s.cur.scr } = s.cur) ∧
  (∀ (a : Fin 11) (s : State), s.cur.flag (pgMem a) MEM_CTL_SCRUB_EN = true → s.cur.prt.due[a.val] ≤ s.cur.gtime →
      s.cur.prt.pos[a.val] + max 1 (s.cur.get (pgMem a) MEM_CTL_SCRUB_WPG) < arrayWords a →
      ∃ t, exec (.scrubStep a [] []) s = .next t
      ∧ t.cur.prt = { s.cur.prt with pos := s.cur.prt.pos.set a.val (s.cur.prt.pos[a.val] + max 1 (s.cur.get (pgMem a) MEM_CTL_SCRUB_WPG)), due := s.cur.prt.due.set a.val (s.cur.gtime + 1) }
      ∧ t.vis = s.vis) ∧
  (∀ (a : Fin 11) (s : State), s.cur.flag (pgMem a) MEM_CTL_SCRUB_EN = true → s.cur.prt.due[a.val] ≤ s.cur.gtime →
      arrayWords a ≤ s.cur.prt.pos[a.val] + max 1 (s.cur.get (pgMem a) MEM_CTL_SCRUB_WPG) →
      ∃ t, exec (.scrubStep a [] []) s = .next t ∧ t.cur.prt.pos[a.val] = 0 ∧ t.cur.prt.dirty[a.val] = false
      ∧ t.cur.get (pgMem a) MEM_STAT_PASSES = satInc 0xFF (s.cur.get (pgMem a) MEM_STAT_PASSES)
      ∧ bit t.cur.prt.mode[a.val] 0 = false ∧ (s.cur.prt.dirty[a.val] = false → bit t.cur.prt.mode[a.val] 2 = false)
      ∧ (s.cur.prt.dirty[a.val] = true → bit t.cur.prt.mode[a.val] 2 = bit s.cur.prt.mode[a.val] 2)
      ∧ (∀ x, x ≠ pgMem a + MEM_STAT.off → t.cur.rd x = s.cur.rd x) ∧ t.vis = s.vis) ∧
  (∀ (a : Fin 11) (w b : Nat) (s : State), s.cur.flag (pgMem a) MEM_CTL_SCRUB_EN = true → s.cur.prt.due[a.val] ≤ s.cur.gtime →
      s.cur.prt.pos[a.val] ≤ w → w < s.cur.prt.pos[a.val] + max 1 (s.cur.get (pgMem a) MEM_CTL_SCRUB_WPG) →
      s.cur.prt.pos[a.val] + max 1 (s.cur.get (pgMem a) MEM_CTL_SCRUB_WPG) < arrayWords a → b < arrayBits a →
      s.cur.prt.corrected.contains (a.val, w, b) = false → ∃ t, exec (.scrubStep a [(w, b)] []) s = .next t
      ∧ t.cur.get (pgMem a) MEM_ECC_CORR = satInc 0xFFFF (s.cur.get (pgMem a) MEM_ECC_CORR)
      ∧ t.cur.prt.corrected = s.cur.prt.corrected ++ [(a.val, w, b)] ∧ t.cur.prt.hard = s.cur.prt.hard
      ∧ (∀ x, x ≠ pgMem a + MEM_ECC.off → t.cur.rd x = s.cur.rd x) ∧ t.vis = s.vis) ∧
  (∀ (a : Fin 11) (w b : Nat) (s : State), s.cur.flag (pgMem a) MEM_CTL_SCRUB_EN = true → s.cur.prt.due[a.val] ≤ s.cur.gtime →
      s.cur.prt.pos[a.val] ≤ w → w < s.cur.prt.pos[a.val] + max 1 (s.cur.get (pgMem a) MEM_CTL_SCRUB_WPG) →
      s.cur.prt.pos[a.val] + max 1 (s.cur.get (pgMem a) MEM_CTL_SCRUB_WPG) < arrayWords a → b < arrayBits a →
      s.cur.prt.corrected.contains (a.val, w, b) = true → ∃ t, exec (.scrubStep a [(w, b)] []) s = .next t
      ∧ t.cur.get (pgMem a) MEM_ECC_CORR = satInc 0xFFFF (s.cur.get (pgMem a) MEM_ECC_CORR) ∧ (a.val, w, b) ∈ t.cur.prt.hard
      ∧ t.cur.prt.corrected = s.cur.prt.corrected ∧ (∀ x, x ≠ pgMem a + MEM_ECC.off → t.cur.rd x = s.cur.rd x) ∧ t.vis = s.vis) ∧
  (∀ (a : Fin 11) (w : Nat) (s : State), s.cur.flag (pgMem a) MEM_CTL_SCRUB_EN = true → s.cur.prt.due[a.val] ≤ s.cur.gtime →
      s.cur.prt.pos[a.val] ≤ w → w < s.cur.prt.pos[a.val] + max 1 (s.cur.get (pgMem a) MEM_CTL_SCRUB_WPG) →
      s.cur.prt.pos[a.val] + max 1 (s.cur.get (pgMem a) MEM_CTL_SCRUB_WPG) < arrayWords a →
      ∃ t, exec (.scrubStep a [] [w]) s = .next t
      ∧ t.cur.get (pgMem a) MEM_ECC_UNCORR = satInc 0xFFFF (s.cur.get (pgMem a) MEM_ECC_UNCORR)
      ∧ t.cur.flag (pgProt) PROT_IRQ_UNCORR = true
      ∧ t.cur.fj.staged = s.cur.fj.staged ++ [{ gtime := s.cur.gtime48, pgId := pgIdOf pgProt, code := 0x0E01, deg := false, flt := false, data := [a, w % 2 ^ 32, 0] }]
      ∧ t.cur.prt.dirty[a.val] = true
      ∧ (∀ x, x ≠ pgMem a + MEM_ECC.off → x ≠ pgMem a + MEM_STAT.off → x ≠ pgProt + PG_IRQ_RAW.off → t.cur.rd x = s.cur.rd x)
      ∧ t.vis = s.vis) ∧
  (∀ (a : Fin 11) (f : List (Nat × Nat)) (l : List Nat) (s : State),
      s.cur.flag (pgMem a) MEM_CTL_SCRUB_EN = false ∨ s.cur.gtime < s.cur.prt.due[a.val] →
      ∃ t, exec (.scrubStep a f l) s = .next t ∧ t.cur = s.cur ∧ t.vis = s.vis)

/-- A hard fault takes the lowest free spare of its kind in the macro, a row unless only its column has two errors; it
waits for a copy in the macro. After the copy the repair is in force, pending burn and recorded, and its errors are
gone. Without a spare MEM_SPARE_OUT is recorded. The march repairs failures and begins start-up mode. TEST_EN is set
only in allowed arrays in a maintenance window; then the raw word is read and a test word stored exactly as written.
Commands that it says to complete, each on the conditions of its clauses: softRepair, repairCopyDone, memoryMarch,
memTestDataLoRead, memTestChkWrite, memTestEnWrite. -/
def Obligations.Repairs : Prop :=
  (∀ (a : Fin 11) (w b re ce : Nat) (n : Nat) (s : State), s.cur.prt.hard.contains (a.val, w, b) = true →
      (∀ r ∈ s.cur.prt.copying, r.array = a.val → r.unit ≠ w / 8192) →
      (s.cur.freeSpares a (w / 8192) (decide (re < 2) && decide (2 ≤ ce))).head? = some n →
      ∃ t, exec (.softRepair a w b re ce) s = .next t
      ∧ (t.cur.prt = { s.cur.prt with hard := s.cur.prt.hard.filter (· != (a.val, w, b)), copying := s.cur.prt.copying ++ [{ array := a, unit := w / 8192, col := (decide (re < 2) && decide (2 ≤ ce)), slice := b, addr := (if re < 2 ∧ 2 ≤ ce then w % 64 else w % 8192 / 64), spare := n, since := s.cur.gtime }] })
      ∧ (∀ x, x ≠ pgMem a + MEM_SPARE.off → t.cur.rd x = s.cur.rd x) ∧ t.vis = s.vis
      ∧ { t.cur with regs := s.cur.regs, host := s.cur.host, fresh := s.cur.fresh, prt := s.cur.prt } = s.cur) ∧
  (∀ (a : Fin 11) (w b re ce : Nat) (s : State), s.cur.prt.hard.contains (a.val, w, b) = true →
      (∀ r ∈ s.cur.prt.copying, r.array = a.val → r.unit ≠ w / 8192) →
      s.cur.freeSpares a (w / 8192) (decide (re < 2) && decide (2 ≤ ce)) = [] → a.val ≠ 2 →
      ∃ t, exec (.softRepair a w b re ce) s = .next t
      ∧ (t.cur.fj.staged = s.cur.fj.staged ++ [{ gtime := s.cur.gtime48, pgId := pgIdOf pgProt, code := 0x0E03, deg := decide (a.val = 2 ∨ (3 ≤ a.val ∧ a.val ≤ 7)), flt := false, data := [a, w / 8192 % 2 ^ 32, b2n (decide (re < 2) && decide (2 ≤ ce)), (if re < 2 ∧ 2 ≤ ce then w % 64 else w % 8192 / 64) % 2 ^ 32] }])
      ∧ t.cur.flag (pgProt) PROT_IRQ_SPARE_OUT = true ∧ t.cur.flag (pgMem a) MEM_STAT_RETIRED = true
      ∧ t.cur.prt.hard = s.cur.prt.hard.filter (· != (a.val, w, b)) ∧ t.vis = s.vis
      ∧ { t.cur with regs := s.cur.regs, irqSet := s.cur.irqSet, host := s.cur.host, fresh := s.cur.fresh, fj := s.cur.fj, prt := s.cur.prt } = s.cur) ∧
  (∀ (a : Fin 11) (w b re ce : Nat) (s : State), s.cur.prt.hard.contains (a.val, w, b) = true →
      (∀ r ∈ s.cur.prt.copying, r.array = a.val → r.unit ≠ w / 8192) →
      s.cur.freeSpares a (w / 8192) (decide (re < 2) && decide (2 ≤ ce)) = [] → a.val = 2 →
      ∃ t, exec (.softRepair a w b re ce) s = .next t
      ∧ (∃ x ∈ t.cur.fj.staged, x.code = 0x0E03 ∧ x.pgId = pgIdOf pgProt ∧ x.deg = true)
      ∧ t.cur.flag (pgProt) PROT_IRQ_SPARE_OUT = true ∧ t.cur.flag (pgMem a) MEM_STAT_RETIRED = true
      ∧ t.cur.prt.hard = s.cur.prt.hard.filter (· != (a.val, w, b))
      ∧ (∀ k, k < 5 → s.cur.get (pgFth k) FTH_MAP_PORT < 4 → s.cur.get (pgFth k) FTH_MAP_PORT ∈ ((List.range 5).filter fun g => (repairWords (w / 8192) (if re < 2 ∧ 2 ≤ ce then w % 64 else w % 8192 / 64) (decide (re < 2) && decide (2 ≤ ce))).any fun x => min 4 (x / 30720) == g) → t.cur.flag (pgFth k) FTH_CTL_RUN = false ∧ t.cur.flag (pgFth k) PG_STAT_DEGRADED = true)
      ∧ (4 ∈ ((List.range 5).filter fun g => (repairWords (w / 8192) (if re < 2 ∧ 2 ≤ ce then w % 64 else w % 8192 / 64) (decide (re < 2) && decide (2 ≤ ce))).any fun x => min 4 (x / 30720) == g) → (2, 4) ∈ t.cur.prt.retired)
      ∧ t.vis = s.vis
      ∧ { t.cur with regs := s.cur.regs, irqSet := s.cur.irqSet, host := s.cur.host, fresh := s.cur.fresh, fj := s.cur.fj, fth := s.cur.fth, prt := s.cur.prt } = s.cur) ∧
  (∀ (a : Fin 11) (w b re ce : Nat) (s : State), s.cur.prt.hard.contains (a.val, w, b) = true →
      (∀ r ∈ s.cur.prt.copying, r.array = a.val → r.unit ≠ w / 8192) →
      s.cur.freeSpares a (w / 8192) (decide (re < 2) && decide (2 ≤ ce)) = [] → a.val = 1 →
      ∃ t, exec (.softRepair a w b re ce) s = .next t
      ∧ (t.cur.fj.staged = s.cur.fj.staged ++ [{ gtime := s.cur.gtime48, pgId := pgIdOf pgProt, code := 0x0E03, deg := decide (a.val = 2 ∨ (3 ≤ a.val ∧ a.val ≤ 7)), flt := false, data := [a, w / 8192 % 2 ^ 32, b2n (decide (re < 2) && decide (2 ≤ ce)), (if re < 2 ∧ 2 ≤ ce then w % 64 else w % 8192 / 64) % 2 ^ 32] }])
      ∧ t.cur.flag (pgProt) PROT_IRQ_SPARE_OUT = true ∧ t.cur.flag (pgMem a) MEM_STAT_RETIRED = true
      ∧ t.cur.prt.hard = s.cur.prt.hard.filter (· != (a.val, w, b))
      ∧ (∀ x ∈ repairWords (w / 8192) (if re < 2 ∧ 2 ≤ ce then w % 64 else w % 8192 / 64) (decide (re < 2) && decide (2 ≤ ce)), x / 512 ∈ s.cur.prt.retiring ∨ (1, x / 512) ∈ s.cur.prt.retired ∨ x / 512 ∈ t.cur.prt.retiring)
      ∧ (∀ x ∈ s.cur.prt.retiring, x ∈ t.cur.prt.retiring) ∧ t.vis = s.vis
      ∧ { t.cur with regs := s.cur.regs, irqSet := s.cur.irqSet, host := s.cur.host, fresh := s.cur.fresh, fj := s.cur.fj, prt := s.cur.prt } = s.cur) ∧
  (∀ (a : Fin 11) (w b re ce : Nat) (s : State), s.cur.prt.hard.contains (a.val, w, b) = true →
      (∀ r ∈ s.cur.prt.copying, r.array = a.val → r.unit ≠ w / 8192) →
      s.cur.freeSpares a (w / 8192) (decide (re < 2) && decide (2 ≤ ce)) = [] → a.val = 0 ∨ a.val = 8 ∨ a.val = 9 ∨ a.val = 10 →
      ∃ t, exec (.softRepair a w b re ce) s = .next t ∧ (∀ x ∈ s.cur.prt.retired, x ∈ t.cur.prt.retired)
      ∧ (∀ x ∈ repairWords (w / 8192) (if re < 2 ∧ 2 ≤ ce then w % 64 else w % 8192 / 64) (decide (re < 2) && decide (2 ≤ ce)), (a.val, if a.val = 8 then x else x / 8) ∈ t.cur.prt.retired)
      ∧ t.vis = s.vis
      ∧ { t.cur with regs := s.cur.regs, irqSet := s.cur.irqSet, host := s.cur.host, fresh := s.cur.fresh, fj := s.cur.fj, prt := s.cur.prt } = s.cur) ∧
  (∀ (a : Fin 11) (w b re ce : Nat) (s : State),
      (s.cur.prt.hard.contains (a.val, w, b) = false ∨ (∃ r ∈ s.cur.prt.copying, r.array = a.val ∧ r.unit = w / 8192)) →
      ∃ t, exec (.softRepair a w b re ce) s = .next t ∧ t.cur = s.cur ∧ t.vis = s.vis
      ∧ { t.cur with regs := s.cur.regs, irqSet := s.cur.irqSet, mem := s.cur.mem, host := s.cur.host, fresh := s.cur.fresh, fj := s.cur.fj, ldg := s.cur.ldg, fth := s.cur.fth, prt := s.cur.prt } = s.cur) ∧
  (∀ (a : Fin 11) (unit : Nat) (r : Repair) (s : State),
      (s.cur.prt.copying.find? (fun x => x.array == a.val && x.unit == unit) = some r) → r.since < s.cur.gtime →
      s.cur.prt.pending.length < 1024 → ∃ t, exec (.repairCopyDone a unit) s = .next t
      ∧ t.cur.prt.copying = s.cur.prt.copying.filter (· != r) ∧ t.cur.prt.taken = s.cur.prt.taken ++ [r]
      ∧ t.cur.prt.pending = s.cur.prt.pending ++ [r.entry] ∧ t.cur.get pgProt MEM_PEND_COUNT = s.cur.prt.pending.length + 1
      ∧ (∀ k, k ∈ t.cur.prt.corrected ↔ k ∈ s.cur.prt.corrected ∧ ¬ (k.1 = r.array ∧ k.2.2 = r.slice ∧ k.2.1 ∈ repairWords r.unit r.addr r.col))
      ∧ (∀ k, k ∈ t.cur.prt.hard ↔ k ∈ s.cur.prt.hard ∧ ¬ (k.1 = r.array ∧ k.2.2 = r.slice ∧ k.2.1 ∈ repairWords r.unit r.addr r.col))
      ∧ t.cur.fj.staged = s.cur.fj.staged ++ [{ gtime := s.cur.gtime48, pgId := pgIdOf pgProt, code := 0x0E02, deg := false, flt := false, data := [r.array % 2 ^ 32, r.entry % 2 ^ 32] }]
      ∧ t.cur.flag (pgProt) PROT_IRQ_REPAIR = true
      ∧ (∀ x, x ≠ pgProt + MEM_PEND.off → x ≠ pgProt + PG_IRQ_RAW.off → t.cur.rd x = s.cur.rd x) ∧ t.vis = s.vis
      ∧ { t.cur with regs := s.cur.regs, irqSet := s.cur.irqSet, fj := s.cur.fj, prt := s.cur.prt } = s.cur) ∧
  (∀ (a : Fin 11) (unit : Nat) (s : State), (∀ x ∈ s.cur.prt.copying, x.array = a.val → x.unit = unit → s.cur.gtime ≤ x.since) →
      ∃ t, exec (.repairCopyDone a unit) s = .next t ∧ t.cur = s.cur ∧ t.vis = s.vis
      ∧ { t.cur with regs := s.cur.regs, irqSet := s.cur.irqSet, fj := s.cur.fj, prt := s.cur.prt } = s.cur) ∧
  (∀ (s : State), s.cur.su.step = 4 → ∃ t, exec (.memoryMarch []) s = .next t ∧ t.cur.su.step = 5
      ∧ t.cur.prt = { s.cur.prt with mode := Vector.replicate 12 1, dirty := Vector.replicate 12 false, corrected := [], hard := [], words := [], pos := Vector.replicate 12 0 }
      ∧ t.cur.stg = { s.cur.stg with crc := [] } ∧ t.cur.flag (pgProt) PG_STAT_READY = true
      ∧ t.cur.flag (pgWarc) PG_STAT_READY = true ∧ t.cur.flag pgLdg PG_STAT_READY = s.cur.flag pgLdg PG_STAT_READY
      ∧ t.cur.get pgMc MC_LOCK = 0xF000F000 ∧ t.vis = s.vis
      ∧ { t.cur with regs := s.cur.regs, host := s.cur.host, fresh := s.cur.fresh, stg := s.cur.stg, fls := s.cur.fls, prt := s.cur.prt, su := s.cur.su } = s.cur) ∧
  (∀ (a : Fin 11) (w b n : Nat) (c : Bool) (s : State), s.cur.su.step = 4 → w < arrayWords a →
      (s.cur.freeSpares a (w / 8192) c).head? = some n → s.cur.prt.pending.length < 1024 →
      ∃ t, exec (.memoryMarch [(a, w, b, c)]) s = .next t ∧ t.cur.su.step = 5
      ∧ (t.cur.prt.taken = s.cur.prt.taken ++ [{ array := a, unit := w / 8192, col := c, slice := b, addr := if c then w % 64 else w % 8192 / 64, spare := n, since := s.cur.gtime }])
      ∧ t.cur.prt.pending.length = s.cur.prt.pending.length + 1 ∧ t.cur.flag (pgProt) PROT_IRQ_REPAIR = true ∧ t.vis = s.vis
      ∧ { t.cur with regs := s.cur.regs, irqSet := s.cur.irqSet, host := s.cur.host, fresh := s.cur.fresh, fj := s.cur.fj, stg := s.cur.stg, fls := s.cur.fls, prt := s.cur.prt, su := s.cur.su } = s.cur) ∧
  (∀ (l : List (Fin 11 × Nat × Nat × Bool)) (s : State), s.cur.su.step ≠ 4 → ∃ t, exec (.memoryMarch l) s = .next t
      ∧ t.cur = s.cur ∧ t.vis = s.vis) ∧
  (∀ (r : Requester) (data : BitVec 64) (chk : BitVec 40) (s : State), s.vis.testEn = true → r ≠ .host →
      wordCoded s.vis.memSel = true →
      (∀ x ∈ s.vis.prt.words, x.1 = s.vis.memSel → x.2.1 ≠ s.vis.get (pgMem s.vis.memSel) MEM_TEST_ADDR) →
      ∃ t, exec (.memTestDataLoRead r data chk) s = .next t ∧ t.vis.bus = { rdata := data.setWidth 32, error := false }
      ∧ t.vis.rd ((pgMem s.vis.memSel) + MEM_TEST_DATA_HI.off) = (data >>> 32).setWidth 32
      ∧ t.vis.get (pgMem s.vis.memSel) MEM_TEST_CHK = chk.toNat % 256
      ∧ t.vis.get (pgMem s.vis.memSel) MEM_TEST_CHK_HI_CHK_HI = 0
      ∧ (∀ a, a ≠ (pgMem s.vis.memSel) + MEM_TEST_DATA_LO.off → a ≠ (pgMem s.vis.memSel) + MEM_TEST_DATA_HI.off → a ≠ (pgMem s.vis.memSel) + MEM_TEST_CHK.off → a ≠ (pgMem s.vis.memSel) + MEM_TEST_CHK_HI.off → t.vis.rd a = s.vis.rd a)
      ∧ { t.vis with regs := s.vis.regs, bus := s.vis.bus } = s.vis ∧ (s.vis = s.cur → t.vis = t.cur)
      ∧ { t.cur with regs := s.cur.regs, bus := s.cur.bus } = s.cur) ∧
  (∀ (r : Requester) (data : BitVec 64) (chk : BitVec 40) (x y : Nat) (s : State), s.vis.testEn = true → r ≠ .host →
      wordCoded s.vis.memSel = false →
      ((s.vis.prt.words.find? fun z => z.1 == s.vis.memSel && z.2.1 == s.vis.get (pgMem s.vis.memSel) MEM_TEST_ADDR) = some (s.vis.memSel, s.vis.get (pgMem s.vis.memSel) MEM_TEST_ADDR, x, y)) →
      y < 2 ^ 40 → ∃ t, exec (.memTestDataLoRead r data chk) s = .next t
      ∧ t.vis.bus = { rdata := BitVec.ofNat 32 x, error := false }
      ∧ t.vis.get (pgMem s.vis.memSel) MEM_TEST_DATA_HI = x / 2 ^ 32 % 2 ^ 32
      ∧ t.vis.get (pgMem s.vis.memSel) MEM_TEST_CHK = y % 2 ^ 32
      ∧ t.vis.get (pgMem s.vis.memSel) MEM_TEST_CHK_HI_CHK_HI = y / 2 ^ 32
      ∧ { t.vis with regs := s.vis.regs, bus := s.vis.bus } = s.vis
      ∧ { t.cur with regs := s.cur.regs, bus := s.cur.bus } = s.cur) ∧
  (∀ (r : Requester) (data : BitVec 64) (chk : BitVec 40) (s : State), s.vis.testEn = false ∨ r = .host →
      ∃ t, exec (.memTestDataLoRead r data chk) s = .next t
      ∧ t.vis.bus = { rdata := s.vis.rd ((pgMem s.vis.memSel) + MEM_TEST_DATA_LO.off), error := false }
      ∧ { t.vis with bus := s.vis.bus } = s.vis ∧ { t.cur with regs := s.cur.regs, bus := s.cur.bus } = s.cur) ∧
  (∀ (v : Word) (s : State), s.cur.testEn = true → s.cur.get (pgMem s.cur.memSel) MEM_TEST_ADDR < arrayWords s.cur.memSel →
      ∃ t, exec (.memTestChkWrite v) s = .next t ∧ t.cur.prt = { s.cur.prt with words := t.cur.prt.words }
      ∧ (t.cur.prt.words.find? (fun x => x.1 == s.cur.memSel && x.2.1 == s.cur.get (pgMem s.cur.memSel) MEM_TEST_ADDR) = some (s.cur.memSel, s.cur.get (pgMem s.cur.memSel) MEM_TEST_ADDR, s.cur.get64 (pgMem s.cur.memSel) MEM_TEST_DATA_LO MEM_TEST_DATA_HI, if wordCoded s.cur.memSel then v.toNat % 256 else v.toNat + s.cur.get (pgMem s.cur.memSel) MEM_TEST_CHK_HI_CHK_HI * 2 ^ 32))
      ∧ (∀ x, ¬ (x.1 = s.cur.memSel ∧ x.2.1 = s.cur.get (pgMem s.cur.memSel) MEM_TEST_ADDR) → (x ∈ t.cur.prt.words ↔ x ∈ s.cur.prt.words))
      ∧ (t.cur.get (pgMem s.cur.memSel) MEM_TEST_CHK = (if wordCoded s.cur.memSel then v.toNat % 256 else v.toNat))
      ∧ (∀ a, a ≠ (pgMem s.cur.memSel) + MEM_TEST_CHK.off → t.cur.rd a = s.cur.rd a) ∧ t.vis = s.vis
      ∧ { t.cur with regs := s.cur.regs, prt := s.cur.prt } = s.cur) ∧
  (∀ (v : Word) (s : State), s.cur.testEn = true → arrayWords s.cur.memSel ≤ s.cur.get (pgMem s.cur.memSel) MEM_TEST_ADDR →
      ∃ t, exec (.memTestChkWrite v) s = .next t ∧ t.cur.prt = s.cur.prt
      ∧ (t.cur.get (pgMem s.cur.memSel) MEM_TEST_CHK = (if wordCoded s.cur.memSel then v.toNat % 256 else v.toNat))
      ∧ (∀ a, a ≠ (pgMem s.cur.memSel) + MEM_TEST_CHK.off → t.cur.rd a = s.cur.rd a) ∧ t.vis = s.vis
      ∧ { t.cur with regs := s.cur.regs, prt := s.cur.prt } = s.cur) ∧
  (∀ (v : Word) (s : State), s.cur.testEn = false → ∃ t, exec (.memTestChkWrite v) s = .next t ∧ t.cur = s.cur ∧ t.vis = s.vis
      ∧ { t.cur with regs := s.cur.regs, prt := s.cur.prt } = s.cur) ∧
  (∀ (r : Requester) (v : Word) (s : State),
      bit v.toNat 1 = false ∨ (testable s.cur.memSel = true ∧ s.cur.flag pgFuse FUSE_STAT_MAINT = true) →
      ∃ t, exec (.memTestEnWrite r v) s = .next t ∧ t.cur.rd ((pgMem s.cur.memSel) + MEM_CTL.off) = v &&& 0x3FF03
      ∧ bit (t.cur.get (pgMem s.cur.memSel) MEM_STAT_REPAIR_MODE) 1 = bit v.toNat 1
      ∧ (∀ a, a ≠ (pgMem s.cur.memSel) + MEM_CTL.off → a ≠ (pgMem s.cur.memSel) + MEM_STAT.off → t.cur.rd a = s.cur.rd a)
      ∧ t.vis = s.vis ∧ { t.cur with regs := s.cur.regs } = s.cur) ∧
  (∀ (r : Requester) (v : Word) (s : State), bit v.toNat 1 = true →
      testable s.cur.memSel = false ∨ s.cur.flag pgFuse FUSE_STAT_MAINT = false → ∃ t, exec (.memTestEnWrite r v) s = .next t
      ∧ (s.cur.flag pgProt PG_ERR_INFO_VALID = false → t.cur.get pgProt PG_ERR_INFO_CODE = ErrCode.testDenied.value)
      ∧ (∀ a, a ≠ pgProt + PG_ERR_INFO.off → a ≠ pgProt + PG_ERR_ADDR_LO.off → a ≠ pgProt + PG_ERR_ADDR_HI.off → a ≠ pgProt + PG_ERR_COUNT.off → t.cur.rd a = s.cur.rd a)
      ∧ t.vis = s.vis ∧ { t.cur with regs := s.cur.regs } = s.cur)

/-- While EN and fewer than MAX_CONC run and the stagger has passed, the first slice in table order that this cycle has
not tested, not failing and with its condition met, starts. A good result ends the test; a repeat that matches records
BIST_TRANSIENT; a failing slice records BIST_FAIL, raises SLICE_FAIL, counts, and its remap is pending burn. A block
without spare is degraded. Commands that it says to complete, each on the conditions of its clauses: lbistTestStart,
lbistTestResult, sliceFailing. -/
def Obligations.LogicBist : Prop :=
  (∀ (i : Fin 156) (s : State), s.cur.flag pgLbist LB_CTL_EN = true → s.cur.starts pgLbist = true →
      s.cur.prt.testing.length < clampN 1 4 (s.cur.get pgLbist LB_CTL_MAX_CONC) → s.cur.prt.nextStart ≤ s.cur.gtime →
      s.vis.flag pgRsv RSV_STAT_PF = false →
      (((List.range 156).find? fun i => !s.cur.prt.tested.contains i && !s.cur.sliceBad i && !(s.cur.prt.testing.any (·.1 == i)) && Dev.testable s.vis s.cur i) = some i.val) →
      ∃ t, exec (.lbistTestStart) s = .next t
      ∧ t.cur.prt = { s.cur.prt with testing := s.cur.prt.testing ++ [(i.val, s.cur.gtime)], nextStart := s.cur.gtime + max 1 (s.cur.get pgLbist LB_CTL_STAGGER_G) }
      ∧ t.cur.get pgLbist LB_STAT_RUNNING = s.cur.prt.testing.length + 1
      ∧ (∀ e, e < 2 → (sliceRow i).1 = 4 → (sliceRow i).2 % 9 < 8 → (sliceRow i).2 / 9 = e → t.cur.get (pgEll e) ELL_STAT_STANDIN = (sliceRow i).2 % 9)
      ∧ (∀ a, a ≠ pgLbist + LB_STAT.off → a ≠ pgEll 0 + ELL_STAT.off → a ≠ pgEll 1 + ELL_STAT.off → t.cur.rd a = s.cur.rd a)
      ∧ t.vis = s.vis) ∧
  (∀ (s : State),
      (s.cur.starts pgLbist = false ∨ ((List.range 156).find? fun i => !s.cur.prt.tested.contains i && !s.cur.sliceBad i && !(s.cur.prt.testing.any (·.1 == i)) && Dev.testable s.vis s.cur i) = none ∨ s.cur.flag pgLbist LB_CTL_EN = false ∨ clampN 1 4 (s.cur.get pgLbist LB_CTL_MAX_CONC) ≤ s.cur.prt.testing.length ∨ s.cur.gtime < s.cur.prt.nextStart ∨ s.vis.flag pgRsv RSV_STAT_PF = true) →
      ∃ t, exec (.lbistTestStart) s = .next t ∧ t.cur = s.cur ∧ t.vis = s.vis) ∧
  (∀ (i : Fin 156) (n : Nat) (g : Bool) (s : State), (s.cur.prt.testing.find? (fun x => x.1 == i.val) = some (i.val, n)) →
      n + testGrains i ≤ s.cur.gtime → s.cur.sliceDown i = false → ∃ t, exec (.lbistTestResult i true g) s = .next t
      ∧ t.cur.prt = { s.cur.prt with testing := s.cur.prt.testing.filter (·.1 != i.val), tested := s.cur.prt.tested ++ [i.val] }
      ∧ t.cur.get pgLbist LB_STAT_LAST = i.val
      ∧ t.cur.get pgLbist LB_STAT_RUNNING = (s.cur.prt.testing.filter (·.1 != i.val)).length % 8
      ∧ (∀ a, a ≠ pgLbist + LB_STAT.off → a ≠ pgEll 0 + ELL_STAT.off → a ≠ pgEll 1 + ELL_STAT.off → t.cur.rd a = s.cur.rd a)
      ∧ t.vis = s.vis) ∧
  (∀ (i : Fin 156) (n : Nat) (o g : Bool) (s : State), (s.cur.prt.testing.find? (fun x => x.1 == i.val) = some (i.val, n)) →
      n + testGrains i ≤ s.cur.gtime → s.cur.sliceDown i = true → ∃ t, exec (.lbistTestResult i o g) s = .next t
      ∧ t.cur.prt = { s.cur.prt with testing := s.cur.prt.testing.filter (·.1 != i.val) }
      ∧ t.cur.get pgLbist LB_STAT_LAST = s.cur.get pgLbist LB_STAT_LAST
      ∧ (∀ a, a ≠ pgLbist + LB_STAT.off → a ≠ pgEll 0 + ELL_STAT.off → a ≠ pgEll 1 + ELL_STAT.off → t.cur.rd a = s.cur.rd a)
      ∧ t.vis = s.vis) ∧
  (∀ (i : Fin 156) (n : Nat) (o g : Bool) (s : State), (s.cur.prt.testing.find? (fun x => x.1 == i.val) = some (i.val, n)) →
      s.cur.gtime < n + testGrains i → ∃ t, exec (.lbistTestResult i o g) s = .next t ∧ t.cur = s.cur ∧ t.vis = s.vis) ∧
  (∀ (i : Fin 156) (n : Nat) (s : State), (s.cur.prt.testing.find? (fun x => x.1 == i.val) = some (i.val, n)) →
      n + testGrains i ≤ s.cur.gtime → s.cur.sliceDown i = false → ∃ t, exec (.lbistTestResult i false true) s = .next t
      ∧ t.cur.prt = { s.cur.prt with testing := s.cur.prt.testing.filter (·.1 != i.val), tested := s.cur.prt.tested ++ [i.val] }
      ∧ t.cur.get pgLbist LB_STAT_LAST = i.val
      ∧ t.cur.get pgLbist LB_STAT_RUNNING = (s.cur.prt.testing.filter (·.1 != i.val)).length % 8
      ∧ t.cur.fj.staged = s.cur.fj.staged ++ [{ gtime := s.cur.gtime48, pgId := pgIdOf pgLbist, code := 0x0E06, deg := false, flt := false, data := [i.val] }]
      ∧ t.cur.flag (pgLbist) LBIST_IRQ_TRANSIENT = true
      ∧ t.cur.get pgLbist LB_COUNT_TRANSIENTS = satInc 0xFFFF (s.cur.get pgLbist LB_COUNT_TRANSIENTS) ∧ t.vis = s.vis) ∧
  (∀ (i : Fin 156) (n : Nat) (s : State), (s.cur.prt.testing.find? (fun x => x.1 == i.val) = some (i.val, n)) →
      n + testGrains i ≤ s.cur.gtime → s.cur.sliceDown i = false → s.cur.sliceBad i = false → s.cur.prt.pending.length < 1024 →
      147 ≤ i.val → ∃ t, exec (.lbistTestResult i false false) s = .next t ∧ t.cur.prt.failing = s.cur.prt.failing ++ [i.val]
      ∧ t.cur.flag (pgLbist) LBIST_IRQ_SLICE_FAIL = true
      ∧ t.cur.get pgLbist LB_COUNT_FAILS = satInc 0xFFFF (s.cur.get pgLbist LB_COUNT_FAILS)
      ∧ t.cur.prt.pending = s.cur.prt.pending ++ [fuseEntry 2 (sliceRow i).1 (sliceRow i).2 0 0]
      ∧ t.cur.fj.staged = s.cur.fj.staged ++ [{ gtime := s.cur.gtime48, pgId := pgIdOf pgLbist, code := 0x0E05, deg := true, flt := false, data := [i.val] }]
      ∧ i.val ∈ t.cur.prt.tested ∧ t.vis = s.vis) ∧
  (∀ (i : Fin 156) (o g : Bool) (s : State), (∀ x ∈ s.cur.prt.testing, x.1 ≠ i.val) →
      ∃ t, exec (.lbistTestResult i o g) s = .next t ∧ t.cur = s.cur ∧ t.vis = s.vis) ∧
  (∀ (i : Fin 156) (s : State), s.cur.sliceBad i = false → s.cur.prt.pending.length < 1024 → (147 ≤ i.val ∧ i.val < 150) →
      ∃ t, exec (.sliceFailing i) s = .next t ∧ t.cur.prt.failing = s.cur.prt.failing ++ [i.val]
      ∧ t.cur.flag (pgLbist) LBIST_IRQ_SLICE_FAIL = true
      ∧ t.cur.get pgLbist LB_COUNT_FAILS = satInc 0xFFFF (s.cur.get pgLbist LB_COUNT_FAILS)
      ∧ t.cur.prt.pending = s.cur.prt.pending ++ [fuseEntry 2 (sliceRow i).1 (sliceRow i).2 0 0]
      ∧ t.cur.fj.staged = s.cur.fj.staged ++ [{ gtime := s.cur.gtime48, pgId := pgIdOf pgLbist, code := 0x0E05, deg := true, flt := false, data := [i.val] }]
      ∧ (t.cur.flag (if i.val = 147 then pgCmt 0 else if i.val = 148 then pgAx 0 else pgBush) PG_STAT_DEGRADED = true)
      ∧ (t.cur.flag (if i.val = 147 then pgCmt 0 else if i.val = 148 then pgAx 0 else pgBush) PG_CTL_ENABLE = false)
      ∧ t.vis = s.vis) ∧
  (∀ (i : Fin 156) (s : State), s.cur.sliceBad i = false → s.cur.prt.pending.length < 1024 → 150 ≤ i.val →
      ∃ t, exec (.sliceFailing i) s = .next t ∧ t.cur.prt.failing = s.cur.prt.failing ++ [i.val]
      ∧ t.cur.flag (pgLbist) LBIST_IRQ_SLICE_FAIL = true
      ∧ t.cur.get pgLbist LB_COUNT_FAILS = satInc 0xFFFF (s.cur.get pgLbist LB_COUNT_FAILS)
      ∧ t.cur.prt.pending = s.cur.prt.pending ++ [fuseEntry 2 (sliceRow i).1 (sliceRow i).2 0 0]
      ∧ t.cur.fj.staged = s.cur.fj.staged ++ [{ gtime := s.cur.gtime48, pgId := pgIdOf pgLbist, code := 0x0E05, deg := true, flt := false, data := [i.val] }]
      ∧ (t.cur.flag (if i.val = 150 then pgLdg else if i.val = 151 then pgRsv else if i.val = 152 then pgCv 0 else if i.val = 155 then pgPwr else pgChk) PG_STAT_DEGRADED = true)
      ∧ t.vis = s.vis) ∧
  (∀ (i : Fin 156) (s : State), s.cur.sliceBad i = false → s.cur.prt.pending.length < 1024 → 131 ≤ i.val → i.val < 147 →
      ((s.cur.prt.failing.filter fun k => (sliceRow k).1 == 6).length < 8) → ∃ t, exec (.sliceFailing i) s = .next t
      ∧ t.cur.prt.failing = s.cur.prt.failing ++ [i.val] ∧ t.cur.flag (pgLbist) LBIST_IRQ_SLICE_FAIL = true
      ∧ t.cur.get pgLbist LB_COUNT_FAILS = satInc 0xFFFF (s.cur.get pgLbist LB_COUNT_FAILS)
      ∧ t.cur.prt.pending = s.cur.prt.pending ++ [fuseEntry 2 (sliceRow i).1 (sliceRow i).2 0 0]
      ∧ t.cur.fj.staged = s.cur.fj.staged ++ [{ gtime := s.cur.gtime48, pgId := pgIdOf pgLbist, code := 0x0E05, deg := false, flt := false, data := [i.val] }]
      ∧ t.cur.flag pgFint PG_STAT_DEGRADED = s.cur.flag pgFint PG_STAT_DEGRADED ∧ t.vis = s.vis) ∧
  (∀ (i : Fin 156) (s : State), s.cur.sliceBad i = false → s.cur.prt.pending.length < 1024 → 65 ≤ i.val → i.val < 129 →
      s.cur.prt.spareEntries < 2 → ∃ t, exec (.sliceFailing i) s = .next t ∧ t.cur.prt.failing = s.cur.prt.failing ++ [i.val]
      ∧ t.cur.flag (pgLbist) LBIST_IRQ_SLICE_FAIL = true
      ∧ t.cur.get pgLbist LB_COUNT_FAILS = satInc 0xFFFF (s.cur.get pgLbist LB_COUNT_FAILS)
      ∧ t.cur.prt.pending = s.cur.prt.pending ++ [fuseEntry 2 (sliceRow i).1 (sliceRow i).2 0 0]
      ∧ t.cur.fj.staged = s.cur.fj.staged ++ [{ gtime := s.cur.gtime48, pgId := pgIdOf pgLbist, code := 0x0E05, deg := false, flt := false, data := [i.val] }]
      ∧ t.cur.prt.spareEntries = s.cur.prt.spareEntries + 1 ∧ (t.cur.fifo (i.val - 65)).drainStopped = false ∧ t.vis = s.vis) ∧
  (∀ (i : Fin 156) (s : State), s.cur.sliceBad i = true → i.val ≠ 16 → ¬ (47 ≤ i.val ∧ i.val < 65) → i.val ≠ 129 ∧ i.val ≠ 130 →
      ∃ t, exec (.sliceFailing i) s = .next t ∧ t.cur = s.cur ∧ t.vis = s.vis)

/-- The window opens only with acceptance off, PD10 agreeing, no power-fail, VMOT at least 9 V and both dies between -20
and +85 degrees; otherwise MAINT_DENIED. A burn moves pending entries to the fuse map in order until it is full; an
interrupted entry uses a word that stays invalid and remains pending. Cleared failed bits undo only remaps that are
still pending. Commands that it says to complete, each on the conditions of its clauses: maintOpen, maintClose,
fuseBurn, fuseBurnEnd, fuseBurnInterrupt, failedBitClear. -/
def Obligations.MaintenanceAndFuses : Prop :=
  (∀ (r : Requester) (tl tp : Int) (s : State), s.cur.flag pgLdg LDG_CTL_ACCEPT_EN = false →
      (((stepMembers 6).all fun m => (s.vis.pageAnswer m false).1 == 1) = true) → s.cur.flag pgRsv RSV_STAT_PF = false →
      9000 ≤ s.cur.get pgBank BANK_VMOT_VMOT_MV → -20 ≤ tl ∧ tl ≤ 85 → -20 ≤ tp ∧ tp ≤ 85 →
      ∃ t, exec (.maintOpen r tl tp) s = .next t ∧ t.cur.flag (pgFuse) FUSE_STAT_MAINT = true
      ∧ t.cur.flag (pgFuse) FUSE_CTL_MAINT = true ∧ t.vis = s.vis ∧ { t.cur with regs := s.cur.regs } = s.cur
      ∧ (∀ a, a ≠ pgFuse + FUSE_STAT.off → a ≠ pgFuse + FUSE_CTL.off → t.cur.rd a = s.cur.rd a)) ∧
  (∀ (r : Requester) (tl tp : Int) (s : State),
      (s.cur.flag pgLdg LDG_CTL_ACCEPT_EN = true ∨ ((stepMembers 6).all fun m => (s.vis.pageAnswer m false).1 == 1) = false ∨ s.cur.flag pgRsv RSV_STAT_PF = true ∨ s.cur.get pgBank BANK_VMOT_VMOT_MV < 9000 ∨ ¬ (-20 ≤ tl ∧ tl ≤ 85) ∨ ¬ (-20 ≤ tp ∧ tp ≤ 85)) →
      ∃ t, exec (.maintOpen r tl tp) s = .next t
      ∧ (s.cur.flag pgFuse PG_ERR_INFO_VALID = false → t.cur.get pgFuse PG_ERR_INFO_CODE = ErrCode.maintDenied.value)
      ∧ t.vis = s.vis ∧ { t.cur with regs := s.cur.regs } = s.cur
      ∧ (∀ a, a ≠ pgFuse + PG_ERR_INFO.off → a ≠ pgFuse + PG_ERR_ADDR_LO.off → a ≠ pgFuse + PG_ERR_ADDR_HI.off → a ≠ pgFuse + PG_ERR_COUNT.off → t.cur.rd a = s.cur.rd a)) ∧
  (∀ (s : State), ∃ t, exec (.maintClose) s = .next t ∧ t.cur.flag (pgFuse) FUSE_STAT_MAINT = false
      ∧ t.cur.flag (pgFuse) FUSE_CTL_MAINT = false ∧ t.vis = s.vis ∧ { t.cur with regs := s.cur.regs } = s.cur
      ∧ (∀ a, a ≠ pgFuse + FUSE_STAT.off → a ≠ pgFuse + FUSE_CTL.off → t.cur.rd a = s.cur.rd a)) ∧
  (∀ (s : State), s.cur.flag pgFuse FUSE_STAT_MAINT = true → ∃ t, exec (.fuseBurn) s = .next t
      ∧ t.cur.flag (pgFuse) FUSE_STAT_BUSY = true ∧ t.cur.flag (pgFuse) FUSE_CTL_BURN = true ∧ t.vis = s.vis
      ∧ { t.cur with regs := s.cur.regs } = s.cur
      ∧ (∀ a, a ≠ pgFuse + FUSE_STAT.off → a ≠ pgFuse + FUSE_CTL.off → t.cur.rd a = s.cur.rd a)) ∧
  (∀ (s : State), s.cur.flag pgFuse FUSE_STAT_MAINT = false → ∃ t, exec (.fuseBurn) s = .next t ∧ t.cur = s.cur ∧ t.vis = s.vis
      ∧ { t.cur with regs := s.cur.regs } = s.cur) ∧
  (∀ (s : State), s.cur.flag pgFuse FUSE_STAT_BUSY = true → s.cur.prt.fuses.length + s.cur.prt.pending.length ≤ 1024 →
      ∃ t, exec (.fuseBurnEnd) s = .next t ∧ t.cur.flag (pgFuse) FUSE_STAT_BUSY = false
      ∧ t.cur.flag (pgFuse) FUSE_CTL_BURN = false ∧ t.cur.get pgFuse FUSE_STAT_RESULT = 0
      ∧ t.cur.flag (pgFuse) FUSE_IRQ_BURN_DONE = true ∧ t.cur.get pgFuse FUSE_STAT_FREE = 1024 - t.cur.prt.fuses.length
      ∧ t.cur.get pgProt MEM_PEND_COUNT = t.cur.prt.pending.length % 2 ^ 11
      ∧ t.cur.prt = { s.cur.prt with fuses := s.cur.prt.fuses ++ s.cur.prt.pending, pending := [] } ∧ t.vis = s.vis
      ∧ { t.cur with regs := s.cur.regs, irqSet := s.cur.irqSet, prt := s.cur.prt } = s.cur
      ∧ (∀ a, a ≠ pgFuse + FUSE_STAT.off → a ≠ pgFuse + FUSE_CTL.off → a ≠ pgFuse + PG_IRQ_RAW.off → a ≠ pgProt + MEM_PEND.off → t.cur.rd a = s.cur.rd a)) ∧
  (∀ (s : State), s.cur.flag pgFuse FUSE_STAT_BUSY = true → s.cur.prt.fuses.length ≤ 1024 →
      1024 < s.cur.prt.fuses.length + s.cur.prt.pending.length → ∃ t, exec (.fuseBurnEnd) s = .next t
      ∧ t.cur.flag (pgFuse) FUSE_STAT_BUSY = false ∧ t.cur.flag (pgFuse) FUSE_CTL_BURN = false
      ∧ t.cur.get pgFuse FUSE_STAT_RESULT = 2 ∧ t.cur.flag (pgFuse) FUSE_IRQ_BURN_DONE = true
      ∧ t.cur.get pgFuse FUSE_STAT_FREE = 1024 - t.cur.prt.fuses.length
      ∧ t.cur.get pgProt MEM_PEND_COUNT = t.cur.prt.pending.length % 2 ^ 11 ∧ t.cur.flag (pgFuse) FUSE_IRQ_BURN_FAIL = true
      ∧ t.cur.prt = { s.cur.prt with fuses := s.cur.prt.fuses ++ s.cur.prt.pending.take (1024 - s.cur.prt.fuses.length), pending := s.cur.prt.pending.drop (1024 - s.cur.prt.fuses.length) }
      ∧ (∃ x ∈ t.cur.fj.staged, x.code = 0x0E07 ∧ x.pgId = pgIdOf pgFuse) ∧ t.vis = s.vis
      ∧ { t.cur with regs := s.cur.regs, irqSet := s.cur.irqSet, fj := s.cur.fj, prt := s.cur.prt } = s.cur
      ∧ (∀ a, a ≠ pgFuse + FUSE_STAT.off → a ≠ pgFuse + FUSE_CTL.off → a ≠ pgFuse + PG_IRQ_RAW.off → a ≠ pgProt + MEM_PEND.off → t.cur.rd a = s.cur.rd a)) ∧
  (∀ (s : State), s.cur.flag pgFuse FUSE_STAT_BUSY = false → ∃ t, exec (.fuseBurnEnd) s = .next t ∧ t.cur = s.cur
      ∧ t.vis = s.vis ∧ { t.cur with regs := s.cur.regs, irqSet := s.cur.irqSet, fj := s.cur.fj, prt := s.cur.prt } = s.cur) ∧
  (∀ (n e : Nat) (l : List Nat) (s : State), s.cur.flag pgFuse FUSE_STAT_BUSY = true → s.cur.rsv.pfLine = true →
      s.cur.prt.pending.drop n = e :: l → s.cur.prt.fuses.length + n < 1024 → ∃ t, exec (.fuseBurnInterrupt n) s = .next t
      ∧ t.cur.flag (pgFuse) FUSE_STAT_BUSY = false ∧ t.cur.flag (pgFuse) FUSE_CTL_BURN = false
      ∧ t.cur.get pgFuse FUSE_STAT_RESULT = 1 ∧ t.cur.flag (pgFuse) FUSE_IRQ_BURN_DONE = true
      ∧ t.cur.get pgFuse FUSE_STAT_FREE = 1024 - t.cur.prt.fuses.length
      ∧ t.cur.get pgProt MEM_PEND_COUNT = t.cur.prt.pending.length % 2 ^ 11 ∧ t.cur.flag (pgFuse) FUSE_IRQ_BURN_FAIL = true
      ∧ t.cur.prt = { s.cur.prt with fuses := s.cur.prt.fuses ++ s.cur.prt.pending.take n ++ [e % 2 ^ 31], pending := e :: l }
      ∧ bit (e % 2 ^ 31) 31 = false ∧ t.vis = s.vis
      ∧ { t.cur with regs := s.cur.regs, irqSet := s.cur.irqSet, prt := s.cur.prt } = s.cur
      ∧ (∀ a, a ≠ pgFuse + FUSE_STAT.off → a ≠ pgFuse + FUSE_CTL.off → a ≠ pgFuse + PG_IRQ_RAW.off → a ≠ pgProt + MEM_PEND.off → t.cur.rd a = s.cur.rd a)) ∧
  (∀ (n : Nat) (s : State), s.cur.flag pgFuse FUSE_STAT_BUSY = false ∨ s.cur.rsv.pfLine = false →
      ∃ t, exec (.fuseBurnInterrupt n) s = .next t ∧ t.cur = s.cur ∧ t.vis = s.vis
      ∧ { t.cur with regs := s.cur.regs, irqSet := s.cur.irqSet, fj := s.cur.fj, prt := s.cur.prt } = s.cur) ∧
  (∀ (k : Fin 5) (s : State), s.cur.flag pgFuse FUSE_STAT_MAINT = true →
      s.cur.prt.pending.contains (fuseEntry 2 3 (5 * k.val + 2) 0 0) = true → s.cur.get (pgFth k) FTH_ADC_FAILED = 4 →
      ∃ t, exec (.failedBitClear (.adc k 0)) s = .next t ∧ t.cur.get (pgFth k) FTH_ADC_FAILED = 0
      ∧ t.cur.get (pgFth k) FTH_ADC_STANDIN = 7
      ∧ t.cur.prt = { s.cur.prt with pending := s.cur.prt.pending.filter (· != fuseEntry 2 3 (5 * k.val + 2) 0 0), failing := s.cur.prt.failing.filter (· != 24 + 5 * k.val) }
      ∧ t.vis = s.vis) ∧
  (∀ (e : Fin 2) (s : State), s.cur.flag pgFuse FUSE_STAT_MAINT = true →
      s.cur.prt.pending.contains (fuseEntry 2 4 (9 * e.val + 3) 0 0) = true → s.cur.get (pgEll e) ELL_STAT_LANE_FAILED = 8 →
      (s.cur.engine e).spare = some 3 → ∃ t, exec (.failedBitClear (.lanes e 0)) s = .next t
      ∧ t.cur.get (pgEll e) ELL_STAT_LANE_FAILED = 0 ∧ t.cur.get (pgEll e) ELL_STAT_STANDIN = 15
      ∧ t.cur.flag (pgEll e) ELL_STAT_SPARE_USED = false ∧ (t.cur.engine e).spare = none
      ∧ t.cur.prt = { s.cur.prt with pending := s.cur.prt.pending.filter (· != fuseEntry 2 4 (9 * e.val + 3) 0 0), failing := s.cur.prt.failing.filter (· != 50 + 9 * e.val) }
      ∧ t.vis = s.vis) ∧
  (∀ (e : Fin 2) (s : State), s.cur.flag pgFuse FUSE_STAT_MAINT = true →
      s.cur.prt.pending.contains (fuseEntry 2 4 (9 * e.val + 3) 0 0) = true → s.cur.get (pgEll e) ELL_STAT_LANE_FAILED = 8 →
      (s.cur.engine e).spare ≠ some 3 → ∃ t, exec (.failedBitClear (.lanes e 0)) s = .next t
      ∧ t.cur.get (pgEll e) ELL_STAT_LANE_FAILED = 0 ∧ bit (t.cur.engine e).dead 3 = false
      ∧ (t.cur.engine e).spare = (s.cur.engine e).spare
      ∧ t.cur.prt = { s.cur.prt with pending := s.cur.prt.pending.filter (· != fuseEntry 2 4 (9 * e.val + 3) 0 0), failing := s.cur.prt.failing.filter (· != 50 + 9 * e.val) }
      ∧ t.vis = s.vis) ∧
  (∀ (k : Fin 5) (m : BitVec 5) (s : State), s.cur.flag pgFuse FUSE_STAT_MAINT = true → s.cur.prt.pending = [] →
      ∃ t, exec (.failedBitClear (.adc k m)) s = .next t ∧ t.cur = s.cur ∧ t.vis = s.vis) ∧
  (∀ (m : FailedMask) (s : State), s.cur.flag pgFuse FUSE_STAT_MAINT = false → ∃ t, exec (.failedBitClear m) s = .next t
      ∧ t.cur = s.cur ∧ t.vis = s.vis)

/-- A step starts while its path is enabled, the page may start work, its condition holds and, for path 1, the port has
been IDLE for 64 Grains. A plausible result is committed to the values in use and clears the element's failures: the
mean of the samples, a move of at most 2 phase codes, the median of three, the comparators of least offset. Another is
counted, drops elements that disagree and, at FAIL_N in a row, fails the path with a record, DEGRADED and PATH_FAILED;
a channel or the LPDDR5 trains again. A step whose condition has ended is abandoned without a failure. (Which set of
redundant elements a step drops is the model's reading, notes/assumptions/123.md.) Commands that it says to complete,
each on the conditions of its clauses: calStep, calStepAbandon. -/
def Obligations.CalibrationSteps : Prop :=
  (∀ (path : Fin 7) (e : Nat) (s : State), e < pathElems path → (∀ x ∈ s.cur.cal.running, x.key ≠ (path.val * 256 + e)) →
      s.cur.starts pgCal = true → bit (s.cur.get pgCal CAL_CTL_PATH_EN) path = true → s.vis.calHolds path e = true →
      path.val ≠ 1 ∨ 64 ≤ (s.cur.cal.idle[e / 10]?).getD 0 → ∃ t, exec (.calStep path e none) s = .next t
      ∧ t.cur.cal = { s.cur.cal with running := s.cur.cal.running ++ [{ key := (path.val * 256 + e), since := s.cur.gtime }] }
      ∧ t.vis = s.vis ∧ { t.cur with cal := s.cur.cal } = s.cur) ∧
  (∀ (path : Fin 7) (e : Nat) (s : State),
      (pathElems path ≤ e ∨ (∃ x ∈ s.cur.cal.running, x.key = (path.val * 256 + e)) ∨ s.cur.starts pgCal = false ∨ bit (s.cur.get pgCal CAL_CTL_PATH_EN) path = false ∨ s.vis.calHolds path e = false ∨ (path.val = 1 ∧ (s.cur.cal.idle[e / 10]?).getD 0 < 64)) →
      ∃ t, exec (.calStep path e none) s = .next t ∧ t.cur = s.cur ∧ t.vis = s.vis
      ∧ { t.cur with regs := s.cur.regs, irqSet := s.cur.irqSet, fj := s.cur.fj, fls := s.cur.fls, mc := s.cur.mc, cal := s.cur.cal } = s.cur) ∧
  (∀ (path : Fin 7) (e : Nat) (v : CalValue) (s : State),
      ((∀ x ∈ s.cur.cal.running, x.key ≠ (path.val * 256 + e)) ∨ pathElems path ≤ e ∨ calFits v path e = false ∨ s.vis.calHolds path e = false) →
      ∃ t, exec (.calStep path e (some v)) s = .next t ∧ t.cur = s.cur ∧ t.vis = s.vis
      ∧ { t.cur with regs := s.cur.regs, irqSet := s.cur.irqSet, fj := s.cur.fj, fls := s.cur.fls, mc := s.cur.mc, cal := s.cur.cal } = s.cur) ∧
  (∀ (e : Nat) (v : CalValue) (run : CalRun) (s : State), (s.cur.cal.running.find? (fun x => x.key == 1 * 256 + e) = some run) →
      e < pathElems 1 → s.vis.calHolds 1 e = true → run.grains < 256 → ∃ t, exec (.calStep 1 e (some v)) s = .next t
      ∧ t.cur = s.cur ∧ t.vis = s.vis
      ∧ { t.cur with regs := s.cur.regs, irqSet := s.cur.irqSet, fj := s.cur.fj, fls := s.cur.fls, mc := s.cur.mc, cal := s.cur.cal } = s.cur) ∧
  (∀ (e : Nat) (run : CalRun) (s : State), (s.cur.cal.running.find? (fun x => x.key == 1 * 256 + e) = some run) →
      e < pathElems 1 → s.vis.calHolds 1 e = true → 256 ≤ run.grains →
      ((run.sum / 1024 : Nat) - s.cur.get (pgOps (e / 10)) (pdOfs (e % 10)) : Int).natAbs ≤ 256 →
      ∃ t, exec (.calStep 1 e (some .offset)) s = .next t
      ∧ t.cur.elem 1 e = { s.cur.elem 1 e with fails := 0, failed := false, okAt := some s.cur.gtime, vals := [((run.sum / 1024 : Nat) : Int)], chosen := [] }
      ∧ t.cur.cal.running = s.cur.cal.running.filter (·.key != 1 * 256 + e)
      ∧ (∀ p q, (p, q) ≠ (1, e) → q < 256 → t.cur.elem p q = s.cur.elem p q)
      ∧ t.cur.get (pgOps (e / 10)) (pdOfs (e % 10)) = run.sum / 1024 % 2 ^ 12
      ∧ (∀ a, a % 0x1000 ≠ PG_STAT.off → a ≠ pgCal + CAL_STAT.off → a ≠ pgOps (e / 10) + (pdOfs (e % 10)).off → t.cur.rd a = s.cur.rd a)
      ∧ t.vis = s.vis ∧ { t.cur with regs := s.cur.regs, cal := s.cur.cal } = s.cur) ∧
  (∀ (e eye : Nat) (x : Int) (run : CalRun) (s : State), (s.cur.cal.running.find? (fun x => x.key == 2 * 256 + e) = some run) →
      e < pathElems 2 → s.vis.calHolds 2 e = true → 30 ≤ eye → (x - (s.cur.chan e).trainedPh).natAbs ≤ 16 →
      ∃ t, exec (.calStep 2 e (some (.phy eye x))) s = .next t
      ∧ t.cur.elem 2 e = { s.cur.elem 2 e with fails := 0, failed := false, okAt := some s.cur.gtime, vals := [x], chosen := [1 - nthD (s.cur.elem 2 e).chosen 0 0] }
      ∧ t.cur.cal.running = s.cur.cal.running.filter (·.key != 2 * 256 + e)
      ∧ (∀ p q, (p, q) ≠ (2, e) → q < 256 → t.cur.elem p q = s.cur.elem p q)
      ∧ t.cur.get (pgFch e) FCH_TRAIN_DQS_PH = ((s.cur.get (pgFch e) FCH_TRAIN_DQS_PH : Int) + clampI (-2) 2 (x - (s.cur.get (pgFch e) FCH_TRAIN_DQS_PH : Int))).toNat % 2 ^ FCH_TRAIN_DQS_PH.width
      ∧ (∀ a, a % 0x1000 ≠ PG_STAT.off → a ≠ pgCal + CAL_STAT.off → a ≠ pgFch e + FCH_TRAIN.off → t.cur.rd a = s.cur.rd a)
      ∧ t.vis = s.vis ∧ { t.cur with regs := s.cur.regs, cal := s.cur.cal } = s.cur) ∧
  (∀ (e : Nat) (x : Nat) (run : CalRun) (s : State), (s.cur.cal.running.find? (fun x => x.key == 3 * 256 + e) = some run) →
      e < pathElems 3 → s.vis.calHolds 3 e = true → x < 256 → ∃ t, exec (.calStep 3 e (some (.drift x))) s = .next t
      ∧ t.cur.elem 3 e = { s.cur.elem 3 e with fails := 0, failed := false, okAt := some s.cur.gtime, vals := [(x : Int)], chosen := [] }
      ∧ t.cur.cal.running = s.cur.cal.running.filter (·.key != 3 * 256 + e)
      ∧ (∀ p q, (p, q) ≠ (3, e) → q < 256 → t.cur.elem p q = s.cur.elem p q)
      ∧ (∀ a, a % 0x1000 ≠ PG_STAT.off → a ≠ pgCal + CAL_STAT.off → t.cur.rd a = s.cur.rd a) ∧ t.vis = s.vis
      ∧ { t.cur with regs := s.cur.regs, cal := s.cur.cal } = s.cur) ∧
  (∀ (e : Nat) (x : Int) (run : CalRun) (s : State), (s.cur.cal.running.find? (fun x => x.key == 6 * 256 + e) = some run) →
      e < pathElems 6 → s.vis.calHolds 6 e = true → x.natAbs ≤ 2000 → ∃ t, exec (.calStep 6 e (some (.bridge x))) s = .next t
      ∧ t.cur.elem 6 e = { s.cur.elem 6 e with fails := 0, failed := false, okAt := some s.cur.gtime, vals := [x], chosen := [] }
      ∧ t.cur.cal.running = s.cur.cal.running.filter (·.key != 6 * 256 + e)
      ∧ (∀ p q, (p, q) ≠ (6, e) → q < 256 → t.cur.elem p q = s.cur.elem p q)
      ∧ (∀ a, a % 0x1000 ≠ PG_STAT.off → a ≠ pgCal + CAL_STAT.off → t.cur.rd a = s.cur.rd a) ∧ t.vis = s.vis
      ∧ { t.cur with regs := s.cur.regs, cal := s.cur.cal } = s.cur) ∧
  (∀ (e : Nat) (g o : Int) (a b c : Nat) (run : CalRun) (s : State),
      (s.cur.cal.running.find? (fun x => x.key == 4 * 256 + e) = some run) → e < pathElems 4 → s.vis.calHolds 4 e = true →
      e < 2 → g.natAbs ≤ 100 → o.natAbs ≤ 20 → kept nearGap [(a : Int), b, c] = [0, 1, 2] →
      ∃ t, exec (.calStep 4 e (some (.sampler g o a b c))) s = .next t
      ∧ t.cur.elem 4 e = { s.cur.elem 4 e with fails := 0, failed := false, okAt := some s.cur.gtime, vals := [g, o, median3 a b c], chosen := [0, 1, 2] }
      ∧ t.cur.cal.running = s.cur.cal.running.filter (·.key != 4 * 256 + e)
      ∧ (∀ p q, (p, q) ≠ (4, e) → q < 256 → t.cur.elem p q = s.cur.elem p q)
      ∧ (∀ a, a % 0x1000 ≠ PG_STAT.off → a ≠ pgCal + CAL_STAT.off → t.cur.rd a = s.cur.rd a) ∧ t.vis = s.vis
      ∧ { t.cur with regs := s.cur.regs, cal := s.cur.cal } = s.cur) ∧
  (∀ (e : Nat) (a b c : Int) (run : CalRun) (s : State), (s.cur.cal.running.find? (fun x => x.key == 4 * 256 + e) = some run) →
      e < pathElems 4 → s.vis.calHolds 4 e = true → 2 ≤ e → kept nearTemp [a, b, c] = [0, 1, 2] →
      ∃ t, exec (.calStep 4 e (some (.sensors a b c))) s = .next t
      ∧ t.cur.elem 4 e = { s.cur.elem 4 e with fails := 0, failed := false, okAt := some s.cur.gtime, vals := [median3 a b c], chosen := [0, 1, 2] }
      ∧ t.cur.cal.running = s.cur.cal.running.filter (·.key != 4 * 256 + e)
      ∧ (∀ p q, (p, q) ≠ (4, e) → q < 256 → t.cur.elem p q = s.cur.elem p q)
      ∧ (∀ a, a % 0x1000 ≠ PG_STAT.off → a ≠ pgCal + CAL_STAT.off → t.cur.rd a = s.cur.rd a) ∧ t.vis = s.vis
      ∧ { t.cur with regs := s.cur.regs, cal := s.cur.cal } = s.cur) ∧
  (∀ (e : Nat) (x : Int) (a b c : List Int) (run : CalRun) (s : State),
      (s.cur.cal.running.find? (fun x => x.key == 5 * 256 + e) = some run) → e < pathElems 5 → s.vis.calHolds 5 e = true →
      x.natAbs ≤ 5000 → (nthD a (leastOffset a) 0).natAbs ≤ 50000 → (nthD b (leastOffset b) 0).natAbs ≤ 50000 →
      (nthD c (leastOffset c) 0).natAbs ≤ 50000 → ∃ t, exec (.calStep 5 e (some (.motor x a b c))) s = .next t
      ∧ t.cur.elem 5 e = { s.cur.elem 5 e with fails := 0, failed := false, okAt := some s.cur.gtime, vals := [x, nthD a (leastOffset a) 0, nthD b (leastOffset b) 0, nthD c (leastOffset c) 0], chosen := [leastOffset a, leastOffset b, leastOffset c] }
      ∧ t.cur.cal.running = s.cur.cal.running.filter (·.key != 5 * 256 + e)
      ∧ (∀ p q, (p, q) ≠ (5, e) → q < 256 → t.cur.elem p q = s.cur.elem p q)
      ∧ (∀ a, a % 0x1000 ≠ PG_STAT.off → a ≠ pgCal + CAL_STAT.off → t.cur.rd a = s.cur.rd a) ∧ t.vis = s.vis
      ∧ { t.cur with regs := s.cur.regs, cal := s.cur.cal } = s.cur) ∧
  (∀ (path : Fin 7) (e : Nat) (v : CalValue) (run : CalRun) (s : State),
      (s.cur.cal.running.find? (fun x => x.key == (path.val * 256 + e)) = some run) → e < pathElems path →
      s.vis.calHolds path e = true → calFits v path e = true → path.val ≠ 1 ∨ 256 ≤ run.grains →
      s.cur.plausibleStep path e v (calFound v (run.sum / 1024) (nthD (s.cur.elem path e).chosen 0 0)) = false →
      (s.cur.elem path e).fails + 1 < max 1 (s.cur.get pgCal CAL_CFG_FAIL_N) ∨ (s.cur.elem path e).failed = true →
      path.val ≠ 4 → ∃ t, exec (.calStep path e (some v)) s = .next t
      ∧ t.cur.get pgCal CAL_FAILS_COUNT = satInc 0xFFFFFFFF (s.cur.get pgCal CAL_FAILS_COUNT)
      ∧ t.cur.flag (pgCal) CAL_IRQ_CAL_FAIL = true
      ∧ t.cur.cal.running = s.cur.cal.running.filter (·.key != (path.val * 256 + e))
      ∧ t.cur.elem path e = { (s.cur.elem path e) with fails := (s.cur.elem path e).fails + 1 }
      ∧ (∀ a, a % 0x1000 ≠ PG_STAT.off → a ≠ pgCal + CAL_STAT.off → a ≠ pgCal + CAL_FAILS.off → a ≠ pgCal + PG_IRQ_RAW.off → t.cur.rd a = s.cur.rd a)
      ∧ t.vis = s.vis ∧ { t.cur with regs := s.cur.regs, irqSet := s.cur.irqSet, cal := s.cur.cal } = s.cur) ∧
  (∀ (path : Fin 7) (e : Nat) (v : CalValue) (run : CalRun) (s : State),
      (s.cur.cal.running.find? (fun x => x.key == (path.val * 256 + e)) = some run) → e < pathElems path →
      s.vis.calHolds path e = true → calFits v path e = true → path.val ≠ 1 ∨ 256 ≤ run.grains →
      s.cur.plausibleStep path e v (calFound v (run.sum / 1024) (nthD (s.cur.elem path e).chosen 0 0)) = false →
      (s.cur.elem path e).fails + 1 < max 1 (s.cur.get pgCal CAL_CFG_FAIL_N) ∨ (s.cur.elem path e).failed = true →
      path.val = 4 → ∃ t, exec (.calStep path e (some v)) s = .next t
      ∧ t.cur.get pgCal CAL_FAILS_COUNT = satInc 0xFFFFFFFF (s.cur.get pgCal CAL_FAILS_COUNT)
      ∧ t.cur.flag (pgCal) CAL_IRQ_CAL_FAIL = true
      ∧ t.cur.cal.running = s.cur.cal.running.filter (·.key != (path.val * 256 + e))
      ∧ t.cur.elem path e = { (s.cur.elem path e) with fails := (s.cur.elem path e).fails + 1, chosen := (calFound v (run.sum / 1024) (nthD (s.cur.elem path e).chosen 0 0)).chosen }
      ∧ ((calFound v (run.sum / 1024) (nthD (s.cur.elem path e).chosen 0 0)).chosen.length < 2 → t.cur.flag (elemPage path e) PG_STAT_DEGRADED = true)
      ∧ (∀ a, a % 0x1000 ≠ PG_STAT.off → a ≠ pgCal + CAL_STAT.off → a ≠ pgCal + CAL_FAILS.off → a ≠ pgCal + PG_IRQ_RAW.off → t.cur.rd a = s.cur.rd a)
      ∧ t.vis = s.vis ∧ { t.cur with regs := s.cur.regs, irqSet := s.cur.irqSet, cal := s.cur.cal } = s.cur) ∧
  (∀ (path : Fin 7) (e : Nat) (v : CalValue) (run : CalRun) (s : State),
      (s.cur.cal.running.find? (fun x => x.key == (path.val * 256 + e)) = some run) → e < pathElems path →
      s.vis.calHolds path e = true → calFits v path e = true → path.val ≠ 1 ∨ 256 ≤ run.grains →
      s.cur.plausibleStep path e v (calFound v (run.sum / 1024) (nthD (s.cur.elem path e).chosen 0 0)) = false →
      max 1 (s.cur.get pgCal CAL_CFG_FAIL_N) ≤ (s.cur.elem path e).fails + 1 → (s.cur.elem path e).failed = false →
      ∃ t, exec (.calStep path e (some v)) s = .next t
      ∧ t.cur.get pgCal CAL_FAILS_COUNT = satInc 0xFFFFFFFF (s.cur.get pgCal CAL_FAILS_COUNT)
      ∧ t.cur.flag (pgCal) CAL_IRQ_CAL_FAIL = true
      ∧ t.cur.cal.running = s.cur.cal.running.filter (·.key != (path.val * 256 + e))
      ∧ (t.cur.elem path e = { (s.cur.elem path e) with fails := (s.cur.elem path e).fails + 1, failed := true, chosen := if path.val = 4 then (calFound v (run.sum / 1024) (nthD (s.cur.elem path e).chosen 0 0)).chosen else (s.cur.elem path e).chosen })
      ∧ t.cur.flag (pgCal) CAL_IRQ_PATH_FAILED = true ∧ bit (t.cur.get pgCal CAL_STAT_FAILED) path = true
      ∧ t.cur.flag (elemPage path e) PG_STAT_DEGRADED = true
      ∧ t.cur.fj.staged = s.cur.fj.staged ++ [{ gtime := s.cur.gtime48, pgId := pgIdOf pgCal, code := 0x0F01, deg := true, flt := false, data := [path.val, e % 2 ^ 32, ofInt 32 (nthD (calFound v (run.sum / 1024) (nthD (s.cur.elem path e).chosen 0 0)).vals 0 0) % 2 ^ 32] }]
      ∧ (path.val = 2 → (t.cur.chan e).retrain = true) ∧ (path.val ≠ 2 → t.cur.fls = s.cur.fls)
      ∧ (t.cur.mc = (if path.val = 3 then { s.cur.mc with dqDue := true } else s.cur.mc))
      ∧ (∀ a, a % 0x1000 ≠ PG_STAT.off → a ≠ pgCal + CAL_STAT.off → a ≠ pgCal + CAL_FAILS.off → a ≠ pgCal + PG_IRQ_RAW.off → t.cur.rd a = s.cur.rd a)
      ∧ t.vis = s.vis
      ∧ { t.cur with regs := s.cur.regs, irqSet := s.cur.irqSet, fj := s.cur.fj, fls := s.cur.fls, mc := s.cur.mc, cal := s.cur.cal } = s.cur) ∧
  (∀ (path : Fin 7) (e : Nat) (s : State), path.val = 3 ∨ s.vis.calHolds path e = false →
      ∃ t, exec (.calStepAbandon path e) s = .next t
      ∧ t.cur.cal = { s.cur.cal with running := s.cur.cal.running.filter (·.key != (path.val * 256 + e)) } ∧ t.vis = s.vis
      ∧ { t.cur with cal := s.cur.cal } = s.cur) ∧
  (∀ (path : Fin 7) (e : Nat) (s : State), path.val ≠ 3 → s.vis.calHolds path e = true →
      ∃ t, exec (.calStepAbandon path e) s = .next t ∧ t.cur = s.cur ∧ t.vis = s.vis ∧ { t.cur with cal := s.cur.cal } = s.cur)

/-- At a Stone edge whose number is a multiple of REVIEW_S every measure with samples is copied with its count, others
read not FRESH, the sums are cleared and REVIEW is raised. BASELINE copies every fresh value. A plan is refused whole
at its first failing entry, with RESULT, ENTRY, a record and REJECTED; one that passes waits for the next Stone edge,
where its items take effect or are held back until their cause ends. Commands that it says to complete, each on the
conditions of its clauses: review, baseline, planSubmit, planApply, heldItemApply. -/
def Obligations.ReviewAndPlan : Prop :=
  (∀ (i n : Nat) (v : Int) (s : State), s.cur.gtime % 256 = 0 →
      s.cur.gtime / 256 % max 1 (s.cur.get pgMplan MP_CFG_REVIEW_S) = 0 → s.cur.cal.reviewAt ≠ some s.cur.gtime →
      (i < 13 ∨ (0x10 ≤ i ∧ i < 0x1C) ∨ i = 0x28 ∨ i = 0x29 ∨ i = 0x38 ∨ i = 0x39) →
      (s.cur.cal.samples.find? (fun x => x.1 == i) = some (i, n, v)) → n ≠ 0 → s.cur.flag (agePage i) PG_STAT_STALE = false →
      ∃ t, exec (.review) s = .next t
      ∧ t.cur.cal = { s.cur.cal with laser := Vector.replicate 4 {}, spin := Vector.replicate 4 (0, 0), samples := [], reviewAt := some s.cur.gtime }
      ∧ t.cur.flag (pgMplan) MPLAN_IRQ_REVIEW = true ∧ (s.vis = s.cur → t.vis = t.cur)
      ∧ t.cur.rd (pgAgeb + 16 * i + 0) = BitVec.ofInt 32 v ∧ t.cur.rd (pgAgeb + 16 * i + 4) = s.cur.rd (pgAgeb + 16 * i + 4)
      ∧ t.cur.rd (pgAgeb + 16 * i + 8) = BitVec.ofNat 32 (2 ^ 31 + min 0xFFFF n)
      ∧ { t.cur with regs := s.cur.regs, irqSet := s.cur.irqSet, fresh := s.cur.fresh, cal := s.cur.cal } = s.cur) ∧
  (∀ (i : Nat) (s : State), s.cur.gtime % 256 = 0 → s.cur.gtime / 256 % max 1 (s.cur.get pgMplan MP_CFG_REVIEW_S) = 0 →
      s.cur.cal.reviewAt ≠ some s.cur.gtime → (i < 13 ∨ (0x10 ≤ i ∧ i < 0x1C) ∨ i = 0x28 ∨ i = 0x29 ∨ i = 0x38 ∨ i = 0x39) →
      (∀ x ∈ s.cur.cal.samples, x.1 ≠ i) → ∃ t, exec (.review) s = .next t
      ∧ t.cur.cal = { s.cur.cal with laser := Vector.replicate 4 {}, spin := Vector.replicate 4 (0, 0), samples := [], reviewAt := some s.cur.gtime }
      ∧ t.cur.flag (pgMplan) MPLAN_IRQ_REVIEW = true ∧ (s.vis = s.cur → t.vis = t.cur)
      ∧ t.cur.rd (pgAgeb + 16 * i + 0) = s.cur.rd (pgAgeb + 16 * i + 0)
      ∧ t.cur.rd (pgAgeb + 16 * i + 4) = s.cur.rd (pgAgeb + 16 * i + 4) ∧ t.cur.rd (pgAgeb + 16 * i + 8) = 0
      ∧ { t.cur with regs := s.cur.regs, irqSet := s.cur.irqSet, fresh := s.cur.fresh, cal := s.cur.cal } = s.cur) ∧
  (∀ (k : Fin 4) (n x : Nat) (s : State), s.cur.gtime % 256 = 0 →
      s.cur.gtime / 256 % max 1 (s.cur.get pgMplan MP_CFG_REVIEW_S) = 0 → s.cur.cal.reviewAt ≠ some s.cur.gtime →
      s.cur.cal.spin[k] = (n, x) → n ≠ 0 → s.cur.flag (pgCmt k) PG_STAT_STALE = false → ∃ t, exec (.review) s = .next t
      ∧ t.cur.cal = { s.cur.cal with laser := Vector.replicate 4 {}, spin := Vector.replicate 4 (0, 0), samples := [], reviewAt := some s.cur.gtime }
      ∧ t.cur.flag (pgMplan) MPLAN_IRQ_REVIEW = true ∧ (s.vis = s.cur → t.vis = t.cur)
      ∧ t.cur.rd (pgAgeb + 16 * (0x30 + k.val) + 0) = BitVec.ofInt 32 (x / n : Nat)
      ∧ { t.cur with regs := s.cur.regs, irqSet := s.cur.irqSet, fresh := s.cur.fresh, cal := s.cur.cal } = s.cur) ∧
  (∀ (k : Fin 4) (s : State), s.cur.gtime % 256 = 0 → s.cur.gtime / 256 % max 1 (s.cur.get pgMplan MP_CFG_REVIEW_S) = 0 →
      s.cur.cal.reviewAt ≠ some s.cur.gtime → s.cur.cal.laser[k].n ≠ 0 →
      (s.cur.get pgAge AGE_CFG_LASER_SPREAD : Int) * (s.cur.get pgAge AGE_CFG_LASER_SPREAD : Int) * (s.cur.cal.laser[k].n * s.cur.cal.laser[k].n) ≤ (s.cur.cal.laser[k].n * s.cur.cal.laser[k].cc - s.cur.cal.laser[k].c * s.cur.cal.laser[k].c : Int) →
      0 < (s.cur.cal.laser[k].n * s.cur.cal.laser[k].cc - s.cur.cal.laser[k].c * s.cur.cal.laser[k].c : Int) →
      (s.cur.cal.laser[k].n * s.cur.cal.laser[k].cm - s.cur.cal.laser[k].c * s.cur.cal.laser[k].m : Int) ≠ 0 →
      s.cur.flag (pgOps k) PG_STAT_STALE = false → ∃ t, exec (.review) s = .next t
      ∧ t.cur.cal = { s.cur.cal with laser := Vector.replicate 4 {}, spin := Vector.replicate 4 (0, 0), samples := [], reviewAt := some s.cur.gtime }
      ∧ t.cur.flag (pgMplan) MPLAN_IRQ_REVIEW = true ∧ (s.vis = s.cur → t.vis = t.cur)
      ∧ t.cur.rd (pgAgeb + 16 * (0x24 + k.val) + 0) = BitVec.ofInt 32 (1024 * (s.cur.cal.laser[k].n * s.cur.cal.laser[k].cm - s.cur.cal.laser[k].c * s.cur.cal.laser[k].m : Int) / (s.cur.cal.laser[k].n * s.cur.cal.laser[k].cc - s.cur.cal.laser[k].c * s.cur.cal.laser[k].c : Int))
      ∧ t.cur.rd (pgAgeb + 16 * (0x20 + k.val) + 0) = BitVec.ofInt 32 (16 * (s.cur.cal.laser[k].c * (s.cur.cal.laser[k].n * s.cur.cal.laser[k].cm - s.cur.cal.laser[k].c * s.cur.cal.laser[k].m : Int) - s.cur.cal.laser[k].m * (s.cur.cal.laser[k].n * s.cur.cal.laser[k].cc - s.cur.cal.laser[k].c * s.cur.cal.laser[k].c : Int)) / (s.cur.cal.laser[k].n * (s.cur.cal.laser[k].n * s.cur.cal.laser[k].cm - s.cur.cal.laser[k].c * s.cur.cal.laser[k].m : Int)))
      ∧ { t.cur with regs := s.cur.regs, irqSet := s.cur.irqSet, fresh := s.cur.fresh, cal := s.cur.cal } = s.cur) ∧
  (∀ (k : Fin 4) (s : State), s.cur.gtime % 256 = 0 → s.cur.gtime / 256 % max 1 (s.cur.get pgMplan MP_CFG_REVIEW_S) = 0 →
      s.cur.cal.reviewAt ≠ some s.cur.gtime → s.cur.cal.laser[k].n ≠ 0 → s.cur.flag (pgOps k) PG_STAT_STALE = false →
      (s.cur.cal.laser[k].n * s.cur.cal.laser[k].cc - s.cur.cal.laser[k].c * s.cur.cal.laser[k].c : Int) < (s.cur.get pgAge AGE_CFG_LASER_SPREAD : Int) * (s.cur.get pgAge AGE_CFG_LASER_SPREAD : Int) * (s.cur.cal.laser[k].n * s.cur.cal.laser[k].n) →
      ∃ t, exec (.review) s = .next t
      ∧ t.cur.cal = { s.cur.cal with laser := Vector.replicate 4 {}, spin := Vector.replicate 4 (0, 0), samples := [], reviewAt := some s.cur.gtime }
      ∧ t.cur.flag (pgMplan) MPLAN_IRQ_REVIEW = true ∧ (s.vis = s.cur → t.vis = t.cur)
      ∧ t.cur.rd (pgAgeb + 16 * (0x20 + k.val) + 8) = BitVec.ofNat 32 (0 * 2 ^ 31 + min 0xFFFF s.cur.cal.laser[k].n)
      ∧ t.cur.rd (pgAgeb + 16 * (0x24 + k.val) + 8) = BitVec.ofNat 32 (0 * 2 ^ 31 + min 0xFFFF s.cur.cal.laser[k].n)
      ∧ t.cur.rd (pgAgeb + 16 * (0x20 + k.val) + 0) = s.cur.rd (pgAgeb + 16 * (0x20 + k.val) + 0)
      ∧ t.cur.rd (pgAgeb + 16 * (0x24 + k.val) + 0) = s.cur.rd (pgAgeb + 16 * (0x24 + k.val) + 0)
      ∧ { t.cur with regs := s.cur.regs, irqSet := s.cur.irqSet, fresh := s.cur.fresh, cal := s.cur.cal } = s.cur) ∧
  (∀ (k : Fin 4) (s : State), s.cur.gtime % 256 = 0 → s.cur.gtime / 256 % max 1 (s.cur.get pgMplan MP_CFG_REVIEW_S) = 0 →
      s.cur.cal.reviewAt ≠ some s.cur.gtime → s.cur.cal.laser[k].n ≠ 0 → s.cur.flag (pgOps k) PG_STAT_STALE = false →
      (s.cur.get pgAge AGE_CFG_LASER_SPREAD : Int) * (s.cur.get pgAge AGE_CFG_LASER_SPREAD : Int) * (s.cur.cal.laser[k].n * s.cur.cal.laser[k].n) ≤ (s.cur.cal.laser[k].n * s.cur.cal.laser[k].cc - s.cur.cal.laser[k].c * s.cur.cal.laser[k].c : Int) →
      (s.cur.cal.laser[k].n * s.cur.cal.laser[k].cc - s.cur.cal.laser[k].c * s.cur.cal.laser[k].c : Int) ≤ 0 →
      ∃ t, exec (.review) s = .next t
      ∧ t.cur.cal = { s.cur.cal with laser := Vector.replicate 4 {}, spin := Vector.replicate 4 (0, 0), samples := [], reviewAt := some s.cur.gtime }
      ∧ t.cur.flag (pgMplan) MPLAN_IRQ_REVIEW = true ∧ (s.vis = s.cur → t.vis = t.cur)
      ∧ t.cur.rd (pgAgeb + 16 * (0x20 + k.val) + 8) = BitVec.ofNat 32 (1 * 2 ^ 31 + min 0xFFFF s.cur.cal.laser[k].n)
      ∧ t.cur.rd (pgAgeb + 16 * (0x24 + k.val) + 8) = BitVec.ofNat 32 (1 * 2 ^ 31 + min 0xFFFF s.cur.cal.laser[k].n)
      ∧ { t.cur with regs := s.cur.regs, irqSet := s.cur.irqSet, fresh := s.cur.fresh, cal := s.cur.cal } = s.cur) ∧
  (∀ (k : Fin 4) (s : State), s.cur.gtime % 256 = 0 → s.cur.gtime / 256 % max 1 (s.cur.get pgMplan MP_CFG_REVIEW_S) = 0 →
      s.cur.cal.reviewAt ≠ some s.cur.gtime → s.cur.cal.laser[k].n ≠ 0 → s.cur.flag (pgOps k) PG_STAT_STALE = false →
      (s.cur.get pgAge AGE_CFG_LASER_SPREAD : Int) * (s.cur.get pgAge AGE_CFG_LASER_SPREAD : Int) * (s.cur.cal.laser[k].n * s.cur.cal.laser[k].n) ≤ (s.cur.cal.laser[k].n * s.cur.cal.laser[k].cc - s.cur.cal.laser[k].c * s.cur.cal.laser[k].c : Int) →
      0 < (s.cur.cal.laser[k].n * s.cur.cal.laser[k].cc - s.cur.cal.laser[k].c * s.cur.cal.laser[k].c : Int) →
      (s.cur.cal.laser[k].n * s.cur.cal.laser[k].cm - s.cur.cal.laser[k].c * s.cur.cal.laser[k].m : Int) = 0 →
      ∃ t, exec (.review) s = .next t
      ∧ t.cur.cal = { s.cur.cal with laser := Vector.replicate 4 {}, spin := Vector.replicate 4 (0, 0), samples := [], reviewAt := some s.cur.gtime }
      ∧ t.cur.flag (pgMplan) MPLAN_IRQ_REVIEW = true ∧ (s.vis = s.cur → t.vis = t.cur)
      ∧ t.cur.rd (pgAgeb + 16 * (0x20 + k.val) + 8) = BitVec.ofNat 32 (1 * 2 ^ 31 + min 0xFFFF s.cur.cal.laser[k].n)
      ∧ t.cur.rd (pgAgeb + 16 * (0x24 + k.val) + 8) = BitVec.ofNat 32 (1 * 2 ^ 31 + min 0xFFFF s.cur.cal.laser[k].n)
      ∧ t.cur.rd (pgAgeb + 16 * (0x24 + k.val) + 0) = 0
      ∧ { t.cur with regs := s.cur.regs, irqSet := s.cur.irqSet, fresh := s.cur.fresh, cal := s.cur.cal } = s.cur) ∧
  (∀ (s : State),
      s.cur.gtime % 256 ≠ 0 ∨ s.cur.gtime / 256 % max 1 (s.cur.get pgMplan MP_CFG_REVIEW_S) ≠ 0 ∨ s.cur.cal.reviewAt = some s.cur.gtime →
      ∃ t, exec (.review) s = .next t ∧ t.cur = s.cur
      ∧ { t.cur with regs := s.cur.regs, irqSet := s.cur.irqSet, fresh := s.cur.fresh, cal := s.cur.cal } = s.cur) ∧
  (∀ (i : Fin 64) (s : State), bit (s.vis.rd (pgAgeb + 16 * i.val + 8)).toNat 31 = true → ∃ t, exec (.baseline) s = .next t
      ∧ t.cur.rd (pgAgeb + 16 * i.val + 4) = s.vis.rd (pgAgeb + 16 * i.val + 0)
      ∧ (∀ a, (∀ j : Fin 64, a ≠ pgAgeb + 16 * j.val + 4) → t.cur.rd a = s.cur.rd a) ∧ t.vis = s.vis
      ∧ { t.cur with regs := s.cur.regs } = s.cur) ∧
  (∀ (i : Fin 64) (s : State), bit (s.vis.rd (pgAgeb + 16 * i.val + 8)).toNat 31 = false → ∃ t, exec (.baseline) s = .next t
      ∧ t.cur.rd (pgAgeb + 16 * i.val + 4) = s.cur.rd (pgAgeb + 16 * i.val + 4) ∧ t.vis = s.vis
      ∧ { t.cur with regs := s.cur.regs } = s.cur) ∧
  (∀ (r : Requester) (v : Word) (bad : Option (Fin 256)) (s : State), s.cur.flag pgMplan MP_STAT_APPLYING = false →
      bit v.toNat 29 = false →
      (s.vis.checkPlan (bad.map (·.val)) ((List.range ((s.cur.put pgMplan MP_CTL_LEN (bits v.toNat 0 9)).put pgMplan MP_CTL_AVS_EN (bits v.toNat 30 1)).planLen).map fun i => ((s.cur.put pgMplan MP_CTL_LEN (bits v.toNat 0 9)).put pgMplan MP_CTL_AVS_EN (bits v.toNat 30 1)).planEntry (s.cur.get64 pgMplan MP_PLAN_BASE_LO MP_PLAN_BASE_HI / 16 * 16 + 16 * i)) 0 [] = none) →
      ∃ t, exec (.planSubmit r v bad) s = .next t
      ∧ (t.cur.cal = { s.cur.cal with plan := some (((List.range ((s.cur.put pgMplan MP_CTL_LEN (bits v.toNat 0 9)).put pgMplan MP_CTL_AVS_EN (bits v.toNat 30 1)).planLen).map fun i => ((s.cur.put pgMplan MP_CTL_LEN (bits v.toNat 0 9)).put pgMplan MP_CTL_AVS_EN (bits v.toNat 30 1)).planEntry (s.cur.get64 pgMplan MP_PLAN_BASE_LO MP_PLAN_BASE_HI / 16 * 16 + 16 * i)).map (·.1)) })
      ∧ t.cur.get pgMplan MP_STAT_RESULT = 0 ∧ t.cur.get pgMplan MP_CTL_LEN = bits v.toNat 0 9 ∧ t.vis = s.vis
      ∧ { t.cur with regs := s.cur.regs, cal := s.cur.cal } = s.cur
      ∧ (∀ a, a ≠ pgMplan + MP_CTL.off → a ≠ pgMplan + MP_STAT.off → t.cur.rd a = s.cur.rd a)) ∧
  (∀ (r : Requester) (v : Word) (bad : Option (Fin 256)) (x y : Nat) (s : State), s.cur.flag pgMplan MP_STAT_APPLYING = false →
      bit v.toNat 29 = false →
      (s.vis.checkPlan (bad.map (·.val)) ((List.range ((s.cur.put pgMplan MP_CTL_LEN (bits v.toNat 0 9)).put pgMplan MP_CTL_AVS_EN (bits v.toNat 30 1)).planLen).map fun i => ((s.cur.put pgMplan MP_CTL_LEN (bits v.toNat 0 9)).put pgMplan MP_CTL_AVS_EN (bits v.toNat 30 1)).planEntry (s.cur.get64 pgMplan MP_PLAN_BASE_LO MP_PLAN_BASE_HI / 16 * 16 + 16 * i)) 0 [] = some (x, y)) →
      ∃ t, exec (.planSubmit r v bad) s = .next t ∧ t.cur.get pgMplan MP_STAT_RESULT = x % 2 ^ 8
      ∧ t.cur.get pgMplan MP_STAT_ENTRY = y % 2 ^ 8 ∧ t.cur.flag (pgMplan) MPLAN_IRQ_REJECTED = true
      ∧ t.cur.fj.staged = s.cur.fj.staged ++ [{ gtime := s.cur.gtime48, pgId := pgIdOf pgMplan, code := 0x0F02, deg := false, flt := false, data := [x % 2 ^ 32, y % 2 ^ 32] }]
      ∧ t.vis = s.vis ∧ { t.cur with regs := s.cur.regs, irqSet := s.cur.irqSet, fj := s.cur.fj } = s.cur
      ∧ (∀ a, a ≠ pgMplan + MP_CTL.off → a ≠ pgMplan + MP_STAT.off → a ≠ pgMplan + PG_IRQ_RAW.off → t.cur.rd a = s.cur.rd a)) ∧
  (∀ (r : Requester) (v : Word) (bad : Option (Fin 256)) (i : Fin 64) (s : State), bit v.toNat 29 = true →
      bit (s.vis.rd (pgAgeb + 16 * i.val + 8)).toNat 31 = true → ∃ t, exec (.planSubmit r v bad) s = .next t
      ∧ t.cur.rd (pgAgeb + 16 * i.val + 4) = s.vis.rd (pgAgeb + 16 * i.val + 0) ∧ t.vis = s.vis
      ∧ { t.cur with regs := s.cur.regs, irqSet := s.cur.irqSet, fj := s.cur.fj, cal := s.cur.cal } = s.cur) ∧
  (∀ (r : Requester) (v : Word) (bad : Option (Fin 256)) (s : State), bit v.toNat 29 = false →
      s.cur.flag pgMplan MP_STAT_APPLYING = true → ∃ t, exec (.planSubmit r v bad) s = .next t
      ∧ (s.cur.flag pgMplan PG_ERR_INFO_VALID = false → t.cur.get pgMplan PG_ERR_INFO_CODE = ErrCode.planBusy.value)
      ∧ t.vis = s.vis ∧ { t.cur with regs := s.cur.regs } = s.cur
      ∧ (∀ a, a ≠ pgMplan + MP_CTL.off → a ≠ pgMplan + PG_ERR_INFO.off → a ≠ pgMplan + PG_ERR_ADDR_LO.off → a ≠ pgMplan + PG_ERR_ADDR_HI.off → a ≠ pgMplan + PG_ERR_COUNT.off → t.cur.rd a = s.cur.rd a)) ∧
  (∀ (n : Nat) (s : State), s.vis.cal.plan = some [⟨1, 0, 0, n⟩] → s.cur.gtime % 256 = 0 → s.cur.cal.held = [] →
      s.cur.cal.derate = none → ([0, 1].all (fun (e : Nat) => (s.cur.engine e).commits.isEmpty) = true) →
      ∃ t, exec (.planApply) s = .next t ∧ t.cur.cal = { s.cur.cal with plan := none }
      ∧ t.cur.flag (pgMplan) MP_STAT_APPLYING = false ∧ t.cur.flag (pgMplan) MPLAN_IRQ_APPLIED = true
      ∧ (s.vis = s.cur → t.vis = t.cur) ∧ t.cur.get pgMplan MP_AVS_BND_VMIN_MV = bits n 0 10
      ∧ t.cur.get pgMplan MP_AVS_BND_VMAX_MV = bits n 16 10 ∧ t.cur.get pgMplan MP_AVS_BND_SLACK_PS = bits n 32 9
      ∧ (t.cur.get pgMplan MP_AVS_VREQ_MV = (if s.cur.flag pgMplan MP_CTL_AVS_EN = true then clampN (bits n 0 10) (bits n 16 10) (s.cur.get pgMplan MP_AVS_VREQ_MV) % 2 ^ MP_AVS_VREQ_MV.width else s.cur.get pgMplan MP_AVS_VREQ_MV))
      ∧ { t.cur with regs := s.cur.regs, irqSet := s.cur.irqSet, cal := s.cur.cal } = s.cur
      ∧ (∀ a, a ≠ pgMplan + MP_STAT.off → a ≠ pgMplan + PG_IRQ_RAW.off → a ≠ pgMplan + MP_AVS_BND.off → a ≠ pgMplan + MP_AVS.off → t.cur.rd a = s.cur.rd a)) ∧
  (∀ (n : Nat) (s : State), s.vis.cal.plan = some [⟨2, 0, 0, n⟩] → s.cur.gtime % 256 = 0 → s.cur.cal.held = [] →
      s.cur.cal.derate = none → ([0, 1].all (fun (e : Nat) => (s.cur.engine e).commits.isEmpty) = true) →
      s.cur.get pgRsv RSV_FACTORS_DERATE_PM ≤ bits n 0 10 → ∃ t, exec (.planApply) s = .next t
      ∧ t.cur.cal = { s.cur.cal with plan := none } ∧ t.cur.flag (pgMplan) MP_STAT_APPLYING = false
      ∧ t.cur.flag (pgMplan) MPLAN_IRQ_APPLIED = true ∧ (s.vis = s.cur → t.vis = t.cur)
      ∧ t.cur.get pgRsv RSV_FACTORS_DERATE_PM = bits n 0 10
      ∧ { t.cur with regs := s.cur.regs, irqSet := s.cur.irqSet, cal := s.cur.cal } = s.cur
      ∧ (∀ a, a ≠ pgMplan + MP_STAT.off → a ≠ pgMplan + PG_IRQ_RAW.off → a ≠ pgRsv + RSV_FACTORS.off → t.cur.rd a = s.cur.rd a)) ∧
  (∀ (n : Nat) (s : State), s.vis.cal.plan = some [⟨2, 0, 0, n⟩] → s.cur.gtime % 256 = 0 →
      bits n 0 10 < s.cur.get pgRsv RSV_FACTORS_DERATE_PM → ∃ t, exec (.planApply) s = .next t
      ∧ t.cur.flag (pgMplan) MP_STAT_APPLYING = true ∧ (s.vis = s.cur → t.vis = t.cur)
      ∧ t.cur.cal = { s.cur.cal with derate := some (bits n 0 10), plan := none }
      ∧ { t.cur with regs := s.cur.regs, cal := s.cur.cal } = s.cur ∧ (∀ a, a ≠ pgMplan + MP_STAT.off → t.cur.rd a = s.cur.rd a)) ∧
  (∀ (b : Fin 4) (x : Fin 16) (n : Nat) (s : State), s.vis.cal.plan = some [⟨3, b.val, x.val, n⟩] → s.cur.gtime % 256 = 0 →
      s.cur.cal.held = [] → s.cur.cal.derate = none → ([0, 1].all (fun (e : Nat) => (s.cur.engine e).commits.isEmpty) = true) →
      ((s.vis.fls.accesses.any fun a => a.bay == b.val && (a.step == 2 || a.step == 3)) = false) →
      ∃ t, exec (.planApply) s = .next t ∧ t.cur.cal = { s.cur.cal with plan := none }
      ∧ t.cur.flag (pgMplan) MP_STAT_APPLYING = false ∧ t.cur.flag (pgMplan) MPLAN_IRQ_APPLIED = true
      ∧ (s.vis = s.cur → t.vis = t.cur)
      ∧ t.cur.fls = { s.cur.fls with maps := s.cur.fls.maps.set b { (s.cur.bmap b) with retry := (s.cur.bmap b).retry.setIfInBounds x n } }
      ∧ { t.cur with regs := s.cur.regs, irqSet := s.cur.irqSet, fls := s.cur.fls, cal := s.cur.cal } = s.cur
      ∧ (∀ a, a ≠ pgMplan + MP_STAT.off → a ≠ pgMplan + PG_IRQ_RAW.off → t.cur.rd a = s.cur.rd a)) ∧
  (∀ (b : Fin 4) (x : Fin 16) (n : Nat) (s : State), s.vis.cal.plan = some [⟨3, b.val, (0x8000 + x.val), n⟩] →
      s.cur.gtime % 256 = 0 → s.cur.cal.held = [] → s.cur.cal.derate = none →
      ([0, 1].all (fun (e : Nat) => (s.cur.engine e).commits.isEmpty) = true) →
      ((s.vis.fls.accesses.any fun a => a.bay == b.val && (a.step == 2 || a.step == 3)) = false) →
      ∃ t, exec (.planApply) s = .next t ∧ t.cur.cal = { s.cur.cal with plan := none }
      ∧ t.cur.flag (pgMplan) MP_STAT_APPLYING = false ∧ t.cur.flag (pgMplan) MPLAN_IRQ_APPLIED = true
      ∧ (s.vis = s.cur → t.vis = t.cur)
      ∧ (t.cur.fls = { s.cur.fls with maps := s.cur.fls.maps.set b { (s.cur.bmap b) with retry := (s.cur.bmap b).retry.setIfInBounds x n, learned := (s.cur.bmap b).learned.filter fun y => y.2 != x.val } })
      ∧ { t.cur with regs := s.cur.regs, irqSet := s.cur.irqSet, fls := s.cur.fls, cal := s.cur.cal } = s.cur
      ∧ (∀ a, a ≠ pgMplan + MP_STAT.off → a ≠ pgMplan + PG_IRQ_RAW.off → t.cur.rd a = s.cur.rd a)) ∧
  (∀ (b : Fin 4) (n : Nat) (s : State), s.vis.cal.plan = some [⟨4, b.val, 0, n⟩] → s.cur.gtime % 256 = 0 → s.cur.cal.held = [] →
      s.cur.cal.derate = none → ([0, 1].all (fun (e : Nat) => (s.cur.engine e).commits.isEmpty) = true) →
      ∃ t, exec (.planApply) s = .next t ∧ t.cur.cal = { s.cur.cal with plan := none }
      ∧ t.cur.flag (pgMplan) MP_STAT_APPLYING = false ∧ t.cur.flag (pgMplan) MPLAN_IRQ_APPLIED = true
      ∧ (s.vis = s.cur → t.vis = t.cur) ∧ t.cur.get (pgFstr b) FSTR_THRESH_PE_LIMIT = bits n 0 16
      ∧ { t.cur with regs := s.cur.regs, irqSet := s.cur.irqSet, cal := s.cur.cal } = s.cur
      ∧ (∀ a, a ≠ pgMplan + MP_STAT.off → a ≠ pgMplan + PG_IRQ_RAW.off → a ≠ pgFstr b + FSTR_THRESH.off → t.cur.rd a = s.cur.rd a)) ∧
  (∀ (n : Nat) (s : State), s.vis.cal.plan = some [⟨5, 0, 0, n⟩] → s.cur.gtime % 256 = 0 → s.cur.cal.held = [] →
      s.cur.cal.derate = none → ([0, 1].all (fun (e : Nat) => (s.cur.engine e).commits.isEmpty) = true) →
      ∃ t, exec (.planApply) s = .next t ∧ t.cur.cal = { s.cur.cal with plan := none }
      ∧ t.cur.flag (pgMplan) MP_STAT_APPLYING = false ∧ t.cur.flag (pgMplan) MPLAN_IRQ_APPLIED = true
      ∧ (s.vis = s.cur → t.vis = t.cur)
      ∧ t.cur.get pgFint FINT_VERIFY_VERIFY_MAX_BITS = bits n 0 12 % 2 ^ FINT_VERIFY_VERIFY_MAX_BITS.width
      ∧ t.cur.get pgFint FINT_VERIFY_REFRESH_BITS = bits n 16 12 % 2 ^ FINT_VERIFY_REFRESH_BITS.width
      ∧ t.cur.get pgFint FINT_SCRUB_SCRUB_H = bits n 32 16 % 2 ^ FINT_SCRUB_SCRUB_H.width
      ∧ { t.cur with regs := s.cur.regs, irqSet := s.cur.irqSet, cal := s.cur.cal } = s.cur
      ∧ (∀ a, a ≠ pgMplan + MP_STAT.off → a ≠ pgMplan + PG_IRQ_RAW.off → a ≠ pgFint + FINT_VERIFY.off → a ≠ pgFint + FINT_SCRUB.off → t.cur.rd a = s.cur.rd a)) ∧
  (∀ (p : Fin 4) (n : Nat) (s : State), s.vis.cal.plan = some [⟨6, p.val, 0, n⟩] → s.cur.gtime % 256 = 0 → s.cur.cal.held = [] →
      s.cur.cal.derate = none → ([0, 1].all (fun (e : Nat) => (s.cur.engine e).commits.isEmpty) = true) →
      s.vis.get (pgOwp p) WP_JOB_STAT_STATE ≠ 2 → ∃ t, exec (.planApply) s = .next t
      ∧ t.cur.cal = { s.cur.cal with plan := none } ∧ t.cur.flag (pgMplan) MP_STAT_APPLYING = false
      ∧ t.cur.flag (pgMplan) MPLAN_IRQ_APPLIED = true ∧ (s.vis = s.cur → t.vis = t.cur)
      ∧ t.cur.get (pgOwp p) WP_CEIL_CEIL_PS = bits n 0 10 ∧ t.cur.get (pgOwp p) WP_CEIL_CEIL_PW = bits n 16 10
      ∧ { t.cur with regs := s.cur.regs, irqSet := s.cur.irqSet, cal := s.cur.cal } = s.cur
      ∧ (∀ a, a ≠ pgMplan + MP_STAT.off → a ≠ pgMplan + PG_IRQ_RAW.off → a ≠ pgOwp p + WP_CEIL.off → t.cur.rd a = s.cur.rd a)) ∧
  (∀ (p : Fin 4) (n : Nat) (s : State), s.vis.cal.plan = some [⟨6, p.val, 0, n⟩] → s.cur.gtime % 256 = 0 →
      s.vis.get (pgOwp p) WP_JOB_STAT_STATE = 2 → ∃ t, exec (.planApply) s = .next t
      ∧ t.cur.flag (pgMplan) MP_STAT_APPLYING = true ∧ (s.vis = s.cur → t.vis = t.cur)
      ∧ t.cur.flag (pgMplan) MP_STAT_HELD = true
      ∧ t.cur.cal = { s.cur.cal with plan := none, held := s.cur.cal.held ++ [⟨6, p.val, 0, n⟩] }
      ∧ { t.cur with regs := s.cur.regs, cal := s.cur.cal } = s.cur ∧ (∀ a, a ≠ pgMplan + MP_STAT.off → t.cur.rd a = s.cur.rd a)) ∧
  (∀ (e : Fin 2) (x n : Nat) (s : State), s.vis.cal.plan = some [⟨7, e.val, x, n⟩] → s.cur.gtime % 256 = 0 →
      s.vis.get (pgOps (2 * e.val + slotPort (s.vis.slotWords e.val (bits x 0 6)))) OPS_STAT_STATE ≠ 4 →
      s.vis.get (pgOps (2 * e.val + slotPort (s.vis.slotWords e.val (bits x 0 6)))) OPS_STAT_STATE ≠ 5 →
      (s.cur.engine e).commits = [] → ∃ t, exec (.planApply) s = .next t ∧ t.cur.flag (pgMplan) MP_STAT_APPLYING = true
      ∧ (s.vis = s.cur → t.vis = t.cur)
      ∧ (t.cur.engine e).commits = [{ slot := bits x 0 6, words := ((s.cur.slotWords e.val (bits x 0 6)).set (2 + bits x 8 3) (BitVec.ofNat 32 (bits n 0 32))).set 8 (BitVec.ofNat 32 (setBits (nthD (s.cur.slotWords e.val (bits x 0 6)) 8 0).toNat (5 * bits x 8 3) 5 (bits n 32 5))), clr := false }]
      ∧ t.cur.get (pgEll e) ELL_SLOT_SEL_SLOT = bits x 0 6
      ∧ (t.cur.engine e).shadow = ((s.cur.slotWords e.val (bits x 0 6)).set (2 + bits x 8 3) (BitVec.ofNat 32 (bits n 0 32))).set 8 (BitVec.ofNat 32 (setBits (nthD (s.cur.slotWords e.val (bits x 0 6)) 8 0).toNat (5 * bits x 8 3) 5 (bits n 32 5)))
      ∧ { t.cur with regs := s.cur.regs, ell := s.cur.ell, cal := s.cur.cal } = s.cur
      ∧ (∀ a, a ≠ pgMplan + MP_STAT.off → a ≠ pgEll e + ELL_SLOT_SEL.off → t.cur.rd a = s.cur.rd a)) ∧
  (∀ (s : State), s.vis.cal.plan = none ∨ s.cur.gtime % 256 ≠ 0 → ∃ t, exec (.planApply) s = .next t ∧ t.cur = s.cur
      ∧ t.vis = s.vis) ∧
  (∀ (l : List PlanItem) (s : State), s.vis.cal.plan = some l → s.cur.gtime % 256 = 0 → ∃ t, exec (.planApply) s = .next t
      ∧ t.cur.cal.held = s.cur.cal.held ++ (planOrder l).filter s.vis.heldBack ∧ t.cur.cal.plan = none
      ∧ (s.vis = s.cur → t.vis = t.cur)
      ∧ { t.cur with regs := s.cur.regs, irqSet := s.cur.irqSet, fls := s.cur.fls, ell := s.cur.ell, cal := s.cur.cal } = s.cur) ∧
  (∀ (p : Fin 4) (n : Nat) (s : State), s.cur.cal.held = [⟨6, p.val, 0, n⟩] → s.vis.get (pgOwp p) WP_JOB_STAT_STATE ≠ 2 →
      s.cur.flag pgMplan MP_STAT_APPLYING = true → s.cur.flag pgMplan MP_STAT_DERATE_PENDING = false → s.cur.cal.derate = none →
      ([0, 1].all (fun (e : Nat) => (s.cur.engine e).commits.isEmpty) = true) → ∃ t, exec (.heldItemApply) s = .next t
      ∧ t.cur.get (pgOwp p) WP_CEIL_CEIL_PS = bits n 0 10 ∧ t.cur.get (pgOwp p) WP_CEIL_CEIL_PW = bits n 16 10
      ∧ t.cur.cal = { s.cur.cal with held := [] } ∧ t.cur.flag (pgMplan) MP_STAT_HELD = false
      ∧ t.cur.flag (pgMplan) MP_STAT_APPLYING = false ∧ t.cur.flag (pgMplan) MPLAN_IRQ_APPLIED = true
      ∧ (s.vis = s.cur → t.vis = t.cur) ∧ { t.cur with regs := s.cur.regs, irqSet := s.cur.irqSet, cal := s.cur.cal } = s.cur
      ∧ (∀ a, a ≠ pgOwp p + WP_CEIL.off → a ≠ pgMplan + MP_STAT.off → a ≠ pgMplan + PG_IRQ_RAW.off → t.cur.rd a = s.cur.rd a)) ∧
  (∀ (s : State), s.cur.cal.held ≠ [] → s.cur.cal.held.all s.vis.heldBack = true → ∃ t, exec (.heldItemApply) s = .next t
      ∧ t.cur.cal = s.cur.cal ∧ t.cur.flag (pgMplan) MP_STAT_HELD = true ∧ (s.vis = s.cur → t.vis = t.cur)
      ∧ { t.cur with regs := s.cur.regs, cal := s.cur.cal } = s.cur ∧ (∀ a, a ≠ pgMplan + MP_STAT.off → t.cur.rd a = s.cur.rd a)) ∧
  (∀ (s : State), s.cur.cal.held = [] → ∃ t, exec (.heldItemApply) s = .next t ∧ t.cur = s.cur)

/-- After PERST_N has risen and the fuses are loaded the link comes up: DL_UP, SPEED, WIDTH, LINK_UP; WAKE_HOST and
PCIE_WAKE_N clear. WAKE_HOST drives PCIE_WAKE_N only out of DL_Active. A failed completion is counted by its kind.
Vector 64 is sent at most once a Stone. A write to a status page records HOST_WRITE; one to the MSI-X table is stored,
and unmasking a pending vector sends it. Unaligned accesses answer Unsupported Request. Commands that it says to
complete, each on the conditions of its clauses: pcieLinkUp, perstRelease, completionError, wakeHost, faultVector,
bar2Write, barUnalignedAccess, pmeTurnOff. -/
def Obligations.PcieEvents : Prop :=
  (∀ (speed width : BitVec 4) (s : State), 1 ≤ speed.toNat ∧ speed.toNat ≤ 4 ∧ width.toNat ∈ [1, 2, 4, 8] →
      s.cur.flag pgPcie PCIE_STAT_DL_UP = false → s.cur.flag pgPcie PCIE_STAT_PERST = false → s.cur.su.fused = true →
      ∃ t, exec (.pcieLinkUp speed width) s = .next t ∧ t.cur.flag pgPcie PCIE_STAT_DL_UP = true
      ∧ t.cur.get pgPcie PCIE_STAT_SPEED = speed.toNat ∧ t.cur.get pgPcie PCIE_STAT_WIDTH = width.toNat
      ∧ t.cur.flag pgPcie PCIE_STAT_L2_READY = false ∧ t.cur.flag pgPcie PCIE_IRQ_LINK_UP = true
      ∧ t.cur.flag pgPcie PCIE_CTL_WAKE_HOST = false ∧ t.cur.lnk = { s.cur.lnk with wakeLow := false } ∧ t.vis = s.vis
      ∧ { t.cur with regs := s.cur.regs, irqSet := s.cur.irqSet, lnk := s.cur.lnk } = s.cur
      ∧ (∀ a, a ≠ pgPcie + PCIE_STAT.off → a ≠ pgPcie + PCIE_CTL.off → a ≠ pgPcie + PG_IRQ_RAW.off → t.cur.rd a = s.cur.rd a)) ∧
  (∀ (speed width : BitVec 4) (s : State),
      s.cur.flag pgPcie PCIE_STAT_PERST = true ∨ s.cur.su.fused = false ∨ s.cur.flag pgPcie PCIE_STAT_DL_UP = true ∨ ¬ (1 ≤ speed.toNat ∧ speed.toNat ≤ 4 ∧ width.toNat ∈ [1, 2, 4, 8]) →
      ∃ t, exec (.pcieLinkUp speed width) s = .next t ∧ t.cur = s.cur ∧ t.vis = s.vis
      ∧ { t.cur with regs := s.cur.regs, irqSet := s.cur.irqSet, lnk := s.cur.lnk } = s.cur) ∧
  (∀ (n : Nat) (s : State), s.cur.flag pgPcie PCIE_STAT_PERST = true → s.cur.pwr.phase = .awake → s.cur.pwr.idle = false →
      ∃ t, exec (.perstRelease n) s = .next t ∧ t.cur.flag pgPcie PCIE_STAT_PERST = false ∧ t.vis = s.vis
      ∧ { t.cur with regs := s.cur.regs } = s.cur ∧ (∀ a, a ≠ pgPcie + PCIE_STAT.off → t.cur.rd a = s.cur.rd a)) ∧
  (∀ (n : Nat) (s : State), s.cur.flag pgPcie PCIE_STAT_PERST = true → s.cur.pwr.phase = .asleep →
      s.cur.wakeSources s.cur.pwr.target 4 ≠ 0 → ∃ t, exec (.perstRelease n) s = .next t
      ∧ t.cur.flag pgPcie PCIE_STAT_PERST = false ∧ t.cur.pwr.phase = .waking 12 t.cur.gtime
      ∧ t.cur.tb.gtime = BitVec.ofNat 64 (s.cur.pwr.gtimeCommit + (bridge (max 1 n) (s.cur.getI pgPwr PWR_AON_ERR_VALUE) s.cur.pwr.carry (s.cur.get pgPwr PWR_CFG_AON_TOL_PPM)).1)
      ∧ (s.vis = s.cur → t.vis = t.cur)
      ∧ { t.cur with regs := s.cur.regs, irqSet := s.cur.irqSet, aon := s.cur.aon, fresh := s.cur.fresh, tb := s.cur.tb, fj := s.cur.fj, pwr := s.cur.pwr, scr := s.cur.scr, cal := s.cur.cal } = s.cur) ∧
  (∀ (n : Nat) (s : State), s.cur.flag pgPcie PCIE_STAT_PERST = false → ∃ t, exec (.perstRelease n) s = .next t ∧ t.cur = s.cur
      ∧ { t.cur with regs := s.cur.regs, irqSet := s.cur.irqSet, aon := s.cur.aon, fresh := s.cur.fresh, tb := s.cur.tb, fj := s.cur.fj, pwr := s.cur.pwr, scr := s.cur.scr, cal := s.cur.cal } = s.cur) ∧
  (∀ (n : Nat) (s : State), ∃ t, exec (.completionError .timeout none n) s = .next t
      ∧ t.cur.get pgPcie PCIE_ERR_CPL_TO = satInc 0xFFFF (s.cur.get pgPcie PCIE_ERR_CPL_TO) ∧ t.vis = s.vis
      ∧ { t.cur with regs := s.cur.regs, host := s.cur.host, fresh := s.cur.fresh } = s.cur
      ∧ (∀ a, a ≠ pgPcie + PCIE_ERR.off → t.cur.rd a = s.cur.rd a)) ∧
  (∀ (n : Nat) (s : State), ∃ t, exec (.completionError .poisoned none n) s = .next t
      ∧ t.cur.get pgPcie PCIE_ERR_POISONED = satInc 0xFFFF (s.cur.get pgPcie PCIE_ERR_POISONED) ∧ t.vis = s.vis
      ∧ { t.cur with regs := s.cur.regs, host := s.cur.host, fresh := s.cur.fresh } = s.cur
      ∧ (∀ a, a ≠ pgPcie + PCIE_ERR.off → t.cur.rd a = s.cur.rd a)) ∧
  (∀ (n : Nat) (s : State), ∃ t, exec (.completionError .unsupported none n) s = .next t
      ∧ t.cur.get pgPcie PCIE_CPL_ERR_UR = satInc 0xFFFF (s.cur.get pgPcie PCIE_CPL_ERR_UR) ∧ t.vis = s.vis
      ∧ { t.cur with regs := s.cur.regs, host := s.cur.host, fresh := s.cur.fresh } = s.cur
      ∧ (∀ a, a ≠ pgPcie + PCIE_CPL_ERR.off → t.cur.rd a = s.cur.rd a)) ∧
  (∀ (n : Nat) (s : State), ∃ t, exec (.completionError .abort none n) s = .next t
      ∧ t.cur.get pgPcie PCIE_CPL_ERR_CA = satInc 0xFFFF (s.cur.get pgPcie PCIE_CPL_ERR_CA) ∧ t.vis = s.vis
      ∧ { t.cur with regs := s.cur.regs, host := s.cur.host, fresh := s.cur.fresh } = s.cur
      ∧ (∀ a, a ≠ pgPcie + PCIE_CPL_ERR.off → t.cur.rd a = s.cur.rd a)) ∧
  (∀ (k : CplError) (lsn n : Nat) (s : State), (∃ x ∈ s.cur.ldg.tasks, x.lsn = lsn ∧ x.opc = .append ∧ x.fetching = true) →
      ∃ t, exec (.completionError k (some lsn) n) s = .next t
      ∧ t.cur = (s.cur.inc pgPcie (match k with | .timeout => PCIE_ERR_CPL_TO | .poisoned => PCIE_ERR_POISONED | .unsupported => PCIE_CPL_ERR_UR | .abort => PCIE_CPL_ERR_CA)).voidClose lsn n true
      ∧ t.vis = s.vis
      ∧ { t.cur with regs := s.cur.regs, mem := s.cur.mem, host := s.cur.host, fresh := s.cur.fresh, fj := s.cur.fj, ldg := s.cur.ldg, stg := s.cur.stg } = s.cur) ∧
  (∀ (k : CplError) (lsn n : Nat) (x : TaskSt) (s : State), s.cur.task lsn = some x → x.opc = .append → x.fetching = true →
      ∃ t, exec (.completionError k (some lsn) n) s = .next t
      ∧ (∃ r ∈ t.cur.fj.staged, r.code = 0x0101 ∧ r.pgId = pgIdOf pgLdg ∧ r.data = [x.lane % 2 ^ 32, lsn % 2 ^ 32, lsn / 2 ^ 32 % 2 ^ 32, (x.length - min n (x.length - 1)) % 2 ^ 32])
      ∧ t.vis = s.vis
      ∧ { t.cur with regs := s.cur.regs, mem := s.cur.mem, host := s.cur.host, fresh := s.cur.fresh, fj := s.cur.fj, ldg := s.cur.ldg, stg := s.cur.stg } = s.cur) ∧
  (∀ (k : CplError) (lsn n : Nat) (s : State), (¬ (∃ x ∈ s.cur.ldg.tasks, x.lsn = lsn ∧ x.opc = .append ∧ x.fetching = true)) →
      ∃ t, exec (.completionError k (some lsn) n) s = .next t
      ∧ t.cur = s.cur.inc pgPcie (match k with | .timeout => PCIE_ERR_CPL_TO | .poisoned => PCIE_ERR_POISONED | .unsupported => PCIE_CPL_ERR_UR | .abort => PCIE_CPL_ERR_CA)
      ∧ t.vis = s.vis
      ∧ { t.cur with regs := s.cur.regs, mem := s.cur.mem, host := s.cur.host, fresh := s.cur.fresh, fj := s.cur.fj, ldg := s.cur.ldg, stg := s.cur.stg } = s.cur) ∧
  (∀ (s : State), s.cur.flag pgPcie PCIE_STAT_DL_UP = false → ∃ t, exec (.wakeHost) s = .next t
      ∧ t.cur.flag pgPcie PCIE_CTL_WAKE_HOST = true ∧ t.cur.lnk = { s.cur.lnk with wakeLow := true } ∧ t.vis = s.vis
      ∧ { t.cur with regs := s.cur.regs, lnk := s.cur.lnk } = s.cur ∧ (∀ a, a ≠ pgPcie + PCIE_CTL.off → t.cur.rd a = s.cur.rd a)) ∧
  (∀ (s : State), s.cur.flag pgPcie PCIE_STAT_DL_UP = true → ∃ t, exec (.wakeHost) s = .next t ∧ t.cur = s.cur ∧ t.vis = s.vis
      ∧ { t.cur with regs := s.cur.regs, lnk := s.cur.lnk } = s.cur) ∧
  (∀ (s : State), s.cur.fj.vectorDue = true → s.cur.fj.vectorStone ≠ some (s.cur.gtime / 256) →
      (tabGet msixDflt s.cur.lnk.msixTab 259).toNat % 2 = 0 → ∃ t, exec (.faultVector) s = .next t
      ∧ t.cur.fj = { s.cur.fj with vectorDue := false, vectorStone := some (s.cur.gtime / 256), msix := s.cur.fj.msix ++ [64] }
      ∧ (s.vis = s.cur → t.vis = t.cur) ∧ { t.cur with fj := s.cur.fj } = s.cur) ∧
  (∀ (s : State), s.cur.fj.vectorDue = true → s.cur.fj.vectorStone ≠ some (s.cur.gtime / 256) →
      (tabGet msixDflt s.cur.lnk.msixTab 259).toNat % 2 = 1 → ∃ t, exec (.faultVector) s = .next t
      ∧ t.cur.fj = { s.cur.fj with vectorDue := false, vectorStone := some (s.cur.gtime / 256) }
      ∧ t.cur.lnk = { s.cur.lnk with msixPend := setBits s.cur.lnk.msixPend 64 1 1 }
      ∧ { t.cur with fj := s.cur.fj, lnk := s.cur.lnk } = s.cur) ∧
  (∀ (s : State), s.cur.fj.vectorDue = false ∨ s.cur.fj.vectorStone = some (s.cur.gtime / 256) →
      ∃ t, exec (.faultVector) s = .next t ∧ t.cur = s.cur ∧ { t.cur with fj := s.cur.fj, lnk := s.cur.lnk } = s.cur) ∧
  (∀ (o : BitVec 16) (v : Word) (p : Nat) (s : State), bar2Page o.toNat = some p → ∃ t, exec (.bar2Write o v) s = .next t
      ∧ (s.cur.flag p PG_ERR_INFO_VALID = false → t.cur.get p PG_ERR_INFO_CODE = ErrCode.hostWrite.value ∧ t.cur.get p PG_ERR_ADDR_HI_REQ = 4)
      ∧ t.cur.get p PG_ERR_COUNT = satInc (2 ^ PG_ERR_COUNT.width - 1) (s.cur.get p PG_ERR_COUNT)
      ∧ (∀ a, a ≠ p + PG_ERR_INFO.off → a ≠ p + PG_ERR_ADDR_LO.off → a ≠ p + PG_ERR_ADDR_HI.off → a ≠ p + PG_ERR_COUNT.off → t.cur.rd a = s.cur.rd a)
      ∧ t.vis = s.vis ∧ { t.cur with regs := s.cur.regs } = s.cur) ∧
  (∀ (o : BitVec 16) (v : Word) (s : State), 0xE000 ≤ o.toNat → ((o.toNat - 0xE000) / 4) < 260 →
      ((o.toNat - 0xE000) / 4) % 4 ≠ 3 ∨ v.toNat % 2 = 1 ∨ bit s.cur.lnk.msixPend (((o.toNat - 0xE000) / 4) / 4) = false →
      ∃ t, exec (.bar2Write o v) s = .next t ∧ tabGet msixDflt t.cur.lnk.msixTab ((o.toNat - 0xE000) / 4) = v
      ∧ (∀ j, j ≠ ((o.toNat - 0xE000) / 4) → tabGet msixDflt t.cur.lnk.msixTab j = tabGet msixDflt s.cur.lnk.msixTab j)
      ∧ t.cur.lnk = { s.cur.lnk with msixTab := t.cur.lnk.msixTab } ∧ t.cur.fj = s.cur.fj ∧ t.vis = s.vis
      ∧ { t.cur with fj := s.cur.fj, lnk := s.cur.lnk } = s.cur) ∧
  (∀ (o : BitVec 16) (v : Word) (s : State), 0xE000 ≤ o.toNat → ((o.toNat - 0xE000) / 4) < 260 →
      ((o.toNat - 0xE000) / 4) % 4 = 3 → v.toNat % 2 = 0 → bit s.cur.lnk.msixPend (((o.toNat - 0xE000) / 4) / 4) = true →
      ∃ t, exec (.bar2Write o v) s = .next t ∧ tabGet msixDflt t.cur.lnk.msixTab ((o.toNat - 0xE000) / 4) = v
      ∧ (∀ j, j ≠ ((o.toNat - 0xE000) / 4) → tabGet msixDflt t.cur.lnk.msixTab j = tabGet msixDflt s.cur.lnk.msixTab j)
      ∧ t.cur.lnk = { s.cur.lnk with msixTab := t.cur.lnk.msixTab, msixPend := setBits s.cur.lnk.msixPend (((o.toNat - 0xE000) / 4) / 4) 1 0 }
      ∧ t.cur.fj = { s.cur.fj with msix := s.cur.fj.msix ++ [((o.toNat - 0xE000) / 4) / 4] } ∧ t.vis = s.vis
      ∧ { t.cur with fj := s.cur.fj, lnk := s.cur.lnk } = s.cur) ∧
  (∀ (s : State), ∃ t, exec (.barUnalignedAccess) s = .next t ∧ t.cur.bus = { rdata := 0, error := true }
      ∧ t.vis.bus = { rdata := 0, error := true } ∧ { t.cur with bus := s.cur.bus } = s.cur) ∧
  (∀ (s : State), s.cur.flag pgPcie PCIE_STAT_DL_UP = true → ∃ t, exec (.pmeTurnOff) s = .next t
      ∧ t.cur.flag pgPcie PCIE_STAT_L2_READY = true ∧ t.vis = s.vis ∧ { t.cur with regs := s.cur.regs } = s.cur
      ∧ (∀ a, a ≠ pgPcie + PCIE_STAT.off → t.cur.rd a = s.cur.rd a)) ∧
  (∀ (s : State), s.cur.flag pgPcie PCIE_STAT_DL_UP = false → ∃ t, exec (.pmeTurnOff) s = .next t ∧ t.cur = s.cur
      ∧ t.vis = s.vis ∧ { t.cur with regs := s.cur.regs } = s.cur)

/-- A received frame with a right length, FCS and address goes into the buffer of the descriptor at RX_PROD with length,
flags, status and timestamp; others and those without a free descriptor are dropped and counted; a wake pattern frame
raises WAKE_FRAME or wakes the device. A transmit descriptor is sent in order and written back. A CAN frame takes the
lowest filter that passes it and the next ring entry, or is lost; buffers are sent lowest identifier first; bus-off
and rejoining. Commands that it says to complete, each on the conditions of its clauses: ethFrameReceive,
ethFrameTransmit, ethRingCfgWrite, sgmiiLinkChange, canFrameReceive, canFrameTransmit, canBusOff, canBusOffRejoin. -/
def Obligations.NetworkFrames : Prop :=
  (∀ (frame : List Byte) (good fails : Bool) (back : Nat) (cycle : BitVec 12) (n : Nat) (s : State), s.cur.clockOn = true →
      s.cur.flag pgEth ETH_CTL_RX_EN = true → s.cur.enabled pgEth = true → 64 ≤ frame.length → frame.length ≤ 1522 →
      good = true → s.cur.ethPasses (frame.take (frame.length - 4)) = true →
      s.cur.wakeFrame (frame.take (frame.length - 4)) = false →
      s.cur.get pgEth ETH_RX_PROD_COUNT ≠ s.cur.get pgEth ETH_RX_FREE_COUNT → fails = false →
      (leNat (memRead s.cur.mem (s.cur.ethDesc ETH_RX_BASE_LO ETH_RX_BASE_HI (s.cur.get pgEth ETH_RING_CFG_RX_LOG2) (s.cur.get pgEth ETH_RX_PROD_COUNT)) 8)) + frame.length ≤ (s.cur.ethDesc ETH_RX_BASE_LO ETH_RX_BASE_HI (s.cur.get pgEth ETH_RING_CFG_RX_LOG2) (s.cur.get pgEth ETH_RX_PROD_COUNT)) ∨ (s.cur.ethDesc ETH_RX_BASE_LO ETH_RX_BASE_HI (s.cur.get pgEth ETH_RING_CFG_RX_LOG2) (s.cur.get pgEth ETH_RX_PROD_COUNT)) + 32 ≤ (leNat (memRead s.cur.mem (s.cur.ethDesc ETH_RX_BASE_LO ETH_RX_BASE_HI (s.cur.get pgEth ETH_RING_CFG_RX_LOG2) (s.cur.get pgEth ETH_RX_PROD_COUNT)) 8)) →
      ∃ t, exec (.ethFrameReceive frame good back cycle fails n) s = .next t
      ∧ memRead t.cur.mem (leNat (memRead s.cur.mem (s.cur.ethDesc ETH_RX_BASE_LO ETH_RX_BASE_HI (s.cur.get pgEth ETH_RING_CFG_RX_LOG2) (s.cur.get pgEth ETH_RX_PROD_COUNT)) 8)) (frame.length - 4) = (frame.take (frame.length - 4))
      ∧ memRead t.cur.mem ((s.cur.ethDesc ETH_RX_BASE_LO ETH_RX_BASE_HI (s.cur.get pgEth ETH_RING_CFG_RX_LOG2) (s.cur.get pgEth ETH_RX_PROD_COUNT)) + 8) 4 = leBytes 2 (frame.length - 4) ++ [BitVec.ofNat 8 (b2n (ptpFrame (frame.take (frame.length - 4))) * 4 + b2n (s.cur.flag pgEth ETH_CTL_PTP_EN) * 2), 0]
      ∧ (s.cur.flag pgEth ETH_CTL_PTP_EN = true → memRead t.cur.mem ((s.cur.ethDesc ETH_RX_BASE_LO ETH_RX_BASE_HI (s.cur.get pgEth ETH_RING_CFG_RX_LOG2) (s.cur.get pgEth ETH_RX_PROD_COUNT)) + 12) 12 = leBytes 2 (stamp (s.cur.gtime - back) cycle.toNat (-(s.cur.get pgEth ETH_PTP_LAT_INGRESS_NS : Nat))).2 ++ [0, 0] ++ leBytes 8 (stamp (s.cur.gtime - back) cycle.toNat (-(s.cur.get pgEth ETH_PTP_LAT_INGRESS_NS : Nat))).1)
      ∧ t.cur.get pgEth ETH_RX_PROD_COUNT = (s.cur.get pgEth ETH_RX_PROD_COUNT + 1) % 2 ^ 16
      ∧ (t.cur.get pgEth ETH_DROP_PTP_SEEN = (if ptpFrame (frame.take (frame.length - 4)) = true then satInc (2 ^ ETH_DROP_PTP_SEEN.width - 1) (s.cur.get pgEth ETH_DROP_PTP_SEEN) else s.cur.get pgEth ETH_DROP_PTP_SEEN))
      ∧ t.cur.get pgEth ETH_DROP_DROPPED = s.cur.get pgEth ETH_DROP_DROPPED ∧ t.cur.flag pgEth ETH_IRQ_RX = true
      ∧ (∀ a, (a < (leNat (memRead s.cur.mem (s.cur.ethDesc ETH_RX_BASE_LO ETH_RX_BASE_HI (s.cur.get pgEth ETH_RING_CFG_RX_LOG2) (s.cur.get pgEth ETH_RX_PROD_COUNT)) 8)) ∨ (leNat (memRead s.cur.mem (s.cur.ethDesc ETH_RX_BASE_LO ETH_RX_BASE_HI (s.cur.get pgEth ETH_RING_CFG_RX_LOG2) (s.cur.get pgEth ETH_RX_PROD_COUNT)) 8)) + frame.length - 4 ≤ a) → (a < (s.cur.ethDesc ETH_RX_BASE_LO ETH_RX_BASE_HI (s.cur.get pgEth ETH_RING_CFG_RX_LOG2) (s.cur.get pgEth ETH_RX_PROD_COUNT)) + 8 ∨ (s.cur.ethDesc ETH_RX_BASE_LO ETH_RX_BASE_HI (s.cur.get pgEth ETH_RING_CFG_RX_LOG2) (s.cur.get pgEth ETH_RX_PROD_COUNT)) + 24 ≤ a) → memGet t.cur.mem a = memGet s.cur.mem a)
      ∧ t.vis = s.vis ∧ { t.cur with regs := s.cur.regs, irqSet := s.cur.irqSet, mem := s.cur.mem } = s.cur
      ∧ (∀ a, a ≠ pgEth + ETH_RX_PROD.off → a ≠ pgEth + ETH_DROP.off → a ≠ pgEth + PG_IRQ_RAW.off → t.cur.rd a = s.cur.rd a)) ∧
  (∀ (frame : List Byte) (good fails : Bool) (back : Nat) (cycle : BitVec 12) (n : Nat) (s : State), s.cur.clockOn = true →
      s.cur.flag pgEth ETH_CTL_RX_EN = true → s.cur.enabled pgEth = true → 64 ≤ frame.length → frame.length ≤ 1522 →
      good = true → s.cur.ethPasses (frame.take (frame.length - 4)) = true →
      s.cur.wakeFrame (frame.take (frame.length - 4)) = false →
      s.cur.get pgEth ETH_RX_PROD_COUNT ≠ s.cur.get pgEth ETH_RX_FREE_COUNT → fails = true →
      ∃ t, exec (.ethFrameReceive frame good back cycle fails n) s = .next t
      ∧ memRead t.cur.mem ((s.cur.ethDesc ETH_RX_BASE_LO ETH_RX_BASE_HI (s.cur.get pgEth ETH_RING_CFG_RX_LOG2) (s.cur.get pgEth ETH_RX_PROD_COUNT)) + 8) 4 = leBytes 2 (frame.length - 4) ++ [BitVec.ofNat 8 (b2n (ptpFrame (frame.take (frame.length - 4))) * 4 + b2n (s.cur.flag pgEth ETH_CTL_PTP_EN) * 2), 1]
      ∧ t.cur.get pgEth ETH_RX_PROD_COUNT = (s.cur.get pgEth ETH_RX_PROD_COUNT + 1) % 2 ^ 16
      ∧ t.cur.flag pgEth ETH_IRQ_RX = true
      ∧ (∀ a, (a < (s.cur.ethDesc ETH_RX_BASE_LO ETH_RX_BASE_HI (s.cur.get pgEth ETH_RING_CFG_RX_LOG2) (s.cur.get pgEth ETH_RX_PROD_COUNT)) + 8 ∨ (s.cur.ethDesc ETH_RX_BASE_LO ETH_RX_BASE_HI (s.cur.get pgEth ETH_RING_CFG_RX_LOG2) (s.cur.get pgEth ETH_RX_PROD_COUNT)) + 24 ≤ a) → memGet t.cur.mem a = memGet s.cur.mem a)
      ∧ t.vis = s.vis ∧ { t.cur with regs := s.cur.regs, irqSet := s.cur.irqSet, mem := s.cur.mem } = s.cur
      ∧ (∀ a, a ≠ pgEth + ETH_RX_PROD.off → a ≠ pgEth + ETH_DROP.off → a ≠ pgEth + PG_IRQ_RAW.off → t.cur.rd a = s.cur.rd a)) ∧
  (∀ (frame : List Byte) (good fails : Bool) (back : Nat) (cycle : BitVec 12) (n : Nat) (s : State), s.cur.clockOn = true →
      s.cur.flag pgEth ETH_CTL_RX_EN = false ∨ s.cur.enabled pgEth = false →
      ∃ t, exec (.ethFrameReceive frame good back cycle fails n) s = .next t ∧ t.cur = s.cur ∧ t.vis = s.vis
      ∧ { t.cur with regs := s.cur.regs, irqSet := s.cur.irqSet, mem := s.cur.mem, aon := s.cur.aon, fresh := s.cur.fresh, tb := s.cur.tb, fj := s.cur.fj, pwr := s.cur.pwr, scr := s.cur.scr, cal := s.cur.cal } = s.cur) ∧
  (∀ (frame : List Byte) (good fails : Bool) (back : Nat) (cycle : BitVec 12) (n : Nat) (s : State), s.cur.clockOn = true →
      s.cur.flag pgEth ETH_CTL_RX_EN = true → s.cur.enabled pgEth = true →
      frame.length < 64 ∨ 1522 < frame.length ∨ good = false ∨ s.cur.ethPasses (frame.take (frame.length - 4)) = false →
      ∃ t, exec (.ethFrameReceive frame good back cycle fails n) s = .next t
      ∧ t.cur.get pgEth ETH_DROP_DROPPED = satInc 0xFFFF (s.cur.get pgEth ETH_DROP_DROPPED) ∧ t.vis = s.vis
      ∧ { t.cur with regs := s.cur.regs } = s.cur ∧ (∀ a, a ≠ pgEth + ETH_DROP.off → t.cur.rd a = s.cur.rd a)) ∧
  (∀ (frame : List Byte) (good fails : Bool) (back : Nat) (cycle : BitVec 12) (n : Nat) (s : State), s.cur.clockOn = true →
      s.cur.flag pgEth ETH_CTL_RX_EN = true → s.cur.enabled pgEth = true → 64 ≤ frame.length → frame.length ≤ 1522 →
      good = true → s.cur.ethPasses (frame.take (frame.length - 4)) = true →
      s.cur.wakeFrame (frame.take (frame.length - 4)) = false →
      s.cur.get pgEth ETH_RX_PROD_COUNT = s.cur.get pgEth ETH_RX_FREE_COUNT →
      ∃ t, exec (.ethFrameReceive frame good back cycle fails n) s = .next t
      ∧ t.cur.get pgEth ETH_DROP_DROPPED = satInc 0xFFFF (s.cur.get pgEth ETH_DROP_DROPPED) ∧ t.vis = s.vis
      ∧ { t.cur with regs := s.cur.regs } = s.cur ∧ (∀ a, a ≠ pgEth + ETH_DROP.off → t.cur.rd a = s.cur.rd a)) ∧
  (∀ (frame : List Byte) (good fails : Bool) (back : Nat) (cycle : BitVec 12) (n : Nat) (s : State), s.cur.clockOn = true →
      s.cur.flag pgEth ETH_CTL_RX_EN = true → s.cur.enabled pgEth = true → 64 ≤ frame.length → frame.length ≤ 1522 →
      good = true → s.cur.ethPasses (frame.take (frame.length - 4)) = true →
      s.cur.wakeFrame (frame.take (frame.length - 4)) = true → s.cur.pwr.phase = .awake → s.cur.pwr.idle = false →
      ∃ t, exec (.ethFrameReceive frame good back cycle fails n) s = .next t ∧ t.cur.flag pgEth ETH_IRQ_WAKE_FRAME = true
      ∧ t.cur.pwr = s.cur.pwr ∧ t.vis = s.vis
      ∧ { t.cur with regs := s.cur.regs, irqSet := s.cur.irqSet, mem := s.cur.mem, aon := s.cur.aon, fresh := s.cur.fresh, tb := s.cur.tb, fj := s.cur.fj, pwr := s.cur.pwr, scr := s.cur.scr, cal := s.cur.cal } = s.cur) ∧
  (∀ (frame : List Byte) (good fails : Bool) (back : Nat) (cycle : BitVec 12) (n : Nat) (s : State), s.cur.pwr.phase = .asleep →
      good = true → s.cur.wakeFrame (frame.take (frame.length - 4)) = true → s.cur.wakeSources s.cur.pwr.target 8 ≠ 0 →
      ∃ t, exec (.ethFrameReceive frame good back cycle fails n) s = .next t ∧ t.cur.pwr.phase = .waking 12 t.cur.gtime
      ∧ t.cur.mem = s.cur.mem ∧ (s.vis = s.cur → t.vis = t.cur)
      ∧ { t.cur with regs := s.cur.regs, irqSet := s.cur.irqSet, mem := s.cur.mem, aon := s.cur.aon, fresh := s.cur.fresh, tb := s.cur.tb, fj := s.cur.fj, pwr := s.cur.pwr, scr := s.cur.scr, cal := s.cur.cal } = s.cur) ∧
  (∀ (frame : List Byte) (good fails : Bool) (back : Nat) (cycle : BitVec 12) (n : Nat) (s : State), s.cur.pwr.phase = .asleep →
      good = false ∨ s.cur.wakeFrame (frame.take (frame.length - 4)) = false →
      ∃ t, exec (.ethFrameReceive frame good back cycle fails n) s = .next t ∧ t.cur = s.cur ∧ (s.vis = s.cur → t.vis = s.vis)
      ∧ { t.cur with regs := s.cur.regs, irqSet := s.cur.irqSet, mem := s.cur.mem, aon := s.cur.aon, fresh := s.cur.fresh, tb := s.cur.tb, fj := s.cur.fj, pwr := s.cur.pwr, scr := s.cur.scr, cal := s.cur.cal } = s.cur) ∧
  (∀ (back : Nat) (cycle : BitVec 12) (fails : Bool) (s : State), s.cur.flag pgEth ETH_CTL_TX_EN = true →
      s.cur.starts pgEth = true → s.cur.get pgEth ETH_TX_CONS_COUNT ≠ s.cur.get pgEth ETH_TX_PROD_COUNT →
      60 ≤ (leNat (memRead s.cur.mem ((s.cur.ethDesc ETH_TX_BASE_LO ETH_TX_BASE_HI (s.cur.get pgEth ETH_RING_CFG_TX_LOG2) (s.cur.get pgEth ETH_TX_CONS_COUNT)) + 8) 2)) →
      (leNat (memRead s.cur.mem ((s.cur.ethDesc ETH_TX_BASE_LO ETH_TX_BASE_HI (s.cur.get pgEth ETH_RING_CFG_TX_LOG2) (s.cur.get pgEth ETH_TX_CONS_COUNT)) + 8) 2)) ≤ 1518 →
      fails = false → ∃ t, exec (.ethFrameTransmit back cycle fails) s = .next t
      ∧ t.cur.get pgEth ETH_TX_CONS_COUNT = (s.cur.get pgEth ETH_TX_CONS_COUNT + 1) % 2 ^ 16
      ∧ t.cur.flag pgEth ETH_IRQ_TX = true
      ∧ memRead t.cur.mem ((s.cur.ethDesc ETH_TX_BASE_LO ETH_TX_BASE_HI (s.cur.get pgEth ETH_RING_CFG_TX_LOG2) (s.cur.get pgEth ETH_TX_CONS_COUNT)) + 8) 3 = memRead s.cur.mem ((s.cur.ethDesc ETH_TX_BASE_LO ETH_TX_BASE_HI (s.cur.get pgEth ETH_RING_CFG_TX_LOG2) (s.cur.get pgEth ETH_TX_CONS_COUNT)) + 8) 3
      ∧ (∀ a, a < (s.cur.ethDesc ETH_TX_BASE_LO ETH_TX_BASE_HI (s.cur.get pgEth ETH_RING_CFG_TX_LOG2) (s.cur.get pgEth ETH_TX_CONS_COUNT)) + 8 ∨ (s.cur.ethDesc ETH_TX_BASE_LO ETH_TX_BASE_HI (s.cur.get pgEth ETH_RING_CFG_TX_LOG2) (s.cur.get pgEth ETH_TX_CONS_COUNT)) + 24 ≤ a → memGet t.cur.mem a = memGet s.cur.mem a)
      ∧ t.cur.lnk = { s.cur.lnk with ethSent := memRead s.cur.mem (leNat (memRead s.cur.mem (s.cur.ethDesc ETH_TX_BASE_LO ETH_TX_BASE_HI (s.cur.get pgEth ETH_RING_CFG_TX_LOG2) (s.cur.get pgEth ETH_TX_CONS_COUNT)) 8)) (leNat (memRead s.cur.mem ((s.cur.ethDesc ETH_TX_BASE_LO ETH_TX_BASE_HI (s.cur.get pgEth ETH_RING_CFG_TX_LOG2) (s.cur.get pgEth ETH_TX_CONS_COUNT)) + 8) 2)) }
      ∧ memGet t.cur.mem ((s.cur.ethDesc ETH_TX_BASE_LO ETH_TX_BASE_HI (s.cur.get pgEth ETH_RING_CFG_TX_LOG2) (s.cur.get pgEth ETH_TX_CONS_COUNT)) + 11) = 0
      ∧ (s.cur.flag pgEth ETH_CTL_PTP_EN = true → bit (memGet s.cur.mem ((s.cur.ethDesc ETH_TX_BASE_LO ETH_TX_BASE_HI (s.cur.get pgEth ETH_RING_CFG_TX_LOG2) (s.cur.get pgEth ETH_TX_CONS_COUNT)) + 10)).toNat 1 = true → memRead t.cur.mem ((s.cur.ethDesc ETH_TX_BASE_LO ETH_TX_BASE_HI (s.cur.get pgEth ETH_RING_CFG_TX_LOG2) (s.cur.get pgEth ETH_TX_CONS_COUNT)) + 12) 12 = leBytes 2 (stamp (s.cur.gtime - back) cycle.toNat (s.cur.get pgEth ETH_PTP_LAT_EGRESS_NS : Nat)).2 ++ [0, 0] ++ leBytes 8 (stamp (s.cur.gtime - back) cycle.toNat (s.cur.get pgEth ETH_PTP_LAT_EGRESS_NS : Nat)).1)
      ∧ t.vis = s.vis ∧ { t.cur with regs := s.cur.regs, irqSet := s.cur.irqSet, mem := s.cur.mem, lnk := s.cur.lnk } = s.cur
      ∧ (∀ a, a ≠ pgEth + ETH_TX_CONS.off → a ≠ pgEth + PG_IRQ_RAW.off → t.cur.rd a = s.cur.rd a)) ∧
  (∀ (back : Nat) (cycle : BitVec 12) (fails : Bool) (s : State), s.cur.flag pgEth ETH_CTL_TX_EN = true →
      s.cur.starts pgEth = true → s.cur.get pgEth ETH_TX_CONS_COUNT ≠ s.cur.get pgEth ETH_TX_PROD_COUNT →
      (leNat (memRead s.cur.mem ((s.cur.ethDesc ETH_TX_BASE_LO ETH_TX_BASE_HI (s.cur.get pgEth ETH_RING_CFG_TX_LOG2) (s.cur.get pgEth ETH_TX_CONS_COUNT)) + 8) 2)) < 60 ∨ 1518 < (leNat (memRead s.cur.mem ((s.cur.ethDesc ETH_TX_BASE_LO ETH_TX_BASE_HI (s.cur.get pgEth ETH_RING_CFG_TX_LOG2) (s.cur.get pgEth ETH_TX_CONS_COUNT)) + 8) 2)) →
      ∃ t, exec (.ethFrameTransmit back cycle fails) s = .next t
      ∧ t.cur.get pgEth ETH_TX_CONS_COUNT = (s.cur.get pgEth ETH_TX_CONS_COUNT + 1) % 2 ^ 16
      ∧ t.cur.flag pgEth ETH_IRQ_TX = true
      ∧ memRead t.cur.mem ((s.cur.ethDesc ETH_TX_BASE_LO ETH_TX_BASE_HI (s.cur.get pgEth ETH_RING_CFG_TX_LOG2) (s.cur.get pgEth ETH_TX_CONS_COUNT)) + 8) 3 = memRead s.cur.mem ((s.cur.ethDesc ETH_TX_BASE_LO ETH_TX_BASE_HI (s.cur.get pgEth ETH_RING_CFG_TX_LOG2) (s.cur.get pgEth ETH_TX_CONS_COUNT)) + 8) 3
      ∧ (∀ a, a < (s.cur.ethDesc ETH_TX_BASE_LO ETH_TX_BASE_HI (s.cur.get pgEth ETH_RING_CFG_TX_LOG2) (s.cur.get pgEth ETH_TX_CONS_COUNT)) + 8 ∨ (s.cur.ethDesc ETH_TX_BASE_LO ETH_TX_BASE_HI (s.cur.get pgEth ETH_RING_CFG_TX_LOG2) (s.cur.get pgEth ETH_TX_CONS_COUNT)) + 24 ≤ a → memGet t.cur.mem a = memGet s.cur.mem a)
      ∧ memGet t.cur.mem ((s.cur.ethDesc ETH_TX_BASE_LO ETH_TX_BASE_HI (s.cur.get pgEth ETH_RING_CFG_TX_LOG2) (s.cur.get pgEth ETH_TX_CONS_COUNT)) + 11) = 2
      ∧ t.vis = s.vis ∧ { t.cur with regs := s.cur.regs, irqSet := s.cur.irqSet, mem := s.cur.mem } = s.cur
      ∧ (∀ a, a ≠ pgEth + ETH_TX_CONS.off → a ≠ pgEth + PG_IRQ_RAW.off → t.cur.rd a = s.cur.rd a)) ∧
  (∀ (back : Nat) (cycle : BitVec 12) (fails : Bool) (s : State), s.cur.flag pgEth ETH_CTL_TX_EN = true →
      s.cur.starts pgEth = true → s.cur.get pgEth ETH_TX_CONS_COUNT ≠ s.cur.get pgEth ETH_TX_PROD_COUNT →
      60 ≤ (leNat (memRead s.cur.mem ((s.cur.ethDesc ETH_TX_BASE_LO ETH_TX_BASE_HI (s.cur.get pgEth ETH_RING_CFG_TX_LOG2) (s.cur.get pgEth ETH_TX_CONS_COUNT)) + 8) 2)) →
      (leNat (memRead s.cur.mem ((s.cur.ethDesc ETH_TX_BASE_LO ETH_TX_BASE_HI (s.cur.get pgEth ETH_RING_CFG_TX_LOG2) (s.cur.get pgEth ETH_TX_CONS_COUNT)) + 8) 2)) ≤ 1518 →
      fails = true → ∃ t, exec (.ethFrameTransmit back cycle fails) s = .next t
      ∧ t.cur.get pgEth ETH_TX_CONS_COUNT = (s.cur.get pgEth ETH_TX_CONS_COUNT + 1) % 2 ^ 16
      ∧ t.cur.flag pgEth ETH_IRQ_TX = true
      ∧ memRead t.cur.mem ((s.cur.ethDesc ETH_TX_BASE_LO ETH_TX_BASE_HI (s.cur.get pgEth ETH_RING_CFG_TX_LOG2) (s.cur.get pgEth ETH_TX_CONS_COUNT)) + 8) 3 = memRead s.cur.mem ((s.cur.ethDesc ETH_TX_BASE_LO ETH_TX_BASE_HI (s.cur.get pgEth ETH_RING_CFG_TX_LOG2) (s.cur.get pgEth ETH_TX_CONS_COUNT)) + 8) 3
      ∧ (∀ a, a < (s.cur.ethDesc ETH_TX_BASE_LO ETH_TX_BASE_HI (s.cur.get pgEth ETH_RING_CFG_TX_LOG2) (s.cur.get pgEth ETH_TX_CONS_COUNT)) + 8 ∨ (s.cur.ethDesc ETH_TX_BASE_LO ETH_TX_BASE_HI (s.cur.get pgEth ETH_RING_CFG_TX_LOG2) (s.cur.get pgEth ETH_TX_CONS_COUNT)) + 24 ≤ a → memGet t.cur.mem a = memGet s.cur.mem a)
      ∧ memGet t.cur.mem ((s.cur.ethDesc ETH_TX_BASE_LO ETH_TX_BASE_HI (s.cur.get pgEth ETH_RING_CFG_TX_LOG2) (s.cur.get pgEth ETH_TX_CONS_COUNT)) + 11) = 1
      ∧ t.vis = s.vis ∧ { t.cur with regs := s.cur.regs, irqSet := s.cur.irqSet, mem := s.cur.mem } = s.cur
      ∧ (∀ a, a ≠ pgEth + ETH_TX_CONS.off → a ≠ pgEth + PG_IRQ_RAW.off → t.cur.rd a = s.cur.rd a)) ∧
  (∀ (back : Nat) (cycle : BitVec 12) (fails : Bool) (s : State),
      s.cur.flag pgEth ETH_CTL_TX_EN = false ∨ s.cur.starts pgEth = false ∨ s.cur.get pgEth ETH_TX_CONS_COUNT = s.cur.get pgEth ETH_TX_PROD_COUNT →
      ∃ t, exec (.ethFrameTransmit back cycle fails) s = .next t ∧ t.cur = s.cur ∧ t.vis = s.vis
      ∧ { t.cur with regs := s.cur.regs, irqSet := s.cur.irqSet, mem := s.cur.mem, lnk := s.cur.lnk } = s.cur) ∧
  (∀ (v : Word) (s : State), ∃ t, exec (.ethRingCfgWrite v) s = .next t ∧ t.cur.get pgEth ETH_TX_PROD_COUNT = 0
      ∧ t.cur.get pgEth ETH_TX_CONS_COUNT = 0 ∧ t.cur.get pgEth ETH_RX_FREE_COUNT = 0 ∧ t.cur.get pgEth ETH_RX_PROD_COUNT = 0
      ∧ t.cur.get pgEth ETH_RING_CFG_TX_LOG2 = clampN 4 10 (bits v.toNat 8 4)
      ∧ t.cur.get pgEth ETH_RING_CFG_RX_LOG2 = clampN 4 10 (bits v.toNat 0 4) ∧ t.vis = s.vis
      ∧ { t.cur with regs := s.cur.regs } = s.cur
      ∧ (∀ a, a ≠ pgEth + ETH_RING_CFG.off → a ≠ pgEth + ETH_TX_PROD.off → a ≠ pgEth + ETH_TX_CONS.off → a ≠ pgEth + ETH_RX_FREE.off → a ≠ pgEth + ETH_RX_PROD.off → t.cur.rd a = s.cur.rd a)) ∧
  (∀ (up : Bool) (speed : Fin 3) (s : State), ∃ t, exec (.sgmiiLinkChange up speed) s = .next t
      ∧ t.cur.flag pgEth ETH_STAT_LINK = up ∧ (t.cur.get pgEth ETH_STAT_SPEED = (if up then speed.val else 0)) ∧ t.vis = s.vis
      ∧ { t.cur with regs := s.cur.regs } = s.cur ∧ (∀ a, a ≠ pgEth + ETH_STAT.off → t.cur.rd a = s.cur.rd a)) ∧
  (∀ (n : Fin 2) (fr : CanFrame) (back : Nat) (cycle : BitVec 12) (tec rec : Byte) (f : Nat) (s : State),
      s.cur.flag (pgCan n) CAN_CTL_RUN = true → s.cur.enabled (pgCan n) = true → s.cur.get (pgCan n) CAN_STAT_STATE ≠ 2 →
      bit fr.ident.toNat 30 = false ∨ s.cur.flag (pgCan n) CAN_CTL_FD_EN = true →
      s.cur.canFilter (pgCan n) fr.ident.toNat = some f →
      ((s.cur.get (pgCan n) CAN_RX_PROD_PROD) + 2 ^ 16 - s.cur.get (pgCan n) CAN_RX_CONS_CONS) % 2 ^ 16 < 2 ^ (clampN 4 8 (s.cur.get (pgCan n) CAN_RX_CFG_SIZE_LOG2)) →
      ∃ t, exec (.canFrameReceive n fr back cycle tec rec) s = .next t ∧ t.cur.get (pgCan n) CAN_STAT_TEC = tec.toNat
      ∧ t.cur.get (pgCan n) CAN_STAT_REC = rec.toNat
      ∧ (t.cur.get (pgCan n) CAN_STAT_STATE = (if 128 ≤ tec.toNat ∨ 128 ≤ rec.toNat then 1 else 0))
      ∧ memRead t.cur.mem (s.cur.get64 (pgCan n) CAN_RX_BASE_LO CAN_RX_BASE_HI + (s.cur.get (pgCan n) CAN_RX_PROD_PROD) % 2 ^ (clampN 4 8 (s.cur.get (pgCan n) CAN_RX_CFG_SIZE_LOG2)) * 80) 16 = leBytes 4 fr.ident.toNat ++ [BitVec.ofNat 8 (fr.ctl.toNat % 128 + (1 - (s.cur.get (pgCan n) CAN_RX_PROD_PROD) / 2 ^ (clampN 4 8 (s.cur.get (pgCan n) CAN_RX_CFG_SIZE_LOG2)) % 2) * 128), BitVec.ofNat 8 f] ++ leBytes 6 ((s.cur.gtime - back) % 2 ^ 48) ++ leBytes 2 cycle.toNat ++ [0, 0]
      ∧ memRead t.cur.mem ((s.cur.get64 (pgCan n) CAN_RX_BASE_LO CAN_RX_BASE_HI + (s.cur.get (pgCan n) CAN_RX_PROD_PROD) % 2 ^ (clampN 4 8 (s.cur.get (pgCan n) CAN_RX_CFG_SIZE_LOG2)) * 80) + 16) 64 = padTo 64 (fr.data.take (canLength fr.ident.toNat fr.ctl.toNat))
      ∧ (∀ a, a < (s.cur.get64 (pgCan n) CAN_RX_BASE_LO CAN_RX_BASE_HI + (s.cur.get (pgCan n) CAN_RX_PROD_PROD) % 2 ^ (clampN 4 8 (s.cur.get (pgCan n) CAN_RX_CFG_SIZE_LOG2)) * 80) ∨ (s.cur.get64 (pgCan n) CAN_RX_BASE_LO CAN_RX_BASE_HI + (s.cur.get (pgCan n) CAN_RX_PROD_PROD) % 2 ^ (clampN 4 8 (s.cur.get (pgCan n) CAN_RX_CFG_SIZE_LOG2)) * 80) + 80 ≤ a → memGet t.cur.mem a = memGet s.cur.mem a)
      ∧ t.cur.get (pgCan n) CAN_RX_PROD_PROD = ((s.cur.get (pgCan n) CAN_RX_PROD_PROD) + 1) % 2 ^ 16
      ∧ t.cur.get (pgCan n) CAN_RX_PROD_PHASE = 1 - ((s.cur.get (pgCan n) CAN_RX_PROD_PROD) + 1) % 2 ^ 16 / 2 ^ (clampN 4 8 (s.cur.get (pgCan n) CAN_RX_CFG_SIZE_LOG2)) % 2
      ∧ t.cur.flag (pgCan n) CAN_IRQ_RX = true ∧ t.vis = s.vis
      ∧ { t.cur with regs := s.cur.regs, irqSet := s.cur.irqSet, mem := s.cur.mem } = s.cur
      ∧ (∀ a, a ≠ (pgCan n) + CAN_STAT.off → a ≠ (pgCan n) + CAN_RX_PROD.off → a ≠ (pgCan n) + PG_IRQ_RAW.off → t.cur.rd a = s.cur.rd a)) ∧
  (∀ (n : Fin 2) (fr : CanFrame) (back : Nat) (cycle : BitVec 12) (tec rec : Byte) (f : Nat) (s : State),
      s.cur.flag (pgCan n) CAN_CTL_RUN = true → s.cur.enabled (pgCan n) = true → s.cur.get (pgCan n) CAN_STAT_STATE ≠ 2 →
      bit fr.ident.toNat 30 = false ∨ s.cur.flag (pgCan n) CAN_CTL_FD_EN = true →
      s.cur.canFilter (pgCan n) fr.ident.toNat = some f →
      2 ^ (clampN 4 8 (s.cur.get (pgCan n) CAN_RX_CFG_SIZE_LOG2)) ≤ ((s.cur.get (pgCan n) CAN_RX_PROD_PROD) + 2 ^ 16 - s.cur.get (pgCan n) CAN_RX_CONS_CONS) % 2 ^ 16 →
      ∃ t, exec (.canFrameReceive n fr back cycle tec rec) s = .next t ∧ t.cur.get (pgCan n) CAN_STAT_TEC = tec.toNat
      ∧ t.cur.get (pgCan n) CAN_STAT_REC = rec.toNat
      ∧ (t.cur.get (pgCan n) CAN_STAT_STATE = (if 128 ≤ tec.toNat ∨ 128 ≤ rec.toNat then 1 else 0))
      ∧ t.cur.get (pgCan n) CAN_STAT_RX_LOST = satInc (2 ^ 14 - 1) (s.cur.get (pgCan n) CAN_STAT_RX_LOST) ∧ t.vis = s.vis
      ∧ { t.cur with regs := s.cur.regs } = s.cur ∧ (∀ a, a ≠ (pgCan n) + CAN_STAT.off → t.cur.rd a = s.cur.rd a)) ∧
  (∀ (n : Fin 2) (fr : CanFrame) (back : Nat) (cycle : BitVec 12) (tec rec : Byte) (s : State),
      s.cur.flag (pgCan n) CAN_CTL_RUN = true → s.cur.enabled (pgCan n) = true → s.cur.get (pgCan n) CAN_STAT_STATE ≠ 2 →
      bit fr.ident.toNat 30 = false ∨ s.cur.flag (pgCan n) CAN_CTL_FD_EN = true →
      s.cur.canFilter (pgCan n) fr.ident.toNat = none → ∃ t, exec (.canFrameReceive n fr back cycle tec rec) s = .next t
      ∧ t.cur.get (pgCan n) CAN_STAT_TEC = tec.toNat ∧ t.cur.get (pgCan n) CAN_STAT_REC = rec.toNat
      ∧ (t.cur.get (pgCan n) CAN_STAT_STATE = (if 128 ≤ tec.toNat ∨ 128 ≤ rec.toNat then 1 else 0)) ∧ t.vis = s.vis
      ∧ { t.cur with regs := s.cur.regs } = s.cur ∧ (∀ a, a ≠ (pgCan n) + CAN_STAT.off → t.cur.rd a = s.cur.rd a)) ∧
  (∀ (n : Fin 2) (fr : CanFrame) (back : Nat) (cycle : BitVec 12) (tec rec : Byte) (s : State),
      s.cur.flag (pgCan n) CAN_CTL_RUN = false ∨ s.cur.enabled (pgCan n) = false ∨ s.cur.get (pgCan n) CAN_STAT_STATE = 2 ∨ (bit fr.ident.toNat 30 = true ∧ s.cur.flag (pgCan n) CAN_CTL_FD_EN = false) →
      ∃ t, exec (.canFrameReceive n fr back cycle tec rec) s = .next t ∧ t.cur = s.cur ∧ t.vis = s.vis
      ∧ { t.cur with regs := s.cur.regs, irqSet := s.cur.irqSet, mem := s.cur.mem } = s.cur) ∧
  (∀ (n : Fin 2) (tec rec : Byte) (b : Nat) (s : State), s.cur.canNext (pgCan n) = some b →
      s.cur.flag (pgCan n) CAN_CTL_RUN = true → s.cur.starts (pgCan n) = true → s.cur.flag (pgCan n) CAN_CTL_LISTEN = false →
      s.cur.get (pgCan n) CAN_STAT_STATE ≠ 2 → ∃ t, exec (.canFrameTransmit n tec rec) s = .next t
      ∧ t.cur.get (pgCan n) CAN_STAT_TEC = tec.toNat ∧ t.cur.get (pgCan n) CAN_STAT_REC = rec.toNat
      ∧ (t.cur.get (pgCan n) CAN_STAT_STATE = (if 128 ≤ tec.toNat ∨ 128 ≤ rec.toNat then 1 else 0))
      ∧ t.cur.get (pgCan n) CAN_TX_REQ_BUF = setBits (s.cur.get (pgCan n) CAN_TX_REQ_BUF) b 1 0
      ∧ t.cur.get (pgCan n) CAN_TX_DONE_BUF = setBits (s.cur.get (pgCan n) CAN_TX_DONE_BUF) b 1 1
      ∧ t.cur.flag (pgCan n) CAN_IRQ_TX_DONE = true
      ∧ (t.cur.lnk = { s.cur.lnk with canSent := (List.range 20).flatMap fun i => leBytes 4 (s.cur.rd ((pgCan n) + 0x800 + 80 * b + 4 * i)).toNat })
      ∧ t.vis = s.vis ∧ { t.cur with regs := s.cur.regs, irqSet := s.cur.irqSet, lnk := s.cur.lnk } = s.cur
      ∧ (∀ a, a ≠ (pgCan n) + CAN_TX_REQ.off → a ≠ (pgCan n) + CAN_TX_DONE.off → a ≠ (pgCan n) + CAN_STAT.off → a ≠ (pgCan n) + PG_IRQ_RAW.off → t.cur.rd a = s.cur.rd a)) ∧
  (∀ (n : Fin 2) (tec rec : Byte) (b : Fin 16) (s : State), s.cur.flag (pgCan n) CAN_CTL_RUN = true →
      s.cur.starts (pgCan n) = true → s.cur.flag (pgCan n) CAN_CTL_LISTEN = false → s.cur.get (pgCan n) CAN_STAT_STATE ≠ 2 →
      bit (s.cur.get (pgCan n) CAN_TX_REQ_BUF) b = true →
      (∀ x : Fin 16, bit (s.cur.get (pgCan n) CAN_TX_REQ_BUF) x = true → x ≠ b → (s.cur.rd ((pgCan n) + 0x800 + 80 * b.val)).toNat % 2 ^ 29 < (s.cur.rd ((pgCan n) + 0x800 + 80 * x.val)).toNat % 2 ^ 29 ∨ ((s.cur.rd ((pgCan n) + 0x800 + 80 * b.val)).toNat % 2 ^ 29 = (s.cur.rd ((pgCan n) + 0x800 + 80 * x.val)).toNat % 2 ^ 29 ∧ b < x)) →
      ∃ t, exec (.canFrameTransmit n tec rec) s = .next t ∧ bit (t.cur.get (pgCan n) CAN_TX_DONE_BUF) b = true
      ∧ bit (t.cur.get (pgCan n) CAN_TX_REQ_BUF) b = false ∧ t.vis = s.vis
      ∧ { t.cur with regs := s.cur.regs, irqSet := s.cur.irqSet, lnk := s.cur.lnk } = s.cur) ∧
  (∀ (n : Fin 2) (tec rec : Byte) (s : State),
      s.cur.canNext (pgCan n) = none ∨ s.cur.flag (pgCan n) CAN_CTL_RUN = false ∨ s.cur.starts (pgCan n) = false ∨ s.cur.flag (pgCan n) CAN_CTL_LISTEN = true ∨ s.cur.get (pgCan n) CAN_STAT_STATE = 2 →
      ∃ t, exec (.canFrameTransmit n tec rec) s = .next t ∧ t.cur = s.cur ∧ t.vis = s.vis
      ∧ { t.cur with regs := s.cur.regs, irqSet := s.cur.irqSet, lnk := s.cur.lnk } = s.cur) ∧
  (∀ (n : Fin 2) (s : State), s.cur.flag (pgCan n) CAN_CTL_RUN = true → s.cur.get (pgCan n) CAN_STAT_STATE ≠ 2 →
      ∃ t, exec (.canBusOff n) s = .next t ∧ t.cur.get (pgCan n) CAN_STAT_STATE = 2
      ∧ t.cur.flag (pgCan n) CAN_IRQ_BUS_OFF = true
      ∧ t.cur.fj.staged = s.cur.fj.staged ++ [{ gtime := s.cur.gtime48, pgId := pgIdOf (pgCan n), code := 0x1001, deg := false, flt := false, data := [n.val] }]
      ∧ t.vis = s.vis ∧ { t.cur with regs := s.cur.regs, irqSet := s.cur.irqSet, fj := s.cur.fj } = s.cur
      ∧ (∀ a, a ≠ (pgCan n) + CAN_STAT.off → a ≠ (pgCan n) + PG_IRQ_RAW.off → t.cur.rd a = s.cur.rd a)) ∧
  (∀ (n : Fin 2) (s : State), s.cur.flag (pgCan n) CAN_CTL_RUN = false ∨ s.cur.get (pgCan n) CAN_STAT_STATE = 2 →
      ∃ t, exec (.canBusOff n) s = .next t ∧ t.cur = s.cur ∧ t.vis = s.vis
      ∧ { t.cur with regs := s.cur.regs, irqSet := s.cur.irqSet, fj := s.cur.fj } = s.cur) ∧
  (∀ (n : Fin 2) (run : Bool) (s : State), s.cur.get (pgCan n) CAN_STAT_STATE = 2 →
      s.cur.flag (pgCan n) CAN_CTL_BO_MANUAL = run → ∃ t, exec (.canBusOffRejoin n run) s = .next t
      ∧ t.cur.get (pgCan n) CAN_STAT_STATE = 0 ∧ t.cur.get (pgCan n) CAN_STAT_TEC = 0 ∧ t.cur.get (pgCan n) CAN_STAT_REC = 0
      ∧ t.cur.flag (pgCan n) CAN_CTL_RUN = (run || s.cur.flag (pgCan n) CAN_CTL_RUN) ∧ t.vis = s.vis
      ∧ { t.cur with regs := s.cur.regs } = s.cur
      ∧ (∀ a, a ≠ (pgCan n) + CAN_STAT.off → a ≠ (pgCan n) + CAN_CTL.off → t.cur.rd a = s.cur.rd a)) ∧
  (∀ (n : Fin 2) (run : Bool) (s : State),
      s.cur.get (pgCan n) CAN_STAT_STATE ≠ 2 ∨ s.cur.flag (pgCan n) CAN_CTL_BO_MANUAL = !run →
      ∃ t, exec (.canBusOffRejoin n run) s = .next t ∧ t.cur = s.cur ∧ t.vis = s.vis ∧ { t.cur with regs := s.cur.regs } = s.cur)

/-- An accelerometer read stores X, Y, Z and the sum of their magnitudes, once in a period, and the shock output rises at
or above THR, or with ACC_INT where enabled. A raw transfer and a PMBus request run for the time their bytes take; the
edge that ends them stores what was read. A request is repeated up to three times until the readback lies within 10
mV, else VOUT_FAULT with its record; a NAK ends it. Only the linear VOUT_MODE is accepted. Ignition is mirrored, with
an interrupt while DCLK runs. An edge of EVT_IN latches GTIME and cycle, and EVT_LOST until read. (The Grain in which
a transfer or request ends is the model's reading, notes/assumptions/132.md and 133.md.) Commands that it says to
complete, each on the conditions of its clauses: accRead, accIntHigh, accRawTransfer, pmbusRequest, pmbusAlert,
pmbusVoutModeRead, ignitionChange, evtInEdge, gpioEvtCycRead, ppsSecond. -/
def Obligations.BoardLinks : Prop :=
  ((∀ (d : Dev) (n : Nat) (rx : Word), d.lnk.accRun = some (n, rx) → n ≤ d.gtime →
    d.accGrain.get pgAcc ACC_XFER_RX_RX = rx.toNat ∧ d.accGrain.flag pgAcc ACC_XFER_CTL_GO = false ∧
    d.accGrain.flag pgAcc ACC_XFER_CTL_BUSY = false ∧ d.accGrain.flag pgAcc ACC_IRQ_XFER_DONE = true ∧ d.accGrain.lnk.accRun = none) ∧
  (∀ (d : Dev) (x : PmbRun) (m : Nat), d.lnk.pmbRun = some x → x.until_ ≤ d.gtime → x.got = [some m] → vcoreMet x.want m = true →
    d.pmbGrain.lnk = { d.lnk with pmbRun := none, vcoreSent := x.want } ∧ d.pmbGrain.get pgPmb PMB_STAT_READ_MV = m % 2 ^ 16 ∧
    d.pmbGrain.flag pgPmb PMB_STAT_BUSY = false) ∧
  (∀ (d : Dev) (x : PmbRun), d.lnk.pmbRun = some x → x.until_ ≤ d.gtime →
    x.got.getLast? = some none ∨ (∃ m, x.got.getLast? = some (some m) ∧ vcoreMet x.want m = false) →
    d.pmbGrain.flag pgPmb PMB_STAT_FAULT = true ∧ d.pmbGrain.flag pgPmb PMB_IRQ_VOUT_FAULT = true ∧
    d.pmbGrain.lnk = { d.lnk with pmbRun := none } ∧
    (∃ r ∈ d.pmbGrain.fj.staged, r.code = 0x1003 ∧ r.pgId = pgIdOf pgPmb ∧ r.data.head? = some (x.want % 2 ^ 32)))) ∧
  (∀ (x y z : BitVec 16) (i : Bool) (s : State), s.cur.lnk.accSlot ≠ some s.cur.accDue → s.cur.enabled pgAcc = true →
      s.cur.domainOn 20 = true → ∃ t, exec (.accRead x y z i) s = .next t ∧ t.cur.get pgAcc ACC_XY_X = x.toNat
      ∧ t.cur.get pgAcc ACC_XY_Y = y.toNat ∧ t.cur.get pgAcc ACC_ZS_Z = z.toNat
      ∧ t.cur.get pgAcc ACC_ZS_SUM = (min 32767 (x.toInt.natAbs + y.toInt.natAbs + z.toInt.natAbs))
      ∧ t.cur.lnk = { s.cur.lnk with compHigh := decide (s.cur.get pgAcc ACC_SHOCK_THR ≠ 0 ∧ s.cur.get pgAcc ACC_SHOCK_THR ≤ (min 32767 (x.toInt.natAbs + y.toInt.natAbs + z.toInt.natAbs))), accInt := i, accSlot := some s.cur.accDue }
      ∧ (t.cur.shockOut = true → s.cur.shockOut = false → t.cur.flag pgAcc ACC_IRQ_SHOCK = true)
      ∧ (s.cur.shockOut = true ∨ t.cur.shockOut = false → t.cur.irqSet = s.cur.irqSet) ∧ t.vis = s.vis
      ∧ { t.cur with regs := s.cur.regs, irqSet := s.cur.irqSet, lnk := s.cur.lnk } = s.cur
      ∧ (∀ a, a ≠ pgAcc + ACC_XY.off → a ≠ pgAcc + ACC_ZS.off → a ≠ pgAcc + PG_IRQ_RAW.off → t.cur.rd a = s.cur.rd a)) ∧
  (∀ (x y z : BitVec 16) (i : Bool) (s : State),
      s.cur.lnk.accSlot = some s.cur.accDue ∨ s.cur.enabled pgAcc = false ∨ s.cur.domainOn 20 = false →
      ∃ t, exec (.accRead x y z i) s = .next t ∧ t.cur = s.cur ∧ t.vis = s.vis
      ∧ { t.cur with regs := s.cur.regs, irqSet := s.cur.irqSet, lnk := s.cur.lnk } = s.cur) ∧
  (∀ (s : State), ∃ t, exec (.accIntHigh) s = .next t ∧ t.cur.lnk = { s.cur.lnk with accInt := true }
      ∧ (t.cur.shockOut = true → s.cur.shockOut = false → t.cur.flag pgAcc ACC_IRQ_SHOCK = true) ∧ t.vis = s.vis
      ∧ { t.cur with regs := s.cur.regs, irqSet := s.cur.irqSet, lnk := s.cur.lnk } = s.cur
      ∧ (∀ a, a ≠ pgAcc + PG_IRQ_RAW.off → t.cur.rd a = s.cur.rd a)) ∧
  (∀ (v rx : Word) (s : State), s.cur.lnk.accRun = none → s.cur.starts pgAcc = true →
      ∃ t, exec (.accRawTransfer v rx) s = .next t
      ∧ (t.cur.lnk = { s.cur.lnk with accRun := some (s.cur.gtime + 1 + (if s.cur.lnk.accSlot = some s.cur.accDue then 0 else s.cur.accGrains (s.cur.accCommand.length + 6)) + s.cur.accGrains (min 4 (bits v.toNat 0 4) + min 4 (bits v.toNat 4 4)), BitVec.ofNat 32 (rx.toNat % 2 ^ (8 * min 4 (bits v.toNat 4 4)))), accSent := (leBytes 4 (s.cur.get pgAcc ACC_XFER_TX)).take (min 4 (bits v.toNat 0 4)) })
      ∧ t.cur.get pgAcc ACC_XFER_CTL_TX_N = bits v.toNat 0 4 ∧ t.cur.get pgAcc ACC_XFER_CTL_RX_N = bits v.toNat 4 4
      ∧ t.cur.flag pgAcc ACC_XFER_CTL_GO = true ∧ t.cur.flag pgAcc ACC_XFER_CTL_BUSY = true ∧ t.vis = s.vis
      ∧ { t.cur with regs := s.cur.regs, lnk := s.cur.lnk } = s.cur
      ∧ (∀ a, a ≠ pgAcc + ACC_XFER_CTL.off → t.cur.rd a = s.cur.rd a)) ∧
  (∀ (v rx : Word) (s : State), s.cur.lnk.accRun ≠ none ∨ s.cur.starts pgAcc = false →
      ∃ t, exec (.accRawTransfer v rx) s = .next t ∧ t.cur = s.cur ∧ t.vis = s.vis
      ∧ { t.cur with regs := s.cur.regs, lnk := s.cur.lnk } = s.cur) ∧
  (∀ (m : Nat) (l : List (Option Nat)) (s : State), (s.vis.get pgMplan MP_AVS_VREQ_MV) ≠ s.cur.lnk.vcoreSent →
      s.cur.lnk.pmbRun = none → s.cur.starts pgPmb = true → s.cur.flag pgPmb PMB_STAT_FAULT = false →
      s.cur.flag pgPmb PMB_CFG_EN = true → s.cur.flag pgRsv RSV_STAT_PF = false →
      ((m : Int) - (s.vis.get pgMplan MP_AVS_VREQ_MV)).natAbs ≤ 10 → ∃ t, exec (.pmbusRequest (some m :: l)) s = .next t
      ∧ t.cur.lnk = { s.cur.lnk with pmbRun := some { want := (s.vis.get pgMplan MP_AVS_VREQ_MV), got := [some m], until_ := s.cur.gtime + 1 + s.cur.pmbGrains [some m] }, pmbSent := s.cur.pmbBytes 0x21 (leBytes 2 (voutCommand (s.vis.get pgMplan MP_AVS_VREQ_MV) (s.cur.getI pgPmb PMB_STAT_EXP))) }
      ∧ t.cur.flag pgPmb PMB_STAT_NAK = false ∧ t.cur.flag pgPmb PMB_STAT_BUSY = true ∧ t.vis = s.vis
      ∧ { t.cur with regs := s.cur.regs, lnk := s.cur.lnk } = s.cur ∧ (∀ a, a ≠ pgPmb + PMB_STAT.off → t.cur.rd a = s.cur.rd a)) ∧
  (∀ (l : List (Option Nat)) (s : State), (s.vis.get pgMplan MP_AVS_VREQ_MV) ≠ s.cur.lnk.vcoreSent → s.cur.lnk.pmbRun = none →
      s.cur.starts pgPmb = true → s.cur.flag pgPmb PMB_STAT_FAULT = false → s.cur.flag pgPmb PMB_CFG_EN = true →
      s.cur.flag pgRsv RSV_STAT_PF = false → ∃ t, exec (.pmbusRequest (none :: l)) s = .next t
      ∧ t.cur.lnk = { s.cur.lnk with pmbRun := some { want := (s.vis.get pgMplan MP_AVS_VREQ_MV), got := [none], until_ := s.cur.gtime + 1 + s.cur.pmbGrains [none] }, pmbSent := s.cur.pmbBytes 0x21 (leBytes 2 (voutCommand (s.vis.get pgMplan MP_AVS_VREQ_MV) (s.cur.getI pgPmb PMB_STAT_EXP))) }
      ∧ t.cur.flag pgPmb PMB_STAT_NAK = false ∧ t.cur.flag pgPmb PMB_STAT_BUSY = true ∧ t.vis = s.vis
      ∧ { t.cur with regs := s.cur.regs, lnk := s.cur.lnk } = s.cur ∧ (∀ a, a ≠ pgPmb + PMB_STAT.off → t.cur.rd a = s.cur.rd a)) ∧
  (∀ (a b c : Nat) (l : List (Option Nat)) (s : State), (s.vis.get pgMplan MP_AVS_VREQ_MV) ≠ s.cur.lnk.vcoreSent →
      s.cur.lnk.pmbRun = none → s.cur.starts pgPmb = true → s.cur.flag pgPmb PMB_STAT_FAULT = false →
      s.cur.flag pgPmb PMB_CFG_EN = true → s.cur.flag pgRsv RSV_STAT_PF = false →
      10 < ((a : Int) - (s.vis.get pgMplan MP_AVS_VREQ_MV)).natAbs →
      10 < ((b : Int) - (s.vis.get pgMplan MP_AVS_VREQ_MV)).natAbs →
      ∃ t, exec (.pmbusRequest (some a :: some b :: some c :: l)) s = .next t
      ∧ t.cur.lnk = { s.cur.lnk with pmbRun := some { want := (s.vis.get pgMplan MP_AVS_VREQ_MV), got := [some a, some b, some c], until_ := s.cur.gtime + 1 + s.cur.pmbGrains [some a, some b, some c] }, pmbSent := s.cur.pmbBytes 0x21 (leBytes 2 (voutCommand (s.vis.get pgMplan MP_AVS_VREQ_MV) (s.cur.getI pgPmb PMB_STAT_EXP))) }
      ∧ t.cur.flag pgPmb PMB_STAT_NAK = false ∧ t.cur.flag pgPmb PMB_STAT_BUSY = true ∧ t.vis = s.vis
      ∧ { t.cur with regs := s.cur.regs, lnk := s.cur.lnk } = s.cur ∧ (∀ a, a ≠ pgPmb + PMB_STAT.off → t.cur.rd a = s.cur.rd a)) ∧
  (∀ (l : List (Option Nat)) (s : State),
      (s.vis.get pgMplan MP_AVS_VREQ_MV) = s.cur.lnk.vcoreSent ∨ s.cur.lnk.pmbRun ≠ none ∨ s.cur.starts pgPmb = false ∨ s.cur.flag pgPmb PMB_STAT_FAULT = true ∨ s.cur.flag pgPmb PMB_CFG_EN = false ∨ s.cur.flag pgRsv RSV_STAT_PF = true →
      ∃ t, exec (.pmbusRequest l) s = .next t ∧ t.cur = s.cur ∧ t.vis = s.vis
      ∧ { t.cur with regs := s.cur.regs, lnk := s.cur.lnk } = s.cur) ∧
  (∀ (x : BitVec 16) (s : State), ∃ t, exec (.pmbusAlert x) s = .next t ∧ t.cur.get pgPmb PMB_STATUS = x.toNat
      ∧ t.cur.flag pgPmb PMB_IRQ_ALERT = true ∧ t.cur.lnk = { s.cur.lnk with pmbSent := s.cur.pmbBytes 0x03 [] } ∧ t.vis = s.vis
      ∧ { t.cur with regs := s.cur.regs, irqSet := s.cur.irqSet, lnk := s.cur.lnk } = s.cur
      ∧ (∀ a, a ≠ pgPmb + PMB_STATUS.off → a ≠ pgPmb + PG_IRQ_RAW.off → t.cur.rd a = s.cur.rd a)) ∧
  (∀ (m : Byte) (s : State), m.toNat < 32 → ∃ t, exec (.pmbusVoutModeRead m) s = .next t
      ∧ t.cur.get pgPmb PMB_STAT_EXP = m.toNat ∧ t.vis = s.vis ∧ { t.cur with regs := s.cur.regs } = s.cur
      ∧ (∀ a, a ≠ pgPmb + PMB_STAT.off → t.cur.rd a = s.cur.rd a)) ∧
  (∀ (m : Byte) (s : State), 32 ≤ m.toNat → ∃ t, exec (.pmbusVoutModeRead m) s = .next t
      ∧ t.cur.flag pgPmb PMB_STAT_FAULT = true
      ∧ t.cur.fj.staged = s.cur.fj.staged ++ [{ gtime := s.cur.gtime48, pgId := pgIdOf pgPmb, code := 0x1002, deg := false, flt := false, data := [m.toNat] }]
      ∧ t.vis = s.vis ∧ { t.cur with regs := s.cur.regs, fj := s.cur.fj } = s.cur
      ∧ (∀ a, a ≠ pgPmb + PMB_STAT.off → t.cur.rd a = s.cur.rd a)) ∧
  (∀ (on : Bool) (s : State), s.cur.flag pgGpio GPIO_IGN_IGN ≠ on → s.cur.clockOn = true →
      ∃ t, exec (.ignitionChange on) s = .next t ∧ t.cur.flag pgGpio GPIO_IGN_IGN = on ∧ t.cur.flag pgGpio GPIO_IRQ_IGN = true
      ∧ t.vis = s.vis ∧ { t.cur with regs := s.cur.regs, irqSet := s.cur.irqSet } = s.cur
      ∧ (∀ a, a ≠ pgGpio + GPIO_IGN.off → a ≠ pgGpio + PG_IRQ_RAW.off → t.cur.rd a = s.cur.rd a)) ∧
  (∀ (on : Bool) (s : State), s.cur.flag pgGpio GPIO_IGN_IGN ≠ on → s.cur.clockOn = false →
      ∃ t, exec (.ignitionChange on) s = .next t ∧ t.cur.flag pgGpio GPIO_IGN_IGN = on ∧ t.vis = s.vis
      ∧ { t.cur with regs := s.cur.regs } = s.cur ∧ (∀ a, a ≠ pgGpio + GPIO_IGN.off → t.cur.rd a = s.cur.rd a)) ∧
  (∀ (on : Bool) (s : State), s.cur.flag pgGpio GPIO_IGN_IGN = on → ∃ t, exec (.ignitionChange on) s = .next t ∧ t.cur = s.cur
      ∧ t.vis = s.vis ∧ { t.cur with regs := s.cur.regs, irqSet := s.cur.irqSet } = s.cur) ∧
  (∀ (c : BitVec 12) (s : State), bit (s.vis.get pgGpio GPIO_ALT_PINS) 1 = true → ∃ t, exec (.evtInEdge c) s = .next t
      ∧ t.cur.get pgGpio GPIO_EVT_LO_VALUE = (s.cur.gtime - 1) % 2 ^ 32
      ∧ t.cur.get pgGpio GPIO_EVT_HI_VALUE = (s.cur.gtime - 1) / 2 ^ 32 % 2 ^ 32
      ∧ t.cur.get pgGpio GPIO_EVT_CYC % 2 ^ 31 = c.toNat
      ∧ bit (t.cur.get pgGpio GPIO_EVT_CYC) 31 = (s.cur.lnk.evtUnread || bit (s.cur.get pgGpio GPIO_EVT_CYC) 31)
      ∧ t.cur.flag pgGpio GPIO_IRQ_EVT = true ∧ t.cur.lnk = { s.cur.lnk with evtUnread := true } ∧ t.vis = s.vis
      ∧ { t.cur with regs := s.cur.regs, irqSet := s.cur.irqSet, lnk := s.cur.lnk } = s.cur
      ∧ (∀ a, a ≠ pgGpio + GPIO_EVT_LO.off → a ≠ pgGpio + GPIO_EVT_HI.off → a ≠ pgGpio + GPIO_EVT_CYC.off → a ≠ pgGpio + PG_IRQ_RAW.off → t.cur.rd a = s.cur.rd a)) ∧
  (∀ (c : BitVec 12) (s : State), bit (s.vis.get pgGpio GPIO_ALT_PINS) 1 = false → ∃ t, exec (.evtInEdge c) s = .next t
      ∧ t.cur = s.cur ∧ t.vis = s.vis ∧ { t.cur with regs := s.cur.regs, irqSet := s.cur.irqSet, lnk := s.cur.lnk } = s.cur) ∧
  (∀ (s : State), ∃ t, exec (.gpioEvtCycRead) s = .next t
      ∧ t.vis.bus = { rdata := s.vis.rd (pgGpio + GPIO_EVT_CYC.off), error := false }
      ∧ t.cur.get pgGpio GPIO_EVT_CYC = (s.vis.rd (pgGpio + GPIO_EVT_CYC.off)).toNat % 2 ^ 31
      ∧ t.cur.lnk = { s.cur.lnk with evtUnread := false }
      ∧ { t.cur with regs := s.cur.regs, bus := s.cur.bus, lnk := s.cur.lnk } = s.cur
      ∧ (∀ a, a ≠ pgGpio + GPIO_EVT_CYC.off → t.cur.rd a = s.cur.rd a)) ∧
  (∀ (s : State), s.cur.flag pgTb TB_CTL_WALL_VALID = true → bit (s.cur.get pgGpio GPIO_ALT_PINS) 0 = true →
      (s.cur.wallNs (s.cur.gtime * 4000) - 1) / 1000000000 ≠ s.cur.wallNs (s.cur.gtime * 4000 + 3999) / 1000000000 →
      ∃ t, exec (.ppsSecond) s = .next t ∧ t.cur.lnk = { s.cur.lnk with ppsUntil := s.cur.gtime + 25000 } ∧ t.cur.ppsOut = true
      ∧ t.vis = s.vis ∧ { t.cur with lnk := s.cur.lnk } = s.cur) ∧
  (∀ (s : State),
      s.cur.flag pgTb TB_CTL_WALL_VALID = false ∨ bit (s.cur.get pgGpio GPIO_ALT_PINS) 0 = false ∨ (s.cur.wallNs (s.cur.gtime * 4000) - 1) / 1000000000 = s.cur.wallNs (s.cur.gtime * 4000 + 3999) / 1000000000 →
      ∃ t, exec (.ppsSecond) s = .next t ∧ t.cur = s.cur ∧ t.vis = s.vis ∧ { t.cur with lnk := s.cur.lnk } = s.cur)

/-- A die link out of lock for more than 2 Grains releases all motor bridges, zeroes the drive codes of every port, ends
emission, de-energises the sleds with record 0x0B05 and stops the other axes that move; its return records DIE_LINK
and sets DEGRADED in the pages of the servo, commutation and motion engines. PWR_HOLD rises after 20 us at the
threshold. A supply condition asserts a power-on reset that keeps GTIME, the always-on SRAM, Scruple and the burned
fuses, with its own cause alone in RST_CAUSE. The steps of start-up follow one another, the first two only while
PWR_HOLD is high; fuses are loaded, a word that cannot be corrected as 0. (That the DIE_LINK record names SYS_TB is
the model's choice, notes/assumptions/151.md; that the pages of the power die answer meanwhile is another, 20.md.)
Commands that it says to complete, each on the conditions of its clauses: dieLinkLoss, dieLinkReturn, pwrHoldRise,
powerOnReset, startUp, fuseLoad, dieLinkCalibrate. -/
def Obligations.DieLinkAndStartUp : Prop :=
  (∀ (n : Nat) (fr : List (Option Nat)) (s : State), 2 < n → s.cur.tb.linkUp = true → ∃ t, exec (.dieLinkLoss n fr) s = .next t
      ∧ t.cur.tb = { s.cur.tb with linkUp := false } ∧ (∀ c : Fin 6, (t.cur.motor c).drive = .coast ∧ (t.cur.motor c).duty = 0)
      ∧ (∀ c : Fin 6, t.cur.motorState c = if s.cur.motorState c = 6 then 6 else 0)
      ∧ (∀ p : Fin 4, t.cur.get (pgOps p) OPS_STAT_STATE = 7 ∧ t.cur.get (pgOps p) OPS_DRIVE0_FCS = 0 ∧ t.cur.get (pgOps p) OPS_DRIVE0_TRK = 0 ∧ t.cur.get (pgOps p) OPS_DRIVE1_TLT = 0)
      ∧ (∀ p : Fin 4, (t.cur.port p).job.isSome = true → bit (s.cur.get (pgOwp p) WP_INH_CAUSE_EN) 9 = true → (t.cur.port p).light = false)
      ∧ (∀ k : Fin 4, t.cur.axisState k = 6 ∧ t.cur.get (pgAx k) CHN_STAT_FAULT_CODE = 4 ∧ t.cur.get (pgAx k) CHN_ISTAT_I_NOW = 0 ∧ t.cur.flag (pgAx k) CHN_STAT_REF = false)
      ∧ (∀ k : Fin 4, (t.cur.fj.staged.any fun r => r.code == 0x0B05 && r.pgId == pgIdOf (pgAx k)) = true)
      ∧ (∀ k : Fin 12, 4 ≤ k.val → t.cur.axisState k = if s.cur.axisState k = 2 ∨ s.cur.axisState k = 4 ∨ s.cur.axisState k = 5 then 3 else s.cur.axisState k)
      ∧ t.vis = s.vis ∧ ((∀ p : Fin 4, (s.cur.port p).light = false) → t.cur.mem = s.cur.mem) ∧ t.cur.ldg = s.cur.ldg
      ∧ t.cur.rsv = s.cur.rsv ∧ t.cur.fls = s.cur.fls ∧ t.cur.fth = s.cur.fth ∧ t.cur.prt = s.cur.prt) ∧
  (∀ (n : Nat) (fr : List (Option Nat)) (s : State), n ≤ 2 ∨ s.cur.tb.linkUp = false → ∃ t, exec (.dieLinkLoss n fr) s = .next t
      ∧ t.cur = s.cur ∧ t.vis = s.vis) ∧
  (∀ (s : State), s.cur.tb.linkUp = false → ∃ t, exec (.dieLinkReturn) s = .next t ∧ t.cur.tb = { s.cur.tb with linkUp := true }
      ∧ (∀ p ∈ controlPages, t.cur.flag p PG_STAT_DEGRADED = true)
      ∧ t.cur.fj.staged = s.cur.fj.staged ++ [{ gtime := s.cur.gtime48, pgId := pgIdOf pgTb, code := 1, deg := false, flt := false, data := [] }]
      ∧ (∀ a, a % 0x1000 ≠ PG_STAT.off → t.cur.rd a = s.cur.rd a) ∧ t.vis = s.vis
      ∧ { t.cur with regs := s.cur.regs, tb := s.cur.tb, fj := s.cur.fj } = s.cur) ∧
  (∀ (s : State), s.cur.tb.linkUp = true → ∃ t, exec (.dieLinkReturn) s = .next t ∧ t.cur = s.cur ∧ t.vis = s.vis
      ∧ { t.cur with regs := s.cur.regs, tb := s.cur.tb, fj := s.cur.fj } = s.cur) ∧
  (∀ (mv us : Nat) (s : State), s.cur.tb.vaon = true → s.cur.pwr.hold = false → s.cur.pwr.phase ≠ .off →
      s.cur.get pgBank BANK_PF_CFG_VMOT_FAIL_MV + 500 ≤ mv → 20 ≤ us → ∃ t, exec (.pwrHoldRise mv us) s = .next t
      ∧ t.cur = { s.cur with pwr := { s.cur.pwr with hold := true } } ∧ (s.vis = s.cur → t.vis = t.cur)) ∧
  (∀ (mv us : Nat) (s : State),
      s.cur.tb.vaon = false ∨ s.cur.pwr.hold = true ∨ s.cur.pwr.phase = .off ∨ mv < s.cur.get pgBank BANK_PF_CFG_VMOT_FAIL_MV + 500 ∨ us < 20 →
      ∃ t, exec (.pwrHoldRise mv us) s = .next t ∧ t.cur = s.cur ∧ { t.cur with pwr := s.cur.pwr } = s.cur) ∧
  (∀ (clock : Bool) (s : State), s.cur.pwr.phase ≠ .off → s.cur.tb.vaon = true → s.cur.su.step ≠ 0 →
      ∃ t, exec (.powerOnReset clock) s = .next t ∧ (t.cur.get pgRst RST_CAUSE = (if clock then 8 else 1))
      ∧ t.cur.get pgRst RST_COUNT_POR = satInc 0xFFFF (s.cur.get pgRst RST_COUNT_POR) ∧ t.cur.su.step = 0 ∧ t.vis = t.cur
      ∧ t.cur.tb.gtime = s.cur.tb.gtime ∧ t.cur.aon = s.cur.aon ∧ t.cur.scr = s.cur.scr ∧ t.cur.prt.fuses = s.cur.prt.fuses
      ∧ t.cur.su.rollback = s.cur.su.rollback ∧ t.cur.mem = [] ∧ t.cur.ldg.tasks = [] ∧ t.cur.ldg.journal = []
      ∧ t.cur.host = s.cur.host) ∧
  (∀ (clock : Bool) (s : State), s.cur.pwr.phase = .off ∨ s.cur.tb.vaon = false ∨ s.cur.su.step = 0 →
      ∃ t, exec (.powerOnReset clock) s = .next t ∧ t.cur = s.cur ∧ t.vis = s.vis) ∧
  (∀ (l : BitVec 5) (s : State), s.cur.su.step = 0 → s.cur.pwr.hold = true → ∃ t, exec (.startUp l) s = .next t
      ∧ t.cur.su = { s.cur.su with step := 1 } ∧ (s.vis = s.cur → t.vis = t.cur)
      ∧ { t.cur with regs := s.cur.regs, su := s.cur.su } = s.cur ∧ t.cur.regs = s.cur.regs) ∧
  (∀ (l : BitVec 5) (s : State), s.cur.su.step = 1 → s.cur.pwr.phase ≠ .off → s.cur.pwr.hold = true →
      ∃ t, exec (.startUp l) s = .next t ∧ t.cur.su = { s.cur.su with step := 2 } ∧ t.cur.get pgClk CLK_STAT = 7 + 8 * l.toNat
      ∧ (s.vis = s.cur → t.vis = t.cur) ∧ { t.cur with regs := s.cur.regs, su := s.cur.su } = s.cur
      ∧ (∀ a, a ≠ pgClk + CLK_STAT.off → t.cur.rd a = s.cur.rd a)) ∧
  (∀ (l : BitVec 5) (s : State), s.cur.su.step = 6 → s.cur.flag pgLdg LDG_CTL_ACCEPT_EN = true →
      ∃ t, exec (.startUp l) s = .next t ∧ t.cur.su = { s.cur.su with step := 7 } ∧ (s.vis = s.cur → t.vis = t.cur)
      ∧ { t.cur with regs := s.cur.regs, su := s.cur.su } = s.cur ∧ t.cur.regs = s.cur.regs) ∧
  (∀ (l : BitVec 5) (s : State),
      (s.cur.su.step < 2 ∧ s.cur.pwr.hold = false) ∨ (s.cur.su.step = 1 ∧ s.cur.pwr.phase = .off) ∨ (2 ≤ s.cur.su.step ∧ (s.cur.su.step ≠ 6 ∨ s.cur.flag pgLdg LDG_CTL_ACCEPT_EN = false)) →
      ∃ t, exec (.startUp l) s = .next t ∧ t.cur = s.cur ∧ (s.vis = s.cur → t.vis = t.cur)
      ∧ { t.cur with regs := s.cur.regs, su := s.cur.su } = s.cur) ∧
  (∀ (w : FuseWords) (s : State), s.cur.su.step = 2 → s.cur.su.fused = false → ∃ t, exec (.fuseLoad w) s = .next t
      ∧ (t.cur.su = { s.cur.su with fused := true, keyBad := w.bad.contains .bootKey, step := if s.cur.su.linked then 4 else 2 })
      ∧ (t.cur.get64 pgId ID_SERIAL_LO ID_SERIAL_HI = (if w.bad.contains .serial then 0 else w.serial.toNat))
      ∧ (t.cur.get pgId ID_PCI = (if w.bad.contains .pci then 0 else w.pci.toNat)) ∧ t.cur.flag pgFuseMap FM_STAT_LOADED = true
      ∧ t.cur.flag pgFuseMap FM_STAT_DBG_EN = w.dbgEn ∧ t.cur.flag pgFuseMap FM_STAT_SECURE = w.secure
      ∧ t.cur.flag pgFuseMap FM_STAT_UNCORR = !w.bad.isEmpty ∧ t.cur.flag pgFuseMap FM_STAT_CORR = w.corrected
      ∧ t.cur.get pgFuseMap FM_ROLLBACK_COUNT = s.cur.su.rollback % 64
      ∧ t.cur.flag pgChk CHK_SEAL_STAT_KEY_OK = (w.keyOk && !w.bad.contains .sealKey)
      ∧ (t.cur.flag pgChk CHK_SEAL_STAT_KEY_OK = false → t.cur.flag pgChk CHK_SEAL_STAT_KEY_FAULT = true)
      ∧ (t.cur.stg.sealKey = (if w.bad.contains .sealKey then 0 else w.sealKey.toNat))
      ∧ (∀ i : Fin 8, i.val < w.bootKey.length → t.cur.get pgFuseMap (FM_BOOTKEY.idx i) = if w.bad.contains .bootKey then 0 else (nthD w.bootKey i 0).toNat)
      ∧ t.vis = s.vis ∧ t.cur.prt.fuses = s.cur.prt.fuses) ∧
  (∀ (w : FuseWords) (s : State), s.cur.su.step ≠ 2 ∨ s.cur.su.fused = true → ∃ t, exec (.fuseLoad w) s = .next t
      ∧ t.cur = s.cur ∧ t.vis = s.vis) ∧
  (∀ (s : State), s.cur.su.step = 2 → s.cur.su.linked = false → ∃ t, exec (.dieLinkCalibrate) s = .next t
      ∧ (t.cur.su = { s.cur.su with linked := true, step := if s.cur.su.fused then 4 else 2 })
      ∧ t.cur.flag pgBank PG_STAT_READY = true ∧ t.cur.flag pgVbus PG_STAT_READY = true
      ∧ (∀ a, a % 0x1000 ≠ PG_STAT.off → t.cur.rd a = s.cur.rd a) ∧ t.vis = s.vis
      ∧ { t.cur with regs := s.cur.regs, su := s.cur.su } = s.cur) ∧
  (∀ (s : State), s.cur.su.step ≠ 2 ∨ s.cur.su.linked = true → ∃ t, exec (.dieLinkCalibrate) s = .next t ∧ t.cur = s.cur
      ∧ t.vis = s.vis ∧ { t.cur with regs := s.cur.regs, su := s.cur.su } = s.cur)

/-- The boot ROM runs the authentic stage image of the higher rollback index, slot A on a tie, and with none ID_BOOT.STATE
reads FAILED. AUTH applies the same check to a later image. FM_ROLLBACK.INC acts in a maintenance window alone. The
causes of a warm reset are captured; the reset takes effect at an edge, keeps GTIME, staging, flash and the journal,
adds its causes to RST_CAUSE, counts, turns acceptance off and lets the cores resume 25 Grains later. RST_CTL acts
only with its key. Commands that it says to complete, each on the conditions of its clauses: bootRom, auth,
fmRollbackInc, warmReset, rstCtlWarm, rstCtlApp, rstNLow, lockstepMismatch, debugResetRequest. -/
def Obligations.BootAndResets : Prop :=
  (∀ (a b : FwImage) (s : State), s.cur.su.step = 5 → s.cur.su.coresAt ≤ s.cur.gtime → s.cur.get pgId ID_BOOT_STATE = 0 →
      s.cur.authentic a = true ∧ a.body.length ≤ 114688 → s.cur.authentic b = true ∧ b.body.length ≤ 114688 →
      imgRollback b ≤ imgRollback a → ∃ t, exec (.bootRom (some a) (some b)) s = .next t ∧ t.cur.get pgId ID_BOOT_STATE = 1
      ∧ t.cur.get pgId ID_BOOT_ROLLBACK = imgRollback a % 2 ^ 16 ∧ t.cur.su = { s.cur.su with step := 6 } ∧ t.vis = s.vis
      ∧ { t.cur with regs := s.cur.regs, su := s.cur.su } = s.cur ∧ (∀ a, a ≠ pgId + ID_BOOT.off → t.cur.rd a = s.cur.rd a)) ∧
  (∀ (a b : FwImage) (s : State), s.cur.su.step = 5 → s.cur.su.coresAt ≤ s.cur.gtime → s.cur.get pgId ID_BOOT_STATE = 0 →
      s.cur.authentic a = true ∧ a.body.length ≤ 114688 → s.cur.authentic b = true ∧ b.body.length ≤ 114688 →
      imgRollback a < imgRollback b → ∃ t, exec (.bootRom (some a) (some b)) s = .next t ∧ t.cur.get pgId ID_BOOT_STATE = 2
      ∧ t.cur.get pgId ID_BOOT_ROLLBACK = imgRollback b % 2 ^ 16 ∧ t.cur.su = { s.cur.su with step := 6 } ∧ t.vis = s.vis
      ∧ { t.cur with regs := s.cur.regs, su := s.cur.su } = s.cur ∧ (∀ a, a ≠ pgId + ID_BOOT.off → t.cur.rd a = s.cur.rd a)) ∧
  (∀ (a : FwImage) (b : Option FwImage) (s : State), s.cur.su.step = 5 → s.cur.su.coresAt ≤ s.cur.gtime →
      s.cur.get pgId ID_BOOT_STATE = 0 → s.cur.authentic a = true ∧ a.body.length ≤ 114688 →
      (∀ x, b = some x → s.cur.authentic x = false ∨ 114688 < x.body.length) → ∃ t, exec (.bootRom (some a) b) s = .next t
      ∧ t.cur.get pgId ID_BOOT_STATE = 1 ∧ t.cur.get pgId ID_BOOT_ROLLBACK = imgRollback a % 2 ^ 16
      ∧ t.cur.su = { s.cur.su with step := 6 } ∧ t.vis = s.vis ∧ { t.cur with regs := s.cur.regs, su := s.cur.su } = s.cur
      ∧ (∀ a, a ≠ pgId + ID_BOOT.off → t.cur.rd a = s.cur.rd a)) ∧
  (∀ (a : Option FwImage) (b : FwImage) (s : State), s.cur.su.step = 5 → s.cur.su.coresAt ≤ s.cur.gtime →
      s.cur.get pgId ID_BOOT_STATE = 0 → (∀ x, a = some x → s.cur.authentic x = false ∨ 114688 < x.body.length) →
      s.cur.authentic b = true ∧ b.body.length ≤ 114688 → ∃ t, exec (.bootRom a (some b)) s = .next t
      ∧ t.cur.get pgId ID_BOOT_STATE = 2 ∧ t.cur.get pgId ID_BOOT_ROLLBACK = imgRollback b % 2 ^ 16
      ∧ t.cur.su = { s.cur.su with step := 6 } ∧ t.vis = s.vis ∧ { t.cur with regs := s.cur.regs, su := s.cur.su } = s.cur
      ∧ (∀ a, a ≠ pgId + ID_BOOT.off → t.cur.rd a = s.cur.rd a)) ∧
  (∀ (a b : Option FwImage) (s : State), s.cur.su.step = 5 → s.cur.su.coresAt ≤ s.cur.gtime → s.cur.get pgId ID_BOOT_STATE = 0 →
      (∀ x, a = some x → s.cur.authentic x = false ∨ 114688 < x.body.length) →
      (∀ x, b = some x → s.cur.authentic x = false ∨ 114688 < x.body.length) → ∃ t, exec (.bootRom a b) s = .next t
      ∧ t.cur.get pgId ID_BOOT_STATE = 3 ∧ t.vis = s.vis ∧ { t.cur with regs := s.cur.regs } = s.cur
      ∧ (∀ a, a ≠ pgId + ID_BOOT.off → t.cur.rd a = s.cur.rd a)) ∧
  (∀ (a b : Option FwImage) (s : State), s.cur.su.step ≠ 5 ∨ s.cur.gtime < s.cur.su.coresAt ∨ s.cur.get pgId ID_BOOT_STATE ≠ 0 →
      ∃ t, exec (.bootRom a b) s = .next t ∧ t.cur = s.cur ∧ t.vis = s.vis
      ∧ { t.cur with regs := s.cur.regs, su := s.cur.su } = s.cur) ∧
  (∀ (i : FwImage) (s : State), 6 ≤ s.cur.su.step → ∃ t, exec (.auth i) s = .next t
      ∧ t.cur.su = { s.cur.su with auth := s.cur.authentic i } ∧ t.vis = s.vis ∧ { t.cur with su := s.cur.su } = s.cur) ∧
  (∀ (i : FwImage) (s : State), s.cur.su.step < 6 → ∃ t, exec (.auth i) s = .next t ∧ t.cur = s.cur ∧ t.vis = s.vis
      ∧ { t.cur with su := s.cur.su } = s.cur) ∧
  (∀ (r : Requester) (s : State), s.cur.flag pgFuse FUSE_STAT_MAINT = true → ∃ t, exec (.fmRollbackInc r) s = .next t
      ∧ t.cur.su = { s.cur.su with rollback := min 63 (s.cur.su.rollback + 1) }
      ∧ t.cur.get pgFuseMap FM_ROLLBACK_COUNT = min 63 (s.cur.su.rollback + 1) ∧ t.vis = s.vis
      ∧ { t.cur with regs := s.cur.regs, su := s.cur.su } = s.cur
      ∧ (∀ a, a ≠ pgFuseMap + FM_ROLLBACK.off → t.cur.rd a = s.cur.rd a)) ∧
  (∀ (r : Requester) (s : State), s.cur.flag pgFuse FUSE_STAT_MAINT = false → ∃ t, exec (.fmRollbackInc r) s = .next t
      ∧ (s.cur.flag pgFuseMap PG_ERR_INFO_VALID = false → t.cur.get pgFuseMap PG_ERR_INFO_CODE = ErrCode.maintDenied.value ∧ t.cur.get pgFuseMap PG_ERR_ADDR_HI_REQ = r.code)
      ∧ (s.cur.flag pgFuseMap PG_ERR_INFO_VALID = true → t.cur.flag pgFuseMap PG_ERR_INFO_OVERFLOW = true)
      ∧ t.cur.get pgFuseMap PG_ERR_COUNT = satInc (2 ^ 32 - 1) (s.cur.get pgFuseMap PG_ERR_COUNT) ∧ t.vis = s.vis
      ∧ { t.cur with regs := s.cur.regs } = s.cur
      ∧ (∀ a, a ≠ pgFuseMap + PG_ERR_INFO.off → a ≠ pgFuseMap + PG_ERR_ADDR_LO.off → a ≠ pgFuseMap + PG_ERR_ADDR_HI.off → a ≠ pgFuseMap + PG_ERR_COUNT.off → t.cur.rd a = s.cur.rd a)) ∧
  (∀ (s : State), s.cur.su.warm ≠ 0 → 5 ≤ s.cur.su.step → s.cur.rsv.committing = false → ∃ t, exec (.warmReset) s = .next t
      ∧ t.cur.get pgRst RST_CAUSE = (s.cur.get pgRst RST_CAUSE ||| s.cur.su.warm) % 2 ^ RST_CAUSE.width
      ∧ t.cur.get pgRst RST_COUNT_WARM = satInc 0xFFFF (s.cur.get pgRst RST_COUNT_WARM)
      ∧ t.cur.su = { s.cur.su with warm := 0, step := 5, coresAt := s.cur.gtime + 26, auth := false }
      ∧ t.cur.tb = { s.cur.tb with wallLo := none } ∧ t.cur.scr = s.cur.scr ∧ t.cur.aon = s.cur.aon
      ∧ t.cur.fj.recs = s.cur.fj.recs ∧ t.cur.prt = s.cur.prt ∧ t.cur.fls = s.cur.fls ∧ t.cur.mc = s.cur.mc
      ∧ t.cur.ldg.lanes = s.cur.ldg.lanes ∧ t.cur.ldg.ctxs = s.cur.ldg.ctxs ∧ t.cur.ldg.nextLsn = s.cur.ldg.nextLsn
      ∧ t.cur.flag pgLdg LDG_CTL_ACCEPT_EN = false
      ∧ (∀ w : Fin 64, t.cur.get (pgTw w) TW_RESULT_STATE = 0 ∧ t.cur.flag (pgTw w) TW_CQ_CFG_ARMED = false) ∧ t.vis = s.vis) ∧
  (∀ (s : State), s.cur.su.warm = 0 ∨ s.cur.su.step < 5 ∨ s.cur.rsv.committing = true → ∃ t, exec (.warmReset) s = .next t
      ∧ t.cur = s.cur ∧ t.vis = s.vis) ∧
  (∀ (k : Byte) (s : State), k = 0xA5 → ∃ t, exec (.rstCtlWarm k) s = .next t
      ∧ t.cur.su = { s.cur.su with warm := s.cur.su.warm ||| 32 } ∧ t.cur.flag pgRst RST_CTL_WARM = true ∧ t.vis = s.vis
      ∧ { t.cur with regs := s.cur.regs, su := s.cur.su } = s.cur ∧ (∀ a, a ≠ pgRst + RST_CTL.off → t.cur.rd a = s.cur.rd a)) ∧
  (∀ (k : Byte) (s : State), k ≠ 0xA5 → ∃ t, exec (.rstCtlWarm k) s = .next t ∧ t.cur = s.cur ∧ t.vis = s.vis
      ∧ { t.cur with regs := s.cur.regs, su := s.cur.su } = s.cur) ∧
  (∀ (k : Byte) (s : State), k = 0xA5 → ∃ t, exec (.rstCtlApp k) s = .next t ∧ t.cur.flag pgRst RST_CTL_APP = false
      ∧ t.vis = s.vis ∧ { t.cur with regs := s.cur.regs } = s.cur ∧ (∀ a, a ≠ pgRst + RST_CTL.off → t.cur.rd a = s.cur.rd a)) ∧
  (∀ (k : Byte) (s : State), k ≠ 0xA5 → ∃ t, exec (.rstCtlApp k) s = .next t ∧ t.cur = s.cur ∧ t.vis = s.vis
      ∧ { t.cur with regs := s.cur.regs } = s.cur) ∧
  (∀ (n : Nat) (s : State), 1000 ≤ n → ∃ t, exec (.rstNLow n) s = .next t
      ∧ t.cur.su = { s.cur.su with warm := s.cur.su.warm ||| 16 } ∧ t.vis = s.vis ∧ { t.cur with su := s.cur.su } = s.cur) ∧
  (∀ (n : Nat) (s : State), n < 1000 → ∃ t, exec (.rstNLow n) s = .next t ∧ t.cur = s.cur ∧ t.vis = s.vis
      ∧ { t.cur with su := s.cur.su } = s.cur) ∧
  (∀ (p : Fin 2) (s : State), ∃ t, exec (.lockstepMismatch p) s = .next t
      ∧ t.cur.su = { s.cur.su with warm := s.cur.su.warm ||| 64 } ∧ t.vis = s.vis ∧ { t.cur with su := s.cur.su } = s.cur) ∧
  (∀ (s : State), s.cur.flag pgFuseMap FM_STAT_DBG_EN = true → ∃ t, exec (.debugResetRequest) s = .next t
      ∧ t.cur.su = { s.cur.su with warm := s.cur.su.warm ||| 128 } ∧ t.vis = s.vis ∧ { t.cur with su := s.cur.su } = s.cur) ∧
  (∀ (s : State), s.cur.flag pgFuseMap FM_STAT_DBG_EN = false → ∃ t, exec (.debugResetRequest) s = .next t ∧ t.cur = s.cur
      ∧ t.vis = s.vis ∧ { t.cur with su := s.cur.su } = s.cur)

/-- An access that is not one aligned word records NARROW in its page, one to an address that holds no page UNMAPPED in
SYS_ID, one to a page whose domain is not ON POWERED_DOWN there; each ends in a bus error and changes nothing else.
PG_ID and PG_STAT of a page that is not ON are read. A read of a page that is ON answers the committed word, and
outside the pages whose reads latch or clear it changes nothing. A host reads its windows (0 where it does not own
one) and the status pages; a host write to a status page records HOST_WRITE, and it reaches no other page. A window
write by a requester that may not write it changes nothing. Interrupt enables and CAN transmit buffers take what is
written, I_PULSE is clamped with a record; the always-on SRAM is memory but for its first 4 KiB, which are read only.
A locked debug port changes nothing. Commands that it says to complete, each on the conditions of its clauses:
registerAccessError, poweredDownAccess, registerWrite. -/
def Obligations.RegisterAccesses : Prop :=
  (∀ (r : Requester) (x : Word) (z : Nat) (s : State), inGroups (regAddr r x.toNat) = true → inAon (regAddr r x.toNat) = false →
      pageAt (regAddr r x.toNat) = none → ∃ t, exec (.registerAccessError r x z) s = .next t
      ∧ t.vis.bus = { rdata := 0, error := true } ∧ t.cur.bus = { rdata := 0, error := true }
      ∧ { t.vis with bus := s.vis.bus } = s.vis
      ∧ (s.cur.flag pgId PG_ERR_INFO_VALID = false → t.cur.get pgId PG_ERR_INFO_CODE = ErrCode.unmapped.value ∧ t.cur.get pgId PG_ERR_ADDR_HI_REQ = r.code)
      ∧ (s.cur.flag pgId PG_ERR_INFO_VALID = true → t.cur.flag pgId PG_ERR_INFO_OVERFLOW = true)
      ∧ t.cur.get pgId PG_ERR_COUNT = satInc (2 ^ 32 - 1) (s.cur.get pgId PG_ERR_COUNT)
      ∧ { t.cur with regs := s.cur.regs, bus := s.cur.bus } = s.cur
      ∧ (∀ a, a ≠ pgId + PG_ERR_INFO.off → a ≠ pgId + PG_ERR_ADDR_LO.off → a ≠ pgId + PG_ERR_ADDR_HI.off → a ≠ pgId + PG_ERR_COUNT.off → t.cur.rd a = s.cur.rd a)) ∧
  (∀ (r : Requester) (x : Word) (z p : Nat) (s : State), inGroups (regAddr r x.toNat) = true →
      inAon (regAddr r x.toNat) = false → pageAt (regAddr r x.toNat) = some p → z ≠ 4 ∨ (regAddr r x.toNat) % 4 ≠ 0 →
      s.vis.domainOn (domainOf p) = true → ∃ t, exec (.registerAccessError r x z) s = .next t
      ∧ t.vis.bus = { rdata := 0, error := true } ∧ t.cur.bus = { rdata := 0, error := true }
      ∧ { t.vis with bus := s.vis.bus } = s.vis
      ∧ (s.cur.flag p PG_ERR_INFO_VALID = false → t.cur.get p PG_ERR_INFO_CODE = ErrCode.narrow.value ∧ t.cur.get p PG_ERR_ADDR_HI_REQ = r.code)
      ∧ (s.cur.flag p PG_ERR_INFO_VALID = true → t.cur.flag p PG_ERR_INFO_OVERFLOW = true)
      ∧ t.cur.get p PG_ERR_COUNT = satInc (2 ^ 32 - 1) (s.cur.get p PG_ERR_COUNT)
      ∧ { t.cur with regs := s.cur.regs, bus := s.cur.bus } = s.cur
      ∧ (∀ a, a ≠ p + PG_ERR_INFO.off → a ≠ p + PG_ERR_ADDR_LO.off → a ≠ p + PG_ERR_ADDR_HI.off → a ≠ p + PG_ERR_COUNT.off → t.cur.rd a = s.cur.rd a)) ∧
  (∀ (r : Requester) (x : Word) (z p : Nat) (s : State), inGroups (regAddr r x.toNat) = true →
      inAon (regAddr r x.toNat) = false → pageAt (regAddr r x.toNat) = some p → z ≠ 4 ∨ (regAddr r x.toNat) % 4 ≠ 0 →
      s.vis.domainOn (domainOf p) = false → ∃ t, exec (.registerAccessError r x z) s = .next t
      ∧ t.vis.bus = { rdata := 0, error := true } ∧ t.cur.bus = { rdata := 0, error := true }
      ∧ { t.vis with bus := s.vis.bus } = s.vis
      ∧ (s.cur.flag pgId PG_ERR_INFO_VALID = false → t.cur.get pgId PG_ERR_INFO_CODE = ErrCode.poweredDown.value ∧ t.cur.get pgId PG_ERR_ADDR_HI_REQ = r.code)
      ∧ (s.cur.flag pgId PG_ERR_INFO_VALID = true → t.cur.flag pgId PG_ERR_INFO_OVERFLOW = true)
      ∧ t.cur.get pgId PG_ERR_COUNT = satInc (2 ^ 32 - 1) (s.cur.get pgId PG_ERR_COUNT)
      ∧ { t.cur with regs := s.cur.regs, bus := s.cur.bus } = s.cur
      ∧ (∀ a, a ≠ pgId + PG_ERR_INFO.off → a ≠ pgId + PG_ERR_ADDR_LO.off → a ≠ pgId + PG_ERR_ADDR_HI.off → a ≠ pgId + PG_ERR_COUNT.off → t.cur.rd a = s.cur.rd a)) ∧
  (∀ (r : Requester) (x : Word) (s : State), inGroups (regAddr r x.toNat) = true → inAon (regAddr r x.toNat) = false →
      (regAddr r x.toNat) % 4 = 0 → (pageAt (regAddr r x.toNat)).isSome = true →
      ∃ t, exec (.registerAccessError r x 4) s = .next t ∧ t.cur = s.cur ∧ t.vis = s.vis) ∧
  (∀ (r : Requester) (x : Word) (z : Nat) (s : State), inAon (regAddr r x.toNat) = true → z ≠ 4 ∨ (regAddr r x.toNat) % 4 ≠ 0 →
      ∃ t, exec (.registerAccessError r x z) s = .next t ∧ t.vis.bus = { rdata := 0, error := true }
      ∧ t.cur.bus = { rdata := 0, error := true } ∧ { t.cur with bus := s.cur.bus } = s.cur
      ∧ { t.vis with bus := s.vis.bus } = s.vis) ∧
  (∀ (r : Requester) (x : Word) (z : Nat) (s : State),
      (inGroups (regAddr r x.toNat) = false ∧ inAon (regAddr r x.toNat) = false) ∨ (inAon (regAddr r x.toNat) = true ∧ z = 4 ∧ (regAddr r x.toNat) % 4 = 0) →
      ∃ t, exec (.registerAccessError r x z) s = .next t ∧ t.cur = s.cur ∧ t.vis = s.vis) ∧
  (∀ (r : Requester) (x : Word) (w : Option Word) (p : Nat) (s : State), x.toNat % 4 = 0 →
      ¬(r = .debug ∧ s.cur.flag pgFuseMap FM_STAT_DBG_EN = false) → inGroups (regAddr r x.toNat) = true →
      inAon (regAddr r x.toNat) = false → pageAt (regAddr r x.toNat) = some p → s.vis.domainOn (domainOf p) = false →
      w.isSome = true ∨ ((regAddr r x.toNat) - p ≠ PG_ID.off ∧ (regAddr r x.toNat) - p ≠ PG_STAT.off) →
      ∃ t, exec (.poweredDownAccess r x w) s = .next t ∧ t.vis.bus = { rdata := 0, error := true }
      ∧ t.cur.bus = { rdata := 0, error := true } ∧ { t.vis with bus := s.vis.bus } = s.vis
      ∧ (s.cur.flag pgId PG_ERR_INFO_VALID = false → t.cur.get pgId PG_ERR_INFO_CODE = ErrCode.poweredDown.value ∧ t.cur.get pgId PG_ERR_ADDR_HI_REQ = r.code)
      ∧ (s.cur.flag pgId PG_ERR_INFO_VALID = true → t.cur.flag pgId PG_ERR_INFO_OVERFLOW = true)
      ∧ t.cur.get pgId PG_ERR_COUNT = satInc (2 ^ 32 - 1) (s.cur.get pgId PG_ERR_COUNT)
      ∧ { t.cur with regs := s.cur.regs, bus := s.cur.bus } = s.cur
      ∧ (∀ a, a ≠ pgId + PG_ERR_INFO.off → a ≠ pgId + PG_ERR_ADDR_LO.off → a ≠ pgId + PG_ERR_ADDR_HI.off → a ≠ pgId + PG_ERR_COUNT.off → t.cur.rd a = s.cur.rd a)) ∧
  (∀ (r : Requester) (x : Word) (p : Nat) (s : State), x.toNat % 4 = 0 →
      ¬(r = .debug ∧ s.cur.flag pgFuseMap FM_STAT_DBG_EN = false) → inGroups (regAddr r x.toNat) = true →
      inAon (regAddr r x.toNat) = false → pageAt (regAddr r x.toNat) = some p → s.vis.domainOn (domainOf p) = false →
      (regAddr r x.toNat) - p = PG_ID.off ∨ (regAddr r x.toNat) - p = PG_STAT.off →
      ∃ t, exec (.poweredDownAccess r x none) s = .next t
      ∧ t.vis.bus = { rdata := s.vis.readWord r (regAddr r x.toNat), error := false } ∧ { t.cur with bus := s.cur.bus } = s.cur
      ∧ { t.vis with bus := s.vis.bus } = s.vis) ∧
  (∀ (r : Requester) (x : Word) (p : Nat) (s : State), x.toNat % 4 = 0 →
      ¬(r = .debug ∧ s.cur.flag pgFuseMap FM_STAT_DBG_EN = false) → inGroups (regAddr r x.toNat) = true →
      inAon (regAddr r x.toNat) = false → pageAt (regAddr r x.toNat) = some p → s.vis.domainOn (domainOf p) = true → r ≠ .host →
      windowOf p = none → ∃ t, exec (.poweredDownAccess r x none) s = .next t
      ∧ t.vis.bus = { rdata := s.vis.readWord r (regAddr r x.toNat), error := false }
      ∧ t.cur.bus = { rdata := s.vis.readWord r (regAddr r x.toNat), error := false }) ∧
  (∀ (r : Requester) (x : Word) (p : Nat) (s : State), x.toNat % 4 = 0 →
      ¬(r = .debug ∧ s.cur.flag pgFuseMap FM_STAT_DBG_EN = false) → inGroups (regAddr r x.toNat) = true →
      inAon (regAddr r x.toNat) = false → pageAt (regAddr r x.toNat) = some p → s.vis.domainOn (domainOf p) = true → r ≠ .host →
      windowOf p = none → p ≠ pgTb → p ≠ pgLdg → p ≠ pgRsv → p ≠ pgPwr → p ≠ pgGpio → p ≠ pgProt → p < pgFk 0 ∨ pgCv 8 ≤ p →
      ∃ t, exec (.poweredDownAccess r x none) s = .next t
      ∧ t.vis.bus = { rdata := s.vis.readWord r (regAddr r x.toNat), error := false }
      ∧ t.cur.bus = { rdata := s.vis.readWord r (regAddr r x.toNat), error := false } ∧ { t.cur with bus := s.cur.bus } = s.cur
      ∧ { t.vis with bus := s.vis.bus } = s.vis) ∧
  (∀ (r : Requester) (x : Word) (p : Nat) (s : State), x.toNat % 4 = 0 →
      ¬(r = .debug ∧ s.cur.flag pgFuseMap FM_STAT_DBG_EN = false) → inGroups (regAddr r x.toNat) = true →
      inAon (regAddr r x.toNat) = false → pageAt (regAddr r x.toNat) = some p → s.vis.domainOn (domainOf p) = true → r = .host →
      windowOf p = none → (((List.range 14).any fun k => bar2Page (k * 0x1000) == some p) = true) → p ≠ pgTb → p ≠ pgLdg →
      p ≠ pgRsv → p ≠ pgPwr → p ≠ pgGpio → p ≠ pgProt → p < pgFk 0 ∨ pgCv 8 ≤ p →
      ∃ t, exec (.poweredDownAccess r x none) s = .next t
      ∧ t.vis.bus = { rdata := s.vis.readWord r (regAddr r x.toNat), error := false }
      ∧ t.cur.bus = { rdata := s.vis.readWord r (regAddr r x.toNat), error := false } ∧ { t.cur with bus := s.cur.bus } = s.cur
      ∧ { t.vis with bus := s.vis.bus } = s.vis) ∧
  (∀ (r : Requester) (x : Word) (w : Option Word) (p : Nat) (s : State), x.toNat % 4 = 0 →
      ¬(r = .debug ∧ s.cur.flag pgFuseMap FM_STAT_DBG_EN = false) → inGroups (regAddr r x.toNat) = true →
      inAon (regAddr r x.toNat) = false → pageAt (regAddr r x.toNat) = some p → s.vis.domainOn (domainOf p) = true → r = .host →
      windowOf p = none → (((List.range 14).any fun k => bar2Page (k * 0x1000) == some p) = false) →
      ∃ t, exec (.poweredDownAccess r x w) s = .next t ∧ t.cur = s.cur ∧ t.vis = s.vis) ∧
  (∀ (r : Requester) (x : Word) (p : Nat) (n : Nat) (s : State), x.toNat % 4 = 0 →
      ¬(r = .debug ∧ s.cur.flag pgFuseMap FM_STAT_DBG_EN = false) → inGroups (regAddr r x.toNat) = true →
      inAon (regAddr r x.toNat) = false → pageAt (regAddr r x.toNat) = some p → s.vis.domainOn (domainOf p) = true →
      windowOf p = some n → ∃ t, exec (.poweredDownAccess r x none) s = .next t
      ∧ (t.vis.bus = { rdata := (if r = .host ∧ s.vis.hostOwned n = false then 0 else s.vis.readWord r (regAddr r x.toNat)), error := false })
      ∧ (t.cur.bus = { rdata := (if r = .host ∧ s.vis.hostOwned n = false then 0 else s.vis.readWord r (regAddr r x.toNat)), error := false })
      ∧ { t.cur with bus := s.cur.bus } = s.cur ∧ { t.vis with bus := s.vis.bus } = s.vis) ∧
  (∀ (r : Requester) (x : Word) (w : Option Word) (s : State), x.toNat % 4 ≠ 0 →
      ∃ t, exec (.poweredDownAccess r x w) s = .next t ∧ t.cur = s.cur ∧ t.vis = s.vis) ∧
  (∀ (r : Requester) (x : Word) (s : State), x.toNat % 4 = 0 → ¬(r = .debug ∧ s.cur.flag pgFuseMap FM_STAT_DBG_EN = false) →
      r ≠ .host → inAon (regAddr r x.toNat) = true → ∃ t, exec (.poweredDownAccess r x none) s = .next t
      ∧ t.cur.bus = { rdata := BitVec.ofNat 32 (leNat (memRead s.cur.aon ((regAddr r x.toNat) - 0x40D10000) 4)), error := false }
      ∧ { t.cur with bus := s.cur.bus } = s.cur ∧ { t.vis with bus := s.vis.bus } = s.vis) ∧
  (∀ (r : Requester) (x v : Word) (p : Nat) (s : State), x.toNat % 4 = 0 →
      ¬(r = .debug ∧ s.cur.flag pgFuseMap FM_STAT_DBG_EN = false) → inGroups (regAddr r x.toNat) = true →
      inAon (regAddr r x.toNat) = false → pageAt (regAddr r x.toNat) = some p → s.vis.domainOn (domainOf p) = true → r ≠ .host →
      windowOf p = none → (regAddr r x.toNat) = p + PG_IRQ_EN.off → ∃ t, exec (.registerWrite r x v) s = .next t
      ∧ t.cur.rd (p + PG_IRQ_EN.off) = v ∧ t.vis.bus = { rdata := 0, error := false }
      ∧ t.cur.bus = { rdata := 0, error := false } ∧ { t.vis with bus := s.vis.bus } = s.vis
      ∧ { t.cur with regs := s.cur.regs, bus := s.cur.bus } = s.cur ∧ (∀ a, a ≠ p + PG_IRQ_EN.off → t.cur.rd a = s.cur.rd a)) ∧
  (∀ (r : Requester) (x v : Word) (p : Nat) (s : State), x.toNat % 4 = 0 →
      ¬(r = .debug ∧ s.cur.flag pgFuseMap FM_STAT_DBG_EN = false) → inGroups (regAddr r x.toNat) = true →
      inAon (regAddr r x.toNat) = false → pageAt (regAddr r x.toNat) = some p → s.vis.domainOn (domainOf p) = true → r ≠ .host →
      p = pgCan 0 ∨ p = pgCan 1 → p + 0x800 ≤ (regAddr r x.toNat) → (regAddr r x.toNat) < p + 0xD00 → s.vis.frozen p = false →
      ∃ t, exec (.registerWrite r x v) s = .next t ∧ t.cur.rd (regAddr r x.toNat) = v
      ∧ { t.cur with regs := s.cur.regs, bus := s.cur.bus } = s.cur ∧ (∀ a, a ≠ (regAddr r x.toNat) → t.cur.rd a = s.cur.rd a)) ∧
  (∀ (r : Requester) (x v : Word) (s : State), x.toNat % 4 = 0 → ¬(r = .debug ∧ s.cur.flag pgFuseMap FM_STAT_DBG_EN = false) →
      r ≠ .host → x.toNat = pgBank + BANK_MEAS_CFG_I_PULSE.off → s.vis.domainOn (domainOf pgBank) = true →
      s.vis.frozen pgBank = false → ∃ t, exec (.registerWrite r x v) s = .next t
      ∧ t.cur.get pgBank BANK_MEAS_CFG_I_PULSE = clampN 1 125 (bits v.toNat 0 7)
      ∧ (bits v.toNat 0 7 = 0 ∨ 125 < bits v.toNat 0 7 → t.cur.get pgBank PG_ERR_COUNT = satInc (2 ^ 32 - 1) (s.cur.get pgBank PG_ERR_COUNT))
      ∧ (1 ≤ bits v.toNat 0 7 ∧ bits v.toNat 0 7 ≤ 125 → t.cur.get pgBank PG_ERR_COUNT = s.cur.get pgBank PG_ERR_COUNT)
      ∧ (bits v.toNat 0 7 = 0 ∨ 125 < bits v.toNat 0 7 → s.cur.flag pgBank PG_ERR_INFO_VALID = false → t.cur.get pgBank PG_ERR_INFO_CODE = ErrCode.clamp.value)
      ∧ { t.cur with regs := s.cur.regs, bus := s.cur.bus } = s.cur
      ∧ (∀ a, a ≠ pgBank + BANK_MEAS_CFG_I_PULSE.off → a ≠ pgBank + PG_ERR_INFO.off → a ≠ pgBank + PG_ERR_ADDR_LO.off → a ≠ pgBank + PG_ERR_ADDR_HI.off → a ≠ pgBank + PG_ERR_COUNT.off → t.cur.rd a = s.cur.rd a)) ∧
  (∀ (r : Requester) (x v : Word) (p : Nat) (s : State), x.toNat % 4 = 0 →
      ¬(r = .debug ∧ s.cur.flag pgFuseMap FM_STAT_DBG_EN = false) → inGroups (regAddr r x.toNat) = true →
      inAon (regAddr r x.toNat) = false → pageAt (regAddr r x.toNat) = some p → s.vis.domainOn (domainOf p) = false →
      ∃ t, exec (.registerWrite r x v) s = .next t ∧ t.vis.bus = { rdata := 0, error := true }
      ∧ t.cur.bus = { rdata := 0, error := true } ∧ { t.vis with bus := s.vis.bus } = s.vis
      ∧ (s.cur.flag pgId PG_ERR_INFO_VALID = false → t.cur.get pgId PG_ERR_INFO_CODE = ErrCode.poweredDown.value ∧ t.cur.get pgId PG_ERR_ADDR_HI_REQ = r.code)
      ∧ (s.cur.flag pgId PG_ERR_INFO_VALID = true → t.cur.flag pgId PG_ERR_INFO_OVERFLOW = true)
      ∧ t.cur.get pgId PG_ERR_COUNT = satInc (2 ^ 32 - 1) (s.cur.get pgId PG_ERR_COUNT)
      ∧ { t.cur with regs := s.cur.regs, bus := s.cur.bus } = s.cur
      ∧ (∀ a, a ≠ pgId + PG_ERR_INFO.off → a ≠ pgId + PG_ERR_ADDR_LO.off → a ≠ pgId + PG_ERR_ADDR_HI.off → a ≠ pgId + PG_ERR_COUNT.off → t.cur.rd a = s.cur.rd a)) ∧
  (∀ (r : Requester) (x v : Word) (s : State), x.toNat % 4 = 0 → ¬(r = .debug ∧ s.cur.flag pgFuseMap FM_STAT_DBG_EN = false) →
      inGroups (regAddr r x.toNat) = true → inAon (regAddr r x.toNat) = false → pageAt (regAddr r x.toNat) = none →
      ∃ t, exec (.registerWrite r x v) s = .next t ∧ t.vis.bus = { rdata := 0, error := true }
      ∧ t.cur.bus = { rdata := 0, error := true } ∧ { t.vis with bus := s.vis.bus } = s.vis
      ∧ (s.cur.flag pgId PG_ERR_INFO_VALID = false → t.cur.get pgId PG_ERR_INFO_CODE = ErrCode.unmapped.value ∧ t.cur.get pgId PG_ERR_ADDR_HI_REQ = r.code)
      ∧ (s.cur.flag pgId PG_ERR_INFO_VALID = true → t.cur.flag pgId PG_ERR_INFO_OVERFLOW = true)
      ∧ t.cur.get pgId PG_ERR_COUNT = satInc (2 ^ 32 - 1) (s.cur.get pgId PG_ERR_COUNT)
      ∧ { t.cur with regs := s.cur.regs, bus := s.cur.bus } = s.cur
      ∧ (∀ a, a ≠ pgId + PG_ERR_INFO.off → a ≠ pgId + PG_ERR_ADDR_LO.off → a ≠ pgId + PG_ERR_ADDR_HI.off → a ≠ pgId + PG_ERR_COUNT.off → t.cur.rd a = s.cur.rd a)) ∧
  (∀ (r : Requester) (x v : Word) (p : Nat) (s : State), x.toNat % 4 = 0 →
      ¬(r = .debug ∧ s.cur.flag pgFuseMap FM_STAT_DBG_EN = false) → inGroups (regAddr r x.toNat) = true →
      inAon (regAddr r x.toNat) = false → pageAt (regAddr r x.toNat) = some p → s.vis.domainOn (domainOf p) = true → r = .host →
      windowOf p = none → (((List.range 14).any fun k => bar2Page (k * 0x1000) == some p) = true) →
      ∃ t, exec (.registerWrite r x v) s = .next t ∧ t.vis.bus = { rdata := 0, error := false }
      ∧ t.cur.bus = { rdata := 0, error := false } ∧ { t.vis with bus := s.vis.bus } = s.vis
      ∧ (s.cur.flag p PG_ERR_INFO_VALID = false → t.cur.get p PG_ERR_INFO_CODE = ErrCode.hostWrite.value ∧ t.cur.get p PG_ERR_ADDR_HI_REQ = r.code)
      ∧ (s.cur.flag p PG_ERR_INFO_VALID = true → t.cur.flag p PG_ERR_INFO_OVERFLOW = true)
      ∧ t.cur.get p PG_ERR_COUNT = satInc (2 ^ 32 - 1) (s.cur.get p PG_ERR_COUNT)
      ∧ { t.cur with regs := s.cur.regs, bus := s.cur.bus } = s.cur
      ∧ (∀ a, a ≠ p + PG_ERR_INFO.off → a ≠ p + PG_ERR_ADDR_LO.off → a ≠ p + PG_ERR_ADDR_HI.off → a ≠ p + PG_ERR_COUNT.off → t.cur.rd a = s.cur.rd a)) ∧
  (∀ (r : Requester) (x v : Word) (p : Nat) (s : State), x.toNat % 4 = 0 →
      ¬(r = .debug ∧ s.cur.flag pgFuseMap FM_STAT_DBG_EN = false) → inGroups (regAddr r x.toNat) = true →
      inAon (regAddr r x.toNat) = false → pageAt (regAddr r x.toNat) = some p → s.vis.domainOn (domainOf p) = true → r = .host →
      windowOf p = none → (((List.range 14).any fun k => bar2Page (k * 0x1000) == some p) = false) →
      ∃ t, exec (.registerWrite r x v) s = .next t ∧ t.cur = s.cur ∧ t.vis = s.vis) ∧
  (∀ (r : Requester) (x v : Word) (p : Nat) (n : Nat) (s : State), x.toNat % 4 = 0 →
      ¬(r = .debug ∧ s.cur.flag pgFuseMap FM_STAT_DBG_EN = false) → inGroups (regAddr r x.toNat) = true →
      inAon (regAddr r x.toNat) = false → pageAt (regAddr r x.toNat) = some p → s.vis.domainOn (domainOf p) = true →
      windowOf p = some n → s.cur.mayWrite r n = false → ∃ t, exec (.registerWrite r x v) s = .next t
      ∧ t.vis.bus = { rdata := 0, error := false } ∧ t.cur.bus = { rdata := 0, error := false }
      ∧ { t.cur with bus := s.cur.bus } = s.cur ∧ { t.vis with bus := s.vis.bus } = s.vis) ∧
  (∀ (r : Requester) (x v : Word) (s : State), x.toNat % 4 = 0 → ¬(r = .debug ∧ s.cur.flag pgFuseMap FM_STAT_DBG_EN = false) →
      r ≠ .host → inAon (regAddr r x.toNat) = true → 0x40D11000 ≤ (regAddr r x.toNat) →
      ∃ t, exec (.registerWrite r x v) s = .next t ∧ memRead t.cur.aon ((regAddr r x.toNat) - 0x40D10000) 4 = leBytes 4 v.toNat
      ∧ (∀ y, y < (regAddr r x.toNat) - 0x40D10000 ∨ (regAddr r x.toNat) - 0x40D10000 + 4 ≤ y → memGet t.cur.aon y = memGet s.cur.aon y)
      ∧ { t.cur with aon := s.cur.aon, bus := s.cur.bus } = s.cur) ∧
  (∀ (r : Requester) (x v : Word) (s : State), x.toNat % 4 = 0 → ¬(r = .debug ∧ s.cur.flag pgFuseMap FM_STAT_DBG_EN = false) →
      r ≠ .host → inAon (regAddr r x.toNat) = true → (regAddr r x.toNat) < 0x40D11000 →
      ∃ t, exec (.registerWrite r x v) s = .next t ∧ t.vis.bus = { rdata := 0, error := false }
      ∧ t.cur.bus = { rdata := 0, error := false } ∧ { t.cur with bus := s.cur.bus } = s.cur
      ∧ { t.vis with bus := s.vis.bus } = s.vis) ∧
  (∀ (r : Requester) (x v : Word) (s : State),
      x.toNat % 4 ≠ 0 ∨ (inGroups (regAddr r x.toNat) = false ∧ inAon (regAddr r x.toNat) = false) ∨ (r = .debug ∧ s.cur.flag pgFuseMap FM_STAT_DBG_EN = false) ∨ (r = .host ∧ inAon (regAddr r x.toNat) = true) →
      ∃ t, exec (.registerWrite r x v) s = .next t ∧ t.cur = s.cur ∧ t.vis = s.vis)

/-- SOFT_RESET returns a block to reset values but for RWS fields and the error capture; on the protected pages it, FREEZE
and ENABLE 0 are denied, one error per field. PG_IRQ_CLR clears the raw bits written 1 but those set in the same
Grain. A write of VALID clears the capture and keeps PG_ERR_COUNT. A software line set in a Grain stays set against a
clear. A commit of fault records takes at most 16 to an edge, those of lower PG_ID first, 64 wait, and the rest count
as LOST. (That IRQ_SW_SET and IRQ_SW_CLR read 0 is the model's choice, notes/assumptions/151.md.) Commands that it
says to complete, each on the conditions of its clauses: pgSoftReset, pgCtlDeniedWrite, pgIrqClrWrite, pgErrInfoClear,
irqSwSet, irqSwClr, faultRecordCommit. -/
def Obligations.PageHeaders : Prop :=
  (∀ (page : Word) (r : Requester) (f e : Bool) (p : Nat) (s : State), pageAt page.toNat = some p → protectedPage p = true →
      ∃ t, exec (.pgSoftReset page r f e) s = .next t
      ∧ t.cur.get p PG_ERR_COUNT = min (2 ^ 32 - 1) (s.cur.get p PG_ERR_COUNT + (1 + b2n f + b2n (!e)))
      ∧ (s.cur.flag p PG_ERR_INFO_VALID = false → t.cur.get p PG_ERR_INFO_CODE = (if f then ErrCode.freezeDenied else ErrCode.softResetDenied).value)
      ∧ t.vis = s.vis
      ∧ { t.cur with regs := s.cur.regs, host := s.cur.host, aon := s.cur.aon, fresh := s.cur.fresh, tb := s.cur.tb, rsv := s.cur.rsv, fls := s.cur.fls, scr := s.cur.scr, su := s.cur.su } = s.cur
      ∧ (∀ a, a ≠ p + PG_ERR_INFO.off → a ≠ p + PG_ERR_ADDR_LO.off → a ≠ p + PG_ERR_ADDR_HI.off → a ≠ p + PG_ERR_COUNT.off → t.cur.rd a = s.cur.rd a)) ∧
  (∀ (page : Word) (r : Requester) (f e : Bool) (p : Nat) (s : State), pageAt page.toNat = some p → protectedPage p = false →
      ∃ t, exec (.pgSoftReset page r f e) s = .next t
      ∧ (∀ a, p ≤ a → a < p + 0x1000 → p + PG_ERR_INFO.off ≤ a → a ≤ p + PG_ERR_COUNT.off → t.cur.rd a = s.cur.rd a)
      ∧ t.cur.rd (p + PG_IRQ_EN.off) = 0 ∧ t.cur.rd (p + PG_IRQ_RAW.off) = 0 ∧ t.cur.aon = s.cur.aon ∧ t.cur.scr = s.cur.scr
      ∧ t.cur.tb = s.cur.tb ∧ t.cur.ldg.lanes = s.cur.ldg.lanes ∧ t.cur.rsv = s.cur.rsv ∧ t.vis = s.vis) ∧
  (∀ (page : Word) (r : Requester) (v : Word) (p : Nat) (s : State), pageAt page.toNat = some p → protectedPage p = true →
      ∃ t, exec (.pgCtlDeniedWrite page r v) s = .next t
      ∧ t.cur.get p PG_ERR_COUNT = min (2 ^ 32 - 1) (s.cur.get p PG_ERR_COUNT + (bits v.toNat 2 1 + bits v.toNat 1 1 + (1 - bits v.toNat 0 1)))
      ∧ (s.cur.flag p PG_ERR_INFO_VALID = false → bits v.toNat 2 1 = 1 → t.cur.get p PG_ERR_INFO_CODE = ErrCode.freezeDenied.value)
      ∧ (s.cur.flag p PG_ERR_INFO_VALID = false → bits v.toNat 1 2 = 0 → bits v.toNat 0 1 = 0 → t.cur.get p PG_ERR_INFO_CODE = ErrCode.enableDenied.value)
      ∧ t.cur.get p PG_CTL = s.cur.get p PG_CTL ∧ t.vis = s.vis
      ∧ { t.cur with regs := s.cur.regs, host := s.cur.host, aon := s.cur.aon, fresh := s.cur.fresh, tb := s.cur.tb, rsv := s.cur.rsv, fls := s.cur.fls, scr := s.cur.scr, su := s.cur.su } = s.cur
      ∧ (∀ a, a ≠ p + PG_ERR_INFO.off → a ≠ p + PG_ERR_ADDR_LO.off → a ≠ p + PG_ERR_ADDR_HI.off → a ≠ p + PG_ERR_COUNT.off → t.cur.rd a = s.cur.rd a)) ∧
  (∀ (page : Word) (r : Requester) (v : Word) (s : State), (∀ p, pageAt page.toNat = some p → protectedPage p = false) →
      ∃ t, exec (.pgCtlDeniedWrite page r v) s = .next t ∧ t.cur = s.cur ∧ t.vis = s.vis) ∧
  (∀ (page v : Word) (p : Nat) (s : State), pageAt page.toNat = some p → ∃ t, exec (.pgIrqClrWrite page v) s = .next t
      ∧ (∀ i : Fin 32, bit (t.cur.get p PG_IRQ_RAW) i = (bit (s.cur.get p PG_IRQ_RAW) i && (!bit v.toNat i || bit (tabGet (fun _ => 0) s.cur.irqSet p) i)))
      ∧ t.vis = s.vis ∧ { t.cur with regs := s.cur.regs } = s.cur ∧ (∀ a, a ≠ p + PG_IRQ_RAW.off → t.cur.rd a = s.cur.rd a)) ∧
  (∀ (page : Word) (p : Nat) (s : State), pageAt page.toNat = some p → ∃ t, exec (.pgErrInfoClear page) s = .next t
      ∧ t.cur.rd (p + PG_ERR_INFO.off) = 0 ∧ t.cur.rd (p + PG_ERR_ADDR_LO.off) = 0 ∧ t.cur.rd (p + PG_ERR_ADDR_HI.off) = 0
      ∧ t.vis = s.vis ∧ { t.cur with regs := s.cur.regs } = s.cur
      ∧ (∀ a, a ≠ p + PG_ERR_INFO.off → a ≠ p + PG_ERR_ADDR_LO.off → a ≠ p + PG_ERR_ADDR_HI.off → t.cur.rd a = s.cur.rd a)) ∧
  (∀ (hi : Bool) (v : Word) (s : State), ∃ t, exec (.irqSwSet hi v) s = .next t
      ∧ (t.cur.swLines = s.cur.swLines ||| ((if hi then v.toNat * 2 ^ 32 else v.toNat) &&& swMask))
      ∧ (t.cur.tb = { s.cur.tb with swSet := s.cur.tb.swSet ||| ((if hi then v.toNat * 2 ^ 32 else v.toNat) &&& swMask) })
      ∧ t.vis = s.vis ∧ { t.cur with regs := s.cur.regs, tb := s.cur.tb } = s.cur
      ∧ (∀ a, a ≠ pgIrq + (IRQ_LEVEL.idx 6).off → a ≠ pgIrq + (IRQ_LEVEL.idx 7).off → t.cur.rd a = s.cur.rd a)) ∧
  (∀ (hi : Bool) (v : Word) (s : State), ∃ t, exec (.irqSwClr hi v) s = .next t
      ∧ (∀ i : Fin 64, bit t.cur.swLines i = (bit s.cur.swLines i && (!bit ((if hi then v.toNat * 2 ^ 32 else v.toNat) &&& swMask) i || bit s.cur.tb.swSet i)))
      ∧ t.vis = s.vis ∧ { t.cur with regs := s.cur.regs } = s.cur
      ∧ (∀ a, a ≠ pgIrq + (IRQ_LEVEL.idx 6).off → a ≠ pgIrq + (IRQ_LEVEL.idx 7).off → t.cur.rd a = s.cur.rd a)) ∧
  (∀ (s : State), ∃ t, exec (.faultRecordCommit) s = .next t
      ∧ t.cur.fj.recs = ((numberRecs (s.cur.get pgFj FJ_HEAD) ((s.cur.fj.queue ++ sortRecs s.cur.fj.staged).take (16 - s.cur.fj.done))).reverse ++ s.cur.fj.recs).take 256
      ∧ t.cur.fj.queue = ((s.cur.fj.queue ++ sortRecs s.cur.fj.staged).drop ((s.cur.fj.queue ++ sortRecs s.cur.fj.staged).take (16 - s.cur.fj.done)).length).take 64
      ∧ t.cur.fj.staged = []
      ∧ t.cur.get pgFj FJ_HEAD = (s.cur.get pgFj FJ_HEAD + ((s.cur.fj.queue ++ sortRecs s.cur.fj.staged).take (16 - s.cur.fj.done)).length) % 2 ^ 32
      ∧ t.cur.get pgFj FJ_STAT_LOST = min (2 ^ FJ_STAT_LOST.width - 1) (s.cur.get pgFj FJ_STAT_LOST + (((s.cur.fj.queue ++ sortRecs s.cur.fj.staged).drop ((s.cur.fj.queue ++ sortRecs s.cur.fj.staged).take (16 - s.cur.fj.done)).length).length - 64))
      ∧ (((s.cur.fj.queue ++ sortRecs s.cur.fj.staged).take (16 - s.cur.fj.done)) ≠ [] → t.cur.flag pgFj FJ_IRQ_RECORD = true)
      ∧ (64 < ((s.cur.fj.queue ++ sortRecs s.cur.fj.staged).drop ((s.cur.fj.queue ++ sortRecs s.cur.fj.staged).take (16 - s.cur.fj.done)).length).length → t.cur.flag pgFj FJ_IRQ_LOST = true)
      ∧ t.vis = s.vis ∧ { t.cur with regs := s.cur.regs, irqSet := s.cur.irqSet, fj := s.cur.fj } = s.cur
      ∧ (∀ a, a ≠ pgFj + FJ_HEAD.off → a ≠ pgFj + FJ_STAT.off → a ≠ pgFj + PG_IRQ_RAW.off → t.cur.rd a = s.cur.rd a)) ∧
  (∀ (page : Word) (r : Requester) (f e : Bool) (s : State), pageAt page.toNat = none →
      ∃ t, exec (.pgSoftReset page r f e) s = .next t ∧ t.cur = s.cur ∧ t.vis = s.vis)

/-- The minimum is E_FIXED + MIN_CW x E_CW. In every state without a main-supply loss (during one no recompute runs, R124)
the recompute leaves BELOW_MIN set exactly when the AVAIL it leaves is below that minimum, whatever C, ESR, samples
and derating stand. While the committed BELOW_MIN is 1, no APPEND is accepted in any window, whatever its operands;
one that BELOW_MIN alone refuses is refused with RESERVE (the minimum of R7 and R10). -/
def Obligations.BelowMinimum : Prop :=
  (∀ d : Dev, d.rsvMin = d.get pgRsv RSV_E_FIXED + d.get pgRsv RSV_MIN_MIN_CW * d.get pgRsv RSV_E_UNIT_E_CW) ∧
  (∀ d : Dev, d.flag pgRsv RSV_STAT_PF = false →
    d.recompute.flag pgRsv RSV_STAT_BELOW_MIN = decide (d.recompute.get pgRsv RSV_AVAIL < d.recompute.rsvMin) ∧
    d.recompute.rsvMin = d.rsvMin) ∧
  (∀ (vis d : Dev) (w : Nat) (k : TaskOp), vis.flag pgRsv RSV_STAT_BELOW_MIN = true →
    decide65 vis d w (some .append) k ≠ none ∧
    (decide65 (vis.setB pgRsv RSV_STAT_BELOW_MIN false) d w (some .append) k = none →
      decide65 vis d w (some .append) k = some .reserve))

/-- After reset the queue is empty; GTIME is 0 and EPOCH_LOST is 1; both copies of the device are equal, memories hold
nothing listed and every register but TB_STAT stands at the value of its table; the ledger holds no task, lane,
context or hold; the FIFOs are empty; no fault record is kept; the power controller is awake; BELOW_MIN is 1 and AVAIL
0; stores are canonical and the LSN counter, 1, is sound. That the state is the one after the first power-up of VAON,
with the counter at 1, is the model's reading (notes/assumptions/2.md). -/
def Obligations.ResetState : Prop :=
  State.reset.pending = [] ∧ State.reset.vis = State.reset.cur ∧ State.reset.cur.tb.gtime = 0 ∧
  State.reset.cur.flag pgTb TB_STAT_EPOCH_LOST = true ∧ (∀ a, a ≠ pgTb + TB_STAT.off → State.reset.cur.rd a = resetOf a) ∧
  State.reset.cur.mem = [] ∧ State.reset.cur.host = [] ∧ State.reset.cur.aon = [] ∧
  State.reset.cur.ldg.tasks = [] ∧ State.reset.cur.ldg.lanes = [] ∧ State.reset.cur.ldg.ctxs = [] ∧ State.reset.cur.ldg.holds = [] ∧
  (∀ k : Fin 64, (State.reset.cur.fifo k).packets = [] ∧ (State.reset.cur.fifo k).held = false) ∧
  State.reset.cur.fj.recs = [] ∧ State.reset.cur.pwr.phase = .awake ∧
  State.reset.cur.flag pgRsv RSV_STAT_BELOW_MIN = true ∧ State.reset.cur.get pgRsv RSV_AVAIL = 0 ∧
  State.reset.storesWf = true ∧ State.reset.lsnOk = true ∧ State.reset.cur.ldg.nextLsn = 1

/-- For every command and every state, exec answers a next state, and that state's queue is the queue it was given; so
every step answers a next state, with the queue one command shorter, or as it was when empty. -/
def Obligations.EveryCommandCompletes : Prop :=
  (∀ (c : Instr) (s : State), ∃ t, exec c s = .next t ∧ t.pending = s.pending) ∧
  (∀ s : State, ∃ t, step s = .next t ∧ t.pending = s.pending.tail)

/-- For every state whose register file, device memory, host memory and always-on SRAM are canonical in both copies of the
device and in those that the Grain began with (addresses strictly rising, no entry equal to what an unlisted address
reads as), and every command at the front of its queue, the state that the step answers has them canonical too, so
that equal memories stay equal data. -/
def Obligations.StoresStayCanonical : Prop :=
  ∀ s t : State, s.storesWf = true → step s = .next t → t.storesWf = true

/-- Call a state sound when in both copies of the device, and in those that the Grain began with, the next LSN is above 0
and below the reservation limit, the limit is a multiple of 2^20 that does not pass the persistent one, the journal's
LSNs rise strictly and lie below the counter, and the same holds of the numbers in every commit copy in flash. From
every sound state, every step answers a sound state: across acceptance, retirement, commits, restores and resets no
LSN is given twice or out of order. -/
def Obligations.LsnsStaySound : Prop :=
  ∀ s t : State, s.lsnOk = true → step s = .next t → t.lsnOk = true

/-- From every state in which the committed fuse map is a beginning of the one being decided and of the one that the Grain
began with, and the committed rollback counter is not above theirs, every step answers such a state, in which moreover
the committed fuse map begins with the one before and the committed rollback counter has not fallen; a step that takes
no Grain or Stone edge keeps both of the copy being decided, too. Burned repairs and rollback fuses survive every
reset, power state, commit, overrun and loss of VAON. -/
def Obligations.BurnedFusesStand : Prop :=
  ∀ s t : State, s.fusesOk = true → step s = .next t → t.fusesOk = true ∧ fusesUpTo s.vis t.vis = true ∧
    ((∀ i z, s.pending.head? ≠ some (.grainEdge i) ∧ s.pending.head? ≠ some (.stoneEdge i z)) → fusesUpTo s.cur t.cur = true)
end

