-- ==== Sys2Proof/Laws/State.lean ====
section
/-! SUPPORT. One lemma for each field of `Dev` and `State` and each shared update: what the update leaves as it was. -/

namespace Sys2Proof.Machine

set_option Elab.async false

open Sys2Proof

/-! ### The two copies of the device -/

@[simp] theorem State.dec_cur (s : State) (f : Dev → Dev → Dev) : (s.dec f).cur = f s.vis s.cur := rfl
@[simp] theorem State.dec_vis (s : State) (f : Dev → Dev → Dev) : (s.dec f).vis = s.vis := rfl
@[simp] theorem State.dec_pending (s : State) (f : Dev → Dev → Dev) : (s.dec f).pending = s.pending := rfl
@[simp] theorem State.dec_grain (s : State) (f : Dev → Dev → Dev) : (s.dec f).grain = s.grain := rfl
@[simp] theorem State.both_cur (s : State) (f : Dev → Dev) : (s.both f).cur = f s.cur := rfl
@[simp] theorem State.both_vis (s : State) (f : Dev → Dev) : (s.both f).vis = f s.vis := rfl
@[simp] theorem State.both_pending (s : State) (f : Dev → Dev) : (s.both f).pending = s.pending := rfl
@[simp] theorem State.both_grain (s : State) (f : Dev → Dev) : (s.both f).grain = s.grain := rfl
@[simp] theorem State.ledger_vis (s : State) (f : Dev → Dev → Dev) : (s.ledger f).vis = s.vis := by
  unfold State.ledger; split <;> rfl
@[simp] theorem State.ledger_pending (s : State) (f : Dev → Dev → Dev) : (s.ledger f).pending = s.pending := by
  unfold State.ledger; split <;> rfl
@[simp] theorem State.ledger_grain (s : State) (f : Dev → Dev → Dev) : (s.ledger f).grain = s.grain := by
  unfold State.ledger; split <;> rfl
/-- While no commit runs a ledger decision is a decision (R128). -/
theorem State.ledger_cur (s : State) (f : Dev → Dev → Dev) (h : s.cur.rsv.committing = false) :
    (s.ledger f).cur = f s.vis s.cur := by
  simp [State.ledger, h]

/-! ### Commands noted in a Grain: `noting` has the effect of the command and touches the Grain besides, nothing else -/

@[simp] theorem State.noting_cur (s : State) (i : Noted) (f : State → State) : (s.noting i f).cur = (f s).cur := rfl
@[simp] theorem State.noting_vis (s : State) (i : Noted) (f : State → State) : (s.noting i f).vis = (f s).vis := rfl
@[simp] theorem State.noting_pending (s : State) (i : Noted) (f : State → State) : (s.noting i f).pending = (f s).pending := rfl
/-- While DCLK runs the command joins those of the Grain (R31). -/
theorem State.noting_running (s : State) (i : Noted) (f : State → State) (hs : s.cur.clockOn = true)
    (ht : (f s).cur.clockOn = true) :
    (s.noting i f).grain = { s.grain with done := s.grain.done ++ [i] } := by
  simp [State.noting, hs, ht]
/-- Where it does not run the next Grain begins from the state that the command leaves (R42). -/
theorem State.noting_stopped (s : State) (i : Noted) (f : State → State) (h : (s.cur.clockOn && (f s).cur.clockOn) = false) :
    (s.noting i f).grain = { cur := (f s).cur, vis := (f s).vis } := by
  simp [State.noting, h]

/-! ### The device -/

/-- What holds of both branches of an if holds of the if. -/
theorem ite_both {c : Prop} [Decidable c] {α β : Type} {a b : α} {x : β} (f : α → β) (ha : f a = x) (hb : f b = x) :
    f (if c then a else b) = x := by
  split <;> assumption

/-- A register read depends on the register file alone. -/
theorem Dev.rd_congr {d e : Dev} (h : d.regs = e.regs) (a : Nat) : d.rd a = e.rd a := by rw [Dev.rd, Dev.rd, h]
theorem Dev.get_congr {d e : Dev} (h : d.regs = e.regs) (p : Nat) (f : Fld) : d.get p f = e.get p f := by
  rw [Dev.get, Dev.get, Dev.rd_congr h]
theorem Dev.getI_congr {d e : Dev} (h : d.regs = e.regs) (p : Nat) (f : Fld) : d.getI p f = e.getI p f := by
  rw [Dev.getI, Dev.getI, Dev.get_congr h]
theorem Dev.flag_congr {d e : Dev} (h : d.regs = e.regs) (p : Nat) (f : Fld) : d.flag p f = e.flag p f := by
  rw [Dev.flag, Dev.flag, Dev.get_congr h]

/-! `wr` -/
@[simp] theorem Dev.wr_irqSet (d : Dev) (a : Nat) (v : Word) : (d.wr a v).irqSet = d.irqSet := rfl
@[simp] theorem Dev.wr_mem (d : Dev) (a : Nat) (v : Word) : (d.wr a v).mem = d.mem := rfl
@[simp] theorem Dev.wr_host (d : Dev) (a : Nat) (v : Word) : (d.wr a v).host = d.host := rfl
@[simp] theorem Dev.wr_aon (d : Dev) (a : Nat) (v : Word) : (d.wr a v).aon = d.aon := rfl
@[simp] theorem Dev.wr_fresh (d : Dev) (a : Nat) (v : Word) : (d.wr a v).fresh = d.fresh := rfl
@[simp] theorem Dev.wr_tb (d : Dev) (a : Nat) (v : Word) : (d.wr a v).tb = d.tb := rfl
@[simp] theorem Dev.wr_bus (d : Dev) (a : Nat) (v : Word) : (d.wr a v).bus = d.bus := rfl
@[simp] theorem Dev.wr_fj (d : Dev) (a : Nat) (v : Word) : (d.wr a v).fj = d.fj := rfl
@[simp] theorem Dev.wr_ldg (d : Dev) (a : Nat) (v : Word) : (d.wr a v).ldg = d.ldg := rfl
@[simp] theorem Dev.wr_rsv (d : Dev) (a : Nat) (v : Word) : (d.wr a v).rsv = d.rsv := rfl
@[simp] theorem Dev.wr_stg (d : Dev) (a : Nat) (v : Word) : (d.wr a v).stg = d.stg := rfl
@[simp] theorem Dev.wr_fls (d : Dev) (a : Nat) (v : Word) : (d.wr a v).fls = d.fls := rfl
@[simp] theorem Dev.wr_mc (d : Dev) (a : Nat) (v : Word) : (d.wr a v).mc = d.mc := rfl
@[simp] theorem Dev.wr_fth (d : Dev) (a : Nat) (v : Word) : (d.wr a v).fth = d.fth := rfl
@[simp] theorem Dev.wr_owp (d : Dev) (a : Nat) (v : Word) : (d.wr a v).owp = d.owp := rfl
@[simp] theorem Dev.wr_ell (d : Dev) (a : Nat) (v : Word) : (d.wr a v).ell = d.ell := rfl
@[simp] theorem Dev.wr_cmt (d : Dev) (a : Nat) (v : Word) : (d.wr a v).cmt = d.cmt := rfl
@[simp] theorem Dev.wr_axes (d : Dev) (a : Nat) (v : Word) : (d.wr a v).axes = d.axes := rfl
@[simp] theorem Dev.wr_encSet (d : Dev) (a : Nat) (v : Word) : (d.wr a v).encSet = d.encSet := rfl
@[simp] theorem Dev.wr_ud (d : Dev) (a : Nat) (v : Word) : (d.wr a v).ud = d.ud := rfl
@[simp] theorem Dev.wr_pwr (d : Dev) (a : Nat) (v : Word) : (d.wr a v).pwr = d.pwr := rfl
@[simp] theorem Dev.wr_scr (d : Dev) (a : Nat) (v : Word) : (d.wr a v).scr = d.scr := rfl
@[simp] theorem Dev.wr_prt (d : Dev) (a : Nat) (v : Word) : (d.wr a v).prt = d.prt := rfl
@[simp] theorem Dev.wr_cal (d : Dev) (a : Nat) (v : Word) : (d.wr a v).cal = d.cal := rfl
@[simp] theorem Dev.wr_lnk (d : Dev) (a : Nat) (v : Word) : (d.wr a v).lnk = d.lnk := rfl
@[simp] theorem Dev.wr_su (d : Dev) (a : Nat) (v : Word) : (d.wr a v).su = d.su := rfl

/-! `put` -/
@[simp] theorem Dev.put_irqSet (d : Dev) (p : Nat) (f : Fld) (v : Nat) : (d.put p f v).irqSet = d.irqSet := rfl
@[simp] theorem Dev.put_mem (d : Dev) (p : Nat) (f : Fld) (v : Nat) : (d.put p f v).mem = d.mem := rfl
@[simp] theorem Dev.put_host (d : Dev) (p : Nat) (f : Fld) (v : Nat) : (d.put p f v).host = d.host := rfl
@[simp] theorem Dev.put_aon (d : Dev) (p : Nat) (f : Fld) (v : Nat) : (d.put p f v).aon = d.aon := rfl
@[simp] theorem Dev.put_fresh (d : Dev) (p : Nat) (f : Fld) (v : Nat) : (d.put p f v).fresh = d.fresh := rfl
@[simp] theorem Dev.put_tb (d : Dev) (p : Nat) (f : Fld) (v : Nat) : (d.put p f v).tb = d.tb := rfl
@[simp] theorem Dev.put_bus (d : Dev) (p : Nat) (f : Fld) (v : Nat) : (d.put p f v).bus = d.bus := rfl
@[simp] theorem Dev.put_fj (d : Dev) (p : Nat) (f : Fld) (v : Nat) : (d.put p f v).fj = d.fj := rfl
@[simp] theorem Dev.put_ldg (d : Dev) (p : Nat) (f : Fld) (v : Nat) : (d.put p f v).ldg = d.ldg := rfl
@[simp] theorem Dev.put_rsv (d : Dev) (p : Nat) (f : Fld) (v : Nat) : (d.put p f v).rsv = d.rsv := rfl
@[simp] theorem Dev.put_stg (d : Dev) (p : Nat) (f : Fld) (v : Nat) : (d.put p f v).stg = d.stg := rfl
@[simp] theorem Dev.put_fls (d : Dev) (p : Nat) (f : Fld) (v : Nat) : (d.put p f v).fls = d.fls := rfl
@[simp] theorem Dev.put_mc (d : Dev) (p : Nat) (f : Fld) (v : Nat) : (d.put p f v).mc = d.mc := rfl
@[simp] theorem Dev.put_fth (d : Dev) (p : Nat) (f : Fld) (v : Nat) : (d.put p f v).fth = d.fth := rfl
@[simp] theorem Dev.put_owp (d : Dev) (p : Nat) (f : Fld) (v : Nat) : (d.put p f v).owp = d.owp := rfl
@[simp] theorem Dev.put_ell (d : Dev) (p : Nat) (f : Fld) (v : Nat) : (d.put p f v).ell = d.ell := rfl
@[simp] theorem Dev.put_cmt (d : Dev) (p : Nat) (f : Fld) (v : Nat) : (d.put p f v).cmt = d.cmt := rfl
@[simp] theorem Dev.put_axes (d : Dev) (p : Nat) (f : Fld) (v : Nat) : (d.put p f v).axes = d.axes := rfl
@[simp] theorem Dev.put_encSet (d : Dev) (p : Nat) (f : Fld) (v : Nat) : (d.put p f v).encSet = d.encSet := rfl
@[simp] theorem Dev.put_ud (d : Dev) (p : Nat) (f : Fld) (v : Nat) : (d.put p f v).ud = d.ud := rfl
@[simp] theorem Dev.put_pwr (d : Dev) (p : Nat) (f : Fld) (v : Nat) : (d.put p f v).pwr = d.pwr := rfl
@[simp] theorem Dev.put_scr (d : Dev) (p : Nat) (f : Fld) (v : Nat) : (d.put p f v).scr = d.scr := rfl
@[simp] theorem Dev.put_prt (d : Dev) (p : Nat) (f : Fld) (v : Nat) : (d.put p f v).prt = d.prt := rfl
@[simp] theorem Dev.put_cal (d : Dev) (p : Nat) (f : Fld) (v : Nat) : (d.put p f v).cal = d.cal := rfl
@[simp] theorem Dev.put_lnk (d : Dev) (p : Nat) (f : Fld) (v : Nat) : (d.put p f v).lnk = d.lnk := rfl
@[simp] theorem Dev.put_su (d : Dev) (p : Nat) (f : Fld) (v : Nat) : (d.put p f v).su = d.su := rfl

/-! `setB` -/
@[simp] theorem Dev.setB_irqSet (d : Dev) (p : Nat) (f : Fld) (b : Bool) : (d.setB p f b).irqSet = d.irqSet := Dev.put_irqSet d p f _
@[simp] theorem Dev.setB_mem (d : Dev) (p : Nat) (f : Fld) (b : Bool) : (d.setB p f b).mem = d.mem := Dev.put_mem d p f _
@[simp] theorem Dev.setB_host (d : Dev) (p : Nat) (f : Fld) (b : Bool) : (d.setB p f b).host = d.host := Dev.put_host d p f _
@[simp] theorem Dev.setB_aon (d : Dev) (p : Nat) (f : Fld) (b : Bool) : (d.setB p f b).aon = d.aon := Dev.put_aon d p f _
@[simp] theorem Dev.setB_fresh (d : Dev) (p : Nat) (f : Fld) (b : Bool) : (d.setB p f b).fresh = d.fresh := Dev.put_fresh d p f _
@[simp] theorem Dev.setB_tb (d : Dev) (p : Nat) (f : Fld) (b : Bool) : (d.setB p f b).tb = d.tb := Dev.put_tb d p f _
@[simp] theorem Dev.setB_bus (d : Dev) (p : Nat) (f : Fld) (b : Bool) : (d.setB p f b).bus = d.bus := Dev.put_bus d p f _
@[simp] theorem Dev.setB_fj (d : Dev) (p : Nat) (f : Fld) (b : Bool) : (d.setB p f b).fj = d.fj := Dev.put_fj d p f _
@[simp] theorem Dev.setB_ldg (d : Dev) (p : Nat) (f : Fld) (b : Bool) : (d.setB p f b).ldg = d.ldg := Dev.put_ldg d p f _
@[simp] theorem Dev.setB_rsv (d : Dev) (p : Nat) (f : Fld) (b : Bool) : (d.setB p f b).rsv = d.rsv := Dev.put_rsv d p f _
@[simp] theorem Dev.setB_stg (d : Dev) (p : Nat) (f : Fld) (b : Bool) : (d.setB p f b).stg = d.stg := Dev.put_stg d p f _
@[simp] theorem Dev.setB_fls (d : Dev) (p : Nat) (f : Fld) (b : Bool) : (d.setB p f b).fls = d.fls := Dev.put_fls d p f _
@[simp] theorem Dev.setB_mc (d : Dev) (p : Nat) (f : Fld) (b : Bool) : (d.setB p f b).mc = d.mc := Dev.put_mc d p f _
@[simp] theorem Dev.setB_fth (d : Dev) (p : Nat) (f : Fld) (b : Bool) : (d.setB p f b).fth = d.fth := Dev.put_fth d p f _
@[simp] theorem Dev.setB_owp (d : Dev) (p : Nat) (f : Fld) (b : Bool) : (d.setB p f b).owp = d.owp := Dev.put_owp d p f _
@[simp] theorem Dev.setB_ell (d : Dev) (p : Nat) (f : Fld) (b : Bool) : (d.setB p f b).ell = d.ell := Dev.put_ell d p f _
@[simp] theorem Dev.setB_cmt (d : Dev) (p : Nat) (f : Fld) (b : Bool) : (d.setB p f b).cmt = d.cmt := Dev.put_cmt d p f _
@[simp] theorem Dev.setB_axes (d : Dev) (p : Nat) (f : Fld) (b : Bool) : (d.setB p f b).axes = d.axes := Dev.put_axes d p f _
@[simp] theorem Dev.setB_encSet (d : Dev) (p : Nat) (f : Fld) (b : Bool) : (d.setB p f b).encSet = d.encSet := Dev.put_encSet d p f _
@[simp] theorem Dev.setB_ud (d : Dev) (p : Nat) (f : Fld) (b : Bool) : (d.setB p f b).ud = d.ud := Dev.put_ud d p f _
@[simp] theorem Dev.setB_pwr (d : Dev) (p : Nat) (f : Fld) (b : Bool) : (d.setB p f b).pwr = d.pwr := Dev.put_pwr d p f _
@[simp] theorem Dev.setB_scr (d : Dev) (p : Nat) (f : Fld) (b : Bool) : (d.setB p f b).scr = d.scr := Dev.put_scr d p f _
@[simp] theorem Dev.setB_prt (d : Dev) (p : Nat) (f : Fld) (b : Bool) : (d.setB p f b).prt = d.prt := Dev.put_prt d p f _
@[simp] theorem Dev.setB_cal (d : Dev) (p : Nat) (f : Fld) (b : Bool) : (d.setB p f b).cal = d.cal := Dev.put_cal d p f _
@[simp] theorem Dev.setB_lnk (d : Dev) (p : Nat) (f : Fld) (b : Bool) : (d.setB p f b).lnk = d.lnk := Dev.put_lnk d p f _
@[simp] theorem Dev.setB_su (d : Dev) (p : Nat) (f : Fld) (b : Bool) : (d.setB p f b).su = d.su := Dev.put_su d p f _

/-! `putI` -/
@[simp] theorem Dev.putI_irqSet (d : Dev) (p : Nat) (f : Fld) (i : Int) : (d.putI p f i).irqSet = d.irqSet := Dev.put_irqSet d p f _
@[simp] theorem Dev.putI_mem (d : Dev) (p : Nat) (f : Fld) (i : Int) : (d.putI p f i).mem = d.mem := Dev.put_mem d p f _
@[simp] theorem Dev.putI_host (d : Dev) (p : Nat) (f : Fld) (i : Int) : (d.putI p f i).host = d.host := Dev.put_host d p f _
@[simp] theorem Dev.putI_aon (d : Dev) (p : Nat) (f : Fld) (i : Int) : (d.putI p f i).aon = d.aon := Dev.put_aon d p f _
@[simp] theorem Dev.putI_fresh (d : Dev) (p : Nat) (f : Fld) (i : Int) : (d.putI p f i).fresh = d.fresh := Dev.put_fresh d p f _
@[simp] theorem Dev.putI_tb (d : Dev) (p : Nat) (f : Fld) (i : Int) : (d.putI p f i).tb = d.tb := Dev.put_tb d p f _
@[simp] theorem Dev.putI_bus (d : Dev) (p : Nat) (f : Fld) (i : Int) : (d.putI p f i).bus = d.bus := Dev.put_bus d p f _
@[simp] theorem Dev.putI_fj (d : Dev) (p : Nat) (f : Fld) (i : Int) : (d.putI p f i).fj = d.fj := Dev.put_fj d p f _
@[simp] theorem Dev.putI_ldg (d : Dev) (p : Nat) (f : Fld) (i : Int) : (d.putI p f i).ldg = d.ldg := Dev.put_ldg d p f _
@[simp] theorem Dev.putI_rsv (d : Dev) (p : Nat) (f : Fld) (i : Int) : (d.putI p f i).rsv = d.rsv := Dev.put_rsv d p f _
@[simp] theorem Dev.putI_stg (d : Dev) (p : Nat) (f : Fld) (i : Int) : (d.putI p f i).stg = d.stg := Dev.put_stg d p f _
@[simp] theorem Dev.putI_fls (d : Dev) (p : Nat) (f : Fld) (i : Int) : (d.putI p f i).fls = d.fls := Dev.put_fls d p f _
@[simp] theorem Dev.putI_mc (d : Dev) (p : Nat) (f : Fld) (i : Int) : (d.putI p f i).mc = d.mc := Dev.put_mc d p f _
@[simp] theorem Dev.putI_fth (d : Dev) (p : Nat) (f : Fld) (i : Int) : (d.putI p f i).fth = d.fth := Dev.put_fth d p f _
@[simp] theorem Dev.putI_owp (d : Dev) (p : Nat) (f : Fld) (i : Int) : (d.putI p f i).owp = d.owp := Dev.put_owp d p f _
@[simp] theorem Dev.putI_ell (d : Dev) (p : Nat) (f : Fld) (i : Int) : (d.putI p f i).ell = d.ell := Dev.put_ell d p f _
@[simp] theorem Dev.putI_cmt (d : Dev) (p : Nat) (f : Fld) (i : Int) : (d.putI p f i).cmt = d.cmt := Dev.put_cmt d p f _
@[simp] theorem Dev.putI_axes (d : Dev) (p : Nat) (f : Fld) (i : Int) : (d.putI p f i).axes = d.axes := Dev.put_axes d p f _
@[simp] theorem Dev.putI_encSet (d : Dev) (p : Nat) (f : Fld) (i : Int) : (d.putI p f i).encSet = d.encSet := Dev.put_encSet d p f _
@[simp] theorem Dev.putI_ud (d : Dev) (p : Nat) (f : Fld) (i : Int) : (d.putI p f i).ud = d.ud := Dev.put_ud d p f _
@[simp] theorem Dev.putI_pwr (d : Dev) (p : Nat) (f : Fld) (i : Int) : (d.putI p f i).pwr = d.pwr := Dev.put_pwr d p f _
@[simp] theorem Dev.putI_scr (d : Dev) (p : Nat) (f : Fld) (i : Int) : (d.putI p f i).scr = d.scr := Dev.put_scr d p f _
@[simp] theorem Dev.putI_prt (d : Dev) (p : Nat) (f : Fld) (i : Int) : (d.putI p f i).prt = d.prt := Dev.put_prt d p f _
@[simp] theorem Dev.putI_cal (d : Dev) (p : Nat) (f : Fld) (i : Int) : (d.putI p f i).cal = d.cal := Dev.put_cal d p f _
@[simp] theorem Dev.putI_lnk (d : Dev) (p : Nat) (f : Fld) (i : Int) : (d.putI p f i).lnk = d.lnk := Dev.put_lnk d p f _
@[simp] theorem Dev.putI_su (d : Dev) (p : Nat) (f : Fld) (i : Int) : (d.putI p f i).su = d.su := Dev.put_su d p f _

/-! `put64` -/
@[simp] theorem Dev.put64_irqSet (d : Dev) (p : Nat) (lo hi : Fld) (v : Nat) : (d.put64 p lo hi v).irqSet = d.irqSet := (Dev.put_irqSet _ p hi _).trans (Dev.put_irqSet d p lo _)
@[simp] theorem Dev.put64_mem (d : Dev) (p : Nat) (lo hi : Fld) (v : Nat) : (d.put64 p lo hi v).mem = d.mem := (Dev.put_mem _ p hi _).trans (Dev.put_mem d p lo _)
@[simp] theorem Dev.put64_host (d : Dev) (p : Nat) (lo hi : Fld) (v : Nat) : (d.put64 p lo hi v).host = d.host := (Dev.put_host _ p hi _).trans (Dev.put_host d p lo _)
@[simp] theorem Dev.put64_aon (d : Dev) (p : Nat) (lo hi : Fld) (v : Nat) : (d.put64 p lo hi v).aon = d.aon := (Dev.put_aon _ p hi _).trans (Dev.put_aon d p lo _)
@[simp] theorem Dev.put64_fresh (d : Dev) (p : Nat) (lo hi : Fld) (v : Nat) : (d.put64 p lo hi v).fresh = d.fresh := (Dev.put_fresh _ p hi _).trans (Dev.put_fresh d p lo _)
@[simp] theorem Dev.put64_tb (d : Dev) (p : Nat) (lo hi : Fld) (v : Nat) : (d.put64 p lo hi v).tb = d.tb := (Dev.put_tb _ p hi _).trans (Dev.put_tb d p lo _)
@[simp] theorem Dev.put64_bus (d : Dev) (p : Nat) (lo hi : Fld) (v : Nat) : (d.put64 p lo hi v).bus = d.bus := (Dev.put_bus _ p hi _).trans (Dev.put_bus d p lo _)
@[simp] theorem Dev.put64_fj (d : Dev) (p : Nat) (lo hi : Fld) (v : Nat) : (d.put64 p lo hi v).fj = d.fj := (Dev.put_fj _ p hi _).trans (Dev.put_fj d p lo _)
@[simp] theorem Dev.put64_ldg (d : Dev) (p : Nat) (lo hi : Fld) (v : Nat) : (d.put64 p lo hi v).ldg = d.ldg := (Dev.put_ldg _ p hi _).trans (Dev.put_ldg d p lo _)
@[simp] theorem Dev.put64_rsv (d : Dev) (p : Nat) (lo hi : Fld) (v : Nat) : (d.put64 p lo hi v).rsv = d.rsv := (Dev.put_rsv _ p hi _).trans (Dev.put_rsv d p lo _)
@[simp] theorem Dev.put64_stg (d : Dev) (p : Nat) (lo hi : Fld) (v : Nat) : (d.put64 p lo hi v).stg = d.stg := (Dev.put_stg _ p hi _).trans (Dev.put_stg d p lo _)
@[simp] theorem Dev.put64_fls (d : Dev) (p : Nat) (lo hi : Fld) (v : Nat) : (d.put64 p lo hi v).fls = d.fls := (Dev.put_fls _ p hi _).trans (Dev.put_fls d p lo _)
@[simp] theorem Dev.put64_mc (d : Dev) (p : Nat) (lo hi : Fld) (v : Nat) : (d.put64 p lo hi v).mc = d.mc := (Dev.put_mc _ p hi _).trans (Dev.put_mc d p lo _)
@[simp] theorem Dev.put64_fth (d : Dev) (p : Nat) (lo hi : Fld) (v : Nat) : (d.put64 p lo hi v).fth = d.fth := (Dev.put_fth _ p hi _).trans (Dev.put_fth d p lo _)
@[simp] theorem Dev.put64_owp (d : Dev) (p : Nat) (lo hi : Fld) (v : Nat) : (d.put64 p lo hi v).owp = d.owp := (Dev.put_owp _ p hi _).trans (Dev.put_owp d p lo _)
@[simp] theorem Dev.put64_ell (d : Dev) (p : Nat) (lo hi : Fld) (v : Nat) : (d.put64 p lo hi v).ell = d.ell := (Dev.put_ell _ p hi _).trans (Dev.put_ell d p lo _)
@[simp] theorem Dev.put64_cmt (d : Dev) (p : Nat) (lo hi : Fld) (v : Nat) : (d.put64 p lo hi v).cmt = d.cmt := (Dev.put_cmt _ p hi _).trans (Dev.put_cmt d p lo _)
@[simp] theorem Dev.put64_axes (d : Dev) (p : Nat) (lo hi : Fld) (v : Nat) : (d.put64 p lo hi v).axes = d.axes := (Dev.put_axes _ p hi _).trans (Dev.put_axes d p lo _)
@[simp] theorem Dev.put64_encSet (d : Dev) (p : Nat) (lo hi : Fld) (v : Nat) : (d.put64 p lo hi v).encSet = d.encSet := (Dev.put_encSet _ p hi _).trans (Dev.put_encSet d p lo _)
@[simp] theorem Dev.put64_ud (d : Dev) (p : Nat) (lo hi : Fld) (v : Nat) : (d.put64 p lo hi v).ud = d.ud := (Dev.put_ud _ p hi _).trans (Dev.put_ud d p lo _)
@[simp] theorem Dev.put64_pwr (d : Dev) (p : Nat) (lo hi : Fld) (v : Nat) : (d.put64 p lo hi v).pwr = d.pwr := (Dev.put_pwr _ p hi _).trans (Dev.put_pwr d p lo _)
@[simp] theorem Dev.put64_scr (d : Dev) (p : Nat) (lo hi : Fld) (v : Nat) : (d.put64 p lo hi v).scr = d.scr := (Dev.put_scr _ p hi _).trans (Dev.put_scr d p lo _)
@[simp] theorem Dev.put64_prt (d : Dev) (p : Nat) (lo hi : Fld) (v : Nat) : (d.put64 p lo hi v).prt = d.prt := (Dev.put_prt _ p hi _).trans (Dev.put_prt d p lo _)
@[simp] theorem Dev.put64_cal (d : Dev) (p : Nat) (lo hi : Fld) (v : Nat) : (d.put64 p lo hi v).cal = d.cal := (Dev.put_cal _ p hi _).trans (Dev.put_cal d p lo _)
@[simp] theorem Dev.put64_lnk (d : Dev) (p : Nat) (lo hi : Fld) (v : Nat) : (d.put64 p lo hi v).lnk = d.lnk := (Dev.put_lnk _ p hi _).trans (Dev.put_lnk d p lo _)
@[simp] theorem Dev.put64_su (d : Dev) (p : Nat) (lo hi : Fld) (v : Nat) : (d.put64 p lo hi v).su = d.su := (Dev.put_su _ p hi _).trans (Dev.put_su d p lo _)

/-! `inc` -/
@[simp] theorem Dev.inc_irqSet (d : Dev) (p : Nat) (f : Fld) : (d.inc p f).irqSet = d.irqSet := Dev.put_irqSet d p f _
@[simp] theorem Dev.inc_mem (d : Dev) (p : Nat) (f : Fld) : (d.inc p f).mem = d.mem := Dev.put_mem d p f _
@[simp] theorem Dev.inc_host (d : Dev) (p : Nat) (f : Fld) : (d.inc p f).host = d.host := Dev.put_host d p f _
@[simp] theorem Dev.inc_aon (d : Dev) (p : Nat) (f : Fld) : (d.inc p f).aon = d.aon := Dev.put_aon d p f _
@[simp] theorem Dev.inc_fresh (d : Dev) (p : Nat) (f : Fld) : (d.inc p f).fresh = d.fresh := Dev.put_fresh d p f _
@[simp] theorem Dev.inc_tb (d : Dev) (p : Nat) (f : Fld) : (d.inc p f).tb = d.tb := Dev.put_tb d p f _
@[simp] theorem Dev.inc_bus (d : Dev) (p : Nat) (f : Fld) : (d.inc p f).bus = d.bus := Dev.put_bus d p f _
@[simp] theorem Dev.inc_fj (d : Dev) (p : Nat) (f : Fld) : (d.inc p f).fj = d.fj := Dev.put_fj d p f _
@[simp] theorem Dev.inc_ldg (d : Dev) (p : Nat) (f : Fld) : (d.inc p f).ldg = d.ldg := Dev.put_ldg d p f _
@[simp] theorem Dev.inc_rsv (d : Dev) (p : Nat) (f : Fld) : (d.inc p f).rsv = d.rsv := Dev.put_rsv d p f _
@[simp] theorem Dev.inc_stg (d : Dev) (p : Nat) (f : Fld) : (d.inc p f).stg = d.stg := Dev.put_stg d p f _
@[simp] theorem Dev.inc_fls (d : Dev) (p : Nat) (f : Fld) : (d.inc p f).fls = d.fls := Dev.put_fls d p f _
@[simp] theorem Dev.inc_mc (d : Dev) (p : Nat) (f : Fld) : (d.inc p f).mc = d.mc := Dev.put_mc d p f _
@[simp] theorem Dev.inc_fth (d : Dev) (p : Nat) (f : Fld) : (d.inc p f).fth = d.fth := Dev.put_fth d p f _
@[simp] theorem Dev.inc_owp (d : Dev) (p : Nat) (f : Fld) : (d.inc p f).owp = d.owp := Dev.put_owp d p f _
@[simp] theorem Dev.inc_ell (d : Dev) (p : Nat) (f : Fld) : (d.inc p f).ell = d.ell := Dev.put_ell d p f _
@[simp] theorem Dev.inc_cmt (d : Dev) (p : Nat) (f : Fld) : (d.inc p f).cmt = d.cmt := Dev.put_cmt d p f _
@[simp] theorem Dev.inc_axes (d : Dev) (p : Nat) (f : Fld) : (d.inc p f).axes = d.axes := Dev.put_axes d p f _
@[simp] theorem Dev.inc_encSet (d : Dev) (p : Nat) (f : Fld) : (d.inc p f).encSet = d.encSet := Dev.put_encSet d p f _
@[simp] theorem Dev.inc_ud (d : Dev) (p : Nat) (f : Fld) : (d.inc p f).ud = d.ud := Dev.put_ud d p f _
@[simp] theorem Dev.inc_pwr (d : Dev) (p : Nat) (f : Fld) : (d.inc p f).pwr = d.pwr := Dev.put_pwr d p f _
@[simp] theorem Dev.inc_scr (d : Dev) (p : Nat) (f : Fld) : (d.inc p f).scr = d.scr := Dev.put_scr d p f _
@[simp] theorem Dev.inc_prt (d : Dev) (p : Nat) (f : Fld) : (d.inc p f).prt = d.prt := Dev.put_prt d p f _
@[simp] theorem Dev.inc_cal (d : Dev) (p : Nat) (f : Fld) : (d.inc p f).cal = d.cal := Dev.put_cal d p f _
@[simp] theorem Dev.inc_lnk (d : Dev) (p : Nat) (f : Fld) : (d.inc p f).lnk = d.lnk := Dev.put_lnk d p f _
@[simp] theorem Dev.inc_su (d : Dev) (p : Nat) (f : Fld) : (d.inc p f).su = d.su := Dev.put_su d p f _

/-! `incBy` -/
@[simp] theorem Dev.incBy_irqSet (d : Dev) (p : Nat) (f : Fld) (n : Nat) : (d.incBy p f n).irqSet = d.irqSet := Dev.put_irqSet d p f _
@[simp] theorem Dev.incBy_mem (d : Dev) (p : Nat) (f : Fld) (n : Nat) : (d.incBy p f n).mem = d.mem := Dev.put_mem d p f _
@[simp] theorem Dev.incBy_host (d : Dev) (p : Nat) (f : Fld) (n : Nat) : (d.incBy p f n).host = d.host := Dev.put_host d p f _
@[simp] theorem Dev.incBy_aon (d : Dev) (p : Nat) (f : Fld) (n : Nat) : (d.incBy p f n).aon = d.aon := Dev.put_aon d p f _
@[simp] theorem Dev.incBy_fresh (d : Dev) (p : Nat) (f : Fld) (n : Nat) : (d.incBy p f n).fresh = d.fresh := Dev.put_fresh d p f _
@[simp] theorem Dev.incBy_tb (d : Dev) (p : Nat) (f : Fld) (n : Nat) : (d.incBy p f n).tb = d.tb := Dev.put_tb d p f _
@[simp] theorem Dev.incBy_bus (d : Dev) (p : Nat) (f : Fld) (n : Nat) : (d.incBy p f n).bus = d.bus := Dev.put_bus d p f _
@[simp] theorem Dev.incBy_fj (d : Dev) (p : Nat) (f : Fld) (n : Nat) : (d.incBy p f n).fj = d.fj := Dev.put_fj d p f _
@[simp] theorem Dev.incBy_ldg (d : Dev) (p : Nat) (f : Fld) (n : Nat) : (d.incBy p f n).ldg = d.ldg := Dev.put_ldg d p f _
@[simp] theorem Dev.incBy_rsv (d : Dev) (p : Nat) (f : Fld) (n : Nat) : (d.incBy p f n).rsv = d.rsv := Dev.put_rsv d p f _
@[simp] theorem Dev.incBy_stg (d : Dev) (p : Nat) (f : Fld) (n : Nat) : (d.incBy p f n).stg = d.stg := Dev.put_stg d p f _
@[simp] theorem Dev.incBy_fls (d : Dev) (p : Nat) (f : Fld) (n : Nat) : (d.incBy p f n).fls = d.fls := Dev.put_fls d p f _
@[simp] theorem Dev.incBy_mc (d : Dev) (p : Nat) (f : Fld) (n : Nat) : (d.incBy p f n).mc = d.mc := Dev.put_mc d p f _
@[simp] theorem Dev.incBy_fth (d : Dev) (p : Nat) (f : Fld) (n : Nat) : (d.incBy p f n).fth = d.fth := Dev.put_fth d p f _
@[simp] theorem Dev.incBy_owp (d : Dev) (p : Nat) (f : Fld) (n : Nat) : (d.incBy p f n).owp = d.owp := Dev.put_owp d p f _
@[simp] theorem Dev.incBy_ell (d : Dev) (p : Nat) (f : Fld) (n : Nat) : (d.incBy p f n).ell = d.ell := Dev.put_ell d p f _
@[simp] theorem Dev.incBy_cmt (d : Dev) (p : Nat) (f : Fld) (n : Nat) : (d.incBy p f n).cmt = d.cmt := Dev.put_cmt d p f _
@[simp] theorem Dev.incBy_axes (d : Dev) (p : Nat) (f : Fld) (n : Nat) : (d.incBy p f n).axes = d.axes := Dev.put_axes d p f _
@[simp] theorem Dev.incBy_encSet (d : Dev) (p : Nat) (f : Fld) (n : Nat) : (d.incBy p f n).encSet = d.encSet := Dev.put_encSet d p f _
@[simp] theorem Dev.incBy_ud (d : Dev) (p : Nat) (f : Fld) (n : Nat) : (d.incBy p f n).ud = d.ud := Dev.put_ud d p f _
@[simp] theorem Dev.incBy_pwr (d : Dev) (p : Nat) (f : Fld) (n : Nat) : (d.incBy p f n).pwr = d.pwr := Dev.put_pwr d p f _
@[simp] theorem Dev.incBy_scr (d : Dev) (p : Nat) (f : Fld) (n : Nat) : (d.incBy p f n).scr = d.scr := Dev.put_scr d p f _
@[simp] theorem Dev.incBy_prt (d : Dev) (p : Nat) (f : Fld) (n : Nat) : (d.incBy p f n).prt = d.prt := Dev.put_prt d p f _
@[simp] theorem Dev.incBy_cal (d : Dev) (p : Nat) (f : Fld) (n : Nat) : (d.incBy p f n).cal = d.cal := Dev.put_cal d p f _
@[simp] theorem Dev.incBy_lnk (d : Dev) (p : Nat) (f : Fld) (n : Nat) : (d.incBy p f n).lnk = d.lnk := Dev.put_lnk d p f _
@[simp] theorem Dev.incBy_su (d : Dev) (p : Nat) (f : Fld) (n : Nat) : (d.incBy p f n).su = d.su := Dev.put_su d p f _

/-! `irq` -/
@[simp] theorem Dev.irq_mem (d : Dev) (p : Nat) (f : Fld) : (d.irq p f).mem = d.mem := Dev.put_mem d p f 1
@[simp] theorem Dev.irq_host (d : Dev) (p : Nat) (f : Fld) : (d.irq p f).host = d.host := Dev.put_host d p f 1
@[simp] theorem Dev.irq_aon (d : Dev) (p : Nat) (f : Fld) : (d.irq p f).aon = d.aon := Dev.put_aon d p f 1
@[simp] theorem Dev.irq_fresh (d : Dev) (p : Nat) (f : Fld) : (d.irq p f).fresh = d.fresh := Dev.put_fresh d p f 1
@[simp] theorem Dev.irq_tb (d : Dev) (p : Nat) (f : Fld) : (d.irq p f).tb = d.tb := Dev.put_tb d p f 1
@[simp] theorem Dev.irq_bus (d : Dev) (p : Nat) (f : Fld) : (d.irq p f).bus = d.bus := Dev.put_bus d p f 1
@[simp] theorem Dev.irq_fj (d : Dev) (p : Nat) (f : Fld) : (d.irq p f).fj = d.fj := Dev.put_fj d p f 1
@[simp] theorem Dev.irq_ldg (d : Dev) (p : Nat) (f : Fld) : (d.irq p f).ldg = d.ldg := Dev.put_ldg d p f 1
@[simp] theorem Dev.irq_rsv (d : Dev) (p : Nat) (f : Fld) : (d.irq p f).rsv = d.rsv := Dev.put_rsv d p f 1
@[simp] theorem Dev.irq_stg (d : Dev) (p : Nat) (f : Fld) : (d.irq p f).stg = d.stg := Dev.put_stg d p f 1
@[simp] theorem Dev.irq_fls (d : Dev) (p : Nat) (f : Fld) : (d.irq p f).fls = d.fls := Dev.put_fls d p f 1
@[simp] theorem Dev.irq_mc (d : Dev) (p : Nat) (f : Fld) : (d.irq p f).mc = d.mc := Dev.put_mc d p f 1
@[simp] theorem Dev.irq_fth (d : Dev) (p : Nat) (f : Fld) : (d.irq p f).fth = d.fth := Dev.put_fth d p f 1
@[simp] theorem Dev.irq_owp (d : Dev) (p : Nat) (f : Fld) : (d.irq p f).owp = d.owp := Dev.put_owp d p f 1
@[simp] theorem Dev.irq_ell (d : Dev) (p : Nat) (f : Fld) : (d.irq p f).ell = d.ell := Dev.put_ell d p f 1
@[simp] theorem Dev.irq_cmt (d : Dev) (p : Nat) (f : Fld) : (d.irq p f).cmt = d.cmt := Dev.put_cmt d p f 1
@[simp] theorem Dev.irq_axes (d : Dev) (p : Nat) (f : Fld) : (d.irq p f).axes = d.axes := Dev.put_axes d p f 1
@[simp] theorem Dev.irq_encSet (d : Dev) (p : Nat) (f : Fld) : (d.irq p f).encSet = d.encSet := Dev.put_encSet d p f 1
@[simp] theorem Dev.irq_ud (d : Dev) (p : Nat) (f : Fld) : (d.irq p f).ud = d.ud := Dev.put_ud d p f 1
@[simp] theorem Dev.irq_pwr (d : Dev) (p : Nat) (f : Fld) : (d.irq p f).pwr = d.pwr := Dev.put_pwr d p f 1
@[simp] theorem Dev.irq_scr (d : Dev) (p : Nat) (f : Fld) : (d.irq p f).scr = d.scr := Dev.put_scr d p f 1
@[simp] theorem Dev.irq_prt (d : Dev) (p : Nat) (f : Fld) : (d.irq p f).prt = d.prt := Dev.put_prt d p f 1
@[simp] theorem Dev.irq_cal (d : Dev) (p : Nat) (f : Fld) : (d.irq p f).cal = d.cal := Dev.put_cal d p f 1
@[simp] theorem Dev.irq_lnk (d : Dev) (p : Nat) (f : Fld) : (d.irq p f).lnk = d.lnk := Dev.put_lnk d p f 1
@[simp] theorem Dev.irq_su (d : Dev) (p : Nat) (f : Fld) : (d.irq p f).su = d.su := Dev.put_su d p f 1

/-! `irqClear` -/
@[simp] theorem Dev.irqClear_irqSet (d : Dev) (p v : Nat) : (d.irqClear p v).irqSet = d.irqSet := Dev.put_irqSet d p _ _
@[simp] theorem Dev.irqClear_mem (d : Dev) (p v : Nat) : (d.irqClear p v).mem = d.mem := Dev.put_mem d p _ _
@[simp] theorem Dev.irqClear_host (d : Dev) (p v : Nat) : (d.irqClear p v).host = d.host := Dev.put_host d p _ _
@[simp] theorem Dev.irqClear_aon (d : Dev) (p v : Nat) : (d.irqClear p v).aon = d.aon := Dev.put_aon d p _ _
@[simp] theorem Dev.irqClear_fresh (d : Dev) (p v : Nat) : (d.irqClear p v).fresh = d.fresh := Dev.put_fresh d p _ _
@[simp] theorem Dev.irqClear_tb (d : Dev) (p v : Nat) : (d.irqClear p v).tb = d.tb := Dev.put_tb d p _ _
@[simp] theorem Dev.irqClear_bus (d : Dev) (p v : Nat) : (d.irqClear p v).bus = d.bus := Dev.put_bus d p _ _
@[simp] theorem Dev.irqClear_fj (d : Dev) (p v : Nat) : (d.irqClear p v).fj = d.fj := Dev.put_fj d p _ _
@[simp] theorem Dev.irqClear_ldg (d : Dev) (p v : Nat) : (d.irqClear p v).ldg = d.ldg := Dev.put_ldg d p _ _
@[simp] theorem Dev.irqClear_rsv (d : Dev) (p v : Nat) : (d.irqClear p v).rsv = d.rsv := Dev.put_rsv d p _ _
@[simp] theorem Dev.irqClear_stg (d : Dev) (p v : Nat) : (d.irqClear p v).stg = d.stg := Dev.put_stg d p _ _
@[simp] theorem Dev.irqClear_fls (d : Dev) (p v : Nat) : (d.irqClear p v).fls = d.fls := Dev.put_fls d p _ _
@[simp] theorem Dev.irqClear_mc (d : Dev) (p v : Nat) : (d.irqClear p v).mc = d.mc := Dev.put_mc d p _ _
@[simp] theorem Dev.irqClear_fth (d : Dev) (p v : Nat) : (d.irqClear p v).fth = d.fth := Dev.put_fth d p _ _
@[simp] theorem Dev.irqClear_owp (d : Dev) (p v : Nat) : (d.irqClear p v).owp = d.owp := Dev.put_owp d p _ _
@[simp] theorem Dev.irqClear_ell (d : Dev) (p v : Nat) : (d.irqClear p v).ell = d.ell := Dev.put_ell d p _ _
@[simp] theorem Dev.irqClear_cmt (d : Dev) (p v : Nat) : (d.irqClear p v).cmt = d.cmt := Dev.put_cmt d p _ _
@[simp] theorem Dev.irqClear_axes (d : Dev) (p v : Nat) : (d.irqClear p v).axes = d.axes := Dev.put_axes d p _ _
@[simp] theorem Dev.irqClear_encSet (d : Dev) (p v : Nat) : (d.irqClear p v).encSet = d.encSet := Dev.put_encSet d p _ _
@[simp] theorem Dev.irqClear_ud (d : Dev) (p v : Nat) : (d.irqClear p v).ud = d.ud := Dev.put_ud d p _ _
@[simp] theorem Dev.irqClear_pwr (d : Dev) (p v : Nat) : (d.irqClear p v).pwr = d.pwr := Dev.put_pwr d p _ _
@[simp] theorem Dev.irqClear_scr (d : Dev) (p v : Nat) : (d.irqClear p v).scr = d.scr := Dev.put_scr d p _ _
@[simp] theorem Dev.irqClear_prt (d : Dev) (p v : Nat) : (d.irqClear p v).prt = d.prt := Dev.put_prt d p _ _
@[simp] theorem Dev.irqClear_cal (d : Dev) (p v : Nat) : (d.irqClear p v).cal = d.cal := Dev.put_cal d p _ _
@[simp] theorem Dev.irqClear_lnk (d : Dev) (p v : Nat) : (d.irqClear p v).lnk = d.lnk := Dev.put_lnk d p _ _
@[simp] theorem Dev.irqClear_su (d : Dev) (p v : Nat) : (d.irqClear p v).su = d.su := Dev.put_su d p _ _

/-! `errClear` -/
@[simp] theorem Dev.errClear_irqSet (d : Dev) (p : Nat) : (d.errClear p).irqSet = d.irqSet := (Dev.put_irqSet _ p _ _).trans ((Dev.put_irqSet _ p _ _).trans (Dev.put_irqSet d p _ _))
@[simp] theorem Dev.errClear_mem (d : Dev) (p : Nat) : (d.errClear p).mem = d.mem := (Dev.put_mem _ p _ _).trans ((Dev.put_mem _ p _ _).trans (Dev.put_mem d p _ _))
@[simp] theorem Dev.errClear_host (d : Dev) (p : Nat) : (d.errClear p).host = d.host := (Dev.put_host _ p _ _).trans ((Dev.put_host _ p _ _).trans (Dev.put_host d p _ _))
@[simp] theorem Dev.errClear_aon (d : Dev) (p : Nat) : (d.errClear p).aon = d.aon := (Dev.put_aon _ p _ _).trans ((Dev.put_aon _ p _ _).trans (Dev.put_aon d p _ _))
@[simp] theorem Dev.errClear_fresh (d : Dev) (p : Nat) : (d.errClear p).fresh = d.fresh := (Dev.put_fresh _ p _ _).trans ((Dev.put_fresh _ p _ _).trans (Dev.put_fresh d p _ _))
@[simp] theorem Dev.errClear_tb (d : Dev) (p : Nat) : (d.errClear p).tb = d.tb := (Dev.put_tb _ p _ _).trans ((Dev.put_tb _ p _ _).trans (Dev.put_tb d p _ _))
@[simp] theorem Dev.errClear_bus (d : Dev) (p : Nat) : (d.errClear p).bus = d.bus := (Dev.put_bus _ p _ _).trans ((Dev.put_bus _ p _ _).trans (Dev.put_bus d p _ _))
@[simp] theorem Dev.errClear_fj (d : Dev) (p : Nat) : (d.errClear p).fj = d.fj := (Dev.put_fj _ p _ _).trans ((Dev.put_fj _ p _ _).trans (Dev.put_fj d p _ _))
@[simp] theorem Dev.errClear_ldg (d : Dev) (p : Nat) : (d.errClear p).ldg = d.ldg := (Dev.put_ldg _ p _ _).trans ((Dev.put_ldg _ p _ _).trans (Dev.put_ldg d p _ _))
@[simp] theorem Dev.errClear_rsv (d : Dev) (p : Nat) : (d.errClear p).rsv = d.rsv := (Dev.put_rsv _ p _ _).trans ((Dev.put_rsv _ p _ _).trans (Dev.put_rsv d p _ _))
@[simp] theorem Dev.errClear_stg (d : Dev) (p : Nat) : (d.errClear p).stg = d.stg := (Dev.put_stg _ p _ _).trans ((Dev.put_stg _ p _ _).trans (Dev.put_stg d p _ _))
@[simp] theorem Dev.errClear_fls (d : Dev) (p : Nat) : (d.errClear p).fls = d.fls := (Dev.put_fls _ p _ _).trans ((Dev.put_fls _ p _ _).trans (Dev.put_fls d p _ _))
@[simp] theorem Dev.errClear_mc (d : Dev) (p : Nat) : (d.errClear p).mc = d.mc := (Dev.put_mc _ p _ _).trans ((Dev.put_mc _ p _ _).trans (Dev.put_mc d p _ _))
@[simp] theorem Dev.errClear_fth (d : Dev) (p : Nat) : (d.errClear p).fth = d.fth := (Dev.put_fth _ p _ _).trans ((Dev.put_fth _ p _ _).trans (Dev.put_fth d p _ _))
@[simp] theorem Dev.errClear_owp (d : Dev) (p : Nat) : (d.errClear p).owp = d.owp := (Dev.put_owp _ p _ _).trans ((Dev.put_owp _ p _ _).trans (Dev.put_owp d p _ _))
@[simp] theorem Dev.errClear_ell (d : Dev) (p : Nat) : (d.errClear p).ell = d.ell := (Dev.put_ell _ p _ _).trans ((Dev.put_ell _ p _ _).trans (Dev.put_ell d p _ _))
@[simp] theorem Dev.errClear_cmt (d : Dev) (p : Nat) : (d.errClear p).cmt = d.cmt := (Dev.put_cmt _ p _ _).trans ((Dev.put_cmt _ p _ _).trans (Dev.put_cmt d p _ _))
@[simp] theorem Dev.errClear_axes (d : Dev) (p : Nat) : (d.errClear p).axes = d.axes := (Dev.put_axes _ p _ _).trans ((Dev.put_axes _ p _ _).trans (Dev.put_axes d p _ _))
@[simp] theorem Dev.errClear_encSet (d : Dev) (p : Nat) : (d.errClear p).encSet = d.encSet := (Dev.put_encSet _ p _ _).trans ((Dev.put_encSet _ p _ _).trans (Dev.put_encSet d p _ _))
@[simp] theorem Dev.errClear_ud (d : Dev) (p : Nat) : (d.errClear p).ud = d.ud := (Dev.put_ud _ p _ _).trans ((Dev.put_ud _ p _ _).trans (Dev.put_ud d p _ _))
@[simp] theorem Dev.errClear_pwr (d : Dev) (p : Nat) : (d.errClear p).pwr = d.pwr := (Dev.put_pwr _ p _ _).trans ((Dev.put_pwr _ p _ _).trans (Dev.put_pwr d p _ _))
@[simp] theorem Dev.errClear_scr (d : Dev) (p : Nat) : (d.errClear p).scr = d.scr := (Dev.put_scr _ p _ _).trans ((Dev.put_scr _ p _ _).trans (Dev.put_scr d p _ _))
@[simp] theorem Dev.errClear_prt (d : Dev) (p : Nat) : (d.errClear p).prt = d.prt := (Dev.put_prt _ p _ _).trans ((Dev.put_prt _ p _ _).trans (Dev.put_prt d p _ _))
@[simp] theorem Dev.errClear_cal (d : Dev) (p : Nat) : (d.errClear p).cal = d.cal := (Dev.put_cal _ p _ _).trans ((Dev.put_cal _ p _ _).trans (Dev.put_cal d p _ _))
@[simp] theorem Dev.errClear_lnk (d : Dev) (p : Nat) : (d.errClear p).lnk = d.lnk := (Dev.put_lnk _ p _ _).trans ((Dev.put_lnk _ p _ _).trans (Dev.put_lnk d p _ _))
@[simp] theorem Dev.errClear_su (d : Dev) (p : Nat) : (d.errClear p).su = d.su := (Dev.put_su _ p _ _).trans ((Dev.put_su _ p _ _).trans (Dev.put_su d p _ _))

/-! `setDegraded` -/
@[simp] theorem Dev.setDegraded_irqSet (d : Dev) (p : Nat) : (d.setDegraded p).irqSet = d.irqSet := Dev.setB_irqSet d p _ true
@[simp] theorem Dev.setDegraded_mem (d : Dev) (p : Nat) : (d.setDegraded p).mem = d.mem := Dev.setB_mem d p _ true
@[simp] theorem Dev.setDegraded_host (d : Dev) (p : Nat) : (d.setDegraded p).host = d.host := Dev.setB_host d p _ true
@[simp] theorem Dev.setDegraded_aon (d : Dev) (p : Nat) : (d.setDegraded p).aon = d.aon := Dev.setB_aon d p _ true
@[simp] theorem Dev.setDegraded_fresh (d : Dev) (p : Nat) : (d.setDegraded p).fresh = d.fresh := Dev.setB_fresh d p _ true
@[simp] theorem Dev.setDegraded_tb (d : Dev) (p : Nat) : (d.setDegraded p).tb = d.tb := Dev.setB_tb d p _ true
@[simp] theorem Dev.setDegraded_bus (d : Dev) (p : Nat) : (d.setDegraded p).bus = d.bus := Dev.setB_bus d p _ true
@[simp] theorem Dev.setDegraded_fj (d : Dev) (p : Nat) : (d.setDegraded p).fj = d.fj := Dev.setB_fj d p _ true
@[simp] theorem Dev.setDegraded_ldg (d : Dev) (p : Nat) : (d.setDegraded p).ldg = d.ldg := Dev.setB_ldg d p _ true
@[simp] theorem Dev.setDegraded_rsv (d : Dev) (p : Nat) : (d.setDegraded p).rsv = d.rsv := Dev.setB_rsv d p _ true
@[simp] theorem Dev.setDegraded_stg (d : Dev) (p : Nat) : (d.setDegraded p).stg = d.stg := Dev.setB_stg d p _ true
@[simp] theorem Dev.setDegraded_fls (d : Dev) (p : Nat) : (d.setDegraded p).fls = d.fls := Dev.setB_fls d p _ true
@[simp] theorem Dev.setDegraded_mc (d : Dev) (p : Nat) : (d.setDegraded p).mc = d.mc := Dev.setB_mc d p _ true
@[simp] theorem Dev.setDegraded_fth (d : Dev) (p : Nat) : (d.setDegraded p).fth = d.fth := Dev.setB_fth d p _ true
@[simp] theorem Dev.setDegraded_owp (d : Dev) (p : Nat) : (d.setDegraded p).owp = d.owp := Dev.setB_owp d p _ true
@[simp] theorem Dev.setDegraded_ell (d : Dev) (p : Nat) : (d.setDegraded p).ell = d.ell := Dev.setB_ell d p _ true
@[simp] theorem Dev.setDegraded_cmt (d : Dev) (p : Nat) : (d.setDegraded p).cmt = d.cmt := Dev.setB_cmt d p _ true
@[simp] theorem Dev.setDegraded_axes (d : Dev) (p : Nat) : (d.setDegraded p).axes = d.axes := Dev.setB_axes d p _ true
@[simp] theorem Dev.setDegraded_encSet (d : Dev) (p : Nat) : (d.setDegraded p).encSet = d.encSet := Dev.setB_encSet d p _ true
@[simp] theorem Dev.setDegraded_ud (d : Dev) (p : Nat) : (d.setDegraded p).ud = d.ud := Dev.setB_ud d p _ true
@[simp] theorem Dev.setDegraded_pwr (d : Dev) (p : Nat) : (d.setDegraded p).pwr = d.pwr := Dev.setB_pwr d p _ true
@[simp] theorem Dev.setDegraded_scr (d : Dev) (p : Nat) : (d.setDegraded p).scr = d.scr := Dev.setB_scr d p _ true
@[simp] theorem Dev.setDegraded_prt (d : Dev) (p : Nat) : (d.setDegraded p).prt = d.prt := Dev.setB_prt d p _ true
@[simp] theorem Dev.setDegraded_cal (d : Dev) (p : Nat) : (d.setDegraded p).cal = d.cal := Dev.setB_cal d p _ true
@[simp] theorem Dev.setDegraded_lnk (d : Dev) (p : Nat) : (d.setDegraded p).lnk = d.lnk := Dev.setB_lnk d p _ true
@[simp] theorem Dev.setDegraded_su (d : Dev) (p : Nat) : (d.setDegraded p).su = d.su := Dev.setB_su d p _ true

/-! `setFault` -/
@[simp] theorem Dev.setFault_irqSet (d : Dev) (p : Nat) (b : Bool) : (d.setFault p b).irqSet = d.irqSet := Dev.setB_irqSet d p _ b
@[simp] theorem Dev.setFault_mem (d : Dev) (p : Nat) (b : Bool) : (d.setFault p b).mem = d.mem := Dev.setB_mem d p _ b
@[simp] theorem Dev.setFault_host (d : Dev) (p : Nat) (b : Bool) : (d.setFault p b).host = d.host := Dev.setB_host d p _ b
@[simp] theorem Dev.setFault_aon (d : Dev) (p : Nat) (b : Bool) : (d.setFault p b).aon = d.aon := Dev.setB_aon d p _ b
@[simp] theorem Dev.setFault_fresh (d : Dev) (p : Nat) (b : Bool) : (d.setFault p b).fresh = d.fresh := Dev.setB_fresh d p _ b
@[simp] theorem Dev.setFault_tb (d : Dev) (p : Nat) (b : Bool) : (d.setFault p b).tb = d.tb := Dev.setB_tb d p _ b
@[simp] theorem Dev.setFault_bus (d : Dev) (p : Nat) (b : Bool) : (d.setFault p b).bus = d.bus := Dev.setB_bus d p _ b
@[simp] theorem Dev.setFault_fj (d : Dev) (p : Nat) (b : Bool) : (d.setFault p b).fj = d.fj := Dev.setB_fj d p _ b
@[simp] theorem Dev.setFault_ldg (d : Dev) (p : Nat) (b : Bool) : (d.setFault p b).ldg = d.ldg := Dev.setB_ldg d p _ b
@[simp] theorem Dev.setFault_rsv (d : Dev) (p : Nat) (b : Bool) : (d.setFault p b).rsv = d.rsv := Dev.setB_rsv d p _ b
@[simp] theorem Dev.setFault_stg (d : Dev) (p : Nat) (b : Bool) : (d.setFault p b).stg = d.stg := Dev.setB_stg d p _ b
@[simp] theorem Dev.setFault_fls (d : Dev) (p : Nat) (b : Bool) : (d.setFault p b).fls = d.fls := Dev.setB_fls d p _ b
@[simp] theorem Dev.setFault_mc (d : Dev) (p : Nat) (b : Bool) : (d.setFault p b).mc = d.mc := Dev.setB_mc d p _ b
@[simp] theorem Dev.setFault_fth (d : Dev) (p : Nat) (b : Bool) : (d.setFault p b).fth = d.fth := Dev.setB_fth d p _ b
@[simp] theorem Dev.setFault_owp (d : Dev) (p : Nat) (b : Bool) : (d.setFault p b).owp = d.owp := Dev.setB_owp d p _ b
@[simp] theorem Dev.setFault_ell (d : Dev) (p : Nat) (b : Bool) : (d.setFault p b).ell = d.ell := Dev.setB_ell d p _ b
@[simp] theorem Dev.setFault_cmt (d : Dev) (p : Nat) (b : Bool) : (d.setFault p b).cmt = d.cmt := Dev.setB_cmt d p _ b
@[simp] theorem Dev.setFault_axes (d : Dev) (p : Nat) (b : Bool) : (d.setFault p b).axes = d.axes := Dev.setB_axes d p _ b
@[simp] theorem Dev.setFault_encSet (d : Dev) (p : Nat) (b : Bool) : (d.setFault p b).encSet = d.encSet := Dev.setB_encSet d p _ b
@[simp] theorem Dev.setFault_ud (d : Dev) (p : Nat) (b : Bool) : (d.setFault p b).ud = d.ud := Dev.setB_ud d p _ b
@[simp] theorem Dev.setFault_pwr (d : Dev) (p : Nat) (b : Bool) : (d.setFault p b).pwr = d.pwr := Dev.setB_pwr d p _ b
@[simp] theorem Dev.setFault_scr (d : Dev) (p : Nat) (b : Bool) : (d.setFault p b).scr = d.scr := Dev.setB_scr d p _ b
@[simp] theorem Dev.setFault_prt (d : Dev) (p : Nat) (b : Bool) : (d.setFault p b).prt = d.prt := Dev.setB_prt d p _ b
@[simp] theorem Dev.setFault_cal (d : Dev) (p : Nat) (b : Bool) : (d.setFault p b).cal = d.cal := Dev.setB_cal d p _ b
@[simp] theorem Dev.setFault_lnk (d : Dev) (p : Nat) (b : Bool) : (d.setFault p b).lnk = d.lnk := Dev.setB_lnk d p _ b
@[simp] theorem Dev.setFault_su (d : Dev) (p : Nat) (b : Bool) : (d.setFault p b).su = d.su := Dev.setB_su d p _ b

/-! `setBusy` -/
@[simp] theorem Dev.setBusy_irqSet (d : Dev) (p : Nat) (b : Bool) : (d.setBusy p b).irqSet = d.irqSet := Dev.setB_irqSet d p _ b
@[simp] theorem Dev.setBusy_mem (d : Dev) (p : Nat) (b : Bool) : (d.setBusy p b).mem = d.mem := Dev.setB_mem d p _ b
@[simp] theorem Dev.setBusy_host (d : Dev) (p : Nat) (b : Bool) : (d.setBusy p b).host = d.host := Dev.setB_host d p _ b
@[simp] theorem Dev.setBusy_aon (d : Dev) (p : Nat) (b : Bool) : (d.setBusy p b).aon = d.aon := Dev.setB_aon d p _ b
@[simp] theorem Dev.setBusy_fresh (d : Dev) (p : Nat) (b : Bool) : (d.setBusy p b).fresh = d.fresh := Dev.setB_fresh d p _ b
@[simp] theorem Dev.setBusy_tb (d : Dev) (p : Nat) (b : Bool) : (d.setBusy p b).tb = d.tb := Dev.setB_tb d p _ b
@[simp] theorem Dev.setBusy_bus (d : Dev) (p : Nat) (b : Bool) : (d.setBusy p b).bus = d.bus := Dev.setB_bus d p _ b
@[simp] theorem Dev.setBusy_fj (d : Dev) (p : Nat) (b : Bool) : (d.setBusy p b).fj = d.fj := Dev.setB_fj d p _ b
@[simp] theorem Dev.setBusy_ldg (d : Dev) (p : Nat) (b : Bool) : (d.setBusy p b).ldg = d.ldg := Dev.setB_ldg d p _ b
@[simp] theorem Dev.setBusy_rsv (d : Dev) (p : Nat) (b : Bool) : (d.setBusy p b).rsv = d.rsv := Dev.setB_rsv d p _ b
@[simp] theorem Dev.setBusy_stg (d : Dev) (p : Nat) (b : Bool) : (d.setBusy p b).stg = d.stg := Dev.setB_stg d p _ b
@[simp] theorem Dev.setBusy_fls (d : Dev) (p : Nat) (b : Bool) : (d.setBusy p b).fls = d.fls := Dev.setB_fls d p _ b
@[simp] theorem Dev.setBusy_mc (d : Dev) (p : Nat) (b : Bool) : (d.setBusy p b).mc = d.mc := Dev.setB_mc d p _ b
@[simp] theorem Dev.setBusy_fth (d : Dev) (p : Nat) (b : Bool) : (d.setBusy p b).fth = d.fth := Dev.setB_fth d p _ b
@[simp] theorem Dev.setBusy_owp (d : Dev) (p : Nat) (b : Bool) : (d.setBusy p b).owp = d.owp := Dev.setB_owp d p _ b
@[simp] theorem Dev.setBusy_ell (d : Dev) (p : Nat) (b : Bool) : (d.setBusy p b).ell = d.ell := Dev.setB_ell d p _ b
@[simp] theorem Dev.setBusy_cmt (d : Dev) (p : Nat) (b : Bool) : (d.setBusy p b).cmt = d.cmt := Dev.setB_cmt d p _ b
@[simp] theorem Dev.setBusy_axes (d : Dev) (p : Nat) (b : Bool) : (d.setBusy p b).axes = d.axes := Dev.setB_axes d p _ b
@[simp] theorem Dev.setBusy_encSet (d : Dev) (p : Nat) (b : Bool) : (d.setBusy p b).encSet = d.encSet := Dev.setB_encSet d p _ b
@[simp] theorem Dev.setBusy_ud (d : Dev) (p : Nat) (b : Bool) : (d.setBusy p b).ud = d.ud := Dev.setB_ud d p _ b
@[simp] theorem Dev.setBusy_pwr (d : Dev) (p : Nat) (b : Bool) : (d.setBusy p b).pwr = d.pwr := Dev.setB_pwr d p _ b
@[simp] theorem Dev.setBusy_scr (d : Dev) (p : Nat) (b : Bool) : (d.setBusy p b).scr = d.scr := Dev.setB_scr d p _ b
@[simp] theorem Dev.setBusy_prt (d : Dev) (p : Nat) (b : Bool) : (d.setBusy p b).prt = d.prt := Dev.setB_prt d p _ b
@[simp] theorem Dev.setBusy_cal (d : Dev) (p : Nat) (b : Bool) : (d.setBusy p b).cal = d.cal := Dev.setB_cal d p _ b
@[simp] theorem Dev.setBusy_lnk (d : Dev) (p : Nat) (b : Bool) : (d.setBusy p b).lnk = d.lnk := Dev.setB_lnk d p _ b
@[simp] theorem Dev.setBusy_su (d : Dev) (p : Nat) (b : Bool) : (d.setBusy p b).su = d.su := Dev.setB_su d p _ b

/-! `setReady` -/
@[simp] theorem Dev.setReady_irqSet (d : Dev) (p : Nat) (b : Bool) : (d.setReady p b).irqSet = d.irqSet := Dev.setB_irqSet d p _ b
@[simp] theorem Dev.setReady_mem (d : Dev) (p : Nat) (b : Bool) : (d.setReady p b).mem = d.mem := Dev.setB_mem d p _ b
@[simp] theorem Dev.setReady_host (d : Dev) (p : Nat) (b : Bool) : (d.setReady p b).host = d.host := Dev.setB_host d p _ b
@[simp] theorem Dev.setReady_aon (d : Dev) (p : Nat) (b : Bool) : (d.setReady p b).aon = d.aon := Dev.setB_aon d p _ b
@[simp] theorem Dev.setReady_fresh (d : Dev) (p : Nat) (b : Bool) : (d.setReady p b).fresh = d.fresh := Dev.setB_fresh d p _ b
@[simp] theorem Dev.setReady_tb (d : Dev) (p : Nat) (b : Bool) : (d.setReady p b).tb = d.tb := Dev.setB_tb d p _ b
@[simp] theorem Dev.setReady_bus (d : Dev) (p : Nat) (b : Bool) : (d.setReady p b).bus = d.bus := Dev.setB_bus d p _ b
@[simp] theorem Dev.setReady_fj (d : Dev) (p : Nat) (b : Bool) : (d.setReady p b).fj = d.fj := Dev.setB_fj d p _ b
@[simp] theorem Dev.setReady_ldg (d : Dev) (p : Nat) (b : Bool) : (d.setReady p b).ldg = d.ldg := Dev.setB_ldg d p _ b
@[simp] theorem Dev.setReady_rsv (d : Dev) (p : Nat) (b : Bool) : (d.setReady p b).rsv = d.rsv := Dev.setB_rsv d p _ b
@[simp] theorem Dev.setReady_stg (d : Dev) (p : Nat) (b : Bool) : (d.setReady p b).stg = d.stg := Dev.setB_stg d p _ b
@[simp] theorem Dev.setReady_fls (d : Dev) (p : Nat) (b : Bool) : (d.setReady p b).fls = d.fls := Dev.setB_fls d p _ b
@[simp] theorem Dev.setReady_mc (d : Dev) (p : Nat) (b : Bool) : (d.setReady p b).mc = d.mc := Dev.setB_mc d p _ b
@[simp] theorem Dev.setReady_fth (d : Dev) (p : Nat) (b : Bool) : (d.setReady p b).fth = d.fth := Dev.setB_fth d p _ b
@[simp] theorem Dev.setReady_owp (d : Dev) (p : Nat) (b : Bool) : (d.setReady p b).owp = d.owp := Dev.setB_owp d p _ b
@[simp] theorem Dev.setReady_ell (d : Dev) (p : Nat) (b : Bool) : (d.setReady p b).ell = d.ell := Dev.setB_ell d p _ b
@[simp] theorem Dev.setReady_cmt (d : Dev) (p : Nat) (b : Bool) : (d.setReady p b).cmt = d.cmt := Dev.setB_cmt d p _ b
@[simp] theorem Dev.setReady_axes (d : Dev) (p : Nat) (b : Bool) : (d.setReady p b).axes = d.axes := Dev.setB_axes d p _ b
@[simp] theorem Dev.setReady_encSet (d : Dev) (p : Nat) (b : Bool) : (d.setReady p b).encSet = d.encSet := Dev.setB_encSet d p _ b
@[simp] theorem Dev.setReady_ud (d : Dev) (p : Nat) (b : Bool) : (d.setReady p b).ud = d.ud := Dev.setB_ud d p _ b
@[simp] theorem Dev.setReady_pwr (d : Dev) (p : Nat) (b : Bool) : (d.setReady p b).pwr = d.pwr := Dev.setB_pwr d p _ b
@[simp] theorem Dev.setReady_scr (d : Dev) (p : Nat) (b : Bool) : (d.setReady p b).scr = d.scr := Dev.setB_scr d p _ b
@[simp] theorem Dev.setReady_prt (d : Dev) (p : Nat) (b : Bool) : (d.setReady p b).prt = d.prt := Dev.setB_prt d p _ b
@[simp] theorem Dev.setReady_cal (d : Dev) (p : Nat) (b : Bool) : (d.setReady p b).cal = d.cal := Dev.setB_cal d p _ b
@[simp] theorem Dev.setReady_lnk (d : Dev) (p : Nat) (b : Bool) : (d.setReady p b).lnk = d.lnk := Dev.setB_lnk d p _ b
@[simp] theorem Dev.setReady_su (d : Dev) (p : Nat) (b : Bool) : (d.setReady p b).su = d.su := Dev.setB_su d p _ b

/-! `setStale` -/
@[simp] theorem Dev.setStale_irqSet (d : Dev) (p : Nat) (b : Bool) : (d.setStale p b).irqSet = d.irqSet := Dev.setB_irqSet d p _ b
@[simp] theorem Dev.setStale_mem (d : Dev) (p : Nat) (b : Bool) : (d.setStale p b).mem = d.mem := Dev.setB_mem d p _ b
@[simp] theorem Dev.setStale_host (d : Dev) (p : Nat) (b : Bool) : (d.setStale p b).host = d.host := Dev.setB_host d p _ b
@[simp] theorem Dev.setStale_aon (d : Dev) (p : Nat) (b : Bool) : (d.setStale p b).aon = d.aon := Dev.setB_aon d p _ b
@[simp] theorem Dev.setStale_fresh (d : Dev) (p : Nat) (b : Bool) : (d.setStale p b).fresh = d.fresh := Dev.setB_fresh d p _ b
@[simp] theorem Dev.setStale_tb (d : Dev) (p : Nat) (b : Bool) : (d.setStale p b).tb = d.tb := Dev.setB_tb d p _ b
@[simp] theorem Dev.setStale_bus (d : Dev) (p : Nat) (b : Bool) : (d.setStale p b).bus = d.bus := Dev.setB_bus d p _ b
@[simp] theorem Dev.setStale_fj (d : Dev) (p : Nat) (b : Bool) : (d.setStale p b).fj = d.fj := Dev.setB_fj d p _ b
@[simp] theorem Dev.setStale_ldg (d : Dev) (p : Nat) (b : Bool) : (d.setStale p b).ldg = d.ldg := Dev.setB_ldg d p _ b
@[simp] theorem Dev.setStale_rsv (d : Dev) (p : Nat) (b : Bool) : (d.setStale p b).rsv = d.rsv := Dev.setB_rsv d p _ b
@[simp] theorem Dev.setStale_stg (d : Dev) (p : Nat) (b : Bool) : (d.setStale p b).stg = d.stg := Dev.setB_stg d p _ b
@[simp] theorem Dev.setStale_fls (d : Dev) (p : Nat) (b : Bool) : (d.setStale p b).fls = d.fls := Dev.setB_fls d p _ b
@[simp] theorem Dev.setStale_mc (d : Dev) (p : Nat) (b : Bool) : (d.setStale p b).mc = d.mc := Dev.setB_mc d p _ b
@[simp] theorem Dev.setStale_fth (d : Dev) (p : Nat) (b : Bool) : (d.setStale p b).fth = d.fth := Dev.setB_fth d p _ b
@[simp] theorem Dev.setStale_owp (d : Dev) (p : Nat) (b : Bool) : (d.setStale p b).owp = d.owp := Dev.setB_owp d p _ b
@[simp] theorem Dev.setStale_ell (d : Dev) (p : Nat) (b : Bool) : (d.setStale p b).ell = d.ell := Dev.setB_ell d p _ b
@[simp] theorem Dev.setStale_cmt (d : Dev) (p : Nat) (b : Bool) : (d.setStale p b).cmt = d.cmt := Dev.setB_cmt d p _ b
@[simp] theorem Dev.setStale_axes (d : Dev) (p : Nat) (b : Bool) : (d.setStale p b).axes = d.axes := Dev.setB_axes d p _ b
@[simp] theorem Dev.setStale_encSet (d : Dev) (p : Nat) (b : Bool) : (d.setStale p b).encSet = d.encSet := Dev.setB_encSet d p _ b
@[simp] theorem Dev.setStale_ud (d : Dev) (p : Nat) (b : Bool) : (d.setStale p b).ud = d.ud := Dev.setB_ud d p _ b
@[simp] theorem Dev.setStale_pwr (d : Dev) (p : Nat) (b : Bool) : (d.setStale p b).pwr = d.pwr := Dev.setB_pwr d p _ b
@[simp] theorem Dev.setStale_scr (d : Dev) (p : Nat) (b : Bool) : (d.setStale p b).scr = d.scr := Dev.setB_scr d p _ b
@[simp] theorem Dev.setStale_prt (d : Dev) (p : Nat) (b : Bool) : (d.setStale p b).prt = d.prt := Dev.setB_prt d p _ b
@[simp] theorem Dev.setStale_cal (d : Dev) (p : Nat) (b : Bool) : (d.setStale p b).cal = d.cal := Dev.setB_cal d p _ b
@[simp] theorem Dev.setStale_lnk (d : Dev) (p : Nat) (b : Bool) : (d.setStale p b).lnk = d.lnk := Dev.setB_lnk d p _ b
@[simp] theorem Dev.setStale_su (d : Dev) (p : Nat) (b : Bool) : (d.setStale p b).su = d.su := Dev.setB_su d p _ b

/-! `fault` -/
@[simp] theorem Dev.fault_regs (d : Dev) (p code : Nat) (deg flt : Bool) (l : List Nat) : (d.fault p code deg flt l).regs = d.regs := rfl
@[simp] theorem Dev.fault_irqSet (d : Dev) (p code : Nat) (deg flt : Bool) (l : List Nat) : (d.fault p code deg flt l).irqSet = d.irqSet := rfl
@[simp] theorem Dev.fault_mem (d : Dev) (p code : Nat) (deg flt : Bool) (l : List Nat) : (d.fault p code deg flt l).mem = d.mem := rfl
@[simp] theorem Dev.fault_host (d : Dev) (p code : Nat) (deg flt : Bool) (l : List Nat) : (d.fault p code deg flt l).host = d.host := rfl
@[simp] theorem Dev.fault_aon (d : Dev) (p code : Nat) (deg flt : Bool) (l : List Nat) : (d.fault p code deg flt l).aon = d.aon := rfl
@[simp] theorem Dev.fault_fresh (d : Dev) (p code : Nat) (deg flt : Bool) (l : List Nat) : (d.fault p code deg flt l).fresh = d.fresh := rfl
@[simp] theorem Dev.fault_tb (d : Dev) (p code : Nat) (deg flt : Bool) (l : List Nat) : (d.fault p code deg flt l).tb = d.tb := rfl
@[simp] theorem Dev.fault_bus (d : Dev) (p code : Nat) (deg flt : Bool) (l : List Nat) : (d.fault p code deg flt l).bus = d.bus := rfl
@[simp] theorem Dev.fault_ldg (d : Dev) (p code : Nat) (deg flt : Bool) (l : List Nat) : (d.fault p code deg flt l).ldg = d.ldg := rfl
@[simp] theorem Dev.fault_rsv (d : Dev) (p code : Nat) (deg flt : Bool) (l : List Nat) : (d.fault p code deg flt l).rsv = d.rsv := rfl
@[simp] theorem Dev.fault_stg (d : Dev) (p code : Nat) (deg flt : Bool) (l : List Nat) : (d.fault p code deg flt l).stg = d.stg := rfl
@[simp] theorem Dev.fault_fls (d : Dev) (p code : Nat) (deg flt : Bool) (l : List Nat) : (d.fault p code deg flt l).fls = d.fls := rfl
@[simp] theorem Dev.fault_mc (d : Dev) (p code : Nat) (deg flt : Bool) (l : List Nat) : (d.fault p code deg flt l).mc = d.mc := rfl
@[simp] theorem Dev.fault_fth (d : Dev) (p code : Nat) (deg flt : Bool) (l : List Nat) : (d.fault p code deg flt l).fth = d.fth := rfl
@[simp] theorem Dev.fault_owp (d : Dev) (p code : Nat) (deg flt : Bool) (l : List Nat) : (d.fault p code deg flt l).owp = d.owp := rfl
@[simp] theorem Dev.fault_ell (d : Dev) (p code : Nat) (deg flt : Bool) (l : List Nat) : (d.fault p code deg flt l).ell = d.ell := rfl
@[simp] theorem Dev.fault_cmt (d : Dev) (p code : Nat) (deg flt : Bool) (l : List Nat) : (d.fault p code deg flt l).cmt = d.cmt := rfl
@[simp] theorem Dev.fault_axes (d : Dev) (p code : Nat) (deg flt : Bool) (l : List Nat) : (d.fault p code deg flt l).axes = d.axes := rfl
@[simp] theorem Dev.fault_encSet (d : Dev) (p code : Nat) (deg flt : Bool) (l : List Nat) : (d.fault p code deg flt l).encSet = d.encSet := rfl
@[simp] theorem Dev.fault_ud (d : Dev) (p code : Nat) (deg flt : Bool) (l : List Nat) : (d.fault p code deg flt l).ud = d.ud := rfl
@[simp] theorem Dev.fault_pwr (d : Dev) (p code : Nat) (deg flt : Bool) (l : List Nat) : (d.fault p code deg flt l).pwr = d.pwr := rfl
@[simp] theorem Dev.fault_scr (d : Dev) (p code : Nat) (deg flt : Bool) (l : List Nat) : (d.fault p code deg flt l).scr = d.scr := rfl
@[simp] theorem Dev.fault_prt (d : Dev) (p code : Nat) (deg flt : Bool) (l : List Nat) : (d.fault p code deg flt l).prt = d.prt := rfl
@[simp] theorem Dev.fault_cal (d : Dev) (p code : Nat) (deg flt : Bool) (l : List Nat) : (d.fault p code deg flt l).cal = d.cal := rfl
@[simp] theorem Dev.fault_lnk (d : Dev) (p code : Nat) (deg flt : Bool) (l : List Nat) : (d.fault p code deg flt l).lnk = d.lnk := rfl
@[simp] theorem Dev.fault_su (d : Dev) (p code : Nat) (deg flt : Bool) (l : List Nat) : (d.fault p code deg flt l).su = d.su := rfl
@[simp] theorem Dev.fault_rd (d : Dev) (p code : Nat) (deg flt : Bool) (l : List Nat) (i : Nat) : (d.fault p code deg flt l).rd i = d.rd i := Dev.rd_congr (Dev.fault_regs d p code deg flt l) i
@[simp] theorem Dev.fault_get (d : Dev) (p code : Nat) (deg flt : Bool) (l : List Nat) (q : Nat) (g : Fld) : (d.fault p code deg flt l).get q g = d.get q g := Dev.get_congr (Dev.fault_regs d p code deg flt l) q g
@[simp] theorem Dev.fault_getI (d : Dev) (p code : Nat) (deg flt : Bool) (l : List Nat) (q : Nat) (g : Fld) : (d.fault p code deg flt l).getI q g = d.getI q g := Dev.getI_congr (Dev.fault_regs d p code deg flt l) q g
@[simp] theorem Dev.fault_flag (d : Dev) (p code : Nat) (deg flt : Bool) (l : List Nat) (q : Nat) (g : Fld) : (d.fault p code deg flt l).flag q g = d.flag q g := Dev.flag_congr (Dev.fault_regs d p code deg flt l) q g

/-! `memW` -/
@[simp] theorem Dev.memW_regs (d : Dev) (a : Nat) (l : List Byte) : (d.memW a l).regs = d.regs := rfl
@[simp] theorem Dev.memW_irqSet (d : Dev) (a : Nat) (l : List Byte) : (d.memW a l).irqSet = d.irqSet := rfl
@[simp] theorem Dev.memW_host (d : Dev) (a : Nat) (l : List Byte) : (d.memW a l).host = d.host := rfl
@[simp] theorem Dev.memW_aon (d : Dev) (a : Nat) (l : List Byte) : (d.memW a l).aon = d.aon := rfl
@[simp] theorem Dev.memW_fresh (d : Dev) (a : Nat) (l : List Byte) : (d.memW a l).fresh = d.fresh := rfl
@[simp] theorem Dev.memW_tb (d : Dev) (a : Nat) (l : List Byte) : (d.memW a l).tb = d.tb := rfl
@[simp] theorem Dev.memW_bus (d : Dev) (a : Nat) (l : List Byte) : (d.memW a l).bus = d.bus := rfl
@[simp] theorem Dev.memW_fj (d : Dev) (a : Nat) (l : List Byte) : (d.memW a l).fj = d.fj := rfl
@[simp] theorem Dev.memW_ldg (d : Dev) (a : Nat) (l : List Byte) : (d.memW a l).ldg = d.ldg := rfl
@[simp] theorem Dev.memW_rsv (d : Dev) (a : Nat) (l : List Byte) : (d.memW a l).rsv = d.rsv := rfl
@[simp] theorem Dev.memW_stg (d : Dev) (a : Nat) (l : List Byte) : (d.memW a l).stg = d.stg := rfl
@[simp] theorem Dev.memW_fls (d : Dev) (a : Nat) (l : List Byte) : (d.memW a l).fls = d.fls := rfl
@[simp] theorem Dev.memW_mc (d : Dev) (a : Nat) (l : List Byte) : (d.memW a l).mc = d.mc := rfl
@[simp] theorem Dev.memW_fth (d : Dev) (a : Nat) (l : List Byte) : (d.memW a l).fth = d.fth := rfl
@[simp] theorem Dev.memW_owp (d : Dev) (a : Nat) (l : List Byte) : (d.memW a l).owp = d.owp := rfl
@[simp] theorem Dev.memW_ell (d : Dev) (a : Nat) (l : List Byte) : (d.memW a l).ell = d.ell := rfl
@[simp] theorem Dev.memW_cmt (d : Dev) (a : Nat) (l : List Byte) : (d.memW a l).cmt = d.cmt := rfl
@[simp] theorem Dev.memW_axes (d : Dev) (a : Nat) (l : List Byte) : (d.memW a l).axes = d.axes := rfl
@[simp] theorem Dev.memW_encSet (d : Dev) (a : Nat) (l : List Byte) : (d.memW a l).encSet = d.encSet := rfl
@[simp] theorem Dev.memW_ud (d : Dev) (a : Nat) (l : List Byte) : (d.memW a l).ud = d.ud := rfl
@[simp] theorem Dev.memW_pwr (d : Dev) (a : Nat) (l : List Byte) : (d.memW a l).pwr = d.pwr := rfl
@[simp] theorem Dev.memW_scr (d : Dev) (a : Nat) (l : List Byte) : (d.memW a l).scr = d.scr := rfl
@[simp] theorem Dev.memW_prt (d : Dev) (a : Nat) (l : List Byte) : (d.memW a l).prt = d.prt := rfl
@[simp] theorem Dev.memW_cal (d : Dev) (a : Nat) (l : List Byte) : (d.memW a l).cal = d.cal := rfl
@[simp] theorem Dev.memW_lnk (d : Dev) (a : Nat) (l : List Byte) : (d.memW a l).lnk = d.lnk := rfl
@[simp] theorem Dev.memW_su (d : Dev) (a : Nat) (l : List Byte) : (d.memW a l).su = d.su := rfl
@[simp] theorem Dev.memW_rd (d : Dev) (a : Nat) (l : List Byte) (i : Nat) : (d.memW a l).rd i = d.rd i := Dev.rd_congr (Dev.memW_regs d a l) i
@[simp] theorem Dev.memW_get (d : Dev) (a : Nat) (l : List Byte) (q : Nat) (g : Fld) : (d.memW a l).get q g = d.get q g := Dev.get_congr (Dev.memW_regs d a l) q g
@[simp] theorem Dev.memW_getI (d : Dev) (a : Nat) (l : List Byte) (q : Nat) (g : Fld) : (d.memW a l).getI q g = d.getI q g := Dev.getI_congr (Dev.memW_regs d a l) q g
@[simp] theorem Dev.memW_flag (d : Dev) (a : Nat) (l : List Byte) (q : Nat) (g : Fld) : (d.memW a l).flag q g = d.flag q g := Dev.flag_congr (Dev.memW_regs d a l) q g

/-! `hostW` -/
@[simp] theorem Dev.hostW_regs (d : Dev) (a : Nat) (l : List Byte) : (d.hostW a l).regs = d.regs := rfl
@[simp] theorem Dev.hostW_irqSet (d : Dev) (a : Nat) (l : List Byte) : (d.hostW a l).irqSet = d.irqSet := rfl
@[simp] theorem Dev.hostW_mem (d : Dev) (a : Nat) (l : List Byte) : (d.hostW a l).mem = d.mem := rfl
@[simp] theorem Dev.hostW_aon (d : Dev) (a : Nat) (l : List Byte) : (d.hostW a l).aon = d.aon := rfl
@[simp] theorem Dev.hostW_fresh (d : Dev) (a : Nat) (l : List Byte) : (d.hostW a l).fresh = d.fresh := rfl
@[simp] theorem Dev.hostW_tb (d : Dev) (a : Nat) (l : List Byte) : (d.hostW a l).tb = d.tb := rfl
@[simp] theorem Dev.hostW_bus (d : Dev) (a : Nat) (l : List Byte) : (d.hostW a l).bus = d.bus := rfl
@[simp] theorem Dev.hostW_fj (d : Dev) (a : Nat) (l : List Byte) : (d.hostW a l).fj = d.fj := rfl
@[simp] theorem Dev.hostW_ldg (d : Dev) (a : Nat) (l : List Byte) : (d.hostW a l).ldg = d.ldg := rfl
@[simp] theorem Dev.hostW_rsv (d : Dev) (a : Nat) (l : List Byte) : (d.hostW a l).rsv = d.rsv := rfl
@[simp] theorem Dev.hostW_stg (d : Dev) (a : Nat) (l : List Byte) : (d.hostW a l).stg = d.stg := rfl
@[simp] theorem Dev.hostW_fls (d : Dev) (a : Nat) (l : List Byte) : (d.hostW a l).fls = d.fls := rfl
@[simp] theorem Dev.hostW_mc (d : Dev) (a : Nat) (l : List Byte) : (d.hostW a l).mc = d.mc := rfl
@[simp] theorem Dev.hostW_fth (d : Dev) (a : Nat) (l : List Byte) : (d.hostW a l).fth = d.fth := rfl
@[simp] theorem Dev.hostW_owp (d : Dev) (a : Nat) (l : List Byte) : (d.hostW a l).owp = d.owp := rfl
@[simp] theorem Dev.hostW_ell (d : Dev) (a : Nat) (l : List Byte) : (d.hostW a l).ell = d.ell := rfl
@[simp] theorem Dev.hostW_cmt (d : Dev) (a : Nat) (l : List Byte) : (d.hostW a l).cmt = d.cmt := rfl
@[simp] theorem Dev.hostW_axes (d : Dev) (a : Nat) (l : List Byte) : (d.hostW a l).axes = d.axes := rfl
@[simp] theorem Dev.hostW_encSet (d : Dev) (a : Nat) (l : List Byte) : (d.hostW a l).encSet = d.encSet := rfl
@[simp] theorem Dev.hostW_ud (d : Dev) (a : Nat) (l : List Byte) : (d.hostW a l).ud = d.ud := rfl
@[simp] theorem Dev.hostW_pwr (d : Dev) (a : Nat) (l : List Byte) : (d.hostW a l).pwr = d.pwr := rfl
@[simp] theorem Dev.hostW_scr (d : Dev) (a : Nat) (l : List Byte) : (d.hostW a l).scr = d.scr := rfl
@[simp] theorem Dev.hostW_prt (d : Dev) (a : Nat) (l : List Byte) : (d.hostW a l).prt = d.prt := rfl
@[simp] theorem Dev.hostW_cal (d : Dev) (a : Nat) (l : List Byte) : (d.hostW a l).cal = d.cal := rfl
@[simp] theorem Dev.hostW_lnk (d : Dev) (a : Nat) (l : List Byte) : (d.hostW a l).lnk = d.lnk := rfl
@[simp] theorem Dev.hostW_su (d : Dev) (a : Nat) (l : List Byte) : (d.hostW a l).su = d.su := rfl
@[simp] theorem Dev.hostW_rd (d : Dev) (a : Nat) (l : List Byte) (i : Nat) : (d.hostW a l).rd i = d.rd i := Dev.rd_congr (Dev.hostW_regs d a l) i
@[simp] theorem Dev.hostW_get (d : Dev) (a : Nat) (l : List Byte) (q : Nat) (g : Fld) : (d.hostW a l).get q g = d.get q g := Dev.get_congr (Dev.hostW_regs d a l) q g
@[simp] theorem Dev.hostW_getI (d : Dev) (a : Nat) (l : List Byte) (q : Nat) (g : Fld) : (d.hostW a l).getI q g = d.getI q g := Dev.getI_congr (Dev.hostW_regs d a l) q g
@[simp] theorem Dev.hostW_flag (d : Dev) (a : Nat) (l : List Byte) (q : Nat) (g : Fld) : (d.hostW a l).flag q g = d.flag q g := Dev.flag_congr (Dev.hostW_regs d a l) q g

/-! `latch` -/
@[simp] theorem Dev.latch_regs (d : Dev) (r : Requester) (a : Nat) (lo hi : Word) : (d.latch r a lo hi).regs = d.regs := rfl
@[simp] theorem Dev.latch_irqSet (d : Dev) (r : Requester) (a : Nat) (lo hi : Word) : (d.latch r a lo hi).irqSet = d.irqSet := rfl
@[simp] theorem Dev.latch_mem (d : Dev) (r : Requester) (a : Nat) (lo hi : Word) : (d.latch r a lo hi).mem = d.mem := rfl
@[simp] theorem Dev.latch_host (d : Dev) (r : Requester) (a : Nat) (lo hi : Word) : (d.latch r a lo hi).host = d.host := rfl
@[simp] theorem Dev.latch_aon (d : Dev) (r : Requester) (a : Nat) (lo hi : Word) : (d.latch r a lo hi).aon = d.aon := rfl
@[simp] theorem Dev.latch_fresh (d : Dev) (r : Requester) (a : Nat) (lo hi : Word) : (d.latch r a lo hi).fresh = d.fresh := rfl
@[simp] theorem Dev.latch_fj (d : Dev) (r : Requester) (a : Nat) (lo hi : Word) : (d.latch r a lo hi).fj = d.fj := rfl
@[simp] theorem Dev.latch_ldg (d : Dev) (r : Requester) (a : Nat) (lo hi : Word) : (d.latch r a lo hi).ldg = d.ldg := rfl
@[simp] theorem Dev.latch_rsv (d : Dev) (r : Requester) (a : Nat) (lo hi : Word) : (d.latch r a lo hi).rsv = d.rsv := rfl
@[simp] theorem Dev.latch_stg (d : Dev) (r : Requester) (a : Nat) (lo hi : Word) : (d.latch r a lo hi).stg = d.stg := rfl
@[simp] theorem Dev.latch_fls (d : Dev) (r : Requester) (a : Nat) (lo hi : Word) : (d.latch r a lo hi).fls = d.fls := rfl
@[simp] theorem Dev.latch_mc (d : Dev) (r : Requester) (a : Nat) (lo hi : Word) : (d.latch r a lo hi).mc = d.mc := rfl
@[simp] theorem Dev.latch_fth (d : Dev) (r : Requester) (a : Nat) (lo hi : Word) : (d.latch r a lo hi).fth = d.fth := rfl
@[simp] theorem Dev.latch_owp (d : Dev) (r : Requester) (a : Nat) (lo hi : Word) : (d.latch r a lo hi).owp = d.owp := rfl
@[simp] theorem Dev.latch_ell (d : Dev) (r : Requester) (a : Nat) (lo hi : Word) : (d.latch r a lo hi).ell = d.ell := rfl
@[simp] theorem Dev.latch_cmt (d : Dev) (r : Requester) (a : Nat) (lo hi : Word) : (d.latch r a lo hi).cmt = d.cmt := rfl
@[simp] theorem Dev.latch_axes (d : Dev) (r : Requester) (a : Nat) (lo hi : Word) : (d.latch r a lo hi).axes = d.axes := rfl
@[simp] theorem Dev.latch_encSet (d : Dev) (r : Requester) (a : Nat) (lo hi : Word) : (d.latch r a lo hi).encSet = d.encSet := rfl
@[simp] theorem Dev.latch_ud (d : Dev) (r : Requester) (a : Nat) (lo hi : Word) : (d.latch r a lo hi).ud = d.ud := rfl
@[simp] theorem Dev.latch_pwr (d : Dev) (r : Requester) (a : Nat) (lo hi : Word) : (d.latch r a lo hi).pwr = d.pwr := rfl
@[simp] theorem Dev.latch_scr (d : Dev) (r : Requester) (a : Nat) (lo hi : Word) : (d.latch r a lo hi).scr = d.scr := rfl
@[simp] theorem Dev.latch_prt (d : Dev) (r : Requester) (a : Nat) (lo hi : Word) : (d.latch r a lo hi).prt = d.prt := rfl
@[simp] theorem Dev.latch_cal (d : Dev) (r : Requester) (a : Nat) (lo hi : Word) : (d.latch r a lo hi).cal = d.cal := rfl
@[simp] theorem Dev.latch_lnk (d : Dev) (r : Requester) (a : Nat) (lo hi : Word) : (d.latch r a lo hi).lnk = d.lnk := rfl
@[simp] theorem Dev.latch_su (d : Dev) (r : Requester) (a : Nat) (lo hi : Word) : (d.latch r a lo hi).su = d.su := rfl
@[simp] theorem Dev.latch_rd (d : Dev) (r : Requester) (a : Nat) (lo hi : Word) (i : Nat) : (d.latch r a lo hi).rd i = d.rd i := Dev.rd_congr (Dev.latch_regs d r a lo hi) i
@[simp] theorem Dev.latch_get (d : Dev) (r : Requester) (a : Nat) (lo hi : Word) (q : Nat) (g : Fld) : (d.latch r a lo hi).get q g = d.get q g := Dev.get_congr (Dev.latch_regs d r a lo hi) q g
@[simp] theorem Dev.latch_getI (d : Dev) (r : Requester) (a : Nat) (lo hi : Word) (q : Nat) (g : Fld) : (d.latch r a lo hi).getI q g = d.getI q g := Dev.getI_congr (Dev.latch_regs d r a lo hi) q g
@[simp] theorem Dev.latch_flag (d : Dev) (r : Requester) (a : Nat) (lo hi : Word) (q : Nat) (g : Fld) : (d.latch r a lo hi).flag q g = d.flag q g := Dev.flag_congr (Dev.latch_regs d r a lo hi) q g

/-! `updUd` -/
@[simp] theorem Dev.updUd_regs (d : Dev) (f : Bushel → Bushel) : (d.updUd f).regs = d.regs := rfl
@[simp] theorem Dev.updUd_irqSet (d : Dev) (f : Bushel → Bushel) : (d.updUd f).irqSet = d.irqSet := rfl
@[simp] theorem Dev.updUd_mem (d : Dev) (f : Bushel → Bushel) : (d.updUd f).mem = d.mem := rfl
@[simp] theorem Dev.updUd_host (d : Dev) (f : Bushel → Bushel) : (d.updUd f).host = d.host := rfl
@[simp] theorem Dev.updUd_aon (d : Dev) (f : Bushel → Bushel) : (d.updUd f).aon = d.aon := rfl
@[simp] theorem Dev.updUd_fresh (d : Dev) (f : Bushel → Bushel) : (d.updUd f).fresh = d.fresh := rfl
@[simp] theorem Dev.updUd_tb (d : Dev) (f : Bushel → Bushel) : (d.updUd f).tb = d.tb := rfl
@[simp] theorem Dev.updUd_bus (d : Dev) (f : Bushel → Bushel) : (d.updUd f).bus = d.bus := rfl
@[simp] theorem Dev.updUd_fj (d : Dev) (f : Bushel → Bushel) : (d.updUd f).fj = d.fj := rfl
@[simp] theorem Dev.updUd_ldg (d : Dev) (f : Bushel → Bushel) : (d.updUd f).ldg = d.ldg := rfl
@[simp] theorem Dev.updUd_rsv (d : Dev) (f : Bushel → Bushel) : (d.updUd f).rsv = d.rsv := rfl
@[simp] theorem Dev.updUd_stg (d : Dev) (f : Bushel → Bushel) : (d.updUd f).stg = d.stg := rfl
@[simp] theorem Dev.updUd_fls (d : Dev) (f : Bushel → Bushel) : (d.updUd f).fls = d.fls := rfl
@[simp] theorem Dev.updUd_mc (d : Dev) (f : Bushel → Bushel) : (d.updUd f).mc = d.mc := rfl
@[simp] theorem Dev.updUd_fth (d : Dev) (f : Bushel → Bushel) : (d.updUd f).fth = d.fth := rfl
@[simp] theorem Dev.updUd_owp (d : Dev) (f : Bushel → Bushel) : (d.updUd f).owp = d.owp := rfl
@[simp] theorem Dev.updUd_ell (d : Dev) (f : Bushel → Bushel) : (d.updUd f).ell = d.ell := rfl
@[simp] theorem Dev.updUd_cmt (d : Dev) (f : Bushel → Bushel) : (d.updUd f).cmt = d.cmt := rfl
@[simp] theorem Dev.updUd_axes (d : Dev) (f : Bushel → Bushel) : (d.updUd f).axes = d.axes := rfl
@[simp] theorem Dev.updUd_encSet (d : Dev) (f : Bushel → Bushel) : (d.updUd f).encSet = d.encSet := rfl
@[simp] theorem Dev.updUd_pwr (d : Dev) (f : Bushel → Bushel) : (d.updUd f).pwr = d.pwr := rfl
@[simp] theorem Dev.updUd_scr (d : Dev) (f : Bushel → Bushel) : (d.updUd f).scr = d.scr := rfl
@[simp] theorem Dev.updUd_prt (d : Dev) (f : Bushel → Bushel) : (d.updUd f).prt = d.prt := rfl
@[simp] theorem Dev.updUd_cal (d : Dev) (f : Bushel → Bushel) : (d.updUd f).cal = d.cal := rfl
@[simp] theorem Dev.updUd_lnk (d : Dev) (f : Bushel → Bushel) : (d.updUd f).lnk = d.lnk := rfl
@[simp] theorem Dev.updUd_su (d : Dev) (f : Bushel → Bushel) : (d.updUd f).su = d.su := rfl
@[simp] theorem Dev.updUd_rd (d : Dev) (f : Bushel → Bushel) (i : Nat) : (d.updUd f).rd i = d.rd i := Dev.rd_congr (Dev.updUd_regs d f) i
@[simp] theorem Dev.updUd_get (d : Dev) (f : Bushel → Bushel) (q : Nat) (g : Fld) : (d.updUd f).get q g = d.get q g := Dev.get_congr (Dev.updUd_regs d f) q g
@[simp] theorem Dev.updUd_getI (d : Dev) (f : Bushel → Bushel) (q : Nat) (g : Fld) : (d.updUd f).getI q g = d.getI q g := Dev.getI_congr (Dev.updUd_regs d f) q g
@[simp] theorem Dev.updUd_flag (d : Dev) (f : Bushel → Bushel) (q : Nat) (g : Fld) : (d.updUd f).flag q g = d.flag q g := Dev.flag_congr (Dev.updUd_regs d f) q g

/-! `updCal` -/
@[simp] theorem Dev.updCal_regs (d : Dev) (f : Calib → Calib) : (d.updCal f).regs = d.regs := rfl
@[simp] theorem Dev.updCal_irqSet (d : Dev) (f : Calib → Calib) : (d.updCal f).irqSet = d.irqSet := rfl
@[simp] theorem Dev.updCal_mem (d : Dev) (f : Calib → Calib) : (d.updCal f).mem = d.mem := rfl
@[simp] theorem Dev.updCal_host (d : Dev) (f : Calib → Calib) : (d.updCal f).host = d.host := rfl
@[simp] theorem Dev.updCal_aon (d : Dev) (f : Calib → Calib) : (d.updCal f).aon = d.aon := rfl
@[simp] theorem Dev.updCal_fresh (d : Dev) (f : Calib → Calib) : (d.updCal f).fresh = d.fresh := rfl
@[simp] theorem Dev.updCal_tb (d : Dev) (f : Calib → Calib) : (d.updCal f).tb = d.tb := rfl
@[simp] theorem Dev.updCal_bus (d : Dev) (f : Calib → Calib) : (d.updCal f).bus = d.bus := rfl
@[simp] theorem Dev.updCal_fj (d : Dev) (f : Calib → Calib) : (d.updCal f).fj = d.fj := rfl
@[simp] theorem Dev.updCal_ldg (d : Dev) (f : Calib → Calib) : (d.updCal f).ldg = d.ldg := rfl
@[simp] theorem Dev.updCal_rsv (d : Dev) (f : Calib → Calib) : (d.updCal f).rsv = d.rsv := rfl
@[simp] theorem Dev.updCal_stg (d : Dev) (f : Calib → Calib) : (d.updCal f).stg = d.stg := rfl
@[simp] theorem Dev.updCal_fls (d : Dev) (f : Calib → Calib) : (d.updCal f).fls = d.fls := rfl
@[simp] theorem Dev.updCal_mc (d : Dev) (f : Calib → Calib) : (d.updCal f).mc = d.mc := rfl
@[simp] theorem Dev.updCal_fth (d : Dev) (f : Calib → Calib) : (d.updCal f).fth = d.fth := rfl
@[simp] theorem Dev.updCal_owp (d : Dev) (f : Calib → Calib) : (d.updCal f).owp = d.owp := rfl
@[simp] theorem Dev.updCal_ell (d : Dev) (f : Calib → Calib) : (d.updCal f).ell = d.ell := rfl
@[simp] theorem Dev.updCal_cmt (d : Dev) (f : Calib → Calib) : (d.updCal f).cmt = d.cmt := rfl
@[simp] theorem Dev.updCal_axes (d : Dev) (f : Calib → Calib) : (d.updCal f).axes = d.axes := rfl
@[simp] theorem Dev.updCal_encSet (d : Dev) (f : Calib → Calib) : (d.updCal f).encSet = d.encSet := rfl
@[simp] theorem Dev.updCal_ud (d : Dev) (f : Calib → Calib) : (d.updCal f).ud = d.ud := rfl
@[simp] theorem Dev.updCal_pwr (d : Dev) (f : Calib → Calib) : (d.updCal f).pwr = d.pwr := rfl
@[simp] theorem Dev.updCal_scr (d : Dev) (f : Calib → Calib) : (d.updCal f).scr = d.scr := rfl
@[simp] theorem Dev.updCal_prt (d : Dev) (f : Calib → Calib) : (d.updCal f).prt = d.prt := rfl
@[simp] theorem Dev.updCal_lnk (d : Dev) (f : Calib → Calib) : (d.updCal f).lnk = d.lnk := rfl
@[simp] theorem Dev.updCal_su (d : Dev) (f : Calib → Calib) : (d.updCal f).su = d.su := rfl
@[simp] theorem Dev.updCal_rd (d : Dev) (f : Calib → Calib) (i : Nat) : (d.updCal f).rd i = d.rd i := Dev.rd_congr (Dev.updCal_regs d f) i
@[simp] theorem Dev.updCal_get (d : Dev) (f : Calib → Calib) (q : Nat) (g : Fld) : (d.updCal f).get q g = d.get q g := Dev.get_congr (Dev.updCal_regs d f) q g
@[simp] theorem Dev.updCal_getI (d : Dev) (f : Calib → Calib) (q : Nat) (g : Fld) : (d.updCal f).getI q g = d.getI q g := Dev.getI_congr (Dev.updCal_regs d f) q g
@[simp] theorem Dev.updCal_flag (d : Dev) (f : Calib → Calib) (q : Nat) (g : Fld) : (d.updCal f).flag q g = d.flag q g := Dev.flag_congr (Dev.updCal_regs d f) q g

/-! `updFth` -/
@[simp] theorem Dev.updFth_regs (d : Dev) (k : Nat) (f : Fth → Fth) : (d.updFth k f).regs = d.regs := rfl
@[simp] theorem Dev.updFth_irqSet (d : Dev) (k : Nat) (f : Fth → Fth) : (d.updFth k f).irqSet = d.irqSet := rfl
@[simp] theorem Dev.updFth_mem (d : Dev) (k : Nat) (f : Fth → Fth) : (d.updFth k f).mem = d.mem := rfl
@[simp] theorem Dev.updFth_host (d : Dev) (k : Nat) (f : Fth → Fth) : (d.updFth k f).host = d.host := rfl
@[simp] theorem Dev.updFth_aon (d : Dev) (k : Nat) (f : Fth → Fth) : (d.updFth k f).aon = d.aon := rfl
@[simp] theorem Dev.updFth_fresh (d : Dev) (k : Nat) (f : Fth → Fth) : (d.updFth k f).fresh = d.fresh := rfl
@[simp] theorem Dev.updFth_tb (d : Dev) (k : Nat) (f : Fth → Fth) : (d.updFth k f).tb = d.tb := rfl
@[simp] theorem Dev.updFth_bus (d : Dev) (k : Nat) (f : Fth → Fth) : (d.updFth k f).bus = d.bus := rfl
@[simp] theorem Dev.updFth_fj (d : Dev) (k : Nat) (f : Fth → Fth) : (d.updFth k f).fj = d.fj := rfl
@[simp] theorem Dev.updFth_ldg (d : Dev) (k : Nat) (f : Fth → Fth) : (d.updFth k f).ldg = d.ldg := rfl
@[simp] theorem Dev.updFth_rsv (d : Dev) (k : Nat) (f : Fth → Fth) : (d.updFth k f).rsv = d.rsv := rfl
@[simp] theorem Dev.updFth_stg (d : Dev) (k : Nat) (f : Fth → Fth) : (d.updFth k f).stg = d.stg := rfl
@[simp] theorem Dev.updFth_fls (d : Dev) (k : Nat) (f : Fth → Fth) : (d.updFth k f).fls = d.fls := rfl
@[simp] theorem Dev.updFth_mc (d : Dev) (k : Nat) (f : Fth → Fth) : (d.updFth k f).mc = d.mc := rfl
@[simp] theorem Dev.updFth_owp (d : Dev) (k : Nat) (f : Fth → Fth) : (d.updFth k f).owp = d.owp := rfl
@[simp] theorem Dev.updFth_ell (d : Dev) (k : Nat) (f : Fth → Fth) : (d.updFth k f).ell = d.ell := rfl
@[simp] theorem Dev.updFth_cmt (d : Dev) (k : Nat) (f : Fth → Fth) : (d.updFth k f).cmt = d.cmt := rfl
@[simp] theorem Dev.updFth_axes (d : Dev) (k : Nat) (f : Fth → Fth) : (d.updFth k f).axes = d.axes := rfl
@[simp] theorem Dev.updFth_encSet (d : Dev) (k : Nat) (f : Fth → Fth) : (d.updFth k f).encSet = d.encSet := rfl
@[simp] theorem Dev.updFth_ud (d : Dev) (k : Nat) (f : Fth → Fth) : (d.updFth k f).ud = d.ud := rfl
@[simp] theorem Dev.updFth_pwr (d : Dev) (k : Nat) (f : Fth → Fth) : (d.updFth k f).pwr = d.pwr := rfl
@[simp] theorem Dev.updFth_scr (d : Dev) (k : Nat) (f : Fth → Fth) : (d.updFth k f).scr = d.scr := rfl
@[simp] theorem Dev.updFth_prt (d : Dev) (k : Nat) (f : Fth → Fth) : (d.updFth k f).prt = d.prt := rfl
@[simp] theorem Dev.updFth_cal (d : Dev) (k : Nat) (f : Fth → Fth) : (d.updFth k f).cal = d.cal := rfl
@[simp] theorem Dev.updFth_lnk (d : Dev) (k : Nat) (f : Fth → Fth) : (d.updFth k f).lnk = d.lnk := rfl
@[simp] theorem Dev.updFth_su (d : Dev) (k : Nat) (f : Fth → Fth) : (d.updFth k f).su = d.su := rfl
@[simp] theorem Dev.updFth_rd (d : Dev) (k : Nat) (f : Fth → Fth) (i : Nat) : (d.updFth k f).rd i = d.rd i := Dev.rd_congr (Dev.updFth_regs d k f) i
@[simp] theorem Dev.updFth_get (d : Dev) (k : Nat) (f : Fth → Fth) (q : Nat) (g : Fld) : (d.updFth k f).get q g = d.get q g := Dev.get_congr (Dev.updFth_regs d k f) q g
@[simp] theorem Dev.updFth_getI (d : Dev) (k : Nat) (f : Fth → Fth) (q : Nat) (g : Fld) : (d.updFth k f).getI q g = d.getI q g := Dev.getI_congr (Dev.updFth_regs d k f) q g
@[simp] theorem Dev.updFth_flag (d : Dev) (k : Nat) (f : Fth → Fth) (q : Nat) (g : Fld) : (d.updFth k f).flag q g = d.flag q g := Dev.flag_congr (Dev.updFth_regs d k f) q g

/-! `updChan` -/
@[simp] theorem Dev.updChan_regs (d : Dev) (k : Nat) (f : Channel → Channel) : (d.updChan k f).regs = d.regs := rfl
@[simp] theorem Dev.updChan_irqSet (d : Dev) (k : Nat) (f : Channel → Channel) : (d.updChan k f).irqSet = d.irqSet := rfl
@[simp] theorem Dev.updChan_mem (d : Dev) (k : Nat) (f : Channel → Channel) : (d.updChan k f).mem = d.mem := rfl
@[simp] theorem Dev.updChan_host (d : Dev) (k : Nat) (f : Channel → Channel) : (d.updChan k f).host = d.host := rfl
@[simp] theorem Dev.updChan_aon (d : Dev) (k : Nat) (f : Channel → Channel) : (d.updChan k f).aon = d.aon := rfl
@[simp] theorem Dev.updChan_fresh (d : Dev) (k : Nat) (f : Channel → Channel) : (d.updChan k f).fresh = d.fresh := rfl
@[simp] theorem Dev.updChan_tb (d : Dev) (k : Nat) (f : Channel → Channel) : (d.updChan k f).tb = d.tb := rfl
@[simp] theorem Dev.updChan_bus (d : Dev) (k : Nat) (f : Channel → Channel) : (d.updChan k f).bus = d.bus := rfl
@[simp] theorem Dev.updChan_fj (d : Dev) (k : Nat) (f : Channel → Channel) : (d.updChan k f).fj = d.fj := rfl
@[simp] theorem Dev.updChan_ldg (d : Dev) (k : Nat) (f : Channel → Channel) : (d.updChan k f).ldg = d.ldg := rfl
@[simp] theorem Dev.updChan_rsv (d : Dev) (k : Nat) (f : Channel → Channel) : (d.updChan k f).rsv = d.rsv := rfl
@[simp] theorem Dev.updChan_stg (d : Dev) (k : Nat) (f : Channel → Channel) : (d.updChan k f).stg = d.stg := rfl
@[simp] theorem Dev.updChan_mc (d : Dev) (k : Nat) (f : Channel → Channel) : (d.updChan k f).mc = d.mc := rfl
@[simp] theorem Dev.updChan_fth (d : Dev) (k : Nat) (f : Channel → Channel) : (d.updChan k f).fth = d.fth := rfl
@[simp] theorem Dev.updChan_owp (d : Dev) (k : Nat) (f : Channel → Channel) : (d.updChan k f).owp = d.owp := rfl
@[simp] theorem Dev.updChan_ell (d : Dev) (k : Nat) (f : Channel → Channel) : (d.updChan k f).ell = d.ell := rfl
@[simp] theorem Dev.updChan_cmt (d : Dev) (k : Nat) (f : Channel → Channel) : (d.updChan k f).cmt = d.cmt := rfl
@[simp] theorem Dev.updChan_axes (d : Dev) (k : Nat) (f : Channel → Channel) : (d.updChan k f).axes = d.axes := rfl
@[simp] theorem Dev.updChan_encSet (d : Dev) (k : Nat) (f : Channel → Channel) : (d.updChan k f).encSet = d.encSet := rfl
@[simp] theorem Dev.updChan_ud (d : Dev) (k : Nat) (f : Channel → Channel) : (d.updChan k f).ud = d.ud := rfl
@[simp] theorem Dev.updChan_pwr (d : Dev) (k : Nat) (f : Channel → Channel) : (d.updChan k f).pwr = d.pwr := rfl
@[simp] theorem Dev.updChan_scr (d : Dev) (k : Nat) (f : Channel → Channel) : (d.updChan k f).scr = d.scr := rfl
@[simp] theorem Dev.updChan_prt (d : Dev) (k : Nat) (f : Channel → Channel) : (d.updChan k f).prt = d.prt := rfl
@[simp] theorem Dev.updChan_cal (d : Dev) (k : Nat) (f : Channel → Channel) : (d.updChan k f).cal = d.cal := rfl
@[simp] theorem Dev.updChan_lnk (d : Dev) (k : Nat) (f : Channel → Channel) : (d.updChan k f).lnk = d.lnk := rfl
@[simp] theorem Dev.updChan_su (d : Dev) (k : Nat) (f : Channel → Channel) : (d.updChan k f).su = d.su := rfl
@[simp] theorem Dev.updChan_rd (d : Dev) (k : Nat) (f : Channel → Channel) (i : Nat) : (d.updChan k f).rd i = d.rd i := Dev.rd_congr (Dev.updChan_regs d k f) i
@[simp] theorem Dev.updChan_get (d : Dev) (k : Nat) (f : Channel → Channel) (q : Nat) (g : Fld) : (d.updChan k f).get q g = d.get q g := Dev.get_congr (Dev.updChan_regs d k f) q g
@[simp] theorem Dev.updChan_getI (d : Dev) (k : Nat) (f : Channel → Channel) (q : Nat) (g : Fld) : (d.updChan k f).getI q g = d.getI q g := Dev.getI_congr (Dev.updChan_regs d k f) q g
@[simp] theorem Dev.updChan_flag (d : Dev) (k : Nat) (f : Channel → Channel) (q : Nat) (g : Fld) : (d.updChan k f).flag q g = d.flag q g := Dev.flag_congr (Dev.updChan_regs d k f) q g

/-! `updBay` -/
@[simp] theorem Dev.updBay_regs (d : Dev) (b : Nat) (f : BayState → BayState) : (d.updBay b f).regs = d.regs := rfl
@[simp] theorem Dev.updBay_irqSet (d : Dev) (b : Nat) (f : BayState → BayState) : (d.updBay b f).irqSet = d.irqSet := rfl
@[simp] theorem Dev.updBay_mem (d : Dev) (b : Nat) (f : BayState → BayState) : (d.updBay b f).mem = d.mem := rfl
@[simp] theorem Dev.updBay_host (d : Dev) (b : Nat) (f : BayState → BayState) : (d.updBay b f).host = d.host := rfl
@[simp] theorem Dev.updBay_aon (d : Dev) (b : Nat) (f : BayState → BayState) : (d.updBay b f).aon = d.aon := rfl
@[simp] theorem Dev.updBay_fresh (d : Dev) (b : Nat) (f : BayState → BayState) : (d.updBay b f).fresh = d.fresh := rfl
@[simp] theorem Dev.updBay_tb (d : Dev) (b : Nat) (f : BayState → BayState) : (d.updBay b f).tb = d.tb := rfl
@[simp] theorem Dev.updBay_bus (d : Dev) (b : Nat) (f : BayState → BayState) : (d.updBay b f).bus = d.bus := rfl
@[simp] theorem Dev.updBay_fj (d : Dev) (b : Nat) (f : BayState → BayState) : (d.updBay b f).fj = d.fj := rfl
@[simp] theorem Dev.updBay_ldg (d : Dev) (b : Nat) (f : BayState → BayState) : (d.updBay b f).ldg = d.ldg := rfl
@[simp] theorem Dev.updBay_rsv (d : Dev) (b : Nat) (f : BayState → BayState) : (d.updBay b f).rsv = d.rsv := rfl
@[simp] theorem Dev.updBay_stg (d : Dev) (b : Nat) (f : BayState → BayState) : (d.updBay b f).stg = d.stg := rfl
@[simp] theorem Dev.updBay_mc (d : Dev) (b : Nat) (f : BayState → BayState) : (d.updBay b f).mc = d.mc := rfl
@[simp] theorem Dev.updBay_fth (d : Dev) (b : Nat) (f : BayState → BayState) : (d.updBay b f).fth = d.fth := rfl
@[simp] theorem Dev.updBay_owp (d : Dev) (b : Nat) (f : BayState → BayState) : (d.updBay b f).owp = d.owp := rfl
@[simp] theorem Dev.updBay_ell (d : Dev) (b : Nat) (f : BayState → BayState) : (d.updBay b f).ell = d.ell := rfl
@[simp] theorem Dev.updBay_cmt (d : Dev) (b : Nat) (f : BayState → BayState) : (d.updBay b f).cmt = d.cmt := rfl
@[simp] theorem Dev.updBay_axes (d : Dev) (b : Nat) (f : BayState → BayState) : (d.updBay b f).axes = d.axes := rfl
@[simp] theorem Dev.updBay_encSet (d : Dev) (b : Nat) (f : BayState → BayState) : (d.updBay b f).encSet = d.encSet := rfl
@[simp] theorem Dev.updBay_ud (d : Dev) (b : Nat) (f : BayState → BayState) : (d.updBay b f).ud = d.ud := rfl
@[simp] theorem Dev.updBay_pwr (d : Dev) (b : Nat) (f : BayState → BayState) : (d.updBay b f).pwr = d.pwr := rfl
@[simp] theorem Dev.updBay_scr (d : Dev) (b : Nat) (f : BayState → BayState) : (d.updBay b f).scr = d.scr := rfl
@[simp] theorem Dev.updBay_prt (d : Dev) (b : Nat) (f : BayState → BayState) : (d.updBay b f).prt = d.prt := rfl
@[simp] theorem Dev.updBay_cal (d : Dev) (b : Nat) (f : BayState → BayState) : (d.updBay b f).cal = d.cal := rfl
@[simp] theorem Dev.updBay_lnk (d : Dev) (b : Nat) (f : BayState → BayState) : (d.updBay b f).lnk = d.lnk := rfl
@[simp] theorem Dev.updBay_su (d : Dev) (b : Nat) (f : BayState → BayState) : (d.updBay b f).su = d.su := rfl
@[simp] theorem Dev.updBay_rd (d : Dev) (b : Nat) (f : BayState → BayState) (i : Nat) : (d.updBay b f).rd i = d.rd i := Dev.rd_congr (Dev.updBay_regs d b f) i
@[simp] theorem Dev.updBay_get (d : Dev) (b : Nat) (f : BayState → BayState) (q : Nat) (g : Fld) : (d.updBay b f).get q g = d.get q g := Dev.get_congr (Dev.updBay_regs d b f) q g
@[simp] theorem Dev.updBay_getI (d : Dev) (b : Nat) (f : BayState → BayState) (q : Nat) (g : Fld) : (d.updBay b f).getI q g = d.getI q g := Dev.getI_congr (Dev.updBay_regs d b f) q g
@[simp] theorem Dev.updBay_flag (d : Dev) (b : Nat) (f : BayState → BayState) (q : Nat) (g : Fld) : (d.updBay b f).flag q g = d.flag q g := Dev.flag_congr (Dev.updBay_regs d b f) q g

/-! `updMap` -/
@[simp] theorem Dev.updMap_regs (d : Dev) (b : Nat) (f : BayMap → BayMap) : (d.updMap b f).regs = d.regs := rfl
@[simp] theorem Dev.updMap_irqSet (d : Dev) (b : Nat) (f : BayMap → BayMap) : (d.updMap b f).irqSet = d.irqSet := rfl
@[simp] theorem Dev.updMap_mem (d : Dev) (b : Nat) (f : BayMap → BayMap) : (d.updMap b f).mem = d.mem := rfl
@[simp] theorem Dev.updMap_host (d : Dev) (b : Nat) (f : BayMap → BayMap) : (d.updMap b f).host = d.host := rfl
@[simp] theorem Dev.updMap_aon (d : Dev) (b : Nat) (f : BayMap → BayMap) : (d.updMap b f).aon = d.aon := rfl
@[simp] theorem Dev.updMap_fresh (d : Dev) (b : Nat) (f : BayMap → BayMap) : (d.updMap b f).fresh = d.fresh := rfl
@[simp] theorem Dev.updMap_tb (d : Dev) (b : Nat) (f : BayMap → BayMap) : (d.updMap b f).tb = d.tb := rfl
@[simp] theorem Dev.updMap_bus (d : Dev) (b : Nat) (f : BayMap → BayMap) : (d.updMap b f).bus = d.bus := rfl
@[simp] theorem Dev.updMap_fj (d : Dev) (b : Nat) (f : BayMap → BayMap) : (d.updMap b f).fj = d.fj := rfl
@[simp] theorem Dev.updMap_ldg (d : Dev) (b : Nat) (f : BayMap → BayMap) : (d.updMap b f).ldg = d.ldg := rfl
@[simp] theorem Dev.updMap_rsv (d : Dev) (b : Nat) (f : BayMap → BayMap) : (d.updMap b f).rsv = d.rsv := rfl
@[simp] theorem Dev.updMap_stg (d : Dev) (b : Nat) (f : BayMap → BayMap) : (d.updMap b f).stg = d.stg := rfl
@[simp] theorem Dev.updMap_mc (d : Dev) (b : Nat) (f : BayMap → BayMap) : (d.updMap b f).mc = d.mc := rfl
@[simp] theorem Dev.updMap_fth (d : Dev) (b : Nat) (f : BayMap → BayMap) : (d.updMap b f).fth = d.fth := rfl
@[simp] theorem Dev.updMap_owp (d : Dev) (b : Nat) (f : BayMap → BayMap) : (d.updMap b f).owp = d.owp := rfl
@[simp] theorem Dev.updMap_ell (d : Dev) (b : Nat) (f : BayMap → BayMap) : (d.updMap b f).ell = d.ell := rfl
@[simp] theorem Dev.updMap_cmt (d : Dev) (b : Nat) (f : BayMap → BayMap) : (d.updMap b f).cmt = d.cmt := rfl
@[simp] theorem Dev.updMap_axes (d : Dev) (b : Nat) (f : BayMap → BayMap) : (d.updMap b f).axes = d.axes := rfl
@[simp] theorem Dev.updMap_encSet (d : Dev) (b : Nat) (f : BayMap → BayMap) : (d.updMap b f).encSet = d.encSet := rfl
@[simp] theorem Dev.updMap_ud (d : Dev) (b : Nat) (f : BayMap → BayMap) : (d.updMap b f).ud = d.ud := rfl
@[simp] theorem Dev.updMap_pwr (d : Dev) (b : Nat) (f : BayMap → BayMap) : (d.updMap b f).pwr = d.pwr := rfl
@[simp] theorem Dev.updMap_scr (d : Dev) (b : Nat) (f : BayMap → BayMap) : (d.updMap b f).scr = d.scr := rfl
@[simp] theorem Dev.updMap_prt (d : Dev) (b : Nat) (f : BayMap → BayMap) : (d.updMap b f).prt = d.prt := rfl
@[simp] theorem Dev.updMap_cal (d : Dev) (b : Nat) (f : BayMap → BayMap) : (d.updMap b f).cal = d.cal := rfl
@[simp] theorem Dev.updMap_lnk (d : Dev) (b : Nat) (f : BayMap → BayMap) : (d.updMap b f).lnk = d.lnk := rfl
@[simp] theorem Dev.updMap_su (d : Dev) (b : Nat) (f : BayMap → BayMap) : (d.updMap b f).su = d.su := rfl
@[simp] theorem Dev.updMap_rd (d : Dev) (b : Nat) (f : BayMap → BayMap) (i : Nat) : (d.updMap b f).rd i = d.rd i := Dev.rd_congr (Dev.updMap_regs d b f) i
@[simp] theorem Dev.updMap_get (d : Dev) (b : Nat) (f : BayMap → BayMap) (q : Nat) (g : Fld) : (d.updMap b f).get q g = d.get q g := Dev.get_congr (Dev.updMap_regs d b f) q g
@[simp] theorem Dev.updMap_getI (d : Dev) (b : Nat) (f : BayMap → BayMap) (q : Nat) (g : Fld) : (d.updMap b f).getI q g = d.getI q g := Dev.getI_congr (Dev.updMap_regs d b f) q g
@[simp] theorem Dev.updMap_flag (d : Dev) (b : Nat) (f : BayMap → BayMap) (q : Nat) (g : Fld) : (d.updMap b f).flag q g = d.flag q g := Dev.flag_congr (Dev.updMap_regs d b f) q g

/-! `updLnk` -/
@[simp] theorem Dev.updLnk_regs (d : Dev) (f : Links → Links) : (d.updLnk f).regs = d.regs := rfl
@[simp] theorem Dev.updLnk_irqSet (d : Dev) (f : Links → Links) : (d.updLnk f).irqSet = d.irqSet := rfl
@[simp] theorem Dev.updLnk_mem (d : Dev) (f : Links → Links) : (d.updLnk f).mem = d.mem := rfl
@[simp] theorem Dev.updLnk_host (d : Dev) (f : Links → Links) : (d.updLnk f).host = d.host := rfl
@[simp] theorem Dev.updLnk_aon (d : Dev) (f : Links → Links) : (d.updLnk f).aon = d.aon := rfl
@[simp] theorem Dev.updLnk_fresh (d : Dev) (f : Links → Links) : (d.updLnk f).fresh = d.fresh := rfl
@[simp] theorem Dev.updLnk_tb (d : Dev) (f : Links → Links) : (d.updLnk f).tb = d.tb := rfl
@[simp] theorem Dev.updLnk_bus (d : Dev) (f : Links → Links) : (d.updLnk f).bus = d.bus := rfl
@[simp] theorem Dev.updLnk_fj (d : Dev) (f : Links → Links) : (d.updLnk f).fj = d.fj := rfl
@[simp] theorem Dev.updLnk_ldg (d : Dev) (f : Links → Links) : (d.updLnk f).ldg = d.ldg := rfl
@[simp] theorem Dev.updLnk_rsv (d : Dev) (f : Links → Links) : (d.updLnk f).rsv = d.rsv := rfl
@[simp] theorem Dev.updLnk_stg (d : Dev) (f : Links → Links) : (d.updLnk f).stg = d.stg := rfl
@[simp] theorem Dev.updLnk_fls (d : Dev) (f : Links → Links) : (d.updLnk f).fls = d.fls := rfl
@[simp] theorem Dev.updLnk_mc (d : Dev) (f : Links → Links) : (d.updLnk f).mc = d.mc := rfl
@[simp] theorem Dev.updLnk_fth (d : Dev) (f : Links → Links) : (d.updLnk f).fth = d.fth := rfl
@[simp] theorem Dev.updLnk_owp (d : Dev) (f : Links → Links) : (d.updLnk f).owp = d.owp := rfl
@[simp] theorem Dev.updLnk_ell (d : Dev) (f : Links → Links) : (d.updLnk f).ell = d.ell := rfl
@[simp] theorem Dev.updLnk_cmt (d : Dev) (f : Links → Links) : (d.updLnk f).cmt = d.cmt := rfl
@[simp] theorem Dev.updLnk_axes (d : Dev) (f : Links → Links) : (d.updLnk f).axes = d.axes := rfl
@[simp] theorem Dev.updLnk_encSet (d : Dev) (f : Links → Links) : (d.updLnk f).encSet = d.encSet := rfl
@[simp] theorem Dev.updLnk_ud (d : Dev) (f : Links → Links) : (d.updLnk f).ud = d.ud := rfl
@[simp] theorem Dev.updLnk_pwr (d : Dev) (f : Links → Links) : (d.updLnk f).pwr = d.pwr := rfl
@[simp] theorem Dev.updLnk_scr (d : Dev) (f : Links → Links) : (d.updLnk f).scr = d.scr := rfl
@[simp] theorem Dev.updLnk_prt (d : Dev) (f : Links → Links) : (d.updLnk f).prt = d.prt := rfl
@[simp] theorem Dev.updLnk_cal (d : Dev) (f : Links → Links) : (d.updLnk f).cal = d.cal := rfl
@[simp] theorem Dev.updLnk_su (d : Dev) (f : Links → Links) : (d.updLnk f).su = d.su := rfl
@[simp] theorem Dev.updLnk_rd (d : Dev) (f : Links → Links) (i : Nat) : (d.updLnk f).rd i = d.rd i := Dev.rd_congr (Dev.updLnk_regs d f) i
@[simp] theorem Dev.updLnk_get (d : Dev) (f : Links → Links) (q : Nat) (g : Fld) : (d.updLnk f).get q g = d.get q g := Dev.get_congr (Dev.updLnk_regs d f) q g
@[simp] theorem Dev.updLnk_getI (d : Dev) (f : Links → Links) (q : Nat) (g : Fld) : (d.updLnk f).getI q g = d.getI q g := Dev.getI_congr (Dev.updLnk_regs d f) q g
@[simp] theorem Dev.updLnk_flag (d : Dev) (f : Links → Links) (q : Nat) (g : Fld) : (d.updLnk f).flag q g = d.flag q g := Dev.flag_congr (Dev.updLnk_regs d f) q g

/-! `updAxis` -/
@[simp] theorem Dev.updAxis_regs (d : Dev) (n : Nat) (f : Axis → Axis) : (d.updAxis n f).regs = d.regs := rfl
@[simp] theorem Dev.updAxis_irqSet (d : Dev) (n : Nat) (f : Axis → Axis) : (d.updAxis n f).irqSet = d.irqSet := rfl
@[simp] theorem Dev.updAxis_mem (d : Dev) (n : Nat) (f : Axis → Axis) : (d.updAxis n f).mem = d.mem := rfl
@[simp] theorem Dev.updAxis_host (d : Dev) (n : Nat) (f : Axis → Axis) : (d.updAxis n f).host = d.host := rfl
@[simp] theorem Dev.updAxis_aon (d : Dev) (n : Nat) (f : Axis → Axis) : (d.updAxis n f).aon = d.aon := rfl
@[simp] theorem Dev.updAxis_fresh (d : Dev) (n : Nat) (f : Axis → Axis) : (d.updAxis n f).fresh = d.fresh := rfl
@[simp] theorem Dev.updAxis_tb (d : Dev) (n : Nat) (f : Axis → Axis) : (d.updAxis n f).tb = d.tb := rfl
@[simp] theorem Dev.updAxis_bus (d : Dev) (n : Nat) (f : Axis → Axis) : (d.updAxis n f).bus = d.bus := rfl
@[simp] theorem Dev.updAxis_fj (d : Dev) (n : Nat) (f : Axis → Axis) : (d.updAxis n f).fj = d.fj := rfl
@[simp] theorem Dev.updAxis_ldg (d : Dev) (n : Nat) (f : Axis → Axis) : (d.updAxis n f).ldg = d.ldg := rfl
@[simp] theorem Dev.updAxis_rsv (d : Dev) (n : Nat) (f : Axis → Axis) : (d.updAxis n f).rsv = d.rsv := rfl
@[simp] theorem Dev.updAxis_stg (d : Dev) (n : Nat) (f : Axis → Axis) : (d.updAxis n f).stg = d.stg := rfl
@[simp] theorem Dev.updAxis_fls (d : Dev) (n : Nat) (f : Axis → Axis) : (d.updAxis n f).fls = d.fls := rfl
@[simp] theorem Dev.updAxis_mc (d : Dev) (n : Nat) (f : Axis → Axis) : (d.updAxis n f).mc = d.mc := rfl
@[simp] theorem Dev.updAxis_fth (d : Dev) (n : Nat) (f : Axis → Axis) : (d.updAxis n f).fth = d.fth := rfl
@[simp] theorem Dev.updAxis_owp (d : Dev) (n : Nat) (f : Axis → Axis) : (d.updAxis n f).owp = d.owp := rfl
@[simp] theorem Dev.updAxis_ell (d : Dev) (n : Nat) (f : Axis → Axis) : (d.updAxis n f).ell = d.ell := rfl
@[simp] theorem Dev.updAxis_cmt (d : Dev) (n : Nat) (f : Axis → Axis) : (d.updAxis n f).cmt = d.cmt := rfl
@[simp] theorem Dev.updAxis_encSet (d : Dev) (n : Nat) (f : Axis → Axis) : (d.updAxis n f).encSet = d.encSet := rfl
@[simp] theorem Dev.updAxis_ud (d : Dev) (n : Nat) (f : Axis → Axis) : (d.updAxis n f).ud = d.ud := rfl
@[simp] theorem Dev.updAxis_pwr (d : Dev) (n : Nat) (f : Axis → Axis) : (d.updAxis n f).pwr = d.pwr := rfl
@[simp] theorem Dev.updAxis_scr (d : Dev) (n : Nat) (f : Axis → Axis) : (d.updAxis n f).scr = d.scr := rfl
@[simp] theorem Dev.updAxis_prt (d : Dev) (n : Nat) (f : Axis → Axis) : (d.updAxis n f).prt = d.prt := rfl
@[simp] theorem Dev.updAxis_cal (d : Dev) (n : Nat) (f : Axis → Axis) : (d.updAxis n f).cal = d.cal := rfl
@[simp] theorem Dev.updAxis_lnk (d : Dev) (n : Nat) (f : Axis → Axis) : (d.updAxis n f).lnk = d.lnk := rfl
@[simp] theorem Dev.updAxis_su (d : Dev) (n : Nat) (f : Axis → Axis) : (d.updAxis n f).su = d.su := rfl
@[simp] theorem Dev.updAxis_rd (d : Dev) (n : Nat) (f : Axis → Axis) (i : Nat) : (d.updAxis n f).rd i = d.rd i := Dev.rd_congr (Dev.updAxis_regs d n f) i
@[simp] theorem Dev.updAxis_get (d : Dev) (n : Nat) (f : Axis → Axis) (q : Nat) (g : Fld) : (d.updAxis n f).get q g = d.get q g := Dev.get_congr (Dev.updAxis_regs d n f) q g
@[simp] theorem Dev.updAxis_getI (d : Dev) (n : Nat) (f : Axis → Axis) (q : Nat) (g : Fld) : (d.updAxis n f).getI q g = d.getI q g := Dev.getI_congr (Dev.updAxis_regs d n f) q g
@[simp] theorem Dev.updAxis_flag (d : Dev) (n : Nat) (f : Axis → Axis) (q : Nat) (g : Fld) : (d.updAxis n f).flag q g = d.flag q g := Dev.flag_congr (Dev.updAxis_regs d n f) q g

/-! `updPort` -/
@[simp] theorem Dev.updPort_regs (d : Dev) (p : Nat) (f : Owp → Owp) : (d.updPort p f).regs = d.regs := rfl
@[simp] theorem Dev.updPort_irqSet (d : Dev) (p : Nat) (f : Owp → Owp) : (d.updPort p f).irqSet = d.irqSet := rfl
@[simp] theorem Dev.updPort_mem (d : Dev) (p : Nat) (f : Owp → Owp) : (d.updPort p f).mem = d.mem := rfl
@[simp] theorem Dev.updPort_host (d : Dev) (p : Nat) (f : Owp → Owp) : (d.updPort p f).host = d.host := rfl
@[simp] theorem Dev.updPort_aon (d : Dev) (p : Nat) (f : Owp → Owp) : (d.updPort p f).aon = d.aon := rfl
@[simp] theorem Dev.updPort_fresh (d : Dev) (p : Nat) (f : Owp → Owp) : (d.updPort p f).fresh = d.fresh := rfl
@[simp] theorem Dev.updPort_tb (d : Dev) (p : Nat) (f : Owp → Owp) : (d.updPort p f).tb = d.tb := rfl
@[simp] theorem Dev.updPort_bus (d : Dev) (p : Nat) (f : Owp → Owp) : (d.updPort p f).bus = d.bus := rfl
@[simp] theorem Dev.updPort_fj (d : Dev) (p : Nat) (f : Owp → Owp) : (d.updPort p f).fj = d.fj := rfl
@[simp] theorem Dev.updPort_ldg (d : Dev) (p : Nat) (f : Owp → Owp) : (d.updPort p f).ldg = d.ldg := rfl
@[simp] theorem Dev.updPort_rsv (d : Dev) (p : Nat) (f : Owp → Owp) : (d.updPort p f).rsv = d.rsv := rfl
@[simp] theorem Dev.updPort_stg (d : Dev) (p : Nat) (f : Owp → Owp) : (d.updPort p f).stg = d.stg := rfl
@[simp] theorem Dev.updPort_fls (d : Dev) (p : Nat) (f : Owp → Owp) : (d.updPort p f).fls = d.fls := rfl
@[simp] theorem Dev.updPort_mc (d : Dev) (p : Nat) (f : Owp → Owp) : (d.updPort p f).mc = d.mc := rfl
@[simp] theorem Dev.updPort_fth (d : Dev) (p : Nat) (f : Owp → Owp) : (d.updPort p f).fth = d.fth := rfl
@[simp] theorem Dev.updPort_ell (d : Dev) (p : Nat) (f : Owp → Owp) : (d.updPort p f).ell = d.ell := rfl
@[simp] theorem Dev.updPort_cmt (d : Dev) (p : Nat) (f : Owp → Owp) : (d.updPort p f).cmt = d.cmt := rfl
@[simp] theorem Dev.updPort_axes (d : Dev) (p : Nat) (f : Owp → Owp) : (d.updPort p f).axes = d.axes := rfl
@[simp] theorem Dev.updPort_encSet (d : Dev) (p : Nat) (f : Owp → Owp) : (d.updPort p f).encSet = d.encSet := rfl
@[simp] theorem Dev.updPort_ud (d : Dev) (p : Nat) (f : Owp → Owp) : (d.updPort p f).ud = d.ud := rfl
@[simp] theorem Dev.updPort_pwr (d : Dev) (p : Nat) (f : Owp → Owp) : (d.updPort p f).pwr = d.pwr := rfl
@[simp] theorem Dev.updPort_scr (d : Dev) (p : Nat) (f : Owp → Owp) : (d.updPort p f).scr = d.scr := rfl
@[simp] theorem Dev.updPort_prt (d : Dev) (p : Nat) (f : Owp → Owp) : (d.updPort p f).prt = d.prt := rfl
@[simp] theorem Dev.updPort_cal (d : Dev) (p : Nat) (f : Owp → Owp) : (d.updPort p f).cal = d.cal := rfl
@[simp] theorem Dev.updPort_lnk (d : Dev) (p : Nat) (f : Owp → Owp) : (d.updPort p f).lnk = d.lnk := rfl
@[simp] theorem Dev.updPort_su (d : Dev) (p : Nat) (f : Owp → Owp) : (d.updPort p f).su = d.su := rfl
@[simp] theorem Dev.updPort_rd (d : Dev) (p : Nat) (f : Owp → Owp) (i : Nat) : (d.updPort p f).rd i = d.rd i := Dev.rd_congr (Dev.updPort_regs d p f) i
@[simp] theorem Dev.updPort_get (d : Dev) (p : Nat) (f : Owp → Owp) (q : Nat) (g : Fld) : (d.updPort p f).get q g = d.get q g := Dev.get_congr (Dev.updPort_regs d p f) q g
@[simp] theorem Dev.updPort_getI (d : Dev) (p : Nat) (f : Owp → Owp) (q : Nat) (g : Fld) : (d.updPort p f).getI q g = d.getI q g := Dev.getI_congr (Dev.updPort_regs d p f) q g
@[simp] theorem Dev.updPort_flag (d : Dev) (p : Nat) (f : Owp → Owp) (q : Nat) (g : Fld) : (d.updPort p f).flag q g = d.flag q g := Dev.flag_congr (Dev.updPort_regs d p f) q g

/-! `updPwr` -/
@[simp] theorem Dev.updPwr_regs (d : Dev) (f : Power → Power) : (d.updPwr f).regs = d.regs := rfl
@[simp] theorem Dev.updPwr_irqSet (d : Dev) (f : Power → Power) : (d.updPwr f).irqSet = d.irqSet := rfl
@[simp] theorem Dev.updPwr_mem (d : Dev) (f : Power → Power) : (d.updPwr f).mem = d.mem := rfl
@[simp] theorem Dev.updPwr_host (d : Dev) (f : Power → Power) : (d.updPwr f).host = d.host := rfl
@[simp] theorem Dev.updPwr_aon (d : Dev) (f : Power → Power) : (d.updPwr f).aon = d.aon := rfl
@[simp] theorem Dev.updPwr_fresh (d : Dev) (f : Power → Power) : (d.updPwr f).fresh = d.fresh := rfl
@[simp] theorem Dev.updPwr_tb (d : Dev) (f : Power → Power) : (d.updPwr f).tb = d.tb := rfl
@[simp] theorem Dev.updPwr_bus (d : Dev) (f : Power → Power) : (d.updPwr f).bus = d.bus := rfl
@[simp] theorem Dev.updPwr_fj (d : Dev) (f : Power → Power) : (d.updPwr f).fj = d.fj := rfl
@[simp] theorem Dev.updPwr_ldg (d : Dev) (f : Power → Power) : (d.updPwr f).ldg = d.ldg := rfl
@[simp] theorem Dev.updPwr_rsv (d : Dev) (f : Power → Power) : (d.updPwr f).rsv = d.rsv := rfl
@[simp] theorem Dev.updPwr_stg (d : Dev) (f : Power → Power) : (d.updPwr f).stg = d.stg := rfl
@[simp] theorem Dev.updPwr_fls (d : Dev) (f : Power → Power) : (d.updPwr f).fls = d.fls := rfl
@[simp] theorem Dev.updPwr_mc (d : Dev) (f : Power → Power) : (d.updPwr f).mc = d.mc := rfl
@[simp] theorem Dev.updPwr_fth (d : Dev) (f : Power → Power) : (d.updPwr f).fth = d.fth := rfl
@[simp] theorem Dev.updPwr_owp (d : Dev) (f : Power → Power) : (d.updPwr f).owp = d.owp := rfl
@[simp] theorem Dev.updPwr_ell (d : Dev) (f : Power → Power) : (d.updPwr f).ell = d.ell := rfl
@[simp] theorem Dev.updPwr_cmt (d : Dev) (f : Power → Power) : (d.updPwr f).cmt = d.cmt := rfl
@[simp] theorem Dev.updPwr_axes (d : Dev) (f : Power → Power) : (d.updPwr f).axes = d.axes := rfl
@[simp] theorem Dev.updPwr_encSet (d : Dev) (f : Power → Power) : (d.updPwr f).encSet = d.encSet := rfl
@[simp] theorem Dev.updPwr_ud (d : Dev) (f : Power → Power) : (d.updPwr f).ud = d.ud := rfl
@[simp] theorem Dev.updPwr_scr (d : Dev) (f : Power → Power) : (d.updPwr f).scr = d.scr := rfl
@[simp] theorem Dev.updPwr_prt (d : Dev) (f : Power → Power) : (d.updPwr f).prt = d.prt := rfl
@[simp] theorem Dev.updPwr_cal (d : Dev) (f : Power → Power) : (d.updPwr f).cal = d.cal := rfl
@[simp] theorem Dev.updPwr_lnk (d : Dev) (f : Power → Power) : (d.updPwr f).lnk = d.lnk := rfl
@[simp] theorem Dev.updPwr_su (d : Dev) (f : Power → Power) : (d.updPwr f).su = d.su := rfl
@[simp] theorem Dev.updPwr_rd (d : Dev) (f : Power → Power) (i : Nat) : (d.updPwr f).rd i = d.rd i := Dev.rd_congr (Dev.updPwr_regs d f) i
@[simp] theorem Dev.updPwr_get (d : Dev) (f : Power → Power) (q : Nat) (g : Fld) : (d.updPwr f).get q g = d.get q g := Dev.get_congr (Dev.updPwr_regs d f) q g
@[simp] theorem Dev.updPwr_getI (d : Dev) (f : Power → Power) (q : Nat) (g : Fld) : (d.updPwr f).getI q g = d.getI q g := Dev.getI_congr (Dev.updPwr_regs d f) q g
@[simp] theorem Dev.updPwr_flag (d : Dev) (f : Power → Power) (q : Nat) (g : Fld) : (d.updPwr f).flag q g = d.flag q g := Dev.flag_congr (Dev.updPwr_regs d f) q g

/-! `updRsv` -/
@[simp] theorem Dev.updRsv_regs (d : Dev) (f : Reserve → Reserve) : (d.updRsv f).regs = d.regs := rfl
@[simp] theorem Dev.updRsv_irqSet (d : Dev) (f : Reserve → Reserve) : (d.updRsv f).irqSet = d.irqSet := rfl
@[simp] theorem Dev.updRsv_mem (d : Dev) (f : Reserve → Reserve) : (d.updRsv f).mem = d.mem := rfl
@[simp] theorem Dev.updRsv_host (d : Dev) (f : Reserve → Reserve) : (d.updRsv f).host = d.host := rfl
@[simp] theorem Dev.updRsv_aon (d : Dev) (f : Reserve → Reserve) : (d.updRsv f).aon = d.aon := rfl
@[simp] theorem Dev.updRsv_fresh (d : Dev) (f : Reserve → Reserve) : (d.updRsv f).fresh = d.fresh := rfl
@[simp] theorem Dev.updRsv_tb (d : Dev) (f : Reserve → Reserve) : (d.updRsv f).tb = d.tb := rfl
@[simp] theorem Dev.updRsv_bus (d : Dev) (f : Reserve → Reserve) : (d.updRsv f).bus = d.bus := rfl
@[simp] theorem Dev.updRsv_fj (d : Dev) (f : Reserve → Reserve) : (d.updRsv f).fj = d.fj := rfl
@[simp] theorem Dev.updRsv_ldg (d : Dev) (f : Reserve → Reserve) : (d.updRsv f).ldg = d.ldg := rfl
@[simp] theorem Dev.updRsv_stg (d : Dev) (f : Reserve → Reserve) : (d.updRsv f).stg = d.stg := rfl
@[simp] theorem Dev.updRsv_fls (d : Dev) (f : Reserve → Reserve) : (d.updRsv f).fls = d.fls := rfl
@[simp] theorem Dev.updRsv_mc (d : Dev) (f : Reserve → Reserve) : (d.updRsv f).mc = d.mc := rfl
@[simp] theorem Dev.updRsv_fth (d : Dev) (f : Reserve → Reserve) : (d.updRsv f).fth = d.fth := rfl
@[simp] theorem Dev.updRsv_owp (d : Dev) (f : Reserve → Reserve) : (d.updRsv f).owp = d.owp := rfl
@[simp] theorem Dev.updRsv_ell (d : Dev) (f : Reserve → Reserve) : (d.updRsv f).ell = d.ell := rfl
@[simp] theorem Dev.updRsv_cmt (d : Dev) (f : Reserve → Reserve) : (d.updRsv f).cmt = d.cmt := rfl
@[simp] theorem Dev.updRsv_axes (d : Dev) (f : Reserve → Reserve) : (d.updRsv f).axes = d.axes := rfl
@[simp] theorem Dev.updRsv_encSet (d : Dev) (f : Reserve → Reserve) : (d.updRsv f).encSet = d.encSet := rfl
@[simp] theorem Dev.updRsv_ud (d : Dev) (f : Reserve → Reserve) : (d.updRsv f).ud = d.ud := rfl
@[simp] theorem Dev.updRsv_pwr (d : Dev) (f : Reserve → Reserve) : (d.updRsv f).pwr = d.pwr := rfl
@[simp] theorem Dev.updRsv_scr (d : Dev) (f : Reserve → Reserve) : (d.updRsv f).scr = d.scr := rfl
@[simp] theorem Dev.updRsv_prt (d : Dev) (f : Reserve → Reserve) : (d.updRsv f).prt = d.prt := rfl
@[simp] theorem Dev.updRsv_cal (d : Dev) (f : Reserve → Reserve) : (d.updRsv f).cal = d.cal := rfl
@[simp] theorem Dev.updRsv_lnk (d : Dev) (f : Reserve → Reserve) : (d.updRsv f).lnk = d.lnk := rfl
@[simp] theorem Dev.updRsv_su (d : Dev) (f : Reserve → Reserve) : (d.updRsv f).su = d.su := rfl
@[simp] theorem Dev.updRsv_rd (d : Dev) (f : Reserve → Reserve) (i : Nat) : (d.updRsv f).rd i = d.rd i := Dev.rd_congr (Dev.updRsv_regs d f) i
@[simp] theorem Dev.updRsv_get (d : Dev) (f : Reserve → Reserve) (q : Nat) (g : Fld) : (d.updRsv f).get q g = d.get q g := Dev.get_congr (Dev.updRsv_regs d f) q g
@[simp] theorem Dev.updRsv_getI (d : Dev) (f : Reserve → Reserve) (q : Nat) (g : Fld) : (d.updRsv f).getI q g = d.getI q g := Dev.getI_congr (Dev.updRsv_regs d f) q g
@[simp] theorem Dev.updRsv_flag (d : Dev) (f : Reserve → Reserve) (q : Nat) (g : Fld) : (d.updRsv f).flag q g = d.flag q g := Dev.flag_congr (Dev.updRsv_regs d f) q g

/-! `updPrt` -/
@[simp] theorem Dev.updPrt_regs (d : Dev) (f : Protect → Protect) : (d.updPrt f).regs = d.regs := rfl
@[simp] theorem Dev.updPrt_irqSet (d : Dev) (f : Protect → Protect) : (d.updPrt f).irqSet = d.irqSet := rfl
@[simp] theorem Dev.updPrt_mem (d : Dev) (f : Protect → Protect) : (d.updPrt f).mem = d.mem := rfl
@[simp] theorem Dev.updPrt_host (d : Dev) (f : Protect → Protect) : (d.updPrt f).host = d.host := rfl
@[simp] theorem Dev.updPrt_aon (d : Dev) (f : Protect → Protect) : (d.updPrt f).aon = d.aon := rfl
@[simp] theorem Dev.updPrt_fresh (d : Dev) (f : Protect → Protect) : (d.updPrt f).fresh = d.fresh := rfl
@[simp] theorem Dev.updPrt_tb (d : Dev) (f : Protect → Protect) : (d.updPrt f).tb = d.tb := rfl
@[simp] theorem Dev.updPrt_bus (d : Dev) (f : Protect → Protect) : (d.updPrt f).bus = d.bus := rfl
@[simp] theorem Dev.updPrt_fj (d : Dev) (f : Protect → Protect) : (d.updPrt f).fj = d.fj := rfl
@[simp] theorem Dev.updPrt_ldg (d : Dev) (f : Protect → Protect) : (d.updPrt f).ldg = d.ldg := rfl
@[simp] theorem Dev.updPrt_rsv (d : Dev) (f : Protect → Protect) : (d.updPrt f).rsv = d.rsv := rfl
@[simp] theorem Dev.updPrt_stg (d : Dev) (f : Protect → Protect) : (d.updPrt f).stg = d.stg := rfl
@[simp] theorem Dev.updPrt_fls (d : Dev) (f : Protect → Protect) : (d.updPrt f).fls = d.fls := rfl
@[simp] theorem Dev.updPrt_mc (d : Dev) (f : Protect → Protect) : (d.updPrt f).mc = d.mc := rfl
@[simp] theorem Dev.updPrt_fth (d : Dev) (f : Protect → Protect) : (d.updPrt f).fth = d.fth := rfl
@[simp] theorem Dev.updPrt_owp (d : Dev) (f : Protect → Protect) : (d.updPrt f).owp = d.owp := rfl
@[simp] theorem Dev.updPrt_ell (d : Dev) (f : Protect → Protect) : (d.updPrt f).ell = d.ell := rfl
@[simp] theorem Dev.updPrt_cmt (d : Dev) (f : Protect → Protect) : (d.updPrt f).cmt = d.cmt := rfl
@[simp] theorem Dev.updPrt_axes (d : Dev) (f : Protect → Protect) : (d.updPrt f).axes = d.axes := rfl
@[simp] theorem Dev.updPrt_encSet (d : Dev) (f : Protect → Protect) : (d.updPrt f).encSet = d.encSet := rfl
@[simp] theorem Dev.updPrt_ud (d : Dev) (f : Protect → Protect) : (d.updPrt f).ud = d.ud := rfl
@[simp] theorem Dev.updPrt_pwr (d : Dev) (f : Protect → Protect) : (d.updPrt f).pwr = d.pwr := rfl
@[simp] theorem Dev.updPrt_scr (d : Dev) (f : Protect → Protect) : (d.updPrt f).scr = d.scr := rfl
@[simp] theorem Dev.updPrt_cal (d : Dev) (f : Protect → Protect) : (d.updPrt f).cal = d.cal := rfl
@[simp] theorem Dev.updPrt_lnk (d : Dev) (f : Protect → Protect) : (d.updPrt f).lnk = d.lnk := rfl
@[simp] theorem Dev.updPrt_su (d : Dev) (f : Protect → Protect) : (d.updPrt f).su = d.su := rfl
@[simp] theorem Dev.updPrt_rd (d : Dev) (f : Protect → Protect) (i : Nat) : (d.updPrt f).rd i = d.rd i := Dev.rd_congr (Dev.updPrt_regs d f) i
@[simp] theorem Dev.updPrt_get (d : Dev) (f : Protect → Protect) (q : Nat) (g : Fld) : (d.updPrt f).get q g = d.get q g := Dev.get_congr (Dev.updPrt_regs d f) q g
@[simp] theorem Dev.updPrt_getI (d : Dev) (f : Protect → Protect) (q : Nat) (g : Fld) : (d.updPrt f).getI q g = d.getI q g := Dev.getI_congr (Dev.updPrt_regs d f) q g
@[simp] theorem Dev.updPrt_flag (d : Dev) (f : Protect → Protect) (q : Nat) (g : Fld) : (d.updPrt f).flag q g = d.flag q g := Dev.flag_congr (Dev.updPrt_regs d f) q g

/-! `updScr` -/
@[simp] theorem Dev.updScr_regs (d : Dev) (f : Scruple → Scruple) : (d.updScr f).regs = d.regs := rfl
@[simp] theorem Dev.updScr_irqSet (d : Dev) (f : Scruple → Scruple) : (d.updScr f).irqSet = d.irqSet := rfl
@[simp] theorem Dev.updScr_mem (d : Dev) (f : Scruple → Scruple) : (d.updScr f).mem = d.mem := rfl
@[simp] theorem Dev.updScr_host (d : Dev) (f : Scruple → Scruple) : (d.updScr f).host = d.host := rfl
@[simp] theorem Dev.updScr_aon (d : Dev) (f : Scruple → Scruple) : (d.updScr f).aon = d.aon := rfl
@[simp] theorem Dev.updScr_fresh (d : Dev) (f : Scruple → Scruple) : (d.updScr f).fresh = d.fresh := rfl
@[simp] theorem Dev.updScr_tb (d : Dev) (f : Scruple → Scruple) : (d.updScr f).tb = d.tb := rfl
@[simp] theorem Dev.updScr_bus (d : Dev) (f : Scruple → Scruple) : (d.updScr f).bus = d.bus := rfl
@[simp] theorem Dev.updScr_fj (d : Dev) (f : Scruple → Scruple) : (d.updScr f).fj = d.fj := rfl
@[simp] theorem Dev.updScr_ldg (d : Dev) (f : Scruple → Scruple) : (d.updScr f).ldg = d.ldg := rfl
@[simp] theorem Dev.updScr_rsv (d : Dev) (f : Scruple → Scruple) : (d.updScr f).rsv = d.rsv := rfl
@[simp] theorem Dev.updScr_stg (d : Dev) (f : Scruple → Scruple) : (d.updScr f).stg = d.stg := rfl
@[simp] theorem Dev.updScr_fls (d : Dev) (f : Scruple → Scruple) : (d.updScr f).fls = d.fls := rfl
@[simp] theorem Dev.updScr_mc (d : Dev) (f : Scruple → Scruple) : (d.updScr f).mc = d.mc := rfl
@[simp] theorem Dev.updScr_fth (d : Dev) (f : Scruple → Scruple) : (d.updScr f).fth = d.fth := rfl
@[simp] theorem Dev.updScr_owp (d : Dev) (f : Scruple → Scruple) : (d.updScr f).owp = d.owp := rfl
@[simp] theorem Dev.updScr_ell (d : Dev) (f : Scruple → Scruple) : (d.updScr f).ell = d.ell := rfl
@[simp] theorem Dev.updScr_cmt (d : Dev) (f : Scruple → Scruple) : (d.updScr f).cmt = d.cmt := rfl
@[simp] theorem Dev.updScr_axes (d : Dev) (f : Scruple → Scruple) : (d.updScr f).axes = d.axes := rfl
@[simp] theorem Dev.updScr_encSet (d : Dev) (f : Scruple → Scruple) : (d.updScr f).encSet = d.encSet := rfl
@[simp] theorem Dev.updScr_ud (d : Dev) (f : Scruple → Scruple) : (d.updScr f).ud = d.ud := rfl
@[simp] theorem Dev.updScr_pwr (d : Dev) (f : Scruple → Scruple) : (d.updScr f).pwr = d.pwr := rfl
@[simp] theorem Dev.updScr_prt (d : Dev) (f : Scruple → Scruple) : (d.updScr f).prt = d.prt := rfl
@[simp] theorem Dev.updScr_cal (d : Dev) (f : Scruple → Scruple) : (d.updScr f).cal = d.cal := rfl
@[simp] theorem Dev.updScr_lnk (d : Dev) (f : Scruple → Scruple) : (d.updScr f).lnk = d.lnk := rfl
@[simp] theorem Dev.updScr_su (d : Dev) (f : Scruple → Scruple) : (d.updScr f).su = d.su := rfl
@[simp] theorem Dev.updScr_rd (d : Dev) (f : Scruple → Scruple) (i : Nat) : (d.updScr f).rd i = d.rd i := Dev.rd_congr (Dev.updScr_regs d f) i
@[simp] theorem Dev.updScr_get (d : Dev) (f : Scruple → Scruple) (q : Nat) (g : Fld) : (d.updScr f).get q g = d.get q g := Dev.get_congr (Dev.updScr_regs d f) q g
@[simp] theorem Dev.updScr_getI (d : Dev) (f : Scruple → Scruple) (q : Nat) (g : Fld) : (d.updScr f).getI q g = d.getI q g := Dev.getI_congr (Dev.updScr_regs d f) q g
@[simp] theorem Dev.updScr_flag (d : Dev) (f : Scruple → Scruple) (q : Nat) (g : Fld) : (d.updScr f).flag q g = d.flag q g := Dev.flag_congr (Dev.updScr_regs d f) q g

/-! `updEngine` -/
@[simp] theorem Dev.updEngine_regs (d : Dev) (e : Nat) (f : Engine → Engine) : (d.updEngine e f).regs = d.regs := rfl
@[simp] theorem Dev.updEngine_irqSet (d : Dev) (e : Nat) (f : Engine → Engine) : (d.updEngine e f).irqSet = d.irqSet := rfl
@[simp] theorem Dev.updEngine_mem (d : Dev) (e : Nat) (f : Engine → Engine) : (d.updEngine e f).mem = d.mem := rfl
@[simp] theorem Dev.updEngine_host (d : Dev) (e : Nat) (f : Engine → Engine) : (d.updEngine e f).host = d.host := rfl
@[simp] theorem Dev.updEngine_aon (d : Dev) (e : Nat) (f : Engine → Engine) : (d.updEngine e f).aon = d.aon := rfl
@[simp] theorem Dev.updEngine_fresh (d : Dev) (e : Nat) (f : Engine → Engine) : (d.updEngine e f).fresh = d.fresh := rfl
@[simp] theorem Dev.updEngine_tb (d : Dev) (e : Nat) (f : Engine → Engine) : (d.updEngine e f).tb = d.tb := rfl
@[simp] theorem Dev.updEngine_bus (d : Dev) (e : Nat) (f : Engine → Engine) : (d.updEngine e f).bus = d.bus := rfl
@[simp] theorem Dev.updEngine_fj (d : Dev) (e : Nat) (f : Engine → Engine) : (d.updEngine e f).fj = d.fj := rfl
@[simp] theorem Dev.updEngine_ldg (d : Dev) (e : Nat) (f : Engine → Engine) : (d.updEngine e f).ldg = d.ldg := rfl
@[simp] theorem Dev.updEngine_rsv (d : Dev) (e : Nat) (f : Engine → Engine) : (d.updEngine e f).rsv = d.rsv := rfl
@[simp] theorem Dev.updEngine_stg (d : Dev) (e : Nat) (f : Engine → Engine) : (d.updEngine e f).stg = d.stg := rfl
@[simp] theorem Dev.updEngine_fls (d : Dev) (e : Nat) (f : Engine → Engine) : (d.updEngine e f).fls = d.fls := rfl
@[simp] theorem Dev.updEngine_mc (d : Dev) (e : Nat) (f : Engine → Engine) : (d.updEngine e f).mc = d.mc := rfl
@[simp] theorem Dev.updEngine_fth (d : Dev) (e : Nat) (f : Engine → Engine) : (d.updEngine e f).fth = d.fth := rfl
@[simp] theorem Dev.updEngine_owp (d : Dev) (e : Nat) (f : Engine → Engine) : (d.updEngine e f).owp = d.owp := rfl
@[simp] theorem Dev.updEngine_cmt (d : Dev) (e : Nat) (f : Engine → Engine) : (d.updEngine e f).cmt = d.cmt := rfl
@[simp] theorem Dev.updEngine_axes (d : Dev) (e : Nat) (f : Engine → Engine) : (d.updEngine e f).axes = d.axes := rfl
@[simp] theorem Dev.updEngine_encSet (d : Dev) (e : Nat) (f : Engine → Engine) : (d.updEngine e f).encSet = d.encSet := rfl
@[simp] theorem Dev.updEngine_ud (d : Dev) (e : Nat) (f : Engine → Engine) : (d.updEngine e f).ud = d.ud := rfl
@[simp] theorem Dev.updEngine_pwr (d : Dev) (e : Nat) (f : Engine → Engine) : (d.updEngine e f).pwr = d.pwr := rfl
@[simp] theorem Dev.updEngine_scr (d : Dev) (e : Nat) (f : Engine → Engine) : (d.updEngine e f).scr = d.scr := rfl
@[simp] theorem Dev.updEngine_prt (d : Dev) (e : Nat) (f : Engine → Engine) : (d.updEngine e f).prt = d.prt := rfl
@[simp] theorem Dev.updEngine_cal (d : Dev) (e : Nat) (f : Engine → Engine) : (d.updEngine e f).cal = d.cal := rfl
@[simp] theorem Dev.updEngine_lnk (d : Dev) (e : Nat) (f : Engine → Engine) : (d.updEngine e f).lnk = d.lnk := rfl
@[simp] theorem Dev.updEngine_su (d : Dev) (e : Nat) (f : Engine → Engine) : (d.updEngine e f).su = d.su := rfl
@[simp] theorem Dev.updEngine_rd (d : Dev) (e : Nat) (f : Engine → Engine) (i : Nat) : (d.updEngine e f).rd i = d.rd i := Dev.rd_congr (Dev.updEngine_regs d e f) i
@[simp] theorem Dev.updEngine_get (d : Dev) (e : Nat) (f : Engine → Engine) (q : Nat) (g : Fld) : (d.updEngine e f).get q g = d.get q g := Dev.get_congr (Dev.updEngine_regs d e f) q g
@[simp] theorem Dev.updEngine_getI (d : Dev) (e : Nat) (f : Engine → Engine) (q : Nat) (g : Fld) : (d.updEngine e f).getI q g = d.getI q g := Dev.getI_congr (Dev.updEngine_regs d e f) q g
@[simp] theorem Dev.updEngine_flag (d : Dev) (e : Nat) (f : Engine → Engine) (q : Nat) (g : Fld) : (d.updEngine e f).flag q g = d.flag q g := Dev.flag_congr (Dev.updEngine_regs d e f) q g

/-! `updOpt` -/
@[simp] theorem Dev.updOpt_regs (d : Dev) (p : Nat) (f : OptPort → OptPort) : (d.updOpt p f).regs = d.regs := rfl
@[simp] theorem Dev.updOpt_irqSet (d : Dev) (p : Nat) (f : OptPort → OptPort) : (d.updOpt p f).irqSet = d.irqSet := rfl
@[simp] theorem Dev.updOpt_mem (d : Dev) (p : Nat) (f : OptPort → OptPort) : (d.updOpt p f).mem = d.mem := rfl
@[simp] theorem Dev.updOpt_host (d : Dev) (p : Nat) (f : OptPort → OptPort) : (d.updOpt p f).host = d.host := rfl
@[simp] theorem Dev.updOpt_aon (d : Dev) (p : Nat) (f : OptPort → OptPort) : (d.updOpt p f).aon = d.aon := rfl
@[simp] theorem Dev.updOpt_fresh (d : Dev) (p : Nat) (f : OptPort → OptPort) : (d.updOpt p f).fresh = d.fresh := rfl
@[simp] theorem Dev.updOpt_tb (d : Dev) (p : Nat) (f : OptPort → OptPort) : (d.updOpt p f).tb = d.tb := rfl
@[simp] theorem Dev.updOpt_bus (d : Dev) (p : Nat) (f : OptPort → OptPort) : (d.updOpt p f).bus = d.bus := rfl
@[simp] theorem Dev.updOpt_fj (d : Dev) (p : Nat) (f : OptPort → OptPort) : (d.updOpt p f).fj = d.fj := rfl
@[simp] theorem Dev.updOpt_ldg (d : Dev) (p : Nat) (f : OptPort → OptPort) : (d.updOpt p f).ldg = d.ldg := rfl
@[simp] theorem Dev.updOpt_rsv (d : Dev) (p : Nat) (f : OptPort → OptPort) : (d.updOpt p f).rsv = d.rsv := rfl
@[simp] theorem Dev.updOpt_stg (d : Dev) (p : Nat) (f : OptPort → OptPort) : (d.updOpt p f).stg = d.stg := rfl
@[simp] theorem Dev.updOpt_fls (d : Dev) (p : Nat) (f : OptPort → OptPort) : (d.updOpt p f).fls = d.fls := rfl
@[simp] theorem Dev.updOpt_mc (d : Dev) (p : Nat) (f : OptPort → OptPort) : (d.updOpt p f).mc = d.mc := rfl
@[simp] theorem Dev.updOpt_fth (d : Dev) (p : Nat) (f : OptPort → OptPort) : (d.updOpt p f).fth = d.fth := rfl
@[simp] theorem Dev.updOpt_owp (d : Dev) (p : Nat) (f : OptPort → OptPort) : (d.updOpt p f).owp = d.owp := rfl
@[simp] theorem Dev.updOpt_cmt (d : Dev) (p : Nat) (f : OptPort → OptPort) : (d.updOpt p f).cmt = d.cmt := rfl
@[simp] theorem Dev.updOpt_axes (d : Dev) (p : Nat) (f : OptPort → OptPort) : (d.updOpt p f).axes = d.axes := rfl
@[simp] theorem Dev.updOpt_encSet (d : Dev) (p : Nat) (f : OptPort → OptPort) : (d.updOpt p f).encSet = d.encSet := rfl
@[simp] theorem Dev.updOpt_ud (d : Dev) (p : Nat) (f : OptPort → OptPort) : (d.updOpt p f).ud = d.ud := rfl
@[simp] theorem Dev.updOpt_pwr (d : Dev) (p : Nat) (f : OptPort → OptPort) : (d.updOpt p f).pwr = d.pwr := rfl
@[simp] theorem Dev.updOpt_scr (d : Dev) (p : Nat) (f : OptPort → OptPort) : (d.updOpt p f).scr = d.scr := rfl
@[simp] theorem Dev.updOpt_prt (d : Dev) (p : Nat) (f : OptPort → OptPort) : (d.updOpt p f).prt = d.prt := rfl
@[simp] theorem Dev.updOpt_cal (d : Dev) (p : Nat) (f : OptPort → OptPort) : (d.updOpt p f).cal = d.cal := rfl
@[simp] theorem Dev.updOpt_lnk (d : Dev) (p : Nat) (f : OptPort → OptPort) : (d.updOpt p f).lnk = d.lnk := rfl
@[simp] theorem Dev.updOpt_su (d : Dev) (p : Nat) (f : OptPort → OptPort) : (d.updOpt p f).su = d.su := rfl
@[simp] theorem Dev.updOpt_rd (d : Dev) (p : Nat) (f : OptPort → OptPort) (i : Nat) : (d.updOpt p f).rd i = d.rd i := Dev.rd_congr (Dev.updOpt_regs d p f) i
@[simp] theorem Dev.updOpt_get (d : Dev) (p : Nat) (f : OptPort → OptPort) (q : Nat) (g : Fld) : (d.updOpt p f).get q g = d.get q g := Dev.get_congr (Dev.updOpt_regs d p f) q g
@[simp] theorem Dev.updOpt_getI (d : Dev) (p : Nat) (f : OptPort → OptPort) (q : Nat) (g : Fld) : (d.updOpt p f).getI q g = d.getI q g := Dev.getI_congr (Dev.updOpt_regs d p f) q g
@[simp] theorem Dev.updOpt_flag (d : Dev) (p : Nat) (f : OptPort → OptPort) (q : Nat) (g : Fld) : (d.updOpt p f).flag q g = d.flag q g := Dev.flag_congr (Dev.updOpt_regs d p f) q g

/-! `updSlot` -/
@[simp] theorem Dev.updSlot_regs (d : Dev) (e s : Nat) (f : Slot → Slot) : (d.updSlot e s f).regs = d.regs := rfl
@[simp] theorem Dev.updSlot_irqSet (d : Dev) (e s : Nat) (f : Slot → Slot) : (d.updSlot e s f).irqSet = d.irqSet := rfl
@[simp] theorem Dev.updSlot_mem (d : Dev) (e s : Nat) (f : Slot → Slot) : (d.updSlot e s f).mem = d.mem := rfl
@[simp] theorem Dev.updSlot_host (d : Dev) (e s : Nat) (f : Slot → Slot) : (d.updSlot e s f).host = d.host := rfl
@[simp] theorem Dev.updSlot_aon (d : Dev) (e s : Nat) (f : Slot → Slot) : (d.updSlot e s f).aon = d.aon := rfl
@[simp] theorem Dev.updSlot_fresh (d : Dev) (e s : Nat) (f : Slot → Slot) : (d.updSlot e s f).fresh = d.fresh := rfl
@[simp] theorem Dev.updSlot_tb (d : Dev) (e s : Nat) (f : Slot → Slot) : (d.updSlot e s f).tb = d.tb := rfl
@[simp] theorem Dev.updSlot_bus (d : Dev) (e s : Nat) (f : Slot → Slot) : (d.updSlot e s f).bus = d.bus := rfl
@[simp] theorem Dev.updSlot_fj (d : Dev) (e s : Nat) (f : Slot → Slot) : (d.updSlot e s f).fj = d.fj := rfl
@[simp] theorem Dev.updSlot_ldg (d : Dev) (e s : Nat) (f : Slot → Slot) : (d.updSlot e s f).ldg = d.ldg := rfl
@[simp] theorem Dev.updSlot_rsv (d : Dev) (e s : Nat) (f : Slot → Slot) : (d.updSlot e s f).rsv = d.rsv := rfl
@[simp] theorem Dev.updSlot_stg (d : Dev) (e s : Nat) (f : Slot → Slot) : (d.updSlot e s f).stg = d.stg := rfl
@[simp] theorem Dev.updSlot_fls (d : Dev) (e s : Nat) (f : Slot → Slot) : (d.updSlot e s f).fls = d.fls := rfl
@[simp] theorem Dev.updSlot_mc (d : Dev) (e s : Nat) (f : Slot → Slot) : (d.updSlot e s f).mc = d.mc := rfl
@[simp] theorem Dev.updSlot_fth (d : Dev) (e s : Nat) (f : Slot → Slot) : (d.updSlot e s f).fth = d.fth := rfl
@[simp] theorem Dev.updSlot_owp (d : Dev) (e s : Nat) (f : Slot → Slot) : (d.updSlot e s f).owp = d.owp := rfl
@[simp] theorem Dev.updSlot_cmt (d : Dev) (e s : Nat) (f : Slot → Slot) : (d.updSlot e s f).cmt = d.cmt := rfl
@[simp] theorem Dev.updSlot_axes (d : Dev) (e s : Nat) (f : Slot → Slot) : (d.updSlot e s f).axes = d.axes := rfl
@[simp] theorem Dev.updSlot_encSet (d : Dev) (e s : Nat) (f : Slot → Slot) : (d.updSlot e s f).encSet = d.encSet := rfl
@[simp] theorem Dev.updSlot_ud (d : Dev) (e s : Nat) (f : Slot → Slot) : (d.updSlot e s f).ud = d.ud := rfl
@[simp] theorem Dev.updSlot_pwr (d : Dev) (e s : Nat) (f : Slot → Slot) : (d.updSlot e s f).pwr = d.pwr := rfl
@[simp] theorem Dev.updSlot_scr (d : Dev) (e s : Nat) (f : Slot → Slot) : (d.updSlot e s f).scr = d.scr := rfl
@[simp] theorem Dev.updSlot_prt (d : Dev) (e s : Nat) (f : Slot → Slot) : (d.updSlot e s f).prt = d.prt := rfl
@[simp] theorem Dev.updSlot_cal (d : Dev) (e s : Nat) (f : Slot → Slot) : (d.updSlot e s f).cal = d.cal := rfl
@[simp] theorem Dev.updSlot_lnk (d : Dev) (e s : Nat) (f : Slot → Slot) : (d.updSlot e s f).lnk = d.lnk := rfl
@[simp] theorem Dev.updSlot_su (d : Dev) (e s : Nat) (f : Slot → Slot) : (d.updSlot e s f).su = d.su := rfl
@[simp] theorem Dev.updSlot_rd (d : Dev) (e s : Nat) (f : Slot → Slot) (i : Nat) : (d.updSlot e s f).rd i = d.rd i := Dev.rd_congr (Dev.updSlot_regs d e s f) i
@[simp] theorem Dev.updSlot_get (d : Dev) (e s : Nat) (f : Slot → Slot) (q : Nat) (g : Fld) : (d.updSlot e s f).get q g = d.get q g := Dev.get_congr (Dev.updSlot_regs d e s f) q g
@[simp] theorem Dev.updSlot_getI (d : Dev) (e s : Nat) (f : Slot → Slot) (q : Nat) (g : Fld) : (d.updSlot e s f).getI q g = d.getI q g := Dev.getI_congr (Dev.updSlot_regs d e s f) q g
@[simp] theorem Dev.updSlot_flag (d : Dev) (e s : Nat) (f : Slot → Slot) (q : Nat) (g : Fld) : (d.updSlot e s f).flag q g = d.flag q g := Dev.flag_congr (Dev.updSlot_regs d e s f) q g

/-! `updMotor` -/
@[simp] theorem Dev.updMotor_regs (d : Dev) (c : Nat) (f : Motor → Motor) : (d.updMotor c f).regs = d.regs := rfl
@[simp] theorem Dev.updMotor_irqSet (d : Dev) (c : Nat) (f : Motor → Motor) : (d.updMotor c f).irqSet = d.irqSet := rfl
@[simp] theorem Dev.updMotor_mem (d : Dev) (c : Nat) (f : Motor → Motor) : (d.updMotor c f).mem = d.mem := rfl
@[simp] theorem Dev.updMotor_host (d : Dev) (c : Nat) (f : Motor → Motor) : (d.updMotor c f).host = d.host := rfl
@[simp] theorem Dev.updMotor_aon (d : Dev) (c : Nat) (f : Motor → Motor) : (d.updMotor c f).aon = d.aon := rfl
@[simp] theorem Dev.updMotor_fresh (d : Dev) (c : Nat) (f : Motor → Motor) : (d.updMotor c f).fresh = d.fresh := rfl
@[simp] theorem Dev.updMotor_tb (d : Dev) (c : Nat) (f : Motor → Motor) : (d.updMotor c f).tb = d.tb := rfl
@[simp] theorem Dev.updMotor_bus (d : Dev) (c : Nat) (f : Motor → Motor) : (d.updMotor c f).bus = d.bus := rfl
@[simp] theorem Dev.updMotor_fj (d : Dev) (c : Nat) (f : Motor → Motor) : (d.updMotor c f).fj = d.fj := rfl
@[simp] theorem Dev.updMotor_ldg (d : Dev) (c : Nat) (f : Motor → Motor) : (d.updMotor c f).ldg = d.ldg := rfl
@[simp] theorem Dev.updMotor_rsv (d : Dev) (c : Nat) (f : Motor → Motor) : (d.updMotor c f).rsv = d.rsv := rfl
@[simp] theorem Dev.updMotor_stg (d : Dev) (c : Nat) (f : Motor → Motor) : (d.updMotor c f).stg = d.stg := rfl
@[simp] theorem Dev.updMotor_fls (d : Dev) (c : Nat) (f : Motor → Motor) : (d.updMotor c f).fls = d.fls := rfl
@[simp] theorem Dev.updMotor_mc (d : Dev) (c : Nat) (f : Motor → Motor) : (d.updMotor c f).mc = d.mc := rfl
@[simp] theorem Dev.updMotor_fth (d : Dev) (c : Nat) (f : Motor → Motor) : (d.updMotor c f).fth = d.fth := rfl
@[simp] theorem Dev.updMotor_owp (d : Dev) (c : Nat) (f : Motor → Motor) : (d.updMotor c f).owp = d.owp := rfl
@[simp] theorem Dev.updMotor_ell (d : Dev) (c : Nat) (f : Motor → Motor) : (d.updMotor c f).ell = d.ell := rfl
@[simp] theorem Dev.updMotor_axes (d : Dev) (c : Nat) (f : Motor → Motor) : (d.updMotor c f).axes = d.axes := rfl
@[simp] theorem Dev.updMotor_encSet (d : Dev) (c : Nat) (f : Motor → Motor) : (d.updMotor c f).encSet = d.encSet := rfl
@[simp] theorem Dev.updMotor_ud (d : Dev) (c : Nat) (f : Motor → Motor) : (d.updMotor c f).ud = d.ud := rfl
@[simp] theorem Dev.updMotor_pwr (d : Dev) (c : Nat) (f : Motor → Motor) : (d.updMotor c f).pwr = d.pwr := rfl
@[simp] theorem Dev.updMotor_scr (d : Dev) (c : Nat) (f : Motor → Motor) : (d.updMotor c f).scr = d.scr := rfl
@[simp] theorem Dev.updMotor_prt (d : Dev) (c : Nat) (f : Motor → Motor) : (d.updMotor c f).prt = d.prt := rfl
@[simp] theorem Dev.updMotor_cal (d : Dev) (c : Nat) (f : Motor → Motor) : (d.updMotor c f).cal = d.cal := rfl
@[simp] theorem Dev.updMotor_lnk (d : Dev) (c : Nat) (f : Motor → Motor) : (d.updMotor c f).lnk = d.lnk := rfl
@[simp] theorem Dev.updMotor_su (d : Dev) (c : Nat) (f : Motor → Motor) : (d.updMotor c f).su = d.su := rfl
@[simp] theorem Dev.updMotor_rd (d : Dev) (c : Nat) (f : Motor → Motor) (i : Nat) : (d.updMotor c f).rd i = d.rd i := Dev.rd_congr (Dev.updMotor_regs d c f) i
@[simp] theorem Dev.updMotor_get (d : Dev) (c : Nat) (f : Motor → Motor) (q : Nat) (g : Fld) : (d.updMotor c f).get q g = d.get q g := Dev.get_congr (Dev.updMotor_regs d c f) q g
@[simp] theorem Dev.updMotor_getI (d : Dev) (c : Nat) (f : Motor → Motor) (q : Nat) (g : Fld) : (d.updMotor c f).getI q g = d.getI q g := Dev.getI_congr (Dev.updMotor_regs d c f) q g
@[simp] theorem Dev.updMotor_flag (d : Dev) (c : Nat) (f : Motor → Motor) (q : Nat) (g : Fld) : (d.updMotor c f).flag q g = d.flag q g := Dev.flag_congr (Dev.updMotor_regs d c f) q g

/-! `updSu` -/
@[simp] theorem Dev.updSu_regs (d : Dev) (f : StartUp → StartUp) : (d.updSu f).regs = d.regs := rfl
@[simp] theorem Dev.updSu_irqSet (d : Dev) (f : StartUp → StartUp) : (d.updSu f).irqSet = d.irqSet := rfl
@[simp] theorem Dev.updSu_mem (d : Dev) (f : StartUp → StartUp) : (d.updSu f).mem = d.mem := rfl
@[simp] theorem Dev.updSu_host (d : Dev) (f : StartUp → StartUp) : (d.updSu f).host = d.host := rfl
@[simp] theorem Dev.updSu_aon (d : Dev) (f : StartUp → StartUp) : (d.updSu f).aon = d.aon := rfl
@[simp] theorem Dev.updSu_fresh (d : Dev) (f : StartUp → StartUp) : (d.updSu f).fresh = d.fresh := rfl
@[simp] theorem Dev.updSu_tb (d : Dev) (f : StartUp → StartUp) : (d.updSu f).tb = d.tb := rfl
@[simp] theorem Dev.updSu_bus (d : Dev) (f : StartUp → StartUp) : (d.updSu f).bus = d.bus := rfl
@[simp] theorem Dev.updSu_fj (d : Dev) (f : StartUp → StartUp) : (d.updSu f).fj = d.fj := rfl
@[simp] theorem Dev.updSu_ldg (d : Dev) (f : StartUp → StartUp) : (d.updSu f).ldg = d.ldg := rfl
@[simp] theorem Dev.updSu_rsv (d : Dev) (f : StartUp → StartUp) : (d.updSu f).rsv = d.rsv := rfl
@[simp] theorem Dev.updSu_stg (d : Dev) (f : StartUp → StartUp) : (d.updSu f).stg = d.stg := rfl
@[simp] theorem Dev.updSu_fls (d : Dev) (f : StartUp → StartUp) : (d.updSu f).fls = d.fls := rfl
@[simp] theorem Dev.updSu_mc (d : Dev) (f : StartUp → StartUp) : (d.updSu f).mc = d.mc := rfl
@[simp] theorem Dev.updSu_fth (d : Dev) (f : StartUp → StartUp) : (d.updSu f).fth = d.fth := rfl
@[simp] theorem Dev.updSu_owp (d : Dev) (f : StartUp → StartUp) : (d.updSu f).owp = d.owp := rfl
@[simp] theorem Dev.updSu_ell (d : Dev) (f : StartUp → StartUp) : (d.updSu f).ell = d.ell := rfl
@[simp] theorem Dev.updSu_cmt (d : Dev) (f : StartUp → StartUp) : (d.updSu f).cmt = d.cmt := rfl
@[simp] theorem Dev.updSu_axes (d : Dev) (f : StartUp → StartUp) : (d.updSu f).axes = d.axes := rfl
@[simp] theorem Dev.updSu_encSet (d : Dev) (f : StartUp → StartUp) : (d.updSu f).encSet = d.encSet := rfl
@[simp] theorem Dev.updSu_ud (d : Dev) (f : StartUp → StartUp) : (d.updSu f).ud = d.ud := rfl
@[simp] theorem Dev.updSu_pwr (d : Dev) (f : StartUp → StartUp) : (d.updSu f).pwr = d.pwr := rfl
@[simp] theorem Dev.updSu_scr (d : Dev) (f : StartUp → StartUp) : (d.updSu f).scr = d.scr := rfl
@[simp] theorem Dev.updSu_prt (d : Dev) (f : StartUp → StartUp) : (d.updSu f).prt = d.prt := rfl
@[simp] theorem Dev.updSu_cal (d : Dev) (f : StartUp → StartUp) : (d.updSu f).cal = d.cal := rfl
@[simp] theorem Dev.updSu_lnk (d : Dev) (f : StartUp → StartUp) : (d.updSu f).lnk = d.lnk := rfl
@[simp] theorem Dev.updSu_rd (d : Dev) (f : StartUp → StartUp) (i : Nat) : (d.updSu f).rd i = d.rd i := Dev.rd_congr (Dev.updSu_regs d f) i
@[simp] theorem Dev.updSu_get (d : Dev) (f : StartUp → StartUp) (q : Nat) (g : Fld) : (d.updSu f).get q g = d.get q g := Dev.get_congr (Dev.updSu_regs d f) q g
@[simp] theorem Dev.updSu_getI (d : Dev) (f : StartUp → StartUp) (q : Nat) (g : Fld) : (d.updSu f).getI q g = d.getI q g := Dev.getI_congr (Dev.updSu_regs d f) q g
@[simp] theorem Dev.updSu_flag (d : Dev) (f : StartUp → StartUp) (q : Nat) (g : Fld) : (d.updSu f).flag q g = d.flag q g := Dev.flag_congr (Dev.updSu_regs d f) q g

/-! `setFifo` -/
@[simp] theorem Dev.setFifo_regs (d : Dev) (k : Nat) (f : Fifo) : (d.setFifo k f).regs = d.regs := rfl
@[simp] theorem Dev.setFifo_irqSet (d : Dev) (k : Nat) (f : Fifo) : (d.setFifo k f).irqSet = d.irqSet := rfl
@[simp] theorem Dev.setFifo_mem (d : Dev) (k : Nat) (f : Fifo) : (d.setFifo k f).mem = d.mem := rfl
@[simp] theorem Dev.setFifo_host (d : Dev) (k : Nat) (f : Fifo) : (d.setFifo k f).host = d.host := rfl
@[simp] theorem Dev.setFifo_aon (d : Dev) (k : Nat) (f : Fifo) : (d.setFifo k f).aon = d.aon := rfl
@[simp] theorem Dev.setFifo_fresh (d : Dev) (k : Nat) (f : Fifo) : (d.setFifo k f).fresh = d.fresh := rfl
@[simp] theorem Dev.setFifo_tb (d : Dev) (k : Nat) (f : Fifo) : (d.setFifo k f).tb = d.tb := rfl
@[simp] theorem Dev.setFifo_bus (d : Dev) (k : Nat) (f : Fifo) : (d.setFifo k f).bus = d.bus := rfl
@[simp] theorem Dev.setFifo_fj (d : Dev) (k : Nat) (f : Fifo) : (d.setFifo k f).fj = d.fj := rfl
@[simp] theorem Dev.setFifo_ldg (d : Dev) (k : Nat) (f : Fifo) : (d.setFifo k f).ldg = d.ldg := rfl
@[simp] theorem Dev.setFifo_rsv (d : Dev) (k : Nat) (f : Fifo) : (d.setFifo k f).rsv = d.rsv := rfl
@[simp] theorem Dev.setFifo_fls (d : Dev) (k : Nat) (f : Fifo) : (d.setFifo k f).fls = d.fls := rfl
@[simp] theorem Dev.setFifo_mc (d : Dev) (k : Nat) (f : Fifo) : (d.setFifo k f).mc = d.mc := rfl
@[simp] theorem Dev.setFifo_fth (d : Dev) (k : Nat) (f : Fifo) : (d.setFifo k f).fth = d.fth := rfl
@[simp] theorem Dev.setFifo_owp (d : Dev) (k : Nat) (f : Fifo) : (d.setFifo k f).owp = d.owp := rfl
@[simp] theorem Dev.setFifo_ell (d : Dev) (k : Nat) (f : Fifo) : (d.setFifo k f).ell = d.ell := rfl
@[simp] theorem Dev.setFifo_cmt (d : Dev) (k : Nat) (f : Fifo) : (d.setFifo k f).cmt = d.cmt := rfl
@[simp] theorem Dev.setFifo_axes (d : Dev) (k : Nat) (f : Fifo) : (d.setFifo k f).axes = d.axes := rfl
@[simp] theorem Dev.setFifo_encSet (d : Dev) (k : Nat) (f : Fifo) : (d.setFifo k f).encSet = d.encSet := rfl
@[simp] theorem Dev.setFifo_ud (d : Dev) (k : Nat) (f : Fifo) : (d.setFifo k f).ud = d.ud := rfl
@[simp] theorem Dev.setFifo_pwr (d : Dev) (k : Nat) (f : Fifo) : (d.setFifo k f).pwr = d.pwr := rfl
@[simp] theorem Dev.setFifo_scr (d : Dev) (k : Nat) (f : Fifo) : (d.setFifo k f).scr = d.scr := rfl
@[simp] theorem Dev.setFifo_prt (d : Dev) (k : Nat) (f : Fifo) : (d.setFifo k f).prt = d.prt := rfl
@[simp] theorem Dev.setFifo_cal (d : Dev) (k : Nat) (f : Fifo) : (d.setFifo k f).cal = d.cal := rfl
@[simp] theorem Dev.setFifo_lnk (d : Dev) (k : Nat) (f : Fifo) : (d.setFifo k f).lnk = d.lnk := rfl
@[simp] theorem Dev.setFifo_su (d : Dev) (k : Nat) (f : Fifo) : (d.setFifo k f).su = d.su := rfl
@[simp] theorem Dev.setFifo_rd (d : Dev) (k : Nat) (f : Fifo) (i : Nat) : (d.setFifo k f).rd i = d.rd i := Dev.rd_congr (Dev.setFifo_regs d k f) i
@[simp] theorem Dev.setFifo_get (d : Dev) (k : Nat) (f : Fifo) (q : Nat) (g : Fld) : (d.setFifo k f).get q g = d.get q g := Dev.get_congr (Dev.setFifo_regs d k f) q g
@[simp] theorem Dev.setFifo_getI (d : Dev) (k : Nat) (f : Fifo) (q : Nat) (g : Fld) : (d.setFifo k f).getI q g = d.getI q g := Dev.getI_congr (Dev.setFifo_regs d k f) q g
@[simp] theorem Dev.setFifo_flag (d : Dev) (k : Nat) (f : Fifo) (q : Nat) (g : Fld) : (d.setFifo k f).flag q g = d.flag q g := Dev.flag_congr (Dev.setFifo_regs d k f) q g

/-! `updFifo` -/
@[simp] theorem Dev.updFifo_regs (d : Dev) (k : Nat) (f : Fifo → Fifo) : (d.updFifo k f).regs = d.regs := rfl
@[simp] theorem Dev.updFifo_irqSet (d : Dev) (k : Nat) (f : Fifo → Fifo) : (d.updFifo k f).irqSet = d.irqSet := rfl
@[simp] theorem Dev.updFifo_mem (d : Dev) (k : Nat) (f : Fifo → Fifo) : (d.updFifo k f).mem = d.mem := rfl
@[simp] theorem Dev.updFifo_host (d : Dev) (k : Nat) (f : Fifo → Fifo) : (d.updFifo k f).host = d.host := rfl
@[simp] theorem Dev.updFifo_aon (d : Dev) (k : Nat) (f : Fifo → Fifo) : (d.updFifo k f).aon = d.aon := rfl
@[simp] theorem Dev.updFifo_fresh (d : Dev) (k : Nat) (f : Fifo → Fifo) : (d.updFifo k f).fresh = d.fresh := rfl
@[simp] theorem Dev.updFifo_tb (d : Dev) (k : Nat) (f : Fifo → Fifo) : (d.updFifo k f).tb = d.tb := rfl
@[simp] theorem Dev.updFifo_bus (d : Dev) (k : Nat) (f : Fifo → Fifo) : (d.updFifo k f).bus = d.bus := rfl
@[simp] theorem Dev.updFifo_fj (d : Dev) (k : Nat) (f : Fifo → Fifo) : (d.updFifo k f).fj = d.fj := rfl
@[simp] theorem Dev.updFifo_ldg (d : Dev) (k : Nat) (f : Fifo → Fifo) : (d.updFifo k f).ldg = d.ldg := rfl
@[simp] theorem Dev.updFifo_rsv (d : Dev) (k : Nat) (f : Fifo → Fifo) : (d.updFifo k f).rsv = d.rsv := rfl
@[simp] theorem Dev.updFifo_fls (d : Dev) (k : Nat) (f : Fifo → Fifo) : (d.updFifo k f).fls = d.fls := rfl
@[simp] theorem Dev.updFifo_mc (d : Dev) (k : Nat) (f : Fifo → Fifo) : (d.updFifo k f).mc = d.mc := rfl
@[simp] theorem Dev.updFifo_fth (d : Dev) (k : Nat) (f : Fifo → Fifo) : (d.updFifo k f).fth = d.fth := rfl
@[simp] theorem Dev.updFifo_owp (d : Dev) (k : Nat) (f : Fifo → Fifo) : (d.updFifo k f).owp = d.owp := rfl
@[simp] theorem Dev.updFifo_ell (d : Dev) (k : Nat) (f : Fifo → Fifo) : (d.updFifo k f).ell = d.ell := rfl
@[simp] theorem Dev.updFifo_cmt (d : Dev) (k : Nat) (f : Fifo → Fifo) : (d.updFifo k f).cmt = d.cmt := rfl
@[simp] theorem Dev.updFifo_axes (d : Dev) (k : Nat) (f : Fifo → Fifo) : (d.updFifo k f).axes = d.axes := rfl
@[simp] theorem Dev.updFifo_encSet (d : Dev) (k : Nat) (f : Fifo → Fifo) : (d.updFifo k f).encSet = d.encSet := rfl
@[simp] theorem Dev.updFifo_ud (d : Dev) (k : Nat) (f : Fifo → Fifo) : (d.updFifo k f).ud = d.ud := rfl
@[simp] theorem Dev.updFifo_pwr (d : Dev) (k : Nat) (f : Fifo → Fifo) : (d.updFifo k f).pwr = d.pwr := rfl
@[simp] theorem Dev.updFifo_scr (d : Dev) (k : Nat) (f : Fifo → Fifo) : (d.updFifo k f).scr = d.scr := rfl
@[simp] theorem Dev.updFifo_prt (d : Dev) (k : Nat) (f : Fifo → Fifo) : (d.updFifo k f).prt = d.prt := rfl
@[simp] theorem Dev.updFifo_cal (d : Dev) (k : Nat) (f : Fifo → Fifo) : (d.updFifo k f).cal = d.cal := rfl
@[simp] theorem Dev.updFifo_lnk (d : Dev) (k : Nat) (f : Fifo → Fifo) : (d.updFifo k f).lnk = d.lnk := rfl
@[simp] theorem Dev.updFifo_su (d : Dev) (k : Nat) (f : Fifo → Fifo) : (d.updFifo k f).su = d.su := rfl
@[simp] theorem Dev.updFifo_rd (d : Dev) (k : Nat) (f : Fifo → Fifo) (i : Nat) : (d.updFifo k f).rd i = d.rd i := Dev.rd_congr (Dev.updFifo_regs d k f) i
@[simp] theorem Dev.updFifo_get (d : Dev) (k : Nat) (f : Fifo → Fifo) (q : Nat) (g : Fld) : (d.updFifo k f).get q g = d.get q g := Dev.get_congr (Dev.updFifo_regs d k f) q g
@[simp] theorem Dev.updFifo_getI (d : Dev) (k : Nat) (f : Fifo → Fifo) (q : Nat) (g : Fld) : (d.updFifo k f).getI q g = d.getI q g := Dev.getI_congr (Dev.updFifo_regs d k f) q g
@[simp] theorem Dev.updFifo_flag (d : Dev) (k : Nat) (f : Fifo → Fifo) (q : Nat) (g : Fld) : (d.updFifo k f).flag q g = d.flag q g := Dev.flag_congr (Dev.updFifo_regs d k f) q g

/-! `setCrc` -/
@[simp] theorem Dev.setCrc_regs (d : Dev) (c v : Nat) : (d.setCrc c v).regs = d.regs := rfl
@[simp] theorem Dev.setCrc_irqSet (d : Dev) (c v : Nat) : (d.setCrc c v).irqSet = d.irqSet := rfl
@[simp] theorem Dev.setCrc_mem (d : Dev) (c v : Nat) : (d.setCrc c v).mem = d.mem := rfl
@[simp] theorem Dev.setCrc_host (d : Dev) (c v : Nat) : (d.setCrc c v).host = d.host := rfl
@[simp] theorem Dev.setCrc_aon (d : Dev) (c v : Nat) : (d.setCrc c v).aon = d.aon := rfl
@[simp] theorem Dev.setCrc_fresh (d : Dev) (c v : Nat) : (d.setCrc c v).fresh = d.fresh := rfl
@[simp] theorem Dev.setCrc_tb (d : Dev) (c v : Nat) : (d.setCrc c v).tb = d.tb := rfl
@[simp] theorem Dev.setCrc_bus (d : Dev) (c v : Nat) : (d.setCrc c v).bus = d.bus := rfl
@[simp] theorem Dev.setCrc_fj (d : Dev) (c v : Nat) : (d.setCrc c v).fj = d.fj := rfl
@[simp] theorem Dev.setCrc_ldg (d : Dev) (c v : Nat) : (d.setCrc c v).ldg = d.ldg := rfl
@[simp] theorem Dev.setCrc_rsv (d : Dev) (c v : Nat) : (d.setCrc c v).rsv = d.rsv := rfl
@[simp] theorem Dev.setCrc_fls (d : Dev) (c v : Nat) : (d.setCrc c v).fls = d.fls := rfl
@[simp] theorem Dev.setCrc_mc (d : Dev) (c v : Nat) : (d.setCrc c v).mc = d.mc := rfl
@[simp] theorem Dev.setCrc_fth (d : Dev) (c v : Nat) : (d.setCrc c v).fth = d.fth := rfl
@[simp] theorem Dev.setCrc_owp (d : Dev) (c v : Nat) : (d.setCrc c v).owp = d.owp := rfl
@[simp] theorem Dev.setCrc_ell (d : Dev) (c v : Nat) : (d.setCrc c v).ell = d.ell := rfl
@[simp] theorem Dev.setCrc_cmt (d : Dev) (c v : Nat) : (d.setCrc c v).cmt = d.cmt := rfl
@[simp] theorem Dev.setCrc_axes (d : Dev) (c v : Nat) : (d.setCrc c v).axes = d.axes := rfl
@[simp] theorem Dev.setCrc_encSet (d : Dev) (c v : Nat) : (d.setCrc c v).encSet = d.encSet := rfl
@[simp] theorem Dev.setCrc_ud (d : Dev) (c v : Nat) : (d.setCrc c v).ud = d.ud := rfl
@[simp] theorem Dev.setCrc_pwr (d : Dev) (c v : Nat) : (d.setCrc c v).pwr = d.pwr := rfl
@[simp] theorem Dev.setCrc_scr (d : Dev) (c v : Nat) : (d.setCrc c v).scr = d.scr := rfl
@[simp] theorem Dev.setCrc_prt (d : Dev) (c v : Nat) : (d.setCrc c v).prt = d.prt := rfl
@[simp] theorem Dev.setCrc_cal (d : Dev) (c v : Nat) : (d.setCrc c v).cal = d.cal := rfl
@[simp] theorem Dev.setCrc_lnk (d : Dev) (c v : Nat) : (d.setCrc c v).lnk = d.lnk := rfl
@[simp] theorem Dev.setCrc_su (d : Dev) (c v : Nat) : (d.setCrc c v).su = d.su := rfl
@[simp] theorem Dev.setCrc_rd (d : Dev) (c v : Nat) (i : Nat) : (d.setCrc c v).rd i = d.rd i := Dev.rd_congr (Dev.setCrc_regs d c v) i
@[simp] theorem Dev.setCrc_get (d : Dev) (c v : Nat) (q : Nat) (g : Fld) : (d.setCrc c v).get q g = d.get q g := Dev.get_congr (Dev.setCrc_regs d c v) q g
@[simp] theorem Dev.setCrc_getI (d : Dev) (c v : Nat) (q : Nat) (g : Fld) : (d.setCrc c v).getI q g = d.getI q g := Dev.getI_congr (Dev.setCrc_regs d c v) q g
@[simp] theorem Dev.setCrc_flag (d : Dev) (c v : Nat) (q : Nat) (g : Fld) : (d.setCrc c v).flag q g = d.flag q g := Dev.flag_congr (Dev.setCrc_regs d c v) q g

/-! `setCtx` -/
@[simp] theorem Dev.setCtx_regs (d : Dev) (c : Nat) (x : Ctx) : (d.setCtx c x).regs = d.regs := rfl
@[simp] theorem Dev.setCtx_irqSet (d : Dev) (c : Nat) (x : Ctx) : (d.setCtx c x).irqSet = d.irqSet := rfl
@[simp] theorem Dev.setCtx_mem (d : Dev) (c : Nat) (x : Ctx) : (d.setCtx c x).mem = d.mem := rfl
@[simp] theorem Dev.setCtx_host (d : Dev) (c : Nat) (x : Ctx) : (d.setCtx c x).host = d.host := rfl
@[simp] theorem Dev.setCtx_aon (d : Dev) (c : Nat) (x : Ctx) : (d.setCtx c x).aon = d.aon := rfl
@[simp] theorem Dev.setCtx_fresh (d : Dev) (c : Nat) (x : Ctx) : (d.setCtx c x).fresh = d.fresh := rfl
@[simp] theorem Dev.setCtx_tb (d : Dev) (c : Nat) (x : Ctx) : (d.setCtx c x).tb = d.tb := rfl
@[simp] theorem Dev.setCtx_bus (d : Dev) (c : Nat) (x : Ctx) : (d.setCtx c x).bus = d.bus := rfl
@[simp] theorem Dev.setCtx_fj (d : Dev) (c : Nat) (x : Ctx) : (d.setCtx c x).fj = d.fj := rfl
@[simp] theorem Dev.setCtx_rsv (d : Dev) (c : Nat) (x : Ctx) : (d.setCtx c x).rsv = d.rsv := rfl
@[simp] theorem Dev.setCtx_stg (d : Dev) (c : Nat) (x : Ctx) : (d.setCtx c x).stg = d.stg := rfl
@[simp] theorem Dev.setCtx_fls (d : Dev) (c : Nat) (x : Ctx) : (d.setCtx c x).fls = d.fls := rfl
@[simp] theorem Dev.setCtx_mc (d : Dev) (c : Nat) (x : Ctx) : (d.setCtx c x).mc = d.mc := rfl
@[simp] theorem Dev.setCtx_fth (d : Dev) (c : Nat) (x : Ctx) : (d.setCtx c x).fth = d.fth := rfl
@[simp] theorem Dev.setCtx_owp (d : Dev) (c : Nat) (x : Ctx) : (d.setCtx c x).owp = d.owp := rfl
@[simp] theorem Dev.setCtx_ell (d : Dev) (c : Nat) (x : Ctx) : (d.setCtx c x).ell = d.ell := rfl
@[simp] theorem Dev.setCtx_cmt (d : Dev) (c : Nat) (x : Ctx) : (d.setCtx c x).cmt = d.cmt := rfl
@[simp] theorem Dev.setCtx_axes (d : Dev) (c : Nat) (x : Ctx) : (d.setCtx c x).axes = d.axes := rfl
@[simp] theorem Dev.setCtx_encSet (d : Dev) (c : Nat) (x : Ctx) : (d.setCtx c x).encSet = d.encSet := rfl
@[simp] theorem Dev.setCtx_ud (d : Dev) (c : Nat) (x : Ctx) : (d.setCtx c x).ud = d.ud := rfl
@[simp] theorem Dev.setCtx_pwr (d : Dev) (c : Nat) (x : Ctx) : (d.setCtx c x).pwr = d.pwr := rfl
@[simp] theorem Dev.setCtx_scr (d : Dev) (c : Nat) (x : Ctx) : (d.setCtx c x).scr = d.scr := rfl
@[simp] theorem Dev.setCtx_prt (d : Dev) (c : Nat) (x : Ctx) : (d.setCtx c x).prt = d.prt := rfl
@[simp] theorem Dev.setCtx_cal (d : Dev) (c : Nat) (x : Ctx) : (d.setCtx c x).cal = d.cal := rfl
@[simp] theorem Dev.setCtx_lnk (d : Dev) (c : Nat) (x : Ctx) : (d.setCtx c x).lnk = d.lnk := rfl
@[simp] theorem Dev.setCtx_su (d : Dev) (c : Nat) (x : Ctx) : (d.setCtx c x).su = d.su := rfl
@[simp] theorem Dev.setCtx_rd (d : Dev) (c : Nat) (x : Ctx) (i : Nat) : (d.setCtx c x).rd i = d.rd i := Dev.rd_congr (Dev.setCtx_regs d c x) i
@[simp] theorem Dev.setCtx_get (d : Dev) (c : Nat) (x : Ctx) (q : Nat) (g : Fld) : (d.setCtx c x).get q g = d.get q g := Dev.get_congr (Dev.setCtx_regs d c x) q g
@[simp] theorem Dev.setCtx_getI (d : Dev) (c : Nat) (x : Ctx) (q : Nat) (g : Fld) : (d.setCtx c x).getI q g = d.getI q g := Dev.getI_congr (Dev.setCtx_regs d c x) q g
@[simp] theorem Dev.setCtx_flag (d : Dev) (c : Nat) (x : Ctx) (q : Nat) (g : Fld) : (d.setCtx c x).flag q g = d.flag q g := Dev.flag_congr (Dev.setCtx_regs d c x) q g

/-! `setLane` -/
@[simp] theorem Dev.setLane_regs (d : Dev) (n : Nat) (x : LaneDesc) : (d.setLane n x).regs = d.regs := by rw [Dev.setLane]
@[simp] theorem Dev.setLane_irqSet (d : Dev) (n : Nat) (x : LaneDesc) : (d.setLane n x).irqSet = d.irqSet := by rw [Dev.setLane]
@[simp] theorem Dev.setLane_host (d : Dev) (n : Nat) (x : LaneDesc) : (d.setLane n x).host = d.host := by rw [Dev.setLane]
@[simp] theorem Dev.setLane_aon (d : Dev) (n : Nat) (x : LaneDesc) : (d.setLane n x).aon = d.aon := by rw [Dev.setLane]
@[simp] theorem Dev.setLane_fresh (d : Dev) (n : Nat) (x : LaneDesc) : (d.setLane n x).fresh = d.fresh := by rw [Dev.setLane]
@[simp] theorem Dev.setLane_tb (d : Dev) (n : Nat) (x : LaneDesc) : (d.setLane n x).tb = d.tb := by rw [Dev.setLane]
@[simp] theorem Dev.setLane_bus (d : Dev) (n : Nat) (x : LaneDesc) : (d.setLane n x).bus = d.bus := by rw [Dev.setLane]
@[simp] theorem Dev.setLane_fj (d : Dev) (n : Nat) (x : LaneDesc) : (d.setLane n x).fj = d.fj := by rw [Dev.setLane]
@[simp] theorem Dev.setLane_rsv (d : Dev) (n : Nat) (x : LaneDesc) : (d.setLane n x).rsv = d.rsv := by rw [Dev.setLane]
@[simp] theorem Dev.setLane_stg (d : Dev) (n : Nat) (x : LaneDesc) : (d.setLane n x).stg = d.stg := by rw [Dev.setLane]
@[simp] theorem Dev.setLane_fls (d : Dev) (n : Nat) (x : LaneDesc) : (d.setLane n x).fls = d.fls := by rw [Dev.setLane]
@[simp] theorem Dev.setLane_mc (d : Dev) (n : Nat) (x : LaneDesc) : (d.setLane n x).mc = d.mc := by rw [Dev.setLane]
@[simp] theorem Dev.setLane_fth (d : Dev) (n : Nat) (x : LaneDesc) : (d.setLane n x).fth = d.fth := by rw [Dev.setLane]
@[simp] theorem Dev.setLane_owp (d : Dev) (n : Nat) (x : LaneDesc) : (d.setLane n x).owp = d.owp := by rw [Dev.setLane]
@[simp] theorem Dev.setLane_ell (d : Dev) (n : Nat) (x : LaneDesc) : (d.setLane n x).ell = d.ell := by rw [Dev.setLane]
@[simp] theorem Dev.setLane_cmt (d : Dev) (n : Nat) (x : LaneDesc) : (d.setLane n x).cmt = d.cmt := by rw [Dev.setLane]
@[simp] theorem Dev.setLane_axes (d : Dev) (n : Nat) (x : LaneDesc) : (d.setLane n x).axes = d.axes := by rw [Dev.setLane]
@[simp] theorem Dev.setLane_encSet (d : Dev) (n : Nat) (x : LaneDesc) : (d.setLane n x).encSet = d.encSet := by rw [Dev.setLane]
@[simp] theorem Dev.setLane_ud (d : Dev) (n : Nat) (x : LaneDesc) : (d.setLane n x).ud = d.ud := by rw [Dev.setLane]
@[simp] theorem Dev.setLane_pwr (d : Dev) (n : Nat) (x : LaneDesc) : (d.setLane n x).pwr = d.pwr := by rw [Dev.setLane]
@[simp] theorem Dev.setLane_scr (d : Dev) (n : Nat) (x : LaneDesc) : (d.setLane n x).scr = d.scr := by rw [Dev.setLane]
@[simp] theorem Dev.setLane_prt (d : Dev) (n : Nat) (x : LaneDesc) : (d.setLane n x).prt = d.prt := by rw [Dev.setLane]
@[simp] theorem Dev.setLane_cal (d : Dev) (n : Nat) (x : LaneDesc) : (d.setLane n x).cal = d.cal := by rw [Dev.setLane]
@[simp] theorem Dev.setLane_lnk (d : Dev) (n : Nat) (x : LaneDesc) : (d.setLane n x).lnk = d.lnk := by rw [Dev.setLane]
@[simp] theorem Dev.setLane_su (d : Dev) (n : Nat) (x : LaneDesc) : (d.setLane n x).su = d.su := by rw [Dev.setLane]
@[simp] theorem Dev.setLane_rd (d : Dev) (n : Nat) (x : LaneDesc) (i : Nat) : (d.setLane n x).rd i = d.rd i := Dev.rd_congr (Dev.setLane_regs d n x) i
@[simp] theorem Dev.setLane_get (d : Dev) (n : Nat) (x : LaneDesc) (q : Nat) (g : Fld) : (d.setLane n x).get q g = d.get q g := Dev.get_congr (Dev.setLane_regs d n x) q g
@[simp] theorem Dev.setLane_getI (d : Dev) (n : Nat) (x : LaneDesc) (q : Nat) (g : Fld) : (d.setLane n x).getI q g = d.getI q g := Dev.getI_congr (Dev.setLane_regs d n x) q g
@[simp] theorem Dev.setLane_flag (d : Dev) (n : Nat) (x : LaneDesc) (q : Nat) (g : Fld) : (d.setLane n x).flag q g = d.flag q g := Dev.flag_congr (Dev.setLane_regs d n x) q g

/-! `updTask` -/
@[simp] theorem Dev.updTask_regs (d : Dev) (n : Nat) (f : TaskSt → TaskSt) : (d.updTask n f).regs = d.regs := rfl
@[simp] theorem Dev.updTask_irqSet (d : Dev) (n : Nat) (f : TaskSt → TaskSt) : (d.updTask n f).irqSet = d.irqSet := rfl
@[simp] theorem Dev.updTask_mem (d : Dev) (n : Nat) (f : TaskSt → TaskSt) : (d.updTask n f).mem = d.mem := rfl
@[simp] theorem Dev.updTask_host (d : Dev) (n : Nat) (f : TaskSt → TaskSt) : (d.updTask n f).host = d.host := rfl
@[simp] theorem Dev.updTask_aon (d : Dev) (n : Nat) (f : TaskSt → TaskSt) : (d.updTask n f).aon = d.aon := rfl
@[simp] theorem Dev.updTask_fresh (d : Dev) (n : Nat) (f : TaskSt → TaskSt) : (d.updTask n f).fresh = d.fresh := rfl
@[simp] theorem Dev.updTask_tb (d : Dev) (n : Nat) (f : TaskSt → TaskSt) : (d.updTask n f).tb = d.tb := rfl
@[simp] theorem Dev.updTask_bus (d : Dev) (n : Nat) (f : TaskSt → TaskSt) : (d.updTask n f).bus = d.bus := rfl
@[simp] theorem Dev.updTask_fj (d : Dev) (n : Nat) (f : TaskSt → TaskSt) : (d.updTask n f).fj = d.fj := rfl
@[simp] theorem Dev.updTask_rsv (d : Dev) (n : Nat) (f : TaskSt → TaskSt) : (d.updTask n f).rsv = d.rsv := rfl
@[simp] theorem Dev.updTask_stg (d : Dev) (n : Nat) (f : TaskSt → TaskSt) : (d.updTask n f).stg = d.stg := rfl
@[simp] theorem Dev.updTask_fls (d : Dev) (n : Nat) (f : TaskSt → TaskSt) : (d.updTask n f).fls = d.fls := rfl
@[simp] theorem Dev.updTask_mc (d : Dev) (n : Nat) (f : TaskSt → TaskSt) : (d.updTask n f).mc = d.mc := rfl
@[simp] theorem Dev.updTask_fth (d : Dev) (n : Nat) (f : TaskSt → TaskSt) : (d.updTask n f).fth = d.fth := rfl
@[simp] theorem Dev.updTask_owp (d : Dev) (n : Nat) (f : TaskSt → TaskSt) : (d.updTask n f).owp = d.owp := rfl
@[simp] theorem Dev.updTask_ell (d : Dev) (n : Nat) (f : TaskSt → TaskSt) : (d.updTask n f).ell = d.ell := rfl
@[simp] theorem Dev.updTask_cmt (d : Dev) (n : Nat) (f : TaskSt → TaskSt) : (d.updTask n f).cmt = d.cmt := rfl
@[simp] theorem Dev.updTask_axes (d : Dev) (n : Nat) (f : TaskSt → TaskSt) : (d.updTask n f).axes = d.axes := rfl
@[simp] theorem Dev.updTask_encSet (d : Dev) (n : Nat) (f : TaskSt → TaskSt) : (d.updTask n f).encSet = d.encSet := rfl
@[simp] theorem Dev.updTask_ud (d : Dev) (n : Nat) (f : TaskSt → TaskSt) : (d.updTask n f).ud = d.ud := rfl
@[simp] theorem Dev.updTask_pwr (d : Dev) (n : Nat) (f : TaskSt → TaskSt) : (d.updTask n f).pwr = d.pwr := rfl
@[simp] theorem Dev.updTask_scr (d : Dev) (n : Nat) (f : TaskSt → TaskSt) : (d.updTask n f).scr = d.scr := rfl
@[simp] theorem Dev.updTask_prt (d : Dev) (n : Nat) (f : TaskSt → TaskSt) : (d.updTask n f).prt = d.prt := rfl
@[simp] theorem Dev.updTask_cal (d : Dev) (n : Nat) (f : TaskSt → TaskSt) : (d.updTask n f).cal = d.cal := rfl
@[simp] theorem Dev.updTask_lnk (d : Dev) (n : Nat) (f : TaskSt → TaskSt) : (d.updTask n f).lnk = d.lnk := rfl
@[simp] theorem Dev.updTask_su (d : Dev) (n : Nat) (f : TaskSt → TaskSt) : (d.updTask n f).su = d.su := rfl
@[simp] theorem Dev.updTask_rd (d : Dev) (n : Nat) (f : TaskSt → TaskSt) (i : Nat) : (d.updTask n f).rd i = d.rd i := Dev.rd_congr (Dev.updTask_regs d n f) i
@[simp] theorem Dev.updTask_get (d : Dev) (n : Nat) (f : TaskSt → TaskSt) (q : Nat) (g : Fld) : (d.updTask n f).get q g = d.get q g := Dev.get_congr (Dev.updTask_regs d n f) q g
@[simp] theorem Dev.updTask_getI (d : Dev) (n : Nat) (f : TaskSt → TaskSt) (q : Nat) (g : Fld) : (d.updTask n f).getI q g = d.getI q g := Dev.getI_congr (Dev.updTask_regs d n f) q g
@[simp] theorem Dev.updTask_flag (d : Dev) (n : Nat) (f : TaskSt → TaskSt) (q : Nat) (g : Fld) : (d.updTask n f).flag q g = d.flag q g := Dev.flag_congr (Dev.updTask_regs d n f) q g

end Sys2Proof.Machine
end

