-- ==== Sys2Proof/Laws/Tab.lean ====
section
/-! SUPPORT. Laws of the sparse tables that registers and memories stand in, and of bit fields. -/

namespace Sys2Proof.Machine

open Sys2Proof

/-! ### Reading back -/

section Tables
variable {α : Type} (dflt : Nat → α)

@[simp] theorem tabGet_nil (k : Nat) : tabGet dflt [] k = dflt k := rfl

theorem tabGet_cons (a : Nat) (v : α) (l : List (Nat × α)) (k : Nat) :
    tabGet dflt ((a, v) :: l) k = if a = k then v else tabGet dflt l k := rfl

@[simp] theorem tabErase_nil (k : Nat) : tabErase ([] : List (Nat × α)) k = [] := rfl

theorem tabErase_cons (x : Nat × α) (l : List (Nat × α)) (k : Nat) :
    tabErase (x :: l) k = if x.1 = k then tabErase l k else x :: tabErase l k := by
  by_cases h : x.1 = k <;> simp [tabErase, h]

@[simp] theorem tabGet_erase_same (l : List (Nat × α)) (k : Nat) : tabGet dflt (tabErase l k) k = dflt k := by
  induction l with
  | nil => rfl
  | cons x l ih =>
    rw [tabErase_cons]
    split
    · exact ih
    · rename_i h; rw [tabGet, if_neg h]; exact ih

theorem tabGet_erase_other (l : List (Nat × α)) {k j : Nat} (h : j ≠ k) : tabGet dflt (tabErase l k) j = tabGet dflt l j := by
  induction l with
  | nil => rfl
  | cons x l ih =>
    rw [tabErase_cons]
    split
    · rename_i hk
      have hj : ¬ x.1 = j := fun e => h (e.symm.trans hk)
      rw [tabGet, if_neg hj]; exact ih
    · rw [tabGet, tabGet, ih]

theorem tabGet_insert_same (k : Nat) (v : α) (l : List (Nat × α)) : tabGet dflt (tabInsert k v l) k = v := by
  induction l with
  | nil => simp [tabInsert, tabGet]
  | cons x l ih =>
    rw [tabInsert]
    split
    · have : ¬ x.1 = k := by omega
      simpa [tabGet, this] using ih
    · simp [tabGet]

theorem tabGet_insert_other {k j : Nat} (v : α) (l : List (Nat × α)) (h : j ≠ k) :
    tabGet dflt (tabInsert k v l) j = tabGet dflt l j := by
  have h' : ¬ k = j := fun e => h e.symm
  induction l with
  | nil => simp [tabInsert, tabGet, h']
  | cons x l ih =>
    rw [tabInsert]
    split
    · by_cases hj : x.1 = j
      · simp [tabGet, hj]
      · simpa [tabGet, hj] using ih
    · simp [tabGet, h']

variable [DecidableEq α]

/-- What was set is read. -/
@[simp] theorem tabGet_set_same (l : List (Nat × α)) (k : Nat) (v : α) : tabGet dflt (tabSet dflt l k v) k = v := by
  rw [tabSet]
  split
  · rename_i h; rw [tabGet_erase_same, h]
  · exact tabGet_insert_same dflt k v _

/-- Every other key reads as before. -/
theorem tabGet_set_other (l : List (Nat × α)) {k j : Nat} (v : α) (h : j ≠ k) :
    tabGet dflt (tabSet dflt l k v) j = tabGet dflt l j := by
  rw [tabSet]
  split
  · exact tabGet_erase_other dflt l h
  · rw [tabGet_insert_other dflt v _ h, tabGet_erase_other dflt l h]

end Tables

/-! ### The canonical form is kept -/

section Canonical
variable {α : Type}

theorem tabSorted_mono {l : List (Nat × α)} {b : Nat} (h : tabSorted (some b) l = true) (o : Option Nat)
    (ho : ∀ c, o = some c → c ≤ b) : tabSorted o l = true := by
  cases l with
  | nil => cases o <;> rfl
  | cons x l =>
    obtain ⟨a, v⟩ := x
    simp only [tabSorted, Bool.and_eq_true, decide_eq_true_eq] at h
    cases o with
    | none => simpa [tabSorted] using h.2
    | some c => simp only [tabSorted, Bool.and_eq_true, decide_eq_true_eq]; exact ⟨Nat.lt_of_le_of_lt (ho c rfl) h.1, h.2⟩

theorem tabSorted_tail {o : Option Nat} {x : Nat × α} {l : List (Nat × α)} (h : tabSorted o (x :: l) = true) :
    tabSorted (some x.1) l = true := by
  cases o <;> simp_all [tabSorted]

/-- Leaving out pairs keeps the keys rising. -/
theorem tabSorted_filter (p : Nat × α → Bool) (l : List (Nat × α)) (o : Option Nat) (h : tabSorted o l = true) :
    tabSorted o (l.filter p) = true := by
  induction l generalizing o with
  | nil => simpa using h
  | cons x l ih =>
    have ht := tabSorted_tail h
    rw [List.filter_cons]
    split
    · cases o with
      | none => simpa [tabSorted] using ih (some x.1) ht
      | some b =>
        simp only [tabSorted, Bool.and_eq_true, decide_eq_true_eq] at h ⊢
        exact ⟨h.1, ih _ ht⟩
    · apply ih
      exact tabSorted_mono ht o fun c hc => by
        subst hc; simp only [tabSorted, Bool.and_eq_true, decide_eq_true_eq] at h; omega

theorem tabSorted_insert (k : Nat) (v : α) (l : List (Nat × α)) (o : Option Nat) (h : tabSorted o l = true)
    (ho : ∀ c, o = some c → c < k) (hk : ∀ x ∈ l, x.1 ≠ k) : tabSorted o (tabInsert k v l) = true := by
  induction l generalizing o with
  | nil => cases o <;> simp_all [tabInsert, tabSorted]
  | cons x l ih =>
    have ht := tabSorted_tail h
    rw [tabInsert]
    split
    · rename_i hlt
      have := ih (some x.1) ht (fun c hc => by cases hc; exact hlt) fun y hy => hk y (List.mem_cons_of_mem _ hy)
      cases o with
      | none => simpa [tabSorted] using this
      | some b =>
        simp only [tabSorted, Bool.and_eq_true, decide_eq_true_eq] at h ⊢
        exact ⟨h.1, this⟩
    · rename_i hge
      have hne := hk x List.mem_cons_self
      have hlt : k < x.1 := by omega
      cases o with
      | none => simp only [tabSorted, Bool.and_eq_true, decide_eq_true_eq]; exact ⟨hlt, ht⟩
      | some b => simp only [tabSorted, Bool.and_eq_true, decide_eq_true_eq]; exact ⟨ho b rfl, hlt, ht⟩

theorem mem_tabInsert {k : Nat} {v : α} {l : List (Nat × α)} {x : Nat × α} (h : x ∈ tabInsert k v l) : x = (k, v) ∨ x ∈ l := by
  induction l with
  | nil => simpa [tabInsert] using h
  | cons y l ih =>
    rw [tabInsert] at h
    split at h
    · rcases List.mem_cons.1 h with h | h
      · exact .inr (h ▸ List.mem_cons_self)
      · exact (ih h).imp id (List.mem_cons_of_mem _)
    · exact List.mem_cons.1 h

variable [DecidableEq α] {dflt : Nat → α}

/-- Leaving out pairs keeps the canonical form. -/
theorem tabWf_filter (p : Nat × α → Bool) {l : List (Nat × α)} (h : tabWf dflt l = true) : tabWf dflt (l.filter p) = true := by
  simp only [tabWf, Bool.and_eq_true, List.all_eq_true] at h ⊢
  exact ⟨tabSorted_filter p l none h.1, fun x hx => h.2 x ((List.mem_filter.1 hx).1)⟩

/-- Setting a key keeps the canonical form. -/
theorem tabWf_set {l : List (Nat × α)} (k : Nat) (v : α) (h : tabWf dflt l = true) : tabWf dflt (tabSet dflt l k v) = true := by
  rw [tabSet]
  split
  · exact tabWf_filter _ h
  · rename_i hv
    have he : tabWf dflt (tabErase l k) = true := tabWf_filter _ h
    simp only [tabWf, Bool.and_eq_true, List.all_eq_true] at he ⊢
    refine ⟨tabSorted_insert k v _ none he.1 (fun _ hc => by cases hc) ?_, fun x hx => ?_⟩
    · intro x hx
      have := (List.mem_filter.1 hx).2
      simpa using this
    · rcases mem_tabInsert hx with h | h
      · subst h; simpa using hv
      · exact he.2 x h

theorem tabWf_nil : tabWf dflt ([] : List (Nat × α)) = true := rfl

end Canonical

/-! ### Bit fields -/

/-- A number put together of three parts: the low `lo` bits, `w` bits above them, and the rest. -/
theorem setBits_eq (n lo w v : Nat) :
    setBits n lo w v = n % 2 ^ lo + 2 ^ lo * (v % 2 ^ w + 2 ^ w * (n / 2 ^ (lo + w))) := by
  unfold setBits
  rw [Nat.mul_add, ← Nat.mul_assoc, ← Nat.pow_add, Nat.mul_comm (v % 2 ^ w), Nat.mul_comm (n / 2 ^ (lo + w)), Nat.add_assoc]

/-- A field reads what was put into it. -/
@[simp] theorem bits_setBits_same (n lo w v : Nat) : bits (setBits n lo w v) lo w = v % 2 ^ w := by
  have h1 : n % 2 ^ lo < 2 ^ lo := Nat.mod_lt _ (Nat.two_pow_pos _)
  rw [setBits_eq, bits, Nat.add_mul_div_left _ _ (Nat.two_pow_pos _), Nat.div_eq_of_lt h1, Nat.zero_add, Nat.add_mul_mod_self_left]
  exact Nat.mod_eq_of_lt (Nat.mod_lt _ (Nat.two_pow_pos _))

/-- The bits of a number below a field read as before. -/
theorem bits_setBits_below (n v : Nat) {lo w i x : Nat} (h : i + x ≤ lo) : bits (setBits n lo w v) i x = bits n i x := by
  have e : n % 2 ^ lo + 2 ^ lo * (v % 2 ^ w + 2 ^ w * (n / 2 ^ (lo + w))) =
      n % 2 ^ lo + 2 ^ i * (2 ^ (lo - i) * (v % 2 ^ w + 2 ^ w * (n / 2 ^ (lo + w)))) := by
    rw [← Nat.mul_assoc, ← Nat.pow_add, show i + (lo - i) = lo by omega]
  have d : 2 ^ (lo - i) = 2 ^ x * 2 ^ (lo - i - x) := by rw [← Nat.pow_add]; congr 1; omega
  rw [setBits_eq, e, bits, bits, Nat.add_mul_div_left _ _ (Nat.two_pow_pos _), d, Nat.mul_assoc, Nat.add_mul_mod_self_left]
  have f : n % 2 ^ lo / 2 ^ i = n / 2 ^ i % 2 ^ (lo - i) := by
    rw [← Nat.mod_mul_right_div_self, ← Nat.pow_add, show i + (lo - i) = lo by omega]
  rw [f, Nat.mod_mod_of_dvd]
  exact ⟨2 ^ (lo - i - x), d⟩

/-- The part of a number up to the end of a field lies below the rest. -/
theorem setBits_low_lt (n lo w v : Nat) : n % 2 ^ lo + v % 2 ^ w * 2 ^ lo < 2 ^ (lo + w) := by
  have h1 : n % 2 ^ lo < 2 ^ lo := Nat.mod_lt _ (Nat.two_pow_pos _)
  have h2 : v % 2 ^ w + 1 ≤ 2 ^ w := Nat.mod_lt _ (Nat.two_pow_pos _)
  calc n % 2 ^ lo + v % 2 ^ w * 2 ^ lo < 2 ^ lo + v % 2 ^ w * 2 ^ lo := Nat.add_lt_add_right h1 _
    _ = (v % 2 ^ w + 1) * 2 ^ lo := by rw [Nat.add_mul, Nat.one_mul, Nat.add_comm]
    _ ≤ 2 ^ w * 2 ^ lo := Nat.mul_le_mul_right _ h2
    _ = 2 ^ (lo + w) := by rw [Nat.pow_add, Nat.mul_comm]

/-- The bits above a field read as before. -/
theorem bits_setBits_above (n v : Nat) {lo w i x : Nat} (h : lo + w ≤ i) : bits (setBits n lo w v) i x = bits n i x := by
  have e : setBits n lo w v / 2 ^ (lo + w) = n / 2 ^ (lo + w) := by
    unfold setBits
    rw [Nat.mul_comm (n / 2 ^ (lo + w)), Nat.add_mul_div_left _ _ (Nat.two_pow_pos _), Nat.div_eq_of_lt (setBits_low_lt n lo w v),
      Nat.zero_add]
  have s : 2 ^ i = 2 ^ (lo + w) * 2 ^ (i - (lo + w)) := by rw [← Nat.pow_add]; congr 1; omega
  rw [bits, bits, s, ← Nat.div_div_eq_div_mul, e, Nat.div_div_eq_div_mul]

/-- A field that fits stays within the word. -/
theorem setBits_lt {n lo w v k : Nat} (h : n < 2 ^ k) (hk : lo + w ≤ k) : setBits n lo w v < 2 ^ k := by
  have a := setBits_low_lt n lo w v
  have e : 2 ^ k = 2 ^ (k - (lo + w)) * 2 ^ (lo + w) := by rw [← Nat.pow_add]; congr 1; omega
  have t : n / 2 ^ (lo + w) + 1 ≤ 2 ^ (k - (lo + w)) := by
    apply (Nat.div_lt_iff_lt_mul (Nat.two_pow_pos _)).2
    rw [← e]; exact h
  unfold setBits
  calc n % 2 ^ lo + v % 2 ^ w * 2 ^ lo + n / 2 ^ (lo + w) * 2 ^ (lo + w)
      < 2 ^ (lo + w) + n / 2 ^ (lo + w) * 2 ^ (lo + w) := Nat.add_lt_add_right a _
    _ = (n / 2 ^ (lo + w) + 1) * 2 ^ (lo + w) := by rw [Nat.add_mul, Nat.one_mul, Nat.add_comm]
    _ ≤ 2 ^ (k - (lo + w)) * 2 ^ (lo + w) := Nat.mul_le_mul_right _ t
    _ = 2 ^ k := e.symm

end Sys2Proof.Machine
end

