-- ==== Sys2Proof/Laws/Regs.lean ====
section
/-! SUPPORT. What a register or a field reads after a write. -/

namespace Sys2Proof.Machine

open Sys2Proof

/-! ### Words -/

@[simp] theorem Dev.rd_wr_same (d : Dev) (a : Nat) (v : Word) : (d.wr a v).rd a = v := tabGet_set_same _ _ _ _

theorem Dev.rd_wr_other (d : Dev) {a b : Nat} (v : Word) (h : b ≠ a) : (d.wr a v).rd b = d.rd b := tabGet_set_other _ _ _ h

/-! ### Fields -/

/-- A field that fits its register reads what was put. -/
theorem Dev.get_put_same (d : Dev) (p : Nat) (f : Fld) (v : Nat) (h : f.lo + f.width ≤ 32) :
    (d.put p f v).get p f = v % 2 ^ f.width := by
  have hl := setBits_lt (v := v) (d.rd (p + f.off)).isLt h
  rw [Dev.put, Dev.get, Dev.rd_wr_same, BitVec.toNat_ofNat, Nat.mod_eq_of_lt hl, bits_setBits_same]

/-- A field of another register reads as before. -/
theorem Dev.get_put_other (d : Dev) {p q : Nat} {f g : Fld} (v : Nat) (h : q + g.off ≠ p + f.off) :
    (d.put p f v).get q g = d.get q g := by
  rw [Dev.put, Dev.get, Dev.rd_wr_other _ _ h, ← Dev.get]

/-- Another field of the same register reads as before. -/
theorem Dev.get_put_disjoint (d : Dev) {p : Nat} {f g : Fld} (v : Nat) (ho : g.off = f.off) (hf : f.lo + f.width ≤ 32)
    (h : g.lo + g.width ≤ f.lo ∨ f.lo + f.width ≤ g.lo) : (d.put p f v).get p g = d.get p g := by
  have hl := setBits_lt (v := v) (d.rd (p + f.off)).isLt hf
  rw [Dev.put, Dev.get, ho, Dev.rd_wr_same, BitVec.toNat_ofNat, Nat.mod_eq_of_lt hl, Dev.get, ho]
  rcases h with h | h
  · exact bits_setBits_below _ _ h
  · exact bits_setBits_above _ _ h

/-- Two fields do not share a bit of a register. -/
def Fld.apart (p : Nat) (f : Fld) (q : Nat) (g : Fld) : Bool :=
  q + g.off != p + f.off || (p == q && f.lo + f.width ≤ 32 && (g.lo + g.width ≤ f.lo || f.lo + f.width ≤ g.lo))

/-- A field that shares no bit with the one put reads as before. -/
theorem Dev.get_put_apart (d : Dev) {p q : Nat} {f g : Fld} (v : Nat) (h : Fld.apart p f q g = true) :
    (d.put p f v).get q g = d.get q g := by
  simp only [Fld.apart, Bool.or_eq_true, Bool.and_eq_true, bne_iff_ne, ne_eq, beq_iff_eq, decide_eq_true_eq] at h
  by_cases e : q + g.off = p + f.off
  · rcases h with h | ⟨⟨hp, hf⟩, hd⟩
    · exact absurd e h
    · subst hp
      exact Dev.get_put_disjoint d v (Nat.add_left_cancel e) hf hd
  · exact Dev.get_put_other d v e

theorem Dev.flag_def (d : Dev) (p : Nat) (f : Fld) : d.flag p f = (d.get p f == 1) := rfl
theorem Dev.getI_def (d : Dev) (p : Nat) (f : Fld) : d.getI p f = sext f.width (d.get p f) := rfl
theorem Dev.setB_def (d : Dev) (p : Nat) (f : Fld) (b : Bool) : d.setB p f b = d.put p f (b2n b) := rfl
theorem Dev.putI_def (d : Dev) (p : Nat) (f : Fld) (i : Int) : d.putI p f i = d.put p f (ofInt f.width i) := rfl

/-- A one-bit field reads the flag that was set. -/
theorem Dev.flag_setB_same (d : Dev) (p : Nat) (f : Fld) (b : Bool) (hw : f.width = 1) (h : f.lo < 32) :
    (d.setB p f b).flag p f = b := by
  rw [Dev.setB_def, Dev.flag_def, Dev.get_put_same _ _ _ _ (by omega), hw]
  cases b <;> rfl

theorem Dev.get_setB_apart (d : Dev) {p q : Nat} {f g : Fld} (b : Bool) (h : Fld.apart p f q g = true) :
    (d.setB p f b).get q g = d.get q g := Dev.get_put_apart d _ h
theorem Dev.flag_put_apart (d : Dev) {p q : Nat} {f g : Fld} (v : Nat) (h : Fld.apart p f q g = true) :
    (d.put p f v).flag q g = d.flag q g := by rw [Dev.flag_def, Dev.flag_def, Dev.get_put_apart d v h]
theorem Dev.flag_setB_apart (d : Dev) {p q : Nat} {f g : Fld} (b : Bool) (h : Fld.apart p f q g = true) :
    (d.setB p f b).flag q g = d.flag q g := Dev.flag_put_apart d _ h

/-! ### Interrupts and records leave registers but PG_IRQ_RAW as they are -/

theorem Dev.irq_regs (d : Dev) (p : Nat) (f : Fld) : (d.irq p f).regs = (d.put p f 1).regs := rfl
theorem Dev.irq_get (d : Dev) (p : Nat) (f : Fld) (q : Nat) (g : Fld) : (d.irq p f).get q g = (d.put p f 1).get q g :=
  Dev.get_congr (Dev.irq_regs d p f) q g
theorem Dev.irq_rd (d : Dev) (p : Nat) (f : Fld) (a : Nat) : (d.irq p f).rd a = (d.put p f 1).rd a :=
  Dev.rd_congr (Dev.irq_regs d p f) a
theorem Dev.irq_get_apart (d : Dev) {p q : Nat} {f g : Fld} (h : Fld.apart p f q g = true) :
    (d.irq p f).get q g = d.get q g := (Dev.irq_get d p f q g).trans (Dev.get_put_apart d 1 h)
theorem Dev.irq_flag_apart (d : Dev) {p q : Nat} {f g : Fld} (h : Fld.apart p f q g = true) :
    (d.irq p f).flag q g = d.flag q g := by rw [Dev.flag_def, Dev.flag_def, Dev.irq_get_apart d h]

/-- The raw bit is set. -/
theorem Dev.irq_raised (d : Dev) (p : Nat) (f : Fld) (hw : f.width = 1) (h : f.lo < 32) : (d.irq p f).flag p f = true := by
  rw [Dev.flag_def, Dev.irq_get, Dev.get_put_same _ _ _ _ (by omega), hw]; rfl

end Sys2Proof.Machine
end

