-- ==== Sys2Proof/Laws/Memory.lean ====
section
/-! SUPPORT. Laws of the memories: reading back what was written, and that every operation on a register file or a memory keeps
its canonical form. -/

namespace Sys2Proof.Machine

open Sys2Proof

/-! ### Reading back -/

@[simp] theorem memGet_set_same (m : List Host.Cell) (a : Nat) (b : Byte) : memGet (memSet m a b) a = b :=
  tabGet_set_same _ _ _ _

theorem memGet_set_other (m : List Host.Cell) {a x : Nat} (b : Byte) (h : x ≠ a) : memGet (memSet m a b) x = memGet m x :=
  tabGet_set_other _ _ _ h

/-- A byte outside what is written reads as before. -/
theorem memGet_write_outside (l : List Byte) (m : List Host.Cell) {a x : Nat} (h : x < a ∨ a + l.length ≤ x) :
    memGet (memWrite m a l) x = memGet m x := by
  induction l generalizing m a with
  | nil => rfl
  | cons b l ih =>
    rw [List.length_cons] at h
    rw [memWrite, ih _ (by omega), memGet_set_other _ _ (by omega)]

/-- A byte that is written reads what was written there. -/
theorem memGet_write_inside (l : List Byte) (m : List Host.Cell) {a i : Nat} (h : i < l.length) :
    memGet (memWrite m a l) (a + i) = l[i] := by
  induction l generalizing m a i with
  | nil => cases h
  | cons b l ih =>
    cases i with
    | zero => rw [memWrite, memGet_write_outside _ _ (.inl (by omega))]; exact memGet_set_same m a b
    | succ i =>
      have := ih (memSet m a b) (a := a + 1) (Nat.lt_of_succ_lt_succ h)
      rw [memWrite, show a + (i + 1) = a + 1 + i by omega, this]; rfl

@[simp] theorem memRead_length (m : List Host.Cell) (a n : Nat) : (memRead m a n).length = n := by
  induction n generalizing a with
  | zero => rfl
  | succ n ih => rw [memRead, List.length_cons, ih]

/-- Two memories that agree on a range of bytes read the same there. -/
theorem memRead_congr {m k : List Host.Cell} {a n : Nat} (h : ∀ x, a ≤ x → x < a + n → memGet m x = memGet k x) :
    memRead m a n = memRead k a n := by
  induction n generalizing a with
  | zero => rfl
  | succ n ih => rw [memRead, memRead, h a (Nat.le_refl a) (by omega), ih fun x hx hy => h x (by omega) (by omega)]

/-- A read of what was just written gives it back. -/
theorem memRead_write_same (l : List Byte) (m : List Host.Cell) (a : Nat) : memRead (memWrite m a l) a l.length = l := by
  induction l generalizing m a with
  | nil => rfl
  | cons b l ih =>
    rw [memWrite, List.length_cons, memRead, ih, memGet_write_outside _ _ (.inl (by omega)), memGet_set_same]

/-- A read beside what was written reads as before. -/
theorem memRead_write_outside (l : List Byte) (m : List Host.Cell) {a x n : Nat} (h : x + n ≤ a ∨ a + l.length ≤ x) :
    memRead (memWrite m a l) x n = memRead m x n :=
  memRead_congr fun y _ _ => memGet_write_outside l m (by omega)

/-! ### The canonical form of a memory -/

theorem Memory.wf_nil : Memory.wf [] = true := rfl

theorem Memory.wf_set {m : List Host.Cell} (a : Nat) (b : Byte) (h : Memory.wf m = true) : Memory.wf (memSet m a b) = true :=
  tabWf_set a b h

theorem Memory.wf_write (l : List Byte) {m : List Host.Cell} (a : Nat) (h : Memory.wf m = true) :
    Memory.wf (memWrite m a l) = true := by
  induction l generalizing m a with
  | nil => exact h
  | cons b l ih => exact ih (a + 1) (Memory.wf_set a b h)

theorem Memory.wf_filter (p : Host.Cell → Bool) {m : List Host.Cell} (h : Memory.wf m = true) : Memory.wf (m.filter p) = true :=
  tabWf_filter p h

/-! ### Two more operations on tables -/

section Tables
variable {α : Type}

/-- Two rising lists with a bound between them are one rising list. -/
theorem tabSorted_append {l k : List (Nat × α)} {n : Nat} {o : Option Nat} (hl : tabSorted o l = true)
    (ho : ∀ c, o = some c → c < n) (hn : ∀ x ∈ l, x.1 < n) (hk : tabSorted none k = true) (hm : ∀ x ∈ k, n ≤ x.1) :
    tabSorted o (l ++ k) = true := by
  induction l generalizing o with
  | nil =>
    cases k with
    | nil => cases o <;> rfl
    | cons x k =>
      cases o with
      | none => exact hk
      | some c =>
        have h1 := ho c rfl
        have h2 := hm x List.mem_cons_self
        simp only [List.nil_append, tabSorted, Bool.and_eq_true, decide_eq_true_eq]
        exact ⟨by omega, tabSorted_tail hk⟩
  | cons x l ih =>
    have := ih (tabSorted_tail hl) (fun c hc => by cases hc; exact hn x List.mem_cons_self) fun y hy => hn y (List.mem_cons_of_mem _ hy)
    cases o with
    | none => exact this
    | some c =>
      simp only [tabSorted, Bool.and_eq_true, decide_eq_true_eq] at hl
      simp only [List.cons_append, tabSorted, Bool.and_eq_true, decide_eq_true_eq]
      exact ⟨hl.1, this⟩

variable [DecidableEq α] {dflt : Nat → α}

/-- Taking a range of keys from another table keeps the canonical form (R37). -/
theorem tabWf_takeRange {v l : List (Nat × α)} {lo hi : Nat} (hlh : lo ≤ hi) (hv : tabWf dflt v = true)
    (hl : tabWf dflt l = true) : tabWf dflt (takeRange lo hi v l) = true := by
  simp only [tabWf, Bool.and_eq_true, List.all_eq_true] at hv hl ⊢
  refine ⟨?_, fun x hx => ?_⟩
  · refine tabSorted_append (n := hi) ?_ (fun _ h => by cases h) ?_ (tabSorted_filter _ l none hl.1) ?_
    · refine tabSorted_append (n := lo) (tabSorted_filter _ l none hl.1) (fun _ h => by cases h) ?_
        (tabSorted_filter _ v none hv.1) ?_
      · intro x hx; simpa using (List.mem_filter.1 hx).2
      · intro x hx
        have := (List.mem_filter.1 hx).2
        simp only [Bool.and_eq_true, decide_eq_true_eq] at this
        exact this.1
    · intro x hx
      rcases List.mem_append.1 hx with h | h
      · have := (List.mem_filter.1 h).2
        simp only [decide_eq_true_eq] at this
        omega
      · have := (List.mem_filter.1 h).2
        simp only [Bool.and_eq_true, decide_eq_true_eq] at this
        exact this.2
    · intro x hx; simpa using (List.mem_filter.1 hx).2
  · simp only [takeRange, List.mem_append, List.mem_filter] at hx
    rcases hx with (h | h) | h
    · exact hl.2 x h.1
    · exact hv.2 x h.1
    · exact hl.2 x h.1

omit [DecidableEq α] in
/-- Changing values, and leaving out what has come to its default, keeps the canonical form. -/
theorem tabSorted_filterMap (f : Nat × α → Option (Nat × α)) (hf : ∀ x y, f x = some y → y.1 = x.1) (l : List (Nat × α))
    (o : Option Nat) (h : tabSorted o l = true) : tabSorted o (l.filterMap f) = true := by
  induction l generalizing o with
  | nil => simpa using h
  | cons x l ih =>
    have ht := tabSorted_tail h
    cases hx : f x with
    | none =>
      rw [List.filterMap_cons_none hx]
      apply ih
      exact tabSorted_mono ht o fun c hc => by
        subst hc; simp only [tabSorted, Bool.and_eq_true, decide_eq_true_eq] at h; omega
    | some y =>
      rw [List.filterMap_cons_some hx]
      have hy := hf x y hx
      have := ih (some x.1) ht
      cases o with
      | none => simpa [tabSorted, hy] using this
      | some c =>
        simp only [tabSorted, Bool.and_eq_true, decide_eq_true_eq] at h ⊢
        exact ⟨by omega, by simpa [hy] using this⟩

end Tables

theorem none_or_some {a : Nat} {w r : Word} {y : Nat × Word} (h : (if w = r then none else some (a, w)) = some y) :
    y.1 = a ∧ y.2 ≠ r := by
  split at h
  · cases h
  · rename_i hne; cases h; exact ⟨rfl, hne⟩

/-- A reset of registers keeps the canonical form (R24). -/
theorem tabWf_regsReset (on : Nat → Bool) (m : ResetMask) {l : List (Nat × Word)} (h : tabWf resetOf l = true) :
    tabWf resetOf (regsReset on m l) = true := by
  simp only [tabWf, Bool.and_eq_true, List.all_eq_true] at h ⊢
  refine ⟨tabSorted_filterMap _ (fun x y hy => (none_or_some hy).1) l none h.1, fun y hy => ?_⟩
  obtain ⟨x, -, hx⟩ := List.mem_filterMap.1 hy
  have := none_or_some hx
  rw [← this.1] at this
  exact decide_eq_true this.2

/-! ### The stores of the device -/

/-- The canonical form depends on the four stores alone. -/
theorem Dev.storesWf_congr {d e : Dev} (hr : d.regs = e.regs) (hm : d.mem = e.mem) (hh : d.host = e.host) (ha : d.aon = e.aon) :
    d.storesWf = e.storesWf := by
  rw [Dev.storesWf, Dev.storesWf, hr, hm, hh, ha]

theorem Dev.storesWf_iff (d : Dev) : d.storesWf = true ↔
    tabWf resetOf d.regs = true ∧ Memory.wf d.mem = true ∧ Memory.wf d.host = true ∧ Memory.wf d.aon = true := by
  simp only [Dev.storesWf, Bool.and_eq_true, and_assoc]

/-- The bytes of lane `n`'s descriptor with contents `x` (R77, R251). -/
def Dev.laneBytes (d : Dev) (n : Nat) (x : LaneDesc) : List Byte :=
  laneRecord n (d.laneHolds n).length x x.state.code x.length x.settled (x.poly * 2 + b2n x.sha)

theorem Dev.setLane_mem (d : Dev) (n : Nat) (x : LaneDesc) : (d.setLane n x).mem =
    match d.laneAt n with
    | some a => memWrite d.mem a (d.laneBytes n x)
    | none => d.mem := by
  cases h : d.laneAt n <;> simp only [Dev.setLane, Dev.laneBytes, h]

theorem leBytes_length (k n : Nat) : (leBytes k n).length = k := by
  induction k generalizing n with
  | zero => rfl
  | succ k ih => rw [leBytes, List.length_cons, ih]

/-- A lane's record has 64 bytes (R77). -/
theorem laneRecord_length (n h : Nat) (x : LaneDesc) (a b c e : Nat) : (laneRecord n h x a b c e).length = 64 := by
  simp only [laneRecord, List.length_append, leBytes_length]

section Kept
variable {d : Dev} (h : d.storesWf = true)
include h

theorem Dev.storesWf_wr (a : Nat) (v : Word) : (d.wr a v).storesWf = true := by
  obtain ⟨hr, hm, hh, ha⟩ := d.storesWf_iff.1 h
  exact (Dev.storesWf_iff _).2 ⟨tabWf_set a v hr, hm, hh, ha⟩

theorem Dev.storesWf_put (p : Nat) (f : Fld) (v : Nat) : (d.put p f v).storesWf = true := Dev.storesWf_wr h _ _
theorem Dev.storesWf_setB (p : Nat) (f : Fld) (b : Bool) : (d.setB p f b).storesWf = true := Dev.storesWf_put h _ _ _
theorem Dev.storesWf_putI (p : Nat) (f : Fld) (i : Int) : (d.putI p f i).storesWf = true := Dev.storesWf_put h _ _ _
theorem Dev.storesWf_put64 (p : Nat) (lo hi : Fld) (v : Nat) : (d.put64 p lo hi v).storesWf = true :=
  Dev.storesWf_put (Dev.storesWf_put h _ _ _) _ _ _
theorem Dev.storesWf_inc (p : Nat) (f : Fld) : (d.inc p f).storesWf = true := Dev.storesWf_put h _ _ _
theorem Dev.storesWf_incBy (p : Nat) (f : Fld) (n : Nat) : (d.incBy p f n).storesWf = true := Dev.storesWf_put h _ _ _
theorem Dev.storesWf_irq (p : Nat) (f : Fld) : (d.irq p f).storesWf = true :=
  (Dev.storesWf_congr (Dev.irq_regs d p f) rfl rfl rfl).trans (Dev.storesWf_put h p f 1)

theorem Dev.storesWf_memW (a : Nat) (l : List Byte) : (d.memW a l).storesWf = true := by
  obtain ⟨hr, hm, hh, ha⟩ := d.storesWf_iff.1 h
  exact (Dev.storesWf_iff _).2 ⟨hr, Memory.wf_write l a hm, hh, ha⟩

theorem Dev.storesWf_hostW (a : Nat) (l : List Byte) : (d.hostW a l).storesWf = true := by
  obtain ⟨hr, hm, hh, ha⟩ := d.storesWf_iff.1 h
  exact (Dev.storesWf_iff _).2 ⟨hr, hm, Memory.wf_write l a hh, ha⟩

theorem Dev.storesWf_aonW (a : Nat) (l : List Byte) : Dev.storesWf { d with aon := memWrite d.aon a l } = true := by
  obtain ⟨hr, hm, hh, ha⟩ := d.storesWf_iff.1 h
  exact (Dev.storesWf_iff _).2 ⟨hr, hm, hh, Memory.wf_write l a ha⟩

theorem Dev.storesWf_memClear (a n : Nat) : (d.memClear a n).storesWf = true := by
  obtain ⟨hr, hm, hh, ha⟩ := d.storesWf_iff.1 h
  exact (Dev.storesWf_iff _).2 ⟨hr, Memory.wf_filter _ hm, hh, ha⟩

theorem Dev.storesWf_regsReset (on : Nat → Bool) (m : ResetMask) :
    Dev.storesWf { d with regs := regsReset on m d.regs } = true := by
  obtain ⟨hr, hm, hh, ha⟩ := d.storesWf_iff.1 h
  exact (Dev.storesWf_iff _).2 ⟨tabWf_regsReset on m hr, hm, hh, ha⟩

/-- A lane's descriptor goes to the ledger's table and, once its region is placed, to memory (R251). -/
theorem Dev.storesWf_setLane (n : Nat) (x : LaneDesc) : (d.setLane n x).storesWf = true := by
  obtain ⟨hr, hm, hh, ha⟩ := d.storesWf_iff.1 h
  rw [Dev.storesWf_iff, Dev.setLane_regs, Dev.setLane_host, Dev.setLane_aon, Dev.setLane_mem]
  refine ⟨hr, ?_, hh, ha⟩
  split
  · exact Memory.wf_write _ _ hm
  · exact hm

/-- An operation that keeps the form, run over a list, keeps it. -/
theorem Dev.storesWf_foldl {α : Type} (f : Dev → α → Dev) (hf : ∀ e x, e.storesWf = true → (f e x).storesWf = true)
    (l : List α) : (l.foldl f d).storesWf = true := by
  induction l generalizing d with
  | nil => exact h
  | cons x l ih => exact ih (hf d x h)

end Kept

/-- A memory frame: where `setLane` writes is the descriptor's place, and every byte beside it reads as before. -/
theorem Dev.setLane_memGet (d : Dev) (n : Nat) (x : LaneDesc) {a : Nat}
    (h : ∀ b, d.laneAt n = some b → a < b ∨ b + 64 ≤ a) : memGet (d.setLane n x).mem a = memGet d.mem a := by
  rw [Dev.setLane_mem]
  split
  · rename_i b hb
    refine memGet_write_outside _ _ ?_
    rw [Dev.laneBytes, laneRecord_length]
    exact h b hb
  · rfl

end Sys2Proof.Machine
end

