-- ==== Sys2Proof/WellFormed.lean ====
section
/-! DEFINITION. Which commands are well formed: addresses name a register or a page, and lists hold no more than the block has of
the thing. Widths and numbers of units that a type gives are not said again. Every meaning is total; what it does with a command
that is not well formed says nothing about the hardware. -/

namespace Sys2Proof

/-- Does an address name a page: 4 KiB aligned (R538)? -/
def pageAligned (a : Word) : Bool := a.toNat % 0x1000 == 0

/-- Does an address name a register: 4 bytes aligned (R539)? -/
def wordAligned (a : Word) : Bool := a.toNat % 4 == 0

/-- Four ports of ten inputs in four sets, six motor channels, eight encoders, four sleds, five read channels, 68 targets. -/
def GrainIn.wf (i : GrainIn) : Bool :=
  i.ports.length ≤ 4 && i.motors.length ≤ 6 && i.enc.length ≤ 8 && i.loads.length ≤ 4 && i.gains.length ≤ 5
    && decide (i.rbLow < 2 ^ 68) && i.ports.all fun p => p.pd.length ≤ 4 && p.pd.all fun l => l.length ≤ 10

/-- A command is well formed. -/
def Instr.wf : Instr → Bool
  | .grainEdge i => i.wf
  | .stoneEdge i z => i.wf && z.ages.length ≤ 13
  | .grainOverrun page _ => pageAligned page
  | .registerWrite _ addr _ => wordAligned addr
  | .poweredDownAccess _ addr _ => wordAligned addr
  | .pgSoftReset page _ _ _ => pageAligned page
  | .pgCtlDeniedWrite page _ _ => pageAligned page
  | .pgIrqClrWrite page _ => pageAligned page
  | .pgErrInfoClear page => pageAligned page
  | .bayIdentify _ ts _ => decide (ts.length ≤ 16)
  | .fuseLoad w => w.bootKey.length == 8 && w.pubKey.length == 16
  | .canFrameReceive _ f _ _ _ _ => decide (f.data.length ≤ 64)
  | .bar2Write o _ => o.toNat % 4 == 0
  | _ => true

end Sys2Proof
end

