-- ==== Sys2Proof/Tests/Slice0.lean ====
section
/-! SUPPORT. Tests: the WellFormed smoke, witnesses that the hypotheses of the statements can be met, and a few runs of one step
against the spec's own examples. -/

namespace Sys2Proof.Tests

set_option Elab.async false

open Sys2Proof Sys2Proof.Machine

/-! ### Small states -/

/-- A device with the given fields set. -/
def dev (l : List (Nat × Fld × Nat)) : Dev := l.foldl (fun d x => d.put x.1 x.2.1 x.2.2) {}

/-- A state with the given fields set and the rest as `f` makes it. -/
def mk (l : List (Nat × Fld × Nat)) (f : Dev → Dev := id) : State :=
  { cur := f (dev l), vis := f (dev l), grain := { cur := f (dev l), vis := f (dev l) } }

/-- Both copies of the device, and those its Grain began with, are `d`. -/
def stOf (d : Dev) : State := { cur := d, vis := d, grain := { cur := d, vis := d } }

/-- The state after reset. -/
def s0 : State := State.reset

/-- DCLK runs. -/
def run (d : Dev) : Dev := { d with su := { d.su with step := 7 } }
def sRun : State := mk [] run
def sStone : State := mk [] fun d => { run d with tb := { d.tb with gtime := 255 } }
def sNoVaon : State := mk [] fun d => { d with tb := { d.tb with vaon := false } }

/-! Ledger -/
def accRegs : List (Nat × Fld × Nat) :=
  [(pgLdg, LDG_CTL_ACCEPT_EN, 1), (pgTw 0, TW_CQ_CFG_ARMED, 1), (pgBay 0, BAY_STAT_STATE, 5), (pgRsv, RSV_AVAIL, 10000000),
   (pgRsv, RSV_STAT, 0)]
def withLdg (f : Ledger → Ledger) (d : Dev) : Dev := { d with ldg := f d.ldg }
def ctx1 : Ctx := { state := .open, lane := 7, length := 100 }
def laneOpen (l : Ledger) : Ledger := { l with ctxs := [(1, ctx1)], lanes := [(7, { state := .open, length := 100 })] }
def sAcc : State := mk accRegs (withLdg laneOpen)
def sPend : State := mk [(pgTw 0, TW_RESULT_STATE, 1)]
def sHost : State := mk [(pgPcie, PCIE_STAT_DL_UP, 1), (pgPcie, PCIE_STAT_PERST, 0), (pgLdg, LDG_OWNER_LO, 2), (pgTw 0, TW_CQ_CFG_ARMED, 1), (pgTw 1, TW_CQ_CFG_ARMED, 1)]
def placedRegs : List (Nat × Fld × Nat) :=
  [(pgMap, MAP_DESC_BASE_LO, 0x80000000), (pgMap, MAP_POOL_BASE_LO, 0x90000000), (pgMap, MAP_POOL_PAGES, 64),
   (pgChk, CHK_SHA_BASE_LO, 0xA0000000), (pgChk, CHK_TRAIL_BASE_LO, 0xB0000000)]

def tk (o : Opc) : TaskSt := { window := 0, lsn := 3, opc := o, lane := 7, ctx := 1 }
def withTask (t : TaskSt) (st : LaneState) (hs : List Hold := []) : State :=
  mk [] (withLdg fun l => { l with
    journal := [⟨0, 3, 8, t.opc, 7, none, false, false, false⟩]
    tasks := [t]
    nextLsn := 4
    ctxs := [(1, ctx1)]
    lanes := if st = .free then [] else [(7, { state := st, length := 100 })]
    holds := hs })
def tkOpenLane : TaskSt := tk .openLane
def sTaskOpenLane : State := withTask tkOpenLane .free
def tkOpenLaneUsed : TaskSt := tk .openLane
def sTaskOpenLaneUsed : State := withTask tkOpenLaneUsed .open
def tkAppend : TaskSt := tk .append
def sTaskAppend : State := withTask tkAppend .open
def tkAppendFetch : TaskSt := { tk .append with fetching := true, length := 64 }
def sTaskAppendFetch : State := withTask tkAppendFetch .open
/-- The reads of LSN 3 have ended; lane 7 holds 100 bytes, of which `bad` are lost. -/
def withReads (t : TaskSt) (bad : List (Nat × Nat) := []) (st : LaneState := .open) : State :=
  let e : SettledEntry := { lane := 7, lsn := 2, offset := 0, bytes := List.replicate 100 5, voidBytes := 0, bay := none, bad := bad }
  let d := withLdg (fun l => { l with store := [e] }) (withTask t st).cur
  stOf { d with fls := { d.fls with issued := [3] } }
def tkRead : TaskSt := { tk .read with addr := 4096, length := 8, lenAt := 100 }
def sTaskRead : State := withReads tkRead
def tkReadRange : TaskSt := { tkRead with arg0 := 95 }
def sTaskReadRange : State := withReads tkReadRange
def tkReadLost : TaskSt := tkRead
def sTaskReadLost : State := withReads tkReadLost [(3, 1)]
def tkReadStopped : TaskSt := { tkRead with destStopped := true, got := 2 }
def sTaskReadStopped : State := withReads tkReadStopped
def tkReadGone : TaskSt := { tk .read with addr := 4096, length := 8 }
def sTaskReadGone : State := withReads tkReadGone [] .free
def tkSeal : TaskSt := { tk .seal with signed := true, settled := true }
def sTaskSeal : State := withTask tkSeal .sealing
def tkMark : TaskSt := tk .mark
def sTaskMark : State := withTask tkMark .open
def tkMarkGone : TaskSt := tk .mark
def sTaskMarkGone : State := withTask tkMarkGone .free
def hold2 : Hold := ⟨2, 7, 0, 0, 0, 0⟩
def hold2F : Hold := ⟨2, 7, 0, 0, 0, 1⟩
def tkRelease : TaskSt := { tk .release with arg0 := 2 }
def sTaskRelease : State := withTask tkRelease .open [hold2]
def tkReleaseNone : TaskSt := { tk .release with arg0 := 2 }
def sTaskReleaseNone : State := withTask tkReleaseNone .open
def tkReleaseHost : TaskSt := { tk .release with arg0 := 2 }
def sTaskReleaseHost : State := stOf ((withTask tkReleaseHost .open [hold2F]).cur.put pgLdg LDG_OWNER_LO 1)
def tkReleaseReclaim : TaskSt := { tk .release with flags := 4 }
def sTaskReleaseReclaim : State := withTask tkReleaseReclaim .archived
def tkReleaseRetained : TaskSt := { tk .release with flags := 4 }
def sTaskReleaseRetained : State := withTask tkReleaseRetained .archived [hold2]
def tkQuery : TaskSt := { tk .query with addr := 4096, length := 64, lenAt := 100 }
def sTaskQuery : State := withTask tkQuery .open [hold2]
def tkQueryFree : TaskSt := tkQuery
def sTaskQueryFree : State := withTask tkQueryFree .free
def tkQueryFault : TaskSt := tkQuery
def sTaskQueryFault : State := withTask tkQueryFault .open
def sPost : State :=
  mk [(pgTw 0, TW_CQ_CFG_ARMED, 1), (pgTw 0, TW_CQ_BASE_LO, 0x1000)]
    (withLdg fun l => { l with journal := [⟨0, 3, 8, .mark, 7, some (.ok, 3), false, false, false⟩], nextLsn := 4 })
def sLapse : State :=
  mk [(pgLdg, LDG_STAT_RESTORED, 1)] fun d => { withLdg (fun l => { l with holds := [⟨9, 7, 0, 0, 5, 0⟩] }) d with tb := { d.tb with gtime := 6 } }
def cmt1 : Commit :=
  { bay := 0, seq := 3, area := 0, gtime := 9, items := [], bytes := [], seals := [], records := []
    journal := [⟨0, 3, 8, .mark, 7, some (.ok, 3), false, false, false⟩]
    tasks := [], ctxs := [], nextLsn := 4, limit := 1048576, consts := [], cNf := 0, esr := 0, faults := [], faultHead := 0
    closed := true }
def sRestore (on : Bool) : State :=
  mk (placedRegs ++ [(pgBay 0, BAY_STAT_STATE, 5)]) fun d =>
    { d with rsv := { d.rsv with commits := [cmt1] } }.updBay 0 fun x => { x with recovering := on }

/-! Reserve -/
def sMeas (valid c : Nat) : State :=
  mk [(pgBank, BANK_STAT_MEAS_BUSY, 1), (pgRsv, RSV_STAT_VALID, valid), (pgBank, BANK_C, c), (pgBank, BANK_ESR_ESR_MOHM, 90)] fun d =>
    { d with tb := { d.tb with gtime := 90000 } }
def sMeasCand : State := stOf { (sMeas 1 900000).cur with rsv := { candC := some 920000 } }
def cmtOpen : Commit := { cmt1 with closed := false }
def sCommit : State :=
  mk [(pgLdg, LDG_STAT_RESTORED, 1)] fun d =>
    { d with rsv := { d.rsv with committing := true, copying := true, commitSeq := 3, commits := [cmtOpen] } }

/-! Staging -/
def pk3 : Packet := { lsn := 3, lane := 7, ctx := 1, promised := 2 }
def tkFetch : TaskSt := { tk .append with fetching := true, length := 100, addr := 4096 }
def sPacket (opened : Bool) : State :=
  mk [] fun _ => ((withTask tkFetch .open).cur.updFifo 0 fun f => { f with packets := [{ pk3 with opened := opened }] })
def pkSha : Packet :=
  { lsn := 3, lane := 7, ctx := 1, promised := 0, words := 2, bytes := List.replicate 100 1, opened := true, closed := true }
def sSha : State :=
  let c : Ctx := { ctx1 with sha := true }
  let d := (dev [(pgChk, CHK_SHA_BASE_LO, 0x10000)]).updFifo 0 fun f => { f with w := 2, packets := [pkSha] }
  let e := withLdg (fun l => { l with ctxs := [(1, c)] }) d
  stOf e
def sShaLast : State := stOf (sSha.cur.updFifo 0 fun f => { f with h := 1 })
def tkSealQ : TaskSt := tk .seal
def sSeal (key : Nat) : State :=
  let s := withTask tkSealQ .sealing
  let d := s.cur.put pgChk CHK_SEAL_STAT_KEY_OK key
  stOf d
def signOf (t : TaskSt) : State :=
  let s := withTask t .sealing
  stOf { s.cur with stg := { s.cur.stg with signing := some (3, 9) } }
def sSigning : State := signOf tkSealQ
def tkSealC : TaskSt := { tkSealQ with length := 64 }
def sSigningC : State := signOf tkSealC
def tkSealS : TaskSt := { tkSealQ with destStopped := true }
def sSigningS : State := signOf tkSealS

/-! Flash channels and bays -/
def opR : FlashOp := { id := 1, kind := .read, slot := 0, pfa := 0, cls := 3, stage := .onBus, pc := 100 }
def opP : FlashOp := { opR with planes := [4294967296] }
def opProg : FlashOp := { opR with kind := .program, slot := 3, page := some (0, 1, 2, 3) }
def opMan : FlashOp := { opR with kind := .manual }
def opSus : FlashOp := { opR with id := 2, kind := .suspend, target := 1 }
def opPre : FlashOp := { opR with pre := true, rt := 3 }
def opRes : FlashOp := { opR with id := 2, kind := .resume, target := 1 }
def opRst : FlashOp := { opR with kind := .reset }
def opBuf : FlashOp := { opR with buf := 64, len := 8 }
def opQ : FlashOp := { opR with stage := .queued, pc := 0 }
def opY : FlashOp := { opR with stage := .yielded }
def opT : FlashOp := { opR with stage := .yielded, started := 5 }
def opE : FlashOp := { opR with kind := .erase, slot := 6, stage := .yielded, started := 5 }
def opSd : FlashOp := { opE with stage := .suspended }
def opSusY : FlashOp := { opSus with slot := 17, stage := .yielded, started := 9 }
/-- Channel 0 with operation `o` on its bus, at a recipe word `w`. -/
def fch (o : FlashOp) (w : Nat) : State :=
  mk [(pgBay 0, BAY_GEOM1_ROW_CYCLES, 3), (pgBay 0, BAY_GEOM1_COL_CYCLES_M1, 1), (pgBay 0, BAY_GEOM0_PAGE_CW, 4), (pgFch 0, SEQ_LEN_BYTES, 8)]
    fun d => (d.updChan 0 fun c => { c with ops := [o], current := some o.id, nextId := 5 }).setRecipe 0 100 (BitVec.ofNat 32 w)
/-- A page of a manifest codeword. -/
def pageP : ElemPage := { element := 1, die := 1, rows := [5], cws := [{ kind := 6, valid := 64, data := [7] }] }
def opDin : FlashOp := { opProg with page := some (0, 4, 2, 1) }
def fchDin : State :=
  let d := (fch opDin 0x30000004).cur.updMap 0 fun m => { m with stripes := [{ id := 4, bale := false, rows := [{ row := 2, since := 0, pages := [pageP] }] }] }
  stOf d
/-- Operations `o`, planned, and `u` on channel 0. -/
def fchQs (o u : FlashOp) : State :=
  mk [(pgBay 0, BAY_GEOM1_BLOCKS_PER_LUN, 9), (pgBay 0, BAY_GEOM0_PAGES_PER_BLOCK, 9), (pgBay 0, BAY_GEOM0_PAGE_CW, 4),
      (pgFch 0, FCH_TGT_LUN_EN, 1)] fun d =>
    { (d.updChan 0 fun c => { c with ops := [o, u], plan := [(o.id, false)], nextId := 5 }) with tb := { d.tb with gtime := 100 } }
def sManual (k st : Nat) : State := mk [(pgBay 0, BAY_STAT_STATE, st)] fun d => d.setB (pgFch k) PG_CTL_ENABLE true
def sManTo : State :=
  mk [(pgBay 0, BAY_STAT_STATE, 9)] fun d =>
    let d := (d.updChan 16 fun c => { c with ops := [opMan] }).updBay 0 fun x => { x with pwren := true, manualPower := some { since := 3 } }
    { d with tb := { d.tb with gtime := 40000 } }
def geom0 : List (Nat × Fld × Nat) :=
  [(pgBay 0, BAY_GEOM1_BLOCKS_PER_LUN, 9), (pgBay 0, BAY_GEOM0_PAGES_PER_BLOCK, 9), (pgBay 0, BAY_GEOM0_PAGE_CW, 4),
   (pgFch 0, FCH_TGT_LUN_EN, 1)]
def fchQ (o : FlashOp) (poll : Bool) (l : List (Nat × Fld × Nat)) : State :=
  mk l fun d => (d.updChan 0 fun c => { c with ops := [o], plan := [(o.id, poll)], nextId := 5 }).setRecipe 0 8 64
def fchT (o : FlashOp) : State :=
  mk [(pgFch 0, FCH_ATO1_TR_G, 150)] fun d =>
    { (d.updChan 0 fun c => { c with ops := [o], nextId := 5 }) with tb := { d.tb with gtime := 1000 } }
def fchS (o : FlashOp) : State :=
  mk [(pgFch 0, FCH_SUSP_MAX_SUSP, 4), (pgFch 0, FCH_SUSP_SUSP_WAIT_G, 4)] fun d =>
    let d := ((d.setRecipe 0 17 100).setRecipe 0 18 101)
    { (d.updChan 0 fun c => { c with ops := [o, { opQ with id := 3 }], nextId := 5 }) with tb := { d.tb with gtime := 1000 } }
def fchSus : State :=
  mk [(pgFch 0, FCH_ATO1_TSUSP_G, 125)] fun d =>
    { ((d.setRecipe 0 8 64).updChan 0 fun c => { c with ops := [opE, opSusY], nextId := 5 }) with tb := { d.tb with gtime := 1000 } }
def fchR (o : FlashOp) : State := mk [] fun d => d.updChan 0 fun c => { c with ops := [o], nextId := 5 }
def fchIso : State :=
  mk [] fun d => { (d.updChan 0 fun c => { c with isolated := true, failedAt := some 1 }) with tb := { d.tb with gtime := 30 } }
def bayTime (g : Nat) (f : BayState → BayState) (d : Dev) : Dev := { d.updBay 1 f with tb := { d.tb with gtime := g } }
def sIns : State :=
  mk [(pgBay 1, BAY_STAT_STATE, 1), (pgBay 1, BAY_CTL_ARM, 1)] (bayTime 20000 fun x => { x with presLow := true, presSince := 3 })
def sInsOff : State :=
  mk [(pgBay 1, BAY_STAT_STATE, 1), (pgBay 1, BAY_CTL_ARM, 0)] (bayTime 20000 fun x => { x with presLow := true, presSince := 3 })
def sSettle : State := mk [(pgBay 1, BAY_STAT_STATE, 2)] (bayTime 20000 fun x => { x with goodAt := some 0 })
def sPgTo : State := mk [(pgBay 1, BAY_STAT_STATE, 2)] (bayTime 40000 fun x => { x with since := 3 })
def sReady (blank : Bool) : State :=
  mk [(pgBay 1, BAY_STAT_STATE, 4), (pgFstr 1, FSTR_STAT_BLANK, b2n blank), (pgFstr 1, FSTR_STAT_MAP_OK, 1)] fun d =>
    ((((d.setRecipe 1 20 100).setRecipe 1 21 101).setRecipe 1 22 102)).updMap 1 fun m =>
      { m with areas := Vector.replicate 2 { ready := true } }
def sGone (st : Nat) : State :=
  mk [(pgBay 1, BAY_STAT_STATE, st), (pgBay 0, BAY_STAT_STATE, 5)] (bayTime 20 fun x => { x with absentSince := some 0 })
def sGoneEarly : State := mk [] (bayTime 20 fun x => { x with absentSince := some 20 })
def cmtB : Commit := { cmt1 with bay := 1, closed := false }
def sGoneCommit : State :=
  let s := sGone 5
  let d := { s.cur with rsv := { s.cur.rsv with committing := true, copying := true, commitSeq := 3, commits := [cmtB, { cmtB with bay := 0 }] } }
  stOf d
def geo : Geom := ⟨1152, 2, 16384, 2048, 2, 2000, 11, 11, 3, 2, 75, 1250, 3750⟩
def ppBytes : List Byte := List.replicate 254 0 ++ [0xEE, 0x3E]
def pp : ParamCopy := ⟨true, ppBytes, geo⟩
def tgt : Target := ⟨0, 0, some 1, 0x2C, 0x55, [0x4F, 0x4E, 0x46, 0x49], [pp]⟩

def stepB (c : Nat) (b : Byte) : Nat := crc16Bits 8 (c ^^^ b.toNat * 256)
theorem fo1 : (List.replicate 64 (0:Byte)).foldl stepB 0x4F4E = 62111 := by decide +kernel
theorem fo2 : (List.replicate 64 (0:Byte)).foldl stepB 62111 = 22362 := by decide +kernel
theorem fo3 : (List.replicate 64 (0:Byte)).foldl stepB 22362 = 34463 := by decide +kernel
theorem fo4 : (List.replicate 62 (0:Byte)).foldl stepB 34463 = 16110 := by decide +kernel
theorem crc_pp : crc16 (List.replicate 254 0) = 16110 := by
  have h : List.replicate 254 (0:Byte) = ((List.replicate 64 0 ++ List.replicate 64 0) ++ List.replicate 64 0) ++ List.replicate 62 0 := by decide +kernel
  show (List.replicate 254 (0:Byte)).foldl stepB 0x4F4E = 16110
  rw [h, List.foldl_append, List.foldl_append, List.foldl_append, fo1, fo2, fo3, fo4]
theorem good_pp : goodCopy pp = true := by
  have h1 : ppBytes.take 254 = List.replicate 254 0 := by decide +kernel
  have h2 : leNat (ppBytes.drop 254) = 16110 := by decide +kernel
  have h3 : ppBytes.length = 256 := by decide +kernel
  show (true && (ppBytes.length == 256) && (crc16 (ppBytes.take 254) == leNat (ppBytes.drop 254))) = true
  rw [h1, h2, h3, crc_pp]; rfl
theorem ident_of (x : Target) (p : ParamCopy) (hx : x.copies = [p]) (hp : goodCopy p = true) (hg : p.geom = geo) :
    identCheck [x] true = .inr (geo, x, 0) := by
  have h : targetCopy x = some (p, 0) := by simp [targetCopy, hx, List.findIdx?_cons, hp]
  simp [identCheck, h, hg, geo, geomShape]
theorem ident_tgt : identCheck [tgt] true = .inr (geo, tgt, 0) := ident_of tgt pp rfl good_pp rfl


/-! Integrity -/
def cwA : Codeword := { kind := 1, lane := 7, lsn := 3, last := true }
def pageA : ElemPage := { element := 1, die := 1, cws := [cwA], full := true, programmed := true }
def rowA : Row := { row := 2, since := 0, pages := [pageA], closed := true }
def stA : Stripe := { id := 4, bale := false, rows := [rowA] }
def rowOpen : Row := { row := 2, since := 0, pages := [{ element := 1, die := 1, cws := [cwA] }] }
def stOpen : Stripe := { id := 4, bale := false, rows := [rowOpen] }
def rowV : Row := { rowA with pages := [{ pageA with verified := true }] }
def stV : Stripe := { stA with rows := [rowV] }
def stV1 : Stripe := { stV with isOpen := false, reclaim := true, rows := [{ rowV with parity := true }] }
def stR : Stripe := { id := 4, bale := false, isOpen := false, reclaim := true }
def stEr (l : Option (List Nat)) : Stripe :=
  { stR with erasing := true, eraseLeft := l, erased := [(0, true), (1, true), (2, true), (3, true)] }
/-- Bay 0 of width `w` with one stripe. -/
def sStripe (x : Stripe) (w : Nat := 4) : State :=
  mk [(pgFstr 0, FSTR_GEOM_WIDTH, w), (pgFstr 0, FSTR_GEOM_K_SETS, 10), (pgFstr 0, FSTR_GEOM_GROUPS, 1), (pgFstr 0, FSTR_THRESH_PE_LIMIT, 3000),
      (pgBay 0, BAY_GEOM0_PAGE_CW, 4), (pgBay 0, BAY_GEOM0_PAGES_PER_BLOCK, 9), (pgBay 0, BAY_GEOM1_BLOCKS_PER_LUN, 4), (pgBay 0, BAY_STAT_STATE, 5),
      (pgFch 0, FCH_TGT_LUN_EN, 1), (pgFch 1, FCH_TGT_LUN_EN, 1), (pgFch 2, FCH_TGT_LUN_EN, 1), (pgFch 3, FCH_TGT_LUN_EN, 1),
      (pgFint, FINT_VERIFY_VERIFY_MAX_BITS, 40)]
    fun d => { (d.updMap 0 fun m => { m with stripes := [x] }) with tb := { d.tb with gtime := 5000 } }
def sSettle2 : State :=
  let s := withTask { tkAppend with bay := some 0 } .open
  let d := s.cur.updFifo 0 fun f => { f with packets := [{ pk3 with opened := true, closed := true }] }
  let d := { d with fls := { d.fls with placed := [(3, 100)] }, mc := { d.mc with extents := [3] } }
  stOf d
def sSettleNot : State := withTask { tkAppend with bay := some 0 } .open
def sSettleRec (o : Opc) : State :=
  let s := withTask { tk o with bay := some 1 } .open
  stOf { s.cur with fls := { s.cur.fls with placed := [(3, 1)] } }
/-- Codec 0 decodes codeword read 1, which is of the page of row 2 on element 1. -/
def cdc : Codec := { access := 1, soft := false, limit := 20, llr := 0 }
def acc1 : Access := { id := 1, why := .scrub, bay := 0, stripe := 4, row := 2, element := 1, cw := 0, cls := 5, tried := [0] }
def accP : Access := { acc1 with id := 2, step := 4, parts := [1] }
def pageV : ElemPage := { pageA with verified := true }
def rowW : Row := { rowA with pages := [pageV, { pageV with element := 2, die := 2 }], parity := true }
def stW : Stripe := { stA with rows := [rowW] }
def sCws (as : List Access) (x : Codec) (w : List Nat) : State :=
  let s := sStripe stW
  let d := (((s.cur.put pgFint FINT_SCRUB_SCRUB_H 168).put pgFint FINT_VERIFY_REFRESH_BITS 80).put pgFint FINT_RETRY_WALK_MAX 8).put pgFint
    FINT_RETRY_SOFT_DELTA 4
  let d := d.setRecipe 0 19 100
  stOf { d with fls := { d.fls with accesses := as, nextAccess := 5, decode := w, codecs := d.fls.codecs.set 0 (some x) } }
def sCw (a : Access) : State := sCws [a] cdc []
def sCwP : State := sCws [{ acc1 with why := .part 2 }, accP] cdc []
def sCwNext : State := sCws [acc1] { cdc with access := 9 } [1]
def pageN : ElemPage := { element := 1, die := 1, full := true, programmed := true }
def stN : Stripe := { stA with rows := [{ rowA with pages := [pageN] }] }
def reb4 : Rebuild := { die := 1, left := [4], place := some (8, 2), written := true, pages := [(2, true, true)] }
def withRebuild (r : Rebuild) (w : List Nat) (d : Dev) : Dev :=
  (d.put (pgFstr 0) FSTR_REBUILD_ACTIVE 1).updMap 0 fun m => { m with rebuild := some r, waiting := w, table := [(65536 + 4, 65536 + 3)] }
def sRebPage : State := stOf (withRebuild { reb4 with pages := [(2, true, false)] } [] (sStripe stN).cur)
def sRebuiltAll : State := stOf (withRebuild reb4 [] (sStripe stN).cur)
def sRebWait : State := stOf (withRebuild { die := 1, left := [] } [2] (sStripe stN).cur)
def gat1 : Gather := { lane := 7, bale := 0, bay := 0, stripe := 4, slot := 0, count := 1 }
def sGather : State :=
  let s := sStripe { stA with bale := true, rows := [{ rowA with row := 0, pages := [], parity := true }] }
  let d := s.cur.put pgMap MAP_DESC_BASE_LO 0x80000000
  stOf { d with fls := { d.fls with gathers := [gat1] } }
def sGatherReady : State :=
  let s := sStripe stW
  let d := (s.cur.put pgMap MAP_DESC_BASE_LO 0x80000000).setB pgFsch FSCH_CTL_RUN true
  stOf { d with ldg := { d.ldg with lanes := [(7, { state := .sealed, length := 100, settled := 100 })]
                                    store := [{ lane := 7, lsn := 3, offset := 0, bytes := List.replicate 100 0, voidBytes := 0, bay := some 0 }] } }
def sStale : State :=
  mk [] (withLdg fun l => { l with lanes := [(7, { state := .reclaiming, length := 100 })] })
def sDie : State :=
  mk [(pgFint, FINT_DIE_LIMIT_FAIL_OPS, 8), (pgFch 0, FCH_TGT_LUN_EN, 1), (pgFch 1, FCH_TGT_LUN_EN, 1)] fun d => d.updChan 1 fun c => { c with touts := [(0, 2)] }
def sRebuild (l : List Nat) : State :=
  mk [(pgFstr 0, FSTR_REBUILD_ACTIVE, 1), (pgFstr 0, FSTR_GEOM_WIDTH, 4), (pgFstr 0, FSTR_GEOM_K_SETS, 10), (pgFstr 0, FSTR_GEOM_GROUPS, 2),
      (pgBay 0, BAY_GEOM1_BLOCKS_PER_LUN, 4), (pgFch 0, FCH_TGT_LUN_EN, 0xFFFF)]
    fun d => d.updMap 0 fun m => { m with rebuild := some { die := 1, left := l }, sets := [(8 * 65536 + 2, { state := .spare })] }
def sFormat (n : Nat) : State :=
  mk [(pgFstr 0, FSTR_STAT_FORMATTING, 1), (pgFstr 0, FSTR_CFG_WIDTH, 4), (pgFstr 0, FSTR_STAT_MAP_OK, n - 1), (pgFstr 0, FSTR_STAT_BLANK, 2 - n),
      (pgBay 0, BAY_STAT_STATE, 4), (pgBay 0, BAY_CTL_WRITE_EN, 1), (pgBay 0, BAY_GEOM1_BLOCKS_PER_LUN, 4), (pgFch 0, FCH_TGT_LUN_EN, 0xFF)]
    fun d => (((d.setRecipe 0 20 100).setRecipe 0 21 101).setRecipe 0 22 102).updMap 0 fun m =>
      { m with formatStep := n, areas := Vector.replicate 2 { ready := true } }
def sPrepare (st : Nat) : State :=
  mk [(pgFstr 0, FSTR_STAT_MAP_OK, 1), (pgBay 0, BAY_STAT_STATE, st), (pgBay 0, BAY_CTL_WRITE_EN, 1)]
    fun d => (((d.setRecipe 0 20 100).setRecipe 0 21 101).setRecipe 0 22 102).updMap 0 fun m =>
      { m with areas := Vector.replicate 2 { ready := true } }
def sExtent (pool : Nat) : State :=
  let s := sStripe { stA with rows := [rowA] }
  let d := ((s.cur.put pgMap MAP_DESC_BASE_LO 0x80000000).put pgMap MAP_POOL_BASE_LO 0x90000000).put pgMap MAP_POOL_PAGES pool
  let d := { d with fls := { d.fls with placed := [(3, 4096)] }, ldg := { d.ldg with tasks := [{ tkAppend with bay := some 0 }] } }
  stOf d
/-- Set 1 is full, and the eviction buffer with four lines that nothing has answered for. -/
def sFillWait : State :=
  mk [] fun d =>
    let d := d.setCset 1 { lines := (List.range 16).map fun w => ⟨w, w + 1, true⟩ }
    { d with mc := { d.mc with miss := some [⟨2, 0x20000001, true⟩]
                               evict := [1, 2, 3, 4].map fun l => { line := l, dirty := true } } }

/-! Read channels -/
def sLock : State := mk [] fun d => d.updFth 0 fun c => { c with locked := true }
def job0 : FJob := { kind := 0, seq := 5, addr := 0, dst := 65536, count := 3, goAt := 0 }
def sJob : State := mk [(pgFth 0, FTH_CTL_RUN, 1), (pgFth 0, FTH_JOB_STAT_ACTIVE, 1)] fun d => d.updFth 0 fun c => { c with job := some job0 }
def sJobLate : State :=
  mk [(pgFth 0, FTH_JOB_STAT_ACTIVE, 1)] fun d =>
    { (d.updFth 0 fun c => { c with job := some job0 }) with tb := { d.tb with gtime := 100000 } }
def recW : FRec := { addr := 0, status := none, firstFail := 8, waits := true, held := some {} }
def recS : FRec := { addr := 0, status := none, firstFail := 8 }
def sRec (l : List FRec) : State := mk [] fun d => d.updFth 0 fun c => { c with recs := l }
def slot0 : RetSlot := { chan := 0, addr := 0, failing := 8 }
def sSlot : State :=
  mk [(pgFthx, FTHX_ITER_STAT_BUSY, 1)] fun d =>
    let d := d.updFth 0 fun c => { c with recs := [recS], job := some job0 }
    { d with fth := { d.fth with slot := some slot0 } }

/-! Optical write path -/
def bjob : BurnJob := { seq := 5, addr := 64, src := 4096, count := 3 }
def owpGo : List (Nat × Fld × Nat) :=
  [(pgOwp 0, PG_CTL_ENABLE, 1), (pgOwp 0, WP_CTL_SPEED, 4), (pgOwp 0, WP_JOB_ADDR, 64), (pgFth 0, FTH_MAP_PORT, 0)]
/-- Port 0 with a job in STATE `st`, and `l` set besides. -/
def sBurn (st : Nat) (on : Bool) (l : List (Nat × Fld × Nat) := []) (j : BurnJob := bjob) : State :=
  mk ([(pgOwp 0, WP_JOB_STAT_STATE, st), (pgOwp 0, WP_INH_CAUSE_EN, 0xFFFF), (pgOwp 0, WP_RESUME_MAX_INH, 7), (pgFth 0, FTH_MAP_PORT, 0)] ++ l)
    fun d => { (d.updPort 0 fun o => { o with job := some j, light := on }) with tb := { d.tb with gtime := 5000 } }
/-- A dense job of port 0 at cluster 64, which begins at word 153, unit 21, wobble 0. -/
def sStart (l : List (Nat × Fld × Nat)) : State :=
  sBurn 1 false ([(pgOwp 0, WP_CTL_FORMAT, 2), (pgOwp 0, WP_CTL_SPEED, 1), (pgFth 0, FTH_WOB_LOCKED, 1), (pgFth 0, FTH_WOB_STAT_WOB_KHZ, 957), (pgOwp 0, WP_INH_CAUSE_EN, 8)] ++ l)
def sEnc (f : Nat) : State :=
  mk [(pgWenc, ENC_STAT_BUSY, 1)] fun d => { d with owp := { d.owp with enc := some ⟨32, 2, 0, 4096, 8192, 65536, 9, 1, f⟩ } }
def recV (z : Nat) : FRec := { addr := 64, status := some z, kind := 2 }
def sVfy (z : Nat) : State := mk [(pgFth 0, FTH_MAP_PORT, 0)] fun d => d.updFth 0 fun c => { c with compare := [recV z] }
/-- Ticket 1 of lane 7 in state `st`, lane 7 in state `x`. -/
def sTicket (st : Nat) (x : LaneState) (l : List (Nat × Fld × Nat) := []) (ts : List Ticket := []) : State :=
  mk ([(pgWarc, AR_TBL_BASE_LO, 0x10000), (pgLdg, LDG_CTL_ACCEPT_EN, 1), (pgRsv, RSV_AVAIL, 10000000), (pgRsv, RSV_STAT, 0)] ++ l)
    fun d => { (d.memW 0x10040 (leBytes 4 (st * 2 ^ 28 + 7) ++ leBytes 4 64)) with
      ldg := { d.ldg with lanes := [(7, { state := x, length := 100 })] }
      owp := { d.owp with tickets := ts } }
def tickS : Ticket := { index := 1, sha := Sha.start, signature := true }
def sArch : State :=
  let s := sTicket 5 .sealed
  let d := { s.cur with ldg := { s.cur.ldg with background := [{ kind := .archive 9, lane := 7, bay := some 0, delta := some 0 }] }, owp := { s.cur.owp with commits := [(1, 7)] } }
  let x : Stripe := { stW with rows := [{ rowW with pages := [{ pageV with cws := [{ cwA with deltas := [(0, .checkpoint)] }] }] }] }
  stOf (d.updMap 0 fun m => { m with stripes := [x] })
theorem memRead_nil (a n : Nat) : memRead [] a n = List.replicate n 0 := by
  induction n generalizing a with
  | zero => rfl
  | succ n ih => rw [List.replicate_succ, ← ih (a + 1)]; rfl
theorem padTo_nil (n : Nat) : padTo n [] = List.replicate n 0 := by simp [padTo]
theorem padTo_one (n : Nat) : (padTo (n + 1) [1]).head? = some 1 := by simp [padTo]
theorem vfy_eq (a n : Nat) : memRead [] a n = padTo n [] := by rw [memRead_nil, padTo_nil]
theorem vfy_ne (a n : Nat) : memRead [] a (n + 1) ≠ padTo (n + 1) [1] := by
  intro h
  have := congrArg List.head? h
  rw [padTo_one, memRead_nil, List.replicate_succ] at this
  simp at this

/-! Servo -/
/-- Port 0 in STATE `st` running `op`, and `l` set besides. -/
def sOps (st : Nat) (op : SeqOp) (l : List (Nat × Fld × Nat) := []) (f : OptPort → OptPort := id) : State :=
  mk ([(pgOps 0, OPS_STAT_STATE, st)] ++ l) fun d => { (d.updOpt 0 fun o => f { o with op := op }) with tb := { d.tb with gtime := 3000 } }
def jmp (ph : JumpPhase) (c : Nat := 0) : SeqOp := .jump 1 310 5 c ph
def lay (ph : LayerPhase) : SeqOp := .layer 1 false 200 5 6 ph
def row7 (x : Int) (c : Nat := 0) (o : OptPort) : OptPort := { o with rows := Vector.ofFn fun i => if i.val = 7 then x else 0, cross0 := c }
/-- Slot 3 of engine 0 is a PID slot of port 0's TRACKING loop with a check, SAFE `a`. -/
def sFollow (a n : Nat) : State :=
  let d := ((dev [(pgOps 0, OPS_LOOP_CLOSED, 3)]).wr (pgSlot 0 3 + 0x4C) (BitVec.ofNat 32 (0x90108000 + a * 1024))).wr (pgSlot 0 3 + 0x78) 0x00191000
  let d := d.updSlot 0 3 fun t => { t with fe := n }
  stOf d

/-! Motors -/
/-- Channel 0 in STATE `st`. -/
def sMot (st : Nat) (f : Motor → Motor := id) (l : List (Nat × Fld × Nat) := []) : State :=
  mk ([(pgCmt 0, CMT_STAT_STATE, st)] ++ l) fun d => { (d.updMotor 0 f) with tb := { d.tb with gtime := 100000 } }

/-! Motion -/
/-- Axis `n` in STATE `st`. -/
def sAx (n st : Nat) (l : List (Nat × Fld × Nat) := []) (f : Axis → Axis := id) : State :=
  mk ([(pgAx n, CHN_STAT_STATE, st)] ++ l) fun d => { (d.updAxis n f) with tb := { d.tb with gtime := 2000000 } }

/-! Bushel -/
/-- Channel 0 with the fields `l`, the engine as `f` makes it. -/
def sUd (l : List (Nat × Fld × Nat)) (f : Bushel → Bushel := id) : State :=
  mk ([(pgUd 0, UD_SRC_LO, 0x1000), (pgUd 0, UD_DST_LO, 0x2000)] ++ l) fun d => { d with ud := f d.ud, tb := { d.tb with gtime := 64 } }

/-! Power -/
/-- The power controller as `p`, and `l` set besides. -/
def sPwr (p : Power) (l : List (Nat × Fld × Nat) := []) (f : Dev → Dev := id) : State :=
  mk l fun d => f { d with pwr := p, tb := { d.tb with gtime := 3000 } }
/-- Rule 2 of Scruple, armed in every state, fires at an x above 4 and takes the action bits `act`. -/
def sScr (act : Nat) (l : List (Nat × Fld × Nat) := []) (f : Dev → Dev := id) : State :=
  mk ([(pgScr, SCR_CTL, 1), (pgRule, ruleFld 2 0 SCR_RULE_A, 0x01380004), (pgRule, ruleFld 2 1 SCR_RULE_B, 0x00100100 + act * 65536),
       (pgRule, ruleFld 2 2 SCR_RULE_STAT_ARMED, 1)] ++ l) f
/-- Mark slot 0 waits, with MARK_MIN 1 and SET 1; lane 7 is entry 2. -/
def sMark : State :=
  mk [(pgLane, ⟨8, 0, 32⟩, 0x80100007)] fun d =>
    { run d with aon := memWrite [] 0x2007 [1, 1], scr := { d.scr with times := [(0, 60000000)] } }

/-! Protection -/
/-- The protection state as `f` makes it, at Grain 64, and `l` set besides. -/
def sPrt (f : Protect → Protect) (l : List (Nat × Fld × Nat) := []) (k : Dev → Dev := id) : State :=
  mk l fun d => k { d with prt := f d.prt, tb := { d.tb with gtime := 64 } }
/-- Start-up at step `n`. -/
def sStep (n : Nat) : State := mk [] fun d => { d with su := { d.su with step := n } }
def sFifoBad : State :=
  mk [(pgFk 0, FK_CFG_SIZE_4K, 4)] fun d =>
    d.updFifo 0 fun f => { f with packets := [{ lsn := 3, lane := 7, ctx := 1, promised := 64, words := 1, closed := true }] }

/-- The journal holds the entry of LSN 3, a task of operation `o`. -/
def sLost (o : Opc) : State :=
  mk [] fun d => { d with ldg := { d.ldg with journal := [⟨0, 3, 8, o, 7, none, false, false, false⟩] } }

/-! Calibration -/
/-- The run `r` of a step is on. -/
def sCalRun (r : CalRun) (l : List (Nat × Fld × Nat) := []) : State :=
  mk l fun d => { d with cal := { d.cal with running := [r] }, tb := { d.tb with gtime := 64 } }
/-- A Stone edge with a review due. -/
def sReview (l : List (Nat × Nat × Int)) (f : Calib → Calib := id) : State :=
  mk [(pgMplan, MP_CFG_REVIEW_S, 2)] fun d => { d with cal := f { d.cal with samples := l }, tb := { d.tb with gtime := 512 } }
/-- A plan of one item at a Stone edge, PF in effect. -/
def sPlan (x : PlanItem) (l : List (Nat × Fld × Nat) := []) : State :=
  mk ([(pgRsv, RSV_STAT_PF, 1)] ++ l) fun d => { d with cal := { d.cal with plan := some [x] } }
def sHeld (x : PlanItem) (l : List (Nat × Fld × Nat)) : State := mk l fun d => { d with cal := { d.cal with held := [x] } }

/-! Links -/
/-- A due fault vector; the MSI-X table holds `tab`. -/
def sVec (tab : List (Nat × Word)) : State :=
  mk [] fun d => { d with fj := { d.fj with vectorDue := true }, lnk := { d.lnk with msixTab := tab } }
def sEth : State :=
  mk [(pgEth, ETH_CTL, 0xB), (pgEth, PG_CTL, 1), (pgEth, ETH_RX_FREE, 4), (pgEth, ETH_RX_BASE_LO, 0x10000)] fun d =>
    run (d.memW 0x10000 [0, 0, 2])
def sEthTx (n : Nat) : State :=
  mk [(pgEth, ETH_CTL, 0xB), (pgEth, PG_CTL, 1), (pgEth, ETH_TX_PROD, 4), (pgEth, ETH_TX_BASE_LO, 0x10000)] fun d =>
    run ((d.memW 0x10000 [0, 0, 2]).memW 0x10008 [BitVec.ofNat 8 n, 0, 2])
/-- A wake pattern frame to all for serial number and wake code 0, with an FCS of zeros. -/
def wakeF : List Byte :=
  List.replicate 6 0xFF ++ List.replicate 6 0 ++ [0x88, 0xB5, 0x48, 0x58, 0x57, 0x4B] ++ List.replicate 46 0
def sCan : State :=
  mk [(pgCan 0, CAN_CTL, 1), (pgCan 0, PG_CTL, 1), (pgCan 0, ⟨0x100, 0, 32⟩, 0x80000123), (pgCan 0, ⟨0x104, 0, 32⟩, 0x1FFFFFFF),
      (pgCan 0, CAN_RX_BASE_LO, 0x20000)]
def sPmb (v : Nat) : State := mk [(pgMplan, MP_AVS_VREQ_MV, v), (pgPmb, PMB_CFG_EN, 1), (pgRsv, RSV_STAT, 0)]

/-! Start-up and pages -/
/-- A firmware image without a body and with rollback index `n`; its digest is the SHA-256 of no bytes. -/
def img (n : Nat) : FwImage :=
  { header := [0x48, 0x58, 0x46, 0x57, 1, 0, 0, 1, 0, 0, 0, 0] ++ leBytes 4 n ++ List.replicate 16 0
      ++ [0xe3, 0xb0, 0xc4, 0x42, 0x98, 0xfc, 0x1c, 0x14, 0x9a, 0xfb, 0xf4, 0xc8, 0x99, 0x6f, 0xb9, 0x24,
          0x27, 0xae, 0x41, 0xe4, 0x64, 0x9b, 0x93, 0x4c, 0xa4, 0x95, 0x99, 0x1b, 0x78, 0x52, 0xb8, 0x55]
      ++ List.replicate 192 0
    body := [] }
def imgA : FwImage := img 1
def imgB : FwImage := img 2
/-- Two staged fault records, of different pages. -/
def sFj : State := mk [] fun d => (d.fault pgPmb 0x1003 false false [750]).fault pgTb 2 false false []

/-! ### The hypotheses of the statements can be met -/

theorem met_grainEdge : ∃ (s : State), (s.cur.clockOn = true) :=
  ⟨sRun, by decide +kernel⟩

theorem met_grainEdgeStopped : ∃ (s : State), (s.cur.clockOn = false) :=
  ⟨s0, by decide +kernel⟩

theorem met_stoneEdge : ∃ (s : State), (s.cur.clockOn = true) ∧ ((s.cur.gtime + 1) % 256 = 0) ∧ (s.decided.cur.gtime = s.cur.gtime) :=
  ⟨sStone, by decide +kernel⟩

theorem met_stoneEdgeOther : ∃ (s : State), (s.cur.clockOn = false ∨ (s.cur.gtime + 1) % 256 ≠ 0) :=
  ⟨s0, by decide +kernel⟩

theorem met_grainOverrun : ∃ (page : Word) (p e : Nat) (s : State), (pageAt page.toNat = some p) ∧ (engineAt p = some e) ∧ (s.cur.tb.overNow.contains p = false) ∧ (s.cur.tb.overPrev.contains p = false) :=
  ⟨0x40600000, 0x40600000, 0x40600000, s0, by decide +kernel⟩

theorem met_vaonPowerUp : ∃ (s : State), (s.cur.tb.vaon = false) :=
  ⟨sNoVaon, by decide +kernel⟩

theorem met_vaonLoss : ∃ (s : State), (s.cur.tb.vaon = true) :=
  ⟨s0, by decide +kernel⟩

theorem met_openLane : ∃ (w : Fin 64) (r : Requester) (k : TaskOp) (s : State), (s.decides w r = true) ∧ (s.verdict w .openLane k = none) :=
  ⟨0, .app 0, { d1 := 5, d2 := 2 }, sAcc, by decide +kernel⟩

theorem met_append : ∃ (w : Fin 64) (r : Requester) (k : TaskOp) (s : State), (s.decides w r = true) ∧ (s.verdict w .append k = none) :=
  ⟨0, .app 0, { d1 := 7, d2 := 1, d5 := 5000 }, sAcc, by decide +kernel⟩

theorem met_read : ∃ (w : Fin 64) (r : Requester) (k : TaskOp) (s : State), (s.decides w r = true) ∧ (s.verdict w .read k = none) :=
  ⟨0, .app 0, { d1 := 7, d5 := 64 }, sAcc, by decide +kernel⟩

theorem met_seal : ∃ (w : Fin 64) (r : Requester) (k : TaskOp) (s : State), (s.decides w r = true) ∧ (s.verdict w .seal k = none) :=
  ⟨0, .app 0, { d1 := 7, d2 := 1 }, sAcc, by decide +kernel⟩

theorem met_flush : ∃ (w : Fin 64) (r : Requester) (k : TaskOp) (s : State), (s.decides w r = true) ∧ (s.verdict w .flush k = none) :=
  ⟨0, .app 0, {}, sAcc, by decide +kernel⟩

theorem met_abort : ∃ (w : Fin 64) (r : Requester) (k : TaskOp) (s : State), (s.decides w r = true) ∧ (s.verdict w .abort k = none) ∧ (abortTarget s.cur w (bits k.arg0 0 16) s.cur.ldg.nextLsn = none) :=
  ⟨0, .app 0, { d6 := 9 }, sAcc, by decide +kernel⟩

theorem met_mark : ∃ (w : Fin 64) (r : Requester) (k : TaskOp) (s : State), (s.decides w r = true) ∧ (s.verdict w .mark k = none) :=
  ⟨0, .app 0, { d1 := 7 }, sAcc, by decide +kernel⟩

theorem met_release : ∃ (w : Fin 64) (r : Requester) (k : TaskOp) (s : State), (s.decides w r = true) ∧ (s.verdict w .release k = none) :=
  ⟨0, .app 0, { d6 := 3 }, sAcc, by decide +kernel⟩

theorem met_query : ∃ (w : Fin 64) (r : Requester) (k : TaskOp) (s : State), (s.decides w r = true) ∧ (s.verdict w .query k = none) :=
  ⟨0, .app 0, { d1 := 7, d5 := 64 }, sAcc, by decide +kernel⟩

theorem met_openLaneComplete : ∃ (lsn : Nat) (u : TaskSt) (s : State), (s.cur.rsv.committing = false) ∧ (s.cur.task lsn = some u) ∧ (u.opc = .openLane) ∧ (s.cur.awaits lsn = true) ∧ (s.cur.laneWaits u.lane lsn true = false) ∧ ((s.cur.lane u.lane).state = .free) :=
  ⟨3, tkOpenLane, sTaskOpenLane, by decide +kernel⟩

theorem met_openLaneCompleteUsed : ∃ (lsn : Nat) (u : TaskSt) (s : State), (s.cur.rsv.committing = false) ∧ (s.cur.task lsn = some u) ∧ (u.opc = .openLane) ∧ (s.cur.awaits lsn = true) ∧ (s.cur.laneWaits u.lane lsn true = false) ∧ ((s.cur.lane u.lane).state ≠ .free) :=
  ⟨3, tkOpenLaneUsed, sTaskOpenLaneUsed, by decide +kernel⟩

theorem met_appendComplete : ∃ (lsn : Nat) (u : TaskSt) (s : State), (s.cur.rsv.committing = false) ∧ (s.cur.task lsn = some u) ∧ (u.opc = .append) ∧ (s.cur.awaits lsn = true) ∧ (u.fetching = false) :=
  ⟨3, tkAppend, sTaskAppend, by decide +kernel⟩

theorem met_readComplete : ∃ (lsn : Nat) (u : TaskSt) (s : State), (s.cur.rsv.committing = false) ∧ (s.cur.task lsn = some u) ∧ (u.opc = .read) ∧ (s.cur.awaits lsn = true) ∧ (s.cur.readWaits u = false) ∧ (u.destStopped = false) ∧ (s.cur.reading u = false) ∧ (s.cur.goodRead u = u.length) :=
  ⟨3, tkRead, sTaskRead, by decide +kernel⟩

theorem met_readCompleteRange : ∃ (lsn : Nat) (u : TaskSt) (s : State), (s.cur.rsv.committing = false) ∧ (s.cur.task lsn = some u) ∧ (u.opc = .read) ∧ (s.cur.awaits lsn = true) ∧ (s.cur.readWaits u = false) ∧ (u.destStopped = false) ∧ (s.cur.reading u = false) ∧ (s.cur.goodRead u = s.cur.readRange u) ∧ (s.cur.readRange u < u.length) :=
  ⟨3, tkReadRange, sTaskReadRange, by decide +kernel⟩

theorem met_readCompleteLost : ∃ (lsn : Nat) (u : TaskSt) (s : State), (s.cur.rsv.committing = false) ∧ (s.cur.task lsn = some u) ∧ (u.opc = .read) ∧ (s.cur.awaits lsn = true) ∧ (s.cur.readWaits u = false) ∧ (u.destStopped = false) ∧ (s.cur.reading u = false) ∧ (s.cur.goodRead u < s.cur.readRange u) :=
  ⟨3, tkReadLost, sTaskReadLost, by decide +kernel⟩

theorem met_readCompleteFault : ∃ (lsn n : Nat) (u : TaskSt) (s : State), (s.cur.rsv.committing = false) ∧ (s.cur.task lsn = some u) ∧ (u.opc = .read) ∧ (s.cur.awaits lsn = true) ∧ (s.cur.readWaits u = false) ∧ (u.destStopped = false) ∧ (s.cur.reading u = false) ∧ (n < s.cur.goodRead u) :=
  ⟨3, 4, tkRead, sTaskRead, by decide +kernel⟩

theorem met_readCompleteGone : ∃ (lsn : Nat) (u : TaskSt) (s : State), (s.cur.rsv.committing = false) ∧ (s.cur.task lsn = some u) ∧ (u.opc = .read) ∧ (s.cur.awaits lsn = true) ∧ (s.cur.readWaits u = false) ∧ ((s.cur.laneAsOf u.lane u.lsn).state = .free ∨ (s.cur.laneAsOf u.lane u.lsn).state = .reclaiming) ∧ (0 < u.length) ∧ (u.destStopped = false) ∧ (s.cur.reading u = false) :=
  ⟨3, tkReadGone, sTaskReadGone, by decide +kernel⟩

theorem met_readCompleteStopped : ∃ (lsn : Nat) (u : TaskSt) (s : State), (s.cur.rsv.committing = false) ∧ (s.cur.task lsn = some u) ∧ (u.opc = .read) ∧ (s.cur.awaits lsn = true) ∧ (s.cur.readWaits u = false) ∧ (u.destStopped = true) ∧ (0 < s.cur.goodRead u) :=
  ⟨3, tkReadStopped, sTaskReadStopped, by decide +kernel⟩

theorem met_sealComplete : ∃ (lsn : Nat) (u : TaskSt) (s : State), (s.cur.rsv.committing = false) ∧ (s.cur.task lsn = some u) ∧ (u.opc = .seal) ∧ (s.cur.awaits lsn = true) ∧ (u.signed = true) ∧ (u.settled = true) :=
  ⟨3, tkSeal, sTaskSeal, by decide +kernel⟩

theorem met_markComplete : ∃ (lsn : Nat) (u : TaskSt) (s : State), (s.cur.rsv.committing = false) ∧ (s.cur.task lsn = some u) ∧ (u.opc = .mark) ∧ (s.cur.awaits lsn = true) ∧ (s.cur.laneWaits u.lane lsn true = false) ∧ ((s.cur.laneAsOf u.lane lsn).state ≠ .free) ∧ ((s.cur.laneAsOf u.lane lsn).state ≠ .reclaiming) ∧ (s.cur.ldg.holds.length < 16384) :=
  ⟨3, tkMark, sTaskMark, by decide +kernel⟩

theorem met_markCompleteGone : ∃ (lsn : Nat) (u : TaskSt) (s : State), (s.cur.rsv.committing = false) ∧ (s.cur.task lsn = some u) ∧ (u.opc = .mark) ∧ (s.cur.awaits lsn = true) ∧ (s.cur.laneWaits u.lane lsn true = false) ∧ ((s.cur.laneAsOf u.lane lsn).state = .free ∨ (s.cur.laneAsOf u.lane lsn).state = .reclaiming) :=
  ⟨3, tkMarkGone, sTaskMarkGone, by decide +kernel⟩

theorem met_releaseComplete : ∃ (lsn : Nat) (u : TaskSt) (h : Hold) (s : State), (s.cur.rsv.committing = false) ∧ (s.cur.task lsn = some u) ∧ (u.opc = .release) ∧ (s.cur.awaits lsn = true) ∧ (bit u.flags 2 = false) ∧ (s.cur.relHold u = some h) ∧ (s.cur.laneWaits h.lane lsn true = false) ∧ ((s.cur.hostOwned u.window && h.cls != 0) = false) :=
  ⟨3, tkRelease, hold2, sTaskRelease, by decide +kernel⟩

theorem met_releaseCompleteHost : ∃ (lsn : Nat) (u : TaskSt) (h : Hold) (s : State), (s.cur.rsv.committing = false) ∧ (s.cur.task lsn = some u) ∧ (u.opc = .release) ∧ (s.cur.awaits lsn = true) ∧ (bit u.flags 2 = false) ∧ (s.cur.relHold u = some h) ∧ (s.cur.laneWaits h.lane lsn true = false) ∧ (s.cur.hostOwned u.window = true) ∧ (h.cls ≠ 0) :=
  ⟨3, tkReleaseHost, hold2F, sTaskReleaseHost, by decide +kernel⟩

theorem met_releaseCompleteNone : ∃ (lsn : Nat) (u : TaskSt) (s : State), (s.cur.rsv.committing = false) ∧ (s.cur.task lsn = some u) ∧ (u.opc = .release) ∧ (s.cur.awaits lsn = true) ∧ (bit u.flags 2 = false) ∧ (s.cur.relHold u = none) ∧ (((s.cur.ldg.tasks.any fun m => m.opc == .mark && u.names m.lsn && decide (m.lsn < lsn) && !s.cur.isMet m.lsn) = false)) :=
  ⟨3, tkReleaseNone, sTaskReleaseNone, by decide +kernel⟩

theorem met_releaseCompleteReclaim : ∃ (lsn : Nat) (u : TaskSt) (s : State), (s.cur.rsv.committing = false) ∧ (s.cur.task lsn = some u) ∧ (u.opc = .release) ∧ (s.cur.awaits lsn = true) ∧ (bit u.flags 2 = true) ∧ (s.cur.laneWaits u.lane lsn true = false) ∧ (s.cur.reclaimable u.lane lsn = true) :=
  ⟨3, tkReleaseReclaim, sTaskReleaseReclaim, by decide +kernel⟩

theorem met_releaseCompleteRetained : ∃ (lsn : Nat) (u : TaskSt) (s : State), (s.cur.rsv.committing = false) ∧ (s.cur.task lsn = some u) ∧ (u.opc = .release) ∧ (s.cur.awaits lsn = true) ∧ (bit u.flags 2 = true) ∧ (s.cur.laneWaits u.lane lsn true = false) ∧ (s.cur.reclaimable u.lane lsn = false) :=
  ⟨3, tkReleaseRetained, sTaskReleaseRetained, by decide +kernel⟩

theorem met_queryComplete : ∃ (lsn len : Nat) (u : TaskSt) (x : LaneDesc) (s : State), (s.cur.rsv.committing = false) ∧ (s.cur.task lsn = some u) ∧ (u.opc = .query) ∧ (s.cur.awaits lsn = true) ∧ (s.cur.laneWaits u.lane lsn false = false) ∧ (u.destStopped = false) ∧ (x = s.cur.laneAsOf u.lane lsn) ∧ (x.state ≠ .free) ∧ (len = min x.length u.lenAt) :=
  ⟨3, 100, tkQuery, sTaskQuery.cur.laneAsOf 7 3, sTaskQuery, by decide +kernel⟩

theorem met_queryCompleteFree : ∃ (lsn : Nat) (u : TaskSt) (s : State), (s.cur.rsv.committing = false) ∧ (s.cur.task lsn = some u) ∧ (u.opc = .query) ∧ (s.cur.awaits lsn = true) ∧ (s.cur.laneWaits u.lane lsn false = false) ∧ (u.destStopped = false) ∧ ((s.cur.laneAsOf u.lane lsn).state = .free) ∧ (((s.cur.ldg.tasks.any fun v => v.opc == .openLane && v.lane == u.lane && v.lsn < lsn && !s.cur.isMet v.lsn) = false)) :=
  ⟨3, tkQueryFree, sTaskQueryFree, by decide +kernel⟩

theorem met_queryCompleteFault : ∃ (lsn : Nat) (fail : Bool) (u : TaskSt) (s : State), (s.cur.rsv.committing = false) ∧ (s.cur.task lsn = some u) ∧ (u.opc = .query) ∧ (s.cur.awaits lsn = true) ∧ (s.cur.laneWaits u.lane lsn false = false) ∧ (fail = true ∨ u.destStopped = true) :=
  ⟨3, true, tkQueryFault, sTaskQueryFault, by decide +kernel⟩

theorem met_ingestSourceErrorFetch : ∃ (lsn : Nat) (u : TaskSt) (s : State), (s.cur.rsv.committing = false) ∧ (s.cur.task lsn = some u) ∧ (u.opc = .append) ∧ (s.cur.awaits lsn = true) ∧ (u.fetching = true) :=
  ⟨3, tkAppendFetch, sTaskAppendFetch, by decide +kernel⟩

theorem met_completionPosting : ∃ (w : Fin 64) (e : JEntry) (st : CStat) (res : Nat) (s : State), (s.cur.rsv.committing = false) ∧ (s.cur.ldg.journal = [e]) ∧ (s.cur.ldg.posted = []) ∧ (e.lost = false) ∧ (e.window = w.val) ∧ (e.posted = false) ∧ (e.met = some (st, res)) ∧ (s.cur.flag (pgTw w) TW_CQ_CFG_ARMED = true) ∧ (s.cur.hostOwned w = false) :=
  ⟨0, ⟨0, 3, 8, .mark, 7, some (.ok, 3), false, false, false⟩, .ok, 3, sPost, by decide +kernel⟩

theorem met_twCqConsWrite : ∃ (w : Fin 64) (r : Requester) (v : BitVec 16) (n : Nat) (s : State), (s.cur.mayWrite r w = true) ∧ ((v.toNat + 2 ^ 16 - s.cur.get (pgTw w) TW_CQ_CONS_CONS) % 2 ^ 16 = n) ∧ (n ≤ (s.cur.get (pgTw w) TW_CQ_PROD_PROD + 2 ^ 16 - s.cur.get (pgTw w) TW_CQ_CONS_CONS) % 2 ^ 16) :=
  ⟨0, .app 0, 0, 0, s0, by decide +kernel⟩

theorem met_twCqConsWriteRange : ∃ (w : Fin 64) (r : Requester) (v : BitVec 16) (s : State), (s.cur.mayWrite r w = true) ∧ ((s.cur.get (pgTw w) TW_CQ_PROD_PROD + 2 ^ 16 - s.cur.get (pgTw w) TW_CQ_CONS_CONS) % 2 ^ 16 < (v.toNat + 2 ^ 16 - s.cur.get (pgTw w) TW_CQ_CONS_CONS) % 2 ^ 16) :=
  ⟨0, .app 0, 5, s0, by decide +kernel⟩

theorem met_ringArm : ∃ (w : Fin 64) (r : Requester) (v : Word) (s : State), (s.cur.mayWrite r w = true) ∧ (s.cur.flag (pgTw w) TW_CQ_CFG_ARMED = false) ∧ (s.cur.outstanding w ≤ 2 ^ clampN 4 12 (bits v.toNat 0 4)) :=
  ⟨0, .app 0, 0x80400004, s0, by decide +kernel⟩

theorem met_ringDisarm : ∃ (w : Fin 64) (r : Requester) (s : State), (s.cur.mayWrite r w = true) ∧ (s.cur.flag (pgTw w) TW_CQ_CFG_ARMED = true) :=
  ⟨0, .app 0, sAcc, by decide +kernel⟩

theorem met_functionLevelReset : ∃ (s : State), (s.cur.flag pgPcie PCIE_STAT_DL_UP = true) :=
  ⟨sHost, by decide +kernel⟩

theorem met_hotReset : ∃ (s : State), (s.cur.flag pgPcie PCIE_STAT_DL_UP = true) :=
  ⟨sHost, by decide +kernel⟩

theorem met_linkLoss : ∃ (s : State), (s.cur.flag pgPcie PCIE_STAT_DL_UP = true) :=
  ⟨sHost, by decide +kernel⟩

theorem met_perstAssert : ∃ (s : State), (s.cur.flag pgPcie PCIE_STAT_PERST = false) ∧ (s.cur.lnk.eventNow = 0) :=
  ⟨sHost, by decide +kernel⟩

theorem met_holdLapse : ∃ (id : Nat) (h : Hold) (s : State), (s.cur.rsv.committing = false) ∧ (s.cur.ldg.holds.find? (·.id == id) = some h) ∧ (h.expiry ≠ 0) ∧ (h.expiry ≤ s.cur.gtime) ∧ (((s.cur.ldg.tasks.any fun u => u.names id && !s.cur.isMet u.lsn) = false)) ∧ (s.cur.flag pgLdg LDG_STAT_RESTORED = true) :=
  ⟨9, ⟨9, 7, 0, 0, 5, 0⟩, sLapse, by decide +kernel⟩

theorem met_doorbellBusyWrite : ∃ (w : Fin 64) (r : Requester) (s : State), (s.cur.mayWrite r w = true) ∧ (Dev.isPending s.vis s.cur w = true) :=
  ⟨0, .app 0, sPend, by decide +kernel⟩

theorem met_activateSet : ∃ (s : State), (s.cur.flag pgLdg LDG_CTL_ACTIVATE = false) :=
  ⟨s0, by decide +kernel⟩

theorem met_activationQuiesced : ∃ (s : State), (s.cur.rsv.committing = false) ∧ (s.cur.flag pgLdg LDG_STAT_DRAINING = true) ∧ (s.cur.ldg.journal.all (·.met.isSome) = true) ∧ (s.cur.ldg.tasks.all (·.settled) = true) :=
  ⟨mk [(pgLdg, LDG_STAT_DRAINING, 1)], by decide +kernel⟩

theorem met_acceptEnWrite : ∃ (s : State), (s.vis.placed = true) ∧ (s.cur.flag pgLdg LDG_STAT_RESTORED = true) :=
  ⟨mk (placedRegs ++ [(pgLdg, LDG_STAT_RESTORED, 1)]), by decide +kernel⟩

theorem met_acceptEnWriteEarly : ∃ (s : State), (s.vis.placed = true) ∧ (s.cur.flag pgLdg LDG_STAT_RESTORED = false) :=
  ⟨mk placedRegs, by decide +kernel⟩

theorem met_acceptEnWriteUnplaced : ∃ (s : State), (s.vis.placed = false) :=
  ⟨s0, by decide +kernel⟩

theorem met_ledgerRestore : ∃ (s : State), (s.cur.flag pgLdg LDG_STAT_RESTORED = false) ∧ (s.vis.placed = true) ∧ (s.vis.restoreWaits = false) ∧ (s.cur.restoreWaits = false) ∧ (s.cur.rsv.committing = false) ∧ (s.cur.foundCopies = []) ∧ (s.cur.ldg.tasks = []) ∧ (s.cur.ldg.journal = []) :=
  ⟨mk placedRegs, by decide +kernel⟩

theorem met_ledgerRestoreFirst : ∃ (corrupt : List (Nat × Nat)) (s : State), (s.cur.flag pgLdg LDG_STAT_RESTORED = false) ∧ (s.vis.placed = true) ∧ (s.vis.restoreWaits = false) ∧ (s.cur.restoreWaits = false) ∧ (s.cur.rsv.committing = false) ∧ ((((replayBays s.cur.foundCopies (restoreSeq s.cur.foundCopies corrupt)).any fun b => !(s.vis.bay b).recovering) = true)) :=
  ⟨[], sRestore false, by decide +kernel⟩

theorem met_ledgerRestoreCommit : ∃ (c : Commit) (s : State), (s.cur.flag pgLdg LDG_STAT_RESTORED = false) ∧ (s.vis.placed = true) ∧ (s.vis.restoreWaits = false) ∧ (s.cur.restoreWaits = false) ∧ (s.cur.rsv.committing = false) ∧ (s.cur.foundCopies = [c]) ∧ (s.cur.rsv.commits = [c]) ∧ (c.good = true) ∧ (c.replayed = false) ∧ (c.orderly = false) ∧ (c.bay < 4) ∧ ((s.vis.bay c.bay).recovering = true) :=
  ⟨cmt1, sRestore true, by decide +kernel⟩

theorem met_measPeriodExpiry : ∃ (s : State), (s.cur.flag pgBank BANK_CTL_MEAS_AUTO = true) ∧ (max 1 (s.cur.get pgBank BANK_MEAS_CFG_PERIOD_STONES) ≤ s.cur.rsv.periodStones) :=
  ⟨mk [] fun d => { d with rsv := { d.rsv with periodStones := 60000 } }, by decide +kernel⟩

theorem met_measStart : ∃ (s : State), (Dev.measMayStart s.vis s.cur = true) :=
  ⟨mk [(pgBank, BANK_STAT_STABLE, 1)], by decide +kernel⟩

theorem met_measResultFails : ∃ (v0 v1 v2 v3 : Nat) (s : State), (s.cur.flag pgBank BANK_STAT_MEAS_BUSY = true) ∧ (s.cur.rsv.measStart + s.cur.measGrains ≤ s.cur.gtime) ∧ (v0 ≤ v3 ∨ capOf s.cur.pulseMa s.cur.pulseGrains (v0 - v3) < s.cur.get pgBank BANK_PLAUS_C_MIN_UF * 1000 ∨ s.cur.get pgBank BANK_PLAUS_ESR_MAX_MOHM < min 0xFFFF ((v2 - v1) / s.cur.pulseMa)) :=
  ⟨5, 0, 0, 6, sMeas 0 0, by decide +kernel⟩

theorem met_measResultFirst : ∃ (v0 v1 v2 v3 c e : Nat) (s : State), (s.cur.flag pgBank BANK_STAT_MEAS_BUSY = true) ∧ (s.cur.rsv.measStart + s.cur.measGrains ≤ s.cur.gtime) ∧ (v3 < v0) ∧ (capOf s.cur.pulseMa s.cur.pulseGrains (v0 - v3) = c) ∧ (min 0xFFFF ((v2 - v1) / s.cur.pulseMa) = e) ∧ (s.cur.get pgBank BANK_PLAUS_C_MIN_UF * 1000 ≤ c) ∧ (e ≤ s.cur.get pgBank BANK_PLAUS_ESR_MAX_MOHM) ∧ (s.cur.flag pgRsv RSV_STAT_VALID = false) :=
  ⟨24000000, 23700000, 23718000, 23785200, 931098, 90, sMeas 0 0, by decide +kernel⟩

theorem met_measResultWorse : ∃ (v0 v1 v2 v3 c e : Nat) (s : State), (s.cur.flag pgBank BANK_STAT_MEAS_BUSY = true) ∧ (s.cur.rsv.measStart + s.cur.measGrains ≤ s.cur.gtime) ∧ (v3 < v0) ∧ (capOf s.cur.pulseMa s.cur.pulseGrains (v0 - v3) = c) ∧ (min 0xFFFF ((v2 - v1) / s.cur.pulseMa) = e) ∧ (s.cur.get pgBank BANK_PLAUS_C_MIN_UF * 1000 ≤ c) ∧ (e ≤ s.cur.get pgBank BANK_PLAUS_ESR_MAX_MOHM) ∧ (s.cur.flag pgRsv RSV_STAT_VALID = true) ∧ (s.cur.get pgBank BANK_C ≠ 0) ∧ (c ≤ s.cur.get pgBank BANK_C) ∧ (s.cur.get pgBank BANK_ESR_ESR_MOHM ≤ e) :=
  ⟨24000000, 23700000, 23718000, 23785200, 931098, 90, sMeas 1 931098, by decide +kernel⟩

theorem met_measResultBetter : ∃ (v0 v1 v2 v3 c e : Nat) (s : State), (s.cur.flag pgBank BANK_STAT_MEAS_BUSY = true) ∧ (s.cur.rsv.measStart + s.cur.measGrains ≤ s.cur.gtime) ∧ (v3 < v0) ∧ (capOf s.cur.pulseMa s.cur.pulseGrains (v0 - v3) = c) ∧ (min 0xFFFF ((v2 - v1) / s.cur.pulseMa) = e) ∧ (s.cur.get pgBank BANK_PLAUS_C_MIN_UF * 1000 ≤ c) ∧ (e ≤ s.cur.get pgBank BANK_PLAUS_ESR_MAX_MOHM) ∧ (s.cur.flag pgRsv RSV_STAT_VALID = true) ∧ (s.cur.get pgBank BANK_C ≠ 0) ∧ (s.cur.get pgBank BANK_C < c) ∧ (s.cur.rsv.candC = none) :=
  ⟨24000000, 23700000, 23718000, 23785200, 931098, 90, sMeas 1 900000, by decide +kernel⟩

theorem met_measResultConfirmed : ∃ (v0 v1 v2 v3 c e k : Nat) (s : State), (s.cur.flag pgBank BANK_STAT_MEAS_BUSY = true) ∧ (s.cur.rsv.measStart + s.cur.measGrains ≤ s.cur.gtime) ∧ (v3 < v0) ∧ (capOf s.cur.pulseMa s.cur.pulseGrains (v0 - v3) = c) ∧ (min 0xFFFF ((v2 - v1) / s.cur.pulseMa) = e) ∧ (s.cur.get pgBank BANK_PLAUS_C_MIN_UF * 1000 ≤ c) ∧ (e ≤ s.cur.get pgBank BANK_PLAUS_ESR_MAX_MOHM) ∧ (s.cur.flag pgRsv RSV_STAT_VALID = true) ∧ (s.cur.get pgBank BANK_C ≠ 0) ∧ (s.cur.get pgBank BANK_C < c) ∧ (s.cur.rsv.candC = some k) :=
  ⟨24000000, 23700000, 23718000, 23785200, 931098, 90, 920000, sMeasCand, by decide +kernel⟩

theorem met_powerFailAssert : ∃ (mv us : Nat) (s : State), (s.cur.rsv.pfLine = false) ∧ (s.cur.pwr.phase ≠ .off) ∧ (mv < s.cur.get pgBank BANK_PF_CFG_VMOT_FAIL_MV) ∧ (s.cur.get pgBank BANK_PF_CFG_DEBOUNCE_US ≤ us) :=
  ⟨5000, 20, s0, by decide +kernel⟩

theorem met_supplyLossCapture : ∃ (s : State), (s.cur.rsv.pfLine = true) ∧ (s.cur.flag pgRsv RSV_STAT_PF = false) ∧ (s.cur.clockOn = true) ∧ (s.cur.pwr.lossWake = false) ∧ ((∀ u ∈ s.cur.ldg.tasks, u.opc ≠ .append ∨ u.fetching = false)) :=
  ⟨mk [] fun d => { run d with rsv := { d.rsv with pfLine := true } }, by decide +kernel⟩

theorem met_commitSequence : ∃ (s : State), (s.cur.flag pgRsv RSV_STAT_PF = true) ∧ (s.cur.rsv.committing = false) ∧ (s.cur.flag pgLdg LDG_STAT_RESTORED = true) :=
  ⟨mk [(pgRsv, RSV_STAT_PF, 1), (pgLdg, LDG_STAT_RESTORED, 1), (pgBay 1, BAY_STAT_STATE, 5), (pgBay 2, BAY_STAT_STATE, 6)] run, by decide +kernel⟩

theorem met_commitSequenceEarly : ∃ (s : State), (s.cur.flag pgRsv RSV_STAT_PF = true) ∧ (s.cur.rsv.committing = false) ∧ (s.cur.flag pgLdg LDG_STAT_RESTORED = false) :=
  ⟨mk [(pgRsv, RSV_STAT_PF, 1)] run, by decide +kernel⟩

theorem met_commitSequenceIdle : ∃ (s : State), (s.cur.flag pgRsv RSV_STAT_PF = false) :=
  ⟨s0, by decide +kernel⟩

theorem met_closeRecordWrite : ∃ (b : Fin 4) (c : Commit) (s : State), (s.cur.rsv.committing = true) ∧ (s.cur.rsv.commits = [c]) ∧ (s.cur.copyOpen c = true) ∧ (c.bay = b.val) :=
  ⟨0, cmtOpen, sCommit, by decide +kernel⟩

theorem met_commitFloorReached : ∃ (mv : BitVec 16) (c : Commit) (s : State), (s.cur.rsv.committing = true) ∧ (s.cur.rsv.commits = [c]) ∧ (s.cur.copyOpen c = true) ∧ (mv.toNat ≤ s.cur.get pgRsv RSV_FLOOR_V_FLOOR_MV) :=
  ⟨8000, cmtOpen, sCommit, by decide +kernel⟩

theorem met_commitEnd : ∃ (mv : Nat) (s : State), (s.cur.rsv.committing = true) ∧ (s.cur.pwr.phase ≠ .off) ∧ (((s.cur.copies.any fun c => !c.closed && !c.failed) = false)) ∧ (s.cur.get pgBank BANK_PF_CFG_VMOT_FAIL_MV + 500 ≤ mv) :=
  ⟨6000, mk [] fun d => { d with rsv := { d.rsv with committing := true } }, by decide +kernel⟩

theorem met_commitEndOff : ∃ (mv : Nat) (s : State), (s.cur.rsv.committing = true) ∧ (s.cur.pwr.phase ≠ .off) ∧ (((s.cur.copies.any fun c => !c.closed && !c.failed) = false)) ∧ (mv < s.cur.get pgBank BANK_PF_CFG_VMOT_FAIL_MV + 500) :=
  ⟨5999, mk [] fun d => { d with rsv := { d.rsv with committing := true } }, by decide +kernel⟩

theorem met_packetFirstWord : ∃ (k : Fin 64) (p : Packet) (s : State), ((s.cur.fifo k).current = some p) ∧ (p.opened = false) :=
  ⟨0, pk3, sPacket false, by decide +kernel⟩

theorem met_packetLastWord : ∃ (k : Fin 64) (p : Packet) (u : TaskSt) (c : Nat) (s : State), ((s.cur.fifo k).packets = [p]) ∧ (p.closed = false) ∧ (p.opened = true) ∧ (p.stop = none) ∧ (s.cur.task p.lsn = some u) ∧ (p.bytes.length ≤ u.length) ∧ (c = crcRun (s.cur.ctx u.ctx).poly (s.cur.fifo k).work ((s.cur.source u u.length).drop p.bytes.length) 0) :=
  ⟨0, { pk3 with opened := true }, tkFetch, crcRun 0 0 ((sPacket true).cur.source tkFetch 100) 0, sPacket true, by decide +kernel⟩

theorem met_fkCfgWrite : ∃ (k : Fin 64) (v : Word) (s : State), (bits v.toNat 16 9 + bits v.toNat 0 10 ≤ 512) ∧ ((((List.range (bits v.toNat 0 10)).any fun i => s.vis.retiredItem 1 (bits v.toNat 16 9 + i)) = false)) ∧ ((∀ j, j < 64 → j = k.val ∨ unitsMeet (bits v.toNat 16 9) (bits v.toNat 0 10) (s.vis.get (pgFk j) FK_CFG_BASE_4K) (s.vis.unitSpan (s.vis.get (pgFk j) FK_CFG_BASE_4K) (s.vis.get (pgFk j) FK_CFG_SIZE_4K)) = false)) :=
  ⟨3, 0x00180004, s0, by decide +kernel⟩

theorem met_fkCfgWriteRange : ∃ (v : Word) (s : State), ((512 < bits v.toNat 16 9 + bits v.toNat 0 10 ∨ ((List.range (bits v.toNat 0 10)).any fun i => s.vis.retiredItem 1 (bits v.toNat 16 9 + i)) = true)) :=
  ⟨0x01FF0004, s0, by decide +kernel⟩

theorem met_fkCfgWriteOverlap : ∃ (k : Fin 64) (v : Word) (j : Fin 64) (s : State), (bits v.toNat 16 9 + bits v.toNat 0 10 ≤ 512) ∧ ((((List.range (bits v.toNat 0 10)).any fun i => s.vis.retiredItem 1 (bits v.toNat 16 9 + i)) = false)) ∧ (j ≠ k) ∧ (unitsMeet (bits v.toNat 16 9) (bits v.toNat 0 10) (s.vis.get (pgFk j) FK_CFG_BASE_4K) (s.vis.unitSpan (s.vis.get (pgFk j) FK_CFG_BASE_4K) (s.vis.get (pgFk j) FK_CFG_SIZE_4K)) = true) :=
  ⟨3, 0x00180009, 4, s0, by decide +kernel⟩

theorem met_fkDiagHiWrite : ∃ (k : Fin 64) (s : State), (s.cur.flag (pgFk k) FK_CTL_DIAG_EN = true) ∧ ((s.cur.fifo k).w - (s.cur.fifo k).s < s.cur.fifoWords k) :=
  ⟨0, mk [(pgFk 0, FK_CTL_DIAG_EN, 1)], by decide +kernel⟩

theorem met_fkDiagHiWriteFull : ∃ (k : Fin 64) (s : State), (s.cur.flag (pgFk k) FK_CTL_DIAG_EN = true) ∧ (s.cur.fifoWords k ≤ (s.cur.fifo k).w - (s.cur.fifo k).s) :=
  ⟨0, mk [(pgFk 0, FK_CTL_DIAG_EN, 1), (pgFk 0, FK_CFG_SIZE_4K, 0)], by decide +kernel⟩

theorem met_fkDiagEndWrite : ∃ (k : Fin 64) (s : State), (s.cur.flag (pgFk k) FK_CTL_DIAG_EN = true) :=
  ⟨0, mk [(pgFk 0, FK_CTL_DIAG_EN, 1)] fun d => d.updFifo 0 fun f => { f with diagParts := [1, 2] }, by decide +kernel⟩

theorem met_fkDiagLoRead : ∃ (k : Fin 64) (v : Nat) (l : List Nat) (s : State), (s.cur.flag (pgFk k) FK_CTL_DIAG_EN = true) ∧ ((s.cur.fifo k).d ≠ (s.cur.fifo k).w) ∧ ((s.cur.fifo k).diagParts = v :: l) ∧ ((s.cur.fifo k).diagPop = 0) :=
  ⟨0, 5, [6, 7, 8, 9, 10, 11, 12], mk [(pgFk 0, FK_CTL_DIAG_EN, 1)] fun d => d.updFifo 0 fun f => { f with diagParts := [5, 6, 7, 8, 9, 10, 11, 12], w := 1 }, by decide +kernel⟩

theorem met_cvRunLoRead : ∃ (k : Fin 8) (c : Nat) (s : State), (s.vis.get (pgCv k) CV_CTX_SEL_CTX = c) :=
  ⟨0, 0, s0, by decide +kernel⟩

theorem met_cvRunHiWrite : ∃ (k : Fin 8) (r : Requester) (lo : Word) (c : Nat) (s : State), (s.cur.tb.wrLatch.find? (·.1 == latchKey r (pgCv k + CV_RUN_LO.off)) = some (latchKey r (pgCv k + CV_RUN_LO.off), lo)) ∧ (s.cur.get (pgCv k) CV_CTX_SEL_CTX = c) :=
  ⟨0, .host, 4, 0, mk [] fun d => { d with tb := { d.tb with wrLatch := [(latchKey .host (pgCv 0 + CV_RUN_LO.off), 4)] } }, by decide +kernel⟩

theorem met_shaBlockAbsorb : ∃ (k : Fin 64) (p : Packet) (s : State), ((s.cur.fifo k).packets.find? (!·.hashed) = some p) ∧ ((s.cur.ctx p.ctx).sha = true) ∧ (s.cur.sliceBad 153 = false) ∧ ((s.cur.fifo k).h = p.start) ∧ (1 < p.words) :=
  ⟨0, pkSha, sSha, by decide +kernel⟩

theorem met_shaBlockAbsorbLast : ∃ (k : Fin 64) (p : Packet) (x : Sha) (s : State), ((s.cur.fifo k).packets = [p]) ∧ (p.hashed = false) ∧ (p.closed = true) ∧ ((s.cur.ctx p.ctx).sha = true) ∧ (s.cur.sliceBad 153 = false) ∧ ((s.cur.fifo k).h + 1 = p.start + p.words) ∧ (x = (s.cur.shaOf p.ctx).absorb ((p.bytes.drop (64 * (p.words - 1))).take 64) p.voidBytes) :=
  ⟨0, pkSha, (sShaLast.cur.shaOf 1).absorb ((pkSha.bytes.drop 64).take 64) 0, sShaLast, by decide +kernel⟩

theorem met_sealSignStart : ∃ (u : TaskSt) (s : State), (s.cur.rsv.committing = false) ∧ (s.cur.nextSeal = some u) ∧ (s.cur.stg.signing = none) ∧ (s.cur.sealReady u = true) ∧ (s.cur.flag pgRsv RSV_STAT_PF = false) ∧ (s.cur.sliceBad 154 = false) ∧ (s.cur.flag pgChk CHK_SEAL_STAT_KEY_OK = true) :=
  ⟨tkSealQ, sSeal 1, by decide +kernel⟩

theorem met_sealSignStartNoKey : ∃ (u : TaskSt) (s : State), (s.cur.rsv.committing = false) ∧ (s.cur.nextSeal = some u) ∧ (s.cur.stg.signing = none) ∧ (s.cur.sealReady u = true) ∧ (s.cur.flag pgRsv RSV_STAT_PF = false) ∧ (s.cur.sliceBad 154 = false) ∧ (s.cur.flag pgChk CHK_SEAL_STAT_KEY_OK = false) ∧ (s.cur.awaits u.lsn = true) :=
  ⟨tkSealQ, sSeal 0, by decide +kernel⟩

theorem met_sealSignDone : ∃ (lsn g : Nat) (u : TaskSt) (m : List Byte) (s : State), (s.cur.rsv.committing = false) ∧ (s.cur.stg.signing = some (lsn, g)) ∧ (s.cur.task lsn = some u) ∧ (u.destStopped = false) ∧ (m = (s.cur.manifest u g).take (min u.length 256)) :=
  ⟨3, 9, tkSealQ, (sSigning.cur.manifest tkSealQ 9).take 0, sSigning, by decide +kernel⟩

theorem met_sealSignDoneCopyFails : ∃ (lsn g : Nat) (u : TaskSt) (s : State), (s.cur.rsv.committing = false) ∧ (s.cur.stg.signing = some (lsn, g)) ∧ (s.cur.task lsn = some u) ∧ (u.destStopped = false) ∧ (0 < u.length) :=
  ⟨3, 9, tkSealC, sSigningC, by decide +kernel⟩

theorem met_sealSignDoneStopped : ∃ (lsn g : Nat) (u : TaskSt) (s : State), (s.cur.rsv.committing = false) ∧ (s.cur.stg.signing = some (lsn, g)) ∧ (s.cur.task lsn = some u) ∧ (u.destStopped = true) :=
  ⟨3, 9, tkSealS, sSigningS, by decide +kernel⟩

theorem met_sealSignDoneFault : ∃ (lsn g : Nat) (u : TaskSt) (s : State), (s.cur.rsv.committing = false) ∧ (s.cur.stg.signing = some (lsn, g)) ∧ (s.cur.task lsn = some u) ∧ (s.cur.awaits lsn = true) :=
  ⟨3, 9, tkSealQ, sSigning, by decide +kernel⟩

theorem met_rcpCmd : ∃ (k : Fin 17) (o : FlashOp) (w : Nat) (s : State), ((s.cur.instr k (fun x => x == 1) = some (o, w))) :=
  ⟨0, opR, 0x100000AA, fch opR 0x100000AA, by decide +kernel⟩

theorem met_rcpAddr : ∃ (k : Fin 17) (o : FlashOp) (w : Nat) (s : State), ((s.cur.instr k (fun x => x == 2) = some (o, w))) ∧ (bits w 26 2 = 2) :=
  ⟨0, opR, 0x28000000, fch opR 0x28000000, by decide +kernel⟩

theorem met_rcpAddrCol : ∃ (k : Fin 17) (o : FlashOp) (w : Nat) (s : State), ((s.cur.instr k (fun x => x == 2) = some (o, w))) ∧ (bits w 26 2 = 0) :=
  ⟨0, opR, 0x20000000, fch opR 0x20000000, by decide +kernel⟩

theorem met_rcpAddrRow : ∃ (k : Fin 17) (o : FlashOp) (w : Nat) (s : State), ((s.cur.instr k (fun x => x == 2) = some (o, w))) ∧ (bits w 26 2 = 1) :=
  ⟨0, opR, 0x24000000, fch opR 0x24000000, by decide +kernel⟩

theorem met_rcpAddrImm : ∃ (k : Fin 17) (o : FlashOp) (w : Nat) (s : State), ((s.cur.instr k (fun x => x == 2) = some (o, w))) ∧ (bits w 26 2 = 3) :=
  ⟨0, opR, 0x2C000040, fch opR 0x2C000040, by decide +kernel⟩

theorem met_rcpDin : ∃ (k : Fin 17) (o : FlashOp) (w : Nat) (pg : Nat × Nat × Nat × Nat) (p : ElemPage) (s : State), ((s.cur.instr k (fun x => x == 3) = some (o, w))) ∧ (bit w 27 = false) ∧ (o.page = some pg) ∧ (s.cur.pageOfOp pg = some p) ∧ (s.cur.burst (pfaBay o.pfa) (bits w 0 16) ≤ (s.cur.planeBytes (pfaBay o.pfa) o.plane p).length) ∧ (((planeCws (s.cur.get (pgBay (pfaBay o.pfa)) BAY_GEOM0_PAGE_CW) o.plane p).all (fun x => x.1.kind != 1) = true)) :=
  ⟨0, opDin, 0x30000004, (0, 4, 2, 1), pageP, fchDin, by decide +kernel⟩

theorem met_rcpDinStaged : ∃ (k : Fin 17) (o : FlashOp) (w : Nat) (pg : Nat × Nat × Nat × Nat) (p : ElemPage) (s : State), ((s.cur.instr k (fun x => x == 3) = some (o, w))) ∧ (bit w 27 = false) ∧ (o.page = some pg) ∧ (s.cur.pageOfOp pg = some p) ∧ (s.cur.burst (pfaBay o.pfa) (bits w 0 16) ≤ (s.cur.planeBytes (pfaBay o.pfa) o.plane p).length) :=
  ⟨0, opDin, 0x30000004, (0, 4, 2, 1), pageP, fchDin, by decide +kernel⟩

theorem met_rcpDinOpen : ∃ (k : Fin 17) (o : FlashOp) (w : Nat) (s : State), ((s.cur.instr k (fun x => x == 3) = some (o, w))) ∧ (bit w 27 = false) ∧ (o.page.bind s.cur.pageOfOp = none) :=
  ⟨0, opR, 0x30000004, fch opR 0x30000004, by decide +kernel⟩

theorem met_rcpDinBuf : ∃ (k : Fin 17) (o : FlashOp) (w : Nat) (s : State), ((s.cur.instr k (fun x => x == 3) = some (o, w))) ∧ (bit w 27 = true) ∧ (s.cur.burst (pfaBay o.pfa) (bits w 0 16) ≤ o.len) :=
  ⟨0, opBuf, 0x38000004, fch opBuf 0x38000004, by decide +kernel⟩

theorem met_rcpDout : ∃ (k : Fin 17) (o : FlashOp) (w : Nat) (s : State), ((s.cur.instr k (fun x => x == 4) = some (o, w))) ∧ (bit w 27 = false) :=
  ⟨0, opR, 0x40000000, fch opR 0x40000000, by decide +kernel⟩

theorem met_rcpDoutBuf : ∃ (k : Fin 17) (o : FlashOp) (w : Nat) (s : State), ((s.cur.instr k (fun x => x == 4) = some (o, w))) ∧ (bit w 27 = true) :=
  ⟨0, opBuf, 0x48000002, fch opBuf 0x48000002, by decide +kernel⟩

theorem met_rcpWait : ∃ (k : Fin 17) (o : FlashOp) (w : Nat) (s : State), ((s.cur.instr k (fun x => x == 5) = some (o, w))) :=
  ⟨0, opR, 0x50020010, fch opR 0x50020010, by decide +kernel⟩

theorem met_rcpData : ∃ (k : Fin 17) (o : FlashOp) (w : Nat) (s : State), ((s.cur.instr k (fun x => x == 8) = some (o, w))) :=
  ⟨0, opR, 0x80000033, fch opR 0x80000033, by decide +kernel⟩

theorem met_rcpPlane : ∃ (k : Fin 17) (o : FlashOp) (w : Nat) (s : State), ((s.cur.instr k (fun x => x == 9) = some (o, w))) ∧ (o.planes.length ≤ o.plane) :=
  ⟨0, opR, 0x90501110, fch opR 0x90501110, by decide +kernel⟩

theorem met_rcpPlaneMore : ∃ (k : Fin 17) (o : FlashOp) (w : Nat) (s : State), ((s.cur.instr k (fun x => x == 9) = some (o, w))) ∧ (o.plane < o.planes.length) :=
  ⟨0, opP, 0x90501110, fch opP 0x90501110, by decide +kernel⟩

theorem met_rcpRtdata : ∃ (k : Fin 17) (o : FlashOp) (w : Nat) (s : State), ((s.cur.instr k (fun x => x == 10) = some (o, w))) :=
  ⟨0, opR, 0xA0000003, fch opR 0xA0000003, by decide +kernel⟩

theorem met_rcpNop : ∃ (k : Fin 17) (o : FlashOp) (w : Nat) (s : State), ((s.cur.instr k (fun x => x == 15) = some (o, w))) :=
  ⟨0, opR, 0xF0000000, fch opR 0xF0000000, by decide +kernel⟩

theorem met_rcpYield : ∃ (k : Fin 17) (o : FlashOp) (w : Nat) (s : State), ((s.cur.instr k (fun x => x == 6) = some (o, w))) :=
  ⟨0, opR, 0x60010000, fch opR 0x60010000, by decide +kernel⟩

theorem met_rcpStatusBusy : ∃ (k : Fin 17) (o : FlashOp) (w : Nat) (x : Byte) (s : State), ((s.cur.instr k (fun x => x == 7) = some (o, w))) ∧ (o.kind ≠ .poll) ∧ (x.toNat &&& bits w 8 8 ≠ bits w 8 8) :=
  ⟨0, opR, 0x70006001, 0, fch opR 0x70006001, by decide +kernel⟩

theorem met_rcpStatus : ∃ (k : Fin 17) (o : FlashOp) (w : Nat) (x : Byte) (s : State), ((s.cur.instr k (fun x => x == 7) = some (o, w))) ∧ (o.kind = .poll ∨ (x.toNat &&& bits w 8 8 = bits w 8 8 ∧ x.toNat &&& bits w 0 8 = 0)) :=
  ⟨0, opR, 0x70006001, 0x60, fch opR 0x70006001, by decide +kernel⟩

theorem met_rcpStatusFail : ∃ (k : Fin 17) (o : FlashOp) (w : Nat) (x : Byte) (s : State), ((s.cur.instr k (fun x => x == 7) = some (o, w))) ∧ ((o.kind = .read ∧ o.acc = []) ∨ (o.kind = .erase ∧ o.page = none) ∨ o.kind = .reset) ∧ (x.toNat &&& bits w 8 8 = bits w 8 8) ∧ (x.toNat &&& bits w 0 8 ≠ 0) :=
  ⟨0, opR, 0x70006001, 0x61, fch opR 0x70006001, by decide +kernel⟩

theorem met_rcpBadOp : ∃ (k : Fin 17) (o : FlashOp) (w : Nat) (s : State), ((s.cur.instr k (fun x => 11 ≤ x && x ≤ 14) = some (o, w))) ∧ ((o.kind = .read ∧ o.acc = []) ∨ (o.kind = .erase ∧ o.page = none) ∨ o.kind = .reset) :=
  ⟨0, opR, 0xB0000000, fch opR 0xB0000000, by decide +kernel⟩

theorem met_rcpEnd : ∃ (k : Fin 17) (o : FlashOp) (w : Nat) (s : State), ((s.cur.instr k (fun x => x == 0) = some (o, w))) ∧ (o.pre = false) ∧ ((o.kind = .read ∧ o.acc = []) ∨ (o.kind = .erase ∧ o.page = none)) ∧ (pfaPhys o.pfa < 16) :=
  ⟨0, opR, 0, fch opR 0, by decide +kernel⟩

theorem met_rcpEndRetry : ∃ (k : Fin 17) (o : FlashOp) (w : Nat) (s : State), ((s.cur.instr k (fun x => x == 0) = some (o, w))) ∧ (o.pre = true) ∧ (pfaBay o.pfa < 4) :=
  ⟨0, opPre, 0, fch opPre 0, by decide +kernel⟩

theorem met_rcpEndProgram : ∃ (k : Fin 17) (o : FlashOp) (w : Nat) (pg : Nat × Nat × Nat × Nat) (s : State), ((s.cur.instr k (fun x => x == 0) = some (o, w))) ∧ (o.pre = false) ∧ (o.kind = .program) ∧ (o.page = some pg) :=
  ⟨0, opProg, 0, (0, 1, 2, 3), fch opProg 0, by decide +kernel⟩

theorem met_rcpEndManual : ∃ (k : Fin 17) (o : FlashOp) (w : Nat) (s : State), ((s.cur.instr k (fun x => x == 0) = some (o, w))) ∧ (o.pre = false) ∧ (o.kind = .manual) :=
  ⟨0, opMan, 0, fch opMan 0, by decide +kernel⟩

theorem met_rcpEndSuspend : ∃ (k : Fin 17) (o : FlashOp) (w : Nat) (s : State), ((s.cur.instr k (fun x => x == 0) = some (o, w))) ∧ (o.pre = false) ∧ (o.kind = .suspend) :=
  ⟨0, opSus, 0, fch opSus 0, by decide +kernel⟩

theorem met_rcpEndResume : ∃ (k : Fin 17) (o : FlashOp) (w : Nat) (s : State), ((s.cur.instr k (fun x => x == 0) = some (o, w))) ∧ (o.pre = false) ∧ (o.kind = .resume) :=
  ⟨0, opRes, 0, fch opRes 0, by decide +kernel⟩

theorem met_rcpEndReset : ∃ (k : Fin 17) (o : FlashOp) (w : Nat) (s : State), ((s.cur.instr k (fun x => x == 0) = some (o, w))) ∧ (o.pre = false) ∧ (o.kind = .reset) ∧ (pfaBay o.pfa < 4) :=
  ⟨0, opRst, 0, fch opRst 0, by decide +kernel⟩

theorem met_flashBusItem : ∃ (k : Fin 17) (id : Nat) (o : FlashOp) (l : List (Nat × Bool)) (s : State), ((s.cur.chan k).current = none) ∧ ((s.cur.chan k).plan = (id, false) :: l) ∧ (s.cur.op k id = some o) ∧ (lunTaken (s.cur.chan k).ops (s.cur.prepare k o) = false) ∧ (((s.cur.prepare k o).pfa :: (s.cur.prepare k o).planes).all s.cur.pfaOk = true) ∧ (o.kind ≠ .suspend) ∧ (o.kind ≠ .resume) :=
  ⟨0, 1, opQ, [], fchQ opQ false geom0, by decide +kernel⟩

theorem met_flashBusItemSuspend : ∃ (k : Fin 17) (id : Nat) (o : FlashOp) (l : List (Nat × Bool)) (u : FlashOp) (s : State), ((s.cur.chan k).current = none) ∧ ((s.cur.chan k).plan = (id, false) :: l) ∧ (s.cur.op k id = some o) ∧ (lunTaken (s.cur.chan k).ops (s.cur.prepare k o) = false) ∧ (((s.cur.prepare k o).pfa :: (s.cur.prepare k o).planes).all s.cur.pfaOk = true) ∧ (o.kind = .suspend) ∧ (o.target ≠ id) ∧ (s.cur.op k o.target = some u) :=
  ⟨0, 2, { opSus with stage := .queued }, [], opE, fchQs { opSus with stage := .queued } opE, by decide +kernel⟩

theorem met_flashBusItemResume : ∃ (k : Fin 17) (id : Nat) (o : FlashOp) (l : List (Nat × Bool)) (u : FlashOp) (s : State), ((s.cur.chan k).current = none) ∧ ((s.cur.chan k).plan = (id, false) :: l) ∧ (s.cur.op k id = some o) ∧ (lunTaken (s.cur.chan k).ops (s.cur.prepare k o) = false) ∧ (((s.cur.prepare k o).pfa :: (s.cur.prepare k o).planes).all s.cur.pfaOk = true) ∧ (o.kind = .resume) ∧ (o.target ≠ id) ∧ (s.cur.op k o.target = some u) :=
  ⟨0, 2, { opRes with stage := .queued }, [], opSd, fchQs { opRes with stage := .queued } opSd, by decide +kernel⟩

theorem met_flashBusItemRange : ∃ (k : Fin 17) (id : Nat) (o : FlashOp) (l : List (Nat × Bool)) (s : State), ((s.cur.chan k).current = none) ∧ ((s.cur.chan k).plan = (id, false) :: l) ∧ (s.cur.op k id = some o) ∧ (lunTaken (s.cur.chan k).ops (s.cur.prepare k o) = false) ∧ (((s.cur.prepare k o).pfa :: (s.cur.prepare k o).planes).all s.cur.pfaOk = false) ∧ ((o.kind = .read ∧ o.acc = []) ∨ (o.kind = .erase ∧ o.page = none) ∨ o.kind = .reset) :=
  ⟨0, 1, opQ, [], fchQ opQ false [], by decide +kernel⟩

theorem met_flashBusItemIdle : ∃ (k : Fin 17) (s : State), ((s.cur.chan k).current.isSome = true ∨ (s.cur.chan k).plan = []) :=
  ⟨0, s0, by decide +kernel⟩

theorem met_lunPoll : ∃ (k : Fin 17) (id : Nat) (o : FlashOp) (l : List (Nat × Bool)) (x : Byte) (s : State), ((s.cur.chan k).current = none) ∧ ((s.cur.chan k).plan = (id, true) :: l) ∧ (s.cur.op k id = some o) ∧ (s.cur.ready o x = true) :=
  ⟨0, 1, opY, [], 0x60, fchQ opY true [], by decide +kernel⟩

theorem met_lunPollBusy : ∃ (k : Fin 17) (id : Nat) (o : FlashOp) (l : List (Nat × Bool)) (x : Byte) (s : State), ((s.cur.chan k).current = none) ∧ ((s.cur.chan k).plan = (id, true) :: l) ∧ (s.cur.op k id = some o) ∧ (s.cur.ready o x = false) :=
  ⟨0, 1, opY, [], 0x40, fchQ opY true [], by decide +kernel⟩

theorem met_arrayTimeout : ∃ (k : Fin 17) (id n : Nat) (o : FlashOp) (s : State), (s.cur.op k id = some o) ∧ (s.cur.limitOf (pfaPhys o.pfa) o.expect = some n) ∧ (o.stage = .yielded) ∧ ((o.kind = .read ∧ o.acc = []) ∨ (o.kind = .erase ∧ o.page = none)) ∧ (pfaPhys o.pfa < 16) ∧ (o.started + n < s.cur.gtime) :=
  ⟨0, 1, 150, opT, fchT opT, by decide +kernel⟩

theorem met_arrayTimeoutNot : ∃ (k : Fin 17) (id n : Nat) (o : FlashOp) (s : State), (s.cur.op k id = some o) ∧ (o.stage ≠ .yielded ∨ o.kind = .suspend ∨ (s.cur.limitOf (pfaPhys o.pfa) o.expect = some n ∧ s.cur.gtime ≤ o.started + n)) :=
  ⟨0, 1, 150, opR, fchT opR, by decide +kernel⟩

theorem met_suspendWaitExpiry : ∃ (k : Fin 17) (id n : Nat) (o : FlashOp) (a z : Nat) (s : State), (s.cur.op k id = some o) ∧ (suspendSlots o = some (a, z)) ∧ (o.stage = .yielded) ∧ (s.cur.slotStart (pfaBay o.pfa) a ≠ 0) ∧ (s.cur.slotStart (pfaBay o.pfa) z ≠ 0) ∧ (s.vis.flag pgFsch FSCH_STAT_URGENT = false) ∧ (o.susp < s.cur.get (pgFch k) FCH_SUSP_MAX_SUSP) ∧ (n = s.cur.get (pgFch k) FCH_SUSP_SUSP_WAIT_G) ∧ (((s.cur.readsFor k o).any (fun r => r.stage == .queued && decide (r.queuedAt + n ≤ s.cur.gtime + 1)) = true)) ∧ (((s.cur.chan k).ops.any (fun x => x.kind == .suspend && x.target == id) = false)) :=
  ⟨0, 1, 4, opE, 17, 18, fchS opE, by decide +kernel⟩

theorem met_suspendWaitExpiryNot : ∃ (k : Fin 17) (s : State), (s.vis.flag pgFsch FSCH_STAT_URGENT = true ∨ s.cur.get (pgFch k) FCH_SUSP_MAX_SUSP = 0) :=
  ⟨0, mk [(pgFsch, FSCH_STAT_URGENT, 1)], by decide +kernel⟩

theorem met_suspendTimeout : ∃ (k : Fin 17) (id n : Nat) (o : FlashOp) (u : FlashOp) (x : Byte) (s : State), (s.cur.op k id = some o) ∧ (o.kind = .suspend) ∧ (o.stage = .yielded) ∧ (n = s.cur.get (pgFch k) FCH_ATO1_TSUSP_G) ∧ (o.started + n ≤ s.cur.gtime) ∧ (s.cur.op k o.target = some u) ∧ (u.kind = .erase) ∧ (u.page = none) ∧ (u.id ≠ id) ∧ (s.cur.ready o x = true) :=
  ⟨0, 2, 125, opSusY, opE, 0x60, fchSus, by decide +kernel⟩

theorem met_suspendTimeoutBusy : ∃ (k : Fin 17) (id n : Nat) (o : FlashOp) (u : FlashOp) (x : Byte) (s : State), (s.cur.op k id = some o) ∧ (o.kind = .suspend) ∧ (o.stage = .yielded) ∧ (n = s.cur.get (pgFch k) FCH_ATO1_TSUSP_G) ∧ (o.started + n ≤ s.cur.gtime) ∧ (s.cur.op k o.target = some u) ∧ (u.kind = .erase) ∧ (u.page = none) ∧ (u.id ≠ id) ∧ (s.cur.ready o x = false) :=
  ⟨0, 2, 125, opSusY, opE, 0x20, fchSus, by decide +kernel⟩

theorem met_operationResume : ∃ (k : Fin 17) (id a z : Nat) (o : FlashOp) (s : State), (s.cur.op k id = some o) ∧ (suspendSlots o = some (a, z)) ∧ (o.stage = .suspended) ∧ (s.cur.readsFor k o = []) ∧ (((s.cur.chan k).ops.any (fun x => x.kind == .resume && x.target == id) = false)) :=
  ⟨0, 1, 17, 18, opSd, fchR opSd, by decide +kernel⟩

theorem met_operationResumeNot : ∃ (k : Fin 17) (id : Nat) (o : FlashOp) (s : State), (s.cur.op k id = some o) ∧ (o.stage ≠ .suspended ∨ s.cur.readsFor k o ≠ []) :=
  ⟨0, 1, opE, fchR opE, by decide +kernel⟩

theorem met_phyTrain : ∃ (k : Fin 17) (wr rd : Byte) (s : State), (s.cur.get (pgFch k) FCH_PHY_CFG_MODE ≠ 0) ∧ (30 ≤ wr.toNat) ∧ (30 ≤ rd.toNat) :=
  ⟨3, 40, 41, mk [(pgFch 3, FCH_PHY_CFG_MODE, 1)], by decide +kernel⟩

theorem met_phyTrainFail : ∃ (k : Fin 16) (wr rd : Byte) (s : State), (s.cur.get (pgFch k) FCH_PHY_CFG_MODE ≠ 0) ∧ (wr.toNat < 30 ∨ rd.toNat < 30) ∧ (s.cur.bayState (k.val / 4) = 3) :=
  ⟨3, 20, 41, mk [(pgFch 3, FCH_PHY_CFG_MODE, 1), (pgBay 0, BAY_STAT_STATE, 3)], by decide +kernel⟩

theorem met_bayRcpDataWrite : ∃ (b : Fin 4) (s : State), (s.vis.bayState b ≠ 5) ∧ (s.vis.bayState b ≠ 6) :=
  ⟨1, s0, by decide +kernel⟩

theorem met_bayRcpDataWriteBusy : ∃ (b : Fin 4) (s : State), (s.vis.bayState b = 5 ∨ s.vis.bayState b = 6) :=
  ⟨1, mk [(pgBay 1, BAY_STAT_STATE, 5)], by decide +kernel⟩

theorem met_sequencerFail : ∃ (k : Fin 16) (s : State), (s.cur.flag (pgFch 16) FCH_SPARE_ACTIVE = false) ∧ ((s.cur.chan 16).disabled = false) ∧ ((s.cur.chan 16).ops.any (·.kind == .manual) = false) ∧ (((s.cur.chan k).ops.any (fun o => o.stage == .onBus && o.kind == .program) = false)) :=
  ⟨5, s0, by decide +kernel⟩

theorem met_sequencerFailCut : ∃ (k : Fin 16) (o : FlashOp) (s : State), (s.cur.flag (pgFch 16) FCH_SPARE_ACTIVE = false) ∧ ((s.cur.chan 16).disabled = false) ∧ ((s.cur.chan 16).ops.any (·.kind == .manual) = false) ∧ ((s.cur.chan k).ops = [o]) ∧ (o.stage = .onBus) ∧ (o.kind = .program) :=
  ⟨0, opProg, fchR opProg, by decide +kernel⟩

theorem met_sequencerFailManual : ∃ (o : FlashOp) (s : State), (s.cur.flag (pgFch 16) FCH_SPARE_ACTIVE = false) ∧ ((s.cur.chan 16).disabled = false) ∧ ((s.cur.chan 16).ops.find? (·.kind == .manual) = some o) :=
  ⟨opMan, mk [] fun d => d.updChan 16 fun c => { c with ops := [opMan] }, by decide +kernel⟩

theorem met_sequencerFailSecond : ∃ (s : State), (s.cur.flag (pgFch 16) FCH_SPARE_ACTIVE = true ∨ (s.cur.chan 16).disabled = true) ∧ ((s.cur.chan 16).ops.any (·.kind == .manual) = false) :=
  ⟨mk [(pgFch 16, FCH_SPARE_ACTIVE, 1)], by decide +kernel⟩

theorem met_sequencerFailSpare : ∃ (s : State), (s.cur.flag (pgFch 16) FCH_SPARE_ACTIVE = false) ∧ ((s.cur.chan 16).ops.any (·.kind == .manual) = false) :=
  ⟨s0, by decide +kernel⟩

theorem met_spareTakeover : ∃ (k : Fin 17) (g : Nat) (s : State), ((s.cur.chan k).failedAt = some g) ∧ ((s.cur.chan k).isolated = true) ∧ (g + 25 ≤ s.cur.gtime) :=
  ⟨0, 1, fchIso, by decide +kernel⟩

theorem met_spareTakeoverEarly : ∃ (k : Fin 17) (g : Nat) (s : State), ((s.cur.chan k).failedAt = some g) ∧ (s.cur.gtime < g + 25) :=
  ⟨0, 8, mk [] fun d => d.updChan 0 fun c => { c with failedAt := some 8 }, by decide +kernel⟩

theorem met_manualGo : ∃ (k : Fin 16) (v : Word) (pfa : Nat) (s : State), (bit v.toNat 1 = true) ∧ (s.cur.flag (pgFch k) SEQ_STAT_BUSY = false) ∧ (s.cur.starts (pgFch k) = true) ∧ (s.cur.get64 (pgFch k) SEQ_BUF_LO SEQ_BUF_HI % 64 = 0) ∧ (k.val * 2 ^ 60 + s.cur.get64 (pgFch k) SEQ_ARG_LO SEQ_ARG_HI % 2 ^ 60 = pfa) ∧ (writesSlot (bits v.toNat 16 5) = false ∨ s.vis.bayState (pfaBay pfa) = 5) ∧ (((s.cur.chan (pfaPhys pfa)).ops.all (fun o => o.kind == .manual || lunBit o.pfa != lunBit pfa) = true)) :=
  ⟨0, 0x000B0003, 0, sManual 0 0, by decide +kernel⟩

theorem met_manualGoFault : ∃ (v : Word) (pfa : Nat) (s : State), (bit v.toNat 1 = true) ∧ (s.cur.flag (pgFch 16) SEQ_STAT_BUSY = false) ∧ (s.cur.starts (pgFch 16) = true) ∧ (s.cur.get64 (pgFch 16) SEQ_BUF_LO SEQ_BUF_HI % 64 = 0) ∧ (s.cur.get64 (pgFch 16) SEQ_ARG_LO SEQ_ARG_HI = pfa) ∧ (writesSlot (bits v.toNat 16 5) = false) ∧ (((s.cur.chan (pfaPhys pfa)).ops.all (fun o => o.kind == .manual || lunBit o.pfa != lunBit pfa) = true)) ∧ (s.cur.flag (pgFch 16) FCH_SPARE_ACTIVE = false) ∧ (s.vis.bayState (pfaBay pfa) = 9) :=
  ⟨0x000B0003, 0, sManual 16 9, by decide +kernel⟩

theorem met_manualGoReady : ∃ (v : Word) (pfa : Nat) (s : State), (bit v.toNat 1 = true) ∧ (s.cur.flag (pgFch 16) SEQ_STAT_BUSY = false) ∧ (s.cur.starts (pgFch 16) = true) ∧ (s.cur.get64 (pgFch 16) SEQ_BUF_LO SEQ_BUF_HI % 64 = 0) ∧ (s.cur.get64 (pgFch 16) SEQ_ARG_LO SEQ_ARG_HI = pfa) ∧ (writesSlot (bits v.toNat 16 5) = false) ∧ (((s.cur.chan (pfaPhys pfa)).ops.all (fun o => o.kind == .manual || lunBit o.pfa != lunBit pfa) = true)) ∧ (s.cur.flag (pgFch 16) FCH_SPARE_ACTIVE = false) ∧ (s.vis.bayState (pfaBay pfa) = 4) :=
  ⟨0x000B0003, 0, sManual 16 4, by decide +kernel⟩

theorem met_manualGoRefused : ∃ (k : Fin 16) (v : Word) (pfa : Nat) (s : State), (bit v.toNat 1 = true) ∧ (s.cur.flag (pgFch k) SEQ_STAT_BUSY = false) ∧ (s.cur.starts (pgFch k) = true) ∧ (s.cur.get64 (pgFch k) SEQ_BUF_LO SEQ_BUF_HI % 64 = 0) ∧ (k.val * 2 ^ 60 + s.cur.get64 (pgFch k) SEQ_ARG_LO SEQ_ARG_HI % 2 ^ 60 = pfa) ∧ (((writesSlot (bits v.toNat 16 5) = true ∧ s.vis.bayState (pfaBay pfa) ≠ 5) ∨ (s.cur.chan (pfaPhys pfa)).ops.any (fun o => o.kind != .manual && lunBit o.pfa == lunBit pfa) = true)) :=
  ⟨0, 0x00060003, 0, sManual 0 0, by decide +kernel⟩

theorem met_manualOpEnd : ∃ (k : Fin 16) (code b : Nat) (s : State), ((s.cur.chan k).manualEnd = some (code, b)) ∧ (code < 256) :=
  ⟨0, 2, 0, mk [] fun d => d.updChan 0 fun c => { c with manualEnd := some (2, 0) }, by decide +kernel⟩

theorem met_manualOpEndPower : ∃ (code b : Nat) (s : State), ((s.cur.chan 16).manualEnd = some (code, b)) ∧ (code < 256) ∧ (b < 4) ∧ ((s.cur.bay b).manualPower.isSome = true) :=
  ⟨2, 1, mk [] fun d => (d.updChan 16 fun c => { c with manualEnd := some (2, 1) }).updBay 1 fun x => { x with pwren := true, manualPower := some { since := 0 } }, by decide +kernel⟩

theorem met_bayPresenceLow : ∃ (b : Fin 4) (s : State), (s.cur.bayState b = 0) ∧ (5 ≤ s.cur.su.step) :=
  ⟨1, sRun, by decide +kernel⟩

theorem met_bayPresenceLowOther : ∃ (b : Fin 4) (s : State), (s.cur.bayState b ≠ 0 ∨ s.cur.su.step < 5) :=
  ⟨1, s0, by decide +kernel⟩

theorem met_bayPresenceHigh : ∃ (b : Fin 4) (s : State), (s.cur.bayState b = 1) :=
  ⟨1, mk [(pgBay 1, BAY_STAT_STATE, 1)], by decide +kernel⟩

theorem met_bayPresenceHighOther : ∃ (b : Fin 4) (s : State), (s.cur.bayState b ≠ 1) :=
  ⟨1, s0, by decide +kernel⟩

theorem met_insertDebounceExpiry : ∃ (b : Fin 4) (s : State), (s.cur.bayState b = 1) ∧ ((s.cur.bay b).presLow = true) ∧ ((s.cur.bay b).presSince + s.cur.get (pgBay b) BAY_PRES_CFG_INS_DEB_G ≤ s.cur.gtime + 1) ∧ (s.cur.flag (pgBay b) BAY_CTL_ARM = true) :=
  ⟨1, sIns, by decide +kernel⟩

theorem met_bayArmWrite : ∃ (b : Fin 4) (s : State), (s.cur.bayState b = 1) ∧ ((s.cur.bay b).presLow = true) ∧ ((s.cur.bay b).presSince + s.cur.get (pgBay b) BAY_PRES_CFG_INS_DEB_G ≤ s.cur.gtime + 1) :=
  ⟨1, sIns, by decide +kernel⟩

theorem met_insertDebounceExpiryUnarmed : ∃ (b : Fin 4) (s : State), (s.cur.bayState b = 1) ∧ ((s.cur.bay b).presLow = true) ∧ ((s.cur.bay b).presSince + s.cur.get (pgBay b) BAY_PRES_CFG_INS_DEB_G ≤ s.cur.gtime + 1) ∧ (s.cur.flag (pgBay b) BAY_CTL_ARM = false) :=
  ⟨1, sInsOff, by decide +kernel⟩

theorem met_bayPgood : ∃ (b : Fin 4) (s : State), ((s.cur.bay b).pwren = true) :=
  ⟨1, mk [] fun d => d.updBay 1 fun x => { x with pwren := true }, by decide +kernel⟩

theorem met_bayPgoodOff : ∃ (b : Fin 4) (s : State), ((s.cur.bay b).pwren = false) :=
  ⟨1, s0, by decide +kernel⟩

theorem met_baySettleExpiry : ∃ (b : Fin 4) (g : Nat) (s : State), (s.cur.bayState b = 2) ∧ ((s.cur.bay b).goodAt = some g) ∧ (g + s.cur.get (pgBay b) BAY_PWR_CFG_SETTLE_G ≤ s.cur.gtime) :=
  ⟨1, 0, sSettle, by decide +kernel⟩

theorem met_bayPgTimeout : ∃ (b : Fin 4) (s : State), (s.cur.bayState b = 2) ∧ ((s.cur.bay b).goodAt = none) ∧ ((s.cur.bay b).since + s.cur.get (pgBay b) BAY_PWR_CFG_PG_TO_G ≤ s.cur.gtime) :=
  ⟨1, sPgTo, by decide +kernel⟩

theorem met_bayPgTimeoutManual : ∃ (b : Fin 4) (p : BayPower) (o : FlashOp) (s : State), (s.cur.bayState b ≠ 2) ∧ ((s.cur.bay b).manualPower = some p) ∧ (p.goodAt = none) ∧ (p.since + s.cur.get (pgBay b) BAY_PWR_CFG_PG_TO_G ≤ s.cur.gtime) ∧ (((s.cur.chan 16).ops.find? (fun o => o.kind == .manual && pfaBay o.pfa == b.val) = some o)) :=
  ⟨0, { since := 3 }, opMan, sManTo, by decide +kernel⟩

theorem met_bayWriteEnWrite : ∃ (b : Fin 4) (s : State), (s.vis.flag pgRsv RSV_STAT_PF = false) ∧ (s.cur.flag pgRsv RSV_STAT_PF = false) ∧ (s.cur.bayState b = 4) ∧ (s.cur.flag (pgFstr b) FSTR_STAT_BLANK = false) ∧ (s.cur.flag (pgBay b) BAY_CTL_RELEASE = false) ∧ ((s.cur.setB (pgBay b) BAY_CTL_WRITE_EN true).canWrite b = true) :=
  ⟨1, sReady false, by decide +kernel⟩

theorem met_bayWriteEnWriteBlank : ∃ (b : Fin 4) (s : State), (s.vis.flag pgRsv RSV_STAT_PF = false) ∧ (s.cur.flag pgRsv RSV_STAT_PF = false) ∧ (s.cur.bayState b = 4) ∧ (s.cur.flag (pgFstr b) FSTR_STAT_BLANK = true) ∧ (s.cur.flag (pgBay b) BAY_CTL_RELEASE = false) :=
  ⟨1, sReady true, by decide +kernel⟩

theorem met_bayWriteEnWriteOff : ∃ (b : Fin 4) (x : Nat) (s : State), (s.vis.flag pgRsv RSV_STAT_PF = false) ∧ (s.cur.flag pgRsv RSV_STAT_PF = false) ∧ (s.cur.bayState b = 5) ∧ (s.vis.targetBay b = some x) :=
  ⟨1, 0, mk [(pgBay 1, BAY_STAT_STATE, 5), (pgBay 0, BAY_STAT_STATE, 5)], by decide +kernel⟩

theorem met_bayRelease : ∃ (b : Fin 4) (x : Nat) (s : State), (s.vis.flag pgRsv RSV_STAT_PF = false) ∧ (s.cur.flag pgRsv RSV_STAT_PF = false) ∧ (s.cur.bayState b = 5) ∧ (s.vis.targetBay b = some x) :=
  ⟨1, 0, mk [(pgBay 1, BAY_STAT_STATE, 5), (pgBay 0, BAY_STAT_STATE, 5)], by decide +kernel⟩

theorem met_bayReleaseReady : ∃ (b : Fin 4) (s : State), (s.vis.flag pgRsv RSV_STAT_PF = false) ∧ (s.cur.flag pgRsv RSV_STAT_PF = false) ∧ (s.cur.bayState b = 4 ∨ s.cur.bayState b = 8 ∨ s.cur.bayState b = 9) ∧ (s.cur.bayOps b = []) :=
  ⟨1, mk [(pgBay 1, BAY_STAT_STATE, 4)], by decide +kernel⟩

theorem met_bayReleaseLoss : ∃ (s : State), (s.cur.flag pgRsv RSV_STAT_PF = true) :=
  ⟨mk [(pgBay 1, BAY_STAT_STATE, 4), (pgRsv, RSV_STAT_PF, 1)], by decide +kernel⟩

theorem met_bayReleasingDone : ∃ (b : Fin 4) (s : State), (s.vis.flag pgRsv RSV_STAT_PF = false) ∧ (s.cur.flag pgRsv RSV_STAT_PF = false) ∧ (s.cur.bayState b = 6) ∧ (s.cur.heldIn b = 0) ∧ ((s.cur.ldg.background.any (fun x => x.bay == some b.val) = false)) ∧ (s.cur.bayOps b = []) ∧ (((s.cur.bmap b).stripes.all (fun x => !x.isOpen) = true)) :=
  ⟨1, mk [(pgBay 1, BAY_STAT_STATE, 6), (pgBay 1, BAY_CTL_RELEASE, 1)], by decide +kernel⟩

theorem met_bayReleasingDoneHeld : ∃ (b : Fin 4) (s : State), (0 < s.cur.heldIn b ∨ s.vis.flag pgRsv RSV_STAT_PF = true) :=
  ⟨1, mk [(pgRsv, RSV_STAT_PF, 1)], by decide +kernel⟩

theorem met_bayRemovalDebounce : ∃ (b : Fin 4) (g : Nat) (s : State), ((s.cur.bay b).absentSince = some g) ∧ (g + max 1 (s.cur.get (pgBay b) BAY_PRES_CFG_REM_DEB_G) ≤ s.cur.gtime + 1) ∧ (s.cur.bayState b = 7 ∨ s.cur.bayState b = 9) :=
  ⟨1, 0, sGone 7, by decide +kernel⟩

theorem met_bayRemovalDebounceForced : ∃ (b : Fin 4) (g x : Nat) (s : State), ((s.cur.bay b).absentSince = some g) ∧ (g + max 1 (s.cur.get (pgBay b) BAY_PRES_CFG_REM_DEB_G) ≤ s.cur.gtime + 1) ∧ (2 ≤ s.cur.bayState b) ∧ (s.cur.bayState b ≤ 6 ∨ s.cur.bayState b = 8) ∧ (s.cur.rsv.committing = false) ∧ (s.vis.targetBay b = some x) :=
  ⟨1, 0, 0, sGone 5, by decide +kernel⟩

theorem met_bayRemovalDebounceCommit : ∃ (b : Fin 4) (g : Nat) (x y : Commit) (s : State), ((s.cur.bay b).absentSince = some g) ∧ (g + max 1 (s.cur.get (pgBay b) BAY_PRES_CFG_REM_DEB_G) ≤ s.cur.gtime + 1) ∧ (2 ≤ s.cur.bayState b) ∧ (s.cur.bayState b ≤ 6 ∨ s.cur.bayState b = 8) ∧ (s.cur.rsv.committing = true) ∧ (s.cur.rsv.commits = [x, y]) ∧ (x.bay = b.val) ∧ (y.bay ≠ b.val) ∧ (s.cur.copyOpen x = true) ∧ (s.cur.copyOpen y = true) ∧ (s.cur.bayDrains y.bay = true) :=
  ⟨1, 0, cmtB, { cmtB with bay := 0 }, sGoneCommit, by decide +kernel⟩

theorem met_bayRemovalDebounceEarly : ∃ (b : Fin 4) (g : Nat) (s : State), ((s.cur.bay b).absentSince = some g) ∧ (s.cur.gtime + 1 < g + max 1 (s.cur.get (pgBay b) BAY_PRES_CFG_REM_DEB_G)) :=
  ⟨1, 20, sGoneEarly, by decide +kernel⟩

theorem met_bayRemovalDebounceNot : ∃ (b : Fin 4) (s : State), ((s.cur.bay b).absentSince = none) :=
  ⟨1, s0, by decide +kernel⟩

theorem met_bayBecomesWritable : ∃ (b : Fin 4) (x : Nat) (s : State), (s.vis.bayState b = 5) ∧ (s.vis.bestBay = some x) :=
  ⟨0, 0, mk [(pgBay 0, BAY_STAT_STATE, 5)], by decide +kernel⟩

theorem met_bayBecomesWritableNot : ∃ (b : Fin 4) (s : State), (s.vis.bayState b ≠ 5) :=
  ⟨0, s0, by decide +kernel⟩

theorem met_bayIdentifyFail : ∃ (b : Fin 4) (ts us : List Target) (z : Bool) (code : Nat) (s : State), (s.cur.bayState b = 3) ∧ ((us = ts.filter (fun x => targetKind x != 0))) ∧ ((z = us.all (fun x => s.cur.get (pgFch (4 * b.val + x.chan.val)) FCH_PHY_CFG_MODE == 0 || s.cur.flag (pgFch (4 * b.val + x.chan.val)) FCH_TRAIN_TRAINED))) ∧ (identCheck us z = .inl code) ∧ (code < 16) :=
  ⟨1, [], [], true, 1, mk [(pgBay 1, BAY_STAT_STATE, 3)], by decide +kernel⟩

theorem met_bayIdentify : ∃ (b : Fin 4) (ts us : List Target) (z : Bool) (g : Geom) (x : Target) (i : Nat) (s : State), (s.cur.bayState b = 3) ∧ ((us = ts.filter (fun x => targetKind x != 0))) ∧ ((z = us.all (fun x => s.cur.get (pgFch (4 * b.val + x.chan.val)) FCH_PHY_CFG_MODE == 0 || s.cur.flag (pgFch (4 * b.val + x.chan.val)) FCH_TRAIN_TRAINED))) ∧ (identCheck us z = .inr (g, x, i)) ∧ (g.pagesPerBlock < 2 ^ 16) ∧ (g.blocksPerLun < 2 ^ 16) ∧ (g.blockBits < 32) ∧ (g.pageBits < 16) ∧ (g.pageBytes ≤ 32768) :=
  ⟨1, [tgt], [tgt], true, geo, tgt, 0, mk [(pgBay 1, BAY_STAT_STATE, 3)], by decide +kernel, by decide +kernel, by decide +kernel, ident_tgt, by decide +kernel⟩

theorem met_bayIdentifyNot : ∃ (b : Fin 4) (s : State), (s.cur.bayState b ≠ 3) :=
  ⟨1, s0, by decide +kernel⟩

theorem met_codewordRead : ∃ (c : Fin 16) (met : Option (Nat × Nat)) (x : Codec) (a : Access) (i n : Nat) (s : State), (s.cur.fls.codecs[c] = some x) ∧ (s.cur.accessOf x.access = some a) ∧ (a.bay < 4) ∧ (s.cur.fls.decode = []) ∧ (met = some (i, n)) ∧ (i ≤ x.limit) ∧ (a.readBad = false) ∧ (a.why.isPart = false) ∧ (a.step = 1) ∧ (n ≤ s.cur.get pgFint FINT_VERIFY_REFRESH_BITS) :=
  ⟨0, some (5, 4), cdc, acc1, 5, 4, sCw (acc1), by decide +kernel⟩

theorem met_codewordReadRefresh : ∃ (c : Fin 16) (met : Option (Nat × Nat)) (x : Codec) (a : Access) (i n : Nat) (s : State), (s.cur.fls.codecs[c] = some x) ∧ (s.cur.accessOf x.access = some a) ∧ (a.bay < 4) ∧ (s.cur.fls.decode = []) ∧ (met = some (i, n)) ∧ (i ≤ x.limit) ∧ (a.readBad = false) ∧ (a.why.isPart = false) ∧ (a.step = 1) ∧ (s.cur.get pgFint FINT_VERIFY_REFRESH_BITS < n) :=
  ⟨0, some (5, 90), cdc, acc1, 5, 90, sCw (acc1), by decide +kernel⟩

theorem met_codewordReadRetry : ∃ (c : Fin 16) (met : Option (Nat × Nat)) (x : Codec) (a : Access) (i n : Nat) (s : State), (s.cur.fls.codecs[c] = some x) ∧ (s.cur.accessOf x.access = some a) ∧ (a.bay < 4) ∧ (s.cur.fls.decode = []) ∧ (met = some (i, n)) ∧ (i ≤ x.limit) ∧ (a.readBad = false) ∧ (a.why.isPart = false) ∧ (a.step = 2) :=
  ⟨0, some (5, 4), cdc, { acc1 with step := 2, entry := 3, tried := [0, 1, 2, 3] }, 5, 4, sCw ({ acc1 with step := 2, entry := 3, tried := [0, 1, 2, 3] }), by decide +kernel⟩

theorem met_codewordReadSoft : ∃ (c : Fin 16) (met : Option (Nat × Nat)) (x : Codec) (a : Access) (i n : Nat) (s : State), (s.cur.fls.codecs[c] = some x) ∧ (s.cur.accessOf x.access = some a) ∧ (a.bay < 4) ∧ (s.cur.fls.decode = []) ∧ (met = some (i, n)) ∧ (i ≤ x.limit) ∧ (a.readBad = false) ∧ (a.why.isPart = false) ∧ (a.step = 3) :=
  ⟨0, some (5, 4), cdc, { acc1 with step := 3 }, 5, 4, sCw ({ acc1 with step := 3 }), by decide +kernel⟩

theorem met_codewordReadParity : ∃ (c : Fin 16) (met : Option (Nat × Nat)) (x : Codec) (a : Access) (i n : Nat) (s : State), (s.cur.fls.codecs[c] = some x) ∧ (s.cur.accessOf x.access = some a) ∧ (a.bay < 4) ∧ (s.cur.fls.decode = []) ∧ (met = some (i, n)) ∧ (i ≤ x.limit) ∧ (a.readBad = false) ∧ (a.why.isPart = false) ∧ (a.step = 4) ∧ (s.cur.isDead a.bay (s.cur.tableAt a.bay a.stripe a.element).1 = false) :=
  ⟨0, some (5, 4), cdc, { acc1 with step := 4 }, 5, 4, sCw ({ acc1 with step := 4 }), by decide +kernel⟩

theorem met_codewordReadWalk : ∃ (c : Fin 16) (met : Option (Nat × Nat)) (x : Codec) (a : Access) (e : Nat) (s : State), (s.cur.fls.codecs[c] = some x) ∧ (s.cur.accessOf x.access = some a) ∧ (a.bay < 4) ∧ (s.cur.fls.decode = []) ∧ ((met.all (fun m => a.readBad || decide (x.limit < m.1)) = true)) ∧ (a.step < 3) ∧ (s.cur.slotStart a.bay 19 ≠ 0) ∧ (a.tried.length ≤ s.cur.get pgFint FINT_RETRY_WALK_MAX) ∧ (a.tried.length < 16) ∧ (e = ((a.tried.head?).getD 0 + a.tried.length) % 16) :=
  ⟨0, none, cdc, acc1, 1, sCw (acc1), by decide +kernel⟩

theorem met_codewordReadSoftStart : ∃ (c : Fin 16) (met : Option (Nat × Nat)) (x : Codec) (a : Access) (s : State), (s.cur.fls.codecs[c] = some x) ∧ (s.cur.accessOf x.access = some a) ∧ (a.bay < 4) ∧ (s.cur.fls.decode = []) ∧ ((met.all (fun m => a.readBad || decide (x.limit < m.1)) = true)) ∧ (a.step < 3) ∧ (s.cur.slotStart a.bay 19 ≠ 0) ∧ (s.cur.get pgFint FINT_RETRY_WALK_MAX < a.tried.length ∨ 16 ≤ a.tried.length) ∧ (s.cur.get pgFint FINT_RETRY_SOFT_DELTA ≠ 0) :=
  ⟨0, none, cdc, { acc1 with step := 2, tried := List.replicate 16 0 }, sCw ({ acc1 with step := 2, tried := List.replicate 16 0 }), by decide +kernel⟩

theorem met_codewordReadParityStart : ∃ (c : Fin 16) (met : Option (Nat × Nat)) (x : Codec) (a : Access) (r : Row) (s : State), (s.cur.fls.codecs[c] = some x) ∧ (s.cur.accessOf x.access = some a) ∧ (a.bay < 4) ∧ (s.cur.fls.decode = []) ∧ ((met.all (fun m => a.readBad || decide (x.limit < m.1)) = true)) ∧ (a.step = 3 ∨ (a.step < 3 ∧ s.cur.slotStart a.bay 19 = 0)) ∧ (a.why.isPart = false) ∧ (a.id < s.cur.fls.nextAccess) ∧ (s.cur.rowAt a.bay a.stripe a.row = some r) ∧ (r.parity = true) ∧ (s.cur.get64 (pgFstr a.bay) FSTR_DEAD_LO FSTR_DEAD_HI = 0) :=
  ⟨0, none, cdc, { acc1 with step := 3 }, rowW, sCw ({ acc1 with step := 3 }), by decide +kernel⟩

theorem met_codewordReadLost : ∃ (c : Fin 16) (met : Option (Nat × Nat)) (x : Codec) (a : Access) (w : Codeword) (z : Nat) (s : State), (s.cur.fls.codecs[c] = some x) ∧ (s.cur.accessOf x.access = some a) ∧ (a.bay < 4) ∧ (s.cur.fls.decode = []) ∧ ((met.all (fun m => a.readBad || decide (x.limit < m.1)) = true)) ∧ (a.step = 4) ∧ (a.why.isPart = false) ∧ (s.cur.isDead a.bay (s.cur.tableAt a.bay a.stripe a.element).1 = false) ∧ (s.cur.accessCw a = some w) ∧ (z = s.cur.lsnAt w.lane w.offset) :=
  ⟨0, none, cdc, { acc1 with step := 4 }, cwA, 0, sCw ({ acc1 with step := 4 }), by decide +kernel⟩

theorem met_codewordReadPart : ∃ (c : Fin 16) (met : Option (Nat × Nat)) (x : Codec) (a : Access) (i n : Nat) (p : Access) (s : State), (s.cur.fls.codecs[c] = some x) ∧ (s.cur.accessOf x.access = some a) ∧ (a.bay < 4) ∧ (s.cur.fls.decode = []) ∧ (met = some (i, n)) ∧ (i ≤ x.limit) ∧ (a.readBad = false) ∧ (a.why = .part p.id) ∧ (a.id ≠ p.id) ∧ (s.cur.accessOf p.id = some p) ∧ (p.parts = [a.id]) ∧ (p.partFailed = false) ∧ (s.cur.sliceBad (131 + c.val) = false) ∧ (s.cur.prt.testing.any (·.1 == 131 + c.val) = false) :=
  ⟨0, some (5, 4), cdc, { acc1 with why := .part 2 }, 5, 4, accP, sCwP, by decide +kernel⟩

theorem met_codewordReadNext : ∃ (c : Fin 16) (x : Codec) (z : Nat) (s : State), (s.cur.fls.codecs[c] = some x) ∧ (s.cur.accessOf x.access = none) ∧ (s.cur.fls.decode = [z]) ∧ (s.cur.sliceBad (131 + c.val) = false) ∧ (s.cur.prt.testing.any (·.1 == 131 + c.val) = false) ∧ ((((List.range c.val).all fun i => !s.cur.codecFree i) = true)) :=
  ⟨0, { cdc with access := 9 }, 1, sCwNext, by decide +kernel⟩

theorem met_codewordReadIdle : ∃ (c : Fin 16) (s : State), (s.cur.fls.codecs[c] = none) :=
  ⟨0, s0, by decide +kernel⟩

theorem met_scrubRead : ∃ (b : Fin 4) (st r e cw : Nat) (x : Row) (p : ElemPage) (s : State), (s.cur.get pgFint FINT_SCRUB_SCRUB_H ≠ 0) ∧ (s.cur.rowAt b st r = some x) ∧ (x.parity = true) ∧ (p ∈ x.pages) ∧ (p.element = e) ∧ (p.verified = true) ∧ (cw < p.cws.length) ∧ (s.cur.isDead b (s.cur.tableAt b st e).1 = false) :=
  ⟨0, 4, 2, 1, 0, rowW, pageV, sCw acc1, by decide +kernel⟩

theorem met_scrubReadOff : ∃ (b : Fin 4) (st r : Nat) (s : State), (s.cur.get pgFint FINT_SCRUB_SCRUB_H = 0 ∨ s.cur.rowAt b st r = none) :=
  ⟨0, 4, 2, mk [(pgFint, FINT_SCRUB_SCRUB_H, 0)], by decide +kernel⟩

theorem met_programVerify : ∃ (b : Fin 4) (st r e : Nat) (cws : List (Option (Nat × Nat × List Byte))) (p : ElemPage) (s : State), (s.cur.pageOfOp (b.val, st, r, e) = some p) ∧ (p.full = true) ∧ (((s.cur.bayOps b).any (fun o => o.kind == .verify && o.page == some (b.val, st, r, e)) = false)) ∧ (s.cur.rebuiltPage b st r e = false) ∧ (p.verified = false) ∧ (p.programmed = true) ∧ (p.failed = false) ∧ (s.cur.miswritten b p cws = false) ∧ (s.cur.verifyBad p cws = false) :=
  ⟨0, 4, 2, 1, [some (1, 3, [])], pageN, sStripe stN, by decide +kernel⟩

theorem met_programVerifyBad : ∃ (b : Fin 4) (st r e : Nat) (cws : List (Option (Nat × Nat × List Byte))) (p : ElemPage) (y : Stripe) (s : State), (s.cur.pageOfOp (b.val, st, r, e) = some p) ∧ (p.full = true) ∧ (((s.cur.bayOps b).any (fun o => o.kind == .verify && o.page == some (b.val, st, r, e)) = false)) ∧ (s.cur.rebuiltPage b st r e = false) ∧ (p.verified = false) ∧ (s.cur.stripe b st = some y) ∧ (p.programmed = true ∨ p.failed = true) ∧ (p.failed = true ∨ s.cur.miswritten b p cws = true ∨ s.cur.verifyBad p cws = true) ∧ ((y.rows.all (fun z => z.closed || (decide (r ≤ z.row) && !z.parity)) = true)) :=
  ⟨0, 4, 2, 1, [none], pageA, stA, sStripe stA, by decide +kernel⟩

theorem met_programVerifyRebuilt : ∃ (b : Fin 4) (st r e : Nat) (cws : List (Option (Nat × Nat × List Byte))) (p : ElemPage) (s : State), (s.cur.pageOfOp (b.val, st, r, e) = some p) ∧ (p.full = true) ∧ (((s.cur.bayOps b).any (fun o => o.kind == .verify && o.page == some (b.val, st, r, e)) = false)) ∧ (s.cur.rebuiltPage b st r e = true) ∧ (s.cur.miswritten b p cws = false) ∧ (s.cur.verifyBad p cws = false) :=
  ⟨0, 4, 2, 1, [], pageN, sRebPage, by decide +kernel⟩

theorem met_programVerifyNot : ∃ (b : Fin 4) (st r e : Nat) (s : State), ((s.cur.pageOfOp (b.val, st, r, e) = none ∨ (s.cur.bayOps b).any (fun o => o.kind == .verify && o.page == some (b.val, st, r, e)) = true)) :=
  ⟨0, 4, 2, 1, s0, by decide +kernel⟩

theorem met_rowCloseExpiry : ∃ (b : Fin 4) (st r : Nat) (x : Row) (s : State), (s.cur.rowAt b st r = some x) ∧ (x.closed = false) ∧ (x.pages.all (·.cws.isEmpty) = false) ∧ (x.since + max 1 (s.cur.get (pgFstr b) FSTR_ROW_ROW_CLOSE_G) ≤ s.cur.gtime) ∧ ((s.cur.bmap b).deltas = []) :=
  ⟨0, 4, 2, rowOpen, sStripe stOpen, by decide +kernel⟩

theorem met_rowCloseExpiryNot : ∃ (b : Fin 4) (st r : Nat) (x : Row) (s : State), (s.cur.rowAt b st r = some x) ∧ (x.closed = true ∨ x.pages.all (·.cws.isEmpty) = true ∨ s.cur.gtime < x.since + 1) :=
  ⟨0, 4, 2, rowA, sStripe stA, by decide +kernel⟩

theorem met_parityProgram : ∃ (b : Fin 4) (st r : Nat) (x : Row) (s : State), (s.cur.rowAt b st r = some x) ∧ (x.row = r) ∧ (x.closed = true) ∧ (x.parityQueued = false) ∧ (x.pages.all (·.verified) = true) ∧ (s.cur.isDead b (s.cur.tableAt b st (parityElem (s.cur.width b) r)).1 = false) :=
  ⟨0, 4, 2, rowV, sStripe stV, by decide +kernel⟩

theorem met_parityProgramNot : ∃ (b : Fin 4) (st r : Nat) (x : Row) (s : State), (s.cur.rowAt b st r = some x) ∧ (x.closed = false ∨ x.parityQueued = true ∨ x.pages.all (·.verified) = false) :=
  ⟨0, 4, 2, rowA, sStripe stA, by decide +kernel⟩

theorem met_entrySettle : ∃ (lsn b : Nat) (u : TaskSt) (s : State), (s.cur.rsv.committing = false) ∧ (s.cur.task lsn = some u) ∧ ((s.vis.task lsn).bind (·.bay) = some b) ∧ (u.bay = some b) ∧ (u.settled = false) ∧ (s.vis.isPlaced u = true) ∧ (s.cur.isPlaced u = true) ∧ (s.vis.allVerified b lsn = true) ∧ (u.opc ≠ .append) ∧ (u.changesLane = false) :=
  ⟨3, 1, { tk .mark with bay := some 1 }, sSettleRec .mark, by decide +kernel⟩

theorem met_entrySettleLane : ∃ (lsn : Nat) (b : Fin 4) (u : TaskSt) (s : State), (s.cur.rsv.committing = false) ∧ (s.cur.task lsn = some u) ∧ ((s.vis.task lsn).bind (·.bay) = some b.val) ∧ (u.bay = some b.val) ∧ (u.settled = false) ∧ (s.vis.isPlaced u = true) ∧ (s.cur.isPlaced u = true) ∧ (s.vis.allVerified b lsn = true) ∧ (u.opc ≠ .append) ∧ (u.changesLane = true) :=
  ⟨3, 1, { tk .seal with bay := some 1 }, sSettleRec .seal, by decide +kernel⟩

theorem met_entrySettleAppend : ∃ (lsn b : Nat) (u : TaskSt) (p : Packet) (s : State), (s.cur.rsv.committing = false) ∧ (s.cur.task lsn = some u) ∧ ((s.vis.task lsn).bind (·.bay) = some b) ∧ (u.bay = some b) ∧ (u.settled = false) ∧ (s.vis.isPlaced u = true) ∧ (s.cur.isPlaced u = true) ∧ (s.vis.allVerified b lsn = true) ∧ (u.opc = .append) ∧ (s.vis.mc.extents.contains lsn = true) ∧ ((s.cur.fifo u.fifo).packets.find? (·.lsn == lsn) = some p) :=
  ⟨3, 0, { tkAppend with bay := some 0 }, { pk3 with opened := true, closed := true }, sSettle2, by decide +kernel⟩

theorem met_entrySettleNot : ∃ (lsn b : Nat) (u : TaskSt) (s : State), (s.cur.task lsn = some u) ∧ (u.bay = some b) ∧ (s.vis.isPlaced u = false ∨ s.vis.allVerified b lsn = false) :=
  ⟨3, 0, { tkAppend with bay := some 0 }, sSettleNot, by decide +kernel⟩

theorem met_baleGather : ∃ (lane bale : Nat) (g : Gather) (s : State), ((s.cur.fls.gathers.find? (fun g => g.lane == lane && g.bale == bale) = some g)) ∧ (g.bay < 4) ∧ (bale < 2) ∧ (g.delta = none) ∧ (g.count ≠ 0) ∧ (s.vis.fls.gathers.contains g = true) ∧ (s.vis.gatherVerified g = true) ∧ (s.cur.memNat (s.cur.descAddr lane + 64 + 16 * bale + 10) 6 = 0) ∧ (((s.cur.baleCws lane bale).all (fun c => !c.unrec) = true)) :=
  ⟨7, 0, gat1, sGather, by decide +kernel⟩

theorem met_baleGatherStart : ∃ (b : Fin 4) (lane bale : Nat) (s : State), ((s.cur.fls.gathers.find? (fun g => g.lane == lane && g.bale == bale) = none)) ∧ (s.vis.flag pgFsch FSCH_STAT_URGENT = false) ∧ (s.cur.gatherReady b lane bale = true) ∧ (s.cur.get64 (pgFstr 0) FSTR_DEAD_LO FSTR_DEAD_HI = 0) ∧ ((s.cur.bmap 1).stripes = []) ∧ ((s.cur.bmap 2).stripes = []) ∧ ((s.cur.bmap 3).stripes = []) ∧ (s.cur.baleHome lane bale = none) :=
  ⟨0, 7, 0, sGatherReady, by decide +kernel⟩

theorem met_baleGatherNot : ∃ (b : Fin 4) (lane bale : Nat) (s : State), ((s.cur.fls.gathers.find? (fun g => g.lane == lane && g.bale == bale) = none)) ∧ (s.cur.gatherReady b lane bale = false ∨ s.vis.flag pgFsch FSCH_STAT_URGENT = true) :=
  ⟨0, 7, 0, s0, by decide +kernel⟩

theorem met_stripeReclaim : ∃ (b : Fin 4) (st : Nat) (x : Stripe) (s : State), (s.cur.stripe b st = some x) ∧ (s.vis.flag pgFsch FSCH_STAT_URGENT = false) ∧ (x.isOpen = false) ∧ (x.rows.all (·.parity) = true) ∧ (s.cur.takesData b = true) ∧ (x.erasing = false) ∧ (x.reading = false) ∧ (x.bale = false) ∧ (x.reclaim = true ∨ s.cur.fewLive b x = true) ∧ (s.cur.get64 (pgFstr b) FSTR_DEAD_LO FSTR_DEAD_HI = 0) :=
  ⟨0, 4, stV1, sStripe stV1, by decide +kernel⟩

theorem met_stripeReclaimMove : ∃ (b : Fin 4) (st : Nat) (x : Stripe) (s : State), (s.cur.stripe b st = some x) ∧ (s.vis.flag pgFsch FSCH_STAT_URGENT = false) ∧ (x.isOpen = false) ∧ (x.rows.all (·.parity) = true) ∧ (s.cur.takesData b = true) ∧ (x.erasing = false) ∧ (x.reading = true) ∧ ((s.cur.fls.accesses.any (fun a => a.why == .reclaim b st) = false)) ∧ (x.bale = true ∨ s.cur.liveCws b x ++ s.cur.carriedCws b x = []) :=
  ⟨0, 4, { stR with reading := true }, sStripe { stR with reading := true }, by decide +kernel⟩

theorem met_stripeReclaimErase : ∃ (b : Fin 4) (st : Nat) (x : Stripe) (l : List Nat) (s : State), (s.cur.stripe b st = some x) ∧ (s.vis.flag pgFsch FSCH_STAT_URGENT = false) ∧ (x.isOpen = false) ∧ (x.rows.all (·.parity) = true) ∧ (s.cur.takesData b = true) ∧ (x.erasing = true) ∧ (x.eraseLeft = none) ∧ (x.rows = []) ∧ (s.cur.beingRead b x = false) ∧ ((l = (List.range (s.cur.width b)).filter (fun e => !s.cur.isDead b (s.cur.tableAt b st e).1 && (s.cur.bset b (s.cur.tableAt b st e).1 (s.cur.tableAt b st e).2).state != .retired))) :=
  ⟨0, 4, stEr none, [0, 1, 2, 3], sStripe (stEr none), by decide +kernel⟩

theorem met_stripeReclaimFree : ∃ (b : Fin 4) (st : Nat) (x : Stripe) (l : List Nat) (s : State), (s.cur.stripe b st = some x) ∧ (s.vis.flag pgFsch FSCH_STAT_URGENT = false) ∧ (x.isOpen = false) ∧ (x.rows.all (·.parity) = true) ∧ (s.cur.takesData b = true) ∧ (x.id = st) ∧ (x.erasing = true) ∧ (x.eraseLeft = some l) ∧ ((l.all (fun e => x.erased.any (·.1 == e)) = true)) ∧ (x.erased.all (·.2) = true) ∧ (((List.range (s.cur.width b)).all (fun e => !(s.cur.bset b (s.cur.tableAt b st e).1 (s.cur.tableAt b st e).2).retire && decide ((s.cur.bset b (s.cur.tableAt b st e).1 (s.cur.tableAt b st e).2).erases + s.cur.width b < s.cur.get (pgFstr b) FSTR_THRESH_PE_LIMIT)) = true)) ∧ (s.cur.get (pgBay b) BAY_FREE < 2 ^ 32 - 1) :=
  ⟨0, 4, stEr (some [0, 1, 2, 3]), [0, 1, 2, 3], sStripe (stEr (some [0, 1, 2, 3])), by decide +kernel⟩

theorem met_stripeReclaimNot : ∃ (b : Fin 4) (st : Nat) (x : Stripe) (s : State), (s.cur.stripe b st = some x) ∧ (x.isOpen = true ∨ s.vis.flag pgFsch FSCH_STAT_URGENT = true) :=
  ⟨0, 4, stOpen, sStripe stOpen, by decide +kernel⟩

theorem met_staleRecordWrite : ∃ (lane : Nat) (s : State), ((s.cur.lane lane).state = .reclaiming) ∧ ((s.vis.lane lane).state = .reclaiming) ∧ ((s.cur.ldg.tasks.any (fun k => k.opc == .release && k.lane == lane && bit k.flags 2 && !k.settled) = false)) ∧ ((s.cur.ldg.background.any (fun x => x.kind == .stale && x.lane == lane) = false)) ∧ (s.cur.looksBelow lane (s.cur.lane lane).reclaimLsn = false) :=
  ⟨7, sStale, by decide +kernel⟩

theorem met_staleRecordWriteNot : ∃ (lane : Nat) (s : State), (((s.cur.lane lane).state ≠ .reclaiming ∨ s.cur.ldg.tasks.any (fun k => k.opc == .release && k.lane == lane && bit k.flags 2 && !k.settled) = true ∨ s.cur.ldg.background.any (fun x => x.kind == .stale && x.lane == lane) = true ∨ s.cur.looksBelow lane (s.cur.lane lane).reclaimLsn = true)) :=
  ⟨7, s0, by decide +kernel⟩

theorem met_dieLost : ∃ (b : Fin 4) (x : Fin 64) (s : State), (s.cur.dieCause b x = true) ∧ (s.cur.isDead b x.val = false) ∧ (x.val < s.cur.dieCount b) ∧ ((s.cur.bmap b).rebuild = none) :=
  ⟨0, 1, sDie, by decide +kernel⟩

theorem met_dieLostNot : ∃ (b : Fin 4) (x : Fin 64) (s : State), (s.cur.dieCause b x = false ∨ s.cur.isDead b x = true) :=
  ⟨0, 1, s0, by decide +kernel⟩

theorem met_fstrDieFailGo : ∃ (b : Fin 4) (v : Word) (s : State), (s.cur.isDead b (bits v.toNat 0 6) = false) ∧ ((bits v.toNat 0 6) < s.cur.dieCount b) ∧ ((s.cur.bmap b).rebuild = none) :=
  ⟨0, 0x80000001, sDie, by decide +kernel⟩

theorem met_dieRebuild : ∃ (b : Fin 4) (s : State), ((s.vis.bmap b).rebuild ≠ none) :=
  ⟨0, sRebuild [], by decide +kernel⟩

theorem met_dieRebuildNot : ∃ (b : Fin 4) (s : State), ((s.vis.bmap b).rebuild = none) :=
  ⟨0, s0, by decide +kernel⟩

theorem met_rebuildStripeDone : ∃ (b : Fin 4) (r q : Rebuild) (st : Nat) (l : List Nat) (z : Nat × Nat) (s : State), ((s.cur.bmap b).rebuild = some r) ∧ (r.left = st :: l) ∧ (r.place = some z) ∧ (r.written = true) ∧ (r.failed = false) ∧ (r.pages.all (·.2.2) = true) ∧ ((s.vis.bmap b).rebuild = some q) ∧ (q.place = some z) ∧ (q.pages.all (·.2.2) = true) ∧ (s.cur.flag (pgFstr b) FSTR_REBUILD_ACTIVE = true) ∧ (z.2 < 65536) :=
  ⟨0, reb4, reb4, 4, [], (8, 2), sRebuiltAll, by decide +kernel⟩

theorem met_rebuildComplete : ∃ (b : Fin 4) (r : Rebuild) (s : State), ((s.cur.bmap b).rebuild = some r) ∧ (r.left = []) ∧ ((s.cur.bmap b).waiting = []) ∧ (s.cur.flag (pgFstr b) FSTR_REBUILD_ACTIVE = true) :=
  ⟨0, { die := 1, left := [] }, sRebuild [], by decide +kernel⟩

theorem met_rebuildCompleteNext : ∃ (b : Fin 4) (r : Rebuild) (x : Nat) (l : List Nat) (s : State), ((s.cur.bmap b).rebuild = some r) ∧ (r.left = []) ∧ ((s.cur.bmap b).waiting = x :: l) ∧ (x < 64) ∧ (s.cur.flag (pgFstr b) FSTR_REBUILD_ACTIVE = true) :=
  ⟨0, { die := 1, left := [] }, 2, [], sRebWait, by decide +kernel⟩

theorem met_bayFormat : ∃ (b : Fin 4) (w : Nat) (s : State), (s.cur.flag (pgFstr b) FSTR_STAT_FORMATTING = true) ∧ ((s.cur.bmap b).formatStep = 1) ∧ (w = max 4 (min 16 (s.cur.get (pgFstr b) FSTR_CFG_WIDTH))) :=
  ⟨0, 4, sFormat 1, by decide +kernel⟩

theorem met_commitAreaPrepare : ∃ (b : Fin 4) (a : Fin 2) (s : State), (s.cur.slotStart b 20 ≠ 0) ∧ (s.cur.slotStart b 21 ≠ 0) ∧ (s.cur.slotStart b 22 ≠ 0) ∧ (s.cur.flag (pgFstr b) FSTR_STAT_MAP_OK = true) ∧ (s.cur.restorePoint b a = false) ∧ (s.cur.flag (pgFstr b) FSTR_STAT_FORMATTING = true) ∧ (s.cur.flag (pgBay b) BAY_CTL_RELEASE = false) ∧ (s.cur.bayState b = 4) :=
  ⟨0, 1, sFormat 2, by decide +kernel⟩

theorem met_commitAreaPrepareWritable : ∃ (b : Fin 4) (a : Fin 2) (s : State), (s.cur.slotStart b 20 ≠ 0) ∧ (s.cur.slotStart b 21 ≠ 0) ∧ (s.cur.slotStart b 22 ≠ 0) ∧ (s.cur.flag (pgFstr b) FSTR_STAT_MAP_OK = true) ∧ (s.cur.restorePoint b a = false) ∧ (s.vis.flag pgRsv RSV_STAT_PF = false) ∧ (s.cur.flag pgRsv RSV_STAT_PF = false) ∧ (s.cur.flag (pgFstr b) FSTR_STAT_FORMATTING = false) ∧ (s.cur.flag (pgFstr b) FSTR_STAT_BLANK = false) ∧ (s.cur.flag (pgFstr b) FSTR_STAT_FULL_RO = false) ∧ (s.cur.flag (pgBay b) BAY_CTL_WRITE_EN = true) ∧ (s.cur.flag (pgBay b) BAY_CTL_RELEASE = false) ∧ (s.cur.bayState b = 4) ∧ ((s.cur.bay b).recovering = false) ∧ (((s.cur.bmap b).areas[1 - a.val]?).map (·.ready) = some true) :=
  ⟨0, 1, sPrepare 4, by decide +kernel⟩

theorem met_commitAreaPrepareFail : ∃ (b : Fin 4) (a : Fin 2) (s : State), (s.cur.slotStart b 20 ≠ 0) ∧ (s.cur.slotStart b 21 ≠ 0) ∧ (s.cur.slotStart b 22 ≠ 0) ∧ (s.cur.flag (pgFstr b) FSTR_STAT_MAP_OK = true) ∧ (s.cur.restorePoint b a = false) ∧ (s.cur.bayState b ≠ 5) :=
  ⟨0, 1, sFormat 2, by decide +kernel⟩

theorem met_commitAreaPrepareFailWritable : ∃ (b : Fin 4) (a : Fin 2) (s : State), (s.cur.slotStart b 20 ≠ 0) ∧ (s.cur.slotStart b 21 ≠ 0) ∧ (s.cur.slotStart b 22 ≠ 0) ∧ (s.cur.flag (pgFstr b) FSTR_STAT_MAP_OK = true) ∧ (s.cur.restorePoint b a = false) ∧ (s.cur.bayState b = 5) ∧ (s.vis.flag pgRsv RSV_STAT_PF = false) ∧ (s.cur.flag pgRsv RSV_STAT_PF = false) :=
  ⟨0, 1, sPrepare 5, by decide +kernel⟩

theorem met_commitAreaPrepareEmpty : ∃ (b : Fin 4) (a : Fin 2) (s : State), (s.cur.slotStart b 20 = 0 ∨ s.cur.slotStart b 21 = 0 ∨ s.cur.slotStart b 22 = 0 ∨ s.cur.restorePoint b a = true) :=
  ⟨0, 1, mk [] fun d => d.setRecipe 0 20 0, by decide +kernel⟩

theorem met_wearLevel : ∃ (b : Fin 4) (y : Stripe) (s : State), (s.cur.get (pgFstr b) FSTR_WEAR_PE_MIN + s.cur.get (pgFstr b) FSTR_WL_WL_SPREAD < s.cur.get (pgFstr b) FSTR_WEAR_PE_MAX) ∧ ((s.cur.bmap b).stripes = [y]) ∧ (y.isOpen = false) :=
  ⟨0, stR, stOf (((sStripe stR).cur.put (pgFstr 0) FSTR_WEAR_PE_MAX 900).put (pgFstr 0) FSTR_WL_WL_SPREAD 200), by decide +kernel⟩

theorem met_wearLevelNot : ∃ (b : Fin 4) (s : State), (s.cur.get (pgFstr b) FSTR_WEAR_PE_MAX ≤ s.cur.get (pgFstr b) FSTR_WEAR_PE_MIN + s.cur.get (pgFstr b) FSTR_WL_WL_SPREAD) :=
  ⟨0, s0, by decide +kernel⟩

theorem met_cacheRequestRange : ∃ (a : Nat) (s : State), (a < extBase ∨ extBase + s.cur.extSize ≤ a) :=
  ⟨64, s0, by decide +kernel⟩

theorem met_cacheRequest : ∃ (st : Fin 32) (a : Nat) (x : CLine) (s : State), (extBase ≤ a) ∧ (a < extBase + s.cur.extSize) ∧ (s.cur.flag pgDdr PG_STAT_FAULT = false) ∧ (s.cur.mc.stalled.any (·.stream == st.val) = false) ∧ (s.cur.lookup (a / 64) = some x) :=
  ⟨1, 0x800000000, ⟨3, 0x40000, false⟩, mk [] fun d => d.setCset 0 { lines := [⟨3, 0x40000, false⟩] }, by decide +kernel⟩

theorem met_cacheRequestEvicted : ∃ (st : Fin 32) (a : Nat) (e : Evict) (y : Nat) (s : State), (extBase ≤ a) ∧ (a < extBase + s.cur.extSize) ∧ (s.cur.flag pgDdr PG_STAT_FAULT = false) ∧ (s.cur.mc.stalled.any (·.stream == st.val) = false) ∧ (s.cur.flag pgMc MC_CTL_ENABLE = true) ∧ (s.cur.flag pgMc MC_STAT_DRAINING = false) ∧ (s.cur.lookup (a / 64) = none) ∧ (s.cur.mc.evict.find? (·.line == a / 64) = some e) ∧ (e.line = a / 64) ∧ ((s.cur.cset (setOf (a / 64))).lines = []) ∧ (victim (s.cur.cset (setOf (a / 64))) (s.cur.barred (setOf (a / 64))) = some y) :=
  ⟨1, 0x800000000, { line := 0x20000000, dirty := true }, 0, mk [] fun d => { d with mc := { d.mc with evict := [{ line := 0x20000000, dirty := true }] } }, by decide +kernel⟩

theorem met_cacheRequestMiss : ∃ (st : Fin 32) (a : Nat) (s : State), (extBase ≤ a) ∧ (a < extBase + s.cur.extSize) ∧ (s.cur.flag pgDdr PG_STAT_FAULT = false) ∧ (s.cur.mc.stalled.any (·.stream == st.val) = false) ∧ (s.cur.flag pgMc MC_CTL_ENABLE = true) ∧ (s.cur.flag pgMc MC_STAT_DRAINING = false) ∧ (s.cur.lookup (a / 64) = none) ∧ (s.cur.mc.evict.any (·.line == a / 64) = false) ∧ (s.cur.mc.miss = none) :=
  ⟨1, 0x80000A040, mk [], by decide +kernel⟩

theorem met_cacheRequestWait : ∃ (st : Fin 32) (a : Nat) (l : List CReq) (s : State), (extBase ≤ a) ∧ (a < extBase + s.cur.extSize) ∧ (s.cur.flag pgDdr PG_STAT_FAULT = false) ∧ (s.cur.mc.stalled.any (·.stream == st.val) = false) ∧ (s.cur.flag pgMc MC_CTL_ENABLE = true) ∧ (s.cur.flag pgMc MC_STAT_DRAINING = false) ∧ (s.cur.lookup (a / 64) = none) ∧ (s.cur.mc.evict.any (·.line == a / 64) = false) ∧ (s.cur.mc.miss = some l) ∧ (l.any (·.line == a / 64) = true) :=
  ⟨1, 0x800000040, [⟨2, 0x20000001, true⟩], mk [] fun d => { d with mc := { d.mc with miss := some [⟨2, 0x20000001, true⟩] } }, by decide +kernel⟩

theorem met_cacheRequestStall : ∃ (st : Fin 32) (a : Nat) (l : List CReq) (s : State), (extBase ≤ a) ∧ (a < extBase + s.cur.extSize) ∧ (s.cur.flag pgDdr PG_STAT_FAULT = false) ∧ (s.cur.mc.stalled.any (·.stream == st.val) = false) ∧ (s.cur.flag pgMc MC_CTL_ENABLE = true) ∧ (s.cur.flag pgMc MC_STAT_DRAINING = false) ∧ (s.cur.lookup (a / 64) = none) ∧ (s.cur.mc.evict.any (·.line == a / 64) = false) ∧ (s.cur.mc.miss = some l) ∧ (l.any (·.line == a / 64) = false) :=
  ⟨1, 0x800000080, [⟨2, 0x20000001, true⟩], mk [] fun d => { d with mc := { d.mc with miss := some [⟨2, 0x20000001, true⟩] } }, by decide +kernel⟩

theorem met_cacheRequestBehind : ∃ (st : Fin 32) (a : Nat) (s : State), (extBase ≤ a) ∧ (a < extBase + s.cur.extSize) ∧ (s.cur.flag pgDdr PG_STAT_FAULT = false) ∧ (s.cur.mc.stalled.any (·.stream == st.val) = true) :=
  ⟨1, 0x800000080, mk [] fun d => { d with mc := { d.mc with stalled := [⟨1, 0x20000001, true⟩] } }, by decide +kernel⟩

theorem met_cacheFill : ∃ (line way : Nat) (q : CReq) (l : List CReq) (s : State), (s.cur.mc.miss = some (q :: l)) ∧ (q.line = line) ∧ (s.cur.mc.returned = false) ∧ (s.cur.mc.stalled = []) ∧ (victim (s.cur.cset (setOf line)) (s.cur.barred (setOf line)) = some way) ∧ ((s.cur.cset (setOf line)).lines.any (·.way == way) = false) ∧ (s.cur.flag pgMc MC_CTL_ENABLE = true) ∧ (s.cur.flag pgMc MC_STAT_DRAINING = false) :=
  ⟨0x20000001, 0, ⟨2, 0x20000001, true⟩, [], mk [] fun d => { d with mc := { d.mc with miss := some [⟨2, 0x20000001, true⟩] } }, by decide +kernel⟩

theorem met_cacheFillCorr : ∃ (line way : Nat) (q : CReq) (l : List CReq) (s : State), (s.cur.mc.miss = some (q :: l)) ∧ (q.line = line) ∧ (s.cur.mc.returned = false) ∧ (s.cur.mc.stalled = []) ∧ (victim (s.cur.cset (setOf line)) (s.cur.barred (setOf line)) = some way) ∧ ((s.cur.cset (setOf line)).lines.any (·.way == way) = false) ∧ (s.cur.flag pgMc MC_CTL_ENABLE = true) ∧ (s.cur.flag pgMc MC_STAT_DRAINING = false) ∧ (s.cur.flag pgDdr DDR_CFG_ECC_EN = true) ∧ (s.cur.mc.store.any (·.1 == line) = false) :=
  ⟨0x20000001, 0, ⟨2, 0x20000001, true⟩, [], mk [] fun d => { d with mc := { d.mc with miss := some [⟨2, 0x20000001, true⟩] } }, by decide +kernel⟩

theorem met_cacheFillUncorr : ∃ (line : Nat) (q : CReq) (l : List CReq) (s : State), (s.cur.mc.miss = some (q :: l)) ∧ (q.line = line) ∧ (s.cur.mc.returned = false) ∧ (s.cur.mc.stalled = []) ∧ (s.cur.flag pgDdr DDR_CFG_ECC_EN = true) ∧ (s.cur.mc.store.any (·.1 == line) = false) :=
  ⟨0x20000001, ⟨2, 0x20000001, true⟩, [], mk [] fun d => { d with mc := { d.mc with miss := some [⟨2, 0x20000001, true⟩] } }, by decide +kernel⟩

theorem met_cacheFillWaits : ∃ (line way : Nat) (q : CReq) (l : List CReq) (s : State), (s.cur.mc.miss = some (q :: l)) ∧ (q.line = line) ∧ (s.cur.mc.returned = false) ∧ (victim (s.cur.cset (setOf line)) (s.cur.barred (setOf line)) = some way) ∧ ((s.cur.cset (setOf line)).lines.any (·.way == way) = true) ∧ (s.cur.evictRoom = false) ∧ (s.cur.flag pgMc MC_CTL_ENABLE = true) ∧ (s.cur.flag pgMc MC_STAT_DRAINING = false) :=
  ⟨0x20000001, 0, ⟨2, 0x20000001, true⟩, [], sFillWait, by decide +kernel⟩

theorem met_cacheFillNot : ∃ (line : Nat) (s : State), (s.cur.mc.miss = none) ∧ (s.cur.mc.prefetch.contains line = false) :=
  ⟨5, s0, by decide +kernel⟩

theorem met_lineStoreWriteback : ∃ (a : Nat) (s : State), ((a, true) ∈ s.cur.mc.store) ∧ ((∀ p ∈ s.cur.mc.store, p.2 = true → a ≤ p.1)) ∧ (s.cur.mc.evict = []) ∧ (s.cur.mc.returned = false) ∧ (s.cur.flag pgDdr DDR_CFG_ECC_EN = false) :=
  ⟨5, mk [(pgDdr, DDR_CFG_ECC_EN, 0)] fun d => { d with mc := { d.mc with store := [(9, true), (5, true)] } }, by decide +kernel⟩

theorem met_lineStoreWritebackEcc : ∃ (a : Nat) (s : State), ((a, true) ∈ s.cur.mc.store) ∧ ((∀ p ∈ s.cur.mc.store, p.2 = true → a ≤ p.1)) ∧ (s.cur.mc.evict = []) ∧ (s.cur.mc.returned = false) ∧ (s.cur.flag pgDdr DDR_CFG_ECC_EN = true) ∧ (extBase / 64 ≤ a) ∧ (a < (extBase + s.cur.extSize) / 64) ∧ (a ≠ s.cur.checkLine a) :=
  ⟨0x20000005, mk [] fun d => { d with mc := { d.mc with store := [(0x20000005, true)] } }, by decide +kernel⟩

theorem met_mcPreloadGo : ∃ (s : State), (s.cur.flag pgMc MC_PRE_CTL_BUSY = false) ∧ (s.cur.starts pgMc = true) ∧ (s.cur.get pgMc MC_PRE_WAYS_WAYS ≠ 0) ∧ (s.cur.get pgMc MC_PRE_WAYS_WAYS &&& s.cur.lockMask = 0) :=
  ⟨mk [(pgMc, MC_PRE_WAYS_WAYS, 0xF0)] fun d => d.setB pgMc PG_CTL_ENABLE true, by decide +kernel⟩

theorem met_mcPreloadGoWays : ∃ (s : State), (s.cur.flag pgMc MC_PRE_CTL_BUSY = false) ∧ (s.cur.starts pgMc = true) ∧ (s.cur.get pgMc MC_PRE_WAYS_WAYS = 0 ∨ s.cur.get pgMc MC_PRE_WAYS_WAYS &&& s.cur.lockMask ≠ 0) :=
  ⟨mk [(pgMc, MC_PRE_WAYS_WAYS, 0)] fun d => d.setB pgMc PG_CTL_ENABLE true, by decide +kernel⟩

theorem met_mcPreloadDone : ∃ (p : Preload) (s : State), (s.cur.mc.preload = some p) ∧ ((Dev.preloadRun p.count s.cur p).2.count = 0) :=
  ⟨{ first := 0x20000000, count := 2, ways := 0xF0 }, mk [] fun d => { d with mc := { d.mc with preload := some { first := 0x20000000, count := 2, ways := 0xF0 } } }, by decide +kernel⟩

theorem met_mcPreloadDoneLine : ∃ (p : Preload) (w : Nat) (s : State), (s.cur.mc.preload = some p) ∧ (p.count = 1) ∧ (p.filled = []) ∧ (extBase / 64 ≤ p.first) ∧ (p.first < (extBase + s.cur.extSize) / 64) ∧ (s.cur.lookup p.first = none) ∧ (s.cur.mc.evict = []) ∧ (((List.range 16).find? (fun w => bit p.ways w && !bit (s.cur.lockMask ||| s.cur.retiredWays (setOf p.first)) w) = some w)) :=
  ⟨{ first := 0x20000000, count := 1, ways := 0xF0 }, 4, mk [] fun d => { d with mc := { d.mc with preload := some { first := 0x20000000, count := 1, ways := 0xF0 } } }, by decide +kernel⟩

theorem met_mcPreloadDoneNot : ∃ (s : State), (s.cur.mc.preload = none) :=
  ⟨s0, by decide +kernel⟩

theorem met_mcDisable : ∃ (s : State), (s.cur.flag pgMc MC_CTL_ENABLE = true) :=
  ⟨s0, by decide +kernel⟩

theorem met_mcDisableOff : ∃ (s : State), (s.cur.flag pgMc MC_CTL_ENABLE = false) :=
  ⟨mk [(pgMc, MC_CTL_ENABLE, 0)], by decide +kernel⟩

theorem met_mcDrainEnd : ∃ (s : State), (s.cur.flag pgMc MC_STAT_DRAINING = true) ∧ ((s.cur.mc.sets.all (fun p => p.2.lines.all fun x => !x.dirty || bit s.cur.lockMask x.way) = true)) :=
  ⟨mk [(pgMc, MC_STAT_DRAINING, 1)] fun d => d.setCset 0 { lines := [⟨3, 0, false⟩] }, by decide +kernel⟩

theorem met_mcDrainEndDirty : ∃ (i : Nat) (x : CLine) (n : Nat) (s : State), (s.cur.flag pgMc MC_STAT_DRAINING = true) ∧ (s.cur.mc.sets = [(i, { lines := [x], plru := n })]) ∧ (x.dirty = true) ∧ (bit s.cur.lockMask x.way = false) ∧ (s.cur.storeDirty < s.cur.storeCap) :=
  ⟨0, ⟨3, 0, true⟩, 0, mk [(pgMc, MC_STAT_DRAINING, 1)] fun d => d.setCset 0 { lines := [⟨3, 0, true⟩] }, by decide +kernel⟩

theorem met_mcDrainEndNot : ∃ (s : State), (s.cur.flag pgMc MC_STAT_DRAINING = false) :=
  ⟨s0, by decide +kernel⟩

theorem met_mcLockWrite : ∃ (v : Word) (s : State), (s.cur.flag pgMc MC_PRE_CTL_BUSY = false) ∧ (s.cur.flag pgMc MC_STAT_DRAINING = false) ∧ (s.vis.flag pgLdg LDG_STAT_RESTORED = false ∨ (s.cur.get pgMc MC_LOCK_STORE &&& 0xF000) &&& (bits v.toNat 16 16 ^^^ 0xFFFF) = 0) :=
  ⟨0xF000F000, mk [] fun d => d.setCset 5 { lines := [⟨13, 0, true⟩, ⟨3, 1, true⟩] }, by decide +kernel⟩

theorem met_mcLockWriteNot : ∃ (v : Word) (s : State), (s.cur.flag pgMc MC_PRE_CTL_BUSY = true ∨ s.cur.flag pgMc MC_STAT_DRAINING = true ∨ (s.vis.flag pgLdg LDG_STAT_RESTORED = true ∧ (s.cur.get pgMc MC_LOCK_STORE &&& 0xF000) &&& (bits v.toNat 16 16 ^^^ 0xFFFF) ≠ 0)) :=
  ⟨0, mk [(pgLdg, LDG_STAT_RESTORED, 1), (pgMc, MC_LOCK_STORE, 0xF000)], by decide +kernel⟩

theorem met_mapExtentWrite : ∃ (lsn b : Nat) (x : Nat × Nat × Codeword) (d : Dev) (s : State), (((s.vis.task lsn).bind (fun t => if s.vis.isPlaced t then t.bay else none) = some b)) ∧ (s.cur.mc.extents.contains lsn = false) ∧ (s.cur.get64 pgMap MAP_DESC_BASE_LO MAP_DESC_BASE_HI ≠ 0) ∧ (s.vis.placesOf b lsn = [x]) ∧ (s.cur.addExtent x.2.2.lane x.2.2.offset b x.2.2.valid x.1 x.2.1 = some d) :=
  ⟨3, 0, (4, 24, cwA), (sExtent 2).cur.addExtent 7 0 0 4096 4 24 |>.getD {}, sExtent 2, by decide +kernel⟩

theorem met_mapExtentWriteEmpty : ∃ (lsn b : Nat) (x : Nat × Nat × Codeword) (s : State), (((s.vis.task lsn).bind (fun t => if s.vis.isPlaced t then t.bay else none) = some b)) ∧ (s.cur.mc.extents.contains lsn = false) ∧ (s.cur.get64 pgMap MAP_DESC_BASE_LO MAP_DESC_BASE_HI ≠ 0) ∧ (s.vis.placesOf b lsn = [x]) ∧ (s.cur.mc.poolWait.contains lsn = false) ∧ (s.cur.addExtent x.2.2.lane x.2.2.offset b x.2.2.valid x.1 x.2.1 = none) :=
  ⟨3, 0, (4, 24, cwA), sExtent 0, by decide +kernel⟩

theorem met_mapExtentWriteNot : ∃ (lsn : Nat) (s : State), (s.vis.task lsn = none ∨ s.cur.mc.extents.contains lsn = true) :=
  ⟨3, s0, by decide +kernel⟩

theorem met_mapCheckpoint : ∃ (b : Fin 4) (s : State), ((max 1 (s.cur.get pgMap MAP_CKPT) ≤ tabGet (fun _ => 0) s.cur.mc.deltas b)) :=
  ⟨1, mk [(pgMap, MAP_CKPT, 3)] fun d => { d with mc := { d.mc with deltas := [(1, 4)] } }, by decide +kernel⟩

theorem met_mapCheckpointNot : ∃ (b : Fin 4) (s : State), ((tabGet (fun _ => 0) s.cur.mc.deltas b < max 1 (s.cur.get pgMap MAP_CKPT))) :=
  ⟨1, s0, by decide +kernel⟩

theorem met_ddrTrain : ∃ (eyes : List (List Nat)) (x : Nat) (s : State), (ddrTrain (s.cur.get pgDdr DDR_CFG_RATE) eyes = some (some x)) ∧ (eyes.length = 5 ∨ (eyes.length = 2 ∧ s.cur.mc.dqDue = true)) :=
  ⟨[[30], [20, 30], [40], [40], [40]], 2, s0, by decide +kernel⟩

theorem met_ddrTrainFail : ∃ (eyes : List (List Nat)) (s : State), (ddrTrain (s.cur.get pgDdr DDR_CFG_RATE) eyes = some none) :=
  ⟨[[20, 20, 20, 20]], s0, by decide +kernel⟩

theorem met_ddrTrainBreaks : ∃ (eyes : List (List Nat)) (s : State), (ddrTrain (s.cur.get pgDdr DDR_CFG_RATE) eyes = none ∨ (eyes.length ≠ 5 ∧ eyes.length ≠ 2 ∧ ddrTrain (s.cur.get pgDdr DDR_CFG_RATE) eyes ≠ some none)) :=
  ⟨[[20]], s0, by decide +kernel⟩

theorem met_adcRotationStep : ∃ (k : Fin 5) (s : State), (s.cur.flag (pgFth k) FTH_ADC_ROTATE = true) ∧ (s.cur.get (pgFth k) FTH_ADC_FAILED = 0) ∧ ((s.cur.fthc k).stepAt = none) ∧ ((s.cur.fthc k).step < 4) :=
  ⟨0, mk [], by decide +kernel⟩

theorem met_adcRotationStepEnd : ∃ (k : Fin 5) (o g w : Int) (x : Nat) (s : State), (s.cur.flag (pgFth k) FTH_ADC_ROTATE = true) ∧ (s.cur.get (pgFth k) FTH_ADC_FAILED = 0) ∧ ((s.cur.fthc k).stepAt = some x) ∧ (x + 16 ≤ s.cur.gtime) ∧ ((s.cur.fthc k).step < 4) ∧ (plausible o g w = true) :=
  ⟨0, 3, -4, 15, 0, mk [] fun d => { (d.updFth 0 fun c => { c with stepAt := some 0 }) with tb := { d.tb with gtime := 16 } }, by decide +kernel⟩

theorem met_adcRotationStepBad : ∃ (k : Fin 5) (o g w : Int) (x : Nat) (s : State), (s.cur.flag (pgFth k) FTH_ADC_ROTATE = true) ∧ (s.cur.get (pgFth k) FTH_ADC_FAILED = 0) ∧ ((s.cur.fthc k).stepAt = some x) ∧ (x + 16 ≤ s.cur.gtime) ∧ ((s.cur.fthc k).step < 4) ∧ (plausible o g w = false) :=
  ⟨0, 17, 0, 0, 0, mk [] fun d => { (d.updFth 0 fun c => { c with stepAt := some 0 }) with tb := { d.tb with gtime := 16 } }, by decide +kernel⟩

theorem met_adcRotationStepNot : ∃ (k : Fin 5) (s : State), (s.cur.flag (pgFth k) FTH_ADC_ROTATE = false ∨ s.cur.get (pgFth k) FTH_ADC_FAILED ≠ 0) :=
  ⟨0, mk [(pgFth 0, FTH_ADC_FAILED, 4)], by decide +kernel⟩

theorem met_adcRotationStepRound : ∃ (k : Fin 5) (x : Nat) (s : State), (s.cur.flag (pgFth k) FTH_ADC_ROTATE = true) ∧ (s.cur.get (pgFth k) FTH_ADC_FAILED = 0) ∧ ((s.cur.fthc k).stepAt = some x) ∧ (x + 16 ≤ s.cur.gtime) ∧ ((s.cur.fthc k).step = 4) :=
  ⟨0, 0, mk [(pgFth 0, PG_STAT_STALE, 1)] fun d => { (d.updFth 0 fun c => { c with step := 4, stepAt := some 0 }) with tb := { d.tb with gtime := 16 } }, by decide +kernel⟩

theorem met_adcSliceFail : ∃ (k : Fin 5) (s : State), (s.cur.get (pgFth k) FTH_ADC_FAILED = 0) :=
  ⟨0, mk [], by decide +kernel⟩

theorem met_adcSliceFailSecond : ∃ (sl : Fin 5) (s : State), (s.cur.get (pgFth 4) FTH_ADC_FAILED ≠ 0) ∧ (bit (s.cur.get (pgFth 4) FTH_ADC_FAILED) sl = false) :=
  ⟨2, mk [(pgFth 4, FTH_ADC_FAILED, 1)], by decide +kernel⟩

theorem met_adcSliceFailNot : ∃ (k : Fin 5) (sl : Fin 5) (s : State), ((((s.cur.fthc k).slices[sl.val]?).getD {}).fails < 2) :=
  ⟨0, 2, mk [], by decide +kernel⟩

theorem met_defectBegin : ∃ (k : Fin 5) (env mean bits : Nat) (s : State), (max 1 (s.cur.get (pgFth k) FTH_DEFECT_DEF_MIN_CB) ≤ bits) ∧ (100 * env < s.cur.get (pgFth k) FTH_DEFECT_DEF_THR_PCT * mean) ∧ ((s.cur.fthc k).defect = false) :=
  ⟨0, 9, 20, 20, mk [(pgFth 0, FTH_DEFECT_DEF_MIN_CB, 20), (pgFth 0, FTH_DEFECT_DEF_THR_PCT, 50)], by decide +kernel⟩

theorem met_defectBeginNot : ∃ (k : Fin 5) (env mean bits : Nat) (s : State), (bits < max 1 (s.cur.get (pgFth k) FTH_DEFECT_DEF_MIN_CB) ∨ s.cur.get (pgFth k) FTH_DEFECT_DEF_THR_PCT * mean ≤ 100 * env) :=
  ⟨0, 10, 20, 20, mk [(pgFth 0, FTH_DEFECT_DEF_MIN_CB, 20), (pgFth 0, FTH_DEFECT_DEF_THR_PCT, 50)], by decide +kernel⟩

theorem met_defectEnd : ∃ (k : Fin 5) (env mean bits : Nat) (s : State), (max 1 (s.cur.get (pgFth k) FTH_DEFECT_DEF_MIN_CB) ≤ bits) ∧ (s.cur.get (pgFth k) FTH_DEFECT_DEF_THR_PCT * mean ≤ 100 * env) :=
  ⟨0, 10, 20, 20, mk [(pgFth 0, FTH_DEFECT_DEF_MIN_CB, 20), (pgFth 0, FTH_DEFECT_DEF_THR_PCT, 50)], by decide +kernel⟩

theorem met_defectEndNot : ∃ (k : Fin 5) (env mean bits : Nat) (s : State), (bits < max 1 (s.cur.get (pgFth k) FTH_DEFECT_DEF_MIN_CB) ∨ 100 * env < s.cur.get (pgFth k) FTH_DEFECT_DEF_THR_PCT * mean) :=
  ⟨0, 9, 20, 20, mk [(pgFth 0, FTH_DEFECT_DEF_MIN_CB, 20), (pgFth 0, FTH_DEFECT_DEF_THR_PCT, 50)], by decide +kernel⟩

theorem met_timingLock : ∃ (k : Fin 5) (kbps : Nat) (s : State), (kbps ≤ 800000) ∧ (s.cur.startRate k * 95 ≤ kbps * 100) ∧ (kbps * 100 ≤ s.cur.startRate k * 105) :=
  ⟨0, 66000, mk [(pgFth 0, FTH_RATE_RATE_KBPS, 66000)], by decide +kernel⟩

theorem met_timingLockFar : ∃ (k : Fin 5) (kbps : Nat) (s : State), (s.cur.flag (pgFth k) FTH_TR_LOCKED = false) ∧ (800000 < kbps ∨ kbps * 100 < s.cur.startRate k * 95 ∨ s.cur.startRate k * 105 < kbps * 100) :=
  ⟨0, 70000, mk [(pgFth 0, FTH_RATE_RATE_KBPS, 66000)], by decide +kernel⟩

theorem met_syncLock : ∃ (k : Fin 5) (e : Bool) (s : State), ((s.cur.fthc k).locked = false) ∧ ((max 1 (s.cur.get (pgFth k) FTH_SYNC_LOCK_N) ≤ (if e then (s.cur.fthc k).lockCount + 1 else 1))) :=
  ⟨0, true, mk [(pgFth 0, FTH_SYNC_LOCK_N, 1)] fun d => d.updFth 0 fun c => { c with lostFrame := some 7, frame := 7 }, by decide +kernel⟩

theorem met_syncLockMore : ∃ (k : Fin 5) (e : Bool) (s : State), ((s.cur.fthc k).locked = false) ∧ (((if e then (s.cur.fthc k).lockCount + 1 else 1) < max 1 (s.cur.get (pgFth k) FTH_SYNC_LOCK_N))) :=
  ⟨0, true, mk [], by decide +kernel⟩

theorem met_syncAccept : ∃ (k : Fin 5) (off : Int) (s : State), ((s.cur.fthc k).locked = true) ∧ (-2 ≤ off) ∧ (off ≤ 2) ∧ (((s.cur.fthc k).nextFrame (s.cur.get (pgFth k) FTH_CTL_FORMAT == 2) (s.cur.flag (pgFth k) FTH_CTL_DEFECT_EN)).linking (s.cur.get (pgFth k) FTH_CTL_FORMAT == 2) = false) :=
  ⟨0, 2, sLock, by decide +kernel⟩

theorem met_syncAcceptLinking : ∃ (k : Fin 5) (off : Int) (s : State), ((s.cur.fthc k).locked = true) ∧ (-2 ≤ off) ∧ (off ≤ 2) ∧ (((s.cur.fthc k).nextFrame (s.cur.get (pgFth k) FTH_CTL_FORMAT == 2) (s.cur.flag (pgFth k) FTH_CTL_DEFECT_EN)).linking (s.cur.get (pgFth k) FTH_CTL_FORMAT == 2) = true) :=
  ⟨0, 2, mk [] fun d => d.updFth 0 fun c => { c with locked := true, place := some 495, inserted := 2 }, by decide +kernel⟩

theorem met_syncAcceptNot : ∃ (k : Fin 5) (off : Int) (s : State), ((s.cur.fthc k).locked = false ∨ off < -2 ∨ 2 < off) :=
  ⟨0, 3, sLock, by decide +kernel⟩

theorem met_syncInsert : ∃ (k : Fin 5) (s : State), ((s.cur.fthc k).locked = true) ∧ (((s.cur.fthc k).nextFrame (s.cur.get (pgFth k) FTH_CTL_FORMAT == 2) (s.cur.flag (pgFth k) FTH_CTL_DEFECT_EN)).linking (s.cur.get (pgFth k) FTH_CTL_FORMAT == 2) = false) ∧ ((s.cur.fthc k).inserted + 1 < max 1 (s.cur.get (pgFth k) FTH_SYNC_LOSE_N)) :=
  ⟨0, sLock, by decide +kernel⟩

theorem met_syncInsertLost : ∃ (k : Fin 5) (s : State), ((s.cur.fthc k).locked = true) ∧ (((s.cur.fthc k).nextFrame (s.cur.get (pgFth k) FTH_CTL_FORMAT == 2) (s.cur.flag (pgFth k) FTH_CTL_DEFECT_EN)).linking (s.cur.get (pgFth k) FTH_CTL_FORMAT == 2) = false) ∧ (max 1 (s.cur.get (pgFth k) FTH_SYNC_LOSE_N) ≤ (s.cur.fthc k).inserted + 1) :=
  ⟨0, mk [(pgFth 0, FTH_SYNC_LOSE_N, 1)] fun d => d.updFth 0 fun c => { c with locked := true }, by decide +kernel⟩

theorem met_syncInsertLinking : ∃ (k : Fin 5) (s : State), ((s.cur.fthc k).locked = true) ∧ (((s.cur.fthc k).nextFrame (s.cur.get (pgFth k) FTH_CTL_FORMAT == 2) (s.cur.flag (pgFth k) FTH_CTL_DEFECT_EN)).linking (s.cur.get (pgFth k) FTH_CTL_FORMAT == 2) = true) :=
  ⟨0, mk [] fun d => d.updFth 0 fun c => { c with locked := true, place := some 495, inserted := 2 }, by decide +kernel⟩

theorem met_syncInsertNot : ∃ (k : Fin 5) (s : State), ((s.cur.fthc k).locked = false) :=
  ⟨0, mk [], by decide +kernel⟩

theorem met_syncSlip : ∃ (k : Fin 5) (off : Int) (s : State), ((s.cur.fthc k).locked = true) ∧ (((s.cur.fthc k).nextFrame (s.cur.get (pgFth k) FTH_CTL_FORMAT == 2) (s.cur.flag (pgFth k) FTH_CTL_DEFECT_EN)).linking (s.cur.get (pgFth k) FTH_CTL_FORMAT == 2) = false) ∧ ((off.natAbs : Nat) ≤ max 3 (min 64 (s.cur.get (pgFth k) FTH_SYNC_SLIP_MAX))) ∧ (3 ≤ off.natAbs) ∧ ((s.cur.fthc k).slip = none) :=
  ⟨0, -5, sLock, by decide +kernel⟩

theorem met_syncSlipConfirm : ∃ (k : Fin 5) (off x : Int) (s : State), ((s.cur.fthc k).locked = true) ∧ (((s.cur.fthc k).nextFrame (s.cur.get (pgFth k) FTH_CTL_FORMAT == 2) (s.cur.flag (pgFth k) FTH_CTL_DEFECT_EN)).linking (s.cur.get (pgFth k) FTH_CTL_FORMAT == 2) = false) ∧ ((off.natAbs : Nat) ≤ max 3 (min 64 (s.cur.get (pgFth k) FTH_SYNC_SLIP_MAX))) ∧ (3 ≤ off.natAbs) ∧ ((s.cur.fthc k).slip = some x) ∧ ((off - x).natAbs ≤ 2) :=
  ⟨0, 5, 6, mk [] fun d => d.updFth 0 fun c => { c with locked := true, slip := some 6 }, by decide +kernel⟩

theorem met_syncSlipDrop : ∃ (k : Fin 5) (off x : Int) (s : State), ((s.cur.fthc k).locked = true) ∧ (((s.cur.fthc k).nextFrame (s.cur.get (pgFth k) FTH_CTL_FORMAT == 2) (s.cur.flag (pgFth k) FTH_CTL_DEFECT_EN)).linking (s.cur.get (pgFth k) FTH_CTL_FORMAT == 2) = false) ∧ ((off.natAbs : Nat) ≤ max 3 (min 64 (s.cur.get (pgFth k) FTH_SYNC_SLIP_MAX))) ∧ (3 ≤ off.natAbs) ∧ ((s.cur.fthc k).slip = some x) ∧ (2 < (off - x).natAbs) ∧ ((s.cur.fthc k).inserted + 1 < max 1 (s.cur.get (pgFth k) FTH_SYNC_LOSE_N)) :=
  ⟨0, 5, 9, mk [] fun d => d.updFth 0 fun c => { c with locked := true, slip := some 9 }, by decide +kernel⟩

theorem met_syncSlipFar : ∃ (k : Fin 5) (off : Int) (s : State), ((s.cur.fthc k).locked = false ∨ off.natAbs < 3 ∨ max 3 (min 64 (s.cur.get (pgFth k) FTH_SYNC_SLIP_MAX)) < off.natAbs) :=
  ⟨0, 70, sLock, by decide +kernel⟩

theorem met_wobbleLock : ∃ (k : Fin 5) (a : Nat) (s : State), (7 ≤ (s.cur.fthc k).wobHits) ∧ (a < 2 ^ 31) :=
  ⟨0, 77, mk [] fun d => d.updFth 0 fun c => { c with wobHits := 7 }, by decide +kernel⟩

theorem met_wobbleLockMiss : ∃ (k : Fin 5) (s : State), (7 ≤ (s.cur.fthc k).wobMiss) :=
  ⟨0, mk [(pgFth 0, FTH_WOB_LOCKED, 1)] fun d => d.updFth 0 fun c => { c with wobMiss := 7 }, by decide +kernel⟩

theorem met_wobbleLockKeep : ∃ (k : Fin 5) (s : State), ((s.cur.fthc k).wobHits + 1 < 8) ∧ ((s.cur.fthc k).wobMiss + 1 < 8) :=
  ⟨0, mk [], by decide +kernel⟩

theorem met_fthJobGo : ∃ (k : Fin 5) (v : Word) (s : State), (bits v.toNat 0 2 ≠ 3) ∧ ((s.cur.fthc k).job = none) ∧ (s.cur.starts (pgFth k) = true) ∧ (s.cur.flag (pgFth k) FTH_CTL_RUN = true) ∧ (s.cur.get (pgFth k) FTH_MAP_PORT ≤ 3) ∧ (s.cur.get64 (pgFth k) FTH_JOB_DST_LO FTH_JOB_DST_HI % 64 = 0) ∧ (s.cur.get (pgFth k) FTH_CTL_FORMAT = 2 ∨ s.cur.get (pgFth k) FTH_JOB_ADDR % 32 = 0) :=
  ⟨0, 0x00050080, mk [(pgFth 0, FTH_CTL_RUN, 1)] fun d => d.setB (pgFth 0) PG_CTL_ENABLE true, by decide +kernel⟩

theorem met_fthJobGoState : ∃ (k : Fin 5) (v : Word) (s : State), (bits v.toNat 0 2 ≠ 3) ∧ ((s.cur.fthc k).job ≠ none ∨ s.cur.starts (pgFth k) = false ∨ s.cur.flag (pgFth k) FTH_CTL_RUN = false ∨ 3 < s.cur.get (pgFth k) FTH_MAP_PORT) :=
  ⟨0, 0x00050080, mk [], by decide +kernel⟩

theorem met_fthJobAbort : ∃ (k : Fin 5) (j : FJob) (s : State), ((s.cur.fthc k).job = some j) :=
  ⟨0, job0, sJob, by decide +kernel⟩

theorem met_fthJobAbortStop : ∃ (k : Fin 5) (j : FJob) (s : State), ((s.cur.fthc k).job = some j) :=
  ⟨0, job0, sJob, by decide +kernel⟩

theorem met_fthSyncTimeout : ∃ (k : Fin 5) (j : FJob) (s : State), ((s.cur.fthc k).job = some j) ∧ ((s.cur.fthc k).locked = false) ∧ ((s.cur.fthc k).lostAt + s.cur.get (pgFth k) FTH_SYNC_SYNC_TO_G ≤ s.cur.gtime) :=
  ⟨0, job0, sJobLate, by decide +kernel⟩

theorem met_fthSyncTimeoutNot : ∃ (k : Fin 5) (s : State), ((s.cur.fthc k).locked = true ∨ s.cur.gtime < (s.cur.fthc k).lostAt + s.cur.get (pgFth k) FTH_SYNC_SYNC_TO_G) :=
  ⟨0, sLock, by decide +kernel⟩

theorem met_fthStartTimeout : ∃ (k : Fin 5) (j : FJob) (s : State), ((s.cur.fthc k).job = some j) ∧ (j.next = none) ∧ (j.kind ≠ 2) ∧ (j.goAt + max 1 (s.cur.get (pgFth k) FTH_JOB_CNT_ADDR_TO_G) ≤ s.cur.gtime) :=
  ⟨0, job0, sJobLate, by decide +kernel⟩

theorem met_fthStartTimeoutNot : ∃ (k : Fin 5) (j : FJob) (s : State), ((s.cur.fthc k).job = some j) ∧ (j.next ≠ none ∨ j.kind = 2 ∨ s.cur.gtime < j.goAt + 1) :=
  ⟨0, { job0 with kind := 2 }, mk [] fun d => d.updFth 0 fun c => { c with job := some { job0 with kind := 2 } }, by decide +kernel⟩

theorem met_clusterFirstPass : ∃ (k : Fin 5) (j : FJob) (o : ClusterObs) (s : State), ((s.cur.fthc k).job = some j) ∧ (j.kind ≠ 2) ∧ (j.index < j.count) ∧ ((s.cur.fthc k).recs.length < s.cur.fthFree k) ∧ (s.cur.get (pgFth k) FTH_CTL_FORMAT ≠ 2) ∧ (o.addr = j.next.getD j.addr) ∧ (o.uncorr = 0) :=
  ⟨0, job0, { addr := 0, values := [5, 6] }, sJob, by decide +kernel⟩

theorem met_clusterFirstPassRemap : ∃ (k : Fin 5) (j : FJob) (o : ClusterObs) (s : State), ((s.cur.fthc k).job = some j) ∧ (j.kind ≠ 2) ∧ (j.index < j.count) ∧ ((s.cur.fthc k).recs.length < s.cur.fthFree k) ∧ (s.cur.get (pgFth k) FTH_CTL_FORMAT ≠ 2) ∧ (o.addr = j.next.getD j.addr) ∧ (o.uncorr = 0) ∧ (j.kind = 0) ∧ ((s.cur.fthc k).remap = true) :=
  ⟨0, job0, { addr := 0 }, stOf (sJob.cur.updFth 0 fun c => { c with remap := true }), by decide +kernel⟩

theorem met_clusterFirstPassSync : ∃ (k : Fin 5) (j : FJob) (o : ClusterObs) (s : State), ((s.cur.fthc k).job = some j) ∧ (j.kind ≠ 2) ∧ (j.index < j.count) ∧ ((s.cur.fthc k).recs.length < s.cur.fthFree k) ∧ (s.cur.get (pgFth k) FTH_CTL_FORMAT ≠ 2) ∧ (o.addr = j.next.getD j.addr) ∧ (o.uncorr = 0) ∧ (j.kind = 0) ∧ ((s.cur.fthc k).remap = false) ∧ ((s.cur.fthc k).lostIn o.first (frameCount false) = true) :=
  ⟨0, job0, { addr := 0, first := 40 }, stOf (sJob.cur.updFth 0 fun c => { c with lostFrame := some 77 }), by decide +kernel⟩

theorem met_clusterFirstPassUncorr : ∃ (k : Fin 5) (j : FJob) (o : ClusterObs) (s : State), ((s.cur.fthc k).job = some j) ∧ (j.kind ≠ 2) ∧ (j.index < j.count) ∧ ((s.cur.fthc k).recs.length < s.cur.fthFree k) ∧ (s.cur.get (pgFth k) FTH_CTL_FORMAT ≠ 2) ∧ (o.addr = j.next.getD j.addr) ∧ (0 < o.uncorr) ∧ (j.kind = 0) ∧ ((s.cur.fthc k).remap = false) ∧ ((s.cur.fthc k).lostIn o.first (frameCount false) = false) :=
  ⟨0, job0, { addr := 0, uncorr := 2 }, sJob, by decide +kernel⟩

theorem met_clusterFirstPassDense : ∃ (k : Fin 5) (j : FJob) (o : ClusterObs) (s : State), ((s.cur.fthc k).job = some j) ∧ (j.kind ≠ 2) ∧ (j.index < j.count) ∧ ((s.cur.fthc k).recs.length < s.cur.fthFree k) ∧ (s.cur.get (pgFth k) FTH_CTL_FORMAT = 2) ∧ (o.uncorr = 0) :=
  ⟨0, job0, { addr := 0, values := [5, 6] }, stOf (sJob.cur.put (pgFth 0) FTH_CTL_FORMAT 2), by decide +kernel⟩

theorem met_clusterFirstPassMismatch : ∃ (k : Fin 5) (j : FJob) (o : ClusterObs) (s : State), ((s.cur.fthc k).job = some j) ∧ (j.kind ≠ 2) ∧ (j.index < j.count) ∧ (s.cur.get (pgFth k) FTH_CTL_FORMAT ≠ 2) ∧ ((j.next = none ∧ j.addr < o.addr) ∨ (j.next ≠ none ∧ j.next ≠ some o.addr)) :=
  ⟨0, job0, { addr := 64 }, sJob, by decide +kernel⟩

theorem met_clusterFirstPassBefore : ∃ (k : Fin 5) (j : FJob) (o : ClusterObs) (s : State), ((s.cur.fthc k).job = some j) ∧ (j.kind ≠ 2) ∧ (j.index < j.count) ∧ (s.cur.get (pgFth k) FTH_CTL_FORMAT ≠ 2) ∧ (j.next = none) ∧ (o.addr < j.addr) :=
  ⟨0, { job0 with addr := 64 }, { addr := 32 }, stOf (sJob.cur.updFth 0 fun c => { c with job := some { job0 with addr := 64 } }), by decide +kernel⟩

theorem met_clusterFirstPassFull : ∃ (k : Fin 5) (j : FJob) (o : ClusterObs) (s : State), ((s.cur.fthc k).job = some j) ∧ (j.kind ≠ 2) ∧ (j.index < j.count) ∧ (s.cur.fthFree k ≤ (s.cur.fthc k).recs.length) ∧ (s.cur.get (pgFth k) FTH_CTL_FORMAT ≠ 2) ∧ (o.addr = j.next.getD j.addr) :=
  ⟨0, job0, { addr := 0 }, stOf (sJob.cur.put (pgFth 0) FTH_RES_PROD_PROD 16), by decide +kernel⟩

theorem met_clusterFirstPassRaw : ∃ (k : Fin 5) (j : FJob) (s : State), ((s.cur.fthc k).job = some j) ∧ (j.kind = 2) ∧ (j.index + 1 < j.count) :=
  ⟨0, { job0 with kind := 2 }, stOf (sJob.cur.updFth 0 fun c => { c with job := some { job0 with kind := 2 } }), by decide +kernel⟩

theorem met_clusterFirstPassIdle : ∃ (k : Fin 5) (s : State), ((s.cur.fthc k).job = none) :=
  ⟨0, mk [], by decide +kernel⟩

theorem met_iterRetain : ∃ (k : Fin 5) (x : FRec) (h : Held) (s : State), ((s.cur.fthc k).recs = [x]) ∧ (x.waits = true) ∧ (x.held = some h) ∧ (s.cur.fth.slot = none) ∧ (s.vis.fth.slot = none) ∧ (s.cur.flag (pgFth k) FTH_CTL_ITER_EN = true) ∧ (s.cur.retiredItem 2 4 = false) :=
  ⟨0, recW, {}, sRec [recW], by decide +kernel⟩

theorem met_iterRetainBusy : ∃ (k : Fin 5) (x : FRec) (s : State), ((s.cur.fthc k).recs = [x]) ∧ (x.waits = true) ∧ (x.held = none ∨ s.cur.fth.slot ≠ none ∨ s.vis.fth.slot ≠ none ∨ s.cur.flag (pgFth k) FTH_CTL_ITER_EN = false) :=
  ⟨0, recW, mk [(pgFth 0, FTH_CTL_ITER_EN, 0)] fun d => d.updFth 0 fun c => { c with recs := [recW] }, by decide +kernel⟩

theorem met_outerIteration : ∃ (sl : RetSlot) (x : FRec) (s : State), (s.cur.fth.slot = some sl) ∧ (sl.chan < 5) ∧ ((s.cur.fthc sl.chan).recs = [x]) ∧ (x.status = none) ∧ (x.waits = false) ∧ (x.addr = sl.addr) ∧ (x.kind = 0) :=
  ⟨slot0, recS, sSlot, by decide +kernel⟩

theorem met_outerIterationUncorr : ∃ (sl : RetSlot) (x : FRec) (s : State), (s.cur.fth.slot = some sl) ∧ (sl.chan < 5) ∧ ((s.cur.fthc sl.chan).recs = [x]) ∧ (x.status = none) ∧ (x.waits = false) ∧ (x.addr = sl.addr) ∧ (x.kind = 0) :=
  ⟨slot0, recS, sSlot, by decide +kernel⟩

theorem met_outerIterationNone : ∃ (s : State), (s.cur.fth.slot = none) :=
  ⟨mk [], by decide +kernel⟩

theorem met_iterBudgetExpiry : ∃ (sl : RetSlot) (x : FRec) (s : State), (s.cur.fth.slot = some sl) ∧ (sl.chan < 5) ∧ ((s.cur.fthc sl.chan).recs = [x]) ∧ (x.status = none) ∧ (x.waits = false) ∧ (x.addr = sl.addr) ∧ (x.kind = 0) ∧ (sl.since + max 1 (s.cur.get pgFthx FTHX_BUDGET_ITER_BUDGET_G) ≤ s.cur.gtime) :=
  ⟨slot0, recS, let s := sSlot; let d := { s.cur with tb := { s.cur.tb with gtime := 9000 } }; { cur := d, vis := d }, by decide +kernel⟩

theorem met_iterBudgetExpiryNot : ∃ (sl : RetSlot) (s : State), (s.cur.fth.slot = some sl) ∧ (s.cur.gtime < sl.since + 1) :=
  ⟨slot0, sSlot, by decide +kernel⟩

theorem met_clusterRecordPost : ∃ (k : Fin 5) (x : FRec) (z : Nat) (s : State), ((s.cur.fthc k).recs = [x]) ∧ (x.status = some z) ∧ (s.cur.fthFree k ≠ 0) ∧ ((s.cur.fthc k).job = none) :=
  ⟨0, { recS with status := some 0 }, 0, sRec [{ recS with status := some 0 }], by decide +kernel⟩

theorem met_clusterRecordPostJob : ∃ (k : Fin 5) (x : FRec) (z : Nat) (j : FJob) (s : State), ((s.cur.fthc k).recs = [x]) ∧ (x.status = some z) ∧ (s.cur.fthFree k ≠ 0) ∧ ((s.cur.fthc k).job = some j) ∧ (j.posted + 1 < j.count) :=
  ⟨0, { recS with status := some 0 }, 0, job0, stOf (sJob.cur.updFth 0 fun c => { c with recs := [{ recS with status := some 0 }] }), by decide +kernel⟩

theorem met_clusterRecordPostCount : ∃ (k : Fin 5) (x : FRec) (z : Nat) (j : FJob) (s : State), ((s.cur.fthc k).recs = [x]) ∧ (x.status = some z) ∧ (s.cur.fthFree k ≠ 0) ∧ ((s.cur.fthc k).job = some j) ∧ (j.count ≤ j.posted + 1) :=
  ⟨0, { recS with status := some 0 }, 0, { job0 with posted := 2 }, stOf (sJob.cur.updFth 0 fun c => { c with job := some { job0 with posted := 2 }, recs := [{ recS with status := some 0 }] }), by decide +kernel⟩

theorem met_clusterRecordPostHeld : ∃ (k : Fin 5) (x : FRec) (s : State), ((s.cur.fthc k).recs.head? = some x) ∧ (x.status = none ∨ s.cur.fthFree k = 0) :=
  ⟨0, recW, sRec [recW], by decide +kernel⟩

theorem met_fthResConsWrite : ∃ (k : Fin 5) (v : BitVec 16) (s : State), ((v.toNat + 2 ^ 16 - s.cur.get (pgFth k) FTH_RES_CONS) % 2 ^ 16 ≤ (s.cur.get (pgFth k) FTH_RES_PROD_PROD + 2 ^ 16 - s.cur.get (pgFth k) FTH_RES_CONS) % 2 ^ 16) :=
  ⟨0, 3, mk [(pgFth 0, FTH_RES_PROD_PROD, 5)], by decide +kernel⟩

theorem met_fthResConsWriteRange : ∃ (k : Fin 5) (v : BitVec 16) (s : State), ((s.cur.get (pgFth k) FTH_RES_PROD_PROD + 2 ^ 16 - s.cur.get (pgFth k) FTH_RES_CONS) % 2 ^ 16 < (v.toNat + 2 ^ 16 - s.cur.get (pgFth k) FTH_RES_CONS) % 2 ^ 16) :=
  ⟨0, 8, mk [(pgFth 0, FTH_RES_PROD_PROD, 5)], by decide +kernel⟩

theorem met_fthResCfgWrite : ∃ (k : Fin 5) (s : State), ((s.cur.fthc k).job = none) :=
  ⟨0, mk [], by decide +kernel⟩

theorem met_fthResCfgWriteNot : ∃ (k : Fin 5) (s : State), ((s.cur.fthc k).job ≠ none) :=
  ⟨0, sJob, by decide +kernel⟩

theorem met_fthMapWrite : ∃ (k : Fin 5) (v : Word) (s : State), (s.cur.flag (pgFth k) FTH_CTL_RUN = false) ∧ (s.cur.flag (pgFth k) FTH_MAP_ACTIVE = false) ∧ ((bits v.toNat 0 3 = 7 ∨ (bits v.toNat 0 3 ≤ 3 ∧ [0, 1, 2, 3, 4].all (fun i => i == k.val || s.cur.get (pgFth i) FTH_MAP_PORT != bits v.toNat 0 3) = true))) :=
  ⟨0, 7, mk [], by decide +kernel⟩

theorem met_fthMapWriteBusy : ∃ (k : Fin 5) (v : Word) (s : State), ((s.cur.flag (pgFth k) FTH_CTL_RUN = true ∨ (bits v.toNat 0 3 ≤ 3 ∧ [0, 1, 2, 3, 4].all (fun i => i == k.val || s.cur.get (pgFth i) FTH_MAP_PORT != bits v.toNat 0 3) = false))) :=
  ⟨0, 1, mk [], by decide +kernel⟩

theorem met_readChannelFail : ∃ (s : State), (s.cur.flag (pgFth 4) FTH_MAP_ACTIVE = false) ∧ (3 < s.cur.get (pgFth 4) FTH_MAP_PORT) :=
  ⟨mk [], by decide +kernel⟩

theorem met_readChannelFailNoSpare : ∃ (s : State), (s.cur.flag (pgFth 4) FTH_MAP_ACTIVE = true) :=
  ⟨mk [(pgFth 4, FTH_MAP_ACTIVE, 1), (pgFth 4, FTH_MAP_PORT, 2)], by decide +kernel⟩

theorem met_encGo : ∃ (s : State), (s.cur.flag pgWenc ENC_STAT_BUSY = false) ∧ (s.cur.starts pgWenc = true) ∧ (s.cur.get64 pgWenc ENC_SRC_LO ENC_SRC_HI % 4096 = 0) ∧ (s.cur.get64 pgWenc ENC_UCD_LO ENC_UCD_HI % 4096 = 0) ∧ (s.cur.get64 pgWenc ENC_DST_LO ENC_DST_HI % 4096 = 0) :=
  ⟨mk [] fun d => d.setB pgWenc PG_CTL_ENABLE true, by decide +kernel⟩

theorem met_encGoBusy : ∃ (s : State), (s.cur.flag pgWenc ENC_STAT_BUSY = true ∨ s.cur.starts pgWenc = false) :=
  ⟨sEnc 0, by decide +kernel⟩

theorem met_encGoAlign : ∃ (s : State), (s.cur.flag pgWenc ENC_STAT_BUSY = false) ∧ (s.cur.starts pgWenc = true) ∧ (s.cur.get64 pgWenc ENC_SRC_LO ENC_SRC_HI % 4096 ≠ 0 ∨ s.cur.get64 pgWenc ENC_UCD_LO ENC_UCD_HI % 4096 ≠ 0 ∨ s.cur.get64 pgWenc ENC_DST_LO ENC_DST_HI % 4096 ≠ 0) :=
  ⟨mk [(pgWenc, ENC_SRC_LO, 64)] fun d => d.setB pgWenc PG_CTL_ENABLE true, by decide +kernel⟩

theorem met_encClusterDone : ∃ (r : EncReq) (s : State), (s.cur.owp.enc = some r) ∧ (r.format ≠ 2) ∧ (r.index + 1 < r.count) ∧ (r.count ≤ 65536) :=
  ⟨⟨32, 2, 0, 4096, 8192, 65536, 9, 1, 0⟩, sEnc 0, by decide +kernel⟩

theorem met_encClusterDoneDense : ∃ (r : EncReq) (s : State), (s.cur.owp.enc = some r) ∧ (r.format = 2) ∧ (r.index + 1 < r.count) ∧ (r.count ≤ 65536) :=
  ⟨⟨32, 2, 0, 4096, 8192, 65536, 9, 1, 2⟩, sEnc 2, by decide +kernel⟩

theorem met_encClusterDoneLast : ∃ (r : EncReq) (s : State), (s.cur.owp.enc = some r) ∧ (r.index + 1 = r.count) ∧ (r.count < 65536) :=
  ⟨⟨32, 1, 0, 4096, 8192, 65536, 9, 1, 0⟩, mk [(pgWenc, ENC_STAT_BUSY, 1)] fun d => { d with owp := { d.owp with enc := some ⟨32, 1, 0, 4096, 8192, 65536, 9, 1, 0⟩ } }, by decide +kernel⟩

theorem met_encClusterDoneErr : ∃ (e : Fin 3) (r : EncReq) (s : State), (s.cur.owp.enc = some r) ∧ (e ≠ 0) :=
  ⟨2, ⟨32, 2, 0, 4096, 8192, 65536, 9, 1, 0⟩, sEnc 0, by decide +kernel⟩

theorem met_encClusterDoneNone : ∃ (s : State), (s.cur.owp.enc = none) :=
  ⟨mk [], by decide +kernel⟩

theorem met_burnJobGo : ∃ (p : Fin 4) (k : Nat) (s : State), ((s.cur.port p).job = none) ∧ (s.cur.starts (pgOwp p) = true) ∧ (s.vis.serving p = some k) ∧ (s.vis.get (pgFth k) FTH_CTL_FORMAT = s.cur.get (pgOwp p) WP_CTL_FORMAT) ∧ (s.cur.speed p ≤ maxSpeed (s.cur.get (pgOwp p) WP_CTL_FORMAT) (s.cur.get (pgOwp p) WP_CTL_RE_MEDIA)) ∧ (s.cur.get (pgOwp p) WP_CTL_FORMAT = 2 ∨ s.cur.get (pgOwp p) WP_JOB_ADDR % 32 = 0) :=
  ⟨0, 0, mk owpGo, by decide +kernel⟩

theorem met_burnJobGoState : ∃ (p : Fin 4) (s : State), ((s.cur.port p).job ≠ none ∨ s.cur.starts (pgOwp p) = false ∨ s.vis.serving p = none ∨ maxSpeed (s.cur.get (pgOwp p) WP_CTL_FORMAT) (s.cur.get (pgOwp p) WP_CTL_RE_MEDIA) < s.cur.speed p ∨ (s.cur.get (pgOwp p) WP_CTL_FORMAT ≠ 2 ∧ s.cur.get (pgOwp p) WP_JOB_ADDR % 32 ≠ 0)) :=
  ⟨0, mk [(pgOwp 0, PG_CTL_ENABLE, 0)], by decide +kernel⟩

theorem met_recordingStart : ∃ (p : Fin 4) (x : Place) (j : BurnJob) (s : State), ((s.cur.port p).job = some j) ∧ (s.cur.get (pgOwp p) WP_JOB_STAT_STATE = 1) ∧ (Dev.causesNow s.vis s.cur p = 0) ∧ (s.cur.burnPlace p (s.cur.burnAddr p j) = (x.word, x.unit, x.wob)) ∧ (x.bit.natAbs ≤ 1) ∧ (s.cur.owpFree p ≠ 0) :=
  ⟨0, { word := 153, unit := 21, wob := 0 }, bjob, sStart [], by decide +kernel⟩

theorem met_recordingStartFull : ∃ (p : Fin 4) (x : Place) (j : BurnJob) (s : State), ((s.cur.port p).job = some j) ∧ (s.cur.get (pgOwp p) WP_JOB_STAT_STATE = 1) ∧ (Dev.causesNow s.vis s.cur p = 0) ∧ (s.cur.burnPlace p (s.cur.burnAddr p j) = (x.word, x.unit, x.wob)) ∧ (x.bit.natAbs ≤ 1) ∧ (s.cur.owpFree p = 0) :=
  ⟨0, { word := 153, unit := 21, wob := 0 }, bjob, sStart [(pgOwp 0, WP_RES_PROD_PROD, 16)], by decide +kernel⟩

theorem met_recordingStartNot : ∃ (p : Fin 4) (x : Place) (j : BurnJob) (s : State), ((s.cur.port p).job = some j) ∧ (s.cur.get (pgOwp p) WP_JOB_STAT_STATE ≠ 1 ∨ Dev.causesNow s.vis s.cur p ≠ 0 ∨ s.cur.burnPlace p (s.cur.burnAddr p j) ≠ (x.word, x.unit, x.wob) ∨ 1 < x.bit.natAbs) :=
  ⟨0, { word := 153, unit := 21, wob := 0, bit := -2 }, bjob, sStart [], by decide +kernel⟩

theorem met_clusterBurned : ∃ (p : Fin 4) (j : BurnJob) (s : State), ((s.cur.port p).job = some j) ∧ ((s.cur.port p).light = true) ∧ (j.posted + 1 < j.count) ∧ (2 ≤ s.cur.owpFree p) :=
  ⟨0, bjob, sBurn 2 true, by decide +kernel⟩

theorem met_clusterBurnedLast : ∃ (p : Fin 4) (j : BurnJob) (s : State), ((s.cur.port p).job = some j) ∧ ((s.cur.port p).light = true) ∧ (j.posted + 1 = j.count) ∧ (1 ≤ s.cur.owpFree p) :=
  ⟨0, { bjob with posted := 2, index := 2 }, sBurn 2 true [] { bjob with posted := 2, index := 2 }, by decide +kernel⟩

theorem met_clusterBurnedFull : ∃ (p : Fin 4) (j : BurnJob) (s : State), ((s.cur.port p).job = some j) ∧ ((s.cur.port p).light = true) ∧ (j.posted + 1 < j.count) ∧ (s.cur.owpFree p = 1) :=
  ⟨0, bjob, sBurn 2 true [(pgOwp 0, WP_RES_PROD_PROD, 15)], by decide +kernel⟩

theorem met_clusterBurnedNot : ∃ (p : Fin 4) (s : State), ((s.cur.port p).job = none ∨ (s.cur.port p).light = false) :=
  ⟨0, sBurn 1 false, by decide +kernel⟩

theorem met_levelSpiSend : ∃ (p : Fin 4) (i : Fin 5) (on : Option Light) (s : State), ((s.cur.port p).light = true) ∧ (on = none ∨ on = some .ps) ∧ ((s.cur.port p).sent[i.val]? ≠ some (some (s.cur.levelCode p (s.vis.get (pgOps p) OPS_DRIVE1_G) i).2)) :=
  ⟨0, 2, some .ps, sBurn 2 true, by decide +kernel⟩

theorem met_levelSpiSendNot : ∃ (p : Fin 4) (i : Fin 5) (on : Option Light) (s : State), ((s.cur.port p).light = false ∨ (on ≠ none ∧ on ≠ some .ps) ∨ (s.cur.port p).sent[i.val]? = some (some (s.cur.levelCode p (s.vis.get (pgOps p) OPS_DRIVE1_G) i).2)) :=
  ⟨0, 2, some .pw, sBurn 2 true, by decide +kernel⟩

theorem met_powerClampLimit : ∃ (p : Fin 4) (s : State), (((List.range 4).any (fun i => decide (max 1 (s.cur.get (pgOwp p) WP_CEIL_LIMIT_G) ≤ ((s.cur.port p).clamped[i]?).getD 0)) = true)) ∧ ((s.cur.port p).limited = false) :=
  ⟨0, mk [] fun d => d.updPort 0 fun o => { o with clamped := Vector.replicate 4 63 }, by decide +kernel⟩

theorem met_powerClampLimitNot : ∃ (p : Fin 4) (s : State), (((List.range 4).any (fun i => decide (max 1 (s.cur.get (pgOwp p) WP_CEIL_LIMIT_G) ≤ ((s.cur.port p).clamped[i]?).getD 0)) = false ∨ (s.cur.port p).limited = true)) :=
  ⟨0, mk [], by decide +kernel⟩

theorem met_fastInhibit : ∃ (p : Fin 4) (j : BurnJob) (f : Nat) (s : State), ((s.cur.port p).job = some j) ∧ ((s.cur.port p).light = true) ∧ (s.cur.shockOut = true) ∧ ((1 &&& s.cur.get (pgOwp p) WP_INH_CAUSE_EN) ≠ 0) ∧ (f < lastSlot (s.cur.burnDense p)) ∧ (j.posted + 1 < j.count) ∧ (2 ≤ s.cur.owpFree p) ∧ (j.inhibits + 1 ≤ s.cur.get (pgOwp p) WP_RESUME_MAX_INH) :=
  ⟨0, bjob, 30, let s := sBurn 2 true; let d := { s.cur with lnk := { s.cur.lnk with compHigh := true } }; { cur := d, vis := d }, by decide +kernel⟩

theorem met_fastInhibitTrack : ∃ (p : Fin 4) (j : BurnJob) (f : Nat) (x : Int) (s : State), ((s.cur.port p).job = some j) ∧ ((s.cur.port p).light = true) ∧ (0 < s.cur.get (pgOwp p) WP_FAST_TE_FAST) ∧ ((s.cur.get (pgOwp p) WP_FAST_TE_FAST : Int) < x) ∧ ((2 &&& s.cur.get (pgOwp p) WP_INH_CAUSE_EN) ≠ 0) ∧ (f < lastSlot (s.cur.burnDense p)) ∧ (j.posted + 1 < j.count) ∧ (2 ≤ s.cur.owpFree p) ∧ (j.inhibits + 1 ≤ s.cur.get (pgOwp p) WP_RESUME_MAX_INH) :=
  ⟨0, bjob, 30, 900, sBurn 2 true [(pgOwp 0, WP_FAST_TE_FAST, 800)], by decide +kernel⟩

theorem met_fastInhibitFocus : ∃ (p : Fin 4) (j : BurnJob) (f : Nat) (x : Int) (s : State), ((s.cur.port p).job = some j) ∧ ((s.cur.port p).light = true) ∧ (0 < s.cur.get (pgOwp p) WP_FAST_FE_FAST) ∧ (x < -(s.cur.get (pgOwp p) WP_FAST_FE_FAST : Int)) ∧ ((4 &&& s.cur.get (pgOwp p) WP_INH_CAUSE_EN) ≠ 0) ∧ (f < lastSlot (s.cur.burnDense p)) ∧ (j.posted + 1 < j.count) ∧ (2 ≤ s.cur.owpFree p) ∧ (j.inhibits + 1 ≤ s.cur.get (pgOwp p) WP_RESUME_MAX_INH) :=
  ⟨0, bjob, 30, -900, sBurn 2 true [(pgOwp 0, WP_FAST_FE_FAST, 800)], by decide +kernel⟩

theorem met_fastInhibitNot : ∃ (p : Fin 4) (x : Int) (s : State), (s.cur.get (pgOwp p) WP_FAST_TE_FAST = 0 ∨ (x ≤ s.cur.get (pgOwp p) WP_FAST_TE_FAST ∧ -(s.cur.get (pgOwp p) WP_FAST_TE_FAST : Int) ≤ x) ∨ bit (s.cur.get (pgOwp p) WP_INH_CAUSE_EN) 1 = false) :=
  ⟨0, 900, sBurn 2 true [(pgOwp 0, WP_FAST_TE_FAST, 0)], by decide +kernel⟩

theorem met_immediateInhibit : ∃ (p : Fin 4) (j : BurnJob) (f : Nat) (s : State), ((s.cur.port p).job = some j) ∧ ((s.cur.port p).light = true) ∧ ((2 ^ 10 &&& s.cur.get (pgOwp p) WP_INH_CAUSE_EN) ≠ 0) ∧ (f < lastSlot (s.cur.burnDense p)) ∧ (j.posted + 1 < j.count) ∧ (2 ≤ s.cur.owpFree p) ∧ (j.inhibits + 1 ≤ s.cur.get (pgOwp p) WP_RESUME_MAX_INH) :=
  ⟨0, bjob, 30, sBurn 2 true, by decide +kernel⟩

theorem met_immediateInhibitData : ∃ (p : Fin 4) (j : BurnJob) (f : Nat) (s : State), ((s.cur.port p).job = some j) ∧ ((s.cur.port p).light = true) ∧ ((2 ^ 6 &&& s.cur.get (pgOwp p) WP_INH_CAUSE_EN) ≠ 0) ∧ (f < lastSlot (s.cur.burnDense p)) ∧ (j.posted + 1 < j.count) ∧ (2 ≤ s.cur.owpFree p) ∧ (j.inhibits + 1 ≤ s.cur.get (pgOwp p) WP_RESUME_MAX_INH) :=
  ⟨0, bjob, 30, sBurn 2 true, by decide +kernel⟩

theorem met_immediateInhibitLimit : ∃ (p : Fin 4) (j : BurnJob) (f : Nat) (b : Bool) (s : State), ((s.cur.port p).job = some j) ∧ ((s.cur.port p).light = true) ∧ (((if b then 2 ^ 10 else 2 ^ 6) &&& s.cur.get (pgOwp p) WP_INH_CAUSE_EN ≠ 0)) ∧ (s.cur.get (pgOwp p) WP_RESUME_MAX_INH < j.inhibits + 1) ∧ (1 ≤ s.cur.owpFree p) ∧ (f < lastSlot (s.cur.burnDense p)) :=
  ⟨0, { bjob with inhibits := 7 }, 30, true, sBurn 2 true [] { bjob with inhibits := 7 }, by decide +kernel⟩

theorem met_grainInhibit : ∃ (p : Fin 4) (j : BurnJob) (f : Nat) (s : State), ((s.cur.port p).job = some j) ∧ ((s.cur.port p).light = true) ∧ ((Dev.grainCauses s.vis s.cur p &&& s.cur.get (pgOwp p) WP_INH_CAUSE_EN) ≠ 0) ∧ (f < lastSlot (s.cur.burnDense p)) ∧ (j.posted + 1 < j.count) ∧ (2 ≤ s.cur.owpFree p) ∧ (j.inhibits + 1 ≤ s.cur.get (pgOwp p) WP_RESUME_MAX_INH) :=
  ⟨0, bjob, 30, sBurn 2 true, by decide +kernel⟩

theorem met_grainInhibitBetween : ∃ (p : Fin 4) (j : BurnJob) (s : State), ((s.cur.port p).job = some j) ∧ ((s.cur.port p).light = true) ∧ ((Dev.grainCauses s.vis s.cur p &&& s.cur.get (pgOwp p) WP_INH_CAUSE_EN) ≠ 0) ∧ (j.posted < j.count) ∧ (1 ≤ s.cur.owpFree p) ∧ (j.inhibits + 1 ≤ s.cur.get (pgOwp p) WP_RESUME_MAX_INH) :=
  ⟨0, bjob, sBurn 2 true, by decide +kernel⟩

theorem met_grainInhibitNot : ∃ (p : Fin 4) (s : State), ((Dev.grainCauses s.vis s.cur p &&& s.cur.get (pgOwp p) WP_INH_CAUSE_EN) = 0 ∨ (s.cur.port p).light = false ∨ (s.cur.port p).job = none) :=
  ⟨0, sBurn 1 false, by decide +kernel⟩

theorem met_burnRearm : ∃ (p : Fin 4) (k : Nat) (s : State), (s.cur.get (pgOwp p) WP_JOB_STAT_STATE = 3) ∧ (Dev.causesNow s.vis s.cur p = 0) ∧ (s.vis.serving p = some k) ∧ (s.vis.flag (pgFth k) FTH_WOB_LOCKED = true) ∧ ((s.cur.port p).clearSince + max 1 (s.cur.get (pgOwp p) WP_RESUME_RESUME_G) ≤ s.cur.gtime) :=
  ⟨0, 0, stOf ((sBurn 3 false [(pgFth 0, FTH_WOB_LOCKED, 1), (pgOwp 0, WP_INH_CAUSE_EN, 8)]).cur), by decide +kernel⟩

theorem met_burnRearmNot : ∃ (p : Fin 4) (s : State), (s.cur.get (pgOwp p) WP_JOB_STAT_STATE ≠ 3 ∨ Dev.causesNow s.vis s.cur p ≠ 0 ∨ s.vis.serving p = none ∨ s.cur.gtime < (s.cur.port p).clearSince + max 1 (s.cur.get (pgOwp p) WP_RESUME_RESUME_G)) :=
  ⟨0, sBurn 1 false, by decide +kernel⟩

theorem met_positionTimeout : ∃ (p : Fin 4) (j : BurnJob) (s : State), ((s.cur.port p).job = some j) ∧ (s.cur.get (pgOwp p) WP_JOB_STAT_STATE = 1) ∧ (j.armedAt + max 1 (s.cur.get (pgOwp p) WP_RESUME_POS_TO_G) ≤ s.cur.gtime) :=
  ⟨0, bjob, sBurn 1 false [(pgOwp 0, WP_RESUME_POS_TO_G, 300)], by decide +kernel⟩

theorem met_positionTimeoutNot : ∃ (p : Fin 4) (j : BurnJob) (s : State), ((s.cur.port p).job = some j) ∧ (s.cur.get (pgOwp p) WP_JOB_STAT_STATE ≠ 1 ∨ s.cur.gtime < j.armedAt + max 1 (s.cur.get (pgOwp p) WP_RESUME_POS_TO_G)) :=
  ⟨0, bjob, sBurn 3 false, by decide +kernel⟩

theorem met_burnJobAbort : ∃ (p : Fin 4) (j : BurnJob) (s : State), ((s.cur.port p).job = some j) :=
  ⟨0, bjob, sBurn 3 false, by decide +kernel⟩

theorem met_burnJobAbortWriting : ∃ (p : Fin 4) (j : BurnJob) (f : Nat) (s : State), ((s.cur.port p).job = some j) ∧ ((s.cur.port p).light = true) ∧ (1 ≤ s.cur.owpFree p) ∧ (f < lastSlot (s.cur.burnDense p)) :=
  ⟨0, bjob, 30, sBurn 2 true, by decide +kernel⟩

theorem met_verifyCompare : ∃ (p : Fin 4) (k : Fin 5) (r : FRec) (l : List FRec) (s : State), (s.cur.serving p = some k.val) ∧ (s.cur.get (pgFth k) FTH_CTL_FORMAT ≠ 2) ∧ ((s.cur.fthc k).compare = r :: l) ∧ (s.cur.owp.tickets = []) ∧ (1 ≤ s.cur.owpFree p) ∧ (r.status ≠ some 0) ∧ (r.status ≠ some 1) ∧ (r.status ≠ some 6) :=
  ⟨0, 0, recV 2, [], sVfy 2, by decide +kernel⟩

theorem met_verifyCompareOk : ∃ (p : Fin 4) (k : Fin 5) (r : FRec) (l : List FRec) (s : State), (s.cur.serving p = some k.val) ∧ (s.cur.get (pgFth k) FTH_CTL_FORMAT ≠ 2) ∧ ((s.cur.fthc k).compare = r :: l) ∧ (s.cur.owp.tickets = []) ∧ (1 ≤ s.cur.owpFree p) ∧ (memRead s.cur.mem (s.cur.get64 (pgOwp p) WP_VFY_SRC_LO WP_VFY_SRC_HI / 4096 * 4096 + r.index * 65536) 65536 = padTo 65536 r.data) ∧ (r.status = some 0) ∧ (r.maxCorr ≤ s.cur.get (pgOwp p) WP_VMARGIN_VM_CORR) ∧ (r.ins ≤ s.cur.get (pgOwp p) WP_VMARGIN_VM_SYNC) ∧ (r.defFrames ≤ s.cur.get (pgOwp p) WP_VMARGIN_VM_DEF) ∧ (r.bis ≤ s.cur.get (pgOwp p) WP_VMARGIN_VM_BIS) :=
  ⟨0, 0, recV 0, [], sVfy 0, by decide +kernel, by decide +kernel, by decide +kernel, by decide +kernel, by decide +kernel, vfy_eq _ _, by decide⟩

theorem met_verifyCompareMargin : ∃ (p : Fin 4) (k : Fin 5) (r : FRec) (l : List FRec) (s : State), (s.cur.serving p = some k.val) ∧ (s.cur.get (pgFth k) FTH_CTL_FORMAT ≠ 2) ∧ ((s.cur.fthc k).compare = r :: l) ∧ (s.cur.owp.tickets = []) ∧ (1 ≤ s.cur.owpFree p) ∧ (memRead s.cur.mem (s.cur.get64 (pgOwp p) WP_VFY_SRC_LO WP_VFY_SRC_HI / 4096 * 4096 + r.index * 65536) 65536 = padTo 65536 r.data) ∧ (r.status = some 0) ∧ (s.cur.get (pgOwp p) WP_VMARGIN_VM_SYNC < r.ins ∨ s.cur.get (pgOwp p) WP_VMARGIN_VM_DEF < r.defFrames) :=
  ⟨0, 0, { recV 0 with ins := 300 }, [], mk [(pgFth 0, FTH_MAP_PORT, 0)] fun d => d.updFth 0 fun c => { c with compare := [{ recV 0 with ins := 300 }] }, by decide +kernel, by decide +kernel, by decide +kernel, by decide +kernel, by decide +kernel, vfy_eq _ _, by decide⟩

theorem met_verifyCompareMismatch : ∃ (p : Fin 4) (k : Fin 5) (r : FRec) (l : List FRec) (s : State), (s.cur.serving p = some k.val) ∧ (s.cur.get (pgFth k) FTH_CTL_FORMAT ≠ 2) ∧ ((s.cur.fthc k).compare = r :: l) ∧ (s.cur.owp.tickets = []) ∧ (1 ≤ s.cur.owpFree p) ∧ (memRead s.cur.mem (s.cur.get64 (pgOwp p) WP_VFY_SRC_LO WP_VFY_SRC_HI / 4096 * 4096 + r.index * 65536) 65536 ≠ padTo 65536 r.data) ∧ (r.status = some 0) :=
  ⟨0, 0, { recV 0 with data := [1] }, [], mk [(pgFth 0, FTH_MAP_PORT, 0)] fun d => d.updFth 0 fun c => { c with compare := [{ recV 0 with data := [1] }] }, by decide +kernel, by decide +kernel, by decide +kernel, by decide +kernel, by decide +kernel, vfy_ne _ 65535, by decide⟩

theorem met_verifyCompareDenseOk : ∃ (p : Fin 4) (k : Fin 5) (r : FRec) (l : List FRec) (s : State), (s.cur.serving p = some k.val) ∧ (s.cur.get (pgFth k) FTH_CTL_FORMAT = 2) ∧ ((s.cur.fthc k).compare = r :: l) ∧ (s.cur.owp.tickets = []) ∧ (1 ≤ s.cur.owpFree p) ∧ (memRead s.cur.mem (s.cur.get64 (pgOwp p) WP_VFY_SRC_LO WP_VFY_SRC_HI / 4096 * 4096 + r.index * 65536) 65536 = padTo 65536 r.data) ∧ (r.status = some 0) ∧ (r.maxCorr ≤ s.cur.get (pgOwp p) WP_VMARGIN_VM_CORR * 16) ∧ (r.ins ≤ s.cur.get (pgOwp p) WP_VMARGIN_VM_SYNC) ∧ (r.defFrames ≤ s.cur.get (pgOwp p) WP_VMARGIN_VM_DEF) :=
  ⟨0, 0, recV 0, [], mk [(pgFth 0, FTH_MAP_PORT, 0), (pgFth 0, FTH_CTL_FORMAT, 2)] fun d => d.updFth 0 fun c => { c with compare := [recV 0] }, by decide +kernel, by decide +kernel, by decide +kernel, by decide +kernel, by decide +kernel, vfy_eq _ _, by decide⟩

theorem met_verifyCompareAborted : ∃ (p : Fin 4) (k : Fin 5) (r : FRec) (l : List FRec) (s : State), (s.cur.serving p = some k.val) ∧ (s.cur.get (pgFth k) FTH_CTL_FORMAT ≠ 2) ∧ ((s.cur.fthc k).compare = r :: l) ∧ (s.cur.owp.tickets = []) ∧ (1 ≤ s.cur.owpFree p) ∧ (r.status = some 6) :=
  ⟨0, 0, recV 6, [], sVfy 6, by decide +kernel⟩

theorem met_verifyCompareNone : ∃ (p : Fin 4) (s : State), (s.cur.serving p = none) :=
  ⟨0, mk [(pgFth 0, FTH_MAP_PORT, 7), (pgFth 1, FTH_MAP_PORT, 7), (pgFth 2, FTH_MAP_PORT, 7), (pgFth 3, FTH_MAP_PORT, 7), (pgFth 4, FTH_MAP_PORT, 7)], by decide +kernel⟩

theorem met_arOpen : ∃ (i : Fin 4096) (s : State), (s.cur.ticketState i = 1) ∧ ((s.vis.lane (bits (s.cur.ticketNat i 0 4) 0 20)).state = .sealed ∨ (s.vis.lane (bits (s.cur.ticketNat i 0 4) 0 20)).state = .archived) ∧ ((s.cur.ticketStep i = 32 → s.cur.ticketNat i 4 4 % 32 = 0)) :=
  ⟨1, sTicket 1 .sealed, by decide +kernel⟩

theorem met_arOpenState : ∃ (i : Fin 4096) (s : State), (s.cur.ticketState i ≠ 1) :=
  ⟨1, sTicket 3 .sealed, by decide +kernel⟩

theorem met_arOpenLane : ∃ (i : Fin 4096) (s : State), (s.cur.ticketState i = 1) ∧ ((s.vis.lane (bits (s.cur.ticketNat i 0 4) 0 20)).state ≠ .sealed) ∧ ((s.vis.lane (bits (s.cur.ticketNat i 0 4) 0 20)).state ≠ .archived) :=
  ⟨1, sTicket 1 .open, by decide +kernel⟩

theorem met_arCancel : ∃ (i : Fin 4096) (s : State), ((s.cur.ticketState i = 2 ∨ s.cur.ticketState i = 3 ∨ s.cur.ticketState i = 4)) :=
  ⟨1, sTicket 2 .sealed, by decide +kernel⟩

theorem met_arCancelState : ∃ (i : Fin 4096) (s : State), (¬(s.cur.ticketState i = 2 ∨ s.cur.ticketState i = 3 ∨ s.cur.ticketState i = 4)) :=
  ⟨1, sTicket 1 .sealed, by decide +kernel⟩

theorem met_manifestVerifyDone : ∃ (i : Fin 4096) (x : Ticket) (s : State), ((s.cur.owp.tickets.find? (fun x => x.index == i.val && x.signature) = some x)) ∧ (s.vis.stg.signing = none) ∧ (s.cur.get64 pgWarc AR_TBL_BASE_LO AR_TBL_BASE_HI ≠ 0) :=
  ⟨1, tickS, sTicket 2 .sealed [] [tickS], by decide +kernel⟩

theorem met_manifestVerifyDoneNot : ∃ (i : Fin 4096) (s : State), ((s.cur.owp.tickets.find? (fun x => x.index == i.val && x.signature) = none ∨ s.vis.stg.signing ≠ none)) :=
  ⟨1, sTicket 2 .sealed, by decide +kernel⟩

theorem met_arCommit : ∃ (i : Fin 4096) (s : State), (s.cur.rsv.committing = false) ∧ (s.cur.ticketState i = 3) ∧ ((s.cur.lane (bits (s.cur.ticketNat i 0 4) 0 20)).state = .sealed) ∧ ((s.cur.lane (bits (s.cur.ticketNat i 0 4) 0 20)).sealLsn = s.cur.ticketNat i 32 8) ∧ (s.cur.flag pgRsv RSV_STAT_PF = false) ∧ (s.cur.flag pgLdg LDG_CTL_ACCEPT_EN = true) ∧ (s.cur.flag pgLdg LDG_CTL_ACTIVATE = false) ∧ (s.vis.flag pgRsv RSV_STAT_BELOW_MIN = false) ∧ (s.vis.flag pgRsv RSV_STAT_DEFICIT = false) ∧ (s.cur.promised + s.cur.get pgRsv RSV_E_UNIT_E_REC ≤ s.vis.get pgRsv RSV_AVAIL) :=
  ⟨1, sTicket 3 .sealed, by decide +kernel⟩

theorem met_arCommitReserve : ∃ (i : Fin 4096) (s : State), (s.cur.rsv.committing = false) ∧ (s.cur.ticketState i = 3) ∧ ((s.cur.lane (bits (s.cur.ticketNat i 0 4) 0 20)).state = .sealed) ∧ ((s.cur.lane (bits (s.cur.ticketNat i 0 4) 0 20)).sealLsn = s.cur.ticketNat i 32 8) ∧ (s.cur.flag pgRsv RSV_STAT_PF = false) ∧ (s.cur.flag pgLdg LDG_CTL_ACCEPT_EN = true) ∧ (s.cur.flag pgLdg LDG_CTL_ACTIVATE = false) ∧ (s.vis.get pgRsv RSV_AVAIL < s.cur.promised + s.cur.get pgRsv RSV_E_UNIT_E_REC) :=
  ⟨1, sTicket 3 .sealed [(pgRsv, RSV_AVAIL, 0), (pgRsv, RSV_E_UNIT_E_REC, 5)], by decide +kernel⟩

theorem met_arCommitState : ∃ (i : Fin 4096) (s : State), (s.cur.rsv.committing = false) ∧ (s.cur.ticketState i ≠ 3) :=
  ⟨1, sTicket 2 .sealed, by decide +kernel⟩

theorem met_archiveRecordSettle : ∃ (x : BgRec) (ref : Nat) (s : State), (s.cur.rsv.committing = false) ∧ (s.cur.ldg.background = [x]) ∧ (x.kind = .archive ref) ∧ (s.vis.recordSettled x = true) :=
  ⟨{ kind := .archive 9, lane := 7, bay := some 0, delta := some 0 }, 9, sArch, by decide +kernel⟩

theorem met_archiveRecordSettleNot : ∃ (s : State), (s.cur.ldg.background = []) :=
  ⟨sTicket 5 .sealed, by decide +kernel⟩

theorem met_opsStop : ∃ (p : Fin 4) (s : State), ((s.cur.optPort p).cmdTaken = false) ∧ ((s.cur.optPort p).op = .none) :=
  ⟨0, sOps 7 .none, by decide +kernel⟩

theorem met_opsStopAborts : ∃ (p : Fin 4) (s : State), ((s.cur.optPort p).cmdTaken = false) ∧ ((s.cur.optPort p).op ≠ .none) :=
  ⟨0, sOps 4 (jmp .kick), by decide +kernel⟩

theorem met_focusOn : ∃ (p : Fin 4) (s : State), ((s.cur.optPort p).cmdTaken = false) ∧ (s.cur.get (pgOps p) OPS_STAT_STATE ≠ 7) ∧ (s.cur.starts (pgOps p) = true) ∧ (s.vis.get (pgOps p) OPS_STAT_STATE = 0) :=
  ⟨0, sOps 0 .none, by decide +kernel⟩

theorem met_trackOn : ∃ (p : Fin 4) (s : State), ((s.cur.optPort p).cmdTaken = false) ∧ (s.cur.get (pgOps p) OPS_STAT_STATE ≠ 7) ∧ (s.cur.starts (pgOps p) = true) ∧ (s.vis.get (pgOps p) OPS_STAT_STATE = 2) :=
  ⟨0, sOps 2 .none [(pgOps 0, OPS_LOOP_CLOSED, 1)], by decide +kernel⟩

theorem met_trackOff : ∃ (p : Fin 4) (s : State), ((s.cur.optPort p).cmdTaken = false) ∧ (s.cur.get (pgOps p) OPS_STAT_STATE ≠ 7) ∧ (s.cur.starts (pgOps p) = true) ∧ (s.vis.get (pgOps p) OPS_STAT_STATE = 3 ∨ s.vis.get (pgOps p) OPS_STAT_STATE = 6) ∧ (s.vis.get (pgOwp p) WP_JOB_STAT_STATE ≠ 2) :=
  ⟨0, sOps 3 .none [(pgOps 0, OPS_LOOP_CLOSED, 3)], by decide +kernel⟩

theorem met_jump : ∃ (p : Fin 4) (arg : BitVec 8) (s : State), ((s.cur.optPort p).cmdTaken = false) ∧ (s.cur.get (pgOps p) OPS_STAT_STATE ≠ 7) ∧ (s.cur.starts (pgOps p) = true) ∧ (s.vis.get (pgOps p) OPS_STAT_STATE = 3) ∧ (s.vis.get (pgOwp p) WP_JOB_STAT_STATE ≠ 2) ∧ ((sext 8 arg.toNat) ≠ 0) ∧ ((sext 8 arg.toNat).natAbs ≤ clampN 1 127 (s.cur.get (pgOps p) OPS_JUMP_JUMP_MAX)) :=
  ⟨0, 0xFF, sOps 3 .none [(pgOps 0, OPS_LOOP_CLOSED, 3)], by decide +kernel⟩

theorem met_jumpRange : ∃ (p : Fin 4) (arg : BitVec 8) (s : State), ((s.cur.optPort p).cmdTaken = false) ∧ (s.cur.get (pgOps p) OPS_STAT_STATE ≠ 7) ∧ (s.cur.starts (pgOps p) = true) ∧ (s.vis.get (pgOps p) OPS_STAT_STATE = 3) ∧ (s.vis.get (pgOwp p) WP_JOB_STAT_STATE ≠ 2) ∧ ((sext 8 arg.toNat) = 0 ∨ clampN 1 127 (s.cur.get (pgOps p) OPS_JUMP_JUMP_MAX) < (sext 8 arg.toNat).natAbs) :=
  ⟨0, 0, sOps 3 .none, by decide +kernel⟩

theorem met_jumpBurning : ∃ (p : Fin 4) (s : State), ((s.cur.optPort p).cmdTaken = false) ∧ (s.cur.get (pgOps p) OPS_STAT_STATE ≠ 7) ∧ (s.cur.starts (pgOps p) = true) ∧ (s.vis.get (pgOps p) OPS_STAT_STATE = 3) ∧ (s.vis.get (pgOwp p) WP_JOB_STAT_STATE = 2) :=
  ⟨0, sOps 3 .none [(pgOwp 0, WP_JOB_STAT_STATE, 2)], by decide +kernel⟩

theorem met_layer : ∃ (p : Fin 4) (arg : BitVec 8) (s : State), ((s.cur.optPort p).cmdTaken = false) ∧ (s.cur.get (pgOps p) OPS_STAT_STATE ≠ 7) ∧ (s.cur.starts (pgOps p) = true) ∧ (s.vis.get (pgOps p) OPS_STAT_STATE = 2 ∨ s.vis.get (pgOps p) OPS_STAT_STATE = 3) ∧ (s.vis.get (pgOwp p) WP_JOB_STAT_STATE ≠ 2) ∧ (0 ≤ (sext 8 arg.toNat)) ∧ ((sext 8 arg.toNat) ≤ 3) ∧ ((sext 8 arg.toNat) ≠ s.cur.get (pgOps p) OPS_STAT_LAYER) :=
  ⟨0, 1, sOps 3 .none [(pgOps 0, OPS_LOOP_CLOSED, 3)], by decide +kernel⟩

theorem met_layerSame : ∃ (p : Fin 4) (arg : BitVec 8) (s : State), ((s.cur.optPort p).cmdTaken = false) ∧ (s.cur.get (pgOps p) OPS_STAT_STATE ≠ 7) ∧ (s.cur.starts (pgOps p) = true) ∧ (s.vis.get (pgOps p) OPS_STAT_STATE = 2 ∨ s.vis.get (pgOps p) OPS_STAT_STATE = 3) ∧ (s.vis.get (pgOwp p) WP_JOB_STAT_STATE ≠ 2) ∧ ((sext 8 arg.toNat) = s.cur.get (pgOps p) OPS_STAT_LAYER) :=
  ⟨0, 0, sOps 2 .none, by decide +kernel⟩

theorem met_layerRange : ∃ (p : Fin 4) (arg : BitVec 8) (s : State), ((s.cur.optPort p).cmdTaken = false) ∧ (s.cur.get (pgOps p) OPS_STAT_STATE ≠ 7) ∧ (s.cur.starts (pgOps p) = true) ∧ (s.vis.get (pgOps p) OPS_STAT_STATE = 2 ∨ s.vis.get (pgOps p) OPS_STAT_STATE = 3) ∧ (s.vis.get (pgOwp p) WP_JOB_STAT_STATE ≠ 2) ∧ ((sext 8 arg.toNat) < 0 ∨ 3 < (sext 8 arg.toNat)) :=
  ⟨0, 4, sOps 2 .none, by decide +kernel⟩

theorem met_lensHold : ∃ (p : Fin 4) (s : State), ((s.cur.optPort p).cmdTaken = false) ∧ (s.cur.get (pgOps p) OPS_STAT_STATE ≠ 7) ∧ (s.cur.starts (pgOps p) = true) ∧ (s.vis.get (pgOps p) OPS_STAT_STATE = 2 ∨ s.vis.get (pgOps p) OPS_STAT_STATE = 3) ∧ (s.vis.get (pgOwp p) WP_JOB_STAT_STATE ≠ 2) :=
  ⟨0, sOps 3 .none [(pgOps 0, OPS_LOOP_CLOSED, 3)], by decide +kernel⟩

theorem met_focusOnState : ∃ (p : Fin 4) (s : State), ((s.cur.optPort p).cmdTaken = false) ∧ (s.cur.get (pgOps p) OPS_STAT_STATE = 7 ∨ ((s.cur.optPort p).op = .none ∧ s.vis.get (pgOps p) OPS_STAT_STATE ≠ 0)) :=
  ⟨0, sOps 7 .none, by decide +kernel⟩

theorem met_focusOnDisabled : ∃ (p : Fin 4) (s : State), ((s.cur.optPort p).cmdTaken = false) ∧ (s.cur.get (pgOps p) OPS_STAT_STATE ≠ 7) ∧ (s.cur.starts (pgOps p) = false) ∧ ((s.cur.optPort p).op = .none) :=
  ⟨0, sOps 3 .none [(pgOps 0, PG_CTL_ENABLE, 0)], by decide +kernel⟩

theorem met_focusOnBusy : ∃ (p : Fin 4) (s : State), ((s.cur.optPort p).cmdTaken = false) ∧ (s.cur.get (pgOps p) OPS_STAT_STATE ≠ 7) ∧ (s.vis.get (pgOps p) OPS_STAT_STATE = 1 ∨ s.vis.get (pgOps p) OPS_STAT_STATE = 4 ∨ s.vis.get (pgOps p) OPS_STAT_STATE = 5) ∧ ((s.cur.optPort p).op ≠ .none) :=
  ⟨0, sOps 4 (jmp .kick), by decide +kernel⟩

theorem met_focusOnSecond : ∃ (p : Fin 4) (s : State), ((s.cur.optPort p).cmdTaken = true) :=
  ⟨0, sOps 0 .none [] fun o => { o with cmdTaken := true }, by decide +kernel⟩

theorem met_trackOnState : ∃ (p : Fin 4) (s : State), ((s.cur.optPort p).cmdTaken = false) ∧ (s.cur.get (pgOps p) OPS_STAT_STATE = 7 ∨ ((s.cur.optPort p).op = .none ∧ s.vis.get (pgOps p) OPS_STAT_STATE ≠ 2)) :=
  ⟨0, sOps 7 .none, by decide +kernel⟩

theorem met_trackOnDisabled : ∃ (p : Fin 4) (s : State), ((s.cur.optPort p).cmdTaken = false) ∧ (s.cur.get (pgOps p) OPS_STAT_STATE ≠ 7) ∧ (s.cur.starts (pgOps p) = false) ∧ ((s.cur.optPort p).op = .none) :=
  ⟨0, sOps 3 .none [(pgOps 0, PG_CTL_ENABLE, 0)], by decide +kernel⟩

theorem met_trackOnBusy : ∃ (p : Fin 4) (s : State), ((s.cur.optPort p).cmdTaken = false) ∧ (s.cur.get (pgOps p) OPS_STAT_STATE ≠ 7) ∧ (s.vis.get (pgOps p) OPS_STAT_STATE = 1 ∨ s.vis.get (pgOps p) OPS_STAT_STATE = 4 ∨ s.vis.get (pgOps p) OPS_STAT_STATE = 5) ∧ ((s.cur.optPort p).op ≠ .none) :=
  ⟨0, sOps 4 (jmp .kick), by decide +kernel⟩

theorem met_trackOnSecond : ∃ (p : Fin 4) (s : State), ((s.cur.optPort p).cmdTaken = true) :=
  ⟨0, sOps 0 .none [] fun o => { o with cmdTaken := true }, by decide +kernel⟩

theorem met_trackOffState : ∃ (p : Fin 4) (s : State), ((s.cur.optPort p).cmdTaken = false) ∧ (s.cur.get (pgOps p) OPS_STAT_STATE = 7 ∨ ((s.cur.optPort p).op = .none ∧ s.vis.get (pgOps p) OPS_STAT_STATE ≠ 3 ∧ s.vis.get (pgOps p) OPS_STAT_STATE ≠ 6)) :=
  ⟨0, sOps 7 .none, by decide +kernel⟩

theorem met_trackOffDisabled : ∃ (p : Fin 4) (s : State), ((s.cur.optPort p).cmdTaken = false) ∧ (s.cur.get (pgOps p) OPS_STAT_STATE ≠ 7) ∧ (s.cur.starts (pgOps p) = false) ∧ ((s.cur.optPort p).op = .none) :=
  ⟨0, sOps 3 .none [(pgOps 0, PG_CTL_ENABLE, 0)], by decide +kernel⟩

theorem met_trackOffBusy : ∃ (p : Fin 4) (s : State), ((s.cur.optPort p).cmdTaken = false) ∧ (s.cur.get (pgOps p) OPS_STAT_STATE ≠ 7) ∧ (s.vis.get (pgOps p) OPS_STAT_STATE = 1 ∨ s.vis.get (pgOps p) OPS_STAT_STATE = 4 ∨ s.vis.get (pgOps p) OPS_STAT_STATE = 5) ∧ ((s.cur.optPort p).op ≠ .none) :=
  ⟨0, sOps 4 (jmp .kick), by decide +kernel⟩

theorem met_trackOffSecond : ∃ (p : Fin 4) (s : State), ((s.cur.optPort p).cmdTaken = true) :=
  ⟨0, sOps 0 .none [] fun o => { o with cmdTaken := true }, by decide +kernel⟩

theorem met_jumpState : ∃ (p : Fin 4) (s : State), ((s.cur.optPort p).cmdTaken = false) ∧ (s.cur.get (pgOps p) OPS_STAT_STATE = 7 ∨ ((s.cur.optPort p).op = .none ∧ s.vis.get (pgOps p) OPS_STAT_STATE ≠ 3)) :=
  ⟨0, sOps 7 .none, by decide +kernel⟩

theorem met_jumpDisabled : ∃ (p : Fin 4) (s : State), ((s.cur.optPort p).cmdTaken = false) ∧ (s.cur.get (pgOps p) OPS_STAT_STATE ≠ 7) ∧ (s.cur.starts (pgOps p) = false) ∧ ((s.cur.optPort p).op = .none) :=
  ⟨0, sOps 3 .none [(pgOps 0, PG_CTL_ENABLE, 0)], by decide +kernel⟩

theorem met_jumpBusy : ∃ (p : Fin 4) (s : State), ((s.cur.optPort p).cmdTaken = false) ∧ (s.cur.get (pgOps p) OPS_STAT_STATE ≠ 7) ∧ (s.vis.get (pgOps p) OPS_STAT_STATE = 1 ∨ s.vis.get (pgOps p) OPS_STAT_STATE = 4 ∨ s.vis.get (pgOps p) OPS_STAT_STATE = 5) ∧ ((s.cur.optPort p).op ≠ .none) :=
  ⟨0, sOps 4 (jmp .kick), by decide +kernel⟩

theorem met_jumpSecond : ∃ (p : Fin 4) (s : State), ((s.cur.optPort p).cmdTaken = true) :=
  ⟨0, sOps 0 .none [] fun o => { o with cmdTaken := true }, by decide +kernel⟩

theorem met_layerState : ∃ (p : Fin 4) (s : State), ((s.cur.optPort p).cmdTaken = false) ∧ (s.cur.get (pgOps p) OPS_STAT_STATE = 7 ∨ ((s.cur.optPort p).op = .none ∧ s.vis.get (pgOps p) OPS_STAT_STATE ≠ 2 ∧ s.vis.get (pgOps p) OPS_STAT_STATE ≠ 3)) :=
  ⟨0, sOps 7 .none, by decide +kernel⟩

theorem met_layerDisabled : ∃ (p : Fin 4) (s : State), ((s.cur.optPort p).cmdTaken = false) ∧ (s.cur.get (pgOps p) OPS_STAT_STATE ≠ 7) ∧ (s.cur.starts (pgOps p) = false) ∧ ((s.cur.optPort p).op = .none) :=
  ⟨0, sOps 3 .none [(pgOps 0, PG_CTL_ENABLE, 0)], by decide +kernel⟩

theorem met_layerBusy : ∃ (p : Fin 4) (s : State), ((s.cur.optPort p).cmdTaken = false) ∧ (s.cur.get (pgOps p) OPS_STAT_STATE ≠ 7) ∧ (s.vis.get (pgOps p) OPS_STAT_STATE = 1 ∨ s.vis.get (pgOps p) OPS_STAT_STATE = 4 ∨ s.vis.get (pgOps p) OPS_STAT_STATE = 5) ∧ ((s.cur.optPort p).op ≠ .none) :=
  ⟨0, sOps 4 (jmp .kick), by decide +kernel⟩

theorem met_layerSecond : ∃ (p : Fin 4) (s : State), ((s.cur.optPort p).cmdTaken = true) :=
  ⟨0, sOps 0 .none [] fun o => { o with cmdTaken := true }, by decide +kernel⟩

theorem met_lensHoldState : ∃ (p : Fin 4) (s : State), ((s.cur.optPort p).cmdTaken = false) ∧ (s.cur.get (pgOps p) OPS_STAT_STATE = 7 ∨ ((s.cur.optPort p).op = .none ∧ s.vis.get (pgOps p) OPS_STAT_STATE ≠ 2 ∧ s.vis.get (pgOps p) OPS_STAT_STATE ≠ 3)) :=
  ⟨0, sOps 7 .none, by decide +kernel⟩

theorem met_lensHoldDisabled : ∃ (p : Fin 4) (s : State), ((s.cur.optPort p).cmdTaken = false) ∧ (s.cur.get (pgOps p) OPS_STAT_STATE ≠ 7) ∧ (s.cur.starts (pgOps p) = false) ∧ ((s.cur.optPort p).op = .none) :=
  ⟨0, sOps 3 .none [(pgOps 0, PG_CTL_ENABLE, 0)], by decide +kernel⟩

theorem met_lensHoldBusy : ∃ (p : Fin 4) (s : State), ((s.cur.optPort p).cmdTaken = false) ∧ (s.cur.get (pgOps p) OPS_STAT_STATE ≠ 7) ∧ (s.vis.get (pgOps p) OPS_STAT_STATE = 1 ∨ s.vis.get (pgOps p) OPS_STAT_STATE = 4 ∨ s.vis.get (pgOps p) OPS_STAT_STATE = 5) ∧ ((s.cur.optPort p).op ≠ .none) :=
  ⟨0, sOps 4 (jmp .kick), by decide +kernel⟩

theorem met_lensHoldSecond : ∃ (p : Fin 4) (s : State), ((s.cur.optPort p).cmdTaken = true) :=
  ⟨0, sOps 0 .none [] fun o => { o with cmdTaken := true }, by decide +kernel⟩

theorem met_sCurveCrossing : ∃ (p : Fin 4) (b : Bool) (c : Nat) (s : State), ((s.cur.optPort p).op = .search b c false) ∧ (0 < s.cur.sCurves p) ∧ (c + s.cur.sCurves p < s.cur.get (pgOps p) OPS_SEARCH2_FS_LAYER + 1) :=
  ⟨0, false, 0, sOps 1 (.search false 0 false) [(pgOps 0, OPS_SEARCH2_FS_LAYER, 2)] (row7 (2 ^ 30) 1), by decide +kernel⟩

theorem met_sCurveCrossingCloses : ∃ (p : Fin 4) (b : Bool) (c : Nat) (s : State), ((s.cur.optPort p).op = .search b c false) ∧ (0 < s.cur.sCurves p) ∧ (s.cur.get (pgOps p) OPS_SEARCH2_FS_LAYER + 1 ≤ c + s.cur.sCurves p) :=
  ⟨0, false, 0, sOps 1 (.search false 0 false) [] (row7 (2 ^ 30) 1), by decide +kernel⟩

theorem met_sCurveCrossingNot : ∃ (p : Fin 4) (s : State), (s.cur.sCurves p = 0) :=
  ⟨0, sOps 1 (.search false 0 false), by decide +kernel⟩

theorem met_searchSweepEnd : ∃ (p : Fin 4) (c : Nat) (s : State), ((s.cur.optPort p).op = .search false c false) ∧ (s.vis.getI (pgOps p) OPS_DRIVE0_FCS = limitCode (s.cur.get (pgOps p) OPS_ILIM_FCS_MA) (s.cur.getI (pgOps p) OPS_SEARCH_FS_END)) :=
  ⟨0, 0, sOps 1 (.search false 0 false) [(pgOps 0, OPS_SEARCH_FS_END, 0)], by decide +kernel⟩

theorem met_searchSweepEndFails : ∃ (p : Fin 4) (c : Nat) (s : State), ((s.cur.optPort p).op = .search true c false) ∧ (s.vis.getI (pgOps p) OPS_DRIVE0_FCS = limitCode (s.cur.get (pgOps p) OPS_ILIM_FCS_MA) (s.cur.getI (pgOps p) OPS_SEARCH_FS_START)) :=
  ⟨0, 0, sOps 1 (.search true 0 false) [(pgOps 0, OPS_SEARCH_FS_START, 0)], by decide +kernel⟩

theorem met_searchSweepEndNot : ∃ (p : Fin 4) (c : Nat) (s : State), ((s.cur.optPort p).op = .search false c false) ∧ (s.vis.getI (pgOps p) OPS_DRIVE0_FCS ≠ limitCode (s.cur.get (pgOps p) OPS_ILIM_FCS_MA) (s.cur.getI (pgOps p) OPS_SEARCH_FS_END)) :=
  ⟨0, 0, sOps 1 (.search false 0 false), by decide +kernel⟩

theorem met_focusSettled : ∃ (p : Fin 4) (b : Bool) (c : Nat) (s : State), ((s.cur.optPort p).op = .search b c true) ∧ (s.cur.get (pgOps p) OPS_TIMES_FOK_G ≤ (s.cur.optPort p).settle) :=
  ⟨0, false, 1, sOps 1 (.search false 1 true) [] fun o => { o with settle := 255 }, by decide +kernel⟩

theorem met_focusSettledLayer : ∃ (p : Fin 4) (h : Int) (st a m : Nat) (s : State), ((s.cur.optPort p).op = .layer m false h st a .focus) ∧ (s.cur.get (pgOps p) OPS_TIMES_FOK_G ≤ (s.cur.optPort p).settle) ∧ (s.cur.get (pgOps p) OPS_STAT_LAYER = m) :=
  ⟨0, 200, 5, 6, 1, sOps 5 (lay .focus) [(pgOps 0, OPS_STAT_LAYER, 1)] fun o => { o with settle := 255 }, by decide +kernel⟩

theorem met_focusSettledTracks : ∃ (p : Fin 4) (h : Int) (st a m : Nat) (s : State), ((s.cur.optPort p).op = .layer m true h st a .focus) ∧ (s.cur.get (pgOps p) OPS_TIMES_FOK_G ≤ (s.cur.optPort p).settle) ∧ (s.cur.get (pgOps p) OPS_STAT_LAYER = m) :=
  ⟨0, 200, 5, 6, 1, sOps 5 (.layer 1 true 200 5 6 .focus) [(pgOps 0, OPS_STAT_LAYER, 1)] fun o => { o with settle := 255 }, by decide +kernel⟩

theorem met_focusSettledNext : ∃ (p : Fin 4) (b : Bool) (h : Int) (st a m : Nat) (s : State), ((s.cur.optPort p).op = .layer m b h st a .focus) ∧ (s.cur.get (pgOps p) OPS_TIMES_FOK_G ≤ (s.cur.optPort p).settle) ∧ (s.cur.get (pgOps p) OPS_STAT_LAYER ≠ m) :=
  ⟨0, false, 200, 5, 6, 1, sOps 5 (lay .focus) [] fun o => { o with settle := 255 }, by decide +kernel⟩

theorem met_focusSettledNot : ∃ (p : Fin 4) (s : State), ((s.cur.optPort p).settle < s.cur.get (pgOps p) OPS_TIMES_FOK_G) :=
  ⟨0, sOps 1 (.search false 1 true), by decide +kernel⟩

theorem met_trackCrossingCount : ∃ (p : Fin 4) (n h : Int) (st c : Nat) (s : State), ((s.cur.optPort p).op = .jump n h st c .kick) ∧ (n.natAbs ≤ c) ∧ (c < 2 * n.natAbs) :=
  ⟨0, 1, 310, 5, 1, sOps 4 (jmp .kick 1), by decide +kernel⟩

theorem met_trackCrossingCountCloses : ∃ (p : Fin 4) (n h : Int) (st c : Nat) (s : State), ((s.cur.optPort p).op = .jump n h st c .brake) ∧ (2 * n.natAbs ≤ c) :=
  ⟨0, 1, 310, 5, 2, sOps 4 (jmp .brake 2), by decide +kernel⟩

theorem met_trackCrossingCountNot : ∃ (p : Fin 4) (n h : Int) (st c : Nat) (s : State), ((s.cur.optPort p).op = .jump n h st c .kick) ∧ (c < n.natAbs) :=
  ⟨0, 1, 310, 5, 0, sOps 4 (jmp .kick), by decide +kernel⟩

theorem met_trackingSettled : ∃ (p : Fin 4) (s : State), ((s.cur.optPort p).op = .trackOn) ∧ (s.cur.get (pgOps p) OPS_TIMES_TOK_G ≤ (s.cur.optPort p).settle) :=
  ⟨0, sOps 2 .trackOn [] fun o => { o with settle := 255 }, by decide +kernel⟩

theorem met_trackingSettledJump : ∃ (p : Fin 4) (n h : Int) (st c : Nat) (s : State), ((s.cur.optPort p).op = .jump n h st c .settle) ∧ (s.cur.get (pgOps p) OPS_TIMES_TOK_G ≤ (s.cur.optPort p).settle) :=
  ⟨0, 1, 310, 5, 0, sOps 4 (jmp .settle) [] fun o => { o with settle := 255 }, by decide +kernel⟩

theorem met_trackingSettledLayer : ∃ (p : Fin 4) (b : Bool) (h : Int) (st a m : Nat) (s : State), ((s.cur.optPort p).op = .layer m b h st a .tracking) ∧ (s.cur.get (pgOps p) OPS_TIMES_TOK_G ≤ (s.cur.optPort p).settle) :=
  ⟨0, false, 200, 5, 6, 1, sOps 5 (lay .tracking) [] fun o => { o with settle := 255 }, by decide +kernel⟩

theorem met_trackingSettledNot : ∃ (p : Fin 4) (s : State), ((s.cur.optPort p).settle < s.cur.get (pgOps p) OPS_TIMES_TOK_G) :=
  ⟨0, sOps 2 .trackOn, by decide +kernel⟩

theorem met_jumpTimeout : ∃ (p : Fin 4) (n h : Int) (st c : Nat) (s : State), ((s.cur.optPort p).op = .jump n h st c .kick) ∧ (c < 2 * n.natAbs) ∧ (st + max 1 (s.cur.get (pgOps p) OPS_TIMES_JUMP_TO_G) ≤ s.cur.gtime) :=
  ⟨0, 1, 310, 5, 0, sOps 4 (jmp .kick), by decide +kernel⟩

theorem met_jumpTimeoutNot : ∃ (p : Fin 4) (n h : Int) (st c : Nat) (ph : JumpPhase) (s : State), ((s.cur.optPort p).op = .jump n h st c ph) ∧ (2 * n.natAbs ≤ c ∨ s.cur.gtime < st + max 1 (s.cur.get (pgOps p) OPS_TIMES_JUMP_TO_G)) :=
  ⟨0, 1, 310, 5, 2, .brake, sOps 4 (jmp .brake 2), by decide +kernel⟩

theorem met_layerJumpTimeout : ∃ (p : Fin 4) (b : Bool) (h : Int) (st a m : Nat) (ph : LayerPhase) (s : State), ((s.cur.optPort p).op = .layer m b h st a ph) ∧ (ph.isOpen = true) ∧ (st + s.cur.get (pgOps p) OPS_LJ_LJ_TO_G ≤ s.cur.gtime) ∧ (s.cur.get (pgOps p) OPS_FL_FL_ACTION = 3) :=
  ⟨0, false, 200, 5, 6, 1, .kick, sOps 5 (lay .kick), by decide +kernel⟩

theorem met_layerJumpTimeoutFlag : ∃ (p : Fin 4) (b : Bool) (h : Int) (st a m : Nat) (ph : LayerPhase) (s : State), ((s.cur.optPort p).op = .layer m b h st a ph) ∧ (ph.isOpen = true) ∧ (st + s.cur.get (pgOps p) OPS_LJ_LJ_TO_G ≤ s.cur.gtime) ∧ (s.cur.get (pgOps p) OPS_FL_FL_ACTION = 0) :=
  ⟨0, false, 200, 5, 6, 1, .kick, sOps 5 (lay .kick) [(pgOps 0, OPS_FL_FL_ACTION, 0)], by decide +kernel⟩

theorem met_layerJumpTimeoutNot : ∃ (p : Fin 4) (b : Bool) (h : Int) (st a m : Nat) (ph : LayerPhase) (s : State), ((s.cur.optPort p).op = .layer m b h st a ph) ∧ (ph.isOpen = false ∨ s.cur.gtime < st + s.cur.get (pgOps p) OPS_LJ_LJ_TO_G) :=
  ⟨0, false, 200, 5, 6, 1, .focus, sOps 5 (lay .focus), by decide +kernel⟩

theorem met_layerKickEnd : ∃ (p : Fin 4) (b : Bool) (h : Int) (st a m : Nat) (s : State), ((s.cur.optPort p).op = .layer m b h st a .kick) ∧ (st + s.cur.get (pgOps p) OPS_LJ_LJ_KICK_G ≤ s.cur.gtime) :=
  ⟨0, false, 200, 5, 6, 1, sOps 5 (lay .kick), by decide +kernel⟩

theorem met_layerKickEndNot : ∃ (p : Fin 4) (b : Bool) (h : Int) (st a m : Nat) (s : State), ((s.cur.optPort p).op = .layer m b h st a .kick) ∧ (s.cur.gtime < st + s.cur.get (pgOps p) OPS_LJ_LJ_KICK_G) :=
  ⟨0, false, 200, 2990, 6, 1, sOps 5 (.layer 1 false 200 2990 6 .kick), by decide +kernel⟩

theorem met_layerCoastEnd : ∃ (p : Fin 4) (b : Bool) (h : Int) (st a m : Nat) (s : State), ((s.cur.optPort p).op = .layer m b h st a (.coast true)) ∧ (s.cur.sumOn p < (s.cur.optPort p).row 7) :=
  ⟨0, false, 200, 5, 6, 1, sOps 5 (lay (.coast true)) [] (row7 (2 ^ 30)), by decide +kernel⟩

theorem met_layerCoastEndNot : ∃ (p : Fin 4) (b : Bool) (h : Int) (st a m : Nat) (l : Bool) (s : State), ((s.cur.optPort p).op = .layer m b h st a (.coast l)) ∧ (l = false ∨ (s.cur.optPort p).row 7 ≤ s.cur.sumOn p) :=
  ⟨0, false, 200, 5, 6, 1, true, sOps 5 (lay (.coast true)), by decide +kernel⟩

theorem met_layerBrakeEnd : ∃ (p : Fin 4) (b : Bool) (h : Int) (st a m : Nat) (s : State), ((s.cur.optPort p).op = .layer m b h st a .brake) ∧ (s.cur.sCurves p = 0) ∧ (a + s.cur.get (pgOps p) OPS_LJ_LJ_BRAKE_G ≤ s.cur.gtime) :=
  ⟨0, false, 200, 5, 6, 1, sOps 5 (lay .brake), by decide +kernel⟩

theorem met_layerBrakeEndCloses : ∃ (p : Fin 4) (b : Bool) (h : Int) (st a m : Nat) (s : State), ((s.cur.optPort p).op = .layer m b h st a .brake) ∧ (0 < s.cur.sCurves p) ∧ (a + 2 ≤ s.cur.gtime) :=
  ⟨0, false, 200, 5, 6, 1, sOps 5 (lay .brake) [] (row7 (2 ^ 30) 1), by decide +kernel⟩

theorem met_layerBrakeEndNot : ∃ (p : Fin 4) (b : Bool) (h : Int) (st a m : Nat) (s : State), ((s.cur.optPort p).op = .layer m b h st a .brake) ∧ (s.cur.sCurves p = 0) ∧ (s.cur.gtime < a + s.cur.get (pgOps p) OPS_LJ_LJ_BRAKE_G) :=
  ⟨0, false, 200, 5, 2990, 1, sOps 5 (.layer 1 false 200 5 2990 .brake), by decide +kernel⟩

theorem met_slotCommit : ∃ (v : Word) , (bit v.toNat 0 = true) :=
  ⟨3, by decide +kernel⟩

theorem met_slotCommitNot : ∃ (v : Word) , (bit v.toNat 0 = false) :=
  ⟨2, by decide +kernel⟩

theorem met_opsLoopWriteDisabled : ∃ (p : Fin 4) (s : State), (s.cur.get (pgOps p) OPS_STAT_STATE ≠ 7) ∧ (s.cur.starts (pgOps p) = false) :=
  ⟨0, mk [(pgOps 0, PG_CTL_ENABLE, 0), (pgOps 0, OPS_LOOP_CLOSED, 0x1C)], by decide +kernel⟩

theorem met_opsLoopWrite : ∃ (p : Fin 4) (s : State), (s.cur.get (pgOps p) OPS_STAT_STATE ≠ 7) ∧ (s.cur.starts (pgOps p) = true) :=
  ⟨0, mk [], by decide +kernel⟩

theorem met_opsLoopWriteSafe : ∃ (p : Fin 4) (s : State), (s.cur.get (pgOps p) OPS_STAT_STATE = 7) :=
  ⟨0, sOps 7 .none, by decide +kernel⟩

theorem met_ellFfDataWrite : ∃ (e : Fin 2) (s : State), (s.vis.enabled (pgEll e) = false) :=
  ⟨0, mk [(pgEll 0, PG_CTL_ENABLE, 0)], by decide +kernel⟩

theorem met_ellFfDataWriteBusy : ∃ (e : Fin 2) (i : Fin 64) (s : State), (s.vis.enabled (pgEll e) = true) ∧ (slotEn (s.vis.slotWords e i) = true) ∧ (slotType (s.vis.slotWords e i) = 6) ∧ (slotLearn (s.vis.slotWords e i) = true) ∧ (slotFfTab (s.vis.slotWords e i) = bits (s.cur.get (pgEll e) ELL_FF_SEL_SEL) 7 2) ∧ (s.vis.loopClosed (2 * e.val + slotPort (s.vis.slotWords e i)) (slotLoop (s.vis.slotWords e i)) = true) :=
  ⟨0, 3, let d := (dev []).wr (pgSlot 0 3 + 0x4C) 0xF0601000; { cur := d, vis := d }, by decide +kernel⟩

theorem met_followingError : ∃ (e : Fin 2) (i : Fin 64) (s : State), (slotEn (s.cur.slotWords e i) = true) ∧ (slotFeEn (s.cur.slotWords e i) = true) ∧ (s.cur.loopClosed (2 * e.val + slotPort (s.cur.slotWords e i)) (slotLoop (s.cur.slotWords e i)) = true) ∧ (((s.cur.engine e).slot i).follow = false) ∧ (slotTimer (s.cur.slotWords e i) ≤ ((s.cur.engine e).slot i).fe) ∧ (slotSafe (s.cur.slotWords e i) = 0) :=
  ⟨0, 3, sFollow 0 25, by decide +kernel⟩

theorem met_followingErrorHold : ∃ (e : Fin 2) (i : Fin 64) (s : State), (slotEn (s.cur.slotWords e i) = true) ∧ (slotFeEn (s.cur.slotWords e i) = true) ∧ (s.cur.loopClosed (2 * e.val + slotPort (s.cur.slotWords e i)) (slotLoop (s.cur.slotWords e i)) = true) ∧ (((s.cur.engine e).slot i).follow = false) ∧ (slotTimer (s.cur.slotWords e i) ≤ ((s.cur.engine e).slot i).fe) ∧ (slotSafe (s.cur.slotWords e i) = 1) :=
  ⟨0, 3, sFollow 1 25, by decide +kernel⟩

theorem met_followingErrorSafe : ∃ (e : Fin 2) (i : Fin 64) (s : State), (slotEn (s.cur.slotWords e i) = true) ∧ (slotFeEn (s.cur.slotWords e i) = true) ∧ (s.cur.loopClosed (2 * e.val + slotPort (s.cur.slotWords e i)) (slotLoop (s.cur.slotWords e i)) = true) ∧ (((s.cur.engine e).slot i).follow = false) ∧ (slotTimer (s.cur.slotWords e i) ≤ ((s.cur.engine e).slot i).fe) ∧ (slotSafe (s.cur.slotWords e i) = 3) :=
  ⟨0, 3, sFollow 3 25, by decide +kernel⟩

theorem met_followingErrorNot : ∃ (e : Fin 2) (i : Fin 64) (s : State), (slotFeEn (s.cur.slotWords e i) = false ∨ s.cur.loopClosed (2 * e.val + slotPort (s.cur.slotWords e i)) (slotLoop (s.cur.slotWords e i)) = false ∨ ((s.cur.engine e).slot i).follow = true ∨ ((s.cur.engine e).slot i).fe < slotTimer (s.cur.slotWords e i)) :=
  ⟨0, 3, sFollow 0 24, by decide +kernel⟩

theorem met_focusLoss : ∃ (p : Fin 4) (s : State), (s.cur.loopClosed p 0 = true) ∧ ((s.cur.optPort p).lost = false) ∧ (max 1 (s.cur.get (pgOps p) OPS_FL_FL_G) ≤ (s.cur.optPort p).flCount) ∧ (s.cur.get (pgOps p) OPS_FL_FL_ACTION = 3) :=
  ⟨0, sOps 3 .none [(pgOps 0, OPS_LOOP_CLOSED, 3)] fun o => { o with flCount := 9 }, by decide +kernel⟩

theorem met_focusLossFlag : ∃ (p : Fin 4) (s : State), (s.cur.loopClosed p 0 = true) ∧ ((s.cur.optPort p).lost = false) ∧ (max 1 (s.cur.get (pgOps p) OPS_FL_FL_G) ≤ (s.cur.optPort p).flCount) ∧ (s.cur.get (pgOps p) OPS_FL_FL_ACTION = 0) :=
  ⟨0, sOps 3 .none [(pgOps 0, OPS_LOOP_CLOSED, 3), (pgOps 0, OPS_FL_FL_ACTION, 0)] fun o => { o with flCount := 9 }, by decide +kernel⟩

theorem met_focusLossNot : ∃ (p : Fin 4) (s : State), (s.cur.loopClosed p 0 = false ∨ (s.cur.optPort p).flCount < max 1 (s.cur.get (pgOps p) OPS_FL_FL_G)) :=
  ⟨0, sOps 3 .none, by decide +kernel⟩

theorem met_servoLaneFail : ∃ (e : Fin 2) (s : State), ((s.cur.engine e).spare = none) :=
  ⟨0, mk [], by decide +kernel⟩

theorem met_servoLaneFailSecond : ∃ (e : Fin 2) (s : State), ((s.cur.engine e).spare ≠ none) :=
  ⟨0, mk [] fun d => d.updEngine 0 fun g => { g with spare := some 2 }, by decide +kernel⟩

theorem met_cmtCoast : ∃ (c : Fin 6) (s : State), ((s.cur.motor c).cmdTaken = false) ∧ (s.cur.motorState c ≠ 6) ∧ (s.vis.motorState c ≠ 6) :=
  ⟨0, sMot 3, by decide +kernel⟩

theorem met_cmtCoastFault : ∃ (c : Fin 6) (s : State), ((s.cur.motor c).cmdTaken = false) ∧ (s.cur.motorState c = 6) :=
  ⟨0, sMot 6, by decide +kernel⟩

theorem met_cmtStart : ∃ (c : Fin 6) (s : State), ((s.cur.motor c).cmdTaken = false) ∧ (s.cur.motorState c ≠ 6) ∧ (s.vis.motorState c = 0) ∧ (s.cur.starts (pgCmt c) = true) ∧ (s.cur.flag (pgCmt c) CMT_CTL_HALL_EN = false) :=
  ⟨0, sMot 0, by decide +kernel⟩

theorem met_cmtStartHall : ∃ (c : Fin 6) (n : Nat) (s : State), ((s.cur.motor c).cmdTaken = false) ∧ (s.cur.motorState c ≠ 6) ∧ (s.vis.motorState c = 0) ∧ (s.cur.starts (pgCmt c) = true) ∧ (s.cur.flag (pgCmt c) CMT_CTL_HALL_EN = true) ∧ (s.cur.hallSector c (s.cur.motor c).hall = some n) :=
  ⟨0, 0, sMot 0 (fun m => { m with hall := 5 }) [(pgCmt 0, CMT_CTL_HALL_EN, 1)], by decide +kernel⟩

theorem met_cmtStartHallNone : ∃ (c : Fin 6) (s : State), ((s.cur.motor c).cmdTaken = false) ∧ (s.cur.motorState c ≠ 6) ∧ (s.vis.motorState c = 0) ∧ (s.cur.starts (pgCmt c) = true) ∧ (s.cur.flag (pgCmt c) CMT_CTL_HALL_EN = true) ∧ (s.cur.hallSector c (s.cur.motor c).hall = none) :=
  ⟨0, sMot 0 (fun m => { m with hall := 7 }) [(pgCmt 0, CMT_CTL_HALL_EN, 1)], by decide +kernel⟩

theorem met_cmtStartState : ∃ (c : Fin 6) (s : State), ((s.cur.motor c).cmdTaken = false) ∧ (s.cur.motorState c = 6 ∨ s.vis.motorState c ≠ 0 ∨ s.cur.starts (pgCmt c) = false) :=
  ⟨0, sMot 3, by decide +kernel⟩

theorem met_cmtBrake : ∃ (c : Fin 6) (s : State), ((s.cur.motor c).cmdTaken = false) ∧ (s.cur.motorState c ≠ 6) ∧ (s.vis.motorState c = 2 ∨ s.vis.motorState c = 3 ∨ s.vis.motorState c = 4) :=
  ⟨0, sMot 3, by decide +kernel⟩

theorem met_cmtBrakeState : ∃ (c : Fin 6) (s : State), ((s.cur.motor c).cmdTaken = false) ∧ (s.cur.motorState c = 6 ∨ (s.vis.motorState c ≠ 2 ∧ s.vis.motorState c ≠ 3 ∧ s.vis.motorState c ≠ 4)) :=
  ⟨0, sMot 1, by decide +kernel⟩

theorem met_cmtClear : ∃ (c : Fin 6) (s : State), ((s.cur.motor c).cmdTaken = false) ∧ (s.cur.motorState c = 6) ∧ ((s.cur.get (pgCmt c) CMT_STAT_FAULT_CODE ≠ 4 ∧ (s.cur.motor c).cause = false) ∨ (s.cur.get (pgCmt c) CMT_STAT_FAULT_CODE = 4 ∧ max 1 (s.cur.get pgVbus VBUS_LIMIT_OV_G) ≤ s.cur.cmt.okCount)) :=
  ⟨0, sMot 6, by decide +kernel⟩

theorem met_cmtClearCause : ∃ (c : Fin 6) (s : State), ((s.cur.motor c).cmdTaken = false) ∧ (s.cur.motorState c = 6) ∧ ((s.cur.get (pgCmt c) CMT_STAT_FAULT_CODE ≠ 4 ∧ (s.cur.motor c).cause = true) ∨ (s.cur.get (pgCmt c) CMT_STAT_FAULT_CODE = 4 ∧ s.cur.cmt.okCount < max 1 (s.cur.get pgVbus VBUS_LIMIT_OV_G))) :=
  ⟨0, sMot 6 fun m => { m with cause := true }, by decide +kernel⟩

theorem met_cmtClearState : ∃ (c : Fin 6) (s : State), ((s.cur.motor c).cmdTaken = false) ∧ (s.cur.motorState c ≠ 6) ∧ (s.vis.motorState c ≠ 6) :=
  ⟨0, sMot 0, by decide +kernel⟩

theorem met_cmtCoastSecond : ∃ (c : Fin 6) (s : State), ((s.cur.motor c).cmdTaken = true) :=
  ⟨0, sMot 3 fun m => { m with cmdTaken := true }, by decide +kernel⟩

theorem met_cmtStartSecond : ∃ (c : Fin 6) (s : State), ((s.cur.motor c).cmdTaken = true) :=
  ⟨0, sMot 3 fun m => { m with cmdTaken := true }, by decide +kernel⟩

theorem met_cmtBrakeSecond : ∃ (c : Fin 6) (s : State), ((s.cur.motor c).cmdTaken = true) :=
  ⟨0, sMot 3 fun m => { m with cmdTaken := true }, by decide +kernel⟩

theorem met_cmtClearSecond : ∃ (c : Fin 6) (s : State), ((s.cur.motor c).cmdTaken = true) :=
  ⟨0, sMot 3 fun m => { m with cmdTaken := true }, by decide +kernel⟩

theorem met_alignEnd : ∃ (c : Fin 6) (s : State), (s.cur.motorState c = 1) ∧ ((s.cur.motor c).since + s.cur.get (pgCmt c) CMT_START0_ALIGN_G ≤ s.cur.gtime) :=
  ⟨0, sMot 1, by decide +kernel⟩

theorem met_alignEndNot : ∃ (c : Fin 6) (s : State), (s.cur.motorState c ≠ 1 ∨ s.cur.gtime < (s.cur.motor c).since + s.cur.get (pgCmt c) CMT_START0_ALIGN_G) :=
  ⟨0, sMot 3, by decide +kernel⟩

theorem met_rampEnd : ∃ (c : Fin 6) (s : State), (s.cur.motorState c = 2) ∧ ((s.cur.motor c).pause = false) ∧ ((s.cur.motor c).since + max 1 (s.cur.get (pgCmt c) CMT_START0_RAMP_G) ≤ s.cur.gtime) ∧ ((s.cur.motor c).tries < max 1 (s.cur.get (pgCmt c) CMT_START2_START_TRIES)) :=
  ⟨0, sMot 2, by decide +kernel⟩

theorem met_rampEndFails : ∃ (c : Fin 6) (s : State), (s.cur.motorState c = 2) ∧ ((s.cur.motor c).pause = false) ∧ ((s.cur.motor c).since + max 1 (s.cur.get (pgCmt c) CMT_START0_RAMP_G) ≤ s.cur.gtime) ∧ (max 1 (s.cur.get (pgCmt c) CMT_START2_START_TRIES) ≤ (s.cur.motor c).tries) :=
  ⟨0, sMot 2 fun m => { m with tries := 15 }, by decide +kernel⟩

theorem met_rampEndNot : ∃ (c : Fin 6) (s : State), (s.cur.motorState c ≠ 2 ∨ (s.cur.motor c).pause = true ∨ s.cur.gtime < (s.cur.motor c).since + max 1 (s.cur.get (pgCmt c) CMT_START0_RAMP_G)) :=
  ⟨0, sMot 3, by decide +kernel⟩

theorem met_startRetry : ∃ (c : Fin 6) (s : State), ((s.cur.motor c).pause = true) ∧ ((s.cur.motor c).since + s.cur.get (pgCmt c) CMT_START0_ALIGN_G ≤ s.cur.gtime) :=
  ⟨0, sMot 2 fun m => { m with pause := true }, by decide +kernel⟩

theorem met_startRetryNot : ∃ (c : Fin 6) (s : State), ((s.cur.motor c).pause = false ∨ s.cur.gtime < (s.cur.motor c).since + s.cur.get (pgCmt c) CMT_START0_ALIGN_G) :=
  ⟨0, sMot 2, by decide +kernel⟩

theorem met_observerHandover : ∃ (c : Fin 6) (s : State), (s.cur.motorState c = 2) ∧ ((s.cur.motor c).pause = false) ∧ (6 ≤ (s.cur.motor c).run) :=
  ⟨0, sMot 2 fun m => { m with run := 6 }, by decide +kernel⟩

theorem met_observerHandoverNot : ∃ (c : Fin 6) (s : State), (s.cur.motorState c ≠ 2 ∨ (s.cur.motor c).pause = true ∨ (s.cur.motor c).run < 6) :=
  ⟨0, sMot 2, by decide +kernel⟩

theorem met_bemfCrossing : ∃ (c : Fin 6) (a : Fin 400) (r cl : Bool) (s : State), (s.cur.motorState c = 3) ∧ (s.cur.flag (pgCmt c) CMT_STAT_OBS_LOCK = true) ∧ (s.cur.crossingValid c ((s.cur.gtime - 1) * 400 + a.val) r cl = true) :=
  ⟨0, 7, false, true, sMot 3 (fun m => m) [(pgCmt 0, CMT_STAT_OBS_LOCK, 1)], by decide +kernel⟩

theorem met_bemfCrossingRampCount : ∃ (c : Fin 6) (a : Fin 400) (r cl : Bool) (s : State), (s.cur.motorState c = 2) ∧ ((s.cur.motor c).pause = false) ∧ (s.cur.crossingValid c ((s.cur.gtime - 1) * 400 + a.val) r cl = true) :=
  ⟨0, 7, false, true, sMot 2 fun m => { m with run := 5 }, by decide +kernel⟩

theorem met_bemfCrossingRamp : ∃ (c : Fin 6) (a : Fin 400) (r cl : Bool) (s : State), (s.cur.motorState c = 2) ∧ ((s.cur.motor c).pause = false) ∧ (s.cur.crossingValid c ((s.cur.gtime - 1) * 400 + a.val) r cl = false) :=
  ⟨0, 7, true, true, sMot 2, by decide +kernel⟩

theorem met_bemfCrossingNot : ∃ (c : Fin 6) (a : Fin 400) (r cl : Bool) (s : State), (s.cur.motorState c = 3) ∧ (s.cur.crossingValid c ((s.cur.gtime - 1) * 400 + a.val) r cl = false) :=
  ⟨0, 7, true, true, sMot 3, by decide +kernel⟩

theorem met_commutation : ∃ (c : Fin 6) (x : Nat) (s : State), (s.cur.motorState c = 3) ∧ ((s.cur.motor c).plan = some x) ∧ (((s.cur.gtime + 1) * 400) ≤ x) ∧ (x < ((s.cur.gtime + 1) * 400) + 400) :=
  ⟨0, 40000410, sMot 3 fun m => { m with plan := some 40000410 }, by decide +kernel⟩

theorem met_commutationLate : ∃ (c : Fin 6) (x : Nat) (s : State), (s.cur.motorState c = 3) ∧ ((s.cur.motor c).plan = some x) ∧ (x < ((s.cur.gtime + 1) * 400)) :=
  ⟨0, 40, sMot 3 fun m => { m with plan := some 40 }, by decide +kernel⟩

theorem met_commutationNot : ∃ (c : Fin 6) (x : Nat) (s : State), ((s.cur.motor c).plan = some x) ∧ (((s.cur.gtime + 1) * 400) + 400 ≤ x) :=
  ⟨0, 40001410, sMot 3 fun m => { m with plan := some 40001410 }, by decide +kernel⟩

theorem met_crossingWindowMiss : ∃ (c : Fin 6) (x : Nat) (s : State), (s.cur.motorState c = 3) ∧ (s.cur.flag (pgCmt c) CMT_STAT_OBS_LOCK = true) ∧ ((s.cur.motor c).predicted = some x) ∧ (x + s.cur.halfWindow c < s.cur.gtime * 400) :=
  ⟨0, 90, sMot 3 (fun m => { m with lastX := some 50, period := 40, gaps := [40, 40] }) [(pgCmt 0, CMT_STAT_OBS_LOCK, 1)], by decide +kernel⟩

theorem met_crossingWindowMissNot : ∃ (c : Fin 6) (x : Nat) (s : State), ((s.cur.motor c).predicted = some x) ∧ (s.cur.gtime * 400 ≤ x + s.cur.halfWindow c) :=
  ⟨0, 40000090, sMot 3 (fun m => { m with lastX := some 40000050, period := 40, gaps := [40, 40] }), by decide +kernel⟩

theorem met_rotorLost : ∃ (c : Fin 6) (s : State), (s.cur.motorState c = 3) ∧ (s.cur.flag (pgCmt c) CMT_STAT_OBS_LOCK = true) ∧ (max 1 (s.cur.get (pgCmt c) CMT_OBS_MISS_MAX) ≤ (s.cur.motor c).missed ∨ ((s.cur.motor c).gaps.length = 2 ∧ (s.cur.motor c).period < 2400)) :=
  ⟨0, sMot 3 (fun m => { m with missed := 15 }) [(pgCmt 0, CMT_STAT_OBS_LOCK, 1)], by decide +kernel⟩

theorem met_rotorLostNot : ∃ (c : Fin 6) (s : State), (s.cur.motorState c ≠ 3 ∨ ((s.cur.motor c).missed < max 1 (s.cur.get (pgCmt c) CMT_OBS_MISS_MAX) ∧ 2400 ≤ (s.cur.motor c).period)) :=
  ⟨0, sMot 2, by decide +kernel⟩

theorem met_catchSuccess : ∃ (c : Fin 6) (x : Nat) (s : State), (s.cur.motorState c = 4) ∧ (s.cur.get (pgCmt c) CMT_CATCH_CATCH_MIN_RPM ≤ s.cur.rpmOf c x) :=
  ⟨0, 40000, sMot 4, by decide +kernel⟩

theorem met_catchSuccessNot : ∃ (c : Fin 6) (x : Nat) (f : Bool) (s : State), (s.cur.motorState c ≠ 4 ∨ f = false ∨ s.cur.rpmOf c x < s.cur.get (pgCmt c) CMT_CATCH_CATCH_MIN_RPM) :=
  ⟨0, 40000, false, sMot 4, by decide +kernel⟩

theorem met_catchFail : ∃ (c : Fin 6) (f : Bool) (x : Nat) (s : State), (s.cur.motorState c = 4) ∧ (f = false ∨ s.cur.rpmOf c x < s.cur.get (pgCmt c) CMT_CATCH_CATCH_MIN_RPM) :=
  ⟨0, false, 7, sMot 4, by decide +kernel⟩

theorem met_catchFailTime : ∃ (c : Fin 6) (s : State), (s.cur.motorState c = 4) ∧ ((s.cur.motor c).since + s.cur.get (pgCmt c) CMT_CATCH_CATCH_G ≤ s.cur.gtime) :=
  ⟨0, sMot 4, by decide +kernel⟩

theorem met_catchFailNot : ∃ (c : Fin 6) (s : State), (s.cur.motorState c ≠ 4 ∨ s.cur.gtime < (s.cur.motor c).since + s.cur.get (pgCmt c) CMT_CATCH_CATCH_G) :=
  ⟨0, sMot 3, by decide +kernel⟩

theorem met_brakeSpeedWindow : ∃ (c : Fin 6) (s : State), (s.cur.motorState c = 5) ∧ (brakeWindow (s.cur.motor c).since s.cur.gtime = true) :=
  ⟨0, sMot 5 fun m => { m with since := 99938 }, by decide +kernel⟩

theorem met_brakeSpeedWindowNot : ∃ (c : Fin 6) (s : State), (s.cur.motorState c ≠ 5 ∨ brakeWindow (s.cur.motor c).since s.cur.gtime = false) :=
  ⟨0, sMot 3, by decide +kernel⟩

theorem met_brakeStopped : ∃ (c : Fin 6) (s : State), (s.cur.motorState c = 5) ∧ ((s.cur.motor c).measured = true) ∧ (s.cur.get (pgCmt c) CMT_SPEED_RPM < s.cur.get (pgCmt c) CMT_BRAKE_STOP_RPM) ∧ ((s.cur.motor c).after = .command) :=
  ⟨0, sMot 5 fun m => { m with measured := true, after := .command }, by decide +kernel⟩

theorem met_brakeStoppedRestart : ∃ (c : Fin 6) (s : State), (s.cur.motorState c = 5) ∧ ((s.cur.motor c).measured = true) ∧ (s.cur.get (pgCmt c) CMT_SPEED_RPM < s.cur.get (pgCmt c) CMT_BRAKE_STOP_RPM) ∧ ((s.cur.motor c).after = .restart) :=
  ⟨0, sMot 5 fun m => { m with measured := true, after := .restart }, by decide +kernel⟩

theorem met_brakeStoppedOff : ∃ (c : Fin 6) (s : State), (s.cur.motorState c = 5) ∧ ((s.cur.motor c).measured = true) ∧ (s.cur.get (pgCmt c) CMT_SPEED_RPM < s.cur.get (pgCmt c) CMT_BRAKE_STOP_RPM) ∧ ((s.cur.motor c).after = .off) :=
  ⟨0, sMot 5 fun m => { m with measured := true, after := .off }, by decide +kernel⟩

theorem met_brakeStoppedNot : ∃ (c : Fin 6) (s : State), (s.cur.motorState c ≠ 5 ∨ (s.cur.motor c).measured = false ∨ s.cur.get (pgCmt c) CMT_BRAKE_STOP_RPM ≤ s.cur.get (pgCmt c) CMT_SPEED_RPM) :=
  ⟨0, sMot 3, by decide +kernel⟩

theorem met_brakeTimeout : ∃ (c : Fin 6) (s : State), (s.cur.motorState c = 5) ∧ ((s.cur.motor c).since + 256 * s.cur.get (pgCmt c) CMT_BRAKE_BRAKE_MAX_S ≤ s.cur.gtime) :=
  ⟨0, sMot 5 id [(pgCmt 0, CMT_BRAKE_BRAKE_MAX_S, 5)], by decide +kernel⟩

theorem met_brakeTimeoutNot : ∃ (c : Fin 6) (s : State), (s.cur.motorState c ≠ 5 ∨ s.cur.gtime < (s.cur.motor c).since + 256 * s.cur.get (pgCmt c) CMT_BRAKE_BRAKE_MAX_S) :=
  ⟨0, sMot 5, by decide +kernel⟩

theorem met_lockedRotor : ∃ (c : Fin 6) (s : State), (s.cur.motorState c = 2 ∨ s.cur.motorState c = 3) ∧ (0 < (s.cur.motor c).duty) ∧ ((s.cur.motor c).lastEvent + s.cur.get (pgCmt c) CMT_OBS_LOCK_G ≤ s.cur.gtime) :=
  ⟨0, sMot 3 fun m => { m with duty := 5 }, by decide +kernel⟩

theorem met_lockedRotorNot : ∃ (c : Fin 6) (s : State), ((s.cur.motorState c ≠ 2 ∧ s.cur.motorState c ≠ 3) ∨ (s.cur.motor c).duty ≤ 0 ∨ s.cur.gtime < (s.cur.motor c).lastEvent + s.cur.get (pgCmt c) CMT_OBS_LOCK_G) :=
  ⟨0, sMot 3, by decide +kernel⟩

theorem met_hallEdge : ∃ (c : Fin 6) (code : BitVec 3) (n : Nat) (s : State), (s.cur.motorState c = 3) ∧ (s.cur.flag (pgCmt c) CMT_CTL_HALL_EN = true) ∧ ((s.cur.motor c).hallOff = false) ∧ (s.cur.hallSector c code.toNat = some n) ∧ (n = (s.cur.sector c + 1) % 6 ∨ n = (s.cur.sector c + 5) % 6) :=
  ⟨0, 1, 1, sMot 3 (fun m => m) [(pgCmt 0, CMT_CTL_HALL_EN, 1)], by decide +kernel⟩

theorem met_hallEdgeFault : ∃ (c : Fin 6) (code : BitVec 3) (s : State), (s.cur.motorState c = 3) ∧ (s.cur.flag (pgCmt c) CMT_CTL_HALL_EN = true) ∧ ((s.cur.motor c).hallOff = false) ∧ ((match s.cur.hallSector c code.toNat with | some n => n == (s.cur.sector c + 1) % 6 || n == (s.cur.sector c + 5) % 6 | none => false) = false) ∧ (s.cur.get (pgCmt c) CMT_SPEED_RPM ≤ s.cur.get (pgCmt c) CMT_START1_HANDOVER_RPM) :=
  ⟨0, 7, sMot 3 (fun m => m) [(pgCmt 0, CMT_CTL_HALL_EN, 1)], by decide +kernel⟩

theorem met_hallEdgeObserver : ∃ (c : Fin 6) (code : BitVec 3) (s : State), (s.cur.motorState c = 3) ∧ (s.cur.flag (pgCmt c) CMT_CTL_HALL_EN = true) ∧ ((s.cur.motor c).hallOff = false) ∧ ((match s.cur.hallSector c code.toNat with | some n => n == (s.cur.sector c + 1) % 6 || n == (s.cur.sector c + 5) % 6 | none => false) = false) ∧ (s.cur.get (pgCmt c) CMT_START1_HANDOVER_RPM < s.cur.get (pgCmt c) CMT_SPEED_RPM) :=
  ⟨0, 0, sMot 3 (fun m => m) [(pgCmt 0, CMT_CTL_HALL_EN, 1), (pgCmt 0, CMT_SPEED_RPM, 5000)], by decide +kernel⟩

theorem met_hallEdgeNot : ∃ (c : Fin 6) (s : State), (s.cur.motorState c ≠ 3 ∨ s.cur.flag (pgCmt c) CMT_CTL_HALL_EN = false ∨ (s.cur.motor c).hallOff = true) :=
  ⟨0, sMot 0, by decide +kernel⟩

theorem met_currentLimit : ∃ (c : Fin 6) (a : Fin 400) (ma : BitVec 16) (s : State), (s.cur.get (pgCmt c) CMT_ILIM_ILIM_MA < ma.toNat) ∧ ((s.cur.motor c).pwmFrom ≤ s.cur.gtime * 400 + a.val) :=
  ⟨0, 7, 60000, sMot 3, by decide +kernel⟩

theorem met_currentLimitNot : ∃ (c : Fin 6) (ma : BitVec 16) (s : State), (ma.toNat ≤ s.cur.get (pgCmt c) CMT_ILIM_ILIM_MA) :=
  ⟨0, 5, sMot 3, by decide +kernel⟩

theorem met_chopperOn : ∃ (mv : BitVec 16) (s : State), (s.cur.get pgVbus VBUS_CHOP_CHOP_ON_MV ≤ mv.toNat) ∧ (s.cur.flag pgVbus VBUS_CTL_CHOP_EN = true) ∧ (s.cur.flag pgRsv RSV_STAT_PF = false) :=
  ⟨60000, mk [(pgRsv, RSV_STAT, 0)], by decide +kernel⟩

theorem met_chopperOnNot : ∃ (mv : BitVec 16) (s : State), (mv.toNat < s.cur.get pgVbus VBUS_CHOP_CHOP_ON_MV ∨ s.cur.flag pgVbus VBUS_CTL_CHOP_EN = false ∨ s.cur.flag pgRsv RSV_STAT_PF = true) :=
  ⟨5, mk [], by decide +kernel⟩

theorem met_chopperOff : ∃ (mv : BitVec 16) (s : State), (mv.toNat ≤ s.cur.get pgVbus VBUS_CHOP_CHOP_OFF_MV) :=
  ⟨5, mk [], by decide +kernel⟩

theorem met_chopperOffNot : ∃ (mv : BitVec 16) (s : State), (s.cur.get pgVbus VBUS_CHOP_CHOP_OFF_MV < mv.toNat) :=
  ⟨60000, mk [], by decide +kernel⟩

theorem met_chopperFault : ∃ (ma us : BitVec 16) (s : State), (s.cur.flag pgVbus VBUS_STAT_CHOP_ON = true) ∧ (ma.toNat < s.cur.get pgVbus VBUS_CHK_CHOP_IMIN_MA) ∧ (max 1 (s.cur.get pgVbus VBUS_CHK_CHK_US) ≤ us.toNat) :=
  ⟨5, 2000, mk [(pgVbus, VBUS_STAT_CHOP_ON, 1)], by decide +kernel⟩

theorem met_chopperFaultStuck : ∃ (ma : BitVec 16) (s : State), (s.cur.flag pgVbus VBUS_STAT_CHOP_ON = false) ∧ (s.cur.get pgVbus VBUS_CHK_CHOP_IMIN_MA < ma.toNat) :=
  ⟨5000, mk [], by decide +kernel⟩

theorem met_chopperFaultNot : ∃ (ma us : BitVec 16) (s : State), ((s.cur.flag pgVbus VBUS_STAT_CHOP_ON = true ∧ (s.cur.get pgVbus VBUS_CHK_CHOP_IMIN_MA ≤ ma.toNat ∨ us.toNat < s.cur.get pgVbus VBUS_CHK_CHK_US)) ∨ (s.cur.flag pgVbus VBUS_STAT_CHOP_ON = false ∧ ma.toNat ≤ s.cur.get pgVbus VBUS_CHK_CHOP_IMIN_MA)) :=
  ⟨5, 0, mk [], by decide +kernel⟩

theorem met_vmotLimit : ∃ (s : State), (max 1 (s.cur.get pgVbus VBUS_LIMIT_OV_G) ≤ s.cur.cmt.ovCount) :=
  ⟨mk [] fun d => { d with cmt := { d.cmt with ovCount := 255 } }, by decide +kernel⟩

theorem met_vmotLimitNot : ∃ (s : State), (s.cur.cmt.ovCount < max 1 (s.cur.get pgVbus VBUS_LIMIT_OV_G)) :=
  ⟨mk [], by decide +kernel⟩

theorem met_vmotAbsolute : ∃ (mv : BitVec 16) (s : State), (min 40000 (s.cur.get pgVbus VBUS_ABS_ABS_MV) ≤ mv.toNat) :=
  ⟨60000, mk [], by decide +kernel⟩

theorem met_vmotAbsoluteNot : ∃ (mv : BitVec 16) (s : State), (mv.toNat < min 40000 (s.cur.get pgVbus VBUS_ABS_ABS_MV)) :=
  ⟨5, mk [], by decide +kernel⟩

theorem met_chnEnable : ∃ (n : Fin 12) (s : State), ((s.cur.axis n).cmdTaken = false ∧ s.cur.rsv.pfLine = false) ∧ (s.vis.axisState n = s.cur.axisState n) ∧ (s.cur.axisState n = 0) :=
  ⟨2, sAx 2 0, by decide +kernel⟩

theorem met_chnDisable : ∃ (n : Fin 12) (s : State), ((s.cur.axis n).cmdTaken = false ∧ s.cur.rsv.pfLine = false) ∧ (s.vis.axisState n = s.cur.axisState n) ∧ (s.cur.axisState n = 1 ∨ s.cur.axisState n = 6) :=
  ⟨2, sAx 2 6, by decide +kernel⟩

theorem met_moveAbs : ∃ (n : Fin 12) (s : State), ((s.cur.axis n).cmdTaken = false ∧ s.cur.rsv.pfLine = false) ∧ (s.vis.axisState n = s.cur.axisState n) ∧ ((s.cur.axis n).sled = false) ∧ (s.cur.starts (pgAx n) = true) ∧ (s.cur.axisState n = 1 ∨ (4 ≤ n.val ∧ (s.cur.axisState n = 2 ∨ s.cur.axisState n = 3))) ∧ ((s.cur.posRange n).1 ≤ s.cur.getI (pgAx n) CHN_TARGET_TARGET) ∧ (s.cur.getI (pgAx n) CHN_TARGET_TARGET ≤ (s.cur.posRange n).2) :=
  ⟨5, sAx 5 1 [(pgAx 5, CHN_TARGET_TARGET, 700)], by decide +kernel⟩

theorem met_moveAbsStart : ∃ (n : Fin 12) (s : State), ((s.cur.axis n).cmdTaken = false ∧ s.cur.rsv.pfLine = false) ∧ (s.vis.axisState n = s.cur.axisState n) ∧ ((s.cur.axis n).sled = false) ∧ (s.cur.starts (pgAx n) = true) ∧ (s.cur.axisState n = 1) ∧ ((s.cur.posRange n).1 ≤ s.cur.getI (pgAx n) CHN_TARGET_TARGET) ∧ (s.cur.getI (pgAx n) CHN_TARGET_TARGET ≤ (s.cur.posRange n).2) ∧ (s.vis.get (pgAx n) CHN_VEL_V = 0) ∧ ((s.cur.axis n).phase = 0) ∧ ((s.cur.axis n).posSet = none) ∧ (s.cur.getI (pgAx n) CHN_TARGET_TARGET ≠ s.cur.axisPos n) ∧ (s.cur.softLimits n = false) ∧ (fitsDist (s.cur.axVmin n) (s.cur.axDecUse n) ((s.cur.getI (pgAx n) CHN_TARGET_TARGET - s.cur.axisPos n).natAbs * 2 ^ 40) (min (s.cur.axVmax n) (max (s.cur.axAcc n) (s.cur.axVmin n))) = true) :=
  ⟨5, sAx 5 1 [(pgAx 5, CHN_TARGET_TARGET, 700)], by decide +kernel⟩

theorem met_moveAbsRange : ∃ (n : Fin 12) (s : State), ((s.cur.axis n).cmdTaken = false ∧ s.cur.rsv.pfLine = false) ∧ (s.vis.axisState n = s.cur.axisState n) ∧ ((s.cur.axis n).sled = false) ∧ (s.cur.starts (pgAx n) = true) ∧ (s.cur.axisState n = 1 ∨ (4 ≤ n.val ∧ (s.cur.axisState n = 2 ∨ s.cur.axisState n = 3))) ∧ (s.cur.getI (pgAx n) CHN_TARGET_TARGET < (s.cur.posRange n).1 ∨ (s.cur.posRange n).2 < s.cur.getI (pgAx n) CHN_TARGET_TARGET) :=
  ⟨5, sAx 5 1 [(pgAx 5, CHN_TARGET_TARGET, 700), (pgAx 5, CHN_STAT_REF, 1), (pgAx 5, CHN_CTL_SOFTLIM, 1), (pgAx 5, CHN_POS_MAX_LIMIT, 9), (pgAx 5, CHN_POS_MIN_LIMIT, 0)], by decide +kernel⟩

theorem met_moveAbsBusy : ∃ (n : Fin 12) (s : State), ((s.cur.axis n).cmdTaken = false ∧ s.cur.rsv.pfLine = false) ∧ ((s.cur.axis n).sled = true ∨ (n.val < 4 ∧ s.vis.axisState n = s.cur.axisState n ∧ s.cur.axisState n = 2)) :=
  ⟨2, sAx 2 2, by decide +kernel⟩

theorem met_moveAbsState : ∃ (n : Fin 12) (s : State), ((s.cur.axis n).cmdTaken = false ∧ s.cur.rsv.pfLine = false) ∧ (s.vis.axisState n = s.cur.axisState n) ∧ ((s.cur.axis n).sled = false) ∧ ((s.cur.axisState n ≠ 1 ∧ s.cur.axisState n ≠ 2 ∧ s.cur.axisState n ≠ 3) ∨ (n.val < 4 ∧ s.cur.axisState n = 3) ∨ (s.cur.starts (pgAx n) = false ∧ (4 ≤ n.val ∨ s.cur.axisState n ≠ 2))) :=
  ⟨5, sAx 5 5, by decide +kernel⟩

theorem met_moveRel : ∃ (n : Fin 12) (s : State), ((s.cur.axis n).cmdTaken = false ∧ s.cur.rsv.pfLine = false) ∧ (s.vis.axisState n = s.cur.axisState n) ∧ ((s.cur.axis n).sled = false) ∧ (s.cur.starts (pgAx n) = true) ∧ (s.cur.axisState n = 1 ∨ (4 ≤ n.val ∧ (s.cur.axisState n = 2 ∨ s.cur.axisState n = 3))) ∧ ((s.cur.posRange n).1 ≤ (s.cur.axisPos n + s.cur.getI (pgAx n) CHN_TARGET_TARGET)) ∧ ((s.cur.axisPos n + s.cur.getI (pgAx n) CHN_TARGET_TARGET) ≤ (s.cur.posRange n).2) :=
  ⟨5, sAx 5 1 [(pgAx 5, CHN_TARGET_TARGET, 700)], by decide +kernel⟩

theorem met_moveRelStart : ∃ (n : Fin 12) (s : State), ((s.cur.axis n).cmdTaken = false ∧ s.cur.rsv.pfLine = false) ∧ (s.vis.axisState n = s.cur.axisState n) ∧ ((s.cur.axis n).sled = false) ∧ (s.cur.starts (pgAx n) = true) ∧ (s.cur.axisState n = 1) ∧ ((s.cur.posRange n).1 ≤ (s.cur.axisPos n + s.cur.getI (pgAx n) CHN_TARGET_TARGET)) ∧ ((s.cur.axisPos n + s.cur.getI (pgAx n) CHN_TARGET_TARGET) ≤ (s.cur.posRange n).2) ∧ (s.vis.get (pgAx n) CHN_VEL_V = 0) ∧ ((s.cur.axis n).phase = 0) ∧ ((s.cur.axis n).posSet = none) ∧ ((s.cur.axisPos n + s.cur.getI (pgAx n) CHN_TARGET_TARGET) ≠ s.cur.axisPos n) ∧ (s.cur.softLimits n = false) ∧ (fitsDist (s.cur.axVmin n) (s.cur.axDecUse n) (((s.cur.axisPos n + s.cur.getI (pgAx n) CHN_TARGET_TARGET) - s.cur.axisPos n).natAbs * 2 ^ 40) (min (s.cur.axVmax n) (max (s.cur.axAcc n) (s.cur.axVmin n))) = true) :=
  ⟨5, sAx 5 1 [(pgAx 5, CHN_TARGET_TARGET, 700)], by decide +kernel⟩

theorem met_moveRelRange : ∃ (n : Fin 12) (s : State), ((s.cur.axis n).cmdTaken = false ∧ s.cur.rsv.pfLine = false) ∧ (s.vis.axisState n = s.cur.axisState n) ∧ ((s.cur.axis n).sled = false) ∧ (s.cur.starts (pgAx n) = true) ∧ (s.cur.axisState n = 1 ∨ (4 ≤ n.val ∧ (s.cur.axisState n = 2 ∨ s.cur.axisState n = 3))) ∧ ((s.cur.axisPos n + s.cur.getI (pgAx n) CHN_TARGET_TARGET) < (s.cur.posRange n).1 ∨ (s.cur.posRange n).2 < (s.cur.axisPos n + s.cur.getI (pgAx n) CHN_TARGET_TARGET)) :=
  ⟨5, sAx 5 1 [(pgAx 5, CHN_TARGET_TARGET, 2147483647), (pgAx 5, CHN_POS_POS, 9)], by decide +kernel⟩

theorem met_moveRelBusy : ∃ (n : Fin 12) (s : State), ((s.cur.axis n).cmdTaken = false ∧ s.cur.rsv.pfLine = false) ∧ ((s.cur.axis n).sled = true ∨ (n.val < 4 ∧ s.vis.axisState n = s.cur.axisState n ∧ s.cur.axisState n = 2)) :=
  ⟨2, sAx 2 2, by decide +kernel⟩

theorem met_moveRelState : ∃ (n : Fin 12) (s : State), ((s.cur.axis n).cmdTaken = false ∧ s.cur.rsv.pfLine = false) ∧ (s.vis.axisState n = s.cur.axisState n) ∧ ((s.cur.axis n).sled = false) ∧ ((s.cur.axisState n ≠ 1 ∧ s.cur.axisState n ≠ 2 ∧ s.cur.axisState n ≠ 3) ∨ (n.val < 4 ∧ s.cur.axisState n = 3) ∨ (s.cur.starts (pgAx n) = false ∧ (4 ≤ n.val ∨ s.cur.axisState n ≠ 2))) :=
  ⟨5, sAx 5 5, by decide +kernel⟩

theorem met_chnStop : ∃ (n : Fin 12) (s : State), ((s.cur.axis n).cmdTaken = false ∧ s.cur.rsv.pfLine = false) ∧ (s.vis.axisState n = s.cur.axisState n) ∧ (s.cur.axisState n = 2 ∨ s.cur.axisState n = 4 ∨ s.cur.axisState n = 5) :=
  ⟨5, sAx 5 2, by decide +kernel⟩

theorem met_chnStopVelocity : ∃ (n : Fin 12) (s : State), ((s.cur.axis n).cmdTaken = false ∧ s.cur.rsv.pfLine = false) ∧ (s.vis.axisState n = s.cur.axisState n) ∧ (s.cur.axisState n = 2 ∨ s.cur.axisState n = 4 ∨ s.cur.axisState n = 5) ∧ (s.cur.softLimits n = false) ∧ ((s.cur.axis n).switched = false) :=
  ⟨5, sAx 5 2, by decide +kernel⟩

theorem met_chnStopState : ∃ (n : Fin 12) (s : State), ((s.cur.axis n).cmdTaken = false ∧ s.cur.rsv.pfLine = false) ∧ (s.vis.axisState n = s.cur.axisState n) ∧ ((s.cur.axis n).sled = false) ∧ (s.cur.axisState n ≠ 2 ∧ s.cur.axisState n ≠ 4 ∧ s.cur.axisState n ≠ 5) :=
  ⟨5, sAx 5 1, by decide +kernel⟩

theorem met_halt : ∃ (n : Fin 12) (s : State), ((s.cur.axis n).cmdTaken = false ∧ s.cur.rsv.pfLine = false) ∧ (s.vis.axisState n = s.cur.axisState n) ∧ (s.cur.axisState n = 2 ∨ s.cur.axisState n = 3 ∨ s.cur.axisState n = 4 ∨ s.cur.axisState n = 5) :=
  ⟨2, sAx 2 2 [(pgAx 2, CHN_VEL_V, 0x20000000), (pgAx 2, CHN_STAT_REF, 1)], by decide +kernel⟩

theorem met_haltState : ∃ (n : Fin 12) (s : State), ((s.cur.axis n).cmdTaken = false ∧ s.cur.rsv.pfLine = false) ∧ (s.vis.axisState n = s.cur.axisState n) ∧ ((s.cur.axis n).sled = false) ∧ (s.cur.axisState n = 0 ∨ s.cur.axisState n = 1 ∨ s.cur.axisState n = 6) :=
  ⟨5, sAx 5 1, by decide +kernel⟩

theorem met_home : ∃ (n : Fin 12) (s : State), ((s.cur.axis n).cmdTaken = false ∧ s.cur.rsv.pfLine = false) ∧ (s.vis.axisState n = s.cur.axisState n) ∧ ((s.cur.axis n).sled = false) ∧ (s.cur.starts (pgAx n) = true) ∧ (s.cur.axisState n = 1) :=
  ⟨5, sAx 5 1, by decide +kernel⟩

theorem met_homeBusy : ∃ (n : Fin 12) (s : State), ((s.cur.axis n).cmdTaken = false ∧ s.cur.rsv.pfLine = false) ∧ ((s.cur.axis n).sled = true) :=
  ⟨2, sAx 2 2 [] fun a => { a with sled := true }, by decide +kernel⟩

theorem met_homeState : ∃ (n : Fin 12) (s : State), ((s.cur.axis n).cmdTaken = false ∧ s.cur.rsv.pfLine = false) ∧ (s.vis.axisState n = s.cur.axisState n) ∧ ((s.cur.axis n).sled = false) ∧ ((s.cur.axisState n ≠ 1) ∨ s.cur.starts (pgAx n) = false) :=
  ⟨5, sAx 5 2, by decide +kernel⟩

theorem met_setPos : ∃ (n : Fin 12) (s : State), ((s.cur.axis n).cmdTaken = false ∧ s.cur.rsv.pfLine = false) ∧ (s.vis.axisState n = s.cur.axisState n) ∧ (s.cur.axisState n = 1) :=
  ⟨5, sAx 5 1, by decide +kernel⟩

theorem met_setPosState : ∃ (n : Fin 12) (s : State), ((s.cur.axis n).cmdTaken = false ∧ s.cur.rsv.pfLine = false) ∧ (s.vis.axisState n = s.cur.axisState n) ∧ ((s.cur.axis n).sled = false) ∧ (s.cur.axisState n ≠ 1) :=
  ⟨5, sAx 5 2, by decide +kernel⟩

theorem met_gearOn : ∃ (n : Fin 12) (s : State), ((s.cur.axis n).cmdTaken = false ∧ s.cur.rsv.pfLine = false) ∧ (s.vis.axisState n = s.cur.axisState n) ∧ (s.cur.starts (pgAx n) = true) ∧ (4 ≤ n.val) ∧ (s.cur.axisState n = 1) :=
  ⟨5, sAx 5 1, by decide +kernel⟩

theorem met_gearOnState : ∃ (n : Fin 12) (s : State), ((s.cur.axis n).cmdTaken = false ∧ s.cur.rsv.pfLine = false) ∧ (s.vis.axisState n = s.cur.axisState n) ∧ ((s.cur.axis n).sled = false) ∧ (n.val < 4 ∨ s.cur.axisState n ≠ 1 ∨ s.cur.starts (pgAx n) = false) :=
  ⟨2, sAx 2 1, by decide +kernel⟩

theorem met_chnClear : ∃ (n : Fin 12) (s : State), ((s.cur.axis n).cmdTaken = false ∧ s.cur.rsv.pfLine = false) ∧ (s.cur.axisState n = 6) ∧ (s.cur.get (pgAx n) CHN_STAT_FAULT_CODE ≠ 4 ∨ s.vis.tb.linkUp = true) :=
  ⟨5, sAx 5 6, by decide +kernel⟩

theorem met_chnClearCause : ∃ (n : Fin 12) (s : State), ((s.cur.axis n).cmdTaken = false ∧ s.cur.rsv.pfLine = false) ∧ (s.cur.axisState n = 6) ∧ (s.cur.get (pgAx n) CHN_STAT_FAULT_CODE = 4) ∧ (s.vis.tb.linkUp = false) :=
  ⟨2, let s := sAx 2 6 [(pgAx 2, CHN_STAT_FAULT_CODE, 4)]; let d := { s.cur with tb := { s.cur.tb with linkUp := false } }; { cur := d, vis := d }, by decide +kernel⟩

theorem met_chnClearState : ∃ (n : Fin 12) (s : State), ((s.cur.axis n).cmdTaken = false ∧ s.cur.rsv.pfLine = false) ∧ (s.vis.axisState n = s.cur.axisState n) ∧ ((s.cur.axis n).sled = false) ∧ (s.cur.axisState n ≠ 6) :=
  ⟨5, sAx 5 1, by decide +kernel⟩

theorem met_chnEnableState : ∃ (n : Fin 12) (s : State), ((s.cur.axis n).cmdTaken = false ∧ s.cur.rsv.pfLine = false) ∧ (s.vis.axisState n = s.cur.axisState n) ∧ ((s.cur.axis n).sled = false) ∧ (s.cur.axisState n ≠ 0) :=
  ⟨5, sAx 5 1, by decide +kernel⟩

theorem met_chnDisableState : ∃ (n : Fin 12) (s : State), ((s.cur.axis n).cmdTaken = false ∧ s.cur.rsv.pfLine = false) ∧ (s.vis.axisState n = s.cur.axisState n) ∧ ((s.cur.axis n).sled = false) ∧ (s.cur.axisState n ≠ 1 ∧ s.cur.axisState n ≠ 6) :=
  ⟨5, sAx 5 2, by decide +kernel⟩

theorem met_chnEnableLoss : ∃ (s : State), (s.cur.rsv.pfLine = true) :=
  ⟨stOf { (sAx 5 1).cur with rsv := { (sAx 5 1).cur.rsv with pfLine := true } }, by decide +kernel⟩

theorem met_chnEnableSecond : ∃ (n : Fin 12) (s : State), ((s.cur.axis n).cmdTaken = true) ∧ (s.cur.rsv.pfLine = false) :=
  ⟨5, sAx 5 1 [] fun a => { a with cmdTaken := true }, by decide +kernel⟩

theorem met_chnDisableLoss : ∃ (s : State), (s.cur.rsv.pfLine = true) :=
  ⟨stOf { (sAx 5 1).cur with rsv := { (sAx 5 1).cur.rsv with pfLine := true } }, by decide +kernel⟩

theorem met_chnDisableSecond : ∃ (n : Fin 12) (s : State), ((s.cur.axis n).cmdTaken = true) ∧ (s.cur.rsv.pfLine = false) :=
  ⟨5, sAx 5 1 [] fun a => { a with cmdTaken := true }, by decide +kernel⟩

theorem met_moveAbsLoss : ∃ (s : State), (s.cur.rsv.pfLine = true) :=
  ⟨stOf { (sAx 5 1).cur with rsv := { (sAx 5 1).cur.rsv with pfLine := true } }, by decide +kernel⟩

theorem met_moveAbsSecond : ∃ (n : Fin 12) (s : State), ((s.cur.axis n).cmdTaken = true) ∧ (s.cur.rsv.pfLine = false) :=
  ⟨5, sAx 5 1 [] fun a => { a with cmdTaken := true }, by decide +kernel⟩

theorem met_moveRelLoss : ∃ (s : State), (s.cur.rsv.pfLine = true) :=
  ⟨stOf { (sAx 5 1).cur with rsv := { (sAx 5 1).cur.rsv with pfLine := true } }, by decide +kernel⟩

theorem met_moveRelSecond : ∃ (n : Fin 12) (s : State), ((s.cur.axis n).cmdTaken = true) ∧ (s.cur.rsv.pfLine = false) :=
  ⟨5, sAx 5 1 [] fun a => { a with cmdTaken := true }, by decide +kernel⟩

theorem met_chnStopLoss : ∃ (s : State), (s.cur.rsv.pfLine = true) :=
  ⟨stOf { (sAx 5 1).cur with rsv := { (sAx 5 1).cur.rsv with pfLine := true } }, by decide +kernel⟩

theorem met_chnStopSecond : ∃ (n : Fin 12) (s : State), ((s.cur.axis n).cmdTaken = true) ∧ (s.cur.rsv.pfLine = false) :=
  ⟨5, sAx 5 1 [] fun a => { a with cmdTaken := true }, by decide +kernel⟩

theorem met_haltLoss : ∃ (s : State), (s.cur.rsv.pfLine = true) :=
  ⟨stOf { (sAx 5 1).cur with rsv := { (sAx 5 1).cur.rsv with pfLine := true } }, by decide +kernel⟩

theorem met_haltSecond : ∃ (n : Fin 12) (s : State), ((s.cur.axis n).cmdTaken = true) ∧ (s.cur.rsv.pfLine = false) :=
  ⟨5, sAx 5 1 [] fun a => { a with cmdTaken := true }, by decide +kernel⟩

theorem met_homeLoss : ∃ (s : State), (s.cur.rsv.pfLine = true) :=
  ⟨stOf { (sAx 5 1).cur with rsv := { (sAx 5 1).cur.rsv with pfLine := true } }, by decide +kernel⟩

theorem met_homeSecond : ∃ (n : Fin 12) (s : State), ((s.cur.axis n).cmdTaken = true) ∧ (s.cur.rsv.pfLine = false) :=
  ⟨5, sAx 5 1 [] fun a => { a with cmdTaken := true }, by decide +kernel⟩

theorem met_setPosLoss : ∃ (s : State), (s.cur.rsv.pfLine = true) :=
  ⟨stOf { (sAx 5 1).cur with rsv := { (sAx 5 1).cur.rsv with pfLine := true } }, by decide +kernel⟩

theorem met_setPosSecond : ∃ (n : Fin 12) (s : State), ((s.cur.axis n).cmdTaken = true) ∧ (s.cur.rsv.pfLine = false) :=
  ⟨5, sAx 5 1 [] fun a => { a with cmdTaken := true }, by decide +kernel⟩

theorem met_gearOnLoss : ∃ (s : State), (s.cur.rsv.pfLine = true) :=
  ⟨stOf { (sAx 5 1).cur with rsv := { (sAx 5 1).cur.rsv with pfLine := true } }, by decide +kernel⟩

theorem met_gearOnSecond : ∃ (n : Fin 12) (s : State), ((s.cur.axis n).cmdTaken = true) ∧ (s.cur.rsv.pfLine = false) :=
  ⟨5, sAx 5 1 [] fun a => { a with cmdTaken := true }, by decide +kernel⟩

theorem met_chnClearLoss : ∃ (s : State), (s.cur.rsv.pfLine = true) :=
  ⟨stOf { (sAx 5 1).cur with rsv := { (sAx 5 1).cur.rsv with pfLine := true } }, by decide +kernel⟩

theorem met_chnClearSecond : ∃ (n : Fin 12) (s : State), ((s.cur.axis n).cmdTaken = true) ∧ (s.cur.rsv.pfLine = false) :=
  ⟨5, sAx 5 1 [] fun a => { a with cmdTaken := true }, by decide +kernel⟩

theorem met_moveTargetReached : ∃ (n : Fin 12) (s : State), (s.cur.axisState n = 2) ∧ ((s.cur.axis n).reversing = false) ∧ (s.cur.axisPos n = (s.cur.axis n).target) ∧ (s.vis.get (pgAx n) CHN_VEL_V ≤ s.cur.axVmin n) ∧ ((s.cur.axis n).sled = false) ∧ (s.cur.rsv.pfLine = false) :=
  ⟨5, sAx 5 2, by decide +kernel⟩

theorem met_moveTargetReachedSled : ∃ (n : Fin 12) (s : State), (s.cur.axisState n = 2) ∧ ((s.cur.axis n).reversing = false) ∧ (s.cur.axisPos n = (s.cur.axis n).target) ∧ (s.vis.get (pgAx n) CHN_VEL_V ≤ s.cur.axVmin n) ∧ ((s.cur.axis n).sled = true ∨ s.cur.rsv.pfLine = true) :=
  ⟨2, sAx 2 2 [] fun a => { a with sled := true }, by decide +kernel⟩

theorem met_moveTargetReachedNot : ∃ (n : Fin 12) (s : State), (s.cur.axisState n ≠ 2 ∨ s.cur.axisPos n ≠ (s.cur.axis n).target ∨ s.cur.axVmin n < s.vis.get (pgAx n) CHN_VEL_V) :=
  ⟨5, sAx 5 1, by decide +kernel⟩

theorem met_sledMoveRequest : ∃ (n : Fin 4) (m : Int) (s : State), ((s.vis.optPort n).sled = some m) ∧ (s.cur.axisState n = 1) ∧ (s.cur.starts (pgAx n) = true) ∧ ((s.cur.posRange n).1 ≤ (s.cur.axisPos n + m)) ∧ ((s.cur.axisPos n + m) ≤ (s.cur.posRange n).2) :=
  ⟨2, 40, mk [(pgAx 2, CHN_STAT_STATE, 1)] fun d => d.updOpt 2 fun o => { o with sled := some 40 }, by decide +kernel⟩

theorem met_sledMoveRequestDropped : ∃ (n : Fin 4) (m : Int) (s : State), ((s.vis.optPort n).sled = some m) ∧ (s.cur.axisState n ≠ 1 ∨ s.cur.starts (pgAx n) = false ∨ (s.cur.axisPos n + m) < (s.cur.posRange n).1 ∨ (s.cur.posRange n).2 < (s.cur.axisPos n + m)) :=
  ⟨2, 40, mk [(pgAx 2, CHN_STAT_STATE, 2)] fun d => d.updOpt 2 fun o => { o with sled := some 40 }, by decide +kernel⟩

theorem met_sledStall : ∃ (n : Fin 4) (s : State), (2 ≤ s.cur.axisState n) ∧ (s.cur.axisState n ≠ 6) ∧ (max 1 (s.cur.get (pgAx n) CHN_LOAD_STALL_G) ≤ (s.cur.axis n).stall) :=
  ⟨2, sAx 2 2 [] fun a => { a with stall := 255 }, by decide +kernel⟩

theorem met_sledStallNot : ∃ (n : Fin 4) (s : State), ((s.cur.axis n).stall < max 1 (s.cur.get (pgAx n) CHN_LOAD_STALL_G)) :=
  ⟨2, sAx 2 2, by decide +kernel⟩

theorem met_deviationStall : ∃ (n : Fin 12) (s : State), (4 ≤ n.val) ∧ (s.cur.axisState n ≠ 0 ∧ s.cur.axisState n ≠ 6) ∧ (max 1 (s.cur.get (pgAx n) CHN_DEV_DEV_G) ≤ (s.cur.axis n).dev) :=
  ⟨5, sAx 5 2 [] fun a => { a with dev := 70000 }, by decide +kernel⟩

theorem met_deviationStallNot : ∃ (n : Fin 12) (s : State), (n.val < 4 ∨ s.cur.axisState n = 0 ∨ s.cur.axisState n = 6 ∨ (s.cur.axis n).dev < max 1 (s.cur.get (pgAx n) CHN_DEV_DEV_G)) :=
  ⟨5, sAx 5 2, by decide +kernel⟩

theorem met_softLimitReached : ∃ (n : Fin 12) (s : State), (s.cur.axisState n = 5) ∧ (s.cur.axisPos n ≤ (s.cur.posRange n).1 ∨ (s.cur.posRange n).2 ≤ s.cur.axisPos n) :=
  ⟨5, sAx 5 5 [(pgAx 5, CHN_STAT_REF, 1), (pgAx 5, CHN_CTL_SOFTLIM, 1), (pgAx 5, CHN_POS_MAX_LIMIT, 0), (pgAx 5, CHN_POS_MIN_LIMIT, 0)], by decide +kernel⟩

theorem met_softLimitReachedNot : ∃ (n : Fin 12) (s : State), (s.cur.axisState n ≠ 5 ∨ ((s.cur.posRange n).1 < s.cur.axisPos n ∧ s.cur.axisPos n < (s.cur.posRange n).2)) :=
  ⟨5, sAx 5 5, by decide +kernel⟩

theorem met_homeInput : ∃ (n : Fin 12) (s : State), (s.cur.axisState n = 4) ∧ ((s.cur.axis n).homeAt = none) :=
  ⟨5, sAx 5 4, by decide +kernel⟩

theorem met_homeInputNot : ∃ (n : Fin 12) (s : State), (s.cur.axisState n ≠ 4 ∨ (s.cur.axis n).homeAt ≠ none) :=
  ⟨5, sAx 5 2, by decide +kernel⟩

theorem met_homeTimeout : ∃ (n : Fin 12) (s : State), (s.cur.axisState n = 4) ∧ ((s.cur.axis n).switched = false) ∧ ((s.cur.axis n).since + 256 * max 1 (s.cur.get (pgAx n) CHN_HOME_CFG_HOME_TO_S) ≤ s.cur.gtime) :=
  ⟨5, sAx 5 4, by decide +kernel⟩

theorem met_homeTimeoutNot : ∃ (n : Fin 12) (s : State), (s.cur.axisState n ≠ 4 ∨ s.cur.gtime < (s.cur.axis n).since + 256 * max 1 (s.cur.get (pgAx n) CHN_HOME_CFG_HOME_TO_S)) :=
  ⟨5, sAx 5 2, by decide +kernel⟩

theorem met_gearSwitch : ∃ (n : Fin 12) (s : State), (s.cur.axisState n = 5) ∧ (s.cur.flag (pgAx n) CHN_STEP_CFG_ARM = true) ∧ (((s.cur.axis n).masterOld < s.cur.getI (pgAx n) CHN_GEAR_POS_POS ∧ s.cur.getI (pgAx n) CHN_GEAR_POS_POS ≤ (s.cur.axis n).master) ∨ ((s.cur.axis n).master ≤ s.cur.getI (pgAx n) CHN_GEAR_POS_POS ∧ s.cur.getI (pgAx n) CHN_GEAR_POS_POS < (s.cur.axis n).masterOld)) :=
  ⟨5, sAx 5 5 [(pgAx 5, CHN_STEP_CFG_ARM, 1), (pgAx 5, CHN_GEAR_POS_POS, 5)] fun a => { a with masterOld := 3, master := 9 }, by decide +kernel⟩

theorem met_gearSwitchNot : ∃ (n : Fin 12) (s : State), (s.cur.axisState n ≠ 5 ∨ s.cur.flag (pgAx n) CHN_STEP_CFG_ARM = false ∨ (s.cur.axis n).masterOld = (s.cur.axis n).master) :=
  ⟨5, sAx 5 5, by decide +kernel⟩

theorem met_gearArm : ∃ (n : Fin 12) (v : Word) , (4 ≤ n.val) ∧ (bit v.toNat 1 = true) :=
  ⟨5, 2, by decide +kernel⟩

theorem met_gearArmNot : ∃ (n : Fin 12) (v : Word) , (n.val < 4 ∨ bit v.toNat 1 = false) :=
  ⟨5, 1, by decide +kernel⟩

theorem met_encoderIndex : ∃ (e : Fin 8) (s : State), (bit (s.cur.get pgCenc CENC_CFG_ENC) (4 * e.val + 3) = true) :=
  ⟨3, mk [(pgCenc, CENC_CFG_ENC, 0xFFFFFFFF)], by decide +kernel⟩

theorem met_encoderIndexNot : ∃ (e : Fin 8) (s : State), (bit (s.cur.get pgCenc CENC_CFG_ENC) (4 * e.val + 3) = false) :=
  ⟨3, mk [], by decide +kernel⟩

theorem met_cencPosWrite : ∃ (e : Fin 8) (s : State), (((List.range 12).any (fun n => s.cur.axisState n == 5 && s.cur.get (pgAx n) CHN_CTL_MASTER == e.val) = false)) :=
  ⟨3, mk [], by decide +kernel⟩

theorem met_cencPosWriteUsed : ∃ (e : Fin 8) (s : State), (((List.range 12).any (fun n => s.cur.axisState n == 5 && s.cur.get (pgAx n) CHN_CTL_MASTER == e.val) = true)) :=
  ⟨3, sAx 5 5 [(pgAx 5, CHN_CTL_MASTER, 3)], by decide +kernel⟩

theorem met_udStartDisabled : ∃ (c : Fin 32) (s : State), (s.cur.udCheck c = none) ∧ (s.cur.starts (pgUd c) = false) :=
  ⟨0, sUd [(pgUd 0, PG_CTL_ENABLE, 0)], by decide +kernel⟩

theorem met_udStart : ∃ (c : Fin 32) (s : State), (s.cur.udCheck c = none) ∧ (s.cur.starts (pgUd c) = true) ∧ (s.cur.get (pgUd c) UD_TRIG_KIND = 1 ∨ s.cur.get (pgUd c) UD_TRIG_KIND = 2) :=
  ⟨0, sUd [(pgUd 0, UD_TRIG_KIND, 1)], by decide +kernel⟩

theorem met_udStartRequest : ∃ (c : Fin 32) (s : State), (s.cur.udCheck c = none) ∧ (s.cur.starts (pgUd c) = true) ∧ (s.cur.get (pgUd c) UD_TRIG_KIND ≠ 1) ∧ (s.cur.get (pgUd c) UD_TRIG_KIND ≠ 2) ∧ (s.cur.flag (pgUd c) UD_STAT_PENDING = false) ∧ (s.cur.flag (pgUd c) UD_STAT_RUNNING = false) :=
  ⟨0, sUd [], by decide +kernel⟩

theorem met_udStartMissed : ∃ (c : Fin 32) (s : State), (s.cur.udCheck c = none) ∧ (s.cur.starts (pgUd c) = true) ∧ (s.cur.get (pgUd c) UD_TRIG_KIND ≠ 1) ∧ (s.cur.get (pgUd c) UD_TRIG_KIND ≠ 2) ∧ (s.cur.flag (pgUd c) UD_STAT_PENDING = true ∨ s.cur.flag (pgUd c) UD_STAT_RUNNING = true) :=
  ⟨0, sUd [(pgUd 0, UD_STAT_PENDING, 1)], by decide +kernel⟩

theorem met_udStartRefused : ∃ (c : Fin 32) (e : Nat) (s : State), (s.cur.udCheck c = some e) :=
  ⟨0, 3, sUd [(pgUd 0, UD_CNT_COUNT, 0)], by decide +kernel⟩

theorem met_udTimerFire : ∃ (x : Fin 16) (c : Fin 32) (s : State), (s.vis.get pgBush (BUSH_TMR_PERIOD.idx x) ≠ 0) ∧ (((s.cur.gtime : Int) - (s.vis.get pgBush (BUSH_TMR_PHASE.idx x) : Int)) % s.vis.get pgBush (BUSH_TMR_PERIOD.idx x) = 0) ∧ (bit s.cur.ud.fired x = false) ∧ (s.cur.flag (pgUd c) UD_STAT_ARMED = true) ∧ (s.cur.get (pgUd c) UD_TRIG_KIND = 1) ∧ (s.cur.get (pgUd c) UD_TRIG_SEL = x.val) ∧ (s.cur.flag (pgUd c) UD_STAT_PENDING = false) ∧ (s.cur.flag (pgUd c) UD_STAT_RUNNING = false) :=
  ⟨2, 0, sUd [(pgUd 0, UD_STAT_ARMED, 1), (pgUd 0, UD_TRIG_KIND, 1), (pgUd 0, UD_TRIG_SEL, 2), (pgBush, BUSH_TMR_PERIOD.idx 2, 8)], by decide +kernel⟩

theorem met_udTimerFireNone : ∃ (x : Fin 16) (s : State), (s.vis.get pgBush (BUSH_TMR_PERIOD.idx x) ≠ 0) ∧ (((s.cur.gtime : Int) - (s.vis.get pgBush (BUSH_TMR_PHASE.idx x) : Int)) % s.vis.get pgBush (BUSH_TMR_PERIOD.idx x) = 0) ∧ (bit s.cur.ud.fired x = false) ∧ ((∀ c : Fin 32, s.cur.flag (pgUd c) UD_STAT_ARMED = false)) :=
  ⟨2, sUd [(pgBush, BUSH_TMR_PERIOD.idx 2, 8)], by decide +kernel⟩

theorem met_udTimerFireNot : ∃ (x : Fin 16) (s : State), (s.vis.get pgBush (BUSH_TMR_PERIOD.idx x) = 0 ∨ ((s.cur.gtime : Int) - (s.vis.get pgBush (BUSH_TMR_PHASE.idx x) : Int)) % s.vis.get pgBush (BUSH_TMR_PERIOD.idx x) ≠ 0 ∨ bit s.cur.ud.fired x = true) :=
  ⟨2, sUd [], by decide +kernel⟩

theorem met_udRunBegin : ∃ (c : Fin 32) (n : Nat) (s : State), (s.cur.ud.running = none) ∧ (firstRequest s.cur.ud.queue = some (n, c.val)) ∧ (s.cur.starts pgBush = true) ∧ (s.cur.udCheck c = none) :=
  ⟨0, 9, sUd [(pgUd 0, UD_STAT_PENDING, 1)] fun u => { u with queue := [(9, 0)] }, by decide +kernel⟩

theorem met_udRunBeginRefused : ∃ (c : Fin 32) (n : Nat) (e : Nat) (s : State), (s.cur.ud.running = none) ∧ (firstRequest s.cur.ud.queue = some (n, c.val)) ∧ (s.cur.starts pgBush = true) ∧ (s.cur.udCheck c = some e) :=
  ⟨0, 9, 3, sUd [(pgUd 0, UD_CNT_COUNT, 0)] fun u => { u with queue := [(9, 0)] }, by decide +kernel⟩

theorem met_udRunBeginNot : ∃ (s : State), (s.cur.ud.running ≠ none ∨ s.cur.ud.queue = [] ∨ s.cur.starts pgBush = false) :=
  ⟨sUd [], by decide +kernel⟩

theorem met_udRunComplete : ∃ (c : Fin 32) (s : State), (s.cur.ud.running = some c.val) ∧ (s.cur.udElems c ≤ s.cur.ud.moved) :=
  ⟨0, sUd [] fun u => { u with running := some 0, moved := 8 }, by decide +kernel⟩

theorem met_udRunCompleteAlone : ∃ (c : Fin 32) (s : State), (s.cur.ud.running = some c.val) ∧ (s.cur.udElems c ≤ s.cur.ud.moved) ∧ ((∀ y : Fin 32, s.cur.flag (pgUd y) UD_STAT_ARMED = true → s.cur.get (pgUd y) UD_TRIG_KIND ≠ 2 ∨ s.cur.get (pgUd y) UD_TRIG_SEL ≠ c.val)) :=
  ⟨0, sUd [] fun u => { u with running := some 0, moved := 8 }, by decide +kernel⟩

theorem met_udRunCompleteChain : ∃ (c : Fin 32) (y : Fin 32) (s : State), (s.cur.ud.running = some c.val) ∧ (s.cur.udElems c ≤ s.cur.ud.moved) ∧ (y ≠ c) ∧ (s.cur.flag (pgUd y) UD_STAT_ARMED = true) ∧ (s.cur.get (pgUd y) UD_TRIG_KIND = 2) ∧ (s.cur.get (pgUd y) UD_TRIG_SEL = c.val) ∧ (s.cur.flag (pgUd y) UD_STAT_PENDING = false) ∧ (s.cur.flag (pgUd y) UD_STAT_RUNNING = false) :=
  ⟨0, 5, sUd [(pgUd 5, UD_STAT_ARMED, 1), (pgUd 5, UD_TRIG_KIND, 2)] fun u => { u with running := some 0, moved := 8 }, by decide +kernel⟩

theorem met_udRunCompleteNot : ∃ (c : Fin 32) (s : State), (s.cur.ud.running = none ∨ (s.cur.ud.running = some c.val ∧ s.cur.ud.moved < s.cur.udElems c)) :=
  ⟨0, sUd [], by decide +kernel⟩

theorem met_udBusError : ∃ (c : Fin 32) (s : State), (s.cur.ud.running = some c.val) ∧ (s.cur.ud.moved < s.cur.udElems c) ∧ (s.cur.ud.began < s.cur.gtime) :=
  ⟨0, stOf { (sUd [(pgUd 0, UD_CNT_COUNT, 4), (pgUd 0, UD_STAT_RUNNING, 1)] fun u => { u with running := some 0, moved := 1 }).cur with tb := { (sUd []).cur.tb with gtime := 99 } }, by decide +kernel⟩

theorem met_udBusErrorWrite : ∃ (c : Fin 32) (s : State), (s.cur.ud.running = some c.val) ∧ (s.cur.ud.moved < s.cur.udElems c) ∧ (s.cur.ud.began < s.cur.gtime) :=
  ⟨0, stOf { (sUd [(pgUd 0, UD_CNT_COUNT, 4), (pgUd 0, UD_STAT_RUNNING, 1)] fun u => { u with running := some 0, moved := 1 }).cur with tb := { (sUd []).cur.tb with gtime := 99 } }, by decide +kernel⟩

theorem met_udBusErrorNot : ∃ (c : Fin 32) (s : State), (s.cur.ud.running = none ∨ (s.cur.ud.running = some c.val ∧ (s.cur.udElems c ≤ s.cur.ud.moved ∨ s.cur.gtime ≤ s.cur.ud.began))) :=
  ⟨0, sUd [], by decide +kernel⟩

theorem met_pwrGo : ∃ (v : Word) (s : State), (s.cur.enabled pgPwr = true) ∧ (s.cur.sliceBad 155 = false) ∧ (1 ≤ bits v.toNat 24 3) ∧ (bits v.toNat 24 3 ≤ 4) ∧ (s.cur.pwr.phase = .awake) ∧ (bit s.cur.pwr.stopped 1 = false) :=
  ⟨0x83000000, sPwr {}, by decide +kernel⟩

theorem met_pwrGoIdle : ∃ (v : Word) (s : State), (s.cur.enabled pgPwr = true) ∧ (s.cur.sliceBad 155 = false) ∧ (2 ≤ bits v.toNat 24 3) ∧ (bits v.toNat 24 3 ≤ 4) ∧ (s.cur.pwr.phase = .awake) ∧ (bit s.cur.pwr.stopped 1 = true) ∧ (bit s.cur.pwr.stopped 2 = false) :=
  ⟨0x83000000, sPwr { stopped := 2, idle := true }, by decide +kernel⟩

theorem met_pwrGoBusy : ∃ (v : Word) (s : State), (s.cur.enabled pgPwr = true) ∧ (s.cur.sliceBad 155 = false) ∧ (1 ≤ bits v.toNat 24 3) ∧ (bits v.toNat 24 3 ≤ 4) ∧ (s.cur.pwr.phase ≠ .awake) :=
  ⟨0x83000000, sPwr { phase := .entry 1 2999 }, by decide +kernel⟩

theorem met_pwrGoNoTarget : ∃ (v : Word) (s : State), (bits v.toNat 24 3 = 0 ∨ 4 < bits v.toNat 24 3 ∨ s.cur.enabled pgPwr = false ∨ s.cur.sliceBad 155 = true) :=
  ⟨0x80000000, sPwr {}, by decide +kernel⟩

theorem met_pwrAnswerRefuse : ∃ (who : Nat) (busy : Bool) (st since : Nat) (rs : Nat) (s : State), (s.cur.pwr.phase = .entry st since) ∧ (since < s.cur.gtime) ∧ (who ∈ stepMembers st) ∧ (32 ≤ who) ∧ (st < 13) ∧ (s.vis.pageAnswer who busy = (3, rs)) ∧ (((if s.cur.pwr.idle then 2 else 1) < st)) :=
  ⟨pgPcie, false, 2, 2990, 8, sPwr { phase := .entry 2 2990, target := 3, stopped := 2 } [(pgPcie, PCIE_STAT_DL_UP, 1)], by decide +kernel⟩

theorem met_pwrAnswerRefuseFirst : ∃ (who : Nat) (busy : Bool) (st since : Nat) (rs : Nat) (s : State), (s.cur.pwr.phase = .entry st since) ∧ (since < s.cur.gtime) ∧ (who ∈ stepMembers st) ∧ (32 ≤ who) ∧ (s.vis.pageAnswer who busy = (3, rs)) ∧ ((st ≤ (if s.cur.pwr.idle then 2 else 1))) :=
  ⟨pgPcie, false, 2, 2990, 8, sPwr { phase := .entry 2 2990, target := 3, stopped := 2, idle := true } [(pgPcie, PCIE_STAT_DL_UP, 1)], by decide +kernel⟩

theorem met_pwrAnswerAgree : ∃ (who : Nat) (busy : Bool) (st since : Nat) (s : State), (s.cur.pwr.phase = .entry st since) ∧ (since < s.cur.gtime) ∧ (who ∈ stepMembers st) ∧ (s.vis.pageAnswer who busy = (1, 0)) ∧ ((∃ m ∈ stepMembers st, m ≠ who ∧ ∀ x ∈ s.cur.pwr.answers, x.1 = m → x.2.1 ≠ 1)) :=
  ⟨4, false, 1, 2990, sPwr { phase := .entry 1 2990, target := 3 }, by decide +kernel⟩

theorem met_pwrAnswerDelay : ∃ (who : Nat) (busy : Bool) (st since : Nat) (s : State), (s.cur.pwr.phase = .entry st since) ∧ (since < s.cur.gtime) ∧ (who ∈ stepMembers st) ∧ (s.vis.pageAnswer who busy = (2, 0)) :=
  ⟨4, true, 1, 2990, sPwr { phase := .entry 1 2990, target := 3 }, by decide +kernel⟩

theorem met_pwrAnswerNext : ∃ (who : Nat) (busy : Bool) (st since : Nat) (s : State), (s.cur.pwr.phase = .entry st since) ∧ (since < s.cur.gtime) ∧ (who ∈ stepMembers st) ∧ (s.vis.pageAnswer who busy = (1, 0)) ∧ ((∀ m ∈ stepMembers st, m = who ∨ ∃ x ∈ s.cur.pwr.answers, x.1 = m ∧ x.2.1 = 1)) ∧ (st < 12) ∧ (s.cur.pwr.target ≠ 1) ∧ (bit s.cur.pwr.stopped (st + 1) = false) :=
  ⟨7, false, 1, 2990, sPwr { phase := .entry 1 2990, target := 3, answers := [(4, 1, 2991), (5, 1, 2991), (6, 1, 2991)] }, by decide +kernel⟩

theorem met_pwrAnswerLast : ∃ (who : Nat) (busy : Bool) (st since : Nat) (s : State), (s.cur.pwr.phase = .entry st since) ∧ (since < s.cur.gtime) ∧ (who ∈ stepMembers st) ∧ (s.vis.pageAnswer who busy = (1, 0)) ∧ ((∀ m ∈ stepMembers st, m = who ∨ ∃ x ∈ s.cur.pwr.answers, x.1 = m ∧ x.2.1 = 1)) ∧ (((if s.cur.pwr.target = 1 then 1 else 12) ≤ st)) :=
  ⟨7, false, 1, 2990, sPwr { phase := .entry 1 2990, target := 1, answers := [(4, 1, 2991), (5, 1, 2991), (6, 1, 2991)] }, by decide +kernel⟩

theorem met_pwrAnswerRefuseLower : ∃ (who : Nat) (busy : Bool) (f st w p : Nat) (rs : Nat) (s : State), (s.cur.pwr.phase = .rollback f st w) ∧ (s.cur.pwr.refused = some p) ∧ (s.cur.pwr.abortAt = s.cur.gtime) ∧ (who ∈ stepMembers f) ∧ (s.vis.pageAnswer who busy = (3, rs)) ∧ (pgIdOf who < p) :=
  ⟨pgCmt 0, false, 5, 4, 3001, 184614912, 3, sPwr { phase := .rollback 5 4 3001, target := 3, refused := some 184614912, abortAt := 3000 } [(pgCmt 0, CMT_STAT_STATE, 3)], by decide +kernel⟩

theorem met_pwrAnswerRollback : ∃ (who : Nat) (busy : Bool) (f st w : Nat) (s : State), (s.cur.pwr.phase = .rollback f st w) ∧ (s.cur.pwr.refused = none ∨ s.cur.pwr.abortAt ≠ s.cur.gtime ∨ (s.vis.pageAnswer who busy).1 ≠ 3 ∨ ¬ who ∈ stepMembers f ∨ Option.getD s.cur.pwr.refused 0 ≤ pgIdOf who) :=
  ⟨4, true, 5, 4, 3001, sPwr { phase := .rollback 5 4 3001 }, by decide +kernel⟩

theorem met_pwrAnswerEarly : ∃ (who : Nat) (st since : Nat) (s : State), (s.cur.pwr.phase = .entry st since) ∧ (¬ who ∈ stepMembers st ∨ s.cur.gtime ≤ since) :=
  ⟨4, 1, 3000, sPwr { phase := .entry 1 3000, target := 3 }, by decide +kernel⟩

theorem met_pwrAnswerNot : ∃ (s : State), ((match s.cur.pwr.phase with | .entry _ _ | .rollback _ _ _ => false | _ => true) = true) :=
  ⟨sPwr {}, by decide +kernel⟩

theorem met_pwrCommitIdle : ∃ (s : State), (s.cur.pwr.phase = .commit) ∧ (s.cur.pwr.target = 1) :=
  ⟨sPwr { phase := .commit, target := 1 }, by decide +kernel⟩

theorem met_pwrCommit : ∃ (s : State), (s.cur.pwr.phase = .commit) ∧ (s.cur.pwr.target ≠ 1) ∧ (s.cur.pwr.target ≠ 4) :=
  ⟨sPwr { phase := .commit, target := 2 } [(pgAx 1, CHN_ISTAT_I_NOW, 5)], by decide +kernel⟩

theorem met_pwrCommitNot : ∃ (s : State), (s.cur.pwr.phase ≠ .commit ∨ s.cur.pwr.target = 4) :=
  ⟨sPwr {}, by decide +kernel⟩

theorem met_pwrNoAnswer : ∃ (st since : Nat) (s : State), (s.cur.pwr.phase = .entry st since) ∧ (st < 13) ∧ (since + 64 ≤ s.cur.gtime) ∧ (((if s.cur.pwr.idle then 2 else 1) < st)) ∧ ((∃ m ∈ stepMembers st, ∀ x ∈ s.cur.pwr.answers, x.1 ≠ m)) :=
  ⟨12, 2000, sPwr { phase := .entry 12 2000, target := 3, stopped := 0xFFE }, by decide +kernel⟩

theorem met_pwrNoAnswerNoEntry : ∃ (s : State), ((match s.cur.pwr.phase with | .entry _ _ => false | _ => true) = true) :=
  ⟨sPwr {}, by decide +kernel⟩

theorem met_pwrNoAnswerNot : ∃ (st since : Nat) (s : State), (s.cur.pwr.phase = .entry st since) ∧ ((s.cur.gtime < since + 64 ∨ ∀ m ∈ stepMembers st, ∃ x ∈ s.cur.pwr.answers, x.1 = m)) :=
  ⟨1, 2990, sPwr { phase := .entry 1 2990 }, by decide +kernel⟩

theorem met_pwrDelayLimit : ∃ (st since : Nat) (s : State), (s.cur.pwr.phase = .entry st since) ∧ (st < 13) ∧ (((if s.cur.pwr.idle then 2 else 1) < st)) ∧ ((∃ x ∈ s.cur.pwr.answers, x.2.1 = 2 ∧ x.2.2 + max 1 (s.cur.get pgPwr PWR_CFG_DELAY_MAX_G) < s.cur.gtime)) :=
  ⟨12, 2000, sPwr { phase := .entry 12 2000, target := 3, stopped := 0xFFE, answers := [(8, 2, 2900)] } [(pgPwr, PWR_CFG_DELAY_MAX_G, 5)], by decide +kernel⟩

theorem met_pwrDelayLimitNoEntry : ∃ (s : State), ((match s.cur.pwr.phase with | .entry _ _ => false | _ => true) = true) :=
  ⟨sPwr {}, by decide +kernel⟩

theorem met_pwrDelayLimitNot : ∃ (st since : Nat) (s : State), (s.cur.pwr.phase = .entry st since) ∧ ((∀ x ∈ s.cur.pwr.answers, x.2.1 = 2 → s.cur.gtime ≤ x.2.2 + max 1 (s.cur.get pgPwr PWR_CFG_DELAY_MAX_G))) :=
  ⟨1, 2990, sPwr { phase := .entry 1 2990, answers := [(4, 2, 2999)] }, by decide +kernel⟩

theorem met_pwrRetry : ∃ (s : State), (s.cur.pwr.phase = .retryWait) ∧ (s.cur.pwr.abortAt + 256 * max 1 (s.cur.get pgPwr PWR_CFG_RETRY_S) ≤ s.cur.gtime) ∧ (bit s.cur.pwr.stopped 1 = false) ∧ (1 ≤ s.cur.pwr.target) :=
  ⟨sPwr { phase := .retryWait, abortAt := 2000 } [(pgPwr, PWR_CFG_RETRY_S, 1)], by decide +kernel⟩

theorem met_pwrRetryNot : ∃ (s : State), (s.cur.pwr.phase ≠ .retryWait ∨ s.cur.gtime < s.cur.pwr.abortAt + 256 * max 1 (s.cur.get pgPwr PWR_CFG_RETRY_S)) :=
  ⟨sPwr { phase := .retryWait, abortAt := 2999 }, by decide +kernel⟩

theorem met_rollbackStep : ∃ (f st w : Nat) (s : State), (s.cur.pwr.phase = .rollback f st w) ∧ (w + (stepDelays st).2.2 ≤ s.cur.gtime + 1) ∧ (st < 13) ∧ (((if s.cur.pwr.idle then 2 else 1) < st)) :=
  ⟨6, 5, 2900, sPwr { phase := .rollback 6 5 2900, stopped := 0x3E }, by decide +kernel⟩

theorem met_rollbackStepLast : ∃ (f st w : Nat) (s : State), (s.cur.pwr.phase = .rollback f st w) ∧ (w + (stepDelays st).2.2 ≤ s.cur.gtime + 1) ∧ (st < 13) ∧ ((st ≤ (if s.cur.pwr.idle then 2 else 1))) :=
  ⟨6, 1, 2900, sPwr { phase := .rollback 6 1 2900, stopped := 2 }, by decide +kernel⟩

theorem met_rollbackStepNoRollback : ∃ (s : State), ((match s.cur.pwr.phase with | .rollback _ _ _ => false | _ => true) = true) :=
  ⟨sPwr {}, by decide +kernel⟩

theorem met_rollbackStepNot : ∃ (f st w : Nat) (s : State), (s.cur.pwr.phase = .rollback f st w) ∧ (s.cur.gtime + 1 < w + (stepDelays st).2.2) :=
  ⟨6, 8, 2999, sPwr { phase := .rollback 6 8 2999 }, by decide +kernel⟩

theorem met_wake : ∃ (src : BitVec 10) (s : State), (s.cur.pwr.phase = .asleep) ∧ (s.cur.wakeSources s.cur.pwr.target src.toNat ≠ 0) ∧ (bit src.toNat 0 = false ∨ s.cur.rsv.pfLine = false) :=
  ⟨2, sPwr { phase := .asleep, target := 2, gtimeCommit := 3000, stopped := 0x1FFE } [(pgPwr, PWR_WAKE_EN_SRC, 2)], by decide +kernel⟩

theorem met_wakeLoss : ∃ (src : BitVec 10) (s : State), (s.cur.pwr.phase = .asleep) ∧ (bit src.toNat 0 = true) ∧ (s.cur.rsv.pfLine = true) :=
  ⟨1, sPwr { phase := .asleep, target := 2, gtimeCommit := 3000, stopped := 0x1FFE } [] fun d => { d with rsv := { d.rsv with pfLine := true } }, by decide +kernel⟩

theorem met_wakeNone : ∃ (src : BitVec 10) (s : State), (s.cur.pwr.phase = .asleep) ∧ (s.cur.wakeSources s.cur.pwr.target src.toNat = 0) ∧ (bit src.toNat 0 = false ∨ s.cur.rsv.pfLine = false) :=
  ⟨0x40, sPwr { phase := .asleep, target := 2, gtimeCommit := 3000, stopped := 0x1FFE }, by decide +kernel⟩

theorem met_wakeRun : ∃ (src : BitVec 10) (s : State), (s.cur.pwr.phase = .awake) ∧ (s.cur.pwr.idle = false ∨ s.cur.wakeSources 1 src.toNat = 0) :=
  ⟨1, sPwr {}, by decide +kernel⟩

theorem met_wakeNot : ∃ (s : State), ((match s.cur.pwr.phase with | .asleep | .entry _ _ | .commit | .awake => false | _ => true) = true) :=
  ⟨sPwr { phase := .waking 3 2990 }, by decide +kernel⟩

theorem met_wakeEntryNone : ∃ (src : BitVec 10) (st since : Nat) (s : State), (s.cur.pwr.phase = .entry st since ∨ s.cur.pwr.phase = .commit) ∧ (s.cur.wakeSources s.cur.pwr.target src.toNat = 0) :=
  ⟨1, 3, 2990, sPwr { phase := .entry 3 2990 }, by decide +kernel⟩

theorem met_wakeCommit : ∃ (src : BitVec 10) (s : State), (s.cur.pwr.phase = .commit) ∧ (s.cur.wakeSources s.cur.pwr.target src.toNat ≠ 0) ∧ (((if s.cur.pwr.idle then 2 else 1) < (if s.cur.pwr.target = 1 then 2 else 13))) :=
  ⟨2, sPwr { phase := .commit, target := 3, stopped := 0x1FFE } [(pgPwr, PWR_WAKE_EN_SRC, 2)], by decide +kernel⟩

theorem met_wakeIdle : ∃ (src : BitVec 10) (s : State), (s.cur.pwr.phase = .awake) ∧ (s.cur.pwr.idle = true) ∧ (s.cur.wakeSources 1 src.toNat ≠ 0) :=
  ⟨2, sPwr { idle := true, stopped := 2, target := 1 } [(pgPwr, PWR_WAKE_EN_SRC, 2)], by decide +kernel⟩

theorem met_wakeEntry : ∃ (src : BitVec 10) (st since : Nat) (s : State), (s.cur.pwr.phase = .entry st since) ∧ (st < 13) ∧ (((if s.cur.pwr.idle then 2 else 1) < st)) ∧ (s.cur.wakeSources s.cur.pwr.target src.toNat ≠ 0) :=
  ⟨2, 12, 2990, sPwr { phase := .entry 12 2990, target := 3, stopped := 0xFFE } [(pgPwr, PWR_WAKE_EN_SRC, 2)], by decide +kernel⟩

theorem met_wakeTimerExpiry : ∃ (k : Nat) (s : State), (s.cur.pwr.phase = .asleep) ∧ (s.cur.get pgPwr PWR_WAKE_TMR_TICKS ≠ 0) ∧ (s.cur.get pgPwr PWR_WAKE_TMR_TICKS ≤ k) ∧ (s.cur.wakeSources s.cur.pwr.target 0x80 ≠ 0) :=
  ⟨64, sPwr { phase := .asleep, target := 2, gtimeCommit := 3000, stopped := 0x1FFE } [(pgPwr, PWR_WAKE_TMR, 64), (pgPwr, PWR_WAKE_EN_SRC, 0x80)], by decide +kernel⟩

theorem met_wakeTimerExpiryNot : ∃ (k : Nat) (s : State), (s.cur.pwr.phase ≠ .asleep ∨ s.cur.get pgPwr PWR_WAKE_TMR_TICKS = 0 ∨ k < s.cur.get pgPwr PWR_WAKE_TMR_TICKS) :=
  ⟨63, sPwr { phase := .asleep, target := 2, gtimeCommit := 3000, stopped := 0x1FFE } [(pgPwr, PWR_WAKE_TMR, 64)], by decide +kernel⟩

theorem met_wakeStep : ∃ (st w : Nat) (s : State), (s.cur.pwr.phase = .waking st w) ∧ (s.cur.lastStep < st) ∧ (st < 13) ∧ ((w + (if s.cur.pwr.target = 3 then (stepDelays st).2.1 else (stepDelays st).1) ≤ s.cur.gtime + 1)) ∧ (st ≠ 4) ∧ (st ≠ 5) :=
  ⟨8, 2900, sPwr { phase := .waking 8 2900, target := 2, stopped := 0x1FE }, by decide +kernel⟩

theorem met_wakeStepRead : ∃ (st w : Nat) (s : State), (s.cur.pwr.phase = .waking st w) ∧ (s.cur.lastStep < st) ∧ (st < 13) ∧ ((w + (if s.cur.pwr.target = 3 then (stepDelays st).2.1 else (stepDelays st).1) ≤ s.cur.gtime + 1)) ∧ (st = 4) :=
  ⟨4, 2900, sPwr { phase := .waking 4 2900, target := 2, stopped := 0x1E }, by decide +kernel⟩

theorem met_wakeStepServo : ∃ (st w : Nat) (s : State), (s.cur.pwr.phase = .waking st w) ∧ (s.cur.lastStep < st) ∧ (st < 13) ∧ ((w + (if s.cur.pwr.target = 3 then (stepDelays st).2.1 else (stepDelays st).1) ≤ s.cur.gtime + 1)) ∧ (st = 5) :=
  ⟨5, 2900, sPwr { phase := .waking 5 2900, target := 2, stopped := 0x3E } [(pgAx 3, CHN_STAT_STATE, 3), (pgAx 3, CHN_STAT_REF, 1), (pgOps 1, OPS_STAT_STATE, 4)], by decide +kernel⟩

theorem met_wakeStepNoWake : ∃ (s : State), ((match s.cur.pwr.phase with | .waking _ _ => false | _ => true) = true) :=
  ⟨sPwr {}, by decide +kernel⟩

theorem met_wakeStepNot : ∃ (st w : Nat) (s : State), (s.cur.pwr.phase = .waking st w) ∧ ((st ≤ s.cur.lastStep ∨ s.cur.gtime + 1 < w + (if s.cur.pwr.target = 3 then (stepDelays st).2.1 else (stepDelays st).1))) :=
  ⟨8, 2999, sPwr { phase := .waking 8 2999, target := 2 }, by decide +kernel⟩

theorem met_wakeComplete : ∃ (st w : Nat) (s : State), (s.cur.pwr.phase = .waking st w) ∧ (s.cur.pwr.lossWake = false) ∧ (st ≤ s.cur.lastStep) ∧ (1 ≤ st) ∧ ((w + (if s.cur.pwr.target = 3 then (stepDelays st).2.1 else (stepDelays st).1) ≤ s.cur.gtime + 1)) :=
  ⟨1, 2900, sPwr { phase := .waking 1 2900, target := 2, stopped := 2 }, by decide +kernel⟩

theorem met_wakeCompleteLoss : ∃ (st w : Nat) (s : State), (s.cur.pwr.phase = .waking st w) ∧ (s.cur.pwr.lossWake = true) ∧ (st = 6) ∧ ((w + (if s.cur.pwr.target = 3 then (stepDelays st).2.1 else (stepDelays st).1) ≤ s.cur.gtime + 1)) :=
  ⟨6, 2900, sPwr { phase := .waking 6 2900, target := 2, lossWake := true, stopped := 0x77E }, by decide +kernel⟩

theorem met_wakeCompleteNoWake : ∃ (s : State), ((match s.cur.pwr.phase with | .waking _ _ => false | _ => true) = true) :=
  ⟨sPwr {}, by decide +kernel⟩

theorem met_wakeCompleteNot : ∃ (st w : Nat) (s : State), (s.cur.pwr.phase = .waking st w) ∧ ((s.cur.lastStep < st ∨ s.cur.gtime + 1 < w + (if s.cur.pwr.target = 3 then (stepDelays st).2.1 else (stepDelays st).1))) :=
  ⟨8, 2900, sPwr { phase := .waking 8 2900, target := 2 }, by decide +kernel⟩

theorem met_sleepSupplyLoss : ∃ (s : State), (s.cur.pwr.phase = .asleep) ∧ (s.cur.rsv.pfLine = true) :=
  ⟨sPwr { phase := .asleep, target := 2, gtimeCommit := 3000, stopped := 0x1FFE } [] fun d => { d with rsv := { d.rsv with pfLine := true } }, by decide +kernel⟩

theorem met_sleepSupplyLossNot : ∃ (s : State), (s.cur.pwr.phase ≠ .asleep ∨ s.cur.rsv.pfLine = false) :=
  ⟨sPwr {}, by decide +kernel⟩

theorem met_offEntry : ∃ (s : State), (s.cur.pwr.phase = .commit) ∧ (s.cur.pwr.target = 4) ∧ (s.cur.rsv.copying = false) ∧ ((∀ c ∈ s.cur.rsv.commits, c.seq ≤ s.cur.rsv.commitSeq)) :=
  ⟨sPwr { phase := .commit, target := 4 } [(pgLdg, LDG_STAT_RESTORED, 1), (pgBay 0, BAY_STAT_STATE, 5), (pgBay 0, BAY_CTL_WRITE_EN, 1)], by decide +kernel⟩

theorem met_offEntryNot : ∃ (s : State), (s.cur.pwr.phase ≠ .commit ∨ s.cur.pwr.target ≠ 4) :=
  ⟨sPwr {}, by decide +kernel⟩

theorem met_offExit : ∃ (s : State), (s.cur.pwr.phase = .off) :=
  ⟨sPwr { phase := .off }, by decide +kernel⟩

theorem met_offExitNot : ∃ (s : State), (s.cur.pwr.phase ≠ .off) :=
  ⟨sPwr {}, by decide +kernel⟩

theorem met_sentinelPeriodDisabled : ∃ (s : State), (s.cur.pwr.phase ≠ .off) ∧ (s.cur.flag pgScr SCR_CTL_EN = false) :=
  ⟨mk [], by decide +kernel⟩

theorem met_sentinelPeriodOff : ∃ (s : State), (s.cur.pwr.phase = .off) :=
  ⟨sPwr { phase := .off }, by decide +kernel⟩

theorem met_sentinelPeriod : ∃ (s : State), (s.cur.pwr.phase ≠ .off) ∧ (s.cur.flag pgScr SCR_CTL_EN = true) ∧ ((∀ q : Fin 32, s.cur.ruleA q SCR_RULE_A_CMP = 0 ∨ 4 < s.cur.ruleA q SCR_RULE_A_CMP)) :=
  ⟨mk [(pgScr, SCR_CTL, 1)], by decide +kernel⟩

theorem met_sentinelPeriodOut : ∃ (x : BitVec 16) (q : Fin 32) (s : State), (s.cur.pwr.phase ≠ .off) ∧ (s.cur.flag pgScr SCR_CTL_EN = true) ∧ ((∀ p : Fin 32, p ≠ q → s.cur.ruleA p SCR_RULE_A_CMP = 0)) ∧ (s.cur.ruleA q SCR_RULE_A_CMP = 1) ∧ (s.cur.ruleA q SCR_RULE_A_LINK = 0) ∧ (s.cur.ruleA q SCR_RULE_A_OPND = 0) ∧ ((sext 16 (s.cur.ruleA q SCR_RULE_A_THRESH) < (if (s.cur.clockOn && s.cur.domainOn 20) = true then s.cur.getI pgAcc ACC_XY_X else sext 16 x.toNat))) ∧ (s.cur.ruleB q SCR_RULE_B_HOLD ≤ (s.cur.scrRule q).run + 1) ∧ ((s.cur.scrRule q).eff = false) ∧ (s.cur.get pgRule (ruleFld q 2 SCR_RULE_STAT_ARMED) = 1) ∧ (statesHold s.cur.scrState (s.cur.ruleA q SCR_RULE_A_STATES) = true) ∧ (s.cur.ruleB q SCR_RULE_B_ACT = 4) :=
  ⟨5, 2, sScr 4, by decide +kernel⟩

theorem met_sentinelPeriodWake : ∃ (x : BitVec 16) (q : Fin 32) (s : State), (s.cur.pwr.phase ≠ .off) ∧ (s.cur.flag pgScr SCR_CTL_EN = true) ∧ ((∀ p : Fin 32, p ≠ q → s.cur.ruleA p SCR_RULE_A_CMP = 0)) ∧ (s.cur.ruleA q SCR_RULE_A_CMP = 1) ∧ (s.cur.ruleA q SCR_RULE_A_LINK = 0) ∧ (s.cur.ruleA q SCR_RULE_A_OPND = 0) ∧ ((sext 16 (s.cur.ruleA q SCR_RULE_A_THRESH) < (if (s.cur.clockOn && s.cur.domainOn 20) = true then s.cur.getI pgAcc ACC_XY_X else sext 16 x.toNat))) ∧ (s.cur.ruleB q SCR_RULE_B_HOLD ≤ (s.cur.scrRule q).run + 1) ∧ ((s.cur.scrRule q).eff = false) ∧ (s.cur.get pgRule (ruleFld q 2 SCR_RULE_STAT_ARMED) = 1) ∧ (statesHold s.cur.scrState (s.cur.ruleA q SCR_RULE_A_STATES) = true) ∧ (s.cur.ruleB q SCR_RULE_B_ACT = 8) ∧ (s.cur.scrState ≠ 0) ∧ (bit (s.cur.get pgPwr PWR_WAKE_EN_SRC) 6 = true) :=
  ⟨5, 2, sScr 8 [(pgPwr, PWR_WAKE_EN_SRC, 0x40)] fun d => { d with pwr := { d.pwr with idle := true } }, by decide +kernel⟩

theorem met_sentinelPeriodLog : ∃ (x : BitVec 16) (q : Fin 32) (s : State), (s.cur.pwr.phase ≠ .off) ∧ (s.cur.flag pgScr SCR_CTL_EN = true) ∧ ((∀ p : Fin 32, p ≠ q → s.cur.ruleA p SCR_RULE_A_CMP = 0)) ∧ (s.cur.ruleA q SCR_RULE_A_CMP = 1) ∧ (s.cur.ruleA q SCR_RULE_A_LINK = 0) ∧ (s.cur.ruleA q SCR_RULE_A_OPND = 0) ∧ ((sext 16 (s.cur.ruleA q SCR_RULE_A_THRESH) < (if (s.cur.clockOn && s.cur.domainOn 20) = true then s.cur.getI pgAcc ACC_XY_X else sext 16 x.toNat))) ∧ (s.cur.ruleB q SCR_RULE_B_HOLD ≤ (s.cur.scrRule q).run + 1) ∧ ((s.cur.scrRule q).eff = false) ∧ (s.cur.get pgRule (ruleFld q 2 SCR_RULE_STAT_ARMED) = 1) ∧ (statesHold s.cur.scrState (s.cur.ruleA q SCR_RULE_A_STATES) = true) ∧ (s.cur.ruleB q SCR_RULE_B_ACT = 2) ∧ (s.cur.scr.logged < 256) :=
  ⟨5, 2, sScr 2, by decide +kernel⟩

theorem met_sentinelPeriodMark : ∃ (x : BitVec 16) (q : Fin 32) (k : Nat) (s : State), (s.cur.pwr.phase ≠ .off) ∧ (s.cur.flag pgScr SCR_CTL_EN = true) ∧ ((∀ p : Fin 32, p ≠ q → s.cur.ruleA p SCR_RULE_A_CMP = 0)) ∧ (s.cur.ruleA q SCR_RULE_A_CMP = 1) ∧ (s.cur.ruleA q SCR_RULE_A_LINK = 0) ∧ (s.cur.ruleA q SCR_RULE_A_OPND = 0) ∧ ((sext 16 (s.cur.ruleA q SCR_RULE_A_THRESH) < (if (s.cur.clockOn && s.cur.domainOn 20) = true then s.cur.getI pgAcc ACC_XY_X else sext 16 x.toNat))) ∧ (s.cur.ruleB q SCR_RULE_B_HOLD ≤ (s.cur.scrRule q).run + 1) ∧ ((s.cur.scrRule q).eff = false) ∧ (s.cur.get pgRule (ruleFld q 2 SCR_RULE_STAT_ARMED) = 1) ∧ (statesHold s.cur.scrState (s.cur.ruleA q SCR_RULE_A_STATES) = true) ∧ (s.cur.ruleB q SCR_RULE_B_ACT = 1) ∧ (k < 16) ∧ (bit (s.cur.get pgScr SCR_MARK_SLOTS) k = false) ∧ ((∀ p, p < k → bit (s.cur.get pgScr SCR_MARK_SLOTS) p = true)) :=
  ⟨5, 2, 0, sScr 1, by decide +kernel⟩

theorem met_sentinelPeriodMarkLost : ∃ (x : BitVec 16) (q : Fin 32) (s : State), (s.cur.pwr.phase ≠ .off) ∧ (s.cur.flag pgScr SCR_CTL_EN = true) ∧ ((∀ p : Fin 32, p ≠ q → s.cur.ruleA p SCR_RULE_A_CMP = 0)) ∧ (s.cur.ruleA q SCR_RULE_A_CMP = 1) ∧ (s.cur.ruleA q SCR_RULE_A_LINK = 0) ∧ (s.cur.ruleA q SCR_RULE_A_OPND = 0) ∧ ((sext 16 (s.cur.ruleA q SCR_RULE_A_THRESH) < (if (s.cur.clockOn && s.cur.domainOn 20) = true then s.cur.getI pgAcc ACC_XY_X else sext 16 x.toNat))) ∧ (s.cur.ruleB q SCR_RULE_B_HOLD ≤ (s.cur.scrRule q).run + 1) ∧ ((s.cur.scrRule q).eff = false) ∧ (s.cur.get pgRule (ruleFld q 2 SCR_RULE_STAT_ARMED) = 1) ∧ (statesHold s.cur.scrState (s.cur.ruleA q SCR_RULE_A_STATES) = true) ∧ (s.cur.ruleB q SCR_RULE_B_ACT = 1) ∧ (s.cur.get pgScr SCR_MARK_SLOTS = 0xFFFF) :=
  ⟨5, 2, sScr 1 [(pgScr, SCR_MARK, 0xFFFF)], by decide +kernel⟩

theorem met_minuteStamp : ∃ (e : Fin 64) (s : State), (s.cur.gtime % 15000000 = 0) ∧ (bit (s.cur.laneEntry e) 31 = true) :=
  ⟨2, mk [(pgLane, ⟨8, 0, 32⟩, 0x80100007)], by decide +kernel⟩

theorem met_minuteStampNot : ∃ (s : State), (s.cur.gtime % 15000000 ≠ 0) :=
  ⟨sPwr {}, by decide +kernel⟩

theorem met_markResolve : ∃ (q : Fin 16) (w : Nat) (e : Fin 64) (s : State), ((s.cur.scr.times.find? (fun x => x.1 == q.val) = some (q.val, w))) ∧ (s.cur.clockOn = true) ∧ (bit (s.cur.laneEntry e) 31 = true) ∧ (bits (s.cur.laneEntry e) 20 8 &&& (memGet s.cur.aon ((0x2000 + q.val * 1024) + 8)).toNat ≠ 0) :=
  ⟨0, 60000000, 2, sMark, by decide +kernel⟩

theorem met_markResolveNone : ∃ (q : Fin 16) (w : Nat) (e : Fin 64) (s : State), ((s.cur.scr.times.find? (fun x => x.1 == q.val) = some (q.val, w))) ∧ (s.cur.clockOn = true) ∧ (bit (s.cur.laneEntry e) 31 = false ∨ bits (s.cur.laneEntry e) 20 8 &&& (memGet s.cur.aon ((0x2000 + q.val * 1024) + 8)).toNat = 0) :=
  ⟨0, 60000000, 3, sMark, by decide +kernel⟩

theorem met_markResolveNot : ∃ (q : Fin 16) (s : State), ((s.cur.clockOn = false ∨ s.cur.scr.times.find? (fun x => x.1 == q.val) = none)) :=
  ⟨0, sPwr {}, by decide +kernel⟩

theorem met_memReadCorr : ∃ (a : Fin 11) (w b : Nat) (s : State), (w < arrayWords a) ∧ (b < arrayBits a) ∧ (a.val ≠ 1) ∧ (a.val ≠ 2) ∧ (s.cur.prt.corrected.contains (a.val, w, b) = false) :=
  ⟨0, 5, 7, mk [], by decide +kernel⟩

theorem met_memReadCorrHard : ∃ (a : Fin 11) (w b : Nat) (s : State), (w < arrayWords a) ∧ (b < arrayBits a) ∧ (a.val ≠ 1) ∧ (a.val ≠ 2) ∧ (s.cur.prt.corrected.contains (a.val, w, b) = true) :=
  ⟨0, 5, 7, sPrt fun p => { p with corrected := [(0, 5, 7)] }, by decide +kernel⟩

theorem met_memReadCorrBuffer : ∃ (w b : Nat) , (w < arrayWords 2) ∧ (b < 72) :=
  ⟨5, 7, by decide +kernel⟩

theorem met_memReadCorrStaging : ∃ (w b k : Nat) (o : Option (Packet × Nat)) (s : State), (w < arrayWords 1) ∧ (b < 72) ∧ (s.cur.stagingWord (w / 8) = some (k, o)) ∧ (k < 64) :=
  ⟨0, 7, 0, none, mk [(pgFk 0, FK_CFG_SIZE_4K, 4)], by decide +kernel⟩

theorem met_memReadCorrNot : ∃ (a : Fin 11) (w b : Nat) , (arrayWords a ≤ w ∨ arrayBits a ≤ b) :=
  ⟨9, 99999, 0, by decide +kernel⟩

theorem met_memReadUncorr : ∃ (a : Fin 11) (w : Nat) , (w < arrayWords a) ∧ (a.val ≠ 1) ∧ (a.val ≠ 8) ∧ (a.val ≠ 9) :=
  ⟨0, 5, by decide +kernel⟩

theorem met_memReadUncorrScrub : ∃ (a : Fin 11) (w : Nat) (u : MemUser) , (w < arrayWords a) ∧ (u = .scrub) :=
  ⟨1, 5, .scrub, by decide +kernel⟩

theorem met_memReadUncorrStaging : ∃ (w : Nat) (u : MemUser) (k : Nat) (p : Packet) (j : Nat) (s : State), (w < arrayWords 1) ∧ (u ≠ .scrub) ∧ (s.cur.stagingWord (w / 8) = some (k, some (p, j))) ∧ (k < 64) :=
  ⟨0, .soft (.app 0), 0, { lsn := 3, lane := 7, ctx := 1, promised := 64, words := 1, closed := true }, 0, sFifoBad, by decide +kernel⟩

theorem met_memReadUncorrNot : ∃ (a : Fin 11) (w : Nat) , (arrayWords a ≤ w) :=
  ⟨9, 99999, by decide +kernel⟩

theorem met_memReadUncorrRead : ∃ (w : Nat) (u : MemUser) (lsn : Nat) (s : State), (w < arrayWords 9) ∧ (u ≠ .scrub) ∧ ((∃ e ∈ s.cur.ldg.journal, e.lsn = lsn)) ∧ ((∀ e ∈ s.cur.ldg.journal, e.lsn = lsn → e.met = none ∧ e.opc = .read)) :=
  ⟨0, .engine 0, 3, sLost .read, by decide +kernel⟩

theorem met_memReadUncorrEntry : ∃ (w : Nat) (u : MemUser) (lsn : Nat) (s : State), (w < arrayWords 9) ∧ (u ≠ .scrub) ∧ ((∃ e ∈ s.cur.ldg.journal, e.lsn = lsn)) ∧ ((∀ e ∈ s.cur.ldg.journal, e.lsn = lsn → e.met = none ∧ e.opc ≠ .read)) :=
  ⟨0, .engine 0, 3, sLost .mark, by decide +kernel⟩

theorem met_memReadUncorrCheck : ∃ (w : Nat) (u : MemUser) (s : State), (w < arrayWords 8) ∧ (u ≠ .scrub) ∧ (((s.cur.stg.fifos.toList.any fun f => f.packets.any fun p => p.ctx == w && p.opened && !p.closed) = false)) ∧ ((s.cur.ctx w).fifo < 64) :=
  ⟨2, .engine 0, mk [], by decide +kernel⟩

theorem met_memReadUncorrCheckLost : ∃ (w : Nat) (u : MemUser) (s : State), (w < arrayWords 8) ∧ (u ≠ .scrub) ∧ (((s.cur.stg.fifos.toList.any fun f => f.packets.any fun p => p.ctx == w && p.opened && !p.closed) = false)) :=
  ⟨2, .engine 0, mk [], by decide +kernel⟩

theorem met_memReadUncorrCheckOpen : ∃ (w : Nat) (u : MemUser) (s : State), (w < arrayWords 8) ∧ (u ≠ .scrub) ∧ (((s.cur.stg.fifos.toList.any fun f => f.packets.any fun p => p.ctx == w && p.opened && !p.closed) = true)) :=
  ⟨1, .engine 0, mk [] fun d => d.updFifo 0 fun f => { f with packets := [{ lsn := 3, lane := 7, ctx := 1, promised := 64, words := 1, opened := true }] }, by decide +kernel⟩

theorem met_memNarrowWrite : ∃ (a : Fin 11) (page : Nat) , (wordCoded a = true) ∧ ((pageOf page).isSome = true) :=
  ⟨1, pgFk 3, by decide +kernel⟩

theorem met_memNarrowWriteNot : ∃ (a : Fin 11) (page : Nat) , (wordCoded a = false ∨ (pageOf page).isNone = true) :=
  ⟨8, pgFk 3, by decide +kernel⟩

theorem met_aonParityErrorMark : ∃ (q : Fin 16) (s : State), (bit (s.cur.get pgScr SCR_MARK_SLOTS) q = true) :=
  ⟨1, mk [(pgScr, SCR_MARK, 2)], by decide +kernel⟩

theorem met_scrubStep : ∃ (a : Fin 11) (s : State), (s.cur.flag (pgMem a) MEM_CTL_SCRUB_EN = true) ∧ (s.cur.prt.due[a.val] ≤ s.cur.gtime) ∧ (s.cur.prt.pos[a.val] + max 1 (s.cur.get (pgMem a) MEM_CTL_SCRUB_WPG) < arrayWords a) :=
  ⟨0, mk [(pgMem 0, MEM_CTL, 0x201)], by decide +kernel⟩

theorem met_scrubStepPass : ∃ (a : Fin 11) (s : State), (s.cur.flag (pgMem a) MEM_CTL_SCRUB_EN = true) ∧ (s.cur.prt.due[a.val] ≤ s.cur.gtime) ∧ (arrayWords a ≤ s.cur.prt.pos[a.val] + max 1 (s.cur.get (pgMem a) MEM_CTL_SCRUB_WPG)) :=
  ⟨9, sPrt (fun p => { p with pos := Vector.replicate 12 32767 }) [(pgMem 9, MEM_CTL, 0x201)], by decide +kernel⟩

theorem met_scrubStepCorrects : ∃ (a : Fin 11) (w b : Nat) (s : State), (s.cur.flag (pgMem a) MEM_CTL_SCRUB_EN = true) ∧ (s.cur.prt.due[a.val] ≤ s.cur.gtime) ∧ (s.cur.prt.pos[a.val] ≤ w) ∧ (w < s.cur.prt.pos[a.val] + max 1 (s.cur.get (pgMem a) MEM_CTL_SCRUB_WPG)) ∧ (s.cur.prt.pos[a.val] + max 1 (s.cur.get (pgMem a) MEM_CTL_SCRUB_WPG) < arrayWords a) ∧ (b < arrayBits a) ∧ (s.cur.prt.corrected.contains (a.val, w, b) = false) :=
  ⟨0, 1, 37, mk [(pgMem 0, MEM_CTL, 0x201)], by decide +kernel⟩

theorem met_scrubStepHard : ∃ (a : Fin 11) (w b : Nat) (s : State), (s.cur.flag (pgMem a) MEM_CTL_SCRUB_EN = true) ∧ (s.cur.prt.due[a.val] ≤ s.cur.gtime) ∧ (s.cur.prt.pos[a.val] ≤ w) ∧ (w < s.cur.prt.pos[a.val] + max 1 (s.cur.get (pgMem a) MEM_CTL_SCRUB_WPG)) ∧ (s.cur.prt.pos[a.val] + max 1 (s.cur.get (pgMem a) MEM_CTL_SCRUB_WPG) < arrayWords a) ∧ (b < arrayBits a) ∧ (s.cur.prt.corrected.contains (a.val, w, b) = true) :=
  ⟨0, 1, 37, sPrt (fun p => { p with corrected := [(0, 1, 37)] }) [(pgMem 0, MEM_CTL, 0x201)], by decide +kernel⟩

theorem met_scrubStepBad : ∃ (a : Fin 11) (w : Nat) (s : State), (s.cur.flag (pgMem a) MEM_CTL_SCRUB_EN = true) ∧ (s.cur.prt.due[a.val] ≤ s.cur.gtime) ∧ (s.cur.prt.pos[a.val] ≤ w) ∧ (w < s.cur.prt.pos[a.val] + max 1 (s.cur.get (pgMem a) MEM_CTL_SCRUB_WPG)) ∧ (s.cur.prt.pos[a.val] + max 1 (s.cur.get (pgMem a) MEM_CTL_SCRUB_WPG) < arrayWords a) :=
  ⟨0, 1, mk [(pgMem 0, MEM_CTL, 0x201)], by decide +kernel⟩

theorem met_scrubStepNot : ∃ (a : Fin 11) (s : State), (s.cur.flag (pgMem a) MEM_CTL_SCRUB_EN = false ∨ s.cur.gtime < s.cur.prt.due[a.val]) :=
  ⟨0, mk [(pgMem 0, MEM_CTL, 0x200)], by decide +kernel⟩

theorem met_softRepair : ∃ (a : Fin 11) (w b re ce : Nat) (n : Nat) (s : State), (s.cur.prt.hard.contains (a.val, w, b) = true) ∧ ((∀ r ∈ s.cur.prt.copying, r.array = a.val → r.unit ≠ w / 8192)) ∧ ((s.cur.freeSpares a (w / 8192) (decide (re < 2) && decide (2 ≤ ce))).head? = some n) :=
  ⟨1, 74568, 37, 3, 1, 0, sPrt fun p => { p with hard := [(1, 74568, 37)] }, by decide +kernel⟩

theorem met_softRepairOut : ∃ (a : Fin 11) (w b re ce : Nat) (s : State), (s.cur.prt.hard.contains (a.val, w, b) = true) ∧ ((∀ r ∈ s.cur.prt.copying, r.array = a.val → r.unit ≠ w / 8192)) ∧ (s.cur.freeSpares a (w / 8192) (decide (re < 2) && decide (2 ≤ ce)) = []) ∧ (a.val ≠ 2) :=
  ⟨0, 5, 37, 1, 1, sPrt fun p => { p with hard := [(0, 5, 37)], taken := (List.range 8).map fun i => { array := 0, unit := 0, slice := 1, addr := i, spare := i, col := false, since := 0 } }, by decide +kernel⟩

theorem met_softRepairBuffer : ∃ (a : Fin 11) (w b re ce : Nat) (s : State), (s.cur.prt.hard.contains (a.val, w, b) = true) ∧ ((∀ r ∈ s.cur.prt.copying, r.array = a.val → r.unit ≠ w / 8192)) ∧ (s.cur.freeSpares a (w / 8192) (decide (re < 2) && decide (2 ≤ ce)) = []) ∧ (a.val = 2) :=
  ⟨2, 5, 37, 1, 1, sPrt fun p => { p with hard := [(2, 5, 37)], taken := (List.range 8).map fun i => { array := 2, unit := 0, slice := 1, addr := i, spare := i, col := false, since := 0 } }, by decide +kernel⟩

theorem met_softRepairStaging : ∃ (a : Fin 11) (w b re ce : Nat) (s : State), (s.cur.prt.hard.contains (a.val, w, b) = true) ∧ ((∀ r ∈ s.cur.prt.copying, r.array = a.val → r.unit ≠ w / 8192)) ∧ (s.cur.freeSpares a (w / 8192) (decide (re < 2) && decide (2 ≤ ce)) = []) ∧ (a.val = 1) :=
  ⟨1, 5, 37, 1, 1, sPrt fun p => { p with hard := [(1, 5, 37)], taken := (List.range 8).map fun i => { array := 1, unit := 0, slice := 1, addr := i, spare := i, col := false, since := 0 } }, by decide +kernel⟩

theorem met_softRepairRetires : ∃ (a : Fin 11) (w b re ce : Nat) (s : State), (s.cur.prt.hard.contains (a.val, w, b) = true) ∧ ((∀ r ∈ s.cur.prt.copying, r.array = a.val → r.unit ≠ w / 8192)) ∧ (s.cur.freeSpares a (w / 8192) (decide (re < 2) && decide (2 ≤ ce)) = []) ∧ (a.val = 0 ∨ a.val = 8 ∨ a.val = 9 ∨ a.val = 10) :=
  ⟨8, 5, 37, 1, 1, sPrt fun p => { p with hard := [(8, 5, 37)], taken := (List.range 8).map fun i => { array := 8, unit := 0, slice := 1, addr := i, spare := i, col := false, since := 0 } }, by decide +kernel⟩

theorem met_softRepairWaits : ∃ (a : Fin 11) (w b : Nat) (s : State), ((s.cur.prt.hard.contains (a.val, w, b) = false ∨ (∃ r ∈ s.cur.prt.copying, r.array = a.val ∧ r.unit = w / 8192))) :=
  ⟨1, 5, 37, sPrt fun p => { p with hard := [(1, 5, 37)], copying := [{ array := 1, unit := 0, slice := 1, addr := 3, spare := 0, col := false, since := 0 }] }, by decide +kernel⟩

theorem met_repairCopyDone : ∃ (a : Fin 11) (unit : Nat) (r : Repair) (s : State), ((s.cur.prt.copying.find? (fun x => x.array == a.val && x.unit == unit) = some r)) ∧ (r.since < s.cur.gtime) ∧ (s.cur.prt.pending.length < 1024) :=
  ⟨1, 0, { array := 1, unit := 0, slice := 1, addr := 3, spare := 0, col := false, since := 0 }, sPrt fun p => { p with copying := [{ array := 1, unit := 0, slice := 1, addr := 3, spare := 0, col := false, since := 0 }] }, by decide +kernel⟩

theorem met_repairCopyDoneNot : ∃ (a : Fin 11) (unit : Nat) (s : State), ((∀ x ∈ s.cur.prt.copying, x.array = a.val → x.unit = unit → s.cur.gtime ≤ x.since)) :=
  ⟨1, 0, sPrt fun p => { p with copying := [{ array := 1, unit := 0, slice := 1, addr := 3, spare := 0, col := false, since := 64 }] }, by decide +kernel⟩

theorem met_memoryMarch : ∃ (s : State), (s.cur.su.step = 4) :=
  ⟨sStep 4, by decide +kernel⟩

theorem met_memoryMarchRepairs : ∃ (a : Fin 11) (w n : Nat) (c : Bool) (s : State), (s.cur.su.step = 4) ∧ (w < arrayWords a) ∧ ((s.cur.freeSpares a (w / 8192) c).head? = some n) ∧ (s.cur.prt.pending.length < 1024) :=
  ⟨1, 840, 0, false, sStep 4, by decide +kernel⟩

theorem met_memoryMarchNot : ∃ (s : State), (s.cur.su.step ≠ 4) :=
  ⟨sStep 5, by decide +kernel⟩

theorem met_memTestDataLoRead : ∃ (r : Requester) (s : State), (s.vis.testEn = true) ∧ (r ≠ .host) ∧ (wordCoded s.vis.memSel = true) ∧ ((∀ x ∈ s.vis.prt.words, x.1 = s.vis.memSel → x.2.1 ≠ s.vis.get (pgMem s.vis.memSel) MEM_TEST_ADDR)) :=
  ⟨.app 0, mk [(pgMem 0, MEM_CTL, 3)], by decide +kernel⟩

theorem met_memTestDataLoReadStored : ∃ (r : Requester) (x y : Nat) (s : State), (s.vis.testEn = true) ∧ (r ≠ .host) ∧ (wordCoded s.vis.memSel = false) ∧ (((s.vis.prt.words.find? fun z => z.1 == s.vis.memSel && z.2.1 == s.vis.get (pgMem s.vis.memSel) MEM_TEST_ADDR) = some (s.vis.memSel, s.vis.get (pgMem s.vis.memSel) MEM_TEST_ADDR, x, y))) ∧ (y < 2 ^ 40) :=
  ⟨.app 0, 0x500000006, 0x900000008, sPrt (fun p => { p with words := [(4, 0, 0x500000006, 0x900000008)] }) [(pgMem 4, MEM_CTL, 3), (pgProt, MEM_SEL, 4)], by decide +kernel⟩

theorem met_memTestDataLoReadPlain : ∃ (r : Requester) (s : State), (s.vis.testEn = false ∨ r = .host) :=
  ⟨.app 0, mk [], by decide +kernel⟩

theorem met_memTestChkWrite : ∃ (s : State), (s.cur.testEn = true) ∧ (s.cur.get (pgMem s.cur.memSel) MEM_TEST_ADDR < arrayWords s.cur.memSel) :=
  ⟨mk [(pgMem 0, MEM_CTL, 3)], by decide +kernel⟩

theorem met_memTestChkWriteNoWord : ∃ (s : State), (s.cur.testEn = true) ∧ (arrayWords s.cur.memSel ≤ s.cur.get (pgMem s.cur.memSel) MEM_TEST_ADDR) :=
  ⟨mk [(pgMem 0, MEM_CTL, 3), (pgMem 0, MEM_TEST_ADDR, 0xFFFFFFFF)], by decide +kernel⟩

theorem met_memTestChkWriteNot : ∃ (s : State), (s.cur.testEn = false) :=
  ⟨mk [], by decide +kernel⟩

theorem met_memTestEnWrite : ∃ (v : Word) (s : State), (bit v.toNat 1 = false ∨ (testable s.cur.memSel = true ∧ s.cur.flag pgFuse FUSE_STAT_MAINT = true)) :=
  ⟨3, mk [(pgFuse, FUSE_STAT, 1)], by decide +kernel⟩

theorem met_memTestEnWriteDenied : ∃ (v : Word) (s : State), (bit v.toNat 1 = true) ∧ (testable s.cur.memSel = false ∨ s.cur.flag pgFuse FUSE_STAT_MAINT = false) :=
  ⟨3, mk [], by decide +kernel⟩

theorem met_lbistTestStart : ∃ (i : Fin 156) (s : State), (s.cur.flag pgLbist LB_CTL_EN = true) ∧ (s.cur.starts pgLbist = true) ∧ (s.cur.prt.testing.length < clampN 1 4 (s.cur.get pgLbist LB_CTL_MAX_CONC)) ∧ (s.cur.prt.nextStart ≤ s.cur.gtime) ∧ (s.vis.flag pgRsv RSV_STAT_PF = false) ∧ ((((List.range 156).find? fun i => !s.cur.prt.tested.contains i && !s.cur.sliceBad i && !(s.cur.prt.testing.any (·.1 == i)) && Dev.testable s.vis s.cur i) = some i.val)) :=
  ⟨0, mk [(pgLbist, LB_CTL, 0x40005), (pgRsv, RSV_STAT, 0)], by decide +kernel⟩

theorem met_lbistTestStartNot : ∃ (s : State), ((s.cur.starts pgLbist = false ∨ ((List.range 156).find? fun i => !s.cur.prt.tested.contains i && !s.cur.sliceBad i && !(s.cur.prt.testing.any (·.1 == i)) && Dev.testable s.vis s.cur i) = none ∨ s.cur.flag pgLbist LB_CTL_EN = false ∨ clampN 1 4 (s.cur.get pgLbist LB_CTL_MAX_CONC) ≤ s.cur.prt.testing.length ∨ s.cur.gtime < s.cur.prt.nextStart ∨ s.vis.flag pgRsv RSV_STAT_PF = true)) :=
  ⟨mk [(pgLbist, LB_CTL, 0x40004)], by decide +kernel⟩

theorem met_lbistTestResult : ∃ (i : Fin 156) (n : Nat) (s : State), ((s.cur.prt.testing.find? (fun x => x.1 == i.val) = some (i.val, n))) ∧ (n + testGrains i ≤ s.cur.gtime) ∧ (s.cur.sliceDown i = false) :=
  ⟨147, 0, sPrt fun p => { p with testing := [(147, 0)] }, by decide +kernel⟩

theorem met_lbistTestResultDown : ∃ (i : Fin 156) (n : Nat) (s : State), ((s.cur.prt.testing.find? (fun x => x.1 == i.val) = some (i.val, n))) ∧ (n + testGrains i ≤ s.cur.gtime) ∧ (s.cur.sliceDown i = true) :=
  ⟨3, 0, sPrt (fun p => { p with testing := [(3, 0)] }) [] fun d => d.updChan 3 fun c => { c with disabled := true }, by decide +kernel⟩

theorem met_lbistTestResultEarly : ∃ (i : Fin 156) (n : Nat) (s : State), ((s.cur.prt.testing.find? (fun x => x.1 == i.val) = some (i.val, n))) ∧ (s.cur.gtime < n + testGrains i) :=
  ⟨147, 60, sPrt fun p => { p with testing := [(147, 60)] }, by decide +kernel⟩

theorem met_lbistTestResultTransient : ∃ (i : Fin 156) (n : Nat) (s : State), ((s.cur.prt.testing.find? (fun x => x.1 == i.val) = some (i.val, n))) ∧ (n + testGrains i ≤ s.cur.gtime) ∧ (s.cur.sliceDown i = false) :=
  ⟨147, 0, sPrt fun p => { p with testing := [(147, 0)] }, by decide +kernel⟩

theorem met_lbistTestResultFails : ∃ (i : Fin 156) (n : Nat) (s : State), ((s.cur.prt.testing.find? (fun x => x.1 == i.val) = some (i.val, n))) ∧ (n + testGrains i ≤ s.cur.gtime) ∧ (s.cur.sliceDown i = false) ∧ (s.cur.sliceBad i = false) ∧ (s.cur.prt.pending.length < 1024) ∧ (147 ≤ i.val) :=
  ⟨147, 0, sPrt fun p => { p with testing := [(147, 0)] }, by decide +kernel⟩

theorem met_lbistTestResultNot : ∃ (i : Fin 156) (s : State), ((∀ x ∈ s.cur.prt.testing, x.1 ≠ i.val)) :=
  ⟨147, mk [], by decide +kernel⟩

theorem met_sliceFailingEngine : ∃ (i : Fin 156) (s : State), (s.cur.sliceBad i = false) ∧ (s.cur.prt.pending.length < 1024) ∧ ((147 ≤ i.val ∧ i.val < 150)) :=
  ⟨149, mk [], by decide +kernel⟩

theorem met_sliceFailingCore : ∃ (i : Fin 156) (s : State), (s.cur.sliceBad i = false) ∧ (s.cur.prt.pending.length < 1024) ∧ (150 ≤ i.val) :=
  ⟨153, mk [], by decide +kernel⟩

theorem met_sliceFailingCodec : ∃ (i : Fin 156) (s : State), (s.cur.sliceBad i = false) ∧ (s.cur.prt.pending.length < 1024) ∧ (131 ≤ i.val) ∧ (i.val < 147) ∧ (((s.cur.prt.failing.filter fun k => (sliceRow k).1 == 6).length < 8)) :=
  ⟨133, mk [], by decide +kernel⟩

theorem met_sliceFailingEntry : ∃ (i : Fin 156) (s : State), (s.cur.sliceBad i = false) ∧ (s.cur.prt.pending.length < 1024) ∧ (65 ≤ i.val) ∧ (i.val < 129) ∧ (s.cur.prt.spareEntries < 2) :=
  ⟨70, mk [], by decide +kernel⟩

theorem met_sliceFailingOnce : ∃ (i : Fin 156) (s : State), (s.cur.sliceBad i = true) ∧ (i.val ≠ 16) ∧ (¬ (47 ≤ i.val ∧ i.val < 65)) ∧ (i.val ≠ 129 ∧ i.val ≠ 130) :=
  ⟨149, sPrt fun p => { p with failing := [149] }, by decide +kernel⟩

theorem met_maintOpen : ∃ (tl tp : Int) (s : State), (s.cur.flag pgLdg LDG_CTL_ACCEPT_EN = false) ∧ ((((stepMembers 6).all fun m => (s.vis.pageAnswer m false).1 == 1) = true)) ∧ (s.cur.flag pgRsv RSV_STAT_PF = false) ∧ (9000 ≤ s.cur.get pgBank BANK_VMOT_VMOT_MV) ∧ (-20 ≤ tl ∧ tl ≤ 85) ∧ (-20 ≤ tp ∧ tp ≤ 85) :=
  ⟨20, 85, mk [(pgBank, BANK_VMOT_VMOT_MV, 12000), (pgRsv, RSV_STAT, 0)], by decide +kernel⟩

theorem met_maintOpenDenied : ∃ (tl tp : Int) (s : State), ((s.cur.flag pgLdg LDG_CTL_ACCEPT_EN = true ∨ ((stepMembers 6).all fun m => (s.vis.pageAnswer m false).1 == 1) = false ∨ s.cur.flag pgRsv RSV_STAT_PF = true ∨ s.cur.get pgBank BANK_VMOT_VMOT_MV < 9000 ∨ ¬ (-20 ≤ tl ∧ tl ≤ 85) ∨ ¬ (-20 ≤ tp ∧ tp ≤ 85))) :=
  ⟨20, 86, mk [], by decide +kernel⟩

theorem met_fuseBurn : ∃ (s : State), (s.cur.flag pgFuse FUSE_STAT_MAINT = true) :=
  ⟨mk [(pgFuse, FUSE_STAT, 1)], by decide +kernel⟩

theorem met_fuseBurnNot : ∃ (s : State), (s.cur.flag pgFuse FUSE_STAT_MAINT = false) :=
  ⟨mk [], by decide +kernel⟩

theorem met_fuseBurnEnd : ∃ (s : State), (s.cur.flag pgFuse FUSE_STAT_BUSY = true) ∧ (s.cur.prt.fuses.length + s.cur.prt.pending.length ≤ 1024) :=
  ⟨sPrt (fun p => { p with pending := [5, 6] }) [(pgFuse, FUSE_STAT, 3)], by decide +kernel⟩

theorem met_fuseBurnEndFull : ∃ (s : State), (s.cur.flag pgFuse FUSE_STAT_BUSY = true) ∧ (s.cur.prt.fuses.length ≤ 1024) ∧ (1024 < s.cur.prt.fuses.length + s.cur.prt.pending.length) :=
  ⟨sPrt (fun p => { p with pending := [5, 6], fuses := List.replicate 1023 0 }) [(pgFuse, FUSE_STAT, 3)], by decide +kernel⟩

theorem met_fuseBurnEndNot : ∃ (s : State), (s.cur.flag pgFuse FUSE_STAT_BUSY = false) :=
  ⟨mk [], by decide +kernel⟩

theorem met_fuseBurnInterrupt : ∃ (n e : Nat) (l : List Nat) (s : State), (s.cur.flag pgFuse FUSE_STAT_BUSY = true) ∧ (s.cur.rsv.pfLine = true) ∧ (s.cur.prt.pending.drop n = e :: l) ∧ (s.cur.prt.fuses.length + n < 1024) :=
  ⟨1, 6, [], sPrt (fun p => { p with pending := [5, 6] }) [(pgFuse, FUSE_STAT, 3)] fun d => { d with rsv := { d.rsv with pfLine := true } }, by decide +kernel⟩

theorem met_fuseBurnInterruptNot : ∃ (s : State), (s.cur.flag pgFuse FUSE_STAT_BUSY = false ∨ s.cur.rsv.pfLine = false) :=
  ⟨mk [], by decide +kernel⟩

theorem met_failedBitClear : ∃ (k : Fin 5) (s : State), (s.cur.flag pgFuse FUSE_STAT_MAINT = true) ∧ (s.cur.prt.pending.contains (fuseEntry 2 3 (5 * k.val + 2) 0 0) = true) ∧ (s.cur.get (pgFth k) FTH_ADC_FAILED = 4) :=
  ⟨1, sPrt (fun p => { p with pending := [fuseEntry 2 3 7 0 0], failing := [29] }) [(pgFuse, FUSE_STAT, 1), (pgFth 1, FTH_ADC_FAILED, 4)], by decide +kernel⟩

theorem met_failedBitClearLane : ∃ (e : Fin 2) (s : State), (s.cur.flag pgFuse FUSE_STAT_MAINT = true) ∧ (s.cur.prt.pending.contains (fuseEntry 2 4 (9 * e.val + 3) 0 0) = true) ∧ (s.cur.get (pgEll e) ELL_STAT_LANE_FAILED = 8) ∧ ((s.cur.engine e).spare = some 3) :=
  ⟨1, sPrt (fun p => { p with pending := [fuseEntry 2 4 12 0 0], failing := [59] }) [(pgFuse, FUSE_STAT, 1), (pgEll 1, ELL_STAT_LANE_FAILED, 8)] fun d => d.updEngine 1 fun g => { g with spare := some 3 }, by decide +kernel⟩

theorem met_failedBitClearDead : ∃ (e : Fin 2) (s : State), (s.cur.flag pgFuse FUSE_STAT_MAINT = true) ∧ (s.cur.prt.pending.contains (fuseEntry 2 4 (9 * e.val + 3) 0 0) = true) ∧ (s.cur.get (pgEll e) ELL_STAT_LANE_FAILED = 8) ∧ ((s.cur.engine e).spare ≠ some 3) :=
  ⟨1, sPrt (fun p => { p with pending := [fuseEntry 2 4 12 0 0], failing := [59] }) [(pgFuse, FUSE_STAT, 1), (pgEll 1, ELL_STAT_LANE_FAILED, 8)] fun d => d.updEngine 1 fun g => { g with dead := 8 }, by decide +kernel⟩

theorem met_failedBitClearBurned : ∃ (s : State), (s.cur.flag pgFuse FUSE_STAT_MAINT = true) ∧ (s.cur.prt.pending = []) :=
  ⟨mk [(pgFuse, FUSE_STAT, 1), (pgFth 1, FTH_ADC_FAILED, 4)], by decide +kernel⟩

theorem met_failedBitClearNot : ∃ (s : State), (s.cur.flag pgFuse FUSE_STAT_MAINT = false) :=
  ⟨mk [], by decide +kernel⟩

theorem met_calStepStart : ∃ (path : Fin 7) (e : Nat) (s : State), (e < pathElems path) ∧ ((∀ x ∈ s.cur.cal.running, x.key ≠ (path.val * 256 + e))) ∧ (s.cur.starts pgCal = true) ∧ (bit (s.cur.get pgCal CAL_CTL_PATH_EN) path = true) ∧ (s.vis.calHolds path e = true) ∧ (path.val ≠ 1 ∨ 64 ≤ (s.cur.cal.idle[e / 10]?).getD 0) :=
  ⟨4, 1, mk [(pgCal, CAL_CTL, 0x7D)], by decide +kernel⟩

theorem met_calStepNotNow : ∃ (path : Fin 7) (e : Nat) (s : State), ((pathElems path ≤ e ∨ (∃ x ∈ s.cur.cal.running, x.key = (path.val * 256 + e)) ∨ s.cur.starts pgCal = false ∨ bit (s.cur.get pgCal CAL_CTL_PATH_EN) path = false ∨ s.vis.calHolds path e = false ∨ (path.val = 1 ∧ (s.cur.cal.idle[e / 10]?).getD 0 < 64))) :=
  ⟨1, 5, mk [(pgCal, CAL_CTL, 0x7D)], by decide +kernel⟩

theorem met_calStepNotOn : ∃ (path : Fin 7) (e : Nat) (v : CalValue) (s : State), (((∀ x ∈ s.cur.cal.running, x.key ≠ (path.val * 256 + e)) ∨ pathElems path ≤ e ∨ calFits v path e = false ∨ s.vis.calHolds path e = false)) :=
  ⟨4, 1, .drift 0, mk [], by decide +kernel⟩

theorem met_calStepSamples : ∃ (e : Nat) (run : CalRun) (s : State), ((s.cur.cal.running.find? (fun x => x.key == 1 * 256 + e) = some run)) ∧ (e < pathElems 1) ∧ (s.vis.calHolds 1 e = true) ∧ (run.grains < 256) :=
  ⟨13, ⟨269, 0, 255, 0⟩, sCalRun ⟨269, 0, 255, 0⟩ [], by decide +kernel⟩

theorem met_calStepOffset : ∃ (e : Nat) (run : CalRun) (s : State), ((s.cur.cal.running.find? (fun x => x.key == 1 * 256 + e) = some run)) ∧ (e < pathElems 1) ∧ (s.vis.calHolds 1 e = true) ∧ (256 ≤ run.grains) ∧ (((run.sum / 1024 : Nat) - s.cur.get (pgOps (e / 10)) (pdOfs (e % 10)) : Int).natAbs ≤ 256) :=
  ⟨13, ⟨269, 0, 256, 0x20000⟩, sCalRun ⟨269, 0, 256, 0x20000⟩ [], by decide +kernel⟩

theorem met_calStepPhase : ∃ (e eye : Nat) (x : Int) (run : CalRun) (s : State), ((s.cur.cal.running.find? (fun x => x.key == 2 * 256 + e) = some run)) ∧ (e < pathElems 2) ∧ (s.vis.calHolds 2 e = true) ∧ (30 ≤ eye) ∧ ((x - (s.cur.chan e).trainedPh).natAbs ≤ 16) :=
  ⟨3, 40, 9, ⟨515, 0, 256, 0x20000⟩, sCalRun ⟨515, 0, 256, 0x20000⟩ [], by decide +kernel⟩

theorem met_calStepDrift : ∃ (e : Nat) (x : Nat) (run : CalRun) (s : State), ((s.cur.cal.running.find? (fun x => x.key == 3 * 256 + e) = some run)) ∧ (e < pathElems 3) ∧ (s.vis.calHolds 3 e = true) ∧ (x < 256) :=
  ⟨0, 200, ⟨768, 0, 256, 0x20000⟩, sCalRun ⟨768, 0, 256, 0x20000⟩ [(pgDdr, DDR_STAT_TRAINED, 1)], by decide +kernel⟩

theorem met_calStepBridge : ∃ (e : Nat) (x : Int) (run : CalRun) (s : State), ((s.cur.cal.running.find? (fun x => x.key == 6 * 256 + e) = some run)) ∧ (e < pathElems 6) ∧ (s.vis.calHolds 6 e = true) ∧ (x.natAbs ≤ 2000) :=
  ⟨4, 200, ⟨1540, 0, 256, 0x20000⟩, sCalRun ⟨1540, 0, 256, 0x20000⟩ [(pgDdr, DDR_STAT_TRAINED, 1)], by decide +kernel⟩

theorem met_calStepSampler : ∃ (e : Nat) (g o : Int) (a b c : Nat) (run : CalRun) (s : State), ((s.cur.cal.running.find? (fun x => x.key == 4 * 256 + e) = some run)) ∧ (e < pathElems 4) ∧ (s.vis.calHolds 4 e = true) ∧ (e < 2) ∧ (g.natAbs ≤ 100) ∧ (o.natAbs ≤ 20) ∧ (kept nearGap [(a : Int), b, c] = [0, 1, 2]) :=
  ⟨1, -100, 20, 1000, 1004, 1001, ⟨1025, 0, 256, 0x20000⟩, sCalRun ⟨1025, 0, 256, 0x20000⟩ [], by decide +kernel⟩

theorem met_calStepSensors : ∃ (e : Nat) (a b c : Int) (run : CalRun) (s : State), ((s.cur.cal.running.find? (fun x => x.key == 4 * 256 + e) = some run)) ∧ (e < pathElems 4) ∧ (s.vis.calHolds 4 e = true) ∧ (2 ≤ e) ∧ (kept nearTemp [a, b, c] = [0, 1, 2]) :=
  ⟨3, 4000, 4400, 3900, ⟨1027, 0, 256, 0x20000⟩, sCalRun ⟨1027, 0, 256, 0x20000⟩ [], by decide +kernel⟩

theorem met_calStepMotor : ∃ (e : Nat) (x : Int) (a b c : List Int) (run : CalRun) (s : State), ((s.cur.cal.running.find? (fun x => x.key == 5 * 256 + e) = some run)) ∧ (e < pathElems 5) ∧ (s.vis.calHolds 5 e = true) ∧ (x.natAbs ≤ 5000) ∧ ((nthD a (leastOffset a) 0).natAbs ≤ 50000) ∧ ((nthD b (leastOffset b) 0).natAbs ≤ 50000) ∧ ((nthD c (leastOffset c) 0).natAbs ≤ 50000) :=
  ⟨1, -100, [60000, -20], [5, 9], [7, 2], ⟨1281, 0, 256, 0x20000⟩, sCalRun ⟨1281, 0, 256, 0x20000⟩ [], by decide +kernel⟩

theorem met_calStepBad : ∃ (path : Fin 7) (e : Nat) (v : CalValue) (run : CalRun) (s : State), ((s.cur.cal.running.find? (fun x => x.key == (path.val * 256 + e)) = some run)) ∧ (e < pathElems path) ∧ (s.vis.calHolds path e = true) ∧ (calFits v path e = true) ∧ (path.val ≠ 1 ∨ 256 ≤ run.grains) ∧ (s.cur.plausibleStep path e v (calFound v (run.sum / 1024) (nthD (s.cur.elem path e).chosen 0 0)) = false) ∧ ((s.cur.elem path e).fails + 1 < max 1 (s.cur.get pgCal CAL_CFG_FAIL_N) ∨ (s.cur.elem path e).failed = true) ∧ (path.val ≠ 4) :=
  ⟨6, 4, .bridge 2001, ⟨1540, 0, 256, 0x20000⟩, sCalRun ⟨1540, 0, 256, 0x20000⟩ [(pgCal, CAL_CFG, 3)], by decide +kernel⟩

theorem met_calStepDropped : ∃ (path : Fin 7) (e : Nat) (v : CalValue) (run : CalRun) (s : State), ((s.cur.cal.running.find? (fun x => x.key == (path.val * 256 + e)) = some run)) ∧ (e < pathElems path) ∧ (s.vis.calHolds path e = true) ∧ (calFits v path e = true) ∧ (path.val ≠ 1 ∨ 256 ≤ run.grains) ∧ (s.cur.plausibleStep path e v (calFound v (run.sum / 1024) (nthD (s.cur.elem path e).chosen 0 0)) = false) ∧ ((s.cur.elem path e).fails + 1 < max 1 (s.cur.get pgCal CAL_CFG_FAIL_N) ∨ (s.cur.elem path e).failed = true) ∧ (path.val = 4) :=
  ⟨4, 3, .sensors 1000 2000 3000, ⟨1027, 0, 256, 0x20000⟩, sCalRun ⟨1027, 0, 256, 0x20000⟩ [(pgCal, CAL_CFG, 3)], by decide +kernel⟩

theorem met_calStepFails : ∃ (path : Fin 7) (e : Nat) (v : CalValue) (run : CalRun) (s : State), ((s.cur.cal.running.find? (fun x => x.key == (path.val * 256 + e)) = some run)) ∧ (e < pathElems path) ∧ (s.vis.calHolds path e = true) ∧ (calFits v path e = true) ∧ (path.val ≠ 1 ∨ 256 ≤ run.grains) ∧ (s.cur.plausibleStep path e v (calFound v (run.sum / 1024) (nthD (s.cur.elem path e).chosen 0 0)) = false) ∧ (max 1 (s.cur.get pgCal CAL_CFG_FAIL_N) ≤ (s.cur.elem path e).fails + 1) ∧ ((s.cur.elem path e).failed = false) :=
  ⟨6, 4, .bridge 2001, ⟨1540, 0, 256, 0x20000⟩, sCalRun ⟨1540, 0, 256, 0x20000⟩ [(pgCal, CAL_CFG, 1)], by decide +kernel⟩

theorem met_calStepAbandon : ∃ (path : Fin 7) (e : Nat) (s : State), (path.val = 3 ∨ s.vis.calHolds path e = false) :=
  ⟨3, 0, sCalRun ⟨768, 0, 256, 0x20000⟩ [], by decide +kernel⟩

theorem met_calStepAbandonHolds : ∃ (path : Fin 7) (e : Nat) (s : State), (path.val ≠ 3) ∧ (s.vis.calHolds path e = true) :=
  ⟨4, 0, sCalRun ⟨1024, 0, 256, 0x20000⟩ [], by decide +kernel⟩

theorem met_review : ∃ (i n : Nat) (v : Int) (s : State), (s.cur.gtime % 256 = 0) ∧ (s.cur.gtime / 256 % max 1 (s.cur.get pgMplan MP_CFG_REVIEW_S) = 0) ∧ (s.cur.cal.reviewAt ≠ some s.cur.gtime) ∧ ((i < 13 ∨ (0x10 ≤ i ∧ i < 0x1C) ∨ i = 0x28 ∨ i = 0x29 ∨ i = 0x38 ∨ i = 0x39)) ∧ ((s.cur.cal.samples.find? (fun x => x.1 == i) = some (i, n, v))) ∧ (n ≠ 0) ∧ (s.cur.flag (agePage i) PG_STAT_STALE = false) :=
  ⟨0x39, 7, -12, sReview [(0x39, 7, -12)], by decide +kernel⟩

theorem met_reviewStale : ∃ (i : Nat) (s : State), (s.cur.gtime % 256 = 0) ∧ (s.cur.gtime / 256 % max 1 (s.cur.get pgMplan MP_CFG_REVIEW_S) = 0) ∧ (s.cur.cal.reviewAt ≠ some s.cur.gtime) ∧ ((i < 13 ∨ (0x10 ≤ i ∧ i < 0x1C) ∨ i = 0x28 ∨ i = 0x29 ∨ i = 0x38 ∨ i = 0x39)) ∧ ((∀ x ∈ s.cur.cal.samples, x.1 ≠ i)) :=
  ⟨0x39, sReview [], by decide +kernel⟩

theorem met_reviewSpindle : ∃ (k : Fin 4) (n x : Nat) (s : State), (s.cur.gtime % 256 = 0) ∧ (s.cur.gtime / 256 % max 1 (s.cur.get pgMplan MP_CFG_REVIEW_S) = 0) ∧ (s.cur.cal.reviewAt ≠ some s.cur.gtime) ∧ (s.cur.cal.spin[k] = (n, x)) ∧ (n ≠ 0) ∧ (s.cur.flag (pgCmt k) PG_STAT_STALE = false) :=
  ⟨1, 4, 1000, sReview [] fun c => { c with spin := Vector.replicate 4 (4, 1000) }, by decide +kernel⟩

theorem met_reviewLaser : ∃ (k : Fin 4) (s : State), (s.cur.gtime % 256 = 0) ∧ (s.cur.gtime / 256 % max 1 (s.cur.get pgMplan MP_CFG_REVIEW_S) = 0) ∧ (s.cur.cal.reviewAt ≠ some s.cur.gtime) ∧ (s.cur.cal.laser[k].n ≠ 0) ∧ ((s.cur.get pgAge AGE_CFG_LASER_SPREAD : Int) * (s.cur.get pgAge AGE_CFG_LASER_SPREAD : Int) * (s.cur.cal.laser[k].n * s.cur.cal.laser[k].n) ≤ (s.cur.cal.laser[k].n * s.cur.cal.laser[k].cc - s.cur.cal.laser[k].c * s.cur.cal.laser[k].c : Int)) ∧ (0 < (s.cur.cal.laser[k].n * s.cur.cal.laser[k].cc - s.cur.cal.laser[k].c * s.cur.cal.laser[k].c : Int)) ∧ ((s.cur.cal.laser[k].n * s.cur.cal.laser[k].cm - s.cur.cal.laser[k].c * s.cur.cal.laser[k].m : Int) ≠ 0) ∧ (s.cur.flag (pgOps k) PG_STAT_STALE = false) :=
  ⟨1, sReview [] fun c => { c with laser := Vector.replicate 4 { n := 2, c := 40, m := 60, cc := 1600, cm := 2400 } }, by decide +kernel⟩

theorem met_reviewLaserNarrow : ∃ (k : Fin 4) (s : State), (s.cur.gtime % 256 = 0) ∧ (s.cur.gtime / 256 % max 1 (s.cur.get pgMplan MP_CFG_REVIEW_S) = 0) ∧ (s.cur.cal.reviewAt ≠ some s.cur.gtime) ∧ (s.cur.cal.laser[k].n ≠ 0) ∧ (s.cur.flag (pgOps k) PG_STAT_STALE = false) ∧ ((s.cur.cal.laser[k].n * s.cur.cal.laser[k].cc - s.cur.cal.laser[k].c * s.cur.cal.laser[k].c : Int) < (s.cur.get pgAge AGE_CFG_LASER_SPREAD : Int) * (s.cur.get pgAge AGE_CFG_LASER_SPREAD : Int) * (s.cur.cal.laser[k].n * s.cur.cal.laser[k].n)) :=
  ⟨1, sReview [] fun c => { c with laser := Vector.replicate 4 { n := 2, c := 40, m := 60, cc := 800, cm := 1200 } }, by decide +kernel⟩

theorem met_reviewLaserFree : ∃ (k : Fin 4) (s : State), (s.cur.gtime % 256 = 0) ∧ (s.cur.gtime / 256 % max 1 (s.cur.get pgMplan MP_CFG_REVIEW_S) = 0) ∧ (s.cur.cal.reviewAt ≠ some s.cur.gtime) ∧ (s.cur.cal.laser[k].n ≠ 0) ∧ (s.cur.flag (pgOps k) PG_STAT_STALE = false) ∧ ((s.cur.get pgAge AGE_CFG_LASER_SPREAD : Int) * (s.cur.get pgAge AGE_CFG_LASER_SPREAD : Int) * (s.cur.cal.laser[k].n * s.cur.cal.laser[k].n) ≤ (s.cur.cal.laser[k].n * s.cur.cal.laser[k].cc - s.cur.cal.laser[k].c * s.cur.cal.laser[k].c : Int)) ∧ ((s.cur.cal.laser[k].n * s.cur.cal.laser[k].cc - s.cur.cal.laser[k].c * s.cur.cal.laser[k].c : Int) ≤ 0) :=
  ⟨1, { sReview [] (fun c => { c with laser := Vector.replicate 4 { n := 2, c := 40, m := 60, cc := 800, cm := 1200 } }) with cur := ((sReview [] (fun c => { c with laser := Vector.replicate 4 { n := 2, c := 40, m := 60, cc := 800, cm := 1200 } })).cur.put pgAge AGE_CFG_LASER_SPREAD 0) }, by decide +kernel⟩

theorem met_reviewLaserFlat : ∃ (k : Fin 4) (s : State), (s.cur.gtime % 256 = 0) ∧ (s.cur.gtime / 256 % max 1 (s.cur.get pgMplan MP_CFG_REVIEW_S) = 0) ∧ (s.cur.cal.reviewAt ≠ some s.cur.gtime) ∧ (s.cur.cal.laser[k].n ≠ 0) ∧ (s.cur.flag (pgOps k) PG_STAT_STALE = false) ∧ ((s.cur.get pgAge AGE_CFG_LASER_SPREAD : Int) * (s.cur.get pgAge AGE_CFG_LASER_SPREAD : Int) * (s.cur.cal.laser[k].n * s.cur.cal.laser[k].n) ≤ (s.cur.cal.laser[k].n * s.cur.cal.laser[k].cc - s.cur.cal.laser[k].c * s.cur.cal.laser[k].c : Int)) ∧ (0 < (s.cur.cal.laser[k].n * s.cur.cal.laser[k].cc - s.cur.cal.laser[k].c * s.cur.cal.laser[k].c : Int)) ∧ ((s.cur.cal.laser[k].n * s.cur.cal.laser[k].cm - s.cur.cal.laser[k].c * s.cur.cal.laser[k].m : Int) = 0) :=
  ⟨1, sReview [] fun c => { c with laser := Vector.replicate 4 { n := 2, c := 40, m := 60, cc := 1600, cm := 1200 } }, by decide +kernel⟩

theorem met_reviewNot : ∃ (s : State), (s.cur.gtime % 256 ≠ 0 ∨ s.cur.gtime / 256 % max 1 (s.cur.get pgMplan MP_CFG_REVIEW_S) ≠ 0 ∨ s.cur.cal.reviewAt = some s.cur.gtime) :=
  ⟨mk [] fun d => { d with tb := { d.tb with gtime := 3 } }, by decide +kernel⟩

theorem met_baseline : ∃ (i : Fin 64) (s : State), (bit (s.vis.rd (pgAgeb + 16 * i.val + 8)).toNat 31 = true) :=
  ⟨3, mk [(pgAgeb + 48, ⟨8, 0, 32⟩, 0x80000000)], by decide +kernel⟩

theorem met_baselineStale : ∃ (i : Fin 64) (s : State), (bit (s.vis.rd (pgAgeb + 16 * i.val + 8)).toNat 31 = false) :=
  ⟨3, mk [], by decide +kernel⟩

theorem met_planSubmit : ∃ (v : Word) (bad : Option (Fin 256)) (s : State), (s.cur.flag pgMplan MP_STAT_APPLYING = false) ∧ (bit v.toNat 29 = false) ∧ ((s.vis.checkPlan (bad.map (·.val)) ((List.range ((s.cur.put pgMplan MP_CTL_LEN (bits v.toNat 0 9)).put pgMplan MP_CTL_AVS_EN (bits v.toNat 30 1)).planLen).map fun i => ((s.cur.put pgMplan MP_CTL_LEN (bits v.toNat 0 9)).put pgMplan MP_CTL_AVS_EN (bits v.toNat 30 1)).planEntry (s.cur.get64 pgMplan MP_PLAN_BASE_LO MP_PLAN_BASE_HI / 16 * 16 + 16 * i)) 0 [] = none)) :=
  ⟨0xC0000001, none, mk [(pgRsv, RSV_FACTORS_DERATE_PM, 900)] fun d => d.memW 0 [2, 0, 0, 0, 0x52, 3], by decide +kernel⟩

theorem met_planSubmitRejected : ∃ (v : Word) (bad : Option (Fin 256)) (x y : Nat) (s : State), (s.cur.flag pgMplan MP_STAT_APPLYING = false) ∧ (bit v.toNat 29 = false) ∧ ((s.vis.checkPlan (bad.map (·.val)) ((List.range ((s.cur.put pgMplan MP_CTL_LEN (bits v.toNat 0 9)).put pgMplan MP_CTL_AVS_EN (bits v.toNat 30 1)).planLen).map fun i => ((s.cur.put pgMplan MP_CTL_LEN (bits v.toNat 0 9)).put pgMplan MP_CTL_AVS_EN (bits v.toNat 30 1)).planEntry (s.cur.get64 pgMplan MP_PLAN_BASE_LO MP_PLAN_BASE_HI / 16 * 16 + 16 * i)) 0 [] = some (x, y))) :=
  ⟨0xC0000001, none, 1, 0, mk [], by decide +kernel⟩

theorem met_planSubmitBaseline : ∃ (v : Word) (i : Fin 64) (s : State), (bit v.toNat 29 = true) ∧ (bit (s.vis.rd (pgAgeb + 16 * i.val + 8)).toNat 31 = true) :=
  ⟨0xE0000001, 3, mk [(pgAgeb + 48, ⟨8, 0, 32⟩, 0x80000000)], by decide +kernel⟩

theorem met_planSubmitBusy : ∃ (v : Word) (s : State), (bit v.toNat 29 = false) ∧ (s.cur.flag pgMplan MP_STAT_APPLYING = true) :=
  ⟨0xC0000001, mk [(pgMplan, MP_STAT, 1)], by decide +kernel⟩

theorem met_planApplyVcore : ∃ (n : Nat) (s : State), (s.vis.cal.plan = some [⟨1, 0, 0, n⟩]) ∧ (s.cur.gtime % 256 = 0) ∧ (s.cur.cal.held = []) ∧ (s.cur.cal.derate = none) ∧ (([0, 1].all (fun (e : Nat) => (s.cur.engine e).commits.isEmpty) = true)) :=
  ⟨0x14034E0302, sPlan ⟨1, 0, 0, 0x14034E0302⟩ [], by decide +kernel⟩

theorem met_planApplyDerate : ∃ (n : Nat) (s : State), (s.vis.cal.plan = some [⟨2, 0, 0, n⟩]) ∧ (s.cur.gtime % 256 = 0) ∧ (s.cur.cal.held = []) ∧ (s.cur.cal.derate = none) ∧ (([0, 1].all (fun (e : Nat) => (s.cur.engine e).commits.isEmpty) = true)) ∧ (s.cur.get pgRsv RSV_FACTORS_DERATE_PM ≤ bits n 0 10) :=
  ⟨950, sPlan ⟨2, 0, 0, 950⟩ [(pgRsv, RSV_FACTORS_DERATE_PM, 900)], by decide +kernel⟩

theorem met_planApplyLower : ∃ (n : Nat) (s : State), (s.vis.cal.plan = some [⟨2, 0, 0, n⟩]) ∧ (s.cur.gtime % 256 = 0) ∧ (bits n 0 10 < s.cur.get pgRsv RSV_FACTORS_DERATE_PM) :=
  ⟨850, sPlan ⟨2, 0, 0, 850⟩ [(pgRsv, RSV_FACTORS_DERATE_PM, 900)], by decide +kernel⟩

theorem met_planApplyRetry : ∃ (b : Fin 4) (x : Fin 16) (n : Nat) (s : State), (s.vis.cal.plan = some [⟨3, b.val, x.val, n⟩]) ∧ (s.cur.gtime % 256 = 0) ∧ (s.cur.cal.held = []) ∧ (s.cur.cal.derate = none) ∧ (([0, 1].all (fun (e : Nat) => (s.cur.engine e).commits.isEmpty) = true)) ∧ (((s.vis.fls.accesses.any fun a => a.bay == b.val && (a.step == 2 || a.step == 3)) = false)) :=
  ⟨1, 3, 0x55, sPlan ⟨3, 1, 3, 0x55⟩ [], by decide +kernel⟩

theorem met_planApplyLearned : ∃ (b : Fin 4) (x : Fin 16) (n : Nat) (s : State), (s.vis.cal.plan = some [⟨3, b.val, (0x8000 + x.val), n⟩]) ∧ (s.cur.gtime % 256 = 0) ∧ (s.cur.cal.held = []) ∧ (s.cur.cal.derate = none) ∧ (([0, 1].all (fun (e : Nat) => (s.cur.engine e).commits.isEmpty) = true)) ∧ (((s.vis.fls.accesses.any fun a => a.bay == b.val && (a.step == 2 || a.step == 3)) = false)) :=
  ⟨1, 3, 0x55, sPlan ⟨3, 1, 0x8003, 0x55⟩ [], by decide +kernel⟩

theorem met_planApplyPe : ∃ (b : Fin 4) (n : Nat) (s : State), (s.vis.cal.plan = some [⟨4, b.val, 0, n⟩]) ∧ (s.cur.gtime % 256 = 0) ∧ (s.cur.cal.held = []) ∧ (s.cur.cal.derate = none) ∧ (([0, 1].all (fun (e : Nat) => (s.cur.engine e).commits.isEmpty) = true)) :=
  ⟨1, 3000, sPlan ⟨4, 1, 0, 3000⟩ [], by decide +kernel⟩

theorem met_planApplyEcc : ∃ (n : Nat) (s : State), (s.vis.cal.plan = some [⟨5, 0, 0, n⟩]) ∧ (s.cur.gtime % 256 = 0) ∧ (s.cur.cal.held = []) ∧ (s.cur.cal.derate = none) ∧ (([0, 1].all (fun (e : Nat) => (s.cur.engine e).commits.isEmpty) = true)) :=
  ⟨0x1F0005A0028, sPlan ⟨5, 0, 0, 0x1F0005A0028⟩ [], by decide +kernel⟩

theorem met_planApplyCeil : ∃ (p : Fin 4) (n : Nat) (s : State), (s.vis.cal.plan = some [⟨6, p.val, 0, n⟩]) ∧ (s.cur.gtime % 256 = 0) ∧ (s.cur.cal.held = []) ∧ (s.cur.cal.derate = none) ∧ (([0, 1].all (fun (e : Nat) => (s.cur.engine e).commits.isEmpty) = true)) ∧ (s.vis.get (pgOwp p) WP_JOB_STAT_STATE ≠ 2) :=
  ⟨1, 0x0100020, sPlan ⟨6, 1, 0, 0x0100020⟩ [], by decide +kernel⟩

theorem met_planApplyHeld : ∃ (p : Fin 4) (n : Nat) (s : State), (s.vis.cal.plan = some [⟨6, p.val, 0, n⟩]) ∧ (s.cur.gtime % 256 = 0) ∧ (s.vis.get (pgOwp p) WP_JOB_STAT_STATE = 2) :=
  ⟨1, 0x0100020, sPlan ⟨6, 1, 0, 0x0100020⟩ [(pgOwp 1, WP_JOB_STAT_STATE, 2)], by decide +kernel⟩

theorem met_planApplyServo : ∃ (e : Fin 2) (x n : Nat) (s : State), (s.vis.cal.plan = some [⟨7, e.val, x, n⟩]) ∧ (s.cur.gtime % 256 = 0) ∧ (s.vis.get (pgOps (2 * e.val + slotPort (s.vis.slotWords e.val (bits x 0 6)))) OPS_STAT_STATE ≠ 4) ∧ (s.vis.get (pgOps (2 * e.val + slotPort (s.vis.slotWords e.val (bits x 0 6)))) OPS_STAT_STATE ≠ 5) ∧ ((s.cur.engine e).commits = []) :=
  ⟨1, 0x203, 0x800000055, sPlan ⟨7, 1, 0x203, 0x800000055⟩ [], by decide +kernel⟩

theorem met_planApplyNot : ∃ (s : State), (s.vis.cal.plan = none ∨ s.cur.gtime % 256 ≠ 0) :=
  ⟨mk [], by decide +kernel⟩

theorem met_planApplyHeldBack : ∃ (l : List PlanItem) (s : State), (s.vis.cal.plan = some l) ∧ (s.cur.gtime % 256 = 0) :=
  ⟨[⟨6, 1, 0, 9⟩], sPlan ⟨6, 1, 0, 9⟩ [(pgOwp 1, WP_JOB_STAT_STATE, 2)], by decide +kernel⟩

theorem met_heldItemApply : ∃ (p : Fin 4) (n : Nat) (s : State), (s.cur.cal.held = [⟨6, p.val, 0, n⟩]) ∧ (s.vis.get (pgOwp p) WP_JOB_STAT_STATE ≠ 2) ∧ (s.cur.flag pgMplan MP_STAT_APPLYING = true) ∧ (s.cur.flag pgMplan MP_STAT_DERATE_PENDING = false) ∧ (s.cur.cal.derate = none) ∧ (([0, 1].all (fun (e : Nat) => (s.cur.engine e).commits.isEmpty) = true)) :=
  ⟨1, 0x0100020, sHeld ⟨6, 1, 0, 0x0100020⟩ [(pgMplan, MP_STAT, 3)], by decide +kernel⟩

theorem met_heldItemApplyWaits : ∃ (s : State), (s.cur.cal.held ≠ []) ∧ (s.cur.cal.held.all s.vis.heldBack = true) :=
  ⟨sHeld ⟨6, 1, 0, 0x0100020⟩ [(pgMplan, MP_STAT, 3), (pgOwp 1, WP_JOB_STAT_STATE, 2)], by decide +kernel⟩

theorem met_heldItemApplyNot : ∃ (s : State), (s.cur.cal.held = []) :=
  ⟨mk [], by decide +kernel⟩

theorem met_pcieLinkUp : ∃ (speed width : BitVec 4) (s : State), (1 ≤ speed.toNat ∧ speed.toNat ≤ 4 ∧ width.toNat ∈ [1, 2, 4, 8]) ∧ (s.cur.flag pgPcie PCIE_STAT_DL_UP = false) ∧ (s.cur.flag pgPcie PCIE_STAT_PERST = false) ∧ (s.cur.su.fused = true) :=
  ⟨4, 8, mk [(pgPcie, PCIE_STAT, 0)] fun d => { d with su := { d.su with fused := true } }, by decide +kernel⟩

theorem met_pcieLinkUpNot : ∃ (speed width : BitVec 4) (s : State), (s.cur.flag pgPcie PCIE_STAT_PERST = true ∨ s.cur.su.fused = false ∨ s.cur.flag pgPcie PCIE_STAT_DL_UP = true ∨ ¬ (1 ≤ speed.toNat ∧ speed.toNat ≤ 4 ∧ width.toNat ∈ [1, 2, 4, 8])) :=
  ⟨4, 8, mk [], by decide +kernel⟩

theorem met_perstRelease : ∃ (s : State), (s.cur.flag pgPcie PCIE_STAT_PERST = true) ∧ (s.cur.pwr.phase = .awake) ∧ (s.cur.pwr.idle = false) :=
  ⟨mk [], by decide +kernel⟩

theorem met_perstReleaseWakes : ∃ (s : State), (s.cur.flag pgPcie PCIE_STAT_PERST = true) ∧ (s.cur.pwr.phase = .asleep) ∧ (s.cur.wakeSources s.cur.pwr.target 4 ≠ 0) :=
  ⟨sPwr { phase := .asleep, target := 2 } [(pgPwr, PWR_WAKE_EN_SRC, 4)], by decide +kernel⟩

theorem met_perstReleaseNot : ∃ (s : State), (s.cur.flag pgPcie PCIE_STAT_PERST = false) :=
  ⟨mk [(pgPcie, PCIE_STAT, 0)], by decide +kernel⟩

theorem met_completionErrorFetch : ∃ (lsn : Nat) (s : State), ((∃ x ∈ s.cur.ldg.tasks, x.lsn = lsn ∧ x.opc = .append ∧ x.fetching = true)) :=
  ⟨3, sTaskAppendFetch, by decide +kernel⟩

theorem met_completionErrorVoid : ∃ (lsn : Nat) (x : TaskSt) (s : State), (s.cur.task lsn = some x) ∧ (x.opc = .append) ∧ (x.fetching = true) :=
  ⟨3, tkAppendFetch, sTaskAppendFetch, by decide +kernel⟩

theorem met_completionErrorOther : ∃ (lsn : Nat) (s : State), ((¬ (∃ x ∈ s.cur.ldg.tasks, x.lsn = lsn ∧ x.opc = .append ∧ x.fetching = true))) :=
  ⟨4, sTaskAppendFetch, by decide +kernel⟩

theorem met_wakeHost : ∃ (s : State), (s.cur.flag pgPcie PCIE_STAT_DL_UP = false) :=
  ⟨mk [], by decide +kernel⟩

theorem met_wakeHostUp : ∃ (s : State), (s.cur.flag pgPcie PCIE_STAT_DL_UP = true) :=
  ⟨mk [(pgPcie, PCIE_STAT, 1)], by decide +kernel⟩

theorem met_faultVector : ∃ (s : State), (s.cur.fj.vectorDue = true) ∧ (s.cur.fj.vectorStone ≠ some (s.cur.gtime / 256)) ∧ ((tabGet msixDflt s.cur.lnk.msixTab 259).toNat % 2 = 0) :=
  ⟨sVec [(259, 0)], by decide +kernel⟩

theorem met_faultVectorMasked : ∃ (s : State), (s.cur.fj.vectorDue = true) ∧ (s.cur.fj.vectorStone ≠ some (s.cur.gtime / 256)) ∧ ((tabGet msixDflt s.cur.lnk.msixTab 259).toNat % 2 = 1) :=
  ⟨sVec [], by decide +kernel⟩

theorem met_faultVectorNot : ∃ (s : State), (s.cur.fj.vectorDue = false ∨ s.cur.fj.vectorStone = some (s.cur.gtime / 256)) :=
  ⟨mk [], by decide +kernel⟩

theorem met_bar2Write : ∃ (o : BitVec 16) (p : Nat) , (bar2Page o.toNat = some p) :=
  ⟨0x2040, pgLdg, by decide +kernel⟩

theorem met_bar2WriteTable : ∃ (o : BitVec 16) (v : Word) (s : State), (0xE000 ≤ o.toNat) ∧ (((o.toNat - 0xE000) / 4) < 260) ∧ (((o.toNat - 0xE000) / 4) % 4 ≠ 3 ∨ v.toNat % 2 = 1 ∨ bit s.cur.lnk.msixPend (((o.toNat - 0xE000) / 4) / 4) = false) :=
  ⟨0xE00C, 0, mk [], by decide +kernel⟩

theorem met_bar2WriteUnmask : ∃ (o : BitVec 16) (v : Word) (s : State), (0xE000 ≤ o.toNat) ∧ (((o.toNat - 0xE000) / 4) < 260) ∧ (((o.toNat - 0xE000) / 4) % 4 = 3) ∧ (v.toNat % 2 = 0) ∧ (bit s.cur.lnk.msixPend (((o.toNat - 0xE000) / 4) / 4) = true) :=
  ⟨0xE01C, 0, mk [] fun d => { d with lnk := { d.lnk with msixPend := 2 } }, by decide +kernel⟩

theorem met_pmeTurnOff : ∃ (s : State), (s.cur.flag pgPcie PCIE_STAT_DL_UP = true) :=
  ⟨mk [(pgPcie, PCIE_STAT, 1)], by decide +kernel⟩

theorem met_pmeTurnOffNot : ∃ (s : State), (s.cur.flag pgPcie PCIE_STAT_DL_UP = false) :=
  ⟨mk [], by decide +kernel⟩

theorem met_ethFrameReceive : ∃ (frame : List Byte) (good fails : Bool) (s : State), (s.cur.clockOn = true) ∧ (s.cur.flag pgEth ETH_CTL_RX_EN = true) ∧ (s.cur.enabled pgEth = true) ∧ (64 ≤ frame.length) ∧ (frame.length ≤ 1522) ∧ (good = true) ∧ (s.cur.ethPasses (frame.take (frame.length - 4)) = true) ∧ (s.cur.wakeFrame (frame.take (frame.length - 4)) = false) ∧ (s.cur.get pgEth ETH_RX_PROD_COUNT ≠ s.cur.get pgEth ETH_RX_FREE_COUNT) ∧ (fails = false) ∧ ((leNat (memRead s.cur.mem (s.cur.ethDesc ETH_RX_BASE_LO ETH_RX_BASE_HI (s.cur.get pgEth ETH_RING_CFG_RX_LOG2) (s.cur.get pgEth ETH_RX_PROD_COUNT)) 8)) + frame.length ≤ (s.cur.ethDesc ETH_RX_BASE_LO ETH_RX_BASE_HI (s.cur.get pgEth ETH_RING_CFG_RX_LOG2) (s.cur.get pgEth ETH_RX_PROD_COUNT)) ∨ (s.cur.ethDesc ETH_RX_BASE_LO ETH_RX_BASE_HI (s.cur.get pgEth ETH_RING_CFG_RX_LOG2) (s.cur.get pgEth ETH_RX_PROD_COUNT)) + 32 ≤ (leNat (memRead s.cur.mem (s.cur.ethDesc ETH_RX_BASE_LO ETH_RX_BASE_HI (s.cur.get pgEth ETH_RING_CFG_RX_LOG2) (s.cur.get pgEth ETH_RX_PROD_COUNT)) 8))) :=
  ⟨List.replicate 64 (0xFF : Byte), true, false, sEth, by decide +kernel⟩

theorem met_ethFrameReceiveBus : ∃ (frame : List Byte) (good fails : Bool) (s : State), (s.cur.clockOn = true) ∧ (s.cur.flag pgEth ETH_CTL_RX_EN = true) ∧ (s.cur.enabled pgEth = true) ∧ (64 ≤ frame.length) ∧ (frame.length ≤ 1522) ∧ (good = true) ∧ (s.cur.ethPasses (frame.take (frame.length - 4)) = true) ∧ (s.cur.wakeFrame (frame.take (frame.length - 4)) = false) ∧ (s.cur.get pgEth ETH_RX_PROD_COUNT ≠ s.cur.get pgEth ETH_RX_FREE_COUNT) ∧ (fails = true) :=
  ⟨List.replicate 64 (0xFF : Byte), true, true, sEth, by decide +kernel⟩

theorem met_ethFrameReceiveOff : ∃ (s : State), (s.cur.clockOn = true) ∧ (s.cur.flag pgEth ETH_CTL_RX_EN = false ∨ s.cur.enabled pgEth = false) :=
  ⟨mk [] run, by decide +kernel⟩

theorem met_ethFrameReceiveDrop : ∃ (frame : List Byte) (good : Bool) (s : State), (s.cur.clockOn = true) ∧ (s.cur.flag pgEth ETH_CTL_RX_EN = true) ∧ (s.cur.enabled pgEth = true) ∧ (frame.length < 64 ∨ 1522 < frame.length ∨ good = false ∨ s.cur.ethPasses (frame.take (frame.length - 4)) = false) :=
  ⟨[], true, sEth, by decide +kernel⟩

theorem met_ethFrameReceiveFull : ∃ (frame : List Byte) (good : Bool) (s : State), (s.cur.clockOn = true) ∧ (s.cur.flag pgEth ETH_CTL_RX_EN = true) ∧ (s.cur.enabled pgEth = true) ∧ (64 ≤ frame.length) ∧ (frame.length ≤ 1522) ∧ (good = true) ∧ (s.cur.ethPasses (frame.take (frame.length - 4)) = true) ∧ (s.cur.wakeFrame (frame.take (frame.length - 4)) = false) ∧ (s.cur.get pgEth ETH_RX_PROD_COUNT = s.cur.get pgEth ETH_RX_FREE_COUNT) :=
  ⟨List.replicate 64 (0xFF : Byte), true, mk [(pgEth, ETH_CTL, 2), (pgEth, PG_CTL, 1)] run, by decide +kernel⟩

theorem met_ethFrameReceiveWake : ∃ (frame : List Byte) (good : Bool) (s : State), (s.cur.clockOn = true) ∧ (s.cur.flag pgEth ETH_CTL_RX_EN = true) ∧ (s.cur.enabled pgEth = true) ∧ (64 ≤ frame.length) ∧ (frame.length ≤ 1522) ∧ (good = true) ∧ (s.cur.ethPasses (frame.take (frame.length - 4)) = true) ∧ (s.cur.wakeFrame (frame.take (frame.length - 4)) = true) ∧ (s.cur.pwr.phase = .awake) ∧ (s.cur.pwr.idle = false) :=
  ⟨wakeF, true, sEth, by decide +kernel⟩

theorem met_ethFrameReceiveWakes : ∃ (frame : List Byte) (good : Bool) (s : State), (s.cur.pwr.phase = .asleep) ∧ (good = true) ∧ (s.cur.wakeFrame (frame.take (frame.length - 4)) = true) ∧ (s.cur.wakeSources s.cur.pwr.target 8 ≠ 0) :=
  ⟨wakeF, true, sPwr { phase := .asleep, target := 2 } [(pgPwr, PWR_WAKE_EN_SRC, 8)], by decide +kernel⟩

theorem met_ethFrameReceiveAsleep : ∃ (frame : List Byte) (good : Bool) (s : State), (s.cur.pwr.phase = .asleep) ∧ (good = false ∨ s.cur.wakeFrame (frame.take (frame.length - 4)) = false) :=
  ⟨[], true, sPwr { phase := .asleep, target := 2 }, by decide +kernel⟩

theorem met_ethFrameTransmit : ∃ (fails : Bool) (s : State), (s.cur.flag pgEth ETH_CTL_TX_EN = true) ∧ (s.cur.starts pgEth = true) ∧ (s.cur.get pgEth ETH_TX_CONS_COUNT ≠ s.cur.get pgEth ETH_TX_PROD_COUNT) ∧ (60 ≤ (leNat (memRead s.cur.mem ((s.cur.ethDesc ETH_TX_BASE_LO ETH_TX_BASE_HI (s.cur.get pgEth ETH_RING_CFG_TX_LOG2) (s.cur.get pgEth ETH_TX_CONS_COUNT)) + 8) 2))) ∧ ((leNat (memRead s.cur.mem ((s.cur.ethDesc ETH_TX_BASE_LO ETH_TX_BASE_HI (s.cur.get pgEth ETH_RING_CFG_TX_LOG2) (s.cur.get pgEth ETH_TX_CONS_COUNT)) + 8) 2)) ≤ 1518) ∧ (fails = false) :=
  ⟨false, sEthTx 60, by decide +kernel⟩

theorem met_ethFrameTransmitLength : ∃ (s : State), (s.cur.flag pgEth ETH_CTL_TX_EN = true) ∧ (s.cur.starts pgEth = true) ∧ (s.cur.get pgEth ETH_TX_CONS_COUNT ≠ s.cur.get pgEth ETH_TX_PROD_COUNT) ∧ ((leNat (memRead s.cur.mem ((s.cur.ethDesc ETH_TX_BASE_LO ETH_TX_BASE_HI (s.cur.get pgEth ETH_RING_CFG_TX_LOG2) (s.cur.get pgEth ETH_TX_CONS_COUNT)) + 8) 2)) < 60 ∨ 1518 < (leNat (memRead s.cur.mem ((s.cur.ethDesc ETH_TX_BASE_LO ETH_TX_BASE_HI (s.cur.get pgEth ETH_RING_CFG_TX_LOG2) (s.cur.get pgEth ETH_TX_CONS_COUNT)) + 8) 2))) :=
  ⟨sEthTx 59, by decide +kernel⟩

theorem met_ethFrameTransmitBus : ∃ (fails : Bool) (s : State), (s.cur.flag pgEth ETH_CTL_TX_EN = true) ∧ (s.cur.starts pgEth = true) ∧ (s.cur.get pgEth ETH_TX_CONS_COUNT ≠ s.cur.get pgEth ETH_TX_PROD_COUNT) ∧ (60 ≤ (leNat (memRead s.cur.mem ((s.cur.ethDesc ETH_TX_BASE_LO ETH_TX_BASE_HI (s.cur.get pgEth ETH_RING_CFG_TX_LOG2) (s.cur.get pgEth ETH_TX_CONS_COUNT)) + 8) 2))) ∧ ((leNat (memRead s.cur.mem ((s.cur.ethDesc ETH_TX_BASE_LO ETH_TX_BASE_HI (s.cur.get pgEth ETH_RING_CFG_TX_LOG2) (s.cur.get pgEth ETH_TX_CONS_COUNT)) + 8) 2)) ≤ 1518) ∧ (fails = true) :=
  ⟨true, sEthTx 60, by decide +kernel⟩

theorem met_ethFrameTransmitNot : ∃ (s : State), (s.cur.flag pgEth ETH_CTL_TX_EN = false ∨ s.cur.starts pgEth = false ∨ s.cur.get pgEth ETH_TX_CONS_COUNT = s.cur.get pgEth ETH_TX_PROD_COUNT) :=
  ⟨mk [], by decide +kernel⟩

theorem met_canFrameReceive : ∃ (n : Fin 2) (fr : CanFrame) (f : Nat) (s : State), (s.cur.flag (pgCan n) CAN_CTL_RUN = true) ∧ (s.cur.enabled (pgCan n) = true) ∧ (s.cur.get (pgCan n) CAN_STAT_STATE ≠ 2) ∧ (bit fr.ident.toNat 30 = false ∨ s.cur.flag (pgCan n) CAN_CTL_FD_EN = true) ∧ (s.cur.canFilter (pgCan n) fr.ident.toNat = some f) ∧ (((s.cur.get (pgCan n) CAN_RX_PROD_PROD) + 2 ^ 16 - s.cur.get (pgCan n) CAN_RX_CONS_CONS) % 2 ^ 16 < 2 ^ (clampN 4 8 (s.cur.get (pgCan n) CAN_RX_CFG_SIZE_LOG2))) :=
  ⟨0, ⟨0x123, 8, [1, 2, 3, 4, 5, 6, 7, 8]⟩, 0, sCan, by decide +kernel⟩

theorem met_canFrameReceiveLost : ∃ (n : Fin 2) (fr : CanFrame) (f : Nat) (s : State), (s.cur.flag (pgCan n) CAN_CTL_RUN = true) ∧ (s.cur.enabled (pgCan n) = true) ∧ (s.cur.get (pgCan n) CAN_STAT_STATE ≠ 2) ∧ (bit fr.ident.toNat 30 = false ∨ s.cur.flag (pgCan n) CAN_CTL_FD_EN = true) ∧ (s.cur.canFilter (pgCan n) fr.ident.toNat = some f) ∧ (2 ^ (clampN 4 8 (s.cur.get (pgCan n) CAN_RX_CFG_SIZE_LOG2)) ≤ ((s.cur.get (pgCan n) CAN_RX_PROD_PROD) + 2 ^ 16 - s.cur.get (pgCan n) CAN_RX_CONS_CONS) % 2 ^ 16) :=
  ⟨0, ⟨0x123, 8, []⟩, 0, stOf (sCan.cur.put (pgCan 0) CAN_RX_PROD_PROD 16), by decide +kernel⟩

theorem met_canFrameReceiveFiltered : ∃ (n : Fin 2) (fr : CanFrame) (s : State), (s.cur.flag (pgCan n) CAN_CTL_RUN = true) ∧ (s.cur.enabled (pgCan n) = true) ∧ (s.cur.get (pgCan n) CAN_STAT_STATE ≠ 2) ∧ (bit fr.ident.toNat 30 = false ∨ s.cur.flag (pgCan n) CAN_CTL_FD_EN = true) ∧ (s.cur.canFilter (pgCan n) fr.ident.toNat = none) :=
  ⟨0, ⟨0x80000123, 8, []⟩, sCan, by decide +kernel⟩

theorem met_canFrameReceiveNot : ∃ (n : Fin 2) (fr : CanFrame) (s : State), (s.cur.flag (pgCan n) CAN_CTL_RUN = false ∨ s.cur.enabled (pgCan n) = false ∨ s.cur.get (pgCan n) CAN_STAT_STATE = 2 ∨ (bit fr.ident.toNat 30 = true ∧ s.cur.flag (pgCan n) CAN_CTL_FD_EN = false)) :=
  ⟨0, ⟨0x123, 8, []⟩, mk [], by decide +kernel⟩

theorem met_canFrameTransmit : ∃ (n : Fin 2) (b : Nat) (s : State), (s.cur.canNext (pgCan n) = some b) ∧ (s.cur.flag (pgCan n) CAN_CTL_RUN = true) ∧ (s.cur.starts (pgCan n) = true) ∧ (s.cur.flag (pgCan n) CAN_CTL_LISTEN = false) ∧ (s.cur.get (pgCan n) CAN_STAT_STATE ≠ 2) :=
  ⟨0, 2, { sCan with cur := sCan.cur.put (pgCan 0) CAN_TX_REQ_BUF 4 }, by decide +kernel⟩

theorem met_canFrameTransmitLowest : ∃ (n : Fin 2) (b : Fin 16) (s : State), (s.cur.flag (pgCan n) CAN_CTL_RUN = true) ∧ (s.cur.starts (pgCan n) = true) ∧ (s.cur.flag (pgCan n) CAN_CTL_LISTEN = false) ∧ (s.cur.get (pgCan n) CAN_STAT_STATE ≠ 2) ∧ (bit (s.cur.get (pgCan n) CAN_TX_REQ_BUF) b = true) ∧ ((∀ x : Fin 16, bit (s.cur.get (pgCan n) CAN_TX_REQ_BUF) x = true → x ≠ b → (s.cur.rd ((pgCan n) + 0x800 + 80 * b.val)).toNat % 2 ^ 29 < (s.cur.rd ((pgCan n) + 0x800 + 80 * x.val)).toNat % 2 ^ 29 ∨ ((s.cur.rd ((pgCan n) + 0x800 + 80 * b.val)).toNat % 2 ^ 29 = (s.cur.rd ((pgCan n) + 0x800 + 80 * x.val)).toNat % 2 ^ 29 ∧ b < x))) :=
  ⟨0, 2, { sCan with cur := sCan.cur.put (pgCan 0) CAN_TX_REQ_BUF 4 }, by decide +kernel⟩

theorem met_canFrameTransmitNot : ∃ (n : Fin 2) (s : State), (s.cur.canNext (pgCan n) = none ∨ s.cur.flag (pgCan n) CAN_CTL_RUN = false ∨ s.cur.starts (pgCan n) = false ∨ s.cur.flag (pgCan n) CAN_CTL_LISTEN = true ∨ s.cur.get (pgCan n) CAN_STAT_STATE = 2) :=
  ⟨0, mk [], by decide +kernel⟩

theorem met_canBusOff : ∃ (n : Fin 2) (s : State), (s.cur.flag (pgCan n) CAN_CTL_RUN = true) ∧ (s.cur.get (pgCan n) CAN_STAT_STATE ≠ 2) :=
  ⟨0, sCan, by decide +kernel⟩

theorem met_canBusOffNot : ∃ (n : Fin 2) (s : State), (s.cur.flag (pgCan n) CAN_CTL_RUN = false ∨ s.cur.get (pgCan n) CAN_STAT_STATE = 2) :=
  ⟨0, mk [], by decide +kernel⟩

theorem met_canBusOffRejoin : ∃ (n : Fin 2) (run : Bool) (s : State), (s.cur.get (pgCan n) CAN_STAT_STATE = 2) ∧ (s.cur.flag (pgCan n) CAN_CTL_BO_MANUAL = run) :=
  ⟨0, false, mk [(pgCan 0, CAN_STAT_STATE, 2)], by decide +kernel⟩

theorem met_canBusOffRejoinNot : ∃ (n : Fin 2) (run : Bool) (s : State), (s.cur.get (pgCan n) CAN_STAT_STATE ≠ 2 ∨ s.cur.flag (pgCan n) CAN_CTL_BO_MANUAL = !run) :=
  ⟨0, true, mk [], by decide +kernel⟩

theorem met_accRead : ∃ (s : State), (s.cur.lnk.accSlot ≠ some s.cur.accDue) ∧ (s.cur.enabled pgAcc = true) ∧ (s.cur.domainOn 20 = true) :=
  ⟨mk [(pgAcc, ACC_SHOCK, 1100)], by decide +kernel⟩

theorem met_accReadNot : ∃ (s : State), (s.cur.lnk.accSlot = some s.cur.accDue ∨ s.cur.enabled pgAcc = false ∨ s.cur.domainOn 20 = false) :=
  ⟨mk [(pgAcc, PG_CTL_ENABLE, 0)], by decide +kernel⟩

theorem met_accRawTransfer : ∃ (s : State), (s.cur.lnk.accRun = none) ∧ (s.cur.starts pgAcc = true) :=
  ⟨mk [], by decide +kernel⟩

theorem met_accRawTransferNot : ∃ (s : State), (s.cur.lnk.accRun ≠ none ∨ s.cur.starts pgAcc = false) :=
  ⟨mk [(pgAcc, PG_CTL_ENABLE, 0)], by decide +kernel⟩

theorem met_pmbusRequest : ∃ (m : Nat) (s : State), ((s.vis.get pgMplan MP_AVS_VREQ_MV) ≠ s.cur.lnk.vcoreSent) ∧ (s.cur.lnk.pmbRun = none) ∧ (s.cur.starts pgPmb = true) ∧ (s.cur.flag pgPmb PMB_STAT_FAULT = false) ∧ (s.cur.flag pgPmb PMB_CFG_EN = true) ∧ (s.cur.flag pgRsv RSV_STAT_PF = false) ∧ (((m : Int) - (s.vis.get pgMplan MP_AVS_VREQ_MV)).natAbs ≤ 10) :=
  ⟨757, sPmb 755, by decide +kernel⟩

theorem met_pmbusRequestNak : ∃ (s : State), ((s.vis.get pgMplan MP_AVS_VREQ_MV) ≠ s.cur.lnk.vcoreSent) ∧ (s.cur.lnk.pmbRun = none) ∧ (s.cur.starts pgPmb = true) ∧ (s.cur.flag pgPmb PMB_STAT_FAULT = false) ∧ (s.cur.flag pgPmb PMB_CFG_EN = true) ∧ (s.cur.flag pgRsv RSV_STAT_PF = false) :=
  ⟨sPmb 755, by decide +kernel⟩

theorem met_pmbusRequestThree : ∃ (a b : Nat) (s : State), ((s.vis.get pgMplan MP_AVS_VREQ_MV) ≠ s.cur.lnk.vcoreSent) ∧ (s.cur.lnk.pmbRun = none) ∧ (s.cur.starts pgPmb = true) ∧ (s.cur.flag pgPmb PMB_STAT_FAULT = false) ∧ (s.cur.flag pgPmb PMB_CFG_EN = true) ∧ (s.cur.flag pgRsv RSV_STAT_PF = false) ∧ (10 < ((a : Int) - (s.vis.get pgMplan MP_AVS_VREQ_MV)).natAbs) ∧ (10 < ((b : Int) - (s.vis.get pgMplan MP_AVS_VREQ_MV)).natAbs) :=
  ⟨740, 740, sPmb 755, by decide +kernel⟩

theorem met_pmbusRequestNot : ∃ (s : State), ((s.vis.get pgMplan MP_AVS_VREQ_MV) = s.cur.lnk.vcoreSent ∨ s.cur.lnk.pmbRun ≠ none ∨ s.cur.starts pgPmb = false ∨ s.cur.flag pgPmb PMB_STAT_FAULT = true ∨ s.cur.flag pgPmb PMB_CFG_EN = false ∨ s.cur.flag pgRsv RSV_STAT_PF = true) :=
  ⟨sPmb 750, by decide +kernel⟩

theorem met_pmbusVoutModeRead : ∃ (m : Byte) , (m.toNat < 32) :=
  ⟨0x14, by decide +kernel⟩

theorem met_pmbusVoutModeReadOther : ∃ (m : Byte) , (32 ≤ m.toNat) :=
  ⟨0x40, by decide +kernel⟩

theorem met_ignitionChange : ∃ (on : Bool) (s : State), (s.cur.flag pgGpio GPIO_IGN_IGN ≠ on) ∧ (s.cur.clockOn = true) :=
  ⟨true, mk [] run, by decide +kernel⟩

theorem met_ignitionChangeAsleep : ∃ (on : Bool) (s : State), (s.cur.flag pgGpio GPIO_IGN_IGN ≠ on) ∧ (s.cur.clockOn = false) :=
  ⟨true, mk [], by decide +kernel⟩

theorem met_ignitionChangeNot : ∃ (on : Bool) (s : State), (s.cur.flag pgGpio GPIO_IGN_IGN = on) :=
  ⟨false, mk [], by decide +kernel⟩

theorem met_evtInEdge : ∃ (s : State), (bit (s.vis.get pgGpio GPIO_ALT_PINS) 1 = true) :=
  ⟨mk [(pgGpio, GPIO_ALT_PINS, 2)], by decide +kernel⟩

theorem met_evtInEdgeNot : ∃ (s : State), (bit (s.vis.get pgGpio GPIO_ALT_PINS) 1 = false) :=
  ⟨mk [], by decide +kernel⟩

theorem met_ppsSecond : ∃ (s : State), (s.cur.flag pgTb TB_CTL_WALL_VALID = true) ∧ (bit (s.cur.get pgGpio GPIO_ALT_PINS) 0 = true) ∧ ((s.cur.wallNs (s.cur.gtime * 4000) - 1) / 1000000000 ≠ s.cur.wallNs (s.cur.gtime * 4000 + 3999) / 1000000000) :=
  ⟨mk [(pgTb, TB_CTL_WALL_VALID, 1), (pgGpio, GPIO_ALT_PINS, 1)], by decide +kernel⟩

theorem met_ppsSecondNot : ∃ (s : State), (s.cur.flag pgTb TB_CTL_WALL_VALID = false ∨ bit (s.cur.get pgGpio GPIO_ALT_PINS) 0 = false ∨ (s.cur.wallNs (s.cur.gtime * 4000) - 1) / 1000000000 = s.cur.wallNs (s.cur.gtime * 4000 + 3999) / 1000000000) :=
  ⟨mk [], by decide +kernel⟩

theorem met_dieLinkLoss : ∃ (n : Nat) (s : State), (2 < n) ∧ (s.cur.tb.linkUp = true) :=
  ⟨3, mk [], by decide +kernel⟩

theorem met_dieLinkLossNot : ∃ (n : Nat) (s : State), (n ≤ 2 ∨ s.cur.tb.linkUp = false) :=
  ⟨2, mk [], by decide +kernel⟩

theorem met_dieLinkReturn : ∃ (s : State), (s.cur.tb.linkUp = false) :=
  ⟨mk [] fun d => { d with tb := { d.tb with linkUp := false } }, by decide +kernel⟩

theorem met_dieLinkReturnNot : ∃ (s : State), (s.cur.tb.linkUp = true) :=
  ⟨mk [], by decide +kernel⟩

theorem met_pwrHoldRise : ∃ (mv us : Nat) (s : State), (s.cur.tb.vaon = true) ∧ (s.cur.pwr.hold = false) ∧ (s.cur.pwr.phase ≠ .off) ∧ (s.cur.get pgBank BANK_PF_CFG_VMOT_FAIL_MV + 500 ≤ mv) ∧ (20 ≤ us) :=
  ⟨6000, 20, mk [] fun d => { d with pwr := { d.pwr with hold := false } }, by decide +kernel⟩

theorem met_pwrHoldRiseNot : ∃ (mv us : Nat) (s : State), (s.cur.tb.vaon = false ∨ s.cur.pwr.hold = true ∨ s.cur.pwr.phase = .off ∨ mv < s.cur.get pgBank BANK_PF_CFG_VMOT_FAIL_MV + 500 ∨ us < 20) :=
  ⟨5999, 20, mk [], by decide +kernel⟩

theorem met_powerOnReset : ∃ (s : State), (s.cur.pwr.phase ≠ .off) ∧ (s.cur.tb.vaon = true) ∧ (s.cur.su.step ≠ 0) :=
  ⟨mk [], by decide +kernel⟩

theorem met_powerOnResetNot : ∃ (s : State), (s.cur.pwr.phase = .off ∨ s.cur.tb.vaon = false ∨ s.cur.su.step = 0) :=
  ⟨sStep 0, by decide +kernel⟩

theorem met_startUp : ∃ (s : State), (s.cur.su.step = 0) ∧ (s.cur.pwr.hold = true) :=
  ⟨mk [] fun d => { d with su := { d.su with step := 0 }, pwr := { d.pwr with hold := true } }, by decide +kernel⟩

theorem met_startUpLocks : ∃ (s : State), (s.cur.su.step = 1) ∧ (s.cur.pwr.phase ≠ .off) ∧ (s.cur.pwr.hold = true) :=
  ⟨mk [] fun d => { d with su := { d.su with step := 1 }, pwr := { d.pwr with hold := true } }, by decide +kernel⟩

theorem met_startUpAccept : ∃ (s : State), (s.cur.su.step = 6) ∧ (s.cur.flag pgLdg LDG_CTL_ACCEPT_EN = true) :=
  ⟨mk [(pgLdg, LDG_CTL_ACCEPT_EN, 1)] fun d => { d with su := { d.su with step := 6 } }, by decide +kernel⟩

theorem met_startUpOther : ∃ (s : State), ((s.cur.su.step < 2 ∧ s.cur.pwr.hold = false) ∨ (s.cur.su.step = 1 ∧ s.cur.pwr.phase = .off) ∨ (2 ≤ s.cur.su.step ∧ (s.cur.su.step ≠ 6 ∨ s.cur.flag pgLdg LDG_CTL_ACCEPT_EN = false))) :=
  ⟨sStep 2, by decide +kernel⟩

theorem met_fuseLoad : ∃ (s : State), (s.cur.su.step = 2) ∧ (s.cur.su.fused = false) :=
  ⟨sStep 2, by decide +kernel⟩

theorem met_fuseLoadNot : ∃ (s : State), (s.cur.su.step ≠ 2 ∨ s.cur.su.fused = true) :=
  ⟨sStep 3, by decide +kernel⟩

theorem met_dieLinkCalibrate : ∃ (s : State), (s.cur.su.step = 2) ∧ (s.cur.su.linked = false) :=
  ⟨sStep 2, by decide +kernel⟩

theorem met_dieLinkCalibrateNot : ∃ (s : State), (s.cur.su.step ≠ 2 ∨ s.cur.su.linked = true) :=
  ⟨sStep 3, by decide +kernel⟩

theorem met_bootRomA : ∃ (a b : FwImage) (s : State), (s.cur.su.step = 5) ∧ (s.cur.su.coresAt ≤ s.cur.gtime) ∧ (s.cur.get pgId ID_BOOT_STATE = 0) ∧ (s.cur.authentic a = true ∧ a.body.length ≤ 114688) ∧ (s.cur.authentic b = true ∧ b.body.length ≤ 114688) ∧ (imgRollback b ≤ imgRollback a) :=
  ⟨imgA, imgA, sStep 5, by decide +kernel⟩

theorem met_bootRomB : ∃ (a b : FwImage) (s : State), (s.cur.su.step = 5) ∧ (s.cur.su.coresAt ≤ s.cur.gtime) ∧ (s.cur.get pgId ID_BOOT_STATE = 0) ∧ (s.cur.authentic a = true ∧ a.body.length ≤ 114688) ∧ (s.cur.authentic b = true ∧ b.body.length ≤ 114688) ∧ (imgRollback a < imgRollback b) :=
  ⟨imgA, imgB, sStep 5, by decide +kernel⟩

theorem met_bootRomOnlyA : ∃ (a : FwImage) (b : Option FwImage) (s : State), (s.cur.su.step = 5) ∧ (s.cur.su.coresAt ≤ s.cur.gtime) ∧ (s.cur.get pgId ID_BOOT_STATE = 0) ∧ (s.cur.authentic a = true ∧ a.body.length ≤ 114688) ∧ ((∀ x, b = some x → s.cur.authentic x = false ∨ 114688 < x.body.length)) :=
  ⟨imgA, none, sStep 5, by decide +kernel⟩

theorem met_bootRomOnlyB : ∃ (a : Option FwImage) (b : FwImage) (s : State), (s.cur.su.step = 5) ∧ (s.cur.su.coresAt ≤ s.cur.gtime) ∧ (s.cur.get pgId ID_BOOT_STATE = 0) ∧ ((∀ x, a = some x → s.cur.authentic x = false ∨ 114688 < x.body.length)) ∧ (s.cur.authentic b = true ∧ b.body.length ≤ 114688) :=
  ⟨none, imgB, sStep 5, by decide +kernel⟩

theorem met_bootRomFailed : ∃ (a b : Option FwImage) (s : State), (s.cur.su.step = 5) ∧ (s.cur.su.coresAt ≤ s.cur.gtime) ∧ (s.cur.get pgId ID_BOOT_STATE = 0) ∧ ((∀ x, a = some x → s.cur.authentic x = false ∨ 114688 < x.body.length)) ∧ ((∀ x, b = some x → s.cur.authentic x = false ∨ 114688 < x.body.length)) :=
  ⟨none, none, sStep 5, by decide +kernel⟩

theorem met_bootRomNot : ∃ (s : State), (s.cur.su.step ≠ 5 ∨ s.cur.gtime < s.cur.su.coresAt ∨ s.cur.get pgId ID_BOOT_STATE ≠ 0) :=
  ⟨sStep 4, by decide +kernel⟩

theorem met_auth : ∃ (s : State), (6 ≤ s.cur.su.step) :=
  ⟨sStep 6, by decide +kernel⟩

theorem met_authNot : ∃ (s : State), (s.cur.su.step < 6) :=
  ⟨sStep 5, by decide +kernel⟩

theorem met_fmRollbackInc : ∃ (s : State), (s.cur.flag pgFuse FUSE_STAT_MAINT = true) :=
  ⟨mk [(pgFuse, FUSE_STAT_MAINT, 1)], by decide +kernel⟩

theorem met_fmRollbackIncDenied : ∃ (s : State), (s.cur.flag pgFuse FUSE_STAT_MAINT = false) :=
  ⟨mk [], by decide +kernel⟩

theorem met_warmReset : ∃ (s : State), (s.cur.su.warm ≠ 0) ∧ (5 ≤ s.cur.su.step) ∧ (s.cur.rsv.committing = false) :=
  ⟨mk [(pgLdg, LDG_CTL_ACCEPT_EN, 1)] fun d => { d with su := { d.su with step := 7, warm := 16 } }, by decide +kernel⟩

theorem met_warmResetNot : ∃ (s : State), (s.cur.su.warm = 0 ∨ s.cur.su.step < 5 ∨ s.cur.rsv.committing = true) :=
  ⟨mk [], by decide +kernel⟩

theorem met_rstCtlWarm : ∃ (k : Byte) , (k = 0xA5) :=
  ⟨0xA5, by decide +kernel⟩

theorem met_rstCtlWarmKey : ∃ (k : Byte) , (k ≠ 0xA5) :=
  ⟨0x5A, by decide +kernel⟩

theorem met_rstCtlApp : ∃ (k : Byte) , (k = 0xA5) :=
  ⟨0xA5, by decide +kernel⟩

theorem met_rstCtlAppKey : ∃ (k : Byte) , (k ≠ 0xA5) :=
  ⟨0x5A, by decide +kernel⟩

theorem met_rstNLow : ∃ (n : Nat) , (1000 ≤ n) :=
  ⟨1000, by decide +kernel⟩

theorem met_rstNLowShort : ∃ (n : Nat) , (n < 1000) :=
  ⟨999, by decide +kernel⟩

theorem met_debugResetRequest : ∃ (s : State), (s.cur.flag pgFuseMap FM_STAT_DBG_EN = true) :=
  ⟨mk [(pgFuseMap, FM_STAT_DBG_EN, 1)], by decide +kernel⟩

theorem met_debugResetRequestLocked : ∃ (s : State), (s.cur.flag pgFuseMap FM_STAT_DBG_EN = false) :=
  ⟨mk [], by decide +kernel⟩

theorem met_registerAccessError : ∃ (r : Requester) (x : Word) , (inGroups (regAddr r x.toNat) = true) ∧ (inAon (regAddr r x.toNat) = false) ∧ (pageAt (regAddr r x.toNat) = none) :=
  ⟨.rt 0, 0x40007000, by decide +kernel⟩

theorem met_registerAccessErrorNarrow : ∃ (r : Requester) (x : Word) (z p : Nat) (s : State), (inGroups (regAddr r x.toNat) = true) ∧ (inAon (regAddr r x.toNat) = false) ∧ (pageAt (regAddr r x.toNat) = some p) ∧ (z ≠ 4 ∨ (regAddr r x.toNat) % 4 ≠ 0) ∧ (s.vis.domainOn (domainOf p) = true) :=
  ⟨.rt 0, 0x40004042, 2, 0x40004000, mk [], by decide +kernel⟩

theorem met_registerAccessErrorDown : ∃ (r : Requester) (x : Word) (z p : Nat) (s : State), (inGroups (regAddr r x.toNat) = true) ∧ (inAon (regAddr r x.toNat) = false) ∧ (pageAt (regAddr r x.toNat) = some p) ∧ (z ≠ 4 ∨ (regAddr r x.toNat) % 4 ≠ 0) ∧ (s.vis.domainOn (domainOf p) = false) :=
  ⟨.rt 0, 0x40900042, 2, 0x40900000, sPwr { stopped := 0xFFF }, by decide +kernel⟩

theorem met_registerAccessErrorGood : ∃ (r : Requester) (x : Word) , (inGroups (regAddr r x.toNat) = true) ∧ (inAon (regAddr r x.toNat) = false) ∧ ((regAddr r x.toNat) % 4 = 0) ∧ ((pageAt (regAddr r x.toNat)).isSome = true) :=
  ⟨.rt 0, 0x40004040, by decide +kernel⟩

theorem met_registerAccessErrorAon : ∃ (r : Requester) (x : Word) (z : Nat) , (inAon (regAddr r x.toNat) = true) ∧ (z ≠ 4 ∨ (regAddr r x.toNat) % 4 ≠ 0) :=
  ⟨.rt 0, 0x40D12001, 4, by decide +kernel⟩

theorem met_registerAccessErrorOutside : ∃ (r : Requester) (x : Word) (z : Nat) , ((inGroups (regAddr r x.toNat) = false ∧ inAon (regAddr r x.toNat) = false) ∨ (inAon (regAddr r x.toNat) = true ∧ z = 4 ∧ (regAddr r x.toNat) % 4 = 0)) :=
  ⟨.rt 0, 0x10, 4, by decide +kernel⟩

theorem met_poweredDownAccess : ∃ (r : Requester) (x : Word) (w : Option Word) (p : Nat) (s : State), (x.toNat % 4 = 0) ∧ (¬(r = .debug ∧ s.cur.flag pgFuseMap FM_STAT_DBG_EN = false)) ∧ (inGroups (regAddr r x.toNat) = true) ∧ (inAon (regAddr r x.toNat) = false) ∧ (pageAt (regAddr r x.toNat) = some p) ∧ (s.vis.domainOn (domainOf p) = false) ∧ (w.isSome = true ∨ ((regAddr r x.toNat) - p ≠ PG_ID.off ∧ (regAddr r x.toNat) - p ≠ PG_STAT.off)) :=
  ⟨.rt 0, 0x40900040, some 5, 0x40900000, sPwr { stopped := 0xFFF }, by decide +kernel⟩

theorem met_poweredDownAccessStatus : ∃ (r : Requester) (x : Word) (p : Nat) (s : State), (x.toNat % 4 = 0) ∧ (¬(r = .debug ∧ s.cur.flag pgFuseMap FM_STAT_DBG_EN = false)) ∧ (inGroups (regAddr r x.toNat) = true) ∧ (inAon (regAddr r x.toNat) = false) ∧ (pageAt (regAddr r x.toNat) = some p) ∧ (s.vis.domainOn (domainOf p) = false) ∧ ((regAddr r x.toNat) - p = PG_ID.off ∨ (regAddr r x.toNat) - p = PG_STAT.off) :=
  ⟨.rt 0, 0x4090000C, 0x40900000, sPwr { stopped := 0xFFF }, by decide +kernel⟩

theorem met_poweredDownAccessRead : ∃ (r : Requester) (x : Word) (p : Nat) (s : State), (x.toNat % 4 = 0) ∧ (¬(r = .debug ∧ s.cur.flag pgFuseMap FM_STAT_DBG_EN = false)) ∧ (inGroups (regAddr r x.toNat) = true) ∧ (inAon (regAddr r x.toNat) = false) ∧ (pageAt (regAddr r x.toNat) = some p) ∧ (s.vis.domainOn (domainOf p) = true) ∧ (r ≠ .host) ∧ (windowOf p = none) :=
  ⟨.rt 0, 0x40900040, 0x40900000, mk [], by decide +kernel⟩

theorem met_poweredDownAccessReadQuiet : ∃ (r : Requester) (x : Word) (p : Nat) (s : State), (x.toNat % 4 = 0) ∧ (¬(r = .debug ∧ s.cur.flag pgFuseMap FM_STAT_DBG_EN = false)) ∧ (inGroups (regAddr r x.toNat) = true) ∧ (inAon (regAddr r x.toNat) = false) ∧ (pageAt (regAddr r x.toNat) = some p) ∧ (s.vis.domainOn (domainOf p) = true) ∧ (r ≠ .host) ∧ (windowOf p = none) ∧ (p ≠ pgTb) ∧ (p ≠ pgLdg) ∧ (p ≠ pgRsv) ∧ (p ≠ pgPwr) ∧ (p ≠ pgGpio) ∧ (p ≠ pgProt) ∧ (p < pgFk 0 ∨ pgCv 8 ≤ p) :=
  ⟨.rt 0, 0x40900040, 0x40900000, mk [], by decide +kernel⟩

theorem met_poweredDownAccessHostStatus : ∃ (r : Requester) (x : Word) (p : Nat) (s : State), (x.toNat % 4 = 0) ∧ (¬(r = .debug ∧ s.cur.flag pgFuseMap FM_STAT_DBG_EN = false)) ∧ (inGroups (regAddr r x.toNat) = true) ∧ (inAon (regAddr r x.toNat) = false) ∧ (pageAt (regAddr r x.toNat) = some p) ∧ (s.vis.domainOn (domainOf p) = true) ∧ (r = .host) ∧ (windowOf p = none) ∧ ((((List.range 14).any fun k => bar2Page (k * 0x1000) == some p) = true)) ∧ (p ≠ pgTb) ∧ (p ≠ pgLdg) ∧ (p ≠ pgRsv) ∧ (p ≠ pgPwr) ∧ (p ≠ pgGpio) ∧ (p ≠ pgProt) ∧ (p < pgFk 0 ∨ pgCv 8 ≤ p) :=
  ⟨.host, 0x40000014, 0x40000000, mk [], by decide +kernel⟩

theorem met_poweredDownAccessHostElsewhere : ∃ (r : Requester) (x : Word) (p : Nat) (s : State), (x.toNat % 4 = 0) ∧ (¬(r = .debug ∧ s.cur.flag pgFuseMap FM_STAT_DBG_EN = false)) ∧ (inGroups (regAddr r x.toNat) = true) ∧ (inAon (regAddr r x.toNat) = false) ∧ (pageAt (regAddr r x.toNat) = some p) ∧ (s.vis.domainOn (domainOf p) = true) ∧ (r = .host) ∧ (windowOf p = none) ∧ ((((List.range 14).any fun k => bar2Page (k * 0x1000) == some p) = false)) :=
  ⟨.host, 0x40900040, 0x40900000, mk [], by decide +kernel⟩

theorem met_poweredDownAccessWindow : ∃ (r : Requester) (x : Word) (p : Nat) (n : Nat) (s : State), (x.toNat % 4 = 0) ∧ (¬(r = .debug ∧ s.cur.flag pgFuseMap FM_STAT_DBG_EN = false)) ∧ (inGroups (regAddr r x.toNat) = true) ∧ (inAon (regAddr r x.toNat) = false) ∧ (pageAt (regAddr r x.toNat) = some p) ∧ (s.vis.domainOn (domainOf p) = true) ∧ (windowOf p = some n) :=
  ⟨.host, 0x3040, 0x40103000, 3, mk [], by decide +kernel⟩

theorem met_poweredDownAccessUnaligned : ∃ (x : Word) , (x.toNat % 4 ≠ 0) :=
  ⟨0x40900041, by decide +kernel⟩

theorem met_poweredDownAccessAon : ∃ (r : Requester) (x : Word) (s : State), (x.toNat % 4 = 0) ∧ (¬(r = .debug ∧ s.cur.flag pgFuseMap FM_STAT_DBG_EN = false)) ∧ (r ≠ .host) ∧ (inAon (regAddr r x.toNat) = true) :=
  ⟨.rt 0, 0x40D12000, mk [], by decide +kernel⟩

theorem met_registerWriteEnables : ∃ (r : Requester) (x : Word) (p : Nat) (s : State), (x.toNat % 4 = 0) ∧ (¬(r = .debug ∧ s.cur.flag pgFuseMap FM_STAT_DBG_EN = false)) ∧ (inGroups (regAddr r x.toNat) = true) ∧ (inAon (regAddr r x.toNat) = false) ∧ (pageAt (regAddr r x.toNat) = some p) ∧ (s.vis.domainOn (domainOf p) = true) ∧ (r ≠ .host) ∧ (windowOf p = none) ∧ ((regAddr r x.toNat) = p + PG_IRQ_EN.off) :=
  ⟨.rt 0, 0x40900014, 0x40900000, mk [], by decide +kernel⟩

theorem met_registerWriteBuffer : ∃ (r : Requester) (x : Word) (p : Nat) (s : State), (x.toNat % 4 = 0) ∧ (¬(r = .debug ∧ s.cur.flag pgFuseMap FM_STAT_DBG_EN = false)) ∧ (inGroups (regAddr r x.toNat) = true) ∧ (inAon (regAddr r x.toNat) = false) ∧ (pageAt (regAddr r x.toNat) = some p) ∧ (s.vis.domainOn (domainOf p) = true) ∧ (r ≠ .host) ∧ (p = pgCan 0 ∨ p = pgCan 1) ∧ (p + 0x800 ≤ (regAddr r x.toNat)) ∧ ((regAddr r x.toNat) < p + 0xD00) ∧ (s.vis.frozen p = false) :=
  ⟨.rt 0, 0x41002800, 0x41002000, mk [], by decide +kernel⟩

theorem met_registerWriteClamp : ∃ (r : Requester) (x : Word) (s : State), (x.toNat % 4 = 0) ∧ (¬(r = .debug ∧ s.cur.flag pgFuseMap FM_STAT_DBG_EN = false)) ∧ (r ≠ .host) ∧ (x.toNat = pgBank + BANK_MEAS_CFG_I_PULSE.off) ∧ (s.vis.domainOn (domainOf pgBank) = true) ∧ (s.vis.frozen pgBank = false) :=
  ⟨.rt 0, 0x40201044, mk [], by decide +kernel⟩

theorem met_registerWriteDown : ∃ (r : Requester) (x : Word) (p : Nat) (s : State), (x.toNat % 4 = 0) ∧ (¬(r = .debug ∧ s.cur.flag pgFuseMap FM_STAT_DBG_EN = false)) ∧ (inGroups (regAddr r x.toNat) = true) ∧ (inAon (regAddr r x.toNat) = false) ∧ (pageAt (regAddr r x.toNat) = some p) ∧ (s.vis.domainOn (domainOf p) = false) :=
  ⟨.rt 0, 0x40900040, 0x40900000, sPwr { stopped := 0xFFF }, by decide +kernel⟩

theorem met_registerWriteUnmapped : ∃ (r : Requester) (x : Word) (s : State), (x.toNat % 4 = 0) ∧ (¬(r = .debug ∧ s.cur.flag pgFuseMap FM_STAT_DBG_EN = false)) ∧ (inGroups (regAddr r x.toNat) = true) ∧ (inAon (regAddr r x.toNat) = false) ∧ (pageAt (regAddr r x.toNat) = none) :=
  ⟨.rt 0, 0x40007000, mk [], by decide +kernel⟩

theorem met_registerWriteHostWrite : ∃ (r : Requester) (x : Word) (p : Nat) (s : State), (x.toNat % 4 = 0) ∧ (¬(r = .debug ∧ s.cur.flag pgFuseMap FM_STAT_DBG_EN = false)) ∧ (inGroups (regAddr r x.toNat) = true) ∧ (inAon (regAddr r x.toNat) = false) ∧ (pageAt (regAddr r x.toNat) = some p) ∧ (s.vis.domainOn (domainOf p) = true) ∧ (r = .host) ∧ (windowOf p = none) ∧ ((((List.range 14).any fun k => bar2Page (k * 0x1000) == some p) = true)) :=
  ⟨.host, 0x40000014, 0x40000000, mk [], by decide +kernel⟩

theorem met_registerWriteHostElsewhere : ∃ (r : Requester) (x : Word) (p : Nat) (s : State), (x.toNat % 4 = 0) ∧ (¬(r = .debug ∧ s.cur.flag pgFuseMap FM_STAT_DBG_EN = false)) ∧ (inGroups (regAddr r x.toNat) = true) ∧ (inAon (regAddr r x.toNat) = false) ∧ (pageAt (regAddr r x.toNat) = some p) ∧ (s.vis.domainOn (domainOf p) = true) ∧ (r = .host) ∧ (windowOf p = none) ∧ ((((List.range 14).any fun k => bar2Page (k * 0x1000) == some p) = false)) :=
  ⟨.host, 0x40900014, 0x40900000, mk [], by decide +kernel⟩

theorem met_registerWriteNotOwner : ∃ (r : Requester) (x : Word) (p : Nat) (n : Nat) (s : State), (x.toNat % 4 = 0) ∧ (¬(r = .debug ∧ s.cur.flag pgFuseMap FM_STAT_DBG_EN = false)) ∧ (inGroups (regAddr r x.toNat) = true) ∧ (inAon (regAddr r x.toNat) = false) ∧ (pageAt (regAddr r x.toNat) = some p) ∧ (s.vis.domainOn (domainOf p) = true) ∧ (windowOf p = some n) ∧ (s.cur.mayWrite r n = false) :=
  ⟨.host, 0x3040, 0x40103000, 3, mk [], by decide +kernel⟩

theorem met_registerWriteAon : ∃ (r : Requester) (x : Word) (s : State), (x.toNat % 4 = 0) ∧ (¬(r = .debug ∧ s.cur.flag pgFuseMap FM_STAT_DBG_EN = false)) ∧ (r ≠ .host) ∧ (inAon (regAddr r x.toNat) = true) ∧ (0x40D11000 ≤ (regAddr r x.toNat)) :=
  ⟨.rt 0, 0x40D12000, mk [], by decide +kernel⟩

theorem met_registerWriteAonStatus : ∃ (r : Requester) (x : Word) (s : State), (x.toNat % 4 = 0) ∧ (¬(r = .debug ∧ s.cur.flag pgFuseMap FM_STAT_DBG_EN = false)) ∧ (r ≠ .host) ∧ (inAon (regAddr r x.toNat) = true) ∧ ((regAddr r x.toNat) < 0x40D11000) :=
  ⟨.rt 0, 0x40D10000, mk [], by decide +kernel⟩

theorem met_registerWriteLocked : ∃ (r : Requester) (x : Word) (s : State), (x.toNat % 4 ≠ 0 ∨ (inGroups (regAddr r x.toNat) = false ∧ inAon (regAddr r x.toNat) = false) ∨ (r = .debug ∧ s.cur.flag pgFuseMap FM_STAT_DBG_EN = false) ∨ (r = .host ∧ inAon (regAddr r x.toNat) = true)) :=
  ⟨.debug, 0x40900014, mk [], by decide +kernel⟩

theorem met_pgSoftResetDenied : ∃ (page : Word) (p : Nat) , (pageAt page.toNat = some p) ∧ (protectedPage p = true) :=
  ⟨0x40100000, 0x40100000, by decide +kernel⟩

theorem met_pgSoftReset : ∃ (page : Word) (p : Nat) , (pageAt page.toNat = some p) ∧ (protectedPage p = false) :=
  ⟨0x40E00000, 0x40E00000, by decide +kernel⟩

theorem met_pgCtlDeniedWrite : ∃ (page : Word) (p : Nat) , (pageAt page.toNat = some p) ∧ (protectedPage p = true) :=
  ⟨0x40100000, 0x40100000, by decide +kernel⟩

theorem met_pgCtlDeniedWriteOther : ∃ (page : Word) , ((∀ p, pageAt page.toNat = some p → protectedPage p = false)) :=
  ⟨0x40007000, by decide +kernel⟩

theorem met_pgIrqClrWrite : ∃ (page : Word) (p : Nat) , (pageAt page.toNat = some p) :=
  ⟨0x40E00000, 0x40E00000, by decide +kernel⟩

theorem met_pgErrInfoClear : ∃ (page : Word) (p : Nat) , (pageAt page.toNat = some p) :=
  ⟨0x40E00000, 0x40E00000, by decide +kernel⟩

theorem met_pgSoftResetNoPage : ∃ (page : Word) , (pageAt page.toNat = none) :=
  ⟨0x40007000, by decide +kernel⟩

theorem met_idle : ∃ s : State, s.pending = [] := ⟨s0, rfl⟩

theorem met_refused : ∃ (o : Opc) (w : Fin 64) (r : Requester) (k : TaskOp) (x : Reason) (s : State),
    s.decides w r = true ∧ s.verdict w o k = some x := ⟨.append, 0, .app 0, {}, .starting, s0, by decide, by decide⟩

theorem met_refusedByLoss : ∃ (w : Fin 64) (r : Requester) (s : State), s.decides w r = true ∧ s.cur.flag pgRsv RSV_STAT_PF = true :=
  ⟨0, .app 0, mk [(pgRsv, RSV_STAT_PF, 1)], by decide⟩

theorem met_refusedStarting : ∃ (w : Fin 64) (r : Requester) (s : State), s.decides w r = true ∧
    s.cur.flag pgRsv RSV_STAT_PF = false ∧ s.cur.flag pgLdg LDG_CTL_ACCEPT_EN = false := ⟨0, .app 0, s0, by decide⟩

theorem met_refusedActivation : ∃ (w : Fin 64) (r : Requester) (s : State), s.decides w r = true ∧
    s.cur.flag pgRsv RSV_STAT_PF = false ∧ s.cur.flag pgLdg LDG_CTL_ACCEPT_EN = true ∧ s.cur.prt.failing = [] ∧
    s.cur.flag pgLdg LDG_CTL_ACTIVATE = true := ⟨0, .app 0, mk [(pgLdg, LDG_CTL_ACCEPT_EN, 1), (pgLdg, LDG_CTL_ACTIVATE, 1)], by decide⟩

theorem met_refusedDisarmed : ∃ (w : Fin 64) (r : Requester) (s : State), s.decides w r = true ∧
    s.cur.flag pgRsv RSV_STAT_PF = false ∧ s.cur.flag pgLdg LDG_CTL_ACCEPT_EN = true ∧ s.cur.prt.failing = [] ∧
    s.cur.flag pgLdg LDG_CTL_ACTIVATE = false ∧ s.cur.flag (pgTw w) TW_CQ_CFG_ARMED = false :=
  ⟨63, .app 0, mk [(pgLdg, LDG_CTL_ACCEPT_EN, 1)], by decide⟩

theorem met_discarded : ∃ (w : Fin 64) (r : Requester) (s : State), s.cur.mayWrite r w = true ∧
    s.vis.get (pgTw w) TW_RESULT_STATE ≠ 1 ∧ s.cur.ldg.hostEventNow = true ∧ s.cur.hostOwned w = true :=
  ⟨1, .host, mk [(pgLdg, LDG_OWNER_LO, 2)] (withLdg fun l => { l with hostEventNow := true }), by decide⟩

/-- An ABORT's target of opcode `o`, completed as `m`, a SEAL signing as `sg`. -/
def sAbort (o : Opc) (m : Option (CStat × Nat)) (sg : Bool) : State :=
  mk accRegs (withLdg fun l => { laneOpen l with
    journal := [⟨0, 3, 8, o, 7, m, m.isSome, false, false⟩], tasks := [{ tk o with signing := sg }], nextLsn := 4 })
def abortOp : TaskOp := { d6 := 8 }
/-- The premises of AbortRace for the target `e` in state `s`. -/
def abortMet (e : JEntry) (s : State) : Bool :=
  s.cur.lsnOk && s.decides 0 (.app 0) && s.verdict 0 .abort abortOp == none
    && abortTarget s.cur 0 (bits abortOp.arg0 0 16) s.cur.ldg.nextLsn == some e

theorem met_abortTooLate : ∃ e s, abortMet e s = true ∧ e.met.isSome = true :=
  ⟨⟨0, 3, 8, .read, 7, some (.ok, 9), true, false, false⟩, sAbort .read (some (.ok, 9)) false, by decide⟩
theorem met_abortRead : ∃ e s, abortMet e s = true ∧ e.met = none ∧ e.opc = .read :=
  ⟨⟨0, 3, 8, .read, 7, none, false, false, false⟩, sAbort .read none false, by decide⟩
theorem met_abortFlush : ∃ e s, abortMet e s = true ∧ e.met = none ∧ e.opc = .flush :=
  ⟨⟨0, 3, 8, .flush, 7, none, false, false, false⟩, sAbort .flush none false, by decide⟩
theorem met_abortSeal : ∃ e s u, abortMet e s = true ∧ e.met = none ∧ e.opc = .seal ∧ s.cur.task e.lsn = some u ∧
    u.signing = false ∧ u.signed = false :=
  ⟨⟨0, 3, 8, .seal, 7, none, false, false, false⟩, sAbort .seal none false, tk .seal, by decide⟩
theorem met_abortSigning : ∃ e s u, abortMet e s = true ∧ e.met = none ∧ e.opc = .seal ∧ s.cur.task e.lsn = some u ∧
    u.signing = true :=
  ⟨⟨0, 3, 8, .seal, 7, none, false, false, false⟩, sAbort .seal none true, { tk .seal with signing := true }, by decide⟩
theorem met_abortOther : ∃ e s, abortMet e s = true ∧ e.met = none ∧ e.opc = .append :=
  ⟨⟨0, 3, 8, .append, 7, none, false, false, false⟩, sAbort .append none false, by decide⟩

theorem met_recompute : ∃ d : Dev, d.flag pgRsv RSV_STAT_PF = false ∧ d.flag pgRsv RSV_STAT_VALID = true ∧ d.vholdBad = false ∧
    d.cal.derate = none := ⟨dev [(pgRsv, RSV_STAT_VALID, 1)], by decide⟩

theorem met_belowMin : ∃ (vis d : Dev) (w : Nat) (k : TaskOp), vis.flag pgRsv RSV_STAT_BELOW_MIN = true ∧
    decide65 (vis.setB pgRsv RSV_STAT_BELOW_MIN false) d w (some .append) k = none :=
  ⟨sAcc.cur.setB pgRsv RSV_STAT_BELOW_MIN true, sAcc.cur, 0, { d1 := 7, d2 := 1, d5 := 5000 }, by decide⟩

theorem met_fifoFree : ∃ (d : Dev) (k v : Nat), k < 64 ∧ d.flag (pgFk k) FK_CTL_DIAG_EN = false ∧ (d.fifo k).held = false ∧ v < 2 ^ 25 :=
  ⟨{}, 63, 0x1FFFFFF, by decide⟩
theorem met_fifoHeld : ∃ (d : Dev) (k : Nat), k < 64 ∧ d.flag (pgFk k) FK_CTL_DIAG_EN = false ∧ (d.fifo k).held = true ∧
    d.flag (pgFk k) PG_ERR_INFO_VALID = false :=
  ⟨({} : Dev).updFifo 5 fun f => { f with w := 8, packets := [pkSha] }, 5, by decide⟩

theorem met_stores : ∃ s t : State, s.storesWf = true ∧ step s = .next t := ⟨s0, s0, by decide, rfl⟩
theorem met_lsns : ∃ s t : State, s.lsnOk = true ∧ step s = .next t := ⟨s0, s0, by decide, rfl⟩
theorem met_fuses : ∃ s t : State, s.fusesOk = true ∧ step s = .next t := ⟨s0, s0, by decide, rfl⟩

/-! ### Ill-formed commands are refused by the check -/

theorem test_wf_ports : (Instr.grainEdge { ports := List.replicate 5 { pd := [] } }).wf = false := by decide
theorem test_wf_inputs : (Instr.grainEdge { ports := [{ pd := [List.replicate 11 0] }] }).wf = false := by decide
theorem test_wf_motors : (Instr.grainEdge { enc := List.replicate 9 0 }).wf = false := by decide
theorem test_wf_gains : (Instr.grainEdge { gains := List.replicate 6 0 }).wf = false := by decide
theorem test_wf_targets : (Instr.grainEdge { rbLow := 2 ^ 68 }).wf = false := by decide
theorem test_wf_stone : (Instr.stoneEdge {} ⟨1, 2, 3, List.replicate 14 none, none, none⟩).wf = false := by decide
theorem test_wf_overrun : (Instr.grainOverrun 0x40600004 none).wf = false := by decide
theorem test_wf_write : (Instr.registerWrite .debug 0x40600002 0).wf = false := by decide
theorem test_wf_access : (Instr.poweredDownAccess .debug 0x40600001 none).wf = false := by decide
theorem test_wf_reset : (Instr.pgSoftReset 0x40600008 .debug false true).wf = false := by decide
theorem test_wf_ctl : (Instr.pgCtlDeniedWrite 0x40100008 .debug 0).wf = false := by decide
theorem test_wf_irqClr : (Instr.pgIrqClrWrite 0x4010001C 0).wf = false := by decide
theorem test_wf_errClear : (Instr.pgErrInfoClear 0x40100030).wf = false := by decide
theorem test_wf_identify : (Instr.bayIdentify 0 (List.replicate 17 tgt) none).wf = false := by decide
theorem test_wf_fuses : (Instr.fuseLoad ⟨5, 6, [1], true, false, 7, [2], 0, true, false, []⟩).wf = false := by decide
theorem test_wf_can : (Instr.canFrameReceive 0 ⟨1, 64, List.replicate 65 0⟩ 0 0 0 0).wf = false := by decide
theorem test_wf_bar2 : (Instr.bar2Write 0x2041 0).wf = false := by decide

/-! ### The spec's own examples -/

/-- The two-capacitor bank, new and aged: AVAIL after DERATE (chapter 03). -/
theorem test_avail_new : availOf 931000 90 24000 8000 1200 880 900 = 188119 := by decide
theorem test_avail_aged : availOf 705000 160 24000 8000 1200 880 900 = 142071 := by decide
/-- The same aged bank at a derating of 850 (chapter 16). -/
theorem test_avail_derated : availOf 705000 160 24000 8000 1200 880 850 = 134178 := by decide
/-- MIN at the reset values is 117,250 µJ; an APPEND of 32,768 bytes charges nine codewords (chapter 03). -/
theorem test_min : ({} : Dev).rsvMin = 117250 := by decide
theorem test_charge : chargeOf .append 32768 = (9, 0) := by decide
/-- The gathered bale's byte: PFA 0x4400_0672_01E4_0003, row 0x0033_91E4 sent low byte first, column 0x3600 (chapter 06). -/
theorem test_pfa : mkPfa 1 0 1 0 1650 484 3 = 0x4400067201E40003 := by decide
theorem test_row : (dev [(pgBay 1, BAY_GEOM1_BLOCK_BITS, 12), (pgBay 1, BAY_GEOM1_PAGE_BITS, 11),
    (pgBay 1, BAY_GEOM1_ROW_CYCLES, 4)]).rowBytes 0x4400067201E40003 = [0xE4, 0x91, 0x33, 0x00] := by decide
theorem test_col : colAddr 0x4400067201E40003 = 0x3600 := by decide
/-- Lane 0x0_8070's byte in bale 37: slot 54,219 of stripe 2,085 stands at that PFA (chapter 06). -/
theorem test_slotPfa : ((dev [(pgFstr 1, FSTR_GEOM_WIDTH, 8), (pgFstr 1, FSTR_GEOM_K_SETS, 1000), (pgBay 1, BAY_GEOM0_PLANES_LOG2, 2),
    (pgBay 1, BAY_GEOM0_PAGE_CW, 4), (pgBay 1, BAY_GEOM0_LUNS_PER_CE_M1, 3)]).updMap 1 fun m =>
      { m with table := [(16 * 65536 + 85, 16 * 65536 + 412 + 1)] }).slotPfa 1 2085 54219 = 0x4400067201E40003 := by decide
/-- The focus loop's product term and drive code (chapter 10). -/
theorem test_term : slotTerm [0, 0, 0x060B60B6, 0, 0, 0, 0, 0, 31, 0, 0, 0] 0 53687091 = 2535223 := by decide
theorem test_code : satI 16 ((2535223 + 2 ^ 14) / 2 ^ 15) = 77 := by decide
theorem test_coefNegative : slotC [0, 0, 0, 0x858ADABA] 1 = -2054497606 := by decide
/-- The 40-minute DEEP: Grains bridged, new carry, uncertainty (chapter 14). -/
theorem test_bridge : bridge 78644144 12000 1024000000000 20 = (600000002, 1151000000000, 12009) := by decide
/-- The record of a forced removal (chapter 18). -/
theorem test_record : FaultRec.bytes
      { gtime := 20480000, seq := 0x0A2F, pgId := pgIdOf (pgBay 2), code := 0x0403, deg := false, flt := false, data := [5, 37, 1] } =
    [0x00, 0x80, 0x38, 0x01, 0x00, 0x00, 0x2F, 0x0A, 0x13, 0x02, 0x02, 0x04, 0x03, 0x04, 0x00, 0x03, 5, 0, 0, 0, 0x25, 0, 0, 0,
      1, 0, 0, 0, 0, 0, 0, 0] := by decide +kernel
/-- The jump on OP1: the kick code 4,406 is staged with H = 310 (chapter 10). -/
theorem test_kick : (match exec (.jump 1 1) (mk [(pgOps 1, OPS_STAT_STATE, 3), (pgOps 1, OPS_LOOP_CLOSED, 3),
    (pgOps 1, OPS_DRIVE0_TRK, 310)]) with
    | .next t => t.cur.getI (pgOps 1) OPS_DRIVE0_TRK | _ => 0) = 4406 := by decide +kernel

end Sys2Proof.Tests
end

section
/-! What a refused submission does (R67): the registers that a counter, an interrupt and a doorbell write, what `Dev.refuse` leaves,
and the refusal of each of the nine tasks. -/

namespace Sys2Proof.Machine

open Sys2Proof

/-! ### Registers beside the one written -/

theorem Dev.rd_put_other (d : Dev) {p a : Nat} {f : Fld} (v : Nat) (h : a ≠ p + f.off) : (d.put p f v).rd a = d.rd a :=
  Dev.rd_wr_other d _ h

theorem Dev.rd_inc_other (d : Dev) {p a : Nat} {f : Fld} (h : a ≠ p + f.off) : (d.inc p f).rd a = d.rd a :=
  Dev.rd_put_other d _ h

theorem Dev.rd_irq_other (d : Dev) {p a : Nat} {f : Fld} (h : a ≠ p + f.off) : (d.irq p f).rd a = d.rd a :=
  (Dev.irq_rd d p f a).trans (Dev.rd_put_other d 1 h)

theorem Dev.get_inc_other (d : Dev) {p q : Nat} {f g : Fld} (h : q + g.off ≠ p + f.off) : (d.inc p f).get q g = d.get q g :=
  Dev.get_put_other d _ h

theorem Dev.get_irq_other (d : Dev) {p q : Nat} {f g : Fld} (h : q + g.off ≠ p + f.off) : (d.irq p f).get q g = d.get q g :=
  (Dev.irq_get d p f q g).trans (Dev.get_put_other d 1 h)

/-! ### Counters -/

theorem satInc_eq_min {top n : Nat} (h : n ≤ top) : satInc top n = min top (n + 1) := by
  unfold satInc; split <;> omega

theorem Dev.get_lt (d : Dev) (p : Nat) (f : Fld) : d.get p f < 2 ^ f.width := Nat.mod_lt _ (Nat.two_pow_pos _)

/-- A counter counts one up and stops at its largest value. -/
theorem Dev.get_inc_same (d : Dev) (p : Nat) (f : Fld) (h : f.lo + f.width ≤ 32) :
    (d.inc p f).get p f = min (2 ^ f.width - 1) (d.get p f + 1) := by
  have hlt := d.get_lt p f
  rw [Dev.inc, Dev.get_put_same _ _ _ _ h, satInc_eq_min (by omega)]
  exact Nat.mod_eq_of_lt (by omega)

/-! ### What is left when the registers are put back -/

/-- `d` with the registers, the note of raised interrupts and the note of doorbells that `e` has. -/
def Dev.withRegsOf (d e : Dev) : Dev :=
  { d with regs := e.regs, irqSet := e.irqSet, ldg := { d.ldg with bells := e.ldg.bells } }

theorem Dev.withRegsOf_self (d : Dev) : d.withRegsOf d = d := rfl
theorem Dev.put_withRegsOf (d e : Dev) (p : Nat) (f : Fld) (v : Nat) : (d.put p f v).withRegsOf e = d.withRegsOf e := rfl
theorem Dev.inc_withRegsOf (d e : Dev) (p : Nat) (f : Fld) : (d.inc p f).withRegsOf e = d.withRegsOf e :=
  Dev.put_withRegsOf d e p f _
theorem Dev.irq_withRegsOf (d e : Dev) (p : Nat) (f : Fld) : (d.irq p f).withRegsOf e = d.withRegsOf e := rfl
theorem Dev.bell_withRegsOf (d e : Dev) (w : Nat) : (d.bell w).withRegsOf e = d.withRegsOf e := rfl

theorem Dev.descr_withRegsOf (d e : Dev) (w code : Nat) (t : TaskOp) : (d.descr w code t).withRegsOf e = d.withRegsOf e := by
  rw [Dev.descr]
  repeat rw [Dev.put_withRegsOf]

/-! ### The doorbell -/

/-- A doorbell writes the eight descriptor words and no other register (R59). -/
theorem Dev.rd_descr_other (d : Dev) (w code : Nat) (t : TaskOp) {a : Nat} (h : a < pgTw w + 0x40 ∨ pgTw w + 0x60 ≤ a) :
    (d.descr w code t).rd a = d.rd a := by
  simp (disch := simp only [Fld.idx]; omega) only [Dev.descr, Dev.rd_put_other]

@[simp] theorem Dev.rd_bell (d : Dev) (w a : Nat) : (d.bell w).rd a = d.rd a :=
  Dev.rd_congr rfl a

theorem Dev.hostEventNow_bell (d : Dev) (w : Nat) : (d.bell w).ldg.hostEventNow = d.ldg.hostEventNow := rfl

theorem Dev.ldg_descr (d : Dev) (w code : Nat) (t : TaskOp) : (d.descr w code t).ldg = d.ldg := by
  rw [Dev.descr]
  repeat rw [Dev.put_ldg]

/-- Outside the descriptor words a captured submission reads as before. -/
theorem Dev.rd_bell_descr_other (d : Dev) (w code : Nat) (t : TaskOp) {a : Nat} (h : a < pgTw w + 0x40 ∨ pgTw w + 0x60 ≤ a) :
    ((d.descr w code t).bell w).rd a = d.rd a :=
  (Dev.rd_bell _ w a).trans (Dev.rd_descr_other d w code t h)

theorem Dev.get_bell_descr_other (d : Dev) (w code : Nat) (t : TaskOp) {p : Nat} {f : Fld}
    (h : p + f.off < pgTw w + 0x40 ∨ pgTw w + 0x60 ≤ p + f.off) : ((d.descr w code t).bell w).get p f = d.get p f := by
  rw [Dev.get, Dev.rd_bell_descr_other d w code t h, ← Dev.get]

/-- No doorbell changes who owns a window (R58). -/
theorem Dev.hostOwned_bell_descr (d : Dev) (w : Fin 64) (code : Nat) (t : TaskOp) (n : Nat) :
    ((d.descr w code t).bell w).hostOwned n = d.hostOwned n := by
  have hw := w.isLt
  have hlo := Dev.get_bell_descr_other d w code t (p := pgLdg) (f := LDG_OWNER_LO) (by simp only [pgTw, pgLdg]; omega)
  have hhi := Dev.get_bell_descr_other d w code t (p := pgLdg) (f := LDG_OWNER_HI) (by simp only [pgTw, pgLdg]; omega)
  rw [Dev.hostOwned, Dev.hostOwned, hlo, hhi]

/-! ### The refusal (R67) -/

section Refusal
variable (d : Dev) (w : Nat) (t : TaskOp) (byReserve : Bool) (x : Reason)

theorem Dev.refuse_false : d.refuse w t false x =
    ((d.put (pgTw w) TW_RESULT (t.tag.toNat * 2 ^ 16 + x.code * 2 ^ 8 + 3)).inc (pgTw w) TW_REFUSALS).irq (pgTw w) TW_IRQ_REFUSED :=
  rfl

theorem Dev.refuse_true : d.refuse w t true x = (d.refuse w t false x).inc pgRsv RSV_REFUSALS := rfl

/-- A refusal changes registers and the note of raised interrupts, nothing else. -/
theorem Dev.refuse_withRegsOf (e : Dev) : (d.refuse w t byReserve x).withRegsOf e = d.withRegsOf e := by
  have hown : (d.refuse w t false x).withRegsOf e = d.withRegsOf e := by
    rw [Dev.refuse_false, Dev.irq_withRegsOf, Dev.inc_withRegsOf, Dev.put_withRegsOf]
  cases byReserve with
  | false => exact hown
  | true => rw [Dev.refuse_true, Dev.inc_withRegsOf, hown]

/-- What the reserve counts besides is RSV_REFUSALS alone (R135). -/
theorem Dev.rd_refuse_reserve {a : Nat} (h : a ≠ pgRsv + RSV_REFUSALS.off) :
    (d.refuse w t byReserve x).rd a = (d.refuse w t false x).rd a := by
  cases byReserve with
  | false => rfl
  | true => rw [Dev.refuse_true, Dev.rd_inc_other _ h]

theorem Dev.get_refuse_reserve {p : Nat} {f : Fld} (h : p + f.off ≠ pgRsv + RSV_REFUSALS.off) :
    (d.refuse w t byReserve x).get p f = (d.refuse w t false x).get p f := by
  rw [Dev.get, Dev.rd_refuse_reserve d w t byReserve x h, ← Dev.get]

theorem Dev.rd_refuse_other {a : Nat} (hres : a ≠ pgTw w + TW_RESULT.off) (hraw : a ≠ pgTw w + PG_IRQ_RAW.off)
    (hcnt : a ≠ pgTw w + TW_REFUSALS.off) (hrsv : a ≠ pgRsv + RSV_REFUSALS.off) :
    (d.refuse w t byReserve x).rd a = d.rd a := by
  rw [Dev.rd_refuse_reserve d w t byReserve x hrsv, Dev.refuse_false, Dev.rd_irq_other (f := TW_IRQ_REFUSED) _ hraw, Dev.rd_inc_other _ hcnt,
    Dev.rd_put_other _ _ hres]

/-- The registers of a window's page are none of the reserve's. -/
theorem pgTw_ne_pgRsv (w : Fin 64) {i j : Nat} (hi : i < 0x1000) : pgTw w + i ≠ pgRsv + j := by
  have hw := w.isLt
  simp only [pgTw, pgRsv]
  omega

theorem Reason.code_lt (x : Reason) : x.code < 2 ^ 8 := by cases x <;> decide

/-- TW_RESULT shows the tag, the reason and REFUSED (R66). -/
theorem Dev.get_refuse_result (w : Fin 64) :
    (d.refuse w t byReserve x).get (pgTw w) TW_RESULT = t.tag.toNat * 2 ^ 16 + x.code * 2 ^ 8 + 3 := by
  have htag := t.tag.isLt
  have hcode := x.code_lt
  have hfits : t.tag.toNat * 2 ^ 16 + x.code * 2 ^ 8 + 3 < 2 ^ 32 := by omega
  rw [Dev.get_refuse_reserve d w t byReserve x (pgTw_ne_pgRsv w (by decide)), Dev.refuse_false, Dev.get_irq_other _ (by simp),
    Dev.get_inc_other _ (by simp), Dev.get_put_same _ _ _ _ (by decide), Nat.mod_eq_of_lt hfits]

theorem Dev.get_refuse_refusals (w : Fin 64) :
    (d.refuse w t byReserve x).get (pgTw w) TW_REFUSALS = min (2 ^ 32 - 1) (d.get (pgTw w) TW_REFUSALS + 1) := by
  rw [Dev.get_refuse_reserve d w t byReserve x (pgTw_ne_pgRsv w (by decide)), Dev.refuse_false, Dev.get_irq_other _ (by simp),
    Dev.get_inc_same _ _ _ (by decide), Dev.get_put_other _ _ (by simp)]

theorem Dev.flag_refuse_raised (w : Fin 64) : (d.refuse w t byReserve x).flag (pgTw w) TW_IRQ_REFUSED = true := by
  rw [Dev.flag_def, Dev.get_refuse_reserve d w t byReserve x (pgTw_ne_pgRsv w (by decide)), ← Dev.flag_def, Dev.refuse_false,
    Dev.irq_raised _ _ _ rfl (by decide)]

end Refusal

/-! ### The nine tasks -/

/-- Each of the nine commands submits its opcode's task (R61, R71). -/
theorem exec_instr_eq_submit (o : Opc) (w : Fin 64) (r : Requester) (k : TaskOp) (s : State) :
    exec (o.instr w r k) s = .next (s.noting (.cmd (o.instr w r k)) fun s => submit w r o.code (some o) k s) := by
  cases o <;> rfl

/-- A submission that is decided and fails a check of R65 ends in the refusal of what its doorbell captured. -/
theorem submit_cur_of_refused {o : Opc} {w : Fin 64} {r : Requester} {k : TaskOp} {x : Reason} {s : State}
    (hdec : s.decides w r = true) (hver : s.verdict w o k = some x) :
    ∃ byReserve, (submit w r o.code (some o) k s).cur = ((s.cur.descr w o.code k).bell w).refuse w k byReserve x := by
  simp only [State.decides, Bool.and_eq_true, Bool.not_eq_true'] at hdec
  obtain ⟨⟨hwrite, hidle⟩, hevent⟩ := hdec
  have hkept : (((s.cur.descr w o.code k).bell w).ldg.hostEventNow && ((s.cur.descr w o.code k).bell w).hostOwned w) = false := by
    rw [Dev.hostOwned_bell_descr, Dev.hostEventNow_bell, Dev.ldg_descr]; exact hevent
  rw [State.verdict] at hver
  simp only [submit, hwrite, hidle, hkept, hver, Bool.not_true, Bool.false_eq_true, if_false]
  exact ⟨_, rfl⟩

/-- Settles O4: each task submits, a decided submission that fails a check ends in `Dev.refuse`, and a refusal writes TW_RESULT,
TW_REFUSALS, PG_IRQ_RAW and RSV_REFUSALS behind the descriptor words and the note of the doorbell. -/
theorem refusalChangesNothing : Obligations.RefusalChangesNothing := by
  intro o w r k x s hdec hver
  refine ⟨_, exec_instr_eq_submit o w r k s, ?_⟩
  obtain ⟨byReserve, hcur⟩ := submit_cur_of_refused hdec hver
  rw [State.noting_cur, hcur]
  refine ⟨Dev.get_refuse_result _ k byReserve x w, ?_, Dev.flag_refuse_raised _ k byReserve x w, ?_, ?_⟩
  · rw [Dev.get_refuse_refusals, Dev.get_bell_descr_other _ _ _ _ (.inr (by simp))]
  · rw [← Dev.withRegsOf, Dev.refuse_withRegsOf, Dev.bell_withRegsOf, Dev.descr_withRegsOf, Dev.withRegsOf_self]
  · intro a hout hraw hcnt hrsv
    have hres : a ≠ pgTw w + TW_RESULT.off := by show a ≠ pgTw w + 0x64; omega
    rw [Dev.rd_refuse_other _ _ _ _ _ hres hraw hcnt hrsv]
    exact Dev.rd_bell_descr_other s.cur w o.code k (by omega)

end Sys2Proof.Machine
end

section
/-! The measured minimum of the reserve (R118): what the recompute leaves of MIN, AVAIL and BELOW_MIN, and why no APPEND is accepted
below the minimum. -/

namespace Sys2Proof.Machine

open Sys2Proof

/-! ### Registers beside the one written -/

theorem Dev.rd_setB_other (d : Dev) {p a : Nat} {f : Fld} (b : Bool) (h : a ≠ p + f.off) : (d.setB p f b).rd a = d.rd a :=
  Dev.rd_put_other d _ h

theorem Dev.get_eq_of_rd {d e : Dev} {p : Nat} {f : Fld} (h : d.rd (p + f.off) = e.rd (p + f.off)) : d.get p f = e.get p f := by
  rw [Dev.get, h, ← Dev.get]

theorem Dev.flag_eq_of_rd {d e : Dev} {p : Nat} {f : Fld} (h : d.rd (p + f.off) = e.rd (p + f.off)) : d.flag p f = e.flag p f := by
  rw [Dev.flag_def, Dev.get_eq_of_rd h, ← Dev.flag_def]

/-! ### MIN (R118) -/

/-- The registers whose fields make up MIN. -/
def rsvMinRegs : List Nat := [pgRsv + RSV_E_FIXED.off, pgRsv + RSV_E_UNIT_E_CW.off, pgRsv + RSV_MIN_MIN_CW.off]

theorem Dev.rsvMin_eq_of_rd {d e : Dev} (h : ∀ a ∈ rsvMinRegs, d.rd a = e.rd a) : d.rsvMin = e.rsvMin := by
  have hfixed : d.get pgRsv RSV_E_FIXED = e.get pgRsv RSV_E_FIXED := Dev.get_eq_of_rd (h _ (by decide))
  have hunit : d.get pgRsv RSV_E_UNIT_E_CW = e.get pgRsv RSV_E_UNIT_E_CW := Dev.get_eq_of_rd (h _ (by decide))
  have hmin : d.get pgRsv RSV_MIN_MIN_CW = e.get pgRsv RSV_MIN_MIN_CW := Dev.get_eq_of_rd (h _ (by decide))
  rw [Dev.rsvMin, hfixed, hunit, hmin, ← Dev.rsvMin]

theorem Dev.rsvMin_put (d : Dev) {p : Nat} {f : Fld} (v : Nat) (h : p + f.off ∉ rsvMinRegs) : (d.put p f v).rsvMin = d.rsvMin :=
  Dev.rsvMin_eq_of_rd fun _ ha => Dev.rd_put_other d v (ne_of_mem_of_not_mem ha h)

theorem Dev.rsvMin_setB (d : Dev) {p : Nat} {f : Fld} (b : Bool) (h : p + f.off ∉ rsvMinRegs) : (d.setB p f b).rsvMin = d.rsvMin :=
  Dev.rsvMin_put d _ h

theorem Dev.rsvMin_irq (d : Dev) {p : Nat} {f : Fld} (h : p + f.off ∉ rsvMinRegs) : (d.irq p f).rsvMin = d.rsvMin :=
  Dev.rsvMin_eq_of_rd fun _ ha => Dev.rd_irq_other d (ne_of_mem_of_not_mem ha h)

theorem Dev.rsvMin_planDone (d : Dev) : d.planDone.rsvMin = d.rsvMin := by
  rw [Dev.planDone]
  split
  · rw [Dev.rsvMin_irq _ (by decide), Dev.rsvMin_setB _ _ (by decide)]
  · rfl

/-- A derating that takes effect leaves MIN (R506). -/
theorem Dev.rsvMin_derated (d : Dev) (n : Nat) : (d.derated n).rsvMin = d.rsvMin := by
  rw [Dev.derated, Dev.rsvMin_planDone, Dev.rsvMin_setB _ _ (by decide), Dev.rsvMin_setB _ _ (by decide),
    Dev.rsvMin_put _ _ (by decide)]
  exact Dev.rsvMin_eq_of_rd fun a _ => Dev.rd_congr rfl a

/-! ### The recompute -/

/-- AVAIL fits its register (R113). -/
theorem Dev.availWith_lt (d : Dev) (n : Nat) : d.availWith n < 2 ^ 32 := by
  rw [Dev.availWith]
  split
  · decide
  · exact Nat.lt_succ_of_le (Nat.min_le_right _ _)

/-- The registers after a recompute, but for its interrupts and FSCH_STAT: AVAIL, BELOW_MIN by comparison with MIN, and DEFICIT stand over
a device whose derating is decided and whose MIN is the old one. -/
theorem Dev.recompute_rd (d : Dev) (h : d.flag pgRsv RSV_STAT_PF = false) :
    ∃ (e : Dev) (a : Nat) (short : Bool), e.rsvMin = d.rsvMin ∧ a < 2 ^ 32 ∧
      ∀ r, r ≠ pgRsv + PG_IRQ_RAW.off → r ≠ pgFsch + PG_IRQ_RAW.off → r ≠ pgFsch + FSCH_STAT_URGENT.off →
        d.recompute.rd r = (((e.put pgRsv RSV_AVAIL a).setB pgRsv RSV_STAT_BELOW_MIN (decide (a < e.rsvMin))).setB pgRsv
          RSV_STAT_DEFICIT short).rd r := by
  have hrun : d.recompute = _ := if_neg (by simp [h])
  extract_lets old e a below short wasBelow wasShort stated raisedMin raisedDeficit raisedUrgent at hrun
  refine ⟨e, a, short, ?derating, Dev.availWith_lt _ _, fun r hrsv hfsch hurgent => ?writes⟩
  case derating =>
    cases hwaiting : d.cal.derate with
    | none => simp only [e, hwaiting]
    | some n =>
      simp only [e, hwaiting]
      refine ite_both Dev.rsvMin (d.rsvMin_derated n) ?_
      rw [Dev.rsvMin_setB _ _ (by decide), Dev.rsvMin_setB _ _ (by decide)]
  case writes =>
    have hmin : raisedMin.rd r = stated.rd r := ite_both (Dev.rd · r) (Dev.rd_irq_other _ hrsv) rfl
    have hdeficit : raisedDeficit.rd r = raisedMin.rd r :=
      ite_both (Dev.rd · r) ((Dev.fault_rd ..).trans (Dev.rd_irq_other _ hrsv)) rfl
    have hurg : raisedUrgent.rd r = raisedDeficit.rd r := ite_both (Dev.rd · r) (Dev.rd_irq_other _ hfsch) rfl
    rw [hrun, Dev.rd_setB_other _ _ hurgent, hurg, hdeficit, hmin]

/-- The recompute keeps MIN, and the BELOW_MIN it leaves compares the AVAIL it leaves with MIN (R118). -/
theorem Dev.recompute_belowMin (d : Dev) (h : d.flag pgRsv RSV_STAT_PF = false) :
    d.recompute.flag pgRsv RSV_STAT_BELOW_MIN = decide (d.recompute.get pgRsv RSV_AVAIL < d.recompute.rsvMin) ∧
      d.recompute.rsvMin = d.rsvMin := by
  obtain ⟨e, a, short, hmin, hfits, hrd⟩ := d.recompute_rd h
  have hflag : d.recompute.flag pgRsv RSV_STAT_BELOW_MIN = decide (a < e.rsvMin) := by
    rw [Dev.flag_eq_of_rd (hrd _ (by decide) (by decide) (by decide)), Dev.flag_setB_apart _ _ (by decide),
      Dev.flag_setB_same _ _ _ _ rfl (by decide)]
  have havail : d.recompute.get pgRsv RSV_AVAIL = a := by
    rw [Dev.get_eq_of_rd (hrd _ (by decide) (by decide) (by decide)), Dev.get_setB_apart _ _ (by decide),
      Dev.get_setB_apart _ _ (by decide), Dev.get_put_same _ _ _ _ (by decide)]
    exact Nat.mod_eq_of_lt hfits
  have hkept : d.recompute.rsvMin = e.rsvMin := by
    rw [Dev.rsvMin_eq_of_rd fun r hr => hrd r (ne_of_mem_of_not_mem hr (by decide)) (ne_of_mem_of_not_mem hr (by decide))
        (ne_of_mem_of_not_mem hr (by decide)),
      Dev.rsvMin_setB _ _ (by decide), Dev.rsvMin_setB _ _ (by decide), Dev.rsvMin_put _ _ (by decide)]
  exact ⟨by rw [hflag, havail, hkept], hkept.trans hmin⟩

/-! ### APPEND below the minimum (R116) -/

/-- The reserve covers no task while BELOW_MIN is committed. -/
theorem reserveCovers_belowMin {vis : Dev} (h : vis.flag pgRsv RSV_STAT_BELOW_MIN = true) (d : Dev) (o : Opc) (t : TaskOp) :
    reserveCovers vis d o t = false := by
  simp [reserveCovers, h]

/-- Behind a check that refuses, what follows does not count. -/
theorem or_of_ite_some {c : Prop} [Decidable c] (r : Reason) (x y : Option Reason) :
    (if c then some r else x).or y = if c then some r else x.or y := by
  split <;> rfl

section Committed
variable (vis : Dev) (b : Bool)

theorem Dev.armed_setB_belowMin (w : Nat) :
    (vis.setB pgRsv RSV_STAT_BELOW_MIN b).flag (pgTw w) TW_CQ_CFG_ARMED = vis.flag (pgTw w) TW_CQ_CFG_ARMED := by
  rw [Dev.flag_def, Dev.setB_def, Dev.get_put_other _ _ (by simp only [pgTw, pgRsv]; omega), ← Dev.flag_def]

theorem Dev.fifoWords_setB_belowMin (k : Nat) : (vis.setB pgRsv RSV_STAT_BELOW_MIN b).fifoWords k = vis.fifoWords k := by
  rw [Dev.fifoWords, Dev.setB_def, Dev.get_put_other _ _ (by simp only [pgFk, pgRsv]; omega), ← Dev.fifoWords]

theorem Dev.bayWritable_setB_belowMin (k : Nat) : (vis.setB pgRsv RSV_STAT_BELOW_MIN b).bayWritable k = vis.bayWritable k := by
  rw [Dev.bayWritable, Dev.setB_def, Dev.get_put_other _ _ (by simp only [pgBay, pgRsv]; omega), ← Dev.bayWritable]

/-- BELOW_MIN enters the checks of R65 in check 17 alone, the last of all: below the minimum an APPEND is refused for the reason it would be
refused for above it, and for RESERVE if it would be accepted. -/
theorem decide65_append_belowMin (h : vis.flag pgRsv RSV_STAT_BELOW_MIN = true) (d : Dev) (w : Nat) (k : TaskOp) :
    decide65 vis d w (some .append) k =
      (decide65 (vis.setB pgRsv RSV_STAT_BELOW_MIN b) d w (some .append) k).or (some .reserve) := by
  simp only [decide65, or_of_ite_some, Option.none_or, ite_self, Dev.armed_setB_belowMin]
  simp only [badArg, badLength, taskBay, Dev.fifoWords_setB_belowMin, Dev.bayWritable_setB_belowMin, reserveCovers_belowMin h,
    Opc.charges, Bool.not_false, Bool.and_self, if_true]

end Committed

/-- Settles O55: the recompute compares the AVAIL it leaves with MIN, and check 17 refuses what the other checks of R65 let pass. -/
theorem belowMinimum : Obligations.BelowMinimum := by
  refine ⟨fun _ => rfl, Dev.recompute_belowMin, fun vis d w k h => ?_⟩
  rw [decide65_append_belowMin vis false h]
  exact ⟨by simp, fun hpass => by rw [hpass, Option.none_or]⟩

end Sys2Proof.Machine
end
